-- ==== Sys2Proof/Word.lean ====
section
/-! DEFINITION. The plain value types of the LX960 model: bytes, 32-bit words and the tagged 36-bit words of the sculls. -/

namespace Sys2Proof

/-- A byte. -/
abbrev Byte := BitVec 8

/-- A run of bytes, lowest address first. -/
abbrev Bytes := List Byte

/-- The handle by which the model names a command in flight (the model's own number, not the host's CID). -/
abbrev CmdId := Nat

/-- A 36-bit scull data word: tag in bits [35:32], value in bits [31:0] (R456). -/
abbrev TWord := BitVec 36

end Sys2Proof
end

