-- ==== Sys2Proof/Syntax.lean ====
section
/-! DEFINITION. The commands of the LX960: one constructor of `Instr` per row of spec/opcode_table.json, with the
operands that come from outside the block (host data, dies, devices, pins) or name the work a step is about. -/

namespace Sys2Proof

/-- One fetched NVMe submission entry: the dwords the manual defines, and the data pointer by its address, the bytes
it describes and whether it is an SGL (R149). `pieces` are the pages or segments, as (address, bytes), that a PRP list or an SGL of
several segments gives, in order; with none the buffer is one piece at `dptr`. -/
structure Sqe where
  admin : Bool
  opcode : BitVec 8
  cid : BitVec 16
  nsid : BitVec 32
  cdw2 : BitVec 32 := 0
  cdw3 : BitVec 32 := 0
  cdw10 : BitVec 32 := 0
  cdw11 : BitVec 32 := 0
  cdw12 : BitVec 32 := 0
  cdw13 : BitVec 32 := 0
  cdw14 : BitVec 32 := 0
  cdw15 : BitVec 32 := 0
  mptr : Nat := 0
  dptr : Nat := 0
  dptrLen : Nat := 0
  pieces : List (Nat × Nat) := []
  sgl : Bool := false
  deriving DecidableEq, Repr

/-- The statuses the LX960 returns: success, those of R631, and those of status code type 7h (R164). -/
inductive Status where
  | success
  | invalidField | invalidOpcode | invalidNamespaceOrFormat | dataSglLengthInvalid | commandSequenceError
  | invalidLogPage | invalidQueueIdentifier | controllerListInvalid | namespaceInsufficientCapacity
  | invalidFirmwareSlot | invalidFirmwareImage | unrecoveredReadError | compareFailure | namespaceWriteProtected
  | commandAbortRequested | anaInaccessible | anaTransition | sanitizeInProgress
  | internalContained | internalSafeHalt
  | profileUnknown | objectNotSealed | sampleRange | keySlotInvalid | nonceExhausted | authFailRetracted | checkFail
  | lengthMismatch | programFault | tenantQuota | viewTooLarge | outputFull | configMismatch | domainOffRetracted
  | objectUnknown | objectSealed | appendPosition | indexInvalid | objectExists | profileMismatch | variantInvalid
  | tableUnknown | programUnknown
  deriving DecidableEq, Repr

/-- One Dataset Management range: attributes, length in logical blocks, starting LBA. -/
structure DsmRange where
  attr : Nat
  len : Nat
  slba : Nat
  deriving DecidableEq, Repr

/-- The fields of the namespace data structure that a create uses: NSZE, NCAP, FLBAS, DPS, bytes 3840 and 3841 (R34). -/
structure NsData where
  nsze : Nat
  ncap : Nat
  flbas : Nat
  dps : Nat
  b3840 : Byte
  b3841 : Byte
  deriving DecidableEq, Repr

/-- A failure that reaches a view after its checks (R112): none; a checker that finds a tag mismatch, or a domain forced off,
after `written` bytes have left; and how many bytes have left when a unit that cannot be read is met. -/
inductive ViewFault where
  | none
  | readError (written : Nat)
  | tagMismatch (component written unitNo : Nat)
  | domainOff (written : Nat)
  deriving DecidableEq, Repr

/-- A unit that a checker of the command's own transfer finds corrupted (R26): the component of the checker, and the unit's place
in the transfer. -/
structure TagFault where
  component : Nat
  unitNo : Nat
  deriving DecidableEq, Repr

/-- What is stored of one 4 KiB unit (R240): its at-rest ciphertext, its integrity tag and its unit key. The LDPC parity and the
scrambling are not held: whether a codeword decodes is what a read's outcome says. -/
structure Codeword where
  data : Bytes
  tag : BitVec 64
  key : BitVec 64
  deriving DecidableEq, Repr

/-- What the decoder made of one read (R242): the places, in the read's list of units, of the codewords that do not decode, and
those that decode as something other than what was programmed there, as a read from a wrong address does (R249). -/
structure ReadOutcome where
  failed : List Nat := []
  misread : List (Nat × Codeword) := []
  deriving DecidableEq, Repr

/-- A withdrawable instance (R545). -/
inductive Instance where
  | cpe (n : Nat) | dge (n : Nat) | comp (n : Nat) | decomp (n : Nat)
  | asu (n : Nat) | sae (n : Nat) | dma (n : Nat) | flash (n : Nat)
  deriving DecidableEq, Repr

/-- What a channel found of one die at BOOT (R235): whether some copy of the parameter page passes its CRC, the geometry (bytes of
data and of spare per plane page, planes, native-mode blocks, bytes of a block), the bits per cell and timing mode, and the
blocks that are bad as manufactured. -/
structure DieReport where
  die : Nat
  crcOk : Bool := true
  pageBytes : Nat := 16384
  spareBytes : Nat := 1760
  planes : Nat := 4
  blocks : Nat
  blockBytes : Nat
  cell : Nat
  timing : Nat
  bad : List Nat := []
  deriving DecidableEq, Repr

/-- What a channel's training found: NV-LPDDR4 or NV-DDR3, and at each rate tried the read and write eye in
thousandths of a unit interval (R238). -/
structure ChanReport where
  ch : Nat
  lpddr4 : Bool
  eyes : List (Nat × Nat × Nat)
  deriving DecidableEq, Repr

/-- The check symbols' verdict on one DRAM line (R302). -/
inductive DramEcc where
  | clean | corrected | uncorrectable
  deriving DecidableEq, Repr

/-- One request of a port to the DMC (R289): `wrong` are the symbols of its burst that read wrongly, by DQ line (R302), and `alerts` is how
many times ALERT_N reported its write CRC (R304). -/
structure DramReq where
  port : Nat
  isWrite : Bool
  addr : Nat
  len : Nat
  data : Bytes := []
  wrong : List Nat := []
  alerts : Nat := 0
  deriving DecidableEq, Repr

/-- How a due same-bank refresh is handled (R296). -/
inductive RefreshAct where
  | issue | postpone | early
  deriving DecidableEq, Repr

/-- The margin tester's result for one rank (R293, R294). -/
structure RankReport where
  ch : Nat
  rank : Nat
  caMargin : Nat
  rdMargin : List Nat
  wrMargin : List Nat
  badLine : Option Nat
  deriving DecidableEq, Repr

/-- How a descriptor's move ended outside the engine (R323): bytes the host returned for a host source, and the
failure, if any, with the bytes written before it. -/
inductive MoveOutcome where
  | moved (hostData : Bytes)
  | srcError (written : Nat)
  | dstError (written : Nat)
  | tagMismatch (written : Nat)
  deriving DecidableEq, Repr

/-- How a CPE request ran: as its data say, with a state parity mismatch at a block (R378), with an uncorrectable SPL read, or
with a unit that fails its tag check on the plaintext side (R26). -/
inductive CpeOutcome where
  | ran | parity (block : Nat) | srcError | tagMismatch (unitNo : Nat)
  deriving DecidableEq, Repr

/-- Who drives a DGE context window (R385). -/
inductive DgeSource where
  | bootRom | coxA | coxB | coxC | feeder
  deriving DecidableEq, Repr

/-- A fault the ASU's checkers find during a search or a write: none, disagreeing match computations (R439; which of MATCH_TOTAL,
winner, step result), a parity mismatch of a physical row read out (R448), or a failing self-test of a bank group during a walk
(R453; the failing pattern). -/
inductive AsuFault where
  | none | disagree (group what : Nat) | rowParity (bank row : Nat) | selftest (group pattern : Nat)
  deriving DecidableEq, Repr

/-- One Sweep frame as received: the header of R572, its payload, and whether its CRC and its GCM tag pass (R573). -/
structure Frame where
  keyPhase : Bool := false
  seq : Nat
  ackSeq : Nat := 0
  keyNo : Nat := 0
  asn : BitVec 48 := 0
  nsid : Nat := 0
  unitNo : Nat := 0
  payload : Bytes := []
  crcOk : Bool := true
  tagOk : Bool := true
  deriving DecidableEq, Repr

/-- What a UNIT frame carries beside its header (R572, R579): for read data the non-owner's command that it is for, else the first
and last unit of the write or copy; and whether the unit's integrity tag passes (R26). -/
structure UnitBody where
  cid : Option Nat := none
  first : Nat := 0
  last : Nat := 0
  tagGood : Bool := true
  deriving DecidableEq, Repr

/-- A mirrored namespace as the partner holds it (R578, R589). -/
structure PairNs where
  nsid : Nat
  blocks : Nat
  lbaf : Nat
  pi : Nat := 0
  extended : Bool := false
  attached : Option Nat := none
  deriving DecidableEq, Repr

/-- The body of a HELLO (R589), what check 4 finds, the partner's mirrored namespaces, whether the partner has booted since the
link was lost, and the granules (NSID, granule) that its journal replay changed (R590). -/
structure HelloBody where
  pairId : BitVec 64
  position : Nat
  memberId : BitVec 64
  nonce : Bytes
  state : Nat
  fp : BitVec 64
  keyOk : Bool
  namespaces : List PairNs := []
  booted : Bool := false
  replayed : List (Nat × Nat) := []
  deriving DecidableEq, Repr

/-- The body of a HEARTBEAT (R585): mode, hold-up state, pair state, and the fingerprint when one is carried. -/
structure HeartbeatBody where
  mode : Nat
  holdupVolatile : Bool
  state : Nat
  fp : Option (BitVec 64)
  deriving DecidableEq, Repr

/-- The registers that have no row of their own, as REGISTER_WRITE names them (R8). -/
inductive Reg where
  | mbRequest (f off : Nat) | mbResponse (f off : Nat) | mbStatus (f : Nat) | mbIrq (f : Nat) | mbReserved (f off : Nat)
  | msixTable (f index dword : Nat) | msixPba (f index : Nat)
  | aqa (f : Nat) | asq (f : Nat) | acq (f : Nat) | cap (f : Nat) | vs (f : Nat) | csts (f : Nat)
  | devControl (f : Nat) | powerState (f : Nat) | aerStatus (port : Nat) | aerHeader (port dword : Nat)
  | dmfHead (ch : Nat) | dmfState (ch : Nat)
  | auReqCfg (inst req : Nat) | auState (inst : Nat)
  | dgeExpect (ctx index : Nat) | dgeStatus (ctx : Nat) | dgeResult (ctx index : Nat)
  | pgEntry (page index identity : Nat) | pgStatus (page identity : Nat) | pgCompletion (page index identity : Nat)
  deriving DecidableEq, Repr

/-- The commands: one constructor per row of spec/opcode_table.json, in the table's order. -/
inductive Instr where
  /-- SQ_TAIL_DOORBELL (R136): A host writes a submission queue tail doorbell, which makes new entries available for fetch. -/
  | sqTailDoorbell (f qid tail : Nat)
  /-- CQ_HEAD_DOORBELL (R133): A host advances a completion queue head, which releases completions held because the queue was full. -/
  | cqHeadDoorbell (f qid head : Nat)
  /-- FETCH_DECISION (R134): The fetch arbiter chooses the next submission queue, using admin priority, function round robin, token buckets, slots and free lock entries, and fetches one arbitration burst. -/
  | fetchDecision (reads : List Sqe)
  /-- ACCEPTANCE (R137): A fetched entry reaches the acceptance stage and receives its ASN, generation and profile epoch. -/
  | acceptance
  /-- COMPLETION_POST (R133): A finished command's completion entry is written to its completion queue, and it leaves the in-flight count. -/
  | completionPost (id : CmdId)
  /-- WRITE (R141): A Write moves its data into the power-protected buffer whether or not its granule locks are granted. -/
  | write (id : CmdId) (data : Bytes) (bad : Option TagFault := none)
  /-- GRANULE_COMMIT (R141): A write's granule commits once its exclusive lock is granted and all of its data is in the buffer, and the lock is released. -/
  | granuleCommit (id : CmdId) (g : Nat)
  /-- READ (R139): A Read takes shared granule locks and returns the data of the latest write accepted before it. -/
  | read (id : CmdId)
  /-- WRITE_ZEROES (R252): Write Zeroes sets fully covered units to UNMAPPED and writes zeros into partly covered units. -/
  | writeZeroes (id : CmdId)
  /-- COMPARE (R139): Compare reads the range under shared locks and compares it with the host data. -/
  | compare (id : CmdId) (data : Bytes)
  /-- VERIFY (R139): Verify reads the range under shared locks and checks it. -/
  | verify (id : CmdId)
  /-- FLUSH (R146): Flush completes once every write accepted before it has been programmed to flash. -/
  | flush (id : CmdId)
  /-- DATASET_MANAGEMENT (R147): A deallocate hint that counts as a write and sets fully covered units to UNMAPPED. -/
  | datasetManagement (id : CmdId) (ranges : List DsmRange)
  /-- ABORT (R155): Abort aborts its target only while the target still waits for a lock in the cycle the Abort reaches the lock table. -/
  | abort (id : CmdId)
  /-- FORMAT_NVM (R153): Format NVM, with an optional user-data or crypto erase, on every namespace of the issuing function. -/
  | formatNvm (id : CmdId)
  /-- SANITIZE (R153): Sanitize from a physical function acts on every namespace of the device. -/
  | sanitize (id : CmdId)
  /-- NAMESPACE_CREATE (R34): Namespace Management create makes a block or object namespace as bytes 3840 and 3841 state. -/
  | namespaceCreate (id : CmdId) (d : NsData)
  /-- NAMESPACE_DELETE (R272): Namespace Management delete removes a namespace and refunds its capacity charge. -/
  | namespaceDelete (id : CmdId)
  /-- NAMESPACE_ATTACH (R171): A namespace is attached to a function, and it is deallocated and re-keyed when the key owner changes. -/
  | namespaceAttach (id : CmdId) (ctrls : List Nat)
  /-- NAMESPACE_DETACH (R171): A namespace is detached, and its key owner and capacity charge are kept. -/
  | namespaceDetach (id : CmdId) (ctrls : List Nat)
  /-- CREATE_IO_SQ (R131): Create an I/O submission queue within the function's allotment. -/
  | createIoSq (id : CmdId)
  /-- CREATE_IO_CQ (R131): Create an I/O completion queue within the function's allotment. -/
  | createIoCq (id : CmdId)
  /-- DELETE_IO_SQ (R131): Delete an I/O submission queue. -/
  | deleteIoSq (id : CmdId)
  /-- DELETE_IO_CQ (R131): Delete an I/O completion queue. -/
  | deleteIoCq (id : CmdId)
  /-- IDENTIFY (R127): Identify returns the controller and namespace values the LX960 reports. -/
  | identify (id : CmdId)
  /-- GET_LOG_PAGE (R560): Get Log Page returns SMART, vendor 0xC0 or the Persistent Event Log. -/
  | getLogPage (id : CmdId)
  /-- GET_FEATURES (R130): Get Features returns a feature value. -/
  | getFeatures (id : CmdId)
  /-- SET_FEATURES_VOLATILE_WRITE_CACHE (R144): Set Features Volatile Write Cache is accepted only in the VOLATILE hold-up state. -/
  | setFeaturesVolatileWriteCache (id : CmdId)
  /-- SET_FEATURES_NUMBER_OF_QUEUES (R131): Set Features Number of Queues reports the function's queue allotment. -/
  | setFeaturesNumberOfQueues (id : CmdId)
  /-- SET_FEATURES_TIMESTAMP (R559): Set Features Timestamp records a TIME_MARK. -/
  | setFeaturesTimestamp (id : CmdId) (wallMs tick : Nat)
  /-- SET_FEATURES_TEMPERATURE_THRESHOLD (R621): Set Features Temperature Threshold sets the thresholds applied to the composite temperature. -/
  | setFeaturesTemperatureThreshold (id : CmdId)
  /-- ASYNCHRONOUS_EVENT_REQUEST (R127): Asynchronous Event Request places a request that an asynchronous event will complete. -/
  | asynchronousEventRequest (id : CmdId)
  /-- DEVICE_SELF_TEST (R130): Device Self-test admin command. -/
  | deviceSelfTest (id : CmdId)
  /-- VIRTUALIZATION_MANAGEMENT (R170): Virtualization Management from a physical function, including taking a function offline as a removal. -/
  | virtualizationManagement (id : CmdId)
  /-- NVME_MI_SEND (R130): NVMe-MI Send admin command. -/
  | nvmeMiSend (id : CmdId) (msg : Bytes)
  /-- NVME_MI_RECEIVE (R130): NVMe-MI Receive admin command. -/
  | nvmeMiReceive (id : CmdId)
  /-- RESERVATION_REGISTER (R130): Reservation Register command. -/
  | reservationRegister (id : CmdId) (crkey nrkey : BitVec 64)
  /-- RESERVATION_REPORT (R130): Reservation Report command. -/
  | reservationReport (id : CmdId)
  /-- RESERVATION_ACQUIRE (R130): Reservation Acquire command. -/
  | reservationAcquire (id : CmdId) (crkey prkey : BitVec 64)
  /-- RESERVATION_RELEASE (R130): Reservation Release command. -/
  | reservationRelease (id : CmdId) (crkey : BitVec 64)
  /-- FIRMWARE_IMAGE_DOWNLOAD (R222): A piece of a firmware image is downloaded into a writable slot. -/
  | firmwareImageDownload (id : CmdId) (data : Bytes)
  /-- FIRMWARE_COMMIT (R224): Firmware Commit checks the downloaded image's format, signature and SVN, and writes the slot. -/
  | firmwareCommit (id : CmdId)
  /-- FIRMWARE_COMMIT_ACTIVATE (R152): Firmware Commit with activation without reset stops fetching and waits for accepted commands to complete. -/
  | firmwareCommitActivate (id : CmdId)
  /-- FW_ACTIVATION (R226): Once the accepted commands have completed, the pairs activate the new image in the order B, C, A, or all fall back. -/
  | fwActivation (failed : Option Nat) (ms : Nat)
  /-- MAILBOX_SEND (R204): Admin opcode 0xC1 copies a request into the mailbox and rings the doorbell. -/
  | mailboxSend (id : CmdId) (data : Bytes)
  /-- MAILBOX_RECEIVE (R204): Admin opcode 0xC2 returns the response when STATE is DONE and SEQ matches. -/
  | mailboxReceive (id : CmdId)
  /-- CC_EN_CLEAR (R151): A host writes CC.EN from 1 to 0, a controller reset that aborts accepted commands and advances the generation. -/
  | ccEnClear (f : Nat)
  /-- CC_EN_SET (R151): A host writes CC.EN with 1, and the controller becomes ready within CAP.TO. -/
  | ccEnSet (f : Nat) (ams : BitVec 3)
  /-- NVM_SUBSYSTEM_RESET (R176): An NVM Subsystem Reset resets controllers and advances the generation of every function. -/
  | nvmSubsystemReset (f : Nat)
  /-- FUNCTION_LEVEL_RESET (R177): A Function Level Reset stops fetching for the function and retires its current generation. -/
  | functionLevelReset (f : Nat)
  /-- GENERATION_ADVANCE (R177): Once the pending counter of g + 1 is zero, the function's generation becomes g + 1. -/
  | generationAdvance (f : Nat) (waitedUs : Nat)
  /-- VF_DISABLE (R170): A write to the SR-IOV configuration that disables virtual functions removes them. -/
  | vfDisable (pf : Nat)
  /-- PCIE_PERST_ASSERT (R616): PCIE_PERSTn_N goes low, which holds the port's link in reset and resets the port's functions. -/
  | pciePerstAssert (port : Nat)
  /-- LINK_TRAINING (R614): After PERST rises or BOOT ends, the host PLL locks and the link trains. -/
  | linkTraining (port width speed : Nat)
  /-- PCIE_UNCORRECTABLE (R165): An AER uncorrectable error is detected on a port. -/
  | pcieUncorrectable (port : Nat) (status : BitVec 32) (header : BitVec 128)
  /-- HOST_REFCLK_LOST (R17): The host reference clock stops, and the HIF is held in reset while the other domains continue. -/
  | hostRefclkLost (port : Nat)
  /-- ESSENCE_APPEND (R39): ESSENCE APPEND creates an object or extends its length at the current offset. -/
  | essenceAppend (id : CmdId) (data : Bytes) (bad : Option TagFault := none)
  /-- SAMPLE_INDEX_LOAD (R53): SAMPLE INDEX LOAD starts the sample index or extends it. -/
  | sampleIndexLoad (id : CmdId) (data : Bytes)
  /-- OBJECT_SEAL (R48): OBJECT SEAL runs the index checks, computes the whole-object digest and seals the object. -/
  | objectSeal (id : CmdId)
  /-- OBJECT_QUERY (R55): OBJECT QUERY returns the object descriptor. -/
  | objectQuery (id : CmdId)
  /-- OBJECT_DELETE (R56): OBJECT DELETE makes the object absent for every command accepted after it. -/
  | objectDelete (id : CmdId)
  /-- CHUNK_REFS_RELEASE (R56): Once every earlier read of a deleted object has completed, its chunk references are released. -/
  | chunkRefsRelease (nsid oid : Nat)
  /-- CHUNK_FINGERPRINT (R58): A completed chunk is hashed with SHA-256, and its digest is looked up in the Chive table. -/
  | chunkFingerprint (nsid oid n : Nat)
  /-- VERIFY_COMPARE (R65): In verify mode, the stored chunk read back is compared byte for byte with the new chunk. -/
  | verifyCompare (nsid oid n : Nat) (readOk : Bool)
  /-- VIEW_READ_FRAGMENT (R79): VIEW READ with FORM 0 builds CMAF fragments or a TS segment. -/
  | viewReadFragment (id : CmdId) (fault : ViewFault)
  /-- VIEW_READ_INIT_SEGMENT (R79): VIEW READ with FORM 1 builds the initialisation segment. -/
  | viewReadInitSegment (id : CmdId) (fault : ViewFault)
  /-- VIEW_READ_BYTE_RANGE (R79): VIEW READ with FORM 2 returns a decrypted byte range of the stored object. -/
  | viewReadByteRange (id : CmdId) (fault : ViewFault)
  /-- VIEW_SIZE_FRAGMENT (R83): VIEW SIZE with FORM 0 reports the layout of a fragment view. -/
  | viewSizeFragment (id : CmdId)
  /-- VIEW_SIZE_INIT_SEGMENT (R83): VIEW SIZE with FORM 1 reports the length of the initialisation segment. -/
  | viewSizeInitSegment (id : CmdId)
  /-- VIEW_SIZE_BYTE_RANGE (R83): VIEW SIZE with FORM 2 reports the length of a byte range. -/
  | viewSizeByteRange (id : CmdId)
  /-- HOOK_REQUEST (R107): The SAE sends the six-word variant request for the next fragment to a hook scull on port 5. -/
  | hookRequest (id : CmdId)
  /-- HOOK_REPLY (R108): The hook's three-word reply arrives, and the variant is checked and selected. -/
  | hookReply (id : CmdId)
  /-- PROFILE_VERSION_FREE (R104): A retiring profile version is freed when the last view using it completes. -/
  | profileVersionFree (f kind num : Nat) (ver : BitVec 16)
  /-- MAILBOX_RING (R202): A RING reaches the cox domain and takes the request when the mailbox is IDLE or DONE, or sets IGNORED when it is BUSY. -/
  | mailboxRing (f : Nat)
  /-- MAILBOX_RESPONSE (R202): Pair A writes the response, then LAST_SEQ and STATE DONE, and then the MSI-X message. -/
  | mailboxResponse (f : Nat)
  /-- NONCE_EXPIRE (R207): A mailbox nonce expires 60 s after issue. -/
  | nonceExpire (f : Nat)
  /-- MB_ID_STATUS (R209): Return the identity and status fields. -/
  | mbIdStatus (f : Nat)
  /-- MB_FW_STATUS (R208): Return the state of the firmware slots. -/
  | mbFwStatus (f : Nat)
  /-- MB_ECHO (R208): Return the request payload unchanged. -/
  | mbEcho (f : Nat)
  /-- MB_CONFIG_STATUS (R215): Return the configuration state and the slot roles. -/
  | mbConfigStatus (f : Nat)
  /-- MB_CONFIG_STAGE (R216): Write a piece of a configuration image into the staged slot. -/
  | mbConfigStage (f : Nat)
  /-- MB_CONFIG_READ (R208): Read a piece of the configuration image in a role. -/
  | mbConfigRead (f : Nat)
  /-- MB_CONFIG_COMMIT (R217): Enter MAINTENANCE and wait for accepted I/O before the staged configuration is checked. -/
  | mbConfigCommit (f : Nat)
  /-- CONFIG_COMMIT_APPLY (R217): After accepted I/O completes, the fingerprint is recomputed, the checks run, the role map is written and the sections are applied. -/
  | configCommitApply (chans : List ChanReport := [])
  /-- MB_CONFIG_CONFIRM (R218): Confirm the configuration on trial. -/
  | mbConfigConfirm (f : Nat)
  /-- MB_CONFIG_ROLLBACK (R220): Revert a trial, or make PREVIOUS active. -/
  | mbConfigRollback (f : Nat)
  /-- MB_CONFIG_FACTORY (R216): Copy the factory image into the staged slot. -/
  | mbConfigFactory (f : Nat)
  /-- TRIAL_EXPIRE (R219): TRIAL_LEFT reaches 0 and the configuration reverts. -/
  | trialExpire
  /-- MB_TENANT_STATUS (R633): Return a tenant entry, its bucket levels and its usage. -/
  | mbTenantStatus (f : Nat)
  /-- MB_TENANT_RATE (R172): Replace a function's token bucket parameters at run time. -/
  | mbTenantRate (f : Nat)
  /-- TOKEN_TICK (R173): Every 1 µs, each applied bucket gains its rate, up to its depth. -/
  | tokenTick
  /-- MB_MIG_DIRTY_START (R180): Start dirty-page logging for a virtual function. -/
  | mbMigDirtyStart (f : Nat)
  /-- MB_MIG_DIRTY_HARVEST (R182): Switch the active dirty bitmap and freeze the other. -/
  | mbMigDirtyHarvest (f : Nat)
  /-- MB_MIG_DIRTY_STOP (R182): Freeze the active bitmap and end logging. -/
  | mbMigDirtyStop (f : Nat)
  /-- MB_MIG_QUIESCE (R183): Stop fetching for a function and wait for its accepted work to end. -/
  | mbMigQuiesce (f : Nat)
  /-- MB_MIG_RESUME (R183): Restart fetching for a quiesced function. -/
  | mbMigResume (f : Nat)
  /-- MB_MIG_SAVE (R184): Return a piece of a quiesced function's MAC-sealed state image. -/
  | mbMigSave (f : Nat)
  /-- MB_MIG_RESTORE (R185): Load a state image into a quiesced function after checking its MAC. -/
  | mbMigRestore (f : Nat)
  /-- MB_KEY_IMPORT (R358): Unwrap and stage a key into a slot. -/
  | mbKeyImport (f : Nat)
  /-- MB_KEY_ERASE (R358): Stage the erasure of a key slot. -/
  | mbKeyErase (f : Nat)
  /-- MB_KEY_STATUS (R354): Return a slot's state, ATTR and invocation count. -/
  | mbKeyStatus (f : Nat)
  /-- MB_KEK_IMPORT (R357): Install a function's KEK, or the maintenance key, under authorisation. -/
  | mbKekImport (f : Nat)
  /-- KEY_SLOT_SETTLE (R361): Once no work stamped before E remains, the old key is zeroised and the slot becomes LOADED or EMPTY. -/
  | keySlotSettle (slot : Nat)
  /-- MB_PROFILE_LOAD_PACKAGING (R89): Load a piece of a packaging profile, and check and commit it when complete. -/
  | mbProfileLoadPackaging (f : Nat)
  /-- MB_PROFILE_LOAD_ENCRYPTION (R89): Load a piece of an encryption profile, and check and commit it when complete. -/
  | mbProfileLoadEncryption (f : Nat)
  /-- MB_PROFILE_UNLOAD (R104): Unload a profile number, raise the epoch and start retiring the current version. -/
  | mbProfileUnload (f : Nat)
  /-- MB_PROFILE_STATUS (R208): Return the current version and the number of versions retiring. -/
  | mbProfileStatus (f : Nat)
  /-- MB_PROGRAM_LOAD_JERIEC (R498): Load a piece of a Jeriec image, and check and place it when complete. -/
  | mbProgramLoadJeriec (f : Nat)
  /-- MB_PROGRAM_LOAD_LX720 (R518): Load a piece of an LX720 filter, and check and translate it into a Jeriec program when complete. -/
  | mbProgramLoadLx720 (f : Nat)
  /-- MB_PROGRAM_UNLOAD (R500): Put a program in UNLOADING. -/
  | mbProgramUnload (f : Nat)
  /-- PROGRAM_FREE (R500): Once the accepted invocations of an UNLOADING program have ended, its sculls, pages and scratch are cleared and freed. -/
  | programFree (f handle : Nat)
  /-- MB_PROGRAM_STATUS (R500): Return a program's state, sculls and fault count. -/
  | mbProgramStatus (f : Nat)
  /-- MB_TABLE_CREATE (R440): Create an ASU table and charge its slabs. -/
  | mbTableCreate (f : Nat)
  /-- MB_TABLE_DELETE (R441): Delete a table after its earlier work, and free and refund its slabs. -/
  | mbTableDelete (f : Nat)
  /-- MB_TABLE_STATUS (R441): Return the rows used and the quota left. -/
  | mbTableStatus (f : Nat)
  /-- MB_EVT_READ (R556): Return the readable event records from a sequence number onwards. -/
  | mbEvtRead (f : Nat)
  /-- MB_EVT_CLEAR (R558): Record EVT_CLEARED and invalidate every other record. -/
  | mbEvtClear (f : Nat)
  /-- MB_EVT_TIMEMARK (R559): Record a TIME_MARK with the given wall time. -/
  | mbEvtTimemark (f tick : Nat)
  /-- MB_SAFETY_STATUS (R548): Return the mode, causes, hold-up figures and withdrawn instances. -/
  | mbSafetyStatus (f : Nat)
  /-- MB_AUTH_CHALLENGE (R207): Issue a fresh 16-byte nonce for an authorised command. -/
  | mbAuthChallenge (f : Nat)
  /-- MB_MAINT_ENTER (R540): Enter MAINTENANCE, or, authorised, MAINTENANCE held from SAFE-HALT. -/
  | mbMaintEnter (f : Nat)
  /-- MB_MAINT_EXIT (R540): Leave MAINTENANCE, or restart into BOOT from SAFE-HALT. -/
  | mbMaintExit (f : Nat)
  /-- DIAG_HOLDUP (R541): MB_DIAG_RUN test 0x0001 runs the hold-up self-test. -/
  | diagHoldup (f v0 v1 v2 : Nat)
  /-- DIAG_ENGINE_SWEEP (R541): MB_DIAG_RUN test 0x0002 runs the rotating self-test on every engine instance. -/
  | diagEngineSweep (f : Nat) (failed : List Instance)
  /-- DIAG_CLOCK (R541): MB_DIAG_RUN test 0x0003 checks every clock monitor. -/
  | diagClock (f : Nat) (failed : BitVec 9)
  /-- DIAG_MRAM_SCRUB (R541): MB_DIAG_RUN test 0x0004 reads every MRAM word. -/
  | diagMramScrub (f corrected uncorrectable : Nat)
  /-- DIAG_SPL_MARCH (R541): MB_DIAG_RUN test 0x0005 runs a march test of the SPL working area. -/
  | diagSplMarch (f lines : Nat)
  /-- MB_DRAM_PROFILE (R309): Return the DRAM status, the board profile and the BOOT margins. -/
  | mbDramProfile (f : Nat)
  /-- MB_FLASH_PROFILE (R239): Return a channel's profile and die entries. -/
  | mbFlashProfile (f : Nat)
  /-- MB_PAIR_STATUS (R592): Return the pair state and both fingerprints. -/
  | mbPairStatus (f : Nat)
  /-- MB_PAIR_JOIN (R591): Set the pair position and start joining. -/
  | mbPairJoin (f : Nat)
  /-- MB_PAIR_LEAVE (R591): Send LEAVE, unmap and detach the mirrored copies, and clear the position. -/
  | mbPairLeave (f : Nat)
  /-- FLASH_READ_COMPLETE (R244): A page read completes on a die and its units are hard-decoded, key-checked and placed in the SPL. -/
  | flashReadComplete (op : Nat) (r : ReadOutcome)
  /-- LADDER_RUNG_READ (R242): An extra read at shifted thresholds completes and its soft decode is tried. -/
  | ladderRungRead (op : Nat) (r : ReadOutcome)
  /-- FLASH_PROGRAM_COMPLETE (R267): A program completes, and the map is updated or the program failure is handled. -/
  | flashProgramComplete (op : Nat) (failed : List Nat)
  /-- FLASH_ERASE_COMPLETE (R267): An erase completes, or fails and retires its block. -/
  | flashEraseComplete (op : Nat) (failed : List Nat)
  /-- PROGRAM_SUSPEND (R244): A program or erase is suspended for a read that has waited 100 µs behind it. -/
  | programSuspend (op : Nat)
  /-- DIE_FAILED (R268): A die that stays busy for 10 ms, or fails three operations in a row, is declared failed. -/
  | dieFailed (die : Nat) (busy : Bool)
  /-- FOLD (R255): The fold engine copies the valid units of a closed SLC superblock to native mode. -/
  | fold (q : Nat)
  /-- GC_START (R261): A quad whose free-block count falls below GC_START starts collecting its emptiest superblock. -/
  | gcStart (q : Nat)
  /-- WEAR_LEVEL_RELOCATE (R264): An erase-count spread beyond WEAR_SPREAD relocates the least-worn data. -/
  | wearLevelRelocate (q : Nat)
  /-- READ_DISTURB_RELOCATE (R265): A block's read count reaching RD_LIMIT relocates its superblock. -/
  | readDisturbRelocate (q sb : Nat)
  /-- DISTURB_CHECKPOINT (R265): The read counts are checkpointed every 10 minutes. -/
  | disturbCheckpoint
  /-- PATROL_SCAN (R266): The patrol reads sample runs of closed superblocks and retunes their thresholds. -/
  | patrolScan (q sb rung corrected : Nat)
  /-- HOT_PROMOTE (R260): An extent whose estimate reaches HOT_PROMOTE is copied into the hot tier. -/
  | hotPromote (ext : Nat)
  /-- SKETCH_HALVING (R258): After 2^20 increments every sketch counter is halved. -/
  | sketchHalving
  /-- JOURNAL_PROGRAM (R251): Each full 256 KiB of journal records is programmed to SLC. -/
  | journalProgram
  /-- MAP_CHECKPOINT (R251): A checkpoint of dirty map pages and the directory is written after every 64 MiB of records. -/
  | mapCheckpoint
  /-- WRITE_STOP_READ_ONLY (R271): A die's free blocks fall to 8, and the device becomes read-only and DEGRADED. -/
  | writeStopReadOnly (die : Nat)
  /-- READ_ONLY_CLEARED (R272): Every used die again holds 24 free blocks, and read-only ends. -/
  | readOnlyCleared
  /-- FLASH_DISCOVERY (R235): At BOOT the channels read parameter pages, train and settle the reference geometry. -/
  | flashDiscovery (dies : List DieReport) (chans : List ChanReport)
  /-- JOURNAL_REPLAY (R251): At BOOT the last checkpoint is loaded, the journal replayed and the ledger applied. -/
  | journalReplay
  /-- DRAM_REQUEST (R289): A port's request reaches the DMC and is scheduled, corrected and returned. -/
  | dramRequest (r : DramReq)
  /-- ROW_DISTURB_WINDOW (R300): The 32 ms window ends, the counts restart and the throttles are lifted. -/
  | rowDisturbWindow
  /-- REFRESH (R296): A same-bank refresh falls due every tREFI. -/
  | refresh (ch rank bank : Nat) (act : RefreshAct)
  /-- ZQ_CALIBRATION (R292): ZQ calibration runs every 128 ms. -/
  | zqCalibration
  /-- MR4_READ (R292): MR4 is read every 32 ms to set the refresh rate. -/
  | mr4Read (doubled : Bool)
  /-- SCRUB_READ (R303): The scrubber reads each in-service line once in every 24 hours and writes back corrections. -/
  | scrubRead (ch rank line : Nat) (wrong : List Nat)
  /-- RANK_MIGRATED (R306): The last line is copied, the rank map changes and the old rank is RETIRED. -/
  | rankMigrated (ch rebuilt ms : Nat)
  /-- SPARE_INIT (R294): After BOOT the scrubber initialises and checks each spare rank. -/
  | spareInit (ch rank : Nat) (badLine : Option Nat)
  /-- SELF_REFRESH_ENTRY (R297): Pair C requests self-refresh, and each channel enters it or aborts on a request. -/
  | selfRefreshEntry (ch : Nat) (requestBefore requestAfter : Bool)
  /-- DRAM_BRINGUP (R293): At BOOT the PHYs, devices, margins and lines are brought up and checked. -/
  | dramBringup (reports : List RankReport)
  /-- CHANNEL_RING (R328): A write of RING to DMF_CH_DOORBELL readies the channel, sets PENDING or re-reads the link. -/
  | channelRing (ch : Nat)
  /-- CHANNEL_CLEAR (R328): A write of CLEAR to DMF_CH_DOORBELL returns a PARKED or HALTED channel to IDLE. -/
  | channelClear (ch : Nat)
  /-- AU_ROUND (R340): An arbitration unit grants its free resource to one requester and updates the wait counters. -/
  | auRound (inst : Nat) (asking : List Nat)
  /-- DESCRIPTOR_COMPLETE (R325): A descriptor's last write leaves the engine, and its STATUS, OWN and event follow. -/
  | descriptorComplete (ch : Nat) (r : MoveOutcome)
  /-- AU_COMMIT (R343): A write of GO to AU_COMMIT puts the shadow classes and limits in force at the next round. -/
  | auCommit (inst : Nat)
  /-- JOB_VERDICT (R331): A producer's PASS or FAIL arrives for a held JOB_END descriptor. -/
  | jobVerdict (ch : Nat) (pass : Bool)
  /-- UPSTREAM_FAIL (R331): A producer signals a failure on a channel before JOB_END. -/
  | upstreamFail (ch producer : Nat)
  /-- FORCE_OFF (R336): A forced shutdown stops the descriptors that touch a domain and retracts their jobs outside it. -/
  | forceOff (domain : Nat)
  /-- DOMAIN_POWER_DOWN (R335): An orderly power-down holds new grants to a domain and acknowledges once its active descriptors end. -/
  | domainPowerDown (domain : Nat)
  /-- PORT0_DMA_REQUEST (R337): A scull's five-word request on port 0 is checked and appended as a descriptor. -/
  | port0DmaRequest (k : Nat)
  /-- CPE_REQUEST (R362): A 64-byte entry enters the shared request queue. -/
  | cpeRequest (submitter : Nat) (entry : BitVec 512)
  /-- CPE_DISPATCH (R365): The dispatcher binds a waiting entry to a pipeline, takes any nonce and may suspend a normal request. -/
  | cpeDispatch
  /-- CPE_SLICE_END (R368): A 65,536-byte slice ends and the pipeline switches to the next request. -/
  | cpeSliceEnd (p : Nat)
  /-- CPE_REQUEST_COMPLETE (R363): A request ends with its completion, tag check and verdict. -/
  | cpeRequestComplete (p : Nat) (r : CpeOutcome)
  /-- DRBG_RESEED (R377): A pipeline DRBG reseeds after at most 2^24 blocks. -/
  | drbgReseed (p : Nat) (healthy : Bool)
  /-- RNG_HEALTH_FAIL (R379): No reseed passes within 1 ms, and a key-disclosure diagnostic is reported. -/
  | rngHealthFail (test : Nat)
  /-- CPE_PG_GO (R380): A write of GO submits a privileged page's entry. -/
  | cpePgGo (page identity : Nat)
  /-- CPE_PG_KEY (R380): A write of a page key that takes effect when the current request ends. -/
  | cpePgKey (page k identity : Nat) (key : Bytes) (attr : BitVec 16)
  /-- PAGE_VIOLATION (R381): A privileged page is accessed by another master, and the PSM is told. -/
  | pageViolation (page identity offset : Nat)
  /-- PORT1_CIPHER_REQUEST (R383): A scull's 15-word request on port 1 is checked and becomes a CPE entry. -/
  | port1CipherRequest (k : Nat)
  /-- DGE_CTX_CFG (R386): A write of CFG abandons any open message and opens a new one with its key. -/
  | dgeCtxCfg (ctx : Nat) (src : DgeSource) (cfg : BitVec 64)
  /-- DGE_CTX_DATA (R389): A write of 8 message bytes, which opens a new message when the context is DONE. -/
  | dgeCtxData (ctx : Nat) (word : BitVec 64)
  /-- DGE_CTX_LAST_DATA (R387): A write of the last word of the message. -/
  | dgeCtxLastData (ctx : Nat) (word : BitVec 64)
  /-- DGE_CTX_LAST_CNT (R387): A write of the byte count finishes the message with a digest or a compare-only outcome. -/
  | dgeCtxLastCnt (ctx : Nat) (cnt : BitVec 64)
  /-- DGE_CONTEXT_SWITCH (R392): At a 4 KiB boundary the scheduler saves a sealed context image and restores another. -/
  | dgeContextSwitch (p save restore : Nat) (tagOk : Bool)
  /-- PORT2_DIGEST_REQUEST (R394): A scull's request on port 2 feeds or finishes a digest. -/
  | port2DigestRequest (k : Nat)
  /-- TRANSFORM_COMPRESS (R410): TRANSFORM OP 0 compresses input with verification, stopping on OUTPUT_FULL or resuming. -/
  | transformCompress (id : CmdId) (data : Bytes) (verifyOk : Bool) (bad : Option TagFault := none)
  /-- TRANSFORM_DECOMPRESS (R414): TRANSFORM OP 1 decompresses and checks the stream against its declared length and trailer. -/
  | transformDecompress (id : CmdId) (data : Bytes) (bad : Option TagFault := none)
  /-- TRANSFORM_DIGEST (R420): TRANSFORM OP 2 computes a digest or a compare-only HMAC. -/
  | transformDigest (id : CmdId) (data : Bytes) (bad : Option TagFault := none)
  /-- TRANSFORM_ENCRYPT (R420): TRANSFORM OP 3 encrypts in GCM, CTR, CBC or 'cbcs'. -/
  | transformEncrypt (id : CmdId) (data : Bytes) (bad : Option TagFault := none)
  /-- TRANSFORM_DECRYPT (R420): TRANSFORM OP 4 decrypts, holding or releasing early for GCM. -/
  | transformDecrypt (id : CmdId) (data : Bytes) (bad : Option TagFault := none)
  /-- CMP_CONTEXT_EXPIRED (R418): A held context is discarded 1 s after the completion that left it held. -/
  | cmpContextExpired (ctx : Nat)
  /-- PORT3_COMPRESSION_REQUEST (R422): A scull's eight-word request on port 3 runs a compression or decompression job. -/
  | port3CompressionRequest (k : Nat) (verifyOk : Bool) (bad : Option TagFault := none)
  /-- INDEX_UPDATE (R444): Records are applied to a table in order until the first failure. -/
  | indexUpdate (id : CmdId) (data : Bytes) (fault : AsuFault := .none)
  /-- INDEX_SEARCH (R445): Each search of the list is run against the table and its matches are written in order. -/
  | indexSearch (id : CmdId) (list : Bytes) (fault : AsuFault)
  /-- ASU_SELFTEST (R448): Every 5 ms the test rows are written and searched, and a failing group is withdrawn. -/
  | asuSelftest (group pattern : Nat) (pass : Bool)
  /-- PORT4_SEARCH (R447): A scull's 11-word search on port 4. -/
  | port4Search (k : Nat) (fault : AsuFault)
  /-- PORT4_UPDATE (R447): A scull's 24-word entry write or invalidation on port 4. -/
  | port4Update (k : Nat) (fault : AsuFault := .none)
  /-- PROGRAM_INVOKE (R510): PROGRAM INVOKE moves the input into the SPL and queues an invocation. -/
  | programInvoke (id : CmdId) (data : Bytes)
  /-- FILTERED_READ (R511): FILTERED READ reads blocks, optionally decompresses them, and feeds a program through port 6. -/
  | filteredRead (id : CmdId)
  /-- INVOCATION_START (R503): A queued invocation goes to an idle scull, which is prepared and started at ENTRY. -/
  | invocationStart (f handle : Nat)
  /-- INVOCATION_FAULT_END (R484): After a trap, once every outstanding port request has replied, the invocation completes with PROGRAM_FAULT. -/
  | invocationFaultEnd (k : Nat)
  /-- BUDGET (R508): BUDGET_LEFT reaches 0, and the next interruption point traps. -/
  | budget (k : Nat)
  /-- INTERRUPT_ENTRY (R483): At an interruption point with IEN set and a mailbox or timer pending, control passes to IVEC. -/
  | interruptEntry (k : Nat)
  /-- TIMER_EXPIRY (R482): The port 9 one-shot expires and sets TIMER_EXPIRED. -/
  | timerExpiry (k : Nat)
  /-- LDL (R467): Load a local word by short address. -/
  | ldl (k : Nat) (d : BitVec 3) (short : BitVec 8) (ue : Bool)
  /-- STL (R467): Store a local word by short address. -/
  | stl (k : Nat) (s : BitVec 3) (short : BitVec 8)
  /-- LDX (R467): Load a shared word by short address. -/
  | ldx (k w : Nat) (d : BitVec 3) (short : BitVec 8) (ue : Bool)
  /-- STX (R467): Store a shared word by short address. -/
  | stx (k w : Nat) (s : BitVec 3) (short : BitVec 8)
  /-- MOVI (R473): Move a signed 8-bit immediate INT. -/
  | movi (k : Nat) (d : BitVec 3) (imm : BitVec 8)
  /-- BEQZ (R476): Branch if the register equals zero. -/
  | beqz (k : Nat) (d : BitVec 3) (off : BitVec 5)
  /-- BNEZ (R476): Branch if the register is not zero. -/
  | bnez (k : Nat) (d : BitVec 3) (off : BitVec 5)
  /-- BLTZ (R476): Branch if the register is below zero. -/
  | bltz (k : Nat) (d : BitVec 3) (off : BitVec 5)
  /-- BGEZ (R476): Branch if the register is at or above zero. -/
  | bgez (k : Nat) (d : BitVec 3) (off : BitVec 5)
  /-- ADD (R470): Add by tag. -/
  | add (k : Nat) (d s : BitVec 3)
  /-- SUB (R470): Subtract by tag. -/
  | sub (k : Nat) (d s : BitVec 3)
  /-- MUL (R470): Multiply INTs, keeping the low 32 bits. -/
  | mul (k : Nat) (d s : BitVec 3)
  /-- DIV (R470): Divide INTs, truncating. -/
  | div (k : Nat) (d s : BitVec 3)
  /-- REM (R470): Remainder of INTs. -/
  | rem (k : Nat) (d s : BitVec 3)
  /-- AND (R470): Bitwise AND. -/
  | and (k : Nat) (d s : BitVec 3)
  /-- OR (R470): Bitwise OR. -/
  | or (k : Nat) (d s : BitVec 3)
  /-- XOR (R470): Bitwise XOR. -/
  | xor (k : Nat) (d s : BitVec 3)
  /-- SHL (R470): Shift left by a register count. -/
  | shl (k : Nat) (d s : BitVec 3)
  /-- SHR (R470): Logical shift right by a register count. -/
  | shr (k : Nat) (d s : BitVec 3)
  /-- SAR (R470): Arithmetic shift right by a register count. -/
  | sar (k : Nat) (d s : BitVec 3)
  /-- MIN (R470): Signed minimum. -/
  | min (k : Nat) (d s : BitVec 3)
  /-- MAX (R470): Signed maximum. -/
  | max (k : Nat) (d s : BitVec 3)
  /-- EXTB (R470): Extract a byte of a BYTES word. -/
  | extb (k : Nat) (d s : BitVec 3)
  /-- MKPAIR (R470): Make a PAIR from two INTs. -/
  | mkpair (k : Nat) (d s : BitVec 3)
  /-- NOT (R470): Bitwise NOT. -/
  | not (k : Nat) (d s : BitVec 3)
  /-- ADDI (R470): Add a signed 5-bit immediate. -/
  | addi (k : Nat) (d : BitVec 3) (imm : BitVec 5)
  /-- SHLI (R470): Shift left by an immediate count. -/
  | shli (k : Nat) (d : BitVec 3) (imm : BitVec 5)
  /-- SHRI (R470): Logical shift right by an immediate count. -/
  | shri (k : Nat) (d : BitVec 3) (imm : BitVec 5)
  /-- SARI (R470): Arithmetic shift right by an immediate count. -/
  | sari (k : Nat) (d : BitVec 3) (imm : BitVec 5)
  /-- LD (R463): Load through a PTR with a displacement. -/
  | ld (k w : Nat) (d : BitVec 3) (a u : BitVec 2) (ue : Bool)
  /-- ST (R463): Store through a PTR with a displacement. -/
  | st (k w : Nat) (d : BitVec 3) (a u : BitVec 2)
  /-- SETDPG (R467): Set the local page. -/
  | setdpg (k : Nat) (page : BitVec 6)
  /-- ACSHR (R471): Arithmetic shift of an accumulator. -/
  | acshr (k : Nat) (x : BitVec 1) (n : BitVec 5)
  /-- REP (R478): Repeat the next instruction an immediate number of times. -/
  | rep (k : Nat) (n : BitVec 8)
  /-- REP_DR (R478): Repeat the next instruction a number of times held in a register. -/
  | repDr (k : Nat) (r : BitVec 3)
  /-- SETXPG (R467): Set the shared page. -/
  | setxpg (k : Nat) (r : BitVec 3)
  /-- JMPR (R477): Jump to a CODE register. -/
  | jmpr (k : Nat) (r : BitVec 3)
  /-- SETIV (R471): Set the interrupt vector. -/
  | setiv (k : Nat) (r : BitVec 3)
  /-- ACADD (R472): Add a sign-extended INT to an accumulator. -/
  | acadd (k : Nat) (x : BitVec 1) (r : BitVec 3)
  /-- FREEW (R465): Release a derived window and raise its incarnation. -/
  | freew (k : Nat) (a : BitVec 2)
  /-- RESTRICT (R465): Make a derived window with fewer rights. -/
  | restrict (k : Nat) (a m : BitVec 2)
  /-- TRAP (R485): Trap with a program-chosen code. -/
  | trap (k : Nat) (n : BitVec 4)
  /-- NOP (R471): No operation. -/
  | nop (k : Nat)
  /-- END (R505): End the invocation, whose outcome D1 and D0 decide. -/
  | endInv (k : Nat)
  /-- RETI (R483): Return from the interrupt handler. -/
  | reti (k : Nat)
  /-- EI (R483): Enable interrupts. -/
  | ei (k : Nat)
  /-- DI (R471): Disable interrupts. -/
  | di (k : Nat)
  /-- ACCLR (R471): Clear an accumulator. -/
  | acclr (k : Nat) (x : BitVec 1)
  /-- SEND (R480): Append a word to the message for a port. -/
  | send (k stall : Nat) (p : BitVec 4) (d : BitVec 3)
  /-- RECV (R480): Take the next reply word from a port. -/
  | recv (k stall : Nat) (p : BitVec 4) (d : BitVec 3)
  /-- BEQ (R476): Branch if equal. -/
  | beq (k : Nat) (s t : BitVec 3) (w : BitVec 14)
  /-- BNE (R476): Branch if not equal. -/
  | bne (k : Nat) (s t : BitVec 3) (w : BitVec 14)
  /-- BLT (R476): Branch if less, signed or by TICKS. -/
  | blt (k : Nat) (s t : BitVec 3) (w : BitVec 14)
  /-- BGE (R476): Branch if greater or equal, signed or by TICKS. -/
  | bge (k : Nat) (s t : BitVec 3) (w : BitVec 14)
  /-- BLTU (R476): Branch if less, unsigned. -/
  | bltu (k : Nat) (s t : BitVec 3) (w : BitVec 14)
  /-- BGEU (R476): Branch if greater or equal, unsigned. -/
  | bgeu (k : Nat) (s t : BitVec 3) (w : BitVec 14)
  /-- BTEQ (R476): Branch if the tag equals t. -/
  | bteq (k : Nat) (t : BitVec 4) (d : BitVec 3) (w : BitVec 14)
  /-- BTNE (R476): Branch if the tag differs from t. -/
  | btne (k : Nat) (t : BitVec 4) (d : BitVec 3) (w : BitVec 14)
  /-- JMP (R477): Jump to an absolute target. -/
  | jmp (k : Nat) (w : BitVec 14)
  /-- CALL (R477): Save the return CODE and jump. -/
  | call (k : Nat) (d : BitVec 3) (w : BitVec 14)
  /-- MKCODE (R477): Make the CODE of a target. -/
  | mkcode (k : Nat) (d : BitVec 3) (w : BitVec 14)
  /-- MOVW (R473): Move a signed 14-bit value. -/
  | movw (k : Nat) (d : BitVec 3) (w : BitVec 14)
  /-- MOVT (R473): Shift a register left by 14 and insert a value. -/
  | movt (k : Nat) (d : BitVec 3) (w : BitVec 14)
  /-- BRDY (R476): Branch if a port send or receive would not stall. -/
  | brdy (k : Nat) (sending : BitVec 1) (p : BitVec 4) (w : BitVec 14)
  /-- MOV (R472): Move between registers, converting at accumulators. -/
  | mov (k : Nat) (r s : BitVec 4)
  /-- RETAG (R474): Replace a permitted tag. -/
  | retag (k : Nat) (d : BitVec 3) (t : BitVec 4)
  /-- RDSPR (R458): Read a special register. -/
  | rdspr (k : Nat) (d : BitVec 3) (code : BitVec 4)
  /-- LDP (R464): Load through a PTR and post-increment it. -/
  | ldp (k w : Nat) (d : BitVec 3) (a : BitVec 2) (ue : Bool)
  /-- STP (R464): Store through a PTR and post-increment it. -/
  | stp (k w : Nat) (d : BitVec 3) (a : BitVec 2)
  /-- LDA (R475): Load a PTR into an A register. -/
  | lda (k w : Nat) (ka a u : BitVec 2) (ue : Bool)
  /-- STA (R475): Store a PTR from an A register. -/
  | sta (k w : Nat) (ka a u : BitVec 2)
  /-- AADD (R464): Add an INT to a PTR's offset. -/
  | aadd (k : Nat) (a : BitVec 2) (d : BitVec 3)
  /-- NARROW (R465): Make a shorter derived window. -/
  | narrow (k : Nat) (a : BitVec 2) (d : BitVec 3)
  /-- GETTAG (R474): Read a word's tag as an INT. -/
  | gettag (k : Nat) (d s : BitVec 3)
  /-- AOFF (R474): Read a PTR's offset. -/
  | aoff (k : Nat) (d : BitVec 3) (a : BitVec 2)
  /-- AREM (R474): Read the words remaining in a PTR's window. -/
  | arem (k : Nat) (d : BitVec 3) (a : BitVec 2)
  /-- MAC (R472): Multiply and accumulate. -/
  | mac (k : Nat) (x : BitVec 1) (s t : BitVec 3)
  /-- SUPPLY_FAIL_WARNING (R530): VSENSE_MAIN falls below 1.10 V and DRAIN begins. -/
  | supplyFailWarning (vsenseMv : Nat)
  /-- NV_WRITE_FENCE (R529): VSENSE_MAIN falls below 0.96 V, and no program, erase or MRAM write starts. -/
  | nvWriteFence (vsenseMv ms : Nat)
  /-- FLASH_WP_ASSERT (R529): Once a channel is idle, or 3 ms after the fence, FL_WP_N is driven low. -/
  | flashWpAssert (ch : Nat)
  /-- DRAIN_COMPLETE (R530): The drain programs end, the counters are mirrored and the main domains switch off into HOLD. -/
  | drainComplete (ms vsenseMv : Nat)
  /-- MAIN_VALID (R537): Main valid holds for 10 ms, and HOLD moves to BOOT. -/
  | mainValid (vsenseMv : Nat)
  /-- BOOT_COMPLETE (R614): BOOT checks finish, and the device enters SERVICE, DEGRADED or SAFE-HALT. -/
  | bootComplete (failed : List Instance)
  /-- RAIL_LIMIT_TRIP (R527): A rail leaves its limits, which raises the fence and leads to SAFE-HALT. -/
  | railLimitTrip (rail mv ms : Nat) (above : Bool)
  /-- AON_SWITCHOVER (R528): VDD_AON_MAIN falls below 1.62 V, and the always-on domain moves to backup. -/
  | aonSwitchover
  /-- AON_SWITCHBACK (R528): VDD_AON_MAIN returns for 1 ms, and the always-on domain moves back. -/
  | aonSwitchback
  /-- AON_POWER_UP (R537): An always-on input rises, and OFF moves to HOLD. -/
  | aonPowerUp (testEn : Bool)
  /-- AON_LOSS (R528): Both always-on inputs are lost, and the device goes to OFF. -/
  | aonLoss
  /-- POR_N (R615): A POR_N low held for 10 µs is taken as a supply-fail warning or resets the always-on domain. -/
  | porN
  /-- HOLDUP_TEST_START (R535): The hold-up self-test falls due, PP_IN_EN goes low and phase A starts. -/
  | holdupTestStart (vsenseMv v0 : Nat)
  /-- HOLDUP_PHASE_B (R535): At 2.05 ms V1 is sampled and the bleed load switches on. -/
  | holdupPhaseB (v1 : Nat)
  /-- HOLDUP_TEST_END (R535): At 4.05 ms V2 is sampled and C, P_D and T_PROJ decide pass or fail. -/
  | holdupTestEnd (v2 : Nat) (sagged : Bool)
  /-- REST_ENTRY (R538): The idle conditions hold for 1 ms, and the device enters REST. -/
  | restEntry
  /-- REST_EXIT (R539): A wake event opens the clock gates, exits self-refresh and resumes SERVICE. -/
  | restExit
  /-- SAFE_HALT_ENTERED (R546): A dangerous failure starts the hardware SAFE-HALT sequence. -/
  | safeHaltEntered (cause component : Nat) (safeDrain : Bool)
  /-- SAFE_DRAIN_COMPLETE (R546): The safe drain ends, then FL_WP_N goes low, DRAM self-refreshes and keys are zeroised. -/
  | safeDrainComplete (skipped : List Nat)
  /-- COX_LOCKSTEP (R33): A lockstep compare mismatch in a cox pair. -/
  | coxLockstep (pair cycle : Nat)
  /-- CLOCK_FAULT (R544): A clock monitor finds a domain's frequency out of range. -/
  | clockFault (domain khz : Nat)
  /-- ENGINE_SELFTEST (R545): The rotating self-test of an idle engine instance runs and withdraws or restores it. -/
  | engineSelftest (i : Instance) (pass : Bool) (pattern : Nat)
  /-- EVENT_RECORD_WRITE (R551): The recorder writes the next queued record to its ring slot. -/
  | eventRecordWrite
  /-- HOUR_COUNTER_TICK (R554): The operating-hour counter advances by one second. -/
  | hourCounterTick
  /-- COUNTER_MIRROR (R554): The counters are mirrored to MRAM every 60 s. -/
  | counterMirror
  /-- THERMAL_SAMPLE (R622): The sensors report every 100 ms, and throttling, critical state or shutdown follows. -/
  | thermalSample (kelvin : List Nat)
  /-- EXTEST (R617): TAP instruction EXTEST, active only with TEST_EN. -/
  | extest
  /-- IDCODE (R617): TAP instruction IDCODE. -/
  | idcode
  /-- SAMPLE_PRELOAD (R617): TAP instruction SAMPLE/PRELOAD. -/
  | samplePreload (cells : List Bool)
  /-- HIGHZ (R617): TAP instruction HIGHZ, active only with TEST_EN. -/
  | highz
  /-- CLAMP (R617): TAP instruction CLAMP, active only with TEST_EN. -/
  | clamp
  /-- BYPASS (R617): TAP instruction BYPASS. -/
  | bypass
  /-- HELLO (R589): A HELLO frame is received and the join checks run. -/
  | hello (fr : Frame) (h : HelloBody)
  /-- HELLO_SEND (R584): A JOINING side sends HELLO every 10 ms. -/
  | helloSend
  /-- UNIT (R579): A UNIT frame places a mirrored or copied unit in the partner's protected buffer. -/
  | unit (fr : Frame) (u : UnitBody)
  /-- HELD (R579): A HELD frame confirms that the partner holds a unit, which can allow the granule commit. -/
  | held (fr : Frame)
  /-- COMMAND (R578): A forwarded COMMAND frame is accepted at the owner. -/
  | command (fr : Frame) (cid : Nat) (e : Sqe)
  /-- COMPLETION (R578): A COMPLETION frame returns a forwarded command's result to the non-owner. -/
  | completion (fr : Frame) (c : Status) (dw0 dw1 : BitVec 32) (cid : Nat)
  /-- HEARTBEAT (R585): A HEARTBEAT is received, and the fingerprints are compared when one is carried. -/
  | heartbeat (fr : Frame) (h : HeartbeatBody)
  /-- HEARTBEAT_SEND (R585): A side sends a heartbeat every 1 ms. -/
  | heartbeatSend
  /-- REKEY (R574): A REKEY frame exchanges nonces for the next session key. -/
  | rekey (fr : Frame) (nonce : Bytes)
  /-- REKEY_START (R574): A sender's SEQ reaches 2^32 − 2^20 and it starts a re-key. -/
  | rekeyStart
  /-- LEAVE (R584): A LEAVE frame from the partner moves this side to SOLE. -/
  | leave (fr : Frame)
  /-- GO_BACK_N_RESEND (R573): ACK_SEQ stalls for 4 µs, and unacknowledged frames are resent. -/
  | goBackNResend
  /-- LINK_LOST (R587): No valid frame arrives for LOSS_MS, and the side becomes ISOLATED or SOLE. -/
  | linkLost (ms : Nat)
  /-- RESYNC_COPY (R590): The owner copies a granule to the partner at the resynchronisation rate. -/
  | resyncCopy (nsid g : Nat)
  /-- REGISTER_WRITE (R8): A write to a register that has no row of its own stores its value under its access code. -/
  | registerWrite (r : Reg) (value : BitVec 64)
  /-- PAIR_UP_IN (R587): The filtered PAIR_UP_IN line changes level, and an ISOLATED side whose partner's line falls becomes SOLE and runs the takeover. -/
  | pairUpIn (level : Bool)
  /-- HOST_REFCLK_RETURN (R17): The 100 MHz host reference returns, the HIF leaves reset and the host PLL locks so the link can train. -/
  | hostRefclkReturn (port : Nat)
  /-- POR_N_RISE (R615): POR_N rises, and the device leaves OFF for HOLD and then BOOT once main valid holds, recording POR_PIN_RESET. -/
  | porNRise (testEn : Bool)
  /-- SET_FEATURES_ARBITRATION (R134): Set Features Arbitration sets the arbitration burst and the high, medium and low weights that the fetch arbiter uses. -/
  | setFeaturesArbitration (id : CmdId)
  /-- VF_ENABLE (R125): A write of SR-IOV NumVFs and VF Enable makes virtual functions present with their BARs, queues and generations. -/
  | vfEnable (pf num : Nat)
  /-- NVME_MI_OVER_SMBUS (R604): An NVMe-MI message arrives over SMBus on SMB_SCL and SMB_SDA and is answered out of band. -/
  | nvmeMiOverSmbus (msg : Bytes)
  /-- TRST_N (R604): TRST_N is driven low, which resets the IEEE 1149.1 test access port. -/
  | trstN
  /-- PROG_PARITY (R468): A scull fetch that finds a program word with a parity error, or an address at or above PL, traps before any instruction is decoded. -/
  | progParity (k : Nat)
  deriving DecidableEq, Repr

end Sys2Proof
end

