-- ==== Sys2Proof/Decode.lean ====
section
/-! DEFINITION. The command a word spells by the opcode table's bits. Every row of spec/opcode_table.json has an empty
list of fields and gives its command no bits, so no word spells a command. -/

namespace Sys2Proof

/-- The command spelled by the low `nbits` bits `w` of a table row: none, since no row of the table gives bits. -/
def decodeTableWord (_nbits _w : Nat) : Option Instr := none

end Sys2Proof
end

