-- ==== Sys2Proof/Machine/Bits.lean ====
section
/-! DEFINITION. Bytes, integers and bit fields: the little-endian and big-endian readings, and padding, that every
family uses. -/

namespace Sys2Proof.Machine

/-- The byte of a number: its low 8 bits. -/
def byteOf (n : Nat) : Byte := BitVec.ofNat 8 n

/-- `n` as `k` little-endian bytes. -/
def leBytes : Nat → Nat → Bytes
  | 0, _ => []
  | k + 1, n => byteOf n :: leBytes k (n / 256)

/-- `n` as `k` big-endian bytes. -/
def beBytes (k n : Nat) : Bytes := (leBytes k n).reverse

/-- The integer a little-endian run of bytes holds. -/
def leNat : Bytes → Nat
  | [] => 0
  | b :: bs => b.toNat + 256 * leNat bs

/-- The integer a big-endian run of bytes holds. -/
def beNat (bs : Bytes) : Nat := bs.foldl (fun n b => 256 * n + b.toNat) 0

/-- `n` bytes from offset `i`, zero where the run is shorter. -/
def slice (bs : Bytes) (i n : Nat) : Bytes :=
  let t := (bs.drop i).take n
  t ++ List.replicate (n - t.length) 0

/-- The little-endian integer in `n` bytes at offset `i`. -/
def leAt (bs : Bytes) (i n : Nat) : Nat := leNat (slice bs i n)

/-- The big-endian integer in `n` bytes at offset `i`. -/
def beAt (bs : Bytes) (i n : Nat) : Nat := beNat (slice bs i n)

/-- The byte at offset `i`, as a number. -/
def byteAt (bs : Bytes) (i : Nat) : Nat := leAt bs i 1

/-- The first `n` bytes, zero-filled on the right to `n`. -/
def padTo (n : Nat) (bs : Bytes) : Bytes := slice bs 0 n

/-- `bs` with `new` stored at offset `i` (the run grows, zero-filled, when it is shorter). -/
def splice (bs : Bytes) (i : Nat) (new : Bytes) : Bytes :=
  slice bs 0 i ++ new ++ bs.drop (i + new.length)

/-- Field [hi:lo] of a number. -/
def field (n hi lo : Nat) : Nat := (n / 2 ^ lo) % 2 ^ (hi + 1 - lo)

/-- Bit `i` of a number. -/
def bit (n i : Nat) : Bool := n.testBit i

/-- 0 or 1. -/
def flag (b : Bool) : Nat := if b then 1 else 0

/-- The quotient rounded up. -/
def ceilDiv (a b : Nat) : Nat := (a + b - 1) / b

/-- Every byte of a run is zero. -/
def allZero (bs : Bytes) : Bool := bs.all (· == 0)

/-- Bytewise exclusive or, as long as the shorter run. -/
def xorBytes (a b : Bytes) : Bytes := List.zipWith (· ^^^ ·) a b

/-- A list cut into runs of `n`, the last one shorter; `fuel` bounds the number of runs. -/
def chunksAux {α : Type} (n : Nat) : Nat → List α → List (List α)
  | 0, _ => []
  | _ + 1, [] => []
  | fuel + 1, x :: xs => (x :: xs).take n :: chunksAux n fuel ((x :: xs).drop n)

/-- A list cut into runs of `n` (n at least 1), the last one shorter. -/
def chunksOf {α : Type} (n : Nat) (l : List α) : List (List α) := chunksAux n l.length l

/-- The element at a place, or a default. -/
def nth {α : Type} (d : α) (l : List α) (i : Nat) : α := l.getD i d

/-- `l` without its duplicates, first occurrences kept. -/
def nubNat (l : List Nat) : List Nat := l.foldl (fun acc x => if acc.contains x then acc else acc ++ [x]) []

end Sys2Proof.Machine
end

