-- ==== Sys2Proof/Machine/Aes.lean ====
section
/-! DEFINITION. AES and the modes the cipher engine runs: CTR, CBC, the 'cbcs' pattern, GCM, XTS, and the key wrap of RFC 3394
(R355 to R359, R366 to R373; FIPS 197, SP 800-38A, SP 800-38D, IEEE 1619). -/

namespace Sys2Proof.Machine

/-- The AES S-box (FIPS 197). -/
def aesSbox : List (Byte) :=
  [0x63, 0x7C, 0x77, 0x7B, 0xF2, 0x6B, 0x6F, 0xC5, 0x30, 0x01, 0x67, 0x2B, 0xFE, 0xD7, 0xAB, 0x76] ++
  [0xCA, 0x82, 0xC9, 0x7D, 0xFA, 0x59, 0x47, 0xF0, 0xAD, 0xD4, 0xA2, 0xAF, 0x9C, 0xA4, 0x72, 0xC0] ++
  [0xB7, 0xFD, 0x93, 0x26, 0x36, 0x3F, 0xF7, 0xCC, 0x34, 0xA5, 0xE5, 0xF1, 0x71, 0xD8, 0x31, 0x15] ++
  [0x04, 0xC7, 0x23, 0xC3, 0x18, 0x96, 0x05, 0x9A, 0x07, 0x12, 0x80, 0xE2, 0xEB, 0x27, 0xB2, 0x75] ++
  [0x09, 0x83, 0x2C, 0x1A, 0x1B, 0x6E, 0x5A, 0xA0, 0x52, 0x3B, 0xD6, 0xB3, 0x29, 0xE3, 0x2F, 0x84] ++
  [0x53, 0xD1, 0x00, 0xED, 0x20, 0xFC, 0xB1, 0x5B, 0x6A, 0xCB, 0xBE, 0x39, 0x4A, 0x4C, 0x58, 0xCF] ++
  [0xD0, 0xEF, 0xAA, 0xFB, 0x43, 0x4D, 0x33, 0x85, 0x45, 0xF9, 0x02, 0x7F, 0x50, 0x3C, 0x9F, 0xA8] ++
  [0x51, 0xA3, 0x40, 0x8F, 0x92, 0x9D, 0x38, 0xF5, 0xBC, 0xB6, 0xDA, 0x21, 0x10, 0xFF, 0xF3, 0xD2] ++
  [0xCD, 0x0C, 0x13, 0xEC, 0x5F, 0x97, 0x44, 0x17, 0xC4, 0xA7, 0x7E, 0x3D, 0x64, 0x5D, 0x19, 0x73] ++
  [0x60, 0x81, 0x4F, 0xDC, 0x22, 0x2A, 0x90, 0x88, 0x46, 0xEE, 0xB8, 0x14, 0xDE, 0x5E, 0x0B, 0xDB] ++
  [0xE0, 0x32, 0x3A, 0x0A, 0x49, 0x06, 0x24, 0x5C, 0xC2, 0xD3, 0xAC, 0x62, 0x91, 0x95, 0xE4, 0x79] ++
  [0xE7, 0xC8, 0x37, 0x6D, 0x8D, 0xD5, 0x4E, 0xA9, 0x6C, 0x56, 0xF4, 0xEA, 0x65, 0x7A, 0xAE, 0x08] ++
  [0xBA, 0x78, 0x25, 0x2E, 0x1C, 0xA6, 0xB4, 0xC6, 0xE8, 0xDD, 0x74, 0x1F, 0x4B, 0xBD, 0x8B, 0x8A] ++
  [0x70, 0x3E, 0xB5, 0x66, 0x48, 0x03, 0xF6, 0x0E, 0x61, 0x35, 0x57, 0xB9, 0x86, 0xC1, 0x1D, 0x9E] ++
  [0xE1, 0xF8, 0x98, 0x11, 0x69, 0xD9, 0x8E, 0x94, 0x9B, 0x1E, 0x87, 0xE9, 0xCE, 0x55, 0x28, 0xDF] ++
  [0x8C, 0xA1, 0x89, 0x0D, 0xBF, 0xE6, 0x42, 0x68, 0x41, 0x99, 0x2D, 0x0F, 0xB0, 0x54, 0xBB, 0x16]

/-- The AES inverse S-box (FIPS 197). -/
def aesInvSbox : List (Byte) :=
  [0x52, 0x09, 0x6A, 0xD5, 0x30, 0x36, 0xA5, 0x38, 0xBF, 0x40, 0xA3, 0x9E, 0x81, 0xF3, 0xD7, 0xFB] ++
  [0x7C, 0xE3, 0x39, 0x82, 0x9B, 0x2F, 0xFF, 0x87, 0x34, 0x8E, 0x43, 0x44, 0xC4, 0xDE, 0xE9, 0xCB] ++
  [0x54, 0x7B, 0x94, 0x32, 0xA6, 0xC2, 0x23, 0x3D, 0xEE, 0x4C, 0x95, 0x0B, 0x42, 0xFA, 0xC3, 0x4E] ++
  [0x08, 0x2E, 0xA1, 0x66, 0x28, 0xD9, 0x24, 0xB2, 0x76, 0x5B, 0xA2, 0x49, 0x6D, 0x8B, 0xD1, 0x25] ++
  [0x72, 0xF8, 0xF6, 0x64, 0x86, 0x68, 0x98, 0x16, 0xD4, 0xA4, 0x5C, 0xCC, 0x5D, 0x65, 0xB6, 0x92] ++
  [0x6C, 0x70, 0x48, 0x50, 0xFD, 0xED, 0xB9, 0xDA, 0x5E, 0x15, 0x46, 0x57, 0xA7, 0x8D, 0x9D, 0x84] ++
  [0x90, 0xD8, 0xAB, 0x00, 0x8C, 0xBC, 0xD3, 0x0A, 0xF7, 0xE4, 0x58, 0x05, 0xB8, 0xB3, 0x45, 0x06] ++
  [0xD0, 0x2C, 0x1E, 0x8F, 0xCA, 0x3F, 0x0F, 0x02, 0xC1, 0xAF, 0xBD, 0x03, 0x01, 0x13, 0x8A, 0x6B] ++
  [0x3A, 0x91, 0x11, 0x41, 0x4F, 0x67, 0xDC, 0xEA, 0x97, 0xF2, 0xCF, 0xCE, 0xF0, 0xB4, 0xE6, 0x73] ++
  [0x96, 0xAC, 0x74, 0x22, 0xE7, 0xAD, 0x35, 0x85, 0xE2, 0xF9, 0x37, 0xE8, 0x1C, 0x75, 0xDF, 0x6E] ++
  [0x47, 0xF1, 0x1A, 0x71, 0x1D, 0x29, 0xC5, 0x89, 0x6F, 0xB7, 0x62, 0x0E, 0xAA, 0x18, 0xBE, 0x1B] ++
  [0xFC, 0x56, 0x3E, 0x4B, 0xC6, 0xD2, 0x79, 0x20, 0x9A, 0xDB, 0xC0, 0xFE, 0x78, 0xCD, 0x5A, 0xF4] ++
  [0x1F, 0xDD, 0xA8, 0x33, 0x88, 0x07, 0xC7, 0x31, 0xB1, 0x12, 0x10, 0x59, 0x27, 0x80, 0xEC, 0x5F] ++
  [0x60, 0x51, 0x7F, 0xA9, 0x19, 0xB5, 0x4A, 0x0D, 0x2D, 0xE5, 0x7A, 0x9F, 0x93, 0xC9, 0x9C, 0xEF] ++
  [0xA0, 0xE0, 0x3B, 0x4D, 0xAE, 0x2A, 0xF5, 0xB0, 0xC8, 0xEB, 0xBB, 0x3C, 0x83, 0x53, 0x99, 0x61] ++
  [0x17, 0x2B, 0x04, 0x7E, 0xBA, 0x77, 0xD6, 0x26, 0xE1, 0x69, 0x14, 0x63, 0x55, 0x21, 0x0C, 0x7D]

/-- Multiplication by x in the AES field. -/
def xtime (b : Byte) : Byte := if b.msb then (b <<< 1) ^^^ 0x1B else b <<< 1

/-- Multiplication in the AES field by a small constant. -/
def gfMul (c : Nat) (b : Byte) : Byte :=
  let t := fun i (x : Byte) => if bit c i then x else 0
  t 0 b ^^^ t 1 (xtime b) ^^^ t 2 (xtime (xtime b)) ^^^ t 3 (xtime (xtime (xtime b)))

/-- The S-box applied to a byte. -/
def subByte (b : Byte) : Byte := nth 0 aesSbox b.toNat

/-- The inverse S-box applied to a byte. -/
def invSubByte (b : Byte) : Byte := nth 0 aesInvSbox b.toNat

/-- A 16-byte state with its bytes taken from the given places. -/
def permute (p : List Nat) (s : Bytes) : Bytes := p.map (fun i => nth 0 s i)

/-- ShiftRows. -/
def shiftRows (s : Bytes) : Bytes := permute [0, 5, 10, 15, 4, 9, 14, 3, 8, 13, 2, 7, 12, 1, 6, 11] s

/-- InvShiftRows. -/
def invShiftRows (s : Bytes) : Bytes := permute [0, 13, 10, 7, 4, 1, 14, 11, 8, 5, 2, 15, 12, 9, 6, 3] s

/-- Each column multiplied by the circulant matrix whose first row is given. -/
def mixWith (r : List Nat) (s : Bytes) : Bytes :=
  ((chunksOf 4 s).map (fun c => (List.range 4).map (fun i =>
    ((List.range 4).map (fun j => gfMul (nth 0 r ((j + 4 - i) % 4)) (nth 0 c j))).foldl (· ^^^ ·) 0))).flatten

/-- The key schedule: words, newest first; `n` more words of a key of `nk` words. -/
def aesExpand (nk : Nat) : Nat → Nat → Byte → List Bytes → List Bytes
  | 0, _, _, ws => ws
  | n + 1, i, rc, ws =>
    let prev := nth [] ws 0
    let back := nth [] ws (nk - 1)
    if i % nk = 0 then
      let t := (permute [1, 2, 3, 0] prev).map subByte
      aesExpand nk n (i + 1) (xtime rc) (xorBytes back (xorBytes t [rc, 0, 0, 0]) :: ws)
    else if nk = 8 ∧ i % nk = 4 then aesExpand nk n (i + 1) rc (xorBytes back (prev.map subByte) :: ws)
    else aesExpand nk n (i + 1) rc (xorBytes back prev :: ws)

/-- The round keys of a 16-byte or 32-byte key. -/
def roundKeys (key : Bytes) : List Bytes :=
  let nk := if key.length = 32 then 8 else 4
  let k := padTo (4 * nk) key
  (chunksOf 4 ((aesExpand nk (4 * (nk + 7) - nk) nk 1 (chunksOf 4 k).reverse).reverse)).map (·.flatten)

/-- AES of one block under round keys. -/
def aesEncRk (rks : List Bytes) (b : Bytes) : Bytes :=
  let n := rks.length - 1
  let s := xorBytes b (nth [] rks 0)
  let s := ((List.range (n - 1)).map (· + 1)).foldl
    (fun s i => xorBytes (mixWith [2, 3, 1, 1] (shiftRows (s.map subByte))) (nth [] rks i)) s
  xorBytes (shiftRows (s.map subByte)) (nth [] rks n)

/-- The inverse of AES of one block under round keys. -/
def aesDecRk (rks : List Bytes) (b : Bytes) : Bytes :=
  let n := rks.length - 1
  let s := (invShiftRows (xorBytes b (nth [] rks n))).map invSubByte
  let s := ((List.range (n - 1)).map (fun i => n - 1 - i)).foldl
    (fun s i => (invShiftRows (mixWith [14, 11, 13, 9] (xorBytes s (nth [] rks i)))).map invSubByte) s
  xorBytes s (nth [] rks 0)

/-- AES of one 16-byte block. -/
def aesEnc (key b : Bytes) : Bytes := aesEncRk (roundKeys key) b

/-- The inverse of AES of one 16-byte block. -/
def aesDec (key b : Bytes) : Bytes := aesDecRk (roundKeys key) b

/-- CTR (R366): the low 64 bits of the counter block rise by 1 per block, modulo 2^64. -/
def aesCtr (key iv data : Bytes) : Bytes :=
  let rks := roundKeys key
  (((chunksOf 16 data).zipIdx).map (fun b =>
    xorBytes b.1 (aesEncRk rks (iv.take 8 ++ beBytes 8 ((beAt iv 8 8 + b.2) % 2 ^ 64))))).flatten

/-- CBC encryption over whole blocks. -/
def cbcEncBlocks (rks : List Bytes) : Bytes → List Bytes → List Bytes
  | _, [] => []
  | prev, b :: bs => let c := aesEncRk rks (xorBytes b prev); c :: cbcEncBlocks rks c bs

/-- CBC decryption over whole blocks. -/
def cbcDecBlocks (rks : List Bytes) : Bytes → List Bytes → List Bytes
  | _, [] => []
  | prev, b :: bs => xorBytes (aesDecRk rks b) prev :: cbcDecBlocks rks b bs

/-- CBC (SP 800-38A). -/
def aesCbc (dec : Bool) (key iv data : Bytes) : Bytes :=
  let rks := roundKeys key
  ((if dec then cbcDecBlocks rks iv (chunksOf 16 data) else cbcEncBlocks rks iv (chunksOf 16 data))).flatten

/-- The 'cbcs' pattern (R97, R366): `crypt` blocks ciphered and `skip` left clear in turn, one chain over the ciphered
blocks, a trailing partial block clear. With `crypt` and `skip` both 0 every whole block is ciphered. -/
def cbcsBlocks (dec : Bool) (rks : List Bytes) (crypt skip : Nat) : Nat → Bytes → List Bytes → List Bytes
  | _, _, [] => []
  | i, prev, b :: bs =>
    if b.length < 16 then b :: cbcsBlocks dec rks crypt skip (i + 1) prev bs
    else if crypt + skip = 0 ∨ i % (crypt + skip) < crypt then
      if dec then xorBytes (aesDecRk rks b) prev :: cbcsBlocks dec rks crypt skip (i + 1) b bs
      else
        let c := aesEncRk rks (xorBytes b prev)
        c :: cbcsBlocks dec rks crypt skip (i + 1) c bs
    else b :: cbcsBlocks dec rks crypt skip (i + 1) prev bs

/-- The 'cbcs' pattern over a run of bytes. -/
def aesCbcs (dec : Bool) (key iv : Bytes) (crypt skip : Nat) (data : Bytes) : Bytes :=
  (cbcsBlocks dec (roundKeys key) crypt skip 0 iv (chunksOf 16 data)).flatten

/-- One bit of the multiplication of GCM. -/
def ghashStep (z v : BitVec 128) : Nat → BitVec 128 → BitVec 128
  | 0, _ => z
  | n + 1, x =>
    ghashStep (if x.msb then z ^^^ v else z)
      (if v.getLsbD 0 then (v >>> 1) ^^^ 0xE1000000000000000000000000000000 else v >>> 1) n (x <<< 1)

/-- Multiplication in the field of GCM (SP 800-38D). -/
def ghashMul (x y : BitVec 128) : BitVec 128 := ghashStep 0 y 128 x

/-- GHASH over whole blocks. -/
def ghash (h : BitVec 128) (bs : Bytes) : BitVec 128 :=
  (chunksOf 16 bs).foldl (fun (y : BitVec 128) b => ghashMul (y ^^^ BitVec.ofNat 128 (beNat b)) h) 0

/-- A run zero-filled to whole blocks. -/
def pad16 (bs : Bytes) : Bytes := bs ++ List.replicate ((16 - bs.length % 16) % 16) 0

/-- GCM's counter mode: the low 32 bits of the counter rise by 1 per block. -/
def gcmCtr (rks : List Bytes) (iv data : Bytes) : Bytes :=
  (((chunksOf 16 data).zipIdx).map (fun b => xorBytes b.1 (aesEncRk rks (iv ++ beBytes 4 ((b.2 + 2) % 2 ^ 32))))).flatten

/-- The 16-byte GCM tag over additional data and ciphertext (SP 800-38D, a 12-byte IV). -/
def gcmTag (rks : List Bytes) (iv aad ct : Bytes) : Bytes :=
  let h := BitVec.ofNat 128 (beNat (aesEncRk rks (List.replicate 16 0)))
  let s := ghash h (pad16 aad ++ pad16 ct ++ beBytes 8 (8 * aad.length) ++ beBytes 8 (8 * ct.length))
  xorBytes (beBytes 16 s.toNat) (aesEncRk rks (iv ++ beBytes 4 1))

/-- GCM encryption: ciphertext and tag. -/
def gcmEnc (key iv aad pt : Bytes) : Bytes × Bytes :=
  let rks := roundKeys key
  let ct := gcmCtr rks iv pt
  (ct, gcmTag rks iv aad ct)

/-- GCM decryption: plaintext and the tag computed. -/
def gcmDec (key iv aad ct : Bytes) : Bytes × Bytes :=
  let rks := roundKeys key
  (gcmCtr rks iv ct, gcmTag rks iv aad ct)

/-- Multiplication of an XTS tweak by x. -/
def xtsDouble (t : BitVec 128) : BitVec 128 := if t.msb then (t <<< 1) ^^^ 0x87 else t <<< 1

/-- The blocks of one XTS data unit. -/
def xtsBlocks (dec : Bool) (rks : List Bytes) : BitVec 128 → List Bytes → List Bytes
  | _, [] => []
  | t, b :: bs =>
    let tb := leBytes 16 t.toNat
    let c := xorBytes ((if dec then aesDecRk rks (xorBytes b tb) else aesEncRk rks (xorBytes b tb))) tb
    c :: xtsBlocks dec rks (xtsDouble t) bs

/-- XTS-AES (IEEE 1619) over 4 KiB data units numbered from `unit`, little-endian (R366); the key is its two halves. -/
def aesXts (dec : Bool) (key : Bytes) (unit : Nat) (data : Bytes) : Bytes :=
  let half := key.length / 2
  let rk1 := roundKeys (key.take half)
  let rk2 := roundKeys (key.drop half)
  (((chunksOf 4096 data).zipIdx).map (fun u =>
    (xtsBlocks dec rk1 (BitVec.ofNat 128 (leNat (aesEncRk rk2 (leBytes 16 (unit + u.2))))) (chunksOf 16 u.1)).flatten)).flatten

/-- One unwrapping step of RFC 3394: A and the n registers, at step t. -/
def unwrapStep (rks : List Bytes) (n : Nat) (st : Bytes × List Bytes) (t : Nat) : Bytes × List Bytes :=
  let i := (t - 1) % n
  let b := aesDecRk rks (xorBytes st.1 (beBytes 8 t) ++ nth [] st.2 i)
  (b.take 8, st.2.set i (b.drop 8))

/-- RFC 3394 unwrapping with the default initial value; none when the integrity check fails (R357, R358). -/
def keyUnwrap (kek wrapped : Bytes) : Option Bytes :=
  let rks := roundKeys kek
  let n := wrapped.length / 8 - 1
  let r := ((List.range (6 * n)).map (fun i => 6 * n - i)).foldl (unwrapStep rks n)
    (wrapped.take 8, chunksOf 8 (wrapped.drop 8))
  if r.1 = List.replicate 8 0xA6 then some r.2.flatten else none

end Sys2Proof.Machine
end

