-- ==== Sys2Proof/Machine/Codes.lean ====
section
/-! DEFINITION. The cyclic redundancy codes of the manual, bit by bit: CRC-64 of the integrity tag (R23), CRC-16 of map
entries and event records (R248, R550), and CRC-32C (R407). -/

namespace Sys2Proof.Machine

/-- One bit of a most-significant-bit-first CRC of width `w`. -/
def crcMsbStep {w : Nat} (poly : BitVec w) (c : BitVec w) : BitVec w :=
  if c.msb then (c <<< 1) ^^^ poly else c <<< 1

/-- Applies a function `n` times. -/
def iterate {α : Type} (f : α → α) : Nat → α → α
  | 0, x => x
  | n + 1, x => iterate f n (f x)

/-- A most-significant-bit-first CRC of width `w` over bytes, without reflection. -/
def crcMsb {w : Nat} (poly : BitVec w) (init : BitVec w) (bs : Bytes) : BitVec w :=
  bs.foldl (fun (c : BitVec w) (b : Byte) => iterate (crcMsbStep poly) 8 (c ^^^ (BitVec.setWidth w b <<< (w - 8)))) init

/-- The CRC-64 of the integrity tag (R23): polynomial of ECMA-182, initial value and final exclusive-or all ones. -/
def crc64 (bs : Bytes) : BitVec 64 :=
  crcMsb 0x42F0E1EBA9EA3693 (BitVec.allOnes 64) bs ^^^ BitVec.allOnes 64

/-- The CRC-16 of map entries and event records (R248, R550): 0x1021, initial value 0xFFFF, no final exclusive-or. -/
def crc16 (bs : Bytes) : BitVec 16 := crcMsb 0x1021 0xFFFF bs

/-- One bit of the reflected CRC-32C. -/
def crc32cStep (c : BitVec 32) : BitVec 32 := if c.getLsbD 0 then (c >>> 1) ^^^ 0x82F63B78 else c >>> 1

/-- CRC-32C (R407): polynomial 0x1EDC6F41 reflected, initial value and final exclusive-or all ones. -/
def crc32c (bs : Bytes) : BitVec 32 :=
  bs.foldl (fun (c : BitVec 32) (b : Byte) => iterate crc32cStep 8 (c ^^^ BitVec.setWidth 32 b)) (BitVec.allOnes 32) ^^^ BitVec.allOnes 32

/-- The fields of the tag trailer (R23). -/
structure Trailer where
  unitNo : Nat
  objId : Nat := 0
  nsid : Nat := 0
  func : Nat := 0
  gen : Nat := 0
  len : Nat := 4096
  deriving DecidableEq, Repr

/-- The 24-byte tag trailer of a unit (R23). -/
def Trailer.bytes (t : Trailer) : Bytes :=
  leBytes 24 (t.unitNo * 2 ^ 128 + t.objId * 2 ^ 64 + t.nsid * 2 ^ 32 + t.func * 2 ^ 24 + t.gen * 2 ^ 16 + (t.len - 1) * 2 ^ 4)

/-- The integrity tag of a unit (R23): over its valid bytes and its trailer. -/
def integrityTag (data : Bytes) (t : Trailer) : BitVec 64 := crc64 (padTo t.len data ++ t.bytes)

/-- The linear update of a tag whose trailer becomes another of the same length (R25, R45): the contribution of the old fields goes
and that of the new ones comes, without the data. -/
def retag (tag : BitVec 64) (old new : Trailer) : BitVec 64 :=
  tag ^^^ crcMsb 0x42F0E1EBA9EA3693 0 (xorBytes old.bytes new.bytes)

/-- A component identifier (R12, R13): a subsystem of the table, and bits [15:13] zero. -/
def componentOk (c : Nat) : Bool := decide (c / 256 ≤ 0x10)

end Sys2Proof.Machine
end

