-- ==== Sys2Proof/Config.lean ====
section
/-! DEFINITION. What one implementation fixes and the spec leaves open: free values without a body, so that nothing
in Lean can evaluate them or prove a value of them. Each is named in the assumption log. -/

namespace Sys2Proof.Config

/-- FREE VALUE (log 3). A fresh value of width `w`; State.freeCtr picks which. Used for DRBG draws (R379, R46, R107,
R207, R574, R584), open standard-defined result fields and unstated result values. -/
opaque freeValue (w : Nat) : Nat → BitVec w

/-- FREE VALUE (log 4). The ECDSA P-384 verdict on a firmware image (R223): the public key is fixed in the boot ROM
and the manual does not give it. -/
opaque signatureOk : Bytes → Bool

/-- FREE VALUE (log 5). The chain head, among 65,536, that three input bytes hash to (R410): the manual does not give the hash. -/
opaque chainHash : BitVec 24 → BitVec 16

/-- FREE VALUE (log 5). The code lengths that a compressor builds from a block's symbol counts (R410): the manual bounds them by 15 bits
and does not give the construction. -/
opaque huffmanLengths : List Nat → List Nat

/-- FREE VALUE (log 5). The header of a block with codes of its own, word by word (R408, R410): for Lovage or not, from its two sets of code
lengths. RFC 1951 leaves a compressor the choice among several that say the same. -/
opaque codeHeader (lovage : Bool) (lit dist : List Nat) : List (List Bool)

/-- FREE VALUE (log 55). The INT that stands for a result of R421 in a port 3 reply: the manual gives no codes. -/
opaque cmpResultCode : Nat → BitVec 32

/-- FREE VALUE (log 53). The 64 bytes that a message of the reserved ALG 3 gives, from its key and its bytes: the manual does not state
them, and a reserved value is answered the same way every time (R10). -/
opaque reservedDigest : Bytes → Bytes → BitVec 512

/-- FREE VALUE (log 53). The ERR code with which port 2 refuses the reserved ALG 3, the same every time (R10). -/
opaque reservedAlgCode : BitVec 32

/-- FREE VALUE (log 6). The keyed 64-bit hash of the hot-tier sketch (R258): the hash function is not given. -/
opaque sketchHash : BitVec 64 → Nat → BitVec 64

/-- FREE VALUE (log 64). The payload of a Sweep frame other than UNIT, by its type, KEY_NO and SEQ: the manual does not lay it out. -/
opaque framePayload (kind keyNo seq : Nat) : Bytes

/-- FREE VALUE (log 29). Whether the timings of a DRAM_BOARD header reach the minima of JESD79-5 for its speed bin and
density (R290): the manual does not give them. -/
opaque boardTimingsOk : Bytes → Bool

/-- FREE VALUE (log 30). The opaque sections of a migration image (R184), from the numbers they carry. -/
opaque migrationSections : List Nat → Bytes

/-- FREE VALUE (log 30). The numbers that the sections of a migration image carry, as the device reads them back (R185). -/
opaque migrationContents : Bytes → Option (List Nat)

/-- FREE VALUE (log 62). Whether the DRAM devices require refresh management (R285, R301): the manual leaves it to the device. -/
opaque rfmRequired : Bool

end Sys2Proof.Config
end

