-- ==== Sys2Proof/Machine/State.lean ====
section
/-! DEFINITION. The state of the LX960 as plain data: every register, table, queue, counter, mode and pin the manual
gives the block, and the queue of waiting commands. A field's default value is its value in `State.reset`. -/

namespace Sys2Proof.Machine

/-- A sparse total map from numbers to values, as a list of (key, value) pairs in one canonical form: keys strictly
rising, no entry equal to the value that an unlisted key reads as. The operations are in Machine/Ops.lean. -/
abbrev Mem (α : Type) := List (Nat × α)

/-- Operating modes (R209, R537). -/
inductive Mode where
  | off | hold | boot | service | rest | drain | degraded | maintenance | safeHalt
  deriving DecidableEq, Repr

/-! ### Host interface -/

/-- A completion a command will post (R133, R164): status and the two dwords. -/
structure Result where
  status : Status
  dw0 : BitVec 32 := 0
  dw1 : BitVec 32 := 0
  deriving DecidableEq, Repr

/-- What enters the fabric-to-host FIFO, in order (R20). Of a completion entry, Do Not Retry, More and Command Retry Delay are R164's. -/
inductive HostMsg where
  | data (f : Nat) (addr : Nat) (bytes : Bytes)
  | fill (f : Nat) (addr len : Nat) (byte : Byte)
  | cqe (f cq sq : Nat) (cid : BitVec 16) (sqHead : Nat) (r : Result) (dnr more : Bool) (crd : BitVec 2)
  | msix (f vector : Nat)
  | dirtyLine (f : Nat) (addr : Nat) (bytes : Bytes)
  deriving DecidableEq, Repr

/-- A submission queue (R131, R132, R134). -/
structure Sq where
  size : Nat
  cq : Nat
  head : Nat := 0
  tail : Nat := 0
  prio : BitVec 2 := 0
  base : Nat := 0
  deriving DecidableEq, Repr

/-- A completion queue: the entries posted and not yet released by the host, and completions held while full (R133). -/
structure Cq where
  size : Nat
  ien : Bool := false
  vector : Nat := 0
  posted : Nat := 0
  tail : Nat := 0
  base : Nat := 0
  held : List CmdId := []
  deriving DecidableEq, Repr

/-- One lock-table entry: a run of granules of one namespace (R140). `released` lists the granules already released. -/
structure Lock where
  cmd : CmdId
  nsid : Nat
  asn : BitVec 48
  lo : Nat
  hi : Nat
  excl : Bool
  released : List Nat := []
  deriving DecidableEq, Repr

/-- The hook side of a view in progress (R107 to R109). -/
structure HookRun where
  next : Nat := 0
  token : BitVec 32 := 0
  waiting : Bool := false
  reply : List TWord := []
  /-- variant object IDs chosen so far, one per fragment -/
  chosen : List Nat := []
  /-- R109: fragments placed so far -/
  placed : Nat := 0
  outcome : Option Status := none
  deriving DecidableEq, Repr

/-- A command in flight (R132, R137). -/
structure Cmd where
  func : Nat
  sq : Nat
  sqe : Sqe
  asn : BitVec 48 := 0
  gen : BitVec 8 := 0
  epoch : BitVec 16 := 0
  urgent : Bool := false
  /-- the ASN and NSID pairs of a Flush or Dataset Management on every namespace (R137) -/
  asns : List (Nat × BitVec 48) := []
  data : Bytes := []
  moved : Bool := false
  uncommitted : List Nat := []
  /-- commands accepted before a Flush that it still waits for (R146) -/
  waitFor : List CmdId := []
  hook : HookRun := {}
  result : Option Result := none
  /-- the write's completion waits for the data to be on flash: FUA or VOLATILE with WCE 0 (R144) -/
  needFlash : Bool := false
  /-- keys of the map entries whose data the command waits to have on flash (R144, R146) -/
  flashWait : List Nat := []
  /-- R41: the length its object had, when an append's data are stored and the append has not completed. -/
  undo : Option Nat := none
  /-- charged bytes of capacity to refund if the append never commits (R178) -/
  charge : Nat := 0
  /-- R578: it has crossed to the owner of its namespace -/
  forwarded : Bool := false
  /-- R578: the partner forwarded it to this side, under this number of the partner's -/
  fromPartner : Bool := false
  partnerCid : Nat := 0
  /-- R579: granules whose mirror legs have been sent -/
  legs : List Nat := []
  /-- R580: partner's Flushes that a Flush still waits for; none before they are sent -/
  partnerFlush : Option Nat := none
  /-- R580: the buffer has been looked at again after the partner's Flushes -/
  flushed : Bool := false
  /-- accepted after instant T of R271 -/
  afterStop : Bool := false
  /-- R77: the assembly unit a view was given to -/
  saeUnit : Nat := 0
  /-- R174: bytes a view has written to its destination -/
  wrote : Nat := 0
  deriving DecidableEq, Repr

/-- The host interface (HIF). -/
structure Hif where
  /-- R131: submission queues, key function × 65,536 + queue number. Reset: none exist. -/
  sqs : Mem (Option Sq) := []
  /-- R131: completion queues, same key. Reset: none exist. -/
  cqs : Mem (Option Cq) := []
  /-- R134: entries fetched and not yet accepted, in arrival order. Reset: empty. -/
  fetched : List (Nat × Nat × Sqe) := []
  /-- R132: commands in flight by handle. Reset: none. -/
  cmds : Mem (Option Cmd) := []
  /-- MODEL'S OWN: the next command handle. Reset: DESIGN CHOICE 0. -/
  nextCmd : Nat := 0
  /-- R133: commands in the order in which they finished. Reset: none. -/
  finished : List CmdId := []
  /-- R134: the function whose admin queue was served last. Reset: DESIGN CHOICE 127. -/
  rrAdmin : Nat := 127
  /-- R134: the function whose I/O queues were served last. Reset: DESIGN CHOICE 127. -/
  rrFunc : Nat := 127
  /-- R20: what has entered the fabric-to-host FIFO, oldest first. Reset: empty. -/
  toHost : List HostMsg := []
  /-- R140: the granule lock table, 262,144 entries, in allocation order. Reset: empty. -/
  locks : List Lock := []
  /-- R152: CSTS.PP and the stop of fetching on every function. Reset: false. -/
  fetchStopped : Bool := false
  /-- R152: the Firmware Commit that waits for activation, and its slot. Reset: none. -/
  activating : Option (CmdId × Nat) := none
  /-- R153: the Sanitize command whose sanitize is in progress, with its action. Reset: none. -/
  sanitizing : Option (CmdId × Nat) := none
  /-- R614, R17: the link of port 0 and 1 is up. Reset: down. -/
  link : Mem Bool := []
  /-- R124, R165: negotiated width of each port, lanes. Reset: 0. -/
  linkWidth : Mem Nat := []
  /-- R124, R165: negotiated rate code of each port, 1 to 6. Reset: 0. -/
  linkSpeed : Mem Nat := []
  /-- R17: the 100 MHz reference is absent at a port and the HIF held in reset. Reset: false. -/
  refclkLost : Mem Bool := []
  /-- R124, R165: AER uncorrectable error status of each port; a write of 1 clears a bit. Reset: PRESUMED 0 (PCI Express). -/
  aerStatus : Mem (BitVec 32) := []
  /-- R124, R165: AER header log of each port. Reset: PRESUMED 0 (PCI Express). -/
  aerHeader : Mem (BitVec 128) := []
  /-- R616: PCIE_PERSTn_N is low. Reset: false. -/
  perst : Mem Bool := []
  /-- R123: port mode in force since BOOT, true for dual port. Reset: false. -/
  dualPort : Bool := false
  /-- R125: virtual functions enabled under PF 0 and PF 1. Reset: 0. -/
  numVfs : Mem Nat := []
  /-- R604: the answer to the last NVMe-MI message over SMBus. Reset: none. -/
  smbReply : Bytes := []
  deriving DecidableEq, Repr

/-! ### Functions and tenants -/

/-- Token bucket parameters (R172). -/
structure Rate where
  bwRate : Nat := 0
  bwBurst : Nat := 0
  iopsRate : Nat := 0
  iopsBurst : Nat := 0
  deriving DecidableEq, Repr

/-- One tenant entry of the TENANTS section (R214). -/
structure Tenant where
  func : Nat
  ioQueues : Nat := 0
  msixBase : Nat := 0
  msixCount : Nat := 1
  flightCap : Nat := 1
  keyBase : Nat := 0
  keyCount : Nat := 0
  scullMask : BitVec 32 := 0
  dmaMask : BitVec 32 := 0
  asuQuota : Nat := 0
  capacityGib : Nat := 0
  objectQuota : Nat := 0
  chiveQuota : Nat := 0
  rate : Rate := {}
  deriving DecidableEq, Repr

/-- State of a request in a mailbox (R198, R202). -/
inductive MbState where
  | idle | busy | done
  deriving DecidableEq, Repr

/-- A prepared response (R200). -/
structure MbResp where
  result : Nat
  detail : Nat := 0
  payload : Bytes := []
  deriving DecidableEq, Repr

/-- A partial piece image (R206): command, SEL, TOTAL and the bytes received. -/
structure Partial where
  cmd : Nat
  sel : Nat
  total : Nat
  bytes : Bytes := []
  deriving DecidableEq, Repr

/-- The mailbox of one function (R197 to R202). -/
structure Mbox where
  /-- R197: request buffer, 4 KiB. Reset: PRESUMED zero. -/
  req : Mem Byte := []
  /-- R197: response buffer, 4 KiB. Reset: PRESUMED zero. -/
  resp : Bytes := []
  /-- R198: CXP_MB_STATUS.STATE. Reset 0. -/
  state : MbState := .idle
  /-- R198: CXP_MB_STATUS.IGNORED. Reset 0. -/
  ignored : Bool := false
  /-- R198: CXP_MB_STATUS.LAST_SEQ. Reset 0. -/
  lastSeq : BitVec 16 := 0
  /-- R198: CXP_MB_IRQ.EN. Reset 0. -/
  irqEn : Bool := false
  /-- R198: CXP_MB_IRQ.VECTOR. Reset 0. -/
  irqVector : Nat := 0
  /-- R202: the request copied into cox memory. -/
  taken : Bytes := []
  /-- R202: the response that pair A has prepared and not yet posted. -/
  prepared : Option MbResp := none
  /-- R203: the request is a long one that still waits for the device. -/
  waiting : Bool := false
  /-- R205, R226: the request was taken in REST or during a firmware activation, and has not been looked at. -/
  unchecked : Bool := false
  /-- R228: requests taken before a reset of the function that still run, their responses to be discarded, each with whether it has
  not been looked at. Reset: none. -/
  orphans : List (Bytes × Bool) := []
  /-- R207: the nonce, and whether it has expired. Reset: none. -/
  nonce : Option (Bytes × Bool) := none
  /-- R206: partial images of this mailbox. Reset: none. -/
  parts : List Partial := []
  deriving DecidableEq, Repr

/-- Dirty-page logging of one virtual function (R180 to R182). -/
structure Dirty where
  base : Nat
  pages : Nat
  bufA : Nat
  bufB : Nat
  activeB : Bool := false
  /-- bits set in the shadow of the active buffer, by page -/
  bits : List Nat := []
  /-- shadow lines changed and not yet written to the host -/
  lines : List Nat := []
  pf : Nat := 0
  deriving DecidableEq, Repr

/-- Host-set feature values of one controller (R130, R134, R144, R621). -/
structure Features where
  ab : BitVec 3 := 0
  hpw : BitVec 8 := 0
  mpw : BitVec 8 := 0
  lpw : BitVec 8 := 0
  tempOver : Nat := 371
  tempUnder : Nat := 273
  aec : BitVec 32 := 0
  timestamp : Nat := 0
  deriving DecidableEq, Repr

/-- One function (VFM, R166, R167, R175). -/
structure Fn where
  /-- R125: the function is present. Reset: no. -/
  present : Bool := false
  /-- R151: CC.EN. Reset 0 (R614). -/
  en : Bool := false
  /-- R134: CC.AMS. Reset: PRESUMED 0. -/
  ams : BitVec 3 := 0
  /-- R151: CSTS.RDY. Reset 0 (R614). -/
  rdy : Bool := false
  /-- R175: generation. Reset 0 (at BOOT). -/
  gen : BitVec 8 := 0
  /-- R177: a reset is between step 2 and step 7. Reset: no. -/
  resetting : Bool := false
  /-- R179: GENERATION_WAIT has been recorded for the reset in progress. -/
  waited : Bool := false
  /-- R170: the reset in progress is a removal, and the function will not be present after it. -/
  removing : Bool := false
  /-- R161: a controller reset waits for the end of a firmware activation. Reset: no. -/
  resetPending : Bool := false
  /-- R105: profile epoch. Reset: DESIGN CHOICE 0. -/
  epoch : BitVec 16 := 0
  /-- R137: the function's own ASN counter. Reset 0. -/
  asn : BitVec 48 := 0
  /-- R172: bucket parameters in force. Reset: 0, as of a function without an entry (R633). -/
  rate : Rate := {}
  /-- R190: parameters that take effect at the next tick. Reset: none. -/
  rateNext : Option Rate := none
  /-- R173: bandwidth bucket level in bytes, signed. Reset: full (R172), at a depth of 0. -/
  bwLevel : Int := 0
  /-- R173: IOPS bucket level in thousandths of a command, signed. Reset: full (R172), at a depth of 0. -/
  iopsLevel : Int := 0
  /-- R183: quiesced by MB_MIG_QUIESCE. Reset: no. -/
  quiesced : Bool := false
  /-- R183: doorbells written during quiesce, recorded and not acted on. -/
  pendingDoorbells : List (Nat × Nat) := []
  /-- R183: the PF mailbox whose quiesce waits. -/
  quiesceBy : Option Nat := none
  features : Features := {}
  /-- R127 (Save in features), NVMe: the feature values that a reset and BOOT restore. Reset: the defaults. -/
  saved : Features := {}
  /-- R621: critical warning bit 1. Reset: clear. -/
  tempWarn : Bool := false
  /-- R144: write cache enable, used in VOLATILE. -/
  wce : Bool := true
  /-- R134: the queue served last in each class (urgent, high, medium, low; round robin uses the first). Reset: DESIGN CHOICE 0. -/
  rrQueues : List Nat := [0, 0, 0, 0]
  /-- R134: entries each weighted class may still fetch in this round. Reset: DESIGN CHOICE 0. -/
  credits : List Nat := [0, 0, 0]
  /-- R127: outstanding Asynchronous Event Requests, at most 8. -/
  aers : List CmdId := []
  /-- R127: asynchronous events not yet reported, as DW0. Reset: none. -/
  events : List (BitVec 32) := []
  /-- R198 -/
  mbox : Mbox := {}
  /-- R126: MSI-X table, four dwords per vector, key 4 × vector + dword, with bit 0 of each vector control stored inverted.
  Reset: PRESUMED 0, every vector masked (PCI Express). -/
  msix : Mem (BitVec 32) := []
  /-- R126: the pending-bit array, as the vectors whose bit is set. Reset: PRESUMED none. -/
  msixPend : List Nat := []
  /-- R126, NVMe: AQA. Reset: PRESUMED 0. -/
  aqa : BitVec 32 := 0
  /-- R126, NVMe: ASQ. Reset: PRESUMED 0. -/
  asq : BitVec 64 := 0
  /-- R126, NVMe: ACQ. Reset: PRESUMED 0. -/
  acq : BitVec 64 := 0
  /-- R124: Device Control, with the payload size in bits [7:5] and the read request size in [14:12]. Reset: PRESUMED 0x2010 (PCI
  Express): 128 and 512 bytes. -/
  devControl : BitVec 16 := 0x2010
  /-- R124: the function is in D3hot. Reset: D0. -/
  d3hot : Bool := false
  /-- R357: key-encryption key. Reset: none until MB_KEK_IMPORT. -/
  kek : Option Bytes := none
  /-- R359: media key, XTS-AES-256, 64 bytes. Reset: none. -/
  mediaKey : Option Bytes := none
  /-- R180: dirty-page logging. Reset: off. -/
  dirty : Option Dirty := none
  /-- R499: the next program handle. Reset 1 after each BOOT. -/
  nextHandle : Nat := 1
  /-- R38, R633: objects the function holds. -/
  objectsUsed : Nat := 0
  /-- R52, R171, R633: bytes charged against capacity. -/
  capacityUsed : Nat := 0
  /-- R560, NVMe: the records of the established Persistent Event Log reading context. Reset: none. -/
  pel : Option Bytes := none
  /-- R222, NVMe: bytes of the firmware image being downloaded. -/
  fwDownload : Bytes := []
  /-- R404, R427, R517: the second of the last rate-limited record, by event code. -/
  lastRecord : Mem Nat := []
  deriving DecidableEq, Repr

/-! ### Namespaces, units and the protected buffer -/

/-- Where a unit lies (R246). -/
inductive UState where
  | unmapped | flash | buffer | lost
  deriving DecidableEq, Repr

/-- A reservation registrant, and the holder (R130; NVM Express). -/
structure Resv where
  regs : List (Nat × BitVec 64) := []
  holder : Option (Nat × Nat) := none
  gen : Nat := 0
  deriving DecidableEq, Repr

/-- A namespace (R34, R128, R171). -/
structure Ns where
  /-- R34: true for an object namespace. -/
  object : Bool
  /-- R34: default verify mode. -/
  verifyDefault : Bool := false
  /-- size in logical blocks -/
  blocks : Nat
  /-- R128: LBA format. -/
  lbaf : Nat := 0
  /-- R128: protection information type, 0, 1 or 3. -/
  pi : Nat := 0
  /-- R128: metadata is transferred as an extended LBA (FLBAS bit 4). -/
  extended : Bool := false
  /-- R171: key owner. -/
  keyOwner : Option Nat := none
  /-- R167: the function it is attached to. -/
  attached : Option Nat := none
  /-- R137: ASN counter. Starts at 0 at BOOT and at creation. -/
  asn : BitVec 48 := 0
  /-- R130: reservations. -/
  resv : Resv := {}
  deriving DecidableEq, Repr

/-- A physical map entry (R246). -/
structure MapEntry where
  state : UState := .unmapped
  /-- PADDR, or the protected-buffer slot in state BUFFER. -/
  paddr : Nat := 0
  slc : Bool := false
  hot : Bool := false
  /-- R248; an UNMAPPED entry, which stands for one never written too, holds none (log 80). -/
  check : BitVec 16 := 0
  deriving DecidableEq, Repr

/-- For whom a unit is read: a command, or the comparison or fingerprint of a stored chunk (R58, R65). -/
inductive Reader where
  | cmd (id : CmdId) | chunk (c : Nat) | copy (nsid g : Nat)
  deriving DecidableEq, Repr

/-- A page of the map cache, in CLOCK order (R250). -/
structure CachedPage where
  page : Nat
  dirty : Bool := false
  used : Bool := false
  deriving DecidableEq, Repr

/-- Namespace contents and the protected buffer. -/
structure Nss where
  /-- R34, R127: namespaces by NSID, 1 to 1,024. Reset: none. -/
  ns : Mem (Option Ns) := []
  /-- R246: namespace maps, key NSID × 2^40 + unit number (R248). Reset: every entry UNMAPPED. -/
  units : Mem MapEntry := []
  /-- R16, R531: protected-buffer slots in use by unit key; slot i is bytes 4,096 × i onwards of the staging pool. Reset: empty. -/
  slots : Mem (Option Nat) := []
  /-- R23, R25: GEN of the tag of the unit in a slot. Reset 0. -/
  slotGen : Mem Nat := []
  /-- R531: the buffer ledger in MRAM, slot to unit key with bit [62]. Reset: empty. -/
  ledger : Mem (Option Nat) := []
  /-- R251, R590: granules (NSID, granule) that journal records since the last checkpoint changed, kept in a pair. Reset: none. -/
  changed : List (Nat × Nat) := []
  /-- R251: journal records in the 1 MiB area, oldest first: each an entry's key and new value. Reset: none. -/
  journal : List (Nat × Nat) := []
  /-- R251: addresses of the journal pages programmed since the last checkpoint, oldest first. Reset: none. -/
  journalPages : List Nat := []
  /-- R250: the map directory: for each map page that is on flash, its address. Reset: none. -/
  directory : Mem (Option Nat) := []
  /-- R251: the directory as the last checkpoint wrote it. Reset: none. -/
  checkpointed : Mem (Option Nat) := []
  /-- R251: checkpoints written. Reset 0. -/
  checkpoints : Nat := 0
  /-- R250: the map cache, in CLOCK order from the hand on. Reset: empty. -/
  cache : List CachedPage := []
  /-- R240, R367: the sequence number of the next map or journal page. Reset: DESIGN CHOICE 0. -/
  pageSeq : Nat := 0
  /-- R367: the device metadata key of the media-key table. Reset: none until the first BOOT draws it (log 81). -/
  metaKey : Option Bytes := none
  /-- R243, R270: Media and Data Integrity Errors. Reset: DESIGN CHOICE 0. -/
  mediaErrors : Nat := 0
  /-- R244: units read into the SPL working area, with their reader and key; none for one that cannot be read. Reset: none. -/
  staged : List (Reader × Nat × Option Bytes) := []
  deriving DecidableEq, Repr

/-! ### Objects, chunks, the Chive table and profiles -/

/-- One chunk reference of an object: stored-chunk number, and whether it is an alias (R62). -/
structure ChunkRef where
  chunk : Nat
  isAlias : Bool := false
  /-- R58: the chunk has been fingerprinted. -/
  hashed : Bool := false
  /-- R58, R59: its digest, once it has been fingerprinted. -/
  digest : Bytes := []
  /-- R65: a confirmed match that verify mode must still compare with. -/
  verifyWith : Option Nat := none
  /-- R67: a DRAIN made it durable before its lookup: it is stored, whatever its digest. -/
  kept : Bool := false
  deriving DecidableEq, Repr

/-- An object (R37 to R55). -/
structure Obj where
  nsid : Nat
  oid : Nat
  func : Nat
  plain : Bool := false
  verify : Bool := false
  isSealed : Bool := false
  length : Nat := 0
  tailClosed : Bool := false
  chunks : List ChunkRef := []
  index : Bytes := []
  ivBase : BitVec 64 := 0
  ivGenerated : Bool := false
  aliasOf : Option Nat := none
  digest : Bytes := []
  createAsn : BitVec 48 := 0
  /-- R48 check 8: NAL units of each sample. -/
  nalCounts : List Nat := []
  /-- R64: the number of its extent map; objects that share a map carry the same number. -/
  mapNo : Nat := 0
  /-- R248: the object table index that its extent map is kept under. -/
  tableIndex : Nat := 0
  /-- R247: the object extent entries whose MAPPED is set, in order: CHUNK_EXT and CHECK; those beyond have MAPPED 0. -/
  extents : List (Nat × BitVec 16) := []
  deriving DecidableEq, Repr

/-- A stored chunk (R44): the tenant, how many bytes it holds, its four chunk-map entries (R246), its reference count and its
origin record (R247). -/
structure Chunk where
  func : Nat
  len : Nat
  /-- R246: one chunk-map entry per 256 KiB extent. -/
  exts : List MapEntry
  refs : Nat := 1
  pinned : Bool := false
  originNs : Nat := 0
  originObj : Nat := 0
  originIndex : Nat := 0
  deriving DecidableEq, Repr

/-- One Chive table entry, 64 bytes of the table's DRAM reservation (R61). Its reference count stands with the chunk. -/
structure Chive where
  func : Nat
  digest : Bytes
  chunk : Nat
  /-- its place in the reservation, in entries. -/
  slot : Nat
  deriving DecidableEq, Repr

/-- One profile version of a tenant (R85, R94, R104). -/
structure Profile where
  func : Nat
  /-- 0 packaging, 1 encryption. -/
  kind : Nat
  num : Nat
  ver : BitVec 16
  record : Bytes
  /-- R104: true while it is the current version; false while retiring. -/
  current : Bool := true
  /-- R105: the epochs [since, until) whose stamps select this version. -/
  since : BitVec 16 := 0
  upTo : Option (BitVec 16) := none
  deriving DecidableEq, Repr

/-- The title store and the SAE's profile store. -/
structure Objs where
  /-- R39: objects. Reset: none. -/
  objects : List Obj := []
  /-- R44: stored chunks by stored-chunk number. Reset: none. -/
  chunks : Mem (Option Chunk) := []
  /-- R44: the next stored-chunk number, 40 bits. Reset: DESIGN CHOICE 1. -/
  nextChunk : BitVec 40 := 1
  /-- MODEL'S OWN: the next extent-map number (R64). Reset: DESIGN CHOICE 1. -/
  nextMap : Nat := 1
  /-- R61: the Chive table. Reset: empty. -/
  chive : List Chive := []
  /-- R56: objects deleted whose chunk references are not yet released, with the reads still to complete. -/
  deleted : List (Obj × List CmdId) := []
  /-- R41, R51: appends that failed in SAFE-HALT after they had stored data, for the next BOOT to undo. Reset: none. -/
  undone : List Cmd := []
  /-- R68: the operating hour of the last full-reservation record. -/
  fullRecorded : Option Nat := none
  /-- R85, R94, R104: profile versions of every function. Reset: none. -/
  profiles : List Profile := []
  deriving DecidableEq, Repr

/-! ### Flash -/

/-- What a die is doing for the FMS. A read is for a reader, or, with none, for a copy whose purpose is given; `rung` is the rung of
the ladder (R242). The purposes of a program are 0 buffered data, 1 fold, 2 collection, 3 hot tier, 5 a drain program repeated. -/
inductive FlashKind where
  | read (by_ : Option Reader) (purpose rung : Nat)
  | program (slc : Bool) (purpose : Nat)
  | erase
  deriving DecidableEq, Repr

/-- One flash operation in progress (R244, R253, R264): the die, the superblock, and the unit keys it concerns. -/
structure FlashOp where
  kind : FlashKind
  die : Nat
  quad : Nat
  sb : Nat
  /-- a read: each unit's key and address. A program: each map entry's key and the place it comes from, the buffer slot or the
  source address. -/
  units : List (Nat × Nat)
  /-- the address the first unit of a program goes to. -/
  dest : Nat := 0
  /-- a program: what is written, unit by unit from `dest` on; none for a unit of an extent that holds no data. A read for a copy:
  what has decoded so far. -/
  words : List (Option Codeword) := []
  /-- R45: NSID, OBJ_ID and the UNIT_NO of the first unit of the map entry, as the reader names it. -/
  nsid : Nat := 0
  objId : Nat := 0
  unitBase : Nat := 0
  /-- R257: the read goes to the hot-tier copy. -/
  hot : Bool := false
  suspended : Nat := 0
  /-- R175: the function and generation it works for; 255 for none. -/
  func : Nat := 255
  gen : BitVec 8 := 0
  deriving DecidableEq, Repr

/-- One die (R235, R239, R268). -/
structure Die where
  /-- R239 STATE: 0 absent, 1 in service, 2 failed, 3 excluded. -/
  state : Nat := 0
  cell : Nat := 0
  good : Nat := 0
  free : Nat := 0
  /-- R267: the blocks that are bad as manufactured, rising. -/
  bad : List Nat := []
  /-- R635, R268: spare blocks that remain, by block number. -/
  spares : List Nat := []
  spareFirst : Nat := 0
  retired : Nat := 0
  /-- R268: failures in a row. -/
  failures : Nat := 0
  deriving DecidableEq, Repr

/-- One channel (R234, R238, R239). -/
structure Chan where
  iface : Nat := 0
  rate : Nat := 0
  readEye : Nat := 0
  writeEye : Nat := 0
  trained : Bool := false
  /-- R613: FLc_WP_N, true when driven high. Reset: low or not driven. -/
  wpHigh : Bool := false
  deriving DecidableEq, Repr

/-- State of a superblock (R237, R263). -/
inductive SbState where
  | free | opened | closed | retired
  deriving DecidableEq, Repr

/-- One superblock (R237, R254, R257, R264, R265). -/
structure Sb where
  state : SbState := .free
  slc : Bool := false
  hot : Bool := false
  /-- R250, R251: an SLC-mode metadata superblock, for map and journal pages. -/
  metadata : Bool := false
  /-- R237: the block number of each member; before its first opening none are listed (log 82). -/
  members : List Nat := []
  /-- R267: members whose block failed and is retired once the superblock is empty. -/
  failedMembers : List Nat := []
  erases : Nat := 0
  /-- R265: page reads of each of the four member blocks since their erase. -/
  reads : List Nat := [0, 0, 0, 0]
  /-- R254: the next unit to program. -/
  fill : Nat := 0
  /-- R263: reads in flight that resolved to it. -/
  readers : Nat := 0
  /-- R261: its place in the order of closing. -/
  closedAt : Nat := 0
  /-- R243, R265 to R267: queued for relocation. -/
  relocate : Bool := false
  /-- R266: the patrol period, in PATROL_DAYS of operating time, in which it was last scanned. -/
  patrolled : Option Nat := none
  deriving DecidableEq, Repr

/-- The FLASH section in force (R273). -/
structure FlashCfg where
  rate : Nat := 3600
  chanEn : BitVec 16 := 0xFFFF
  hotTier : Nat := 10
  opPct : Nat := 7
  hotPromote : Nat := 128
  gcStart : Nat := 48
  gcUrgent : Nat := 24
  wearSpread : Nat := 200
  ratedPe : Nat := 1500
  rdNative : Nat := 40000
  rdSlc : Nat := 400000
  patrolDays : Nat := 7
  deriving DecidableEq, Repr

/-- The flash media subsystem (FMS). -/
structure Flash where
  /-- R236, R239: dies 0 to 511. Reset: absent. -/
  dies : Mem Die := []
  /-- R238, R239: channels 0 to 15. Reset: not used. -/
  chans : Mem Chan := []
  /-- R237: superblock table, key quad × 2^17 + superblock. Reset: free. -/
  sbs : Mem Sb := []
  /-- R237, R240: what the dies hold: the codeword at each place, key (die × 2^20 + block) × 2^14 + unit index. Reset: DESIGN
  CHOICE nothing programmed. -/
  cells : Mem (Option Codeword) := []
  /-- R239: erase counts of blocks, key die × 2^20 + block. Reset: DESIGN CHOICE 0. -/
  erases : Mem Nat := []
  /-- R242, R266: the per-block threshold table, same key, as the patrol last set it. Reset: DESIGN CHOICE 0. -/
  thresholds : Mem (BitVec 16) := []
  /-- R269: bytes of the native-mode blocks of the dies used at first BOOT. Reset 0. -/
  rawBytes : Nat := 0
  /-- R260: hot-tier copies read out of a superblock that is being reclaimed, to be programmed again. Reset: none. -/
  recopy : List (Nat × Nat × List (Option Codeword)) := []
  /-- R244: operations in progress. Reset: none. -/
  ops : Mem (Option FlashOp) := []
  /-- MODEL'S OWN: the next operation number. Reset: DESIGN CHOICE 0. -/
  nextOp : Nat := 0
  /-- R261: the next place in the closing order. Reset: DESIGN CHOICE 0. -/
  closeClock : Nat := 0
  cfg : FlashCfg := {}
  /-- R254: native-mode blocks per die at first BOOT. Reset 0. -/
  blocks : Nat := 0
  /-- R237: units of a native-mode superblock. Reset: DESIGN CHOICE 65,536. -/
  sbUnits : Nat := 65536
  /-- R258: the four sketch rows, key row × 65,536 + index, 16 bits. Reset 0. -/
  sketch : Mem Nat := []
  /-- R258: increments since the last halving. Reset 0. -/
  increments : Nat := 0
  /-- R258: the sketch hash key, drawn at BOOT. -/
  sketchKey : BitVec 64 := 0
  /-- R257: hot table, chunk extent to the address of its copy. Reset: none. -/
  hot : Mem (Option Nat) := []
  /-- R271: read-only since instant T. Reset: no. -/
  readOnly : Bool := false
  /-- R272: operating hour at which read-only began. -/
  readOnlySince : Nat := 0
  /-- R265: read counts as last checkpointed, same key as sbs. Reset 0. -/
  checkpoint : Mem (List Nat) := []
  /-- R265: the last power-down completed its DRAIN. Reset: no. -/
  drained : Bool := false
  /-- R261: quads in which collection runs. Reset: none. -/
  collecting : List Nat := []
  /-- R268, R270: SMART critical warning bit 2. Reset: clear. -/
  unreliable : Bool := false
  /-- R270: critical warning bit 0. Reset: clear. -/
  spareLow : Bool := false
  /-- R614 step 5: this BOOT has replayed the journal. Reset: no. -/
  journalRead : Bool := false
  deriving DecidableEq, Repr

/-! ### DRAM -/

/-- Rank states (R306, R309). -/
inductive RankState where
  | absent | inService | spare | spareUnavailable | migratingOut | migratingIn | retired
  deriving DecidableEq, Repr

/-- The row-disturb tracker of one bank (R300, R301). -/
structure RowTrack where
  rows : List (Nat × Nat) := []
  ports : Mem Nat := []
  throttled : Option Nat := none
  recorded : Bool := false
  rfms : Nat := 0
  /-- R295: the open row, in open-page mode. -/
  openRow : Option Nat := none
  /-- R296: refreshes postponed (positive) or issued early (negative). -/
  debt : Int := 0
  refreshes : Nat := 0
  deriving DecidableEq, Repr

/-- A migration (R307). -/
structure Migration where
  fromCs : Nat
  toCs : Nat
  deriving DecidableEq, Repr

/-- The DRAM controller (DMC). -/
structure Dram where
  /-- R306, R309: rank states, key 4 × channel + chip select. Reset: absent. -/
  ranks : Mem RankState := []
  /-- R287: rank map, key 4 × channel + logical rank, to a chip select. Reset: identity is set at BOOT. -/
  rankMap : Mem (Option Nat) := []
  /-- R290: the DRAM_BOARD section in force, 1,152 bytes. Reset: none. -/
  board : Bytes := []
  /-- R294: BOOT margins, key 80 × (4 × channel + rank) + index. Reset 0. -/
  margins : Mem Nat := []
  /-- R287, R293: contents by in-service byte address; zero after bring-up. Reset: zero (R293 writes zeros). -/
  cells : List Host.Cell := []
  /-- R309: CE_CH0, CE_CH1. Reset 0. -/
  ce : Mem Nat := []
  /-- R309: UE_CH0, UE_CH1. Reset 0. -/
  ue : Mem Nat := []
  /-- R303: for each rank, key 4 × channel + chip select, an operating hour and its corrected errors. Reset 0. -/
  ceHour : Mem (Nat × Nat) := []
  /-- R289, R304: the answer to the last request: its port, and the data or an error. Reset: none. -/
  reply : Option (Nat × Option Bytes) := none
  /-- R309: THROTTLES. Reset 0. -/
  throttles : Nat := 0
  /-- R307: migration per channel. Reset: none. -/
  migration : Mem (Option Migration) := []
  /-- R310: failed ranks, as 4 × channel + chip select, whose handling waits for a running migration. Reset: none. -/
  deferredFail : List Nat := []
  /-- R309: REFRESH_2X. Reset 0. -/
  refresh2x : Bool := false
  /-- R296, R300: banks, key (4 × channel + chip select) × 32 + bank. Reset: empty. -/
  track : Mem RowTrack := []
  /-- R297: channel in self-refresh. Reset: no. -/
  selfRefresh : Mem Bool := []
  /-- R297: pair C has requested self-refresh entry. Reset: no. -/
  srRequested : Bool := false
  /-- R292: ZQ calibrations run since BOOT. Reset 0. -/
  zq : Nat := 0
  /-- R294: spare ranks initialised. Reset: no. -/
  spareInit : Mem Bool := []
  /-- R613: Dc_RESET_N high. Reset: low. -/
  resetHigh : Bool := false
  /-- R309: map cache in force, GiB. Reset 0. -/
  mapCacheNow : Nat := 0
  /-- R303: lines scrubbed since BOOT. Reset 0. -/
  scrubbed : Nat := 0
  deriving DecidableEq, Repr

/-! ### DMA fabric and arbitration -/

/-- Channel states (R327, R328). -/
inductive ChState where
  | idle | ready | active | parked | halted
  deriving DecidableEq, Repr

/-- A DMA channel (R327, R328). -/
structure DmaCh where
  /-- R327: DMF_CH_HEAD. Reset: PRESUMED 0. -/
  head : BitVec 64 := 0
  /-- R327: STATE. Reset 0. -/
  state : ChState := .idle
  /-- R327: PENDING. Reset 0. -/
  pend : Bool := false
  /-- R327: CUR_SPL. Reset 0. -/
  curSpl : Bool := false
  /-- R327: CUR_ADDR, as a byte address. Reset 0. -/
  cur : Nat := 0
  /-- R327: JOB_OPEN. Reset 0. -/
  jobOpen : Bool := false
  /-- R332: descriptors of the open job already run: space, address, bytes written. -/
  job : List (Bool × Nat × Nat) := []
  /-- R331: the JOB_END descriptor has written its data and holds for a verdict. -/
  held : Bool := false
  /-- R331: a failure has reached the channel. -/
  failing : Bool := false
  /-- R332: descriptors up to JOB_END are completed as JOB_ABORTED. -/
  aborting : Bool := false
  /-- R337: descriptors the scull DMA port has appended to the channel. Reset 0. -/
  appended : Nat := 0
  /-- R331: verdicts that have come before their job's JOB_END, by its USER. Reset: none. -/
  verdicts : List (Nat × Bool) := []
  /-- R321: the partial CRC of a unit that spans two descriptors of the open job: its UNIT_NO, the bytes so far and the CRC. -/
  partialTag : Option (Nat × Nat × BitVec 64) := none
  /-- R318, R328, R330: the descriptor as the engine fetched it, 512 bits, while the channel is ACTIVE. Reset 0. -/
  fetched : Nat := 0
  deriving DecidableEq, Repr

/-- One requester of an arbitration unit (R340, R344). -/
structure AuReq where
  cls : Nat := 0
  limit : Nat := 0
  shadowCls : Nat := 0
  shadowLimit : Nat := 0
  wait : Nat := 0
  deriving DecidableEq, Repr

/-- An arbitration unit (R340, R344). -/
structure Au where
  reqs : List AuReq := []
  /-- round-robin pointer among expired requesters. Reset: PRESUMED 0. -/
  expPtr : Nat := 0
  /-- round-robin pointers of classes 0 to 3. Reset: PRESUMED 0. -/
  clsPtr : List Nat := [0, 0, 0, 0]
  /-- AU_STATE.OWNER. Reset 0. -/
  owner : Nat := 0
  /-- AU_STATE.PARKED. Reset 0. -/
  parked : Bool := false
  /-- AU_STATE.HELD. Reset 0. -/
  held : Bool := false
  /-- R343: a commit takes effect at the next round. -/
  commit : Bool := false
  deriving DecidableEq, Repr

/-- The DMA fabric (DMF) and the staging pool. -/
structure Dmf where
  /-- R316: channels 0 to 255. -/
  chans : Mem DmaCh := []
  /-- R339: arbitration units 0 to 90; absent entries hold their defaults. -/
  aus : Mem (Option Au) := []
  /-- R14: the staging pool, by byte offset. Reset: DESIGN CHOICE zero. -/
  spl : List Host.Cell := []
  /-- R21, R23: integrity tags of SPL units, by offset ÷ 4,096. Reset: none tagged. -/
  tags : Mem (Option (BitVec 64)) := []
  /-- R14: the 64-bit SPL words, by offset ÷ 8, whose check bits show a double-bit error. A single-bit error is corrected and is
  not held. Reset: none. -/
  splBad : List Nat := []
  /-- R335, R336: domains powered down or forced off. Reset: none. -/
  domainsOff : List Nat := []
  /-- R336: domains forced off. Reset: none. -/
  forced : List Nat := []
  deriving DecidableEq, Repr

/-! ### Cipher and digest engines -/

/-- Key slot states (R354). -/
inductive SlotState where
  | empty | loaded | pending | locked
  deriving DecidableEq, Repr

/-- A key with its attributes, fixed field and invocation counter (R354, R355). -/
structure Key where
  bytes : Bytes
  attr : BitVec 16
  fixed : BitVec 32 := 0
  counter : Nat := 0
  locked : Bool := false
  deriving DecidableEq, Repr

/-- A key slot (R354, R360, R376). -/
structure Slot where
  /-- the key in force, or the new key while PENDING. Reset: EMPTY. -/
  key : Option Key := none
  /-- R360: a staged rewrite: the epoch E and the old key. -/
  staged : Option (BitVec 16 × Option Key) := none
  /-- R376: the NVS mark the counter never passes. Reset 0. -/
  mark : Nat := 0
  func : Nat := 0
  deriving DecidableEq, Repr

/-- An entry bound to a pipeline, or waiting (R362). -/
structure CpeEntry where
  submitter : Nat
  entry : BitVec 512
  /-- the key bound at dispatch, and the nonce taken. -/
  key : Bytes := []
  nonce : Bytes := []
  /-- R368: slices run to their end. -/
  slices : Nat := 0
  deriving DecidableEq, Repr

/-- A CPE pipeline (R365, R368, R370, R377). -/
structure Pipe where
  /-- bound requests in round-robin order, the first one running. -/
  bound : List CpeEntry := []
  /-- R377: blocks since the last reseed. -/
  drbgBlocks : Nat := 0
  deriving DecidableEq, Repr

/-- A privileged page (R380). -/
structure Page where
  entry : Mem (BitVec 64) := []
  busy : Bool := false
  done : Bool := false
  result : Nat := 0
  completion : List (BitVec 64) := []
  /-- page keys 0 to 3 with their ATTR. -/
  keys : Mem (Bytes × BitVec 16) := []
  /-- key writes that take effect when the request ends. -/
  late : List (Nat × Bytes × BitVec 16) := []
  deriving DecidableEq, Repr

/-- The cipher engine (CPE). -/
structure Cpe where
  /-- R354: key slots 0 to 4,095. Reset: EMPTY. -/
  slots : Mem Slot := []
  /-- R364: the shared request queue, in arrival order. Reset: empty. -/
  queue : List CpeEntry := []
  /-- R364: entries of submitters that wait for a place in the queue. Reset: none. -/
  waiting : List CpeEntry := []
  /-- R365: pipelines 0 to 7. Reset: nothing bound. -/
  pipes : Mem Pipe := []
  /-- R380: privileged pages 0 to 3. -/
  pages : Mem Page := []
  /-- R363: completions, newest last: submitter, the 64-byte completion. -/
  done : List (Nat × BitVec 512) := []
  /-- R371: AUTH_FAIL_RETRACTED completions that wait for the job's JOB_END: channel, entry, bytes written. Reset: none. -/
  afterJob : List (Nat × CpeEntry × Nat) := []
  /-- R379: the noise source's tests fail. Reset: no. -/
  rngFailed : Bool := false
  /-- R381: page 0 is closed since the end of BOOT. -/
  page0Closed : Bool := false
  deriving DecidableEq, Repr

/-- DGE context states (R388). -/
inductive DgeState where
  | idle | opened | done | error
  deriving DecidableEq, Repr

/-- A digest context window (R385 to R389). -/
structure DgeCtx where
  cfg : BitVec 64 := 0
  src : DgeSource := .feeder
  state : DgeState := .idle
  outcome : Nat := 0
  error : Nat := 0
  expectSet : Bool := false
  expect : Mem (BitVec 64) := []
  /-- the open message's bytes so far. -/
  msg : Bytes := []
  /-- the last word written. -/
  last : BitVec 64 := 0
  result : Bytes := []
  key : Bytes := []
  /-- R391: the value sealed into a migration image. -/
  sealedMac : Bytes := []
  deriving DecidableEq, Repr

/-- A message open on port 2 of a scull (R394). -/
structure Port2Msg where
  alg : Nat
  key : Option Bytes := none
  msg : Bytes := []
  deriving DecidableEq, Repr

/-- The digest engine (DGE). -/
structure Dge where
  /-- R392: contexts. Reset: IDLE. -/
  ctxs : Mem DgeCtx := []
  /-- R392: contexts running on pipelines 0 to 3. Reset: none. -/
  running : Mem (Option Nat) := []
  /-- R392, R393: contexts that wait for a pipeline, as images or inside. Reset: none. -/
  images : List Nat := []
  /-- R393: opens that wait for a context to finish: context, source, CFG. Reset: none. -/
  opens : List (Nat × DgeSource × BitVec 64) := []
  /-- R392: context images in DRAM, by context. Reset: none. -/
  saved : Mem Bytes := []
  /-- R392: the image key of this BOOT, held in page 1; empty before its first use. Reset: empty. -/
  imageKey : Bytes := []
  /-- R394: the message open on port 2 of each scull. Reset: none. -/
  port2 : Mem (Option Port2Msg) := []
  deriving DecidableEq, Repr

/-! ### Compression and search -/

/-- A held compression context (R416 to R418). -/
structure CmpCtx where
  func : Nat
  gen : BitVec 8
  scull : Option Nat := none
  op : Nat
  format : Nat
  windowLog : Nat := 15
  depth : Nat := 1
  lazy : Bool := false
  declLen : Nat := 0
  /-- all input taken so far, from the start of the stream. -/
  input : Bytes := []
  /-- output bytes written so far. -/
  produced : Nat := 0
  consumed : Nat := 0
  /-- R412: the block from which stored blocks replace coded ones. -/
  fallback : Option Nat := none
  /-- R410, R412: how many blocks have been begun. -/
  coded : Nat := 0
  /-- R417: the block that ends the stream has been begun, so that no more input belongs to it. -/
  ended : Bool := false
  deriving DecidableEq, Repr

/-- The compression engine (CMP). -/
structure Cmp where
  /-- R418: contexts 0 to 63. Reset: none held. -/
  ctxs : Mem (Option CmpCtx) := []
  deriving DecidableEq, Repr

/-- A tenant table (R431, R435, R440). -/
structure Table where
  func : Nat
  id : Nat
  /-- 0: 72 bits, 1: 144, 2: 288. -/
  width : Nat
  longest : Bool
  slabs : List Nat
  /-- R441: a delete waits for the commands accepted before this handle, and later ones find the table unknown. -/
  deleting : Option CmdId := none
  /-- R203, R441: who waits for the delete to end; 255 for nobody. -/
  deletedBy : Nat := 255
  deriving DecidableEq, Repr

/-- A valid entry of a table (R429, R431). -/
structure Row where
  key : BitVec 288
  mask : BitVec 288
  prefilter : BitVec 8
  priority : Nat
  assoc : BitVec 64
  deriving DecidableEq, Repr

/-- The associative search unit (ASU). -/
structure Asu where
  /-- R440: tables. Reset: none. -/
  tables : List Table := []
  /-- R430, R431: valid entries, key (function × 65 + table) × 2^24 + entry. Reset: none valid. -/
  rows : Mem (Option Row) := []
  /-- R432: the object lookup cache: 144-bit key and physical map entry of the page, oldest first. Reset: empty (R442). -/
  objCache : List (BitVec 144 × BitVec 64) := []
  /-- R61, R432: the Chive hot subset: 72-bit key and DRAM address of the entry, oldest first. Reset: empty (R442). -/
  chiveHot : List (BitVec 72 × BitVec 64) := []
  deriving DecidableEq, Repr

/-! ### The scull array -/

/-- A window-table entry (R462). -/
structure Win where
  kind : Nat := 0
  r : Bool := false
  w : Bool := false
  derived : Bool := false
  live : Bool := false
  hostPort : Bool := false
  inc : BitVec 6 := 0
  len : Nat := 0
  base : Nat := 0
  tagNsid : Nat := 0
  tagObj : Nat := 0
  tagUnit : Nat := 0
  deriving DecidableEq, Repr

/-- What started an invocation (R503). -/
inductive Start where
  | invoke (cmd : CmdId) | filter (cmd : CmdId) | hook (cmd : CmdId)
  deriving DecidableEq, Repr

/-- One scull (R456 to R458). -/
structure Scull where
  /-- R502: the invocation runs. Reset: no. -/
  running : Bool := false
  func : Nat := 0
  handle : Nat := 0
  gen : BitVec 8 := 0
  epoch : BitVec 16 := 0
  start : Option Start := none
  /-- R456: program memory, 14-bit words. Reset: DESIGN CHOICE 0. -/
  prog : Mem (BitVec 14) := []
  /-- R468: program length PL. Reset 0. -/
  pl : Nat := 0
  /-- R456: local memory; an unlisted word holds POISON (R460). -/
  mem : Mem TWord := []
  /-- R457: D0 to D7. Reset NIL (R460). -/
  d : Mem TWord := []
  /-- R457: A0 to A3; no PTR when absent (R460). -/
  a : Mem (Option TWord) := []
  /-- R457: AC0, AC1. Reset 0 (R460). -/
  ac : Mem (BitVec 64) := []
  /-- R458: PC, 13 bits. Reset: DESIGN CHOICE 0. -/
  pc : BitVec 13 := 0
  /-- R458: DPG. Reset 0. -/
  dpg : BitVec 6 := 0
  /-- R458: XPG. Reset 0. -/
  xpg : BitVec 8 := 0
  /-- R458: RC. Reset 0. -/
  rc : BitVec 9 := 0
  /-- R458: IVEC. Reset NIL. -/
  ivec : TWord := 0
  /-- R458: IRET. Reset NIL. -/
  iret : TWord := 0
  /-- R458: STATUS.IEN. Reset 0. -/
  ien : Bool := false
  /-- R458: STATUS.IN_HANDLER. Reset 0. -/
  inHandler : Bool := false
  /-- R458: STATUS.TIMER_EXPIRED. Reset 0. -/
  timerExpired : Bool := false
  /-- R482: the timer is armed. Reset: no. -/
  timer : Option Nat := none
  /-- R458: CYCLES. Reset 0. -/
  cycles : Nat := 0
  /-- R458: BUDGET_LEFT. -/
  budget : Nat := 0
  /-- R458, R486: TRAPINFO. Reset 0. -/
  trapinfo : BitVec 32 := 0
  /-- R484: a trap has halted the scull and the invocation waits to end. -/
  trapped : Bool := false
  /-- R462: the window table, 64 entries. Reset 0. -/
  wins : Mem Win := []
  /-- R467: shared pages it may read and write, first page and count. -/
  sharedFirst : Nat := 0
  sharedCount : Nat := 0
  /-- R480: the message being built for each port. Reset: empty. -/
  out : Mem (List TWord) := []
  /-- R480: complete messages sent and not yet taken by the port. -/
  sent : Mem (List (List TWord)) := []
  /-- R480, R481: reply words waiting on each port. Reset: empty. -/
  inq : Mem (List TWord) := []
  /-- R482: requests outstanding on ports 0 to 4. Reset 0. -/
  outstanding : Mem Nat := []
  /-- R482: mailbox messages queued for this scull (port 8): source position, word. -/
  mail : List (Nat × TWord) := []
  /-- R513: stream input still to deliver, in whole words, the end marker's value, and whether it is still to deliver. -/
  feed : Bytes := []
  feedTail : Nat := 0
  feedEnd : Bool := false
  /-- R514: bytes collected from port 7. -/
  output : Bytes := []
  lastBytes : Bool := false
  outLen : Nat := 0
  stream : Bool := false
  /-- R515: words of the hook reply sent. -/
  hookSent : List TWord := []
  /-- R486: the address of the last instruction that ran. Reset: DESIGN CHOICE 0. -/
  lastPc : BitVec 13 := 0
  /-- R468, R486: the next fetch lies beyond the 13 bits of PC. Reset: no. -/
  pastEnd : Bool := false
  /-- R495: there is no interruption point before the next instruction. Reset: no. -/
  noPoint : Bool := false
  /-- R483: ports on which the interrupted code has a partial message. -/
  heldOut : List Nat := []
  /-- R482: the source position of the first mailbox message has been received, its data word not yet. -/
  mailHalf : Bool := false
  /-- R383: replies that wait for their DMA job, by its USER: the port and the words; port 99 marks a job that has ended first. -/
  held : List (Nat × Nat × List TWord) := []
  /-- R383: SPL ranges that stage outputs of its requests on the way to a window that is no SPL buffer. -/
  stages : List (Nat × Nat) := []
  /-- R481: reply words reserved for each request of port 4 that is outstanding, oldest first. -/
  resv4 : List Nat := []
  /-- R510: the SPL buffer of the invocation, address and bytes. -/
  bufAt : Nat := 0
  bufLen : Nat := 0
  deriving DecidableEq, Repr

/-- One rule of an LX720 filter (R519). -/
structure Rule720 where
  offset : Nat
  len : Nat
  keep : Bool
  value : Bytes
  deriving DecidableEq, Repr

/-- An LX720 filter (R519). -/
structure Filter720 where
  delim : Byte
  defaultKeep : Bool
  rules : List Rule720
  deriving DecidableEq, Repr

/-- A loaded program (R497 to R500). -/
structure Prog where
  func : Nat
  handle : Nat
  lx720 : Bool := false
  useInvoke : Bool := false
  useFilter : Bool := false
  useHook : Bool := false
  sculls : List Nat
  words : List (BitVec 14)
  data : List TWord := []
  dataBase : Nat := 0
  entry : Nat := 0
  sharedPages : Nat := 0
  /-- R499: first shared page in each Eight it occupies. -/
  sharedAt : Mem Nat := []
  scratchKib : Nat := 0
  /-- R498: DRAM address of each scratch area, one per scull. -/
  scratchAt : List Nat := []
  budget : Nat := 1000
  faults : Nat := 0
  unloading : Bool := false
  /-- R107: the first command handle given after the load. -/
  loadedAt : CmdId := 0
  /-- R500: commands and views accepted before the unload. -/
  keepFor : List CmdId := []
  /-- R502: the invocation queue, 256 entries. -/
  queue : List Start := []
  /-- R519: the filter it was translated from. -/
  filter : Option Filter720 := none
  deriving DecidableEq, Repr

/-- The scull array (SCA). -/
structure Sca where
  /-- R455: sculls 0 to 31. -/
  sculls : Mem Scull := []
  /-- R456: shared memory, key Eight × 65,536 + word; unlisted words hold POISON (R499). -/
  shared : Mem TWord := []
  /-- R497: loaded programs. Reset: none. -/
  progs : List Prog := []
  deriving DecidableEq, Repr

/-! ### Power, modes, integrity, recorder -/

/-- An event record (R550). -/
structure Event where
  seq : Nat := 0
  hours : Nat := 0
  seconds : Nat := 0
  powerCycles : Nat := 0
  cls : Nat
  component : Nat
  code : Nat
  tenant : Nat := 255
  data : Bytes := []
  deriving DecidableEq, Repr

/-- The event recorder and the always-on counters (R549 to R555). -/
structure Rec where
  /-- R549: the ring in MRAM, slot to a valid record. Reset: no valid record. -/
  ring : Mem (Option Event) := []
  /-- R552: the next sequence number. Reset: DESIGN CHOICE 0 (log 66). -/
  next : Nat := 0
  /-- R552: records waiting, 64 places. Reset: empty. -/
  queue : List Event := []
  /-- R552: the record a producer waits with, when the queue holds only DANGEROUS and AUDIT records. -/
  blocked : List Event := []
  /-- R553: the retention buffer, 8 records. Reset: empty. -/
  retention : List Event := []
  /-- R552: records dropped and not yet reported. Reset 0. -/
  dropped : Nat := 0
  /-- R554: operating hours, 24 bits. Reset 0. -/
  hours : Nat := 0
  /-- R554: seconds within the hour. Reset 0. -/
  seconds : Nat := 0
  /-- R554: power-cycle count. Reset 0. -/
  powerCycles : Nat := 0
  /-- R554: the MRAM mirror of the counters: hours, seconds, power cycles. Reset 0. -/
  mirror : Nat × Nat × Nat := (0, 0, 0)
  /-- R555: the always-on domain has been lost since the last BOOT. Reset: yes. -/
  aonLost : Bool := true
  deriving DecidableEq, Repr

/-- The hold-up self-test in progress (R535). -/
structure HoldupRun where
  v0 : Nat
  v1 : Option Nat := none
  boot : Bool
  deriving DecidableEq, Repr

/-- The hold-up diagnostics (R535, R536, R548). -/
structure Holdup where
  /-- R144: hold-up state VOLATILE. Reset: DESIGN CHOICE VOLATILE until a BOOT test passes (R536). -/
  volat : Bool := true
  /-- R165: operating hour at which VOLATILE began. Reset 0. -/
  volatileSince : Nat := 0
  /-- R145: step 2 of the move to VOLATILE: bytes to program, and the slots with their keys still to program. Reset: none. -/
  failing : Option (Nat × List (Nat × Nat)) := none
  /-- R535: the test in progress. Reset: none. -/
  run : Option HoldupRun := none
  /-- R548: HOLDUP_C. Reset 0. -/
  c : Nat := 0
  /-- R535, R548: P_D of the last BOOT, in MRAM, in watts as a fraction. Reset 0. -/
  pd : Nat × Nat := (0, 1)
  /-- R548: HOLDUP_TPROJ. Reset 0. -/
  tproj : Nat := 0
  /-- R548: operating hour of the last test. Reset 0. -/
  testedAt : Nat := 0
  /-- R536: this BOOT has completed a passing test. Reset: no. -/
  passed : Bool := false
  deriving DecidableEq, Repr

/-- The pins and sensed supplies that the PSM reads or drives (R534, R547, R548, R613, R615, R617). -/
structure Pins where
  /-- R548: VSENSE_MAIN in mV as last sensed. Reset: DESIGN CHOICE 0. -/
  vsenseMv : Nat := 0
  /-- R548: AON_BKUP. Reset 0. -/
  aonBkup : Bool := false
  /-- R534: PP_IN_EN. Reset high. -/
  ppInEn : Bool := true
  /-- R534: HOLDUP_BLEED. Reset low. -/
  bleed : Bool := false
  /-- R547: FAULT_N is driven low. Reset: no. -/
  faultLow : Bool := false
  /-- R615: POR_N is low. Reset: no. -/
  porLow : Bool := false
  /-- R617: TEST_EN as sampled. Reset 0. -/
  testEn : Bool := false
  /-- R528: an always-on input is present. Reset: no. -/
  aonUp : Bool := false
  deriving DecidableEq, Repr

/-- What the PSM has latched about failures (R545 to R548). -/
structure Halt where
  /-- R548: HALT_CODE. Reset 0. -/
  code : Nat := 0
  /-- R548: HALT_COMPONENT. Reset 0. -/
  component : Nat := 0
  /-- R548: HALT_SEQ. Reset 0. -/
  seq : Nat := 0
  /-- R546: the safe drain runs. Reset: no. -/
  safeDrain : Bool := false
  /-- R548: DANGEROUS_COUNT. Reset 0. -/
  dangerous : Nat := 0
  /-- R545: withdrawn instances. Reset: none. -/
  withdrawn : List Instance := []
  /-- R545: detections: component, diagnostic, second. Reset: none. -/
  detections : List (Nat × Nat × Nat) := []
  deriving DecidableEq, Repr

/-- The power and safety manager (PSM). -/
structure Psm where
  /-- R537: the operating mode. Reset OFF. -/
  mode : Mode := .off
  /-- R537: the mode before DRAIN, and before HOLD for BOOT_RECORD. Reset OFF. -/
  prevMode : Mode := .off
  /-- R209: DEGRADED_CAUSES. Reset 0. -/
  causes : BitVec 16 := 0
  /-- R540: MAINTENANCE is held from SAFE-HALT. Reset: no. -/
  heldFromHalt : Bool := false
  /-- R540: MAINTENANCE was entered by MB_MAINT_ENTER. Reset: no. -/
  maintByHost : Bool := false
  /-- R540, R568: a commit, revert or activation holds MAINTENANCE. Reset: no. -/
  maintByWork : Bool := false
  /-- R537: MB_MAINT_EXIT has answered from MAINTENANCE held from SAFE-HALT, and the restart is due. Reset: no. -/
  restartDue : Bool := false
  /-- R539: a wake event has come in REST, and the exit is due. Reset: no. -/
  waking : Bool := false
  /-- R540: the mailbox whose MB_MAINT_ENTER waits for accepted I/O. Reset: none. -/
  maintWaiting : Option Nat := none
  holdup : Holdup := {}
  pins : Pins := {}
  halt : Halt := {}
  /-- R527: supply-fail warning latched. Reset: no. -/
  warning : Bool := false
  /-- R527, R548: non-volatile write fence. Reset 0. -/
  fence : Bool := false
  /-- R615: a taken POR_N takes the device to OFF at HOLD; the mode at which it was taken. Reset: none. -/
  por : Option Mode := none
  /-- R623: HOLD follows a thermal shutdown. Reset: no. -/
  thermalHold : Bool := false
  /-- R562: the drain in progress began in SAFE-HALT. Reset: no. -/
  drainFromHalt : Bool := false
  /-- R569: ledger slots set when the drain in progress began. Reset 0. -/
  drainUnits : Nat := 0
  /-- R527: rails that have left their limits. Reset: none. -/
  rails : List Nat := []
  deriving DecidableEq, Repr

/-- The thermal unit (R621 to R623). -/
structure Thermal where
  /-- R621: eight sensors, kelvin. Reset: DESIGN CHOICE 300. -/
  sensors : List Nat := [300, 300, 300, 300, 300, 300, 300, 300]
  /-- R622: throttle level. Reset 0. -/
  level : Nat := 0
  /-- R623: tenths of a second at or above CCTEMP. Reset 0. -/
  critical : Nat := 0
  deriving DecidableEq, Repr

/-- The test access port (R617). -/
structure Tap where
  /-- the instruction in force; IDCODE after TAP reset. PRESUMED 0x01 (IEEE 1149.1). -/
  ir : BitVec 8 := 1
  /-- the selected data register as captured. -/
  dr : List Bool := []
  /-- the boundary register's update latches. -/
  boundary : List Bool := []
  deriving DecidableEq, Repr

/-! ### Non-volatile store and configuration -/

/-- Content of a configuration slot (R215). -/
inductive Content where
  | empty | valid | partialImage | retained
  deriving DecidableEq, Repr

/-- A configuration slot (R210, R215). -/
structure CfgSlot where
  content : Content := .empty
  image : Bytes := []
  deriving DecidableEq, Repr

/-- A firmware slot (R195, R222, R223): its image, what the image's header says, and that the image verifies. -/
structure FwSlot where
  present : Bool := false
  svn : Nat := 0
  revision : Bytes := []
  length : Nat := 0
  ok : Bool := false
  image : Bytes := []
  deriving DecidableEq, Repr

/-- The recovery image of slot 1, of which the manual gives the layout of the header alone (R222, R223): DESIGN CHOICE a bare header
with SVN 0, REVISION and SIGNATURE zero (log 94). -/
def recoveryImage : Bytes := [0x4C, 0x58, 0x46, 0x57, 1, 0] ++ List.replicate 10 0 ++ [128] ++ List.replicate 111 0

/-- Firmware slot 1 (R222). -/
def recoverySlot : FwSlot := { present := true, revision := List.replicate 8 0, length := 128, ok := true, image := recoveryImage }

/-- The PAIR section in force (R576). -/
structure PairCfg where
  pairId : BitVec 64
  lossMs : Nat := 10
  resyncGbps : Nat := 1
  pairKey : Bytes := []
  mirrored : List Nat := []
  owner1 : List Nat := []
  deriving DecidableEq, Repr

/-- The non-volatile store (NVS): slots, role map, keys, and the configuration in force. -/
structure Nvs where
  /-- R215: slot of role ACTIVE, PREVIOUS, STAGED, FACTORY (0 to 3). Reset: DESIGN CHOICE identity. -/
  roles : List Nat := [0, 1, 2, 3]
  /-- R196: the active configuration is on trial. Reset: no. -/
  trial : Bool := false
  /-- R215: configuration slots 0 to 3. Reset: DESIGN CHOICE empty. -/
  slots : Mem CfgSlot := []
  /-- R215: STAGE_OWNER. Reset 0xFF. -/
  stageOwner : Nat := 255
  /-- R215: TRIAL_LEFT. Reset 0. -/
  trialLeft : Nat := 0
  /-- R217: TRIAL_S of the commit. -/
  trialS : Nat := 0
  /-- R215: STAGED_RECEIVED. Reset 0. -/
  received : Nat := 0
  /-- R215: STAGED_TOTAL. Reset 0. -/
  total : Nat := 0
  /-- R217: a commit waits for accepted I/O: mailbox, TRIAL_S. -/
  committing : Option (Nat × Nat) := none
  /-- R219: a revert waits for accepted I/O: reason, mailbox to answer. -/
  reverting : Option (Nat × Option Nat) := none
  /-- R214: the tenant entries in force. Reset: none. -/
  tenants : List Tenant := []
  /-- R213: DEVICE fields in force since BOOT: TRIAL_DEFAULT_S, MAP_CACHE_GIB, CHIVE_GIB, SLC_SLICE, VF_SPLIT. -/
  trialDefault : Nat := 300
  mapCacheGib : Nat := 8
  chiveGib : Nat := 4
  slcSlice : Nat := 20
  vfSplit : Nat := 0
  /-- R222: firmware slots 1 to 3. Reset: the recovery image in slot 1; DESIGN CHOICE the others empty. -/
  fw : Mem FwSlot := [(1, recoverySlot)]
  /-- R196, R225: active firmware slot, and the one running. Reset: DESIGN CHOICE 1. -/
  fwActive : Nat := 1
  fwRunning : Nat := 1
  /-- R224: minimum SVN. Reset: DESIGN CHOICE 0. -/
  minSvn : Nat := 0
  /-- R207: maintenance key. Reset: DESIGN CHOICE none until provisioned. -/
  maintKey : Option Bytes := none
  /-- R357: transport key. Reset: DESIGN CHOICE none until provisioned. -/
  transportKey : Option Bytes := none
  deriving DecidableEq, Repr

/-! ### Sweep link -/

/-- Pair states (R584, R592). -/
inductive PairState where
  | unpaired | joining | paired | suspended | isolated | sole | resync
  deriving DecidableEq, Repr

/-- A unit held for the partner (R579, R580): its slot, none for an unmapped unit, and the first and last unit of its
write. -/
structure HeldUnit where
  asn : BitVec 48
  nsid : Nat
  unitNo : Nat
  slot : Option Nat
  first : Nat
  last : Nat
  deriving DecidableEq, Repr

/-- What a frame carries beside its header (R572 to R574, R578, R585). The manual gives the bytes of a UNIT only. -/
inductive TxBody where
  | plain
  | unitData (cid : Option Nat) (data : Bytes)
  | command (cid : CmdId) (e : Sqe)
  | completion (cid : Nat) (r : Result)
  | heartbeat (mode : Nat) (holdupVolatile : Bool) (state : Nat) (fp : Option (BitVec 64))
  | rekey (nonce : Bytes)
  deriving DecidableEq, Repr

/-- A frame sent and kept until acknowledged (R573). -/
structure TxFrame where
  kind : Nat
  keyNo : Nat
  seq : Nat
  asn : BitVec 48 := 0
  nsid : Nat := 0
  unitNo : Nat := 0
  body : TxBody := .plain
  resends : Nat := 0
  deriving DecidableEq, Repr

/-- The link layer of the Sweep link (R571 to R574, R598, R604). -/
structure SwlLink where
  /-- R592: LANES_UP. Reset 0. -/
  lanes : BitVec 4 := 0
  /-- R592: PAIR_UP_IN, filtered. Reset 0. -/
  upIn : Bool := false
  /-- R592: RETRIES. Reset 0. -/
  retries : Nat := 0
  /-- R592: KEY_NO. Reset 0. -/
  keyNo : Nat := 0
  /-- R572: KEY_PHASE in force. Reset 0. -/
  keyPhase : Bool := false
  /-- R574: nonce of position 0. Reset: none. -/
  nonce0 : Bytes := []
  /-- R574: nonce of position 1. Reset: none. -/
  nonce1 : Bytes := []
  /-- R574: a re-key has started. Reset: no. -/
  rekeying : Bool := false
  /-- R572: the next SEQ to send. Reset 0. -/
  txSeq : Nat := 0
  /-- R573: the next SEQ expected. Reset 0. -/
  rxSeq : Nat := 0
  /-- R573: the highest ACK_SEQ received. Reset 0. -/
  acked : Nat := 0
  /-- R573: frames not acknowledged, oldest first; the first 512 are sent, later ones wait. Reset: none. -/
  unacked : List TxFrame := []
  /-- R573: times the lanes were retrained. Reset 0. -/
  retrains : Nat := 0
  /-- R584: HELLO frames sent. Reset 0. -/
  hellos : Nat := 0
  /-- R585: heartbeats sent. Reset 0. -/
  beats : Nat := 0
  /-- R598: tag failures since the last SWL_AUTH_FAIL record. Reset 0. -/
  authFails : Nat := 0
  /-- R598: operating second of the last SWL_AUTH_FAIL record. Reset: none. -/
  authSecond : Option Nat := none
  /-- R587: milliseconds suspended. Reset 0. -/
  suspendedMs : Nat := 0
  deriving DecidableEq, Repr

/-- The pair (R576 to R592). -/
structure Swl where
  /-- R576: the PAIR section in force. Reset: none. -/
  cfg : Option PairCfg := none
  /-- R584: pair state. Reset UNPAIRED. -/
  state : PairState := .unpaired
  /-- R592: POSITION. Reset 0xFF. -/
  position : Nat := 255
  /-- R584: MEMBER_ID. Reset: DESIGN CHOICE 0. -/
  memberId : BitVec 64 := 0
  /-- R590: partner MEMBER_ID recorded at the loss. Reset 0. -/
  partnerId : BitVec 64 := 0
  /-- R592: PARTNER_FP. Reset 0. -/
  partnerFp : BitVec 64 := 0
  /-- R592: PARTNER_FP_AGE_MS. Reset 0. -/
  partnerAge : Nat := 0
  /-- R585: partner mode as last heard. Reset 0. -/
  partnerMode : Nat := 0
  /-- R585: partner hold-up state as last heard. Reset: not VOLATILE. -/
  partnerVolatile : Bool := false
  /-- R585: partner pair state as last heard. Reset 0. -/
  partnerState : Nat := 0
  /-- R579: units of the partner's writes held here, not yet committed. Reset: none. -/
  heldUnits : List HeldUnit := []
  /-- R579: units of this side's writes that the partner confirms holding. Reset: none. -/
  confirmed : List (BitVec 48 × Nat × Nat) := []
  /-- R587: dirty granules: NSID, granule. Reset: none. -/
  dirty : List (Nat × Nat) := []
  /-- R587: the dirty-granule map is being kept. Reset: no. -/
  dirtyOn : Bool := false
  /-- R587: namespaces taken over. Reset: none. -/
  taken : List Nat := []
  /-- R584: the partner has taken every mirrored namespace over. Reset: no. -/
  partnerOwns : Bool := false
  /-- R579, R594: the ASN of the last mirrored data committed here, by unit key. Reset: none. -/
  placed : Mem (Option (BitVec 48)) := []
  /-- R590: copies sent and not yet held: ASN, NSID, granule, units. Reset: none. -/
  copying : List (BitVec 48 × Nat × Nat × List Nat) := []
  /-- R590: granules that are being read for a copy, with the copy's ASN. Reset: none. -/
  copyReads : List (Nat × Nat × BitVec 48) := []
  /-- R598: milliseconds in RESYNC. Reset 0. -/
  resyncMs : Nat := 0
  /-- R584: milliseconds until a refused join is retried. Reset 0. -/
  retryMs : Nat := 0
  /-- R591: the reason of the last refused join. Reset: none. -/
  refusal : Option Nat := none
  /-- R590: this side has booted since the loss. Reset: yes. -/
  booted : Bool := true
  /-- R590: granules that the last journal replay here changed. Reset: none. -/
  replayed : List (Nat × Nat) := []
  /-- R590, R592: granules still to copy. Reset: none. -/
  resyncLeft : List (Nat × Nat) := []
  /-- R592: granules in the copy. Reset 0. -/
  resyncTotal : Nat := 0
  /-- R585: the fingerprint has changed since the last one sent. Reset: no. -/
  fpChanged : Bool := false
  /-- R591: the mailbox that waits for the join. Reset: none. -/
  joining : Option Nat := none
  /-- R584, R591: milliseconds JOINING. Reset 0. -/
  joinMs : Nat := 0
  link : SwlLink := {}
  deriving DecidableEq, Repr

/-- Who stops a step with a fault: no meaning of this model does. `unreachable` is raised by nobody; it is safe. -/
inductive Fault where
  | unreachable
  deriving DecidableEq, Repr

/-- Why a command has no meaning. -/
inductive Refusal where
  /-- Raised by an arm of `exec` whose command the model does not give a meaning; safe. No arm is left so. -/
  | notModelled (mnemonic : String)
  deriving DecidableEq, Repr

/-- The whole block. -/
structure State where
  /-- MODEL'S OWN: commands waiting, first in, first out. Reset: empty. -/
  pending : List Instr := []
  /-- MODEL'S OWN: which fresh free value comes next. Reset: DESIGN CHOICE 0. -/
  freeCtr : Nat := 0
  /-- R125, R166: functions 0 to 127. -/
  fns : Mem Fn := []
  hif : Hif := {}
  nss : Nss := {}
  objs : Objs := {}
  flash : Flash := {}
  dram : Dram := {}
  dmf : Dmf := {}
  cpe : Cpe := {}
  dge : Dge := {}
  cmp : Cmp := {}
  asu : Asu := {}
  sca : Sca := {}
  psm : Psm := {}
  recd : Rec := {}
  therm : Thermal := {}
  tap : Tap := {}
  nvs : Nvs := {}
  swl : Swl := {}
  deriving DecidableEq, Repr

/-- The machine right after reset: powered off, every field at the value its line gives (R537). -/
def State.reset : State := {}

end Sys2Proof.Machine
end

