-- ==== Sys2Proof/Machine/Ops.lean ====
section
/-! DEFINITION. The named operations over the sparse tables and memories of the state, and over its records: every
read and every write of the model goes through these. -/

namespace Sys2Proof.Machine

/-! ### Sparse tables -/

/-- What a table reads as at key `k`; an unlisted key reads as `d`. -/
def Mem.get {α : Type} (d : α) : Mem α → Nat → α
  | [], _ => d
  | (k', v) :: m, k => if k' = k then v else Mem.get d m k

/-- A table without an entry at key `k`. -/
def Mem.erase {α : Type} : Mem α → Nat → Mem α
  | [], _ => []
  | (k', v) :: m, k => if k' = k then Mem.erase m k else (k', v) :: Mem.erase m k

/-- A table with an entry put at its place in the rising order of keys. -/
def Mem.insert {α : Type} : Mem α → Nat → α → Mem α
  | [], k, v => [(k, v)]
  | (k', v') :: m, k, v => if k < k' then (k, v) :: (k', v') :: m else (k', v') :: Mem.insert m k v

/-- A table that reads as `v` at `k`; the value that an unlisted key reads as is not listed. -/
def Mem.set {α : Type} [DecidableEq α] (d : α) (m : Mem α) (k : Nat) (v : α) : Mem α :=
  if v = d then Mem.erase m k else Mem.insert (Mem.erase m k) k v

/-- A table with its value at `k` changed by `g`. -/
def Mem.upd {α : Type} [DecidableEq α] (d : α) (m : Mem α) (k : Nat) (g : α → α) : Mem α :=
  Mem.set d m k (g (Mem.get d m k))

/-- The canonical form: keys strictly rising, no entry equal to what an unlisted key reads as. -/
def Mem.wf {α : Type} [DecidableEq α] (d : α) : Mem α → Bool
  | [] => true
  | [(_, v)] => decide (v ≠ d)
  | (k, v) :: (k', v') :: m => decide (v ≠ d) && decide (k < k') && Mem.wf d ((k', v') :: m)

/-- A table with every key that fails `p` taken out. -/
def Mem.keep {α : Type} (p : Nat → Bool) (m : Mem α) : Mem α := m.filter (fun e => p e.1)

/-- A table with every listed value changed by `g`; values that become what an unlisted key reads as leave the table. -/
def Mem.mapAll {α : Type} [DecidableEq α] (d : α) (g : α → α) (m : Mem α) : Mem α :=
  m.filterMap (fun e => if g e.2 = d then none else some (e.1, g e.2))

/-- The keys a table lists. -/
def Mem.keys {α : Type} (m : Mem α) : List Nat := m.map (·.1)

/-- `n` bytes of a byte memory from address `a`. -/
def readBytes (m : List Host.Cell) (a n : Nat) : Bytes := (List.range n).map (fun i => Mem.get 0 m (a + i))

/-- Bytes stored from address `a` upwards. -/
def writeBytes (m : List Host.Cell) (a : Nat) : Bytes → List Host.Cell
  | [] => m
  | b :: bs => writeBytes (Mem.set 0 m a b) (a + 1) bs

/-! ### The staging pool -/

/-- Bytes of the staging pool; none where a word in the range cannot be corrected (R14). -/
def State.splRead (s : State) (addr n : Nat) : Option Bytes :=
  if s.dmf.splBad.any (fun w => decide (addr < 8 * w + 8 ∧ 8 * w < addr + n)) then none else some (readBytes s.dmf.spl addr n)

/-- Bytes written to the staging pool: a word written gets new check bits (R14). -/
def State.splWrite (s : State) (addr : Nat) (bs : Bytes) : State :=
  { s with dmf := { s.dmf with
      spl := writeBytes s.dmf.spl addr bs
      splBad := s.dmf.splBad.filter (fun w => !decide (addr < 8 * w + 8 ∧ 8 * w < addr + bs.length)) } }

/-- The integrity tag stored with an SPL unit (R23). -/
def State.setTag (s : State) (u : Nat) (t : Option (BitVec 64)) : State :=
  { s with dmf := { s.dmf with tags := Mem.set none s.dmf.tags u t } }

/-! ### Records of the state -/

/-- Function `f`. -/
def State.fn (s : State) (f : Nat) : Fn := Mem.get {} s.fns f

/-- The state with function `f` changed. -/
def State.updFn (s : State) (f : Nat) (g : Fn → Fn) : State := { s with fns := Mem.upd {} s.fns f g }

/-- The mailbox of function `f`. -/
def State.mb (s : State) (f : Nat) : Mbox := (s.fn f).mbox

/-- The state with the mailbox of function `f` changed. -/
def State.updMb (s : State) (f : Nat) (g : Mbox → Mbox) : State := s.updFn f (fun x => { x with mbox := g x.mbox })

/-- The command in flight with handle `id`. -/
def State.cmd (s : State) (id : CmdId) : Option Cmd := Mem.get none s.hif.cmds id

/-- The state with the command in flight `id` set. -/
def State.setCmd (s : State) (id : CmdId) (c : Option Cmd) : State :=
  { s with hif := { s.hif with cmds := Mem.set none s.hif.cmds id c } }

/-- The state with the command in flight `id` changed, when there is one. -/
def State.updCmd (s : State) (id : CmdId) (g : Cmd → Cmd) : State :=
  match s.cmd id with
  | none => s
  | some c => s.setCmd id (some (g c))

/-- Scull `k`. -/
def State.scull (s : State) (k : Nat) : Scull := Mem.get {} s.sca.sculls k

/-- The state with scull `k` set. -/
def State.setScull (s : State) (k : Nat) (c : Scull) : State :=
  { s with sca := { s.sca with sculls := Mem.set {} s.sca.sculls k c } }

/-- The state with scull `k` changed. -/
def State.updScull (s : State) (k : Nat) (g : Scull → Scull) : State := s.setScull k (g (s.scull k))

/-- The tenant entry of a function (R166, R214). -/
def State.tenant (s : State) (f : Nat) : Option Tenant := s.nvs.tenants.find? (fun t => t.func == f)

/-- One fresh free value of `w` bits, and the state after drawing it (log 3). -/
def State.draw (s : State) (w : Nat) : BitVec w × State :=
  (Config.freeValue w s.freeCtr, { s with freeCtr := s.freeCtr + 1 })

/-- `n` fresh free bytes (log 3). -/
def State.drawBytes (s : State) (n : Nat) : Bytes × State :=
  let v := s.draw (8 * n)
  (leBytes n v.1.toNat, v.2)

/-- Seconds of operating time (R554), the time base of the once-per-second and once-per-hour limits (log 9). -/
def State.now (s : State) : Nat := 3600 * s.recd.hours + s.recd.seconds

/-- Appends to what has entered the fabric-to-host FIFO (R20). -/
def State.emit (s : State) (ms : List HostMsg) : State := { s with hif := { s.hif with toHost := s.hif.toHost ++ ms } }

end Sys2Proof.Machine
end

