-- ==== Sys2Proof/Machine/Records.lean ====
section
/-! DEFINITION. The event records the manual lists, the layout of their data (R634), and the recorder's queue and
retention buffer (R552, R553): raising a record is one operation, `State.raise`. -/

namespace Sys2Proof.Machine

/-- A kind of event: code, class (0 INFO, 1 WARN, 2 ERROR, 3 DANGEROUS, 4 AUDIT), source component. -/
structure Ev where
  code : Nat
  cls : Nat
  comp : Nat
  deriving DecidableEq, Repr

/-- CHIVE_FULL (R69): Function; 1 reservation full or 2 entry quota reached; entries in use: the device's count for 1, the function's count for 2. -/
def evChiveFull : Ev := ⟨0x0301, 1, 0x09FF⟩

/-- CHIVE_COLLISION (R69): Function; first 16 bytes of the digest; both stored-chunk numbers. -/
def evChiveCollision : Ev := ⟨0x0302, 1, 0x09FF⟩

/-- CHIVE_PINNED (R69): Function; stored-chunk number. -/
def evChivePinned : Ev := ⟨0x0303, 0, 0x09FF⟩

/-- VERIFY_READ_FAIL (R69): Function; stored-chunk number; read status as the 16-bit NVMe status of R634, for example 0x0281 for Unrecovered Read Error. -/
def evVerifyReadFail : Ev := ⟨0x0304, 1, 0x09FF⟩

/-- PROFILE_COMMITTED (R115): Function, kind, profile number, new version. -/
def evProfileCommitted : Ev := ⟨0x0401, 4, 0x0E10⟩

/-- PROFILE_REJECTED (R115): Function, profile number, failing check. -/
def evProfileRejected : Ev := ⟨0x0402, 1, 0x0E10⟩

/-- HOOK_FAULT (R115): Function, program handle, fragment, status. -/
def evHookFault : Ev := ⟨0x0403, 1, 0x0E11⟩

/-- FW_ACTIVATED (R165): Old and new firmware revisions; milliseconds spent in step 4 of R152. -/
def evFwActivated : Ev := ⟨0x0501, 0, 0x04FF⟩

/-- CONTROLLER_RESET (R165): Function; old and new generation; commands aborted without completion. -/
def evControllerReset : Ev := ⟨0x0502, 1, 0x04FF⟩

/-- WRITE_CACHE_VOLATILE (R165): Bytes programmed in step 2 of R145; milliseconds taken. -/
def evWriteCacheVolatile : Ev := ⟨0x0503, 1, 0x04FF⟩

/-- WRITE_CACHE_PROTECTED (R165): Hours spent in VOLATILE. -/
def evWriteCacheProtected : Ev := ⟨0x0504, 0, 0x04FF⟩

/-- LINK_DEGRADED (R165): Source 0x0400 or 0x0401; negotiated width and rate; configured width and rate. -/
def evLinkDegraded : Ev := ⟨0x0505, 1, 0x04FF⟩

/-- PCIE_UNCORRECTABLE (R165): Source 0x0400 or 0x0401; AER uncorrectable status; header log. -/
def evPcieUncorrectable : Ev := ⟨0x0506, 2, 0x04FF⟩

/-- SANITIZE_STARTED (R165): Sanitize action; issuing function. -/
def evSanitizeStarted : Ev := ⟨0x0507, 4, 0x04FF⟩

/-- GENERATION_WAIT (R193): Function; the generation g retired by this reset (the work waited for is that of g + 1, modulo 256); microseconds waited. -/
def evGenerationWait : Ev := ⟨0x0601, 1, 0x05FF⟩

/-- FUNCTION_REMOVED (R193): Function; the generation that was running before the removal, which the removal retired; the number of key slots that held a key (LOADED, PENDING or LOCKED) and were zeroised. -/
def evFunctionRemoved : Ev := ⟨0x0602, 4, 0x05FF⟩

/-- MIG_SAVED (R193): Function; image length; first 8 bytes of the MAC. -/
def evMigSaved : Ev := ⟨0x0603, 4, 0x05FF⟩

/-- MIG_RESTORED (R193): Function; source function; source CONFIG_FP. -/
def evMigRestored : Ev := ⟨0x0604, 4, 0x05FF⟩

/-- MIG_IMAGE_REJECTED (R193): Function; reason: 1 MAC, 2 version, 3 allotment. -/
def evMigImageRejected : Ev := ⟨0x0605, 1, 0x05FF⟩

/-- NAMESPACE_REKEYED (R193): NSID; old key owner; new key owner; 1 block, 2 object. -/
def evNamespaceRekeyed : Ev := ⟨0x0606, 4, 0x05FF⟩

/-- CONFIG_COMMITTED (R232): Issuing function; old and new version; new fingerprint; TRIAL_S. -/
def evConfigCommitted : Ev := ⟨0x0701, 4, 0x0201⟩

/-- CONFIG_CONFIRMED (R232): Version; fingerprint; seconds on trial. -/
def evConfigConfirmed : Ev := ⟨0x0702, 4, 0x0201⟩

/-- CONFIG_REVERTED (R232): Reason; version left; version restored. -/
def evConfigReverted : Ev := ⟨0x0703, 1, 0x0201⟩

/-- CONFIG_REFUSED (R232): Check number; staged version. -/
def evConfigRefused : Ev := ⟨0x0704, 1, 0x0201⟩

/-- CONFIG_BOOT_FALLBACK (R232): Roles rejected; role used. -/
def evConfigBootFallback : Ev := ⟨0x0705, 2, 0x0201⟩

/-- FW_SLOT_WRITTEN (R232): Slot; REVISION; SVN. -/
def evFwSlotWritten : Ev := ⟨0x0706, 4, 0x0201⟩

/-- FW_IMAGE_REJECTED (R232): Reason; slot. -/
def evFwImageRejected : Ev := ⟨0x0707, 2, 0x0201⟩

/-- FW_BOOT_FALLBACK (R232): Slots tried; slot running. -/
def evFwBootFallback : Ev := ⟨0x0708, 2, 0x0201⟩

/-- AUTH_FAILURE (R232): Function; command code; reason: 1 no nonce, 2 expired, 3 MAC. -/
def evAuthFailure : Ev := ⟨0x0709, 1, 0x0310⟩

/-- PROGRAM_FAIL (R283): Die; block; mode; units moved. -/
def evProgramFail : Ev := ⟨0x0801, 1, 0x0932⟩

/-- ERASE_FAIL (R283): Die; block; erase count. -/
def evEraseFail : Ev := ⟨0x0802, 1, 0x0932⟩

/-- READ_UNRECOVERED (R283): Die; PADDR; unit key. -/
def evReadUnrecovered : Ev := ⟨0x0803, 2, 0x0930⟩

/-- READ_DISTURB_RELOCATE (R283): Quad; superblock; read count. -/
def evReadDisturbRelocate : Ev := ⟨0x0804, 0, 0x0935⟩

/-- GC_DEST_FAIL (R283): Quad; superblock; units redirected. -/
def evGcDestFail : Ev := ⟨0x0805, 1, 0x0932⟩

/-- WRITE_STOP_READ_ONLY (R283): Die; free blocks per die, lowest and highest. -/
def evWriteStopReadOnly : Ev := ⟨0x0806, 2, 0x0932⟩

/-- READ_ONLY_CLEARED (R283): Hours read-only. -/
def evReadOnlyCleared : Ev := ⟨0x0807, 0, 0x0932⟩

/-- SUPERBLOCK_RETIRED (R283): Quad; superblock; die without spare. -/
def evSuperblockRetired : Ev := ⟨0x0808, 1, 0x0932⟩

/-- DIE_FAILED (R283): Die; failing operation; units then mapped to it. -/
def evDieFailed : Ev := ⟨0x0809, 2, 0x0932⟩

/-- FLASH_DIE_EXCLUDED (R283): Die; reason: 1 geometry differs from the reference, 2 incomplete quad, 3 parameter page unreadable or outside R235. -/
def evFlashDieExcluded : Ev := ⟨0x080A, 1, 0x0900⟩

/-- LINK_RATE_REDUCED (R283): Channel; configured rate in MT/s; rate in force in MT/s, 0 when the channel is not used (R238). -/
def evLinkRateReduced : Ev := ⟨0x080B, 1, 0x0900⟩

/-- SPARE_LOW (R283): Available Spare. -/
def evSpareLow : Ev := ⟨0x080C, 1, 0x0932⟩

/-- DRAM_PROFILE_FAIL (R314): Channel; rank; signal; direction; margin. -/
def evDramProfileFail : Ev := ⟨0x0901, 2, 0x0815⟩

/-- DRAM_SPARE_UNAVAILABLE (R314): Channel; rank; signal or failing line. -/
def evDramSpareUnavailable : Ev := ⟨0x0902, 1, 0x0815⟩

/-- ROW_DISTURB_THROTTLE (R314): Channel; rank; bank; row; port; count. -/
def evRowDisturbThrottle : Ev := ⟨0x0903, 1, 0x0812⟩

/-- DRAM_CE_THRESHOLD (R314): Channel; rank; corrected errors in the hour. -/
def evDramCeThreshold : Ev := ⟨0x0904, 1, 0x0811⟩

/-- DRAM_UE (R314): Channel; rank; address; region; port; 1 data or 2 command. -/
def evDramUe : Ev := ⟨0x0905, 2, 0x0811⟩

/-- RANK_MIGRATED (R314): Channel; old and new chip select; lines rebuilt; milliseconds. -/
def evRankMigrated : Ev := ⟨0x0906, 1, 0x0813⟩

/-- RANK_LOST_NO_SPARE (R314): Channel; rank; capacity left; mode entered. -/
def evRankLostNoSpare : Ev := ⟨0x0907, 2, 0x0813⟩

/-- DMA_RETRACTED (R352): The global channel that carried the job, which is a system channel for a host command (R316); function; bytes retracted; cause: the RESULT code of R323 that started the retraction, for example 0x03 TAG_MISMATCH or 0x05 UPSTREAM_FAIL, or 0x06 DOMAIN_OFF for a forced shutdown. -/
def evDmaRetracted : Ev := ⟨0x0A01, 1, 0x0600⟩

/-- DMA_CHANNEL_HALTED (R352): Channel; descriptor address; RESULT. -/
def evDmaChannelHalted : Ev := ⟨0x0A02, 2, 0x0600⟩

/-- DMA_DOMAIN_OFF (R352): Domain; descriptors stopped; bytes retracted. -/
def evDmaDomainOff : Ev := ⟨0x0A03, 2, 0x0600⟩

/-- DMA_LATE_FAIL (R352): Channel; producer component; function. -/
def evDmaLateFail : Ev := ⟨0x0A04, 1, 0x0600⟩

/-- KEY_IMPORTED (R404): Function; slot; ATTR; new epoch. -/
def evKeyImported : Ev := ⟨0x0B01, 4, 0x0A10⟩

/-- KEY_ERASED (R404): Function; slot. -/
def evKeyErased : Ev := ⟨0x0B02, 4, 0x0A10⟩

/-- KEY_IMPORT_REJECTED (R404): Function; slot; DETAIL. -/
def evKeyImportRejected : Ev := ⟨0x0B03, 1, 0x0A10⟩

/-- KEK_IMPORTED (R404): Function, or 0xFF. -/
def evKekImported : Ev := ⟨0x0B04, 4, 0x0A10⟩

/-- SLOT_NONCE_LOCKED (R404): Function; slot. -/
def evSlotNonceLocked : Ev := ⟨0x0B05, 1, 0x0A10⟩

/-- CPE_PARITY_FAULT (R404): Pipeline; function; mode; block offset; requests ended. -/
def evCpeParityFault : Ev := ⟨0x0B06, 3, 0x0A00⟩

/-- PAGE_VIOLATION (R404): Page; requesting identity; offset. -/
def evPageViolation : Ev := ⟨0x0B07, 3, 0x0A20⟩

/-- RNG_HEALTH_FAIL (R404): Failing test; pipelines stopped. -/
def evRngHealthFail : Ev := ⟨0x0B08, 3, 0x0A12⟩

/-- DGE_CTX_RESTORE_FAIL (R404): Function; context. -/
def evDgeCtxRestoreFail : Ev := ⟨0x0B09, 2, 0x0B10⟩

/-- AUTH_TAG_FAIL (R404): Function; slot; 1 held or 2 retracted. At most once per second per function. -/
def evAuthTagFail : Ev := ⟨0x0B0A, 0, 0x0A00⟩

/-- CMP_VERIFY_MISMATCH (R427): Compressor; function; format; block number. -/
def evCmpVerifyMismatch : Ev := ⟨0x0C01, 3, 0x0C00⟩

/-- CMP_CHECK_FAIL (R427): Function; format; reason of R409; input offset. At most once per second per function. -/
def evCmpCheckFail : Ev := ⟨0x0C02, 0, 0x0C10⟩

/-- CMP_CONTEXT_EXPIRED (R427): Function; context; CONSUMED and PRODUCED at expiry. -/
def evCmpContextExpired : Ev := ⟨0x0C03, 0, 0x0C20⟩

/-- TABLE_CREATED (R454): Function; table ID; width; slabs. -/
def evTableCreated : Ev := ⟨0x0D01, 0, 0x0D22⟩

/-- TABLE_DELETED (R454): Function; table ID; slabs freed. -/
def evTableDeleted : Ev := ⟨0x0D02, 0, 0x0D22⟩

/-- ASU_SELFTEST_FAIL (R454): Bank group; failing pattern; tables affected. -/
def evAsuSelftestFail : Ev := ⟨0x0D03, 3, 0x0D23⟩

/-- ASU_ROW_PARITY (R454): Bank; row; function. -/
def evAsuRowParity : Ev := ⟨0x0D04, 2, 0x0D00⟩

/-- ASU_MATCH_DISAGREE (R454): Bank group; function; table ID; 1 MATCH_TOTAL, 2 winner, 3 step result. -/
def evAsuMatchDisagree : Ev := ⟨0x0D05, 3, 0x0D20⟩

/-- SCULL_PROG_PARITY (R496): Function; program handle; PC. -/
def evScullProgParity : Ev := ⟨0x0E01, 2, 0x0F00⟩

/-- SCULL_DATA_UE (R496): Function; memory; word address. -/
def evScullDataUe : Ev := ⟨0x0E02, 2, 0x0F00⟩

/-- PROGRAM_LOADED (R517): Function; handle; load format; SCULLS mask; PL. -/
def evProgramLoaded : Ev := ⟨0x0E03, 4, 0x0F28⟩

/-- PROGRAM_REJECTED (R517): Function; load format; check number. -/
def evProgramRejected : Ev := ⟨0x0E04, 1, 0x0F28⟩

/-- PROGRAM_TRAP (R517): Function; handle; scull; the FAULT word of R506. At most once per second per function. -/
def evProgramTrap : Ev := ⟨0x0E05, 0, 0x0F28⟩

/-- PROGRAM_UNLOADED (R517): Function; handle; reason: 1 MB_PROGRAM_UNLOAD, 2 removal, 3 configuration. -/
def evProgramUnloaded : Ev := ⟨0x0E06, 0, 0x0F28⟩

/-- MODE_CHANGED (R569): Old mode; new mode; cause event code. -/
def evModeChanged : Ev := ⟨0x0F01, 0, 0x0106⟩

/-- DRAIN_COMPLETE (R569): Units drained; milliseconds; VSENSE_MAIN in mV at the end. -/
def evDrainComplete : Ev := ⟨0x0F02, 0, 0x0106⟩

/-- DRAIN_INCOMPLETE (R569): Ledger slots still set; milliseconds before the fence. -/
def evDrainIncomplete : Ev := ⟨0x0F03, 3, 0x0103⟩

/-- AON_SWITCHOVER (R569): 1 to backup, 2 to main. -/
def evAonSwitchover : Ev := ⟨0x0F04, 0, 0x0102⟩

/-- HOLDUP_TEST_RESULT (R569): Pass or fail; C; P_D; T_PROJ; 1 BOOT, 2 SERVICE. -/
def evHoldupTestResult : Ev := ⟨0x0F05, 0, 0x0103⟩

/-- SAFE_HALT_ENTERED (R569): Cause event code; cause component; safe drain done or omitted. -/
def evSafeHaltEntered : Ev := ⟨0x0F06, 3, 0x0106⟩

/-- COX_LOCKSTEP (R569): Pair; cox cycle count. -/
def evCoxLockstep : Ev := ⟨0x0F07, 3, 0x0104⟩

/-- INTEGRITY_TAG_MISMATCH (R569): Checking component; function; NSID; UNIT_NO. -/
def evIntegrityTagMismatch : Ev := ⟨0x0F08, 3, 0x0104⟩

/-- CLOCK_FAULT (R569): Domain; measured frequency in kHz. -/
def evClockFault : Ev := ⟨0x0F09, 3, 0x0105⟩

/-- SUPPLY_FAULT (R569): Rail; reading in mV; 1 under, 2 over. -/
def evSupplyFault : Ev := ⟨0x0F0A, 3, 0x0101⟩

/-- SELFTEST_FAIL (R569): Component; pattern. -/
def evSelftestFail : Ev := ⟨0x0F0B, 3, 0x0104⟩

/-- SRAM_UE (R569): SPL bank; line; 1 working area, 2 protected buffer. -/
def evSramUe : Ev := ⟨0x0F0C, 2, 0x0104⟩

/-- MRAM_UE (R569): MRAM word address; region. -/
def evMramUe : Ev := ⟨0x0F0D, 2, 0x0104⟩

/-- HOST_REFCLK_LOST (R569): Port. -/
def evHostRefclkLost : Ev := ⟨0x0F0E, 1, 0x0105⟩

/-- MAINT_ENTERED (R569): Issuing function; mode left. -/
def evMaintEntered : Ev := ⟨0x0F0F, 4, 0x0106⟩

/-- MAINT_EXITED (R569): Mode entered. -/
def evMaintExited : Ev := ⟨0x0F10, 4, 0x0106⟩

/-- BOOT_SELFTEST_FAIL (R569): Component; test. -/
def evBootSelftestFail : Ev := ⟨0x0F11, 2, 0x0106⟩

/-- EVT_CLEARED (R569): Issuing function; lowest SEQ cleared; records invalidated. -/
def evEvtCleared : Ev := ⟨0x1001, 4, 0x0202⟩

/-- TIME_MARK (R569): R559. -/
def evTimeMark : Ev := ⟨0x1002, 0, 0x0202⟩

/-- EVT_OVERFLOW (R569): Records dropped. -/
def evEvtOverflow : Ev := ⟨0x1003, 1, 0x0202⟩

/-- BOOT_RECORD (R569): Power-cycle count; previous mode; 1 power-up, 2 restart from MAINTENANCE. -/
def evBootRecord : Ev := ⟨0x1004, 0, 0x0202⟩

/-- PAIR_JOINED (R598): Position; PAIR_ID; partner MEMBER_ID; copy kind: 1 bitmap, 2 journal, 3 full. -/
def evPairJoined : Ev := ⟨0x1101, 4, 0x1013⟩

/-- PAIR_JOIN_REFUSED (R598): Reason under R589. -/
def evPairJoinRefused : Ev := ⟨0x1102, 1, 0x1013⟩

/-- PAIR_SUSPENDED (R598): Local and partner fingerprints. -/
def evPairSuspended : Ev := ⟨0x1103, 1, 0x1013⟩

/-- PAIR_RESUMED (R598): Milliseconds suspended. -/
def evPairResumed : Ev := ⟨0x1104, 0, 0x1013⟩

/-- PARTNER_LOST (R598): 1 ISOLATED, 2 SOLE; writes committed; writes discarded; milliseconds to step 3. -/
def evPartnerLost : Ev := ⟨0x1105, 2, 0x1013⟩

/-- RESYNC_DONE (R598): Granules copied; seconds. -/
def evResyncDone : Ev := ⟨0x1106, 0, 0x1013⟩

/-- SWL_AUTH_FAIL (R598): Frames failed in the last second. At most once per second. -/
def evSwlAuthFail : Ev := ⟨0x1107, 1, 0x1011⟩

/-- PAIR_LEFT (R598): Namespaces detached. -/
def evPairLeft : Ev := ⟨0x1108, 4, 0x1013⟩

/-- THERMAL_THROTTLE (R630): New level, 0 to 2; composite temperature in kelvin; sensor number. -/
def evThermalThrottle : Ev := ⟨0x1201, 1, 0x0008⟩

/-- THERMAL_CRITICAL (R630): Composite temperature in kelvin; seconds at or above CCTEMP; 1 at or above CCTEMP, 2 thermal shutdown (R623). -/
def evThermalCritical : Ev := ⟨0x1202, 2, 0x0008⟩

/-- POR_PIN_RESET (R630): Mode at the moment POR_N was taken. -/
def evPorPinReset : Ev := ⟨0x1203, 0, 0x0007⟩

/-- The DATA field of a record (R634): each item (width in bytes, value) little-endian, packed, zero-filled to 32 bytes. -/
def evData (items : List (Nat × Nat)) : Bytes := padTo 32 ((items.map (fun i => leBytes i.1 i.2)).flatten)

/-- An operating mode as R209 codes it. -/
def Mode.code : Mode → Nat
  | .off => 0 | .hold => 1 | .boot => 2 | .service => 3 | .rest => 4 | .drain => 5 | .degraded => 6
  | .maintenance => 7 | .safeHalt => 8

/-- A record arrives at the retention buffer (R553): the buffer after it, and the records dropped. -/
def retain (buf : List Event) (e : Event) : List Event × Nat :=
  if buf.length < 8 then (buf ++ [e], 0)
  else match buf.findIdx? (fun x => x.cls ≤ 1) with
    | some i => (buf.eraseIdx i ++ [e], 1)
    | none =>
      if e.cls ≤ 2 then (buf, 1)
      else match buf.reverse.findIdx? (fun x => x.cls == 2) with
        | some i => (buf.eraseIdx (buf.length - 1 - i) ++ [e], 1)
        | none => (buf, 1)

/-- A record enters the recorder's queue of 64 places (R552; an ERROR record waits as a DANGEROUS one does, log 10). -/
def Rec.enqueue (r : Rec) (e : Event) : Rec :=
  if r.queue.length < 64 then { r with queue := r.queue ++ [e] }
  else if e.cls ≤ 1 then { r with dropped := r.dropped + 1 }
  else match r.queue.reverse.findIdx? (fun x => x.cls ≤ 1) with
    | some i => { r with queue := r.queue.eraseIdx (r.queue.length - 1 - i) ++ [e], dropped := r.dropped + 1 }
    | none => { r with blocked := r.blocked ++ [e] }

/-- A record goes to the retention buffer (R553). -/
def Rec.keepBack (r : Rec) (e : Event) : Rec :=
  let b := retain r.retention e
  { r with retention := b.1, dropped := r.dropped + b.2 }

/-- Raises a record from component `comp`: it takes the next sequence number and the counters (R552, R554), and goes to
the queue, or after the fence to the retention buffer (R553). A DANGEROUS record is counted (R548). -/
def State.raiseFrom (s : State) (comp : Nat) (k : Ev) (tenant : Nat) (items : List (Nat × Nat)) : State :=
  let r := s.recd
  let e : Event :=
    { seq := r.next, hours := r.hours, seconds := r.seconds, powerCycles := r.powerCycles, cls := k.cls,
      component := comp, code := k.code, tenant := tenant, data := evData items }
  let r := { r with next := r.next + 1 }
  let r := if s.psm.fence || s.psm.mode == .hold then r.keepBack e else r.enqueue e
  let d := s.psm.halt.dangerous
  { s with recd := r, psm := { s.psm with halt := { s.psm.halt with
      dangerous := if k.cls = 3 then Nat.min (d + 1) 0xFFFFFFFF else d } } }

/-- Raises a record from its listed source component. -/
def State.raise (s : State) (k : Ev) (tenant : Nat) (items : List (Nat × Nat)) : State :=
  s.raiseFrom k.comp k tenant items

/-- Raises a record that R404, R427 or R517 limits to one per second per function (log 9). -/
def State.raiseLimited (s : State) (k : Ev) (f : Nat) (comp : Nat) (items : List (Nat × Nat)) : State :=
  let last := Mem.get 0 (s.fn f).lastRecord k.code
  if last = s.now + 1 then s
  else (s.updFn f (fun x => { x with lastRecord := Mem.set 0 x.lastRecord k.code (s.now + 1) })).raiseFrom comp k f items

/-- The 64 bytes of a record (R550). -/
def Event.bytes (e : Event) : Bytes :=
  let body := leBytes 6 e.seq ++ leBytes 3 e.hours ++ leBytes 2 (e.seconds + e.cls * 4096) ++ leBytes 4 e.powerCycles
    ++ leBytes 2 e.component ++ leBytes 2 e.code ++ leBytes 1 e.tenant ++ leBytes 4 0 ++ padTo 32 e.data ++ leBytes 5 0
  body ++ leBytes 2 (crc16 body).toNat ++ [0x5A]

/-- The fence moves every waiting record to the retention buffer, in sequence order (R553). -/
def Rec.fence (r : Rec) : Rec :=
  (r.queue ++ r.blocked).foldl Rec.keepBack { r with queue := [], blocked := [] }

/-- The next waiting record is written to its slot of the ring (R549, R551); a producer that waited takes the place, and
EVT_OVERFLOW reports the drops once a place is free (R552). -/
def State.writeRecord (s : State) : State :=
  match s.recd.queue with
  | [] => s
  | e :: q =>
    let r := { s.recd with queue := q, ring := Mem.set none s.recd.ring (e.seq % 16384) (some e) }
    let r := match r.blocked with
      | [] => r
      | b :: bs => { r with queue := r.queue ++ [b], blocked := bs }
    let s := { s with recd := r }
    if r.dropped ≠ 0 ∧ r.queue.length < 64 then
      ({ s with recd := { r with dropped := 0 } }).raise evEvtOverflow 255 [(4, r.dropped)]
    else s

/-- Moves the device to a mode, recording MODE_CHANGED except into and out of REST (R537). -/
def State.toMode (s : State) (m : Mode) (cause : Nat) : State :=
  let old := s.psm.mode
  let s := if old = .rest ∨ m = .rest then s
    else s.raise evModeChanged 255 [(1, old.code), (1, m.code), (2, cause)]
  { s with psm := { s.psm with mode := m, prevMode := old } }

/-- Sets a bit of DEGRADED_CAUSES; SERVICE becomes DEGRADED (R209, R537). -/
def State.setCause (s : State) (i : Nat) (cause : Nat) : State :=
  let s := { s with psm := { s.psm with causes := s.psm.causes ||| (1 <<< i) } }
  if s.psm.mode = .service ∨ s.psm.mode = .rest then s.toMode .degraded cause else s

/-- Clears a bit of DEGRADED_CAUSES; DEGRADED without a cause becomes SERVICE (R537). -/
def State.clearCause (s : State) (i : Nat) (cause : Nat) : State :=
  let s := { s with psm := { s.psm with causes := s.psm.causes &&& ~~~((1 : BitVec 16) <<< i) } }
  if s.psm.mode = .degraded ∧ s.psm.causes = 0 then s.toMode .service cause else s

end Sys2Proof.Machine
end

