-- ==== Sys2Proof/Machine/Flags.lean ====
section
/-! DEFINITION. The status and warning bits the manual computes from the state: CSTS, the SMART critical warnings, VWC, and
what each operating mode permits. -/

namespace Sys2Proof.Machine

/-- The mode lets host I/O commands run (R154). -/
def Mode.runsIo : Mode → Bool
  | .service | .rest | .degraded => true
  | _ => false

/-- The mode lets admin commands run and answer (R154, R540). -/
def Mode.runsAdmin : Mode → Bool
  | .service | .rest | .degraded | .maintenance => true
  | _ => false

/-- The mode fetches at all; SAFE-HALT fetches so that it can fail every command (R154). -/
def Mode.fetches : Mode → Bool
  | .service | .degraded | .maintenance | .safeHalt => true
  | _ => false

/-- The device is powered and past BOOT, so that host commands, mailboxes and engines exist. -/
def Mode.live : Mode → Bool
  | .service | .rest | .degraded | .maintenance | .safeHalt => true
  | _ => false

/-- Sculls and engines run (R489, R395, R423, R449). -/
def Mode.engines : Mode → Bool
  | .service | .rest | .degraded | .maintenance => true
  | _ => false

/-- A flash program or erase may start (R529, R540, R546, R562, R274, R617). -/
def State.mayProgram (s : State) : Bool :=
  !s.psm.fence && !s.psm.heldFromHalt &&
    (match s.psm.mode with
      | .off | .hold | .rest => false
      | .safeHalt => s.psm.halt.safeDrain
      | .drain => (!s.psm.drainFromHalt || s.psm.halt.safeDrain)
      | .boot => !s.psm.pins.testEn
      | _ => true)

/-- An NVS word write may start (R529). -/
def State.mayWriteNvs (s : State) : Bool := !s.psm.fence

/-- The pair state joins the two sides' hold-up states and carries commands and mirror legs (R578, R581). -/
def PairState.linked : PairState → Bool
  | .paired | .suspended | .resync => true
  | _ => false

/-- PAIR_UP_OUT is high, and the lanes are up (R575). -/
def State.pairUpOut (s : State) : Bool :=
  decide (s.swl.position ≤ 1) &&
    (match s.psm.mode with
      | .service | .rest | .degraded => true
      | .maintenance => !s.psm.heldFromHalt
      | _ => false)

/-- The hold-up state reported is VOLATILE (R144, R581). -/
def State.volatileNow (s : State) : Bool := s.psm.holdup.volat || (s.swl.state.linked && s.swl.partnerVolatile)

/-- CSTS.RDY (R151, R177). -/
def State.cstsRdy (s : State) (f : Nat) : Bool := (s.fn f).rdy

/-- CSTS.CFS reads 1 in SAFE-HALT (R154, R546). -/
def State.cstsCfs (s : State) : Bool := s.psm.mode == .safeHalt

/-- CSTS.PP reads 1 in MAINTENANCE and during an activation (R152, R154). -/
def State.cstsPp (s : State) : Bool := s.psm.mode == .maintenance || s.hif.fetchStopped

/-- The composite temperature: the highest sensor, in kelvin (R621). -/
def State.composite (s : State) : Nat := s.therm.sensors.foldl Nat.max 0

/-- The composite temperature lies at or beyond a threshold of function `f` (R621; NVM Express). -/
def State.tempOut (s : State) (f : Nat) : Bool :=
  let t := (s.fn f).features
  decide (t.tempOver ≤ s.composite ∨ s.composite ≤ t.tempUnder)

/-- The SMART critical warning byte of function `f`: [0] spare (R270), which a virtual function does not observe (R186), [1]
temperature (R621), [2] reliability (R268, R270), [3] read-only (R271), [4] volatile write cache (R144). -/
def State.criticalWarning (s : State) (f : Nat) : Nat :=
  flag (s.flash.spareLow && decide (f ≤ 1)) + 2 * flag (s.fn f).tempWarn + 4 * flag s.flash.unreliable +
    8 * flag s.flash.readOnly + 16 * flag s.volatileNow

/-- Identify VWC: 0x06, and bit 0 in VOLATILE (R127, R144). -/
def State.vwc (s : State) : Nat := 6 + flag s.volatileNow

/-- FL_WP_N is low on a channel (R529, R546, R613). -/
def State.wpLow (s : State) (ch : Nat) : Bool := !(Mem.get {} s.flash.chans ch).wpHigh

/-- FAULT_N is driven low (R547). -/
def State.faultN (s : State) : Bool := !s.psm.pins.faultLow

end Sys2Proof.Machine
end

