-- ==== Sys2Proof/Machine/HostOps.lean ====
section
/-! DEFINITION. Operations every host command shares: statuses, results, writes to the host with dirty-page logging,
asynchronous events, the granule lock table, and token charges. -/

namespace Sys2Proof.Machine

/-! ### Statuses -/

/-- A status as the 16-bit value of R634: status code type in bits [11:8], status code in [7:0]. Codes of type 7h are
R164's; the others are NVM Express's (PRESUMED, log 11). -/
def Status.code : Status → Nat
  | .success => 0x000 | .invalidOpcode => 0x001 | .invalidField => 0x002 | .internalContained => 0x006
  | .internalSafeHalt => 0x006 | .commandAbortRequested => 0x007 | .invalidNamespaceOrFormat => 0x00B
  | .commandSequenceError => 0x00C | .dataSglLengthInvalid => 0x00F | .sanitizeInProgress => 0x01D
  | .namespaceWriteProtected => 0x020 | .invalidQueueIdentifier => 0x101 | .invalidFirmwareSlot => 0x106
  | .invalidFirmwareImage => 0x107 | .invalidLogPage => 0x109 | .namespaceInsufficientCapacity => 0x115
  | .controllerListInvalid => 0x11C | .unrecoveredReadError => 0x281 | .compareFailure => 0x285
  | .anaInaccessible => 0x302 | .anaTransition => 0x303
  | .profileUnknown => 0x780 | .objectNotSealed => 0x781 | .sampleRange => 0x782 | .keySlotInvalid => 0x783
  | .nonceExhausted => 0x784 | .authFailRetracted => 0x785 | .checkFail => 0x786 | .lengthMismatch => 0x787
  | .programFault => 0x788 | .tenantQuota => 0x789 | .viewTooLarge => 0x78A | .outputFull => 0x78B
  | .configMismatch => 0x78C | .domainOffRetracted => 0x78D | .objectUnknown => 0x78E | .objectSealed => 0x78F
  | .appendPosition => 0x790 | .indexInvalid => 0x791 | .objectExists => 0x792 | .profileMismatch => 0x793
  | .variantInvalid => 0x794 | .tableUnknown => 0x795 | .programUnknown => 0x796

/-- Do Not Retry (R164, R631). -/
def Status.dnr : Status → Bool
  | .success | .internalContained | .commandAbortRequested | .anaInaccessible | .anaTransition | .sanitizeInProgress
  | .tenantQuota | .configMismatch | .domainOffRetracted => false
  | _ => true

/-! ### Results and completions -/

/-- A command without a result takes its place in the order of finishing (R133). -/
def State.noteFinished (s : State) (id : CmdId) : State :=
  if (s.cmd id).any (fun c => c.result.isNone) then { s with hif := { s.hif with finished := s.hif.finished ++ [id] } } else s

/-- Gives a command its result; a command that has one keeps it. -/
def State.finish (s : State) (id : CmdId) (st : Status) (dw0 : BitVec 32 := 0) (dw1 : BitVec 32 := 0) : State :=
  (s.noteFinished id).updCmd id (fun c => match c.result with
    | some _ => c
    | none => { c with result := some { status := st, dw0 := dw0, dw1 := dw1 } })

/-- A command goes on with what its checks found, or finishes with the status they gave. -/
def State.onOk {α : Type} (s : State) (id : CmdId) (r : Except Status α) (k : α → State) : State :=
  match r with
  | .error st => s.finish id st
  | .ok a => k a

/-- The commands in flight, with their handles. -/
def State.inflight (s : State) : List (CmdId × Cmd) :=
  s.hif.cmds.filterMap (fun e => match e.2 with | some c => some (e.1, c) | none => none)

/-- The commands in flight of function `f`; those of the partner's host are not among them (R578). -/
def State.inflightOf (s : State) (f : Nat) : List (CmdId × Cmd) := s.inflight.filter (fun e => e.2.func == f && !e.2.fromPartner)

/-- I/O commands in flight and fetched of function `f`. -/
def State.ioCount (s : State) (f : Nat) : Nat :=
  (s.inflightOf f).countP (fun e => !e.2.sqe.admin) + s.hif.fetched.countP (fun e => e.1 == f && !e.2.2.admin)

/-- Admin commands in flight and fetched of function `f`. -/
def State.adminCount (s : State) (f : Nat) : Nat :=
  (s.inflightOf f).countP (fun e => e.2.sqe.admin) + s.hif.fetched.countP (fun e => e.1 == f && e.2.2.admin)

/-- Functions present (R125). -/
def State.present (s : State) : List Nat := s.fns.filterMap (fun e => if e.2.present then some e.1 else none)

/-! ### Writes to the host and dirty pages -/

/-- Sets the dirty bits of a write of `n` bytes at a host address (R181). -/
def Dirty.mark (d : Dirty) (addr n : Nat) : Dirty :=
  if n = 0 then d else
  let first := addr / 4096
  let last := (addr + n - 1) / 4096
  let lo := d.base / 4096
  let pages := ((List.range (last + 1 - first)).map (fun i => first + i)).filterMap
    (fun p => if lo ≤ p ∧ p < lo + d.pages then some (p - lo) else none)
  let fresh := pages.filter (fun p => !d.bits.contains p)
  { d with bits := d.bits ++ fresh, lines := nubNat (d.lines ++ fresh.map (· / 512)) }

/-- The 64 bytes of line `l` of the shadow of the active bitmap (R181). -/
def Dirty.line (d : Dirty) (l : Nat) : Bytes :=
  (List.range 64).map (fun i => byteOf (((List.range 8).map (fun j =>
    if d.bits.contains (512 * l + 8 * i + j) then 2 ^ j else 0)).foldl (· + ·) 0))

/-- Line writes of the shadow enter the FIFO (R181). -/
def State.flushDirty (s : State) (f : Nat) : State :=
  match (s.fn f).dirty with
  | none => s
  | some d =>
    let base := if d.activeB then d.bufB else d.bufA
    let s := s.emit (d.lines.map (fun l => .dirtyLine f (base + 64 * l) (d.line l)))
    s.updFn f (fun x => { x with dirty := some { d with lines := [] } })

/-- Marks a memory write issued for function `f` (R181). -/
def State.markDirty (s : State) (f addr n : Nat) : State :=
  match (s.fn f).dirty with
  | none => s
  | some d => s.updFn f (fun x => { x with dirty := some (d.mark addr n) })

/-- Data written to host memory for function `f`, with its dirty bits (R20, R181). -/
def State.hostWrite (s : State) (f addr : Nat) (bs : Bytes) : State :=
  if bs.isEmpty then s else (s.emit [.data f addr bs]).markDirty f addr bs.length

/-- Fill bytes written to host memory for function `f` (R119, R181). -/
def State.hostFill (s : State) (f addr n : Nat) (b : Byte) : State :=
  if n = 0 then s else (s.emit [.fill f addr n b]).markDirty f addr n

/-- The pieces of a command's data buffer from a byte offset on, as far as `n` bytes (R149). -/
def piecesFrom : List (Nat × Nat) → Nat → Nat → List (Nat × Nat)
  | [], _, _ => []
  | p :: ps, off, n =>
    if n = 0 then []
    else if p.2 ≤ off then piecesFrom ps (off - p.2) n
    else (p.1 + off, Nat.min (p.2 - off) n) :: piecesFrom ps 0 (n - (p.2 - off))

/-- The host addresses that `n` bytes of a command's data buffer lie at, from byte `off` of it on (R149). -/
def sqeSpan (e : Sqe) (off n : Nat) : List (Nat × Nat) :=
  if e.pieces.isEmpty then [(e.dptr + off, n)] else piecesFrom e.pieces off n

/-- Bytes written to consecutive pieces of host memory for function `f`. -/
def State.scatter (s : State) (f : Nat) : List (Nat × Nat) → Bytes → State
  | [], _ => s
  | p :: ps, bs => (s.hostWrite f p.1 (bs.take p.2)).scatter f ps (bs.drop p.2)

/-- Fill bytes written to pieces of host memory for function `f` (R119). -/
def State.scatterFill (s : State) (f : Nat) (b : Byte) (ps : List (Nat × Nat)) : State :=
  ps.foldl (fun s p => s.hostFill f p.1 p.2 b) s

/-- `n` bytes written to pieces of host memory are filled again: DMA_RETRACTED on a channel the model leaves open (R27, R332, R352,
log 49). -/
def State.retractSpan (s : State) (f : Nat) (ps : List (Nat × Nat)) (n : Nat) (fill : Byte) (cause : Nat) : State :=
  if n = 0 then s
  else
    let r := (s.scatterFill f fill ps).draw 8
    r.2.raise evDmaRetracted f [(1, r.1.toNat), (1, f), (4, n), (1, cause)]

/-- What a command wrote at the start of its data buffer is filled again, when it fails after its first write (R27, R332). -/
def State.retractData (s : State) (f : Nat) (e : Sqe) (n : Nat) (fill : Byte) (cause : Nat) : State :=
  s.retractSpan f (sqeSpan e 0 n) n fill cause

/-- Bytes written to a command's data buffer and then filled again (R27, R332, R352, log 49). -/
def State.writeRetracted (s : State) (f : Nat) (e : Sqe) (bs : Bytes) (fill : Byte) (cause : Nat) : State :=
  (s.scatter f (sqeSpan e 0 bs.length) bs).retractData f e bs.length fill cause

/-- What a view in progress has written to its destination is filled again, as FILL says (R27, R112). -/
def State.retractWritten (s : State) (id : CmdId) (cause : Nat) : State :=
  match s.cmd id with
  | some c => if c.result.isSome then s else s.retractData c.func c.sqe c.wrote (if bit c.sqe.cdw13.toNat 16 then 0xDB else 0x00) cause
  | none => s

/-- Sends a frame of the Sweep link: it takes the next SEQ and is kept until it is acknowledged; a sender whose SEQ would reach
2^32 sends nothing and retrains the lanes (R572 to R574). -/
def State.sendFrame (s : State) (kind : Nat) (asn : BitVec 48) (nsid unitNo : Nat) (body : TxBody) : State :=
  let l := s.swl.link
  if 2 ^ 32 ≤ l.txSeq + 1 then { s with swl := { s.swl with link := { l with retrains := l.retrains + 1 } } }
  else { s with swl := { s.swl with link := { l with
      txSeq := l.txSeq + 1
      unacked := l.unacked ++
        [{ kind := kind, keyNo := l.keyNo, seq := l.txSeq, asn := asn, nsid := nsid, unitNo := unitNo, body := body }] } } }

/-- Data of a command: written to the host, or, for a command of the partner, sent to it in UNIT frames numbered from `first`
(R578). -/
def State.cmdWrite (s : State) (id : CmdId) (addr first : Nat) (bs : Bytes) : State :=
  match s.cmd id with
  | none => s
  | some c =>
    if c.fromPartner then
      (chunksOf 4096 bs).zipIdx.foldl (fun s x => s.sendFrame 2 c.asn c.sqe.nsid.toNat (first + x.2)
        (.unitData (some c.partnerCid) x.1)) s
    else s.hostWrite c.func addr bs

/-- Data of a command to its data buffer from byte `off` on, or to the partner in UNIT frames numbered from `first` (R149, R578). -/
def State.dataWrite (s : State) (id : CmdId) (off first : Nat) (bs : Bytes) : State :=
  match s.cmd id with
  | none => s
  | some c =>
    if c.fromPartner then s.cmdWrite id c.sqe.dptr first bs else s.scatter c.func (sqeSpan c.sqe off bs.length) bs

/-- A command's data to its data buffer. -/
def State.reply (s : State) (id : CmdId) (bs : Bytes) : State := s.dataWrite id 0 0 bs

/-- The command has crossed to the partner, which runs it (R578). -/
def Cmd.away (c : Cmd) : Bool := c.forwarded && !c.fromPartner

/-- The SGL of a command that moves `n` bytes describes fewer (R149). -/
def sglShort (e : Sqe) (n : Nat) : Bool := e.sgl && decide (e.dptrLen < n)

/-- A command that returns data: its data and its success; nothing is written where its SGL describes fewer bytes (R149). -/
def State.answer (s : State) (id : CmdId) (bs : Bytes) : State :=
  match s.cmd id with
  | some c => if sglShort c.sqe bs.length then s.finish id .dataSglLengthInvalid else (s.reply id bs).finish id .success
  | none => s

/-! ### Asynchronous events -/

/-- Reports an asynchronous event on function `f`: it completes an outstanding request, or waits for one (R127). -/
def State.asyncEvent (s : State) (f : Nat) (dw0 : BitVec 32) : State :=
  match (s.fn f).aers with
  | id :: rest => (s.updFn f (fun x => { x with aers := rest })).finish id .success dw0
  | [] =>
    if (s.fn f).events.contains dw0 then s
    else s.updFn f (fun x => { x with events := x.events ++ [dw0] })

/-- A SMART/Health asynchronous event on every function present: type 1, `info` 0 reliability, 1 temperature, 2 spare,
log page 0x02 (NVM Express, log 12). -/
def State.smartEvent (s : State) (info : Nat) : State :=
  s.present.foldl (fun s f => s.asyncEvent f (BitVec.ofNat 32 (1 + info * 2 ^ 8 + 0x02 * 2 ^ 16))) s

/-! ### Ordering of overlapping commands -/

/-- ASN `a` precedes ASN `b` (R138). -/
def asnBefore (a b : BitVec 48) : Bool := let d := (b - a).toNat; decide (1 ≤ d ∧ d < 2 ^ 47)

/-- The entry still holds granule `g` of a namespace. -/
def Lock.holds (l : Lock) (nsid g : Nat) : Bool :=
  l.nsid == nsid && decide (l.lo ≤ g ∧ g ≤ l.hi) && !l.released.contains g

/-- The lock on granule `g` is granted: no earlier entry conflicts with it (R140). -/
def State.granted (s : State) (l : Lock) (g : Nat) : Bool :=
  s.hif.locks.all (fun o => !(o.holds l.nsid g && asnBefore o.asn l.asn && (o.excl || l.excl)))

/-- The lock entries of a command. -/
def State.locksOf (s : State) (id : CmdId) : List Lock := s.hif.locks.filter (fun l => l.cmd == id)

/-- A command's entry on granule `g` is granted. -/
def State.grantedFor (s : State) (id : CmdId) (g : Nat) : Bool :=
  (s.locksOf id).any (fun l => decide (l.lo ≤ g ∧ g ≤ l.hi) && s.granted l g)

/-- Every lock a command took and still holds is granted. -/
def State.allGranted (s : State) (id : CmdId) : Bool :=
  (s.locksOf id).all (fun l => (List.range (l.hi + 1 - l.lo)).all
    (fun i => l.released.contains (l.lo + i) || s.granted l (l.lo + i)))

/-- Releases a command's lock on granule `g`; an entry whose last granule is released becomes free (R141, R142). -/
def State.release (s : State) (id : CmdId) (g : Nat) : State :=
  let upd := fun (l : Lock) => if l.cmd == id && decide (l.lo ≤ g ∧ g ≤ l.hi) && !l.released.contains g
    then { l with released := l.released ++ [g] } else l
  { s with hif := { s.hif with locks := (s.hif.locks.map upd).filter (fun l => decide (l.released.length < l.hi + 1 - l.lo)) } }

/-- Releases every lock of a command. -/
def State.releaseAll (s : State) (id : CmdId) : State :=
  { s with hif := { s.hif with locks := s.hif.locks.filter (fun l => l.cmd != id) } }

/-- Runs of granules merged where they share a granule or adjoin (R140); the runs come in rising order. -/
def mergeRuns : List (Nat × Nat) → List (Nat × Nat)
  | [] => []
  | [r] => [r]
  | (a, b) :: (c, d) :: rest =>
    if c ≤ b + 1 then mergeRunsAux (a, Nat.max b d) rest else (a, b) :: mergeRunsAux (c, d) rest
where
  /-- The runs after the one being built. -/
  mergeRunsAux (cur : Nat × Nat) : List (Nat × Nat) → List (Nat × Nat)
    | [] => [cur]
    | (c, d) :: rest =>
      if c ≤ cur.2 + 1 then mergeRunsAux (cur.1, Nat.max cur.2 d) rest else cur :: mergeRunsAux (c, d) rest

/-- A run put at its place in the rising order of first granules. -/
def insertRun (r : Nat × Nat) : List (Nat × Nat) → List (Nat × Nat)
  | [] => [r]
  | x :: xs => if r.1 ≤ x.1 then r :: x :: xs else x :: insertRun r xs

/-- Takes one lock entry for each contiguous run of granules that the byte ranges cover (R140). -/
def State.takeLocks (s : State) (id : CmdId) (nsid : Nat) (asn : BitVec 48) (excl : Bool) (ranges : List (Nat × Nat)) : State :=
  let runs := (ranges.filter (fun r => decide (r.2 > 0))).map (fun r => (r.1 / 262144, (r.1 + r.2 - 1) / 262144))
  let runs := mergeRuns (runs.foldl (fun acc r => insertRun r acc) [])
  let entry := fun (r : Nat × Nat) =>
    ({ cmd := id, nsid := nsid, asn := asn, lo := r.1, hi := r.2, excl := excl } : Lock)
  { s with hif := { s.hif with locks := s.hif.locks ++ runs.map entry } }

/-! ### Token buckets -/

/-- The depths of the buckets: bytes, and thousandths of a command (R172). -/
def Rate.depths (r : Rate) : Int × Int := (r.bwBurst * 1048576, r.iopsBurst * 1000)

/-- Both buckets at their depths (R170, R172). -/
def Fn.fillBuckets (x : Fn) : Fn := { x with bwLevel := x.rate.depths.1, iopsLevel := x.rate.depths.2 }

/-- Every applied bucket holds more than zero (R173). -/
def Fn.hasTokens (x : Fn) : Bool :=
  (x.rate.bwRate == 0 || decide (x.bwLevel > 0)) && (x.rate.iopsRate == 0 || decide (x.iopsLevel > 0))

/-- A level above its bucket's depth is cut, and a bucket that is not applied is held at its depth (R172, R173). -/
def Fn.capLevels (x : Fn) : Fn :=
  { x with
    bwLevel := if x.rate.bwRate = 0 then x.rate.depths.1 else min x.bwLevel x.rate.depths.1
    iopsLevel := if x.rate.iopsRate = 0 then x.rate.depths.2 else min x.iopsLevel x.rate.depths.2 }

/-- New bucket parameters take effect (R172, R190); a negative level is kept. -/
def Fn.setRate (x : Fn) (r : Rate) : Fn := ({ x with rate := r, rateNext := none } : Fn).capLevels

/-- One microsecond (R172, R173, R190): parameters that wait take effect, and each bucket gains its rate, up to its depth. -/
def Fn.tick (x : Fn) : Fn :=
  let x := match x.rateNext with | some r => x.setRate r | none => x
  ({ x with bwLevel := x.bwLevel + x.rate.bwRate, iopsLevel := x.iopsLevel + x.rate.iopsRate } : Fn).capLevels

/-- Charges the buckets that are applied (R173). -/
def Fn.charge (x : Fn) (bytes : Int) (milli : Int) : Fn :=
  { x with
    bwLevel := if x.rate.bwRate = 0 then x.bwLevel else min (x.bwLevel - bytes) x.rate.depths.1
    iopsLevel := if x.rate.iopsRate = 0 then x.iopsLevel else min (x.iopsLevel - milli) x.rate.depths.2 }

/-- A wake event in REST makes the exit due (R539). -/
def State.wake (s : State) : State := if s.psm.mode = .rest then { s with psm := { s.psm with waking := true } } else s

end Sys2Proof.Machine
end

