-- ==== Sys2Proof/Machine/Dmf.lean ====
section
/-! DEFINITION. The DMA fabric: descriptors, channels, jobs with their verdicts and retraction, domains powered down or
forced off, and the arbitration units (R315 to R352). -/

namespace Sys2Proof.Machine

/-! ### Descriptors -/

/-- A descriptor as fetched (R318). -/
structure Desc where
  raw : Nat
  deriving DecidableEq, Repr

/-- Bytes to move. -/
def Desc.length (d : Desc) : Nat := field d.raw 19 0 + 1
/-- SRC_SPACE. -/
def Desc.srcSpace (d : Desc) : Nat := field d.raw 22 20
/-- DST_SPACE. -/
def Desc.dstSpace (d : Desc) : Nat := field d.raw 25 23
/-- TAG_MODE. -/
def Desc.tagMode (d : Desc) : Nat := field d.raw 27 26
/-- JOB_START. -/
def Desc.jobStart (d : Desc) : Bool := bit d.raw 28
/-- JOB_END. -/
def Desc.jobEnd (d : Desc) : Bool := bit d.raw 29
/-- VIS. -/
def Desc.vis (d : Desc) : Bool := bit d.raw 30
/-- OWN. -/
def Desc.own (d : Desc) : Bool := bit d.raw 31
/-- SRC. -/
def Desc.src (d : Desc) : Nat := field d.raw 127 64
/-- DST. -/
def Desc.dst (d : Desc) : Nat := field d.raw 191 128
/-- TAG_UNIT. -/
def Desc.tagUnit (d : Desc) : Nat := field d.raw 255 192
/-- TAG_OBJ. -/
def Desc.tagObj (d : Desc) : Nat := field d.raw 319 256
/-- TAG_NSID. -/
def Desc.tagNsid (d : Desc) : Nat := field d.raw 351 320
/-- FUNC. -/
def Desc.func (d : Desc) : Nat := field d.raw 359 352
/-- GEN. -/
def Desc.gen (d : Desc) : Nat := field d.raw 367 360
/-- PATTERN. -/
def Desc.pattern (d : Desc) : Byte := byteOf (field d.raw 375 368)
/-- FILL as a byte. -/
def Desc.fill (d : Desc) : Byte := if bit d.raw 376 then 0xDB else 0x00
/-- VERDICT. -/
def Desc.verdict (d : Desc) : Bool := bit d.raw 377
/-- EVENT. -/
def Desc.event (d : Desc) : Bool := bit d.raw 378
/-- USER. -/
def Desc.user (d : Desc) : Nat := field d.raw 447 384
/-- LINK. -/
def Desc.link (d : Desc) : Nat := field d.raw 511 448

/-- The link word that ends a chain (R324). -/
def linkEnd : Nat := 1

/-- Lines of one DRAM rank (R287, R290): 32 data bits of x4 or x8 devices of 16, 24 or 32 Gbit, in 64-byte lines. -/
def rankLines (board : Bytes) : Nat :=
  let h := leAt board 0 2
  (if field h 1 0 = 0 then 8 else 4) * (16 + 8 * field h 3 2) * 2 ^ 30 / 8 / 64

/-- The capacity of in-service DRAM in bytes (R287). -/
def State.dramBytes (s : State) : Nat :=
  if s.dram.board.isEmpty then 0
  else (List.range 8).countP (fun k => (Mem.get none s.dram.rankMap k).isSome) * rankLines s.dram.board * 64

/-- Every line of a range has a logical rank in the address map (R287, R308). -/
def State.dramMapped (s : State) (addr len : Nat) : Bool :=
  let span := 128 * rankLines s.dram.board
  let last := (addr + len - 1) / span
  len == 0 || (!s.dram.board.isEmpty && decide (last < 4) &&
    (List.range (last + 1 - addr / span)).all (fun i => (Mem.get none s.dram.rankMap (addr / span + i)).isSome))

/-- A space's limit for a range (R319). -/
def State.spaceOk (s : State) (space addr len : Nat) (isSrc : Bool) : Bool :=
  match space with
  | 0 => true
  | 1 => s.hif.dualPort
  | 2 => decide (addr + len ≤ 50331648)
  | 3 => s.dramMapped addr len
  | 4 => decide (addr < 2 ^ 20 ∧ addr % 4 = 0 ∧ len % 4 = 0 ∧ addr % 262144 + len ≤ 262144)
  | 7 => isSrc && addr == 0
  | _ => false

/-- The link word is one R324 allows. -/
def linkOk (l : Nat) : Bool := l == linkEnd || (!bit l 0 && field l 5 2 == 0)

/-- The checks at fetch (R322); `n` is the count of descriptors of the open job. -/
def State.descOk (s : State) (c : DmaCh) (d : Desc) : Bool :=
  field d.raw 383 379 == 0 && field d.raw 63 32 == 0 &&
  s.spaceOk d.srcSpace d.src d.length true && s.spaceOk d.dstSpace d.dst d.length false &&
  (match d.tagMode with
    | 0 => true | 1 => d.dstSpace == 2 | 2 => d.srcSpace == 2 | _ => d.srcSpace == 2 && d.dstSpace == 2) &&
  !(d.vis && decide (d.dstSpace ≤ 1)) && !(d.jobStart && c.jobOpen) && linkOk d.link &&
  decide (c.job.length < 65536)

/-! ### Spaces -/

/-- The tag of a scull word. -/
def tagOf (w : TWord) : Nat := w.toNat / 2 ^ 32
/-- A scull word. -/
def mkWord (tag val : Nat) : TWord := BitVec.ofNat 36 (tag * 2 ^ 32 + val % 2 ^ 32)
/-- The value of a scull word. -/
def valOf (w : TWord) : Nat := w.toNat % 2 ^ 32
/-- What an uninitialised scull word reads as (R460, R499). -/
def poison : TWord := mkWord 0xF 0

/-- A word of an Eight's shared memory read by the DMF: its value, 0 for NIL, none for a tag that must not leave (R320). -/
def dmaWord (w : TWord) : Option Nat :=
  match tagOf w with
  | 0 => some 0
  | 1 | 2 | 3 | 7 => some (valOf w)
  | _ => none

/-- The bytes of `n` words of shared memory from key `k`, up to the first word that must not leave, and whether all did. -/
def State.eightBytes (s : State) (k : Nat) : Nat → Bytes × Bool
  | 0 => ([], true)
  | n + 1 =>
    match dmaWord (Mem.get poison s.sca.shared k) with
    | none => ([], false)
    | some v => let r := s.eightBytes (k + 1) n; (leBytes 4 v ++ r.1, r.2)

/-- Bytes stored into shared memory as words tagged BYTES (R320). -/
def storeEight (m : Mem TWord) (k : Nat) : List Bytes → Mem TWord
  | [] => m
  | b :: bs => storeEight (Mem.set poison m k (mkWord 2 (leNat b))) (k + 1) bs

/-- Writes bytes to an internal or host destination of function `f`. -/
def State.spaceWrite (s : State) (f space addr : Nat) (bs : Bytes) : State :=
  match space with
  | 0 | 1 => s.hostWrite f addr bs
  | 2 => s.splWrite addr bs
  | 3 => { s with dram := { s.dram with cells := writeBytes s.dram.cells addr bs } }
  | 4 => { s with sca := { s.sca with
            shared := storeEight s.sca.shared (addr / 262144 * 65536 + addr % 262144 / 4) (chunksOf 4 bs) } }
  | _ => s

/-- Fills a range of a destination. -/
def State.spaceFill (s : State) (f space addr n : Nat) (b : Byte) : State :=
  match space with
  | 0 | 1 => s.hostFill f addr n b
  | _ => s.spaceWrite f space addr (List.replicate n b)

/-- The clock domain a space lies in, by the row order of R17. -/
def spaceDomain : Nat → Nat
  | 0 | 1 => 0 | 2 => 1 | 3 => 4 | 4 => 2 | _ => 9

/-- Reads a descriptor from SPL or DRAM. -/
def State.readDesc (s : State) (spl : Bool) (addr : Nat) : Desc :=
  ⟨leNat (readBytes (if spl then s.dmf.spl else s.dram.cells) addr 64)⟩

/-- Writes bytes to a descriptor's line. -/
def State.writeLine (s : State) (spl : Bool) (addr : Nat) (bs : Bytes) : State :=
  s.spaceWrite 0 (if spl then 2 else 3) addr bs

/-- STATUS (R323). -/
def statusWord (result : Nat) (retracted : Bool) (written : Nat) : Nat := result + 256 * flag retracted + 2048 * written

/-- STATUS is written, then OWN cleared with the other bits of the first word unchanged (R325). -/
def State.closeDesc (s : State) (spl : Bool) (addr : Nat) (status : Nat) : State :=
  let w := leNat (readBytes (if spl then s.dmf.spl else s.dram.cells) addr 4)
  (s.writeLine spl (addr + 4) (leBytes 4 status)).writeLine spl addr (leBytes 4 (w % 2 ^ 31))

/-! ### Channels -/

/-- Channel `ch`. -/
def State.ch (s : State) (ch : Nat) : DmaCh := Mem.get {} s.dmf.chans ch

/-- The state with channel `ch` set. -/
def State.setCh (s : State) (ch : Nat) (c : DmaCh) : State :=
  { s with dmf := { s.dmf with chans := Mem.set {} s.dmf.chans ch c } }

/-- The current descriptor of a channel: the one its engine fetched while it is ACTIVE (R328, R330), else what memory holds. -/
def State.curDesc (s : State) (ch : Nat) : Desc :=
  let c := s.ch ch
  if c.state = .active then ⟨c.fetched⟩ else s.readDesc c.curSpl c.cur

/-- The component of a channel's engine. -/
def engineOf (ch : Nat) : Nat := 0x0600 + ch / 32

/-- A port's reply reaches the scull whose request is outstanding; a scull that has trapped or halted discards it (R480, R484,
R491). -/
def State.scullReply (s : State) (k port : Nat) (words : List TWord) : State :=
  s.updScull k (fun c =>
    if Mem.get 0 c.outstanding port = 0 then c
    else { c with inq := if c.running && !c.trapped then Mem.upd [] c.inq port (fun q => q ++ words) else c.inq
                  outstanding := Mem.upd 0 c.outstanding port (fun n => n - 1)
                  resv4 := if port = 4 then c.resv4.drop 1 else c.resv4 })

/-- USER of a job that moves the output of a request on port 1 or 3 (log 13): the scull, the cookie, and bit 63. -/
def jobUser (k cookie : Nat) : Nat := cookie % 2 ^ 32 + (k + 1) * 2 ^ 32 + 2 ^ 63

/-- A reply that waited for its DMA job goes to the scull; a job that ends before its reply is ready leaves a mark (R383). -/
def State.releaseHeld (s : State) (k user : Nat) : State :=
  match (s.scull k).held.find? (fun h => h.1 == user && h.2.1 != 99) with
  | some h => (s.updScull k (fun c => { c with held := c.held.erase h })).scullReply k h.2.1 h.2.2
  | none => s.updScull k (fun c => { c with held := c.held ++ [(user, 99, [])] })

/-- A reply of port 1 or 3 whose output goes through a DMA job: after the job's own reply (R383). -/
def State.replyAfterJob (s : State) (k user port : Nat) (words : List TWord) : State :=
  if (s.scull k).held.contains (user, 99, []) then
    (s.updScull k (fun c => { c with held := c.held.erase (user, 99, []) })).scullReply k port words
  else s.updScull k (fun c => { c with held := c.held ++ [(user, port, words)] })

/-- The completion event of a descriptor goes to its owner (R325, R338): a descriptor that a scull port of scull `k` built carries
k + 1 from USER bit 32 (log 13), and its reply is the cookie and the STATUS word. -/
def State.dmaEvent (s : State) (d : Desc) (status : Nat) : State :=
  let owner := d.user / 2 ^ 32 % 2 ^ 16
  if !d.event || owner = 0 then s
  else
    let s1 := s.scullReply (owner - 1) 0 [mkWord 1 (d.user % 2 ^ 32), mkWord 1 status]
    if d.user < 2 ^ 63 then s1 else s1.releaseHeld (owner - 1) d.user

/-- The 64-byte completion of a CPE request (R363). -/
def cpeCompletion (user result : Nat) (verdictSent : Bool) (bytesOut : Nat) (tag nonce : Bytes) : BitVec 512 :=
  BitVec.ofNat 512 (user + result * 2 ^ 64 + flag verdictSent * 2 ^ 72 + bytesOut * 2 ^ 96 +
    leNat (padTo 16 tag) * 2 ^ 128 + leNat (padTo 12 nonce) * 2 ^ 256)

/-- USER of a CPE entry (R362). -/
def entryUser (e : BitVec 512) : Nat := field e.toNat 511 448

/-- A request of a privileged page ends (R380): the completion is readable, and key writes that waited take effect. -/
def Page.finish (x : Page) (result : Nat) (completion : BitVec 512) : Page :=
  { x with busy := false, done := true, result := result, late := []
           completion := (List.range 8).map (fun i => BitVec.ofNat 64 (field completion.toNat (64 * i + 63) (64 * i)))
           keys := x.late.foldl (fun m k => Mem.set ([], 0) m k.1 k.2) x.keys }

/-- A completion reaches its submitter (R363, R380): submitters 16 to 19 are the privileged pages. -/
def Cpe.deliver (c : Cpe) (e : CpeEntry) (result : Nat) (completion : BitVec 512) : Cpe :=
  { c with
    done := c.done ++ [(e.submitter, completion)]
    pages := if 16 ≤ e.submitter then Mem.upd {} c.pages (e.submitter - 16) (fun p => p.finish result completion) else c.pages }

/-- Completions that waited for a job's JOB_END are delivered (R371). -/
def Cpe.settle (c : Cpe) (due : Nat × CpeEntry × Nat → Bool) : Cpe :=
  (c.afterJob.filter due).foldl (fun (c : Cpe) (e : Nat × CpeEntry × Nat) =>
    c.deliver e.2.1 0x04 (cpeCompletion (entryUser e.2.1.entry) 0x04 true e.2.2 [] [])) { c with afterJob := c.afterJob.filter (fun e => !due e) }

/-- A job's JOB_END has completed (R371); a scull port's job carries its request's USER. -/
def State.jobEnded (s : State) (ch : Nat) (d : Desc) : State :=
  if !d.jobEnd then s
  else { s with cpe := s.cpe.settle (fun e =>
    e.1 == ch && (decide (entryUser e.2.1.entry < 2 ^ 63) || entryUser e.2.1.entry == d.user)) }

/-- Verdicts without a PASS that came early for a job that has ended (R331). -/
def DmaCh.dropPass (c : DmaCh) : List (Nat × Bool) := c.verdicts.filter (fun v => v.1 != 0)

/-- The job that a request's FAIL verdict retracts has not completed its JOB_END (R371). -/
def State.jobPending (s : State) (ch user : Nat) : Bool :=
  (s.ch ch).jobOpen || (s.ch ch).aborting || (s.ch ch).verdicts.contains (user, false)

/-- After a completion the channel goes on to the link, re-reads it when a RING is pending, or parks (R328, R346). -/
def State.advance (s : State) (ch : Nat) (fetchedLink : Nat) : State :=
  let c := s.ch ch
  let go := fun (c : DmaCh) (l : Nat) =>
    if bit l 0 then { c with state := .parked } else { c with state := .ready, curSpl := bit l 1, cur := l / 64 * 64 }
  if !bit fetchedLink 0 then s.setCh ch (go c fetchedLink)
  else if c.pend then s.setCh ch (go { c with pend := false } (s.readDesc c.curSpl c.cur).link)
  else s.setCh ch { c with state := .parked }

/-- A retired generation: the function's generation is another, or is being retired (R177, R178). -/
def State.retired (s : State) (f gen : Nat) : Bool := (s.fn f).gen.toNat != gen || (s.fn f).resetting

/-- Retracts a job (R332 to R334): each descriptor's written range is filled, and its STATUS rewritten; the answer
carries the bytes filled. The failing descriptor keeps `result`. -/
def State.retractJob (s : State) (failing : Nat) (result : Nat) : List (Bool × Nat × Nat) → Nat → State × Nat
  | [], n => (s, n)
  | (spl, addr, written) :: rest, n =>
    let d := s.readDesc spl addr
    let quiet := s.retired d.func d.gen || s.dmf.forced.contains (spaceDomain d.dstSpace) || written == 0
    let s1 := if quiet then s else s.spaceFill d.func d.dstSpace d.dst written d.fill
    let st := statusWord (if rest.isEmpty && decide (failing = addr) then result else 0x0A) true written
    (s1.closeDesc spl addr st).retractJob failing result rest (if quiet then n else n + written)

/-- Ends a job with retraction: DMA_RETRACTED when bytes were filled (R352), the channel goes on, and the job's later
descriptors are to be aborted when its JOB_END has not been reached (R332). -/
def State.failJob (s : State) (ch : Nat) (d : Desc) (result : Nat) : State :=
  let c := s.ch ch
  let r := s.retractJob c.cur result c.job 0
  let s1 := if r.2 = 0 then r.1
    else r.1.raiseFrom (engineOf ch) evDmaRetracted d.func [(1, ch), (1, d.func), (4, r.2), (1, result)]
  let s2 := s1.setCh ch { s1.ch ch with
    jobOpen := (s1.ch ch).jobOpen && !d.jobEnd, aborting := (s1.ch ch).jobOpen && !d.jobEnd,
    job := [], held := false, failing := false, partialTag := none, verdicts := (s1.ch ch).dropPass }
  let s3 := s2.dmaEvent d (statusWord result true (match c.job.getLast? with | some j => j.2.2 | none => 0))
  (s3.jobEnded ch d).advance ch d.link

/-- Completes the current descriptor with a result (R325). -/
def State.completeDesc (s : State) (ch : Nat) (d : Desc) (result written : Nat) : State :=
  let c := s.ch ch
  let st := statusWord result false written
  let s1 := s.closeDesc c.curSpl c.cur st
  let s2 := s1.setCh ch { s1.ch ch with
    jobOpen := (s1.ch ch).jobOpen && !d.jobEnd, held := false,
    job := if (s1.ch ch).jobOpen && !d.jobEnd then (s1.ch ch).job else []
    partialTag := if (s1.ch ch).jobOpen && !d.jobEnd then (s1.ch ch).partialTag else none
    verdicts := if d.jobEnd then (s1.ch ch).dropPass else (s1.ch ch).verdicts }
  ((s2.dmaEvent d st).jobEnded ch d).advance ch d.link

/-- The current descriptor is fetched (R322, R328). -/
def State.fetchDesc (s : State) (ch : Nat) : State :=
  let c := s.ch ch
  let d := s.readDesc c.curSpl c.cur
  let halt := fun (code : Nat) =>
    ((s.closeDesc c.curSpl c.cur (statusWord code false 0)).setCh ch { c with state := .halted }).raiseFrom
      (engineOf ch) evDmaChannelHalted d.func [(1, ch), (8, c.cur), (1, code)]
  if !d.own then halt 0x09
  else if !s.descOk c d then halt 0x08
  else if c.aborting then
    let s1 := s.setCh ch { c with aborting := !d.jobEnd, jobOpen := !d.jobEnd, state := .active, fetched := d.raw }
    s1.completeDesc ch d 0x0A 0
  else s.setCh ch { c with state := .active, fetched := d.raw, jobOpen := c.jobOpen || (d.jobStart && !d.jobEnd) }

/-- The source bytes of a descriptor, and how they ended early, if they did: 1 for an uncorrectable SPL word (R14), 4 for a word of
a forbidden tag (R319, R320). -/
def State.sourceBytes (s : State) (d : Desc) (hostData : Bytes) : Bytes × Nat :=
  match d.srcSpace with
  | 0 | 1 => (padTo d.length hostData, 0)
  | 2 => (match s.splRead d.src d.length with | some bs => (bs, 0) | none => ([], 1))
  | 3 => (readBytes s.dram.cells d.src d.length, 0)
  | 4 =>
    let r := s.eightBytes (d.src / 262144 * 65536 + d.src % 262144 / 4) (d.length / 4)
    (r.1, if r.2 then 0 else 4)
  | _ => (List.replicate d.length d.pattern, 0)

/-- The pieces of an SPL range by unit, in order: the SPL unit, the piece's offset in the range, its length. -/
def splPieces (addr len : Nat) : List (Nat × Nat × Nat) :=
  if len = 0 then []
  else (List.range ((addr + len - 1) / 4096 + 1 - addr / 4096)).map (fun i =>
    let u := addr / 4096 + i
    let lo := Nat.max addr (4096 * u)
    (u, lo - addr, Nat.min (addr + len) (4096 * u + 4096) - lo))

/-- The trailer of the n-th unit that a descriptor touches (R321). -/
def Desc.trailer (d : Desc) (n len : Nat) : Trailer :=
  { unitNo := d.tagUnit + n, objId := d.tagObj, nsid := d.tagNsid, func := d.func, gen := d.gen, len := len }

/-- Where the first uncorrectable word of an SPL range lies, from its start (R14). -/
def State.splBadAt (s : State) (addr len : Nat) : Nat :=
  (s.dmf.splBad.filter (fun w => decide (addr < 8 * w + 8 ∧ 8 * w < addr + len))).foldl (fun n w => Nat.min n (8 * w - addr)) len

/-- What a descriptor's tag work gives (R321): the tag of each unit that is complete, by its SPL unit and its place among the
units touched, and the partial CRC of a unit that goes on in the job's next descriptor. -/
structure TagRun where
  done : List (Nat × Nat × BitVec 64) := []
  partialTag : Option (Nat × Nat × BitVec 64) := none
  deriving DecidableEq, Repr

/-- The CRC over the units of an SPL range, from a partial CRC of an earlier descriptor; `last` when the job ends here. -/
def tagRun (d : Desc) (addr : Nat) (bs : Bytes) (start : Option (Nat × Nat × BitVec 64)) (last : Bool) : TagRun :=
  (splPieces addr bs.length).zipIdx.foldl (fun r p =>
    let at_ := addr + p.1.2.1
    let prev := match r.partialTag with
      | some (u, n, c) => if at_ % 4096 ≠ 0 ∧ u = d.tagUnit + p.2 then (n, c) else (0, BitVec.allOnes 64)
      | none => (0, BitVec.allOnes 64)
    let n := prev.1 + p.1.2.2
    let c := crcMsb 0x42F0E1EBA9EA3693 prev.2 (slice bs p.1.2.1 p.1.2.2)
    if (at_ + p.1.2.2) % 4096 = 0 ∨ last then
      { done := r.done ++ [(p.1.1, p.2, crcMsb 0x42F0E1EBA9EA3693 c (d.trailer p.2 n).bytes ^^^ BitVec.allOnes 64)] }
    else { done := r.done, partialTag := some (d.tagUnit + p.2, n, c) }) { partialTag := start }

/-- The tag work of a descriptor that moves some bytes (R321). -/
def State.tagWork (s : State) (ch : Nat) (d : Desc) (bs : Bytes) : TagRun :=
  let c := s.ch ch
  tagRun d (if d.tagMode = 1 then d.dst else d.src) bs c.partialTag (d.jobEnd || !c.jobOpen)

/-- The first unit of the source whose tag does not match, by its place among the units touched (R321). -/
def State.badTag (s : State) (d : Desc) (r : TagRun) : Option Nat :=
  if d.tagMode = 2 ∨ d.tagMode = 3 then
    (r.done.find? (fun t => Mem.get none s.dmf.tags t.1 != some t.2.2)).map (·.2.1)
  else none

/-- The bytes of a source range before the n-th unit it touches. -/
def bytesBefore (addr n : Nat) : Nat := (addr / 4096 + n) * 4096 - addr

/-- The tags that a descriptor writes with its units (R321), and the partial CRC that its channel carries on. -/
def State.writeTags (s : State) (ch : Nat) (d : Desc) (r : TagRun) : State :=
  let s1 := match d.tagMode with
    | 1 => r.done.foldl (fun (s : State) (t : Nat × Nat × BitVec 64) => s.setTag t.1 (some t.2.2)) s
    | 3 => r.done.foldl (fun (s : State) (t : Nat × Nat × BitVec 64) => s.setTag (d.dst / 4096 + t.2.1) (some t.2.2)) s
    | _ => s
  s1.setCh ch { s1.ch ch with partialTag := r.partialTag }

/-- Moves the first bytes of a descriptor and notes them for a retraction. -/
def State.moveDesc (s : State) (ch : Nat) (d : Desc) (bs : Bytes) : State :=
  let s1 := s.spaceWrite d.func d.dstSpace d.dst bs
  let c := s1.ch ch
  s1.setCh ch { c with job := c.job ++ [(c.curSpl, c.cur, bs.length)] }

/-- Where a descriptor that is stopped ends its writes (R332, R336): the bytes up to a 64-byte boundary of its destination, or all; which
one the model leaves free (log 117). -/
def Desc.stopAt (d : Desc) (k : Nat) : Nat :=
  Nat.min d.length (64 * (k % ((d.dst % 64 + d.length) / 64 + 2)) - d.dst % 64)

/-- An ACTIVE descriptor is stopped with part of its bytes written (R332, R336); bytes from a host source are free (log 117). Nothing of a
retired generation is written (R178). -/
def State.stopMove (s : State) (ch : Nat) (d : Desc) : State :=
  let a := s.draw 32
  let n := if s.retired d.func d.gen then 0 else d.stopAt a.1.toNat
  let h := if d.srcSpace ≤ 1 then a.2.drawBytes n else ([], a.2)
  h.2.moveDesc ch d ((s.sourceBytes d h.1).1.take n)

/-- A descriptor's move ends with a failure after some bytes: the job is retracted (R323, R332). -/
def State.failMove (s : State) (ch : Nat) (d : Desc) (bs : Bytes) (result : Nat) : State :=
  (s.moveDesc ch d bs).failJob ch d result

/-! ### The commands of the channels -/

/-- A RING (R328). -/
def State.dmaRing (s : State) (ch : Nat) : State :=
  let c := s.ch ch
  match c.state with
  | .idle | .halted =>
    let h := c.head.toNat
    s.setCh ch { c with state := .ready, curSpl := bit h 1, cur := h / 64 * 64, pend := false }
  | .ready | .active => s.setCh ch { c with pend := true }
  | .parked =>
    let l := (s.readDesc c.curSpl c.cur).link
    if bit l 0 then s else s.setCh ch { c with state := .ready, curSpl := bit l 1, cur := l / 64 * 64 }

/-- CHANNEL_RING (R328). -/
def execChannelRing (ch : Nat) (s : State) : Host.Outcome State Fault Refusal := .next (s.dmaRing ch)

/-- A CLEAR (R328, R351). -/
def State.dmaClear (s : State) (ch : Nat) : State :=
  let c := s.ch ch
  match c.state with
  | .idle | .parked | .halted =>
    let s1 := { s with cpe := s.cpe.settle (fun e => e.1 == ch) }
    s1.setCh ch { c with
      state := .idle, pend := false, jobOpen := false, job := [], aborting := false, partialTag := none
      verdicts := c.dropPass }
  | .ready | .active => s

/-- CHANNEL_CLEAR (R328, R351). -/
def execChannelClear (ch : Nat) (s : State) : Host.Outcome State Fault Refusal := .next (s.dmaClear ch)

/-- The producer of a scull port's job has not written the output yet (R331, R383). -/
def State.awaitsCpe (s : State) (d : Desc) : Bool :=
  let mine := fun (e : CpeEntry) => entryUser e.entry == d.user
  decide (2 ^ 63 ≤ d.user) &&
    (s.cpe.queue.any mine || s.cpe.waiting.any mine || s.cpe.pipes.any (fun p => p.2.bound.any mine))

/-- What a verdict that came early is noted under: the USER of a scull port's job, and 0 for the one job of any other producer. -/
def Desc.verdictKey (d : Desc) : Nat := if d.user < 2 ^ 63 then 0 else d.user

/-- The verdict that has come for the job of a descriptor (R331). -/
def DmaCh.verdictFor (c : DmaCh) (d : Desc) : Option Bool := (c.verdicts.find? (fun v => v.1 == d.verdictKey)).map (·.2)

/-- A verdict is used up. -/
def State.takeVerdict (s : State) (ch : Nat) (d : Desc) : State :=
  s.setCh ch { s.ch ch with verdicts := (s.ch ch).verdicts.eraseP (fun v => v.1 == d.verdictKey) }

/-- A job is open or moving, so that its producer may send a verdict before its JOB_END holds (R331). -/
def DmaCh.hasJob (c : DmaCh) (d : Desc) : Bool := c.jobOpen || (c.state == .active && d.jobEnd && d.verdict)

/-- A producer's failure reaches a channel (R331, R332, R347): with a job open or running the job is retracted once the
current descriptor stops; with none it is discarded and recorded. `producer` is its component. -/
def State.upstreamFail (s : State) (ch producer : Nat) : State :=
  let c := s.ch ch
  let d := s.curDesc ch
  if c.state = .active then
    if c.held then s.failJob ch d 0x05 else (s.stopMove ch d).failJob ch d 0x05
  else if c.jobOpen then
    let r := s.retractJob (match c.job.getLast? with | some j => j.2.1 | none => 0) 0x0A c.job 0
    let s1 := if r.2 = 0 then r.1
      else r.1.raiseFrom (engineOf ch) evDmaRetracted d.func [(1, ch), (1, d.func), (4, r.2), (1, 0x05)]
    s1.setCh ch { s1.ch ch with job := [], aborting := true }
  else s.raiseFrom (engineOf ch) evDmaLateFail d.func [(1, ch), (2, producer), (1, d.func)]

/-- A verdict for the job of a channel (R331, R332): it ends the hold of JOB_END; before that a PASS is kept for the hold and a FAIL
starts the retraction. `producer` is its component. -/
def State.jobVerdict (s : State) (ch : Nat) (pass : Bool) (producer : Nat) : State :=
  let c := s.ch ch
  let d := s.curDesc ch
  if c.state = .active ∧ c.held then (if pass then s.completeDesc ch d 0x00 d.length else s.failJob ch d 0x05)
  else if !c.hasJob d then s
  else if pass then s.setCh ch { c with verdicts := c.verdicts ++ [(0, true)] }
  else s.upstreamFail ch producer

/-- The verdict of a scull port's request for its own job (R331, R383): it acts on the held JOB_END, or waits for it. -/
def State.jobVerdictFor (s : State) (ch user : Nat) (pass : Bool) : State :=
  let c := s.ch ch
  if c.held ∧ (s.curDesc ch).user = user then s.jobVerdict ch pass (engineOf ch)
  else s.setCh ch { c with verdicts := c.verdicts ++ [(user, pass)] }

/-- JOB_VERDICT (R331, R332). -/
def execJobVerdict (ch : Nat) (pass : Bool) (s : State) : Host.Outcome State Fault Refusal := .next (s.jobVerdict ch pass (engineOf ch))

/-- UPSTREAM_FAIL (R331, R332, R347); a producer that R12 and R13 reserve does not occur. -/
def execUpstreamFail (ch producer : Nat) (s : State) : Host.Outcome State Fault Refusal :=
  .next (if componentOk producer then s.upstreamFail ch producer else s)

/-- The current descriptor of a channel touches a domain (R335, R336): its source, its destination, its own line, or the one its link
names. -/
def State.touches (s : State) (ch domain : Nat) : Bool :=
  let c := s.ch ch
  let d := s.curDesc ch
  spaceDomain d.srcSpace == domain || spaceDomain d.dstSpace == domain ||
    spaceDomain (if c.curSpl then 2 else 3) == domain || (!bit d.link 0 && spaceDomain (if bit d.link 1 then 2 else 3) == domain)

/-- One channel at a forced shutdown (R336): its job is retracted outside the domain with DOMAIN_OFF; a chain inside the
domain halts the channel. The answer carries descriptors stopped and bytes retracted. -/
def State.forceChannel (s : State) (domain ch : Nat) : State × Nat × Nat :=
  let c := s.ch ch
  let d := s.curDesc ch
  let inside := spaceDomain (if c.curSpl then 2 else 3) == domain
  if c.state = .active ∧ s.touches ch domain then
    let s1 := if c.held then s else s.stopMove ch d
    let r := s1.retractJob c.cur 0x06 (s1.ch ch).job 0
    let s2 := if r.2 = 0 then r.1
      else r.1.raiseFrom (engineOf ch) evDmaRetracted d.func [(1, ch), (1, d.func), (4, r.2), (1, 0x06)]
    let s3 := s2.setCh ch { s2.ch ch with job := [], held := false, failing := false,
                                          aborting := (s2.ch ch).jobOpen && !d.jobEnd }
    let s4 := s3.dmaEvent d (statusWord 0x06 true 0)
    (if inside then s4.setCh ch { s4.ch ch with state := .halted } else s4.advance ch d.link, 1, r.2)
  else if inside ∧ (c.state = .ready ∨ c.state = .active) then (s.setCh ch { c with state := .halted }, 0, 0)
  else (s, 0, 0)

/-- A command that writes to host or peer memory (R164, R336). -/
def writesHost (e : Sqe) : Bool :=
  if e.admin then e.opcode == 0x02 || e.opcode == 0x06 || e.opcode == 0xC2 || e.opcode == 0x1E ||
    (e.opcode == 0x0A && field e.cdw10.toNat 7 0 == 0x0E)
  else e.opcode == 0x02 || e.opcode == 0x82 || e.opcode == 0x86 || e.opcode == 0x8A || e.opcode == 0x92 ||
    e.opcode == 0x97 || e.opcode == 0x9B || e.opcode == 0xA2 || e.opcode == 0x0E

/-- A forced shutdown of a domain (R336): ACTIVE descriptors that touch it stop, their jobs are retracted, host commands
that move data through the host or fabric domain complete with DOMAIN_OFF_RETRACTED, and DMA_DOMAIN_OFF is recorded. -/
def State.forceOff (s : State) (domain : Nat) : State :=
  let s := { s with dmf := { s.dmf with forced := nubNat (s.dmf.forced ++ [domain]) } }
  let chans := Mem.keys s.dmf.chans
  let r := chans.foldl (fun (acc : State × Nat × Nat) ch =>
    let r := acc.1.forceChannel domain ch; (r.1, acc.2.1 + r.2.1, acc.2.2 + r.2.2)) (s, 0, 0)
  let s1 := if domain ≤ 1 then
      (r.1.inflight.filter (fun e => writesHost e.2.sqe)).foldl (fun s e => s.finish e.1 .domainOffRetracted) r.1
    else r.1
  s1.raise evDmaDomainOff 255 [(1, domain), (4, r.2.1), (4, r.2.2)]

/-- FORCE_OFF (R336, R349). -/
def execForceOff (domain : Nat) (s : State) : Host.Outcome State Fault Refusal :=
  .next (if s.psm.mode.live then s.forceOff domain else s)

/-- DOMAIN_POWER_DOWN (R335): no descriptor that touches the domain is granted from here on; ACTIVE ones run to their end,
and the domain is down once none touches it. It returns when REST ends or with the next BOOT (R539, log 117). -/
def execDomainPowerDown (domain : Nat) (s : State) : Host.Outcome State Fault Refusal :=
  .next { s with dmf := { s.dmf with domainsOff := nubNat (s.dmf.domainsOff ++ [domain]) } }

/-! ### Arbitration units -/

/-- Class and wait limit of a requester by default (R339). -/
def auDefault (inst r : Nat) : Nat × Nat :=
  if inst ≤ 7 then (if r ≤ 3 then (3, 0) else if r ≤ 7 then (2, 0) else (1, 128))
  else if inst = 8 then (if r = 0 then (3, 0) else if r ≤ 5 then (2, 64) else if r = 6 then (1, 64) else (0, 64))
  else if inst ≤ 72 then
    if 36 ≤ r ∧ r ≤ 51 then (3, 0) else if r ≤ 15 ∨ (32 ≤ r ∧ r ≤ 35) then (2, 32) else if r ≤ 31 then (1, 32) else (0, 32)
  else if inst ≤ 74 then (if r = 8 then (3, 0) else if 9 ≤ r then (2, 16) else (1, 16))
  else if r = 0 then (3, 0) else if r ≤ 2 then (2, 32) else if r ≤ 4 then (1, 32) else (0, 32)

/-- How many requesters an instance has (R339). -/
def auCount (inst : Nat) : Nat :=
  if inst ≤ 7 then 32 else if inst = 8 then 8 else if inst ≤ 72 then 54 else if inst ≤ 74 then 12 else 6

/-- An instance with its defaults (R339). -/
def auReset (inst : Nat) : Au :=
  { reqs := (List.range (auCount inst)).map (fun r =>
      let d := auDefault inst r
      { cls := d.1, limit := d.2, shadowCls := d.1, shadowLimit := d.2 }) }

/-- Arbitration unit `inst`. -/
def State.au (s : State) (inst : Nat) : Au := (Mem.get none s.dmf.aus inst).getD (auReset inst)

/-- The state with arbitration unit `inst` set. -/
def State.setAu (s : State) (inst : Nat) (a : Au) : State :=
  { s with dmf := { s.dmf with aus := Mem.set none s.dmf.aus inst (some a) } }

/-- The first requester at or after a pointer, in turn, that satisfies `p` (R340). -/
def rrPick (n ptr : Nat) (p : Nat → Bool) : Option Nat :=
  ((List.range n).map (fun i => (ptr + i) % n)).find? p

/-- The requester is expired (R340). -/
def AuReq.expired (r : AuReq) : Bool := r.limit != 0 && decide (r.limit ≤ r.wait)

/-- The shadows come into force when a commit is pending (R343). -/
def Au.takeCommit (a : Au) : Au :=
  if a.commit then
    { a with commit := false, reqs := a.reqs.map (fun r => { r with cls := r.shadowCls, limit := r.shadowLimit }) }
  else a

/-- One round (R340): the winner, with the pointers moved and the wait counters updated. -/
def Au.round (a : Au) (asking : List Nat) : Au × Option Nat :=
  let n := a.reqs.length
  let q := fun i => nth {} a.reqs i
  let inCls := fun c i => asking.contains i && (q i).cls == c
  let pick : Option Nat × Au :=
    match rrPick n a.expPtr (fun i => asking.contains i && (q i).expired) with
    | some w => (some w, { a with expPtr := (w + 1) % n })
    | none =>
      let try_ := fun (acc : Option Nat × Au) c =>
        match acc.1 with
        | some w => (some w, acc.2)
        | none =>
          match rrPick n (nth 0 acc.2.clsPtr c) (inCls c) with
          | some w => (some w, { acc.2 with clsPtr := acc.2.clsPtr.set c ((w + 1) % n) })
          | none => (none, acc.2)
      [3, 2, 1, 0].foldl try_ (none, a)
  match pick.1 with
  | none => (pick.2, none)
  | some w =>
    let reqs := (pick.2.reqs.zipIdx).map (fun e =>
      if e.2 = w then { e.1 with wait := 0 }
      else if asking.contains e.2 then { e.1 with wait := Nat.min (e.1.wait + 1) 4095 } else e.1)
    ({ pick.2 with reqs := reqs, owner := w, held := true, parked := asking.length == 1 }, some w)

/-- AU_ROUND (R340, R341, R343): a grant parked on its owner is taken without a round, so that no commit takes effect. On an engine's instance only READY
channels that touch no held domain ask, the engine must be free and not withdrawn, and the winner's descriptor is fetched (R317,
R335, R545). -/
def execAuRound (inst : Nat) (asking : List Nat) (s : State) : Host.Outcome State Fault Refusal :=
  let a := s.au inst
  let ask := if inst ≤ 7 then asking.filter (fun k => decide (k < 32) && (s.ch (32 * inst + k)).state == .ready &&
      s.dmf.domainsOff.all (fun d => !s.touches (32 * inst + k) d)) else asking
  let busy := inst ≤ 7 ∧ (s.psm.halt.withdrawn.contains (.dma inst) || (List.range 32).any (fun k => (s.ch (32 * inst + k)).state == .active))
  .next (
    if busy ∨ ask.isEmpty then s
    else
      let r := if a.parked && ask == [a.owner] then ({ a with held := true }, some a.owner) else a.takeCommit.round ask
      let s1 := s.setAu inst r.1
      match r.2 with
      | some w => if inst ≤ 7 then s1.fetchDesc (32 * inst + w) else s1
      | none => s1)

/-- AU_COMMIT (R343): the shadows take effect at the next round. -/
def execAuCommit (inst : Nat) (s : State) : Host.Outcome State Fault Refusal :=
  .next (s.setAu inst { s.au inst with commit := true })

end Sys2Proof.Machine
end

