-- ==== Sys2Proof/Machine/Integrity.lean ====
section
/-! DEFINITION. What stops the device's work: SAFE-HALT with its sequence, the stop of the engines, detections and
withdrawals, and the integrity-tag response (R544 to R547, R489, R395, R423, R449). -/

namespace Sys2Proof.Machine

/-- The media path and page 3 keep running in DRAIN and SAFE-HALT (R395). -/
def CpeEntry.keeps (e : CpeEntry) : Bool := e.submitter == 0 || e.submitter == 19

/-- Every entry but the media path's and page 3's ends with GEN_RETIRED and sends no verdict (R395). -/
def Cpe.stop (c : Cpe) : Cpe :=
  let bound := (c.pipes.map (fun p => p.2.bound)).flatten
  let others := (bound ++ c.queue ++ c.waiting ++ c.afterJob.map (·.2.1)).filter (fun e => !e.keeps)
  let c1 := { c with
    afterJob := c.afterJob.filter (fun e => e.2.1.keeps)
    queue := c.queue.filter (·.keeps)
    waiting := c.waiting.filter (·.keeps)
    pipes := c.pipes.map (fun p => (p.1, { p.2 with bound := p.2.bound.filter (·.keeps) })) }
  others.foldl (fun c e => c.deliver e 0x07 (cpeCompletion (entryUser e.entry) 0x07 false 0 [] [])) c1

/-- A scull halted at once (R489, R491): its invocation ends here, requests that a port has not taken vanish, and those a port
has taken complete into nothing. Its memory is cleared before it is used again. -/
def Scull.halt (c : Scull) : Scull :=
  { c with running := false, trapped := false, feed := [], start := none
           out := [], inq := [], sent := []
           outstanding := c.sent.foldl (fun m e => Mem.upd 0 m e.1 (fun n => n - e.2.length)) c.outstanding }

/-- The sculls halt and their invocation queues empty (R489). -/
def Sca.stop (a : Sca) : Sca :=
  { a with sculls := Mem.mapAll {} (fun c => { c.halt with outstanding := [] }) a.sculls, progs := a.progs.map (fun p => { p with queue := [] }) }

/-- Sculls, CPE, DGE, CMP and ASU work ends (R489, R395, R423, R449); held compression contexts and waiting digest images
are discarded. -/
def State.stopEngines (s : State) : State :=
  { s with sca := s.sca.stop, cpe := s.cpe.stop, cmp := { s.cmp with ctxs := [] },
           dge := { ctxs := s.dge.ctxs.filter (fun e => e.2.state != .opened), imageKey := s.dge.imageKey } }

/-- One channel at SAFE-HALT (R336, R546): its open job is retracted with DOMAIN_OFF and it halts. -/
def State.haltChannel (s : State) (ch : Nat) : State :=
  let c := s.ch ch
  let d := s.curDesc ch
  if c.state = .active ∨ c.jobOpen then
    let s1 := if c.state = .active ∧ !c.held then s.stopMove ch d else s
    let r := s1.retractJob c.cur 0x06 (s1.ch ch).job 0
    let s2 := if r.2 = 0 then r.1
      else r.1.raiseFrom (engineOf ch) evDmaRetracted d.func [(1, ch), (1, d.func), (4, r.2), (1, 0x06)]
    s2.setCh ch { s2.ch ch with state := .halted, job := [], held := false, failing := false }
  else if c.state = .ready then s.setCh ch { c with state := .halted } else s

/-- Step 6 of R546: FL_WP_N low on every channel, self-refresh requested of the DMC (R297), pipeline and page keys zeroised. -/
def State.haltOutputs (s : State) : State :=
  { s with
    flash := { s.flash with chans := Mem.mapAll {} (fun c => { c with wpHigh := false }) s.flash.chans }
    dram := { s.dram with srRequested := true }
    cpe := { s.cpe with
      pipes := s.cpe.pipes.map (fun p => (p.1, { p.2 with bound := p.2.bound.map (fun e => { e with key := [] }) }))
      pages := s.cpe.pages.map (fun p => (p.1, { p.2 with keys := [], late := [] })) } }

/-- What waited for the device ends at SAFE-HALT: long mailbox requests of functions 0 and 1 with WRONG_MODE (R205), a commit, a
revert and a firmware activation without effect (log 65). -/
def State.abandonWork (s : State) : State :=
  let give := fun (f : Nat) (s : State) => s.updMb f (fun m =>
    if m.waiting then { m with waiting := false, prepared := some { result := 0x0005 } } else m)
  let s1 := give 1 (give 0 s)
  { s1 with
    nvs := { s1.nvs with committing := none, reverting := none }
    hif := { s1.hif with fetchStopped := false, activating := none }
    swl := { s1.swl with joining := none, link := { s1.swl.link with lanes := 0 } }
    psm := { s1.psm with
      heldFromHalt := false, maintByHost := false, maintByWork := false, maintWaiting := none
      holdup := { s1.psm.holdup with run := none, failing := none }
      pins := { s1.psm.pins with faultLow := true, ppInEn := true, bleed := false } } }

/-- Appends that have stored data and not completed are noted: they fail, so the next BOOT undoes them (R41, R51). -/
def State.noteUndone (s : State) : State :=
  { s with objs := { s.objs with undone := (s.inflight.filter (fun e => e.2.undo.isSome && e.2.result.isNone)).map (·.2) } }

/-- SAFE-HALT is entered for the failure of an event code from a component whose record has sequence number `seq`
(R546, R547); during DRAIN, or with the device off, the failure only stands in its record (R563). In BOOT no host data has been
accepted, and in MAINTENANCE held from SAFE-HALT nothing may be programmed, so there is no safe drain (R537, R540; log 65). -/
def State.enterSafeHalt (s : State) (code comp seq : Nat) (drain : Bool) : State :=
  match s.psm.mode with
  | .off | .hold | .drain | .safeHalt => s
  | _ =>
    let drain := drain && s.psm.mode != .boot && !s.psm.heldFromHalt
    let s := (s.toMode .safeHalt code).abandonWork
    let s := { s with psm := { s.psm with halt := { s.psm.halt with
      code := code, component := comp, seq := seq, safeDrain := drain } } }
    let s := s.noteUndone
    let s := s.inflight.foldl (fun s e => s.finish e.1 .internalSafeHalt) s
    let s := (Mem.keys s.dmf.chans).foldl State.haltChannel s
    let s := s.stopEngines
    let s := s.raise evSafeHaltEntered 255 [(2, code), (2, comp), (4, flag drain)]
    if drain then s else s.haltOutputs

/-- Raises the record of a dangerous failure and enters SAFE-HALT for it (R544). -/
def State.dangerHalt (s : State) (k : Ev) (comp : Nat) (items : List (Nat × Nat)) (drain : Bool) : State :=
  let seq := s.recd.next
  (s.raise k 255 items).enterSafeHalt k.code comp seq drain

/-- The withdrawable instance of a component identifier (R545, R12). -/
def instanceOf (comp : Nat) : Option Instance :=
  let b := comp % 256
  match comp / 256 with
  | 0x0A => if b ≤ 7 then some (.cpe b) else none
  | 0x0B => if b ≤ 3 then some (.dge b) else none
  | 0x0C => if b ≤ 3 then some (.comp b) else if 0x10 ≤ b ∧ b ≤ 0x17 then some (.decomp (b - 0x10)) else none
  | 0x0D => if b ≤ 0x1F then some (.asu (b / 4)) else none
  | 0x0E => if b ≤ 3 then some (.sae b) else none
  | 0x06 => if b ≤ 7 then some (.dma b) else none
  | 0x09 => if b ≤ 0x0F then some (.flash b) else none
  | _ => none

/-- The instances of the same kind (R12, R545). -/
def instanceKin : Instance → List Instance
  | .cpe _ => (List.range 8).map .cpe
  | .dge _ => (List.range 4).map .dge
  | .comp _ => (List.range 4).map .comp
  | .decomp _ => (List.range 8).map .decomp
  | .asu _ => (List.range 8).map .asu
  | .sae _ => (List.range 4).map .sae
  | .dma _ => (List.range 8).map .dma
  | .flash _ => (List.range 16).map .flash

/-- The component identifier of an instance (R12, and the block tables). -/
def instanceComp : Instance → Nat
  | .cpe n => 0x0A00 + n
  | .dge n => 0x0B00 + n
  | .comp n => 0x0C00 + n
  | .decomp n => 0x0C10 + n
  | .asu n => 0x0D00 + 4 * n
  | .sae n => 0x0E00 + n
  | .dma n => 0x0600 + n
  | .flash n => 0x0900 + n

/-- Withdraws an instance; with none of its kind left the device enters SAFE-HALT (R545). -/
def State.withdraw (s : State) (i : Instance) (code seq : Nat) : State :=
  let h := s.psm.halt
  let s := { s with psm := { s.psm with halt :=
    { h with withdrawn := if h.withdrawn.contains i then h.withdrawn else h.withdrawn ++ [i] } } }
  if (instanceKin i).all (fun j => s.psm.halt.withdrawn.contains j) then s.enterSafeHalt code (instanceComp i) seq true else s

/-- A detection by a diagnostic (named by its event code) in a component: the third of one diagnostic within one second withdraws an
instance, and the third of any enters SAFE-HALT for a component that cannot be withdrawn (R545; the second of the counter, log 9). -/
def State.detect (s : State) (comp code seq : Nat) : State :=
  let h := s.psm.halt
  let recent := h.detections.filter (fun d => d.2.2 == s.now) ++ [(comp, code, s.now)]
  let s := { s with psm := { s.psm with halt := { h with detections := recent } } }
  if recent.countP (fun d => d.1 == comp && (d.2.1 == code || (instanceOf comp).isNone)) < 3 then s
  else match instanceOf comp with
    | some i => s.withdraw i code seq
    | none => s.enterSafeHalt code comp seq true

/-- An uncorrectable SPL word at an address is recorded and counts as a detection of the SPL (R14, R16, R544, R545); the line is counted
over the whole pool (log 84). -/
def State.splError (s : State) (addr : Nat) : State :=
  let line := addr / 64
  let buffer := decide (addr < 16777216)
  (s.raise { evSramUe with cls := if buffer then 3 else 2 } 255 [(1, line % 64), (4, line), (1, if buffer then 2 else 1)]).detect 0x07FF
    evSramUe.code s.recd.next

/-- A checker reports a tag mismatch of a unit of function `f` to the integrity monitor (R26, R27, R544): it is recorded and counts
as a detection. -/
def State.reportTag (s : State) (comp f nsid unitNo : Nat) : State :=
  let seq := s.recd.next
  (s.raise evIntegrityTagMismatch f [(2, comp), (1, f), (4, nsid), (8, unitNo)]).detect comp evIntegrityTagMismatch.code seq

/-- An integrity-tag mismatch found by `comp` on a unit of function `f` (R27, R544): the owning command ends with Internal Error. -/
def State.tagMismatch (s : State) (id : CmdId) (comp f nsid unitNo : Nat) : State :=
  let seq := s.recd.next
  let s := s.raise evIntegrityTagMismatch f [(2, comp), (1, f), (4, nsid), (8, unitNo)]
  (s.finish id .internalContained).detect comp evIntegrityTagMismatch.code seq

end Sys2Proof.Machine
end

