-- ==== Sys2Proof/Machine/Units.lean ====
section
/-! DEFINITION. Namespaces, dies and superblocks, what a stored unit is, the maps with their checks, and the map journal (R235 to
R251, R253, R254, R264, R367). -/

namespace Sys2Proof.Machine

/-! ### Namespaces and unit keys -/

/-- Namespace `nsid`. -/
def State.ns (s : State) (nsid : Nat) : Option Ns := Mem.get none s.nss.ns nsid

/-- The state with namespace `nsid` set. -/
def State.setNs (s : State) (nsid : Nat) (n : Option Ns) : State :=
  { s with nss := { s.nss with ns := Mem.set none s.nss.ns nsid n } }

/-- The namespaces that exist, with their numbers. -/
def State.nsList (s : State) : List (Nat × Ns) :=
  s.nss.ns.filterMap (fun e => match e.2 with | some n => some (e.1, n) | none => none)

/-- The namespaces attached to function `f`. -/
def State.nsOf (s : State) (f : Nat) : List (Nat × Ns) := s.nsList.filter (fun e => e.2.attached == some f)

/-- Bytes per logical block of an LBA format (R128). -/
def lbaBytes (lbaf : Nat) : Nat := if lbaf ≤ 2 then 4096 else 512

/-- Metadata bytes per logical block of an LBA format (R128). -/
def metaBytes (lbaf : Nat) : Nat := match lbaf with | 1 => 8 | 2 => 16 | 4 => 8 | _ => 0

/-- The key of a namespace unit (R248). -/
def unitKey (nsid u : Nat) : Nat := nsid * 2 ^ 40 + u

/-- The model's key of unit `i` of a stored chunk: bit 62 set, beyond every namespace unit's key. The key of an extent is that of
its first unit. -/
def chunkKey (c i : Nat) : Nat := 2 ^ 62 + c * 256 + i

/-- The key names a chunk's unit. -/
def isChunkKey (k : Nat) : Bool := decide (2 ^ 62 ≤ k)

/-- The stored chunk that a chunk's unit key names. -/
def chunkOf (k : Nat) : Nat := (k - 2 ^ 62) / 256

/-- The extent of its chunk that a chunk's unit key lies in. -/
def extOf (k : Nat) : Nat := (k - 2 ^ 62) % 256 / 64

/-- The key of the map entry that covers a unit: the unit's own, or that of its extent's first unit (R246). -/
def entryOf (k : Nat) : Nat := if isChunkKey k then k / 64 * 64 else k

/-- The 8-byte key of a map entry (R248). -/
def entryKey (k : Nat) : Nat := if isChunkKey k then 2 ^ 63 + 4 * chunkOf k + extOf k else k

/-- The 8-byte key of an object extent entry (R248). -/
def objExtKey (tableIndex e : Nat) : Nat := 2 ^ 62 + tableIndex * 2 ^ 24 + e

/-- The granule a namespace unit lies in; a metadata unit's own (R253). -/
def unitGranule (u : Nat) : Nat := if 2 ^ 36 ≤ u then u - 2 ^ 36 else u / 64

/-! ### Chunks -/

/-- Chunk `c`. -/
def State.chunk (s : State) (c : Nat) : Option Chunk := Mem.get none s.objs.chunks c

/-- The state with chunk `c` set. -/
def State.setChunk (s : State) (c : Nat) (x : Option Chunk) : State :=
  { s with objs := { s.objs with chunks := Mem.set none s.objs.chunks c x } }

/-- Bytes of a chunk in extent `e` (R43). -/
def Chunk.extBytes (x : Chunk) (e : Nat) : Nat := Nat.min 262144 (x.len - e * 262144)

/-- Valid bytes of a unit (R23): only the last unit of an object can hold fewer than 4,096. -/
def State.unitLen (s : State) (k : Nat) : Nat :=
  if isChunkKey k then
    match s.chunk (chunkOf k) with
    | some x => Nat.min 4096 (x.len - (k - 2 ^ 62) % 256 * 4096)
    | none => 4096
  else 4096

/-- The units of a map entry that hold data: a namespace unit, or the filled units of an extent (R43, R246). -/
def State.entryUnits (s : State) (k : Nat) : List Nat :=
  if isChunkKey k then
    match s.chunk (chunkOf k) with
    | some x => (List.range (ceilDiv (x.extBytes (extOf k)) 4096)).map (fun i => entryOf k + i)
    | none => []
  else [k]

/-- Units a map entry stands for on flash: an extent is 64, a namespace unit 1 (R237, R246). -/
def keyUnits (k : Nat) : Nat := if isChunkKey k then 64 else 1

/-! ### What is stored of a unit -/

/-- The unit key of the codeword (R240). -/
def codeKey (k len : Nat) : Nat :=
  (if isChunkKey k then (k - 2 ^ 62) + 2 ^ 60 else k / 2 ^ 40 * 2 ^ 37 + k % 2 ^ 37) + (len - 1) * 2 ^ 48

/-- The word of the buffer ledger (R531): the unit key with bit [62] set. -/
def ledgerWord (k len : Nat) : Nat := codeKey k len + 2 ^ 62

/-- The unit that a unit key names (R240, R531), as the model's key. -/
def ledgerKey (w : Nat) : Nat :=
  if field w 61 60 = 1 then 2 ^ 62 + field w 47 0 else unitKey (field w 47 37) (field w 36 0)

/-- The XTS data-unit number of a unit (R44, R367). -/
def dataUnit (k : Nat) : Nat := if isChunkKey k then k - 2 ^ 62 else 2 ^ 127 + k

/-- The media key under which a unit is stored: its namespace's key owner's, or its tenant's (R171, R359). -/
def State.mediaKeyOf (s : State) (k : Nat) : Option Bytes :=
  if isChunkKey k then (s.chunk (chunkOf k)).bind (fun x => (s.fn x.func).mediaKey)
  else ((s.ns (k / 2 ^ 40)).bind (·.keyOwner)).bind (fun f => (s.fn f).mediaKey)

/-- The tag trailer of a unit at rest, its GEN 0 (R23, R25, R45). -/
def State.restTrailer (s : State) (k : Nat) : Trailer :=
  if isChunkKey k then
    match s.chunk (chunkOf k) with
    | some x => { unitNo := x.originIndex * 256 + (k - 2 ^ 62) % 256, objId := x.originObj, nsid := x.originNs, func := x.func
                  len := s.unitLen k }
    | none => { unitNo := 0 }
  else { unitNo := k % 2 ^ 40, nsid := k / 2 ^ 40
         func := match (s.ns (k / 2 ^ 40)).bind (·.keyOwner) with | some f => f | none => 0 }

/-! ### Dies, quads and superblocks -/

/-- Die `d`. -/
def State.die (s : State) (d : Nat) : Die := Mem.get {} s.flash.dies d

/-- The state with die `d` changed. -/
def State.updDie (s : State) (d : Nat) (g : Die → Die) : State :=
  { s with flash := { s.flash with dies := Mem.upd {} s.flash.dies d g } }

/-- The four dies of a quad (R236). -/
def quadDies (q : Nat) : List Nat := (List.range 4).map (fun m => 16 * (q / 4) + q % 4 + 4 * m)

/-- The quad of a die (R236). -/
def dieQuad (d : Nat) : Nat := 4 * (d / 16) + d % 4

/-- The channel of a die (R236). -/
def dieChannel (d : Nat) : Nat := d % 16

/-- The die lies on a channel that the FLASH section uses and that is not withdrawn (R273, R545). -/
def State.channelOn (s : State) (d : Nat) : Bool :=
  s.flash.cfg.chanEn.getLsbD (dieChannel d) && !s.psm.halt.withdrawn.contains (.flash (dieChannel d))

/-- Every die of the quad is in service on a channel in use (R236, R268, R273). -/
def State.quadUsed (s : State) (q : Nat) : Bool := (quadDies q).all (fun d => (s.die d).state == 1 && s.channelOn d)

/-- The quads used. -/
def State.quads (s : State) : List Nat := (List.range 128).filter s.quadUsed

/-- The least free-block count of a quad's dies (R261). -/
def State.quadFree (s : State) (q : Nat) : Nat := ((quadDies q).map (fun d => (s.die d).free)).foldl Nat.min 1000000

/-- Superblocks a quad has: good blocks less spares, the least of its dies (R635). -/
def State.quadBlocks (s : State) (q : Nat) : Nat :=
  ((quadDies q).map (fun d => (s.die d).good - (s.die d).spareFirst)).foldl Nat.min 1000000

/-- The key of a superblock in the superblock table. -/
def sbKey (q sb : Nat) : Nat := q * 2 ^ 17 + sb

/-- A superblock. -/
def State.sb (s : State) (k : Nat) : Sb := Mem.get {} s.flash.sbs k

/-- The state with a superblock changed. -/
def State.updSb (s : State) (k : Nat) (g : Sb → Sb) : State :=
  { s with flash := { s.flash with sbs := Mem.upd {} s.flash.sbs k g } }

/-- The physical unit address (R245). -/
def paddrOf (k u : Nat) : Nat := k * 2 ^ 16 + u

/-- The superblock a physical unit address lies in. -/
def paddrSb (p : Nat) : Nat := p / 2 ^ 16

/-- The member of its superblock that a physical unit address lies on (R237). -/
def paddrMember (p : Nat) : Nat := p % 2 ^ 16 / 16 % 4

/-- The die of a physical unit address (R237). -/
def paddrDie (p : Nat) : Nat := nth 0 (quadDies (p / 2 ^ 33)) (paddrMember p)

/-- The i-th block of a die that was good as manufactured. -/
def Die.goodBlock (d : Die) (i : Nat) : Nat := d.bad.foldl (fun n b => if b ≤ n then n + 1 else n) i

/-- The block numbers of a superblock's members (R237): as its table entry lists them, or, before its first opening, the good block
of its own number on each die (log 82). -/
def State.memberBlocks (s : State) (k : Nat) : List Nat :=
  if (s.sb k).members.isEmpty then (quadDies (k / 2 ^ 17)).map (fun d => (s.die d).goodBlock (k % 2 ^ 17)) else (s.sb k).members

/-- The key of a block in the tables of blocks. -/
def blockKey (d b : Nat) : Nat := d * 2 ^ 20 + b

/-- The block of member `m` of a superblock. -/
def State.memberKey (s : State) (k m : Nat) : Nat := blockKey (nth 0 (quadDies (k / 2 ^ 17)) m) (nth 0 (s.memberBlocks k) m)

/-- The place of a physical unit address on its die (R237): its block, and its unit index there. -/
def State.cellKey (s : State) (p : Nat) : Nat :=
  s.memberKey (paddrSb p) (paddrMember p) * 2 ^ 14 + (p % 2 ^ 16 / 64 * 16 + p % 16)

/-- What is programmed at a physical unit address. -/
def State.cell (s : State) (p : Nat) : Option Codeword := Mem.get none s.flash.cells (s.cellKey p)

/-- Codewords programmed at consecutive physical unit addresses; a place without one stays as it is. -/
def State.setCells (s : State) : Nat → List (Option Codeword) → State
  | _, [] => s
  | p, none :: ws => s.setCells (p + 1) ws
  | p, some w :: ws =>
    { s with flash := { s.flash with cells := Mem.set none s.flash.cells (s.cellKey p) (some w) } }.setCells (p + 1) ws

/-- What a superblock is run for: the SLC write buffer, the hot tier, map and journal pages, or native mode (R250, R254, R257). -/
inductive SbUse where
  | write | hot | metadata | native
  deriving DecidableEq, Repr

/-- The superblock is run for a use. -/
def Sb.isFor (b : Sb) (u : SbUse) : Bool := b.slc == (u != .native) && b.hot == (u == .hot) && b.metadata == (u == .metadata)

/-- Units a superblock holds in its mode (R237, R254). -/
def State.sbCap (s : State) (q : Nat) (slc : Bool) : Nat :=
  if slc then s.flash.sbUnits / Nat.max 1 (s.die (nth 0 (quadDies q) 0)).cell else s.flash.sbUnits

/-- Superblocks of a quad's SLC write buffer (R254) or hot tier (R257). -/
def State.slcLimit (s : State) (hot : Bool) : Nat :=
  s.flash.blocks * (if hot then s.flash.cfg.hotTier else s.nvs.slcSlice) / 1000

/-- Superblocks of a quad that are in use for something. -/
def State.sbsInUse (s : State) (q : Nat) (u : SbUse) : Nat :=
  s.flash.sbs.countP (fun e => e.1 / 2 ^ 17 == q && e.2.isFor u && (e.2.state == .opened || e.2.state == .closed))

/-- The quad may open another superblock for a use (R254, R257). -/
def State.mayOpen (s : State) (q : Nat) (u : SbUse) : Bool :=
  match u with
  | .write => decide (s.sbsInUse q .write < s.slcLimit false)
  | .hot => decide (s.sbsInUse q .hot < s.slcLimit true)
  | _ => true

/-- The free superblock of a quad with the lowest erase count (R264); an unlisted superblock is free and never erased. -/
def State.freeSb (s : State) (q : Nat) : Option Nat :=
  let n := s.quadBlocks q
  let listed := s.flash.sbs.filter (fun e => e.1 / 2 ^ 17 == q)
  match (List.range (Nat.min n (listed.length + 1))).find? (fun i => !listed.any (fun e => e.1 == sbKey q i)) with
  | some i => some i
  | none =>
    let free := listed.filter (fun e => e.2.state == .free)
    (free.foldl (fun (b : Option (Nat × Nat)) e => match b with
      | some x => if x.2 ≤ e.2.erases then b else some (e.1 % 2 ^ 17, e.2.erases)
      | none => some (e.1 % 2 ^ 17, e.2.erases)) none).map (·.1)

/-- A superblock is closed: it takes its place in the order of closing (R261). -/
def State.closeSb (s : State) (k : Nat) : State :=
  let s1 := s.updSb k (fun b => { b with state := .closed, closedAt := s.flash.closeClock })
  { s1 with flash := { s1.flash with closeClock := s1.flash.closeClock + 1 } }

/-- A free superblock is opened for a use. -/
def State.openSb (s : State) (k : Nat) (u : SbUse) : State :=
  let ms := s.memberBlocks k
  (quadDies (k / 2 ^ 17)).foldl (fun s d => s.updDie d (fun x => { x with free := x.free - 1 }))
    (s.updSb k (fun b => { b with
      state := .opened, slc := u != .native, hot := u == .hot, metadata := u == .metadata, members := ms, fill := 0
      reads := [0, 0, 0, 0] }))

/-- Room for `n` units in a quad, from a place that is a multiple of `a` (log 82): the open superblock of the use; when that has no
room it is closed and a free one is opened (R254, R257, R264). -/
def State.placeIn (s : State) (q : Nat) (u : SbUse) (n a : Nat) : Option (State × Nat × Nat) :=
  let cap := s.sbCap q (u != .native)
  let opened := s.flash.sbs.find? (fun e => e.1 / 2 ^ 17 == q && e.2.state == .opened && e.2.isFor u)
  let fresh := fun (s : State) =>
    if s.mayOpen q u && decide (n ≤ cap) then (s.freeSb q).map (fun i => (s.openSb (sbKey q i) u, sbKey q i, 0)) else none
  match opened with
  | some e =>
    if ceilDiv e.2.fill a * a + n ≤ cap then some (s, e.1, ceilDiv e.2.fill a * a) else fresh (s.closeSb e.1)
  | none => fresh s

/-- Host writes may take the blocks that GC_URGENT keeps from them: those of commands accepted before the write stop, and those of
a drain, in which nothing is collected (R271, R274). -/
def State.mayUseReserve (s : State) : Bool := s.flash.readOnly || s.psm.mode == .drain || s.psm.mode == .safeHalt

/-- Room for `n` units in some quad of those allowed (R261): quads at or above GC_URGENT first, and for host writes only those, the lowest number
first (log 15). -/
def State.place (s : State) (u : SbUse) (n a : Nat) (allow : Nat → Bool) : Option (State × Nat × Nat) :=
  let qs := s.quads.filter allow
  let good := qs.filter (fun q => decide (s.flash.cfg.gcUrgent ≤ s.quadFree q))
  (if u == .write && !s.mayUseReserve then good else good ++ qs.filter (fun q => !good.contains q)).findSome?
    (fun q => s.placeIn q u n a)

/-- A superblock is filled up to a unit; full, it is closed. -/
def State.fillSb (s : State) (k upTo : Nat) : State :=
  let s1 := s.updSb k (fun b => { b with fill := upTo })
  if s1.sbCap (k / 2 ^ 17) (s.sb k).slc ≤ upTo then s1.closeSb k else s1

/-- Page reads at some addresses are counted on their member blocks (R265): one for each run of 16 units, the counters 32 bits. -/
def State.countPages (s : State) (ps : List Nat) : State :=
  (nubNat (ps.map (· / 16))).foldl (fun s r => s.updSb (paddrSb (16 * r)) (fun b => { b with
    reads := b.reads.modify (paddrMember (16 * r)) (fun n => Nat.min (n + 1) 0xFFFFFFFF) })) s

/-! ### Map and journal pages -/

/-- The tag trailer of a map or journal page (log 88). -/
def pageTrailer (seq : Nat) : Trailer := { unitNo := seq }

/-- A map or journal page as stored (R240, R367): KIND 2 or 3, XTS under the device metadata key. -/
def pageWord (key : Bytes) (kind seq : Nat) (page : Bytes) : Codeword :=
  { data := aesXts false key (2 ^ 126 + seq) page, tag := integrityTag page (pageTrailer seq)
    key := BitVec.ofNat 64 (seq % 2 ^ 48 + 0xFFF * 2 ^ 48 + kind * 2 ^ 60) }

/-- Pages are programmed to an SLC metadata superblock (R250, R251); the answer carries their addresses, none when nothing may be
programmed now. -/
def State.programPages (s : State) (kind : Nat) (pages : List Bytes) : State × List Nat :=
  match s.nss.metaKey, s.place .metadata pages.length 16 (fun _ => true) with
  | some key, some (s1, k, start) =>
    if !s.mayProgram then (s, [])
    else
      let seq := s1.nss.pageSeq
      let s2 := s1.setCells (paddrOf k start) (pages.zipIdx.map (fun p => some (pageWord key kind (seq + p.2) p.1)))
      let s3 := s2.fillSb k (start + pages.length)
      ({ s3 with nss := { s3.nss with pageSeq := seq + pages.length } }, (List.range pages.length).map (fun i => paddrOf k start + i))
  | _, _ => (s, [])

/-- The contents of a map or journal page on flash; none when it does not read back. -/
def State.readPage (s : State) (p : Nat) : Option Bytes :=
  match s.nss.metaKey, s.cell p with
  | some key, some w =>
    let seq := field w.key.toNat 47 0
    let d := aesXts true key (2 ^ 126 + seq) w.data
    if integrityTag d (pageTrailer seq) = w.tag then some d else none
  | _, _ => none

/-- A journal record: the entry's key and its new value, 16 bytes (R251). -/
def recordBytes (r : Nat × Nat) : Bytes := leBytes 8 r.1 ++ leBytes 8 r.2

/-- The map journal programs its oldest `n` records (R251). -/
def State.programJournal (s : State) (n : Nat) : State :=
  let rs := s.nss.journal.take n
  if rs.isEmpty then s
  else
    let r := s.programPages 3 ((chunksOf 256 rs).map (fun g => padTo 4096 (g.map recordBytes).flatten))
    if r.2.isEmpty then s
    else { r.1 with nss := { r.1.nss with journal := s.nss.journal.drop n, journalPages := s.nss.journalPages ++ r.2 } }

/-! ### Map entries -/

/-- STATE of a map entry (R246). -/
def UState.code : UState → Nat
  | .unmapped => 0 | .flash => 1 | .buffer => 2 | .lost => 3

/-- STATE as read from a map entry (R246). -/
def UState.ofCode : Nat → UState
  | 1 => .flash | 2 => .buffer | 3 => .lost | _ => .unmapped

/-- Bytes 0 to 5 of a map entry (R246). -/
def MapEntry.body (e : MapEntry) : Nat := e.paddr % 2 ^ 40 + e.state.code * 2 ^ 40 + flag e.slc * 2 ^ 42 + flag e.hot * 2 ^ 43

/-- CHECK of an entry, over its bytes 0 to 5 and its key (R248). -/
def mapCheck (body key : Nat) : BitVec 16 := crc16 (leBytes 6 body ++ leBytes 8 key)

/-- A map entry with its CHECK (R248); one that is UNMAPPED holds none (log 80). -/
def MapEntry.seal (e : MapEntry) (key : Nat) : MapEntry :=
  if e.state = .unmapped then {} else { e with check := mapCheck e.body key }

/-- The CHECK of a map entry holds (R248). -/
def MapEntry.ok (e : MapEntry) (key : Nat) : Bool := e.state == .unmapped || e.check == mapCheck e.body key

/-- A map entry as 8 bytes (R246). -/
def MapEntry.word (e : MapEntry) : Nat := e.body + e.check.toNat * 2 ^ 48

/-- A map entry as read back from a map page or the journal: the hot table did not survive, so HOT is 0. -/
def MapEntry.ofWord (w key : Nat) : MapEntry :=
  ({ state := UState.ofCode (field w 41 40), paddr := field w 39 0, slc := bit w 42 } : MapEntry).seal key

/-- The map entry that covers a unit (R246). -/
def State.entry (s : State) (k : Nat) : MapEntry :=
  if isChunkKey k then
    match s.chunk (chunkOf k) with
    | some x => nth {} x.exts (extOf k)
    | none => {}
  else Mem.get {} s.nss.units k

/-- The state with the map entry that covers a unit replaced; the journal is not told. -/
def State.putEntry (s : State) (k : Nat) (e : MapEntry) : State :=
  if isChunkKey k then
    match s.chunk (chunkOf k) with
    | some x => s.setChunk (chunkOf k) (some { x with exts := x.exts.set (extOf k) (e.seal (entryKey k)) })
    | none => s
  else { s with nss := { s.nss with units := Mem.set {} s.nss.units k (e.seal k) } }

/-- The object of an object table index. -/
def State.objAt (s : State) (i : Nat) : Option Obj := s.objs.objects.find? (fun o => o.tableIndex == i)

/-- An object extent entry as 8 bytes, MAPPED set (R247). -/
def extWord (x : Nat × BitVec 16) : Nat := x.1 + 2 ^ 42 + x.2.toNat * 2 ^ 48

/-- An object extent entry that names a stored chunk's extent, with its CHECK (R247, R248). -/
def extEntry (tableIndex e ext : Nat) : Nat × BitVec 16 := (ext, mapCheck (ext + 2 ^ 42) (objExtKey tableIndex e))

/-- The 8 bytes of the map entry with a key (R246 to R248). -/
def State.mapWordAt (s : State) (v : Nat) : Nat :=
  if 2 ^ 63 ≤ v then (s.entry (chunkKey ((v - 2 ^ 63) / 4) (64 * ((v - 2 ^ 63) % 4)))).word
  else if 2 ^ 62 ≤ v then
    match s.objAt ((v - 2 ^ 62) / 2 ^ 24) with
    | some o => (match o.extents[(v - 2 ^ 62) % 2 ^ 24]? with | some x => extWord x | none => 0)
    | none => 0
  else (s.entry v).word

/-- A map page: 512 entries (R250). -/
def State.mapPage (s : State) (p : Nat) : Bytes := ((List.range 512).map (fun i => leBytes 8 (s.mapWordAt (512 * p + i)))).flatten

/-- A map page is written back, and the directory names its new place (R250). -/
def State.writePage (s : State) (p : Nat) : State :=
  match s.programPages 2 [s.mapPage p] with
  | (s1, a :: _) => { s1 with nss := { s1.nss with directory := Mem.set none s1.nss.directory p (some a) } }
  | (_, []) => s

/-- Pages the map cache holds (R213, R250). -/
def State.cachePages (s : State) : Nat := Nat.max 1 (s.dram.mapCacheNow * 2 ^ 18)

/-- CLOCK (R250): the hand passes pages used since it last came by, clearing their marks. -/
def clockTurn : Nat → List CachedPage → List CachedPage
  | n + 1, p :: ps => if p.used then clockTurn n (ps ++ [{ p with used := false }]) else p :: ps
  | _, ps => ps

/-- The page that CLOCK chooses leaves the cache, written back when it is dirty. -/
def State.evictPage (s : State) : State :=
  match clockTurn s.nss.cache.length s.nss.cache with
  | [] => s
  | v :: rest =>
    let s1 := if v.dirty then s.writePage v.page else s
    { s1 with nss := { s1.nss with cache := rest } }

/-- The map page of an entry is used: one absent from the map cache is read from flash (R250). -/
def State.touchPage (s : State) (p : Nat) (dirty : Bool) : State :=
  if s.nss.cache.any (fun c => c.page == p) then
    { s with nss := { s.nss with cache := s.nss.cache.map (fun (c : CachedPage) =>
        if c.page = p then { c with used := true, dirty := c.dirty || dirty } else c) } }
  else
    let s1 := if s.nss.cache.length < s.cachePages then s else s.evictPage
    let s2 := match Mem.get none s1.nss.directory p with
      | some a => s1.countPages [a]
      | none => s1
    { s2 with nss := { s2.nss with cache := s2.nss.cache ++ [{ page := p, dirty := dirty, used := true }] } }

/-- A map change is appended to the journal (R251), and its page is dirty (R250); in a pair its granule is noted (R590). A full
area first programs its oldest 256 KiB (log 79). -/
def State.journalRecord (s : State) (key word : Nat) : State :=
  let g := (key / 2 ^ 40, unitGranule (key % 2 ^ 40))
  let s1 := if s.nss.journal.length < 65536 then s else s.programJournal 16384
  { s1 with nss := { s1.nss with
      journal := s1.nss.journal ++ [(key, word)]
      changed := if 2 ^ 62 ≤ key || s1.swl.cfg.isNone || s1.nss.changed.contains g then s1.nss.changed
        else s1.nss.changed ++ [g] } }.touchPage (key / 512) true

/-- The map entry that covers a unit changes (R246, R248, R251). -/
def State.setEntry (s : State) (k : Nat) (e : MapEntry) : State :=
  (s.putEntry k e).journalRecord (entryKey k) (e.seal (entryKey k)).word

/-- The map entry with a key, as a map page or the journal gives it back (R251). -/
def State.applyWord (s : State) (r : Nat × Nat) : State :=
  if r.1 = 0 then s
  else if 2 ^ 63 ≤ r.1 then
    s.putEntry (chunkKey ((r.1 - 2 ^ 63) / 4) (64 * ((r.1 - 2 ^ 63) % 4))) (MapEntry.ofWord r.2 r.1)
  else if 2 ^ 62 ≤ r.1 then
    let i := (r.1 - 2 ^ 62) / 2 ^ 24
    let e := (r.1 - 2 ^ 62) % 2 ^ 24
    let x := (field r.2 41 0, BitVec.ofNat 16 (field r.2 63 48))
    let put := fun (l : List (Nat × BitVec 16)) =>
      if !bit r.2 42 then l.take e
      else if e < l.length then l.set e x
      else if e = l.length then l ++ [x] else l
    { s with objs := { s.objs with objects := s.objs.objects.map (fun (o : Obj) =>
        if o.tableIndex = i then { o with extents := put o.extents } else o) } }
  else s.putEntry r.1 (MapEntry.ofWord r.2 r.1)

/-- The entries of a map page as records. -/
def pageRecords (p : Nat) (bs : Bytes) : List (Nat × Nat) :=
  ((List.range 512).map (fun i => (512 * p + i, leAt bs (8 * i) 8))).filter (fun r => r.2 != 0)

/-- The records of a journal page. -/
def journalRecords (bs : Bytes) : List (Nat × Nat) := (List.range 256).map (fun i => (leAt bs (16 * i) 8, leAt bs (16 * i + 8) 8))

/-- What the last checkpoint and the records since hold, oldest first (R251); a page that does not read back gives nothing (log
85). -/
def State.mapRecords (s : State) : List (Nat × Nat) :=
  (s.nss.checkpointed.map (fun e => match e.2.bind s.readPage with
    | some bs => pageRecords e.1 bs
    | none => [])).flatten ++
  (s.nss.journalPages.map (fun p => match s.readPage p with
    | some bs => journalRecords bs
    | none => [])).flatten ++ s.nss.journal

/-- What DRAM held of the maps goes with its power: the maps, the map cache, the directory and the hot table (R250, R257). -/
def State.forgetMaps (s : State) : State :=
  { s with
    nss := { s.nss with units := [], cache := [], directory := [] }
    flash := { s.flash with hot := [] }
    objs := { s.objs with
      chunks := Mem.mapAll none (fun x => x.map (fun (x : Chunk) => { x with exts := List.replicate 4 {} })) s.objs.chunks
      objects := s.objs.objects.map (fun o => { o with extents := [] }) } }

/-- The maps are loaded from the last checkpoint and the records since (R251). -/
def State.replayMaps (s : State) : State :=
  s.mapRecords.foldl State.applyWord { s with nss := { s.nss with directory := s.nss.checkpointed } }

end Sys2Proof.Machine
end

