-- ==== Sys2Proof/Machine/Media.lean ====
section
/-! DEFINITION. The protected buffer, flash operations issued and ended, reads for commands and for copies, and the failures of
blocks and dies (R16, R24 to R27, R141, R237 to R272, R529 to R531). -/

namespace Sys2Proof.Machine

/-! ### The protected buffer -/

/-- The slots the journal area leaves for data: 16 MiB less 1 MiB (R16, R251; log 14). -/
def dataSlots : Nat := 3840

/-- A slot is free. -/
def State.slotFree (s : State) (i : Nat) : Bool := (Mem.get none s.nss.slots i).isNone

/-- The lowest free slot: among the first ones, as many as are listed plus one. -/
def State.freeSlot (s : State) : Option Nat :=
  ((List.range (s.nss.slots.length + 1)).find? s.slotFree).bind (fun i => if i < dataSlots then some i else none)

/-- The runs of 64 slots that an extent may take (log 82): each begins at a multiple of 64 and is free. -/
def State.freeRuns (s : State) : List Nat :=
  ((List.range (dataSlots / 64)).map (64 * ·)).filter (fun i => (List.range 64).all (fun j => s.slotFree (i + j)))

/-- Units of data that have moved into the buffer and not yet committed (R141). -/
def State.movedUnits (s : State) : Nat :=
  (s.inflight.filter (fun e => e.2.moved && e.2.result.isNone)).foldl (fun n e => n + ceilDiv e.2.data.length 4096) 0

/-- The buffer has room for `n` more units (R255). -/
def State.hasRoom (s : State) (n : Nat) : Bool := decide (s.nss.slots.length + s.movedUnits + n ≤ dataSlots)

/-- The buffer has room for `n` more extents (R246, R255). -/
def State.hasRuns (s : State) (n : Nat) : Bool := s.hasRoom (64 * n) && decide (n ≤ s.freeRuns.length)

/-- Each of `n` units that commit now finds a slot (R16, R141). -/
def State.slotsFor (s : State) (n : Nat) : Bool := decide (s.nss.slots.length + n ≤ dataSlots)

/-- The slot of a unit whose map entry is in state BUFFER (R246). -/
def State.slotOf (s : State) (k : Nat) : Nat := (s.entry k).paddr + (k - entryOf k)

/-- A slot is taken for a unit. -/
def State.takeSlot (s : State) (slot k : Nat) : State :=
  { s with nss := { s.nss with slots := Mem.set none s.nss.slots slot (some k) } }

/-- A unit's data go into a slot: its bytes and its tag, with GEN of the function that wrote it, into the SPL, and its word into
the ledger (R16, R23, R531). -/
def State.fillSlot (s : State) (slot k : Nat) (data : Bytes) (gen : Nat) : State :=
  let t := integrityTag data { s.restTrailer k with gen := gen }
  let s1 := (s.splWrite (4096 * slot) (padTo 4096 data)).setTag slot (some t)
  { s1 with nss := { s1.nss with
      slotGen := Mem.set 0 s1.nss.slotGen slot gen
      ledger := Mem.set none s1.nss.ledger slot (some (ledgerWord k (s.unitLen k))) } }

/-- Releases a slot and clears its ledger word; after the fence the ledger word stays (R529, R531). -/
def State.freeSlotAt (s : State) (slot : Nat) : State :=
  { s with nss := { s.nss with
      slots := Mem.set none s.nss.slots slot none
      ledger := if s.mayWriteNvs then Mem.set none s.nss.ledger slot none else s.nss.ledger } }

/-- The slots of a map entry in state BUFFER. -/
def State.entrySlots (s : State) (k : Nat) : List Nat :=
  if isChunkKey k then (List.range 64).map (fun i => (s.entry k).paddr + i) else [(s.entry k).paddr]

/-- An operation in progress programs this map entry from this slot. -/
def State.programming (s : State) (k slot : Nat) : Bool :=
  s.flash.ops.any (fun o => match o.2 with
    | some op => (match op.kind with | .program _ _ => op.units.contains (k, slot) | _ => false)
    | none => false)

/-- The slots of an entry in state BUFFER are released, unless a program from them is in progress. -/
def State.dropBuffer (s : State) (k : Nat) : State :=
  let e := s.entry k
  if e.state = .buffer ∧ !s.programming (entryOf k) e.paddr then (s.entrySlots k).foldl State.freeSlotAt s else s

/-- Commits a namespace unit's data to the protected buffer (R141): a new slot, the map entry in state BUFFER, a journal record. -/
def State.putUnit (s : State) (k : Nat) (data : Bytes) (gen : Nat) : State :=
  match s.freeSlot with
  | none => s
  | some slot => (((s.dropBuffer k).takeSlot slot k).fillSlot slot k data gen).setEntry k { state := .buffer, paddr := slot }

/-- Sets a map entry UNMAPPED (R252). -/
def State.unmap (s : State) (k : Nat) : State :=
  if (s.entry k).state = .unmapped then s else (s.dropBuffer k).setEntry k {}

/-- Sets a map entry LOST; the count rises by one for each of its units (R243, log 85). -/
def State.loseUnit (s : State) (k : Nat) : State :=
  let n := (s.entryUnits k).length
  { s with nss := { s.nss with mediaErrors := s.nss.mediaErrors + n } }.setEntry k { state := .lost }

/-! ### Tags, keys and ciphertext -/

/-- What a unit's codeword gives at the output of XTS decryption (R24, R249). -/
inductive DecodeResult where
  | data (d : Bytes) | badKey | badTag
  deriving DecidableEq, Repr

/-- A codeword read for a map entry: its unit key is compared (R249), its tag takes the reader's fields (R25, R45), and the CRC is
checked on the plaintext (R24). -/
def State.decodeUnit (s : State) (k : Nat) (w : Codeword) (reader : Trailer) : DecodeResult :=
  let d := aesXts true ((s.mediaKeyOf k).getD []) (dataUnit k) w.data
  if w.key ≠ BitVec.ofNat 64 (codeKey k (s.unitLen k)) then .badKey
  else if (s.mediaKeyOf k).isNone ∨ integrityTag d reader ≠ retag w.tag (s.restTrailer k) reader then .badTag
  else .data (padTo (s.unitLen k) d)

/-- A unit on its way to flash (R24, R25, R240): encrypted, its tag's GEN 0, with its unit key. -/
def State.encodeUnit (s : State) (k : Nat) (key data : Bytes) (tag : BitVec 64) (gen : Nat) : Codeword :=
  { data := aesXts false key (dataUnit k) (padTo 4096 data)
    tag := retag tag { s.restTrailer k with gen := gen } (s.restTrailer k)
    key := BitVec.ofNat 64 (codeKey k (s.unitLen k)) }

/-- What a buffered unit reads as. -/
inductive Buffered where
  | data (d : Bytes) (tag : BitVec 64) | unreadable | badTag
  deriving DecidableEq, Repr

/-- A buffered unit with its tag, checked (R14, R26). -/
def State.readBuffer (s : State) (k : Nat) : Buffered :=
  let slot := s.slotOf k
  match s.splRead (4096 * slot) (s.unitLen k), Mem.get none s.dmf.tags slot with
  | none, _ => .unreadable
  | some d, t =>
    let want := integrityTag d { s.restTrailer k with gen := Mem.get 0 s.nss.slotGen slot }
    if t = some want then .data d want else .badTag

/-! ### Flash operations -/

/-- Starts a flash operation. -/
def State.startOp (s : State) (op : FlashOp) : State :=
  { s with flash := { s.flash with ops := Mem.set none s.flash.ops s.flash.nextOp (some op), nextOp := s.flash.nextOp + 1 } }

/-- A flash operation in progress. -/
def State.op (s : State) (i : Nat) : Option FlashOp := Mem.get none s.flash.ops i

/-- The state with a flash operation set or ended. -/
def State.setOp (s : State) (i : Nat) (op : Option FlashOp) : State :=
  { s with flash := { s.flash with ops := Mem.set none s.flash.ops i op } }

/-- At throttle level 2 at most 64 flash programs are in progress at once (R622); DRAIN and the safe drain are not throttled (R627). -/
def State.programCap (s : State) : Bool :=
  s.therm.level == 2 && s.psm.mode != .drain && s.psm.mode != .safeHalt &&
    decide (64 ≤ s.flash.ops.countP (fun o => match o.2 with
      | some op => (match op.kind with | .program _ _ => true | _ => false)
      | none => false))

/-- One map entry of a program: its key, the slot or address it comes from, and what is programmed. -/
abbrev ProgEntry := Nat × Nat × List (Option Codeword)

/-- Starts a program of some entries to a fresh place, extents before single units (R237, R254, R262); nothing starts after the
fence or under write-protect (R529). -/
def State.startProgram (s : State) (u : SbUse) (purpose : Nat) (es : List ProgEntry) (allow : Nat → Bool) : State :=
  let es := es.filter (fun e => isChunkKey e.1) ++ es.filter (fun e => !isChunkKey e.1)
  let ws := (es.map (·.2.2)).flatten
  if !s.mayProgram || ws.isEmpty || s.programCap then s
  else match s.place u ws.length (if es.any (fun e => isChunkKey e.1) then 64 else 16) allow with
    | none => s
    | some (s1, k, start) =>
      (s1.fillSb k (start + ws.length)).startOp
        { kind := .program (u != .native) purpose, die := paddrDie (paddrOf k start), quad := k / 2 ^ 17, sb := k % 2 ^ 17
          units := es.map (fun e => (e.1, e.2.1)), dest := paddrOf k start, words := ws }

/-- A checker on the way to flash finds a unit that cannot be sent (R14, R24, R26, R27): it is recorded, and as the data was
acknowledged the unit is LOST. -/
def State.spoiled (s : State) (k : Nat) (b : Buffered) : State :=
  let t := s.restTrailer k
  let s1 := match b with
    | .unreadable => s.splError (4096 * s.slotOf k)
    | _ => s.reportTag 0x0AFF t.func t.nsid t.unitNo
  (s1.dropBuffer k).loseUnit k

/-- The first unit of an entry in the buffer that fails its check. -/
def State.badUnit (s : State) (k : Nat) : Option (Nat × Buffered) :=
  (s.entryUnits k).findSome? (fun u => match s.readBuffer u with
    | .data _ _ => none
    | b => some (u, b))

/-- What is programmed of an entry in the buffer. -/
def State.bufferWords (s : State) (k : Nat) (key : Bytes) : List (Option Codeword) :=
  let ws := (s.entryUnits k).map (fun u => match s.readBuffer u with
    | .data d t => some (s.encodeUnit u key d t (Mem.get 0 s.nss.slotGen (s.slotOf u)))
    | _ => none)
  ws ++ List.replicate (keyUnits k - ws.length) none

/-- The deduplication of the chunk that a unit belongs to has been decided (R67): no object holds it without a digest, or to be
compared. -/
def State.decided (s : State) (k : Nat) : Bool :=
  !isChunkKey k || s.objs.objects.all (fun o => o.chunks.all (fun r => r.chunk != chunkOf k || (r.hashed && r.verifyWith.isNone)))

/-- The map entries in state BUFFER that no program in progress takes from their slots, each with its first slot: extents that are
not full, and those of chunks whose deduplication is not decided (R67), only when `force` is set. -/
def State.waitingEntries (s : State) (force : Bool) : List (Nat × Nat) :=
  s.nss.slots.filterMap (fun e => match e.2 with
    | some k =>
      if entryOf k = k ∧ (s.entry k).state = .buffer ∧ (s.entry k).paddr = e.1 ∧ !s.programming k e.1 ∧ (s.mediaKeyOf k).isSome ∧
        (force ∨ ((s.entryUnits k).length = keyUnits k ∧ s.decided k)) then some (k, e.1) else none
    | none => none)

/-- The entries of a list that pass their checks on the way to flash, as they are programmed. -/
def State.sendable (s : State) (es : List (Nat × Nat)) : List ProgEntry :=
  (es.filter (fun e => (s.badUnit e.1).isNone)).map (fun e => (e.1, e.2, s.bufferWords e.1 ((s.mediaKeyOf e.1).getD [])))

/-- Entries of the buffer are sent to flash: namespace units together, each extent by itself (R254). -/
def State.sendEntries (s : State) (ps : List ProgEntry) : State :=
  let s1 := (chunksOf 4096 (ps.filter (fun e => !isChunkKey e.1))).foldl (fun s g => s.startProgram .write 0 g (fun _ => true)) s
  (ps.filter (fun e => isChunkKey e.1)).foldl (fun s e => s.startProgram .write 0 [e] (fun _ => true)) s1

/-- Programs what waits in the buffer (R24, R30, R254): units that fail their check are set LOST, the others are sent. -/
def State.programBuffer (s : State) (force : Bool) : State :=
  let es := s.waitingEntries force
  let s1 := es.foldl (fun s e => match s.badUnit e.1 with | some b => s.spoiled b.1 b.2 | none => s) s
  s1.sendEntries (s.sendable es)

/-- What a command waits for in the list of its map entries (R144, R146) is on flash: an entry's data are no longer in the buffer
alone; 0 stands for the map journal, which is on flash when none of it waits (log 87). -/
def State.onFlash (s : State) (k : Nat) : Bool := if k = 0 then s.nss.journal.isEmpty else (s.entry k).state != .buffer

/-- Commands stop waiting for what is on flash; a write whose granules are committed and that waits for nothing more has its result
(R41, R144, R146). The journal is programmed while a command waits for it. -/
def State.programmed (s : State) : State :=
  let s := if s.inflight.any (fun e => e.2.flashWait.contains 0) then s.programJournal s.nss.journal.length else s
  s.inflight.foldl (fun s e =>
    let w := e.2.flashWait.filter (fun k => !s.onFlash k)
    let s := if w.length = e.2.flashWait.length then s else s.updCmd e.1 (fun c => { c with flashWait := w })
    if e.2.needFlash && e.2.moved && e.2.uncommitted.isEmpty && w.isEmpty then
      (s.updCmd e.1 (fun c => { c with undo := none })).finish e.1 .success else s) s

/-- A program of buffered data succeeded for one entry (R141, R253, R531): the map names flash when the entry still names what was
programmed and an extent has not grown, and the slots are released. `n` is how many units were programmed. -/
def State.bufferDone (s : State) (slc : Bool) (k src dest n : Nat) : State :=
  let e := s.entry k
  if e.state = .buffer ∧ e.paddr = src then
    if (s.entryUnits k).length ≠ n then s
    else ((s.entrySlots k).foldl State.freeSlotAt s).setEntry k { e with state := .flash, paddr := dest, slc := slc }
  else if isChunkKey k then
    ((List.range 64).map (fun i => src + i)).foldl (fun s i =>
      if (Mem.get none s.nss.slots i).map entryOf = some k then s.freeSlotAt i else s) s
  else if Mem.get none s.nss.slots src = some k then s.freeSlotAt src else s

/-- The hot-tier copy of an extent is entered (R257). -/
def State.enterCopy (s : State) (k dest : Nat) : State :=
  let s1 := s.putEntry k { s.entry k with hot := true }
  { s1 with flash := { s1.flash with hot := Mem.set none s1.flash.hot (4 * chunkOf k + extOf k) (some dest) } }

/-- A copy succeeded for one entry (R256, R262): the conditional update succeeds when the entry still names the source. -/
def State.copyDone (s : State) (slc hot : Bool) (k src dest : Nat) : State :=
  let e := s.entry k
  if e.state ≠ .flash ∨ e.paddr ≠ src then s
  else if hot then s.enterCopy k dest
  else s.setEntry k { e with paddr := dest, slc := slc }

/-- The entries mapped in a superblock, each with its address: namespace units, chunk extents, and hot-tier copies (marked by the
last component). -/
def State.mappedIn (s : State) (k : Nat) : List (Nat × Nat × Bool) :=
  (s.nss.units.filterMap (fun e =>
    if e.2.state = .flash ∧ paddrSb e.2.paddr = k then some (e.1, e.2.paddr, false) else none)) ++
  (s.objs.chunks.map (fun e => match e.2 with
    | none => []
    | some c => (c.exts.zipIdx).filterMap (fun x =>
        if x.1.state = .flash ∧ paddrSb x.1.paddr = k then some (chunkKey e.1 (64 * x.2), x.1.paddr, false) else none))).flatten ++
  (s.flash.hot.filterMap (fun e => match e.2 with
    | some p => if paddrSb p = k then some (chunkKey (e.1 / 4) (64 * (e.1 % 4)), p, true) else none
    | none => none))

/-- Units of data mapped in a superblock. -/
def State.validUnits (s : State) (k : Nat) : Nat := (s.mappedIn k).foldl (fun n u => n + (s.entryUnits u.1).length) 0

/-- A superblock holds a map or journal page that the maps still need (R250, R251). -/
def State.holdsPages (s : State) (k : Nat) : Bool :=
  s.nss.journalPages.any (fun p => paddrSb p == k) ||
    (s.nss.directory ++ s.nss.checkpointed).any (fun e => match e.2 with | some p => paddrSb p == k | none => false)

/-- An operation in progress reads from, programs to, or erases a superblock. -/
def State.sbBusy (s : State) (k : Nat) : Bool :=
  s.flash.ops.any (fun o => match o.2 with
    | some op => sbKey op.quad op.sb == k || op.units.any (fun u => (match op.kind with
        | .program _ p => decide (p ≠ 0 ∧ p ≠ 5) && paddrSb u.2 == k | _ => false))
    | none => false)

/-- Closed superblocks that hold no mapped unit and no page, and of which no read is in flight, are erased (R256, R263). The journal
records of the moves are durable where they stand (R251). -/
def State.eraseEmpty (s : State) : State :=
  s.flash.sbs.foldl (fun s e =>
    if e.2.state = .closed ∧ e.2.readers = 0 ∧ s.mayProgram ∧ s.validUnits e.1 = 0 ∧ !s.holdsPages e.1 ∧ !s.sbBusy e.1 then
      s.startOp { kind := .erase, die := nth 0 (quadDies (e.1 / 2 ^ 17)) 0, quad := e.1 / 2 ^ 17, sb := e.1 % 2 ^ 17, units := [] }
    else s) s

/-- Host work is queued on a die (R255, R266): a read for a command, or a program of buffered data. -/
def State.hostWork (s : State) (d : Nat) : Bool :=
  s.flash.ops.any (fun o => match o.2 with
    | some op => (match op.kind with
        | .read (some _) _ _ => op.units.any (fun u => paddrDie u.2 == d)
        | .program _ p => p == 0 && (quadDies op.quad).contains d
        | _ => false)
    | none => false)

/-- No host work is queued on the dies of a quad. -/
def State.quadIdle (s : State) (q : Nat) : Bool := (quadDies q).all (fun d => !s.hostWork d)

/-- A superblock's entries are read for a copy: `purpose` 1 fold, 2 collection, 3 hot tier (R255, R260, R262). -/
def State.startCopy (s : State) (k purpose : Nat) (es : List (Nat × Nat)) : State :=
  let us := (es.map (fun e => (s.entryUnits e.1).map (fun u => (u, e.2 + (u - entryOf e.1))))).flatten
  if us.isEmpty then s
  else ((s.updSb k (fun b => { b with readers := b.readers + 1 })).countPages (us.map (·.2))).startOp
    { kind := .read none purpose 0, die := paddrDie (us.headD (0, 0)).2, quad := k / 2 ^ 17, sb := k % 2 ^ 17, units := us }

/-- Starts the relocation of a superblock's namespace units and extents to native mode (R262, R264 to R267). Units on a failed die
are not read: they are set LOST as they are looked up (R268). A chunk is not folded before its deduplication is decided (R67). -/
def State.relocateSb (s : State) (k purpose : Nat) : State :=
  let es := ((s.mappedIn k).filter (fun u => !u.2.2)).map (fun u => (u.1, u.2.1))
  let dead := fun (e : Nat × Nat) => (s.entryUnits e.1).any (fun u => (s.die (paddrDie (e.2 + (u - entryOf e.1)))).state == 2)
  let live := es.filter (fun e => !dead e && (purpose != 1 || s.decided e.1))
  if live.isEmpty then s.eraseEmpty else s.startCopy k purpose live

/-- Available Spare: 100 × spare blocks remaining ÷ spare blocks at first BOOT, rounded down (R270). -/
def State.availableSpare (s : State) : Nat :=
  let used := s.flash.dies.filter (fun e => e.2.good != 0)
  let first := used.foldl (fun n e => n + e.2.spareFirst) 0
  if first = 0 then 100 else 100 * used.foldl (fun n e => n + e.2.spares.length) 0 / first

/-- Percentage Used: 100 × mean erase count of the blocks of the dies used at first BOOT ÷ RATED_PE, rounded down, held at 255
(R270). -/
def State.percentageUsed (s : State) : Nat :=
  let n := s.flash.dies.foldl (fun n e => n + e.2.good) 0
  if n = 0 then 0
  else Nat.min 255 (100 * s.flash.erases.foldl (fun a e => a + e.2) 0 / (n * Nat.max 1 s.flash.cfg.ratedPe))

/-- Critical warning bits 0 and 2 follow the spares and the wear; SPARE_LOW is recorded on setting (R270). -/
def State.checkSpare (s : State) : State :=
  let low := decide (s.availableSpare < 10)
  let s := if low && !s.flash.spareLow then
      ({ s with flash := { s.flash with spareLow := true } }.raise evSpareLow 255 [(1, s.availableSpare)]).smartEvent 2
    else { s with flash := { s.flash with spareLow := low } }
  if decide (100 ≤ s.percentageUsed) && !s.flash.unreliable then
    { s with flash := { s.flash with unreliable := true } }.smartEvent 0
  else s

/-- Failed member blocks are retired (R267, R268): spares of their dies replace them, or, where a die has none, the superblock is
retired and its good blocks become spares of their dies. -/
def State.retireMembers (s : State) (k : Nat) (ms : List Nat) : State :=
  if ms.isEmpty then s
  else
    let ds := quadDies (k / 2 ^ 17)
    let bs := s.memberBlocks k
    let s1 := ms.foldl (fun s m => s.updDie (nth 0 ds m) (fun d => { d with retired := d.retired + 1 })) s
    if ms.all (fun m => !(s.die (nth 0 ds m)).spares.isEmpty) then
      (ms.foldl (fun s m =>
        let d := nth 0 ds m
        (s.updSb k (fun b => { b with members := b.members.set m ((s.die d).spares.headD 0) })).updDie d
          (fun x => { x with spares := x.spares.drop 1 }))
        (s1.updSb k (fun b => { b with members := bs, failedMembers := [] }))).checkSpare
    else
      let s2 := ((List.range 4).filter (fun m => !ms.contains m)).foldl (fun s m =>
        s.updDie (nth 0 ds m) (fun x => { x with spares := x.spares ++ [nth 0 bs m] })) s1
      ((s2.updSb k (fun b => { b with state := .retired, members := bs, failedMembers := ms })).raise evSuperblockRetired 255
        [(1, k / 2 ^ 17), (4, k % 2 ^ 17), (2, nth 0 ds (ms.headD 0))]).checkSpare

/-- A die is declared failed (R268): its quad takes no further allocation and relocates its data. `what` is the failing
operation: 0 read, 1 program, 2 erase, 3 status busy (log 16). The record counts the units on the die. -/
def State.failDie (s : State) (die what : Nat) : State :=
  if (s.die die).state ≠ 1 then s
  else
    let onDie := fun (u : Nat × Nat × Bool) => (s.entryUnits u.1).countP (fun v => paddrDie (u.2.1 + (v - entryOf u.1)) == die)
    let mapped := (s.flash.sbs.filter (fun e => e.1 / 2 ^ 17 == dieQuad die)).foldl (fun n e =>
      n + (((s.mappedIn e.1).filter (fun u => !u.2.2)).map onDie).foldl (· + ·) 0) 0
    let s1 := s.updDie die (fun d => { d with state := 2 })
    let s2 := { s1 with flash := { s1.flash with
      unreliable := true
      sbs := s1.flash.sbs.map (fun (e : Nat × Sb) =>
        if e.1 / 2 ^ 17 = dieQuad die ∧ e.2.state = SbState.closed then (e.1, { e.2 with relocate := true }) else e) } }
    (s2.raise evDieFailed 255 [(2, die), (4, what), (4, mapped)]).smartEvent 0

/-- An operation of a die failed or succeeded; the third failure in a row fails the die (R268). -/
def State.dieResult (s : State) (die : Nat) (ok : Bool) (what : Nat) : State :=
  let s := s.updDie die (fun d => { d with failures := if ok then 0 else d.failures + 1 })
  if 3 ≤ (s.die die).failures then s.failDie die what else s

/-- The results of an operation on some dies of which some failed. -/
def State.dieResults (s : State) (dies failed : List Nat) (what : Nat) : State :=
  (nubNat dies).foldl (fun s d => s.dieResult d (!failed.contains d) what) s

/-- A unit is unrecovered (R243, R267): its entry LOST, its superblock queued for relocation, READ_UNRECOVERED recorded. -/
def State.unrecovered (s : State) (k paddr : Nat) : State :=
  ((s.loseUnit k).updSb (paddrSb paddr) (fun b => { b with relocate := true })).raise evReadUnrecovered 255
    [(2, paddrDie paddr), (5, paddr), (8, codeKey k (s.unitLen k))]

/-! ### The hold-up state (R145) -/

/-- The move to VOLATILE once what the buffer held at the failure is programmed (R145 steps 3 to 5). The time taken is a free value:
no command of the table measures it (log 63). -/
def State.settleHoldup (s : State) : State :=
  match s.psm.holdup.failing with
  | none => s
  | some (b, ks) =>
    let h := s.psm.holdup
    let left := ks.filter (fun e => Mem.get none s.nss.slots e.1 == some e.2)
    if !left.isEmpty then { s with psm := { s.psm with holdup := { h with failing := some (b, left) } } }
    else
      let d := s.draw 32
      let s1 := { d.2 with
        psm := { d.2.psm with holdup := { h with failing := none, volat := true, volatileSince := s.recd.hours } }
        fns := Mem.mapAll {} (fun x => { x with wce := true }) d.2.fns }
      (s1.smartEvent 0).raise evWriteCacheVolatile 255 [(4, b), (4, d.1.toNat)]

/-- The hold-up state goes from PROTECTED to VOLATILE (R145): the whole buffer is programmed first, and completions of writes
wait. Units held for the partner and not committed are not part of it. -/
def State.startVolatile (s : State) : State :=
  if s.psm.holdup.volat ∨ s.psm.holdup.failing.isSome then s
  else
    let ks := s.nss.slots.filterMap (fun e => match e.2 with
      | some k => if s.swl.heldUnits.any (fun h => h.slot == some e.1) then none else some (e.1, k)
      | none => none)
    ({ s with psm := { s.psm with holdup := { s.psm.holdup with failing := some (4096 * ks.length, ks) } } }.programBuffer
      true).settleHoldup

/-- The hold-up state goes from VOLATILE to PROTECTED (R145). -/
def State.becomeProtected (s : State) : State :=
  if !s.psm.holdup.volat then { s with psm := { s.psm with holdup := { s.psm.holdup with failing := none } } }
  else { s with psm := { s.psm with holdup := { s.psm.holdup with volat := false, failing := none } } }.raise
    evWriteCacheProtected 255 [(4, s.recd.hours - s.psm.holdup.volatileSince)]

/-! ### Reads for commands and for the comparison of chunks -/

/-- Who reads some units, and the fields that the reader's tags carry (R25, R45). -/
structure Asker where
  who : Reader
  nsid : Nat
  objId : Nat := 0
  /-- UNIT_NO of the first unit of the map entry, as the reader names it. -/
  unitBase : Nat
  func : Nat
  gen : Nat
  deriving DecidableEq, Repr

/-- The tag trailer of a unit for its reader (R25, R45). -/
def State.readerTrailer (s : State) (a : Asker) (k : Nat) : Trailer :=
  { unitNo := a.unitBase + (k - entryOf k), objId := a.objId, nsid := a.nsid, func := (s.restTrailer k).func, gen := a.gen
    len := s.unitLen k }

/-- The copy of a unit that a reader has staged in the SPL working area: outer none when it has none, inner none when the unit could
not be read. -/
def State.stagedFor (s : State) (who : Reader) (k : Nat) : Option (Option Bytes) :=
  (s.nss.staged.find? (fun e => e.1 == who && e.2.1 == k)).map (·.2.2)

/-- A read of this unit for this reader is in progress. -/
def State.reading (s : State) (who : Reader) (k : Nat) : Bool :=
  s.flash.ops.any (fun o => match o.2 with
    | some op => (match op.kind with | .read (some i) _ _ => i == who && op.units.any (fun u => u.1 == k) | _ => false)
    | none => false)

/-- Places a unit's copy in the SPL working area for a reader (R141). -/
def State.stage (s : State) (who : Reader) (k : Nat) (d : Option Bytes) : State :=
  { s with nss := { s.nss with staged := s.nss.staged ++ [(who, k, d)] } }

/-- Drops what a reader has staged. -/
def State.unstage (s : State) (who : Reader) : State :=
  { s with nss := { s.nss with staged := s.nss.staged.filter (fun e => e.1 != who) } }

/-- A checker finds a unit corrupted on its way to a reader (R26, R27, R248, R249): the command ends, or the comparison finds the
unit missing. -/
def State.readMismatch (s : State) (a : Asker) (k comp : Nat) : State :=
  let u := a.unitBase + (k - entryOf k)
  match a.who with
  | .cmd id => (s.retractWritten id 0x03).tagMismatch id comp a.func a.nsid u
  | .chunk _ | .copy _ _ => (s.reportTag comp a.func a.nsid u).stage a.who k none

/-- A buffered unit is copied for a reader (R141), its tag checked (R26). -/
def State.stageBuffered (s : State) (a : Asker) (k : Nat) : State :=
  match s.readBuffer k with
  | .data d _ => s.stage a.who k (some d)
  | .unreadable => (s.splError (4096 * s.slotOf k)).stage a.who k none
  | .badTag => s.readMismatch a k 0x06FF

/-- Where the units of an entry on flash are read: its hot-tier copy, when it has one on dies that serve, or the location that the
map names (R257, R260, R268). -/
def State.readPlace (s : State) (k : Nat) : Nat × Bool :=
  let e := s.entry k
  match (if e.hot then Mem.get none s.flash.hot (4 * chunkOf k + extOf k) else none) with
  | some p => if (quadDies (p / 2 ^ 33)).all (fun d => (s.die d).state == 1 && s.channelOn d) then (p, true) else (e.paddr, false)
  | none => (e.paddr, false)

/-- A flash read of some units of one entry is started: page reads are counted, and the superblock has one more read in flight
(R244, R263, R265). -/
def State.startRead (s : State) (a : Asker) (place : Nat × Bool) (us : List Nat) : State :=
  let ps := us.map (fun u => (u, place.1 + (u - entryOf u)))
  let sb := paddrSb place.1
  ((s.updSb sb (fun b => { b with readers := b.readers + 1 })).countPages (ps.map (·.2))).startOp
    { kind := .read (some a.who) 0 0, die := paddrDie (ps.headD (0, 0)).2, quad := sb / 2 ^ 17, sb := sb % 2 ^ 17, units := ps
      nsid := a.nsid, objId := a.objId, unitBase := a.unitBase, hot := place.2, func := a.func, gen := BitVec.ofNat 8 a.gen }

/-- Some units of one map entry are looked up for a reader (R141, R243, R244, R248, R268): the entry's CHECK is tested; zeros and
buffered data are staged at once, units on flash take a read, an entry with a unit on a failed die is set LOST, and one on a channel
that is not in use cannot be read (log 83). -/
def State.fetchEntry (s : State) (a : Asker) (us : List Nat) : State :=
  let us := us.filter (fun u => (s.stagedFor a.who u).isNone && !s.reading a.who u)
  match us with
  | [] => s
  | k :: _ =>
    let s := s.touchPage (entryKey k / 512) false
    let e := s.entry k
    if !e.ok (entryKey k) then s.readMismatch a k 0x0930
    else match e.state with
      | .unmapped => us.foldl (fun s u => s.stage a.who u (some (List.replicate (s.unitLen u) 0))) s
      | .lost => us.foldl (fun s u => s.stage a.who u none) s
      | .buffer => us.foldl (fun s u => s.stageBuffered a u) s
      | .flash =>
        let place := s.readPlace k
        let die := fun (u : Nat) => paddrDie (place.1 + (u - entryOf u))
        match us.find? (fun u => (s.die (die u)).state == 2) with
        | some u => us.foldl (fun s u => s.stage a.who u none) (s.unrecovered k (place.1 + (u - entryOf u)))
        | none =>
          if us.any (fun u => (s.die (die u)).state != 1 || !s.channelOn (die u)) then us.foldl (fun s u => s.stage a.who u none) s
          else s.startRead a place us

/-- What a command asks for when it reads namespace units. -/
def State.askerFor (s : State) (id : CmdId) (k : Nat) : Asker :=
  { who := .cmd id, nsid := k / 2 ^ 40, unitBase := k % 2 ^ 40
    func := match s.cmd id with | some c => c.func | none => 255
    gen := match s.cmd id with | some c => c.gen.toNat | none => 0 }

/-- Looks a namespace unit up for a command. -/
def State.fetchUnit (s : State) (id : CmdId) (k : Nat) : State := s.fetchEntry (s.askerFor id k) [k]

/-- Looks several namespace units up for a command. -/
def State.fetchUnits (s : State) (id : CmdId) (ks : List Nat) : State := ks.foldl (fun s k => s.fetchUnit id k) s

/-- The staged copies of units, in order; none while one is missing. An inner none is a unit that could not be read. -/
def State.gather (s : State) (who : Reader) : List Nat → Option (List (Option Bytes))
  | [] => some []
  | k :: ks =>
    match s.stagedFor who k, s.gather who ks with
    | some d, some ds => some (d :: ds)
    | _, _ => none

end Sys2Proof.Machine
end

