-- ==== Sys2Proof/Machine/Pair.lean ====
section
/-! DEFINITION. What the pair means for a namespace: mirroring, ownership, the access of a side, frames sent, and the dirty
granules of a side that has lost its partner (R572 to R583, R587). -/

namespace Sys2Proof.Machine

/-- The namespace is mirrored and this device has a pair state (R576, R584). -/
def State.mirrored (s : State) (nsid : Nat) : Bool :=
  s.swl.state != .unpaired && (match s.swl.cfg with | some c => c.mirrored.contains nsid | none => false)

/-- This side owns a mirrored namespace now (R576, R584, R588). -/
def State.owns (s : State) (nsid : Nat) : Bool :=
  s.swl.taken.contains nsid ||
    (!s.swl.partnerOwns && (match s.swl.cfg with
      | some c => s.swl.position == (if c.owner1.contains nsid then 1 else 0)
      | none => false))

/-- The status with which a command accepted on a namespace fails in the pair state (R583, R586). -/
def State.pairGate (s : State) (nsid : Nat) (isWrite : Bool) : Option Status :=
  if !s.mirrored nsid then none
  else match s.swl.state with
    | .suspended => if isWrite then some .configMismatch else none
    | .joining => some .anaInaccessible
    | .isolated => if s.owns nsid then none else some .anaInaccessible
    | _ => none

/-- Both sides take part in a namespace now (R578, R580). -/
def State.linkedNs (s : State) (nsid : Nat) : Bool := s.mirrored nsid && s.swl.state.linked

/-- A command accepted on a namespace crosses to the partner, which owns it (R578). -/
def State.forwards (s : State) (nsid : Nat) : Bool := s.linkedNs nsid && !s.owns nsid

/-- Writes to a namespace wait for the partner's HELD (R579). -/
def State.mirrorLegs (s : State) (nsid : Nat) : Bool := s.linkedNs nsid && s.owns nsid

/-- A granule committed without the partner is noted (R587, R588). -/
def State.noteDirty (s : State) (nsid g : Nat) : State :=
  if s.mirrored nsid && s.swl.dirtyOn && !s.swl.dirty.contains (nsid, g) then
    { s with swl := { s.swl with dirty := s.swl.dirty ++ [(nsid, g)] } }
  else s

/-- Posts an ANA Change event on every function: type Notice 2, information 3, log page 0x0C (NVM Express, log 12). -/
def State.anaEvent (s : State) : State :=
  s.present.foldl (fun s f => s.asyncEvent f (BitVec.ofNat 32 (2 + 3 * 2 ^ 8 + 0x0C * 2 ^ 16))) s

end Sys2Proof.Machine
end

