-- ==== Sys2Proof/Machine/Hif.lean ====
section
/-! DEFINITION. Queues, fetch arbitration, acceptance and completion: the HIF's commands (R131 to R142, R173, R174). -/

namespace Sys2Proof.Machine

/-! ### Queues -/

/-- The key of a queue: function × 65,536 + queue number. -/
def queueKey (f q : Nat) : Nat := f * 65536 + q

/-- A submission queue. -/
def State.sq (s : State) (f q : Nat) : Option Sq := Mem.get none s.hif.sqs (queueKey f q)

/-- A completion queue. -/
def State.cq (s : State) (f q : Nat) : Option Cq := Mem.get none s.hif.cqs (queueKey f q)

/-- The state with a submission queue set. -/
def State.setSq (s : State) (f q : Nat) (x : Option Sq) : State :=
  { s with hif := { s.hif with sqs := Mem.set none s.hif.sqs (queueKey f q) x } }

/-- The state with a completion queue set. -/
def State.setCq (s : State) (f q : Nat) (x : Option Cq) : State :=
  { s with hif := { s.hif with cqs := Mem.set none s.hif.cqs (queueKey f q) x } }

/-- Entries of a submission queue not yet fetched. -/
def Sq.waiting (q : Sq) : Nat := (q.tail + q.size - q.head) % q.size

/-- The port of a function (R125): in dual-port mode PF 1's virtual functions follow those PF 0 may have (log 20). -/
def State.portOf (s : State) (f : Nat) : Nat :=
  if f = 0 then 0 else if f = 1 then 1 else if !s.hif.dualPort || decide (f < 2 + s.nvs.vfSplit) then 0 else 1

/-- The reference clock of a function's port is absent, and the HIF is held in reset (R17). -/
def State.noRefclk (s : State) (f : Nat) : Bool := Mem.get false s.hif.refclkLost (s.portOf f)

/-- The HIF does not serve function `f` (R17, R124): its port's reference clock is absent and the HIF is held in reset, or the function
is in D3hot, in which its BARs do not answer and it sends nothing (PRESUMED PCI Express, log 95). -/
def State.hostGone (s : State) (f : Nat) : Bool := s.noRefclk f || (s.fn f).d3hot

/-! ### MSI-X -/

/-- A dword of the MSI-X table as software reads it (R126). -/
def Fn.msixDword (x : Fn) (k : Nat) : BitVec 32 := Mem.get 0 x.msix k ^^^ (if k % 4 = 3 then 1 else 0)

/-- Sends the message of a vector, or sets its pending bit while the vector is masked (R126; PCI Express). -/
def State.msix (s : State) (f v : Nat) : State :=
  if ((s.fn f).msixDword (4 * v + 3)).getLsbD 0 then
    s.updFn f (fun x => { x with msixPend := if x.msixPend.contains v then x.msixPend else x.msixPend ++ [v] })
  else s.emit [.msix f v]

/-! ### Completion -/

/-- NSID as a number. -/
def sqeNsid (e : Sqe) : Nat := e.nsid.toNat

/-- The completion queue a command posts to. -/
def State.cqOf (s : State) (c : Cmd) : Nat := match s.sq c.func c.sq with | some q => q.cq | none => 0

/-- A command leaves the machine: its locks and its staged data are released. -/
def State.endCmd (s : State) (id : CmdId) : State :=
  let s1 := ((s.setCmd id none).releaseAll id).unstage (.cmd id)
  { s1 with hif := { s1.hif with finished := s1.hif.finished.filter (· != id) } }

/-- Writes a command's completion entry and its MSI-X message, behind the dirty lines of its writes (R20, R133, R181); the
command leaves the in-flight count (R132). -/
def State.postEntry (s : State) (id : CmdId) : State :=
  match s.cmd id with
  | none => s
  | some c =>
    let q := s.cqOf c
    if c.fromPartner then
      if c.result.isNone then s
      else
        let s1 := match c.result with
          | some r => if s.swl.state.linked then s.sendFrame 5 c.asn (sqeNsid c.sqe) 0 (.completion c.partnerCid r) else s
          | none => s
        s1.endCmd id
    else match c.result, s.cq c.func q with
    | some r, some x =>
      let sqHead := match s.sq c.func c.sq with | some y => y.head | none => 0
      let s0 := if !c.sqe.admin ∧ c.sqe.opcode = 0x82 then
          s.updFn c.func (fun y => y.charge ((c.wrote : Int) - c.sqe.cdw2.toNat) 0) else s
      let s1 := (s0.markDirty c.func (x.base + 16 * x.tail) 16).flushDirty c.func
      let s2 := s1.emit [.cqe c.func q c.sq c.sqe.cid sqHead r (Status.dnr r.status) false 0]
      let s3 := s2.setCq c.func q (some { x with posted := x.posted + 1, tail := (x.tail + 1) % x.size })
      let s4 := if x.ien then s3.msix c.func x.vector else s3
      s4.endCmd id
    | _, _ => s

/-- The completion queue is full (R133; NVM Express keeps one place empty). -/
def Cq.full (q : Cq) : Bool := decide (q.size ≤ q.posted + 1)

/-- The command is a write under R146, whose completion waits while the hold-up state becomes VOLATILE (R145). -/
def holdsWrites (e : Sqe) : Bool := !e.admin && [0x01, 0x08, 0x09, 0x81, 0x85, 0x88, 0x8C].contains e.opcode.toNat

/-- Step 1 of R145 holds the completion of a command back. -/
def State.heldBack (s : State) (id : CmdId) : Bool :=
  s.psm.holdup.failing.isSome && (match s.cmd id with | some c => holdsWrites c.sqe | none => false)

/-- Posts held completions in order while there is room (R133), but for those that R145 holds back; `fuel` bounds them. -/
def State.postHeld (s : State) (f q : Nat) : Nat → State
  | 0 => s
  | fuel + 1 =>
    match s.cq f q with
    | none => s
    | some x =>
      match x.held.find? (fun id => !s.heldBack id) with
      | none => s
      | some id => if x.full then s else ((s.setCq f q (some { x with held := x.held.erase id })).postEntry id).postHeld f q fuel

/-- Every command that finished earlier and posts to the same completion queue has posted its entry, waits in the queue's hold, or is
held back under R145 (R133). -/
def State.postTurn (s : State) (id : CmdId) (c : Cmd) : Bool :=
  (s.hif.finished.takeWhile (fun i => i != id)).all (fun i => match s.cmd i with
    | some e => e.fromPartner || e.func != c.func || s.cqOf e != s.cqOf c || s.heldBack i ||
        (match s.cq e.func (s.cqOf e) with | some x => x.held.contains i | none => true)
    | none => true)

/-- COMPLETION_POST (R132, R133): in DRAIN and before BOOT ends nothing is posted (R154); step 1 of R145 holds writes. -/
def execCompletionPost (id : CmdId) (s : State) : Host.Outcome State Fault Refusal :=
  .next (match s.cmd id with
    | none => s
    | some c =>
      if c.result.isNone ∨ !s.psm.mode.live ∨ s.heldBack id then s
      else if c.fromPartner then s.postEntry id
      else if (s.fn c.func).resetting ∨ s.hostGone c.func ∨ !s.postTurn id c then s
      else
        let q := s.cqOf c
        match s.cq c.func q with
        | none => s
        | some x =>
          if x.full ∨ (!x.held.isEmpty ∧ !x.held.contains id) then
            if x.held.contains id then s else s.setCq c.func q (some { x with held := x.held ++ [id] })
          else if x.held.isEmpty then s.postEntry id
          else s.postHeld c.func q x.held.length)

/-! ### Doorbells -/

/-- A submission queue tail takes effect. -/
def State.ringSq (s : State) (f q tail : Nat) : State :=
  match s.sq f q with
  | none => s
  | some x => if tail < x.size then s.setSq f q (some { x with tail := tail }) else s

/-- A completion queue head takes effect: the host releases entries, and held completions are posted (R133). -/
def State.ringCq (s : State) (f q head : Nat) : State :=
  match s.cq f q with
  | none => s
  | some x =>
    if head < x.size then
      (s.setCq f q (some { x with posted := (x.tail + x.size - head) % x.size })).postHeld f q x.held.length
    else s

/-- SQ_TAIL_DOORBELL (R136, R183): recorded and not acted on while the function is quiesced. -/
def execSqTailDoorbell (f qid tail : Nat) (s : State) : Host.Outcome State Fault Refusal :=
  .next (if !s.psm.mode.live ∨ (s.fn f).resetting ∨ !(s.fn f).en ∨ s.hostGone f then s
    else if (s.fn f).quiesced then
      (s.updFn f (fun x => { x with pendingDoorbells := x.pendingDoorbells ++ [(2 * qid, tail)] })).wake
    else (s.ringSq f qid tail).wake)

/-- CQ_HEAD_DOORBELL (R133, R183). -/
def execCqHeadDoorbell (f qid head : Nat) (s : State) : Host.Outcome State Fault Refusal :=
  .next (if !s.psm.mode.live ∨ (s.fn f).resetting ∨ !(s.fn f).en ∨ s.hostGone f then s
    else if (s.fn f).quiesced then
      (s.updFn f (fun x => { x with pendingDoorbells := x.pendingDoorbells ++ [(2 * qid + 1, head)] })).wake
    else (s.ringCq f qid head).wake)

/-! ### Fetch -/

/-- The arbitration burst in entries (R135). -/
def arbBurst (ab : BitVec 3) : Nat := if ab = 7 then 128 else 2 ^ ab.toNat

/-- Commands in flight and fetched beyond the one place reserved for each function's admin queue (R132). -/
def State.sharedCount (s : State) : Nat :=
  let admins := (List.range 128).map s.adminCount
  s.inflight.length + s.hif.fetched.length - admins.countP (fun n => decide (0 < n))

/-- The function fetches at all (R134, R151, R154, R177, R183). -/
def State.mayFetch (s : State) (f : Nat) : Bool :=
  let x := s.fn f
  x.present && x.en && x.rdy && !x.resetting && !x.quiesced && s.psm.mode.fetches && !s.hif.fetchStopped &&
    Mem.get false s.hif.link (s.portOf f) && !s.hostGone f

/-- Entries waiting in a submission queue. -/
def State.waitingIn (s : State) (f q : Nat) : Nat := match s.sq f q with | some x => x.waiting | none => 0

/-- The admin queue of a function may be fetched from (R132, R134). -/
def State.adminFetchable (s : State) (f : Nat) : Bool :=
  s.mayFetch f && decide (0 < s.waitingIn f 0) && (s.adminCount f == 0 || decide (s.sharedCount < 65408))

/-- The I/O queues of a function with entries waiting, with their priorities. -/
def State.ioQueues (s : State) (f : Nat) : List (Nat × BitVec 2) :=
  s.hif.sqs.filterMap (fun e => match e.2 with
    | some x => if e.1 / 65536 = f ∧ e.1 % 65536 ≠ 0 ∧ 0 < x.waiting then some (e.1 % 65536, x.prio) else none
    | none => none)

/-- A Format of the function has been fetched and is not complete (R153). -/
def State.formatting (s : State) (f : Nat) : Bool :=
  (s.inflightOf f).any (fun e => e.2.sqe.admin && e.2.sqe.opcode == 0x80 && e.2.result.isNone) ||
    s.hif.fetched.any (fun e => e.1 == f && e.2.2.admin && e.2.2.opcode == 0x80)

/-- The mode lets I/O entries be fetched: in SAFE-HALT so that they can be failed (R154, R540). -/
def State.modeFetchesIo (s : State) : Bool :=
  match s.psm.mode with
  | .service | .degraded | .safeHalt => true
  | .maintenance => s.psm.heldFromHalt
  | _ => false

/-- An I/O entry of the function may be fetched (R132, R134, R142, R153, R167, R173). -/
def State.ioFetchable (s : State) (f : Nat) : Bool :=
  s.mayFetch f && s.modeFetchesIo && !(s.ioQueues f).isEmpty && (s.fn f).hasTokens && !s.formatting f &&
    decide (s.sharedCount < 65408) && decide (s.hif.locks.length + 256 ≤ 262144) &&
    (match s.tenant f with | some t => decide (s.ioCount f < t.flightCap) | none => false)

/-- The first element after a number, in turn, of a list of numbers (round robin). -/
def nextAfter (last : Nat) (l : List Nat) : Option Nat :=
  let up := l.filter (fun x => decide (last < x))
  match (if up.isEmpty then l else up) with
  | [] => none
  | x :: xs => some (xs.foldl Nat.min x)

/-- The queue a function's turn takes (R134): its number, its class, and how many entries the class may give; the weights
are reloaded when every class that waits has spent its own (log 17). -/
def State.pickQueue (s : State) (f : Nat) : Option (Nat × Nat × Nat × List Nat) :=
  let x := s.fn f
  let qs := s.ioQueues f
  if x.ams ≠ 1 then (nextAfter (nth 0 x.rrQueues 0) (qs.map (·.1))).map (fun q => (q, 0, 65536, x.credits))
  else
    let of := fun (c : Nat) => (qs.filter (fun e => e.2.toNat == c)).map (·.1)
    match nextAfter (nth 0 x.rrQueues 0) (of 0) with
    | some q => some (q, 0, 65536, x.credits)
    | none =>
      let pick := fun (cr : List Nat) => [1, 2, 3].findSome? (fun c =>
        if nth 0 cr (c - 1) = 0 then none
        else (nextAfter (nth 0 x.rrQueues c) (of c)).map (fun q => (q, c, nth 0 cr (c - 1), cr)))
      match pick x.credits with
      | some r => some r
      | none => pick [x.features.hpw.toNat + 1, x.features.mpw.toNat + 1, x.features.lpw.toNat + 1]

/-- Takes `n` entries from a submission queue. -/
def State.takeEntries (s : State) (f q : Nat) (es : List Sqe) : State :=
  match s.sq f q with
  | none => s
  | some x =>
    let s1 := s.setSq f q (some { x with head := (x.head + es.length) % x.size })
    { s1 with hif := { s1.hif with fetched := s1.hif.fetched ++ es.map (fun e => (f, q, { e with admin := q == 0 })) } }

/-- FETCH_DECISION (R134, R135): `reads` are the entries the host's memory returns from the chosen queue's head; at most
one arbitration burst is taken. -/
def execFetchDecision (reads : List Sqe) (s : State) : Host.Outcome State Fault Refusal :=
  let fs := s.present
  .next (match nextAfter s.hif.rrAdmin (fs.filter s.adminFetchable) with
    | some f =>
      let room := if s.sharedCount < 65408 then 65408 - s.sharedCount else 1
      let n := [s.waitingIn f 0, arbBurst (s.fn f).features.ab, room].foldl Nat.min reads.length
      let s1 := s.takeEntries f 0 (reads.take n)
      { s1 with hif := { s1.hif with rrAdmin := f } }
    | none =>
      match nextAfter s.hif.rrFunc (fs.filter s.ioFetchable) with
      | none => s
      | some f =>
        match s.pickQueue f with
        | none => s
        | some (q, c, most, cr) =>
          let cap := match s.tenant f with | some t => t.flightCap - s.ioCount f | none => 0
          let n := [s.waitingIn f q, arbBurst (s.fn f).features.ab, 65408 - s.sharedCount, cap, most].foldl Nat.min reads.length
          let s1 := s.takeEntries f q (reads.take n)
          let s2 := s1.updFn f (fun x => { x with
            rrQueues := x.rrQueues.set c q
            credits := if c = 0 then cr else cr.set (c - 1) (nth 0 cr (c - 1) - n) })
          { s2 with hif := { s2.hif with rrFunc := f } })

/-! ### Acceptance -/

/-- The opcode is one the set supports for the function (R130, R162, R163). -/
def opcodeOk (f : Nat) (e : Sqe) : Bool :=
  let o := e.opcode.toNat
  if e.admin then
    [0x00, 0x01, 0x02, 0x04, 0x05, 0x06, 0x08, 0x09, 0x0A, 0x0C, 0x0D, 0x10, 0x11, 0x14, 0x15, 0x1D, 0x1E, 0x80, 0xC1, 0xC2].contains o
      || ([0x1C, 0x84].contains o && decide (f ≤ 1))
  else
    [0x00, 0x01, 0x02, 0x05, 0x08, 0x09, 0x0C, 0x0D, 0x0E, 0x11, 0x15,
     0x81, 0x82, 0x85, 0x86, 0x88, 0x8A, 0x8C, 0x92, 0x97, 0x9B, 0xA1, 0xA2].contains o

/-- The opcode writes stored state under R271. -/
def writesStored (e : Sqe) : Bool := holdsWrites e

/-- Commands that NVM Express admits while a sanitize runs (log 12). -/
def duringSanitize (e : Sqe) : Bool :=
  e.admin && [0x00, 0x01, 0x02, 0x04, 0x05, 0x06, 0x08, 0x09, 0x0A, 0x0C].contains e.opcode.toNat

/-- SLBA: dwords 10 and 11. -/
def sqeSlba (e : Sqe) : Nat := e.cdw10.toNat + e.cdw11.toNat * 2 ^ 32

/-- Logical blocks of a Read or Write: NLB, zero-based. -/
def sqeBlocks (e : Sqe) : Nat := field e.cdw12.toNat 15 0 + 1

/-- The byte range a block command covers in its namespace. -/
def blockRange (n : Ns) (e : Sqe) : Nat × Nat := (sqeSlba e * lbaBytes n.lbaf, sqeBlocks e * lbaBytes n.lbaf)

/-- PRACT (NVM Express). -/
def sqePract (e : Sqe) : Bool := bit e.cdw12.toNat 29

/-- With PRACT set on a protected namespace whose metadata is only protection information, no metadata crosses the link. -/
def strips (n : Ns) (e : Sqe) : Bool := n.pi != 0 && sqePract e && metaBytes n.lbaf != 0

/-- Bytes a Read or Write moves across the link: data, and metadata that is not stripped (R174). -/
def blockTransfer (n : Ns) (e : Sqe) : Nat := sqeBlocks e * (lbaBytes n.lbaf + if strips n e then 0 else metaBytes n.lbaf)

/-- The bandwidth charge of a command of function `f` (R174). A namespace that is another tenant's is charged as one that does not exist
(R169). -/
def State.chargeOf (s : State) (f : Nat) (e : Sqe) : Nat :=
  let owned := match s.ns (sqeNsid e) with | some n => if n.attached = some f then some n else none | none => none
  match e.opcode.toNat with
  | 0x01 | 0x02 | 0x05 => (match owned with | some n => blockTransfer n e | none => 0)
  | 0x0D | 0x11 => if owned.isSome then 16 else 0
  | 0x15 => if owned.isSome then 8 else 0
  | 0x0E => if owned.isSome then 4 * (e.cdw10.toNat + 1) else 0
  | 0x82 | 0x86 => e.cdw2.toNat
  | 0x97 => 64 + field e.cdw11.toNat 21 0 + field e.cdw14.toNat 21 0
  | 0x9B => e.dptrLen + field e.cdw14.toNat 21 0
  | 0x81 | 0x85 | 0x92 => field e.cdw14.toNat 21 0
  | 0x8A => Nat.min e.cdw12.toNat 128
  | 0xA1 | 0xA2 => e.dptrLen
  | _ => 0

/-- The capacity an ESSENCE APPEND is charged at acceptance: its LENGTH, when LENGTH is one the command allows (R38, R49, R52). -/
def appendCharge (e : Sqe) : Nat :=
  let n := field e.cdw14.toNat 21 0
  if e.admin || e.opcode != 0x81 || decide (2097152 < n) then 0 else n

/-- Bytes of a function's capacity allotment (R167). -/
def State.capacityLimit (s : State) (f : Nat) : Nat := match s.tenant f with | some t => t.capacityGib * 2 ^ 30 | none => 0

/-- The kind of lock a block command takes at acceptance (R139, R140): exclusive for a write, among them a deallocate. -/
def lockKind (e : Sqe) : Option Bool :=
  if e.admin then none else match e.opcode.toNat with
  | 0x01 | 0x08 => some true
  | 0x09 => if bit e.cdw11.toNat 2 then some true else none
  | 0x02 | 0x05 | 0x0C | 0x92 => some false
  | _ => none

/-- The byte range a command locks at acceptance: FILTERED READ counts blocks in 12 bits (R511); a Dataset Management, whose ranges are
still in host memory, the whole namespace until they are in (log 18). -/
def lockRange (n : Ns) (e : Sqe) : Nat × Nat :=
  if e.opcode == 0x92 then (sqeSlba e * lbaBytes n.lbaf, (field e.cdw12.toNat 11 0 + 1) * lbaBytes n.lbaf)
  else if e.opcode == 0x09 then (0, n.blocks * lbaBytes n.lbaf)
  else blockRange n e

/-- Writes of a namespace accepted before a Flush that have no result yet (R146). -/
def State.openWrites (s : State) (nsids : List Nat) : List CmdId :=
  (s.inflight.filter (fun e => writesStored e.2.sqe && e.2.result.isNone &&
    (nsids.contains (sqeNsid e.2.sqe) || e.2.asns.any (fun a => nsids.contains a.1)))).map (·.1)

/-- A stored chunk belongs to some namespaces (R146): it was stored for an object of theirs, or one of their objects names it. -/
def State.chunkIn (s : State) (c : Nat) (nsids : List Nat) : Bool :=
  (match s.chunk c with | some x => nsids.contains x.originNs | none => false) ||
    s.objs.objects.any (fun o => nsids.contains o.nsid && o.chunks.any (fun r => r.chunk == c))

/-- The map entries of some namespaces whose data are in the buffer: units, and extents of their objects' chunks (R146). -/
def State.bufferedKeys (s : State) (nsids : List Nat) : List Nat :=
  nubNat (s.nss.slots.filterMap (fun e => match e.2 with
    | some k =>
      if (if isChunkKey k then s.chunkIn (chunkOf k) nsids else nsids.contains (k / 2 ^ 40)) && !s.onFlash (entryOf k) then
        some (entryOf k)
      else none
    | none => none))

/-- VIEW READ or VIEW SIZE. -/
def isView (e : Sqe) : Bool := !e.admin && (e.opcode == 0x82 || e.opcode == 0x86)

/-- Bytes outstanding in an assembly unit (R77, log 50): the lengths asked for by its views without a result. -/
def State.saeBytes (s : State) (u : Nat) : Nat :=
  (s.inflight.filter (fun e => isView e.2.sqe && e.2.saeUnit == u && e.2.result.isNone)).foldl (fun n e => n + e.2.sqe.cdw2.toNat) 0

/-- The assembly unit a view is given to (R77, R545): the fewest bytes outstanding, then the lowest number, withdrawn units
skipped. -/
def State.saeUnit (s : State) (e : Sqe) : Nat :=
  if !isView e then 0
  else
    let us := (List.range 4).filter (fun u => !s.psm.halt.withdrawn.contains (.sae u))
    us.foldl (fun b u => if s.saeBytes u < s.saeBytes b then u else b) (us.headD 0)

/-- A command changes a mirrored namespace under R586. -/
def changesMirrored (e : Sqe) : Bool := e.opcode == 0x01 || e.opcode == 0x08 || e.opcode == 0x09

/-- An entry is accepted for function `f`: it takes its ASN, generation and epoch, its charges and its locks, or the status that
the state of the device gives it (R52, R136, R137, R140, R154, R173). A command on a namespace that the partner owns takes no ASN
here and crosses as a COMMAND frame, but for a Flush, which both sides run (R578, R580); `partner` is the partner's number of a
command that came from it. An append's capacity comes before its other checks (log 113), and a command whose NSID names no namespace of
the function takes its ASN from the function's counter (log 114). -/
def State.accept (s : State) (f q : Nat) (e : Sqe) (partner : Option Nat) : State :=
  let id := s.hif.nextCmd
  let nsid := sqeNsid e
  let all := !e.admin && e.nsid == 0xFFFFFFFF && (e.opcode == 0x00 || e.opcode == 0x09)
  let owned := (s.ns nsid).bind (fun n => if n.attached = some f then some n else none)
  let crosses := partner.isNone && owned.isSome && !e.admin && s.forwards nsid && e.opcode != 0x00
  let asn := match owned with | some n => if crosses then 0 else n.asn | none => (s.fn f).asn
  let asns := if all then (s.nsOf f).map (fun n => (n.1, n.2.asn)) else []
  let s1 := if crosses then s
    else if all then (s.nsOf f).foldl (fun s n => s.setNs n.1 (some { n.2 with asn := n.2.asn + 1 })) s
    else match owned with
      | some n => s.setNs nsid (some { n with asn := n.asn + 1 })
      | none => s.updFn f (fun x => { x with asn := x.asn + 1 })
  let flushNs := if all then (s.nsOf f).map (·.1) else [nsid]
  let isFlush := !e.admin && e.opcode == 0x00
  let c : Cmd :=
    { func := f, sq := q, sqe := e, asn := asn, gen := (s.fn f).gen, epoch := (s.fn f).epoch, asns := asns
      urgent := (match s.sq f q with | some x => (s.fn f).ams == 1 && x.prio == 0 && q != 0 | none => false)
      afterStop := s.flash.readOnly
      saeUnit := s.saeUnit e
      waitFor := if isFlush then s.openWrites flushNs else []
      flashWait := if isFlush then s.bufferedKeys flushNs else []
      forwarded := crosses, fromPartner := partner.isSome, partnerCid := partner.getD 0 }
  let s2 := { s1 with hif := { s1.hif with nextCmd := id + 1 } }.setCmd id (some c)
  let s3 := if e.admin ∨ partner.isSome then s2 else s2.updFn f (fun x => x.charge (s.chargeOf f e) 1000)
  let gate := if all && e.opcode == 0x09 then
      (if (s.nsOf f).any (fun n => s.pairGate n.1 true == some .configMismatch) then some Status.configMismatch else none)
    else if owned.isSome && !e.admin then s.pairGate nsid (changesMirrored e) else none
  if s.psm.mode = .safeHalt ∨ (s.psm.heldFromHalt ∧ !e.admin) then s3.finish id .internalSafeHalt
  else if !opcodeOk f e then s3.finish id .invalidOpcode
  else if s.hif.sanitizing.isSome ∧ !duringSanitize e then s3.finish id .sanitizeInProgress
  else if s.flash.readOnly ∧ writesStored e then s3.finish id .namespaceWriteProtected
  else if gate.isSome then s3.finish id (gate.getD .anaInaccessible)
  else if crosses then s3.sendFrame 4 0 nsid 0 (.command id e)
  else if s.capacityLimit f < (s.fn f).capacityUsed + appendCharge e ∧ appendCharge e ≠ 0 then s3.finish id .tenantQuota
  else if appendCharge e ≠ 0 then
    (s3.updFn f (fun x => { x with capacityUsed := x.capacityUsed + appendCharge e })).updCmd id
      (fun c => { c with charge := appendCharge e })
  else match lockKind e with
    | none => s3
    | some excl =>
      let take := fun (s : State) (x : Nat × BitVec 48 × Ns) =>
        if x.2.2.object ∨ x.2.2.blocks * lbaBytes x.2.2.lbaf < (lockRange x.2.2 e).1 + (lockRange x.2.2 e).2 then s
        else s.takeLocks id x.1 x.2.1 excl [lockRange x.2.2 e]
      if all then ((s.nsOf f).filter (fun n => !s.forwards n.1)).foldl (fun s n => take s (n.1, n.2.asn, n.2)) s3
      else match owned with
        | some n => take s3 (nsid, asn, n)
        | none => s3

/-- ACCEPTANCE (R137): the oldest fetched entry is accepted. -/
def execAcceptance (s : State) : Host.Outcome State Fault Refusal :=
  .next (match s.hif.fetched with
    | [] => s
    | (f, q, e) :: rest =>
      let s0 := { s with hif := { s.hif with fetched := rest } }
      if s.hostGone f then s
      else if (s.fn f).resetting ∨ !s.psm.mode.live then s0 else s0.accept f q e none)

/-- A command in flight without a result, of one opcode, in a mode that runs it: what a command's own step acts on. -/
def State.live (s : State) (id : CmdId) (admin : Bool) (op : Nat) : Option Cmd :=
  match s.cmd id with
  | none => none
  | some c => if c.result.isNone && c.sqe.admin == admin && c.sqe.opcode.toNat == op && s.psm.mode.engines then some c else none

/-- TOKEN_TICK (R173): every applied bucket of every function gains its rate. -/
def execTokenTick (s : State) : Host.Outcome State Fault Refusal :=
  .next (if s.psm.mode.live then { s with fns := Mem.mapAll {} (·.tick) s.fns } else s)

end Sys2Proof.Machine
end

