-- ==== Sys2Proof/Machine/Operands.lean ====
section
/-! DEFINITION. The operands of block commands: which namespace and range they name, how data and metadata lie in a transfer,
protection information, and what a granule's units become (R128, R139, R148, R149, R252, R253). -/

namespace Sys2Proof.Machine

/-- Granules a byte range covers. -/
def granulesOf (r : Nat × Nat) : List Nat :=
  if r.2 = 0 then [] else (List.range ((r.1 + r.2 - 1) / 262144 + 1 - r.1 / 262144)).map (· + r.1 / 262144)

/-- Units of a granule that a byte range touches. -/
def unitsIn (r : Nat × Nat) (g : Nat) : List Nat :=
  ((List.range 64).map (fun i => 64 * g + i)).filter (fun u => decide (r.1 < 4096 * u + 4096 ∧ 4096 * u < r.1 + r.2))

/-- The metadata unit of a granule (R253). -/
def metaUnit (g : Nat) : Nat := 2 ^ 36 + g

/-- Metadata bytes of one 4 KiB unit in its metadata unit (R253). -/
def metaPerUnit (lbaf : Nat) : Nat := metaBytes lbaf * (4096 / lbaBytes lbaf)

/-- Blocks of a transfer as pairs of data and metadata (R128): interleaved in an extended LBA, else data then metadata. -/
def splitTransfer (n : Ns) (blocks : Nat) (data : Bytes) : List (Bytes × Bytes) :=
  let d := lbaBytes n.lbaf
  let m := metaBytes n.lbaf
  (List.range blocks).map (fun i =>
    if n.extended then (slice data (i * (d + m)) d, slice data (i * (d + m) + d) m)
    else (slice data (i * d) d, slice data (blocks * d + i * m) m))

/-- One bit of the reflected 64-bit CRC of NVM Express. -/
def crcNvmeStep (c : BitVec 64) : BitVec 64 := if c.getLsbD 0 then (c >>> 1) ^^^ 0x9A6C9329AC4BC9B5 else c >>> 1

/-- The 64-bit guard of NVM Express (R128). -/
def guard64 (bs : Bytes) : BitVec 64 :=
  bs.foldl (fun (c : BitVec 64) (b : Byte) => iterate crcNvmeStep 8 (c ^^^ BitVec.setWidth 64 b)) (BitVec.allOnes 64) ^^^
    BitVec.allOnes 64

/-- The 16-bit guard of the T10 data integrity field (R128). -/
def guard16 (bs : Bytes) : BitVec 16 := crcMsb 0x8BB7 0 bs

/-- The protection information that PRACT makes the controller write, in the last metadata bytes (R128; NVM Express). -/
def makePi (n : Ns) (e : Sqe) (i : Nat) (d : Bytes) : Bytes :=
  let app := field e.cdw15.toNat 15 0
  let ref := if n.pi = 1 then e.cdw14.toNat + i else e.cdw14.toNat
  if metaBytes n.lbaf = 16 then beBytes 8 (guard64 d).toNat ++ beBytes 2 app ++ beBytes 6 ref
  else beBytes 2 (guard16 d).toNat ++ beBytes 2 app ++ beBytes 4 (ref % 2 ^ 32)

/-- Blocks of a write as stored: protection information made where PRACT asks for it. -/
def writeBlocks (n : Ns) (e : Sqe) (data : Bytes) : List (Bytes × Bytes) :=
  if strips n e then
    ((List.range (sqeBlocks e)).map (fun i =>
      let d := slice data (i * lbaBytes n.lbaf) (lbaBytes n.lbaf)
      (d, makePi n e i d)))
  else splitTransfer n (sqeBlocks e) data

/-- Blocks of a read as returned to the host: the bytes of the data buffer and of the metadata buffer. -/
def joinTransfer (n : Ns) (e : Sqe) (bs : List (Bytes × Bytes)) : Bytes × Bytes :=
  if strips n e || metaBytes n.lbaf == 0 then ((bs.map (·.1)).flatten, [])
  else if n.extended then ((bs.map (fun b => b.1 ++ b.2)).flatten, [])
  else ((bs.map (·.1)).flatten, (bs.map (·.2)).flatten)

/-- Bytes the data pointer must describe, which MDTS bounds (R148, R149): metadata in a buffer of its own is not among them. -/
def transferLen (n : Ns) (e : Sqe) : Nat :=
  sqeBlocks e * (lbaBytes n.lbaf + (if n.extended && !strips n e then metaBytes n.lbaf else 0))

/-- The namespace a block command acts on, or the status it fails with before any data moves (R35, R148, R149, R162, R169, R631). A
range beyond the namespace is Invalid Field in Command (log 19). -/
def State.blockTarget (s : State) (c : Cmd) (moves : Bool) : Except Status Ns :=
  match s.ns (sqeNsid c.sqe) with
  | none => .error .invalidNamespaceOrFormat
  | some n =>
    if n.attached ≠ some c.func then .error .invalidNamespaceOrFormat
    else if n.object then .error .invalidOpcode
    else if n.blocks < sqeSlba c.sqe + sqeBlocks c.sqe then .error .invalidField
    else if moves ∧ 2097152 < transferLen n c.sqe then .error .invalidField
    else if moves ∧ c.sqe.sgl ∧ c.sqe.dptrLen < transferLen n c.sqe then .error .dataSglLengthInvalid
    else .ok n

/-- A unit's new contents: the written bytes of the range placed over the old contents. -/
def overlay (r : Nat × Nat) (data : Bytes) (u : Nat) (old : Bytes) : Bytes :=
  let lo := Nat.max r.1 (4096 * u)
  let hi := Nat.min (r.1 + r.2) (4096 * u + 4096)
  splice old (lo - 4096 * u) (slice data (lo - r.1) (hi - lo))

/-- The metadata unit of a granule after some blocks of it are written. -/
def overlayMeta (n : Ns) (e : Sqe) (g : Nat) (blocks : List (Bytes × Bytes)) (old : Bytes) : Bytes :=
  let per := 262144 / lbaBytes n.lbaf
  (blocks.zipIdx).foldl (fun acc b =>
    let lba := sqeSlba e + b.2
    if lba / per = g then splice acc (lba % per * metaBytes n.lbaf) b.1.2 else acc) old

end Sys2Proof.Machine
end

