-- ==== Sys2Proof/Machine/BlockIo.lean ====
section
/-! DEFINITION. The block commands: Write and its granule commits, Read, Compare, Verify, Write Zeroes, Flush, Dataset
Management and Abort (R139 to R161, R252, R253). -/

namespace Sys2Proof.Machine

/-- A write has its result: it leaves the lists of the Flushes that wait for it (R146). -/
def State.writeDone (s : State) (id : CmdId) : State :=
  s.inflight.foldl (fun s e =>
    if e.2.waitFor.contains id then s.updCmd e.1 (fun c => { c with waitFor := c.waitFor.filter (· != id) }) else s) s

/-- Units committed by a write are waited for by the write itself when it must be on flash, and by the Flushes that cover
it (R144, R146). -/
def State.noteCommitted (s : State) (id : CmdId) (keys : List Nat) : State :=
  s.inflight.foldl (fun s e =>
    if (e.1 = id ∧ e.2.needFlash) ∨ e.2.waitFor.contains id then
      s.updCmd e.1 (fun c => { c with flashWait := c.flashWait ++ keys.filter (fun k => !c.flashWait.contains k) })
    else s) s

/-- A write accepted in this state completes only when its data is on flash (R144). -/
def State.writeThrough (s : State) (c : Cmd) : Bool :=
  bit c.sqe.cdw12.toNat 30 || (s.volatileNow && !(s.fn c.func).wce)

/-- A checker of the command's own transfer finds a unit corrupted (R26, R27): the command ends, and nothing more of it commits. -/
def State.badTransfer (s : State) (id : CmdId) (c : Cmd) (b : TagFault) : State :=
  ((s.tagMismatch id b.component c.func (sqeNsid c.sqe) b.unitNo).releaseAll id).writeDone id

/-- The fault that a checker of the transfer reports, when it comes from a component of the device (R12). -/
def faultOf (bad : Option TagFault) : Option TagFault := bad.filter (fun b => componentOk b.component)

/-- The unit is covered completely by a byte range. -/
def wholeUnit (r : Nat × Nat) (u : Nat) : Bool := decide (r.1 ≤ 4096 * u ∧ 4096 * u + 4096 ≤ r.1 + r.2)

/-- A granule commit writes the granule's metadata unit (R253). -/
def writesMeta (c : Cmd) (n : Ns) : Bool := metaBytes n.lbaf != 0 && c.sqe.opcode != 0x08

/-- The units whose old contents a granule commit needs (R253): those that the range covers partly, and the metadata unit. -/
def mergeKeys (c : Cmd) (n : Ns) (g : Nat) : List Nat :=
  let r := blockRange n c.sqe
  (((unitsIn r g).filter (fun u => !wholeUnit r u)).map (unitKey (sqeNsid c.sqe))) ++
    (if writesMeta c n then [unitKey (sqeNsid c.sqe) (metaUnit g)] else [])

/-- The old contents of every unit that a granule commit needs have been read. -/
def State.merged (s : State) (id : CmdId) (c : Cmd) (n : Ns) (g : Nat) : Bool :=
  (mergeKeys c n g).all (fun k => (s.stagedFor (.cmd id) k).isSome)

/-- The contents that a command has read of a unit; none when it could not be read. -/
def State.oldUnit (s : State) (id : CmdId) (k : Nat) : Option Bytes := (s.stagedFor (.cmd id) k).getD none

/-- What the units of a granule become, once the old contents are read; none when a merge meets a unit that cannot be read (R252,
R253). An inner none is UNMAPPED. -/
def State.granuleUnits (s : State) (id : CmdId) (c : Cmd) (n : Ns) (g : Nat) : Option (List (Nat × Option Bytes)) :=
  let r := blockRange n c.sqe
  let nsid := sqeNsid c.sqe
  let zero := c.sqe.opcode == 0x08
  let data := if zero then List.replicate r.2 0 else ((writeBlocks n c.sqe c.data).map (·.1)).flatten
  (unitsIn r g).foldr (fun u acc =>
    match acc with
    | none => none
    | some l =>
      if wholeUnit r u then some ((u, if zero then none else some (overlay r data u [])) :: l)
      else match s.oldUnit id (unitKey nsid u) with
        | none => none
        | some old => some ((u, some (overlay r data u old)) :: l)) (some [])

/-- The metadata unit that a granule commit writes (R253); none when its old contents cannot be read. An inner none is no metadata. -/
def State.granuleMeta (s : State) (id : CmdId) (c : Cmd) (n : Ns) (g : Nat) : Option (Option (Nat × Bytes)) :=
  if !writesMeta c n then some none
  else (s.oldUnit id (unitKey (sqeNsid c.sqe) (metaUnit g))).map (fun old =>
    some (metaUnit g, overlayMeta n c.sqe g (writeBlocks n c.sqe c.data) old))

/-- Everything that a granule commit writes: its units, and its metadata unit. -/
def State.granuleParts (s : State) (id : CmdId) (c : Cmd) (n : Ns) (g : Nat) :
    Option (List (Nat × Option Bytes) × Option (Nat × Bytes)) :=
  match s.granuleUnits id c n g, s.granuleMeta id c n g with
  | some us, some m => some (us, m)
  | _, _ => none

/-- One granule of a write goes to the partner with the write's ASN, its metadata unit first; an unmapped unit carries no data (R572,
R579). -/
def State.sendLeg (s : State) (id : CmdId) (c : Cmd) (g : Nat) (us : List (Nat × Option Bytes)) (m : Option (Nat × Bytes)) : State :=
  let us := (m.toList.map (fun m => (m.1, some m.2))) ++ us
  (us.foldl (fun s u => s.sendFrame 2 c.asn (sqeNsid c.sqe) u.1 (.unitData none (u.2.getD []))) s).updCmd id
    (fun c => { c with legs := c.legs ++ [g] })

/-- Mirror legs of a write (R572, R579): each granule whose lock is granted goes to the partner once, when what it merges with has been
read. -/
def State.sendLegs (s : State) (id : CmdId) : State :=
  match s.cmd id with
  | none => s
  | some c =>
    match s.ns (sqeNsid c.sqe) with
    | none => s
    | some n =>
      if !s.mirrorLegs (sqeNsid c.sqe) then s
      else (c.uncommitted.filter (fun g => !c.legs.contains g && s.grantedFor id g)).foldl (fun s g =>
        let s1 := s.fetchUnits id (mergeKeys c n g)
        if !s1.merged id c n g then s1
        else match s1.granuleParts id c n g with
          | none => s1
          | some p => s1.sendLeg id c g p.1 p.2) s

/-- HELD has arrived for units of a write, where the namespace is mirrored (R579). -/
def State.heldAll (s : State) (asn : BitVec 48) (nsid : Nat) (us : List Nat) : Bool :=
  !s.mirrorLegs nsid || us.all (fun u => s.swl.confirmed.contains (asn, nsid, u))

/-- The confirmations of some units have served their commit. -/
def State.dropConfirmed (s : State) (asn : BitVec 48) (nsid : Nat) (us : List Nat) : State :=
  { s with swl := { s.swl with confirmed := s.swl.confirmed.filter (fun e => !(e.1 == asn && e.2.1 == nsid && us.contains e.2.2)) } }

/-- The units that a write takes slots for: those of its range, and a metadata unit for each granule (R141, R253). -/
def writeUnits (n : Ns) (e : Sqe) : Nat :=
  let r := blockRange n e
  ((granulesOf r).map (unitsIn r)).flatten.length + (if metaBytes n.lbaf = 0 then 0 else (granulesOf r).length)

/-- WRITE (R26, R30, R141, R148, R149, R255): its checks, then its data moves into the protected buffer, whatever its locks; it waits
while the buffer has no room. `bad` is a unit that fails its check on entry. -/
def execWrite (id : CmdId) (data : Bytes) (s : State) (bad : Option TagFault := none) : Host.Outcome State Fault Refusal :=
  .next (match s.live id false 0x01 with
    | none => s
    | some c =>
      if c.moved ∨ c.away then s
      else match s.blockTarget c true with
        | .error st => (s.finish id st).releaseAll id
        | .ok n =>
          if !s.hasRoom (writeUnits n c.sqe) then s
          else match faultOf bad with
          | some b => s.badTransfer id c b
          | none => (s.updCmd id (fun c => { c with
            data := padTo (if strips n c.sqe then sqeBlocks c.sqe * lbaBytes n.lbaf else blockTransfer n c.sqe) data
            moved := true, uncommitted := granulesOf (blockRange n c.sqe), needFlash := s.writeThrough c })).sendLegs id)

/-- WRITE_ZEROES (R139, R252): no data moves; its granules commit as a write's do. -/
def execWriteZeroes (id : CmdId) (s : State) : Host.Outcome State Fault Refusal :=
  .next (match s.live id false 0x08 with
    | none => s
    | some c =>
      if c.moved ∨ c.away then s
      else match s.blockTarget c false with
        | .error st => (s.finish id st).releaseAll id
        | .ok n => (s.updCmd id (fun c => { c with
            moved := true, uncommitted := granulesOf (blockRange n c.sqe), needFlash := s.writeThrough c })).sendLegs id)

/-- A write whose data are all there completes once none of its granules waits (R141, R144). -/
def State.endWrite (s : State) (id : CmdId) : State :=
  match s.cmd id with
  | some c =>
    if c.uncommitted.isEmpty then
      let s1 := (s.updCmd id (fun c => { c with data := [] })).unstage (.cmd id)
      if c.needFlash ∧ c.flashWait.any (fun k => !s.onFlash k) then s1 else (s1.finish id .success).writeDone id
    else s
  | none => s

/-- What a write that must be on flash waits for after a map change (R144, log 87): units with data by their keys, and a unit that
became UNMAPPED by the journal. -/
def State.noteChanged (s : State) (id : CmdId) (keys : List Nat) (unmapped : Bool) : State :=
  match s.cmd id with
  | some c =>
    if unmapped ∧ c.needFlash then (s.noteCommitted id (0 :: keys)).programJournal s.nss.journal.length else s.noteCommitted id keys
  | none => s

/-- A granule of a write becomes visible: its units and its metadata unit take their new contents, and its lock is released. -/
def State.commitGranule (s : State) (id : CmdId) (g : Nat) (c : Cmd) (us : List (Nat × Option Bytes)) (gm : Option (Nat × Bytes)) :
    State :=
  let nsid := sqeNsid c.sqe
  let touched := us.map (·.1) ++ gm.toList.map (·.1)
  let s1 := us.foldl (fun s u => match u.2 with
    | none => s.unmap (unitKey nsid u.1)
    | some d => s.putUnit (unitKey nsid u.1) d c.gen.toNat) (s.dropConfirmed c.asn nsid touched)
  let s2 := match gm with
    | none => s1
    | some m => s1.putUnit (unitKey nsid m.1) m.2 c.gen.toNat
  let keys := (us.filter (fun u => u.2.isSome)).map (fun u => unitKey nsid u.1) ++
    gm.toList.map (fun m => unitKey nsid m.1)
  let s3 := ((s2.updCmd id (fun c => { c with uncommitted := c.uncommitted.filter (· != g) })).release id g).noteDirty nsid g
  ((s3.noteChanged id keys (us.any (fun u => u.2.isNone))).programBuffer false).endWrite id

/-- A write that meets a unit that cannot be read fails: nothing of that granule or of the later ones commits (R243, R253). -/
def State.failWrite (s : State) (id : CmdId) : State :=
  (((s.updCmd id (fun c => { c with uncommitted := [], data := [] })).finish id .unrecoveredReadError).releaseAll id).writeDone id

/-- A granule of a write whose lock is granted commits, or waits for the units that it merges with to be read (R253), for the partner
(R579), or for a slot for each of its units (R255). -/
def State.tryCommit (s : State) (id : CmdId) (g : Nat) (c : Cmd) (n : Ns) : State :=
  let s1 := s.fetchUnits id (mergeKeys c n g)
  if !s1.merged id c n g then s1
  else (s1.granuleParts id c n g).elim (s1.failWrite id) (fun p =>
    if !s1.heldAll c.asn (sqeNsid c.sqe) (p.1.map (·.1) ++ p.2.toList.map (·.1)) then s1.sendLegs id
    else if !s1.slotsFor (p.1.length + p.2.toList.length) then s1.programBuffer true
    else s1.commitGranule id g c p.1 p.2)

/-- GRANULE_COMMIT (R141, R143, R252, R253, R579): the granule's units become visible together, the lock is released, and
the write has its result once every granule has committed; on a mirrored namespace the partner must hold the units first. -/
def execGranuleCommit (id : CmdId) (g : Nat) (s : State) : Host.Outcome State Fault Refusal :=
  .next (match s.cmd id with
    | none => s
    | some c =>
      let op := c.sqe.opcode.toNat
      if c.result.isSome ∨ c.sqe.admin ∨ (op ≠ 0x01 ∧ op ≠ 0x08) ∨ !c.moved ∨ !c.uncommitted.contains g ∨
          !s.grantedFor id g ∨ !s.psm.mode.engines then s
      else match s.ns (sqeNsid c.sqe) with
        | none => s
        | some n => s.tryCommit id g c n)

/-- A read's progress (R141, R244): the units of every granule whose lock is granted are looked up, and a granule whose
units are all in the SPL working area is released. -/
def State.readProgress (s : State) (id : CmdId) (c : Cmd) (n : Ns) (r : Nat × Nat) : State :=
  let nsid := sqeNsid c.sqe
  let keys := fun (g : Nat) => (unitsIn r g).map (unitKey nsid) ++
    (if metaBytes n.lbaf = 0 then [] else [unitKey nsid (metaUnit g)])
  (granulesOf r).foldl (fun s g =>
    if s.grantedFor id g then
      let s1 := s.fetchUnits id (keys g)
      if (keys g).all (fun k => (s1.stagedFor (.cmd id) k).isSome) then s1.release id g else s1
    else s) s

/-- The blocks of a range, once all its units are staged: outer none while one is missing, inner none when one was not
recovered. -/
def State.readBlocks (s : State) (id : CmdId) (c : Cmd) (n : Ns) (r : Nat × Nat) : Option (Option (List (Bytes × Bytes))) :=
  let nsid := sqeNsid c.sqe
  let us := ((granulesOf r).map (unitsIn r)).flatten
  let gs := if metaBytes n.lbaf = 0 then [] else granulesOf r
  match s.gather (.cmd id) (us.map (unitKey nsid)), s.gather (.cmd id) (gs.map (fun g => unitKey nsid (metaUnit g))) with
  | some ds, some ms =>
    if (ds ++ ms).any (·.isNone) then some none
    else
      let base := 4096 * us.headD 0
      let data := (ds.map (·.getD [])).flatten
      let mbase := granulesOf r |>.headD 0
      let md := (ms.map (·.getD [])).flatten
      let d := lbaBytes n.lbaf
      let per := 262144 / d
      some (some ((List.range (r.2 / d)).map (fun i =>
        let lba := r.1 / d + i
        let clear := n.pi != 0 && (s.entry (unitKey nsid (lba * d / 4096))).state == .unmapped
        (slice data (lba * d - base) d,
         if clear then List.replicate (metaBytes n.lbaf) 0xFF
         else slice md ((lba / per - mbase) * 4096 + lba % per * metaBytes n.lbaf) (metaBytes n.lbaf)))))
  | _, _ => none

/-- READ (R139, R141, R243): the data of the latest write accepted before it, once every unit is in the SPL. -/
def execRead (id : CmdId) (s : State) : Host.Outcome State Fault Refusal :=
  .next (match s.live id false 0x02 with
    | none => s
    | some c =>
      if c.away then s
      else match s.blockTarget c true with
        | .error st => (s.finish id st).releaseAll id
        | .ok n =>
          let s1 := s.readProgress id c n (blockRange n c.sqe)
          match s1.readBlocks id c n (blockRange n c.sqe) with
          | none => s1
          | some none => s1.finish id .unrecoveredReadError
          | some (some bs) =>
            let t := joinTransfer n c.sqe bs
            (((s1.dataWrite id 0 ((blockRange n c.sqe).1 / 4096) t.1).cmdWrite id c.sqe.mptr (2 ^ 36) t.2).finish id .success).unstage (.cmd id))

/-- COMPARE (R139): the range read under shared locks against the host's data. -/
def execCompare (id : CmdId) (data : Bytes) (s : State) : Host.Outcome State Fault Refusal :=
  .next (match s.live id false 0x05 with
    | none => s
    | some c =>
      if c.away then s
      else match s.blockTarget c true with
        | .error st => (s.finish id st).releaseAll id
        | .ok n =>
          let s1 := s.readProgress id c n (blockRange n c.sqe)
          match s1.readBlocks id c n (blockRange n c.sqe) with
          | none => s1
          | some none => s1.finish id .unrecoveredReadError
          | some (some bs) =>
            let same := if strips n c.sqe then (bs.map (·.1)).flatten == padTo (sqeBlocks c.sqe * lbaBytes n.lbaf) data
              else bs == splitTransfer n (sqeBlocks c.sqe) data
            (s1.finish id (if same then .success else .compareFailure)).unstage (.cmd id))

/-- VERIFY (R139): the range read under shared locks, and nothing returned. -/
def execVerify (id : CmdId) (s : State) : Host.Outcome State Fault Refusal :=
  .next (match s.live id false 0x0C with
    | none => s
    | some c =>
      if c.away then s
      else match s.blockTarget c false with
        | .error st => (s.finish id st).releaseAll id
        | .ok n =>
          let s1 := s.readProgress id c n (blockRange n c.sqe)
          match s1.readBlocks id c n (blockRange n c.sqe) with
          | none => s1
          | some none => s1.finish id .unrecoveredReadError
          | some (some _) => (s1.finish id .success).unstage (.cmd id))

/-- The namespaces of the function that a Flush or Dataset Management names (R137). -/
def State.nsScope (s : State) (c : Cmd) : Option (List Nat) :=
  if c.sqe.nsid = 0xFFFFFFFF then some ((s.nsOf c.func).map (·.1))
  else match s.ns (sqeNsid c.sqe) with
    | some n => if n.attached = some c.func then some [sqeNsid c.sqe] else none
    | none => none

/-- FLUSH (R146, R580): complete once the writes accepted before it have completed and nothing of them is left in the buffer; for
a mirrored namespace the partner flushes its copy too, and then what the partner's writes have brought here is programmed. -/
def execFlush (id : CmdId) (s : State) : Host.Outcome State Fault Refusal :=
  .next (match s.live id false 0x00 with
    | none => s
    | some c =>
      match s.nsScope c with
      | none => s.finish id .invalidNamespaceOrFormat
      | some nsids =>
        let pend := c.waitFor.filter (fun i => match s.cmd i with | some x => x.result.isNone | none => false)
        let left := c.flashWait.filter (fun k => !s.onFlash k)
        let both := if c.fromPartner then [] else nsids.filter s.linkedNs
        let s1 := s.updCmd id (fun c => { c with waitFor := pend, flashWait := left })
        if !pend.isEmpty ∨ !left.isEmpty then s1.programBuffer true
        else if both.isEmpty ∨ c.flushed then s1.finish id .success
        else match c.partnerFlush with
          | none =>
            (both.foldl (fun s i => s.sendFrame 4 0 i 0 (.command id { c.sqe with nsid := BitVec.ofNat 32 i })) s1).updCmd id
              (fun c => { c with partnerFlush := some both.length })
          | some 0 =>
            (s1.updCmd id (fun c => { c with flushed := true, flashWait := s1.bufferedKeys both })).programBuffer true
          | some _ => s1)

/-- The units that the ranges of a Dataset Management cover completely, taken together (R140, R252). -/
def wholeUnits (n : Ns) (rs : List DsmRange) : List Nat :=
  let d := lbaBytes n.lbaf
  let runs := mergeRuns (((rs.filter (fun r => r.len != 0)).map (fun r => (r.slba, r.slba + r.len - 1))).foldl
    (fun acc r => insertRun r acc) [])
  runs.flatMap (fun r => (List.range ((r.2 + 1) * d / 4096 - ceilDiv (r.1 * d) 4096)).map (· + ceilDiv (r.1 * d) 4096))

/-- The ranges of a Dataset Management are in: its entries on whole namespaces give way to one for each run of granules, with the same
ASN (R140, R142), unless these would not fit in the table (log 18). -/
def State.dsmLocks (s : State) (id : CmdId) (asnOf : Nat → BitVec 48) (nss : List (Nat × Ns)) (rs : List DsmRange) : State :=
  let s1 := nss.foldl (fun s e => s.takeLocks id e.1 (asnOf e.1) true
    (rs.map (fun r => (r.slba * lbaBytes e.2.lbaf, r.len * lbaBytes e.2.lbaf)))) (s.releaseAll id)
  (if s1.hif.locks.length ≤ 262144 then s1 else s).updCmd id (fun c => { c with moved := true })

/-- A deallocate commits (R147, R150, R252): every unit that it covers completely is UNMAPPED, and its locks are released. -/
def State.dsmCommit (s : State) (id : CmdId) (asnOf : Nat → BitVec 48) (nss : List (Nat × Ns)) (rs : List DsmRange) (through : Bool) :
    State :=
  let s1 := nss.foldl (fun s e => (wholeUnits e.2 rs).foldl (fun s u => (s.unmap (unitKey e.1 u)).noteDirty e.1 (u / 64))
    (s.dropConfirmed (asnOf e.1) e.1 (wholeUnits e.2 rs))) s
  let s2 := (s1.releaseAll id).updCmd id (fun c => { c with uncommitted := [], needFlash := through })
  (s2.noteChanged id [] true).endWrite id

/-- The ASN under which a command stands in a namespace's order (R137): its own, or the one it took there. -/
def Cmd.asnIn (c : Cmd) (nsid : Nat) : BitVec 48 :=
  match c.asns.find? (fun a => a.1 == nsid) with
  | some a => a.2
  | none => c.asn

/-- The namespaces that a Dataset Management acts on, out of those it names: of every namespace, not the object namespaces, nor those
that the partner owns. -/
def State.dsmScope (s : State) (c : Cmd) (nsids : List Nat) : List (Nat × Ns) :=
  let nss := nsids.filterMap (fun i => (s.ns i).map (fun n => (i, n)))
  if c.sqe.nsid = 0xFFFFFFFF then nss.filter (fun e => !e.2.object && !s.forwards e.1) else nss

/-- Why a Dataset Management is refused, from its namespaces and its ranges (R35, R147, R149). -/
def dsmRefused (e : Sqe) (nss : List (Nat × Ns)) (rs : List DsmRange) : Option Status :=
  if nss.any (fun x => x.2.object) then some .invalidOpcode
  else if sglShort e (16 * (field e.cdw10.toNat 7 0 + 1)) then some .dataSglLengthInvalid
  else if nss.any (fun x => rs.any (fun r => decide (x.2.blocks < r.slba + r.len))) then some .invalidField
  else none

/-- DATASET_MANAGEMENT (R140, R144, R147, R252, R579): with the deallocate attribute, once all its entries of the lock table are
granted, and the partner holds the change of a mirrored namespace, every unit that the ranges cover completely is UNMAPPED. -/
def execDatasetManagement (id : CmdId) (ranges : List DsmRange) (s : State) : Host.Outcome State Fault Refusal :=
  .next (match s.live id false 0x09 with
    | none => s
    | some c =>
      if c.away ∨ c.needFlash then s
      else match s.nsScope c with
        | none => s.finish id .invalidNamespaceOrFormat
        | some nsids =>
          let rs := ranges.take (field c.sqe.cdw10.toNat 7 0 + 1)
          let nss := s.dsmScope c nsids
          let asnOf := c.asnIn
          match dsmRefused c.sqe nss rs with
          | some st => ((s.finish id st).releaseAll id).writeDone id
          | none =>
            if !bit c.sqe.cdw11.toNat 2 then (s.finish id .success).writeDone id
            else
              let s1 := if c.moved then s else s.dsmLocks id asnOf nss rs
              if !s1.allGranted id then s1
              else if c.legs.isEmpty ∧ nss.any (fun e => s1.mirrorLegs e.1) then
                (nss.foldl (fun s e => if s1.mirrorLegs e.1 then
                  (wholeUnits e.2 rs).foldl (fun s u => s.sendFrame 2 (asnOf e.1) e.1 u (.unitData none [])) s else s) s1).updCmd id
                    (fun c => { c with legs := [0] })
              else if !nss.all (fun e => s1.heldAll (asnOf e.1) e.1 (wholeUnits e.2 rs)) then s1
              else s1.dsmCommit id asnOf nss rs (s.volatileNow && !(s.fn c.func).wce))

/-- ABORT (R155, R161): the target is aborted only while it still waits for a lock after this cycle's grants. A ninth outstanding Abort
runs like any other (log 102). -/
def execAbort (id : CmdId) (s : State) : Host.Outcome State Fault Refusal :=
  .next (match s.live id true 0x08 with
    | none => s
    | some c =>
      let q := field c.sqe.cdw10.toNat 15 0
      let cid := field c.sqe.cdw10.toNat 31 16
      match (s.inflightOf c.func).find? (fun e => e.2.sq == q && e.2.sqe.cid.toNat == cid && e.1 != id && e.2.result.isNone) with
      | some t =>
        if s.allGranted t.1 then s.finish id .success 1
        else
          let s1 := (s.updCmd t.1 (fun c => { c with uncommitted := [], data := [] })).finish t.1 .commandAbortRequested
          (((s1.releaseAll t.1).unstage (.cmd t.1)).writeDone t.1).finish id .success 0
      | none => s.finish id .success 1)

end Sys2Proof.Machine
end

