-- ==== Sys2Proof/Machine/Flash.lean ====
section
/-! DEFINITION. The commands of the flash media subsystem: reads and their ladder, programs and erases, folding, collection,
wear, disturb, patrol, the hot tier, the journal, read-only, and discovery at BOOT (R233 to R283). -/

namespace Sys2Proof.Machine

/-! ### Reads -/

/-- A read in flight that resolved to a superblock ends (R263). -/
def State.endRead (s : State) (i : Nat) (op : FlashOp) : State :=
  (s.setOp i none).updSb (sbKey op.quad op.sb) (fun b => { b with readers := b.readers - 1 })

/-- Who a read operation is for. -/
def FlashOp.asker (op : FlashOp) (who : Reader) : Asker :=
  { who := who, nsid := op.nsid, objId := op.objId, unitBase := op.unitBase, func := op.func, gen := op.gen.toNat }

/-- The units of a read with what decoded at each (R242): nothing where the decoder failed, or where nothing is programmed. -/
def State.readWords (s : State) (op : FlashOp) (r : ReadOutcome) : List (Nat × Nat × Option Codeword) :=
  op.units.zipIdx.map (fun u => (u.1.1, u.1.2,
    if r.failed.contains u.2 then none
    else match r.misread.find? (fun m => m.1 == u.2) with
      | some m => some m.2
      | none => s.cell u.1.2))

/-- The units that decoded. -/
def decodedUnits (ws : List (Nat × Nat × Option Codeword)) : List (Nat × Nat × Codeword) :=
  ws.filterMap (fun u => u.2.2.map (fun w => (u.1, u.2.1, w)))

/-- The units that did not decode, with their addresses. -/
def failedUnits (ws : List (Nat × Nat × Option Codeword)) : List (Nat × Nat) :=
  (ws.filter (fun u => u.2.2.isNone)).map (fun u => (u.1, u.2.1))

/-- A decoded unit goes to its reader when its key and its tag hold (R24, R25, R244, R249). -/
def State.deliver (s : State) (a : Asker) (u : Nat × Nat × Codeword) : State :=
  if isChunkKey u.1 && (s.chunk (chunkOf u.1)).isNone then s.stage a.who u.1 none
  else match s.decodeUnit u.1 u.2.2 (s.readerTrailer a u.1) with
    | .data d => s.stage a.who u.1 (some d)
    | .badKey => s.readMismatch a u.1 (0x0900 + dieChannel (paddrDie u.2.1))
    | .badTag => s.readMismatch a u.1 0x0AFF

/-- Units that have failed rung 3 of a read (R243): each map entry is set LOST, unless the map names another place by now. -/
def State.loseFailed (s : State) (us : List (Nat × Nat)) : State :=
  us.foldl (fun s u =>
    let e := s.entry u.1
    if e.state = .flash ∧ e.paddr + (u.1 - entryOf u.1) = u.2 then s.unrecovered u.1 u.2 else s) s

/-- The hot-tier copy of an extent is dropped (R257, R260). -/
def State.dropCopy (s : State) (ext : Nat) : State :=
  let k := chunkKey (ext / 4) (64 * (ext % 4))
  let s1 := { s with flash := { s.flash with hot := Mem.set none s.flash.hot ext none } }
  if (s1.entry k).hot then s1.putEntry k { s1.entry k with hot := false } else s1

/-- The dies of a read have succeeded, but for those of the units that failed (R268). -/
def State.readResults (s : State) (op : FlashOp) (failed : List (Nat × Nat)) : State :=
  s.dieResults (op.units.map (fun u => paddrDie u.2)) (failed.map (fun u => paddrDie u.2)) 0

/-- A rung of a read for a reader (R242 to R244, R260): what decoded is delivered; the rest climbs, or after rung 3 is lost, or, from
a hot-tier copy, is read again from the location that the map names. -/
def State.readRung (s : State) (i : Nat) (op : FlashOp) (who : Reader) (rung : Nat) (r : ReadOutcome) : State :=
  let a := op.asker who
  let ws := s.readWords op r
  let bad := failedUnits ws
  let s1 := (decodedUnits ws).foldl (fun s u => s.deliver a u) s
  if bad.isEmpty then ((s1.endRead i op).readResults op []).eraseEmpty
  else if rung < 3 then
    (s1.countPages (bad.map (·.2))).setOp i (some { op with kind := .read (some who) 0 (rung + 1), units := bad })
  else
    let s2 := (s1.endRead i op).readResults op bad
    if op.hot then
      (s2.dropCopy (4 * chunkOf (bad.headD (0, 0)).1 + extOf (bad.headD (0, 0)).1)).fetchEntry a (bad.map (·.1)) |>.eraseEmpty
    else (bad.foldl (fun s u => s.stage who u.1 none) (s2.loseFailed bad)).eraseEmpty

/-- The share of the SLC write buffer that is in use (R255): superblocks in use, and superblocks it has, over the quads used. -/
def State.slcOccupancy (s : State) : Nat × Nat :=
  (s.quads.foldl (fun n q => n + s.sbsInUse q .write) 0, s.quads.length * s.slcLimit false)

/-- Folding runs only on dies without host work (R255; the share counted over the device, log 91). -/
def State.foldYields (s : State) : Bool := decide (2 * s.slcOccupancy.1 < s.slcOccupancy.2)

/-- The codewords of an entry among those that a copy has read. -/
def entryWords (ws : List (Option Codeword)) (k : Nat) : List (Option Codeword) :=
  ws.filter (fun w => match w with | some w => entryOf (ledgerKey w.key.toNat) == k | none => false)

/-- The entries that a copy read, as they are programmed: those of which every unit decoded and that still lie in the source. -/
def State.copyEntries (s : State) (sb : Nat) (ws : List (Option Codeword)) (hot : Bool) : List ProgEntry :=
  (nubNat (ws.filterMap (fun w => w.map (fun w => entryOf (ledgerKey w.key.toNat))))).filterMap (fun k =>
    let e := s.entry k
    let us := entryWords ws k
    if e.state = .flash ∧ (hot ∨ paddrSb e.paddr = sb) ∧ us.length = (s.entryUnits k).length then
      some (k, e.paddr, us ++ List.replicate (keyUnits k - us.length) none)
    else none)

/-- Copies that left a hot-tier superblock under reclaim are programmed again while there is room (R260). -/
def State.flushRecopy (s : State) : State :=
  s.flash.recopy.foldl (fun s e =>
    let x := s.entry e.1
    if x.state ≠ .flash then { s with flash := { s.flash with recopy := s.flash.recopy.erase e } }
    else
      let s1 := s.startProgram .hot 3 [(e.1, x.paddr, e.2.2)] (fun q => q == x.paddr / 2 ^ 33)
      if s1.flash.nextOp = s.flash.nextOp then s
      else { s1 with flash := { s1.flash with recopy := s1.flash.recopy.erase e } }) s

/-- What a copy has read goes to its destination, with its ciphertext unchanged (R256, R262): native mode for a fold or a
collection; of a hot-tier superblock the copies leave it, and are programmed again once it is erased (R260). -/
def State.copyRead (s : State) (q sb purpose : Nat) (ws : List (Option Codeword)) : State :=
  let k := sbKey q sb
  let es := s.copyEntries k ws (purpose == 3)
  if purpose = 3 then
    let exts := s.flash.hot.filterMap (fun e => match e.2 with | some p => if paddrSb p = k then some e.1 else none | none => none)
    let s1 := exts.foldl State.dropCopy s
    ({ s1 with flash := { s1.flash with recopy := s1.flash.recopy ++ es } }.eraseEmpty).flushRecopy
  else s.startProgram .native purpose es (fun d => purpose != 1 || !s.foldYields || s.quadIdle d)

/-- A rung of a read for a copy (R249, R255, R262, R267): a unit read from a wrong place is reported and stays where it is; one that
fails rung 3 is lost, and the others go on. -/
def State.copyRung (s : State) (i : Nat) (op : FlashOp) (purpose rung : Nat) (r : ReadOutcome) : State :=
  let ws := s.readWords op r
  let bad := failedUnits ws
  let wrong := fun (u : Nat × Nat × Codeword) => u.2.2.key != BitVec.ofNat 64 (codeKey u.1 (s.unitLen u.1))
  let s1 := ((decodedUnits ws).filter wrong).foldl (fun s u =>
    let t := s.restTrailer u.1
    s.reportTag (0x0900 + dieChannel (paddrDie u.2.1)) t.func t.nsid t.unitNo) s
  let got := op.words ++ ((decodedUnits ws).filter (fun u => !wrong u)).map (fun u => some u.2.2)
  if !bad.isEmpty && decide (rung < 3) then
    (s1.countPages (bad.map (·.2))).setOp i (some { op with kind := .read none purpose (rung + 1), units := bad, words := got })
  else
    let s2 := (s1.endRead i op).readResults op bad
    let s3 := if purpose = 3 then s2 else s2.loseFailed bad
    (s3.copyRead op.quad op.sb purpose got).eraseEmpty

/-- A completed rung of a read in progress, when it is the rung that the operation is at. -/
def State.readStep (s : State) (i : Nat) (first : Bool) (r : ReadOutcome) : State :=
  match s.op i with
  | some op => (match op.kind with
      | .read who purpose rung =>
        if (rung == 0) != first then s
        else (match who with
          | some w => s.readRung i op w rung r
          | none => s.copyRung i op purpose rung r)
      | _ => s)
  | none => s

/-- FLASH_READ_COMPLETE (R25, R242, R244): the first read of some units, at the blocks' tracked thresholds. -/
def execFlashReadComplete (i : Nat) (r : ReadOutcome) (s : State) : Host.Outcome State Fault Refusal := .next (s.readStep i true r)

/-- LADDER_RUNG_READ (R242): an extra read of rung 1 to 3 and its soft decode. -/
def execLadderRungRead (i : Nat) (r : ReadOutcome) (s : State) : Host.Outcome State Fault Refusal := .next (s.readStep i false r)

/-! ### Programs and erases -/

/-- The entries of a program with the address each goes to and its words (R237). -/
def programParts (p : Nat) : List (Nat × Nat) → List (Option Codeword) → List (Nat × Nat × Nat × List (Option Codeword))
  | [], _ => []
  | u :: us, ws => (u.1, u.2, p, ws.take (keyUnits u.1)) :: programParts (p + keyUnits u.1) us (ws.drop (keyUnits u.1))

/-- Members of a superblock that a program of `n` units touches (R237). -/
def membersFrom (p n : Nat) : List Nat := nubNat ((List.range n).map (fun i => paddrMember (p + i)))

/-- A part of a program lies on a member that failed. -/
def partHit (failed : List Nat) (u : Nat × Nat × Nat × List (Option Codeword)) : Bool :=
  (membersFrom u.2.2.1 u.2.2.2.length).any (fun m => failed.contains m)

/-- A part of a program that succeeded: it stands on the dies, and the map and the buffer follow (R141, R256, R260, R262). -/
def State.partDone (s : State) (slc : Bool) (purpose : Nat) (u : Nat × Nat × Nat × List (Option Codeword)) : State :=
  let s1 := s.setCells u.2.2.1 u.2.2.2
  if purpose = 0 ∨ purpose = 5 then s1.bufferDone slc u.1 u.2.1 u.2.2.1 (u.2.2.2.countP (·.isSome))
  else s1.copyDone slc (purpose == 3) u.1 u.2.1 u.2.2.1

/-- Valid units on member `m` of a superblock. -/
def State.unitsOn (s : State) (k m : Nat) : Nat :=
  ((s.mappedIn k).map (fun u => (s.entryUnits u.1).countP (fun v => paddrMember (u.2.1 + (v - entryOf u.1)) == m))).foldl (· + ·) 0

/-- The record of a failed program on member `m` (R262, R267); `hit` counts the units that were being programmed. -/
def State.programFailRecord (s : State) (op : FlashOp) (purpose hit m : Nat) : State :=
  let k := sbKey op.quad op.sb
  if purpose = 2 then s.raise evGcDestFail 255 [(1, op.quad), (4, op.sb), (4, hit)]
  else s.raise evProgramFail 255 [(2, nth 0 (quadDies op.quad) m), (4, nth 0 (s.memberBlocks k) m), (1, s.psm.mode.code),
    (4, s.unitsOn k m + hit)]

/-- The parts of a program that failed are programmed elsewhere (R262, R267, R274, R279): on another quad, or, where none takes
them, on another superblock; a drain program is repeated once, and a hot-tier copy is given up. -/
def State.redirect (s : State) (op : FlashOp) (slc : Bool) (purpose : Nat) (es : List ProgEntry) : State :=
  let u := if slc then SbUse.write else .native
  let p := if purpose = 0 ∧ s.psm.mode = .drain then 5 else purpose
  if es.isEmpty ∨ purpose = 3 ∨ purpose = 5 then s
  else
    let s1 := s.startProgram u p es (fun q => q != op.quad)
    if s1.flash.nextOp = s.flash.nextOp then s.startProgram u p es (fun _ => true) else s1

/-- A program failed on some members (R262, R267): the superblock is closed and queued for relocation, and the blocks are retired
once it is empty. -/
def State.programFailed (s : State) (op : FlashOp) (slc : Bool) (purpose : Nat) (failed : List Nat) : State :=
  let k := sbKey op.quad op.sb
  let hit := (programParts op.dest op.units op.words).filter (partHit failed)
  let units := (hit.map (fun u => u.2.2.2.countP (·.isSome))).foldl (· + ·) 0
  let s1 := if (s.sb k).state = .opened then s.closeSb k else s
  let s2 := s1.updSb k (fun b => { b with relocate := true, failedMembers := nubNat (b.failedMembers ++ failed) })
  let s3 := failed.foldl (fun s m => s.programFailRecord op purpose units m) s2
  s3.redirect op slc purpose (hit.map (fun u => (u.1, u.2.1, u.2.2.2)))

/-- FLASH_PROGRAM_COMPLETE (R25, R145, R267): `failed` are the members on which it failed. -/
def execFlashProgramComplete (i : Nat) (failed : List Nat) (s : State) : Host.Outcome State Fault Refusal :=
  .next (match s.op i with
    | some op => (match op.kind with
        | .program slc purpose =>
          let parts := programParts op.dest op.units op.words
          let ms := membersFrom op.dest op.words.length
          let bad := ms.filter (fun m => failed.contains m)
          let s1 := (parts.filter (fun u => !partHit bad u)).foldl (fun s u => s.partDone slc purpose u) (s.setOp i none)
          let s2 := if bad.isEmpty then s1 else s1.programFailed op slc purpose bad
          let s3 := s2.dieResults (ms.map (nth 0 (quadDies op.quad))) (bad.map (nth 0 (quadDies op.quad))) 1
          let s4 := s3.programmed.eraseEmpty
          ({ s4 with flash := { s4.flash with
              collecting := s4.flash.collecting.filter (fun q => decide (s4.quadFree q < s4.flash.cfg.gcStart)) } }).settleHoldup
        | _ => s)
    | none => s)

/-- The blocks of a superblock's members but the failed ones are erased: what they held is gone, and their counts rise (R239,
R264). -/
def State.eraseBlocks (s : State) (k : Nat) (failed : List Nat) : State :=
  ((List.range 4).filter (fun m => !failed.contains m)).foldl (fun s m =>
    let b := s.memberKey k m
    { s with flash := { s.flash with
        cells := Mem.keep (fun c => c / 2 ^ 14 != b) s.flash.cells
        erases := Mem.upd 0 s.flash.erases b (· + 1) } }) s

/-- FLASH_ERASE_COMPLETE (R264, R267, R268): the superblock is free with one more erase; member blocks whose erase fails, or that
failed before, are retired. -/
def execFlashEraseComplete (i : Nat) (failed : List Nat) (s : State) : Host.Outcome State Fault Refusal :=
  .next (match s.op i with
    | some op => (match op.kind with
        | .erase =>
          let k := sbKey op.quad op.sb
          let ds := quadDies op.quad
          let bad := (List.range 4).filter (fun m => failed.contains m)
          let s1 := (s.setOp i none).eraseBlocks k bad
          let s2 := bad.foldl (fun s m => s.raise evEraseFail 255 [(2, nth 0 ds m), (4, nth 0 (s.memberBlocks k) m),
            (4, Mem.get 0 s.flash.erases (s.memberKey k m))]) s1
          let worn := nubNat (bad ++ (s2.sb k).failedMembers)
          let s3 := (s2.updSb k (fun b => { b with
            state := .free, erases := b.erases + 1, reads := [0, 0, 0, 0], fill := 0, relocate := false, hot := false, slc := false
            metadata := false, failedMembers := [], patrolled := none })).retireMembers k worn
          let s4 := if (s3.sb k).state = .free then ds.foldl (fun s d => s.updDie d (fun x => { x with free := x.free + 1 })) s3 else s3
          ((s4.dieResults ds (bad.map (nth 0 ds)) 2).checkSpare).flushRecopy
        | _ => s)
    | none => s)

/-- PROGRAM_SUSPEND (R244): a program or erase is suspended for a read that waits on one of its dies, at most 4 times. -/
def execProgramSuspend (i : Nat) (s : State) : Host.Outcome State Fault Refusal :=
  .next (match s.op i with
    | some op => (match op.kind with
        | .read _ _ _ => s
        | _ =>
          let waits := s.flash.ops.any (fun o => match o.2 with
            | some r => (match r.kind with
                | .read _ _ _ => r.units.any (fun u => (quadDies op.quad).contains (paddrDie u.2))
                | _ => false)
            | none => false)
          if op.suspended < 4 ∧ waits then s.setOp i (some { op with suspended := op.suspended + 1 }) else s)
    | none => s)

/-- DIE_FAILED (R268): busy for 10 ms, or three operations failed in a row. -/
def execDieFailed (die : Nat) (busy : Bool) (s : State) : Host.Outcome State Fault Refusal :=
  .next (if busy then s.failDie die 3 else if 3 ≤ (s.die die).failures then s.failDie die 1 else s)

/-! ### Folding, collection and wear -/

/-- The first of some superblocks by a measure; ties go to the earlier in the list. -/
def leastBy (m : Nat × Sb → Nat) : List (Nat × Sb) → Option (Nat × Sb)
  | [] => none
  | x :: xs => match leastBy m xs with
    | none => some x
    | some y => if m x ≤ m y then some x else some y

/-- The closed superblocks of a quad that satisfy a test. -/
def State.closedIn (s : State) (q : Nat) (p : Sb → Bool) : List (Nat × Sb) :=
  s.flash.sbs.filter (fun e => e.1 / 2 ^ 17 == q && e.2.state == .closed && p e.2 && !s.sbBusy e.1)

/-- Background media work runs (R274). -/
def State.mediaWork (s : State) : Bool :=
  match s.psm.mode with | .service | .degraded => true | .maintenance => !s.psm.heldFromHalt | _ => false

/-- FOLD (R255, R256): the oldest closed SLC superblock's valid units go to native mode; while less than half of the write buffer is
in use, only from dies with no host work queued. -/
def execFold (q : Nat) (s : State) : Host.Outcome State Fault Refusal :=
  .next (if !s.mediaWork ∨ (s.foldYields ∧ !s.quadIdle q) then s
    else match leastBy (fun e => e.2.closedAt) (s.closedIn q (fun b => b.isFor .write)) with
      | some e => s.relocateSb e.1 1
      | none => s)

/-- GC_START (R261, R265 to R267): superblocks queued for relocation first, then below GC_START the closed native-mode one
with the fewest valid units, the earliest closed of several. -/
def execGcStart (q : Nat) (s : State) : Host.Outcome State Fault Refusal :=
  .next (if !s.mediaWork then s
    else match leastBy (fun e => e.2.closedAt) (s.closedIn q (fun b => b.relocate && !b.hot && !b.metadata)) with
      | some e => (s.updSb e.1 (fun b => { b with relocate := false })).relocateSb e.1 2
      | none =>
        if s.quadFree q < s.flash.cfg.gcStart ∧ s.quadUsed q then
          match leastBy (fun e => s.validUnits e.1 * 2 ^ 40 + e.2.closedAt) (s.closedIn q (fun b => !b.slc)) with
          | some e =>
            ({ s with flash := { s.flash with collecting := nubNat (s.flash.collecting ++ [q]) } }).relocateSb e.1 2
          | none => s
        else s)

/-- WEAR_LEVEL_RELOCATE (R264): when the erase counts within a quad differ by more than WEAR_SPREAD, the data of the
least-worn superblock that holds data moves. -/
def execWearLevelRelocate (q : Nat) (s : State) : Host.Outcome State Fault Refusal :=
  let sbs := s.flash.sbs.filter (fun e => e.1 / 2 ^ 17 == q)
  let hi := sbs.foldl (fun n e => Nat.max n e.2.erases) 0
  let lo := if sbs.length < s.quadBlocks q then 0 else sbs.foldl (fun n e => Nat.min n e.2.erases) hi
  .next (if !s.mediaWork ∨ hi - lo ≤ s.flash.cfg.wearSpread then s
    else match leastBy (fun e => e.2.erases) ((s.closedIn q (fun b => !b.hot && !b.metadata)).filter (fun e => s.validUnits e.1 != 0)) with
      | some e => s.relocateSb e.1 2
      | none => s)

/-! ### The hot tier -/

/-- The counters of a sketch row for an extent (R258). -/
def State.sketchKeys (s : State) (ext : Nat) : List Nat :=
  let h := (Config.sketchHash s.flash.sketchKey ext).toNat
  (List.range 4).map (fun i => i * 65536 + h / 2 ^ (16 * i) % 65536)

/-- The estimate of an extent: the least of its four counters (R258). -/
def State.estimate (s : State) (ext : Nat) : Nat :=
  ((s.sketchKeys ext).map (fun k => Mem.get 0 s.flash.sketch k)).foldl Nat.min 65535

/-- A read of an object chunk extent for a VIEW READ is counted (R258). -/
def State.countRead (s : State) (ext : Nat) : State :=
  { s with flash := { s.flash with
      sketch := (s.sketchKeys ext).foldl (fun m k => Mem.upd 0 m k (fun n => Nat.min (n + 1) 65535)) s.flash.sketch
      increments := s.flash.increments + 1 } }

/-- A hot-tier superblock is reclaimed (R260, R281): the copies whose estimate is at least HOT_PROMOTE are read, to be copied
again, and the rest are dropped. -/
def State.reclaimHot (s : State) (k : Nat) : State :=
  let here := s.flash.hot.filterMap (fun e => match e.2 with | some p => if paddrSb p = k then some (e.1, p) else none | none => none)
  let s1 := (here.filter (fun e => decide (s.estimate e.1 < s.flash.cfg.hotPromote))).foldl (fun s e => s.dropCopy e.1) s
  let kept := here.filter (fun e => decide (s.flash.cfg.hotPromote ≤ s.estimate e.1))
  if kept.isEmpty then s1.eraseEmpty
  else s1.startCopy k 3 (kept.map (fun e => (chunkKey (e.1 / 4) (64 * (e.1 % 4)), e.2)))

/-- READ_DISTURB_RELOCATE (R265, R281). -/
def execReadDisturbRelocate (q sb : Nat) (s : State) : Host.Outcome State Fault Refusal :=
  let b := s.sb (sbKey q sb)
  let n := b.reads.foldl Nat.max 0
  let limit := if b.slc then s.flash.cfg.rdSlc else s.flash.cfg.rdNative
  .next (if n < limit ∨ !s.mediaWork ∨ b.state = .free ∨ s.sbBusy (sbKey q sb) then s
    else
      let s1 := s.raise evReadDisturbRelocate 255 [(1, q), (4, sb), (4, n)]
      let s2 := if b.state = .opened then s1.closeSb (sbKey q sb) else s1
      if b.hot then s2.reclaimHot (sbKey q sb) else s2.relocateSb (sbKey q sb) 2)

/-- DISTURB_CHECKPOINT (R265). -/
def execDisturbCheckpoint (s : State) : Host.Outcome State Fault Refusal :=
  .next (if !s.mayProgram then s
    else { s with flash := { s.flash with
      checkpoint := s.flash.sbs.foldl (fun m e => Mem.set [0, 0, 0, 0] m e.1 e.2.reads) [] } })

/-- The addresses of the runs that a patrol scan reads in a superblock: one run in 64, the members in turn (log 92). -/
def patrolRuns (k fill : Nat) : List Nat := (List.range (ceilDiv fill 1024)).map (fun j => paddrOf k (16 * (64 * j + j % 4)))

/-- The period of PATROL_DAYS days of operating time that runs now (R266). -/
def State.patrolPeriod (s : State) : Nat := s.recd.hours / (24 * Nat.max 1 s.flash.cfg.patrolDays)

/-- The patrol scan retunes the thresholds of a superblock's blocks (R242, R266): the values that a die settles on are open. -/
def State.retune (s : State) (k : Nat) : State :=
  (List.range 4).foldl (fun s m =>
    let t := s.draw 16
    { t.2 with flash := { t.2.flash with thresholds := Mem.set 0 t.2.flash.thresholds (t.2.memberKey k m) t.1 } }) s

/-- PATROL_SCAN (R266): `rung` is the rung the runs needed, `corrected` the share of the hard capability in percent. A closed
superblock is scanned once in each period, while no host work is queued on its dies. -/
def execPatrolScan (q sb rung corrected : Nat) (s : State) : Host.Outcome State Fault Refusal :=
  let k := sbKey q sb
  .next (if (s.psm.mode ≠ .service ∧ s.psm.mode ≠ .degraded) ∨ (s.sb k).state ≠ .closed ∨ !s.quadIdle q ∨
      (s.sb k).patrolled = some s.patrolPeriod then s
    else
      let s1 := (s.countPages (patrolRuns k (s.sb k).fill)).retune k
      s1.updSb k (fun b => { b with
        patrolled := some s.patrolPeriod, relocate := b.relocate || decide (2 ≤ rung ∨ 70 < corrected) }))

/-- HOT_PROMOTE (R258, R260): an extent in flash without a copy, whose estimate has reached HOT_PROMOTE, is programmed from the
ciphertext that the read has placed in the SPL, in the quad where it lies (log 93). When that quad has no room, its oldest hot-tier
superblock is reclaimed. -/
def execHotPromote (ext : Nat) (s : State) : Host.Outcome State Fault Refusal :=
  let k := chunkKey (ext / 4) (64 * (ext % 4))
  let e := s.entry k
  let q := e.paddr / 2 ^ 33
  let ws := (s.entryUnits k).map (fun u => s.cell (e.paddr + (u - k)))
  let has := s.flash.ops.any (fun o => match o.2 with
    | some op => op.kind == .program true 3 && op.units.any (fun u => u.1 == k)
    | none => false)
  .next (if (s.chunk (ext / 4)).isNone ∨ e.state ≠ .flash ∨ e.hot ∨ has ∨ s.estimate ext < s.flash.cfg.hotPromote ∨ !s.mediaWork ∨
      s.flash.cfg.hotTier = 0 ∨ ws.any (·.isNone) then s
    else if (s.place .hot 64 64 (fun x => x == q)).isSome then
      s.startProgram .hot 3 [(k, e.paddr, ws ++ List.replicate (64 - ws.length) none)] (fun x => x == q)
    else match leastBy (fun e => e.2.closedAt) (s.closedIn q (fun b => b.hot)) with
      | some e => s.reclaimHot e.1
      | none => s)

/-- SKETCH_HALVING (R258). -/
def execSketchHalving (s : State) : Host.Outcome State Fault Refusal :=
  .next (if s.flash.increments < 2 ^ 20 then s
    else { s with flash := { s.flash with
      sketch := (s.flash.sketch.map (fun e => (e.1, e.2 / 2))).filter (fun e => e.2 != 0)
      increments := s.flash.increments - 2 ^ 20 } })

/-! ### The journal -/

/-- JOURNAL_PROGRAM (R251): a full 256 KiB of 16-byte records goes to an SLC metadata superblock. -/
def execJournalProgram (s : State) : Host.Outcome State Fault Refusal :=
  .next (if s.nss.journal.length < 16384 then s else s.programJournal 16384)

/-- The dirty pages of the map cache are written and the directory with them (R250, R251). -/
def State.checkpointMaps (s : State) : State :=
  let s1 := (s.nss.cache.filter (·.dirty)).foldl (fun s c => s.writePage c.page) s
  { s1 with nss := { s1.nss with
      cache := s1.nss.cache.map (fun c => { c with dirty := false })
      checkpointed := s1.nss.directory, checkpoints := s1.nss.checkpoints + 1, journalPages := [], changed := [] } }

/-- MAP_CHECKPOINT (R251): after every 64 MiB of records, which are 16,384 journal pages. -/
def execMapCheckpoint (s : State) : Host.Outcome State Fault Refusal :=
  .next (if s.nss.journalPages.length < 16384 ∨ !s.mayProgram then s else s.checkpointMaps.eraseEmpty)

/-- The dies in service. -/
def State.usedDies (s : State) : List (Nat × Die) := s.flash.dies.filter (fun e => e.2.state == 1)

/-- WRITE_STOP_READ_ONLY (R271): the free-block count of a used die falls to 8. -/
def execWriteStopReadOnly (die : Nat) (s : State) : Host.Outcome State Fault Refusal :=
  .next (if (s.die die).state ≠ 1 ∨ 8 < (s.die die).free ∨ s.flash.readOnly ∨ !s.psm.mode.live then s
    else
      let lo := s.usedDies.foldl (fun n e => Nat.min n e.2.free) 1000000
      let hi := s.usedDies.foldl (fun n e => Nat.max n e.2.free) 0
      let s1 := { s with flash := { s.flash with readOnly := true, readOnlySince := s.recd.hours } }
      ((s1.raise evWriteStopReadOnly 255 [(2, die), (4, lo), (4, hi)]).setCause 0 evWriteStopReadOnly.code).smartEvent 0)

/-- READ_ONLY_CLEARED (R272): every used die again holds 24 free blocks. -/
def execReadOnlyCleared (s : State) : Host.Outcome State Fault Refusal :=
  .next (if !s.flash.readOnly ∨ s.usedDies.any (fun e => decide (e.2.free < 24)) then s
    else
      let s1 := { s with flash := { s.flash with readOnly := false } }
      (s1.raise evReadOnlyCleared 255 [(4, s.recd.hours - s.flash.readOnlySince)]).clearCause 0 evReadOnlyCleared.code)

/-! ### Discovery at BOOT -/

/-- The rates of an interface, fastest first (R234). -/
def ifaceRates (lpddr4 : Bool) : List Nat :=
  if lpddr4 then [3600, 3200, 2400, 1600, 1200, 800] else [1600, 1200, 800]

/-- A channel's training (R238): the first listed rate at or below the configured one at which both eyes are at least 0.30
unit intervals, with the eyes. -/
def trainChannel (cfg : Nat) (r : ChanReport) : Option (Nat × Nat × Nat) :=
  ((ifaceRates r.lpddr4).filter (fun x => decide (x ≤ cfg))).findSome? (fun x =>
    (r.eyes.find? (fun e => e.1 == x)).bind (fun e => if 300 ≤ e.2.1 ∧ 300 ≤ e.2.2 then some e else none))

/-- One channel's outcome of training, with LINK_RATE_REDUCED when its rate is below the configured one (R238). -/
def State.trained (s : State) (r : ChanReport) : State :=
  let cfg := if r.lpddr4 then s.flash.cfg.rate else Nat.min s.flash.cfg.rate 1600
  if !s.flash.cfg.chanEn.getLsbD r.ch then s
  else
    let t := trainChannel cfg r
    let rate := match t with | some e => e.1 | none => 0
    let c : Chan := match t with
      | some e => { iface := if r.lpddr4 then 2 else 1, rate := e.1, readEye := e.2.1, writeEye := e.2.2, trained := true }
      | none => {}
    let s1 := { s with flash := { s.flash with
      chans := Mem.set {} s.flash.chans r.ch { c with wpHigh := t.isSome } } }
    if rate = cfg then s1 else s1.raiseFrom (0x0900 + r.ch) evLinkRateReduced 255 [(1, r.ch), (2, cfg), (2, rate)]

/-- The geometry that a die reports (R235). -/
def dieGeometry (d : DieReport) : Nat × Nat × Nat × Nat × Nat := (d.pageBytes, d.spareBytes, d.planes, d.blocks, d.blockBytes)

/-- A die whose parameter page reads, and that keeps the first two sentences of R235. -/
def DieReportOk (d : DieReport) : Bool :=
  d.crcOk && d.pageBytes == 16384 && decide (1760 ≤ d.spareBytes) && (d.planes == 2 || d.planes == 4) && decide (d.blockBytes ≤ 67108864)

/-- Native-mode blocks of a die that are good. -/
def dieGood (d : DieReport) : Nat := d.blocks - d.bad.length

/-- The combination that the reference is made of (R235). -/
def dieCombo (d : DieReport) : (Nat × Nat × Nat × Nat × Nat) × Nat × Nat := (dieGeometry d, d.cell, d.timing)

/-- The reference combination (R235): the one most dies report, a tie to the lowest-numbered die's. -/
def reference (ds : List DieReport) : Option ((Nat × Nat × Nat × Nat × Nat) × Nat × Nat) :=
  (ds.foldl (fun (b : Option (DieReport × Nat)) d =>
    let n := ds.countP (fun x => dieCombo x == dieCombo d)
    match b with
    | none => some (d, n)
    | some x => if x.2 < n ∨ (x.2 = n ∧ d.die < x.1.die) then some (d, n) else b) none).map (fun x => dieCombo x.1)

/-- A used die of a whole quad takes its place (R635): at first BOOT its spares are set, the good blocks beyond the M that its quad
uses; `m` is M. -/
def State.takeDie (s : State) (d : DieReport) (m : Nat) : State :=
  s.updDie d.die (fun x =>
    if x.good = 0 then
      let y : Die := { x with state := 1, cell := d.cell, good := dieGood d, bad := d.bad, free := m, spareFirst := dieGood d - m }
      { y with spares := (List.range (dieGood d - m)).map (fun i => y.goodBlock (m + i)) }
    else { x with state := if x.state = 2 then 2 else 1 })

/-- What the first BOOT fixes of the media (R254, R269, R367, log 81): B, the units of a superblock, the raw capacity and the device
metadata key. -/
def State.firstBoot (s : State) (whole : List DieReport) : State :=
  match whole with
  | [] => s
  | d :: _ =>
    if s.flash.blocks ≠ 0 then s
    else
      let k := s.draw 512
      { k.2 with
        flash := { k.2.flash with
          blocks := d.blocks, sbUnits := Nat.min 65536 (4 * d.blockBytes / 4096)
          rawBytes := whole.foldl (fun n d => n + d.blocks * d.blockBytes) 0 }
        nss := { k.2.nss with metaKey := some (leBytes 64 k.1.toNat) } }

/-- A die that is not used is recorded (R235). -/
def State.excludeDie (s : State) (d : DieReport) (why : Nat) : State :=
  (s.updDie d.die (fun x => { x with state := if x.state = 2 then 2 else 3 })).raiseFrom
    (0x0900 + dieChannel d.die) evFlashDieExcluded 255 [(2, d.die), (1, why)]

/-- FLASH_DISCOVERY (R235, R236, R238, R635): training, exclusion, complete quads, and at first BOOT the spares. -/
def execFlashDiscovery (dies : List DieReport) (chans : List ChanReport) (s : State) : Host.Outcome State Fault Refusal :=
  .next (if s.psm.mode ≠ .boot ∨ s.psm.pins.testEn then s
    else
      let s1 := chans.foldl State.trained s
      let found := dies.filter (fun d => (Mem.get {} s1.flash.chans (dieChannel d.die)).trained)
      let good := found.filter DieReportOk
      let ref := reference good
      let fits := good.filter (fun d => some (dieCombo d) == ref)
      let whole := fits.filter (fun d => (quadDies (dieQuad d.die)).all (fun x => fits.any (fun y => y.die == x)))
      let s2 := (found.filter (fun d => !DieReportOk d)).foldl (fun s d => s.excludeDie d 3) s1
      let s3 := (good.filter (fun d => !fits.contains d)).foldl (fun s d => s.excludeDie d 1) s2
      let s4 := (fits.filter (fun d => !whole.contains d)).foldl (fun s d => s.excludeDie d 2) s3
      let b := match whole with | d :: _ => d.blocks | [] => 0
      let s5 := whole.foldl (fun s d => s.takeDie d
        (((fits.filter (fun x => dieQuad x.die == dieQuad d.die)).map dieGood).foldl Nat.min 1000000 - b * 25 / 1000)) s4
      let s6 := s5.firstBoot whole
      if whole.isEmpty then
        let v := s6.draw 16
        v.2.dangerHalt evBootSelftestFail 0x09FF [(2, 0x09FF), (2, v.1.toNat)] false
      else s6)

/-- JOURNAL_REPLAY (R251, R265, R531): the maps are loaded from the last checkpoint and the records since; every unit that a ledger
word with bit [62] set names is LOST; the read counts come back from their checkpoint, raised by a quarter of the limit when the last
power-down did not complete its DRAIN. -/
def execJournalReplay (s : State) : Host.Outcome State Fault Refusal :=
  .next (if s.psm.mode ≠ .boot ∨ s.psm.pins.testEn ∨ s.flash.journalRead then s
    else
      let lost := s.nss.ledger.filterMap (fun e => match e.2 with
        | some w => if bit w 62 then some (entryOf (ledgerKey w)) else none
        | none => none)
      let s0 := s.replayMaps
      let s1 := (nubNat lost).foldl State.loseUnit { s0 with nss := { s0.nss with slots := [], ledger := [], staged := [] } }
      let raised := fun (b : Sb) (n : Nat) =>
        if s.flash.drained then n else n + (if b.slc then s.flash.cfg.rdSlc else s.flash.cfg.rdNative) / 4
      { s1 with
        swl := { s1.swl with replayed := s1.nss.changed }
        flash := { s1.flash with
          drained := false, journalRead := true, ops := [], recopy := []
          sbs := s1.flash.sbs.map (fun e => if e.2.state = .free then e else
            (e.1, { e.2 with readers := 0, reads := (Mem.get [0, 0, 0, 0] s1.flash.checkpoint e.1).map (raised e.2) })) } })

end Sys2Proof.Machine
end

