-- ==== Sys2Proof/Machine/Chunks.lean ====
section
/-! DEFINITION. Objects with their extent maps, stored chunks with their references, the lookup of the Chive table, and appends
stored and undone (R41 to R45, R61 to R63, R247, R432). -/

namespace Sys2Proof.Machine

/-! ### Objects and their extent maps -/

/-- The object ID of a command: dwords 10 and 11 (R49). -/
def sqeOid (e : Sqe) : Nat := e.cdw10.toNat + e.cdw11.toNat * 2 ^ 32

/-- An object by namespace and object ID. -/
def State.obj (s : State) (nsid oid : Nat) : Option Obj := s.objs.objects.find? (fun o => o.nsid == nsid && o.oid == oid)

/-- The state with an object changed. -/
def State.updObj (s : State) (nsid oid : Nat) (g : Obj → Obj) : State :=
  { s with objs := { s.objs with objects := s.objs.objects.map (fun o => if o.nsid == nsid && o.oid == oid then g o else o) } }

/-- CHUNK_EXT of each extent of an object, in order (R43, R247). -/
def Obj.chunkExts (o : Obj) : List Nat :=
  (List.range (ceilDiv o.length 262144)).filterMap (fun e => (o.chunks[e / 4]?).map (fun r => 4 * r.chunk + e % 4))

/-- The extent map entries that change from one list to another are journalled; those beyond the new list have MAPPED 0 (R247,
R251). -/
def State.journalMap (s : State) (i : Nat) (old new : List (Nat × BitVec 16)) : State :=
  ((List.range (Nat.max old.length new.length)).filter (fun e => new[e]? != old[e]?)).foldl (fun s e =>
    s.journalRecord (objExtKey i e) (match new[e]? with | some x => extWord x | none => 0)) s

/-- An object's extent map follows its chunks (R247, R248). -/
def State.mapObject (s : State) (nsid oid : Nat) : State :=
  match s.obj nsid oid with
  | none => s
  | some o =>
    let new := o.chunkExts.zipIdx.map (fun x => extEntry o.tableIndex x.2 x.1)
    (s.updObj nsid oid (fun o => { o with extents := new })).journalMap o.tableIndex o.extents new

/-- The lowest object table index under which no extent map is kept. -/
def State.freeIndex (s : State) : Nat :=
  let used := s.objs.objects.map (·.tableIndex) ++ s.objs.deleted.map (·.1.tableIndex)
  ((List.range (used.length + 1)).find? (fun i => !used.contains i)).getD 0

/-! ### Reading objects and chunks -/

/-- The units that hold bytes from `lo` up to `hi` of an object, as its extent map names them: the unit's number in the object, and
its key. -/
def Obj.unitsAt (o : Obj) (lo hi : Nat) : List (Nat × Nat) :=
  if hi ≤ lo then []
  else (List.range (ceilDiv hi 4096 - lo / 4096)).filterMap (fun i =>
    (o.extents[(lo / 4096 + i) / 64]?).map (fun x =>
      (lo / 4096 + i, chunkKey (x.1 / 4) (64 * (x.1 % 4) + (lo / 4096 + i) % 64))))

/-- What a reader of an object's extent `e` asks for (R45). -/
def objAsker (who : Reader) (o : Obj) (gen e : Nat) : Asker :=
  { who := who, nsid := o.nsid, objId := o.oid, unitBase := 64 * e, func := o.func, gen := gen }

/-- The row of the object lookup cache for a page of an object's extent map (R432). -/
def objRow (o : Obj) (page : Nat) : BitVec 144 := BitVec.ofNat 144 (o.oid + o.nsid * 2 ^ 64 + o.func * 2 ^ 96 + page * 2 ^ 104)

/-- A page of an object's extent map is found: in the object lookup cache, a hit confirmed by its CHECK, or through the map cache, and
then the page's map entry takes a row in place of the oldest of 16,384 (R250, R432, log 96). -/
def State.findPage (s : State) (o : Obj) (page : Nat) : State :=
  let p := objExtKey o.tableIndex (512 * page) / 512
  let good := fun (w : BitVec 64) => BitVec.ofNat 16 (field w.toNat 63 48) == mapCheck (field w.toNat 47 0) (512 * p)
  if s.asu.objCache.any (fun r => r.1 == objRow o page && good r.2) then s
  else
    let s1 := s.touchPage p false
    match Mem.get none s1.nss.directory p with
    | none => s1
    | some a =>
      let rest := s1.asu.objCache.filter (fun r => r.1 != objRow o page)
      let w := (({ state := .flash, paddr := a } : MapEntry).seal (512 * p)).word
      { s1 with asu := { s1.asu with objCache := rest.drop (rest.length + 1 - 16384) ++ [(objRow o page, BitVec.ofNat 64 w)] } }

/-- Some units of an object are looked up for a reader, through its extent map (R45, R244, R248, R432). -/
def State.fetchObject (s : State) (who : Reader) (o : Obj) (gen : Nat) (us : List (Nat × Nat)) : State :=
  (nubNat (us.map (fun u => u.1 / 64))).foldl (fun s e =>
    let ks := (us.filter (fun u => u.1 / 64 == e)).map (·.2)
    let a := objAsker who o gen e
    let s := s.findPage o (e / 512)
    if (o.extents[e]?).all (fun x => x.2 == mapCheck (x.1 + 2 ^ 42) (objExtKey o.tableIndex e)) then s.fetchEntry a ks
    else s.readMismatch a (ks.headD 0) 0x0930) s

/-- Bytes `lo` up to `hi` of an object, once a reader has all their units: outer none while one is missing, inner none when one could
not be read. -/
def State.objBytes (s : State) (who : Reader) (o : Obj) (lo hi : Nat) : Option (Option Bytes) :=
  (s.gather who ((o.unitsAt lo hi).map (·.2))).map (fun ds =>
    if ds.any (·.isNone) then none else some (((ds.map (·.getD [])).flatten.drop (lo % 4096)).take (hi - lo)))

/-- The units of a stored chunk, by key. -/
def State.chunkKeys (s : State) (c : Nat) : List Nat :=
  match s.chunk c with
  | some x => (List.range (ceilDiv x.len 4096)).map (chunkKey c)
  | none => []

/-- A stored chunk is looked up for its own comparison or fingerprint (R58, R65). -/
def State.fetchChunk (s : State) (who : Reader) (c : Nat) : State :=
  match s.chunk c with
  | none => s
  | some x => (List.range 4).foldl (fun s e =>
      s.fetchEntry { who := who, nsid := x.originNs, objId := x.originObj, unitBase := 256 * x.originIndex + 64 * e, func := x.func
                     gen := (s.fn x.func).gen.toNat } ((s.chunkKeys c).filter (fun k => extOf k == e))) s

/-- The bytes of a stored chunk, once a reader has them: outer none while one unit is missing, inner none when one could not be
read. -/
def State.chunkBytes (s : State) (who : Reader) (c : Nat) : Option (Option Bytes) :=
  (s.gather who (s.chunkKeys c)).map (fun ds => if ds.any (·.isNone) then none else some ((ds.map (·.getD [])).flatten))

/-! ### References -/

/-- The row of the hot subset for a digest (R61): the function, and digest bits [255:192]. -/
def chiveKey (f : Nat) (d : Bytes) : BitVec 72 := BitVec.ofNat 72 (f % 256 * 2 ^ 64 + beAt d 0 8)

/-- The DRAM address of a Chive table entry, from the start of the table's reservation (R61). -/
def Chive.addr (e : Chive) : BitVec 64 := BitVec.ofNat 64 (64 * e.slot)

/-- Chive table entries leave the table, and their rows the hot subset (R61, R63). -/
def State.dropChive (s : State) (p : Chive → Bool) : State :=
  let gone := (s.objs.chive.filter p).map (·.addr)
  { s with
    objs := { s.objs with chive := s.objs.chive.filter (fun e => !p e) }
    asu := { s.asu with chiveHot := s.asu.chiveHot.filter (fun r => !gone.contains r.2) } }

/-- The entry that confirms a digest of a function for another chunk than `own` (R60, R61): a row of the hot subset names a candidate,
whose full digest decides; a miss, or a candidate with another digest, leaves the search to the table in DRAM (log 96). -/
def State.chiveLookup (s : State) (f : Nat) (d : Bytes) (own : Nat) : Option Chive :=
  let same := fun (e : Chive) => e.func == f && e.digest == d && e.chunk != own
  match (s.asu.chiveHot.find? (fun r => r.1 == chiveKey f d)).bind (fun r => s.objs.chive.find? (fun e => e.addr == r.2)) with
  | some e => if same e then some e else s.objs.chive.find? same
  | none => s.objs.chive.find? same

/-- A Chive table entry takes a row of the hot subset, in place of the oldest of its 16,384 72-bit rows (R432, log 96). -/
def State.cacheChive (s : State) (e : Chive) : State :=
  let rest := s.asu.chiveHot.filter (fun r => r.1 != chiveKey e.func e.digest)
  { s with asu := { s.asu with chiveHot := rest.drop (rest.length + 1 - 16384) ++ [(chiveKey e.func e.digest, e.addr)] } }

/-- Frees a chunk: its table entry, its slots and its copies go, and its charge is refunded (R62, R63, log 39). -/
def State.freeChunk (s : State) (c : Nat) : State :=
  match s.chunk c with
  | none => s
  | some x =>
    let s1 := (List.range 4).foldl (fun s e => (s.unmap (chunkKey c (64 * e))).dropCopy (4 * c + e)) s
    ((s1.dropChive (fun e => e.chunk == c)).setChunk c none).updFn x.func (fun f => { f with
      capacityUsed := f.capacityUsed - x.len })

/-- One reference to a chunk ends (R63). -/
def State.dropRef (s : State) (c : Nat) : State :=
  match s.chunk c with
  | none => s
  | some x =>
    if x.pinned then s
    else if x.refs ≤ 1 then s.freeChunk c
    else s.setChunk c (some { x with refs := x.refs - 1 })

/-- One more reference to a chunk; the count stays at 0xFFFF_FFFF and the entry becomes pinned (R62, R63). -/
def State.addRef (s : State) (c : Nat) : State :=
  match s.chunk c with
  | none => s
  | some x =>
    if x.refs < 0xFFFFFFFF then s.setChunk c (some { x with refs := x.refs + 1 })
    else if x.pinned then s
    else (s.setChunk c (some { x with pinned := true })).raise evChivePinned x.func [(1, x.func), (5, c)]

/-! ### Appends -/

/-- An extent's units go into a fresh run of 64 slots, and its chunk-map entry is in state BUFFER (R141, R246). -/
def State.putExtent (s : State) (c e : Nat) (us : List Bytes) (gen : Nat) : State :=
  let k := chunkKey c (64 * e)
  match s.freeRuns with
  | [] => s
  | r :: _ =>
    let s1 := (List.range 64).foldl (fun s i => s.takeSlot (r + i) (k + i)) ((s.dropBuffer k).dropCopy (4 * c + e))
    (us.zipIdx.foldl (fun s u => s.fillSlot (r + u.2) (k + u.2) u.1 gen) s1).setEntry k { state := .buffer, paddr := r }

/-- Chunk `n` of an object, new where the object has none yet: the next stored-chunk number that is not in use (R44, R247). -/
def State.ownChunk (s : State) (o : Obj) (n : Nat) : State × Nat :=
  match o.chunks[n]? with
  | some r => (s, r.chunk)
  | none =>
    let base := s.objs.nextChunk
    let c := ((List.range (s.objs.chunks.length + 1)).map (fun i => (base + BitVec.ofNat 40 i).toNat)).find? (fun c =>
      (s.chunk c).isNone) |>.getD base.toNat
    let x : Chunk :=
      { func := o.func, len := 0, exts := List.replicate 4 {}, originNs := o.nsid, originObj := o.oid, originIndex := n }
    let s1 := { s with objs := { s.objs with nextChunk := BitVec.ofNat 40 c + 1 } }
    ((s1.setChunk c (some x)).updObj o.nsid o.oid (fun o => { o with chunks := o.chunks.take n ++ [{ chunk := c }] }), c)

/-- Bytes that fit in one extent are appended to an object at its length (R43, R141): further slots of an extent in the buffer, or a
fresh run with the units `old` that the extent had. -/
def State.appendExtent (s : State) (nsid oid : Nat) (data : Bytes) (gen : Nat) (old : List Bytes) : State :=
  match s.obj nsid oid with
  | none => s
  | some o =>
    let pos := o.length
    let r := s.ownChunk o (pos / 1048576)
    let e := pos % 1048576 / 262144
    let k := chunkKey r.2 (64 * e)
    let p := pos % 262144 / 4096
    let s1 := match r.1.chunk r.2 with
      | some x => r.1.setChunk r.2 (some { x with len := pos % 1048576 + data.length })
      | none => r.1
    let us := chunksOf 4096 data
    let s2 := if p ≠ 0 ∧ (s1.entry k).state = .buffer then
        us.zipIdx.foldl (fun s u => s.fillSlot ((s1.entry k).paddr + p + u.2) (k + p + u.2) u.1 gen) s1
      else s1.putExtent r.2 e (old ++ us) gen
    s2.updObj nsid oid (fun o => { o with length := o.length + data.length })

/-- Appends data to an object's stored bytes, extent by extent (R43, R44, R50). `old` are the units of a last extent that is no longer
in the buffer. -/
def State.storeData (s : State) (nsid oid : Nat) (data : Bytes) (gen : Nat) (old : List Bytes) : State :=
  match s.obj nsid oid with
  | none => s
  | some o =>
    let room := 262144 - o.length % 262144
    let s1 := (s.appendExtent nsid oid (data.take room) gen old)
    let s2 := (chunksOf 262144 (data.drop room)).foldl (fun s d => s.appendExtent nsid oid d gen []) s1
    (s2.updObj nsid oid (fun o => { o with tailClosed := o.tailClosed || data.length % 4096 != 0 })).mapObject nsid oid

/-- A chunk is cut to its first `n` bytes, a multiple of 4,096; what it held beyond is refunded. -/
def State.cutChunk (s : State) (c n : Nat) : State :=
  match s.chunk c with
  | none => s
  | some x =>
    let s1 := ((List.range 4).filter (fun e => decide (n ≤ 262144 * e))).foldl (fun s e => s.unmap (chunkKey c (64 * e))) s
    match s1.chunk c with
    | none => s1
    | some y => (s1.setChunk c (some { y with len := Nat.min n x.len })).updFn x.func (fun f => { f with
        capacityUsed := f.capacityUsed - (x.len - n) })

/-- An append that has stored its data and not completed is undone (R41, R150, R178): the object has the length it had, and one that
the append created is absent again; what was stored beyond is freed and its charge refunded. -/
def State.undoAppend (s : State) (c : Cmd) : State :=
  let nsid := sqeNsid c.sqe
  let oid := sqeOid c.sqe
  match c.undo, s.obj nsid oid with
  | some len, some o =>
    let n := ceilDiv len 1048576
    let s1 := (o.chunks.drop n).foldl (fun s r => s.dropRef r.chunk) s
    let s2 := if len % 1048576 = 0 then s1
      else match o.chunks[n - 1]? with | some r => s1.cutChunk r.chunk (len % 1048576) | none => s1
    let s3 := (s2.updObj nsid oid (fun o => { o with length := len, tailClosed := false, chunks := o.chunks.take n })).mapObject nsid oid
    if len ≠ 0 then s3
    else { s3 with objs := { s3.objs with
        objects := s3.objs.objects.filter (fun x => !(x.nsid == nsid && x.oid == oid)) } }.updFn o.func (fun x => { x with
          objectsUsed := x.objectsUsed - 1 })
  | _, _ => s

end Sys2Proof.Machine
end

