-- ==== Sys2Proof/Machine/Sha.lean ====
section
/-! DEFINITION. The hash functions the manual takes from FIPS 180-4 and RFC 2104: SHA-256, SHA-384, SHA-512 and HMAC over
each (R384). -/

namespace Sys2Proof.Machine

/-- The constants of SHA-256 (FIPS 180-4). -/
def sha256K : List (BitVec 32) :=
  [0x428A2F98, 0x71374491, 0xB5C0FBCF, 0xE9B5DBA5, 0x3956C25B, 0x59F111F1, 0x923F82A4, 0xAB1C5ED5] ++
  [0xD807AA98, 0x12835B01, 0x243185BE, 0x550C7DC3, 0x72BE5D74, 0x80DEB1FE, 0x9BDC06A7, 0xC19BF174] ++
  [0xE49B69C1, 0xEFBE4786, 0x0FC19DC6, 0x240CA1CC, 0x2DE92C6F, 0x4A7484AA, 0x5CB0A9DC, 0x76F988DA] ++
  [0x983E5152, 0xA831C66D, 0xB00327C8, 0xBF597FC7, 0xC6E00BF3, 0xD5A79147, 0x06CA6351, 0x14292967] ++
  [0x27B70A85, 0x2E1B2138, 0x4D2C6DFC, 0x53380D13, 0x650A7354, 0x766A0ABB, 0x81C2C92E, 0x92722C85] ++
  [0xA2BFE8A1, 0xA81A664B, 0xC24B8B70, 0xC76C51A3, 0xD192E819, 0xD6990624, 0xF40E3585, 0x106AA070] ++
  [0x19A4C116, 0x1E376C08, 0x2748774C, 0x34B0BCB5, 0x391C0CB3, 0x4ED8AA4A, 0x5B9CCA4F, 0x682E6FF3] ++
  [0x748F82EE, 0x78A5636F, 0x84C87814, 0x8CC70208, 0x90BEFFFA, 0xA4506CEB, 0xBEF9A3F7, 0xC67178F2]

/-- The constants of SHA-512 (FIPS 180-4). -/
def sha512K : List (BitVec 64) :=
  [0x428A2F98D728AE22, 0x7137449123EF65CD, 0xB5C0FBCFEC4D3B2F, 0xE9B5DBA58189DBBC] ++
  [0x3956C25BF348B538, 0x59F111F1B605D019, 0x923F82A4AF194F9B, 0xAB1C5ED5DA6D8118] ++
  [0xD807AA98A3030242, 0x12835B0145706FBE, 0x243185BE4EE4B28C, 0x550C7DC3D5FFB4E2] ++
  [0x72BE5D74F27B896F, 0x80DEB1FE3B1696B1, 0x9BDC06A725C71235, 0xC19BF174CF692694] ++
  [0xE49B69C19EF14AD2, 0xEFBE4786384F25E3, 0x0FC19DC68B8CD5B5, 0x240CA1CC77AC9C65] ++
  [0x2DE92C6F592B0275, 0x4A7484AA6EA6E483, 0x5CB0A9DCBD41FBD4, 0x76F988DA831153B5] ++
  [0x983E5152EE66DFAB, 0xA831C66D2DB43210, 0xB00327C898FB213F, 0xBF597FC7BEEF0EE4] ++
  [0xC6E00BF33DA88FC2, 0xD5A79147930AA725, 0x06CA6351E003826F, 0x142929670A0E6E70] ++
  [0x27B70A8546D22FFC, 0x2E1B21385C26C926, 0x4D2C6DFC5AC42AED, 0x53380D139D95B3DF] ++
  [0x650A73548BAF63DE, 0x766A0ABB3C77B2A8, 0x81C2C92E47EDAEE6, 0x92722C851482353B] ++
  [0xA2BFE8A14CF10364, 0xA81A664BBC423001, 0xC24B8B70D0F89791, 0xC76C51A30654BE30] ++
  [0xD192E819D6EF5218, 0xD69906245565A910, 0xF40E35855771202A, 0x106AA07032BBD1B8] ++
  [0x19A4C116B8D2D0C8, 0x1E376C085141AB53, 0x2748774CDF8EEB99, 0x34B0BCB5E19B48A8] ++
  [0x391C0CB3C5C95A63, 0x4ED8AA4AE3418ACB, 0x5B9CCA4F7763E373, 0x682E6FF3D6B2B8A3] ++
  [0x748F82EE5DEFB2FC, 0x78A5636F43172F60, 0x84C87814A1F0AB72, 0x8CC702081A6439EC] ++
  [0x90BEFFFA23631E28, 0xA4506CEBDE82BDE9, 0xBEF9A3F7B2C67915, 0xC67178F2E372532B] ++
  [0xCA273ECEEA26619C, 0xD186B8C721C0C207, 0xEADA7DD6CDE0EB1E, 0xF57D4F7FEE6ED178] ++
  [0x06F067AA72176FBA, 0x0A637DC5A2C898A6, 0x113F9804BEF90DAE, 0x1B710B35131C471B] ++
  [0x28DB77F523047D84, 0x32CAAB7B40C72493, 0x3C9EBE0A15C9BEBC, 0x431D67C49C100D4C] ++
  [0x4CC5D4BECB3E42B6, 0x597F299CFC657E2A, 0x5FCB6FAB3AD6FAEC, 0x6C44198C4A475817]

/-- The initial hash of SHA-256. -/
def sha256H : List (BitVec 32) :=
  [0x6A09E667, 0xBB67AE85, 0x3C6EF372, 0xA54FF53A, 0x510E527F, 0x9B05688C, 0x1F83D9AB, 0x5BE0CD19]

/-- The initial hash of SHA-512. -/
def sha512H : List (BitVec 64) :=
  [0x6A09E667F3BCC908, 0xBB67AE8584CAA73B, 0x3C6EF372FE94F82B, 0xA54FF53A5F1D36F1] ++
  [0x510E527FADE682D1, 0x9B05688C2B3E6C1F, 0x1F83D9ABFB41BD6B, 0x5BE0CD19137E2179]

/-- The initial hash of SHA-384. -/
def sha384H : List (BitVec 64) :=
  [0xCBBB9D5DC1059ED8, 0x629A292A367CD507, 0x9159015A3070DD17, 0x152FECD8F70E5939] ++
  [0x67332667FFC00B31, 0x8EB44A8768581511, 0xDB0C2E0D64F98FA7, 0x47B5481DBEFA4FA4]

/-- What SHA-256 and SHA-512 differ in: rotation and shift amounts. -/
structure ShaSpec where
  bigA : Nat × Nat × Nat
  bigE : Nat × Nat × Nat
  smallA : Nat × Nat × Nat
  smallB : Nat × Nat × Nat

/-- The amounts of SHA-256. -/
def sha256Spec : ShaSpec := ⟨(2, 13, 22), (6, 11, 25), (7, 18, 3), (17, 19, 10)⟩

/-- The amounts of SHA-512 and SHA-384. -/
def sha512Spec : ShaSpec := ⟨(28, 34, 39), (14, 18, 41), (1, 8, 7), (19, 61, 6)⟩

/-- Three rotations combined. -/
def rot3 {w : Nat} (x : BitVec w) (r : Nat × Nat × Nat) : BitVec w :=
  x.rotateRight r.1 ^^^ x.rotateRight r.2.1 ^^^ x.rotateRight r.2.2

/-- Two rotations and a shift combined. -/
def rotShift {w : Nat} (x : BitVec w) (r : Nat × Nat × Nat) : BitVec w :=
  x.rotateRight r.1 ^^^ x.rotateRight r.2.1 ^^^ (x >>> r.2.2)

/-- The message schedule, newest word first, `n` more words. -/
def shaSchedule {w : Nat} (p : ShaSpec) : Nat → List (BitVec w) → List (BitVec w)
  | 0, ws => ws
  | n + 1, ws => shaSchedule p n
      ((rotShift (nth 0 ws 1) p.smallB + nth 0 ws 6 + rotShift (nth 0 ws 14) p.smallA + nth 0 ws 15) :: ws)

/-- One round on the eight working variables. -/
def shaRound {w : Nat} (p : ShaSpec) (v : List (BitVec w)) (kw : BitVec w × BitVec w) : List (BitVec w) :=
  match v with
  | [a, b, c, d, e, f, g, h] =>
    let t1 := h + rot3 e p.bigE + ((e &&& f) ^^^ (~~~e &&& g)) + kw.1 + kw.2
    let t2 := rot3 a p.bigA + ((a &&& b) ^^^ (a &&& c) ^^^ (b &&& c))
    [t1 + t2, a, b, c, d + t1, e, f, g]
  | _ => v

/-- One block added to the hash. -/
def shaBlock {w : Nat} (p : ShaSpec) (ks : List (BitVec w)) (h : List (BitVec w)) (blk : Bytes) : List (BitVec w) :=
  let m := (chunksOf (w / 8) blk).map (fun c => BitVec.ofNat w (beNat c))
  let ws := (shaSchedule p (ks.length - 16) m.reverse).reverse
  List.zipWith (· + ·) h ((List.zip ks ws).foldl (shaRound p) h)

/-- The message with its padding: 0x80, zeros, and the bit length in `lenBytes` bytes. -/
def shaPad (blk lenBytes : Nat) (m : Bytes) : Bytes :=
  let z := (blk - (m.length + 1 + lenBytes) % blk) % blk
  m ++ [0x80] ++ List.replicate z 0 ++ beBytes lenBytes (8 * m.length)

/-- SHA-256 (FIPS 180-4). -/
def sha256 (m : Bytes) : Bytes :=
  (((chunksOf 64 (shaPad 64 8 m)).foldl (shaBlock sha256Spec sha256K) sha256H).map (fun x => beBytes 4 x.toNat)).flatten

/-- SHA-512 (FIPS 180-4). -/
def sha512 (m : Bytes) : Bytes :=
  (((chunksOf 128 (shaPad 128 16 m)).foldl (shaBlock sha512Spec sha512K) sha512H).map (fun x => beBytes 8 x.toNat)).flatten

/-- SHA-384 (FIPS 180-4). -/
def sha384 (m : Bytes) : Bytes :=
  ((((chunksOf 128 (shaPad 128 16 m)).foldl (shaBlock sha512Spec sha512K) sha384H).map
    (fun x => beBytes 8 x.toNat)).flatten).take 48

/-- The digest of ALG: 0 SHA-256, 1 SHA-384, 2 SHA-512 (R386). -/
def digestOf (alg : Nat) (m : Bytes) : Bytes :=
  match alg with
  | 0 => sha256 m
  | 1 => sha384 m
  | _ => sha512 m

/-- The hash state after the whole blocks of a message, as its words in order, most significant byte first, zeros after it
(R392; the order of the bytes is the model's, log 108). -/
def hashState (alg : Nat) (m : Bytes) : Bytes :=
  padTo 64 (match alg with
    | 0 => (((chunksOf 64 m).foldl (shaBlock sha256Spec sha256K) sha256H).map (fun x => beBytes 4 x.toNat)).flatten
    | 1 => (((chunksOf 128 m).foldl (shaBlock sha512Spec sha512K) sha384H).map (fun x => beBytes 8 x.toNat)).flatten
    | _ => (((chunksOf 128 m).foldl (shaBlock sha512Spec sha512K) sha512H).map (fun x => beBytes 8 x.toNat)).flatten)

/-- Bytes of a digest of ALG. -/
def digestLen (alg : Nat) : Nat :=
  match alg with
  | 0 => 32
  | 1 => 48
  | _ => 64

/-- The key block of an HMAC (RFC 2104). -/
def hmacBlock (alg : Nat) (key : Bytes) : Bytes :=
  let blk := if alg = 0 then 64 else 128
  padTo blk (if blk < key.length then digestOf alg key else key)

/-- HMAC over ALG (RFC 2104). -/
def hmacOf (alg : Nat) (key m : Bytes) : Bytes :=
  let k := hmacBlock alg key
  digestOf alg (k.map (· ^^^ 0x5C) ++ digestOf alg (k.map (· ^^^ 0x36) ++ m))

end Sys2Proof.Machine
end

