-- ==== Sys2Proof/Machine/Reset.lean ====
section
/-! DEFINITION. Resets, generations and removal of functions, the ports' links, and SR-IOV (R125, R150, R151, R170, R175 to
R179, R188, R189, R192, R228, R614, R616, R632). -/

namespace Sys2Proof.Machine

/-! ### Which functions -/

/-- Virtual functions that PF `pf` has enabled (R125). -/
def State.vfsOf (s : State) (pf : Nat) : List Nat :=
  (List.range (Mem.get 0 s.hif.numVfs pf)).map (fun i => (if pf = 0 then 2 else 2 + s.nvs.vfSplit) + i)

/-- TotalVFs of PF `pf` (R125, R213). -/
def State.totalVfs (s : State) (pf : Nat) : Nat :=
  if !s.hif.dualPort then (if pf = 0 then 126 else 0) else if pf = 0 then s.nvs.vfSplit else 126 - s.nvs.vfSplit

/-! ### Mailbox responses that waiting requests get -/

/-- The response to a long request that waits (R203). A request whose function was reset gets none (R228). -/
def State.mbRespond (s : State) (f : Nat) (r : MbResp) : State :=
  if (s.mb f).waiting then s.updMb f (fun m => { m with waiting := false, prepared := some r }) else s

/-- The number that stands for no function in the fields that name who waits. -/
def nobody : Nat := 255

/-- What waits for a mailbox's answer goes on without it (R228). -/
def State.detachMailbox (s : State) (f : Nat) : State :=
  { s with
    nvs := { s.nvs with
      committing := s.nvs.committing.map (fun c => if c.1 = f then (f + 256, c.2) else c)
      reverting := s.nvs.reverting.map (fun c => if c.2 = some f then (c.1, none) else c) }
    psm := { s.psm with maintWaiting := s.psm.maintWaiting.map (fun m => if m = f then nobody else m) }
    swl := { s.swl with joining := s.swl.joining.map (fun m => if m = f then nobody else m) }
    asu := { s.asu with tables := s.asu.tables.map (fun (t : Table) => if t.deletedBy = f then { t with deletedBy := nobody } else t) }
    fns := Mem.mapAll {} (fun x => { x with quiesceBy := x.quiesceBy.map (fun m => if m = f then nobody else m) }) s.fns }

/-- The mailbox after a reset of its function (R228; log 21): a request taken runs on without an answer. -/
def Mbox.afterReset (m : Mbox) : Mbox :=
  { req := m.req, nonce := m.nonce, parts := m.parts,
    orphans := if m.state = .busy ∧ m.prepared.isNone ∧ !m.waiting then m.orphans ++ [(m.taken, m.unchecked)] else m.orphans }

/-! ### Retiring a generation -/

/-- A command ends into nothing (R151, R178): an append that has not completed is undone, its charge refunded, its locks and its
staged data released. -/
def State.dropCommand (s : State) (id : CmdId) (c : Cmd) : State :=
  ((s.undoAppend c).updFn c.func (fun x => { x with capacityUsed := x.capacityUsed - c.charge })).endCmd id

/-- Every command of function `f` ends into nothing (R151, R178); commits made stand. -/
def State.dropCommands (s : State) (f : Nat) : State :=
  let s1 := (s.inflightOf f).foldl (fun s e => s.dropCommand e.1 e.2) s
  { s1 with hif := { s1.hif with fetched := s1.hif.fetched.filter (fun e => e.1 != f) } }

/-- Queues of function `f` are deleted. -/
def State.dropQueues (s : State) (f : Nat) : State :=
  { s with hif := { s.hif with
      sqs := Mem.keep (fun k => k / 65536 != f) s.hif.sqs
      cqs := Mem.keep (fun k => k / 65536 != f) s.hif.cqs } }

/-- Sculls that run for function `f` halt, its invocation queues empty, and its held compression contexts and the messages of its
sculls on port 2 are discarded (R178, R192). -/
def State.dropEngines (s : State) (f : Nat) : State :=
  { s with
    sca := { s.sca with
      sculls := s.sca.sculls.map (fun e => if e.2.running && e.2.func == f then (e.1, e.2.halt) else e)
      progs := s.sca.progs.map (fun p => if p.func = f then { p with queue := [] } else p) }
    cmp := { s.cmp with ctxs := s.cmp.ctxs.filter (fun e => match e.2 with | some c => c.func != f | none => false) }
    dge := { s.dge with port2 := s.dge.port2.filter (fun e => (s.scull e.1).func != f) } }

/-- A quiesce that waits for function `f` is ended by its reset (R189). -/
def State.endQuiesce (s : State) (f : Nat) : State :=
  match (s.fn f).quiesceBy with
  | none => s
  | some m => (s.updFn f (fun x => { x with quiesceBy := none })).mbRespond m { result := 0, payload := [1] }

/-- What a function keeps through a reset (R170): `admin` keeps the admin queue registers, which a controller reset does not
clear (NVM Express, log 21), and the configuration registers; a Function Level Reset keeps the payload size of those (PCI Express,
log 95). -/
def Fn.afterReset (x : Fn) (admin : Bool) : Fn :=
  { x with
    en := false, rdy := false, resetting := true, waited := false, quiesced := false, pendingDoorbells := []
    features := x.saved, wce := true, rrQueues := [0, 0, 0, 0], credits := [0, 0, 0], aers := [], events := []
    msix := [], msixPend := [], pel := none, fwDownload := [], mbox := x.mbox.afterReset
    devControl := if admin then x.devControl else (x.devControl &&& 0xE0) ||| 0x2010
    d3hot := admin && x.d3hot
    aqa := if admin then x.aqa else 0
    asq := if admin then x.asq else 0
    acq := if admin then x.acq else 0 }.fillBuckets

/-- Logging that a physical function set up stops (R189). -/
def State.stopLogging (s : State) (pf : Nat) : State :=
  { s with fns := Mem.mapAll {} (fun x => match x.dirty with
      | some d => if d.pf = pf then { x with dirty := none } else x
      | none => x) s.fns }

/-- Steps 2 and 3 of R177 for function `f`: fetching stops and its generation is retired. A reset that finds one in progress
is absorbed (R632). -/
def State.retire (s : State) (f : Nat) (admin : Bool) : State :=
  if !(s.fn f).present then s
  else if (s.fn f).resetting then s.updFn f (fun x => { x with en := false })
  else
    let s1 := ((s.endQuiesce f).detachMailbox f).dropEngines f
    let s2 := ((s1.dropCommands f).dropQueues f).updFn f (·.afterReset admin)
    if f ≤ 1 then s2.stopLogging f else s2

/-- The Eight of a scull (R455). -/
def eightOf (k : Nat) : Nat := k / 8

/-- A word of shared memory lies in a program's shared pages (R499). -/
def Prog.ownsShared (p : Prog) (key : Nat) : Bool :=
  p.sculls.any (fun k => eightOf k == key / 65536) &&
    (let a := Mem.get 0 p.sharedAt (key / 65536); decide (256 * a ≤ key % 65536 ∧ key % 65536 < 256 * (a + p.sharedPages)))

/-- A byte of DRAM lies in one of a program's scratch areas (R498). -/
def Prog.ownsScratch (p : Prog) (x : Nat) : Bool := p.scratchAt.any (fun a => decide (a ≤ x ∧ x < a + p.scratchKib * 1024))

/-- A program is gone (R170, R192, R500): its sculls' memories, its shared pages and its scratch areas are cleared, its sculls' messages on
port 2 are discarded, and they return to the pool. -/
def State.freeProgram (s : State) (p : Prog) : State :=
  let s1 := p.sculls.foldl (fun s k => s.updScull k (fun c => { c with prog := [], pl := 0, mem := [], inq := [] })) s
  { s1 with
    sca := { s1.sca with
      shared := Mem.keep (fun k => !p.ownsShared k) s1.sca.shared
      progs := s1.sca.progs.filter (fun q => !(q.func == p.func && q.handle == p.handle)) }
    dge := { s1.dge with port2 := s1.dge.port2.filter (fun e => !p.sculls.contains e.1) }
    dram := { s1.dram with cells := Mem.keep (fun x => !p.ownsScratch x) s1.dram.cells } }

/-- The removal of function `f` begins (R170, R192): its generation is retired, its namespaces are detached with their key
owner, its profiles and programs are unloaded and its table rows invalidated. -/
def State.beginRemoval (s : State) (f : Nat) : State :=
  if !(s.fn f).present ∨ (s.fn f).removing then s
  else
    let s1 := (s.retire f false).updFn f (fun x => { x with removing := true, dirty := none })
    let s2 := (s1.nsOf f).foldl (fun s n => s.setNs n.1 (some { n.2 with attached := none })) s1
    let s3 := (s2.sca.progs.filter (fun p => p.func == f)).foldl (fun s p =>
      (s.freeProgram p).raise evProgramUnloaded f [(1, f), (2, p.handle), (1, 2)]) s2
    { s3 with
      objs := { s3.objs with profiles := s3.objs.profiles.filter (fun p => p.func != f) }
      asu := { s3.asu with rows := Mem.keep (fun k => k / 2 ^ 24 / 65 != f) s3.asu.rows } }

/-- A controller reset of function `f` (R151), recorded as CONTROLLER_RESET with the commands it aborts; during a firmware
activation it waits for the end of the activation (R161). -/
def State.controllerReset (s : State) (f : Nat) : State :=
  let x := s.fn f
  if !x.present ∨ x.resetting then s.retire f true
  else if s.hif.fetchStopped then s.updFn f (fun x => { x with resetPending := true })
  else
    let n := (s.inflightOf f).length + s.hif.fetched.countP (fun e => e.1 == f)
    ((s.retire f true).updFn f (fun x => { x with resetPending := false })).raise evControllerReset f
      [(1, f), (1, x.gen.toNat), (1, (x.gen + 1).toNat), (4, n)]

/-- Virtual functions under a physical function are removed (R170, R176). -/
def State.removeVfs (s : State) (pf : Nat) : State :=
  let s1 := (s.vfsOf pf).foldl State.beginRemoval s
  { s1 with hif := { s1.hif with numVfs := Mem.set 0 s1.hif.numVfs pf 0 } }

/-- A Function Level Reset (R176, R177): of a physical function, it removes its virtual functions too. -/
def State.flr (s : State) (f : Nat) : State := if f ≤ 1 then (s.retire f false).removeVfs f else s.retire f false

/-! ### The end of a reset -/

/-- A DMA channel runs, or has open, a job of function `f` with generation `g` (R175, R320). -/
def State.channelWorks (s : State) (f : Nat) (g : BitVec 8) (c : DmaCh) : Bool :=
  (c.state == .active || c.jobOpen) &&
    (let d := if c.state = .active then Desc.mk c.fetched else s.readDesc c.curSpl c.cur; d.func == f && d.gen == g.toNat)

/-- The pending work of function `f` that carries generation `g` (R166, R175): commands, flash operations, cipher requests, DMA
descriptors, invocations of sculls with what their ports run for them, and compression contexts. -/
def State.pendingWork (s : State) (f : Nat) (g : BitVec 8) : Nat :=
  s.inflight.countP (fun e => e.2.func == f && !e.2.fromPartner && e.2.gen == g && e.2.result.isNone) +
  s.flash.ops.countP (fun o => match o.2 with | some op => op.func == f && op.gen == g | none => false) +
  ((s.cpe.pipes.map (fun p => p.2.bound)).flatten ++ s.cpe.queue ++ s.cpe.waiting).countP (fun e =>
    field e.entry.toNat 31 24 == f && field e.entry.toNat 39 32 == g.toNat) +
  s.dmf.chans.countP (fun c => s.channelWorks f g c.2) +
  s.sca.sculls.countP (fun c => c.2.running && c.2.func == f && c.2.gen == g) +
  s.cmp.ctxs.countP (fun c => match c.2 with | some x => x.func == f && x.gen == g | none => false)

/-- Key slots of function `f` are zeroised; how many held a key (R170, R401). -/
def State.zeroiseSlots (s : State) (f : Nat) : State × Nat :=
  let mine := s.cpe.slots.filter (fun e => e.2.func == f && (e.2.key.isSome || e.2.staged.isSome))
  ({ s with cpe := { s.cpe with slots := s.cpe.slots.filter (fun e => e.2.func != f) } }, mine.length)

/-- The admin queue pair as AQA, ASQ and ACQ describe it (R126, R131; NVM Express). -/
def State.buildAdmin (s : State) (f : Nat) : State :=
  let x := s.fn f
  (s.setSq f 0 (some { size := field x.aqa.toNat 11 0 + 1, cq := 0, base := x.asq.toNat })).setCq f 0
    (some { size := field x.aqa.toNat 27 16 + 1, ien := true, vector := 0, base := x.acq.toNat })

/-- The controller becomes ready: enabled, with no reset in progress, in a mode that runs admin commands (R151, R614). -/
def State.becomeReady (s : State) (f : Nat) : State :=
  let x := s.fn f
  if x.present ∧ x.en ∧ !x.resetting ∧ !x.rdy then (s.buildAdmin f).updFn f (fun x => { x with rdy := true }) else s

/-- GENERATION_ADVANCE (R177 step 7, R179, R401): once no work carries generation g + 1 the generation becomes g + 1; a removal
also waits for the work of g, and then the key slots are zeroised and the function is gone. -/
def execGenerationAdvance (f : Nat) (waitedUs : Nat) (s : State) : Host.Outcome State Fault Refusal :=
  let x := s.fn f
  .next (if !x.resetting then s
    else if s.pendingWork f (x.gen + 1) ≠ 0 then s.updFn f (fun x => { x with waited := true })
    else if x.removing ∧ s.pendingWork f x.gen ≠ 0 then s
    else
      let s1 := if x.waited then s.raise evGenerationWait f [(1, f), (1, x.gen.toNat), (4, waitedUs)] else s
      let s2 := s1.updFn f (fun x => { x with gen := x.gen + 1, resetting := false, waited := false })
      if x.removing then
        let z := s2.zeroiseSlots f
        (z.1.updFn f (fun x => { x with removing := false, present := false, en := false })).raise evFunctionRemoved f
          [(1, f), (1, x.gen.toNat), (4, z.2)]
      else s2.becomeReady f)

/-! ### The commands -/

/-- CC_EN_CLEAR (R151, R160, R161). -/
def execCcEnClear (f : Nat) (s : State) : Host.Outcome State Fault Refusal :=
  .next (if !s.psm.mode.live ∨ !(s.fn f).en ∨ s.hostGone f then s else (s.controllerReset f).wake)

/-- CC_EN_SET (R134, R151, R177): AMS 000b round robin, 001b weighted round robin with urgent; the controller becomes ready at
once, or when the reset in progress ends. -/
def execCcEnSet (f : Nat) (ams : BitVec 3) (s : State) : Host.Outcome State Fault Refusal :=
  .next (if !s.psm.mode.live ∨ !(s.fn f).present ∨ (s.fn f).en ∨ s.hostGone f then s
    else ((s.updFn f (fun x => { x with en := true, ams := ams })).becomeReady f).wake)

/-- NVM_SUBSYSTEM_RESET (R127, R151, R176): from a physical function; every function's generation advances. -/
def execNvmSubsystemReset (f : Nat) (s : State) : Host.Outcome State Fault Refusal :=
  .next (if !s.psm.mode.live ∨ 1 < f ∨ !(s.fn f).present ∨ s.hostGone f then s else (s.present.foldl State.controllerReset s).wake)

/-- FUNCTION_LEVEL_RESET (R176, R177, R178). -/
def execFunctionLevelReset (f : Nat) (s : State) : Host.Outcome State Fault Refusal :=
  .next (if !s.psm.mode.live ∨ !(s.fn f).present ∨ s.noRefclk f then s else s.flr f)

/-- VF_DISABLE (R125, R170). -/
def execVfDisable (pf : Nat) (s : State) : Host.Outcome State Fault Refusal :=
  .next (if !s.psm.mode.live ∨ 1 < pf ∨ s.noRefclk pf then s else s.removeVfs pf)

/-- VF_ENABLE (R125): NumVFs and VF Enable make virtual functions present, up to TotalVFs. A function whose removal is still
ending is not enabled again before its slots are zeroised (R170). -/
def execVfEnable (pf num : Nat) (s : State) : Host.Outcome State Fault Refusal :=
  .next (if !s.psm.mode.live ∨ 1 < pf ∨ !(s.fn pf).present ∨ s.noRefclk pf ∨ Mem.get 0 s.hif.numVfs pf ≠ 0 ∨ s.totalVfs pf < num then s
    else
      let s1 := { s with hif := { s.hif with numVfs := Mem.set 0 s.hif.numVfs pf num } }
      if (s1.vfsOf pf).any (fun f => (s.fn f).removing) then s
      else (s1.vfsOf pf).foldl (fun s f => s.updFn f (fun x => { x with present := true }.fillBuckets)) s1)

/-- VIRTUALIZATION_MANAGEMENT (R130, R170): from a physical function. Action 7 takes a secondary controller offline, as a
removal; action 9 brings it online (NVM Express). Other actions, and resources, which the configuration fixes, are refused. -/
def execVirtualizationManagement (id : CmdId) (s : State) : Host.Outcome State Fault Refusal :=
  .next (match s.live id true 0x1C with
    | none => s
    | some c =>
      let act := field c.sqe.cdw10.toNat 3 0
      let target := field c.sqe.cdw10.toNat 31 16 % 256
      if target < 2 ∨ !(s.vfsOf c.func).contains target then s.finish id .invalidField
      else if act = 7 then (s.beginRemoval target).finish id .success
      else if act = 9 then
        if (s.fn target).resetting then s.finish id .commandSequenceError
        else (s.updFn target (fun x => { x with present := true }.fillBuckets)).finish id .success
      else s.finish id .invalidField)

/-! ### Ports -/

/-- The state with the link of a port down. -/
def State.linkDown (s : State) (port : Nat) : State :=
  { s with hif := { s.hif with
      link := Mem.set false s.hif.link port false
      linkWidth := Mem.set 0 s.hif.linkWidth port 0
      linkSpeed := Mem.set 0 s.hif.linkSpeed port 0 } }

/-- The port is used: port 1 only in dual-port mode (R122, R123, R616). -/
def State.portUsed (s : State) (port : Nat) : Bool := port == 0 || (port == 1 && s.hif.dualPort)

/-- PCIE_PERST_ASSERT (R616): a conventional reset of the port's functions, as a Function Level Reset of its physical function;
in x8 mode port 1's is ignored. -/
def execPciePerstAssert (port : Nat) (s : State) : Host.Outcome State Fault Refusal :=
  .next (if !s.psm.mode.live ∨ !s.portUsed port then s
    else
      let s0 := (s.flr port).linkDown port
      let s1 := s0.updFn port (fun x => { x with devControl := 0x2010 })
      { s1 with hif := { s1.hif with perst := Mem.set false s1.hif.perst port true } })

/-- The width a port is configured for (R123). -/
def State.portWidth (s : State) : Nat := if s.hif.dualPort then 4 else 8

/-- LINK_TRAINING (R124, R165, R614): PERST has risen, or BOOT has ended; a width or rate below the configured one is recorded.
Speeds are coded 1 for 2.5 GT/s to 6 for 64 GT/s. -/
def execLinkTraining (port width speed : Nat) (s : State) : Host.Outcome State Fault Refusal :=
  .next (if !s.psm.mode.live ∨ !s.portUsed port ∨ Mem.get false s.hif.refclkLost port ∨
      !([1, 2, 4, 8].contains width) ∨ s.portWidth < width ∨ speed < 1 ∨ 6 < speed then s
    else
      let s1 := { s with hif := { s.hif with
        perst := Mem.set false s.hif.perst port false
        link := Mem.set false s.hif.link port true
        linkWidth := Mem.set 0 s.hif.linkWidth port width
        linkSpeed := Mem.set 0 s.hif.linkSpeed port speed } }
      if width < s.portWidth ∨ speed < 6 then
        s1.raiseFrom (0x0400 + port) evLinkDegraded 255 [(1, width), (1, speed), (1, s.portWidth), (1, 6)]
      else s1)

/-- PCIE_UNCORRECTABLE (R124, R165): the AER status and header log registers take the error, and the status and the first 16 bytes of
the log are recorded. -/
def execPcieUncorrectable (port : Nat) (status : BitVec 32) (header : BitVec 128) (s : State) : Host.Outcome State Fault Refusal :=
  .next (if !s.psm.mode.live ∨ !s.portUsed port then s
    else { s with hif := { s.hif with
        aerStatus := Mem.upd 0 s.hif.aerStatus port (· ||| status)
        aerHeader := Mem.set 0 s.hif.aerHeader port header } }.raiseFrom (0x0400 + port) evPcieUncorrectable 255
          [(4, status.toNat), (16, header.toNat)])

/-- HOST_REFCLK_LOST (R17): the HIF is held in reset, so the link is down and nothing is posted; the rest of the device
continues the work it has accepted (log 23). -/
def execHostRefclkLost (port : Nat) (s : State) : Host.Outcome State Fault Refusal :=
  .next (if !s.psm.mode.live ∨ !s.portUsed port ∨ Mem.get false s.hif.refclkLost port then s
    else
      let s1 := s.linkDown port
      { s1 with hif := { s1.hif with refclkLost := Mem.set false s1.hif.refclkLost port true } }.raise evHostRefclkLost 255 [(1, port)])

/-- HOST_REFCLK_RETURN (R17): the HIF leaves reset; the link can train. -/
def execHostRefclkReturn (port : Nat) (s : State) : Host.Outcome State Fault Refusal :=
  .next { s with hif := { s.hif with refclkLost := Mem.set false s.hif.refclkLost port false } }

end Sys2Proof.Machine
end

