-- ==== Sys2Proof/Machine/Mailbox.lean ====
section
/-! DEFINITION. The mailbox: its catalogue, the checks and the run of a request, its response, pieces and authorisation, and
the identity commands (R197 to R209, R226 to R228). -/

namespace Sys2Proof.Machine

/-! ### Requests and responses -/

/-- CMD of a request (R199). -/
def mbCmd (r : Bytes) : Nat := leAt r 0 2
/-- SEQ of a request. -/
def mbSeq (r : Bytes) : Nat := leAt r 2 2
/-- LENGTH of a request. -/
def mbLen (r : Bytes) : Nat := leAt r 4 2
/-- The payload of a request. -/
def mbPayload (r : Bytes) : Bytes := slice r 16 (mbLen r)
/-- A success with a payload. -/
def mbOk (p : Bytes) : MbResp := { result := 0x0000, payload := p }
/-- A result without a payload (R201). -/
def mbErr (code : Nat) (detail : Nat := 0) : MbResp := { result := code, detail := detail }

/-- One row of the catalogue (R208): PF only, MAINTENANCE only, authorised, the payload lengths that fit. -/
structure MbRow where
  code : Nat
  pf : Bool := true
  maint : Bool := false
  auth : Bool := false
  len : Nat → Bool

/-- The catalogue of R208, with the payload each command carries; a command whose own rule decides about LENGTH fits any. -/
def mbCatalogue : List MbRow :=
  [{ code := 0x0101, pf := false, len := (· == 0) }, { code := 0x0102, len := (· == 0) },
   { code := 0x0103, pf := false, len := fun _ => true }, { code := 0x0201, len := (· == 0) },
   { code := 0x0202, len := (decide <| 16 ≤ ·) }, { code := 0x0203, len := (· == 16) },
   { code := 0x0204, len := (· == 8) }, { code := 0x0205, len := (· == 8) }, { code := 0x0206, len := (· == 0) },
   { code := 0x0207, len := (· == 0) }, { code := 0x0301, pf := false, len := (· == 1) },
   { code := 0x0302, len := (· == 16) }, { code := 0x0310, len := (· == 32) }, { code := 0x0311, len := (· == 1) },
   { code := 0x0312, len := (· == 1) }, { code := 0x0313, len := (· == 1) }] ++
  [{ code := 0x0314, len := (· == 1) }, { code := 0x0315, len := (· == 16) }, { code := 0x0316, len := (decide <| 16 ≤ ·) },
   { code := 0x0401, pf := false, len := fun _ => true }, { code := 0x0402, pf := false, len := (· == 2) },
   { code := 0x0403, pf := false, len := (· == 2) }, { code := 0x0404, maint := true, auth := true, len := (· == 80) },
   { code := 0x0501, pf := false, len := (decide <| 16 ≤ ·) }, { code := 0x0502, pf := false, len := (· == 2) },
   { code := 0x0503, pf := false, len := (· == 2) }, { code := 0x0601, pf := false, len := (decide <| 16 ≤ ·) },
   { code := 0x0602, pf := false, len := (· == 2) }, { code := 0x0603, pf := false, len := (· == 2) },
   { code := 0x0701, pf := false, len := (· == 16) }, { code := 0x0702, pf := false, len := (· == 2) },
   { code := 0x0703, pf := false, len := (· == 2) }] ++
  [{ code := 0x0801, pf := false, len := (· == 9) }, { code := 0x0802, maint := true, auth := true, len := (· == 32) },
   { code := 0x0803, len := (· == 8) }, { code := 0x0901, len := (· == 0) }, { code := 0x0902, len := (· == 0) },
   { code := 0x0903, len := fun n => n == 0 || n == 32 }, { code := 0x0904, maint := true, len := (· == 0) },
   { code := 0x0905, maint := true, len := (· == 2) }, { code := 0x0A01, len := (· == 0) },
   { code := 0x0A02, len := (· == 1) }, { code := 0x0B01, len := (· == 0) },
   { code := 0x0B02, maint := true, len := (· == 1) }, { code := 0x0B03, maint := true, len := (· == 0) }]

/-- The commands that SAFE-HALT answers (R205). -/
def mbHaltOk (cmd : Nat) : Bool := [0x0101, 0x0901, 0x0801, 0x0902, 0x0903].contains cmd

/-- The commands that the recovery image answers (R224): identity, safety and event. -/
def mbRecoveryOk (cmd : Nat) : Bool :=
  [0x0101, 0x0102, 0x0103, 0x0801, 0x0802, 0x0803, 0x0901, 0x0902, 0x0903, 0x0904, 0x0905].contains cmd

/-- The command carries a MAC here (R208): MB_MAINT_ENTER only from SAFE-HALT. -/
def State.needsAuth (s : State) (row : MbRow) : Bool := row.auth || (row.code == 0x0903 && s.psm.mode == .safeHalt)

/-- The authorisation of a request, with its nonce (R207): the reason of a failure is 1 no nonce, 2 expired, 3 MAC. -/
def State.authorise (s : State) (f : Nat) (r : Bytes) (nonce : Option (Bytes × Bool)) : State × Bool :=
  let body := r.take (16 + (mbLen r - 32))
  let fail := fun (why : Nat) => (s.raise evAuthFailure f [(1, f), (2, mbCmd r), (1, why)], false)
  match nonce with
  | none => fail 1
  | some (_, true) => fail 2
  | some (n, false) =>
    match s.nvs.maintKey with
    | none => fail 3
    | some k => if hmacOf 0 k (body ++ n) = slice r (16 + (mbLen r - 32)) 32 then (s, true) else fail 3

/-- A LENGTH that does not fit the command (R199, R201, R208). -/
def State.badLength (s : State) (row : MbRow) (r : Bytes) : Bool :=
  !row.len (mbLen r) || (s.needsAuth row && decide (mbLen r < 32)) ||
    (row.code == 0x0903 && !s.needsAuth row && mbLen r != 0)

/-- The checks before a request runs (R199, R201, R205, R207, R208, R224; their order, log 25): a response, or none when it may run.
An authorised command consumes the nonce, whatever its result (R207). -/
def State.mbCheck (s : State) (f : Nat) (r : Bytes) : State × Option MbResp :=
  if 4080 < mbLen r then (s, some (mbErr 0x0003))
  else match mbCatalogue.find? (fun x => x.code == mbCmd r) with
    | none => (s, some (mbErr 0x0001))
    | some row =>
      let s1 := if s.needsAuth row then s.updMb f (fun m => { m with nonce := none }) else s
      if row.pf ∧ 2 ≤ f then (s1, some (mbErr 0x0002))
      else if (s.psm.mode = .safeHalt ∧ !mbHaltOk row.code) ∨ (row.maint ∧ s.psm.mode ≠ .maintenance) ∨
          (s.nvs.fwRunning = 1 ∧ !mbRecoveryOk row.code) then (s1, some (mbErr 0x0005))
      else if s.badLength row r then (s1, some (mbErr 0x0003))
      else if leAt r 6 2 ≠ 0 ∨ leAt r 8 8 ≠ 0 then (s1, some (mbErr 0x0004))
      else if s.needsAuth row then
        let a := s1.authorise f r (s.mb f).nonce
        (a.1, if a.2 then none else some (mbErr 0x0006))
      else (s1, none)

/-- The mailbox exists in this mode (R205). -/
def Mode.mailbox : Mode → Bool
  | .service | .degraded | .rest | .maintenance | .safeHalt => true
  | _ => false

/-- The cox domain has been forced off after a clock fault, so no cox pair runs (R336, R547; log 65). -/
def State.coxDown (s : State) : Bool := s.dmf.forced.contains 3

/-- Requests whose response pair A has ready and not yet posted; it runs at most 16 at once, of which long requests that wait are
none (R203). -/
def State.mbRunning (s : State) : Nat := s.fns.countP (fun e => e.2.mbox.state == .busy && e.2.mbox.prepared.isSome)

/-- The mailboxes run requests: the mode lets them, the cox pairs run, and fewer than 16 run already (R203, R205, R547). -/
def State.mbMay (s : State) : Bool :=
  s.psm.mode.mailbox && s.psm.mode != .rest && !s.coxDown && decide (s.mbRunning < 16)

/-- A request that was taken is looked at: not in REST, nor during a firmware activation (R205, R226); in SAFE-HALT only functions 0 and
1 get an answer (R205). -/
def State.checkTaken (s : State) (f : Nat) : State :=
  if (s.mb f).state ≠ .busy ∨ !(s.mb f).unchecked ∨ !s.mbMay ∨ s.hif.fetchStopped ∨ (s.psm.mode = .safeHalt ∧ 2 ≤ f) then s
  else
    let c := s.mbCheck f (s.mb f).taken
    c.1.updMb f (fun m => { m with prepared := c.2, unchecked := false })

/-- A RING that finds the mailbox IDLE or DONE takes the request (R202). -/
def State.takeRequest (s : State) (f : Nat) : State :=
  let m := s.mb f
  let head := (List.range 16).map (Mem.get 0 m.req)
  let r := (List.range (16 + Nat.min 4080 (mbLen head))).map (Mem.get 0 m.req)
  (s.updMb f (fun m => { m with state := .busy, taken := r, prepared := none, waiting := false, unchecked := true })).checkTaken f

/-- A RING (R202, R205, R227, R547): taken, or IGNORED set while BUSY; in REST it is a wake event. BAR 2 does not respond before the
link has trained. -/
def State.ring (s : State) (f : Nat) : State :=
  if !s.psm.mode.mailbox ∨ !(s.fn f).present ∨ s.coxDown ∨ s.hostGone f ∨ !Mem.get false s.hif.link (s.portOf f) then s
  else if (s.mb f).state = .busy then (s.updMb f (fun m => { m with ignored := true })).wake
  else (s.takeRequest f).wake

/-- The number under which what a request starts waits for its answer, once the request's response is to be discarded (R228): no
function has it. -/
def orphanOf (f : Nat) : Nat := f + 256

/-- A request taken before a reset of `f` runs, and its response is discarded (R228). -/
def State.runOrphan (s : State) (f : Nat) (o : Bytes × Bool) (body : State → Nat → Bytes → State × Option MbResp) : State :=
  let s1 := s.updMb f (fun m => { m with orphans := m.orphans.erase o })
  let c := if o.2 then s1.mbCheck f o.1 else (s1, none)
  if c.2.isSome then c.1 else (body c.1 (orphanOf f) (mbPayload o.1)).1

/-- The request that mailbox `f` holds is this one, and it runs now. -/
def State.mbDue (s : State) (f : Nat) (mine : Bytes → Bool) : Bool :=
  let m := s.mb f
  m.state == .busy && m.prepared.isNone && !m.waiting && !m.unchecked && mine m.taken && (s.psm.mode != .safeHalt || decide (f < 2))

/-- Runs a mailbox command's own step: the request taken by `f`, or one taken before a reset of `f` (R228), when it is this
command's and nothing holds it up (R203, R205, R226). The body answers, or leaves the request waiting (R203); it is told the number
under which a long request waits. -/
def State.mbRunAs (s : State) (f cmd : Nat) (sub : Bytes → Bool) (body : State → Nat → Bytes → State × Option MbResp) : State :=
  let mine := fun (r : Bytes) => mbCmd r == cmd && sub (mbPayload r)
  let s := s.checkTaken f
  if !s.mbMay then s
  else match (s.mb f).orphans.find? (fun o => mine o.1 && !(o.2 && s.hif.fetchStopped)) with
    | some o => s.runOrphan f o body
    | none =>
      if s.mbDue f mine then
        if s.psm.mode = .safeHalt ∧ !mbHaltOk cmd then s.updMb f (fun m => { m with prepared := some (mbErr 0x0005) })
        else
          let r := body s f (mbPayload (s.mb f).taken)
          r.1.updMb f (fun m => match r.2 with
            | some p => { m with prepared := some p }
            | none => { m with waiting := true })
      else s

/-- Runs a mailbox command that does not wait. -/
def State.mbRun (s : State) (f cmd : Nat) (sub : Bytes → Bool) (body : State → Bytes → State × Option MbResp) : State :=
  s.mbRunAs f cmd sub (fun s _ p => body s p)

/-- Every request of a command. -/
def anyPayload (_ : Bytes) : Bool := true

/-! ### Pieces -/

/-- One piece of a load (R206): the state with the image so far, and the result: a response that refuses it, nothing yet, or
the complete image. -/
def State.loadPiece (s : State) (f cmd : Nat) (p : Bytes) : State × Except MbResp (Option Bytes) :=
  let sel := leAt p 0 8
  let off := leAt p 8 4
  let total := leAt p 12 4
  let data := p.drop 16
  let parts := (s.mb f).parts
  let others := parts.filter (fun x => !(x.cmd == cmd && x.sel == sel))
  let finish := fun (x : Partial) =>
    if x.total < x.bytes.length then (s.updMb f (fun m => { m with parts := others }), .error (mbErr 0x0004))
    else if x.bytes.length = x.total then (s.updMb f (fun m => { m with parts := others }), .ok (some x.bytes))
    else (s.updMb f (fun m => { m with parts := others ++ [x] }), .ok none)
  if off = 0 then finish { cmd := cmd, sel := sel, total := total, bytes := data }
  else match parts.find? (fun x => x.cmd == cmd && x.sel == sel) with
    | none => (s, .error (mbErr 0x0007))
    | some x =>
      if x.total ≠ total then (s.updMb f (fun m => { m with parts := others }), .error (mbErr 0x0004))
      else if x.bytes.length ≠ off then (s, .error (mbErr 0x0007))
      else finish { x with bytes := x.bytes ++ data }

/-- One piece of a read (R206): TOTAL in DETAIL and the data from OFFSET onwards. An OFFSET beyond the image is BAD_FIELD. -/
def readPiece (image p : Bytes) : MbResp :=
  if image.length < leAt p 8 4 then mbErr 0x0004
  else { result := 0, detail := image.length, payload := (image.drop (leAt p 8 4)).take 4064 }

/-! ### What identity reports -/

/-- The slot that holds a configuration role: 0 ACTIVE, 1 PREVIOUS, 2 STAGED, 3 FACTORY (R196, R215). -/
def State.cfgSlot (s : State) (role : Nat) : CfgSlot := Mem.get {} s.nvs.slots (nth 0 s.nvs.roles role)

/-- VERSION of an image, 0 when the slot is empty (R210, R215). -/
def CfgSlot.version (c : CfgSlot) : Nat := if c.content = .empty then 0 else leAt c.image 8 4

/-- The configuration fingerprint as a little-endian field, 0 when the slot is empty (R212, R215). -/
def CfgSlot.fp (c : CfgSlot) : Nat := if c.content = .empty then 0 else leAt c.image 32 8

/-- CONFIG_FP of the active configuration (R209, R212). -/
def State.configFp (s : State) : BitVec 64 := BitVec.ofNat 64 (s.cfgSlot 0).fp

/-- FW_REV: the running image's REVISION, 8 bytes (R209, R223). -/
def State.fwRev (s : State) : Bytes := padTo 8 (Mem.get {} s.nvs.fw s.nvs.fwRunning).revision

/-- The 32 bytes of R209 for function `f`. -/
def State.idStatus (s : State) (f : Nat) : Bytes :=
  leBytes 8 s.configFp.toNat ++ leBytes 4 (s.cfgSlot 0).version ++ [byteOf (flag s.nvs.trial), 0xB0, byteOf s.psm.mode.code,
    byteOf s.swl.position, byteOf f, byteOf (s.fn f).gen.toNat] ++ leBytes 2 s.psm.causes.toNat ++ s.fwRev ++ leBytes 4 0

/-- The 48 bytes of MB_FW_STATUS: for slots 1 to 3 the slot, SVN, REVISION and state, packed in the listed order and
zero-filled to 16 bytes; state 0 empty, 1 written, 2 running (log 24). -/
def State.fwStatus (s : State) : Bytes :=
  ([1, 2, 3].map (fun n =>
    let x := Mem.get {} s.nvs.fw n
    padTo 16 ([byteOf n] ++ leBytes 2 x.svn ++ padTo 8 x.revision ++
      [byteOf (if n = s.nvs.fwRunning then 2 else flag x.present)]))).flatten

/-! ### The commands -/

/-- MAILBOX_RING (R198, R202, R227). -/
def execMailboxRing (f : Nat) (s : State) : Host.Outcome State Fault Refusal := .next (s.ring f)

/-- The 16-byte response header (R200). -/
def respHeader (r : Bytes) (p : MbResp) : Bytes :=
  leBytes 2 (mbCmd r) ++ leBytes 2 (mbSeq r) ++ leBytes 2 p.payload.length ++ leBytes 2 p.result ++ leBytes 8 p.detail

/-- Vectors of a function (R167). -/
def State.msixCount (s : State) (f : Nat) : Nat := match s.tenant f with | some t => t.msixCount | none => 1

/-- MAILBOX_RESPONSE (R198, R202, R205): the response bytes, then LAST_SEQ and DONE, then the MSI-X message. -/
def execMailboxResponse (f : Nat) (s : State) : Host.Outcome State Fault Refusal :=
  let s := s.checkTaken f
  .next (match (s.mb f).prepared with
    | none => s
    | some p =>
      if !s.psm.mode.mailbox ∨ s.psm.mode = .rest ∨ s.coxDown ∨ (s.mb f).state ≠ .busy then s
      else
        let m := s.mb f
        let s1 := s.updMb f (fun m => { m with
          resp := respHeader m.taken p ++ p.payload ++ m.resp.drop (16 + p.payload.length)
          lastSeq := BitVec.ofNat 16 (mbSeq m.taken), state := .done, prepared := none, waiting := false, taken := [] })
        if m.irqEn ∧ m.irqVector < s.msixCount f then s1.msix f m.irqVector else s1)

/-- NUMB of the vendor admin opcodes (R204): 16 to 4,096 with CDW10 [31:13] zero. -/
def mbNumb (e : Sqe) : Option Nat :=
  let n := e.cdw10.toNat
  if 16 ≤ n ∧ n ≤ 4096 then some n else none

/-- MAILBOX_SEND (R204, R227). -/
def execMailboxSend (id : CmdId) (data : Bytes) (s : State) : Host.Outcome State Fault Refusal :=
  .next (match s.live id true 0xC1 with
    | none => s
    | some c =>
      match mbNumb c.sqe with
      | none => s.finish id .invalidField
      | some n =>
        if sglShort c.sqe n then s.finish id .dataSglLengthInvalid
        else if (s.mb c.func).state = .busy then s.finish id .commandSequenceError
        else if s.coxDown then s
        else
          let s1 := s.updMb c.func (fun m => { m with req := writeBytes m.req 0 (padTo n data) })
          (s1.takeRequest c.func).finish id .success (BitVec.ofNat 32 (mbSeq (padTo n data))))

/-- MAILBOX_RECEIVE (R204): the first NUMB bytes of the response buffer when it is DONE with the expected SEQ. -/
def execMailboxReceive (id : CmdId) (s : State) : Host.Outcome State Fault Refusal :=
  .next (match s.live id true 0xC2 with
    | none => s
    | some c =>
      let m := s.mb c.func
      match mbNumb c.sqe with
      | none => s.finish id .invalidField
      | some n =>
        if m.state = .done ∧ (bit c.sqe.cdw11.toNat 16 ∨ m.lastSeq.toNat = field c.sqe.cdw11.toNat 15 0) then
          s.answer id (padTo n m.resp)
        else s.finish id .commandSequenceError)

/-- NONCE_EXPIRE (R207). -/
def execNonceExpire (f : Nat) (s : State) : Host.Outcome State Fault Refusal :=
  .next (s.updMb f (fun m => { m with nonce := m.nonce.map (fun n => (n.1, true)) }))

/-- MB_ID_STATUS (R209). -/
def execMbIdStatus (f : Nat) (s : State) : Host.Outcome State Fault Refusal :=
  .next (s.mbRun f 0x0101 anyPayload (fun s _ => (s, some (mbOk (s.idStatus f)))))

/-- MB_FW_STATUS (R208). -/
def execMbFwStatus (f : Nat) (s : State) : Host.Outcome State Fault Refusal :=
  .next (s.mbRun f 0x0102 anyPayload (fun s _ => (s, some (mbOk s.fwStatus))))

/-- MB_ECHO (R208). -/
def execMbEcho (f : Nat) (s : State) : Host.Outcome State Fault Refusal :=
  .next (s.mbRun f 0x0103 anyPayload (fun s p => (s, some (mbOk p))))

/-- MB_AUTH_CHALLENGE (R207, R379): a fresh nonce from the device DRBG, in place of any earlier one. -/
def execMbAuthChallenge (f : Nat) (s : State) : Host.Outcome State Fault Refusal :=
  .next (s.mbRun f 0x0902 anyPayload (fun s _ =>
    let n := s.drawBytes 16
    (n.2.updMb f (fun m => { m with nonce := some (n.1, false) }), some (mbOk n.1))))

end Sys2Proof.Machine
end

