-- ==== Sys2Proof/Machine/Configuration.lean ====
section
/-! DEFINITION. Configuration images, their checks and sections, and the commands that stage, commit, confirm and roll them
back (R168, R210 to R221, R229 to R231, R273, R286, R290, R345, R576). -/

namespace Sys2Proof.Machine

/-! ### Images and sections -/

/-- FINGERPRINT recomputed (R210). -/
def imgDigest (img : Bytes) : Bytes := sha256 (img.take 32 ++ img.drop 64)

/-- The directory: type, offset and size of each section (R210). -/
def imgDirectory (img : Bytes) : List (Nat × Nat × Nat) :=
  (List.range (leAt img 6 2)).map (fun i =>
    (leAt img (64 + 16 * i) 2, leAt img (68 + 16 * i) 4, leAt img (72 + 16 * i) 4))

/-- The bytes of a section, none when the image has none of its type. -/
def imgSection (img : Bytes) (ty : Nat) : Option Bytes :=
  ((imgDirectory img).find? (fun e => e.1 == ty)).map (fun e => slice img e.2.1 e.2.2)

/-- Token bucket parameters of a RATE field (R172). -/
def rateOf (b : Bytes) : Rate :=
  { bwRate := leAt b 0 2, bwBurst := leAt b 2 1, iopsRate := leAt b 4 2, iopsBurst := leAt b 6 2 }

/-- A RATE field without reserved values (R172). -/
def rateOk (b : Bytes) : Bool := leAt b 2 1 != 0 && leAt b 3 1 == 0 && leAt b 6 2 != 0

/-- A RATE field from parameters. -/
def rateBytes (r : Rate) : Bytes :=
  leBytes 2 r.bwRate ++ leBytes 1 r.bwBurst ++ [0] ++ leBytes 2 r.iopsRate ++ leBytes 2 r.iopsBurst

/-- A tenant entry (R214). -/
def tenantOf (b : Bytes) : Tenant :=
  { func := byteAt b 0, ioQueues := leAt b 2 2, msixBase := leAt b 4 2, msixCount := leAt b 6 2, flightCap := leAt b 8 2
    keyBase := leAt b 10 2 % 4096, keyCount := leAt b 12 2 % 8192, scullMask := BitVec.ofNat 32 (leAt b 16 4)
    dmaMask := BitVec.ofNat 32 (leAt b 20 4), asuQuota := leAt b 24 4, capacityGib := leAt b 28 4
    objectQuota := leAt b 32 4, chiveQuota := leAt b 36 4, rate := rateOf (slice b 40 8) }

/-- The 64 bytes of a tenant entry (R214). -/
def tenantBytes (t : Tenant) : Bytes :=
  padTo 64 ([byteOf t.func, 0] ++ leBytes 2 t.ioQueues ++ leBytes 2 t.msixBase ++ leBytes 2 t.msixCount ++
    leBytes 2 t.flightCap ++ leBytes 2 t.keyBase ++ leBytes 2 t.keyCount ++ leBytes 2 0 ++ leBytes 4 t.scullMask.toNat ++
    leBytes 4 t.dmaMask.toNat ++ leBytes 4 t.asuQuota ++ leBytes 4 t.capacityGib ++ leBytes 4 t.objectQuota ++
    leBytes 4 t.chiveQuota ++ rateBytes t.rate)

/-- A tenant entry without reserved values (R214). -/
def tenantOk (b : Bytes) : Bool :=
  let t := tenantOf b
  decide (t.func ≤ 127) && byteAt b 1 == 0 && decide (t.ioQueues ≤ 1024) && decide (1 ≤ t.msixCount ∧ t.msixCount ≤ 2048) &&
    decide (1 ≤ t.flightCap ∧ t.flightCap ≤ 65408) && decide (leAt b 10 2 < 4096) && decide (leAt b 12 2 ≤ 4096) &&
    leAt b 14 2 == 0 && t.dmaMask &&& 0x11111111 == 0 && rateOk (slice b 40 8) && allZero (slice b 48 16)

/-- The entries of a TENANTS section. -/
def tenantsOf (b : Bytes) : List Tenant := (chunksOf 64 b).map tenantOf

/-- Functions rise through the entries (R214). -/
def rising : List Nat → Bool
  | a :: b :: l => decide (a < b) && rising (b :: l)
  | _ => true

/-- The DEVICE section holds no reserved value (R213). -/
def deviceOk (b : Bytes) : Bool :=
  decide (byteAt b 0 ≤ 1) && decide (byteAt b 1 ≤ 126) && (byteAt b 0 == 1 || byteAt b 1 == 0) &&
    decide (10 ≤ leAt b 2 4 ∧ leAt b 2 4 ≤ 86400) && decide (1 ≤ leAt b 6 2 ∧ leAt b 6 2 ≤ 32) && decide (leAt b 8 2 ≤ 16) &&
    decide (10 ≤ byteAt b 10 ∧ byteAt b 10 ≤ 100) && allZero (slice b 11 21)

/-- The FLASH section (R273). -/
def flashOf (b : Bytes) : FlashCfg :=
  { rate := leAt b 0 2, chanEn := BitVec.ofNat 16 (leAt b 2 2), hotTier := byteAt b 4, opPct := byteAt b 5
    hotPromote := leAt b 6 2, gcStart := leAt b 8 2, gcUrgent := leAt b 10 2, wearSpread := leAt b 12 2
    ratedPe := leAt b 14 2, rdNative := leAt b 16 4, rdSlc := leAt b 20 4, patrolDays := byteAt b 24 }

/-- The FLASH section holds no reserved value (R234, R273). -/
def flashOk (b : Bytes) : Bool :=
  let c := flashOf b
  [800, 1200, 1600, 2400, 3200, 3600].contains c.rate && decide (c.hotTier ≤ 50) && decide (7 ≤ c.opPct ∧ c.opPct ≤ 50) &&
    c.hotPromote != 0 && decide (16 ≤ c.gcStart ∧ c.gcStart ≤ 1024) && decide (9 ≤ c.gcUrgent ∧ c.gcUrgent < c.gcStart) &&
    decide (16 ≤ c.wearSpread ∧ c.wearSpread ≤ 4096) && c.ratedPe != 0 &&
    decide (1000 ≤ c.rdNative ∧ c.rdNative ≤ 10000000) && decide (1000 ≤ c.rdSlc ∧ c.rdSlc ≤ 10000000) &&
    decide (1 ≤ c.patrolDays ∧ c.patrolDays ≤ 60) && allZero (slice b 25 7)

/-- A rank record of the DRAM_BOARD section (R291): a rank not fitted is all zero. -/
def rankOk (b : Bytes) (x8 fitted : Bool) : Bool :=
  if !fitted then allZero b
  else (List.range 10).all (fun i =>
      decide (leAt b (80 + 2 * i) 2 ≤ 4095) && (!x8 || decide (i < 5) || (leAt b (80 + 2 * i) 2 == 0 && leAt b (100 + 2 * i) 2 == 0))) &&
    decide (byteAt b 121 ≤ 127) && allZero (slice b 122 6)

/-- Bytes of a rank (R286). -/
def rankGib (b : Bytes) : Nat :=
  let den := nth 0 [16, 24, 32, 0] (field (byteAt b 0) 3 2)
  if field (byteAt b 0) 1 0 = 1 then den / 2 else den

/-- In-service capacity in GiB (R286). -/
def boardGib (b : Bytes) : Nat := 2 * (field (byteAt b 0) 5 4 + 1 - flag (bit (byteAt b 0) 6)) * rankGib b

/-- The DRAM_BOARD section is sound (R285, R286, R290, R291, R305); `chive` is the image's Chive reservation in GiB. -/
def boardOk (b : Bytes) (chive : Nat) : Bool :=
  let h := byteAt b 0
  let ranks := field h 5 4 + 1
  decide (field h 1 0 ≤ 1) && decide (field h 3 2 ≤ 2) && (!bit h 6 || decide (2 ≤ ranks)) && byteAt b 1 == 0 &&
    [3200, 3600, 4000, 4400, 4800, 5200, 5600, 6000, 6400].contains (leAt b 2 2) &&
    decide (22 ≤ byteAt b 4 ∧ byteAt b 4 ≤ 66 ∧ byteAt b 4 % 2 = 0) && decide (leAt b 12 2 ≤ 900) &&
    decide (4 ≤ byteAt b 14 ∧ byteAt b 14 ≤ 32) && allZero (slice b 15 49) &&
    [0, 1].all (fun c => allZero (slice b (64 + 32 * c + 19) 13)) &&
    (List.range 8).all (fun i => rankOk (slice b (128 + 128 * i) 128) (field h 1 0 == 1) (decide (i % 4 < ranks))) &&
    decide (boardGib b ≤ 64) && decide (3 + chive + 2 ≤ boardGib b) && Config.boardTimingsOk (b.take 64)

/-- An entry of the ARBITERS section: instance, requester, class, limit (R345). -/
def arbiterOf (b : Bytes) : Nat × Nat × Nat × Nat :=
  let v := leNat b
  (field v 6 0, field v 13 8, field v 15 14, field v 27 16)

/-- The ARBITERS section is sound (R345). -/
def arbitersOk (b : Bytes) : Bool :=
  let es := (chunksOf 4 b).map arbiterOf
  b.length % 4 == 0 && (chunksOf 4 b).all (fun e => !bit (leNat e) 7 && field (leNat e) 31 28 == 0) &&
    es.all (fun e => decide (e.1 ≤ 90) && decide (e.2.1 < auCount e.1) &&
      es.countP (fun x => x.1 == e.1 && x.2.1 == e.2.1) == 1)

/-- Bits set in a bit map, as numbers from 1 (R576). -/
def mapNsids (b : Bytes) : List Nat :=
  ((List.range (8 * b.length)).filter (fun i => bit (leNat b) i)).map (· + 1)

/-- The PAIR section (R576), with its key unwrapped under the KEK of function 0 (R577); none when it is refused. -/
def State.pairOf (s : State) (b : Bytes) : Option PairCfg :=
  let mir := mapNsids (slice b 64 128)
  let own := mapNsids (slice b 192 128)
  if leAt b 0 8 = 0 ∨ byteAt b 8 < 2 ∨ 20 < byteAt b 8 ∨ byteAt b 9 < 1 ∨ 14 < byteAt b 9 ∨ !allZero (slice b 10 6) ∨
      !allZero (slice b 56 8) ∨ own.any (fun n => !mir.contains n) ∨
      mir.any (fun n => match s.ns n with | some x => x.object | none => false) then none
  else match (s.fn 0).kek with
    | none => none
    | some k => (keyUnwrap k (slice b 16 40)).map (fun key =>
        { pairId := BitVec.ofNat 64 (leAt b 0 8), lossMs := byteAt b 8, resyncGbps := byteAt b 9, pairKey := key,
          mirrored := mir, owner1 := own })

/-! ### The checks of a commit -/

/-- Check 1 of R217: header fields and a complete staging. -/
def imgHeaderOk (c : CfgSlot) : Bool :=
  let i := c.image
  c.content == .valid && leAt i 0 4 == 0x4643584C && leAt i 4 2 == 1 && decide (1 ≤ leAt i 6 2 ∧ leAt i 6 2 ≤ 16) &&
    decide (64 ≤ leAt i 12 4 ∧ leAt i 12 4 ≤ 524288) && leAt i 12 4 == i.length && allZero (slice i 16 16)

/-- Check 2 of R217. -/
def imgFpOk (c : CfgSlot) : Bool := imgDigest c.image == slice c.image 32 32

/-- A section's size fits its type (R211, R213, R214, R273, R290, R345, R576). -/
def sectionSizeOk (ty size : Nat) : Bool :=
  match ty with
  | 1 => size == 32
  | 2 => size % 64 == 0
  | 3 => size == 1152
  | 4 => size == 32
  | 5 => size % 4 == 0
  | 6 => size == 320
  | _ => false

/-- Check 4 of R217: the directory and the sections. -/
def State.imgSectionsOk (s : State) (img : Bytes) : Bool :=
  let dir := imgDirectory img
  let n := dir.length
  (List.range n).all (fun i => leAt img (66 + 16 * i) 2 == 0 && leAt img (76 + 16 * i) 4 == 0) &&
    dir.all (fun e => sectionSizeOk e.1 e.2.2 && e.2.1 % 8 == 0 && decide (64 + 16 * n ≤ e.2.1 ∧ e.2.1 + e.2.2 ≤ img.length) &&
      dir.countP (fun x => x.1 == e.1) == 1) &&
    [1, 2, 3, 4].all (fun ty => (imgSection img ty).isSome) &&
    deviceOk ((imgSection img 1).getD []) &&
    (chunksOf 64 ((imgSection img 2).getD [])).all tenantOk &&
    rising ((tenantsOf ((imgSection img 2).getD [])).map (·.func)) &&
    boardOk ((imgSection img 3).getD []) (leAt ((imgSection img 1).getD []) 8 2) &&
    flashOk ((imgSection img 4).getD []) && arbitersOk ((imgSection img 5).getD []) &&
    (match imgSection img 6 with | none => true | some p => (s.pairOf p).isSome)

/-- Ranges of numbers that do not overlap. -/
def disjoint : List (Nat × Nat) → Bool
  | [] => true
  | (a, n) :: l => l.all (fun x => n == 0 || x.2 == 0 || decide (a + n ≤ x.1 ∨ x.1 + x.2 ≤ a)) && disjoint l

/-- Masks that do not overlap. -/
def masksDisjoint : List (BitVec 32) → Bool
  | [] => true
  | m :: l => l.all (fun x => x &&& m == 0) && masksDisjoint l

/-- The usable capacity in GiB (R269) under a FLASH section. -/
def State.usableGib (s : State) (c : FlashCfg) : Nat :=
  s.flash.rawBytes * (1000 - s.nvs.slcSlice - c.hotTier - 10 * c.opPct - 5) / 1000 / 2 ^ 30

/-- Valid physical rows of a function's tables (R441). -/
def State.asuRows (s : State) (f : Nat) : Nat :=
  (s.asu.tables.filter (fun t => t.func == f)).foldl (fun n t =>
    n + 2 ^ t.width * s.asu.rows.countP (fun e => e.1 / 2 ^ 24 == f * 65 + t.id && e.2.isSome)) 0

/-- A function does not get less than it uses (R168). -/
def State.usesFit (s : State) (ts : List Tenant) (f : Nat) : Bool :=
  let t := (ts.find? (fun t => t.func == f)).getD { func := f }
  decide ((s.fn f).capacityUsed ≤ t.capacityGib * 2 ^ 30) && decide ((s.fn f).objectsUsed ≤ t.objectQuota) &&
    decide (s.asuRows f ≤ t.asuQuota) &&
    s.cpe.slots.all (fun e => e.2.func != f || (e.2.key.isNone && e.2.staged.isNone) ||
      decide (t.keyBase ≤ e.1 ∧ e.1 < t.keyBase + t.keyCount))

/-- Check 5 of R217: ranges and masks do not overlap, and R168 holds. -/
def State.tenantsFit (s : State) (img : Bytes) : Bool :=
  let ts := tenantsOf ((imgSection img 2).getD [])
  let fl := flashOf ((imgSection img 4).getD [])
  let chive := leAt ((imgSection img 1).getD []) 8 2
  let sum := fun (g : Tenant → Nat) => (ts.map g).foldl (· + ·) 0
  disjoint (ts.map (fun t => (t.msixBase, t.msixCount))) && ts.all (fun t => decide (t.msixBase + t.msixCount ≤ 2048)) &&
    disjoint (ts.map (fun t => (t.keyBase, t.keyCount))) && ts.all (fun t => decide (t.keyBase + t.keyCount ≤ 4096)) &&
    masksDisjoint (ts.map (·.scullMask)) && masksDisjoint (ts.map (·.dmaMask)) &&
    decide (sum (·.ioQueues) ≤ 1024) && decide (sum (·.flightCap) ≤ 65408) && decide (sum (·.asuQuota) ≤ 196608) &&
    decide (sum (·.capacityGib) ≤ s.usableGib fl) && decide (sum (·.objectQuota) ≤ 16777216) &&
    decide (sum (·.chiveQuota) ≤ chive * 2 ^ 24) &&
    (nubNat (s.fns.map (·.1) ++ ts.map (·.func))).all (fun f => s.usesFit ts f)

/-- The first check of R217 that the staged image fails. -/
def State.failingCheck (s : State) (c : CfgSlot) : Option Nat :=
  if !imgHeaderOk c then some 1
  else if !imgFpOk c then some 2
  else if c.version ≤ (s.cfgSlot 0).version then some 3
  else if !s.imgSectionsOk c.image then some 4
  else if !s.tenantsFit c.image then some 5
  else none

/-! ### Applying a configuration -/

/-- The TENANTS section in force (R211, R214); every function follows its entry, or owns only what R167 leaves it. A program
on sculls that its function no longer owns is unloaded, reason 3 (R517). -/
def State.applyTenants (s : State) (ts : List Tenant) : State :=
  let fs := nubNat (s.fns.map (·.1) ++ ts.map (·.func))
  let s1 := fs.foldl (fun s f => s.updFn f (fun x =>
    x.setRate (((ts.find? (fun t => t.func == f)).map (·.rate)).getD {}))) { s with nvs := { s.nvs with tenants := ts } }
  let gone := s1.sca.progs.filter (fun p => p.sculls.any (fun k =>
    !(match ts.find? (fun t => t.func == p.func) with | some t => t.scullMask.getLsbD k | none => false)))
  gone.foldl (fun s p =>
    let s2 := p.sculls.foldl (fun s k => s.updScull k (fun c =>
      if c.running && c.func == p.func && c.handle == p.handle then c.halt else c)) s
    (s2.freeProgram p).raise evProgramUnloaded p.func [(1, p.func), (2, p.handle), (1, 3)]) s1

/-- The rate a channel takes (R273). -/
def chanRate (iface rate : Nat) : Nat := if iface = 1 then Nat.min rate 1600 else rate

/-- The FLASH section in force (R273): quads with a channel that it disables are no longer used; where the rate changes, and on a channel
that it enables, the channel is retrained. A channel without a report takes the configured rate (log 31). -/
def State.applyFlash (s : State) (c : FlashCfg) (reports : List ChanReport) : State :=
  let fresh := fun (ch : Nat) => c.chanEn.getLsbD ch && (c.rate != s.flash.cfg.rate || !s.flash.cfg.chanEn.getLsbD ch)
  let take := fun (e : Nat × Chan) =>
    if !c.chanEn.getLsbD e.1 then (e.1, {})
    else if fresh e.1 && e.2.trained then (e.1, { e.2 with rate := chanRate e.2.iface c.rate }) else e
  let s1 := { s with flash := { s.flash with
    cfg := c, chans := (s.flash.chans.map take).filter (fun e => decide (e.2 ≠ {})) } }
  (reports.filter (fun r => fresh r.ch)).foldl State.trained s1

/-- The ARBITERS section in force (R345): every instance from its entries or its defaults, committed. -/
def State.applyArbiters (s : State) (b : Bytes) : State :=
  let es := (chunksOf 4 b).map arbiterOf
  (List.range 91).foldl (fun s i =>
    let a := s.au i
    let reqs := (a.reqs.zipIdx).map (fun x =>
      let e := match es.find? (fun e => e.1 == i && e.2.1 == x.2) with
        | some e => (e.2.2.1, e.2.2.2)
        | none => auDefault i x.2
      { x.1 with shadowCls := e.1, shadowLimit := e.2 })
    if reqs == a.reqs then s else s.setAu i { a with reqs := reqs, commit := true }) s

/-- The PAIR section in force (R211, R574, R577): its pair key is page key 0 of privileged page 2, with the ATTR of an AES-CTR key of
32 bytes (R355). -/
def State.applyPair (s : State) (b : Option Bytes) : State :=
  let c := b.bind s.pairOf
  { s with
    swl := { s.swl with cfg := c, fpChanged := true }
    cpe := match c with
      | some x => { s.cpe with pages := Mem.upd {} s.cpe.pages 2 (fun p => { p with keys := Mem.set ([], 0) p.keys 0 (x.pairKey, 0x41) }) }
      | none => s.cpe }

/-- A comparison of the two fingerprints (R586): a difference suspends a pair, an agreement resumes it. -/
def State.compareFp (s : State) : State :=
  let same : Bool := s.configFp == s.swl.partnerFp
  match s.swl.state, same with
  | .paired, false =>
    let s1 := { s with swl := { s.swl with state := .suspended, link := { s.swl.link with suspendedMs := 0 } } }
    ((s1.raise evPairSuspended 255 [(8, s.configFp.toNat), (8, s.swl.partnerFp.toNat)]).setCause 4 evPairSuspended.code).anaEvent
  | .suspended, true =>
    let s1 := { s with swl := { s.swl with state := .paired } }
    ((s1.raise evPairResumed 255 [(4, s.swl.link.suspendedMs)]).clearCause 4 evPairResumed.code).anaEvent
  | _, _ => s

/-- Step 7 of R217: the sections that take effect at commit. -/
def State.applyCommit (s : State) (img : Bytes) (reports : List ChanReport) : State :=
  ((((s.applyTenants (tenantsOf ((imgSection img 2).getD []))).applyFlash (flashOf ((imgSection img 4).getD [])) reports).applyArbiters
    ((imgSection img 5).getD [])).applyPair (imgSection img 6)).compareFp

/-- The sections that take effect at BOOT (R123, R211, R213, R306). -/
def State.applyBoot (s : State) (img : Bytes) : State :=
  let d := (imgSection img 1).getD []
  let b := (imgSection img 3).getD []
  { s with
    hif := { s.hif with dualPort := byteAt d 0 == 1 }
    nvs := { s.nvs with
      vfSplit := byteAt d 1, trialDefault := leAt d 2 4, mapCacheGib := leAt d 6 2, chiveGib := leAt d 8 2, slcSlice := byteAt d 10 }
    dram := { s.dram with board := b, ranks := if s.dram.board = b then s.dram.ranks else [],
                          rankMap := if s.dram.board = b then s.dram.rankMap else [] } }

/-! ### Roles -/

/-- A slot's content kept through a trial (R215, R217). -/
def retainedOf (c : CfgSlot) : CfgSlot := if c.content = .valid then { c with content := .retained } else c

/-- Commit point of R217: the staged image ACTIVE on trial, the old ACTIVE PREVIOUS, the old PREVIOUS retained. -/
def Nvs.commitRoles (n : Nvs) (trialS : Nat) : Nvs :=
  let a := nth 0 n.roles 0
  let p := nth 0 n.roles 1
  let st := nth 0 n.roles 2
  { n with roles := [st, a, p, nth 0 n.roles 3], trial := true, trialS := trialS, received := 0, total := 0,
           slots := Mem.upd {} n.slots p retainedOf }

/-- A revert (R219): PREVIOUS ACTIVE, the retained image PREVIOUS, the trial image staged. -/
def Nvs.revertRoles (n : Nvs) : Nvs :=
  let a := nth 0 n.roles 0
  let p := nth 0 n.roles 1
  let st := nth 0 n.roles 2
  { n with
    roles := [p, st, a, nth 0 n.roles 3], trial := false, trialLeft := 0
    slots := Mem.upd {} n.slots st (fun c => if c.content = .retained then { c with content := .valid } else c)
    received := (Mem.get {} n.slots a).image.length, total := (Mem.get {} n.slots a).image.length }

/-- A rollback outside a trial (R220): PREVIOUS ACTIVE, the old ACTIVE staged, PREVIOUS empty. -/
def Nvs.rollbackRoles (n : Nvs) : Nvs :=
  let a := nth 0 n.roles 0
  let p := nth 0 n.roles 1
  let st := nth 0 n.roles 2
  { n with
    roles := [p, st, a, nth 0 n.roles 3], slots := Mem.set {} n.slots st {}
    received := (Mem.get {} n.slots a).image.length, total := (Mem.get {} n.slots a).image.length }

/-! ### MAINTENANCE for a commit or a revert -/

/-- MAINTENANCE entered for work of the device (R217, R540, R568). -/
def State.enterMaintWork (s : State) (cause : Nat) : State :=
  let s1 := if s.psm.mode = .maintenance then s else s.toMode .maintenance cause
  { s1 with psm := { s1.psm with maintByWork := true } }

/-- MAINTENANCE ends when nothing holds it any more (R540, R568): to SERVICE, or to DEGRADED while a cause stands. -/
def State.leaveMaint (s : State) (cause : Nat) : State :=
  if s.psm.mode = .maintenance ∧ !s.psm.maintByHost ∧ !s.psm.maintByWork ∧ !s.psm.heldFromHalt ∧ s.nvs.fwRunning ≠ 1 then
    s.toMode (if s.psm.causes = 0 then .service else .degraded) cause
  else s

/-- Work of the device that held MAINTENANCE has ended (R568). -/
def State.endMaintWork (s : State) (cause : Nat) : State :=
  ({ s with psm := { s.psm with maintByWork := false } }).leaveMaint cause

/-- No accepted I/O command is left (R217 step 3). -/
def State.ioDone (s : State) : Bool := s.inflight.all (fun e => e.2.sqe.admin) && s.hif.fetched.all (fun e => e.2.2.admin)

/-- Configuration work is in progress. -/
def State.cfgBusy (s : State) : Bool := s.nvs.committing.isSome || s.nvs.reverting.isSome

/-- The new fingerprint (8) and version (4) (R208). -/
def State.cfgAnswer (s : State) : Bytes := leBytes 8 (s.cfgSlot 0).fp ++ leBytes 4 (s.cfgSlot 0).version

/-! ### The commands -/

/-- The 80 bytes of R215. -/
def State.configStatus (s : State) : Bytes :=
  [byteOf (flag s.nvs.trial), byteOf s.nvs.stageOwner, 0, 0] ++ leBytes 4 s.nvs.trialLeft ++ leBytes 4 s.nvs.received ++
    leBytes 4 s.nvs.total ++
    ([0, 1, 2, 3].map (fun r =>
      let c := s.cfgSlot r
      [byteOf (match c.content with | .empty => 0 | .valid => 1 | .partialImage => 2 | .retained => 3), 0, 0, 0] ++
        leBytes 4 c.version ++ leBytes 8 c.fp)).flatten

/-- MB_CONFIG_STATUS (R215). -/
def execMbConfigStatus (f : Nat) (s : State) : Host.Outcome State Fault Refusal :=
  .next (s.mbRun f 0x0201 anyPayload (fun s _ => (s, some (mbOk s.configStatus))))

/-- One piece of the staged image (R206, R216). -/
def State.stagePiece (s : State) (f : Nat) (p : Bytes) : State × Option MbResp :=
  let off := leAt p 8 4
  let total := leAt p 12 4
  let data := p.drop 16
  let st := nth 0 s.nvs.roles 2
  let put := fun (img : Bytes) =>
    if total < img.length ∨ 524288 < total then (s, some (mbErr 0x0004))
    else
      ({ s with nvs := { s.nvs with
          stageOwner := f, received := img.length, total := total
          slots := Mem.set {} s.nvs.slots st
            { content := if img.length = total then .valid else .partialImage, image := img } } }, some (mbOk []))
  if s.nvs.trial then (s, some (mbErr 0x000C))
  else if leAt p 0 8 ≠ 0 then (s, some (mbErr 0x0004))
  else if off = 0 then put data
  else if s.nvs.stageOwner ≠ f ∨ (s.cfgSlot 2).content ≠ .partialImage then (s, some (mbErr 0x0007))
  else if total ≠ s.nvs.total then
    ({ s with nvs := { s.nvs with received := 0, total := 0, slots := Mem.set {} s.nvs.slots st {} } }, some (mbErr 0x0004))
  else if off ≠ s.nvs.received then (s, some (mbErr 0x0007))
  else put ((s.cfgSlot 2).image ++ data)

/-- MB_CONFIG_STAGE (R206, R216). -/
def execMbConfigStage (f : Nat) (s : State) : Host.Outcome State Fault Refusal :=
  .next (s.mbRun f 0x0202 anyPayload (fun s p => s.stagePiece f p))

/-- MB_CONFIG_READ (R206, R208): SEL is a role; an empty slot holds no image. -/
def execMbConfigRead (f : Nat) (s : State) : Host.Outcome State Fault Refusal :=
  .next (s.mbRun f 0x0203 anyPayload (fun s p =>
    (s, some (if 3 < leAt p 0 8 then mbErr 0x0004
      else if (s.cfgSlot (leAt p 0 8)).content = .empty then mbErr 0x000B
      else readPiece (s.cfgSlot (leAt p 0 8)).image p))))

/-- MB_CONFIG_COMMIT (R217 steps 1 and 2, R231): MAINTENANCE is entered and accepted I/O is waited for. It starts neither beside other
configuration work nor during a firmware activation. -/
def execMbConfigCommit (f : Nat) (s : State) : Host.Outcome State Fault Refusal :=
  .next (if s.cfgBusy ∨ s.hif.activating.isSome then s
    else s.mbRunAs f 0x0204 anyPayload (fun s f p =>
      let t := leAt p 0 4
      let v := leAt p 4 4
      if t ≠ 0 ∧ (t < 10 ∨ 86400 < t) then (s, some (mbErr 0x0004))
      else if s.nvs.trial then (s, some (mbErr 0x000C))
      else if v ≠ 0 ∧ v ≠ (s.cfgSlot 2).version then (s, some (mbErr 0x0008))
      else
        let s1 := s.enterMaintWork evConfigCommitted.code
        ({ s1 with nvs := { s1.nvs with committing := some (f, if t = 0 then s1.nvs.trialDefault else t) } }, none)))

/-- Steps 4 to 8 of R217. -/
def State.commitApply (s : State) (f trialS : Nat) (reports : List ChanReport) : State :=
  let c := s.cfgSlot 2
  let s0 := { s with nvs := { s.nvs with committing := none } }
  match s.failingCheck c with
  | some n =>
    ((s0.raise evConfigRefused 255 [(1, n), (4, c.version)]).endMaintWork evConfigRefused.code).mbRespond f (mbErr 0x0008 n)
  | none =>
    let old := (s.cfgSlot 0).version
    let s1 := { s0 with nvs := s0.nvs.commitRoles trialS }
    let s2 := (s1.applyCommit c.image reports).raise evConfigCommitted (f % 256)
      [(1, f % 256), (4, old), (4, c.version), (8, c.fp), (4, trialS)]
    let s3 := { s2 with nvs := { s2.nvs with trialLeft := trialS } }
    (s3.endMaintWork evConfigCommitted.code).mbRespond f (mbOk s3.cfgAnswer)

/-- Steps 6 to 8 of R217 for a revert (R219) or a rollback outside a trial (R220); reason 0 stands for the latter. -/
def State.revertApply (s : State) (reason : Nat) (mb : Option Nat) (reports : List ChanReport) : State :=
  let left := (s.cfgSlot 0).version
  let s1 := { s with nvs := { (if reason = 0 then s.nvs.rollbackRoles else s.nvs.revertRoles) with reverting := none } }
  let s2 := s1.applyCommit (s1.cfgSlot 0).image reports
  let s3 := if reason = 0 then s2
    else s2.raise evConfigReverted 255 [(1, reason), (4, left), (4, (s2.cfgSlot 0).version)]
  let s4 := s3.endMaintWork evConfigReverted.code
  match mb with
  | none => s4
  | some f => s4.mbRespond f (mbOk s4.cfgAnswer)

/-- CONFIG_COMMIT_APPLY (R217 to R220, R273): once accepted I/O has completed; `reports` is how the retraining of channels went. -/
def execConfigCommitApply (s : State) (reports : List ChanReport := []) : Host.Outcome State Fault Refusal :=
  .next (if !s.ioDone ∨ s.psm.mode ≠ .maintenance then s
    else match s.nvs.committing, s.nvs.reverting with
      | some c, _ => s.commitApply c.1 c.2 reports
      | none, some r => s.revertApply r.1 r.2 reports
      | none, none => s)

/-- MB_CONFIG_CONFIRM (R218, R229): once the trial has expired, or its revert has begun, it waits for the revert. -/
def execMbConfigConfirm (f : Nat) (s : State) : Host.Outcome State Fault Refusal :=
  .next (if s.nvs.trial ∧ (s.nvs.trialLeft = 0 ∨ s.nvs.reverting.isSome) then s
    else s.mbRun f 0x0205 anyPayload (fun s p =>
    if !s.nvs.trial then (s, some (mbErr 0x0009))
    else if leAt p 0 8 ≠ (s.cfgSlot 0).fp then (s, some (mbErr 0x0004))
    else
      let s1 := s.raise evConfigConfirmed 255
        [(4, (s.cfgSlot 0).version), (8, (s.cfgSlot 0).fp), (4, s.nvs.trialS - s.nvs.trialLeft)]
      ({ s1 with nvs := { s1.nvs with
          trial := false, trialLeft := 0, slots := Mem.set {} s1.nvs.slots (nth 0 s1.nvs.roles 2) {} } }, some (mbOk []))))

/-- MB_CONFIG_ROLLBACK (R219, R220): the roles change once accepted I/O has completed. -/
def execMbConfigRollback (f : Nat) (s : State) : Host.Outcome State Fault Refusal :=
  .next (if s.cfgBusy then s
    else s.mbRunAs f 0x0206 anyPayload (fun s f _ =>
      if !s.nvs.trial ∧ (s.cfgSlot 1).content = .empty then (s, some (mbErr 0x000A))
      else
        let s1 := s.enterMaintWork evConfigReverted.code
        ({ s1 with nvs := { s1.nvs with reverting := some (if s.nvs.trial then 2 else 0, some f) } }, none)))

/-- The factory image with the VERSION after ACTIVE's and its digest (R216). -/
def State.factoryImage (s : State) : Bytes :=
  let img := splice (s.cfgSlot 3).image 8 (leBytes 4 ((s.cfgSlot 0).version + 1))
  splice img 32 (imgDigest img)

/-- MB_CONFIG_FACTORY (R216): while a configuration is on trial the staged slot holds the retained image, as for staging. -/
def execMbConfigFactory (f : Nat) (s : State) : Host.Outcome State Fault Refusal :=
  .next (s.mbRun f 0x0207 anyPayload (fun s _ =>
    if s.nvs.trial then (s, some (mbErr 0x000C))
    else if (s.cfgSlot 3).content = .empty then (s, some (mbErr 0x000B))
    else
      let img := s.factoryImage
      ({ s with nvs := { s.nvs with
          received := img.length, total := img.length
          slots := Mem.set {} s.nvs.slots (nth 0 s.nvs.roles 2) { content := .valid, image := img } } }, some (mbOk []))))

/-- A trial of which no time is left reverts (R219, R229): the revert begins, and applies once accepted I/O has completed. -/
def State.expireTrial (s : State) : State :=
  if !s.nvs.trial ∨ s.nvs.trialLeft ≠ 0 ∨ s.nvs.reverting.isSome ∨ !s.psm.mode.engines then s
  else
    let s1 := s.enterMaintWork evConfigReverted.code
    { s1 with nvs := { s1.nvs with reverting := some (1, none) } }

/-- TRIAL_EXPIRE (R219, R229). -/
def execTrialExpire (s : State) : Host.Outcome State Fault Refusal := .next s.expireTrial

/-! ### At BOOT -/

/-- The first of the roles ACTIVE, PREVIOUS and FACTORY whose image passes its fingerprint (R221). -/
def State.bootRole (s : State) : Option Nat := [0, 1, 3].find? (fun r => (s.cfgSlot r).content != .empty && imgFpOk (s.cfgSlot r))

/-- The configuration at BOOT (R219, R221): a trial is reverted, reason 3; the first image that passes becomes ACTIVE and
confirmed (log 28); none is SAFE-HALT. -/
def State.bootConfig (s : State) : State :=
  let s1 := if s.nvs.trial then
      let left := (s.cfgSlot 0).version
      let s' := { s with nvs := s.nvs.revertRoles }
      s'.raise evConfigReverted 255 [(1, 3), (4, left), (4, (s'.cfgSlot 0).version)]
    else s
  match s1.bootRole with
  | none => s1.dangerHalt evConfigBootFallback 0x0201 [(1, 0x0B), (1, 0xFF)] false
  | some r =>
    let n := s1.nvs
    let a := nth 0 n.roles 0
    let n1 := if r = 0 then n
      else if r = 1 then { n with roles := [nth 0 n.roles 1, a, nth 0 n.roles 2, nth 0 n.roles 3] }
      else { n with slots := Mem.set {} n.slots a (s1.cfgSlot 3) }
    let s2 := { s1 with nvs := { n1 with committing := none, reverting := none } }
    let s3 := if r = 0 then s2 else s2.raise evConfigBootFallback 255 [(1, if r = 1 then 0x01 else 0x03), (1, r)]
    let img := (s3.cfgSlot 0).image
    let s4 := (s3.applyBoot img).applyCommit img []
    { s4 with fns := Mem.mapAll {} (·.fillBuckets) s4.fns }

end Sys2Proof.Machine
end

