-- ==== Sys2Proof/Machine/Keys.lean ====
section
/-! DEFINITION. Key slots: their states and attributes, import and erase with the staged rewrite, and the keys of the key and
identity store (R354 to R361, R374 to R376). -/

namespace Sys2Proof.Machine

/-- Key slot `n`. -/
def State.slot (s : State) (n : Nat) : Slot := Mem.get {} s.cpe.slots n

/-- The state with key slot `n` set. -/
def State.setSlot (s : State) (n : Nat) (x : Slot) : State :=
  { s with cpe := { s.cpe with slots := Mem.set {} s.cpe.slots n x } }

/-- The slot lies in the function's range (R167). -/
def State.ownsSlot (s : State) (f n : Nat) : Bool :=
  match s.tenant f with
  | some t => decide (t.keyBase ≤ n ∧ n < t.keyBase + t.keyCount)
  | none => false

/-- The state code of a slot (R354). -/
def Slot.code (x : Slot) : Nat :=
  if x.staged.isSome then 2
  else match x.key with
    | none => 0
    | some k => if k.locked then 3 else 1

/-- ATTR is accepted at import (R355). -/
def attrOk (a : Nat) : Bool :=
  let modes := field a 5 0
  modes != 0 && (!bit a 5 || modes == 32) && (!bit a 4 || field a 7 6 == 1) && decide (field a 7 6 ≤ 1) && field a 15 8 == 0

/-- Stamp `e` precedes epoch `E` (R360). -/
def epochBefore (e big : BitVec 16) : Bool := let d := (big - e).toNat; decide (1 ≤ d ∧ d ≤ 2 ^ 15 - 1)

/-- The key of a slot that a stamp selects (R360). -/
def Slot.keyFor (x : Slot) (e : BitVec 16) : Option Key :=
  match x.staged with
  | some (big, old) => if epochBefore e big then old else x.key
  | none => x.key

/-- A slot rewritten for a stamp epoch (R360): the new key in place, the old one held beside it. -/
def Slot.rewrite (x : Slot) (big : BitVec 16) (k : Option Key) (f : Nat) : Slot :=
  { key := k, staged := some (big, x.key), mark := 0, func := f }

/-- Work of a function that was stamped before an epoch is still in flight (R361): commands, scull invocations and cipher
requests. -/
def State.stampedBefore (s : State) (f : Nat) (big : BitVec 16) : Bool :=
  (s.inflightOf f).any (fun e => epochBefore e.2.epoch big) ||
    s.sca.sculls.any (fun e => e.2.running && e.2.func == f && epochBefore e.2.epoch big) ||
    ((s.cpe.pipes.map (fun p => p.2.bound)).flatten ++ s.cpe.queue ++ s.cpe.waiting).any (fun e =>
      field e.entry.toNat 31 24 == f && epochBefore (BitVec.ofNat 16 (field e.entry.toNat 63 48)) big)

/-- The function's profile epoch rises (R105, R360). The first epoch of a version stays where a view in flight may still tell it from
its own stamp (R120), as far as the order of R360 reaches; beyond, it follows the epoch, so that the order never turns round. -/
def State.raiseEpoch (s : State) (f : Nat) : State :=
  let e := (s.fn f).epoch + 1
  let follows := fun (p : Profile) => decide (p.func = f ∧ 0x4000 < (e - p.since).toNat) &&
    (!s.stampedBefore f (e - 0x4000) || decide (0x7FFE ≤ (e - p.since).toNat))
  { s with objs := { s.objs with profiles := s.objs.profiles.map (fun (p : Profile) =>
      if follows p then { p with since := e - 0x4000 } else p) } }.updFn f (fun x => { x with epoch := e })

/-- The result of MB_KEY_IMPORT before the unwrap is tried, in the order of R358. -/
def State.importCause (s : State) (f : Nat) (p : Bytes) : Option MbResp :=
  let attr := leAt p 2 2
  let wrapped := p.length - 8
  if !s.ownsSlot f (leAt p 0 2) then some (mbErr 0x000B)
  else if !attrOk attr ∨ (p.length ≠ 32 ∧ p.length ≠ 48) ∨ (!bit attr 2 ∧ leAt p (4 + wrapped) 4 ≠ 0) then some (mbErr 0x0004)
  else if (s.slot (leAt p 0 2)).staged.isSome then some (mbErr 0x0008 2)
  else if wrapped ≠ (if field attr 7 6 = 1 then 40 else 24) then some (mbErr 0x0008 3)
  else if (s.fn f).kek.isNone then some (mbErr 0x0008 4)
  else none

/-- A refused import is recorded (R358). -/
def State.importRefused (s : State) (f : Nat) (p : Bytes) (r : MbResp) : State × Option MbResp :=
  (if r.result = 0x0008 then s.raise evKeyImportRejected f [(1, f), (2, leAt p 0 2), (1, r.detail)] else s, some r)

/-- MB_KEY_IMPORT (R358, R360). -/
def execMbKeyImport (f : Nat) (s : State) : Host.Outcome State Fault Refusal :=
  .next (s.mbRun f 0x0401 anyPayload (fun s p =>
    match s.importCause f p with
    | some r => s.importRefused f p r
    | none =>
      let n := leAt p 0 2
      let wrapped := p.length - 8
      match keyUnwrap ((s.fn f).kek.getD []) (slice p 4 wrapped) with
      | none => s.importRefused f p (mbErr 0x0008 1)
      | some k =>
        let s1 := s.raiseEpoch f
        let key : Key := { bytes := k, attr := BitVec.ofNat 16 (leAt p 2 2), fixed := BitVec.ofNat 32 (leAt p (4 + wrapped) 4) }
        ((s1.setSlot n ((s1.slot n).rewrite (s1.fn f).epoch (some key) f)).raise evKeyImported f
          [(1, f), (2, n), (2, leAt p 2 2), (2, (s1.fn f).epoch.toNat)], some (mbOk []))))

/-- MB_KEY_ERASE (R358, R360). -/
def execMbKeyErase (f : Nat) (s : State) : Host.Outcome State Fault Refusal :=
  .next (s.mbRun f 0x0402 anyPayload (fun s p =>
    let n := leAt p 0 2
    if !s.ownsSlot f n then (s, some (mbErr 0x000B))
    else match (s.slot n).code with
      | 0 => (s, some (mbOk []))
      | 2 => (s, some (mbErr 0x0008 2))
      | _ =>
        let s1 := s.raiseEpoch f
        ((s1.setSlot n ((s1.slot n).rewrite (s1.fn f).epoch none f)).raise evKeyErased f [(1, f), (2, n)], some (mbOk []))))

/-- The 16 bytes of MB_KEY_STATUS (R208, R354, R358): while PENDING, those of the new key. -/
def Slot.status (x : Slot) : Bytes :=
  [byteOf x.code, 0] ++ leBytes 2 ((x.key.map (·.attr.toNat)).getD 0) ++ leBytes 4 0 ++ leBytes 8 ((x.key.map (·.counter)).getD 0)

/-- MB_KEY_STATUS (R354, R358). -/
def execMbKeyStatus (f : Nat) (s : State) : Host.Outcome State Fault Refusal :=
  .next (s.mbRun f 0x0403 anyPayload (fun s p =>
    if s.ownsSlot f (leAt p 0 2) then (s, some (mbOk (s.slot (leAt p 0 2)).status)) else (s, some (mbErr 0x000B))))

/-- MB_KEK_IMPORT (R357): installs a function's KEK, or with 0xFF the maintenance key. -/
def execMbKekImport (f : Nat) (s : State) : Host.Outcome State Fault Refusal :=
  .next (s.mbRun f 0x0404 anyPayload (fun s p =>
    let g := byteAt p 0
    if (127 < g ∧ g ≠ 255) ∨ !allZero (slice p 1 7) then (s, some (mbErr 0x0004))
    else match (s.nvs.transportKey.bind (fun t => keyUnwrap t (slice p 8 40))) with
      | none => (s.raise evKeyImportRejected g [(1, g), (2, 0xFFFF), (1, 1)], some (mbErr 0x0008 1))
      | some k =>
        let s1 := if g = 255 then { s with nvs := { s.nvs with maintKey := some k } }
          else s.updFn g (fun x => { x with kek := some k })
        (s1.raise evKekImported g [(1, g)], some (mbOk []))))

/-- KEY_SLOT_SETTLE (R361). -/
def execKeySlotSettle (slot : Nat) (s : State) : Host.Outcome State Fault Refusal :=
  .next (let x := s.slot slot
    match x.staged with
    | none => s
    | some (big, _) =>
      if s.stampedBefore x.func big then s
      else s.setSlot slot (if x.key.isNone then {} else { x with staged := none }))

/-- A media key is drawn for a function that has none (R359). -/
def State.needMediaKey (s : State) (f : Nat) : State :=
  if (s.fn f).mediaKey.isSome then s
  else
    let d := s.drawBytes 64
    d.2.updFn f (fun x => { x with mediaKey := some d.1 })

/-- Crypto erase: the media key is zeroised and a new one drawn (R153, R359). -/
def State.newMediaKey (s : State) (f : Nat) : State :=
  let d := s.drawBytes 64
  d.2.updFn f (fun x => { x with mediaKey := some d.1 })

end Sys2Proof.Machine
end

