-- ==== Sys2Proof/Machine/SampleIndex.lean ====
section
/-! DEFINITION. The sample index: its header, fragment, sample and subsample records, and the checks of OBJECT SEAL (R46 to
R48). -/

namespace Sys2Proof.Machine

/-- A fragment record (R47). -/
structure Frag where
  first : Nat
  samplesM1 : Nat
  rsv : Nat
  offset : Nat
  decode : Nat
  bytes : Nat
  subFirst : Nat
  deriving DecidableEq, Repr

/-- A sample record (R47). -/
structure Samp where
  size : Nat
  duration : Nat
  cts : BitVec 32
  /-- bits [103:96]: is_leading, depends_on, is_depended_on, has_redundancy, lowest first. -/
  deps : Nat
  nonSync : Bool
  rsv : Nat
  subCount : Nat
  deriving DecidableEq, Repr

/-- A subsample entry (R47). -/
structure SubRange where
  clear : Nat
  rsv : Nat
  prot : Nat
  deriving DecidableEq, Repr

/-! ### The header (R46) -/

/-- HANDLER: 0 video, 1 audio, 2 subtitle. -/
def idxHandler (i : Bytes) : Nat := leAt i 6 1
/-- NAL_LEN. -/
def idxNalLen (i : Bytes) : Nat := leAt i 7 1
/-- CODEC, a 4CC with its first character at the lowest address. -/
def idxCodec (i : Bytes) : Bytes := slice i 8 4
/-- TIMESCALE. -/
def idxTimescale (i : Bytes) : Nat := leAt i 12 4
/-- BASE_DECODE_TIME. -/
def idxBaseTime (i : Bytes) : Nat := leAt i 16 8
/-- FRAGMENT_COUNT. -/
def idxFragCount (i : Bytes) : Nat := leAt i 24 4
/-- SAMPLE_COUNT. -/
def idxSampCount (i : Bytes) : Nat := leAt i 28 4
/-- ESSENCE_LENGTH. -/
def idxEssence (i : Bytes) : Nat := leAt i 32 8
/-- IV_BASE. -/
def idxIvBase (i : Bytes) : Nat := leAt i 40 8
/-- ENTRY_OFFSET. -/
def idxEntryOff (i : Bytes) : Nat := leAt i 48 4
/-- ENTRY_LENGTH. -/
def idxEntryLen (i : Bytes) : Nat := leAt i 52 4
/-- FRAG_TABLE_OFFSET. -/
def idxFragOff (i : Bytes) : Nat := leAt i 56 4
/-- SAMPLE_TABLE_OFFSET. -/
def idxSampOff (i : Bytes) : Nat := leAt i 60 4
/-- SUBSAMPLE_TABLE_OFFSET. -/
def idxSubOff (i : Bytes) : Nat := leAt i 64 4
/-- SUBSAMPLE_TOTAL. -/
def idxSubTotal (i : Bytes) : Nat := leAt i 68 4
/-- LANGUAGE. -/
def idxLanguage (i : Bytes) : Bytes := slice i 72 3
/-- WIDTH. -/
def idxWidth (i : Bytes) : Nat := leAt i 76 2
/-- HEIGHT. -/
def idxHeight (i : Bytes) : Nat := leAt i 78 2
/-- FRAG_SYNC. -/
def idxFragSync (i : Bytes) : Bool := bit (leAt i 80 1) 0
/-- The sample entry, verbatim. -/
def idxEntry (i : Bytes) : Bytes := slice i (idxEntryOff i) (idxEntryLen i)

/-! ### The tables (R47) -/

/-- A fragment record's fields. -/
def fragOf (b : Bytes) : Frag :=
  { first := leAt b 0 4, samplesM1 := leAt b 4 2, rsv := leAt b 6 2, offset := leAt b 8 8, decode := leAt b 16 8,
    bytes := leAt b 24 4, subFirst := leAt b 28 4 }

/-- A sample record's fields. -/
def sampOf (b : Bytes) : Samp :=
  { size := leAt b 0 4, duration := leAt b 4 4, cts := BitVec.ofNat 32 (leAt b 8 4), deps := leAt b 12 1,
    nonSync := bit (leAt b 13 1) 0, rsv := leAt b 13 1 / 2, subCount := leAt b 14 2 }

/-- A subsample entry's fields. -/
def subOf (b : Bytes) : SubRange := { clear := leAt b 0 2, rsv := leAt b 2 2, prot := leAt b 4 4 }

/-- The fragment table. -/
def idxFrags (i : Bytes) : List Frag := (chunksOf 32 (slice i (idxFragOff i) (32 * idxFragCount i))).map fragOf
/-- The sample table. -/
def idxSamps (i : Bytes) : List Samp := (chunksOf 16 (slice i (idxSampOff i) (16 * idxSampCount i))).map sampOf
/-- The subsample table. -/
def idxSubs (i : Bytes) : List SubRange :=
  if idxSubTotal i = 0 then [] else (chunksOf 8 (slice i (idxSubOff i) (8 * idxSubTotal i))).map subOf

/-- The samples of a fragment. -/
def fragSamps (f : Frag) (ss : List Samp) : List Samp := (ss.drop f.first).take (f.samplesM1 + 1)

/-- The subsample entries of each sample of a run, from the entries that follow each other in the table. -/
def subMaps : List Samp → List SubRange → List (List SubRange)
  | [], _ => []
  | s :: ss, l => l.take s.subCount :: subMaps ss (l.drop s.subCount)

/-- A sum over a list. -/
def sumBy {α : Type} (g : α → Nat) (l : List α) : Nat := l.foldl (fun n x => n + g x) 0

/-! ### The checks of OBJECT SEAL (R48) -/

/-- A 4CC as bytes: four ASCII characters. -/
def fourCC (s : String) : Bytes := s.toList.map (fun c => byteOf c.toNat)

/-- Check 1. -/
def sealCheck1 (i : Bytes) : Bool :=
  decide (256 ≤ i.length) && decide (idxEntryOff i + idxEntryLen i ≤ i.length) &&
  decide (idxFragOff i + 32 * idxFragCount i ≤ i.length) && decide (idxSampOff i + 16 * idxSampCount i ≤ i.length) &&
  (idxSubTotal i == 0 || decide (idxSubOff i + 8 * idxSubTotal i ≤ i.length)) &&
  slice i 0 4 == fourCC "LXSI" && leAt i 4 2 == 1 && decide (idxHandler i ≤ 2) && [0, 1, 2, 4].contains (idxNalLen i) &&
  decide (1 ≤ idxTimescale i ∧ 1 ≤ idxFragCount i ∧ 1 ≤ idxSampCount i ∧ 8 ≤ idxEntryLen i ∧ idxEntryLen i ≤ 4096) &&
  (idxNalLen i == 0 || ([fourCC "avc1", fourCC "avc3", fourCC "hvc1", fourCC "hev1"]).contains (idxCodec i)) &&
  (idxLanguage i).all (fun b => decide (0x61 ≤ b.toNat ∧ b.toNat ≤ 0x7A)) &&
  (idxHandler i == 0 || (idxWidth i == 0 && idxHeight i == 0))

/-- The parts of an index with the header (R46). -/
def idxParts (i : Bytes) : List (Nat × Nat) :=
  [(0, 256), (idxEntryOff i, idxEntryLen i), (idxFragOff i, 32 * idxFragCount i), (idxSampOff i, 16 * idxSampCount i)] ++
    (if idxSubTotal i = 0 then [] else [(idxSubOff i, 8 * idxSubTotal i)])

/-- No two ranges of a list overlap. -/
def disjointAll : List (Nat × Nat) → Bool
  | [] => true
  | a :: as => as.all (fun b => decide (a.1 + a.2 ≤ b.1 ∨ b.1 + b.2 ≤ a.1)) && disjointAll as

/-- Check 2. -/
def sealCheck2 (i : Bytes) : Bool :=
  (idxParts i).all (fun p => p.1 % 8 == 0) && disjointAll (idxParts i) &&
  leAt i 75 1 == 0 && leAt i 80 1 / 2 == 0 && allZero (slice i 81 175) &&
  (idxFrags i).all (fun f => f.rsv == 0 && decide (f.samplesM1 ≤ 0x0FFF)) && (idxSamps i).all (fun s => s.rsv == 0) &&
  (idxSubs i).all (fun s => s.rsv == 0)

/-- Check 3. -/
def sealCheck3 (i : Bytes) (len : Nat) : Bool := idxEssence i == len && sumBy (·.size) (idxSamps i) == len

/-- The first element of a list that fails a test, by its number; none when all pass. -/
def firstBad {α : Type} (p : Nat → α → Bool) (l : List α) : Option Nat := (l.zipIdx.find? (fun e => !p e.2 e.1)).map (·.2)

/-- Check 4: the failing fragment. -/
def sealCheck4 (i : Bytes) : Option Nat :=
  let fs := idxFrags i
  firstBad (fun k (f : Frag) =>
    f.first == (if k = 0 then 0 else match fs[k - 1]? with | some p => p.first + p.samplesM1 + 1 | none => 0) &&
      (k + 1 != fs.length || f.first + f.samplesM1 + 1 == idxSampCount i)) fs

/-- Check 5: the failing fragment. -/
def sealCheck5 (i : Bytes) : Option Nat :=
  let ss := idxSamps i
  firstBad (fun _ (f : Frag) =>
    f.offset == sumBy (·.size) (ss.take f.first) && f.decode == sumBy (·.duration) (ss.take f.first) &&
      f.bytes == sumBy (·.size) (fragSamps f ss) &&
      (fragSamps f ss).all (fun s => decide (1 ≤ s.size) && (idxHandler i == 2 || decide (1 ≤ s.duration)))) (idxFrags i)

/-- Check 6: the failing fragment; a sum that differs from SUBSAMPLE_TOTAL is reported with the last one. -/
def sealCheck6 (i : Bytes) : Option Nat :=
  let ss := idxSamps i
  let fs := idxFrags i
  firstBad (fun k (f : Frag) =>
    f.subFirst == (if k = 0 then 0 else match fs[k - 1]? with
      | some p => p.subFirst + sumBy (·.subCount) (fragSamps p ss) | none => 0) &&
      (k + 1 != fs.length || sumBy (·.subCount) ss == idxSubTotal i)) fs

/-- Check 7: the failing sample. -/
def sealCheck7 (i : Bytes) : Option Nat :=
  let ss := idxSamps i
  firstBad (fun _ (e : Samp × List SubRange) =>
    e.1.subCount == 0 || sumBy (fun r => r.clear + r.prot) e.2 == e.1.size) (ss.zip (subMaps ss (idxSubs i)))

/-- The NAL units of a sample as (offset of the length field, NAL unit bytes); none when the length fields do not tile it. -/
def nalUnits (nalLen : Nat) : Nat → Nat → Bytes → Option (List (Nat × Nat))
  | _, _, [] => some []
  | 0, _, _ => none
  | fuel + 1, off, bs =>
    let n := beAt bs 0 nalLen
    if bs.length < nalLen + n then none
    else (nalUnits nalLen fuel (off + nalLen + n) (bs.drop (nalLen + n))).map (fun l => (off, n) :: l)

/-- The NAL units of a whole sample. -/
def nalsOf (nalLen : Nat) (bs : Bytes) : Option (List (Nat × Nat)) := nalUnits nalLen bs.length 0 bs

/-- Bytes of a NAL header of a codec (R48). -/
def nalHeader (codec : Bytes) : Nat := if codec = fourCC "avc1" ∨ codec = fourCC "avc3" then 1 else 2

/-- The protected ranges of a map as (offset, bytes), from an offset. -/
def protRanges (off : Nat) : List SubRange → List (Nat × Nat)
  | [] => []
  | r :: rs => (off + r.clear, r.prot) :: protRanges (off + r.clear + r.prot) rs

/-- Check 8 on one sample. -/
def sealSample8 (i : Bytes) (m : List SubRange) (data : Bytes) : Bool :=
  match nalsOf (idxNalLen i) data with
  | none => false
  | some ns => (protRanges 0 m).all (fun p => p.2 == 0 || ns.any (fun n =>
      decide (n.1 + idxNalLen i + nalHeader (idxCodec i) ≤ p.1 ∧ p.1 + p.2 ≤ n.1 + idxNalLen i + n.2)))

/-- The bytes of each sample, cut from the essence. -/
def sampleBytes : List Samp → Bytes → List Bytes
  | [], _ => []
  | s :: ss, d => d.take s.size :: sampleBytes ss (d.drop s.size)

/-- Check 8: the failing sample. -/
def sealCheck8 (i : Bytes) (essence : Bytes) : Option Nat :=
  if idxNalLen i = 0 then none
  else
    let ss := idxSamps i
    firstBad (fun _ (e : Bytes × List SubRange) => sealSample8 i e.2 e.1)
      ((sampleBytes ss essence).zip (subMaps ss (idxSubs i)))

/-- NAL units of each sample (R48). -/
def nalCountsOf (i : Bytes) (essence : Bytes) : List Nat :=
  if idxNalLen i = 0 then []
  else (sampleBytes (idxSamps i) essence).map (fun b => match nalsOf (idxNalLen i) b with | some l => l.length | none => 0)

/-- Check 9: the failing fragment. -/
def sealCheck9 (i : Bytes) : Option Nat :=
  if !idxFragSync i then none
  else firstBad (fun _ (f : Frag) => match (fragSamps f (idxSamps i)).head? with
    | some s => !s.nonSync | none => false) (idxFrags i)

/-- The first failing check of R48 with WHERE; none when every check passes. -/
def sealCheck (i : Bytes) (essence : Bytes) : Option (Nat × Nat) :=
  if !sealCheck1 i then some (1, 0)
  else if !sealCheck2 i then some (2, 0)
  else if !sealCheck3 i essence.length then some (3, 0)
  else [(4, sealCheck4 i), (5, sealCheck5 i), (6, sealCheck6 i), (7, sealCheck7 i), (8, sealCheck8 i essence),
    (9, sealCheck9 i)].findSome? (fun c => c.2.map (fun w => (c.1, w)))

end Sys2Proof.Machine
end

