-- ==== Sys2Proof/Machine/Objects.lean ====
section
/-! DEFINITION. The title store: objects and their commands, chunks, the Chive table and aliases (R34 to R75). -/

namespace Sys2Proof.Machine

/-! ### Objects -/

/-- The offset of an append: dwords 12 and 13 (R49). -/
def sqeOffset (e : Sqe) : Nat := e.cdw12.toNat + e.cdw13.toNat * 2 ^ 32

/-- The object a reading command sees: one deleted after the command was accepted is still there for it (R40, R56). -/
def State.objFor (s : State) (id : CmdId) (nsid oid : Nat) : Option Obj :=
  match s.objs.deleted.find? (fun d => d.1.nsid == nsid && d.1.oid == oid && d.2.contains id) with
  | some d => some d.1
  | none => s.obj nsid oid

/-- A command that changes an object: ESSENCE APPEND, SAMPLE INDEX LOAD, OBJECT SEAL, OBJECT DELETE (R40). -/
def changesObject (e : Sqe) : Bool := !e.admin && [0x81, 0x85, 0x88, 0x8C].contains e.opcode.toNat

/-- A command that reads an object: VIEW READ, VIEW SIZE, OBJECT QUERY (R40, R56). -/
def readsObject (e : Sqe) : Bool := !e.admin && [0x82, 0x86, 0x8A].contains e.opcode.toNat

/-- A command accepted before `id` on the same object, without a result, that satisfies `p`. -/
def State.earlierOn (s : State) (id : CmdId) (nsid oid : Nat) (p : Sqe → Bool) : Bool :=
  s.inflight.any (fun e => decide (e.1 < id) && p e.2.sqe && sqeNsid e.2.sqe == nsid && sqeOid e.2.sqe == oid && e.2.result.isNone)

/-- The command's turn on its object (R40). A change of an open object also lets the earlier readings of it go first (log
38). -/
def State.objectTurn (s : State) (id : CmdId) (c : Cmd) : Bool :=
  let nsid := sqeNsid c.sqe
  let oid := sqeOid c.sqe
  !s.earlierOn id nsid oid changesObject &&
    (!changesObject c.sqe || c.sqe.opcode == 0x8C || (match s.obj nsid oid with | some o => o.isSealed | none => true) ||
      !s.earlierOn id nsid oid readsObject)

/-- The object ID is reserved (R36). -/
def oidReserved (oid : Nat) : Bool := oid == 0 || oid == 2 ^ 64 - 1

/-- The namespace and object ID of an object command are ones it may name (R35, R36, R169). -/
def State.objectTarget (s : State) (c : Cmd) : Except Status Ns :=
  match s.ns (sqeNsid c.sqe) with
  | none => .error .invalidNamespaceOrFormat
  | some n =>
    if n.attached ≠ some c.func then .error .invalidNamespaceOrFormat
    else if !n.object then .error .invalidOpcode
    else if oidReserved (sqeOid c.sqe) then .error .invalidField
    else .ok n

/-- The fields of ESSENCE APPEND (R38, R49). -/
def appendFieldsOk (e : Sqe) : Bool :=
  let len := field e.cdw14.toNat 21 0
  let off := sqeOffset e
  field e.cdw14.toNat 31 22 == 0 && field e.cdw15.toNat 31 3 == 0 && decide (1 ≤ len ∧ len ≤ 2097152 ∧ off + len ≤ 2 ^ 40) &&
    (if bit e.cdw15.toNat 0 then off == 0 else field e.cdw15.toNat 2 1 == 0)

/-- The fields of SAMPLE INDEX LOAD (R53). -/
def indexFieldsOk (e : Sqe) : Bool :=
  let len := field e.cdw14.toNat 21 0
  field e.cdw12.toNat 31 26 == 0 && e.cdw13 == 0 && field e.cdw14.toNat 31 22 == 0 && e.cdw15 == 0 &&
    decide (1 ≤ len ∧ len ≤ 2097152)

/-! ### Chunks and the Chive table -/

/-- The fields of OBJECT SEAL (R54). -/
def sealFieldsOk (e : Sqe) : Bool := field e.cdw12.toNat 31 1 == 0 && e.cdw13 == 0 && e.cdw14 == 0 && e.cdw15 == 0

/-- Some other object, or one deleted whose references are not released, shares the extent map (R64). -/
def State.mapShared (s : State) (o : Obj) : Bool :=
  s.objs.objects.any (fun x => x.mapNo == o.mapNo && !(x.nsid == o.nsid && x.oid == o.oid)) ||
    s.objs.deleted.any (fun d => d.1.mapNo == o.mapNo && !(d.1.nsid == o.nsid && d.1.oid == o.oid))

/-- The chunk references of an object that is gone are released, unless its map is still shared (R56, R63, R64). -/
def State.releaseRefs (s : State) (o : Obj) : State :=
  if s.mapShared o then s else o.chunks.foldl (fun s r => s.dropRef r.chunk) s

/-- CHIVE_FULL, at most once per operating hour for the reservation, and for each function's quota (R68). -/
def State.chiveFull (s : State) (f : Nat) (quota : Bool) : State :=
  let hour := s.recd.hours
  if quota then
    if Mem.get 0 (s.fn f).lastRecord evChiveFull.code = hour + 1 then s
    else (s.updFn f (fun x => { x with lastRecord := Mem.set 0 x.lastRecord evChiveFull.code (hour + 1) })).raise evChiveFull f
      [(1, f), (1, 2), (4, s.objs.chive.countP (fun c => c.func == f))]
  else if s.objs.fullRecorded = some hour then s
  else { s with objs := { s.objs with fullRecorded := some hour } }.raise evChiveFull f [(1, f), (1, 1), (4, s.objs.chive.length)]

/-- Entries the Chive table's reservation holds (R61, R68). -/
def State.chiveLimit (s : State) : Nat := s.nvs.chiveGib * 2 ^ 30 / 64

/-- A new chunk's entry, in the lowest free place, when the table and the function's quota have room (R61, R62, R68). -/
def State.enterChunk (s : State) (f c : Nat) (d : Bytes) : State :=
  let quota := match s.tenant f with | some t => t.chiveQuota | none => 0
  if s.chiveLimit ≤ s.objs.chive.length then s.chiveFull f false
  else if quota ≤ s.objs.chive.countP (fun e => e.func == f) then s.chiveFull f true
  else
    let e : Chive :=
      { func := f, digest := d, chunk := c
        slot := ((List.range (s.objs.chive.length + 1)).find? (fun i => s.objs.chive.all (fun x => x.slot != i))).getD 0 }
    { s with objs := { s.objs with chive := s.objs.chive ++ [e] } }.cacheChive e

/-- Chunk `n` of an object becomes an alias of a stored chunk: one more reference, and its own copy released (R62). -/
def State.aliasChunk (s : State) (o : Obj) (n target : Nat) : State :=
  match o.chunks[n]? with
  | none => s
  | some r => (((s.addRef target).freeChunk r.chunk).updObj o.nsid o.oid (fun o => { o with
      chunks := o.chunks.set n { chunk := target, isAlias := true, hashed := true, digest := r.digest } })).mapObject o.nsid o.oid

/-! ### The commands -/

/-- An append that fails: its charge is refunded (R51, R52). -/
def State.failAppend (s : State) (id : CmdId) (c : Cmd) (st : Status) : State :=
  ((s.updFn c.func (fun x => { x with capacityUsed := x.capacityUsed - c.charge })).updCmd id
    (fun c => { c with charge := 0 })).finish id st

/-- Why an append is refused, from its fields and the object as earlier commands left it (R38, R39, R50). -/
def State.appendRefused (s : State) (c : Cmd) : Option Status :=
  let e := c.sqe
  let off := sqeOffset e
  if !appendFieldsOk e then some .invalidField
  else if sglShort e (field e.cdw14.toNat 21 0) then some .dataSglLengthInvalid
  else match s.obj (sqeNsid e) (sqeOid e), bit e.cdw15.toNat 0 with
    | some _, true => some .objectExists
    | none, false => some .objectUnknown
    | some o, false =>
      if o.isSealed then some .objectSealed
      else if off ≠ o.length ∨ o.tailClosed then some .appendPosition else none
    | none, true =>
      if 16777216 ≤ s.objs.objects.length ∨
          (match s.tenant c.func with | some t => t.objectQuota | none => 0) ≤ (s.fn c.func).objectsUsed then some .tenantQuota
      else none

/-- A creating append makes its object (R39, R49, R55). -/
def State.createObject (s : State) (c : Cmd) (n : Ns) : State :=
  if !bit c.sqe.cdw15.toNat 0 then s
  else
    let o : Obj :=
      { nsid := sqeNsid c.sqe, oid := sqeOid c.sqe, func := c.func, plain := bit c.sqe.cdw15.toNat 1
        verify := bit c.sqe.cdw15.toNat 2 || n.verifyDefault, createAsn := c.asn, mapNo := s.objs.nextMap, tableIndex := s.freeIndex }
    { s with objs := { s.objs with objects := s.objs.objects ++ [o], nextMap := s.objs.nextMap + 1 } }.updFn c.func
      (fun x => { x with objectsUsed := x.objectsUsed + 1 })

/-- Extents that hold some bytes of an object from an offset on, by the key of their first unit. -/
def State.extKeys (s : State) (nsid oid off len : Nat) : List Nat :=
  match s.obj nsid oid with
  | none => []
  | some o => (granulesOf (off, len)).filterMap (fun g => (o.chunks[g / 4]?).map (fun r => chunkKey r.chunk (64 * (g % 4))))

/-- The last chunk of an object is one that a seal has fingerprinted already. -/
def Obj.lastHashed (o : Obj) : Bool := match o.chunks[o.length / 1048576]? with | some r => r.hashed | none => false

/-- From which byte on an append reads the object back (log 86): all of a last chunk that a seal has fingerprinted, which is stored again
as the object's own, or a last extent that is no longer in the buffer; nothing otherwise. -/
def State.appendFrom (s : State) (o : Obj) : Nat :=
  match o.chunks[o.length / 1048576]? with
  | none => o.length
  | some r =>
    if r.hashed then o.length / 1048576 * 1048576
    else if (s.entry (chunkKey r.chunk (64 * (o.length % 1048576 / 262144)))).state = .buffer then o.length
    else o.length / 262144 * 262144

/-- The runs of slots that an append may need (R246, R255). -/
def appendRuns (length len : Nat) : Nat := ceilDiv (length % 1048576 + len) 262144

/-- A last chunk that a seal has fingerprinted is given up, so that what it held is stored again (log 86). -/
def State.reopenChunk (s : State) (o : Obj) : State :=
  let n := o.length / 1048576
  let s1 := match o.chunks[n]? with | some r => s.dropRef r.chunk | none => s
  (s1.updObj o.nsid o.oid (fun o => { o with length := n * 1048576, chunks := o.chunks.take n })).updFn o.func (fun f => { f with
    capacityUsed := f.capacityUsed + o.length % 1048576 })

/-- An append's data go into the protected buffer, and the object's length grows (R39, R41 to R44, R141): `old` is what was read back.
In VOLATILE with the write cache off it completes when its extents are on flash (R144), and is undone if it never does. -/
def State.appendStore (s : State) (id : CmdId) (c : Cmd) (n : Ns) (data old : Bytes) : State :=
  let nsid := sqeNsid c.sqe
  let oid := sqeOid c.sqe
  let off := sqeOffset c.sqe
  let wait := s.volatileNow && !(s.fn c.func).wce
  let s1 := match s.obj nsid oid with
    | none => (s.createObject c n).storeData nsid oid data c.gen.toNat []
    | some o =>
      if o.lastHashed then (s.reopenChunk o).storeData nsid oid (old ++ data) c.gen.toNat []
      else s.storeData nsid oid data c.gen.toNat (chunksOf 4096 old)
  let s2 := (s1.unstage (.cmd id)).updCmd id (fun c => { c with
    charge := 0, moved := true, needFlash := wait, undo := if wait then some off else none })
  let s3 := (s2.noteCommitted id (s2.extKeys nsid oid off data.length)).programBuffer wait
  if wait then s3 else (s3.finish id .success).writeDone id

/-- An append whose object's last extent has been read back, or fails to be (log 86). -/
def State.appendRead (s : State) (id : CmdId) (c : Cmd) (n : Ns) (data : Bytes) : State :=
  match s.obj (sqeNsid c.sqe) (sqeOid c.sqe) with
  | none => s.appendStore id c n data []
  | some o =>
    let from_ := s.appendFrom o
    let s1 := s.fetchObject (.cmd id) o c.gen.toNat (o.unitsAt from_ o.length)
    match s1.objBytes (.cmd id) o from_ o.length with
    | none => if (s1.cmd id).any (fun c => c.result.isSome) then s1.failAppend id c .internalContained else s1
    | some none => s1.failAppend id c .unrecoveredReadError
    | some (some old) => s1.appendStore id c n data old

/-- Bytes of the object that an append adds to. -/
def State.appendAt (s : State) (c : Cmd) : Nat := match s.obj (sqeNsid c.sqe) (sqeOid c.sqe) with | some o => o.length | none => 0

/-- ESSENCE_APPEND (R26, R29, R38 to R43, R49 to R52): its checks, then its data move into the protected buffer; it waits while the buffer
has no room. `bad` is a unit that fails its check on entry. -/
def execEssenceAppend (id : CmdId) (data : Bytes) (s : State) (bad : Option TagFault := none) : Host.Outcome State Fault Refusal :=
  .next (match s.live id false 0x81 with
    | none => s
    | some c =>
      if c.moved ∨ !s.objectTurn id c then s
      else match s.objectTarget c with
        | .error st => s.failAppend id c st
        | .ok n =>
          match s.appendRefused c with
          | some st => s.failAppend id c st
          | none =>
            let len := field c.sqe.cdw14.toNat 21 0
            if !s.hasRuns (appendRuns (s.appendAt c) len) then s.programBuffer true
            else match faultOf bad with
              | some b => (s.badTransfer id c b).failAppend id c .internalContained
              | none => s.appendRead id c n (padTo len data))

/-- SAMPLE_INDEX_LOAD (R39, R53). -/
def execSampleIndexLoad (id : CmdId) (data : Bytes) (s : State) : Host.Outcome State Fault Refusal :=
  .next (match s.live id false 0x85 with
    | none => s
    | some c =>
      if !s.objectTurn id c then s
      else
        let e := c.sqe
        let len := field e.cdw14.toNat 21 0
        let off := field e.cdw12.toNat 25 0
        match s.objectTarget c with
        | .error st => s.finish id st
        | .ok _ =>
          if !indexFieldsOk e then s.finish id .invalidField
          else if sglShort e len then s.finish id .dataSglLengthInvalid
          else match s.obj (sqeNsid e) (sqeOid e) with
            | none => s.finish id .objectUnknown
            | some o =>
              if o.isSealed then s.finish id .objectSealed
              else if o.plain ∨ 67108864 < off + len then s.finish id .indexInvalid
              else if off ≠ 0 ∧ off ≠ o.index.length then s.finish id .appendPosition
              else ((s.updObj o.nsid o.oid (fun o => { o with
                index := (if off = 0 then [] else o.index) ++ padTo len data })).finish id .success).writeDone id)

/-- The whole-object digest (R59). -/
def Obj.wholeDigest (o : Obj) : Bytes := sha256 (leBytes 8 o.length ++ (o.chunks.map (·.digest)).flatten)

/-- DW0 of a seal's success (R54). -/
def Obj.sealFlags (o : Obj) : BitVec 32 := BitVec.ofNat 32 (flag o.aliasOf.isSome + 2 * flag o.ivGenerated)

/-- IV_BASE at seal: the header's, or for 0 a drawn value that is never 0 (R46). A plain object has none. -/
def State.sealIv (s : State) (o : Obj) : BitVec 64 × Bool × State :=
  if o.plain then (0, false, s)
  else if idxIvBase o.index ≠ 0 then (BitVec.ofNat 64 (idxIvBase o.index), false, s)
  else
    let d := s.draw 64
    (BitVec.ofNat 64 (d.1.toNat % (2 ^ 64 - 1) + 1), true, d.2)

/-- The object whose map a new seal takes over (R64): sealed, of the same class and tenant, with the same digest; of several, the one
created first (log 99). -/
def State.aliasFor (s : State) (o : Obj) (digest : Bytes) : Option Obj :=
  s.objs.objects.find? (fun x => x.isSealed && x.plain == o.plain && x.func == o.func && x.digest == digest &&
    !(x.nsid == o.nsid && x.oid == o.oid))

/-- The end of a seal (R46, R54, R59, R64): a whole alias takes the other object's extent map for its own. -/
def State.sealObject (s : State) (id : CmdId) (o : Obj) (noAlias : Bool) : State :=
  let digest := o.wholeDigest
  let iv := s.sealIv o
  let other := if noAlias then none else s.aliasFor o digest
  let s1 := match other with
    | some _ => (iv.2.2.releaseRefs o).journalMap o.tableIndex o.extents []
    | none => iv.2.2
  let s2 := s1.updObj o.nsid o.oid (fun o => { o with
    isSealed := true, digest := digest, ivBase := iv.1, ivGenerated := iv.2.1
    index := if iv.2.1 then splice o.index 40 (leBytes 8 iv.1.toNat) else o.index
    aliasOf := other.map (·.oid)
    mapNo := match other with | some x => x.mapNo | none => o.mapNo
    tableIndex := match other with | some x => x.tableIndex | none => o.tableIndex
    extents := match other with | some x => x.extents | none => o.extents
    chunks := match other with | some x => x.chunks.map (fun r => { r with isAlias := true }) | none => o.chunks })
  match s2.obj o.nsid o.oid with
  | some o' => (s2.finish id .success o'.sealFlags).writeDone id
  | none => s2

/-- A chunk of the object cannot be read for its fingerprint. -/
def State.chunkLost (s : State) (o : Obj) : Bool :=
  o.chunks.any (fun r => !r.hashed && s.chunkBytes (.chunk r.chunk) r.chunk == some none)

/-- A seal whose checks have passed (R48, R54): it ends when every chunk has its place in the Chive table, or, where a chunk cannot be
read, with Unrecovered Read Error (log 86). -/
def State.sealChunks (s : State) (id : CmdId) (o : Obj) (noAlias : Bool) : State :=
  if s.chunkLost o then ((o.chunks.foldl (fun s r => s.unstage (.chunk r.chunk)) s).finish id .unrecoveredReadError).writeDone id
  else if o.chunks.all (fun r => r.hashed && r.verifyWith.isNone) then s.sealObject id o noAlias
  else s

/-- The checks of a seal (R48) on an object whose bytes have been read; the counts of NAL units are kept with the index. -/
def State.sealChecks (s : State) (id : CmdId) (o : Obj) (gen : Nat) (noAlias : Bool) : State :=
  let s1 := s.fetchObject (.cmd id) o gen (o.unitsAt 0 o.length)
  match s1.objBytes (.cmd id) o 0 o.length with
  | none => s1
  | some none => (s1.finish id .unrecoveredReadError).writeDone id
  | some (some bytes) =>
    let s2 := s1.unstage (.cmd id)
    match sealCheck o.index bytes with
    | some w => (s2.finish id .indexInvalid (BitVec.ofNat 32 (256 * w.1)) (BitVec.ofNat 32 w.2)).writeDone id
    | none => ((s2.updObj o.nsid o.oid (fun o => { o with nalCounts := nalCountsOf o.index bytes })).updCmd id (fun c => { c with
        moved := true })).sealChunks id o noAlias

/-- OBJECT_SEAL (R39, R48, R54): its checks, then the last chunk's fingerprint, and the seal when every chunk has its place in
the Chive table. -/
def execObjectSeal (id : CmdId) (s : State) : Host.Outcome State Fault Refusal :=
  .next (match s.live id false 0x88 with
    | none => s
    | some c =>
      if !s.objectTurn id c then s
      else match s.objectTarget c with
        | .error st => s.finish id st
        | .ok _ =>
          let e := c.sqe
          if !sealFieldsOk e then s.finish id .invalidField
          else match s.obj (sqeNsid e) (sqeOid e) with
            | none => s.finish id .objectUnknown
            | some o =>
              if o.isSealed then s.finish id .success o.sealFlags
              else if o.plain ∨ c.moved then (s.updCmd id (fun c => { c with moved := true })).sealChunks id o (bit e.cdw12.toNat 0)
              else s.sealChecks id o c.gen.toNat (bit e.cdw12.toNat 0))

/-- The object descriptor (R55). -/
def Obj.descriptor (o : Obj) : Bytes :=
  leBytes 4 ((if o.isSealed then 2 else 1) + 2 ^ 8 * flag o.plain + 2 ^ 9 * flag o.aliasOf.isSome + 2 ^ 10 * flag o.ivGenerated +
    2 ^ 11 * flag o.tailClosed + 2 ^ 12 * flag o.verify) ++
  leBytes 8 o.length ++ leBytes 4 o.index.length ++ leBytes 4 (o.chunks.countP (fun r => !r.isAlias)) ++
  leBytes 4 (o.chunks.countP (·.isAlias)) ++ leBytes 8 (o.aliasOf.getD 0) ++ leBytes 8 o.ivBase.toNat ++ leBytes 6 o.createAsn.toNat ++
  leBytes 2 0 ++ padTo 32 o.digest ++ leBytes 48 0

/-- OBJECT_QUERY (R40, R55). -/
def execObjectQuery (id : CmdId) (s : State) : Host.Outcome State Fault Refusal :=
  .next (match s.live id false 0x8A with
    | none => s
    | some c =>
      if !s.objectTurn id c then s
      else match s.objectTarget c with
        | .error st => s.finish id st
        | .ok _ =>
          let e := c.sqe
          let n := Nat.min e.cdw12.toNat 128
          if n = 0 ∨ e.cdw13 ≠ 0 ∨ e.cdw14 ≠ 0 ∨ e.cdw15 ≠ 0 then s.finish id .invalidField
          else if sglShort e n then s.finish id .dataSglLengthInvalid
          else match s.objFor id (sqeNsid e) (sqeOid e) with
            | none => s.finish id .objectUnknown
            | some o => s.answer id (o.descriptor.take n))

/-- An object leaves the store; the readings accepted before `id` keep it until they have ended (R56). -/
def State.removeObject (s : State) (o : Obj) (id : CmdId) : State :=
  let readers := ((s.inflight.filter (fun e => sqeNsid e.2.sqe == o.nsid && e.2.result.isNone &&
    ((decide (e.1 < id) && readsObject e.2.sqe && sqeOid e.2.sqe == o.oid) ||
      (isView e.2.sqe && e.2.hook.chosen.contains o.oid))))).map (·.1)
  { s with objs := { s.objs with
      objects := s.objs.objects.filter (fun x => !(x.nsid == o.nsid && x.oid == o.oid))
      deleted := s.objs.deleted ++ [(o, readers)] } }.updFn o.func (fun x => { x with objectsUsed := x.objectsUsed - 1 })

/-- OBJECT_DELETE (R39, R56). -/
def execObjectDelete (id : CmdId) (s : State) : Host.Outcome State Fault Refusal :=
  .next (match s.live id false 0x8C with
    | none => s
    | some c =>
      if !s.objectTurn id c then s
      else match s.objectTarget c with
        | .error st => s.finish id st
        | .ok _ =>
          let e := c.sqe
          if e.cdw12 ≠ 0 ∨ e.cdw13 ≠ 0 ∨ e.cdw14 ≠ 0 ∨ e.cdw15 ≠ 0 then s.finish id .invalidField
          else match s.obj (sqeNsid e) (sqeOid e) with
            | none => s.finish id .objectUnknown
            | some o => ((s.removeObject o id).finish id .success).writeDone id)

/-- A deleted object of this name that no reading command in flight may still see (R56). -/
def State.releaseDue (s : State) (nsid oid : Nat) (d : Obj × List CmdId) : Bool :=
  d.1.nsid == nsid && d.1.oid == oid && d.2.all (fun i => match s.cmd i with | some c => c.result.isSome | none => true)

/-- The map of an object that is gone is released with its chunk references, unless another object, or one deleted, shares it (R56, R63,
R64). -/
def State.releaseMap (s : State) (o : Obj) : State :=
  if s.objs.deleted.any (fun x => x.1.mapNo == o.mapNo) ∨ s.objs.objects.any (fun x => x.mapNo == o.mapNo) then s
  else (o.chunks.foldl (fun s r => s.dropRef r.chunk) s).journalMap o.tableIndex o.extents []

/-- CHUNK_REFS_RELEASE (R56, R63, R64): a deleted object's references go once the readings accepted before its delete have
ended. -/
def execChunkRefsRelease (nsid oid : Nat) (s : State) : Host.Outcome State Fault Refusal :=
  .next (match s.objs.deleted.find? (s.releaseDue nsid oid) with
    | none => s
    | some d =>
      let s1 := { s with objs := { s.objs with deleted := s.objs.deleted.erase d } }
      s1.releaseMap d.1)

/-- A seal of the object has passed its checks and waits for its chunks (R48, R58). -/
def State.sealing (s : State) (nsid oid : Nat) : Bool :=
  s.inflight.any (fun e => !e.2.sqe.admin && e.2.sqe.opcode == 0x88 && e.2.moved && e.2.result.isNone &&
    sqeNsid e.2.sqe == nsid && sqeOid e.2.sqe == oid)

/-- An append of the object has stored its data and not completed. -/
def State.appending (s : State) (nsid oid : Nat) : Bool :=
  s.inflight.any (fun e => e.2.undo.isSome && e.2.result.isNone && sqeNsid e.2.sqe == nsid && sqeOid e.2.sqe == oid)

/-- Chunk `n` of an object, not yet fingerprinted, that is complete (R58): 1,048,576 bytes, or at seal the last. -/
def State.toHash (s : State) (o : Obj) (n : Nat) : Option ChunkRef :=
  match o.chunks[n]? with
  | none => none
  | some r =>
    if r.hashed ∨ s.appending o.nsid o.oid ∨ ((s.chunk r.chunk).all (fun x => x.len != 1048576) ∧ !s.sealing o.nsid o.oid) then none
    else some r

/-- The decision on a chunk from its digest (R62, R65, R67): a chunk without a match, and one that a DRAIN has made durable, is entered;
a match is an alias, in verify mode after a comparison. -/
def State.decideChunk (s : State) (o : Obj) (n : Nat) (r : ChunkRef) : State :=
  match (if r.kept then none else s.chiveLookup o.func r.digest r.chunk) with
  | none => s.enterChunk o.func r.chunk r.digest
  | some e =>
    let s1 := s.cacheChive e
    if o.verify then s1.updObj o.nsid o.oid (fun o => { o with chunks := o.chunks.set n { r with verifyWith := some e.chunk } })
    else s1.aliasChunk o n e.chunk

/-- CHUNK_FINGERPRINT (R58, R60 to R62, R65, R67, R68, R74): the digest of a complete chunk, once its units are read, is looked up
among the chunks of the same function. -/
def execChunkFingerprint (nsid oid n : Nat) (s : State) : Host.Outcome State Fault Refusal :=
  .next (match s.obj nsid oid with
    | none => s
    | some o =>
      match s.toHash o n with
      | none => s
      | some r =>
        if !s.psm.mode.engines then s
        else
          let s1 := s.fetchChunk (.chunk r.chunk) r.chunk
          match s1.chunkBytes (.chunk r.chunk) r.chunk with
          | some (some d) =>
            let r' := { r with hashed := true, digest := sha256 d, verifyWith := none }
            (((s1.unstage (.chunk r.chunk)).updObj nsid oid (fun o => { o with chunks := o.chunks.set n r' })).decideChunk
              o n r').programBuffer false
          | _ => s1)

/-- The verdict of a comparison with stored chunk `t` (R65): a chunk that cannot be read, on either side, and one that differs, is stored
without an entry (log 100). -/
def State.verdict (s : State) (o : Obj) (n : Nat) (r : ChunkRef) (t : Nat) (x y : Option Bytes) : State :=
  match x, y with
  | some a, some b =>
    if a = b then s.aliasChunk o n t
    else s.raise evChiveCollision o.func [(1, o.func), (16, leNat (r.digest.take 16)), (5, r.chunk), (5, t)]
  | _, _ => s.raise evVerifyReadFail o.func [(1, o.func), (5, t), (2, 0x281)]

/-- VERIFY_COMPARE (R65): the chunk against the stored one whose digest it shares, both read in full; the read of the stored one
also fails where its data does not pass the checks on its way to the comparison (`readOk` false; R26). An entry removed meanwhile leaves
the lookup to be made again (R73, R74). -/
def execVerifyCompare (nsid oid n : Nat) (readOk : Bool) (s : State) : Host.Outcome State Fault Refusal :=
  .next (match s.obj nsid oid with
    | none => s
    | some o =>
      match o.chunks[n]? with
      | none => s
      | some r =>
        match r.verifyWith with
        | none => s
        | some t =>
          let r' := { r with verifyWith := none }
          let put := fun (s : State) => (s.unstage (.chunk r.chunk)).updObj nsid oid (fun o => { o with chunks := o.chunks.set n r' })
          if (s.chunk t).isNone then ((put s).decideChunk o n r').programBuffer false
          else
            let s1 := (s.fetchChunk (.chunk r.chunk) r.chunk).fetchChunk (.chunk r.chunk) t
            match s1.chunkBytes (.chunk r.chunk) r.chunk, s1.chunkBytes (.chunk r.chunk) t with
            | some x, some y => ((put s1).verdict o n r' t x (if readOk then y else none)).programBuffer false
            | _, _ => s1)

end Sys2Proof.Machine
end

