-- ==== Sys2Proof/Machine/Namespaces.lean ====
section
/-! DEFINITION. Namespace management and attachment, Format NVM and Sanitize (R34, R128, R129, R153, R167, R171, R272, R631). -/

namespace Sys2Proof.Machine

/-- LBA format and protection type of a namespace are ones R128 and R129 allow. -/
def formatOk (object : Bool) (lbaf pi : Nat) : Bool :=
  decide (lbaf ≤ 4) && (pi == 0 || ((pi == 1 || pi == 3) && metaBytes lbaf != 0)) && (!object || (lbaf == 0 && pi == 0))

/-- Bytes a block namespace is charged: its size, or 65 ÷ 64 of it with metadata (R167). An object namespace is charged by its
appends only. -/
def nsCharge (n : Ns) : Nat :=
  let size := n.blocks * lbaBytes n.lbaf
  if n.object then 0 else if metaBytes n.lbaf = 0 then size else size * 65 / 64

/-- The key owner's charge for a namespace is returned. -/
def State.refundNs (s : State) (n : Ns) : State :=
  match n.keyOwner with
  | some f => s.updFn f (fun x => { x with capacityUsed := x.capacityUsed - nsCharge n })
  | none => s

/-- The key owner is charged for a namespace. -/
def State.chargeNs (s : State) (n : Ns) : State :=
  match n.keyOwner with
  | some f => s.updFn f (fun x => { x with capacityUsed := x.capacityUsed + nsCharge n })
  | none => s

/-- The references of a deleted object are released (R56, R63). -/
def State.releaseDeleted (s : State) (d : Obj × List CmdId) : State :=
  ({ s with objs := { s.objs with deleted := s.objs.deleted.erase d } }).releaseMap d.1

/-- Every unit of a namespace becomes UNMAPPED, and every object of it is deleted; the chunk references go too, but for objects that a
command still reads (R56, R63, R153, R171). -/
def State.eraseNs (s : State) (nsid : Nat) : State :=
  let keys := (s.nss.units.filter (fun e => e.1 / 2 ^ 40 == nsid)).map (·.1)
  let s1 := keys.foldl State.unmap s
  let objs := s1.objs.objects.filter (fun o => o.nsid == nsid)
  let s2 := objs.foldl (fun s o => s.removeObject o s.hif.nextCmd) s1
  (s2.objs.deleted.filter (fun d => s2.releaseDue nsid d.1.oid d)).foldl State.releaseDeleted s2

/-- What a change of the maps leaves is made durable where the buffer is not (R144, R171, log 87). -/
def State.durable (s : State) : State := if s.volatileNow then s.programJournal s.nss.journal.length else s

/-- The namespace that an attachment or a detachment names: from a virtual function, another's is as one that does not exist (R169). -/
def State.nsNamed (s : State) (c : Cmd) : Option Ns :=
  (s.ns (sqeNsid c.sqe)).bind (fun n => if c.func ≤ 1 ∨ n.attached = some c.func then some n else none)

/-- What each command accepted earlier on a namespace still waits for: an attachment ends only after them (log 41). -/
def State.nsBusy (s : State) (id : CmdId) (nsid : Nat) : Bool :=
  s.inflight.any (fun e => decide (e.1 < id) && !e.2.sqe.admin && e.2.result.isNone &&
    (sqeNsid e.2.sqe == nsid || e.2.asns.any (fun a => a.1 == nsid)))

/-- NAMESPACE_CREATE (R34, R128, R129, R167): the lowest free NSID is given in DW0. -/
def execNamespaceCreate (id : CmdId) (d : NsData) (s : State) : Host.Outcome State Fault Refusal :=
  .next (match s.live id true 0x0D with
    | none => s
    | some c =>
      if field c.sqe.cdw10.toNat 3 0 ≠ 0 then s
      else
        let n : Ns :=
          { object := d.b3840 == 1, verifyDefault := d.b3841 == 1, blocks := d.nsze, lbaf := field d.flbas 3 0
            pi := field d.dps 2 0, extended := bit d.flbas 4 }
        let bytesOk := (d.b3840 == 0 && d.b3841 == 0) || (d.b3840 == 1 && (d.b3841 == 0 || d.b3841 == 1))
        if !bytesOk ∨ !formatOk n.object n.lbaf n.pi ∨ bit d.dps 3 ∨ d.nsze = 0 ∨ d.nsze < d.ncap ∨
            field c.sqe.cdw11.toNat 31 24 ≠ 0 then s.finish id .invalidField
        else if sglShort c.sqe 4096 then s.finish id .dataSglLengthInvalid
        else if s.usableGib s.flash.cfg * 2 ^ 30 < d.nsze * lbaBytes n.lbaf then s.finish id .namespaceInsufficientCapacity
        else match ((List.range 1024).map (· + 1)).find? (fun i => (s.ns i).isNone) with
          | none => s.finish id .namespaceInsufficientCapacity
          | some i => (s.setNs i (some n)).finish id .success (BitVec.ofNat 32 i))

/-- A namespace is deleted: its contents go, and its charge is refunded (R171, R272). -/
def State.deleteNs (s : State) (i : Nat) : State :=
  match s.ns i with
  | none => s
  | some n => ((s.eraseNs i).refundNs n).setNs i none

/-- NAMESPACE_DELETE (R169, R171, R272): a physical function deletes any namespace, a virtual function one attached to it. -/
def execNamespaceDelete (id : CmdId) (s : State) : Host.Outcome State Fault Refusal :=
  .next (match s.live id true 0x0D with
    | none => s
    | some c =>
      if field c.sqe.cdw10.toNat 3 0 = 0 then s
      else if field c.sqe.cdw10.toNat 3 0 ≠ 1 then s.finish id .invalidField
      else
        let own := fun (n : Ns) => decide (c.func ≤ 1) || n.attached == some c.func
        let is := if c.sqe.nsid = 0xFFFFFFFF then (s.nsList.filter (fun e => own e.2)).map (·.1)
          else match s.ns (sqeNsid c.sqe) with
            | some n => if own n then [sqeNsid c.sqe] else []
            | none => []
        if is.isEmpty ∧ c.sqe.nsid ≠ 0xFFFFFFFF then s.finish id .invalidNamespaceOrFormat
        else if is.any (s.nsBusy id) then s
        else (is.foldl State.deleteNs s).finish id .success)

/-- The function a controller identifier names (R127). -/
def State.controller (s : State) (cntlid : Nat) : Option Nat :=
  let base := if s.swl.position = 1 then 0x100 else 0
  if base ≤ cntlid ∧ cntlid < base + 128 ∧ (s.fn (cntlid - base)).present then some (cntlid - base) else none

/-- A namespace attached to a function: its key owner at a first attachment, and deallocated and re-keyed at a change of key
owner (R171). -/
def State.attachNs (s : State) (i : Nat) (n : Ns) (f : Nat) : State :=
  let n' := { n with attached := some f, keyOwner := some f }
  match n.keyOwner with
  | none => ((s.needMediaKey f).chargeNs n').setNs i (some n')
  | some old =>
    if old = f then s.setNs i (some n')
    else ((((s.refundNs n).eraseNs i).durable.needMediaKey f).chargeNs n').setNs i (some { n' with resv := {} }) |>.raise evNamespaceRekeyed f
      [(4, i), (1, old), (1, f), (1, if n.object then 2 else 1)]

/-- NAMESPACE_ATTACH (R167, R171): from a physical function, to one function. -/
def execNamespaceAttach (id : CmdId) (ctrls : List Nat) (s : State) : Host.Outcome State Fault Refusal :=
  .next (match s.live id true 0x15 with
    | none => s
    | some c =>
      if field c.sqe.cdw10.toNat 3 0 ≠ 0 then s
      else match s.nsNamed c with
        | none => s.finish id .invalidNamespaceOrFormat
        | some n =>
          if sglShort c.sqe 4096 then s.finish id .dataSglLengthInvalid
          else match ctrls.map s.controller with
          | [some f] =>
            if 1 < c.func ∨ n.attached.isSome then s.finish id .controllerListInvalid
            else if n.keyOwner ≠ some f ∧ s.capacityLimit f < (s.fn f).capacityUsed + nsCharge n ∧ !n.object then
              s.finish id .tenantQuota
            else (s.attachNs (sqeNsid c.sqe) n f).finish id .success
          | _ => s.finish id .controllerListInvalid)

/-- NAMESPACE_DETACH (R171): the key owner and its charge stay. -/
def execNamespaceDetach (id : CmdId) (ctrls : List Nat) (s : State) : Host.Outcome State Fault Refusal :=
  .next (match s.live id true 0x15 with
    | none => s
    | some c =>
      if field c.sqe.cdw10.toNat 3 0 = 0 then s
      else if field c.sqe.cdw10.toNat 3 0 ≠ 1 then s.finish id .invalidField
      else match s.nsNamed c with
        | none => s.finish id .invalidNamespaceOrFormat
        | some n =>
          if sglShort c.sqe 4096 then s.finish id .dataSglLengthInvalid
          else match ctrls.map s.controller with
          | [some f] =>
            if 1 < c.func ∨ n.attached ≠ some f then s.finish id .controllerListInvalid
            else if s.nsBusy id (sqeNsid c.sqe) then s
            else (s.setNs (sqeNsid c.sqe) (some { n with attached := none })).finish id .success
          | _ => s.finish id .controllerListInvalid)

/-- Commands of a function accepted before `id` that have no result, but for its Asynchronous Event Requests (R153). -/
def State.earlierOpen (s : State) (id : CmdId) (p : Cmd → Bool) : Bool :=
  s.inflight.any (fun e => decide (e.1 < id) && p e.2 && e.2.result.isNone && !(e.2.sqe.admin && e.2.sqe.opcode == 0x0C))

/-- A crypto erase of a tenant (R63, R153): its media key is destroyed and a new one drawn, with every Chive entry and pinned
chunk. -/
def State.cryptoErase (s : State) (f : Nat) : State :=
  let s1 := s.newMediaKey f
  let s2 := s1.dropChive (fun e => e.func == f)
  let pinned := s2.objs.chunks.filterMap (fun e => match e.2 with
    | some x => if x.func = f ∧ x.pinned then some e.1 else none
    | none => none)
  pinned.foldl State.freeChunk s2

/-- A namespace takes a new format: its size in bytes stays (log 40). -/
def State.reformat (s : State) (i : Nat) (cdw10 : Nat) : State :=
  match s.ns i with
  | none => s
  | some n =>
    let n' :=
      { n with
        lbaf := field cdw10 3 0, pi := field cdw10 7 5, extended := bit cdw10 4
        blocks := n.blocks * lbaBytes n.lbaf / lbaBytes (field cdw10 3 0) }
    (((s.eraseNs i).refundNs n).chargeNs n').setNs i (some n')

/-- FORMAT_NVM (R128, R129, R153, R272): commands accepted before it complete first. A secure erase (SES 1 or 2) erases every
namespace of the function, as FNA bit 1 says; the new format is that of the namespaces the command names (log 40). -/
def execFormatNvm (id : CmdId) (s : State) : Host.Outcome State Fault Refusal :=
  .next (match s.live id true 0x80 with
    | none => s
    | some c =>
      let w := c.sqe.cdw10.toNat
      let ses := field w 11 9
      let mine := (s.nsOf c.func).map (·.1)
      let named := if c.sqe.nsid = 0xFFFFFFFF then mine else mine.filter (· == sqeNsid c.sqe)
      if named.isEmpty ∧ c.sqe.nsid ≠ 0xFFFFFFFF then s.finish id .invalidNamespaceOrFormat
      else if 2 < ses ∨ bit w 8 ∨ field w 13 12 ≠ 0 ∨
          named.any (fun i => match s.ns i with | some n => !formatOk n.object (field w 3 0) (field w 7 5) | none => false) then
        s.finish id .invalidField
      else if s.earlierOpen id (fun x => x.func == c.func) then s
      else
        let s0 := if ses = 0 then s else mine.foldl State.eraseNs s
        let s1 := named.foldl (fun s i => s.reformat i w) s0
        (if ses = 2 then s1.cryptoErase c.func else s1).finish id .success)

/-- Every namespace of the device is erased; a crypto erase renews every media key (R153). -/
def State.sanitizeAll (s : State) (crypto : Bool) : State :=
  let s1 := (s.nsList.map (·.1)).foldl State.eraseNs s
  let s2 := if crypto then (s1.fns.filter (fun e => e.2.mediaKey.isSome)).foldl (fun s e => s.cryptoErase e.1) s1 else s1
  let s3 := s2.dropChive (fun _ => true)
  (s3.objs.chunks.map (·.1)).foldl State.freeChunk s3

/-- SANITIZE (R153, R165): block erase or crypto erase, from a physical function. The command completes when the sanitize has
started; the sanitize then waits for the commands accepted before it, and ends (log 42). -/
def execSanitize (id : CmdId) (s : State) : Host.Outcome State Fault Refusal :=
  .next (
    if s.hif.sanitizing.map (·.1) = some id ∧ s.psm.mode.engines then
      if s.earlierOpen id (fun _ => true) then s
      else
        let crypto := match s.hif.sanitizing with | some e => e.2 == 4 | none => false
        let s1 := s.sanitizeAll crypto
        { s1 with hif := { s1.hif with sanitizing := none } }
    else match s.live id true 0x84 with
      | none => s
      | some c =>
        let act := field c.sqe.cdw10.toNat 2 0
        if act = 1 then s.finish id .success
        else if act ≠ 2 ∧ act ≠ 4 then s.finish id .invalidField
        else if s.hif.sanitizing.isSome then s.finish id .sanitizeInProgress
        else
          ({ s with hif := { s.hif with sanitizing := some (id, act) } }.raise evSanitizeStarted c.func
            [(4, act), (1, c.func)]).finish id .success)

end Sys2Proof.Machine
end

