-- ==== Sys2Proof/Machine/Recorder.lean ====
section
/-! DEFINITION. The event recorder and the always-on counters (R549 to R559, R566). -/

namespace Sys2Proof.Machine

/-- EVENT_RECORD_WRITE (R549, R551 to R553): nothing is written after the fence, in HOLD or in OFF. -/
def execEventRecordWrite (s : State) : Host.Outcome State Fault Refusal :=
  .next (if s.psm.fence ∨ s.psm.mode = .hold ∨ s.psm.mode = .off then s else s.writeRecord)

/-- The counters run in every mode except HOLD and OFF (R554). -/
def Mode.counts : Mode → Bool
  | .hold | .off => false
  | _ => true

/-- One second of the operating-hour counter; it holds at 16,777,215 hours and 3,599 seconds (R554). -/
def Rec.tick (r : Rec) : Rec :=
  if r.seconds < 3599 then { r with seconds := r.seconds + 1 }
  else if r.hours < 16777215 then { r with hours := r.hours + 1, seconds := 0 }
  else r

/-- HOUR_COUNTER_TICK (R215, R219, R554): TRIAL_LEFT counts down with it, and a trial that reaches 0 reverts. -/
def execHourCounterTick (s : State) : Host.Outcome State Fault Refusal :=
  .next (if s.psm.mode.counts then
      ({ s with recd := s.recd.tick, nvs := { s.nvs with trialLeft := s.nvs.trialLeft - 1 } }).expireTrial
    else s)

/-- The counters written to their MRAM mirror (R554). -/
def Rec.mirrorNow (r : Rec) : Rec := { r with mirror := (r.hours, r.seconds, r.powerCycles) }

/-- COUNTER_MIRROR (R554, R529). -/
def execCounterMirror (s : State) : Host.Outcome State Fault Refusal :=
  .next (if s.psm.mode.counts ∧ s.mayWriteNvs then { s with recd := s.recd.mirrorNow } else s)

/-- The valid records of the ring in ascending SEQ. -/
def Rec.valid (r : Rec) : List Event :=
  let es := r.ring.filterMap (·.2)
  es.foldl (fun acc e => acc.takeWhile (fun x => decide (x.seq < e.seq)) ++ [e] ++ acc.dropWhile (fun x => decide (x.seq < e.seq))) []

/-- The function may read the record (R186, R557). -/
def Event.readableBy (e : Event) (f : Nat) : Bool := decide (f ≤ 1) || e.tenant == f || e.tenant == 255

/-- The response of MB_EVT_READ (R556): INVALID counts the sequence numbers from the start to the last record returned that no
valid record holds (log 32). -/
def State.evtRead (s : State) (f first count : Nat) : Bytes :=
  let all := s.recd.valid.filter (·.readableBy f)
  let out := (all.filter (fun e => decide (first ≤ e.seq))).take count
  let oldest := match all with | e :: _ => e.seq | [] => 0
  let newest := match all.getLast? with | some e => e.seq | none => 0
  let from_ := Nat.max first oldest
  let invalid := match out.getLast? with | some e => e.seq + 1 - from_ - out.length | none => 0
  leBytes 16 (oldest + newest * 2 ^ 48 + out.length * 2 ^ 96 + (if f ≤ 1 then Nat.min 63 invalid else 0) * 2 ^ 102) ++
    (out.map Event.bytes).flatten

/-- MB_EVT_READ (R556, R557). -/
def execMbEvtRead (f : Nat) (s : State) : Host.Outcome State Fault Refusal :=
  .next (s.mbRun f 0x0801 anyPayload (fun s p =>
    (s, some (if leAt p 6 2 ≠ 0 ∨ byteAt p 8 < 1 ∨ 63 < byteAt p 8 then mbErr 0x0004
      else mbOk (s.evtRead f (leAt p 0 8) (byteAt p 8))))))

/-- MB_EVT_CLEAR (R558, R566): EVT_CLEARED takes the next number, every other slot is invalidated, and the records still queued
take the numbers above it. -/
def State.evtClear (s : State) (f : Nat) : State :=
  let r := s.recd
  let q := r.queue ++ r.blocked
  let seq := match q with | e :: _ => e.seq | [] => r.next
  let valid := r.valid
  let lowest := match valid with | e :: _ => e.seq | [] => 0
  let e : Event :=
    { seq := seq, hours := r.hours, seconds := r.seconds, powerCycles := r.powerCycles, cls := evEvtCleared.cls
      component := evEvtCleared.comp, code := evEvtCleared.code, tenant := f
      data := evData [(1, f), (6, lowest), (4, valid.length)] }
  { s with recd := { r with
      next := r.next + 1
      ring := Mem.set none [] (seq % 16384) (some e)
      queue := r.queue.map (fun x => { x with seq := x.seq + 1 })
      blocked := r.blocked.map (fun x => { x with seq := x.seq + 1 }) } }

/-- MB_EVT_CLEAR (R558). -/
def execMbEvtClear (f : Nat) (s : State) : Host.Outcome State Fault Refusal :=
  .next (s.mbRun f 0x0802 anyPayload (fun s _ => (s.evtClear f, some (mbOk []))))

/-- Records TIME_MARK (R559): wall time in milliseconds, and the 32.768 kHz tick within the second. -/
def State.timeMark (s : State) (wall tick : Nat) : State :=
  s.raise evTimeMark 255 [(8, wall), (4, s.recd.hours), (2, s.recd.seconds), (2, tick % 32768)]

/-- MB_EVT_TIMEMARK (R559): returns the record's SEQ. -/
def execMbEvtTimemark (f tick : Nat) (s : State) : Host.Outcome State Fault Refusal :=
  .next (s.mbRun f 0x0803 anyPayload (fun s p => (s.timeMark (leAt p 0 8) tick, some (mbOk (leBytes 8 s.recd.next)))))

end Sys2Proof.Machine
end

