-- ==== Sys2Proof/Machine/Admin.lean ====
section
/-! DEFINITION. Admin commands: queues, Identify, log pages, features, asynchronous events, self-test, NVMe-MI, and the
reservation commands (R127 to R131, R144, R186, R209, R215, R270, R559, R560, R582, R583, R604, R621). -/

namespace Sys2Proof.Machine

/-! ### Queues (R131) -/

/-- I/O queues a function may have (R167). -/
def State.queueAllotment (s : State) (f : Nat) : Nat := match s.tenant f with | some t => t.ioQueues | none => 0

/-- CREATE_IO_CQ (R127, R131; NVM Express, log 45). -/
def execCreateIoCq (id : CmdId) (s : State) : Host.Outcome State Fault Refusal :=
  .next (match s.live id true 0x05 with
    | none => s
    | some c =>
      let w := c.sqe.cdw10.toNat
      let x := c.sqe.cdw11.toNat
      let q := field w 15 0
      if q = 0 ∨ s.queueAllotment c.func < q ∨ (s.cq c.func q).isSome then s.finish id .invalidQueueIdentifier
      else if field w 31 16 = 0 ∨ !bit x 0 ∨ s.msixCount c.func ≤ field x 31 16 then s.finish id .invalidField
      else (s.setCq c.func q (some { size := field w 31 16 + 1, ien := bit x 1, vector := field x 31 16, base := c.sqe.dptr })).finish
        id .success)

/-- CREATE_IO_SQ (R127, R131; NVM Express, log 45). -/
def execCreateIoSq (id : CmdId) (s : State) : Host.Outcome State Fault Refusal :=
  .next (match s.live id true 0x01 with
    | none => s
    | some c =>
      let w := c.sqe.cdw10.toNat
      let x := c.sqe.cdw11.toNat
      let q := field w 15 0
      let cq := field x 31 16
      if q = 0 ∨ s.queueAllotment c.func < q ∨ (s.sq c.func q).isSome ∨ cq = 0 ∨ (s.cq c.func cq).isNone then
        s.finish id .invalidQueueIdentifier
      else if field w 31 16 = 0 ∨ !bit x 0 then s.finish id .invalidField
      else (s.setSq c.func q (some { size := field w 31 16 + 1, cq := cq, prio := BitVec.ofNat 2 (field x 2 1), base := c.sqe.dptr })).finish
        id .success)

/-- DELETE_IO_SQ (R131): the queue goes once none of its commands is fetched or in flight. -/
def execDeleteIoSq (id : CmdId) (s : State) : Host.Outcome State Fault Refusal :=
  .next (match s.live id true 0x00 with
    | none => s
    | some c =>
      let q := field c.sqe.cdw10.toNat 15 0
      if q = 0 ∨ (s.sq c.func q).isNone then s.finish id .invalidQueueIdentifier
      else if (s.inflightOf c.func).any (fun e => e.2.sq == q) ∨ s.hif.fetched.any (fun e => e.1 == c.func && e.2.1 == q) then s
      else (s.setSq c.func q none).finish id .success)

/-- DELETE_IO_CQ (R131): not while a submission queue uses it. -/
def execDeleteIoCq (id : CmdId) (s : State) : Host.Outcome State Fault Refusal :=
  .next (match s.live id true 0x04 with
    | none => s
    | some c =>
      let q := field c.sqe.cdw10.toNat 15 0
      let used := s.hif.sqs.any (fun e => match e.2 with | some x => e.1 / 65536 == c.func && x.cq == q | none => false)
      if q = 0 ∨ (s.cq c.func q).isNone ∨ used then s.finish id .invalidQueueIdentifier
      else (s.setCq c.func q none).finish id .success)

/-! ### Identify (R127, R128, R186, R209, R222, R582, R621) -/

/-- A page of free bytes with the fields that the manual states stored over it, as (offset, bytes) (log 43). -/
def statedPage (base : Bytes) (fields : List (Nat × Bytes)) : Bytes := fields.foldl (fun p f => splice p f.1 f.2) base

/-- CNTLID of a function (R127). -/
def State.cntlid (s : State) (f : Nat) : Nat := f + (if s.swl.position = 1 then 0x100 else 0)

/-- The device has a pair position (R582). -/
def State.inPair (s : State) : Bool := decide (s.swl.position ≤ 1)

/-- What R127, R186, R209, R222, R582 and R621 state of the Identify Controller data structure of function `f`. A virtual function's
capacity values are its allotment (R186; log 101). -/
def State.identifyController (s : State) (f : Nat) : List (Nat × Bytes) :=
  [(64, s.fwRev), (76, [byteOf (if s.inPair then 10 + flag s.hif.dualPort else flag s.hif.dualPort)]), (77, [9]),
   (78, leBytes 2 (s.cntlid f)), (80, leBytes 4 0x00020000), (258, [7]), (259, [7]), (260, [0x17]),
   (266, leBytes 2 371), (268, leBytes 2 378), (270, leBytes 2 8), (328, leBytes 4 3),
   (516, leBytes 4 1024), (520, leBytes 2 0x00FD), (522, leBytes 2 0), (524, [6]), (525, [byteOf s.vwc]),
   (526, leBytes 2 63), (528, leBytes 2 63), (536, leBytes 4 0x00040001), (3072, (s.idStatus f).take 16), (3088, List.replicate 1008 0)] ++
  (if s.inPair then [(342, [1]), (343, [0x57]), (344, leBytes 4 3), (348, leBytes 4 3)] else [(343, [0])]) ++
  (if 2 ≤ f then [(280, leBytes 16 (s.capacityLimit f)), (296, leBytes 16 (s.capacityLimit f))] else [])

/-- LBA format entries of R128: metadata size, data size as a power of two, relative performance. -/
def lbaFormatEntries : Bytes :=
  ([(0, 12, 0), (8, 12, 1), (16, 12, 1), (0, 9, 2), (8, 9, 3)].map (fun (e : Nat × Nat × Nat) =>
    leBytes 4 (e.1 + e.2.1 * 2 ^ 16 + e.2.2 * 2 ^ 24))).flatten

/-- ANAGRPID of a namespace (R582). -/
def State.anaGroup (s : State) (nsid : Nat) : Nat :=
  match s.swl.cfg with
  | some c => if !c.mirrored.contains nsid then 3 else if c.owner1.contains nsid then 2 else 1
  | none => 3

/-- What R127, R128, R143 and R582 state of the Identify Namespace data structure; its capacity fields are the namespace's own size
(R186; log 101). -/
def State.identifyNs (s : State) (nsid : Nat) (n : Ns) : List (Nat × Bytes) :=
  let at_ := if lbaBytes n.lbaf = 4096 then 63 else 511
  let mirrored := match s.swl.cfg with | some c => c.mirrored.contains nsid | none => false
  [(0, leBytes 8 n.blocks), (8, leBytes 8 n.blocks), (16, leBytes 8 n.blocks), (48, leBytes 16 (n.blocks * lbaBytes n.lbaf)), (24, [2]), (25, [4]), (26, [byteOf (n.lbaf + 16 * flag n.extended)]), (27, [3]), (28, [0x15]),
   (29, [byteOf n.pi]), (30, [byteOf (flag (s.inPair && mirrored))]), (33, [0]), (34, leBytes 2 at_), (36, leBytes 2 at_),
   (40, leBytes 2 at_), (42, leBytes 2 0), (44, leBytes 2 at_), (128, lbaFormatEntries)] ++
  (if s.inPair then [(92, leBytes 4 (s.anaGroup nsid))] else [])

/-- A page of `n` free bytes with stated fields, and the state after drawing them. -/
def State.drawPage (s : State) (n : Nat) (fields : List (Nat × Bytes)) : Bytes × State :=
  let d := s.drawBytes n
  (statedPage d.1 fields, d.2)

/-- A list of 32-bit or 16-bit numbers as a 4,096-byte page. -/
def listPage (width : Nat) (l : List Nat) : Bytes := padTo 4096 ((l.map (leBytes width)).flatten)

/-- Namespaces a function observes: a physical function all of them, a virtual function its own (R169, R186). -/
def State.visibleNs (s : State) (f : Nat) : List Nat := (if f ≤ 1 then s.nsList else s.nsOf f).map (·.1)

/-- The page of an Identify, by CNS (R127; NVM Express, log 43); none for a CNS that is not supported. -/
def State.identifyPage (s : State) (c : Cmd) : Except Status (Bytes × State) :=
  let cns := field c.sqe.cdw10.toNat 7 0
  let nsid := sqeNsid c.sqe
  let above := fun (l : List Nat) => (l.filter (fun i => decide (nsid < i))).take 1024
  let nsPage := fun (seen : Bool) => match s.ns nsid with
    | some n => if seen then .ok (s.drawPage 4096 (s.identifyNs nsid n)) else .ok (List.replicate 4096 0, s)
    | none => if 1 ≤ nsid ∧ nsid ≤ 1024 then .ok (List.replicate 4096 0, s) else .error .invalidNamespaceOrFormat
  match cns with
  | 0x00 =>
    if nsid = 0xFFFFFFFF then .ok (s.drawPage 4096 [(25, [4]), (27, [3]), (28, [0x15]), (33, [0]), (128, lbaFormatEntries)])
    else nsPage ((s.nsOf c.func).any (fun e => e.1 == nsid))
  | 0x01 => .ok (s.drawPage 4096 (s.identifyController c.func))
  | 0x02 => .ok (listPage 4 (above ((s.nsOf c.func).map (·.1))), s)
  | 0x10 => .ok (listPage 4 (above (s.visibleNs c.func)), s)
  | 0x11 => nsPage ((s.visibleNs c.func).contains nsid)
  | 0x12 =>
    let l := match s.ns nsid with
      | some n => (match n.attached with | some f => if c.func ≤ 1 ∨ f = c.func then [s.cntlid f] else [] | none => [])
      | none => []
    let l := l.filter (fun i => decide (field c.sqe.cdw10.toNat 31 16 ≤ i))
    .ok (listPage 2 (l.length :: l), s)
  | 0x13 =>
    let l := ((if c.func ≤ 1 then s.present else [c.func]).map s.cntlid).filter
      (fun i => decide (field c.sqe.cdw10.toNat 31 16 ≤ i))
    .ok (listPage 2 (l.length :: l), s)
  | 0x03 | 0x05 | 0x06 | 0x08 | 0x14 | 0x15 | 0x1C => .ok (s.drawPage 4096 [])
  | _ => .error .invalidField

/-- IDENTIFY (R127, R186, R209). -/
def execIdentify (id : CmdId) (s : State) : Host.Outcome State Fault Refusal :=
  .next (match s.live id true 0x06 with
    | none => s
    | some c => s.onOk id (s.identifyPage c) (fun r => r.2.answer id r.1))

/-! ### Log pages -/

/-- What R144, R186, R270, R554 and R621 state of the SMART/Health log for function `f`: a virtual function observes the
temperature, its warnings, the hours and the power cycles only. -/
def State.smartFields (s : State) (f : Nat) : List (Nat × Bytes) :=
  [(0, [byteOf (s.criticalWarning f)]), (1, leBytes 2 s.composite), (112, leBytes 16 s.recd.powerCycles),
   (128, leBytes 16 s.recd.hours)] ++
  (if f ≤ 1 then [(3, [byteOf s.availableSpare]), (4, [10]), (5, [byteOf s.percentageUsed]), (160, leBytes 16 s.nss.mediaErrors)] else [])

/-- ANA states as NVM Express codes them. -/
def State.anaState (s : State) (g : Nat) : Nat :=
  let mine := g == s.swl.position + 1
  if g = 3 then 1
  else match s.swl.state with
    | .joining => 3
    | .isolated => if mine then 1 else 3
    | .sole => if mine ∨ !s.swl.taken.isEmpty then 1 else 0xF
    | .unpaired => 1
    | _ => if mine then 1 else 2

/-- The Asymmetric Namespace Access log of function `f` (R582, R583; NVM Express); change counts are free. -/
def State.anaLog (s : State) (f : Nat) : Bytes × State :=
  let mine := (s.nsOf f).map (·.1)
  let d := s.drawBytes 32
  let groups := [1, 2, 3].map (fun g =>
    let ns := mine.filter (fun i => s.anaGroup i == g)
    leBytes 4 g ++ leBytes 4 ns.length ++ slice d.1 (8 * g) 8 ++ [byteOf (s.anaState g)] ++ leBytes 15 0 ++ (ns.map (leBytes 4)).flatten)
  (slice d.1 0 8 ++ leBytes 2 3 ++ leBytes 6 0 ++ groups.flatten, d.2)

/-- A record the Persistent Event Log carries (R560). -/
def Event.persistent (e : Event) : Bool :=
  e.cls == 2 || e.cls == 3 || e.cls == 4 || [evFwActivated.code, evTimeMark.code, evBootRecord.code].contains e.code

/-- The standard event type of a record, and the bytes of its event data (R560; lengths of NVM Express, log 43). -/
def Event.pelType (e : Event) : Nat × Nat :=
  if e.code = evFwActivated.code then (0x02, 22)
  else if e.code = evTimeMark.code then (0x03, 16)
  else if e.code = evBootRecord.code then (0x04, 8)
  else if e.code = evSanitizeStarted.code then (0x09, 12)
  else (0xDE, 64)

/-- The entries of the Persistent Event Log: a 24-byte event header with its type and length, and the event's data; a vendor
specific event's data is the 64-byte record (R560). Bytes that the manual does not state are free. -/
def State.pelEntries (s : State) : List Event → Bytes × State
  | [] => ([], s)
  | e :: es =>
    let t := e.pelType
    let h := s.drawPage 24 [(0, [byteOf t.1]), (22, leBytes 2 t.2)]
    let d := if t.1 = 0xDE then (e.bytes, h.2) else h.2.drawBytes t.2
    let r := d.2.pelEntries es
    (h.1 ++ d.1 ++ r.1, r.2)

/-- The Persistent Event Log as a reading context holds it (R560): a 512-byte header, then the entries. -/
def State.pelLog (s : State) : Bytes × State :=
  let es := s.recd.valid.filter Event.persistent
  let r := s.pelEntries es
  let h := r.2.drawPage 512 [(0, [0x0D]), (4, leBytes 4 es.length), (8, leBytes 8 (512 + r.1.length)),
    (28, leBytes 16 s.recd.hours), (44, leBytes 8 s.recd.powerCycles)]
  (h.1 ++ r.1, h.2)

/-- The bytes of a log page that a Get Log Page asks for: NUMD dwords from the offset (NVM Express). -/
def logWindow (e : Sqe) (page : Bytes) : Bytes :=
  let n := 4 * (field e.cdw10.toNat 31 16 + field e.cdw11.toNat 15 0 * 2 ^ 16 + 1)
  (page.drop (e.cdw12.toNat + e.cdw13.toNat * 2 ^ 32)).take n

/-- The offset of a Get Log Page lies beyond the end of a page of `n` bytes. -/
def logPastEnd (e : Sqe) (n : Nat) : Bool := decide (n < e.cdw12.toNat + e.cdw13.toNat * 2 ^ 32)

/-- A log page that is not available on a function or not supported (R215, R560, log 44). -/
def State.logPage (s : State) (c : Cmd) : Except Status (Bytes × State) :=
  let lid := field c.sqe.cdw10.toNat 7 0
  let pf := decide (c.func ≤ 1)
  if (c.sqe.cdw12.toNat + c.sqe.cdw13.toNat * 2 ^ 32) % 4 ≠ 0 then .error .invalidField
  else match lid, pf with
    | 0x02, _ => .ok (s.drawPage 512 (s.smartFields c.func))
    | 0x0C, _ => if s.inPair then .ok (s.anaLog c.func) else .error .invalidLogPage
    | 0xC0, true => .ok (s.configStatus, s)
    | 0x0D, true =>
      match field c.sqe.cdw10.toNat 9 8, (s.fn c.func).pel with
      | 0, some p => .ok (p, s)
      | 1, none =>
        let r := s.pelLog
        .ok (r.1, r.2.updFn c.func (fun x => { x with pel := some r.1 }))
      | 2, _ => .ok ([], s.updFn c.func (fun x => { x with pel := none }))
      | 3, _ => .error .invalidField
      | _, _ => .error .commandSequenceError
    | _, _ => .error .invalidLogPage

/-- GET_LOG_PAGE (R215, R270, R560, R583): a page that starts beyond its end is Invalid Field in Command. -/
def execGetLogPage (id : CmdId) (s : State) : Host.Outcome State Fault Refusal :=
  .next (match s.live id true 0x02 with
    | none => s
    | some c => s.onOk id (s.logPage c) (fun r =>
      if logPastEnd c.sqe r.1.length then s.finish id .invalidField
      else r.2.answer id (logWindow c.sqe r.1)))

/-! ### Features -/

/-- The features supported: Arbitration, Temperature Threshold, Volatile Write Cache, Number of Queues, Asynchronous Event
Configuration, Timestamp (log 44). -/
def featureIds : List Nat := [0x01, 0x04, 0x06, 0x07, 0x0B, 0x0E]

/-- A feature whose value can be saved (R127; log 44). -/
def featureSaveable (fid : Nat) : Bool := [0x01, 0x04, 0x0B].contains fid

/-- DW0 of a feature's value (NVM Express); the queue count of a function without queues is free. -/
def State.featureValue (s : State) (c : Cmd) (v : Features) (fid : Nat) : Option (Nat × State) :=
  match fid with
  | 0x01 => some (v.ab.toNat + v.lpw.toNat * 2 ^ 8 + v.mpw.toNat * 2 ^ 16 + v.hpw.toNat * 2 ^ 24, s)
  | 0x04 =>
    let w := c.sqe.cdw11.toNat
    if field w 19 16 ≠ 0 ∨ 1 < field w 21 20 then none else some (if field w 21 20 = 0 then v.tempOver else v.tempUnder, s)
  | 0x06 => some (flag (s.fn c.func).wce, s)
  | 0x07 =>
    match s.queueAllotment c.func with
    | 0 => let d := s.draw 32; some (d.1.toNat, d.2)
    | n + 1 => some (n * 65537, s)
  | 0x0B => some (v.aec.toNat, s)
  | _ => some (0, s)

/-- GET_FEATURES (R127, R130): SEL 0 current, 1 default, 2 saved, 3 capabilities. The timestamp is free data. The write cache
feature is refused while no volatile write cache is present (R144; NVM Express, log 44). -/
def execGetFeatures (id : CmdId) (s : State) : Host.Outcome State Fault Refusal :=
  .next (match s.live id true 0x0A with
    | none => s
    | some c =>
      let fid := field c.sqe.cdw10.toNat 7 0
      let sel := field c.sqe.cdw10.toNat 10 8
      let x := s.fn c.func
      let v : Features := if sel = 1 then {} else if sel = 2 then x.saved else x.features
      if !featureIds.contains fid ∨ 3 < sel ∨ (fid = 0x06 ∧ !s.volatileNow) then s.finish id .invalidField
      else if sel = 3 then s.finish id .success (BitVec.ofNat 32 (flag (featureSaveable fid) + 4))
      else if fid = 0x0E then
        let d := s.drawBytes 8
        d.2.answer id d.1
      else match s.featureValue c v fid with
        | none => s.finish id .invalidField
        | some r => r.2.finish id .success (BitVec.ofNat 32 r.1))

/-- The temperature warning of a function follows its thresholds, with an event when it is set (R621). -/
def State.checkTemp (s : State) (f : Nat) : State :=
  let out := s.tempOut f
  let s1 := s.updFn f (fun x => { x with tempWarn := out })
  if out && !(s.fn f).tempWarn then s1.asyncEvent f (BitVec.ofNat 32 (1 + 1 * 2 ^ 8 + 0x02 * 2 ^ 16)) else s1

/-- A Set Features of one feature: a feature that is not supported, or a save of one that cannot be saved, is Invalid Field
(log 44). Asynchronous Event Configuration has no step of its own and takes effect here (R130, R152). -/
def State.setFeature (s : State) (id : CmdId) (fid : Nat) (body : Cmd → State) : State :=
  match s.live id true 0x09 with
  | none => s
  | some c =>
    let x := field c.sqe.cdw10.toNat 7 0
    let save := bit c.sqe.cdw10.toNat 31
    if !featureIds.contains x ∨ (save ∧ !featureSaveable x) then s.finish id .invalidField
    else if x = 0x0B then
      (s.updFn c.func (fun f => { f with
        features := { f.features with aec := c.sqe.cdw11 }
        saved := if save then { f.saved with aec := c.sqe.cdw11 } else f.saved })).finish id .success
    else if x = fid then body c else s

/-- SET_FEATURES_VOLATILE_WRITE_CACHE (R144). -/
def execSetFeaturesVolatileWriteCache (id : CmdId) (s : State) : Host.Outcome State Fault Refusal :=
  .next (s.setFeature id 0x06 (fun c =>
    if !s.volatileNow then s.finish id .invalidField
    else (s.updFn c.func (fun f => { f with wce := bit c.sqe.cdw11.toNat 0 })).finish id .success))

/-- SET_FEATURES_NUMBER_OF_QUEUES (R131). -/
def execSetFeaturesNumberOfQueues (id : CmdId) (s : State) : Host.Outcome State Fault Refusal :=
  .next (s.setFeature id 0x07 (fun c =>
    let w := c.sqe.cdw11.toNat
    if field w 15 0 = 0xFFFF ∨ field w 31 16 = 0xFFFF then s.finish id .invalidField
    else match s.featureValue c {} 0x07 with
      | some r => r.2.finish id .success (BitVec.ofNat 32 r.1)
      | none => s))

/-- SET_FEATURES_TIMESTAMP (R559): recorded as TIME_MARK. -/
def execSetFeaturesTimestamp (id : CmdId) (wallMs tick : Nat) (s : State) : Host.Outcome State Fault Refusal :=
  .next (s.setFeature id 0x0E (fun c =>
    if sglShort c.sqe 8 then s.finish id .dataSglLengthInvalid
    else ((s.updFn c.func (fun f => { f with features := { f.features with timestamp := wallMs } })).timeMark wallMs tick).finish id .success))

/-- SET_FEATURES_TEMPERATURE_THRESHOLD (R621): of the composite temperature only. -/
def execSetFeaturesTemperatureThreshold (id : CmdId) (s : State) : Host.Outcome State Fault Refusal :=
  .next (s.setFeature id 0x04 (fun c =>
    let w := c.sqe.cdw11.toNat
    let set := fun (v : Features) => if field w 21 20 = 0 then { v with tempOver := field w 15 0 } else { v with tempUnder := field w 15 0 }
    if (field w 19 16 ≠ 0 ∧ field w 19 16 ≠ 15) ∨ 1 < field w 21 20 then s.finish id .invalidField
    else ((s.updFn c.func (fun f => { f with
        features := set f.features
        saved := if bit c.sqe.cdw10.toNat 31 then set f.saved else f.saved })).checkTemp c.func).finish id .success))

/-- SET_FEATURES_ARBITRATION (R134, R135): the burst and the weights. -/
def execSetFeaturesArbitration (id : CmdId) (s : State) : Host.Outcome State Fault Refusal :=
  .next (s.setFeature id 0x01 (fun c =>
    let w := c.sqe.cdw11.toNat
    let set := fun (v : Features) => { v with
      ab := BitVec.ofNat 3 (field w 2 0), lpw := BitVec.ofNat 8 (field w 15 8), mpw := BitVec.ofNat 8 (field w 23 16)
      hpw := BitVec.ofNat 8 (field w 31 24) }
    (s.updFn c.func (fun f => { f with
      features := set f.features
      saved := if bit c.sqe.cdw10.toNat 31 then set f.saved else f.saved })).finish id .success))

/-! ### Events, self-test and management -/

/-- ASYNCHRONOUS_EVENT_REQUEST (R127): an event that waits completes it; otherwise it waits, one of at most eight. -/
def execAsynchronousEventRequest (id : CmdId) (s : State) : Host.Outcome State Fault Refusal :=
  .next (match s.live id true 0x0C with
    | none => s
    | some c =>
      let x := s.fn c.func
      if x.aers.contains id then s
      else match x.events with
        | e :: es => (s.updFn c.func (fun x => { x with events := es })).finish id .success e
        | [] => if x.aers.length < 8 then s.updFn c.func (fun x => { x with aers := x.aers ++ [id] }) else s)

/-- DEVICE_SELF_TEST (R130): the short and the extended test, and their abort, are accepted (log 46). -/
def execDeviceSelfTest (id : CmdId) (s : State) : Host.Outcome State Fault Refusal :=
  .next (match s.live id true 0x14 with
    | none => s
    | some c => s.finish id (if [1, 2, 15].contains (field c.sqe.cdw10.toNat 3 0) then .success else .invalidField))

/-- NVME_MI_SEND (R130): accepted; the tunnelled status in DW0 is free (log 46). -/
def execNvmeMiSend (id : CmdId) (_msg : Bytes) (s : State) : Host.Outcome State Fault Refusal :=
  .next (match s.live id true 0x1D with
    | none => s
    | some _ => let d := s.draw 32; d.2.finish id .success d.1)

/-- NVME_MI_RECEIVE (R130): the answer's bytes and the tunnelled status are free (log 46). -/
def execNvmeMiReceive (id : CmdId) (s : State) : Host.Outcome State Fault Refusal :=
  .next (match s.live id true 0x1E with
    | none => s
    | some c =>
      let b := s.drawBytes c.sqe.dptrLen
      let d := b.2.draw 32
      (d.2.reply id b.1).finish id .success d.1)

/-- NVME_MI_OVER_SMBUS (R604): the message is answered out of band; the answer's bytes are free (log 46). -/
def execNvmeMiOverSmbus (_msg : Bytes) (s : State) : Host.Outcome State Fault Refusal :=
  .next (if !s.psm.mode.live then s
    else
      let n := s.draw 8
      let b := n.2.drawBytes n.1.toNat
      { b.2 with hif := { b.2.hif with smbReply := b.1 } })

/-! ### Reservations (R130; NVM Express) -/

/-- The namespace a reservation command acts on, or the status it fails with. -/
def State.resvTarget (s : State) (c : Cmd) : Except Status Ns :=
  match s.ns (sqeNsid c.sqe) with
  | none => .error .invalidNamespaceOrFormat
  | some n =>
    if n.attached ≠ some c.func then .error .invalidNamespaceOrFormat
    else if n.object then .error .invalidOpcode else .ok n

/-- The key a function has registered. -/
def Resv.keyOf (r : Resv) (f : Nat) : Option (BitVec 64) := (r.regs.find? (fun e => e.1 == f)).map (·.2)

/-- The reservation state with a function's registration taken out, and its reservation with it. -/
def Resv.drop (r : Resv) (f : Nat) : Resv :=
  { r with regs := r.regs.filter (fun e => e.1 != f), holder := match r.holder with
      | some h => if h.1 = f then none else some h
      | none => none, gen := r.gen + 1 }

/-- A reservation command that runs: its new reservation state, or none for a conflict, which is Invalid Field in Command
because R631 has no Reservation Conflict (log 47). `bytes` is what it takes from its data pointer. -/
def State.reserve (s : State) (id : CmdId) (op bytes : Nat) (body : Cmd → Resv → Option Resv) : State :=
  match s.live id false op with
  | none => s
  | some c =>
    if c.away then s
    else match s.resvTarget c with
      | .error st => s.finish id st
      | .ok n => if sglShort c.sqe bytes then s.finish id .dataSglLengthInvalid else match body c n.resv with
        | none => s.finish id .invalidField
        | some r => (s.setNs (sqeNsid c.sqe) (some { n with resv := r })).finish id .success

/-- RESERVATION_REGISTER. -/
def execReservationRegister (id : CmdId) (crkey nrkey : BitVec 64) (s : State) : Host.Outcome State Fault Refusal :=
  .next (s.reserve id 0x0D 16 (fun c r =>
    let act := field c.sqe.cdw10.toNat 2 0
    let ignore := bit c.sqe.cdw10.toNat 3
    let known := match r.keyOf c.func with | some k => ignore || k == crkey | none => false
    match act with
    | 0 =>
      if (r.keyOf c.func).isSome then (if r.keyOf c.func = some nrkey then some r else none)
      else some { r with regs := r.regs ++ [(c.func, nrkey)], gen := r.gen + 1 }
    | 1 => if known then some (r.drop c.func) else none
    | 2 =>
      if known then some { r with regs := r.regs.map (fun e => if e.1 = c.func then (c.func, nrkey) else e), gen := r.gen + 1 }
      else if (r.keyOf c.func).isNone ∧ ignore then some { r with regs := r.regs ++ [(c.func, nrkey)], gen := r.gen + 1 }
      else none
    | _ => none))

/-- RESERVATION_ACQUIRE. -/
def execReservationAcquire (id : CmdId) (crkey prkey : BitVec 64) (s : State) : Host.Outcome State Fault Refusal :=
  .next (s.reserve id 0x11 16 (fun c r =>
    let act := field c.sqe.cdw10.toNat 2 0
    let kind := field c.sqe.cdw10.toNat 15 8
    if r.keyOf c.func ≠ some crkey ∨ kind < 1 ∨ 6 < kind then none
    else match act with
      | 0 => (match r.holder with
          | none => some { r with holder := some (c.func, kind) }
          | some h => if h = (c.func, kind) then some r else none)
      | 1 | 2 =>
        let out := (r.regs.filter (fun e => e.2 == prkey)).map (·.1)
        let r1 := out.foldl Resv.drop r
        let mine := (r.regs.filter (fun e => e.1 == c.func))
        let keep := if out.contains c.func then { r1 with regs := mine ++ r1.regs } else r1
        (match keep.holder with
          | none => some { keep with holder := some (c.func, kind) }
          | some _ => some keep)
      | _ => none))

/-- RESERVATION_RELEASE. -/
def execReservationRelease (id : CmdId) (crkey : BitVec 64) (s : State) : Host.Outcome State Fault Refusal :=
  .next (s.reserve id 0x15 8 (fun c r =>
    let act := field c.sqe.cdw10.toNat 2 0
    if r.keyOf c.func ≠ some crkey then none
    else match act with
      | 0 => (match r.holder with
          | some h => if h.1 ≠ c.func then some r
              else if h.2 = field c.sqe.cdw10.toNat 15 8 then some { r with holder := none } else none
          | none => some r)
      | 1 => some { r with regs := [], holder := none, gen := r.gen + 1 }
      | _ => none))

/-- The reservation status data structure (NVM Express); host identifiers are free, and the extended form has 16-byte ones. -/
def State.resvStatus (s : State) (r : Resv) (ext : Bool) : Bytes × State :=
  let w := if ext then 16 else 8
  let d := s.drawBytes (w * r.regs.length)
  let rows := (r.regs.zipIdx).map (fun e =>
    let holds := match r.holder with | some h => h.1 == e.1.1 | none => false
    let host := slice d.1 (w * e.2) w
    leBytes 2 (s.cntlid e.1.1) ++ [byteOf (flag holds)] ++ leBytes 5 0 ++
      (if ext then leBytes 8 e.1.2.toNat ++ host ++ leBytes 32 0 else host ++ leBytes 8 e.1.2.toNat))
  (leBytes 4 r.gen ++ [byteOf (match r.holder with | some h => h.2 | none => 0)] ++ leBytes 2 r.regs.length ++
    leBytes (if ext then 57 else 17) 0 ++ rows.flatten, d.2)

/-- RESERVATION_REPORT. -/
def execReservationReport (id : CmdId) (s : State) : Host.Outcome State Fault Refusal :=
  .next (match s.live id false 0x0E with
    | none => s
    | some c =>
      if c.away then s
      else match s.resvTarget c with
        | .error st => s.finish id st
        | .ok n =>
          let r := s.resvStatus n.resv (bit c.sqe.cdw11.toNat 0)
          r.2.answer id (r.1.take (4 * (c.sqe.cdw10.toNat + 1))))

end Sys2Proof.Machine
end

