-- ==== Sys2Proof/Machine/Tenants.lean ====
section
/-! DEFINITION. A tenant's status and its run-time rate (R172, R190, R633). -/

namespace Sys2Proof.Machine

/-- A level as signed 64-bit two's complement (R633). -/
def levelBytes (x : Int) : Bytes := leBytes 8 (BitVec.ofInt 64 x).toNat

/-- Rows charged to a function's tables (R440). -/
def State.asuCharged (s : State) (f : Nat) : Nat :=
  (s.asu.tables.filter (fun t => t.func == f)).foldl (fun n t => n + 512 * t.slabs.length) 0

/-- Chive entries that a function holds (R633). -/
def State.chiveUsed (s : State) (f : Nat) : Nat := s.objs.chive.countP (fun c => c.func == f)

/-- The 112 bytes of R633. -/
def State.tenantStatus (s : State) (f : Nat) : Bytes :=
  let x := s.fn f
  let entry := match s.tenant f with
    | some t => tenantBytes { t with rate := x.rate }
    | none => padTo 64 [byteOf f]
  entry ++ levelBytes x.bwLevel ++ levelBytes x.iopsLevel ++ leBytes 8 x.capacityUsed ++ leBytes 8 x.objectsUsed ++
    leBytes 8 (s.chiveUsed f) ++ leBytes 8 (s.asuCharged f)

/-- MB_TENANT_STATUS (R208, R633): a virtual function names itself (log 33). -/
def execMbTenantStatus (f : Nat) (s : State) : Host.Outcome State Fault Refusal :=
  .next (s.mbRun f 0x0301 anyPayload (fun s p =>
    (s, some (if 127 < byteAt p 0 ∨ (2 ≤ f ∧ byteAt p 0 ≠ f) then mbErr 0x0004 else mbOk (s.tenantStatus (byteAt p 0))))))

/-- MB_TENANT_RATE (R172, R190; log 34): the parameters take effect at the next tick. -/
def execMbTenantRate (f : Nat) (s : State) : Host.Outcome State Fault Refusal :=
  .next (s.mbRun f 0x0302 anyPayload (fun s p =>
    if 127 < byteAt p 0 ∨ !allZero (slice p 1 7) ∨ !rateOk (slice p 8 8) then (s, some (mbErr 0x0004))
    else (s.updFn (byteAt p 0) (fun x => { x with rateNext := some (rateOf (slice p 8 8)) }), some (mbOk []))))

end Sys2Proof.Machine
end

