-- ==== Sys2Proof/Machine/Asu.lean ====
section
/-! DEFINITION. The associative search unit: tables, entries, searches and their order (R428 to R454). -/

namespace Sys2Proof.Machine

/-! ### Tables (R430, R431, R440, R441) -/

/-- Banks an entry of a table spans. -/
def Table.k (t : Table) : Nat := 2 ^ t.width
/-- Key bits of a table. -/
def Table.bits (t : Table) : Nat := 72 * t.k
/-- Entries of a table. -/
def Table.capacity (t : Table) : Nat := t.slabs.length * (512 / t.k)
/-- The bank groups a table has slabs in. -/
def Table.groups (t : Table) : List Nat := t.slabs.map (· / 64)
/-- The physical rows of an entry, bank and row: entry i of a slab lies at the same row of k banks of its group (R430, R431). -/
def Table.rows (t : Table) (entry : Nat) : List (Nat × Nat) :=
  let n := t.slabs.getD (entry / (512 / t.k)) 0
  let i := entry % (512 / t.k)
  (List.range t.k).map (fun j => (4 * (n / 64) + i / 128 * t.k + j, 128 * (n % 64) + i % 128))
/-- The key of an entry in the row store. -/
def rowKey (f id entry : Nat) : Nat := (f * 65 + id) * 2 ^ 24 + entry

/-- A table of a function. -/
def State.table (s : State) (f id : Nat) : Option Table := s.asu.tables.find? (fun t => t.func == f && t.id == id)

/-- A table as a command accepted with handle `cmd` sees it (R441). -/
def State.tableFor (s : State) (f id cmd : Nat) : Option Table :=
  match s.table f id with
  | none => none
  | some t => match t.deleting with
    | some d => if cmd < d then some t else none
    | none => some t

/-- The slab belongs to no table. -/
def State.slabFree (s : State) (n : Nat) : Bool := s.asu.tables.all (fun t => !t.slabs.contains n)

/-- The free tenant slabs of a bank group (R432). -/
def State.groupFree (s : State) (g : Nat) : List Nat :=
  ((List.range 64).map (fun i => 64 * g + i)).filter (fun n => s.slabFree n)

/-- A bank group comes before another when a table is placed: in service, then the more free slabs, then the lower number (R437,
R545, log 54). -/
def State.groupBefore (s : State) (a b : Nat) : Bool :=
  let wa := s.psm.halt.withdrawn.contains (.asu a)
  let wb := s.psm.halt.withdrawn.contains (.asu b)
  let fa := (s.groupFree a).length
  let fb := (s.groupFree b).length
  if wa != wb then wb else if fa ≠ fb then decide (fb < fa) else decide (a < b)

/-- Insertion into a list ordered by a test. -/
def insertBy {α : Type} (before : α → α → Bool) (x : α) : List α → List α
  | [] => [x]
  | y :: ys => if before x y then x :: y :: ys else y :: insertBy before x ys

/-- A list put into the order of a test. -/
def sortBy {α : Type} (before : α → α → Bool) (l : List α) : List α := l.foldr (insertBy before) []

/-- Slabs taken for a table, in as few groups as its count permits, in ascending order (R431, R437). -/
def State.pickSlabs (s : State) (n : Nat) : List Nat :=
  let groups := sortBy s.groupBefore ((List.range 6).map (· + 2))
  sortBy (fun a b => decide (a < b)) (((groups.map s.groupFree).flatten).take n)

/-- MB_TABLE_CREATE (R440): the lowest free ID (log 54). -/
def execMbTableCreate (f : Nat) (s : State) : Host.Outcome State Fault Refusal :=
  .next (s.mbRun f 0x0701 anyPayload (fun s p =>
    let n := leAt p 0 16
    let slabs := field n 24 16
    let quota := match s.tenant f with | some t => t.asuQuota | none => 0
    if field n 1 0 = 3 ∨ field n 15 3 ≠ 0 ∨ slabs = 0 ∨ 384 < slabs ∨ field n 127 25 ≠ 0 then (s, some (mbErr 0x0004))
    else if quota < s.asuCharged f + 512 * slabs then (s, some (mbErr 0x0008 1))
    else match ((List.range 64).map (· + 1)).find? (fun i => (s.table f i).isNone) with
      | none => (s, some (mbErr 0x0008 2))
      | some id =>
        let t : Table := { func := f, id := id, width := field n 1 0, longest := bit n 2, slabs := s.pickSlabs slabs }
        ({ s with asu := { s.asu with tables := s.asu.tables ++ [t] } }.raise evTableCreated f
          [(1, f), (2, id), (1, t.width), (2, slabs)], some (mbOk (leBytes 2 id)))))

/-- INDEX UPDATE or INDEX SEARCH on a table. -/
def indexNames (c : Cmd) (f id : Nat) : Bool :=
  c.func == f && !c.sqe.admin && (c.sqe.opcode == 0xA1 || c.sqe.opcode == 0xA2) && field c.sqe.cdw10.toNat 15 0 == id

/-- A delete that waits ends once the earlier commands on the table have (R441). -/
def State.tableDeleteEnd (s : State) (f : Nat) : State :=
  match s.asu.tables.find? (fun t => t.func == f && t.deleting.isSome) with
  | none => s
  | some t =>
    let d := t.deleting.getD 0
    if s.inflight.any (fun e => decide (e.1 < d) && indexNames e.2 f t.id && e.2.result.isNone) then s
    else
      let s1 := { s with asu := { s.asu with
        tables := s.asu.tables.filter (fun u => !(u.func == f && u.id == t.id))
        rows := Mem.keep (fun k => k / 2 ^ 24 != f * 65 + t.id) s.asu.rows } }
      (s1.raise evTableDeleted f [(1, f), (2, t.id), (2, t.slabs.length)]).mbRespond t.deletedBy (mbOk [])

/-- MB_TABLE_DELETE (R441): it waits for the earlier searches and updates of the table. -/
def execMbTableDelete (f : Nat) (s : State) : Host.Outcome State Fault Refusal :=
  .next ((s.mbRunAs f 0x0702 anyPayload (fun s w p =>
    match (s.table f (leAt p 0 2)).filter (fun t => t.deleting.isNone) with
    | none => (s, some (mbErr 0x000B))
    | some t =>
      ({ s with asu := { s.asu with tables := s.asu.tables.map (fun u =>
        if u.func = f ∧ u.id = t.id then { u with deleting := some s.hif.nextCmd, deletedBy := w } else u) } }, none))).tableDeleteEnd f)

/-- MB_TABLE_STATUS (R441). -/
def execMbTableStatus (f : Nat) (s : State) : Host.Outcome State Fault Refusal :=
  .next (s.mbRun f 0x0703 anyPayload (fun s p =>
    let quota := match s.tenant f with | some t => t.asuQuota | none => 0
    match (s.table f (leAt p 0 2)).filter (fun t => t.deleting.isNone) with
    | none => (s, some (mbErr 0x000B))
    | some t =>
      let used := t.k * s.asu.rows.countP (fun e => e.1 / 2 ^ 24 == f * 65 + t.id && e.2.isSome)
      (s, some (mbOk (leBytes 4 used ++ leBytes 4 (quota - s.asuCharged f))))))

/-! ### Entries (R429, R443) -/

/-- Bits set in a mask (R435). -/
def maskLen (m : BitVec 288) : Nat := (List.range 288).countP (fun i => m.getLsbD i)

/-- A key and mask fit a table (R443). -/
def keyFits (t : Table) (key mask : BitVec 288) : Bool :=
  decide (key.toNat < 2 ^ t.bits ∧ mask.toNat < 2 ^ t.bits) && (key &&& ~~~mask) == 0

/-- An entry as stored. -/
def State.row (s : State) (t : Table) (entry : Nat) : Option Row := Mem.get none s.asu.rows (rowKey t.func t.id entry)

/-- An entry written or invalidated in one cycle (R438). -/
def State.setRow (s : State) (t : Table) (entry : Nat) (r : Option Row) : State :=
  { s with asu := { s.asu with rows := Mem.set none s.asu.rows (rowKey t.func t.id entry) r } }

/-- A failing self-test of a bank group is recorded and withdraws the group until the next BOOT (R448). -/
def State.selftestFail (s : State) (group pattern : Nat) : State :=
  let seq := s.recd.next
  (s.raise evAsuSelftestFail 255 [(1, group), (4, pattern), (4, s.asu.tables.countP (fun t => t.groups.contains group))]).withdraw
    (.asu group) evAsuSelftestFail.code seq

/-- A physical row of one of the entries read out does not match its PARITY: that is recorded and counts as a detection of its
bank (R448, R545). -/
def State.rowFault (s : State) (t : Table) (fault : AsuFault) (entries : List Nat) : Option State :=
  match fault with
  | .rowParity bank row =>
    if !entries.any (fun n => (t.rows n).contains (bank, row)) then none
    else
      let seq := s.recd.next
      some ((s.raiseFrom (0x0D00 + bank) evAsuRowParity t.func [(1, bank), (2, row), (1, t.func)]).detect (0x0D00 + bank)
        evAsuRowParity.code seq)
  | _ => none

/-- What a search of a table that reads out `entries` fails with: a row parity mismatch (R448), two computations that differ,
which withdraws the group (R439, R544), or a self-test failure during the walk (R453). -/
def State.asuFault (s : State) (t : Table) (fault : AsuFault) (entries : List Nat) : Option State :=
  match fault with
  | .none => none
  | .disagree g what =>
    if !t.groups.contains g then none
    else
      let seq := s.recd.next
      some ((s.raise evAsuMatchDisagree t.func [(1, g), (1, t.func), (2, t.id), (1, what)]).withdraw (.asu g) evAsuMatchDisagree.code seq)
  | .rowParity bank row => s.rowFault t (.rowParity bank row) entries
  | .selftest g pattern => if !t.groups.contains g then none else some (s.selftestFail g pattern)

/-- One record of INDEX UPDATE applied, or the state it leaves and the status it fails with: a physical row of the entry that
fails parity fails the write (R443, R444, R448). -/
def State.applyRecord (s : State) (t : Table) (b : Bytes) (fault : AsuFault) : Except (State × Status) State :=
  let n := leNat b
  let entry := field n 23 0
  let op := field n 25 24
  let key : BitVec 288 := BitVec.ofNat 288 (field n 415 128)
  let mask : BitVec 288 := BitVec.ofNat 288 (field n 703 416)
  if 2 ≤ op ∨ field n 31 26 ≠ 0 ∨ field n 63 52 ≠ 0 ∨ field n 767 704 ≠ 0 ∨ (op = 1 ∧ n / 2 ^ 26 ≠ 0) ∨ !keyFits t key mask then
    .error (s, .invalidField)
  else if t.capacity ≤ entry then .error (s, .tenantQuota)
  else match s.rowFault t fault [entry] with
    | some s1 => .error (s1, .internalContained)
    | none =>
      if op = 1 then .ok (s.setRow t entry none)
      else .ok (s.setRow t entry (some { key := key, mask := mask, prefilter := BitVec.ofNat 8 (field n 39 32)
                                         priority := field n 51 40, assoc := BitVec.ofNat 64 (field n 127 64) }))

/-- Records applied in order up to the first that fails: how many, and its status. -/
def State.applyRecords (s : State) (t : Table) (fault : AsuFault) : List Bytes → Nat → State × Nat × Option Status
  | [], n => (s, n, none)
  | b :: bs, n => match s.applyRecord t b fault with
    | .error (s1, st) => (s1, n, some st)
    | .ok s1 => s1.applyRecords t fault bs (n + 1)

/-- The table has a slab in a withdrawn bank group (R446, R448). -/
def State.tableDown (s : State) (t : Table) : Bool := t.groups.any (fun g => s.psm.halt.withdrawn.contains (.asu g))

/-- INDEX_UPDATE (R443, R444): the records in order up to the first that fails; a parity mismatch of a row that is written fails
its record (R448). -/
def execIndexUpdate (id : CmdId) (data : Bytes) (s : State) (fault : AsuFault := .none) : Host.Outcome State Fault Refusal :=
  .next (match s.live id false 0xA1 with
    | none => s
    | some c =>
      let e := c.sqe
      let n := field e.cdw11.toNat 14 0
      if e.nsid ≠ 0xFFFFFFFF then s.finish id .invalidNamespaceOrFormat
      else if field e.cdw10.toNat 31 16 ≠ 0 ∨ field e.cdw11.toNat 31 15 ≠ 0 ∨ e.cdw12 ≠ 0 ∨ e.cdw13 ≠ 0 ∨ e.cdw14 ≠ 0 ∨ e.cdw15 ≠ 0 ∨
          n = 0 ∨ 21845 < n then s.finish id .invalidField
      else if e.sgl ∧ e.dptrLen < 96 * n then s.finish id .dataSglLengthInvalid
      else match s.tableFor c.func (field e.cdw10.toNat 15 0) id with
        | none => s.finish id .tableUnknown
        | some t =>
          if s.tableDown t then s.finish id .internalContained
          else
            let r := s.applyRecords t fault (chunksOf 96 (padTo (96 * n) data)) 0
            r.1.finish id (r.2.2.getD .success) (BitVec.ofNat 32 r.2.1))

/-! ### Searches (R433 to R436, R445) -/

/-- One search: pre-filter tag, ALL_TAGS, matches to return, key. -/
structure Search where
  tag : BitVec 8
  allTags : Bool
  max : Nat
  key : BitVec 288
  deriving DecidableEq, Repr

/-- A row is powered for a search and matches (R433, R434). -/
def Row.hits (r : Row) (q : Search) : Bool :=
  (q.allTags || r.prefilter == q.tag || r.prefilter == 0xFF) && (r.key &&& r.mask) == (q.key &&& r.mask)

/-- The valid entries of a table in entry order. -/
def State.entries (s : State) (t : Table) : List (Nat × Row) :=
  s.asu.rows.filterMap (fun e => if e.1 / 2 ^ 24 = t.func * 65 + t.id then e.2.map (fun r => (e.1 % 2 ^ 24, r)) else none)

/-- What the order of R435 compares first. -/
def Table.score (t : Table) (r : Row) : Nat := if t.longest then maskLen r.mask else r.priority

/-- The matches of a search in the order of R435. -/
def State.matches (s : State) (t : Table) (q : Search) : List (Nat × Row) :=
  sortBy (fun a b => if t.score a.2 ≠ t.score b.2 then decide (t.score b.2 < t.score a.2) else decide (a.1 < b.1))
    ((s.entries t).filter (fun e => e.2.hits q))

/-- A record of a search list (R445). -/
def searchOf (b : Bytes) : Search :=
  let n := leNat b
  { tag := BitVec.ofNat 8 (field n 7 0), allTags := bit n 8, max := field n 21 16 + 1, key := BitVec.ofNat 288 (field n 351 64) }

/-- Its reserved bits are 0. -/
def searchFieldsOk (b : Bytes) : Bool := field (leNat b) 15 9 == 0 && field (leNat b) 63 22 == 0 && field (leNat b) 383 352 == 0

/-- The result of a search: the header, the match entries and zeros. -/
def searchResult (ms : List (Nat × Row)) (max : Nat) : Bytes :=
  let got := ms.take max
  padTo (16 * (1 + max)) (
    leBytes 8 (got.length + flag (decide (1 < ms.length)) * 2 ^ 7 + flag (decide (got.length < ms.length)) * 2 ^ 8) ++
      leBytes 8 ms.length ++
      (got.map (fun m => leBytes 8 (m.1 + m.2.priority * 2 ^ 24 + maskLen m.2.mask * 2 ^ 36) ++ leBytes 8 m.2.assoc.toNat)).flatten)

/-- The dwords of INDEX SEARCH (R445). -/
def indexSearchOk (e : Sqe) : Bool :=
  let n := field e.cdw11.toNat 12 0
  field e.cdw10.toNat 31 16 == 0 && field e.cdw11.toNat 31 13 == 0 && e.cdw12.toNat % 8 == 0 && e.cdw14 == 0 && e.cdw15 == 0 &&
    decide (1 ≤ n ∧ n ≤ 4096)

/-- INDEX_SEARCH (R445, R446). -/
def execIndexSearch (id : CmdId) (list : Bytes) (fault : AsuFault) (s : State) : Host.Outcome State Fault Refusal :=
  .next (match s.live id false 0xA2 with
    | none => s
    | some c =>
      let e := c.sqe
      let bs := chunksOf 48 (padTo (48 * field e.cdw11.toNat 12 0) list)
      let total := (bs.map (fun b => 16 * (1 + (searchOf b).max))).foldl (· + ·) 0
      if e.nsid ≠ 0xFFFFFFFF then s.finish id .invalidNamespaceOrFormat
      else if !indexSearchOk e ∨ !bs.all searchFieldsOk ∨ 2097152 < total then s.finish id .invalidField
      else if e.sgl ∧ e.dptrLen < total then s.finish id .dataSglLengthInvalid
      else match s.tableFor c.func (field e.cdw10.toNat 15 0) id with
        | none => s.finish id .tableUnknown
        | some t =>
          if !bs.all (fun b => decide ((searchOf b).key.toNat < 2 ^ t.bits)) then s.finish id .invalidField
          else if s.tableDown t then s.finish id .internalContained
          else
            let found := bs.map (fun b => (s.matches t (searchOf b), (searchOf b).max))
            match s.asuFault t fault ((found.map (fun r => (r.1.take r.2).map (·.1))).flatten) with
            | some s1 => s1.finish id .internalContained
            | none =>
              (s.reply id ((found.map (fun r => searchResult r.1 r.2)).flatten)).finish id .success
                (BitVec.ofNat 32 (found.countP (fun r => !r.1.isEmpty))))

/-- ASU_SELFTEST (R448): a failing group is recorded and withdrawn until the next BOOT. -/
def execAsuSelftest (group pattern : Nat) (pass : Bool) (s : State) : Host.Outcome State Fault Refusal :=
  .next (if pass ∨ 8 ≤ group ∨ !s.psm.mode.engines then s
    else s.selftestFail group pattern)

end Sys2Proof.Machine
end

