-- ==== Sys2Proof/Machine/Channels.lean ====
section
/-! DEFINITION. The end of a descriptor, with its tag checks and what they report to the integrity monitor (R321, R325, R331). -/

namespace Sys2Proof.Machine

/-- A descriptor whose move ends with TAG_MISMATCH (R26, R27, R321): its job is retracted, and the engine reports the mismatch. -/
def State.failTag (s : State) (ch : Nat) (d : Desc) (bs : Bytes) (n : Nat) : State :=
  (s.failMove ch d bs 0x03).reportTag (engineOf ch) d.func d.tagNsid (d.tagUnit + n)

/-- A descriptor whose source cannot be read (R14, R323): an uncorrectable SPL word is recorded. -/
def State.failSource (s : State) (ch : Nat) (d : Desc) (bs : Bytes) : State :=
  let s1 := s.failMove ch d bs 0x01
  if d.srcSpace = 2 then s1.splError (d.src + bs.length) else s1

/-- A descriptor whose data have all been moved and checked (R325, R331). -/
def State.endMove (s : State) (ch : Nat) (d : Desc) (bs : Bytes) : State :=
  let c := s.ch ch
  let s1 := (s.moveDesc ch d bs).writeTags ch d (s.tagWork ch d bs)
  if c.failing then s1.failJob ch d 0x05
  else if d.jobEnd ∧ d.verdict ∧ c.verdictFor d = some true then (s1.takeVerdict ch d).completeDesc ch d 0x00 d.length
  else if d.jobEnd ∧ d.verdict then s1.setCh ch { s1.ch ch with held := true }
  else s1.completeDesc ch d 0x00 d.length

/-- DESCRIPTOR_COMPLETE (R321, R325, R328, R331, R332). -/
def execDescriptorComplete (ch : Nat) (r : MoveOutcome) (s : State) : Host.Outcome State Fault Refusal :=
  let c := s.ch ch
  let d := s.curDesc ch
  .next (
    if c.state ≠ .active ∨ c.held then s
    else if s.retired d.func d.gen then s.completeDesc ch d 0x07 0
    else if s.awaitsCpe d then s
    else if c.verdictFor d = some false then ((s.takeVerdict ch d).stopMove ch d).failJob ch d 0x05
    else match r with
      | .srcError n => s.failSource ch d ((s.sourceBytes d []).1.take n)
      | .dstError n => s.failMove ch d ((s.sourceBytes d []).1.take n) 0x02
      | .tagMismatch n => s.failTag ch d ((s.sourceBytes d []).1.take n) ((d.src % 4096 + n) / 4096)
      | .moved hostData =>
        let src := s.sourceBytes d hostData
        if src.2 = 1 then s.failSource ch d (readBytes s.dmf.spl d.src (s.splBadAt d.src d.length))
        else if src.2 ≠ 0 then s.failMove ch d src.1 0x04
        else match s.badTag d (s.tagWork ch d src.1) with
          | some n => s.failTag ch d (src.1.take (bytesBefore d.src n)) n
          | none => s.endMove ch d src.1)

end Sys2Proof.Machine
end

