-- ==== Sys2Proof/Machine/Inflate.lean ====
section
/-! DEFINITION. The decompressor: DEFLATE with its wrappers and the Lovage format, and the points at which a stream fails (R406 to
R409, R414, R416). -/

namespace Sys2Proof.Machine

/-! ### Check values -/

/-- One bit of the CRC-32 of gzip. -/
def crc32Step (c : BitVec 32) : BitVec 32 := if c.getLsbD 0 then (c >>> 1) ^^^ 0xEDB88320 else c >>> 1

/-- The CRC-32 of gzip (RFC 1952). -/
def crc32 (bs : Bytes) : BitVec 32 :=
  bs.foldl (fun (c : BitVec 32) (b : Byte) => iterate crc32Step 8 (c ^^^ BitVec.setWidth 32 b)) (BitVec.allOnes 32) ^^^ BitVec.allOnes 32

/-- Adler-32 (RFC 1950). -/
def adler32 (bs : Bytes) : Nat :=
  let r := bs.foldl (fun (p : Nat × Nat) (b : Byte) => let a := (p.1 + b.toNat) % 65521; (a, (p.2 + a) % 65521)) (1, 0)
  r.2 * 65536 + r.1

/-! ### Bits and output -/

/-- Where decoding stands: bits left, bits taken, the output newest byte first, and how many bytes that is. -/
structure Inf where
  bits : List Bool
  pos : Nat := 0
  out : List Byte := []
  count : Nat := 0
  deriving DecidableEq, Repr

/-- Why decoding ends: the stream's last block has ended, the next byte finds no room, the input has ended, or a reason of R409. -/
inductive InfEnd where
  | done | full | starved | bad (reason : Nat)
  deriving DecidableEq, Repr

/-- What a decoder answers: where it stands, and its end if it has one. -/
abbrev InfStep := Inf × Option InfEnd

/-- Bytes as bits, least significant first. -/
def bitsOf (bs : Bytes) : List Bool := (bs.map (fun b => (List.range 8).map (fun i => b.getLsbD i))).flatten

/-- `n` bits as a number, first bit least significant. -/
def Inf.take : Nat → Inf → Option (Nat × Inf)
  | 0, x => some (0, x)
  | n + 1, x => match x.bits with
    | [] => none
    | b :: bs => (Inf.take n { x with bits := bs, pos := x.pos + 1 }).map (fun r => (flag b + 2 * r.1, r.2))

/-- Skips to the next byte boundary. -/
def Inf.align (x : Inf) : Inf :=
  let n := (8 - x.pos % 8) % 8
  { x with bits := x.bits.drop n, pos := x.pos + n }

/-- One byte of output. -/
def Inf.put (x : Inf) (b : Byte) : Inf := { x with out := b :: x.out, count := x.count + 1 }

/-- Copies a match as far as there is room. -/
def Inf.copy (dist cap : Nat) : Nat → Inf → InfStep
  | 0, x => (x, none)
  | n + 1, x => if cap ≤ x.count then (x, some .full) else Inf.copy dist cap n (x.put (nth 0 x.out (dist - 1)))

/-- Copies stored bytes as far as there are input and room. -/
def Inf.stored (cap : Nat) : Nat → Inf → InfStep
  | 0, x => (x, none)
  | n + 1, x =>
    match x.take 8 with
    | none => (x, some .starved)
    | some (b, y) => if cap ≤ x.count then (x, some .full) else Inf.stored cap n (y.put (byteOf b))

/-! ### Huffman codes -/

/-- A canonical code: how many codes have each length from 1, and the symbols in order of length, then value. -/
structure Huff where
  counts : List Nat
  syms : List Nat
  deriving DecidableEq, Repr

/-- The canonical code of a list of lengths. -/
def huffOf (lens : List Nat) : Huff :=
  let of := fun (l : Nat) => (lens.zipIdx.filter (fun e => e.1 == l)).map (·.2)
  { counts := (List.range 15).map (fun i => (of (i + 1)).length), syms := ((List.range 15).map (fun i => of (i + 1))).flatten }

/-- What a set of lengths leaves unused of the code space at 15 bits; none when it is over-subscribed. -/
def huffLeft (h : Huff) : Option Nat :=
  h.counts.foldl (fun l c => l.bind (fun n => if 2 * n < c then none else some (2 * n - c))) (some 1)

/-- The set is complete. -/
def Huff.complete (h : Huff) : Bool := huffLeft h == some 0

/-- The set is complete, or is the single-code case: one distance code of one bit, or none. -/
def Huff.distanceOk (h : Huff) : Bool := h.complete || h.syms.isEmpty || (h.syms.length == 1 && h.counts.headD 0 == 1)

/-- Decodes one symbol, a bit at a time. -/
def Huff.walk (syms : List Nat) : List Nat → Nat → Nat → Nat → Inf → Except InfEnd (Nat × Inf)
  | [], _, _, _, _ => .error (.bad 2)
  | c :: cs, code, first, index, x =>
    match x.take 1 with
    | none => .error .starved
    | some (b, y) =>
      let code := code + b
      if code < first + c then .ok (nth 0 syms (index + code - first), y)
      else Huff.walk syms cs (2 * code) (2 * (first + c)) (index + c) y

/-- One symbol of a code. -/
def Huff.sym (h : Huff) (x : Inf) : Except InfEnd (Nat × Inf) := Huff.walk h.syms h.counts 0 0 0 x

/-- Base and extra bits of length codes 257 to 285. -/
def lengthCodes : List (Nat × Nat) :=
  [(3, 0), (4, 0), (5, 0), (6, 0), (7, 0), (8, 0), (9, 0), (10, 0), (11, 1), (13, 1), (15, 1), (17, 1), (19, 2), (23, 2), (27, 2)] ++
  [(31, 2), (35, 3), (43, 3), (51, 3), (59, 3), (67, 4), (83, 4), (99, 4), (115, 4), (131, 5), (163, 5), (195, 5), (227, 5), (258, 0)]

/-- Base and extra bits of a distance code: RFC 1951's and the ten of R408, which go on in the same way. -/
def distanceCode (c : Nat) : Nat × Nat :=
  if c < 4 then (c + 1, 0) else (1 + (2 + c % 2) * 2 ^ (c / 2 - 1), c / 2 - 1)

/-- The symbols of a block, up to its end. -/
def Inf.symbols (l d : Huff) (lovage : Bool) (window cap : Nat) : Nat → Inf → InfStep
  | 0, x => (x, some .starved)
  | k + 1, x =>
    match l.sym x with
    | .error e => (x, some e)
    | .ok (s, y) =>
      if s < 256 then (if cap ≤ y.count then (x, some .full) else Inf.symbols l d lovage window cap k (y.put (byteOf s)))
      else if s = 256 then (y, none)
      else match lengthCodes[s - 257]? with
        | none => (x, some (.bad 2))
        | some (base, extra) =>
          match y.take extra with
          | none => (x, some .starved)
          | some (e, y) =>
            match d.sym y with
            | .error e => (x, some e)
            | .ok (c, y) =>
              match y.take (distanceCode c).2 with
              | none => (x, some .starved)
              | some (f, y) =>
                let dist := (distanceCode c).1 + f
                if (!lovage ∧ 30 ≤ c) ∨ window < dist ∨ y.count < dist then (x, some (.bad 3))
                else match Inf.copy dist cap (base + e) y with
                  | (z, some e) => (z, some e)
                  | (z, none) => Inf.symbols l d lovage window cap k z

/-- The order of the code-length codes (RFC 1951). -/
def codeLengthOrder : List Nat := [16, 17, 18, 0, 8, 7, 9, 6, 10, 5, 11, 4, 12, 3, 13, 2, 14, 1, 15]

/-- `n` numbers of `w` bits. -/
def Inf.takeMany (w : Nat) : Nat → Inf → Option (List Nat × Inf)
  | 0, x => some ([], x)
  | n + 1, x => (x.take w).bind (fun r => (Inf.takeMany w n r.2).map (fun q => (r.1 :: q.1, q.2)))

/-- The code lengths of a dynamic block, newest first, until there are `total`. -/
def Inf.lengths (h : Huff) (total : Nat) : Nat → List Nat → Inf → Except InfEnd (List Nat × Inf)
  | 0, _, _ => .error .starved
  | k + 1, acc, x =>
    if acc.length = total then .ok (acc.reverse, x)
    else if total < acc.length then .error (.bad 2)
    else match h.sym x with
      | .error e => .error e
      | .ok (s, y) =>
        if s < 16 then Inf.lengths h total k (s :: acc) y
        else
          let bits := if s = 16 then 2 else if s = 17 then 3 else 7
          match y.take bits, s == 16 && acc.isEmpty with
          | none, _ => .error .starved
          | some (n, z), first =>
            if first then .error (.bad 2)
            else Inf.lengths h total k (List.replicate (n + (if s = 18 then 11 else 3)) (if s = 16 then acc.headD 0 else 0) ++ acc) z

/-- The two codes of a dynamic block (RFC 1951 section 3.2.7, which lets DEFLATE name 32 distance codes, and R408). -/
def Inf.codes (lovage : Bool) (x : Inf) : Except InfEnd (Huff × Huff × Inf) :=
  match (x.take 5).bind (fun a => (a.2.take (if lovage then 6 else 5)).bind (fun b => (b.2.take 4).map (fun c => (a.1, b.1, c.1, c.2)))) with
  | none => .error .starved
  | some (hlit, hdist, hclen, y) =>
    if 29 < hlit ∨ (lovage ∧ 39 < hdist) then .error (.bad 2)
    else match Inf.takeMany 3 (hclen + 4) y with
      | none => .error .starved
      | some (ls, z) =>
        let at' := fun (i : Nat) => ((codeLengthOrder.zip ls).find? (fun e => e.1 == i)).elim 0 (·.2)
        let h := huffOf ((List.range 19).map at')
        if !h.complete then .error (.bad 2)
        else match Inf.lengths h (hlit + 257 + hdist + 1) (z.bits.length + 2) [] z with
          | .error e => .error e
          | .ok (lens, w) =>
            let l := huffOf (lens.take (hlit + 257))
            let d := huffOf (lens.drop (hlit + 257))
            if !l.complete ∨ !d.distanceOk then .error (.bad 2) else .ok (l, d, w)

/-- The fixed codes of DEFLATE. -/
def fixedCodes : Huff × Huff :=
  (huffOf (List.replicate 144 8 ++ List.replicate 112 9 ++ List.replicate 24 7 ++ List.replicate 8 8), huffOf (List.replicate 32 5))

/-- A stored block after its header (R408, RFC 1951). -/
def Inf.storedBlock (lovage : Bool) (cap : Nat) (x : Inf) : InfStep :=
  let x := x.align
  if lovage then
    match x.take 32 with
    | none => (x, some .starved)
    | some (n, y) => if n = 0 ∨ 1048576 < n then (x, some (.bad 4)) else Inf.stored cap n y
  else
    match (x.take 16).bind (fun a => (a.2.take 16).map (fun b => (a.1, b.1, b.2))) with
    | none => (x, some .starved)
    | some (n, m, y) => if n + m ≠ 65535 then (x, some (.bad 4)) else Inf.stored cap n y

/-- A block after its header bits. -/
def Inf.block (lovage : Bool) (window cap ty : Nat) (x : Inf) : InfStep :=
  let coded := fun (l d : Huff) (y : Inf) => Inf.symbols l d lovage window cap (y.bits.length + 1) y
  let dynamic := match Inf.codes lovage x with
    | .error e => (x, some e)
    | .ok (l, d, y) => coded l d y
  match ty with
  | 0 => Inf.storedBlock lovage cap x
  | 1 => if lovage then dynamic else coded fixedCodes.1 fixedCodes.2 x
  | 2 => if lovage then (x, some (.bad 2)) else dynamic
  | _ => (x, some (.bad 2))

/-- The blocks of a stream. -/
def Inf.blocks (lovage : Bool) (window cap : Nat) : Nat → Inf → Inf × InfEnd
  | 0, x => (x, .starved)
  | k + 1, x =>
    match (x.take 1).bind (fun a => (a.2.take 2).map (fun b => (a.1, b.1, b.2))) with
    | none => (x, .starved)
    | some (last, ty, y) =>
      match Inf.block lovage window cap ty y with
      | (z, some e) => (z, e)
      | (z, none) => if last = 1 then (z, .done) else Inf.blocks lovage window cap k z

/-! ### Wrappers (R406, R407) -/

/-- What a header gives: its length and the window, or an end. -/
abbrev HeaderRes := Except InfEnd (Nat × Nat)

/-- The zlib header. -/
def zlibHeader (b : Bytes) : HeaderRes :=
  if b.length < 2 then .error .starved
  else
    let c := byteAt b 0
    if c % 16 ≠ 8 ∨ 7 < c / 16 ∨ bit (byteAt b 1) 5 ∨ (c * 256 + byteAt b 1) % 31 ≠ 0 then .error (.bad 1)
    else .ok (2, 2 ^ (c / 16 + 8))

/-- A zero-terminated field: the offset after it. -/
def afterZero (b : Bytes) (off : Nat) : Option Nat := ((b.drop off).findIdx? (fun c => c == 0)).map (fun i => off + i + 1)

/-- The gzip header (RFC 1952). -/
def gzipHeader (b : Bytes) : HeaderRes :=
  if b.length < 10 then .error .starved
  else
    let flg := byteAt b 3
    if slice b 0 3 ≠ [0x1F, 0x8B, 0x08] ∨ 32 ≤ flg then .error (.bad 1)
    else
      let extra := if !bit flg 2 then some 10 else if b.length < 12 then none else some (12 + leAt b 10 2)
      let name := extra.bind (fun o => if bit flg 3 then afterZero b o else some o)
      let comment := name.bind (fun o => if bit flg 4 then afterZero b o else some o)
      match comment with
      | none => .error .starved
      | some o =>
        if !bit flg 1 then (if b.length < o then .error .starved else .ok (o, 32768))
        else if b.length < o + 2 then .error .starved
        else if leAt b o 2 ≠ (crc32 (b.take o)).toNat % 65536 then .error (.bad 1)
        else .ok (o + 2, 32768)

/-- The Lovage header (R407). -/
def lovageHeader (b : Bytes) : HeaderRes :=
  if b.length < 16 then .error .starved
  else
    let w := field (leAt b 5 1) 3 0
    if slice b 0 5 ≠ [0x4C, 0x58, 0x4C, 0x56, 0x01] ∨ w < 15 ∨ 20 < w ∨ leAt b 5 3 / 16 ≠ 0 ∨ 2 ^ 40 < leAt b 8 8 then .error (.bad 1)
    else .ok (16, 2 ^ w)

/-- The header of a format. -/
def streamHeader (format : Nat) (b : Bytes) : HeaderRes :=
  match format with
  | 0 => .ok (0, 32768)
  | 1 => zlibHeader b
  | 2 => gzipHeader b
  | _ => lovageHeader b

/-- The trailer of a format over the data (R406, R407). -/
def streamTrailer (format : Nat) (data : Bytes) : Bytes :=
  match format with
  | 0 => []
  | 1 => beBytes 4 (adler32 data)
  | 2 => leBytes 4 (crc32 data).toNat ++ leBytes 4 (data.length % 2 ^ 32)
  | _ => leBytes 4 (crc32c data).toNat

/-- What decoding a stream from its start gives: the output, the input bytes used, and the end; `bad 0` is a disagreement with
the declared length. -/
structure Decoded where
  out : Bytes
  used : Nat
  stop : InfEnd
  /-- the stream's declared length, when its header gives one (R414). -/
  decl : Option Nat := none
  deriving DecidableEq, Repr

/-- The declared length in force (R414): ULEN for Lovage, DECL_LEN when it is not 0. -/
def declaredOf (format declLen : Nat) (b : Bytes) : Option Nat :=
  if format = 3 then (if b.length < 16 then none else some (leAt b 8 8)) else if declLen = 0 then none else some declLen

/-- Decodes a stream from its start with room for `room` bytes in all (R409, R414, R416). The declared length rules over the
room; the trailer is checked only when the data have the declared length. -/
def decodeStream (format declLen room : Nat) (b : Bytes) : Decoded :=
  match streamHeader format b with
  | .error e => { out := [], used := (if e = .starved then b.length else 0), stop := e }
  | .ok (n, window) =>
    let decl := declaredOf format declLen b
    let cap := match decl with | some d => Nat.min d room | none => room
    let bits := bitsOf (b.drop n)
    let r := Inf.blocks (format == 3) window cap (bits.length + 1) { bits := bits }
    let out := r.1.out.reverse
    let used := n + ceilDiv r.1.pos 8
    let tooLong := match decl with | some d => decide (d ≤ room) | none => false
    let short := match decl with | some d => out.length != d | none => false
    match r.2 with
    | .full => { out := out, used := used, stop := if tooLong then .bad 0 else .full, decl := decl }
    | .starved => { out := out, used := b.length, stop := .starved, decl := decl }
    | .bad k => { out := out, used := used, stop := .bad k, decl := decl }
    | .done =>
      let t := streamTrailer format out
      if short then { out := out, used := used, stop := .bad 0, decl := decl }
      else if b.length < used + t.length then { out := out, used := b.length, stop := .starved, decl := decl }
      else if slice b used t.length ≠ t then { out := out, used := used + t.length, stop := .bad 5, decl := decl }
      else { out := out, used := used + t.length, stop := .done, decl := decl }

end Sys2Proof.Machine
end

