-- ==== Sys2Proof/Machine/Deflate.lean ====
section
/-! DEFINITION. The compressor: match finding, the choice of a block's form, and the words of a stream (R406 to R408, R410, R412, R416). -/

namespace Sys2Proof.Machine

/-! ### Match finding (R410) -/

/-- A symbol of a block: a literal byte, or a match of some length at some distance. -/
inductive Token where
  | lit (b : Byte)
  | copy (len dist : Nat)
  deriving DecidableEq, Repr

/-- What a job's match finder is set to (R406, R410, R419): the window, how many candidates of a chain it follows, and LAZY. -/
structure Finder where
  window : Nat
  depth : Nat
  lazy : Bool
  deriving DecidableEq, Repr

/-- The chain that the three bytes at a position belong to, among 65,536. -/
def chainOf (input : Bytes) (p : Nat) : BitVec 16 := Config.chainHash (BitVec.ofNat 24 (leAt input p 3))

/-- The distances of the candidates of a position: earlier positions of its chain within the window, nearest first, as many as the depth. -/
def Finder.candidates (m : Finder) (input : Bytes) (p : Nat) : List Nat :=
  (((List.range (Nat.min p m.window)).map (· + 1)).filter (fun d => chainOf input (p - d) == chainOf input p)).take m.depth

/-- How many bytes from a position, at most `n`, equal those `d` bytes before. -/
def sameRun (input : Bytes) (d : Nat) : Nat → Nat → Nat
  | 0, _ => 0
  | n + 1, p => if nth 0 input p = nth 0 input (p - d) then sameRun input d n (p + 1) + 1 else 0

/-- The match at a position of a block that ends at `stop`: the longest of 3 to 258 bytes, the nearest among equals. -/
def Finder.longest (m : Finder) (input : Bytes) (p stop : Nat) : Option (Nat × Nat) :=
  if stop < p + 3 then none
  else
    let best := (m.candidates input p).foldl (fun (b : Nat × Nat) d =>
      let n := sameRun input d (Nat.min 258 (stop - p)) p
      if b.1 < n then (n, d) else b) (0, 0)
    if best.1 < 3 then none else some best

/-- LAZY defers a match of some length: the next position holds a longer one. -/
def Finder.defers (m : Finder) (input : Bytes) (p stop len : Nat) : Bool :=
  m.lazy && (match m.longest input (p + 1) stop with | some b => decide (len < b.1) | none => false)

/-- The symbols of a block from a position to its end. -/
def Finder.tokens (m : Finder) (input : Bytes) (stop : Nat) : Nat → Nat → List Token
  | 0, _ => []
  | n + 1, p =>
    if stop ≤ p then []
    else match m.longest input p stop with
      | none => .lit (nth 0 input p) :: m.tokens input stop n (p + 1)
      | some (len, dist) =>
        if m.defers input p stop len then .lit (nth 0 input p) :: m.tokens input stop n (p + 1)
        else .copy len dist :: m.tokens input stop n (p + len)

/-! ### Code words (R408, RFC 1951) -/

/-- The low `n` bits of a number, least significant first. -/
def lowBits (n v : Nat) : List Bool := (List.range n).map (fun i => v.testBit i)

/-- The first code of a length in a canonical code. -/
def firstCode (lens : List Nat) : Nat → Nat
  | 0 => 0
  | l + 1 => 2 * (firstCode lens l + (if l = 0 then 0 else lens.count l))

/-- The code of a symbol in a canonical code, most significant bit first. -/
def symbolBits (lens : List Nat) (sym : Nat) : List Bool :=
  let l := nth 0 lens sym
  (lowBits l (firstCode lens l + (lens.take sym).count l)).reverse

/-- The place of a match length among the length codes. -/
def lengthPlace (len : Nat) : Nat := (lengthCodes.filter (fun e => decide (e.1 ≤ len))).length - 1

/-- The distance code of a distance. -/
def distancePlace (dist : Nat) : Nat := ((List.range 40).filter (fun c => decide ((distanceCode c).1 ≤ dist))).length - 1

/-- The literal or length symbol of a token. -/
def Token.sym : Token → Nat
  | .lit b => b.toNat
  | .copy len _ => 257 + lengthPlace len

/-- The word of a token: a match's length code, distance code and extra bits are one (R416). -/
def Token.word (lit dist : List Nat) : Token → List Bool
  | .lit b => symbolBits lit b.toNat
  | .copy len d =>
    let l := nth (0, 0) lengthCodes (lengthPlace len)
    let c := distanceCode (distancePlace d)
    symbolBits lit (257 + lengthPlace len) ++ lowBits l.2 (len - l.1) ++ symbolBits dist (distancePlace d) ++ lowBits c.2 (d - c.1)

/-- How often each literal or length symbol occurs in a block, its end among them. -/
def litCounts (ts : List Token) : List Nat := (List.range 286).map (fun s => ts.countP (fun t => t.sym == s) + flag (s == 256))

/-- How often each distance code occurs in a block. -/
def distCounts (ts : List Token) : List Nat :=
  (List.range 40).map (fun c => ts.countP (fun t => match t with | .lit _ => false | .copy _ d => distancePlace d == c))

/-- Code lengths of at most 15 bits, built from a block's symbol counts (R410, log 5). -/
def builtLengths (counts : List Nat) : List Nat := (Config.huffmanLengths counts).map (fun l => Nat.min l 15)

/-! ### Blocks (R408, R410, RFC 1951) -/

/-- What is written without a break when the output is full (R416): words of bits, in order. -/
abbrev Words := List (List Bool)

/-- How many bits some words have. -/
def Words.size (ws : Words) : Nat := ws.flatten.length

/-- Bytes as words. -/
def byteWords (bs : Bytes) : Words := bs.map (fun b => bitsOf [b])

/-- Zero bits up to the next byte boundary behind `pos` bits. -/
def padBits (pos : Nat) : List Bool := List.replicate ((8 - pos % 8) % 8) false

/-- The words of a block with two codes. -/
def codedWords (kind : List Bool) (head : Words) (lit dist : List Nat) (ts : List Token) : Words :=
  [kind] ++ head ++ ts.map (Token.word lit dist) ++ [symbolBits lit 256]

/-- A stored block behind `pos` bits: its header, zero bits to a byte boundary, its length and its data. -/
def storedWords (format pos : Nat) (last : Bool) (data : Bytes) : Words :=
  let n := data.length
  [[last, false, false], padBits (pos + 3)] ++
    byteWords ((if format = 3 then leBytes 4 n else leBytes 2 n ++ leBytes 2 (65535 - n)) ++ data)

/-- A block with codes of its own. -/
def dynamicWords (format : Nat) (last : Bool) (ts : List Token) : Words :=
  let lit := builtLengths (litCounts ts)
  let dist := builtLengths (distCounts ts)
  codedWords (if format = 3 then [last, true, false] else [last, false, true]) (Config.codeHeader (format == 3) lit dist) lit dist ts

/-- The code lengths of the fixed codes. -/
def fixedLengths : List Nat := List.replicate 144 8 ++ List.replicate 112 9 ++ List.replicate 24 7 ++ List.replicate 8 8

/-- A block with the fixed codes of DEFLATE. -/
def fixedWords (last : Bool) (ts : List Token) : Words := codedWords [last, true, false] [] fixedLengths (List.replicate 32 5) ts

/-- The form a block takes behind `pos` bits (R410): the shortest, stored before fixed before dynamic; Lovage has no fixed code. -/
def chosenWords (format pos : Nat) (last : Bool) (data : Bytes) (ts : List Token) : Words :=
  let dynamic := dynamicWords format last ts
  let fixed := fixedWords last ts
  let coded := if format ≠ 3 ∧ fixed.size ≤ dynamic.size then fixed else dynamic
  let stored := storedWords format pos last data
  if stored.size ≤ coded.size then stored else coded

/-! ### Streams (R406, R407, R410, R412, R416, R417) -/

/-- Input bytes of a block. -/
def blockBytes : Nat := 32768

/-- The match finder of a job (R406, R407, R410). -/
def CmpCtx.finder (c : CmpCtx) : Finder :=
  { window := if c.format = 3 then 2 ^ c.windowLog else 32768, depth := c.depth, lazy := c.lazy }

/-- Block `k` of a job behind `pos` bits: stored from the block whose verification failed on (R412). -/
def CmpCtx.block (c : CmpCtx) (input : Bytes) (last : Bool) (k pos : Nat) : Words :=
  let data := (input.drop (blockBytes * k)).take blockBytes
  if c.fallback.any (· ≤ k) then storedWords c.format pos last data
  else chosenWords c.format pos last data (c.finder.tokens input (blockBytes * k + data.length) data.length (blockBytes * k))

/-- `n` blocks of a job from block `k`, behind `pos` bits; the last one ends a stream that is `final`. -/
def CmpCtx.blocksFrom (c : CmpCtx) (input : Bytes) (final : Bool) : Nat → Nat → Nat → List Words
  | 0, _, _ => []
  | n + 1, k, pos =>
    let b := c.block input (final && n == 0) k pos
    b :: c.blocksFrom input final n (k + 1) (pos + b.size)

/-- The header that a compressor writes (R406, R407, R413). -/
def cmpHeader (c : CmpCtx) : Bytes :=
  match c.format with
  | 0 => []
  | 1 => [0x78, 0x9C]
  | 2 => [0x1F, 0x8B, 0x08, 0, 0, 0, 0, 0, 0, 0xFF]
  | _ => [0x4C, 0x58, 0x4C, 0x56, 0x01, byteOf c.windowLog, 0, 0] ++ leBytes 8 c.declLen

/-- The blocks that a job codes over its input so far: all, or, while more input may follow, all but the one that might be the last (R417,
log 5). -/
def blockCount (len : Nat) (final : Bool) : Nat := if final then Nat.max 1 (ceilDiv len blockBytes) else (len - 1) / blockBytes

/-- The blocks of a job over its input so far. -/
def CmpCtx.blocks (c : CmpCtx) (input : Bytes) (final : Bool) : List Words :=
  c.blocksFrom input final (blockCount input.length final) 0 (8 * (cmpHeader c).length)

/-- The end of a final stream behind `pos` bits: zero bits to a byte boundary, and the trailer. -/
def endWords (format pos : Nat) (data : Bytes) : Words := [padBits pos] ++ byteWords (streamTrailer format data)

/-- The stream of a job over its input so far, as words. -/
def CmpCtx.stream (c : CmpCtx) (input : Bytes) (final : Bool) : Words :=
  let body := byteWords (cmpHeader c) ++ (c.blocks input final).flatten
  if final then body ++ endWords c.format body.size input else body

/-- The words that fit in `n` bits. -/
def fitting : Nat → Words → Words
  | _, [] => []
  | n, w :: ws => if w.length ≤ n then w :: fitting (n - w.length) ws else []

/-- How many blocks are begun when the output holds `n` bits: those that fit, and the one after them. -/
def begunBlocks : Nat → List Words → Nat
  | _, [] => 0
  | n, b :: bs => if b.size ≤ n then begunBlocks (n - b.size) bs + 1 else 1

/-- Bits packed into bytes, least significant first; a byte not filled waits (R407, R416). -/
def packBits (bits : List Bool) : Bytes :=
  ((chunksOf 8 bits).filter (fun c => c.length == 8)).map (fun c => byteOf (c.foldr (fun b n => flag b + 2 * n) 0))

end Sys2Proof.Machine
end

