-- ==== Sys2Proof/Machine/Cpe.lean ====
section
/-! DEFINITION. The cipher engine: the request entry, the shared queue, dispatch, slices, completions, randomness and the
privileged pages (R353 to R383, R395 to R404). -/

namespace Sys2Proof.Machine

/-! ### The entry (R362) -/

/-- MODE. -/
def ceMode (n : Nat) : Nat := field n 2 0
/-- DECRYPT. -/
def ceDecrypt (n : Nat) : Bool := bit n 3
/-- URGENT. -/
def ceUrgent (n : Nat) : Bool := bit n 4
/-- RELEASE_EARLY. -/
def ceEarly (n : Nat) : Bool := bit n 5
/-- VERDICT_EN. -/
def ceVerdict (n : Nat) : Bool := bit n 6
/-- KEY_KIND. -/
def ceKind (n : Nat) : Nat := field n 9 8
/-- KEY_SLOT. -/
def ceSlot (n : Nat) : Nat := field n 23 12
/-- FUNC. -/
def ceFunc (n : Nat) : Nat := field n 31 24
/-- GEN. -/
def ceGen (n : Nat) : Nat := field n 39 32
/-- EPOCH. -/
def ceEpoch (n : Nat) : BitVec 16 := BitVec.ofNat 16 (field n 63 48)
/-- LENGTH. -/
def ceLength (n : Nat) : Nat := field n 95 64
/-- AAD_LEN. -/
def ceAad (n : Nat) : Nat := field n 111 96
/-- TAG_LEN. -/
def ceTagLen (n : Nat) : Nat := field n 116 112
/-- VERDICT_CH. -/
def ceVerdictCh (n : Nat) : Nat := field n 127 120
/-- SRC. -/
def ceSrc (n : Nat) : Nat := field n 159 128
/-- DST. -/
def ceDst (n : Nat) : Nat := field n 191 160
/-- IV, first byte at bit 192. -/
def ceIv (n : Nat) : Nat := field n 319 192
/-- TAG. -/
def ceTag (n : Nat) : Nat := field n 447 320
/-- Bytes the request writes when it succeeds. -/
def ceOut (n : Nat) : Nat := ceLength n - ceAad n
/-- A GCM decryption, which holds its output (R370). -/
def ceHolds (n : Nat) : Bool := ceMode n == 1 && ceDecrypt n
/-- A GCM decryption that writes before its tag check (R371). -/
def ceReleases (n : Nat) : Bool := ceHolds n && ceEarly n && decide (262144 < ceOut n)

/-- The entry breaks no rule of R362 and R366 for its submitter: 0 media path, 1 SAE, 2 cox pair C, 3 to 6 the scull ports,
16 to 19 the privileged pages. A set bit in a field that R362 lists as reserved is read as one of its reserved values, where R9 by
itself would have it ignored (log 107). -/
def entryOk (submitter n : Nat) : Bool :=
  let m := ceMode n
  let spl := 50331648
  decide (m ≤ 4) && !bit n 7 && decide (ceKind n ≤ 2) && field n 11 10 == 0 &&
    (ceKind n != 1 || (ceSlot n == 0 && (submitter == 0 || submitter == 17))) &&
    (ceKind n != 2 || (field n 23 14 == 0 && decide (16 ≤ submitter))) &&
    (m == 4 || field n 47 40 == 0) && decide (1 ≤ ceLength n ∧ ceLength n ≤ 67108864) &&
    (m == 1 || (ceAad n == 0 && ceTagLen n == 0)) && field n 119 117 == 0 && (ceVerdict n || ceVerdictCh n == 0) &&
    decide (ceSrc n + ceLength n ≤ spl ∧ ceDst n + ceOut n ≤ spl) &&
    (match m with
      | 0 => ceLength n % 4096 == 0 && ceTag n == 0
      | 1 => decide (12 ≤ ceTagLen n ∧ ceTagLen n ≤ 16 ∧ ceAad n ≤ ceLength n) &&
          (if ceDecrypt n then field n 319 288 == 0 && decide (ceTag n < 2 ^ (8 * ceTagLen n)) else ceIv n == 0 && ceTag n == 0) &&
          (!ceReleases n || ceVerdict n)
      | 3 => ceLength n % 16 == 0 && ceTag n == 0
      | _ => ceTag n == 0)

/-! ### Ends of requests (R363, R372) -/

/-- A completion reaches its submitter; a scull port's reply is the ten words of R383, after the reply of the job that moves the
output, where there is one. AUTH_FAIL_RETRACTED waits for the job's JOB_END (R371). -/
def State.cpeDeliver (s : State) (e : CpeEntry) (result bytesOut : Nat) (verdict : Bool) (tag nonce : Bytes) : State :=
  let n := e.entry.toNat
  let user := entryUser e.entry
  let s1 := if result = 0x04 ∧ verdict ∧ s.jobPending (ceVerdictCh n) user then
      { s with cpe := { s.cpe with afterJob := s.cpe.afterJob ++ [(ceVerdictCh n, e, bytesOut)] } }
    else { s with cpe := s.cpe.deliver e result (cpeCompletion user result verdict bytesOut tag nonce) }
  let k := user / 2 ^ 32 % 2 ^ 16
  if e.submitter < 3 ∨ 6 < e.submitter ∨ k = 0 then s1
  else
    let words := fun (b : Bytes) (k : Nat) =>
      if ceMode n = 1 ∧ !ceDecrypt n ∧ result = 0 then (chunksOf 4 (padTo (4 * k) b)).map (fun w => mkWord 2 (leNat w))
      else List.replicate k (mkWord 0 0)
    let reply := [mkWord 1 (user % 2 ^ 32), mkWord 1 result, mkWord 1 bytesOut] ++ words tag 4 ++ words nonce 3
    if 2 ^ 63 ≤ user ∧ result ≠ 0x07 then s1.replyAfterJob (k - 1) user 1 reply else s1.scullReply (k - 1) 1 reply

/-- The verdict of a request (R331, R372): a scull port's request names its own job, and one without a job has nobody to tell, which
is recorded when it fails (R347). -/
def State.cpeVerdict (s : State) (e : CpeEntry) (comp : Nat) (pass : Bool) (bytesOut : Nat) : State :=
  let n := e.entry.toNat
  let ch := ceVerdictCh n
  if !ceVerdict n then s
  else if e.submitter < 3 ∨ 6 < e.submitter then
    (if !pass ∧ bytesOut = 0 then s.upstreamFail ch comp else s.jobVerdict ch pass comp)
  else if 2 ^ 63 ≤ entryUser e.entry then s.jobVerdictFor ch (entryUser e.entry) pass
  else if pass then s
  else s.raiseFrom (engineOf ch) evDmaLateFail (ceFunc n) [(1, ch), (2, comp), (1, ceFunc n)]

/-- A request ends other than DONE: FAIL when output has been written, UPSTREAM_FAIL before that (R372). -/
def State.cpeFail (s : State) (e : CpeEntry) (comp result bytesOut : Nat) : State :=
  let n := e.entry.toNat
  if result = 0x07 then s.cpeDeliver e 0x07 0 false [] []
  else (s.cpeVerdict e comp false bytesOut).cpeDeliver e result bytesOut (ceVerdict n && bytesOut != 0) [] []

/-! ### The shared request queue (R364) -/

/-- Entries of a submitter in the shared queue. -/
def Cpe.queued (c : Cpe) (submitter : Nat) : Nat := c.queue.countP (fun e => e.submitter == submitter)

/-- The shared pool in use. -/
def Cpe.pool (c : Cpe) : Nat := ((List.range 7).map (fun i => c.queued i - 128)).foldl (· + ·) 0

/-- The queue has a place for a submitter. -/
def Cpe.roomFor (c : Cpe) (submitter : Nat) : Bool := decide (c.queued submitter < 128 ∨ c.pool < 1152)

/-- Waiting entries that have a place enter the queue, each submitter's in order. -/
def Cpe.enter : List CpeEntry → List Nat → Cpe → Cpe
  | [], _, c => c
  | e :: es, full, c =>
    if full.contains e.submitter ∨ !c.roomFor e.submitter then
      Cpe.enter es (e.submitter :: full) { c with waiting := c.waiting ++ [e] }
    else Cpe.enter es full { c with queue := c.queue ++ [e] }

/-- An entry joins the queue, or waits when its submitter's reserve and the pool are used up. -/
def Cpe.enqueue (c : Cpe) (e : CpeEntry) : Cpe :=
  if 16 ≤ e.submitter ∨ (c.roomFor e.submitter ∧ c.waiting.all (fun w => w.submitter != e.submitter)) then
    { c with queue := c.queue ++ [e] }
  else { c with waiting := c.waiting ++ [e] }

/-- The mode runs an entry of a submitter (R395). -/
def State.cpeServes (s : State) (submitter : Nat) : Bool :=
  match s.psm.mode with
  | .boot => submitter == 16
  | .drain => submitter == 0 || submitter == 19
  | .safeHalt => (submitter == 0 && s.psm.halt.safeDrain) || submitter == 19
  | m => m.engines

/-- An entry is submitted (R362, R395); in REST it waits in the queue and starts the exit. -/
def State.cpeSubmit (s : State) (submitter : Nat) (entry : BitVec 512) : State :=
  let e : CpeEntry := { submitter := submitter, entry := entry }
  if !s.cpeServes submitter then s.cpeFail e 0x0A11 0x07 0
  else if !entryOk submitter entry.toNat then s.cpeFail e 0x0A11 0x06 0
  else { s with cpe := s.cpe.enqueue e }.wake

/-- CPE_REQUEST (R362, R364): an entry from the shared queue's submitters. -/
def execCpeRequest (submitter : Nat) (entry : BitVec 512) (s : State) : Host.Outcome State Fault Refusal :=
  .next (if 6 < submitter ∨ s.psm.mode = .off ∨ s.psm.mode = .hold then s else s.cpeSubmit submitter entry)

/-! ### Dispatch (R356, R365, R369 to R376) -/

/-- A pipeline. -/
def State.pipe (s : State) (p : Nat) : Pipe := Mem.get {} s.cpe.pipes p
/-- The state with a pipeline set. -/
def State.setPipe (s : State) (p : Nat) (x : Pipe) : State := { s with cpe := { s.cpe with pipes := Mem.set {} s.cpe.pipes p x } }

/-- Hold space a request needs (R370). -/
def CpeEntry.hold (e : CpeEntry) : Nat := if ceHolds e.entry.toNat then Nat.min (ceOut e.entry.toNat) 262144 else 0

/-- Requests in a pipeline's hold buffer and places leave room for an entry (R365, R370), its reseed is not overdue (R377,
R379), and it is not withdrawn. -/
def State.pipeTakes (s : State) (p : Nat) (e : CpeEntry) : Bool :=
  let x := s.pipe p
  !s.psm.halt.withdrawn.contains (.cpe p) && decide (x.drbgBlocks < 2 ^ 24) && decide (x.bound.length < 9) &&
    (ceUrgent e.entry.toNat || decide (x.bound.countP (fun b => !ceUrgent b.entry.toNat) < 8)) &&
    decide ((x.bound.map (·.hold)).foldl (· + ·) 0 + e.hold ≤ 262144)

/-- The pipeline an entry is bound to: the fewest bound requests, then the lowest number. -/
def State.pickPipe (s : State) (e : CpeEntry) : Option Nat :=
  ((List.range 8).filter (fun p => s.pipeTakes p e)).foldl (fun b p => match b with
    | none => some p
    | some q => if (s.pipe p).bound.length < (s.pipe q).bound.length then some p else some q) none

/-- The key that a request selects (R356, R359, R360, R380), or the result it ends with. -/
def State.cpeKey (s : State) (e : CpeEntry) : Except Nat Key :=
  let n := e.entry.toNat
  let need := match ceMode n with | 0 => 4 | 1 => (if ceDecrypt n then 3 else 2) | 2 => 0 | _ => 1
  match ceKind n with
  | 1 => match (s.fn (ceFunc n)).mediaKey with
    | some k => if ceMode n = 0 then .ok { bytes := k, attr := 0 } else .error 0x01
    | none => .error 0x01
  | 2 =>
    let k := Mem.get ([], 0) (Mem.get {} s.cpe.pages (e.submitter - 16)).keys (ceSlot n)
    if k.1.isEmpty ∨ !bit k.2.toNat need then .error 0x01
    else .ok { bytes := k.1.take (if field k.2.toNat 7 6 = 1 then 32 else 16), attr := k.2 }
  | _ =>
    let x := s.slot (ceSlot n)
    match if s.ownsSlot (ceFunc n) (ceSlot n) then (if 16 ≤ e.submitter then x.key else x.keyFor (ceEpoch n)) else none with
    | none => .error 0x01
    | some k =>
      if k.locked then .error 0x02
      else if !bit k.attr.toNat need then .error 0x01
      else .ok k

/-- The counter value a GCM encryption takes from a slot (R373, R375, R376): the slot locks at its last value, and the mark
rises before the counter passes it. -/
def State.takeNonce (s : State) (f slot : Nat) (useOld : Bool) (k : Key) : Bytes × State :=
  let x := s.slot slot
  let k1 : Key := { k with counter := k.counter + 1, locked := k.counter + 1 == 2 ^ 64 - 1 }
  let mark := if x.mark ≤ k.counter then x.mark + 65536 else x.mark
  let x1 := match useOld, x.staged with
    | true, some (big, _) => { x with staged := some (big, some k1), mark := mark }
    | _, _ => { x with key := some k1, mark := mark }
  let s1 := s.setSlot slot x1
  (beBytes 4 k.fixed.toNat ++ beBytes 8 k.counter,
    if k1.locked then s1.raise evSlotNonceLocked f [(1, f), (2, slot)] else s1)

/-- The IV of a request bound with key `k`: generated for GCM encryption (a page key has no counter, and its IV is free, log
51), and otherwise the entry's. -/
def State.bindNonce (s : State) (e : CpeEntry) (k : Key) : Bytes × State :=
  let n := e.entry.toNat
  if ceMode n = 1 ∧ !ceDecrypt n then
    if ceKind n = 2 then s.drawBytes 12
    else
      let x := s.slot (ceSlot n)
      let old := decide (e.submitter < 16) && (match x.staged with | some (big, _) => epochBefore (ceEpoch n) big | none => false)
      s.takeNonce (ceFunc n) (ceSlot n) old k
  else if ceMode n = 1 then (leBytes 12 (ceIv n), s)
  else (leBytes 16 (ceIv n), s)

/-- The result a waiting entry ends with at dispatch, if any (R356, R370, R400). -/
def State.dispatchEnd (s : State) (e : CpeEntry) : Option Nat :=
  let n := e.entry.toNat
  if s.retired (ceFunc n) (ceGen n) ∧ e.submitter < 16 then some 0x07
  else match s.cpeKey e with
    | .error r => some r
    | .ok _ => if ceHolds n ∧ !ceEarly n ∧ 262144 < ceOut n then some 0x09 else none

/-- Urgent requests run before normal ones, in the order of binding (R369). -/
def Pipe.bind (x : Pipe) (e : CpeEntry) : Pipe :=
  if ceUrgent e.entry.toNat then
    { x with bound := x.bound.filter (fun b => ceUrgent b.entry.toNat) ++ [e] ++ x.bound.filter (fun b => !ceUrgent b.entry.toNat) }
  else { x with bound := x.bound ++ [e] }

/-- The first entry of a list that ends at dispatch or can be bound. -/
def State.nextEntry (s : State) (l : List CpeEntry) : Option CpeEntry :=
  l.find? (fun e => (s.dispatchEnd e).isSome || (s.pickPipe e).isSome)

/-- An entry leaves the queue, and waiting entries take its place. -/
def Cpe.dequeue (c : Cpe) (e : CpeEntry) : Cpe :=
  Cpe.enter c.waiting [] { c with queue := c.queue.erase e, waiting := [] }

/-- CPE_DISPATCH (R365, R395): in REST the pipelines are clock-gated. The first urgent entry that can be bound, else the first normal one, is bound or ends. -/
def execCpeDispatch (s : State) : Host.Outcome State Fault Refusal :=
  .next (
    let urgent := s.cpe.queue.filter (fun e => ceUrgent e.entry.toNat)
    let normal := s.cpe.queue.filter (fun e => !ceUrgent e.entry.toNat)
    if s.psm.mode = .rest then s
    else match s.nextEntry (urgent ++ normal) with
    | none => s
    | some e =>
      let s1 := { s with cpe := s.cpe.dequeue e }
      match s.dispatchEnd e, s.cpeKey e, s.pickPipe e with
      | some r, _, _ => s1.cpeFail e 0x0A11 r 0
      | none, .ok k, some p =>
        let b := s1.bindNonce e k
        b.2.setPipe p ((b.2.pipe p).bind { e with key := k.bytes, nonce := b.1 })
      | _, _, _ => s)

/-! ### Running (R366, R368, R370 to R372, R378) -/

/-- The pipeline has computed every block it may before its reseed (R377, R379): it computes no further block until then. -/
def State.pipeStops (s : State) (p : Nat) : State := s.setPipe p { s.pipe p with drbgBlocks := 2 ^ 24 }

/-- `n` more blocks pass the reseed of a pipeline (R377, R379). -/
def State.reseedDue (s : State) (p n : Nat) : Bool := decide (2 ^ 24 < (s.pipe p).drbgBlocks + n)

/-- CPE_SLICE_END (R368, R398): the running normal request has slices left, and the next normal one takes its turn after any
urgent one. -/
def execCpeSliceEnd (p : Nat) (s : State) : Host.Outcome State Fault Refusal :=
  .next (
    let x := s.pipe p
    let urgent := x.bound.filter (fun b => ceUrgent b.entry.toNat)
    match x.bound.filter (fun b => !ceUrgent b.entry.toNat) with
    | [] => s
    | e :: rest =>
      if ceLength e.entry.toNat ≤ (e.slices + 1) * 65536 then s
      else if s.reseedDue p 4096 then s.pipeStops p
      else s.setPipe p { x with bound := urgent ++ rest ++ [{ e with slices := e.slices + 1 }], drbgBlocks := x.drbgBlocks + 4096 })

/-- The output and the tag of a request over its source (R366). -/
def CpeEntry.run (e : CpeEntry) (src : Bytes) : Bytes × Bytes :=
  let n := e.entry.toNat
  let dec := ceDecrypt n
  match ceMode n with
  | 0 => (aesXts dec e.key (ceIv n) src, [])
  | 1 => (if dec then gcmDec else gcmEnc) e.key e.nonce (src.take (ceAad n)) (src.drop (ceAad n))
  | 2 => (aesCtr e.key e.nonce src, [])
  | 3 => (aesCbc dec e.key e.nonce src, [])
  | _ => (aesCbcs dec e.key e.nonce (field n 43 40) (field n 47 44) src, [])

/-- Output reaches the SPL. -/
def State.cpeWrite (s : State) (e : CpeEntry) (out : Bytes) : State := s.spaceWrite (ceFunc e.entry.toNat) 2 (ceDst e.entry.toNat) out

/-- A request ends early after `done` bytes of its source (R378): what it has not held back has been written. -/
def State.cpeCut (s : State) (p : Nat) (e : CpeEntry) (result done : Nat) : State :=
  let n := e.entry.toNat
  let out := if ceHolds n then (if ceReleases n then (done - ceAad n) / 262144 * 262144 else 0) else done - ceAad n
  let bytes := ((e.run (readBytes s.dmf.spl (ceSrc n) (ceLength n))).1).take out
  (s.cpeWrite e bytes).cpeFail e (0x0A00 + p) result bytes.length

/-- A GCM decryption whose tag does not match (R370, R371). -/
def State.cpeAuthFail (s : State) (p : Nat) (e : CpeEntry) (out : Bytes) : State :=
  let n := e.entry.toNat
  let early := ceReleases n
  let s1 := s.raiseLimited evAuthTagFail (ceFunc n) (0x0A00 + p) [(1, ceFunc n), (2, ceSlot n), (1, if early then 2 else 1)]
  if early then
    let bytes := out.take (out.length / 262144 * 262144)
    (s1.cpeWrite e bytes).cpeFail e (0x0A00 + p) 0x04 bytes.length
  else s1.cpeFail e (0x0A00 + p) 0x03 0

/-- A request runs to its end (R370 to R372). -/
def State.cpeRan (s : State) (p : Nat) (e : CpeEntry) : State :=
  let n := e.entry.toNat
  let r := e.run (readBytes s.dmf.spl (ceSrc n) (ceLength n))
  if ceHolds n ∧ r.2.take (ceTagLen n) ≠ leBytes (ceTagLen n) (ceTag n) then s.cpeAuthFail p e r.1
  else
    let s1 := s.cpeWrite e r.1
    let s2 := s1.cpeVerdict e (0x0A00 + p) true r.1.length
    s2.cpeDeliver e 0x00 r.1.length (ceVerdict n) (if ceHolds n then [] else r.2.take (ceTagLen n))
      (if ceMode n = 1 ∧ !ceDecrypt n then e.nonce else [])

/-- A parity mismatch (R378): every request on the pipeline ends, the fault is recorded and the pipeline withdrawn. -/
def State.cpeParity (s : State) (p : Nat) (e : CpeEntry) (block : Nat) : State :=
  let n := e.entry.toNat
  let x := s.pipe p
  let s1 := s.setPipe p { x with bound := [] }
  let s2 := x.bound.tail.foldl (fun s b => s.cpeCut p b 0x05 (b.slices * 65536)) (s1.cpeCut p e 0x05 (16 * block))
  let seq := s2.recd.next
  (s2.raiseFrom (0x0A00 + p) evCpeParityFault (ceFunc n)
    [(1, p), (1, ceFunc n), (1, ceMode n), (4, block), (4, x.bound.length)]).withdraw (.cpe p) evCpeParityFault.code seq

/-- A unit of the request fails its tag check on the plaintext side (R26, R27): the report names no namespace, since the entry names
none, and the request ends with SRC_ERROR before it writes (log 106). -/
def State.cpeBadTag (s : State) (p : Nat) (e : CpeEntry) (unitNo : Nat) : State :=
  (s.reportTag (0x0A00 + p) (ceFunc e.entry.toNat) 0 unitNo).cpeFail e (0x0A00 + p) 0x08 0

/-- CPE_REQUEST_COMPLETE (R363, R378, R399, R400): the running request of a pipeline ends. An uncorrectable SPL word ends it
where it lies; one that only the row reports ends it after a number of bytes the model leaves open (log 51). A request that passes the
pipeline's reseed waits for it (R379). -/
def execCpeRequestComplete (p : Nat) (r : CpeOutcome) (s : State) : Host.Outcome State Fault Refusal :=
  .next (
    let x := s.pipe p
    match x.bound with
    | [] => s
    | e :: rest =>
      let n := e.entry.toNat
      let blocks := ceilDiv (ceLength n - e.slices * 65536) 16
      let s1 := s.setPipe p { x with bound := rest, drbgBlocks := Nat.min (x.drbgBlocks + blocks) (2 ^ 24) }
      if s.retired (ceFunc n) (ceGen n) ∧ e.submitter < 16 then s1.cpeFail e 0 0x07 0
      else match r with
        | .parity block => s.cpeParity p e (Nat.min block (ceLength n / 16))
        | .srcError =>
          let d := s1.draw 32
          let k := d.1.toNat % ceLength n
          (d.2.splError (ceSrc n + k)).cpeCut p e 0x08 k
        | .tagMismatch unitNo => s1.cpeBadTag p e unitNo
        | .ran =>
          if s.reseedDue p blocks then s.pipeStops p
          else if (s.splRead (ceSrc n) (ceLength n)).isNone then
            let k := s.splBadAt (ceSrc n) (ceLength n)
            (s1.splError (ceSrc n + k)).cpeCut p e 0x08 k
          else s1.cpeRan p e)

/-! ### Randomness (R377, R379) -/

/-- DRBG_RESEED (R377, R379): a reseed is granted while the noise source's tests pass. -/
def execDrbgReseed (p : Nat) (healthy : Bool) (s : State) : Host.Outcome State Fault Refusal :=
  .next (if 8 ≤ p then s
    else
      let s1 := { s with cpe := { s.cpe with rngFailed := !healthy } }
      if healthy then s1.setPipe p { s1.pipe p with drbgBlocks := 0 } else s1)

/-- RNG_HEALTH_FAIL (R379): a reseed has been due for 1 ms while the tests fail. -/
def execRngHealthFail (test : Nat) (s : State) : Host.Outcome State Fault Refusal :=
  .next (
    let stopped := (List.range 8).filter (fun p => decide (2 ^ 24 ≤ (s.pipe p).drbgBlocks))
    if !s.cpe.rngFailed then s
    else s.dangerHalt evRngHealthFail 0x0A12 [(2, test), (1, (stopped.map (2 ^ ·)).foldl (· + ·) 0)] false)

/-! ### Privileged pages (R380, R381) -/

/-- An access by another master is recorded and ends in SAFE-HALT (R381, R544). -/
def State.pageBreach (s : State) (page identity offset : Nat) : State :=
  s.dangerHalt evPageViolation (0x0A20 + page) [(1, page), (2, identity), (2, offset)] false

/-- An access to a page: refused silently on a closed page 0, a breach from another master (R381). Identity `k` is the owner
of page `k` (log 52). -/
def State.pageAccess (s : State) (page identity offset : Nat) (body : State → State) : State :=
  if 4 ≤ page ∨ s.psm.mode = .off ∨ s.psm.mode = .hold then s
  else if identity ≠ page then s.pageBreach page identity offset
  else if page = 0 ∧ s.cpe.page0Closed then s
  else body s

/-- The state with a page changed. -/
def State.updPage (s : State) (page : Nat) (g : Page → Page) : State :=
  { s with cpe := { s.cpe with pages := Mem.upd {} s.cpe.pages page g } }

/-- A page's entry register as 512 bits. -/
def Page.entryBits (x : Page) : BitVec 512 :=
  BitVec.ofNat 512 (((List.range 8).map (fun i => (Mem.get 0 x.entry i).toNat * 2 ^ (64 * i))).foldl (· + ·) 0)

/-- CPE_PG_GO (R369, R380): the entry is submitted as an urgent request; ignored while BUSY. -/
def execCpePgGo (page identity : Nat) (s : State) : Host.Outcome State Fault Refusal :=
  .next (s.pageAccess page identity 0x040 (fun s =>
    let x := Mem.get {} s.cpe.pages page
    if x.busy then s
    else (s.updPage page (fun y => { y with busy := true, done := false })).cpeSubmit (16 + page) (x.entryBits ||| 0x10)))

/-- CPE_PG_KEY (R380): a page key is written, at the end of the request in progress where there is one. -/
def execCpePgKey (page k identity : Nat) (key : Bytes) (attr : BitVec 16) (s : State) : Host.Outcome State Fault Refusal :=
  .next (s.pageAccess page identity (0x100 + 0x40 * k) (fun s =>
    if 4 ≤ k then s
    else s.updPage page (fun y =>
      if y.busy then { y with late := y.late ++ [(k, padTo 32 key, attr)] }
      else { y with keys := Mem.set ([], 0) y.keys k (padTo 32 key, attr) })))

/-- PAGE_VIOLATION (R381): a privileged page is accessed by another master. -/
def execPageViolation (page identity offset : Nat) (s : State) : Host.Outcome State Fault Refusal :=
  .next (if identity = page then s else s.pageAccess page identity offset id)

end Sys2Proof.Machine
end

