-- ==== Sys2Proof/Machine/Dge.lean ====
section
/-! DEFINITION. The digest engine: context windows, messages, comparisons and context switches (R384 to R393). -/

namespace Sys2Proof.Machine

/-! ### DGE_CTX_CFG (R386) and DGE_CTX_STATUS (R388) -/

/-- ALG. -/
def dgAlg (n : Nat) : Nat := field n 1 0
/-- KEYED. -/
def dgKeyed (n : Nat) : Bool := bit n 2
/-- KEY_KIND. -/
def dgKind (n : Nat) : Nat := field n 4 3
/-- KEY_SLOT. -/
def dgSlot (n : Nat) : Nat := field n 16 5
/-- EXPECT_LEN. -/
def dgExpect (n : Nat) : Nat := field n 23 17
/-- SEAL. -/
def dgSeal (n : Nat) : Bool := bit n 24
/-- FUNC. -/
def dgFunc (n : Nat) : Nat := field n 39 32
/-- EPOCH. -/
def dgEpoch (n : Nat) : BitVec 16 := BitVec.ofNat 16 (field n 63 48)

/-- STATE codes. -/
def DgeState.code : DgeState → Nat
  | .idle => 0 | .opened => 1 | .done => 2 | .error => 3

/-- DGE_CTX_STATUS. -/
def DgeCtx.status (x : DgeCtx) : BitVec 64 :=
  BitVec.ofNat 64 (x.state.code + x.outcome * 4 + x.error * 32 + flag x.expectSet * 256 + x.msg.length * 65536)

/-! ### Contexts and pipelines (R392, R393) -/

/-- A context. -/
def State.ctx (s : State) (i : Nat) : DgeCtx := Mem.get {} s.dge.ctxs i
/-- The state with a context set. -/
def State.setCtx (s : State) (i : Nat) (x : DgeCtx) : State := { s with dge := { s.dge with ctxs := Mem.set {} s.dge.ctxs i x } }

/-- Contexts open at once: 16 inside the engine in BOOT, in MAINTENANCE and while the recovery image runs, else 1,024 (R392, R393). -/
def State.dgeLimit (s : State) : Nat :=
  if s.nvs.fwRunning = 1 then 16 else match s.psm.mode with | .boot | .maintenance => 16 | _ => 1024

/-- The engine works in the mode (R395). -/
def State.dgeServes (s : State) : Bool := s.psm.mode.engines || s.psm.mode == .boot

/-- The context a pipeline runs. -/
def State.dgeRun (s : State) (p : Nat) : Option Nat := Mem.get none s.dge.running p

/-- Idle pipelines that are not withdrawn take waiting contexts in order (R392, R545). -/
def State.dgeSchedule (s : State) : State :=
  (List.range 4).foldl (fun s p =>
    match s.dgeRun p, s.dge.images with
    | none, i :: rest =>
      if s.psm.halt.withdrawn.contains (.dge p) then s
      else { s with dge := { s.dge with running := Mem.set none s.dge.running p (some i), images := rest } }
    | _, _ => s) s

/-- A context gives up its pipeline or its place among the waiting ones. -/
def State.dgeLeave (s : State) (i : Nat) : State :=
  { s with dge := { s.dge with
      saved := Mem.set [] s.dge.saved i []
      running := s.dge.running.filter (fun e => e.2 != some i), images := s.dge.images.filter (· != i) } }

/-- The key of a keyed message (R356, R386): a slot with HMAC set, the page key of the boot ROM or cox pair C, or the
maintenance key for cox pair A. -/
def State.dgeKey (s : State) (src : DgeSource) (n : Nat) : Option Bytes :=
  let page := fun (p : Nat) =>
    let k := Mem.get ([], 0) (Mem.get {} s.cpe.pages p).keys (field n 6 5)
    if k.1.isEmpty ∨ !bit k.2.toNat 5 then none else some (k.1.take (if field k.2.toNat 7 6 = 1 then 32 else 16))
  match dgKind n with
  | 0 =>
    if !s.ownsSlot (dgFunc n) (dgSlot n) then none
    else match (s.slot (dgSlot n)).keyFor (dgEpoch n) with
      | some k => if bit k.attr.toNat 5 ∧ !k.locked then some k.bytes else none
      | none => none
  | 1 => (match src with | .bootRom => page 0 | .coxC => page 1 | _ => none)
  | 2 => if src = .coxA then s.nvs.maintKey else none
  | _ => none

/-- DGE_CTX_CFG as it is kept: its reserved bits read 0 (R9, R386). -/
def cfgKept (cfg : BitVec 64) : BitVec 64 := cfg &&& 0xFFFFFFFF01FFFFFF

/-- A message opens under a CFG (R386, R389, R391). -/
def State.dgeOpen (s : State) (i : Nat) (src : DgeSource) (cfg : BitVec 64) : State :=
  let n := cfg.toNat
  let x := { s.ctx i with cfg := cfgKept cfg, src := src, expectSet := false, expect := [], msg := [], error := 0, key := [] }
  let s := s.dgeLeave i
  if dgSeal n ∧ !(src = .coxC ∧ dgKeyed n ∧ dgKind n = 0 ∧ dgFunc n ≤ 1) then (s.setCtx i { x with state := .error, error := 4 }).dgeSchedule
  else match if dgKeyed n then s.dgeKey src n else some [] with
    | none => (s.setCtx i { x with state := .error, error := 2 }).dgeSchedule
    | some k =>
      let s1 := s.setCtx i { x with state := .opened, key := k }
      ({ s1 with dge := { s1.dge with images := s1.dge.images ++ [i] } }).dgeSchedule

/-- Contexts open. -/
def State.dgeOpenCount (s : State) : Nat := s.dge.ctxs.countP (fun e => e.2.state == .opened)

/-- Opens that waited take the places of contexts that have finished, in order (R393); one that fails at once leaves its place to the
next. -/
def State.dgeNextOpen (s : State) : State :=
  s.dge.opens.foldl (fun s o =>
    if s.dgeLimit ≤ s.dgeOpenCount then s
    else ({ s with dge := { s.dge with opens := s.dge.opens.drop 1 } }).dgeOpen o.1 o.2.1 o.2.2) s

/-- DGE_CTX_CFG (R386, R391, R393). -/
def execDgeCtxCfg (ctx : Nat) (src : DgeSource) (cfg : BitVec 64) (s : State) : Host.Outcome State Fault Refusal :=
  .next (if 1024 ≤ ctx ∨ !s.dgeServes then s
    else if (s.ctx ctx).state ≠ .opened ∧ s.dgeLimit ≤ s.dgeOpenCount then
      { s with dge := { s.dge with opens := s.dge.opens ++ [(ctx, src, cfg)] } }
    else (s.dgeOpen ctx src cfg).dgeNextOpen)

/-- A write to the message reopens a finished context with its CFG (R389). -/
def State.dgeReopen (s : State) (i : Nat) : State :=
  let x := s.ctx i
  if x.state ≠ .done then s
  else
    let s1 := s.setCtx i { x with state := .opened, msg := [], expectSet := false, expect := [] }
    ({ s1 with dge := { s1.dge with images := s1.dge.images ++ [i] } }).dgeSchedule

/-- A write to an open context; a context that is not open, after reopening, ignores it (R389). -/
def State.dgeWrite (s : State) (i : Nat) (body : State → DgeCtx → State) : State :=
  if !s.dgeServes then s
  else
    let s1 := s.dgeReopen i
    if (s1.ctx i).state ≠ .opened then s else body s1 (s1.ctx i)

/-- DGE_CTX_DATA (R385, R389). -/
def execDgeCtxData (ctx : Nat) (word : BitVec 64) (s : State) : Host.Outcome State Fault Refusal :=
  .next (s.dgeWrite ctx (fun s x => s.setCtx ctx { x with msg := x.msg ++ leBytes 8 word.toNat }))

/-- DGE_CTX_LAST_DATA (R387). -/
def execDgeCtxLastData (ctx : Nat) (word : BitVec 64) (s : State) : Host.Outcome State Fault Refusal :=
  .next (s.dgeWrite ctx (fun s x => s.setCtx ctx { x with last := word }))

/-- The expected value, as bytes. -/
def DgeCtx.expected (x : DgeCtx) : Bytes := ((List.range 8).map (fun i => leBytes 8 (Mem.get 0 x.expect i).toNat)).flatten

/-- The outcome of a keyed finish that is not sealed (R390). An EXPECT_LEN outside 16 to 64 leaves the comparison open (log
53). -/
def State.dgeCompare (s : State) (x : DgeCtx) (mac : Bytes) : Nat × State :=
  let n := dgExpect x.cfg.toNat
  if !x.expectSet then (4, s)
  else if n < 16 ∨ 64 < n then
    let d := s.draw 1
    (if d.1 = 1 then 2 else 3, d.2)
  else (if (padTo 64 mac).take n = x.expected.take n then 2 else 3, s)

/-- What a message computes: the digest, or the HMAC of a keyed one. The reserved ALG 3 leaves it open (log 53). -/
def DgeCtx.value (x : DgeCtx) : Bytes :=
  let n := x.cfg.toNat
  if dgAlg n = 3 then leBytes 64 (Config.reservedDigest x.key x.msg).toNat
  else if dgKeyed n then hmacOf (dgAlg n) x.key x.msg
  else digestOf (dgAlg n) x.msg

/-- A message finishes (R389 to R391). -/
def State.dgeFinish (s : State) (i : Nat) (x : DgeCtx) : State :=
  let n := x.cfg.toNat
  let y := { x with state := .done, expectSet := false, expect := [] }
  let r :=
    if !dgKeyed n then ({ y with outcome := 1, result := padTo 64 x.value }, s)
    else
      let mac := x.value
      if dgSeal n then ({ y with outcome := 5, result := [], sealedMac := mac }, s)
      else
        let c := s.dgeCompare x mac
        ({ y with outcome := c.1, result := [] }, c.2)
  (((r.2.setCtx i r.1).dgeLeave i).dgeSchedule).dgeNextOpen

/-- DGE_CTX_LAST_CNT (R387, R389 to R391). -/
def execDgeCtxLastCnt (ctx : Nat) (cnt : BitVec 64) (s : State) : Host.Outcome State Fault Refusal :=
  .next (s.dgeWrite ctx (fun s x =>
    let n := field cnt.toNat 3 0
    if 8 < n ∨ (n = 0 ∧ x.msg ≠ []) then
      (((s.setCtx ctx { x with state := .error, error := 1 }).dgeLeave ctx).dgeSchedule).dgeNextOpen
    else s.dgeFinish ctx { x with msg := x.msg ++ (leBytes 8 x.last.toNat).take n }))

/-- The 256-byte context image of R392. -/
def DgeCtx.image (x : DgeCtx) (imageKey nonce : Bytes) : Bytes :=
  let n := x.cfg.toNat
  let keyed := dgKeyed n
  let alg := dgAlg n
  let pad := fun (b : Byte) => (hmacBlock alg x.key).map (· ^^^ b)
  let head := leBytes 48 (field n 2 0 + flag keyed * 2 ^ 3 + dgFunc n * 2 ^ 8 + field n 47 40 * 2 ^ 16 + x.msg.length * 2 ^ 64 +
    n * 2 ^ 128 + (if keyed then leNat nonce * 2 ^ 192 else 0))
  let body := hashState alg (if keyed then pad 0x36 ++ x.msg else x.msg) ++
    padTo 64 (if keyed then hashState alg (pad 0x5C) else []) ++ padTo 64 (if keyed ∧ x.expectSet then x.expected else [])
  let e := gcmEnc imageKey nonce head body
  if keyed then head ++ e.1 ++ padTo 16 e.2 else head ++ body ++ List.replicate 16 0

/-- A context that gives up its pipeline is kept as an image in DRAM (R392), under a fresh nonce; the image key is drawn at its first use
in a BOOT (log 108). Inside the engine nothing is stored (R393). -/
def State.saveImage (s : State) (i : Nat) : State :=
  if s.dgeLimit = 16 then s
  else
    let k := if s.dge.imageKey.isEmpty then s.drawBytes 32 else (s.dge.imageKey, s)
    let n := k.2.drawBytes 12
    { n.2 with dge := { n.2.dge with imageKey := k.1, saved := Mem.set [] n.2.dge.saved i ((s.ctx i).image k.1 n.1) } }

/-- DGE_CONTEXT_SWITCH (R392, R393): at a 4 KiB boundary a pipeline saves its context and takes another waiting one; a keyed
image whose tag fails puts its context in ERROR. -/
def execDgeContextSwitch (p save restore : Nat) (tagOk : Bool) (s : State) : Host.Outcome State Fault Refusal :=
  .next (if s.dgeRun p ≠ some save ∨ !s.dge.images.contains restore ∨ (s.ctx save).msg.length % 4096 ≠ 0 ∨ !s.dgeServes ∨
      s.psm.halt.withdrawn.contains (.dge p) then s
    else
      let s0 := s.saveImage save
      let s1 := { s0 with dge := { s0.dge with
        saved := Mem.set [] s0.dge.saved restore []
        images := s.dge.images.filter (· != restore) ++ [save], running := Mem.set none s.dge.running p (some restore) } }
      let x := s.ctx restore
      if tagOk ∨ !dgKeyed x.cfg.toNat ∨ s.dgeLimit = 16 then s1
      else
        let f := dgFunc x.cfg.toNat
        let s2 := ((s1.setCtx restore { x with state := .error, error := 3 }).dgeLeave restore).dgeSchedule.dgeNextOpen
        let seq := s2.recd.next
        (s2.raise evDgeCtxRestoreFail f [(1, f), (2, restore)]).detect 0x0B10 evDgeCtxRestoreFail.code seq)

end Sys2Proof.Machine
end

