-- ==== Sys2Proof/Machine/Cmp.lean ====
section
/-! DEFINITION. The compression engine's jobs and held contexts, and TRANSFORM (R405 to R427). -/

namespace Sys2Proof.Machine

/-! ### Jobs (R410 to R418, R421) -/

/-- How a job ends: DONE, OUTPUT_FULL, TENANT_QUOTA, CHECK_FAIL with its reason, LENGTH_MISMATCH. -/
inductive CmpResult where
  | done | outputFull | quota | checkFail (reason : Nat) | lengthMismatch
  deriving DecidableEq, Repr

/-- The status of a result (R421). -/
def CmpResult.status : CmpResult → Status
  | .done => .success
  | .outputFull => .outputFull
  | .quota => .tenantQuota
  | .checkFail _ => .checkFail
  | .lengthMismatch => .lengthMismatch

/-- The result as port 3 returns it (R422, log 55). -/
def CmpResult.word (r : CmpResult) : Nat :=
  (Config.cmpResultCode (match r with | .done => 0 | .outputFull => 1 | .quota => 2 | .checkFail _ => 3 | .lengthMismatch => 4)).toNat

/-- A step of a job: its result, output and consumption, and the context it would hold. -/
structure CmpStep where
  result : CmpResult
  out : Bytes
  consumed : Nat
  hold : Option CmpCtx
  /-- blocks begun by the end of the step (R412). -/
  coded : Nat := 0
  /-- stored blocks replace coded ones (R412). -/
  fallback : Bool := false
  deriving DecidableEq, Repr

/-- A compression has written every word that its input gives (R413, R417). -/
def CmpCtx.wroteAll (c : CmpCtx) (input out : Bytes) (final : Bool) (blocks : Nat) : CmpStep :=
  let consumed := input.length - c.input.length
  { result := if final && c.format == 3 && input.length != c.declLen then .lengthMismatch else .done
    out := out, consumed := consumed, coded := blocks, fallback := c.fallback.isSome
    hold := if final then none
      else some { c with input := input, produced := c.produced + out.length, consumed := consumed, coded := blocks } }

/-- A compression whose output is full (R416): it has taken the blocks up to the one whose words it is writing. -/
def CmpCtx.filled (c : CmpCtx) (input out : Bytes) (final : Bool) (blocks begun : Nat) : CmpStep :=
  let taken := Nat.min input.length (Nat.max c.input.length (blockBytes * begun))
  let coded := Nat.max c.coded begun
  { result := .outputFull, out := out, consumed := taken - c.input.length, coded := coded, fallback := c.fallback.isSome
    hold := some { c with
      input := input.take taken, produced := c.produced + out.length, consumed := taken - c.input.length
      coded := coded, ended := final && begun == blocks } }

/-- One step of a compression (R413, R416, R417): it stops after the last word that fits. A stream whose last block has been begun takes
no more input. -/
def compressStep (c : CmpCtx) (new : Bytes) (more : Bool) (outLen : Nat) : CmpStep :=
  let final := c.ended || !more
  let input := if c.ended then c.input else c.input ++ new
  let room := 8 * (c.produced + outLen)
  let head := 8 * (cmpHeader c).length
  let blocks := c.blocks input final
  let words := c.stream input final
  let fit := fitting room words
  let out := (packBits fit.flatten).drop c.produced
  if fit.length = words.length then c.wroteAll input out final blocks.length
  else c.filled input out final blocks.length (if room < head then 0 else begunBlocks (room - head) blocks)

/-- One step of a decompression (R414, R416, R417). -/
def decompressStep (c : CmpCtx) (new : Bytes) (more : Bool) (outLen : Nat) : CmpStep :=
  let input := c.input ++ new
  let d := decodeStream c.format c.declLen (c.produced + outLen) input
  let out := d.out.drop c.produced
  let consumed := d.used - c.input.length
  let held : CmpCtx := { c with input := input.take d.used, produced := c.produced + out.length, consumed := consumed }
  match d.stop with
  | .done => { result := .done, out := out, consumed := consumed, hold := none }
  | .full => { result := .outputFull, out := out, consumed := consumed, hold := some held }
  | .bad 0 => { result := .lengthMismatch, out := out, consumed := consumed, hold := none }
  | .bad k => { result := .checkFail k, out := out, consumed := consumed, hold := none }
  | .starved =>
    if more then { result := .done, out := out, consumed := new.length, hold := some { held with input := input, consumed := new.length } }
    else { result := .checkFail 6, out := out, consumed := new.length, hold := none }

/-- Contexts that a function holds (R418). -/
def State.heldBy (s : State) (f : Nat) : Nat := s.cmp.ctxs.countP (fun e => match e.2 with | some c => c.func == f | none => false)

/-- A held context. -/
def State.heldCtx (s : State) (i : Nat) : Option CmpCtx := Mem.get none s.cmp.ctxs i
/-- The state with a context held or discarded. -/
def State.setHeld (s : State) (i : Nat) (c : Option CmpCtx) : State :=
  { s with cmp := { s.cmp with ctxs := Mem.set none s.cmp.ctxs i c } }

/-- The context a new job takes: the lowest free one. -/
def State.freeCtx (s : State) : Option Nat := (List.range 64).find? (fun i => (s.heldCtx i).isNone)

/-- The engine instances of a kind that take work (R545). -/
def State.inService (s : State) (n : Nat) (i : Nat → Instance) : List Nat :=
  (List.range n).filter (fun k => !s.psm.halt.withdrawn.contains (i k))

/-- A verify mismatch (R412) in a step that begins blocks up to `coded`: the block that fails is free among those the step codes, every
block from it is stored, and the compressor is withdrawn. Which compressor ran is free among those in service (log 55). A step that codes
no block has none to fail. -/
def State.verifyMismatch (s : State) (c : CmpCtx) (coded : Nat) : State × CmpCtx :=
  if c.fallback.isSome ∨ coded ≤ c.coded then (s, c)
  else
    let a := s.draw 32
    let b := a.2.draw 8
    let us := s.inService 4 .comp
    let unit := nth 0 us (b.1.toNat % Nat.max 1 us.length)
    let block := c.coded + a.1.toNat % (coded - c.coded)
    let seq := b.2.recd.next
    ((b.2.raiseFrom (0x0C00 + unit) evCmpVerifyMismatch c.func [(1, unit), (1, c.func), (1, c.format), (4, block)]).withdraw (.comp unit)
      evCmpVerifyMismatch.code seq, { c with fallback := some block })

/-- CMP_CHECK_FAIL is recorded, at most once per second per function, by a decompressor the model leaves open (R427, log 55). -/
def State.checkFailed (s : State) (c : CmpCtx) (reason offset : Nat) : State :=
  let a := s.draw 3
  a.2.raiseLimited evCmpCheckFail c.func (0x0C10 + a.1.toNat) [(1, c.func), (1, c.format), (1, reason), (8, offset)]

/-- A job runs one step in context `i`, held before when `resume` (R412, R416 to R418): its end and the state, in which a context
that stays is held. -/
def State.cmpRun (s : State) (i : Nat) (resume : Bool) (c : CmpCtx) (new : Bytes) (more : Bool) (outLen : Nat) (verifyOk : Bool) :
    State × CmpStep :=
  let v := if c.op = 0 ∧ !verifyOk then s.verifyMismatch c (compressStep c new more outLen).coded else (s, c)
  let c := v.2
  let r := if c.op = 0 then compressStep c new more outLen else decompressStep c new more outLen
  let s1 := match r.result with | .checkFail k => v.1.checkFailed c k (c.input.length + r.consumed) | _ => v.1
  if r.hold.isSome ∧ !resume ∧ 4 ≤ s.heldBy c.func then (s1.setHeld i none, { r with result := .quota, hold := none })
  else (s1.setHeld i r.hold, r)

/-- A request that may resume a held context has been accepted: a TRANSFORM of its function, or, for a scull's context, a request of
the scull on port 3; its header is read when it runs (R418, R425, log 109). -/
def State.mayResume (s : State) (c : CmpCtx) : Bool :=
  match c.scull with
  | some k => Mem.get 0 (s.scull k).outstanding 3 != 0
  | none => s.inflight.any (fun e => e.2.func == c.func && e.2.result.isNone && !e.2.sqe.admin && e.2.sqe.opcode == 0x9B)

/-- CMP_CONTEXT_EXPIRED (R418, R425): a resume accepted by then is served, so that the context stays. -/
def execCmpContextExpired (ctx : Nat) (s : State) : Host.Outcome State Fault Refusal :=
  .next (match s.heldCtx ctx with
    | none => s
    | some c => if s.mayResume c then s else (s.setHeld ctx none).raise evCmpContextExpired c.func [(1, c.func), (2, ctx), (4, c.consumed), (4, c.produced)])

/-! ### TRANSFORM (R419, R420) -/

/-- The job header. -/
structure TfHeader where
  n : Nat
  deriving DecidableEq, Repr

/-- OP. -/
def TfHeader.op (h : TfHeader) : Nat := field h.n 3 0
/-- FORMAT. -/
def TfHeader.format (h : TfHeader) : Nat := field h.n 5 4
/-- MORE_INPUT. -/
def TfHeader.more (h : TfHeader) : Bool := bit h.n 6
/-- CONTINUE. -/
def TfHeader.cont (h : TfHeader) : Bool := bit h.n 7
/-- CONTEXT. -/
def TfHeader.context (h : TfHeader) : Nat := field h.n 13 8
/-- RETRACT. -/
def TfHeader.retract (h : TfHeader) : Bool := bit h.n 14
/-- The fill. -/
def TfHeader.fill (h : TfHeader) : Byte := if bit h.n 15 then 0xDB else 0x00
/-- WINDOW_LOG. -/
def TfHeader.windowLog (h : TfHeader) : Nat := field h.n 19 16
/-- IN_LEN. -/
def TfHeader.inLen (h : TfHeader) : Nat := field h.n 63 32
/-- DECL_LEN. -/
def TfHeader.declLen (h : TfHeader) : Nat := field h.n 127 64
/-- KEY_SLOT. -/
def TfHeader.slot (h : TfHeader) : Nat := field h.n 139 128
/-- MODE. -/
def TfHeader.mode (h : TfHeader) : Nat := field h.n 142 140
/-- KEYED. -/
def TfHeader.keyed (h : TfHeader) : Bool := bit h.n 143
/-- ALG. -/
def TfHeader.alg (h : TfHeader) : Nat := field h.n 145 144
/-- EXPECT_LEN. -/
def TfHeader.expectLen (h : TfHeader) : Nat := field h.n 152 146
/-- AAD_LEN. -/
def TfHeader.aad (h : TfHeader) : Nat := field h.n 176 161
/-- TAG_LEN. -/
def TfHeader.tagLen (h : TfHeader) : Nat := field h.n 181 177

/-- The header of a TRANSFORM's data. -/
def tfHeader (data : Bytes) : TfHeader := { n := leNat (padTo 128 data) }

/-- OUT_LEN. -/
def tfOutLen (e : Sqe) : Nat := field e.cdw14.toNat 21 0
/-- The output address. -/
def tfOut (e : Sqe) : Nat := e.cdw12.toNat + e.cdw13.toNat * 2 ^ 32

/-- The dwords and the fields common to every OP (R419). -/
def tfCommonOk (e : Sqe) (h : TfHeader) : Bool :=
  e.cdw10 == 0 && e.cdw11 == 0 && field e.cdw14.toNat 31 22 == 0 && e.cdw15 == 0 && decide (1 ≤ tfOutLen e ∧ tfOutLen e ≤ 2097152) &&
    decide (h.op ≤ 4 ∧ h.inLen ≤ 2097024) && field h.n 31 29 == 0 && field h.n 191 182 == 0 && field h.n 511 448 == 0 &&
    (h.inLen != 0 || (h.cont && decide (h.op ≤ 1)))

/-- The fields of a compression or decompression that starts (R413, R419). -/
def tfStartOk (h : TfHeader) : Bool :=
  let lovageOut := h.op == 0 && h.format == 3
  (if lovageOut then decide (15 ≤ h.windowLog ∧ h.windowLog ≤ 20) else h.windowLog == 0) &&
    (h.declLen == 0 || lovageOut || (h.op == 1 && h.format != 3)) && decide (h.declLen ≤ 2 ^ 40 ∨ !lovageOut) &&
    !(lovageOut && h.more && h.declLen == 0) && h.expectLen == 0

/-- A resume's other fields are 0 (R419). -/
def tfResumeOk (h : TfHeader) : Bool := h.format == 0 && field h.n 31 16 == 0 && h.n / 2 ^ 64 == 0

/-- The fields of a digest (R419). -/
def tfDigestOk (h : TfHeader) : Bool :=
  h.format == 0 && h.windowLog == 0 && h.declLen == 0 && h.alg != 3 &&
    (if h.keyed then decide (16 ≤ h.expectLen ∧ h.expectLen ≤ 64) && h.n / 2 ^ (512 + 8 * h.expectLen) == 0 else h.expectLen == 0)

/-- The output of a cipher job (R420). -/
def tfCipherOut (h : TfHeader) : Nat :=
  h.inLen - h.aad + (if h.mode = 1 ∧ h.op = 3 then 12 + h.tagLen else 0)

/-- The cipher entry of a job (R362, R420). -/
def tfEntry (c : Cmd) (h : TfHeader) : CpeEntry :=
  let dec := h.op == 4
  let early := dec && h.mode == 1 && decide (262144 < h.inLen - h.aad)
  { submitter := 2, entry := BitVec.ofNat 512 (h.mode + flag dec * 8 + flag early * 32 + flag early * 64 + h.slot * 2 ^ 12 +
      c.func * 2 ^ 24 + c.gen.toNat * 2 ^ 32 + field h.n 156 153 * 2 ^ 40 + field h.n 160 157 * 2 ^ 44 + c.epoch.toNat * 2 ^ 48 +
      h.inLen * 2 ^ 64 + h.aad * 2 ^ 96 + h.tagLen * 2 ^ 112 + field h.n 319 192 * 2 ^ 192 + field h.n 447 320 * 2 ^ 320) }

/-- The fields of a cipher job (R419). -/
def tfCipherOk (c : Cmd) (h : TfHeader) : Bool :=
  h.format == 0 && h.windowLog == 0 && h.declLen == 0 && h.expectLen == 0 && decide (1 ≤ h.mode ∧ h.mode ≤ 4) &&
    entryOk 2 (tfEntry c h).entry.toNat && !(h.op == 4 && decide (262144 < h.inLen - h.aad) && !h.retract)

/-- Every field of a TRANSFORM (R419). -/
def tfOk (c : Cmd) (h : TfHeader) : Bool :=
  tfCommonOk c.sqe h && (match h.op with
    | 0 | 1 => if h.cont then tfResumeOk h else tfStartOk h
    | 2 => tfDigestOk h
    | _ => tfCipherOk c h)

/-- DW1 of a job (R420). -/
def tfDw1 (produced : Nat) (hold : Option Nat) (fallback : Bool) (outcome : Nat) : BitVec 32 :=
  BitVec.ofNat 32 (produced + (match hold with | some i => i * 2 ^ 22 + 2 ^ 28 | none => 0) + flag fallback * 2 ^ 29 + outcome * 2 ^ 30)

/-- A TRANSFORM of given OPs runs once its common checks pass (R80, R149, R162, R419). -/
def State.transform (s : State) (id : CmdId) (data : Bytes) (ops : List Nat) (body : Cmd → TfHeader → Bytes → State) : State :=
  match s.live id false 0x9B with
  | none => s
  | some c =>
    let h := tfHeader data
    if !ops.contains h.op then s
    else if c.sqe.nsid ≠ 0xFFFFFFFF then s.finish id .invalidNamespaceOrFormat
    else if !tfOk c h then s.finish id .invalidField
    else if sglShort c.sqe (128 + h.inLen) then s.finish id .dataSglLengthInvalid
    else body c h (slice data 128 h.inLen)

/-- Output of a TRANSFORM that fails after it was written: it is filled again (R27, R332, R371, R415). -/
def State.outRetracted (s : State) (c : Cmd) (bs : Bytes) (fill : Byte) : State :=
  (s.hostWrite c.func (tfOut c.sqe) bs).retractSpan c.func [(tfOut c.sqe, bs.length)] bs.length fill 0x05

/-- The output of a compression or decompression reaches the host, and goes again when the job ends in error under RETRACT (R415). -/
def State.cmpOut (s : State) (c : Cmd) (h : TfHeader) (keep : Bool) (out : Bytes) : State :=
  if keep ∨ !h.retract then s.hostWrite c.func (tfOut c.sqe) out else s.outRetracted c out h.fill

/-- A unit of the input fails its check (R26, R27): the report names no namespace, since TRANSFORM has none. -/
def State.tfReport (s : State) (c : Cmd) (b : TagFault) : State := s.reportTag b.component c.func 0 b.unitNo

/-- The step of a compression or decompression whose input cannot be used from byte `n` on, if the job comes as far (R26, R27, R415):
what it has written by then. -/
def badStep (x : CmpCtx) (input : Bytes) (outLen n : Nat) : Option CmpStep :=
  let seen := input.take n
  let r := if x.op = 0 then compressStep x seen true outLen else decompressStep x seen true outLen
  match r.result with
  | .done => if r.hold.isSome then some r else none
  | _ => none

/-- The end of a compression or decompression (R415, R420). -/
def State.cmpFinish (s : State) (id : CmdId) (c : Cmd) (h : TfHeader) (i : Nat) (r : CmpStep) : State :=
  let keep : Bool := match r.result with | .done | .outputFull => true | _ => false
  let s1 := s.cmpOut c h keep r.out
  s1.finish id r.result.status (BitVec.ofNat 32 r.consumed) (tfDw1 r.out.length (r.hold.map (fun _ => i)) r.fallback 0)

/-- A compression or decompression in context `i`, as far as a unit whose tag does not match where there is one (R27, R415). -/
def State.cmpJob (s : State) (id : CmdId) (c : Cmd) (h : TfHeader) (i : Nat) (x : CmpCtx) (input : Bytes) (verifyOk : Bool)
    (bad : Option TagFault) : State :=
  match bad.bind (fun b => (badStep x input (tfOutLen c.sqe) (4096 * b.unitNo)).map (fun r => (b, r))) with
  | some (b, r) =>
    (((s.setHeld i none).cmpOut c h false r.out).tfReport c b).finish id .internalContained (BitVec.ofNat 32 r.consumed)
      (tfDw1 r.out.length none false 0)
  | none =>
    let r := s.cmpRun i h.cont x input h.more (tfOutLen c.sqe) verifyOk
    r.1.cmpFinish id c h i r.2

/-- TRANSFORM OP 0 or OP 1: it waits for a free context, or resumes its own (R418, R419). -/
def State.transformCmp (s : State) (id : CmdId) (c : Cmd) (h : TfHeader) (input : Bytes) (verifyOk : Bool) (bad : Option TagFault) :
    State :=
  if h.cont then
    match s.heldCtx h.context with
    | none => s.finish id .invalidField
    | some x =>
      if x.func ≠ c.func ∨ x.scull.isSome ∨ x.op ≠ h.op then s.finish id .invalidField
      else s.cmpJob id c h h.context x input verifyOk bad
  else
    match s.freeCtx with
    | none => s
    | some i =>
      let decl := if h.op = 0 ∧ h.format = 3 ∧ h.declLen = 0 then h.inLen else h.declLen
      let x : CmpCtx := { func := c.func, gen := c.gen, op := h.op, format := h.format, windowLog := h.windowLog
                          depth := field h.n 27 20 + 1, lazy := bit h.n 28, declLen := decl }
      s.cmpJob id c h i x input verifyOk bad

/-- TRANSFORM_COMPRESS (R410 to R420). A reserved OP fails here. `bad` is a unit of the input that fails its tag check (R26). -/
def execTransformCompress (id : CmdId) (data : Bytes) (verifyOk : Bool) (s : State) (bad : Option TagFault := none) : Host.Outcome State Fault Refusal :=
  .next (s.transform id data [0, 5, 6, 7, 8, 9, 10, 11, 12, 13, 14, 15] (fun c h input => s.transformCmp id c h input verifyOk (faultOf bad)))

/-- TRANSFORM_DECOMPRESS (R409, R414 to R420). -/
def execTransformDecompress (id : CmdId) (data : Bytes) (s : State) (bad : Option TagFault := none) : Host.Outcome State Fault Refusal :=
  .next (s.transform id data [1] (fun c h input => s.transformCmp id c h input true (faultOf bad)))

/-- A digest or cipher job whose input has a unit that fails its check ends before it writes (R26, R27, log 106). -/
def State.tfChecked (s : State) (id : CmdId) (c : Cmd) (bad : Option TagFault) (run : State) : State :=
  match bad with
  | some b => (s.tfReport c b).finish id .internalContained
  | none => run

/-- A keyed TRANSFORM digest: the verdict of the comparison, or KEY_SLOT_INVALID without a key (R390, R420). -/
def State.tfCompare (s : State) (id : CmdId) (h : TfHeader) (expect input : Bytes) (key : Option Bytes) : State :=
  match key with
  | none => s.finish id .keySlotInvalid
  | some k =>
    let same := (padTo 64 (hmacOf h.alg k input)).take h.expectLen == expect.take h.expectLen
    s.finish id .success (BitVec.ofNat 32 input.length) (tfDw1 0 none false (if same then 1 else 2))

/-- A digest job: keyed, the comparison with the expected value; unkeyed, the digest written to the output (R390, R420). -/
def State.transformDigest (s : State) (id : CmdId) (c : Cmd) (h : TfHeader) (expect input : Bytes) : State :=
  if h.keyed then
    s.tfCompare id h expect input (s.dgeKey .feeder (4 + h.slot * 32 + c.func * 2 ^ 32 + c.epoch.toNat * 2 ^ 48))
  else if tfOutLen c.sqe < digestLen h.alg then s.finish id .outputFull
  else (s.hostWrite c.func (tfOut c.sqe) (digestOf h.alg input)).finish id .success (BitVec.ofNat 32 input.length)
    (tfDw1 (digestLen h.alg) none false 0)

/-- TRANSFORM_DIGEST (R390, R420). -/
def execTransformDigest (id : CmdId) (data : Bytes) (s : State) (bad : Option TagFault := none) : Host.Outcome State Fault Refusal :=
  .next (s.transform id data [2] (fun c h input =>
    s.tfChecked id c (faultOf bad) (s.transformDigest id c h (slice data 64 64) input)))

/-- The end of a cipher job whose result is `r` (text and tag): a tag that does not match retracts what was written (R371); else the
output is written, with the nonce and the tag of an authenticated encryption behind it (R420). -/
def State.cipherEnd (s : State) (id : CmdId) (c : Cmd) (h : TfHeader) (inLen : Nat) (nonce : Bytes) (r : Bytes × Bytes) (mismatch early : Bool) :
    State :=
  if mismatch then
    let p := s.draw 3
    let s1 := p.2.raiseLimited evAuthTagFail c.func (0x0A00 + p.1.toNat) [(1, c.func), (2, h.slot), (1, if early then 2 else 1)]
    let s2 := if early then s1.outRetracted c (r.1.take (r.1.length / 262144 * 262144)) h.fill else s1
    s2.finish id .authFailRetracted (BitVec.ofNat 32 inLen)
  else
    let out := if h.mode = 1 ∧ h.op = 3 then r.1 ++ nonce ++ r.2.take h.tagLen else r.1
    (s.hostWrite c.func (tfOut c.sqe) out).finish id .success (BitVec.ofNat 32 inLen) (tfDw1 out.length none false 0)

/-- A cipher job with its key, or without one (R356, R400). -/
def State.cipherWith (s : State) (id : CmdId) (c : Cmd) (h : TfHeader) (input : Bytes) (e : CpeEntry) (key : Except Nat Key) : State :=
  match key with
  | .error code => s.finish id (if code = 0x02 then .nonceExhausted else .keySlotInvalid)
  | .ok k =>
    let b := s.bindNonce e k
    let x : CpeEntry := { e with key := k.bytes, nonce := b.1 }
    let r := x.run input
    let n := e.entry.toNat
    b.2.cipherEnd id c h input.length x.nonce r (ceHolds n && r.2.take (ceTagLen n) != leBytes (ceTagLen n) (ceTag n)) (ceReleases n)

/-- A cipher job (R356, R370, R371, R420). -/
def State.transformCipher (s : State) (id : CmdId) (c : Cmd) (h : TfHeader) (input : Bytes) : State :=
  if tfOutLen c.sqe < tfCipherOut h then s.finish id .outputFull
  else s.cipherWith id c h input (tfEntry c h) (s.cpeKey (tfEntry c h))

/-- TRANSFORM_ENCRYPT (R420). -/
def execTransformEncrypt (id : CmdId) (data : Bytes) (s : State) (bad : Option TagFault := none) : Host.Outcome State Fault Refusal :=
  .next (s.transform id data [3] (fun c h input => s.tfChecked id c (faultOf bad) (s.transformCipher id c h input)))

/-- TRANSFORM_DECRYPT (R420). -/
def execTransformDecrypt (id : CmdId) (data : Bytes) (s : State) (bad : Option TagFault := none) : Host.Outcome State Fault Refusal :=
  .next (s.transform id data [4] (fun c h input => s.tfChecked id c (faultOf bad) (s.transformCipher id c h input)))

end Sys2Proof.Machine
end

