-- ==== Sys2Proof/Machine/Dram.lean ====
section
/-! DEFINITION. The DRAM controller: requests, row-disturb tracking, refresh, self-refresh, error handling, migration and
loss of ranks, the bring-up from the board profile, and MB_DRAM_PROFILE (R284 to R314). -/

namespace Sys2Proof.Machine

/-! ### Where a line lies -/

/-- Ranks fitted on each channel (R290). -/
def boardRanks (board : Bytes) : Nat := field (byteAt board 0) 5 4 + 1

/-- The in-service byte address of line `m` of logical rank `l` of a channel (R287). -/
def State.dramAddr (s : State) (ch l m : Nat) : Nat := ((l * rankLines s.dram.board + m) * 2 + ch) * 64

/-- Channel, logical rank and line within the rank of an in-service byte address (R287). -/
def State.dramPlace (s : State) (addr : Nat) : Nat × Nat × Nat :=
  let line := addr / 64
  (line % 2, line / 2 / rankLines s.dram.board, line / 2 % rankLines s.dram.board)

/-- Row of a line within its rank: 3 bank-group bits, 2 bank bits, then 6 (x8) or 7 (x4) line bits lie below it (R287). -/
def State.dramRow (s : State) (m : Nat) : Nat :=
  m / 2 ^ (5 + (if field (byteAt s.dram.board 0) 1 0 = 0 then 7 else 6))

/-- The chip select of a logical rank (R287). -/
def State.csOf (s : State) (ch l : Nat) : Option Nat := Mem.get none s.dram.rankMap (4 * ch + l)

/-- The logical rank that a chip select holds (R287). -/
def State.logicalOf (s : State) (ch cs : Nat) : Option Nat := (List.range 4).find? (fun l => s.csOf ch l == some cs)

/-- State of the rank at a chip select (R306). -/
def State.rank (s : State) (ch cs : Nat) : RankState := Mem.get .absent s.dram.ranks (4 * ch + cs)

/-- The state with a rank's state set. -/
def State.setRank (s : State) (ch cs : Nat) (r : RankState) : State :=
  { s with dram := { s.dram with ranks := Mem.set .absent s.dram.ranks (4 * ch + cs) r } }

/-- The state with the rank map's entry of a logical rank set. -/
def State.mapRank (s : State) (ch l : Nat) (cs : Option Nat) : State :=
  { s with dram := { s.dram with rankMap := Mem.set none s.dram.rankMap (4 * ch + l) cs } }

/-- A SPARE of a channel: the lowest-numbered one (log 62). -/
def State.spareOf (s : State) (ch : Nat) : Option Nat := (List.range 4).find? (fun cs => s.rank ch cs == .spare)

/-! ### What the modes allow (R299) -/

/-- The devices are up and the channel may serve a request: in SAFE-HALT, and in MAINTENANCE held from it, only before it is in
self-refresh (R298, R299, R540). -/
def State.dmcServes (s : State) (ch : Nat) : Bool :=
  s.dram.resetHigh &&
    (match s.psm.mode with
      | .off | .hold => false
      | .safeHalt => !Mem.get false s.dram.selfRefresh ch
      | .maintenance => !s.psm.heldFromHalt || !Mem.get false s.dram.selfRefresh ch
      | _ => true)

/-- Migrations start and end, ranks leave service and spares are initialised (R299). -/
def State.dmcNormal (s : State) : Bool :=
  s.dram.resetHigh &&
    (match s.psm.mode with
      | .service | .rest | .degraded => true
      | .maintenance => !s.psm.heldFromHalt
      | _ => false)

/-- The channel's devices run outside self-refresh, so that refresh, ZQ calibration and MR4 reads reach them (R292, R296). -/
def State.dmcAwake (s : State) (ch : Nat) : Bool := s.dmcServes ch && !Mem.get false s.dram.selfRefresh ch

/-! ### Losing a rank (R306 to R308) -/

/-- In-service capacity in GiB (R286, R309). -/
def State.dramGib (s : State) : Nat := s.dramBytes / 2 ^ 30

/-- Map cache that a capacity gives: what the fixed regions and 1 GiB of sample-index cache leave, up to MAP_CACHE_GIB (R305,
R308). -/
def State.mapCacheFor (s : State) (gib : Nat) : Nat := Nat.min s.nvs.mapCacheGib (gib - (3 + s.nvs.chiveGib) - 1)

/-- The map cache shrinks to what it may hold, and dirty pages that leave are written back (R250, R308). -/
def State.shrinkCache (s : State) : State := (List.range (s.nss.cache.length - s.cachePages)).foldl (fun s _ => s.evictPage) s

/-- R308: the logical rank of a failed rank leaves the address map on both channels, the partner rank becomes a SPARE, and the
device is DEGRADED or in SAFE-HALT as the capacity left allows. Where the owners move the lines is not given (log 62). -/
def State.loseRank (s : State) (ch cs : Nat) : State :=
  match s.logicalOf ch cs with
  | none => s.setRank ch cs .retired
  | some l =>
    let other := 1 - ch
    let s1 := (s.setRank ch cs .retired).mapRank ch l none
    let s2 := match s.csOf other l with
      | none => s1
      | some p =>
        match s.rank other p, Mem.get none s.dram.migration other with
        | .migratingOut, some m =>
          let s2 := (s1.setRank other p .retired).setRank other m.toCs .spare
          { s2 with dram := { s2.dram with migration := Mem.set none s2.dram.migration other none } }
        | _, _ => s1.setRank other p .spare
    let s3 := s2.mapRank other l none
    let span := 128 * rankLines s.dram.board
    let gib := s3.dramGib
    let s4 := State.shrinkCache { s3 with dram := { s3.dram with
      cells := Mem.keep (fun a => a / span != l) s3.dram.cells
      mapCacheNow := s3.mapCacheFor gib } }
    if 3 + s.nvs.chiveGib + 2 ≤ gib then
      (s4.raise evRankLostNoSpare 255 [(1, ch), (1, cs), (2, gib), (1, Mode.degraded.code)]).setCause 1 evRankLostNoSpare.code
    else
      s4.dangerHalt evRankLostNoSpare evRankLostNoSpare.comp [(1, ch), (1, cs), (2, gib), (1, Mode.safeHalt.code)] true

/-- A rank in service that has failed, or passed the corrected-error threshold (`failed` false): with a SPARE in its channel it
migrates (R306, R307), and a failed one without is lost (R308); while a migration runs on its channel a failure waits (R310). -/
def State.retireRank (s : State) (ch cs : Nat) (failed : Bool) : State :=
  if !s.dmcNormal ∨ s.rank ch cs ≠ .inService then s
  else if (Mem.get none s.dram.migration ch).isSome then
    if !failed ∨ s.dram.deferredFail.contains (4 * ch + cs) then s
    else { s with dram := { s.dram with deferredFail := s.dram.deferredFail ++ [4 * ch + cs] } }
  else match s.spareOf ch with
    | some sp =>
      let s1 := (s.setRank ch cs .migratingOut).setRank ch sp .migratingIn
      { s1 with dram := { s1.dram with migration := Mem.set none s1.dram.migration ch (some { fromCs := cs, toCs := sp }) } }
    | none => if failed then s.loseRank ch cs else s

/-! ### Errors of a line (R302 to R304) -/

/-- What the decoder finds in a burst some of whose 40 symbols read wrongly (R302): up to 4 are corrected. -/
def eccOf (wrong : List Nat) : DramEcc :=
  let n := (List.range 40).countP (fun j => wrong.contains j)
  if n = 0 then .clean else if n ≤ 4 then .corrected else .uncorrectable

/-- A corrected error on a rank: counted on its channel and in its operating hour; more than 4,096 in an hour are recorded and
the rank migrates where it can (R303, R309). -/
def State.correctedError (s : State) (ch cs : Nat) : State :=
  let old := Mem.get (0, 0) s.dram.ceHour (4 * ch + cs)
  let n := (if old.1 = s.recd.hours then old.2 else 0) + 1
  let s1 := { s with dram := { s.dram with
    ce := Mem.upd 0 s.dram.ce ch (fun c => Nat.min (c + 1) 0xFFFFFFFF)
    ceHour := Mem.set (0, 0) s.dram.ceHour (4 * ch + cs) (s.recd.hours, n) } }
  if n = 4097 then (s1.raise evDramCeThreshold 255 [(1, ch), (1, cs), (4, n)]).retireRank ch cs false else s1

/-- An uncorrectable error of a line of a rank: counted, recorded as DRAM_UE, reported to the integrity monitor as a detection of the ECC
unit, and the rank leaves service (R304, R545). The code of the region is a free value (log 62). -/
def State.uncorrectable (s : State) (ch cs addr port kind : Nat) : State :=
  let d := s.draw 8
  let s1 := { d.2 with dram := { d.2.dram with ue := Mem.upd 0 d.2.dram.ue ch (· + 1) } }
  ((s1.raise evDramUe 255 [(1, ch), (1, cs), (8, addr), (1, d.1.toNat), (1, port), (1, kind)]).retireRank ch cs true).detect
    evDramUe.comp evDramUe.code s1.recd.next

/-! ### Activations (R295, R300, R301) -/

/-- Space-saving: one activation of a row in a table of 32 rows; the table, and the row's count after it (R300). -/
def spaceSave (rows : List (Nat × Nat)) (row : Nat) : List (Nat × Nat) × Nat :=
  match rows.find? (fun r => r.1 == row) with
  | some r => (rows.map (fun x => if x.1 = row then (row, x.2 + 1) else x), r.2 + 1)
  | none =>
    if rows.length < 32 then (rows ++ [(row, 1)], 1)
    else
      let least := rows.foldl (fun m x => Nat.min m x.2) (nth (0, 0) rows 0).2
      match rows.findIdx? (fun x => x.2 == least) with
      | none => (rows, 0)
      | some i => (rows.set i (row, least + 1), least + 1)

/-- The port with the most activations in a bank; the lowest number wins a tie (R301). -/
def busiestPort (ports : Mem Nat) : Nat :=
  (List.range 8).foldl (fun b p => if Mem.get 0 ports b < Mem.get 0 ports p then p else b) 0

/-- One activation of a row by a port: counted; the first count past 4,096 in the window throttles the busiest port, and each
further multiple brings an RFM where the devices require it (R300, R301). -/
def State.activate (s : State) (ch cs m port : Nat) : State :=
  let key := (4 * ch + cs) * 32 + m % 32
  let row := s.dramRow m
  let b := Mem.get {} s.dram.track key
  if bit (byteAt s.dram.board 0) 7 ∧ b.openRow = some row then s
  else
    let c := spaceSave b.rows row
    let ports := Mem.upd 0 b.ports port (· + 1)
    let crossed := c.2 % 4096 = 1 ∧ 4096 < c.2
    let first := crossed ∧ b.throttled.isNone
    let b1 := { b with
      rows := c.1, ports := ports
      openRow := if bit (byteAt s.dram.board 0) 7 then some row else none
      throttled := if first then some (busiestPort ports) else b.throttled
      recorded := b.recorded || decide first
      rfms := if crossed ∧ 8192 < c.2 ∧ Config.rfmRequired then b.rfms + 1 else b.rfms }
    let s1 := { s with dram := { s.dram with
      track := Mem.set {} s.dram.track key b1
      throttles := if first then s.dram.throttles + 1 else s.dram.throttles } }
    if first then
      s1.raise evRowDisturbThrottle 255 [(1, ch), (1, cs), (1, m % 32), (4, row), (1, busiestPort ports), (4, c.2)]
    else s1

/-- A request wakes a channel that is in self-refresh (R298). -/
def State.wakeChannel (s : State) (ch : Nat) : State :=
  { s with dram := { s.dram with selfRefresh := Mem.set false s.dram.selfRefresh ch false } }

/-! ### The commands -/

/-- What a request gets: an error, or the data of a read (none for a write). -/
def State.dramReply (s : State) (port : Nat) (r : Option Bytes) : State :=
  { s with dram := { s.dram with reply := some (port, r) } }

/-- A request served by the rank that holds its line: its read, if it makes one, may be corrected or fail; its write may fail
after three retries; either failure takes the rank out of service (R289, R302 to R304). A write stands in the line that its owner
rebuilds (log 62). -/
def State.serve (s : State) (r : DramReq) (ch cs m : Nat) : State :=
  let s1 := (s.wakeChannel ch).activate ch cs m r.port
  let reads := !r.isWrite || decide (r.len < 64)
  let s2 := if r.isWrite then { s1 with dram := { s1.dram with cells := writeBytes s1.dram.cells r.addr (padTo r.len r.data) } }
    else s1
  let s3 := match reads, eccOf r.wrong with
    | true, .corrected => s2.correctedError ch cs
    | true, .uncorrectable => s2.uncorrectable ch cs r.addr r.port 1
    | _, _ => s2
  let s4 := if r.isWrite ∧ 4 ≤ r.alerts then s3.uncorrectable ch cs r.addr r.port 2 else s3
  let bad := (reads && eccOf r.wrong == .uncorrectable) || (r.isWrite && decide (4 ≤ r.alerts))
  s4.dramReply r.port (if bad then none else some (if r.isWrite then [] else readBytes s.dram.cells r.addr r.len))

/-- DRAM_REQUEST (R287 to R289, R298 to R304). A request lies within one line of an in-service rank; in SAFE-HALT's
self-refresh it fails to its requester. -/
def execDramRequest (r : DramReq) (s : State) : Host.Outcome State Fault Refusal :=
  .next (if 7 < r.port ∨ r.len = 0 ∨ 64 < r.addr % 64 + r.len ∨ !s.dram.resetHigh ∨ s.dram.board.isEmpty then s
    else
      let p := s.dramPlace r.addr
      match (if p.2.1 < 4 then s.csOf p.1 p.2.1 else none) with
      | none => s
      | some cs =>
        if s.dmcServes p.1 then s.serve r p.1 cs p.2.2
        else if s.psm.mode = .safeHalt ∨ s.psm.mode = .maintenance then s.dramReply r.port none
        else s)

/-- The counts of a bank restart, and its throttle is lifted (R300, R313). -/
def RowTrack.restart (b : RowTrack) : RowTrack :=
  { b with rows := [], ports := [], throttled := none, recorded := false, rfms := 0 }

/-- ROW_DISTURB_WINDOW (R300, R313). -/
def execRowDisturbWindow (s : State) : Host.Outcome State Fault Refusal :=
  .next { s with dram := { s.dram with
    track := s.dram.track.filterMap (fun e => if e.2.restart = {} then none else some (e.1, e.2.restart)) } }

/-- REFRESH (R296): a refresh of a bank is issued, postponed up to 4 times, or issued early up to 4 times; it closes the bank's
open row (R295). -/
def execRefresh (ch rank bank : Nat) (act : RefreshAct) (s : State) : Host.Outcome State Fault Refusal :=
  .next (if 1 < ch ∨ 3 < rank ∨ 31 < bank ∨ !s.dmcAwake ch ∨ s.rank ch rank = .absent then s
    else
      let key := (4 * ch + rank) * 32 + bank
      let upd := fun (b : RowTrack) => match act with
        | .issue => { b with refreshes := b.refreshes + 1, openRow := none }
        | .postpone => if b.debt < 4 then { b with debt := b.debt + 1 } else { b with refreshes := b.refreshes + 1, openRow := none }
        | .early => if b.debt > -4 then { b with refreshes := b.refreshes + 1, debt := b.debt - 1, openRow := none } else b
      { s with dram := { s.dram with track := Mem.upd {} s.dram.track key upd } })

/-- ZQ_CALIBRATION (R292): no delay changes. -/
def execZqCalibration (s : State) : Host.Outcome State Fault Refusal :=
  .next (if s.dmcAwake 0 ∨ s.dmcAwake 1 then { s with dram := { s.dram with zq := s.dram.zq + 1 } } else s)

/-- MR4_READ (R292, R296, R309): the refresh rate the devices ask for. -/
def execMr4Read (doubled : Bool) (s : State) : Host.Outcome State Fault Refusal :=
  .next (if s.dmcAwake 0 ∨ s.dmcAwake 1 then { s with dram := { s.dram with refresh2x := doubled } } else s)

/-- SCRUB_READ (R303): a patrol read of a line of an in-service rank through port 7. -/
def execScrubRead (ch rank line : Nat) (wrong : List Nat) (s : State) : Host.Outcome State Fault Refusal :=
  .next (if 1 < ch ∨ 3 < rank ∨ rankLines s.dram.board ≤ line ∨ !s.dmcNormal then s
    else match s.logicalOf ch rank with
      | none => s
      | some l =>
        let s1 := (s.wakeChannel ch).activate ch rank line 7
        let s2 := { s1 with dram := { s1.dram with scrubbed := s1.dram.scrubbed + 1 } }
        match eccOf wrong with
        | .clean => s2
        | .corrected => s2.correctedError ch rank
        | .uncorrectable => s2.uncorrectable ch rank (s.dramAddr ch l line) 7 1)

/-- RANK_MIGRATED (R306, R307, R310): the rank map changes, the old rank is RETIRED and the target in service; a rank that
failed meanwhile is handled now. -/
def execRankMigrated (ch rebuilt ms : Nat) (s : State) : Host.Outcome State Fault Refusal :=
  .next (if !s.dmcNormal then s
    else match Mem.get none s.dram.migration ch with
      | none => s
      | some m =>
        let s1 := match s.logicalOf ch m.fromCs with
          | some l => s.mapRank ch l (some m.toCs)
          | none => s
        let s2 := (s1.setRank ch m.fromCs .retired).setRank ch m.toCs .inService
        let mine := s.dram.deferredFail.filter (fun k => k / 4 == ch)
        let s3 := { s2 with dram := { s2.dram with
          migration := Mem.set none s2.dram.migration ch none
          deferredFail := s2.dram.deferredFail.filter (fun k => k / 4 != ch) } }
        let s4 := s3.raise evRankMigrated 255 [(1, ch), (1, m.fromCs), (1, m.toCs), (4, rebuilt), (4, ms)]
        mine.foldl (fun s k => s.retireRank ch (k % 4) true) s4)

/-- SPARE_INIT (R294): a spare is ready, or unavailable when a line is uncorrectable. `badLine` is the failing line's address as
the scrubber reports it. -/
def execSpareInit (ch rank : Nat) (badLine : Option Nat) (s : State) : Host.Outcome State Fault Refusal :=
  .next (if !s.dmcNormal ∨ 1 < ch ∨ 3 < rank ∨ s.rank ch rank ≠ .spare ∨ Mem.get false s.dram.spareInit (4 * ch + rank) then s
    else match badLine with
      | none => { s with dram := { s.dram with spareInit := Mem.set false s.dram.spareInit (4 * ch + rank) true } }
      | some a => (s.setRank ch rank .spareUnavailable).raise evDramSpareUnavailable 255 [(1, ch), (1, rank), (8, a)])

/-- Every bank of a channel precharged (R297). -/
def closeRows (ch : Nat) (track : Mem RowTrack) : Mem RowTrack :=
  track.filterMap (fun e =>
    let b : RowTrack := if e.1 / 128 = ch then { e.2 with openRow := none } else e.2
    if b = {} then none else some (e.1, b))

/-- SELF_REFRESH_ENTRY (R297, R298, R311): a request before the commit point aborts the entry, and pair C asks again; one after
it makes the channel exit at once, except in SAFE-HALT. -/
def execSelfRefreshEntry (ch : Nat) (requestBefore requestAfter : Bool) (s : State) : Host.Outcome State Fault Refusal :=
  .next (
    let halted := s.psm.mode == .safeHalt || s.psm.heldFromHalt
    if decide (1 < ch) || !s.dram.srRequested || !s.dram.resetHigh || !(s.psm.mode == .rest || halted) || requestBefore then s
    else
      { s with dram := { s.dram with
          track := closeRows ch s.dram.track
          selfRefresh := Mem.set false s.dram.selfRefresh ch (!requestAfter || halted) } })

/-! ### Bring-up (R293, R294, R306, R312) -/

/-- The ranks as BOOT finds them (R306, R312): a new board profile puts the fitted ranks in service but for the spare; a
migration that a DRAIN stopped ends with the failed rank RETIRED and the spare in its logical rank. -/
def State.bootRanks (s : State) : State :=
  let n := boardRanks s.dram.board
  let spare := bit (byteAt s.dram.board 0) 6
  if s.dram.ranks.isEmpty then
    ([0, 1].flatMap (fun ch => (List.range n).map (fun cs => (ch, cs)))).foldl (fun s k =>
      if spare ∧ k.2 + 1 = n then s.setRank k.1 k.2 .spare else (s.setRank k.1 k.2 .inService).mapRank k.1 k.2 (some k.2)) s
  else [0, 1].foldl (fun s ch =>
    match (List.range 4).find? (fun cs => s.rank ch cs == .migratingOut), (List.range 4).find? (fun cs => s.rank ch cs == .migratingIn) with
    | some o, some i =>
      let s1 := match s.logicalOf ch o with
        | some l => s.mapRank ch l (some i)
        | none => s
      (s1.setRank ch o .retired).setRank ch i .inService
    | _, _ => s) s

/-- Forty margins, zero where the report is shorter. -/
def fortyMargins (l : List Nat) : List Nat := (List.range 40).map (fun i => nth 0 l i)

/-- The first margin of a report that lies below the required one (R294). -/
def lowMargin (r : RankReport) (need : Nat) : Option Nat :=
  (r.caMargin :: (fortyMargins r.rdMargin ++ fortyMargins r.wrMargin)).find? (fun m => decide (m < need))

/-- The margins of a rank as MB_DRAM_PROFILE returns them: 40 read, 40 write, at most 32 (R293, R309). -/
def State.storeMargins (s : State) (r : RankReport) : State :=
  let vals := fortyMargins r.rdMargin ++ fortyMargins r.wrMargin
  let put := fun (m : Mem Nat) (x : Nat × Nat) => Mem.set 0 m (80 * (4 * r.ch + r.rank) + x.2) (Nat.min x.1 32)
  { s with dram := { s.dram with margins := vals.zipIdx.foldl put s.dram.margins } }

/-- One rank's verdict (R294): a failed in-service rank is recorded and takes the device to SAFE-HALT, a failed spare is
unavailable. The codes of the signal and the direction are free values (log 62). -/
def State.judgeRank (s : State) (need : Nat) (r : RankReport) : State :=
  let low := lowMargin r need
  match s.rank r.ch r.rank with
  | .inService =>
    if low.isNone ∧ r.badLine.isNone then s
    else
      let a := s.draw 8
      let b := a.2.draw 32
      let c := b.2.draw 32
      let margin := match low with | some m => m | none => c.1.toNat
      c.2.dangerHalt evDramProfileFail evDramProfileFail.comp
        [(1, r.ch), (1, r.rank), (1, a.1.toNat), (4, b.1.toNat), (4, margin)] true
  | .spare =>
    if low.isNone then s
    else
      let a := s.draw 8
      (a.2.setRank r.ch r.rank .spareUnavailable).raise evDramSpareUnavailable 255 [(1, r.ch), (1, r.rank), (8, a.1.toNat)]
  | _ => s

/-- DRAM_BRINGUP (R293, R294, R306, R312, R613, R614): every fitted rank is reported on once; the memory then reads as zeros, the
margins stand, and a capacity below the profile's is a DEGRADED cause (R209, R308). -/
def execDramBringup (reports : List RankReport) (s : State) : Host.Outcome State Fault Refusal :=
  .next (
    let n := boardRanks s.dram.board
    let fitted := [0, 1].flatMap (fun ch => (List.range n).map (fun rk => (ch, rk)))
    if s.psm.mode ≠ .boot ∨ s.psm.pins.testEn ∨ s.dram.resetHigh ∨ s.dram.board.isEmpty ∨
        !(fitted.all (fun k => reports.countP (fun r => r.ch == k.1 && r.rank == k.2) == 1)) then s
    else
      let s1 := { s with dram := { s.dram with resetHigh := true, cells := [] } }.bootRanks
      let s2 := { s1 with dram := { s1.dram with mapCacheNow := s1.mapCacheFor s1.dramGib } }
      let mine := reports.filter (fun r => fitted.contains (r.ch, r.rank))
      let s3 := mine.foldl (fun s r => (s.storeMargins r).judgeRank (byteAt s.dram.board 14) r) s2
      let full := 2 * (n - flag (bit (byteAt s.dram.board 0) 6))
      if (List.range 8).countP (fun k => (Mem.get none s3.dram.rankMap k).isSome) < full then s3.setCause 1 evRankLostNoSpare.code
      else s3)

/-! ### MB_DRAM_PROFILE (R309) -/

/-- RANK_STATE codes (R309). -/
def RankState.code : RankState → Nat
  | .absent => 0 | .inService => 1 | .spare => 2 | .spareUnavailable => 3 | .migratingOut => 4 | .migratingIn => 5 | .retired => 6

/-- The 1,856 bytes of R309; `copied` is MIG_DONE, which no command of the table advances: a free value below MIG_TOTAL while a
migration runs (log 62). -/
def State.dramProfile (s : State) (copied : Nat) : Bytes :=
  let running := s.dram.migration.any (fun e => e.2.isSome)
  let total := if running then rankLines s.dram.board else 0
  let states := (List.range 8).foldl (fun n k => n + (Mem.get RankState.absent s.dram.ranks k).code * 16 ^ k) 0
  leBytes 4 states ++ leBytes 2 s.dramGib ++ leBytes 2 s.dram.mapCacheNow ++ leBytes 4 (Mem.get 0 s.dram.ce 0) ++
    leBytes 4 (Mem.get 0 s.dram.ce 1) ++ leBytes 2 (Mem.get 0 s.dram.ue 0) ++ leBytes 2 (Mem.get 0 s.dram.ue 1) ++
    leBytes 4 s.dram.throttles ++ leBytes 4 (copied % total * flag running) ++ leBytes 4 total ++
    leBytes 32 (flag s.dram.refresh2x) ++ padTo 1152 s.dram.board ++
    (List.range 640).map (fun i => byteOf (Mem.get 0 s.dram.margins i))

/-- MB_DRAM_PROFILE (R309). -/
def execMbDramProfile (f : Nat) (s : State) : Host.Outcome State Fault Refusal :=
  .next (s.mbRun f 0x0A01 anyPayload (fun s _ =>
    let d := s.draw 32
    (d.2, some (mbOk (d.2.dramProfile d.1.toNat)))))

end Sys2Proof.Machine
end

