-- ==== Sys2Proof/Machine/Firmware.lean ====
section
/-! DEFINITION. Firmware images, slots and activation (R152, R161, R222 to R226, R231). -/

namespace Sys2Proof.Machine

/-- Firmware slot `n`. -/
def State.fwSlot (s : State) (n : Nat) : FwSlot := Mem.get {} s.nvs.fw n

/-- The first check of R224 that an image fails: 1 format and length, 2 signature, 3 SVN. -/
def State.fwReason (s : State) (img : Bytes) : Option Nat :=
  if leAt img 0 4 ≠ 0x5746584C ∨ leAt img 4 2 ≠ 1 ∨ leAt img 16 4 ≠ img.length ∨ 1572864 < img.length ∨ img.length < 128 ∨
      !allZero (slice img 20 12) then some 1
  else if !Config.signatureOk img then some 2
  else if leAt img 6 2 < s.nvs.minSvn then some 3
  else none

/-- The slot record of an image (R223). -/
def fwSlotOf (img : Bytes) : FwSlot :=
  { present := true, svn := leAt img 6 2, revision := slice img 8 8, length := img.length, ok := true, image := img }

/-- The slot a commit names: 0 leaves the choice to the device, the lowest writable slot that does not run (log 36). -/
def State.fwTarget (s : State) (fs : Nat) : Nat := if fs ≠ 0 then fs else if s.nvs.fwRunning = 2 then 3 else 2

/-- FIRMWARE_IMAGE_DOWNLOAD (R222; NVM Express): NUMD dwords at offset OFST. -/
def execFirmwareImageDownload (id : CmdId) (data : Bytes) (s : State) : Host.Outcome State Fault Refusal :=
  .next (match s.live id true 0x11 with
    | none => s
    | some c =>
      let n := 4 * (c.sqe.cdw10.toNat + 1)
      let off := 4 * c.sqe.cdw11.toNat
      if 1572864 < off + n then s.finish id .invalidField
      else if sglShort c.sqe n then s.finish id .dataSglLengthInvalid
      else (s.updFn c.func (fun x => { x with fwDownload := splice x.fwDownload off (padTo n data) })).finish id .success)

/-- Writes the downloaded image into a slot, or refuses it (R222, R224). -/
def State.commitImage (s : State) (id : CmdId) (f slot : Nat) : State × Bool :=
  let img := (s.fn f).fwDownload
  if slot ≠ 2 ∧ slot ≠ 3 then (s.finish id .invalidFirmwareSlot, false)
  else match s.fwReason img with
    | some r => ((s.raise evFwImageRejected 255 [(1, r), (1, slot)]).finish id .invalidFirmwareImage, false)
    | none =>
      let s1 := { s with nvs := { s.nvs with fw := Mem.set {} s.nvs.fw slot (fwSlotOf img) } }
      ((s1.updFn f (fun x => { x with fwDownload := [] })).raise evFwSlotWritten 255
        [(1, slot), (8, leAt img 8 8), (2, leAt img 6 2)], true)

/-- FIRMWARE_COMMIT (R224, R231): Commit Actions 000b and 001b write the slot, 001b and 010b make it active at the next BOOT. -/
def execFirmwareCommit (id : CmdId) (s : State) : Host.Outcome State Fault Refusal :=
  .next (match s.live id true 0x10 with
    | none => s
    | some c =>
      let act := field c.sqe.cdw10.toNat 5 3
      let slot := s.fwTarget (field c.sqe.cdw10.toNat 2 0)
      if act = 3 ∨ s.cfgBusy then s
      else if act = 0 ∨ act = 1 then
        let r := s.commitImage id c.func slot
        if !r.2 then r.1
        else if act = 0 then r.1.finish id .success
        else ({ r.1 with nvs := { r.1.nvs with fwActive := slot } }).finish id .success
      else if act = 2 then
        if 3 < slot then s.finish id .invalidFirmwareSlot
        else if !(s.fwSlot slot).present ∧ slot ≠ 1 then s.finish id .invalidFirmwareImage
        else ({ s with nvs := { s.nvs with fwActive := slot } }).finish id .success
      else s.finish id .invalidField)

/-- A Firmware Activation Starting notice on every function that enabled it (R152; NVM Express, log 12). -/
def State.activationNotice (s : State) : State :=
  s.present.foldl (fun s f =>
    if (s.fn f).features.aec.getLsbD 9 then s.asyncEvent f (BitVec.ofNat 32 (2 + 1 * 2 ^ 8 + 0x03 * 2 ^ 16)) else s) s

/-- FIRMWARE_COMMIT_ACTIVATE (R152 steps 1 and 2, R224, R231): Commit Action 011b; with nothing downloaded, the image that the
slot holds. A virtual function's commit activates as a physical function's does (log 97). -/
def execFirmwareCommitActivate (id : CmdId) (s : State) : Host.Outcome State Fault Refusal :=
  .next (match s.live id true 0x10 with
    | none => s
    | some c =>
      let slot := s.fwTarget (field c.sqe.cdw10.toNat 2 0)
      if field c.sqe.cdw10.toNat 5 3 ≠ 3 ∨ s.cfgBusy ∨ s.hif.activating.isSome then s
      else
        let start := fun (s : State) =>
          { s with hif := { s.hif with fetchStopped := true, activating := some (id, slot) } }.activationNotice
        if (s.fn c.func).fwDownload.isEmpty ∧ (s.fwSlot slot).present then start s
        else
          let r := s.commitImage id c.func slot
          if r.2 then start r.1 else r.1)

/-- Every accepted command but the commit itself has completed; Asynchronous Event Requests wait for events, not for work
(R152 step 3, log 36). -/
def State.onlyCommitLeft (s : State) (id : CmdId) : Bool :=
  s.hif.fetched.isEmpty && s.inflight.all (fun e => e.1 == id || (e.2.sqe.admin && e.2.sqe.opcode == 0x0C))

/-- No mailbox request is running (R226): one that was taken and looked at, or one whose function has been reset since. A commit that
waits for the activation to end is none (R231). -/
def State.mailboxesIdle (s : State) : Bool :=
  s.fns.all (fun e =>
    let m := e.2.mbox
    (m.state != .busy || m.unchecked || m.prepared.isSome || mbCmd m.taken == 0x0204) &&
      m.orphans.all (fun o => o.2 || mbCmd o.1 == 0x0204))

/-- FW_ACTIVATION (R152 steps 4 and 5, R161, R224, R226): the pairs have finished their work; slot 1 enters MAINTENANCE. `failed` names the pair that does not restart within its 250 ms. -/
def execFwActivation (failed : Option Nat) (ms : Nat) (s : State) : Host.Outcome State Fault Refusal :=
  .next (match s.hif.activating with
    | none => s
    | some (id, slot) =>
      if !s.onlyCommitLeft id ∨ !s.mailboxesIdle then s
      else
        let s0 := { s with hif := { s.hif with fetchStopped := false, activating := none } }
        let s1 := match failed with
          | some _ => s0.finish id .invalidFirmwareImage
          | none =>
            let old := s0.fwRev
            let s' := { s0 with nvs := { s0.nvs with
              fwActive := slot, fwRunning := slot
              minSvn := if slot = 1 then s0.nvs.minSvn else Nat.max s0.nvs.minSvn (s0.fwSlot slot).svn } }
            let s2 := s'.raise evFwActivated 255 [(8, leNat old), (8, leNat s'.fwRev), (4, ms)]
            let s3 := if slot = 1 ∧ s2.psm.mode ≠ Mode.maintenance then s2.toMode Mode.maintenance evFwActivated.code
              else s2.leaveMaint evFwActivated.code
            s3.finish id .success
        ((s1.present.filter (fun f => (s1.fn f).resetPending)).foldl State.controllerReset s1))

/-! ### At BOOT -/

/-- The slot whose image verifies at BOOT: the active one, the other writable slot, then slot 1, the recovery image (R225). -/
def State.bootSlot (s : State) : Nat :=
  let order := [s.nvs.fwActive] ++ ([2, 3].filter (· != s.nvs.fwActive)) ++ [1]
  (order.find? (fun n => n == 1 || ((s.fwSlot n).present && (s.fwSlot n).ok))).getD 1

/-- The firmware at BOOT (R225): a fallback is recorded with the slots tried. -/
def State.bootFirmware (s : State) : State :=
  let n := s.bootSlot
  let order := [s.nvs.fwActive] ++ ([2, 3].filter (· != s.nvs.fwActive)) ++ [1]
  let tried := order.takeWhile (· != n) ++ [n]
  let s1 := { s with nvs := { s.nvs with fwRunning := n } }
  if n = s.nvs.fwActive then s1
  else s1.raise evFwBootFallback 255 [(1, tried.foldl (fun m i => m ||| 2 ^ i) 0), (1, n)]

/-- The minimum SVN follows the image that completes its first BOOT (R224). -/
def State.bootSvn (s : State) : State :=
  let n := s.nvs.fwRunning
  { s with nvs := { s.nvs with minSvn := if n = 1 then s.nvs.minSvn else Nat.max s.nvs.minSvn (s.fwSlot n).svn } }

end Sys2Proof.Machine
end

