-- ==== Sys2Proof/Machine/FlashProfile.lean ====
section
/-! DEFINITION. What MB_FLASH_PROFILE reports of a channel and its dies (R239). -/

namespace Sys2Proof.Machine

/-- One bit per die of a channel, in the order chip enable × 4 + LUN. -/
def dieBits (ch : Nat) (p : Nat → Bool) : Nat :=
  (List.range 32).foldl (fun n j => n + flag (p (16 * j + ch)) * 2 ^ j) 0

/-- The erase counts of a die's blocks that have been erased (R239). -/
def State.dieErases (s : State) (d : Nat) : List Nat :=
  s.flash.erases.filterMap (fun e => if e.1 / 2 ^ 20 = d then some e.2 else none)

/-- The 32 bytes of a die (R239). Its blocks are its good native-mode blocks (log 69). -/
def State.dieEntry (s : State) (d : Nat) : Bytes :=
  let x := s.die d
  let counts := s.dieErases d
  let mean := counts.foldl (· + ·) 0 / Nat.max 1 x.good
  leBytes 32 (x.state + (if x.state = 1 then x.cell else 0) * 2 ^ 8 + x.good % 65536 * 2 ^ 16 + x.free % 65536 * 2 ^ 32 +
    x.spares.length % 65536 * 2 ^ 48 + x.retired % 65536 * 2 ^ 64 + mean % 2 ^ 32 * 2 ^ 80 +
    Nat.min 0xFFFF (counts.foldl Nat.max 0) * 2 ^ 112)

/-- The die lies in a complete quad on channels in use (R236, R273); one that has failed still does (log 69). -/
def State.dieUsed (s : State) (d : Nat) : Bool :=
  ((s.die d).state == 1 || (s.die d).state == 2) && (quadDies (dieQuad d)).all s.channelOn

/-- The 32-byte header and the 32 die entries of a channel (R239). -/
def State.flashProfile (s : State) (ch : Nat) : Bytes :=
  let c := if s.channelOn ch then Mem.get {} s.flash.chans ch else {}
  let eye := fun (n : Nat) => if c.iface = 0 then 0 else n
  leBytes 32 (ch + c.iface * 2 ^ 8 + c.rate % 65536 * 2 ^ 16 + dieBits ch (fun d => (s.die d).state != 0) * 2 ^ 32 +
    dieBits ch s.dieUsed * 2 ^ 64 + eye c.readEye % 65536 * 2 ^ 96 + eye c.writeEye % 65536 * 2 ^ 112) ++
    (List.range 32).flatMap (fun j => s.dieEntry (16 * j + ch))

/-- MB_FLASH_PROFILE (R239). -/
def execMbFlashProfile (f : Nat) (s : State) : Host.Outcome State Fault Refusal :=
  .next (s.mbRun f 0x0A02 anyPayload (fun s p =>
    (s, some (if 15 < byteAt p 0 then mbErr 0x0004 else mbOk (s.flashProfile (byteAt p 0))))))

end Sys2Proof.Machine
end

