-- ==== Sys2Proof/Machine/JeriecDecode.lean ====
section
/-! DEFINITION. The encoding of the sculls' instructions (R468, R469, R471): from program words to the instruction, and what the repeat prefix and the image checks ask of an instruction (R479, R498). -/

namespace Sys2Proof.Machine

/-- An instruction as its words say it (R469, R471); the commands of the instructions carry the same operands. -/
inductive JOp where
  | ldl (d : BitVec 3) (short : BitVec 8)
  | stl (s : BitVec 3) (short : BitVec 8)
  | ldx (d : BitVec 3) (short : BitVec 8)
  | stx (s : BitVec 3) (short : BitVec 8)
  | movi (d : BitVec 3) (imm : BitVec 8)
  | beqz (d : BitVec 3) (off : BitVec 5)
  | bnez (d : BitVec 3) (off : BitVec 5)
  | bltz (d : BitVec 3) (off : BitVec 5)
  | bgez (d : BitVec 3) (off : BitVec 5)
  | add (d s : BitVec 3)
  | sub (d s : BitVec 3)
  | mul (d s : BitVec 3)
  | div (d s : BitVec 3)
  | rem (d s : BitVec 3)
  | and (d s : BitVec 3)
  | or (d s : BitVec 3)
  | xor (d s : BitVec 3)
  | shl (d s : BitVec 3)
  | shr (d s : BitVec 3)
  | sar (d s : BitVec 3)
  | min (d s : BitVec 3)
  | max (d s : BitVec 3)
  | extb (d s : BitVec 3)
  | mkpair (d s : BitVec 3)
  | not (d s : BitVec 3)
  | addi (d : BitVec 3) (imm : BitVec 5)
  | shli (d : BitVec 3) (imm : BitVec 5)
  | shri (d : BitVec 3) (imm : BitVec 5)
  | sari (d : BitVec 3) (imm : BitVec 5)
  | ld (d : BitVec 3) (a u : BitVec 2)
  | st (d : BitVec 3) (a u : BitVec 2)
  | setdpg (page : BitVec 6)
  | acshr (x : BitVec 1) (n : BitVec 5)
  | rep (n : BitVec 8)
  | repDr (r : BitVec 3)
  | setxpg (r : BitVec 3)
  | jmpr (r : BitVec 3)
  | setiv (r : BitVec 3)
  | acadd (x : BitVec 1) (r : BitVec 3)
  | freew (a : BitVec 2)
  | restrict (a m : BitVec 2)
  | trap (n : BitVec 4)
  | nop
  | endInv
  | reti
  | ei
  | di
  | acclr (x : BitVec 1)
  | send (p : BitVec 4) (d : BitVec 3)
  | recv (p : BitVec 4) (d : BitVec 3)
  | beq (s t : BitVec 3) (w : BitVec 14)
  | bne (s t : BitVec 3) (w : BitVec 14)
  | blt (s t : BitVec 3) (w : BitVec 14)
  | bge (s t : BitVec 3) (w : BitVec 14)
  | bltu (s t : BitVec 3) (w : BitVec 14)
  | bgeu (s t : BitVec 3) (w : BitVec 14)
  | bteq (t : BitVec 4) (d : BitVec 3) (w : BitVec 14)
  | btne (t : BitVec 4) (d : BitVec 3) (w : BitVec 14)
  | jmp (w : BitVec 14)
  | call (d : BitVec 3) (w : BitVec 14)
  | mkcode (d : BitVec 3) (w : BitVec 14)
  | movw (d : BitVec 3) (w : BitVec 14)
  | movt (d : BitVec 3) (w : BitVec 14)
  | brdy (sending : BitVec 1) (p : BitVec 4) (w : BitVec 14)
  | mov (r s : BitVec 4)
  | retag (d : BitVec 3) (t : BitVec 4)
  | rdspr (d : BitVec 3) (code : BitVec 4)
  | ldp (d : BitVec 3) (a : BitVec 2)
  | stp (d : BitVec 3) (a : BitVec 2)
  | lda (ka a u : BitVec 2)
  | sta (ka a u : BitVec 2)
  | aadd (a : BitVec 2) (d : BitVec 3)
  | narrow (a : BitVec 2) (d : BitVec 3)
  | gettag (d s : BitVec 3)
  | aoff (d : BitVec 3) (a : BitVec 2)
  | arem (d : BitVec 3) (a : BitVec 2)
  | mac (x : BitVec 1) (s t : BitVec 3)
  deriving DecidableEq, Repr

/-- Field [hi:lo] of a program word. -/
def wf (w : BitVec 14) (hi lo : Nat) : Nat := field w.toNat hi lo

/-- A register or field of `n` bits from bit `lo`. -/
def wbits (w : BitVec 14) (n lo : Nat) : BitVec n := BitVec.ofNat n (w.toNat / 2 ^ lo)

/-- The ALU group (R470). -/
def aluOf (op : Nat) (d s : BitVec 3) : JOp :=
  match op with
  | 0 => .add d s | 1 => .sub d s | 2 => .mul d s | 3 => .div d s | 4 => .rem d s
  | 5 => .and d s | 6 => .or d s | 7 => .xor d s | 8 => .shl d s | 9 => .shr d s
  | 10 => .sar d s | 11 => .min d s | 12 => .max d s | 13 => .extb d s | 14 => .mkpair d s
  | _ => .not d s

/-- The miscellaneous group (R471); none for a reserved encoding. -/
def miscOf (w : BitVec 14) : Option JOp :=
  let r := wbits w 3 0
  match wf w 7 6 with
  | 0 => some (.setdpg (wbits w 6 0))
  | 1 => some (.acshr (wbits w 1 5) (wbits w 5 0))
  | 2 =>
    match wf w 5 3 with
    | 0 => some (.repDr r) | 1 => some (.setxpg r) | 2 => some (.jmpr r) | 3 => some (.setiv r)
    | 4 => some (.acadd 0 r) | 5 => some (.acadd 1 r)
    | 6 => if wf w 2 2 = 0 then some (.freew (wbits w 2 0)) else none
    | _ => none
  | _ =>
    match wf w 5 4 with
    | 0 => some (.restrict (wbits w 2 2) (wbits w 2 0))
    | 1 => some (.trap (wbits w 4 0))
    | 2 =>
      match wf w 3 0 with
      | 0 => some (.nop) | 1 => some (.endInv) | 2 => some (.reti) | 3 => some (.ei) | 4 => some (.di)
      | 5 => some (.acclr 0) | 6 => some (.acclr 1) | _ => none
    | _ => none

/-- The two-word group 111011 (R469); none for a reserved encoding, bit [13] of an absolute target included. -/
def wideOf (w w1 : BitVec 14) : Option JOp :=
  let d := wbits w 3 0
  let flat := wf w 4 3 = 0
  let abs := w1.toNat < 8192
  match wf w 7 5 with
  | 0 => if wf w 4 0 = 0 ∧ abs then some (.jmp w1) else none
  | 1 => if flat ∧ abs then some (.call d w1) else none
  | 2 => if flat ∧ abs then some (.mkcode d w1) else none
  | 3 => if flat then some (.movw d w1) else none
  | 4 => if flat then some (.movt d w1) else none
  | 5 => some (.brdy (wbits w 1 4) (wbits w 4 0) w1)
  | _ => none

/-- The group 1111xx (R469); none for a reserved register number or RDSPR code. -/
def highOf (w : BitVec 14) : Option JOp :=
  match wf w 9 6 with
  | 0 | 1 | 2 | 3 =>
    if wf w 7 4 < 14 ∧ wf w 3 0 < 14 then some (.mov (wbits w 4 4) (wbits w 4 0)) else none
  | 4 | 5 => some (.retag (wbits w 3 4) (wbits w 4 0))
  | 6 | 7 => if wf w 3 0 < 10 then some (.rdspr (wbits w 3 4) (wbits w 4 0)) else none
  | 8 => some (if wf w 5 5 = 0 then .ldp (wbits w 3 2) (wbits w 2 0) else .stp (wbits w 3 2) (wbits w 2 0))
  | 9 => some (.lda (wbits w 2 4) (wbits w 2 2) (wbits w 2 0))
  | 10 => some (.sta (wbits w 2 4) (wbits w 2 2) (wbits w 2 0))
  | 11 => some (if wf w 5 5 = 0 then .aadd (wbits w 2 3) (wbits w 3 0) else .narrow (wbits w 2 3) (wbits w 3 0))
  | 12 => some (.gettag (wbits w 3 3) (wbits w 3 0))
  | 13 => some (if wf w 5 5 = 0 then .aoff (wbits w 3 2) (wbits w 2 0) else .arem (wbits w 3 2) (wbits w 2 0))
  | _ => some (.mac (wbits w 1 6) (wbits w 3 3) (wbits w 3 0))

/-- The instruction that a word and the word after it encode (R469, R471); none for a reserved encoding. -/
def jeriecDecode (w w1 : BitVec 14) : Option JOp :=
  let d := wbits w 3 8
  let short := wbits w 8 0
  match wf w 13 11 with
  | 0 => some (.ldl d short)
  | 1 => some (.stl d short)
  | 2 => some (.ldx d short)
  | 3 => some (.stx d short)
  | 4 => some (.movi d short)
  | 5 =>
    if wf w 10 10 = 0 then
      let d := wbits w 3 7
      let o := wbits w 5 0
      some (match wf w 6 5 with | 0 => .beqz d o | 1 => .bnez d o | 2 => .bltz d o | _ => .bgez d o)
    else some (aluOf (wf w 9 6) (wbits w 3 3) (wbits w 3 0))
  | 6 =>
    if wf w 10 10 = 0 then
      let d := wbits w 3 5
      let i := wbits w 5 0
      some (match wf w 9 8 with | 0 => .addi d i | 1 => .shli d i | 2 => .shri d i | _ => .sari d i)
    else match wf w 9 8 with
      | 0 => some (if wf w 7 7 = 0 then .ld (wbits w 3 4) (wbits w 2 2) (wbits w 2 0)
                   else .st (wbits w 3 4) (wbits w 2 2) (wbits w 2 0))
      | 1 => miscOf w
      | 2 => some (.rep short)
      | _ => some (if wf w 7 7 = 0 then .send (wbits w 4 3) (wbits w 3 0) else .recv (wbits w 4 3) (wbits w 3 0))
  | _ =>
    if wf w 10 10 = 0 then
      let s := wbits w 3 3
      let t := wbits w 3 0
      if wf w 9 9 = 0 then
        match wf w 8 6 with
        | 0 => some (.beq s t w1) | 1 => some (.bne s t w1) | 2 => some (.blt s t w1)
        | 3 => some (.bge s t w1) | 4 => some (.bltu s t w1) | 5 => some (.bgeu s t w1) | _ => none
      else if wf w 8 8 = 0 then
        some (if wf w 7 7 = 0 then .bteq (wbits w 4 3) t w1 else .btne (wbits w 4 3) t w1)
      else wideOf w w1
    else highOf w

/-- A first word of the forms marked 2 in R469. -/
def twoWords (w : BitVec 14) : Bool := wf w 13 10 == 14

/-- The words an instruction takes (R468). -/
def wordsOf (w : BitVec 14) : Nat := if twoWords w then 2 else 1

/-- Instructions that a repeat must not name (R479). -/
def repForbids : JOp → Bool
  | .beqz .. | .bnez .. | .bltz .. | .bgez .. | .beq .. | .bne .. | .blt .. | .bge .. | .bltu .. | .bgeu .. | .bteq .. | .btne ..
  | .brdy .. | .jmp .. | .call .. | .jmpr .. | .reti .. | .endInv .. | .trap .. | .rep .. | .repDr .. | .setdpg .. => true
  | _ => false

/-- A repeat prefix. -/
def isRep : JOp → Bool
  | .rep .. | .repDr .. => true
  | _ => false

/-- The target that an instruction at address `pc` names: a branch offset counts from the address after it (R468). -/
def targetOf (pc : Nat) : JOp → Option Int
  | .beqz _ o | .bnez _ o | .bltz _ o | .bgez _ o => some (pc + 1 + o.toInt)
  | .beq _ _ w | .bne _ _ w | .blt _ _ w | .bge _ _ w | .bltu _ _ w | .bgeu _ _ w | .bteq _ _ w | .btne _ _ w
  | .brdy _ _ w => some (pc + 2 + w.toInt)
  | .jmp w | .call _ w | .mkcode _ w => some w.toNat
  | _ => none

end Sys2Proof.Machine
end

