-- ==== Sys2Proof/Machine/Invocation.lean ====
section
/-! DEFINITION. Operations every invocation shares: the program it runs, its windows, traps, and how it ends with a completion or a
hook reply (R462 to R464, R484 to R486, R505 to R507, R515). -/

namespace Sys2Proof.Machine

/-! ### Programs -/

/-- A loaded program of function `f`. -/
def State.prog (s : State) (f handle : Nat) : Option Prog := s.sca.progs.find? (fun p => p.func == f && p.handle == handle)

/-- The state with a program changed. -/
def State.updProg (s : State) (f handle : Nat) (g : Prog → Prog) : State :=
  { s with sca := { s.sca with progs := s.sca.progs.map (fun (p : Prog) => if p.func = f ∧ p.handle = handle then g p else p) } }

/-- The filter that a scull runs, when its program is a translated one (R519). -/
def State.filterOf (s : State) (k : Nat) : Option Filter720 :=
  match s.prog (s.scull k).func (s.scull k).handle with
  | some p => p.filter
  | none => none

/-! ### Windows -/

/-- OFFSET of a PTR (R461). -/
def ptrOff (p : TWord) : Nat := field p.toNat 19 0
/-- INDEX of a PTR. -/
def ptrIndex (p : TWord) : Nat := field p.toNat 25 20
/-- INC of a PTR. -/
def ptrInc (p : TWord) : Nat := field p.toNat 31 26
/-- A PTR word. -/
def mkPtr (inc index off : Nat) : TWord := mkWord 4 (inc * 2 ^ 26 + index * 2 ^ 20 + off)

/-- A window-table entry of a scull. -/
def Scull.win (c : Scull) (i : Nat) : Win := Mem.get {} c.wins i

/-- The entry a PTR names, none when the PTR is stale (R463 check 1). -/
def Scull.entry (c : Scull) (p : TWord) : Option Win :=
  let w := c.win (ptrIndex p)
  if w.live && w.inc.toNat == ptrInc p then some w else none

/-! ### Traps -/

/-- Trap codes (R485, R506). -/
inductive Trap where
  | illegal | pcRange | progParity | dataUncorrectable | poisonUse | reservedTag | tagMismatch | aNotPtr | tagForge | capEscape
  | windowBounds | windowRights | windowKind | staleWindow | windowFull | sharedRights | repHazard | operandRange | accRange | divZero
  | portReserved | portDenied | portIdle | handlerState | budget | user (n : BitVec 4) | endState | outputLimit
  deriving DecidableEq, Repr

/-- The code of a trap (R485, R506). -/
def Trap.code : Trap → Nat
  | .illegal => 0x01 | .pcRange => 0x02 | .progParity => 0x03 | .dataUncorrectable => 0x04 | .poisonUse => 0x05
  | .reservedTag => 0x06 | .tagMismatch => 0x07 | .aNotPtr => 0x08 | .tagForge => 0x09 | .capEscape => 0x0A
  | .windowBounds => 0x0B | .windowRights => 0x0C | .windowKind => 0x0D | .staleWindow => 0x0E | .windowFull => 0x0F
  | .sharedRights => 0x10 | .repHazard => 0x11 | .operandRange => 0x12 | .accRange => 0x13 | .divZero => 0x14
  | .portReserved => 0x15 | .portDenied => 0x16 | .portIdle => 0x17 | .handlerState => 0x18 | .budget => 0x19
  | .user n => 0x30 + n.toNat | .endState => 0x20 | .outputLimit => 0x21

/-- TRAPINFO for a trap at an address (R486). -/
def Scull.trapWord (c : Scull) (t : Trap) (pc : Nat) : BitVec 32 :=
  BitVec.ofNat 32 (t.code + pc * 2 ^ 8 + flag (c.rc != 0) * 2 ^ 21 + c.rc.toNat * 2 ^ 22 + flag c.inHandler * 2 ^ 31)

/-- A trap halts the scull and writes TRAPINFO; partial messages and waiting replies are discarded (R484). -/
def State.trapAt (s : State) (k : Nat) (t : Trap) (pc : Nat) : State :=
  s.updScull k (fun c => { c with trapped := true, trapinfo := c.trapWord t pc, out := [], inq := [] })

/-- PROG_PARITY and DATA_UNCORRECTABLE are also recorded, and reported as the parity and the ECC diagnostic (R484, R496, R545). -/
def State.scullFault (s : State) (k comp : Nat) (e : Ev) (items : List (Nat × Nat)) : State :=
  let seq := s.recd.next
  (s.raiseFrom comp e (s.scull k).func items).detect comp e.code seq

/-! ### The end of an invocation -/

/-- The scull is idle after an invocation: requests it has sent still run, and complete into nothing. -/
def State.idleScull (s : State) (k : Nat) : State :=
  s.updScull k (fun c => { c with running := false, trapped := false, start := none, out := [], inq := []
                                  feed := [], output := [] })

/-- FAULTS rises by one (R500, R507). -/
def State.countFault (s : State) (k : Nat) : State :=
  s.updProg (s.scull k).func (s.scull k).handle (fun p => { p with faults := Nat.min (p.faults + 1) 0xFFFFFFFF })

/-- The output address of a PROGRAM INVOKE (R509). -/
def invokeOutAddr (e : Sqe) : Nat := e.cdw12.toNat + e.cdw13.toNat * 2 ^ 32

/-- An invocation of a command ends (R505, R506): on success its first `n` output bytes are written, from port 7 or the output
buffer; on any other outcome the destination is untouched. An output buffer with an uncorrectable word fails the command (R14,
R544). -/
def State.endCommand (s : State) (k : Nat) (st : Status) (dw0 : BitVec 32) (n : Nat) : State :=
  let c := s.scull k
  let bytes := if c.stream then c.output.take n else readBytes s.dmf.spl (c.win 2).base n
  let unread := st == .success && !c.stream && (s.splRead (c.win 2).base n).isNone
  let st := if unread then .internalContained else st
  let s := if unread then s.splError ((c.win 2).base + s.splBadAt (c.win 2).base n) else s
  let done := fun (s : State) (id : CmdId) (written : State) =>
    (if st = .success then written else s).finish id st dw0 (BitVec.ofNat 32 ((if st = .success then n else 0) + k * 2 ^ 22))
  let s1 := match c.start with
    | some (.invoke id) => (match s.cmd id with | some x => done s id (s.cmdWrite id (invokeOutAddr x.sqe) 0 bytes) | none => s)
    | some (.filter id) => done s id (s.reply id bytes)
    | _ => s
  s1.idleScull k

/-- A hook invocation ends with the words it has sent (R515). -/
def State.endHook (s : State) (k : Nat) (id : CmdId) : State :=
  let words := (s.scull k).hookSent
  (s.updCmd id (fun x => { x with hook := { x.hook with waiting := false, reply := words } })).idleScull k

/-- A hook invocation ends with a fault: the view fails with PROGRAM_FAULT and HOOK_FAULT is recorded (R109, R115, R515). -/
def State.failHook (s : State) (k : Nat) (id : CmdId) : State :=
  let c := s.scull k
  match s.cmd id with
  | none => s.idleScull k
  | some x =>
    let frag := x.sqe.cdw12.toNat + x.hook.chosen.length
    let s1 := s.updCmd id (fun x => { x with hook := { x.hook with waiting := false, outcome := some .programFault } })
    (s1.raise evHookFault c.func [(1, c.func), (2, c.handle), (4, frag), (2, Status.code .programFault)]).idleScull k

/-- An invocation ends with a fault word (R484, R505, R507). -/
def State.endFault (s : State) (k : Nat) (word : BitVec 32) : State :=
  let s1 := s.countFault k
  match (s.scull k).start with
  | some (.hook id) => s1.failHook k id
  | _ => s1.endCommand k .programFault word 0

/-- The output length that END names (R505): the bytes sent to port 7, or the INT in D0 within OUT_LEN; none is END_STATE. -/
def Scull.endLength (c : Scull) : Option Nat :=
  if c.stream then some c.output.length
  else
    let w := Mem.get 0 c.d 0
    if tagOf w = 1 ∧ valOf w ≤ c.outLen then some (valOf w) else none

/-- The outcome that D1 names at END (R505, R516); none is END_STATE. -/
def Scull.endStatus (c : Scull) : Option (Status × BitVec 32) :=
  let w := Mem.get 0 c.d 1
  let invoke : Bool := match c.start with | some (.invoke _) => true | _ => false
  if tagOf w = 1 then some (.success, BitVec.ofNat 32 (valOf w))
  else if tagOf w = 0xE ∧ invoke then
    (match valOf w with
      | 0x83 => some (.keySlotInvalid, 0) | 0x84 => some (.nonceExhausted, 0) | 0x85 => some (.authFailRetracted, 0) | _ => none)
  else none

/-- END (R505, R515): the invocation ends as D0 and D1 say, or a hook with the words it has sent. -/
def State.endInvocation (s : State) (k : Nat) (pc : Nat) : State :=
  let c := s.scull k
  match c.start with
  | some (.hook id) => s.endHook k id
  | _ =>
    match c.endLength, c.endStatus with
    | some n, some (st, dw0) => s.endCommand k st dw0 n
    | _, _ => s.endFault k (c.trapWord .endState pc)

/-- A SEND takes the output of a stream past OUT_LEN (R514): a FILTERED READ ends with OUTPUT_FULL, a PROGRAM INVOKE with
PROGRAM_FAULT; since an invocation ends at END or at a trap (R505), the latter counts as a trap and is recorded (R507, log 59). -/
def State.endOverrun (s : State) (k : Nat) (pc : Nat) : State :=
  let c := s.scull k
  match c.start with
  | some (.filter _) => s.endCommand k .outputFull 0 0
  | _ =>
    let word := c.trapWord .outputLimit pc
    (s.raiseLimited evProgramTrap c.func 0x0F28 [(1, c.func), (2, c.handle), (1, k), (4, word.toNat)]).endFault k word

/-! ### LX720 filters -/

/-- The lines of a feed, each with its delimiter; the bytes that remain make the last line (R519). -/
def feedLines (delim : Byte) (bs : Bytes) : List Bytes :=
  let r := bs.foldl (fun (acc : List Bytes × Bytes) b =>
    if b = delim then (acc.1 ++ [acc.2 ++ [b]], []) else (acc.1, acc.2 ++ [b])) ([], [])
  if r.2.isEmpty then r.1 else r.1 ++ [r.2]

/-- A rule matches a line (R519). -/
def Rule720.hits (r : Rule720) (line : Bytes) : Bool :=
  decide (r.offset + r.len ≤ line.length) && slice line r.offset r.len == r.value.take r.len

/-- The lines a filter keeps (R519). -/
def Filter720.kept (f : Filter720) (feed : Bytes) : List Bytes :=
  (feedLines f.delim feed).filter (fun l => match f.rules.find? (fun r => r.hits l) with
    | some r => r.keep
    | none => f.defaultKeep)

/-- The most cycles a translated filter takes (R519); the end marker is fed too. -/
def Filter720.cycles (f : Filter720) (feed : Bytes) : Nat :=
  4 * (ceilDiv feed.length 4 + 1) + (6 + 3 * f.rules.length) * (feedLines f.delim feed).length

/-- A run of a translated filter from its feed to its END (R519, log 60): the cycles it takes within its bound are a free value, and
so is the address at which its budget runs out. -/
def State.runFilter (s : State) (k : Nat) (f : Filter720) : State :=
  let c := s.scull k
  let feed := c.feed.take (c.feed.length - (if c.feedTail = 0 then 0 else 4 - c.feedTail))
  let r := s.draw 32
  let p := r.2.draw 13
  let cycles := r.1.toNat % (f.cycles feed + 1)
  let kept := f.kept feed
  let out := kept.flatten
  if c.budget < cycles then p.2.trapAt k .budget p.1.toNat
  else if c.outLen < out.length then p.2.endOverrun k p.1.toNat
  else
    let s1 := p.2.updScull k (fun c => { c with
      output := out, feed := [], feedEnd := false, cycles := Nat.min cycles 0x7FFFFFFF, budget := c.budget - cycles
      d := Mem.set 0 c.d 1 (mkWord 1 kept.length) })
    s1.endInvocation k p.1.toNat

end Sys2Proof.Machine
end

