-- ==== Sys2Proof/Machine/Jeriec.lean ====
section
/-! DEFINITION. The sculls' instructions (R455 to R496): one meaning per instruction, each run only when the program word at PC is that
instruction and no budget trap or interrupt is due, with its cycles, its tag rules, its traps and the repeat prefix. -/

namespace Sys2Proof.Machine

/-! ### Running one instruction -/

/-- What an instruction does: it traps; it stalls, changing nothing but the time; it runs, with the registers it leaves, its cycles, a
transfer of control, a word stored in shared memory and a mailbox message to a scull; it ends the invocation; or a SEND overruns the
output (R514). -/
inductive Ran where
  | trap (t : Trap)
  | stall
  | ok (c : Scull) (cycles : Nat) (target : Option Int := none) (shared : Option (Nat × TWord) := none)
      (mail : Option (Nat × TWord) := none)
  | finished
  | overrun
  deriving DecidableEq, Repr

/-- A mode in which the sculls are clocked (R489). -/
def Mode.runsSculls : Mode → Bool
  | .service | .degraded | .maintenance => true
  | _ => false

/-- The scull runs an invocation that has neither trapped nor been halted. -/
def Scull.alive (c : Scull) : Bool := c.running && !c.trapped

/-- An interrupt is due at an interruption point (R483). -/
def Scull.interruptDue (c : Scull) : Bool := c.ien && (!c.mail.isEmpty || c.timerExpired)

/-- The budget has run out, or an interrupt is due, and this is an interruption point (R483, R490, R495). -/
def Scull.pointTaken (c : Scull) : Bool := !c.noPoint && (c.budget == 0 || c.interruptDue)

/-- The program word at an address. -/
def Scull.word (c : Scull) (a : Nat) : BitVec 14 := Mem.get 0 c.prog a

/-- The instruction at PC; none when the fetch traps (R468). -/
def Scull.fetch (c : Scull) : Option JOp :=
  let pc := c.pc.toNat
  let w := c.word pc
  if c.pastEnd ∨ c.pl < pc + wordsOf w then none else jeriecDecode w (c.word (pc + 1))

/-- The scull's next step is this instruction. -/
def State.nextIs (s : State) (k : Nat) (op : JOp) : Bool :=
  let c := s.scull k
  decide (k < 32) && c.alive && s.psm.mode.runsSculls && !c.pointTaken && (c.fetch == some op)

/-- Cycles pass (R487, R508): CYCLES stops at 0x7FFFFFFF, and BUDGET_LEFT at 0. -/
def Scull.spend (c : Scull) (n : Nat) : Scull :=
  { c with cycles := Nat.min (c.cycles + n) 0x7FFFFFFF, budget := c.budget - n }

/-- PC at an address; an address outside its 13 bits is fetched by no one (R468). -/
def Scull.goto (c : Scull) (t : Int) : Scull :=
  if 0 ≤ t ∧ t < 8192 then { c with pc := BitVec.ofInt 13 t, pastEnd := false } else { c with pastEnd := true }

/-- A scull after a stalled instruction (R483): its cycles have passed and it is at an interruption point. -/
def Scull.stalled (c : Scull) (wait : Nat) : Scull := { c.spend wait with noPoint := false }

/-- Runs the instruction at PC (R478, R484, R487): RC falls as an iteration starts, and PC stays on a repeated instruction until its last
iteration. `wait` is a stall's cycles; a stalled instruction is at an interruption point (R483). -/
def State.runJ (s : State) (k wait : Nat) (op : JOp) (f : Scull → Ran) : State :=
  if !s.nextIs k op then s
  else
    let c := s.scull k
    let pc := c.pc.toNat
    match f { c with rc := if c.rc = 0 then 0 else c.rc - 1, noPoint := false } with
    | .trap t => s.trapAt k t pc
    | .stall => s.setScull k (c.stalled wait)
    | .finished => (s.setScull k (c.spend 1)).endInvocation k pc
    | .overrun => (s.setScull k (c.spend 1)).endOverrun k pc
    | .ok c1 cycles target shared mail =>
      let c2 := { c1.spend cycles with lastPc := c.pc }
      let c3 := match target with
        | some t => c2.goto t
        | none => if c.rc ≠ 0 ∧ c1.rc ≠ 0 then c2 else c2.goto (pc + wordsOf (c.word pc))
      let s1 := s.setScull k c3
      let s2 := match shared with
        | some (a, w) => { s1 with sca := { s1.sca with shared := Mem.set poison s1.sca.shared (eightOf k * 65536 + a) w } }
        | none => s1
      match mail with
      | some (dest, w) => s2.updScull (eightOf k * 8 + dest) (fun x => { x with mail := x.mail ++ [(k % 8, w)] })
      | none => s2

/-! ### Registers and tags -/

/-- D register `i`. -/
def Scull.dr (c : Scull) (i : BitVec 3) : TWord := Mem.get 0 c.d i.toNat
/-- The scull with D register `i` set. -/
def Scull.setD (c : Scull) (i : BitVec 3) (w : TWord) : Scull := { c with d := Mem.set 0 c.d i.toNat w }
/-- A register `i`; none when it holds no PTR. -/
def Scull.ar (c : Scull) (i : BitVec 2) : Option TWord := Mem.get none c.a i.toNat
/-- The scull with A register `i` set. -/
def Scull.setA (c : Scull) (i : BitVec 2) (w : TWord) : Scull := { c with a := Mem.set none c.a i.toNat (some w) }
/-- Accumulator `x`. -/
def Scull.acc (c : Scull) (x : Nat) : BitVec 64 := Mem.get 0 c.ac x
/-- The scull with accumulator `x` set. -/
def Scull.setAcc (c : Scull) (x : Nat) (v : BitVec 64) : Scull := { c with ac := Mem.set 0 c.ac x v }

/-- The value of a word. -/
def val32 (w : TWord) : BitVec 32 := BitVec.setWidth 32 w
/-- A word of a tag and a value (R459). -/
def tagged (t : Nat) (v : BitVec 32) : TWord := BitVec.ofNat 4 t ++ v
/-- The tag. -/
def tag4 (w : TWord) : BitVec 4 := BitVec.extractLsb' 32 4 w
/-- An INT. -/
def intWord (v : BitVec 32) : TWord := tagged 1 v
/-- A CODE of a program address (R459). -/
def codeWord (a : Nat) : TWord := mkWord 5 (a % 8192)

/-- PTR, CODE and KEY words (R466). -/
def isCap (w : TWord) : Bool := tag4 w == 4 || tag4 w == 5 || tag4 w == 6
/-- Tags that RETAG takes and BEQ and BNE compare (R474, R476). -/
def plainTag (t : BitVec 4) : Bool := t == 0 || t == 1 || t == 2 || t == 3 || t == 7 || t == 0xE

/-- A register or a trap. -/
def need {α : Type} (o : Option α) (t : Trap) (f : α → Ran) : Ran :=
  match o with
  | some x => f x
  | none => .trap t

/-- An instruction that writes one D register. -/
def Scull.put (c : Scull) (d : BitVec 3) (cycles : Nat) (w : Except Trap TWord) : Ran :=
  match w with
  | .ok w => .ok (c.setD d w) cycles
  | .error t => .trap t

/-! ### The ALU group (R470) -/

/-- A lane-wise sum or difference of two words. -/
def lanes (bits : Nat) (sub : Bool) (x y : BitVec 32) : BitVec 32 :=
  (List.range (32 / bits)).foldl (fun (acc : BitVec 32) i =>
    let a := BitVec.extractLsb' (bits * i) bits x
    let b := BitVec.extractLsb' (bits * i) bits y
    acc ||| (BitVec.setWidth 32 (if sub then a - b else a + b) <<< (bits * i))) 0

/-- ADD and SUB of equal lane tags or of numbers. -/
def addTags (sub : Bool) (x y : TWord) : Except Trap TWord :=
  let a := val32 x
  let b := val32 y
  let r := if sub then a - b else a + b
  match (tag4 x).toNat, (tag4 y).toNat with
  | 1, 1 => .ok (intWord r)
  | 7, 1 => .ok (tagged 7 r)
  | 1, 7 => if sub then .error .tagMismatch else .ok (tagged 7 r)
  | 7, 7 => if sub then .ok (intWord r) else .error .tagMismatch
  | 3, 3 => .ok (tagged 3 (lanes 16 sub a b))
  | 2, 2 => .ok (tagged 2 (lanes 8 sub a b))
  | _, _ => .error .tagMismatch

/-- An operation of two INT words that gives an INT. -/
def intOp (f : BitVec 32 → BitVec 32 → Except Trap (BitVec 32)) (x y : TWord) : Except Trap TWord :=
  if tag4 x = 1 ∧ tag4 y = 1 then (f (val32 x) (val32 y)).map intWord else .error .tagMismatch

/-- A logical operation of two words of one tag. -/
def logicOp (f : BitVec 32 → BitVec 32 → BitVec 32) (x y : TWord) : Except Trap TWord :=
  if tag4 x = tag4 y ∧ (tag4 x = 1 ∨ tag4 x = 2 ∨ tag4 x = 3) then .ok (tagged (tag4 x).toNat (f (val32 x) (val32 y)))
  else .error .tagMismatch

/-- SHL and SHR: the whole word is shifted; a count of 32 or more gives 0. -/
def shiftOp (left : Bool) (x y : TWord) : Except Trap TWord :=
  if (tag4 x = 1 ∨ tag4 x = 2) ∧ tag4 y = 1 then
    let n := (val32 y).toNat
    .ok (tagged (tag4 x).toNat (if 32 ≤ n then 0 else if left then val32 x <<< n else val32 x >>> n))
  else .error .tagMismatch

/-- SAR: a count of 32 or more fills with the sign. -/
def sarOp (x y : TWord) : Except Trap TWord :=
  intOp (fun a b => .ok (a.sshiftRight (Nat.min b.toNat 31))) x y

/-- DIV and REM, truncated toward zero. -/
def divOp (rem : Bool) (x y : TWord) : Except Trap TWord :=
  intOp (fun a b => if b = 0 then .error .divZero else .ok (if rem then a.srem b else a.sdiv b)) x y

/-- EXTB. -/
def extbOp (x y : TWord) : Except Trap TWord :=
  if tag4 x = 2 ∧ tag4 y = 1 then
    if (val32 y).toNat ≤ 3 then .ok (intWord ((val32 x >>> (8 * (val32 y).toNat)) &&& 0xFF)) else .error .operandRange
  else .error .tagMismatch

/-- MKPAIR. -/
def pairOp (x y : TWord) : Except Trap TWord :=
  if tag4 x = 1 ∧ tag4 y = 1 then .ok (tagged 3 (val32 x <<< 16 ||| (val32 y &&& 0xFFFF))) else .error .tagMismatch

/-- NOT. -/
def notOp (y : TWord) : Except Trap TWord :=
  if tag4 y = 1 ∨ tag4 y = 2 ∨ tag4 y = 3 then .ok (tagged (tag4 y).toNat (~~~ val32 y)) else .error .tagMismatch

/-- An ALU instruction: Dd := Dd op Ds. -/
def State.alu (s : State) (k : Nat) (op : JOp) (d r : BitVec 3) (cycles : Nat) (f : TWord → TWord → Except Trap TWord) :
    Host.Outcome State Fault Refusal :=
  .next (s.runJ k 0 op (fun c => c.put d cycles (f (c.dr d) (c.dr r))))

/-- ADD (R470). -/
def execAdd (k : Nat) (d r : BitVec 3) (s : State) : Host.Outcome State Fault Refusal := s.alu k (.add d r) d r 1 (addTags false)
/-- SUB (R470). -/
def execSub (k : Nat) (d r : BitVec 3) (s : State) : Host.Outcome State Fault Refusal := s.alu k (.sub d r) d r 1 (addTags true)
/-- MUL (R470): the low 32 bits. -/
def execMul (k : Nat) (d r : BitVec 3) (s : State) : Host.Outcome State Fault Refusal :=
  s.alu k (.mul d r) d r 3 (intOp (fun a b => .ok (a * b)))
/-- DIV (R470). -/
def execDiv (k : Nat) (d r : BitVec 3) (s : State) : Host.Outcome State Fault Refusal := s.alu k (.div d r) d r 18 (divOp false)
/-- REM (R470). -/
def execRem (k : Nat) (d r : BitVec 3) (s : State) : Host.Outcome State Fault Refusal := s.alu k (.rem d r) d r 18 (divOp true)
/-- AND (R470). -/
def execAnd (k : Nat) (d r : BitVec 3) (s : State) : Host.Outcome State Fault Refusal := s.alu k (.and d r) d r 1 (logicOp (· &&& ·))
/-- OR (R470). -/
def execOr (k : Nat) (d r : BitVec 3) (s : State) : Host.Outcome State Fault Refusal := s.alu k (.or d r) d r 1 (logicOp (· ||| ·))
/-- XOR (R470). -/
def execXor (k : Nat) (d r : BitVec 3) (s : State) : Host.Outcome State Fault Refusal := s.alu k (.xor d r) d r 1 (logicOp (· ^^^ ·))
/-- SHL (R470). -/
def execShl (k : Nat) (d r : BitVec 3) (s : State) : Host.Outcome State Fault Refusal := s.alu k (.shl d r) d r 1 (shiftOp true)
/-- SHR (R470). -/
def execShr (k : Nat) (d r : BitVec 3) (s : State) : Host.Outcome State Fault Refusal := s.alu k (.shr d r) d r 1 (shiftOp false)
/-- SAR (R470). -/
def execSar (k : Nat) (d r : BitVec 3) (s : State) : Host.Outcome State Fault Refusal := s.alu k (.sar d r) d r 1 sarOp
/-- MIN (R470). -/
def execMin (k : Nat) (d r : BitVec 3) (s : State) : Host.Outcome State Fault Refusal :=
  s.alu k (.min d r) d r 1 (intOp (fun a b => .ok (if a.slt b then a else b)))
/-- MAX (R470). -/
def execMax (k : Nat) (d r : BitVec 3) (s : State) : Host.Outcome State Fault Refusal :=
  s.alu k (.max d r) d r 1 (intOp (fun a b => .ok (if a.slt b then b else a)))
/-- EXTB (R470). -/
def execExtb (k : Nat) (d r : BitVec 3) (s : State) : Host.Outcome State Fault Refusal := s.alu k (.extb d r) d r 1 extbOp
/-- MKPAIR (R470). -/
def execMkpair (k : Nat) (d r : BitVec 3) (s : State) : Host.Outcome State Fault Refusal := s.alu k (.mkpair d r) d r 1 pairOp
/-- NOT (R470): Dd := ~Ds. -/
def execNot (k : Nat) (d r : BitVec 3) (s : State) : Host.Outcome State Fault Refusal := s.alu k (.not d r) d r 1 (fun _ y => notOp y)

/-- ADDI (R470): ADD with a sign-extended immediate. -/
def execAddi (k : Nat) (d : BitVec 3) (imm : BitVec 5) (s : State) : Host.Outcome State Fault Refusal :=
  .next (s.runJ k 0 (.addi d imm) (fun c => c.put d 1 (addTags false (c.dr d) (intWord (imm.signExtend 32)))))
/-- SHLI (R470). -/
def execShli (k : Nat) (d : BitVec 3) (imm : BitVec 5) (s : State) : Host.Outcome State Fault Refusal :=
  .next (s.runJ k 0 (.shli d imm) (fun c => c.put d 1 (shiftOp true (c.dr d) (intWord (imm.setWidth 32)))))
/-- SHRI (R470). -/
def execShri (k : Nat) (d : BitVec 3) (imm : BitVec 5) (s : State) : Host.Outcome State Fault Refusal :=
  .next (s.runJ k 0 (.shri d imm) (fun c => c.put d 1 (shiftOp false (c.dr d) (intWord (imm.setWidth 32)))))
/-- SARI (R470). -/
def execSari (k : Nat) (d : BitVec 3) (imm : BitVec 5) (s : State) : Host.Outcome State Fault Refusal :=
  .next (s.runJ k 0 (.sari d imm) (fun c => c.put d 1 (sarOp (c.dr d) (intWord (imm.setWidth 32)))))

/-! ### Loads and stores (R463, R466, R467, R475) -/

/-- A stored word as a load takes it (R475); `ue` is an uncorrectable word. -/
def loadWord (ue : Bool) (w : TWord) : Except Trap TWord :=
  if ue then .error .dataUncorrectable
  else if tag4 w = 0xF then .error .poisonUse
  else if 8 ≤ (tag4 w).toNat ∧ (tag4 w).toNat ≤ 0xD then .error .reservedTag
  else .ok w

/-- A local word. -/
def Scull.local (c : Scull) (a : Nat) : TWord := Mem.get poison c.mem a
/-- The scull with a local word stored. -/
def Scull.setLocal (c : Scull) (a : Nat) (w : TWord) : Scull := { c with mem := Mem.set poison c.mem a w }
/-- A word of the shared memory of a scull's Eight. -/
def State.sharedWord (s : State) (k a : Nat) : TWord := Mem.get poison s.sca.shared (eightOf k * 65536 + a)
/-- The shared page is one the scull may read and write (R467, R499). -/
def Scull.pageOk (c : Scull) (page : Nat) : Bool := decide (c.sharedFirst ≤ page ∧ page < c.sharedFirst + c.sharedCount)

/-- Where an access through a PTR goes (R463): the window's kind and the word address. -/
def Scull.access (c : Scull) (p : TWord) (u : Nat) (write : Bool) : Except Trap (Nat × Nat) :=
  match c.entry p with
  | none => .error .staleWindow
  | some w =>
    if 2 ≤ w.kind then .error .windowKind
    else if (if write then !w.w else !w.r) then .error .windowRights
    else if w.len ≤ ptrOff p + u then .error .windowBounds
    else .ok (w.kind, w.base + ptrOff p + u)

/-- The word an access reads. -/
def State.readAt (s : State) (k : Nat) (c : Scull) (at_ : Nat × Nat) : TWord :=
  if at_.1 = 0 then c.local at_.2 else s.sharedWord k at_.2

/-- The cycles of an access through a window (R487). -/
def accessCycles (kind wait : Nat) : Nat := if kind = 0 then 2 else 4 + wait

/-- Stores a word through a window. -/
def Scull.storeAt (c : Scull) (at_ : Nat × Nat) (wait : Nat) (w : TWord) : Ran :=
  if at_.1 = 0 then .ok (c.setLocal at_.2 w) 2 else .ok c (accessCycles 1 wait) none (some (at_.2, w))

/-- The word must not go through the window of a PTR (R466): KEY through a local or shared window, PTR and CODE through a shared one. -/
def Scull.escapes (c : Scull) (p w : TWord) : Bool :=
  match c.entry p with
  | none => false
  | some x => (x.kind == 0 && tag4 w == 6) || (x.kind == 1 && isCap w)

/-- A PTR moved by `n` within its window (R464); none outside [0, min(LENGTH, 1,048,575)]. -/
def movePtr (w : Win) (p : TWord) (n : Int) : Option TWord :=
  let o := (ptrOff p : Int) + n
  if 0 ≤ o ∧ o ≤ Nat.min w.len 1048575 then some (mkPtr (ptrInc p) (ptrIndex p) o.toNat) else none

/-- LDL (R467, R475). -/
def execLdl (k : Nat) (d : BitVec 3) (short : BitVec 8) (ue : Bool) (s : State) : Host.Outcome State Fault Refusal :=
  let a := (s.scull k).dpg.toNat * 256 + short.toNat
  let s1 := s.runJ k 0 (.ldl d short) (fun c => c.put d 1 (loadWord ue (c.local a)))
  .next (if ue ∧ s.nextIs k (.ldl d short) then
      s1.scullFault k (0x0F00 + k) evScullDataUe [(1, (s.scull k).func), (1, 2), (4, a)] else s1)

/-- STL (R467, R475). -/
def execStl (k : Nat) (r : BitVec 3) (short : BitVec 8) (s : State) : Host.Outcome State Fault Refusal :=
  .next (s.runJ k 0 (.stl r short) (fun c => .ok (c.setLocal (c.dpg.toNat * 256 + short.toNat) (c.dr r)) 1))

/-- LDX (R467, R475). -/
def execLdx (k w : Nat) (d : BitVec 3) (short : BitVec 8) (ue : Bool) (s : State) : Host.Outcome State Fault Refusal :=
  let x := (s.scull k).xpg.toNat
  let a := x * 256 + short.toNat
  let s1 := s.runJ k 0 (.ldx d short) (fun c =>
    if !c.pageOk x then .trap .sharedRights else c.put d (3 + w) (loadWord ue (s.sharedWord k a)))
  .next (if ue ∧ s.nextIs k (.ldx d short) ∧ (s.scull k).pageOk x then
      s1.scullFault k (0x0F20 + eightOf k) evScullDataUe [(1, (s.scull k).func), (1, 3), (4, a)] else s1)

/-- STX (R466, R467). -/
def execStx (k w : Nat) (r : BitVec 3) (short : BitVec 8) (s : State) : Host.Outcome State Fault Refusal :=
  .next (s.runJ k 0 (.stx r short) (fun c =>
    if isCap (c.dr r) then .trap .capEscape
    else if !c.pageOk c.xpg.toNat then .trap .sharedRights
    else .ok c (3 + w) none (some (c.xpg.toNat * 256 + short.toNat, c.dr r))))

/-- The address a load through A register `a` reads, when its checks pass. -/
def Scull.loadAddr (c : Scull) (a : BitVec 2) (u : Nat) : Option (Nat × Nat) :=
  match c.ar a with
  | none => none
  | some p => (c.access p u false).toOption

/-- A load through a PTR: its record when the word is uncorrectable. -/
def State.loadVia (s s1 : State) (k : Nat) (op : JOp) (a : BitVec 2) (u : Nat) (ue : Bool) : State :=
  match (s.scull k).loadAddr a u with
  | some x =>
    if ue ∧ s.nextIs k op then
      s1.scullFault k (if x.1 = 0 then 0x0F00 + k else 0x0F20 + eightOf k) evScullDataUe
        [(1, (s.scull k).func), (1, 2 + x.1), (4, x.2)]
    else s1
  | none => s1

/-- LD (R463, R475). -/
def execLd (k w : Nat) (d : BitVec 3) (a u : BitVec 2) (ue : Bool) (s : State) : Host.Outcome State Fault Refusal :=
  .next (s.loadVia (s.runJ k 0 (.ld d a u) (fun c =>
    need (c.ar a) .aNotPtr (fun p => match c.access p u.toNat false with
      | .error t => .trap t
      | .ok x => c.put d (accessCycles x.1 w) (loadWord ue (s.readAt k c x))))) k (.ld d a u) a u.toNat ue)

/-- ST (R463, R466). -/
def execSt (k w : Nat) (r : BitVec 3) (a u : BitVec 2) (s : State) : Host.Outcome State Fault Refusal :=
  .next (s.runJ k 0 (.st r a u) (fun c =>
    need (c.ar a) .aNotPtr (fun p =>
      if c.escapes p (c.dr r) then .trap .capEscape
      else match c.access p u.toNat true with
        | .error t => .trap t
        | .ok x => c.storeAt x w (c.dr r))))

/-- LDP (R463, R464, R475): load, then add 1 to OFFSET. -/
def execLdp (k w : Nat) (d : BitVec 3) (a : BitVec 2) (ue : Bool) (s : State) : Host.Outcome State Fault Refusal :=
  .next (s.loadVia (s.runJ k 0 (.ldp d a) (fun c =>
    need (c.ar a) .aNotPtr (fun p => match c.access p 0 false, c.entry p with
      | .ok x, some e => (match loadWord ue (s.readAt k c x) with
        | .error t => .trap t
        | .ok v => need (movePtr e p 1) .windowBounds (fun q => .ok ((c.setA a q).setD d v) (accessCycles x.1 w)))
      | .error t, _ => .trap t
      | _, none => .trap .staleWindow))) k (.ldp d a) a 0 ue)

/-- STP (R463, R464, R466): store, then add 1 to OFFSET. -/
def execStp (k w : Nat) (r : BitVec 3) (a : BitVec 2) (s : State) : Host.Outcome State Fault Refusal :=
  .next (s.runJ k 0 (.stp r a) (fun c =>
    need (c.ar a) .aNotPtr (fun p =>
      if c.escapes p (c.dr r) then .trap .capEscape
      else match c.access p 0 true, c.entry p with
        | .ok x, some e => need (movePtr e p 1) .windowBounds (fun q => (c.setA a q).storeAt x w (c.dr r))
        | .error t, _ => .trap t
        | _, none => .trap .staleWindow)))

/-- LDA (R463, R475): only a PTR. -/
def execLda (k w : Nat) (ka a u : BitVec 2) (ue : Bool) (s : State) : Host.Outcome State Fault Refusal :=
  .next (s.loadVia (s.runJ k 0 (.lda ka a u) (fun c =>
    need (c.ar a) .aNotPtr (fun p => match c.access p u.toNat false with
      | .error t => .trap t
      | .ok x => (match loadWord ue (s.readAt k c x) with
        | .error t => .trap t
        | .ok v => if tag4 v = 4 then .ok (c.setA ka v) (accessCycles x.1 w) else .trap .aNotPtr)))) k (.lda ka a u) a u.toNat ue)

/-- STA (R463, R466). -/
def execSta (k w : Nat) (ka a u : BitVec 2) (s : State) : Host.Outcome State Fault Refusal :=
  .next (s.runJ k 0 (.sta ka a u) (fun c =>
    need (c.ar ka) .aNotPtr (fun v => need (c.ar a) .aNotPtr (fun p =>
      if c.escapes p v then .trap .capEscape
      else match c.access p u.toNat true with
        | .error t => .trap t
        | .ok x => c.storeAt x w v))))

/-! ### Moves, constants and tags (R472 to R474, R458) -/

/-- MOVI (R473). -/
def execMovi (k : Nat) (d : BitVec 3) (imm : BitVec 8) (s : State) : Host.Outcome State Fault Refusal :=
  .next (s.runJ k 0 (.movi d imm) (fun c => .ok (c.setD d (intWord (imm.signExtend 32))) 1))

/-- MOVW (R473). -/
def execMovw (k : Nat) (d : BitVec 3) (w : BitVec 14) (s : State) : Host.Outcome State Fault Refusal :=
  .next (s.runJ k 0 (.movw d w) (fun c => .ok (c.setD d (intWord (w.signExtend 32))) 2))

/-- MOVT (R473). -/
def execMovt (k : Nat) (d : BitVec 3) (w : BitVec 14) (s : State) : Host.Outcome State Fault Refusal :=
  .next (s.runJ k 0 (.movt d w) (fun c => c.put d 2
    (if tag4 (c.dr d) = 1 then .ok (intWord (val32 (c.dr d) <<< 14 ||| w.setWidth 32)) else .error .tagMismatch)))

/-- MOV between D, A and accumulator registers (R457, R472). -/
def Scull.mov (c : Scull) (r src : BitVec 4) : Ran :=
  let isA := fun (x : BitVec 4) => decide (8 ≤ x.toNat ∧ x.toNat < 12)
  let isAc := fun (x : BitVec 4) => decide (12 ≤ x.toNat)
  if (isA r ∧ isAc src) ∨ (isAc r ∧ isA src) then .trap .tagMismatch
  else if isAc src then
    let v := c.acc (src.toNat - 12)
    if isAc r then .ok (c.setAcc (r.toNat - 12) v) 1
    else if (v.setWidth 32).signExtend 64 = v then .ok (c.setD (r.setWidth 3) (intWord (v.setWidth 32))) 1
    else .trap .accRange
  else
    let word := if isA src then c.ar (src.setWidth 2) else some (c.dr (src.setWidth 3))
    need word .aNotPtr (fun w =>
      if isAc r then (if tag4 w = 1 then .ok (c.setAcc (r.toNat - 12) ((val32 w).signExtend 64)) 1 else .trap .tagMismatch)
      else if isA r then (if tag4 w = 4 then .ok (c.setA (r.setWidth 2) w) 1 else .trap .aNotPtr)
      else .ok (c.setD (r.setWidth 3) w) 1)

/-- MOV (R472). -/
def execMov (k : Nat) (r src : BitVec 4) (s : State) : Host.Outcome State Fault Refusal :=
  .next (s.runJ k 0 (.mov r src) (fun c => c.mov r src))

/-- RETAG (R474). -/
def execRetag (k : Nat) (d : BitVec 3) (t : BitVec 4) (s : State) : Host.Outcome State Fault Refusal :=
  .next (s.runJ k 0 (.retag d t) (fun c => c.put d 1
    (if plainTag t ∧ plainTag (tag4 (c.dr d)) then .ok (tagged t.toNat (if t = 0 then 0 else val32 (c.dr d)))
     else .error .tagForge)))

/-- STATUS (R458). -/
def Scull.status (c : Scull) : Nat :=
  flag c.ien + 2 * flag c.inHandler + 4 * flag (!c.mail.isEmpty) + 8 * flag c.timerExpired

/-- What RDSPR reads (R458). -/
def Scull.special (c : Scull) (k : Nat) (code : BitVec 4) : TWord :=
  match code.toNat with
  | 0 => codeWord (c.pc.toNat + 1)
  | 1 => mkWord 1 c.dpg.toNat
  | 2 => mkWord 1 c.xpg.toNat
  | 3 => mkWord 1 c.rc.toNat
  | 4 => c.ivec
  | 5 => c.iret
  | 6 => mkWord 1 c.status
  | 7 => mkWord 1 k
  | 8 => mkWord 1 c.cycles
  | _ => mkWord 1 c.budget

/-- RDSPR (R458). -/
def execRdspr (k : Nat) (d : BitVec 3) (code : BitVec 4) (s : State) : Host.Outcome State Fault Refusal :=
  .next (s.runJ k 0 (.rdspr d code) (fun c => .ok (c.setD d (c.special k code)) 1))

/-- GETTAG (R474). -/
def execGettag (k : Nat) (d r : BitVec 3) (s : State) : Host.Outcome State Fault Refusal :=
  .next (s.runJ k 0 (.gettag d r) (fun c => .ok (c.setD d (intWord ((tag4 (c.dr r)).setWidth 32))) 1))

/-- AOFF (R474). -/
def execAoff (k : Nat) (d : BitVec 3) (a : BitVec 2) (s : State) : Host.Outcome State Fault Refusal :=
  .next (s.runJ k 0 (.aoff d a) (fun c => need (c.ar a) .aNotPtr (fun p => .ok (c.setD d (mkWord 1 (ptrOff p))) 1)))

/-- AREM (R474): through a stale PTR there is no LENGTH (log 56). -/
def execArem (k : Nat) (d : BitVec 3) (a : BitVec 2) (s : State) : Host.Outcome State Fault Refusal :=
  .next (s.runJ k 0 (.arem d a) (fun c => need (c.ar a) .aNotPtr (fun p =>
    need (c.entry p) .staleWindow (fun e => .ok (c.setD d (mkWord 1 (e.len - ptrOff p))) 1))))

/-! ### Accumulators (R471, R472) -/

/-- The product a MAC adds: of two INT words, or the sum of the products of the halves of two PAIR words. -/
def macTerm (x y : TWord) : Option (BitVec 64) :=
  let a := val32 x
  let b := val32 y
  if tag4 x = 1 ∧ tag4 y = 1 then some (a.signExtend 64 * b.signExtend 64)
  else if tag4 x = 3 ∧ tag4 y = 3 then
    let h := fun (v : BitVec 32) (i : Nat) => (BitVec.extractLsb' i 16 v).signExtend 64
    some (h a 16 * h b 16 + h a 0 * h b 0)
  else none

/-- MAC (R472). -/
def execMac (k : Nat) (x : BitVec 1) (r t : BitVec 3) (s : State) : Host.Outcome State Fault Refusal :=
  .next (s.runJ k 0 (.mac x r t) (fun c =>
    need (macTerm (c.dr r) (c.dr t)) .tagMismatch (fun v => .ok (c.setAcc x.toNat (c.acc x.toNat + v)) 2)))

/-- ACADD (R472). -/
def execAcadd (k : Nat) (x : BitVec 1) (r : BitVec 3) (s : State) : Host.Outcome State Fault Refusal :=
  .next (s.runJ k 0 (.acadd x r) (fun c =>
    if tag4 (c.dr r) = 1 then .ok (c.setAcc x.toNat (c.acc x.toNat + (val32 (c.dr r)).signExtend 64)) 1 else .trap .tagMismatch))

/-- ACSHR (R471). -/
def execAcshr (k : Nat) (x : BitVec 1) (n : BitVec 5) (s : State) : Host.Outcome State Fault Refusal :=
  .next (s.runJ k 0 (.acshr x n) (fun c => .ok (c.setAcc x.toNat ((c.acc x.toNat).sshiftRight n.toNat)) 1))

/-- ACCLR (R471). -/
def execAcclr (k : Nat) (x : BitVec 1) (s : State) : Host.Outcome State Fault Refusal :=
  .next (s.runJ k 0 (.acclr x) (fun c => .ok (c.setAcc x.toNat 0) 1))

/-! ### Branches and calls (R476, R477) -/

/-- A branch against zero. -/
def State.zeroBranch (s : State) (k : Nat) (op : JOp) (d : BitVec 3) (off : BitVec 5) (p : BitVec 32 → Bool) :
    Host.Outcome State Fault Refusal :=
  .next (s.runJ k 0 op (fun c =>
    let w := c.dr d
    if tag4 w = 1 ∨ tag4 w = 7 then
      if p (val32 w) then .ok c 2 (some (c.pc.toNat + 1 + off.toInt)) else .ok c 1
    else .trap .tagMismatch))

/-- BEQZ (R476). -/
def execBeqz (k : Nat) (d : BitVec 3) (off : BitVec 5) (s : State) : Host.Outcome State Fault Refusal :=
  s.zeroBranch k (.beqz d off) d off (fun v => v == 0)
/-- BNEZ (R476). -/
def execBnez (k : Nat) (d : BitVec 3) (off : BitVec 5) (s : State) : Host.Outcome State Fault Refusal :=
  s.zeroBranch k (.bnez d off) d off (fun v => v != 0)
/-- BLTZ (R476). -/
def execBltz (k : Nat) (d : BitVec 3) (off : BitVec 5) (s : State) : Host.Outcome State Fault Refusal :=
  s.zeroBranch k (.bltz d off) d off (fun v => v.msb)
/-- BGEZ (R476). -/
def execBgez (k : Nat) (d : BitVec 3) (off : BitVec 5) (s : State) : Host.Outcome State Fault Refusal :=
  s.zeroBranch k (.bgez d off) d off (fun v => !v.msb)

/-- A two-word branch: taken in 3 cycles, not taken in 2. -/
def Scull.branch (c : Scull) (w : BitVec 14) (taken : Bool) : Ran :=
  if taken then .ok c 3 (some (c.pc.toNat + 2 + w.toInt)) else .ok c 2

/-- BEQ and BNE compare the values of two words of one plain tag. -/
def eqTags (x y : TWord) : Option Bool := if tag4 x = tag4 y ∧ plainTag (tag4 x) then some (val32 x == val32 y) else none
/-- BLT and BGE: INT words signed; TICKS words by their difference. -/
def ltTags (x y : TWord) : Option Bool :=
  if tag4 x = 1 ∧ tag4 y = 1 then some ((val32 x).slt (val32 y))
  else if tag4 x = 7 ∧ tag4 y = 7 then some (val32 x - val32 y).msb
  else none
/-- BLTU and BGEU: INT words unsigned. -/
def ltuTags (x y : TWord) : Option Bool := if tag4 x = 1 ∧ tag4 y = 1 then some ((val32 x).ult (val32 y)) else none

/-- A compare-and-branch: taken when the comparison answers `want`. -/
def State.cmpBranch (s : State) (k : Nat) (op : JOp) (r t : BitVec 3) (w : BitVec 14) (want : Bool) (f : TWord → TWord → Option Bool) :
    Host.Outcome State Fault Refusal :=
  .next (s.runJ k 0 op (fun c => need (f (c.dr r) (c.dr t)) .tagMismatch (fun b => c.branch w (b == want))))

/-- BEQ (R476). -/
def execBeq (k : Nat) (r t : BitVec 3) (w : BitVec 14) (s : State) : Host.Outcome State Fault Refusal :=
  s.cmpBranch k (.beq r t w) r t w true eqTags
/-- BNE (R476). -/
def execBne (k : Nat) (r t : BitVec 3) (w : BitVec 14) (s : State) : Host.Outcome State Fault Refusal :=
  s.cmpBranch k (.bne r t w) r t w false eqTags
/-- BLT (R476). -/
def execBlt (k : Nat) (r t : BitVec 3) (w : BitVec 14) (s : State) : Host.Outcome State Fault Refusal :=
  s.cmpBranch k (.blt r t w) r t w true ltTags
/-- BGE (R476). -/
def execBge (k : Nat) (r t : BitVec 3) (w : BitVec 14) (s : State) : Host.Outcome State Fault Refusal :=
  s.cmpBranch k (.bge r t w) r t w false ltTags
/-- BLTU (R476). -/
def execBltu (k : Nat) (r t : BitVec 3) (w : BitVec 14) (s : State) : Host.Outcome State Fault Refusal :=
  s.cmpBranch k (.bltu r t w) r t w true ltuTags
/-- BGEU (R476). -/
def execBgeu (k : Nat) (r t : BitVec 3) (w : BitVec 14) (s : State) : Host.Outcome State Fault Refusal :=
  s.cmpBranch k (.bgeu r t w) r t w false ltuTags

/-- BTEQ (R476): the tag of Dd against t, whatever the tag. -/
def execBteq (k : Nat) (t : BitVec 4) (d : BitVec 3) (w : BitVec 14) (s : State) : Host.Outcome State Fault Refusal :=
  .next (s.runJ k 0 (.bteq t d w) (fun c => c.branch w (tag4 (c.dr d) == t)))
/-- BTNE (R476). -/
def execBtne (k : Nat) (t : BitVec 4) (d : BitVec 3) (w : BitVec 14) (s : State) : Host.Outcome State Fault Refusal :=
  .next (s.runJ k 0 (.btne t d w) (fun c => c.branch w (tag4 (c.dr d) != t)))

/-- JMP (R477). -/
def execJmp (k : Nat) (w : BitVec 14) (s : State) : Host.Outcome State Fault Refusal :=
  .next (s.runJ k 0 (.jmp w) (fun c => if c.pl ≤ w.toNat then .trap .pcRange else .ok c 3 (some w.toNat)))
/-- CALL (R477). -/
def execCall (k : Nat) (d : BitVec 3) (w : BitVec 14) (s : State) : Host.Outcome State Fault Refusal :=
  .next (s.runJ k 0 (.call d w) (fun c =>
    if c.pl ≤ w.toNat then .trap .pcRange else .ok (c.setD d (codeWord (c.pc.toNat + 2))) 3 (some w.toNat)))
/-- MKCODE (R477). -/
def execMkcode (k : Nat) (d : BitVec 3) (w : BitVec 14) (s : State) : Host.Outcome State Fault Refusal :=
  .next (s.runJ k 0 (.mkcode d w) (fun c => if c.pl ≤ w.toNat then .trap .pcRange else .ok (c.setD d (codeWord w.toNat)) 2))
/-- JMPR (R477): the repeat count of the CODE is ignored. -/
def execJmpr (k : Nat) (r : BitVec 3) (s : State) : Host.Outcome State Fault Refusal :=
  .next (s.runJ k 0 (.jmpr r) (fun c =>
    if tag4 (c.dr r) = 5 then .ok c 3 (some (field (c.dr r).toNat 12 0 : Nat)) else .trap .tagMismatch))
/-- SETIV (R477). -/
def execSetiv (k : Nat) (r : BitVec 3) (s : State) : Host.Outcome State Fault Refusal :=
  .next (s.runJ k 0 (.setiv r) (fun c => if tag4 (c.dr r) = 5 then .ok { c with ivec := c.dr r } 1 else .trap .tagMismatch))

/-! ### Pages, windows and simple control (R464, R465, R471) -/

/-- SETDPG (R467). -/
def execSetdpg (k : Nat) (page : BitVec 6) (s : State) : Host.Outcome State Fault Refusal :=
  .next (s.runJ k 0 (.setdpg page) (fun c => .ok { c with dpg := page } 1))
/-- SETXPG (R471): an INT from 0 to 255. -/
def execSetxpg (k : Nat) (r : BitVec 3) (s : State) : Host.Outcome State Fault Refusal :=
  .next (s.runJ k 0 (.setxpg r) (fun c =>
    if tag4 (c.dr r) ≠ 1 then .trap .tagMismatch
    else if 255 < (val32 (c.dr r)).toNat then .trap .operandRange
    else .ok { c with xpg := (c.dr r).setWidth 8 } 1))

/-- AADD (R464). -/
def execAadd (k : Nat) (a : BitVec 2) (d : BitVec 3) (s : State) : Host.Outcome State Fault Refusal :=
  .next (s.runJ k 0 (.aadd a d) (fun c =>
    if tag4 (c.dr d) ≠ 1 then .trap .tagMismatch
    else need (c.ar a) .aNotPtr (fun p => need (c.entry p) .staleWindow (fun e =>
      need (movePtr e p (val32 (c.dr d)).toInt) .windowBounds (fun q => .ok (c.setA a q) 2)))))

/-- The entry a derived window takes (R465): the lowest that is not LIVE and has INC below 63. -/
def Scull.freeWin (c : Scull) : Option Nat := (List.range 64).find? (fun i => !(c.win i).live && decide ((c.win i).inc.toNat < 63))

/-- A derived window over [OFFSET, OFFSET + n) of a PTR's window, and the PTR left in An (R465). -/
def Scull.derive (c : Scull) (a : BitVec 2) (p : TWord) (e : Win) (n i : Nat) (r w : Bool) : Scull :=
  let o := ptrOff p
  let inc := (c.win i).inc
  let x := { e with r := r, w := w, derived := true, live := true, inc := inc, len := n, base := e.base + o
                    tagUnit := if e.kind = 3 then e.tagUnit + o / 4096 else e.tagUnit }
  ({ c with wins := Mem.set {} c.wins i x }).setA a (mkPtr inc.toNat i 0)

/-- NARROW and RESTRICT over `n` units (R465, R485). -/
def Scull.deriveOr (c : Scull) (a : BitVec 2) (p : TWord) (e : Win) (n : Int) (r w : Bool) : Ran :=
  if (e.len : Int) - ptrOff p < n ∨ (e.kind = 3 ∧ ptrOff p % 4096 ≠ 0) then .trap .windowBounds
  else need c.freeWin .windowFull (fun i =>
    if n ≤ 0 then .trap .operandRange else .ok (c.derive a p e n.toNat i r w) 4)

/-- NARROW (R465). -/
def execNarrow (k : Nat) (a : BitVec 2) (d : BitVec 3) (s : State) : Host.Outcome State Fault Refusal :=
  .next (s.runJ k 0 (.narrow a d) (fun c =>
    if tag4 (c.dr d) ≠ 1 then .trap .tagMismatch
    else need (c.ar a) .aNotPtr (fun p => need (c.entry p) .staleWindow (fun e =>
      c.deriveOr a p e (val32 (c.dr d)).toInt e.r e.w))))

/-- RESTRICT (R465): bit 0 of m clears R and bit 1 clears W; at OFFSET = LENGTH there is nothing to derive (log 56). -/
def execRestrict (k : Nat) (a m : BitVec 2) (s : State) : Host.Outcome State Fault Refusal :=
  .next (s.runJ k 0 (.restrict a m) (fun c =>
    need (c.ar a) .aNotPtr (fun p => need (c.entry p) .staleWindow (fun e =>
      if e.len ≤ ptrOff p then .trap .windowBounds
      else c.deriveOr a p e ((e.len - ptrOff p : Nat) : Int) (e.r && !m.getLsbD 0) (e.w && !m.getLsbD 1)))))

/-- FREEW (R465). -/
def execFreew (k : Nat) (a : BitVec 2) (s : State) : Host.Outcome State Fault Refusal :=
  .next (s.runJ k 0 (.freew a) (fun c =>
    need (c.ar a) .aNotPtr (fun p => need (c.entry p) .staleWindow (fun e =>
      if !e.derived then .trap .windowRights
      else .ok { c with wins := Mem.set {} c.wins (ptrIndex p) { e with live := false, inc := e.inc + 1 } } 2))))

/-- TRAP #n (R471, R485). -/
def execTrap (k : Nat) (n : BitVec 4) (s : State) : Host.Outcome State Fault Refusal :=
  .next (s.runJ k 0 (.trap n) (fun _ => .trap (.user n)))
/-- NOP (R471). -/
def execNop (k : Nat) (s : State) : Host.Outcome State Fault Refusal := .next (s.runJ k 0 .nop (fun c => .ok c 1))
/-- END (R505). A scull that runs a translated LX720 filter ends when the filter has run (R519). -/
def execEndInv (k : Nat) (s : State) : Host.Outcome State Fault Refusal :=
  .next (match s.filterOf k with
    | some f => if k < 32 ∧ (s.scull k).alive ∧ s.psm.mode.runsSculls then s.runFilter k f else s
    | none => s.runJ k 0 .endInv (fun _ => .finished))

/-! ### The repeat prefix (R478, R479) -/

/-- A REP with a count, which is none for a tag other than INT. The next instruction is decoded before any iteration; after a
count of 0 there is no interruption point before the instruction that follows the skipped one (R495). -/
def Scull.rep (c : Scull) (count : Option Int) : Ran :=
  let next := c.pc.toNat + 1
  let w := c.word next
  if c.pl ≤ next then .trap .pcRange
  else match jeriecDecode w (c.word (next + 1)) with
    | none => .trap .illegal
    | some op =>
      if c.pl < next + wordsOf w then .trap .pcRange
      else need count .tagMismatch (fun n =>
        if repForbids op then .trap .repHazard
        else if n < 0 ∨ 256 < n then .trap .operandRange
        else if n = 0 then .ok { c with noPoint := true } 1 (some (next + wordsOf w : Nat))
        else .ok { c with rc := BitVec.ofInt 9 n } 1 (some (next : Nat)))

/-- REP #n (R478): the field holds n − 1. -/
def execRep (k : Nat) (n : BitVec 8) (s : State) : Host.Outcome State Fault Refusal :=
  .next (s.runJ k 0 (.rep n) (fun c => c.rep (some (n.toNat + 1))))

/-- REP Dr (R478, R495). -/
def execRepDr (k : Nat) (r : BitVec 3) (s : State) : Host.Outcome State Fault Refusal :=
  .next (s.runJ k 0 (.repDr r) (fun c => c.rep (if tag4 (c.dr r) = 1 then some (val32 (c.dr r)).toInt else none)))

/-! ### Ports (R480 to R482, R513 to R515) -/

/-- The words of a request of port `p` whose first word is `w` (R337, R382, R394, R422, R447). -/
def requestWords (p : Nat) (w : TWord) : Nat :=
  match p with
  | 0 => 5
  | 1 => 15
  | 2 => 5 + (if tag4 w = 1 then field w.toNat 8 5 else 0)
  | 3 => 8
  | _ => if tag4 w = 1 ∧ field w.toNat 16 16 = 1 then 24 else 11

/-- The words of the largest reply to a request of port `p` (R481). -/
def replyWords (p : Nat) (w : TWord) : Nat :=
  match p with
  | 0 => 2
  | 1 => 10
  | 2 => 18
  | 3 => 5
  | _ => if tag4 w ≠ 1 ∨ field w.toNat 16 16 = 1 then 2 else 3 + 3 * (field w.toNat 31 26 + 1)

/-- Requests outstanding on a port. -/
def Scull.out_ (c : Scull) (p : Nat) : Nat := Mem.get 0 c.outstanding p
/-- Reply words waiting on a port. -/
def Scull.queue (c : Scull) (p : Nat) : List TWord := Mem.get [] c.inq p
/-- The words of the message being built for a port. -/
def Scull.partial_ (c : Scull) (p : Nat) : List TWord := Mem.get [] c.out p
/-- Words of complete messages that a port has not taken. -/
def Scull.unsent (c : Scull) (p : Nat) : Nat := ((Mem.get [] c.sent p).map (·.length)).foldl (· + ·) 0

/-- Words of the reply buffer that are used or reserved (R481): words waiting on ports 0 to 4, the replies outstanding, and those of
messages being built. -/
def Scull.reserved (c : Scull) : Nat :=
  ((List.range 5).map (fun p => (c.queue p).length +
    (if p = 4 then c.resv4.foldl (· + ·) 0 else c.out_ p * replyWords p 0) +
    (match c.partial_ p with | w :: _ => replyWords p w | [] => 0))).foldl (· + ·) 0

/-- The most requests outstanding on a port (R482); port 2 has no count of its own. -/
def outLimit (p : Nat) : Nat := if p = 2 then 256 else if p = 3 then 1 else 16

/-- A SEND of a word to ports 0 to 4 stalls (R480 to R482). -/
def Scull.engineFull (c : Scull) (p : Nat) (w : TWord) : Bool :=
  decide (16 ≤ c.unsent p) ||
    ((c.partial_ p).isEmpty && (decide (outLimit p ≤ c.out_ p) || decide (256 < c.reserved + replyWords p w)))

/-- The scull runs a hook invocation. -/
def Scull.isHook (c : Scull) : Bool := match c.start with | some (.hook _) => true | _ => false

/-- A position of the Eight is a scull of the same function (R482, R214). -/
def State.mailOk (s : State) (k : Nat) (dest : TWord) : Bool :=
  let n := (val32 dest).toNat
  decide (n < 8) && (match s.tenant (s.scull k).func with
    | some t => t.scullMask.getLsbD (eightOf k * 8 + n)
    | none => false)

/-- The mailbox of the destination of a message is full (R482). -/
def State.mailFull (s : State) (k : Nat) (c : Scull) : Bool :=
  match c.partial_ 8 with
  | w :: _ => decide (16 ≤ (s.scull (eightOf k * 8 + (val32 w).toNat)).mail.length)
  | [] => false

/-- A word goes to an engine's port; a complete message waits for the port to take it. -/
def Scull.sendEngine (c : Scull) (p : Nat) (w : TWord) : Scull :=
  let msg := c.partial_ p ++ [w]
  let first := msg.headD w
  if msg.length < requestWords p first then { c with out := Mem.set [] c.out p msg }
  else { c with out := Mem.set [] c.out p []
                sent := Mem.upd [] c.sent p (fun q => q ++ [msg])
                outstanding := Mem.upd 0 c.outstanding p (· + 1)
                resv4 := if p = 4 then c.resv4 ++ [replyWords 4 first] else c.resv4 }

/-- A word to port 7 (R514). -/
def Scull.sendStream (c : Scull) (w : TWord) : Ran :=
  let v := (val32 w).toNat
  if tag4 w = 2 then
    if c.outLen < c.output.length + 4 then .overrun
    else .ok { c with output := c.output ++ leBytes 4 v, lastBytes := true } 1
  else if tag4 w = 1 then
    if c.lastBytes ∧ 1 ≤ v ∧ v ≤ 3 then .ok { c with output := c.output.take (c.output.length - (4 - v)), lastBytes := false } 1
    else .trap .operandRange
  else .trap .tagMismatch

/-- A word to the timer (R482): 1 to 2^31 − 1 arms it, which clears an expiry; 0 disarms it. -/
def Scull.sendTimer (c : Scull) (w : TWord) : Ran :=
  let v := val32 w
  if v.msb then .trap .operandRange
  else if v = 0 then .ok { c with timer := none } 1
  else .ok { c with timer := some v.toNat, timerExpired := false } 1

/-- A word to the Eight's mailbox (R482). -/
def State.sendMail (s : State) (k : Nat) (c : Scull) (w : TWord) : Ran :=
  match c.partial_ 8 with
  | [] => if !s.mailOk k w then .trap .portDenied else .ok { c with out := Mem.set [] c.out 8 [w] } 1
  | dest :: _ =>
    if s.mailFull k c then .stall
    else .ok { c with out := Mem.set [] c.out 8 [] } 1 none none (some ((val32 dest).toNat, w))

/-- The tag a port does not take (R466, R482, R514), in the order of R485. -/
def Scull.portTag (c : Scull) (p : Nat) (w : TWord) : Option Trap :=
  if (p = 9 ∨ (p = 8 ∧ (c.partial_ 8).isEmpty)) ∧ tag4 w ≠ 1 then some .tagMismatch
  else if p = 7 ∧ tag4 w ≠ 1 ∧ tag4 w ≠ 2 then some .tagMismatch
  else if 5 ≤ p ∧ p ≤ 9 ∧ isCap w then some .capEscape
  else none

/-- The port is closed to this invocation (R482, R514, R515); ports 6 and 7 each have one direction. -/
def Scull.portClosed (c : Scull) (p : Nat) (sending : Bool) : Bool :=
  match p with
  | 5 => !c.isHook || (sending && decide (3 ≤ c.hookSent.length))
  | 6 => !c.stream || sending
  | 7 => !c.stream || !sending
  | _ => false

/-- A SEND inside a handler to a port on which the interrupted code has a partial message (R483). -/
def Scull.handlerHeld (c : Scull) (p : Nat) : Bool := c.inHandler && c.heldOut.contains p

/-- What SEND does. -/
def State.sendWord (s : State) (k : Nat) (c : Scull) (p : Nat) (w : TWord) : Ran :=
  if 10 ≤ p then .trap .portReserved
  else match c.portTag p w with
    | some t => .trap t
    | none =>
      if p = 9 ∧ (val32 w).msb then .trap .operandRange
      else if c.portClosed p true then .trap .portDenied
      else if p = 8 ∧ (c.partial_ 8).isEmpty ∧ !s.mailOk k w then .trap .portDenied
      else if c.handlerHeld p then .trap .handlerState
      else match p with
        | 5 => .ok { c with hookSent := c.hookSent ++ [w] } 1
        | 7 => c.sendStream w
        | 8 => s.sendMail k c w
        | 9 => c.sendTimer w
        | _ => if c.engineFull p w then .stall else .ok (c.sendEngine p w) 1

/-- SEND (R480, R483); `stall` is the cycles of a stall, of which the state says whether there is one. -/
def execSend (k stall : Nat) (p : BitVec 4) (d : BitVec 3) (s : State) : Host.Outcome State Fault Refusal :=
  .next (s.runJ k stall (.send p d) (fun c => s.sendWord k c p.toNat (c.dr d)))

/-- What RECV does. -/
def Scull.recvWord (c : Scull) (p : Nat) (d : BitVec 3) : Ran :=
  if 10 ≤ p then .trap .portReserved
  else if c.portClosed p false then .trap .portDenied
  else match p with
    | 6 =>
      if !c.feed.isEmpty then .ok ({ c with feed := c.feed.drop 4 }.setD d (mkWord 2 (leAt c.feed 0 4))) 1
      else if c.feedEnd then .ok ({ c with feedEnd := false }.setD d (mkWord 0xE c.feedTail)) 1
      else .trap .portIdle
    | 8 =>
      (match c.mail with
        | [] => .stall
        | (src, w) :: rest =>
          if c.mailHalf then .ok ({ c with mail := rest, mailHalf := false }.setD d w) 1
          else .ok ({ c with mailHalf := true }.setD d (mkWord 1 src)) 1)
    | 9 =>
      if c.timerExpired then .ok ({ c with timerExpired := false }.setD d (mkWord 1 0)) 1
      else if c.timer.isSome then .stall else .trap .portIdle
    | p =>
      (match c.queue p with
        | w :: rest => .ok ({ c with inq := Mem.set [] c.inq p rest }.setD d w) 1
        | [] => if p ≤ 4 ∧ c.out_ p = 0 then .trap .portIdle else .stall)

/-- RECV (R480, R483). -/
def execRecv (k stall : Nat) (p : BitVec 4) (d : BitVec 3) (s : State) : Host.Outcome State Fault Refusal :=
  .next (s.runJ k stall (.recv p d) (fun c => c.recvWord p.toNat d))

/-- A SEND on the port would not stall: on port 4, for the largest request (log 56). -/
def State.sendReady (s : State) (k : Nat) (c : Scull) (p : Nat) : Bool :=
  if p ≤ 4 then !c.engineFull p (if p = 4 then mkWord 1 (63 * 2 ^ 26) else 0) else if p = 8 then !s.mailFull k c else true

/-- A RECV on the port would not stall; a trap is no stall. -/
def Scull.recvReady (c : Scull) (p : Nat) : Bool := match c.recvWord p 0 with | .stall => false | _ => true

/-- BRDY (R476). -/
def execBrdy (k : Nat) (sending : BitVec 1) (p : BitVec 4) (w : BitVec 14) (s : State) : Host.Outcome State Fault Refusal :=
  .next (s.runJ k 0 (.brdy sending p w) (fun c =>
    if 10 ≤ p.toNat then .trap .portReserved
    else c.branch w (if sending = 1 then s.sendReady k c p.toNat else c.recvReady p.toNat)))

/-! ### Interrupts, the timer and the budget (R483, R490, R508) -/

/-- EI (R483). -/
def execEi (k : Nat) (s : State) : Host.Outcome State Fault Refusal :=
  .next (s.runJ k 0 .ei (fun c =>
    if tag4 c.ivec ≠ 5 then .trap .tagMismatch
    else if c.inHandler then .trap .handlerState
    else .ok { c with ien := true } 1))

/-- DI (R471). -/
def execDi (k : Nat) (s : State) : Host.Outcome State Fault Refusal := .next (s.runJ k 0 .di (fun c => .ok { c with ien := false } 1))

/-- RETI (R483). -/
def execReti (k : Nat) (s : State) : Host.Outcome State Fault Refusal :=
  .next (s.runJ k 0 .reti (fun c =>
    if !c.inHandler then .trap .handlerState
    else .ok { c with ien := true, inHandler := false, iret := 0, heldOut := [], rc := BitVec.ofNat 9 (field c.iret.toNat 21 13) } 3
      (some (field c.iret.toNat 12 0 : Nat))))

/-- INTERRUPT_ENTRY (R483, R490): at an interruption point, unless the budget has run out. -/
def execInterruptEntry (k : Nat) (s : State) : Host.Outcome State Fault Refusal :=
  let c := s.scull k
  .next (
    if k < 32 ∧ c.alive ∧ s.psm.mode.runsSculls ∧ !c.noPoint ∧ c.budget ≠ 0 ∧ c.interruptDue then
      s.setScull k { (c.spend 3).goto (field c.ivec.toNat 12 0 : Nat) with
        iret := mkWord 5 (c.pc.toNat + c.rc.toNat * 2 ^ 13), rc := 0, ien := false, inHandler := true, lastPc := c.pc
        heldOut := (List.range 10).filter (fun p => !(c.partial_ p).isEmpty || (p == 5 && c.hookSent.length % 3 != 0)) }
    else s)

/-- TIMER_EXPIRY (R482, R483): the armed timer runs out. -/
def execTimerExpiry (k : Nat) (s : State) : Host.Outcome State Fault Refusal :=
  let c := s.scull k
  .next (if c.alive ∧ s.psm.mode.runsSculls ∧ c.timer.isSome then
      s.setScull k { c with timer := none, timerExpired := true } else s)

/-- BUDGET (R485, R490, R508): BUDGET_LEFT is 0 at an interruption point. -/
def execBudget (k : Nat) (s : State) : Host.Outcome State Fault Refusal :=
  let c := s.scull k
  .next (if k < 32 ∧ c.alive ∧ s.psm.mode.runsSculls ∧ !c.noPoint ∧ c.budget = 0 then s.trapAt k .budget c.pc.toNat else s)

/-- PROG_PARITY (R468, R485, R486): the fetch at PC traps. An address at or above PL traps with PC_RANGE at the instruction that led
there, as does a two-word instruction whose second word lies there; a reserved word traps with ILLEGAL; any other with PROG_PARITY,
which is recorded and reported. A translated filter's words are its own (log 60). -/
def execProgParity (k : Nat) (s : State) : Host.Outcome State Fault Refusal :=
  let c := s.scull k
  let pc := c.pc.toNat
  let parity := fun (s : State) (pc : Nat) =>
    (s.trapAt k .progParity pc).scullFault k (0x0F00 + k) evScullProgParity [(1, c.func), (2, c.handle), (2, pc)]
  .next (
    if !(decide (k < 32) && c.alive && s.psm.mode.runsSculls && !c.pointTaken) then s
    else if (s.filterOf k).isSome then let r := s.draw 13; parity r.2 r.1.toNat
    else if c.pastEnd ∨ c.pl ≤ pc then s.trapAt k .pcRange c.lastPc.toNat
    else if c.pl < pc + wordsOf (c.word pc) then s.trapAt k .pcRange pc
    else if (jeriecDecode (c.word pc) (c.word (pc + 1))).isNone then s.trapAt k .illegal pc
    else parity s pc)

end Sys2Proof.Machine
end

