-- ==== Sys2Proof/Machine/Migration.lean ====
section
/-! DEFINITION. Dirty-page logging, quiesce, and the state image of a migration (R180 to R185, R189, R191). -/

namespace Sys2Proof.Machine

/-- A virtual function that is present. -/
def State.isVf (s : State) (g : Nat) : Bool := decide (2 ≤ g ∧ g ≤ 127) && (s.fn g).present

/-- MB_MIG_DIRTY_START (R180). -/
def execMbMigDirtyStart (f : Nat) (s : State) : Host.Outcome State Fault Refusal :=
  .next (s.mbRun f 0x0310 anyPayload (fun s p =>
    let g := byteAt p 0
    let pages := leAt p 4 4
    let a := leAt p 16 8
    let b := leAt p 24 8
    if !s.isVf g ∨ !allZero (slice p 1 3) ∨ pages < 1 ∨ 16777216 < pages ∨ leAt p 8 8 % 4096 ≠ 0 ∨ a % 64 ≠ 0 ∨ b % 64 ≠ 0 then
      (s, some (mbErr 0x0004))
    else (s.updFn g (fun x => { x with dirty := some { base := leAt p 8 8, pages := pages, bufA := a, bufB := b, pf := f } }),
      some (mbOk []))))

/-- The active buffer of a function is frozen behind all its line writes (R182, R191): the state with those lines in the FIFO,
and which buffer it is. -/
def State.freezeDirty (s : State) (g : Nat) : State × Nat :=
  (s.flushDirty g, match (s.fn g).dirty with | some d => flag d.activeB | none => 0)

/-- MB_MIG_DIRTY_HARVEST (R182): a function that is not logging is refused (log 35). -/
def execMbMigDirtyHarvest (f : Nat) (s : State) : Host.Outcome State Fault Refusal :=
  .next (s.mbRun f 0x0311 anyPayload (fun s p =>
    let g := byteAt p 0
    if (s.fn g).dirty.isNone then (s, some (mbErr 0x0008))
    else
      let z := s.freezeDirty g
      (z.1.updFn g (fun x => { x with dirty := x.dirty.map (fun d => { d with activeB := !d.activeB, bits := [], lines := [] }) }),
        some (mbOk [byteOf z.2]))))

/-- MB_MIG_DIRTY_STOP (R182). -/
def execMbMigDirtyStop (f : Nat) (s : State) : Host.Outcome State Fault Refusal :=
  .next (s.mbRun f 0x0312 anyPayload (fun s p =>
    let g := byteAt p 0
    if (s.fn g).dirty.isNone then (s, some (mbErr 0x0008))
    else
      let z := s.freezeDirty g
      (z.1.updFn g (fun x => { x with dirty := none }), some (mbOk [byteOf z.2]))))

/-- The accepted work of a function has ended (R183, R524): commands, other than requests that wait for events, and scull
invocations, running and queued. -/
def State.workEnded (s : State) (g : Nat) : Bool :=
  (s.inflightOf g).all (fun e => e.2.sqe.admin && e.2.sqe.opcode == 0x0C) && s.hif.fetched.all (fun e => e.1 != g) &&
    s.sca.sculls.all (fun e => !(e.2.running && e.2.func == g)) && s.sca.progs.all (fun p => p.func != g || p.queue.isEmpty)

/-- A quiesce that has nothing left to wait for writes the dirty lines and answers (R183). -/
def State.quiesceDone (s : State) (g : Nat) : State :=
  match (s.fn g).quiesceBy with
  | none => s
  | some m =>
    if s.workEnded g then ((s.flushDirty g).updFn g (fun x => { x with quiesceBy := none })).mbRespond m (mbOk [0]) else s

/-- MB_MIG_QUIESCE (R183, R189): the request starts the quiesce, and a later step of it ends it. -/
def execMbMigQuiesce (f : Nat) (s : State) : Host.Outcome State Fault Refusal :=
  .next (
    let s1 := s.mbRunAs f 0x0313 anyPayload (fun s f p =>
      let g := byteAt p 0
      if !s.isVf g then (s, some (mbErr 0x0004))
      else (s.updFn g (fun x => { x with quiesced := true, quiesceBy := some f }), none))
    (s1.fns.filter (fun e => e.2.quiesceBy == some f || e.2.quiesceBy == some (orphanOf f) || e.2.quiesceBy == some nobody)).foldl (fun s e => s.quiesceDone e.1) s1)

/-- MB_MIG_RESUME (R183): the doorbells written during quiesce act now. -/
def execMbMigResume (f : Nat) (s : State) : Host.Outcome State Fault Refusal :=
  .next (s.mbRun f 0x0314 anyPayload (fun s p =>
    let g := byteAt p 0
    if !s.isVf g then (s, some (mbErr 0x0004))
    else
      let ds := (s.fn g).pendingDoorbells
      let s1 := s.updFn g (fun x => { x with quiesced := false, pendingDoorbells := [] })
      (ds.foldl (fun s d => if d.1 % 2 = 0 then s.ringSq g (d.1 / 2) d.2 else s.ringCq g (d.1 / 2) d.2) s1, some (mbOk []))))

/-! ### The state image -/

/-- What a migration image carries (R184): registers, features, bucket levels, epoch, queues, MSI-X table, doorbells; and the FLIGHT_CAP
that the source was given, which it uses (R185, log 98). -/
def State.migNumbers (s : State) (g : Nat) : List Nat :=
  let x := s.fn g
  let sqs := s.hif.sqs.filterMap (fun e => if e.1 / 65536 = g then e.2.map (fun q =>
    [e.1 % 65536, q.size, q.cq, q.head, q.tail, q.prio.toNat, q.base]) else none)
  let cqs := s.hif.cqs.filterMap (fun e => if e.1 / 65536 = g then e.2.map (fun q =>
    [e.1 % 65536, q.size, flag q.ien, q.vector, q.posted, q.tail, q.base]) else none)
  [x.epoch.toNat, flag x.en, x.ams.toNat, flag x.rdy, x.aqa.toNat, x.asq.toNat, x.acq.toNat, flag x.wce,
   x.features.ab.toNat, x.features.hpw.toNat, x.features.mpw.toNat, x.features.lpw.toNat, x.features.tempOver,
   x.features.tempUnder, x.features.aec.toNat, x.features.timestamp, (BitVec.ofInt 64 x.bwLevel).toNat,
   (BitVec.ofInt 64 x.iopsLevel).toNat, sqs.length, cqs.length, x.msix.length, x.pendingDoorbells.length,
   match s.tenant g with | some t => t.flightCap | none => 0] ++
    sqs.flatten ++ cqs.flatten ++ (x.msix.map (fun e => [e.1, e.2.toNat])).flatten ++ (x.pendingDoorbells.map (fun d => [d.1, d.2])).flatten

/-- The image with its header and MAC (R184). -/
def State.migImage (s : State) (g macSlot : Nat) (key : Bytes) : Bytes :=
  let body := (Config.migrationSections (s.migNumbers g)).take (98304 - 64)
  let head := [0x4C, 0x58, 0x4D, 0x49] ++ leBytes 2 1 ++ [byteOf g, 0] ++ leBytes 4 (64 + body.length) ++
    leBytes 8 s.configFp.toNat ++ leBytes 2 macSlot ++ leBytes 10 0
  head ++ hmacOf 0 key (head ++ body) ++ body

/-- The HMAC key of a slot of function `f` for a migration image: NOT_FOUND outside the range, REFUSED with DETAIL 1 when it is
not LOADED or not an HMAC key (R184). -/
def State.macKey (s : State) (f slot : Nat) : Except MbResp Bytes :=
  if !s.ownsSlot f slot then .error (mbErr 0x000B)
  else match (s.slot slot).key with
    | some k => if (s.slot slot).code = 1 ∧ k.attr.getLsbD 5 then .ok k.bytes else .error (mbErr 0x0008 1)
    | none => .error (mbErr 0x0008 1)

/-- MB_MIG_SAVE (R184): the piece at OFFSET 0 makes the image, and the later ones read it on. -/
def execMbMigSave (f : Nat) (s : State) : Host.Outcome State Fault Refusal :=
  .next (s.mbRun f 0x0315 anyPayload (fun s p =>
    let sel := leAt p 0 8
    let g := field sel 7 0
    let others := (s.mb f).parts.filter (fun x => x.cmd != 0x0315)
    if field sel 63 24 ≠ 0 ∨ !s.isVf g then (s, some (mbErr 0x0004))
    else if leAt p 8 4 ≠ 0 then
      match (s.mb f).parts.find? (fun x => x.cmd == 0x0315) with
      | none => (s, some (mbErr 0x0007))
      | some x => (s, some (if x.sel ≠ sel then mbErr 0x0004 else readPiece x.bytes p))
    else match s.macKey f (field sel 23 8) with
      | .error r => (s, some r)
      | .ok k =>
        if !(s.fn g).quiesced ∨ (s.fn g).quiesceBy.isSome then (s, some (mbErr 0x0008))
        else
          let img := s.migImage g (field sel 23 8) k
          let s1 := s.updMb f (fun m => { m with parts := others ++ [{ cmd := 0x0315, sel := sel, total := img.length, bytes := img }] })
          (s1.raise evMigSaved g [(1, g), (4, img.length), (8, leAt img 32 8)], some (readPiece img p))))

/-- Loads what an image carries into a function (R185): it keeps its own generation, and its own bucket parameters, which bound the
levels (R173). -/
def State.migLoad (s : State) (g : Nat) (ns : List Nat) : State :=
  let at_ := fun i => nth 0 ns i
  let rows := fun (start n w : Nat) => (List.range n).map (fun i => (ns.drop (start + i * w)).take w)
  let nsq := at_ 18
  let ncq := at_ 19
  let nmx := at_ 20
  let ndb := at_ 21
  let sq := fun (r : List Nat) => ({ size := nth 0 r 1, cq := nth 0 r 2, head := nth 0 r 3, tail := nth 0 r 4,
                                     prio := BitVec.ofNat 2 (nth 0 r 5), base := nth 0 r 6 } : Sq)
  let cq := fun (r : List Nat) => ({ size := nth 0 r 1, ien := nth 0 r 2 != 0, vector := nth 0 r 3, posted := nth 0 r 4,
                                     tail := nth 0 r 5, base := nth 0 r 6 } : Cq)
  let s1 := s.dropQueues g
  let s2 := (rows 23 nsq 7).foldl (fun s r => s.setSq g (nth 0 r 0) (some (sq r))) s1
  let s3 := (rows (23 + 7 * nsq) ncq 7).foldl (fun s r => s.setCq g (nth 0 r 0) (some (cq r))) s2
  let mx := 23 + 7 * nsq + 7 * ncq
  s3.updFn g (fun x => ({ x with
    epoch := BitVec.ofNat 16 (at_ 0), en := at_ 1 != 0, ams := BitVec.ofNat 3 (at_ 2), rdy := at_ 3 != 0
    aqa := BitVec.ofNat 32 (at_ 4), asq := BitVec.ofNat 64 (at_ 5), acq := BitVec.ofNat 64 (at_ 6), wce := at_ 7 != 0
    features := { ab := BitVec.ofNat 3 (at_ 8), hpw := BitVec.ofNat 8 (at_ 9), mpw := BitVec.ofNat 8 (at_ 10),
                  lpw := BitVec.ofNat 8 (at_ 11), tempOver := at_ 12, tempUnder := at_ 13, aec := BitVec.ofNat 32 (at_ 14),
                  timestamp := at_ 15 }
    bwLevel := (BitVec.ofNat 64 (at_ 16)).toInt, iopsLevel := (BitVec.ofNat 64 (at_ 17)).toInt
    msix := (rows mx nmx 2).foldl (fun m r => Mem.set 0 m (nth 0 r 0) (BitVec.ofNat 32 (nth 0 r 1))) []
    pendingDoorbells := (rows (mx + 2 * nmx) ndb 2).map (fun r => (nth 0 r 0, nth 0 r 1)) } : Fn).capLevels)

/-- The allotments cover what an image uses (R185): its I/O queues by their numbers and their count, the vectors of its completion
queues and of its table, and FLIGHT_CAP. -/
def State.allotmentCovers (s : State) (g : Nat) (ns : List Nat) : Bool :=
  let nsq := nth 0 ns 18
  let ncq := nth 0 ns 19
  let t := (s.tenant g).getD { func := g, flightCap := 0 }
  let queues := (List.range (nsq + ncq)).map (fun i => nth 0 ns (23 + 7 * i))
  let cqVectors := (List.range ncq).map (fun i => nth 0 ns (23 + 7 * nsq + 7 * i + 3))
  let vectors := (List.range (nth 0 ns 20)).map (fun i => nth 0 ns (23 + 7 * nsq + 7 * ncq + 2 * i) / 4)
  decide (nsq ≤ t.ioQueues + 1) && decide (ncq ≤ t.ioQueues + 1) && queues.all (fun q => decide (q ≤ t.ioQueues)) &&
    (cqVectors ++ vectors).all (fun v => decide (v < t.msixCount)) && decide (nth 0 ns 22 ≤ t.flightCap)

/-- MB_MIG_RESTORE (R185): SEL is the quiesced virtual function; reasons 1 MAC, 2 version, 3 allotment. -/
def execMbMigRestore (f : Nat) (s : State) : Host.Outcome State Fault Refusal :=
  .next (s.mbRun f 0x0316 anyPayload (fun s p =>
    let g := leAt p 0 8
    if !s.isVf g then (s, some (mbErr 0x0004))
    else
      let l := s.loadPiece f 0x0316 p
      match l.2 with
      | .error r => (l.1, some r)
      | .ok none => (l.1, some (mbOk []))
      | .ok (some img) =>
        let s1 := l.1
        let reject := fun (why : Nat) => (s1.raise evMigImageRejected g [(1, g), (1, why)], some (mbErr 0x0008 why))
        let mac := match s1.macKey f (leAt img 20 2) with
          | .ok k => hmacOf 0 k (img.take 32 ++ img.drop 64) == slice img 32 32
          | .error _ => false
        if !(s1.fn g).quiesced then (s1, some (mbErr 0x0008))
        else if !mac ∨ leAt img 0 4 ≠ 0x494D584C ∨ leAt img 8 4 ≠ img.length then reject 1
        else if leAt img 4 2 ≠ 1 then reject 2
        else match Config.migrationContents (img.drop 64) with
          | none => reject 2
          | some ns =>
            if !s1.allotmentCovers g ns then reject 3
            else ((s1.migLoad g ns).raise evMigRestored g [(1, g), (1, byteAt img 6), (8, leAt img 12 8)], some (mbOk []))))

end Sys2Proof.Machine
end

