-- ==== Sys2Proof/Machine/Sweep.lean ====
section
/-! DEFINITION. The Sweep link and the pair: frames, keys, mirror legs at the partner, forwarded commands, heartbeats, loss of the
partner, takeover, rejoining and copies (R570 to R598). -/

namespace Sys2Proof.Machine

/-! ### The receiver (R573, R598) -/

/-- A frame whose CRC passed fails its GCM tag: recorded with the failures since the last record, once per second (R573, R598). -/
def State.authFail (s : State) : State :=
  let l := s.swl.link
  let n := l.authFails + 1
  if l.authSecond = some s.now then { s with swl := { s.swl with link := { l with authFails := n } } }
  else ({ s with swl := { s.swl with link := { l with authFails := 0, authSecond := some s.now } } }).raise evSwlAuthFail 255 [(4, n)]

/-- Frames up to ACK_SEQ are acknowledged; a frame under a newer key acknowledges all of the older key (R573, log 64). -/
def SwlLink.ack (l : SwlLink) (fr : Frame) : SwlLink :=
  { l with
    acked := fr.ackSeq
    unacked := l.unacked.filter (fun t => !(decide (t.keyNo < fr.keyNo) || (t.keyNo == fr.keyNo && decide (t.seq ≤ fr.ackSeq)))) }

/-- Takes a frame in: it is discarded when its CRC or its tag fails, when its SEQ is not the next one, or while the link is down
(R573, R575). True when it was taken. -/
def State.frameIn (s : State) (fr : Frame) : State × Bool :=
  if !s.pairUpOut || !(s.swl.state.linked || s.swl.state == .isolated) || !fr.crcOk then (s, false)
  else if !fr.tagOk then (s.authFail, false)
  else if fr.seq ≠ s.swl.link.rxSeq then (s, false)
  else ({ s with swl := { s.swl with link := { s.swl.link.ack fr with rxSeq := s.swl.link.rxSeq + 1 } } }, true)

/-! ### Units held for the partner (R579, R580, R594) -/

/-- Mirrored data with this ASN, or later data, has been committed for a unit. -/
def State.settled (s : State) (asn : BitVec 48) (k : Nat) : Bool :=
  match Mem.get none s.swl.placed k with
  | some a => a == asn || asnBefore asn a
  | none => false

/-- Every unit of a granule of the write that a held unit belongs to is held. -/
def State.granuleHeld (s : State) (h : HeldUnit) : Bool :=
  let g := unitGranule h.unitNo
  ((List.range 64).map (fun i => 64 * g + i)).all (fun u => !decide (h.first ≤ u ∧ u ≤ h.last) ||
    s.swl.heldUnits.any (fun x => x.asn == h.asn && x.nsid == h.nsid && x.unitNo == u))

/-- No held write with an earlier ASN touches the same granule. -/
def State.firstHeld (s : State) (h : HeldUnit) : Bool :=
  s.swl.heldUnits.all (fun x => !(x.nsid == h.nsid && unitGranule x.unitNo == unitGranule h.unitNo && asnBefore x.asn h.asn))

/-- The slot of a held unit is free again. -/
def State.freeHeld (s : State) (h : HeldUnit) : State := match h.slot with | some i => s.freeSlotAt i | none => s

/-- Takes held units out of the list, with their slots. -/
def State.dropHeld (s : State) (p : HeldUnit → Bool) : State :=
  let out := s.swl.heldUnits.filter p
  let s1 := out.foldl State.freeHeld s
  { s1 with swl := { s1.swl with heldUnits := s1.swl.heldUnits.filter (fun h => !p h) } }

/-- One held unit commits: its slot becomes the unit's, or the unit is UNMAPPED; later data stays (R594). -/
def State.commitHeldUnit (s : State) (h : HeldUnit) : State :=
  let k := unitKey h.nsid h.unitNo
  let s0 := { s with swl := { s.swl with heldUnits := s.swl.heldUnits.filter (· != h) } }
  if s.settled h.asn k then s0.freeHeld h
  else
    let s1 := match h.slot with
      | some i => (s0.dropBuffer k).setEntry k { state := .buffer, paddr := i }
      | none => s0.unmap k
    { s1 with swl := { s1.swl with placed := Mem.set none s1.swl.placed k (some h.asn) } }

/-- Granules of the partner's writes that are complete commit in ASN order (R580); `fuel` bounds them. -/
def State.commitHeld (s : State) : Nat → State
  | 0 => s
  | fuel + 1 =>
    match s.swl.heldUnits.find? (fun h => s.granuleHeld h && s.firstHeld h) with
    | none => s
    | some h =>
      ((s.swl.heldUnits.filter (fun x => x.asn == h.asn && x.nsid == h.nsid && unitGranule x.unitNo == unitGranule h.unitNo)).foldl
        State.commitHeldUnit s).commitHeld fuel

/-- Every unit of the write that a held unit belongs to is held or committed. -/
def State.writeHeld (s : State) (h : HeldUnit) : Bool :=
  ((List.range (h.last + 1 - h.first)).map (· + h.first)).all (fun u =>
    s.settled h.asn (unitKey h.nsid u) || s.swl.heldUnits.any (fun x => x.asn == h.asn && x.nsid == h.nsid && x.unitNo == u))

/-- The writes that held units belong to, by ASN and NSID. -/
def heldWrites (hs : List HeldUnit) : List (BitVec 48 × Nat) :=
  hs.foldl (fun acc h => if acc.contains (h.asn, h.nsid) then acc else acc ++ [(h.asn, h.nsid)]) []

/-! ### Loss and takeover (R587, R588) -/

/-- What has been read for copies is dropped. -/
def State.dropCopies (s : State) : State :=
  { s with
    nss := { s.nss with staged := s.nss.staged.filter (fun e => match e.1 with | .copy _ _ => false | _ => true) }
    swl := { s.swl with copying := [], copyReads := [] } }

/-- The link is down: frames and copies are forgotten, granules not yet copied stay dirty, and changes are noted (R587, R595). -/
def State.linkLost (s : State) : State :=
  let s := s.dropCopies
  { s with swl := { s.swl with
      dirty := s.swl.dirty ++ s.swl.resyncLeft.filter (fun g => !s.swl.dirty.contains g)
      dirtyOn := true, resyncLeft := [], confirmed := []
      link := { s.swl.link with lanes := 0, unacked := [], nonce0 := [], nonce1 := [], rekeying := false } } }

/-- Commands forwarded to the partner end with a status (R583, R588). -/
def State.endForwarded (s : State) (st : Status) : State :=
  s.inflight.foldl (fun s e => if e.2.forwarded then s.finish e.1 st else s) s

/-- The side becomes ISOLATED (R584, R587). -/
def State.isolate (s : State) (ms : Nat) : State :=
  let s1 := (s.linkLost.endForwarded .anaInaccessible)
  let s2 := { s1 with swl := { s1.swl with state := .isolated, booted := false } }
  ((s2.raise evPartnerLost 255 [(1, 1), (4, 0), (4, 0), (4, ms)]).setCause 2 evPartnerLost.code).anaEvent

/-- The takeover (R588): writes of the partner that are wholly held commit in ASN order, the others are discarded, and every
mirrored namespace of the partner is taken. -/
def State.takeover (s : State) (ms : Nat) : State :=
  let s1 := s.linkLost.endForwarded .anaTransition
  let whole := heldWrites (s1.swl.heldUnits.filter (fun h => s1.writeHeld h))
  let torn := heldWrites (s1.swl.heldUnits.filter (fun h => !s1.writeHeld h))
  let s2 := s1.dropHeld (fun h => torn.contains (h.asn, h.nsid))
  let s3 := (s2.commitHeld s2.swl.heldUnits.length).programBuffer false
  let theirs := match s.swl.cfg with
    | some c => c.mirrored.filter (fun n => !s.owns n)
    | none => []
  let s4 := { s3 with swl := { s3.swl with
    state := .sole, taken := s3.swl.taken ++ theirs, partnerOwns := false, booted := if s.swl.state = PairState.isolated then s.swl.booted else false } }
  ((s4.raise evPartnerLost 255 [(1, 2), (4, whole.length), (4, torn.length), (4, ms)]).setCause 2 evPartnerLost.code).anaEvent

/-- LINK_LOST (R587, R588, R593, R595): the level of PAIR_UP_IN decides. `ms` is the time to step 3 of R588. -/
def execLinkLost (ms : Nat) (s : State) : Host.Outcome State Fault Refusal :=
  .next (if !s.pairUpOut ∨ !s.swl.state.linked then s
    else if s.swl.link.upIn then s.isolate ms else s.takeover ms)

/-- PAIR_UP_IN (R587, R592): an ISOLATED side whose partner's line falls runs the takeover. The time in its record is a free value
(log 64). -/
def execPairUpIn (level : Bool) (s : State) : Host.Outcome State Fault Refusal :=
  .next (
    let s1 := { s with swl := { s.swl with link := { s.swl.link with upIn := level } } }
    if !level ∧ s.pairUpOut ∧ s.swl.state = .isolated then
      let d := s1.draw 32
      d.2.takeover d.1.toNat
    else s1)

/-- LEAVE (R584): the partner has left. -/
def execLeave (fr : Frame) (s : State) : Host.Outcome State Fault Refusal :=
  .next (
    let r := s.frameIn fr
    if !r.2 then r.1
    else
      let d := r.1.draw 32
      d.2.takeover d.1.toNat)

/-! ### Mirror legs (R579, R580) -/

/-- The namespace's ASN counter runs one above the highest ASN received for it (R588, R594). -/
def State.noteAsn (s : State) (nsid : Nat) (asn : BitVec 48) : State :=
  match s.ns nsid with
  | none => s
  | some n => if n.asn = asn ∨ asnBefore n.asn (asn + 1) then s.setNs nsid (some { n with asn := asn + 1 }) else s

/-- Data of a forwarded command reaches host memory (R149, R578): the units of a Read by their numbers, other data by the count
of UNIT frames; metadata units lie at the metadata pointer. -/
def State.returnData (s : State) (c : Cmd) (u : Nat) (bs : Bytes) : State :=
  if 2 ^ 36 ≤ u then s.hostWrite c.func (c.sqe.mptr + 4096 * (u - 2 ^ 36)) bs
  else
    let first := if c.sqe.opcode = 0x02 then
        (match s.ns (sqeNsid c.sqe) with | some n => (blockRange n c.sqe).1 / 4096 | none => u)
      else 0
    s.scatter c.func (sqeSpan c.sqe (4096 * (u - first)) bs.length) bs

/-- GEN of a unit held for the partner: that of the function its namespace is attached to here (log 64). -/
def State.heldGen (s : State) (nsid : Nat) : Nat :=
  match (s.ns nsid).bind (·.attached) with
  | some f => (s.fn f).gen.toNat
  | none => 0

/-- UNIT (R572, R573, R578 to R580, R594): read data of a forwarded command goes to the host; a mirrored or copied unit goes into
the protected buffer, is confirmed with HELD, and commits when its granule is complete. A unit that finds no slot is not taken: the
sender sends it again. A bad integrity tag is recorded and counts as a detection, and the unit goes no further (R26, R27). -/
def execUnit (fr : Frame) (u : UnitBody) (s : State) : Host.Outcome State Fault Refusal :=
  .next (
    let wants := u.cid.isNone && !fr.payload.isEmpty && u.tagGood
    if wants ∧ s.freeSlot.isNone then s
    else
      let r := s.frameIn fr
      let s1 := r.1
      if !r.2 ∨ s1.swl.state = .isolated then s1
      else if !u.tagGood then
        let seq := s1.recd.next
        let f := match u.cid with | some i => (match s1.cmd i with | some c => c.func | none => 255) | none => 255
        let s2 := s1.raise evIntegrityTagMismatch f [(2, 0x1012), (1, f), (4, fr.nsid), (8, fr.unitNo)]
        let s3 := match u.cid with | some i => s2.finish i .internalContained | none => s2
        s3.detect 0x1012 evIntegrityTagMismatch.code seq
      else match u.cid with
        | some i => (match s1.cmd i with
            | some c => if c.forwarded ∧ c.result.isNone then s1.returnData c fr.unitNo fr.payload else s1
            | none => s1)
        | none =>
          let k := unitKey fr.nsid fr.unitNo
          let slot := if fr.payload.isEmpty then none else s1.freeSlot
          let s2 := match slot with
            | some i => (s1.takeSlot i k).fillSlot i k (padTo 4096 fr.payload) (s1.heldGen fr.nsid)
            | none => s1
          let h : HeldUnit := { asn := fr.asn, nsid := fr.nsid, unitNo := fr.unitNo, slot := slot, first := u.first, last := u.last }
          let s3 := ({ s2 with swl := { s2.swl with heldUnits := s2.swl.heldUnits ++ [h] } }.noteAsn fr.nsid fr.asn).sendFrame 3
            fr.asn fr.nsid fr.unitNo .plain
          (s3.commitHeld s3.swl.heldUnits.length).programBuffer false)

/-! ### Resynchronisation (R584, R590) -/

/-- This side owns some mirrored namespace now. -/
def State.ownsSome (s : State) : Bool :=
  match s.swl.cfg with
  | some c => c.mirrored.any s.owns || c.mirrored.isEmpty
  | none => false

/-- The last copy has completed (R584, R590): ownership returns to OWNER_MAP. A side that copies nothing waits until its partner
reports PAIRED or SUSPENDED (log 64). -/
def State.settleResync (s : State) : State :=
  if s.swl.state ≠ .resync ∨ !s.swl.resyncLeft.isEmpty ∨ !(s.ownsSome || s.swl.partnerState == 2 || s.swl.partnerState == 3) then s
  else
    let s1 := { s with swl := { s.swl with state := .paired, taken := [], partnerOwns := false, dirty := [] } }
    ((s1.raise evResyncDone 255 [(4, s.swl.resyncTotal), (4, s.swl.resyncMs / 1000)]).clearCause 2 evResyncDone.code).anaEvent

/-- HELD (R579, R590): the partner holds a unit of a write or copy; a copy whose units are all held is complete. -/
def execHeld (fr : Frame) (s : State) : Host.Outcome State Fault Refusal :=
  .next (
    let r := s.frameIn fr
    if !r.2 ∨ r.1.swl.state = .isolated then r.1
    else
      let s1 := { r.1 with swl := { r.1.swl with confirmed := r.1.swl.confirmed ++ [(fr.asn, fr.nsid, fr.unitNo)] } }
      match s1.swl.copying.find? (fun c => c.1 == fr.asn && c.2.1 == fr.nsid &&
          c.2.2.2.all (fun u => s1.swl.confirmed.contains (fr.asn, fr.nsid, u))) with
      | none => s1
      | some c =>
        let s2 := s1.dropConfirmed fr.asn fr.nsid c.2.2.2
        { s2 with swl := { s2.swl with
            copying := s2.swl.copying.filter (· != c)
            resyncLeft := s2.swl.resyncLeft.filter (· != (c.2.1, c.2.2.1))
            dirty := s2.swl.dirty.filter (· != (c.2.1, c.2.2.1)) } }.settleResync)

/-- What a copy asks for when it reads the units of a granule (R590). -/
def State.copyAsker (s : State) (nsid g k : Nat) : Asker :=
  { who := .copy nsid g, nsid := nsid, unitBase := k % 2 ^ 40, func := (s.restTrailer k).func, gen := s.heldGen nsid }

/-- A copy begins: it takes an ASN of the namespace's own counter (R590). -/
def State.beginCopy (s : State) (nsid g : Nat) (n : Ns) : State :=
  let s1 := s.setNs nsid (some { n with asn := n.asn + 1 })
  { s1 with swl := { s1.swl with copyReads := s1.swl.copyReads ++ [(nsid, g, n.asn)] } }

/-- The units of a granule that have been read for a copy go to the partner; a unit that is LOST or cannot be read is left out (log
64). -/
def State.sendCopy (s : State) (nsid g : Nat) (asn : BitVec 48) (us : List Nat) (ds : List (Option Bytes)) : State :=
  let sent : List (Nat × Bytes) := (us.zip ds).filterMap (fun (x : Nat × Option Bytes) => x.2.map (fun (d : Bytes) => (x.1, d)))
  let s1 := sent.foldl (fun (s : State) (x : Nat × Bytes) =>
    s.sendFrame 2 asn nsid x.1 (.unitData none (if (s.entry (unitKey nsid x.1)).state = .unmapped then [] else padTo 4096 x.2))) s
  ({ s1 with swl := { s1.swl with
      copying := s1.swl.copying ++ [(asn, nsid, g, sent.map (fun (x : Nat × Bytes) => x.1))]
      copyReads := s1.swl.copyReads.filter (fun (c : Nat × Nat × BitVec 48) => !(c.1 == nsid && c.2.1 == g)) } }).unstage (.copy nsid g)

/-- What a granule consists of: its units, and its metadata unit (R128, R253). -/
def granuleAll (n : Ns) (g : Nat) : List Nat :=
  (if metaBytes n.lbaf = 0 then [] else [metaUnit g]) ++ (List.range 64).map (fun i => 64 * g + i)

/-- A copy goes on: the units of its granule are read, and it is sent once all of them are there. -/
def State.readCopy (s : State) (nsid g : Nat) (n : Ns) (asn : BitVec 48) : State :=
  let keys := (granuleAll n g).map (unitKey nsid)
  let s1 := keys.foldl (fun s k => s.fetchEntry (s.copyAsker nsid g k) [k]) s
  match s1.gather (.copy nsid g) keys with
  | none => s1
  | some ds => s1.sendCopy nsid g asn (granuleAll n g) ds

/-- RESYNC_COPY (R590, R594): a granule of a namespace this side owns is read, once no write holds its lock, and goes to the
partner with an ASN of its own; while a unit of it is being read from flash the row starts the reads and sends nothing yet. -/
def execResyncCopy (nsid g : Nat) (s : State) : Host.Outcome State Fault Refusal :=
  .next (
    let locked := s.hif.locks.any (fun l => l.excl && l.holds nsid g)
    if !s.pairUpOut ∨ s.swl.state ≠ .resync ∨ !s.swl.resyncLeft.contains (nsid, g) ∨
        s.swl.copying.any (fun c => c.2.1 == nsid && c.2.2.1 == g) then s
    else match s.ns nsid with
      | none => { s with swl := { s.swl with resyncLeft := s.swl.resyncLeft.filter (· != (nsid, g)) } }.settleResync
      | some n =>
        match s.swl.copyReads.find? (fun c => c.1 == nsid && c.2.1 == g) with
        | some c => s.readCopy nsid g n c.2.2
        | none => if locked then s else (s.beginCopy nsid g n).readCopy nsid g n n.asn)

/-! ### Forwarded commands (R578, R580) -/

/-- COMMAND (R578): a command of the partner is accepted here, for the function the namespace is attached to. -/
def execCommand (fr : Frame) (cid : Nat) (e : Sqe) (s : State) : Host.Outcome State Fault Refusal :=
  .next (
    let r := s.frameIn fr
    if !r.2 ∨ r.1.swl.state = .isolated then r.1
    else match (r.1.ns (sqeNsid e)).bind (·.attached) with
      | some f => r.1.accept f 0 { e with admin := false } (some cid)
      | none => r.1.accept 0 0 { e with admin := false } (some cid))

/-- COMPLETION (R578, R580): the result of a command that crossed to the partner, or the end of the partner's part of a Flush. -/
def execCompletion (fr : Frame) (c : Status) (dw0 dw1 : BitVec 32) (cid : Nat) (s : State) : Host.Outcome State Fault Refusal :=
  .next (
    let r := s.frameIn fr
    if !r.2 ∨ r.1.swl.state = .isolated then r.1
    else match r.1.cmd cid with
      | none => r.1
      | some x =>
        if x.forwarded then r.1.finish cid c dw0 dw1
        else match x.partnerFlush with
          | some n => if c = .success then r.1.updCmd cid (fun x => { x with partnerFlush := some (n - 1) }) else r.1.finish cid c
          | none => r.1)

/-! ### Heartbeats (R585, R586) -/

/-- Pair states as R592 codes them. -/
def PairState.code : PairState → Nat
  | .unpaired => 0 | .joining => 1 | .paired => 2 | .suspended => 3 | .isolated => 4 | .sole => 5 | .resync => 6

/-- HEARTBEAT_SEND (R585): every 1 ms; the fingerprint goes with every 100th, and with the first after it changes. -/
def execHeartbeatSend (s : State) : Host.Outcome State Fault Refusal :=
  .next (if !s.pairUpOut ∨ !s.swl.state.linked then s
    else
      let n := s.swl.link.beats + 1
      let fp := if n % 100 = 0 ∨ s.swl.fpChanged then some s.configFp else none
      let s1 := s.sendFrame 6 0 0 0 (.heartbeat s.psm.mode.code s.psm.holdup.volat s.swl.state.code fp)
      { s1 with swl := { s1.swl with
          fpChanged := false
          partnerAge := Nat.min (s1.swl.partnerAge + 1) 0xFFFFFFFF
          resyncMs := if s1.swl.state = .resync then s1.swl.resyncMs + 1 else s1.swl.resyncMs
          link := { s1.swl.link with
            beats := n, suspendedMs := if s1.swl.state = .suspended then s1.swl.link.suspendedMs + 1 else s1.swl.link.suspendedMs } } })

/-- HEARTBEAT (R581, R585, R586): the partner's mode, hold-up state and pair state; a fingerprint is compared. A hold-up state that
becomes VOLATILE through the partner sets WCE (R144). -/
def execHeartbeat (fr : Frame) (h : HeartbeatBody) (s : State) : Host.Outcome State Fault Refusal :=
  .next (
    let r := s.frameIn fr
    if !r.2 ∨ r.1.swl.state = .isolated then r.1
    else
      let s1 := { r.1 with swl := { r.1.swl with
        partnerMode := h.mode, partnerVolatile := h.holdupVolatile, partnerState := h.state
        partnerFp := h.fp.getD r.1.swl.partnerFp
        partnerAge := if h.fp.isSome then 0 else r.1.swl.partnerAge } }
      let s2 := if !r.1.volatileNow && s1.volatileNow then { s1 with fns := Mem.mapAll {} (fun x => { x with wce := true }) s1.fns } else s1
      (if h.fp.isSome then s2.compareFp else s2).settleResync)

/-! ### Joining (R584, R589 to R591) -/

/-- The session key of two nonces: the first 32 bytes of AES-CTR keystream under the pair key from N0 xor N1 (R574). -/
def sessionKey (pairKey n0 n1 : Bytes) : Bytes := aesCtr pairKey (xorBytes n0 n1) (List.replicate 32 0)

/-- A session key becomes page key 1 or 2 of privileged page 2, by KEY_PHASE, with the ATTR of an AES-GCM key of 32 bytes (R355,
R574). -/
def State.setSessionKey (s : State) (phase : Bool) : State :=
  let k := match s.swl.cfg with | some c => sessionKey c.pairKey s.swl.link.nonce0 s.swl.link.nonce1 | none => []
  { s with cpe := { s.cpe with pages := Mem.upd {} s.cpe.pages 2 (fun p =>
      { p with keys := Mem.set ([], 0) p.keys (1 + flag phase) (k, 0x4C) }) } }

/-- A nonce of this side or of the partner is known (R574). -/
def SwlLink.setNonce (l : SwlLink) (position : Nat) (n : Bytes) : SwlLink :=
  if position = 0 then { l with nonce0 := n } else { l with nonce1 := n }

/-- This side's nonce is drawn, when it has none for this join (R574, R379). -/
def State.ownNonce (s : State) : State :=
  if (if s.swl.position = 0 then s.swl.link.nonce0 else s.swl.link.nonce1).isEmpty then
    let d := s.drawBytes 16
    { d.2 with swl := { d.2.swl with link := d.2.swl.link.setNonce s.swl.position d.1 } }
  else s

/-- A namespace of the partner fits this side's copy (R589 check 5). -/
def State.pairNsFits (s : State) (x : PairNs) : Bool :=
  match s.ns x.nsid with
  | none => true
  | some n => n.blocks == x.blocks && n.lbaf == x.lbaf && n.pi == x.pi && n.extended == x.extended && !n.object

/-- The first check of R589 that fails. -/
def State.helloFails (s : State) (h : HelloBody) : Option Nat :=
  match s.swl.cfg with
  | none => some 1
  | some c =>
    if h.pairId ≠ c.pairId ∨ h.position = s.swl.position then some 2
    else if h.fp ≠ s.configFp then some 3
    else if !h.keyOk then some 4
    else if !(h.namespaces.filter (fun x => c.mirrored.contains x.nsid)).all s.pairNsFits then some 5
    else if h.state = 5 ∧ s.swl.state = .sole then some 6
    else none

/-- A mirrored namespace that only the partner has, and owns now, is created here (R589). -/
def State.createMirrored (s : State) (x : PairNs) : State :=
  if (s.ns x.nsid).isSome ∨ s.owns x.nsid ∨ !(match s.swl.cfg with | some c => c.mirrored.contains x.nsid | none => false) then s
  else
    let n : Ns := { object := false, blocks := x.blocks, lbaf := x.lbaf, pi := x.pi, extended := x.extended }
    match x.attached with
    | some f => s.attachNs x.nsid n f
    | none => s.setNs x.nsid (some n)

/-- Every granule of a namespace. -/
def State.granulesOfNs (s : State) (nsid : Nat) : List (Nat × Nat) :=
  match s.ns nsid with
  | none => []
  | some n => (List.range (ceilDiv (n.blocks * lbaBytes n.lbaf) 262144)).map (fun g => (nsid, g))

/-- What this side copies in RESYNC, and the kind of the copy (R590): 1 its dirty bitmap, 2 with the granules that journal replays
changed, 3 everything. -/
def State.resyncPlan (s : State) (h : HelloBody) : List (Nat × Nat) × Nat :=
  let mine := match s.swl.cfg with | some c => c.mirrored.filter s.owns | none => []
  let own := fun (l : List (Nat × Nat)) => l.filter (fun g => mine.contains g.1)
  if h.memberId ≠ s.swl.partnerId then (mine.flatMap s.granulesOfNs, 3)
  else
    let bitmap := if s.swl.booted then [] else own s.swl.dirty
    let journal := own ((if s.swl.booted then s.swl.replayed else []) ++ (if h.booted then h.replayed else []))
    (bitmap ++ (journal.foldl (fun acc g => if acc.contains g ∨ bitmap.contains g then acc else acc ++ [g]) []),
      if s.swl.booted ∨ h.booted then 2 else 1)

/-- The checks pass: RESYNC (R574, R584, R589, R590). The fingerprints are equal, so the cause of a configuration mismatch ends. -/
def State.joinPartner (s : State) (h : HelloBody) : State :=
  let wasSole := s.swl.state = .sole
  let s1 := s.ownNonce
  let s2 := { s1 with swl := { s1.swl with
    taken := if wasSole then s1.swl.taken else []
    partnerOwns := h.state == 5
    partnerFp := h.fp, partnerAge := 0, partnerState := h.state
    link := { s1.swl.link.setNonce h.position h.nonce with
      lanes := 0xF, keyNo := 0, keyPhase := false, txSeq := 0, rxSeq := 0, acked := 0, unacked := [], rekeying := false } } }
  let s3 := (h.namespaces.foldl State.createMirrored (s2.setSessionKey false)).dropHeld (fun _ => true)
  let plan := s3.resyncPlan h
  let s4 := { s3 with swl := { s3.swl with
    state := .resync, resyncLeft := plan.1, resyncTotal := plan.1.length, resyncMs := 0, dirty := plan.1, dirtyOn := false
    partnerId := h.memberId, booted := false, placed := [], joinMs := 0, joining := none, refusal := none } }
  let s5 := match s.swl.joining with
    | some m => s4.mbRespond m (mbOk [])
    | none => s4
  let s6 := s5.raise evPairJoined 255
    [(1, s.swl.position), (8, h.pairId.toNat), (8, h.memberId.toNat), (1, plan.2)]
  ((s6.clearCause 4 evPairJoined.code).anaEvent).settleResync

/-- A side that does not send HELLOs of its own answers the partner's (R589). -/
def State.answerHello (s : State) : State :=
  if s.swl.state = .joining then s
  else
    let s1 := s.ownNonce
    { s1 with swl := { s1.swl with link := { s1.swl.link with hellos := s1.swl.link.hellos + 1 } } }

/-- HELLO (R584, R589, R597): the checks run in JOINING, ISOLATED and SOLE; a device in DRAIN, SAFE-HALT or BOOT does not answer.
A refused join is retried after 1 s. -/
def execHello (fr : Frame) (h : HelloBody) (s : State) : Host.Outcome State Fault Refusal :=
  .next (
    let opened := s.swl.state == .joining || s.swl.state == .isolated || s.swl.state == .sole
    if !s.pairUpOut ∨ !opened ∨ !fr.crcOk ∨ s.swl.retryMs ≠ 0 then s
    else
      let s1 := s.answerHello
      match s1.helloFails h with
      | none => s1.joinPartner h
      | some why =>
        let wait := if s1.swl.state = .joining then 1000 else s1.swl.retryMs
        { s1 with swl := { s1.swl with retryMs := wait, refusal := some why } }.raise evPairJoinRefused 255 [(1, why)])

/-- HELLO_SEND (R584, R591): every 10 ms while JOINING, but for the second after a refusal; after 1 s a waiting MB_PAIR_JOIN gets
REFUSED with the reason of R589, a free value when no check has run (log 64). -/
def execHelloSend (s : State) : Host.Outcome State Fault Refusal :=
  .next (if !s.pairUpOut ∨ s.swl.state ≠ .joining then s
    else
      let s1 := if s.swl.retryMs ≠ 0 then { s with swl := { s.swl with retryMs := s.swl.retryMs - 10 } }
        else
          let s1 := s.ownNonce
          { s1 with swl := { s1.swl with link := { s1.swl.link with hellos := s1.swl.link.hellos + 1 } } }
      let s2 := { s1 with swl := { s1.swl with joinMs := s1.swl.joinMs + 10 } }
      match s2.swl.joining with
      | none => s2
      | some m =>
        if s2.swl.joinMs < 1000 then s2
        else
          let d := s2.draw 64
          let why := s2.swl.refusal.getD d.1.toNat
          ({ d.2 with swl := { d.2.swl with joining := none } }).mbRespond m (mbErr 0x0008 why))

/-! ### A frame on the lanes (R572, R574) -/

/-- The header of a frame sent: ACK_SEQ is that of the last frame taken, and KEY_PHASE selects the key of its KEY_NO (R572; log 64). -/
def State.frameHeader (s : State) (t : TxFrame) (len : Nat) : Bytes :=
  let l := s.swl.link
  let phase := if t.keyNo = l.keyNo then l.keyPhase else !l.keyPhase
  leBytes 32 (t.kind + flag phase * 2 ^ 4 + len * 2 ^ 16 + t.seq * 2 ^ 32 + (l.rxSeq + 2 ^ 32 - 1) % 2 ^ 32 * 2 ^ 64 + t.keyNo * 2 ^ 96 +
    t.asn.toNat * 2 ^ 128 + t.nsid * 2 ^ 176 + t.unitNo * 2 ^ 208)

/-- The payload of a frame sent: a UNIT carries its data and its integrity tag, an unmapped unit nothing (R23, R572). -/
def State.framePayload (s : State) (t : TxFrame) : Bytes :=
  match t.body with
  | .plain => []
  | .unitData _ d =>
    if d.isEmpty then []
    else padTo 4096 d ++
      leBytes 8 (integrityTag (padTo 4096 d) { s.restTrailer (unitKey t.nsid t.unitNo) with gen := s.heldGen t.nsid }).toNat
  | _ => Config.framePayload t.kind t.keyNo t.seq

/-- A frame as the lanes carry it: header, payload under AES-256-GCM with the session key of page 2, tag and CRC-32C (R572, R574). -/
def State.frameBytes (s : State) (t : TxFrame) : Bytes :=
  let p := s.framePayload t
  let h := s.frameHeader t p.length
  let phase := bit (byteAt h 0) 4
  let key := (Mem.get ([], 0) (Mem.get {} s.cpe.pages 2).keys (1 + flag phase)).1
  let e := gcmEnc key (beBytes 4 s.swl.position ++ beBytes 4 t.keyNo ++ beBytes 4 t.seq) h p
  let f := h ++ e.1 ++ padTo 16 e.2
  f ++ leBytes 4 (crc32c f).toNat

/-! ### Re-keying (R574) -/

/-- The exchange of nonces is complete: the next frames carry KEY_NO + 1 with KEY_PHASE inverted, and SEQ restarts. -/
def State.newKey (s : State) : State :=
  let l := s.swl.link
  ({ s with swl := { s.swl with link := { l with
      keyNo := (l.keyNo + 1) % 2 ^ 32, keyPhase := !l.keyPhase, txSeq := 0, rxSeq := 0, acked := 0, rekeying := false } } }).setSessionKey
    (!l.keyPhase)

/-- This side's part of an exchange: a fresh nonce goes out in REKEY. -/
def State.sendRekey (s : State) : State :=
  let d := s.drawBytes 16
  ({ d.2 with swl := { d.2.swl with link := d.2.swl.link.setNonce s.swl.position d.1 } }).sendFrame 7 0 0 0 (.rekey d.1)

/-- REKEY_START (R574): the sender's SEQ has reached 2^32 − 2^20. -/
def execRekeyStart (s : State) : Host.Outcome State Fault Refusal :=
  .next (if !s.pairUpOut ∨ !s.swl.state.linked ∨ s.swl.link.rekeying ∨ s.swl.link.txSeq < 2 ^ 32 - 2 ^ 20 then s
    else
      let s1 := s.sendRekey
      { s1 with swl := { s1.swl with link := { s1.swl.link with rekeying := true } } })

/-- REKEY (R574): the partner's nonce; a side that has not sent its own answers with it. -/
def execRekey (fr : Frame) (nonce : Bytes) (s : State) : Host.Outcome State Fault Refusal :=
  .next (
    let r := s.frameIn fr
    if !r.2 ∨ r.1.swl.state = .isolated then r.1
    else
      let s1 := if r.1.swl.link.rekeying then r.1 else r.1.sendRekey
      { s1 with swl := { s1.swl with link := s1.swl.link.setNonce (1 - s1.swl.position) (padTo 16 nonce) } }.newKey)

/-- GO_BACK_N_RESEND (R573, R592): every frame sent after ACK_SEQ is sent again; a frame's sixteenth resend retrains the lanes. -/
def execGoBackNResend (s : State) : Host.Outcome State Fault Refusal :=
  .next (
    let l := s.swl.link
    if !s.pairUpOut ∨ !s.swl.state.linked ∨ l.unacked.isEmpty then s
    else
      let again := (l.unacked.take 512).map (fun t => { t with resends := t.resends + 1 })
      let worn := again.any (fun t => decide (16 ≤ t.resends))
      { s with swl := { s.swl with link := { l with
          unacked := (if worn then again.map (fun t => { t with resends := 0 }) else again) ++ l.unacked.drop 512
          retrains := l.retrains + flag worn
          retries := Nat.min (l.retries + again.length) 0xFFFFFFFF } } })

/-! ### Mailbox commands -/

/-- The 64 bytes of R592. -/
def State.pairStatus (s : State) : Bytes :=
  let w := s.swl
  padTo 64 ([byteOf w.state.code, byteOf w.position, byteOf (w.link.lanes.toNat + 16 * flag w.link.upIn), 0] ++
    leBytes 8 s.configFp.toNat ++ leBytes 8 w.partnerFp.toNat ++ leBytes 4 w.partnerAge ++ leBytes 4 w.link.retries ++
    leBytes 4 w.link.keyNo ++ leBytes 4 w.resyncLeft.length ++ leBytes 4 w.resyncTotal)

/-- MB_PAIR_STATUS (R592). -/
def execMbPairStatus (f : Nat) (s : State) : Host.Outcome State Fault Refusal :=
  .next (s.mbRun f 0x0B01 anyPayload (fun s _ => (s, some (mbOk s.pairStatus))))

/-- MB_PAIR_JOIN (R584, R591): the position is set, a MEMBER_ID drawn, and the join begins; it answers when the checks pass, or
after 1 s. Outside UNPAIRED the rules give no join: REFUSED, with a free DETAIL (log 64). -/
def execMbPairJoin (f : Nat) (s : State) : Host.Outcome State Fault Refusal :=
  .next (s.mbRunAs f 0x0B02 anyPayload (fun s w p =>
    if 1 < byteAt p 0 then (s, some (mbErr 0x0004))
    else if s.swl.cfg.isNone then (s, some (mbErr 0x0008 1))
    else if s.swl.state ≠ .unpaired then
      let d := s.draw 64
      (d.2, some (mbErr 0x0008 d.1.toNat))
    else
      let d := s.draw 64
      ({ d.2 with swl := { d.2.swl with
          position := byteAt p 0, memberId := d.1, state := .joining, joining := some w, joinMs := 0, retryMs := 0, refusal := none
          link := { d.2.swl.link with nonce0 := [], nonce1 := [] } } }.anaEvent, none)))

/-- A mirrored namespace is erased and detached as its controller leaves the pair. -/
def State.releaseNs (s : State) (i : Nat) : State :=
  let s1 := s.eraseNs i
  match s1.ns i with
  | some n => s1.setNs i (some { n with attached := none })
  | none => s1

/-- The pair's state is forgotten. -/
def State.unpair (s : State) : State :=
  let s := s.dropCopies
  { s with swl := { s.swl with
    state := .unpaired, position := 255, taken := [], partnerOwns := false, dirty := [], dirtyOn := false, resyncLeft := []
    resyncTotal := 0, confirmed := [], placed := [] } }

/-- MB_PAIR_LEAVE (R584, R591): LEAVE goes out when the link is up, this side's copies are unmapped and detached, and the position is
cleared; the causes that a pair state set end with it (log 64). -/
def execMbPairLeave (f : Nat) (s : State) : Host.Outcome State Fault Refusal :=
  .next (s.mbRun f 0x0B03 anyPayload (fun s _ =>
    if s.swl.state = .unpaired then (s, some (mbOk []))
    else
      let mirrored := match s.swl.cfg with | some c => c.mirrored.filter (fun n => (s.ns n).isSome) | none => []
      let s1 := if s.swl.state.linked then s.sendFrame 8 0 0 0 .plain else s
      let s2 := (s1.dropHeld (fun _ => true)).endForwarded .anaTransition
      let s4 := (mirrored.foldl State.releaseNs s2).unpair
      (((((s4.raise evPairLeft 255 [(4, mirrored.length)]).clearCause 2 evPairLeft.code).clearCause 4 evPairLeft.code).anaEvent),
        some (mbOk []))))

end Sys2Proof.Machine
end

