-- ==== Sys2Proof/Machine/Power.lean ====
section
/-! DEFINITION. Supplies and operating modes: the warning and DRAIN, the fence, HOLD and OFF, BOOT, the hold-up self-test and REST
(R526 to R539, R553 to R555, R613 to R617, R623, R625, R628). -/

namespace Sys2Proof.Machine

/-! ### The fence (R527, R529, R553) -/

/-- The fence rises: waiting records go to the retention buffer; in a DRAIN whose ledger still holds units, DRAIN_INCOMPLETE is
recorded with the milliseconds since step 1 (R529, R544, R553). -/
def State.raiseFence (s : State) (ms : Nat) : State :=
  if s.psm.fence then s
  else
    let s1 := { s with psm := { s.psm with fence := true }, recd := s.recd.fence }
    if s.psm.mode = .drain ∧ !s.nss.ledger.isEmpty then s1.raise evDrainIncomplete 255 [(4, s.nss.ledger.length), (4, ms)]
    else s1

/-- NV_WRITE_FENCE (R527, R529): VSENSE_MAIN below 0.96 V. -/
def execNvWriteFence (vsenseMv ms : Nat) (s : State) : Host.Outcome State Fault Refusal :=
  .next (if 960 ≤ vsenseMv ∨ s.psm.mode = .off then s
    else
      let s1 := { s with psm := { s.psm with pins := { s.psm.pins with vsenseMv := vsenseMv } } }
      s1.raiseFence ms)

/-- FLASH_WP_ASSERT (R529, R613): the channel has no operation in progress, or 3 ms have passed since the fence. -/
def execFlashWpAssert (ch : Nat) (s : State) : Host.Outcome State Fault Refusal :=
  .next (if !s.psm.fence then s
    else { s with flash := { s.flash with chans := Mem.upd {} s.flash.chans ch (fun c => { c with wpHigh := false }) } })

/-- The nominal voltage of a monitored rail, mV (R527, R610). -/
def railNominal (rail : Nat) : Nat := nth 0 [800, 850, 900, 1200, 1100] rail

/-- RAIL_LIMIT_TRIP (R527, R544, R563): below 94 % or above 108 % of nominal; the fence at once, and SAFE-HALT without safe drain
but in DRAIN. A rail trips once until the next BOOT. -/
def execRailLimitTrip (rail mv ms : Nat) (above : Bool) (s : State) : Host.Outcome State Fault Refusal :=
  .next (
    let n := railNominal rail
    let out : Bool := if above then decide (n * 108 < mv * 100) else decide (mv * 100 < n * 94)
    if decide (4 < rail) || !out || s.psm.mode == .off || s.psm.mode == .hold || s.psm.rails.contains rail then s
    else
      let s1 := { s with psm := { s.psm with rails := s.psm.rails ++ [rail] } }.raiseFence ms
      s1.dangerHalt evSupplyFault evSupplyFault.comp [(1, rail), (2, mv), (1, if above then 2 else 1)] false)

/-! ### Switching the main domains off -/

/-- What a function keeps without the main domains: keys, saved features, its epoch and what it holds (R41, R106, R357, R359). -/
def Fn.powerOff (x : Fn) : Fn :=
  { features := x.saved, saved := x.saved, kek := x.kek, mediaKey := x.mediaKey, epoch := x.epoch, rate := x.rate
    objectsUsed := x.objectsUsed, capacityUsed := x.capacityUsed }

/-- A key slot at BOOT (R361, R376): no command stamped before a staged rewrite is left, so the old key is gone, and the counter
resumes at its mark. -/
def Slot.powerOff (x : Slot) : Slot :=
  { x with staged := none, key := x.key.map (fun k => { k with counter := x.mark }) }

/-- Every command ends into nothing (R41, R150, R178): appends that have not completed, those that failed in SAFE-HALT among them, are
undone, and their charges come back. -/
def State.abandonAll (s : State) : State :=
  let s1 := s.inflight.foldl (fun s e => s.dropCommand e.1 e.2) s
  let s2 := s1.objs.undone.foldl State.undoAppend s1
  { s2 with objs := { s2.objs with undone := [] } }

/-- A profile version after a BOOT (R106): only current ones are left, for every later stamp. -/
def State.bootProfiles (s : State) : List Profile :=
  (s.objs.profiles.filter (·.current)).map (fun (p : Profile) => { p with since := (s.fn p.func).epoch, upTo := none })

/-- The main domains are off (R299, R449, R530, R537, R628): what NVS, MRAM, flash and the always-on domain do not hold is gone.
Namespace ASN counters restart (R137), reservations do not persist (NVM Express; log 65), and a paired side will rejoin (R584). -/
def State.mainOff (s0 : State) : State :=
  let s := s0.abandonAll.forgetMaps
  { s with
    fns := Mem.mapAll {} Fn.powerOff s.fns
    hif := { refclkLost := s.hif.refclkLost, perst := s.hif.perst }
    nss := { s.nss with
      ns := Mem.mapAll none (fun n => n.map (fun (x : Ns) => { x with asn := 0, resv := {} })) s.nss.ns
      slots := [], slotGen := [], journal := [], staged := [] }
    objs := { s.objs with
      deleted := s.objs.deleted.map (fun d => (d.1, [])), fullRecorded := none, profiles := s.bootProfiles }
    flash := { s.flash with
      dies := Mem.mapAll {} (fun (d : Die) => { d with state := if d.state = 2 then 2 else 0, failures := 0 }) s.flash.dies
      chans := [], ops := [], recopy := [], sketch := [], increments := 0, collecting := [], journalRead := false
      sbs := Mem.mapAll {} (fun (b : Sb) => { b with readers := 0 }) s.flash.sbs }
    dram := { ranks := s.dram.ranks, rankMap := s.dram.rankMap, board := s.dram.board }
    dmf := {}
    cpe := { slots := Mem.mapAll {} Slot.powerOff s.cpe.slots }
    dge := {}, cmp := {}, asu := {}, sca := {}
    therm := { s.therm with level := 0, critical := 0 }
    swl := { s.swl with
      state := if s.swl.position ≤ 1 then .joining else .unpaired
      partnerFp := 0, partnerAge := 0, partnerMode := 0, partnerVolatile := false, partnerState := 0
      heldUnits := [], confirmed := [], dirty := [], dirtyOn := false, taken := [], partnerOwns := false, placed := []
      copying := [], copyReads := [], resyncMs := 0, retryMs := 0, refusal := none, booted := true, replayed := [], resyncLeft := []
      resyncTotal := 0, fpChanged := false, joining := none, joinMs := 0
      link := { upIn := s.swl.link.upIn } }
    psm := { s.psm with
      heldFromHalt := false, maintByHost := false, maintByWork := false, maintWaiting := none, restartDue := false
      drainFromHalt := false
      holdup := { s.psm.holdup with run := none, failing := none }
      pins := { s.psm.pins with ppInEn := true, bleed := false } } }

/-- The always-on domain resets and the device is in OFF (R528, R615, R628): its counters, records and latches are gone, FAULT_N is
released, and the test access port, which it powers, is reset (IEEE 1149.1; log 65). -/
def State.aonReset (s : State) : State :=
  { s with
    recd := { s.recd with queue := [], blocked := [], retention := [], dropped := 0, hours := 0, seconds := 0, powerCycles := 0, aonLost := true }
    psm := { s.psm with
      mode := .off, prevMode := s.psm.mode, warning := false, fence := false, rails := [], thermalHold := false
      pins := { s.psm.pins with faultLow := false, aonBkup := false } }
    tap := {} }

/-- Moves the device to HOLD: the record of the move is raised in HOLD (R537, R553). -/
def State.enterHold (s : State) (cause : Nat) : State :=
  let old := s.psm.mode
  { s with psm := { s.psm with mode := .hold, prevMode := old } }.raise evModeChanged 255 [(1, old.code), (1, 1), (2, cause)]

/-- The always-on domain leaves reset with POR_N high and an input present: OFF to HOLD, with TEST_EN sampled (R537, R617, R629). -/
def State.leaveReset (s : State) (testEn : Bool) : State :=
  if s.psm.mode = .off ∧ s.psm.pins.aonUp ∧ !s.psm.pins.porLow then
    { s with psm := { s.psm with pins := { s.psm.pins with testEn := testEn } } }.enterHold 0
  else s

/-- The waiting records written to the ring, while MRAM writes may start (R529, R530). -/
def State.writeAll (s : State) : State :=
  if s.psm.fence then s
  else (List.range (s.recd.queue.length + s.recd.blocked.length + 1)).foldl (fun s _ => s.writeRecord) s

/-- The main domains switch off into HOLD (R530 step 7, R537); a POR_N that was taken resets the always-on domain there (R615,
R625). -/
def State.switchOff (s : State) (cause : Nat) : State :=
  let s1 := (s.writeAll.mainOff).enterHold cause
  if s.psm.por.isSome then s1.aonReset.leaveReset s.psm.pins.testEn else s1

/-! ### The supply-fail warning and DRAIN (R530, R561 to R564) -/

/-- Step 3 of R530 in the fabric: descriptors stop without retraction or completion (R336). -/
def stopChannel (c : DmaCh) : DmaCh :=
  { c with
    state := if c.state = ChState.idle then .idle else .halted
    pend := false, job := [], held := false, failing := false, aborting := false }

/-- Steps 1 to 3 of R530: the mode, the links, the commands and the engines. Nothing more is completed (R154); data of writes that
had not committed is discarded, as are units held for the partner (R150, R580). A hold-up test ends without a result (R561). -/
def State.drainStops (s : State) (cause : Nat) : State :=
  let fromHalt := decide (s.psm.mode = .safeHalt) || s.psm.heldFromHalt
  let s1 := (s.toMode .drain cause).abandonAll.dropHeld (fun _ => true)
  let s2 := (if s1.swl.state.linked then s1.linkLost else s1).stopEngines
  { s2 with
    hif := { dualPort := s2.hif.dualPort, refclkLost := s2.hif.refclkLost, perst := s2.hif.perst, numVfs := s2.hif.numVfs }
    nss := { s2.nss with staged := [] }
    dram := { s2.dram with migration := [], deferredFail := [] }
    dmf := { s2.dmf with chans := Mem.mapAll {} stopChannel s2.dmf.chans }
    flash := { s2.flash with
      ops := s2.flash.ops.filter (fun o => match o.2 with
        | some op => (match op.kind with | .read _ _ _ => false | _ => true)
        | none => false)
      sbs := Mem.mapAll {} (fun (b : Sb) => { b with readers := 0 }) s2.flash.sbs
      collecting := [] }
    psm := { s2.psm with
      drainFromHalt := fromHalt, drainUnits := s2.nss.ledger.length
      holdup := { s2.psm.holdup with run := none, failing := none }
      pins := { s2.psm.pins with ppInEn := true, bleed := false } } }

/-- Whole chunks in the buffer that no digest has been computed of are stored for good, and get their own entry (R67). -/
def State.keepUnhashed (s : State) : State :=
  { s with objs := { s.objs with objects := s.objs.objects.map (fun o => { o with chunks := o.chunks.map (fun (r : ChunkRef) =>
      match s.chunk r.chunk with
      | some c => if !r.hashed && c.len == 1048576 && c.exts.any (fun e => e.state == .buffer) then { r with kept := true } else r
      | none => r) }) } }

/-- Steps 4 and 5 of R530: the journal area and every committed unit of the protected buffer go to SLC; nothing is left to do after
SAFE-HALT (R537), but a safe drain goes on (R562). -/
def State.drainPrograms (s : State) : State :=
  if !s.mayProgram then s else (s.keepUnhashed.programJournal s.nss.journal.length).programBuffer true

/-- The supply-fail warning, or what acts as one (R527, R530, R537, R615, R623): BOOT goes to HOLD, the other running modes to
DRAIN; a DRAIN in progress goes on. -/
def State.supplyWarning (s : State) (cause : Nat) : State :=
  match s.psm.mode with
  | .off | .hold | .drain => s
  | .boot => { s with psm := { s.psm with warning := true } }.switchOff cause
  | _ => (({ s with psm := { s.psm with warning := true } }).drainStops cause).drainPrograms

/-- SUPPLY_FAIL_WARNING (R527, R530, R561, R562): VSENSE_MAIN below 1.10 V. -/
def execSupplyFailWarning (vsenseMv : Nat) (s : State) : Host.Outcome State Fault Refusal :=
  .next (if 1100 ≤ vsenseMv ∨ s.psm.mode = .off then s
    else
      let s1 := { s with psm := { s.psm with pins := { s.psm.pins with vsenseMv := vsenseMv } } }
      s1.supplyWarning 0)

/-- No program is in progress. -/
def State.flashQuiet (s : State) : Bool :=
  s.flash.ops.all (fun o => match o.2 with
    | some op => (match op.kind with | .program _ _ => false | _ => true)
    | none => true)

/-- DRAIN_COMPLETE (R265, R530 steps 5 to 7, R554, R564, R625): the drain's programs have ended, and a last journal page records the
new locations, or the fence has risen. -/
def execDrainComplete (ms vsenseMv : Nat) (s : State) : Host.Outcome State Fault Refusal :=
  .next (if s.psm.mode ≠ .drain ∨ (!s.psm.fence ∧ !s.flashQuiet) then s
    else
      let s0 := if s.mayProgram then s.programJournal s.nss.journal.length else s
      let s1 := { s0 with psm := { s0.psm with pins := { s0.psm.pins with vsenseMv := vsenseMv } } }.raise evDrainComplete 255
        [(4, s0.psm.drainUnits - s0.nss.ledger.length), (4, ms), (2, vsenseMv)]
      let s2 := if s1.mayWriteNvs then { s1 with recd := s1.recd.mirrorNow } else s1
      let counts := fun (m : Mem (List Nat)) (e : Nat × Sb) => Mem.set [0, 0, 0, 0] m e.1 e.2.reads
      let s3 := if s2.nss.ledger.isEmpty then
          { s2 with flash := { s2.flash with drained := true, checkpoint := s2.flash.sbs.foldl counts [] } }
        else s2
      s3.switchOff evDrainComplete.code)

/-! ### The always-on domain (R527, R528, R537, R615, R628) -/

/-- AON_SWITCHOVER (R527, R528). -/
def execAonSwitchover (s : State) : Host.Outcome State Fault Refusal :=
  .next (if s.psm.mode = .off ∨ s.psm.pins.aonBkup then s
    else { s with psm := { s.psm with pins := { s.psm.pins with aonBkup := true } } }.raise evAonSwitchover 255 [(1, 1)])

/-- The way back to VDD_AON_MAIN (R527, R528). -/
def execAonSwitchback (s : State) : Host.Outcome State Fault Refusal :=
  .next (if s.psm.mode = .off ∨ !s.psm.pins.aonBkup then s
    else { s with psm := { s.psm with pins := { s.psm.pins with aonBkup := false } } }.raise evAonSwitchover 255 [(1, 2)])

/-- AON_POWER_UP (R537, R615, R617): an always-on input rises; while POR_N is low the domain stays in reset. -/
def execAonPowerUp (testEn : Bool) (s : State) : Host.Outcome State Fault Refusal :=
  let s1 := { s with psm := { s.psm with pins := { s.psm.pins with aonUp := true } } }
  .next (s1.leaveReset testEn)

/-- AON_LOSS (R528, R628): both inputs are lost; main domains that ran are reset with the always-on domain. -/
def execAonLoss (s : State) : Host.Outcome State Fault Refusal :=
  let s1 := { s with psm := { s.psm with por := none, pins := { s.psm.pins with aonUp := false } } }
  .next (s1.mainOff.aonReset)

/-- POR_N (R615, R625): taken after 10 µs low. -/
def execPorN (s : State) : Host.Outcome State Fault Refusal :=
  .next (if s.psm.pins.porLow then s
    else
      let at_ : Option Mode := if s.psm.por.isSome then s.psm.por else some s.psm.mode
      let s1 := { s with psm := { s.psm with pins := { s.psm.pins with porLow := true } } }
      match s.psm.mode with
      | .off => s1
      | .hold => { s1 with psm := { s1.psm with por := at_ } }.aonReset
      | _ => { s1 with psm := { s1.psm with por := at_ } }.supplyWarning evPorPinReset.code)

/-- POR_N_RISE (R615). -/
def execPorNRise (testEn : Bool) (s : State) : Host.Outcome State Fault Refusal :=
  let s1 := { s with psm := { s.psm with pins := { s.psm.pins with porLow := false } } }
  .next (s1.leaveReset testEn)

/-! ### BOOT (R221, R225, R537, R553 to R555, R614) -/

/-- The counters when the always-on domain was lost: the mirror, raised to the newest valid record's (R555). -/
def Rec.restored (r : Rec) : Rec :=
  if !r.aonLost then r
  else
    let m := r.mirror
    let newest := r.valid.getLast?
    let late := match newest with
      | some e => decide (3600 * m.1 + m.2.1 < 3600 * e.hours + e.seconds)
      | none => false
    { r with
      hours := if late then (newest.map (·.hours)).getD m.1 else m.1
      seconds := if late then (newest.map (·.seconds)).getD m.2.1 else m.2.1
      powerCycles := m.2.2 }

/-- The recorder at BOOT (R553 to R555, R558): sequence numbers resume above every record, an interrupted clear is finished, the
retention buffer goes to the ring. -/
def Rec.atBoot (r : Rec) : Rec :=
  let cleared := (r.valid.filter (fun e => e.code == evEvtCleared.code)).getLast?
  let kept := match cleared with
    | some c => r.ring.filter (fun e => match e.2 with | some x => decide (c.seq ≤ x.seq) | none => false)
    | none => r.ring
  let top := (r.valid ++ r.retention).foldl (fun n e => Nat.max n (e.seq + 1)) (if r.aonLost then 0 else r.next)
  { r.restored with
    next := top, retention := [], aonLost := false
    ring := r.retention.foldl (fun m e => Mem.set none m (e.seq % 16384) (some e)) kept }

/-- The PSM at BOOT (R527, R535, R537, R545, R548): latches, causes, withdrawals and the last halt are gone; read-only is still a cause
(R271), and the hold-up state is VOLATILE until a test of this BOOT passes (R536). -/
def State.bootPsm (s : State) : Psm :=
  { s.psm with
    mode := .boot, prevMode := s.psm.mode, causes := if s.flash.readOnly then 1 else 0, warning := false, fence := false
    rails := [], thermalHold := false, por := none, halt := {}
    holdup := { s.psm.holdup with volat := true, passed := false } }

/-- The functions that exist at BOOT (R125): the physical functions of the ports. -/
def State.bootFunctions (s : State) : State :=
  let s1 := s.updFn 0 (fun x => { x with present := true })
  if s.hif.dualPort then s1.updFn 1 (fun x => { x with present := true }) else s1

/-- What BOOT does up to the DRAM and the flash (R221, R225, R258, R537, R554, R555, R614, R615); kind 1 is a power-up, 2 a restart from
MAINTENANCE held from SAFE-HALT, which counts no power cycle. -/
def State.bootStart (s : State) (restart : Bool) : State :=
  let old := s.psm.mode
  let r := s.recd.atBoot
  let cycles := if restart then r.powerCycles else Nat.min (r.powerCycles + 1) 0xFFFFFFFF
  let s1 := { s with psm := s.bootPsm, recd := { r with powerCycles := cycles, dropped := 0 }.mirrorNow }
  let s2 := s1.raise evModeChanged 255 [(1, old.code), (1, 2), (2, evBootRecord.code)]
  let s3 := s2.raise evBootRecord 255 [(4, cycles), (1, old.code), (1, if restart then 2 else 1)]
  let s4 := match s.psm.por with
    | some m => s3.raise evPorPinReset 255 [(1, m.code)]
    | none => s3
  let s5 := if r.dropped = 0 then s4 else s4.raise evEvtOverflow 255 [(4, r.dropped)]
  let d := s5.draw 64
  let s6 := { d.2 with flash := { d.2.flash with sketchKey := d.1 } }
  s6.bootFirmware.bootConfig.bootFunctions

/-- MAIN_VALID (R527, R537, R614, R615, R623): VSENSE_MAIN at or above 1.14 V and every rail within limits for 10 ms, POR_N high, and
after a thermal shutdown sensor 0 below 95 °C. -/
def execMainValid (vsenseMv : Nat) (s : State) : Host.Outcome State Fault Refusal :=
  .next (if s.psm.mode ≠ .hold ∨ vsenseMv < 1140 ∨ s.psm.pins.porLow ∨ (s.psm.thermalHold ∧ 368 ≤ nth 0 s.therm.sensors 0) then s
    else
      let s1 := { s with psm := { s.psm with pins := { s.psm.pins with vsenseMv := vsenseMv } } }
      s1.bootStart false)

/-- The self-test failure of an instance at BOOT (R439, R544, R545, R614): recorded with a pattern the model leaves free, and the
instance withdrawn; the last of a class takes the device to SAFE-HALT with BOOT_SELFTEST_FAIL (R537). -/
def State.bootFailed (s : State) (i : Instance) : State :=
  let d := s.draw 32
  let s1 := match i with
    | .asu g => d.2.raise evAsuSelftestFail 255 [(1, g), (4, d.1.toNat), (4, 0)]
    | _ => d.2.raise evSelftestFail 255 [(2, instanceComp i), (4, d.1.toNat)]
  let h := s1.psm.halt
  let s2 := { s1 with psm := { s1.psm with halt := { h with
    withdrawn := if h.withdrawn.contains i then h.withdrawn else h.withdrawn ++ [i] } } }
  if s2.psm.mode = .boot ∧ (instanceKin i).all (fun j => s2.psm.halt.withdrawn.contains j) then
    let t := s2.draw 16
    t.2.dangerHalt evBootSelftestFail (instanceComp i) [(2, instanceComp i), (2, t.1.toNat)] false
  else s2

/-- The instance exists (R12). -/
def realInstance (i : Instance) : Bool := (instanceKin i).contains i

/-- BOOT_COMPLETE (R224, R381, R536, R537, R547, R614, R617): with DRAM up, flash discovered and the journal replayed; a BOOT without a
passing hold-up test is VOLATILE. -/
def execBootComplete (failed : List Instance) (s : State) : Host.Outcome State Fault Refusal :=
  .next (if s.psm.mode ≠ .boot ∨ s.psm.pins.testEn ∨ !s.dram.resetHigh ∨ !s.flash.journalRead ∨ s.psm.holdup.run.isSome then s
    else
      let s1 := (failed.filter realInstance).foldl State.bootFailed s
      if s1.psm.mode ≠ .boot then s1
      else
        let h := s1.psm.holdup
        let causes : BitVec 16 := if h.passed then s1.psm.causes else s1.psm.causes ||| 8
        let s2 := { s1 with
          psm := { s1.psm with
            causes := causes
            holdup := { h with volat := !h.passed, volatileSince := if h.passed then h.volatileSince else s1.recd.hours }
            pins := { s1.psm.pins with faultLow := false } }
          cpe := { s1.cpe with page0Closed := true } }
        let s3 := s2.bootSvn
        if s3.nvs.fwRunning = 1 then s3.toMode .maintenance evFwBootFallback.code
        else s3.toMode (if causes = 0 then .service else .degraded) 0)

/-! ### The hold-up self-test (R534 to R536) -/

/-- Nearest whole number of a quotient (log 67). -/
def nearest (a b : Nat) : Nat := (2 * a + b) / (2 * b)

/-- C, T_PROJ in the units of R548, P_D as a fraction, and whether the test passes. -/
structure HoldupFigures where
  c : Nat
  tproj : Nat
  pd : Nat × Nat
  pass : Bool

/-- Step 5 of R535 from V0, V1 and V2 in rail millivolts, with I_B = 1 A and t = 2 ms. Values the arithmetic does not give, because ΔB is
not greater than ΔA, ΔA is not positive, the test ended early or P_D is 0, are free (log 67). -/
def State.holdupFigures (s : State) (v0 v1 v2 : Nat) (boot sagged : Bool) : State × HoldupFigures :=
  let x := s.draw 16
  let y := x.2.draw 16
  let z := y.2.draw 32
  let old := s.psm.holdup.pd
  let sum := v1 + v2
  let rise := 2 * v1 * v1 - (v0 * v0 + v2 * v2)
  if sagged then (z.2, { c := x.1.toNat, tproj := y.1.toNat, pd := old, pass := false })
  else if rise = 0 then
    (z.2, { c := x.1.toNat, tproj := y.1.toNat, pd := if boot then (z.1.toNat, 1) else old, pass := false })
  else
    let pd : Nat × Nat := if !boot then old
      else if v1 < v0 then (sum * (v0 * v0 - v1 * v1), 2000 * rise) else (z.1.toNat, 1)
    let c := nearest (20000 * sum) rise
    if pd.1 = 0 then (z.2, { c := c, tproj := y.1.toNat, pd := pd, pass := decide (1500 ≤ y.1.toNat) })
    else
      (z.2, { c := c, tproj := nearest (2884000 * sum * pd.2) (rise * pd.1), pd := pd
              pass := decide (15 * rise * pd.1 ≤ 28840 * sum * pd.2) })

/-- P_D in 0.1 W (R548). -/
def Holdup.pdTenths (h : Holdup) : Nat := Nat.min 65535 (nearest (10 * h.pd.1) h.pd.2)

/-- The result of a test (R535, R536, R145): recorded; a pass clears DEGRADED cause 3 and protects the buffer, a failure sets it and
starts the move to VOLATILE. At BOOT the state follows when BOOT ends. -/
def State.holdupResult (s : State) (v0 v1 v2 : Nat) (boot sagged : Bool) : State × Bool :=
  let r := s.holdupFigures v0 v1 v2 boot (sagged || decide (v1 < 11200 ∨ v2 < 11200))
  let f := r.2
  let h := r.1.psm.holdup
  let h1 := { h with
    run := none, c := Nat.min 65535 f.c, tproj := Nat.min 65535 f.tproj, pd := f.pd, testedAt := s.recd.hours
    passed := h.passed || (boot && f.pass) }
  let s1 := { r.1 with psm := { r.1.psm with holdup := h1, pins := { r.1.psm.pins with ppInEn := true, bleed := false } } }
  let s2 := s1.raise evHoldupTestResult 255
    [(1, flag (!f.pass)), (2, h1.c), (2, h1.pdTenths), (2, h1.tproj), (1, if boot then 1 else 2)]
  (if boot then s2
    else if f.pass then (s2.becomeProtected).clearCause 3 evWriteCacheProtected.code
    else (s2.startVolatile).setCause 3 evWriteCacheVolatile.code, f.pass)

/-- The modes in which a hold-up test runs (R535, R536, R567). -/
def Mode.tests : Mode → Bool
  | .boot | .service | .degraded | .maintenance => true
  | _ => false

/-- HOLDUP_TEST_START (R535): PP_IN_EN goes low; below 1.16 V the test is deferred. `v0` is the rail in millivolts at 50 µs. -/
def execHoldupTestStart (vsenseMv v0 : Nat) (s : State) : Host.Outcome State Fault Refusal :=
  .next (if !s.psm.mode.tests ∨ s.psm.heldFromHalt ∨ s.psm.holdup.run.isSome then s
    else
      let s1 := { s with psm := { s.psm with pins := { s.psm.pins with vsenseMv := vsenseMv } } }
      if vsenseMv < 1160 then s1
      else { s1 with psm := { s1.psm with
          pins := { s1.psm.pins with ppInEn := false }
          holdup := { s1.psm.holdup with run := some { v0 := v0, boot := s.psm.mode == .boot } } } })

/-- HOLDUP_PHASE_B (R535 step 3). -/
def execHoldupPhaseB (v1 : Nat) (s : State) : Host.Outcome State Fault Refusal :=
  .next (match s.psm.holdup.run with
    | none => s
    | some r =>
      if r.v1.isSome then s
      else { s with psm := { s.psm with
          pins := { s.psm.pins with bleed := true }, holdup := { s.psm.holdup with run := some { r with v1 := some v1 } } } })

/-- HOLDUP_TEST_END (R535 steps 4 and 5, R536): `sagged` marks VSENSE_MAIN below 1.12 V during the test, which ends it at once. -/
def execHoldupTestEnd (v2 : Nat) (sagged : Bool) (s : State) : Host.Outcome State Fault Refusal :=
  .next (match s.psm.holdup.run with
    | none => s
    | some r => match r.v1 with
      | some v1 => (s.holdupResult r.v0 v1 v2 r.boot sagged).1
      | none => if sagged then (s.holdupResult r.v0 v2 v2 r.boot true).1 else s)

/-! ### REST (R538, R539) -/

/-- The SLC write buffer is below half occupancy, and no die is below GC_START (R538). -/
def State.slcIdle (s : State) : Bool :=
  (s.slcOccupancy.1 == 0 || decide (2 * s.slcOccupancy.1 < s.slcOccupancy.2)) &&
    s.usedDies.all (fun d => decide (s.flash.cfg.gcStart ≤ d.2.free))

/-- The conditions of R538 that the state shows; that the ports are in L1 and that no self-test is due is the command's own. -/
def State.idle (s : State) : Bool :=
  s.psm.mode == .service && s.inflight.isEmpty && s.hif.fetched.isEmpty &&
    s.fns.all (fun e => e.2.mbox.state != .busy) && s.sca.sculls.all (fun e => !e.2.running) &&
    s.dmf.chans.all (fun e => e.2.state != .ready && e.2.state != .active) &&
    s.dram.migration.all (fun e => e.2.isNone) && s.slcIdle && s.psm.holdup.run.isNone

/-- REST_ENTRY (R297, R538): pair C asks for self-refresh; dies idle (R274). -/
def execRestEntry (s : State) : Host.Outcome State Fault Refusal :=
  .next (if !s.idle then s
    else
      let s1 := s.toMode .rest 0
      { s1 with dram := { s1.dram with srRequested := true } })

/-- REST_EXIT (R298, R335, R539): domains that were powered down return. -/
def execRestExit (s : State) : Host.Outcome State Fault Refusal :=
  .next (if s.psm.mode ≠ .rest then s
    else
      let s1 := s.toMode .service 0
      { s1 with dmf := { s1.dmf with domainsOff := [] }, dram := { s1.dram with srRequested := false, selfRefresh := [] }, psm := { s1.psm with waking := false } })

end Sys2Proof.Machine
end

