-- ==== Sys2Proof/Machine/Safety.lean ====
section
/-! DEFINITION. Integrity monitoring: SAFE-HALT and its safe drain, lockstep and clock faults, the rotating self-test (R542 to R547,
R563, R565). -/

namespace Sys2Proof.Machine

/-- SAFE_HALT_ENTERED (R544, R546, R563, R565): a diagnostic whose failure has no row of its own. Its record's data are the failing
chapter's, which this command does not carry: free (log 65). A component that R12 and R13 reserve reports nothing. -/
def execSafeHaltEntered (cause component : Nat) (safeDrain : Bool) (s : State) : Host.Outcome State Fault Refusal :=
  .next (match s.psm.mode with
    | .off | .hold | .safeHalt => s
    | _ =>
      if !componentOk component then s
      else
        let d := s.draw 256
        let k : Ev := ⟨cause, if cause = evMramUe.code then 2 else 3, component⟩
        d.2.dangerHalt k component [(32, d.1.toNat)] safeDrain)

/-- A program of a safe drain succeeds but for the parts of skipped entries (R546). -/
def State.safeProgram (s : State) (i : Nat) (op : FlashOp) (skipped : List Nat) : State :=
  match op.kind with
  | .program slc purpose =>
    ((programParts op.dest op.units op.words).filter (fun u => !skipped.contains u.1)).foldl (fun s u => s.partDone slc purpose u)
      (s.setOp i none)
  | _ => s

/-- The programs of a safe drain, those in progress among them, succeed but for the skipped entries and those whose tag fails, which
stay in the ledger (R530 steps 4 and 5, R546); a last journal page records the new locations. -/
def State.safeDrain (s : State) (skipped : List Nat) : State :=
  if !s.mayProgram then s
  else
    let s0 := s.keepUnhashed.programJournal s.nss.journal.length
    let s1 := s0.sendEntries (s0.sendable ((s0.waitingEntries true).filter (fun u => !skipped.contains u.1)))
    let s2 := s1.flash.ops.foldl (fun s o => match o.2 with | some op => s.safeProgram o.1 op skipped | none => s) s1
    s2.programJournal s2.nss.journal.length

/-- SAFE_DRAIN_COMPLETE (R381, R395, R546 steps 5 and 6). -/
def execSafeDrainComplete (skipped : List Nat) (s : State) : Host.Outcome State Fault Refusal :=
  .next (if s.psm.mode ≠ .safeHalt ∨ !s.psm.halt.safeDrain then s
    else
      let s1 := s.safeDrain skipped
      { s1 with psm := { s1.psm with halt := { s1.psm.halt with safeDrain := false } } }.haltOutputs)

/-- The device's main domains run, so diagnostics report (R543). -/
def Mode.monitored : Mode → Bool
  | .off | .hold => false
  | _ => true

/-- COX_LOCKSTEP (R33, R544): SAFE-HALT; in DRAIN it stands in its record only (R563). -/
def execCoxLockstep (pair cycle : Nat) (s : State) : Host.Outcome State Fault Refusal :=
  .next (if !s.psm.mode.monitored ∨ 2 < pair then s
    else s.dangerHalt evCoxLockstep evCoxLockstep.comp [(1, pair), (8, cycle)] true)

/-- Nominal frequencies of the monitored clock domains, kHz, by the row order of R17; host and test are not monitored. -/
def clockNominal (domain : Nat) : Nat := nth 0 [0, 1200000, 1000000, 1600000, 800000, 450000, 1000000, 25000] domain

/-- CLOCK_FAULT (R336, R544, R547, R563): outside ±3 % or absent; FORCE_OFF of the domain, then SAFE-HALT. -/
def execClockFault (domain khz : Nat) (s : State) : Host.Outcome State Fault Refusal :=
  .next (
    let n := clockNominal domain
    if n = 0 ∨ !s.psm.mode.monitored ∨ (n * 97 ≤ khz * 100 ∧ khz * 100 ≤ n * 103) then s
    else
      let seq := s.recd.next
      let s1 := s.raise evClockFault 255 [(1, domain), (4, khz)]
      if s.psm.mode = .drain then s1
      else (s1.forceOff domain).enterSafeHalt evClockFault.code evClockFault.comp seq true)

/-- The rotating self-test of one idle instance (R412, R448, R545): a failure is recorded and the instance withdrawn; a pass brings it
back, but for a bank group, whose tenant tables stay down until the next BOOT (R448). -/
def State.selfTest (s : State) (i : Instance) (pass : Bool) (pattern : Nat) : State :=
  let h := s.psm.halt
  let seq := s.recd.next
  match i, pass with
  | .asu _, true => s
  | .asu g, false =>
    (s.raise evAsuSelftestFail 255 [(1, g), (4, pattern), (4, s.asu.tables.countP (fun t => t.groups.contains g))]).withdraw i
      evAsuSelftestFail.code seq
  | _, true => { s with psm := { s.psm with halt := { h with withdrawn := h.withdrawn.filter (fun j => j != i) } } }
  | _, false => (s.raise evSelftestFail 255 [(2, instanceComp i), (4, pattern)]).withdraw i evSelftestFail.code seq

/-- ENGINE_SELFTEST (R545). -/
def execEngineSelftest (i : Instance) (pass : Bool) (pattern : Nat) (s : State) : Host.Outcome State Fault Refusal :=
  .next (if !realInstance i ∨ !(s.psm.mode.engines || s.psm.mode == .drain) then s else s.selfTest i pass pattern)

end Sys2Proof.Machine
end

