-- ==== Sys2Proof/Machine/Modes.lean ====
section
/-! DEFINITION. The mailbox commands of the PSM: safety status, MAINTENANCE, and the diagnostics (R537, R540, R541, R548, R568). -/

namespace Sys2Proof.Machine

/-! ### MB_SAFETY_STATUS (R548) -/

/-- One bit per instance that `p` selects. -/
def instanceBits (p : Instance → Bool) (kin : List Instance) : Nat :=
  (kin.zipIdx).foldl (fun n x => n + flag (p x.1) * 2 ^ x.2) 0

/-- The 64 bytes of R548. -/
def State.safetyStatus (s : State) : Bytes :=
  let p := s.psm
  let wd := fun (i : Instance) => instanceBits (fun j => p.halt.withdrawn.contains j) (instanceKin i)
  leBytes 64 (p.mode.code + flag s.volatileNow * 2 ^ 8 + p.causes.toNat * 2 ^ 16 + p.halt.code * 2 ^ 32 + p.halt.component * 2 ^ 48 +
    p.halt.seq * 2 ^ 64 + p.holdup.c * 2 ^ 128 + p.holdup.pdTenths * 2 ^ 144 + p.holdup.tproj * 2 ^ 160 +
    Nat.min 0xFFFF (s.recd.hours - p.holdup.testedAt) * 2 ^ 176 + wd (.cpe 0) * 2 ^ 192 + wd (.dge 0) * 2 ^ 200 +
    wd (.comp 0) * 2 ^ 204 + wd (.decomp 0) * 2 ^ 208 + wd (.asu 0) * 2 ^ 216 + wd (.sae 0) * 2 ^ 224 + wd (.dma 0) * 2 ^ 232 +
    wd (.flash 0) * 2 ^ 240 + p.halt.dangerous * 2 ^ 256 + p.pins.vsenseMv % 65536 * 2 ^ 288 + flag p.pins.aonBkup * 2 ^ 304 +
    flag p.fence * 2 ^ 305)

/-- MB_SAFETY_STATUS (R548). -/
def execMbSafetyStatus (f : Nat) (s : State) : Host.Outcome State Fault Refusal :=
  .next (s.mbRun f 0x0901 anyPayload (fun s _ => (s, some (mbOk s.safetyStatus))))

/-! ### MAINTENANCE (R540, R568) -/

/-- MAINTENANCE entered for the host: recorded with the mode left (R540, R569). -/
def State.maintEnter (s : State) (f : Nat) (held : Bool) : State :=
  let old := s.psm.mode
  let s1 := s.raise evMaintEntered f [(1, f), (1, old.code)]
  let s2 := if old = .maintenance then s1 else s1.toMode .maintenance evMaintEntered.code
  { s2 with psm := { s2.psm with maintByHost := !held, heldFromHalt := held } }

/-- What MB_MAINT_ENTER does when it runs: from SAFE-HALT held, else with a wait of `w` for accepted I/O (R540). -/
def State.maintRequest (s : State) (f w : Nat) : State × Option MbResp :=
  match s.psm.mode with
  | .safeHalt => (s.maintEnter f true, some (mbOk []))
  | .service | .degraded | .maintenance =>
    let s1 := if s.psm.heldFromHalt ∨ s.psm.maintByHost then s else s.maintEnter f false
    if s1.ioDone then (s1, some (mbOk [])) else ({ s1 with psm := { s1.psm with maintWaiting := some w } }, none)
  | _ => (s, some (mbErr 0x0005))

/-- MB_MAINT_ENTER (R537, R540, R568): a request that waits is answered once accepted I/O has completed; the other waits for it, and for
a safe drain in progress (log 65). -/
def execMbMaintEnter (f : Nat) (s : State) : Host.Outcome State Fault Refusal :=
  .next (match s.psm.maintWaiting with
    | some m =>
      if s.ioDone then ({ s with psm := { s.psm with maintWaiting := none } }).mbRespond m (mbOk []) else s
    | none =>
      if s.psm.mode = .safeHalt ∧ s.psm.halt.safeDrain then s
      else s.mbRunAs f 0x0903 anyPayload (fun s w _ => s.maintRequest f w))

/-- MB_MAINT_EXIT (R537, R540, R568): the mode entered. From MAINTENANCE held from SAFE-HALT it is BOOT, and the restart of every
domain but always-on follows the response (log 65). -/
def execMbMaintExit (f : Nat) (s : State) : Host.Outcome State Fault Refusal :=
  .next (if s.psm.restartDue then
      (if (s.mb f).prepared.isSome then s else s.mainOff.bootStart true)
    else s.mbRun f 0x0904 anyPayload (fun s _ =>
      if s.psm.mode ≠ .maintenance then (s, some (mbErr 0x0005))
      else if s.psm.heldFromHalt then
        ({ s with psm := { s.psm with restartDue := true } }.raise evMaintExited 255 [(1, Mode.boot.code)],
          some (mbOk [byteOf Mode.boot.code]))
      else
        let s1 := ({ s with psm := { s.psm with maintByHost := false } }).leaveMaint evMaintExited.code
        (s1.raise evMaintExited 255 [(1, s1.psm.mode.code)], some (mbOk [byteOf s1.psm.mode.code]))))

/-! ### MB_DIAG_RUN (R541) -/

/-- The requests a diagnostic's row takes: its own test number, and numbers that name no test. -/
def diagTest (n : Nat) (p : Bytes) : Bool := leAt p 0 2 == n || decide (leAt p 0 2 < 1 ∨ 5 < leAt p 0 2)

/-- Runs a diagnostic; its body gives the state and the 64-bit result. -/
def State.diag (s : State) (f n : Nat) (body : State → State × Nat) : State :=
  s.mbRun f 0x0905 (diagTest n) (fun s p =>
    if s.psm.mode ≠ .maintenance then (s, some (mbErr 0x0005))
    else if leAt p 0 2 ≠ n then (s, some (mbErr 0x0004))
    else
      let r := body s
      (r.1, some (mbOk (leBytes 8 r.2))))

/-- Test 0x0001, HOLDUP (R535 in its SERVICE form, R541); below 1.16 V it is not run. -/
def execDiagHoldup (f v0 v1 v2 : Nat) (s : State) : Host.Outcome State Fault Refusal :=
  .next (s.diag f 0x0001 (fun s =>
    if v0 < 11600 ∨ s.psm.holdup.run.isSome then (s, 2)
    else
      let r := s.holdupResult v0 v1 v2 false false
      let h := r.1.psm.holdup
      (r.1, flag (!r.2) + h.c * 2 ^ 8 + h.tproj * 2 ^ 24 + h.pdTenths * 2 ^ 40)))

/-- Every withdrawable instance (R545). -/
def allInstances : List Instance :=
  instanceKin (.cpe 0) ++ instanceKin (.dge 0) ++ instanceKin (.comp 0) ++ instanceKin (.decomp 0) ++ instanceKin (.asu 0) ++
    instanceKin (.sae 0) ++ instanceKin (.dma 0)

/-- Test 0x0002, ENGINE_SWEEP (R541, R545): each instance as the rotating self-test finds it; the failing patterns are free. -/
def execDiagEngineSweep (f : Nat) (failed : List Instance) (s : State) : Host.Outcome State Fault Refusal :=
  .next (s.diag f 0x0002 (fun s =>
    let s1 := allInstances.foldl (fun s i =>
      if failed.contains i then
        let d := s.draw 32
        d.2.selfTest i false d.1.toNat
      else s.selfTest i true 0) s
    let bits := fun (i : Instance) => instanceBits (fun j => failed.contains j) (instanceKin i)
    (s1, flag (allInstances.any (fun i => failed.contains i)) + bits (.cpe 0) * 2 ^ 8 + bits (.dge 0) * 2 ^ 16 + bits (.comp 0) * 2 ^ 20 +
      bits (.decomp 0) * 2 ^ 24 + bits (.asu 0) * 2 ^ 32 + bits (.sae 0) * 2 ^ 40 + bits (.dma 0) * 2 ^ 44)))

/-- Test 0x0003, CLOCK (R541): a bit per domain whose monitor failed. -/
def execDiagClock (f : Nat) (failed : BitVec 9) (s : State) : Host.Outcome State Fault Refusal :=
  .next (s.diag f 0x0003 (fun s => (s, flag (failed != 0) + failed.toNat * 2 ^ 8)))

/-- Test 0x0004, MRAM_SCRUB (R541). -/
def execDiagMramScrub (f corrected uncorrectable : Nat) (s : State) : Host.Outcome State Fault Refusal :=
  .next (s.diag f 0x0004 (fun s =>
    (s, flag (uncorrectable != 0) + corrected % 2 ^ 32 * 2 ^ 8 + uncorrectable % 2 ^ 24 * 2 ^ 40)))

/-- Test 0x0005, SPL_MARCH (R541). -/
def execDiagSplMarch (f lines : Nat) (s : State) : Host.Outcome State Fault Refusal :=
  .next (s.diag f 0x0005 (fun s => (s, flag (lines != 0) + lines % 2 ^ 24 * 2 ^ 8)))

end Sys2Proof.Machine
end

