-- ==== Sys2Proof/Machine/ProfileRecord.lean ====
section
/-! DEFINITION. Packaging and encryption profile records: their fields, templates and directives, and the checks at load (R85 to
R89, R94). -/

namespace Sys2Proof.Machine

/-- A directive of a template (R86). -/
structure Directive where
  pos : Nat
  op : Nat
  arg : Nat
  param : Nat
  deriving DecidableEq, Repr

/-- A template (R86). -/
structure Template where
  literal : Bytes
  dirs : List Directive
  rsv : Nat
  /-- 8 + 8 × DIRECTIVE_COUNT + LITERAL_LEN. -/
  size : Nat
  deriving DecidableEq, Repr

/-! ### The packaging header (R85) -/

/-- KIND: 0 CMAF, 1 TS. -/
def pkgKind (r : Bytes) : Nat := leAt r 0 1
/-- TRUN_VERSION. -/
def pkgTrunVersion (r : Bytes) : Nat := field (leAt r 1 1) 0 0
/-- EMIT_STYP. -/
def pkgEmitStyp (r : Bytes) : Bool := bit (leAt r 1 1) 1
/-- EMIT_SIDX. -/
def pkgEmitSidx (r : Bytes) : Bool := bit (leAt r 1 1) 2
/-- AUD_INSERT. -/
def pkgAudInsert (r : Bytes) : Bool := bit (leAt r 1 1) 3
/-- PARAMS_AT_SYNC. -/
def pkgParamsAtSync (r : Bytes) : Bool := bit (leAt r 1 1) 4
/-- HOOK_MODE. -/
def pkgHookMode (r : Bytes) : Nat := leAt r 2 1
/-- STYP_LEN. -/
def pkgStypLen (r : Bytes) : Nat := leAt r 3 1
/-- TRUN_FLAGS. -/
def pkgTrunFlags (r : Bytes) : Nat := leAt r 4 3
/-- TRACK_ID. -/
def pkgTrackId (r : Bytes) : Nat := leAt r 8 4
/-- SEQUENCE_BASE. -/
def pkgSeqBase (r : Bytes) : Nat := leAt r 12 4
/-- CREATION_TIME. -/
def pkgCreation (r : Bytes) : Nat := leAt r 16 8
/-- HOOK_PROGRAM. -/
def pkgHookProgram (r : Bytes) : Nat := leAt r 24 2
/-- INIT_TEMPLATE_LEN. -/
def pkgInitLen (r : Bytes) : Nat := leAt r 26 2
/-- MOOF_TEMPLATE_LEN. -/
def pkgMoofLen (r : Bytes) : Nat := leAt r 28 2
/-- PMT_PID. -/
def pkgPmtPid (r : Bytes) : Nat := field (leAt r 32 2) 12 0
/-- ES_PID. -/
def pkgEsPid (r : Bytes) : Nat := field (leAt r 34 2) 12 0
/-- TSID. -/
def pkgTsid (r : Bytes) : Nat := leAt r 36 2
/-- STREAM_TYPE. -/
def pkgStreamType (r : Bytes) : Nat := leAt r 38 1
/-- STREAM_ID. -/
def pkgStreamId (r : Bytes) : Nat := leAt r 39 1
/-- PCR_LEAD. -/
def pkgPcrLead (r : Bytes) : Nat := leAt r 40 4
/-- ES_INFO_LEN. -/
def pkgEsInfoLen (r : Bytes) : Nat := leAt r 44 1
/-- ADTS_FIXED. -/
def pkgAdts (r : Bytes) : Bytes := slice r 46 7
/-- The STYP area's box. -/
def pkgStyp (r : Bytes) : Bytes := slice r 128 (pkgStypLen r)
/-- The ES_INFO descriptors. -/
def pkgEsInfo (r : Bytes) : Bytes := slice r 192 (pkgEsInfoLen r)
/-- Where the MOOF template starts: the next 8-byte boundary after the INIT template. -/
def pkgMoofAt (r : Bytes) : Nat := 360 + ceilDiv (pkgInitLen r) 8 * 8

/-- A template's fields. -/
def templateOf (t : Bytes) : Template :=
  let n := leAt t 2 2
  { literal := slice t (8 + 8 * n) (leAt t 0 2), rsv := leAt t 4 4, size := 8 + 8 * n + leAt t 0 2
    dirs := (chunksOf 8 (slice t 8 (8 * n))).map (fun d =>
      { pos := leAt d 0 2, op := leAt d 2 1, arg := leAt d 3 1, param := leAt d 4 4 }) }

/-- The INIT template. -/
def pkgInit (r : Bytes) : Template := templateOf (slice r 360 (pkgInitLen r))
/-- The MOOF template. -/
def pkgMoof (r : Bytes) : Template := templateOf (slice r (pkgMoofAt r) (pkgMoofLen r))

/-! ### The checks of a packaging profile (R89) -/

/-- Every TS field that only checks before 9 test is 0 (R85). -/
def pkgNoTs (r : Bytes) : Bool :=
  !pkgAudInsert r && !pkgParamsAtSync r && leAt r 32 4 == 0 && pkgTsid r == 0 && pkgStreamType r == 0 && pkgStreamId r == 0 &&
    pkgPcrLead r == 0 && allZero (pkgAdts r)

/-- The TS fields lie within their ranges. -/
def pkgTsOk (r : Bytes) : Bool :=
  decide (0x10 ≤ pkgPmtPid r ∧ pkgPmtPid r ≤ 0x1FFE ∧ 0x10 ≤ pkgEsPid r ∧ pkgEsPid r ≤ 0x1FFE ∧ pkgEsPid r ≠ pkgPmtPid r ∧
    0xC0 ≤ pkgStreamId r ∧ pkgStreamId r ≤ 0xEF ∧ pkgPcrLead r ≤ 90000)

/-- TRUN_FLAGS is one R85 allows. -/
def trunFlagsOk (t : Nat) : Bool :=
  bit t 0 && (List.range 24).all (fun i => !bit t i || [0, 2, 8, 9, 10, 11].contains i) && !(bit t 2 && bit t 10)

/-- Check 1. -/
def pkgCheck1 (r : Bytes) : Bool :=
  decide (360 ≤ r.length) && decide (pkgKind r ≤ 1) && field (leAt r 1 1) 7 5 == 0 && decide (pkgHookMode r ≤ 1) &&
    trunFlagsOk (pkgTrunFlags r) && leAt r 7 1 == 0 && decide (1 ≤ pkgTrackId r) && leAt r 30 2 == 0 &&
    field (leAt r 32 2) 15 13 == 0 && field (leAt r 34 2) 15 13 == 0 && leAt r 45 1 == 0 && allZero (slice r 53 75) &&
    (if pkgKind r = 0 then pkgNoTs r else pkgTsOk r) && r.length == pkgMoofAt r + pkgMoofLen r

/-- Check 2 on one template. -/
def templateCheck2 (cmaf : Bool) (len : Nat) (t : Template) : Bool :=
  if cmaf then decide (8 ≤ len ∧ len ≤ 16384) && t.rsv == 0 && t.size == len else len == 0

/-- Bytes a PUT writes. -/
def putWidth (op : Nat) : Nat := match op with | 1 => 2 | 2 => 4 | 3 => 8 | _ => 0

/-- A list is in rising order of a measure. -/
def risingBy {α : Type} (g : α → Nat) : List α → Bool
  | [] => true
  | [_] => true
  | a :: b :: l => decide (g a ≤ g b) && risingBy g (b :: l)

/-- Check 3 on one template. -/
def templateCheck3 (t : Template) : Bool :=
  let puts := t.dirs.filter (fun d => putWidth d.op != 0)
  risingBy (·.pos) t.dirs && t.dirs.all (fun d => decide (d.pos ≤ t.literal.length)) &&
    puts.all (fun d => decide (d.pos + putWidth d.op ≤ t.literal.length)) &&
    disjointAll (puts.map (fun d => (d.pos, putWidth d.op)))

/-- A PUT's variable at its width, in the MOOF template or the INIT template (R88). -/
def varOk (isMoof : Bool) (arg width : Nat) : Bool :=
  match arg with
  | 0 => isMoof && width == 4
  | 1 => isMoof && width == 8
  | 2 | 3 | 5 | 6 => width == 4
  | 4 => width == 4 || width == 8
  | 7 => width == 2
  | _ => false

/-- Check 4 on one template. -/
def templateCheck4 (isMoof : Bool) (t : Template) : Bool :=
  t.dirs.all (fun d =>
    match d.op with
    | 0x01 | 0x02 | 0x03 => varOk isMoof d.arg (putWidth d.op) && d.param == 0
    | 0x04 => d.arg == 0
    | 0x10 | 0x11 => isMoof && d.arg == 0 && d.param == 0
    | 0x12 => d.arg == 0 && d.param == 0
    | 0x13 => !isMoof && d.arg == 0 && d.param == 0
    | _ => false)

/-- Check 5 on one template. -/
def templateCheck5 (t : Template) : Bool :=
  let bs := t.dirs.filter (fun d => d.op == 4)
  bs.all (fun d => decide (d.pos + 8 ≤ d.param ∧ d.param ≤ t.literal.length)) &&
    bs.all (fun a => bs.all (fun b => !decide (a.pos < b.pos ∧ b.pos < a.param ∧ a.param < b.param)))

/-- Check 8. -/
def pkgCheck8 (r : Bytes) : Bool :=
  pkgStypLen r == 0 || (pkgKind r == 0 && decide (16 ≤ pkgStypLen r ∧ pkgStypLen r ≤ 64) &&
    beAt r 128 4 == pkgStypLen r && slice r 132 4 == fourCC "styp")

/-- The first failing check of a packaging profile; 0 when all pass. -/
def pkgCheck (r : Bytes) : Nat :=
  let cmaf := pkgKind r == 0
  let ts := if cmaf then [(false, pkgInit r), (true, pkgMoof r)] else []
  if !pkgCheck1 r then 1
  else if !(templateCheck2 cmaf (pkgInitLen r) (pkgInit r) && templateCheck2 cmaf (pkgMoofLen r) (pkgMoof r)) then 2
  else if !ts.all (fun t => templateCheck3 t.2) then 3
  else if !ts.all (fun t => templateCheck4 t.1 t.2) then 4
  else if !ts.all (fun t => templateCheck5 t.2) then 5
  else if cmaf && !(slice (pkgMoof r).literal 4 4 == fourCC "moof" && (pkgMoof r).dirs.countP (fun d => d.op == 0x10) == 1) then 6
  else if cmaf && (pkgInit r).dirs.countP (fun d => d.op == 0x13) != 1 then 7
  else if !pkgCheck8 r then 8
  else if (if cmaf then 0 else 162) < pkgEsInfoLen r then 9
  else 0

/-! ### Encryption profiles (R89, R94) -/

/-- SCHEME: 0 'cenc', 1 'cbcs'. -/
def encScheme (r : Bytes) : Nat := leAt r 0 1
/-- CRYPT_BLOCKS. -/
def encCrypt (r : Bytes) : Nat := field (leAt r 1 1) 3 0
/-- SKIP_BLOCKS. -/
def encSkip (r : Bytes) : Nat := field (leAt r 1 1) 7 4
/-- WHOLE_SAMPLE_CLEAR. -/
def encWholeClear (r : Bytes) : Bool := bit (leAt r 2 1) 0
/-- KID. -/
def encKid (r : Bytes) : Bytes := slice r 4 16
/-- CONST_IV. -/
def encConstIv (r : Bytes) : Bytes := slice r 20 16
/-- PSSH_LEN. -/
def encPsshLen (r : Bytes) : Nat := leAt r 36 2
/-- The PSSH area. -/
def encPssh (r : Bytes) : Bytes := slice r 64 (encPsshLen r)

/-- Complete 'pssh' boxes tile a run of bytes exactly. -/
def psshTiles : Nat → Bytes → Bool
  | _, [] => true
  | 0, _ => false
  | fuel + 1, bs =>
    let n := beAt bs 0 4
    decide (8 ≤ n ∧ n ≤ bs.length) && slice bs 4 4 == fourCC "pssh" && psshTiles fuel (bs.drop n)

/-- The first failing check of an encryption profile; 0 when all pass. PSSH_LEN above 4,096 is check 3's (log 48). -/
def encCheck (r : Bytes) : Nat :=
  if !(decide (64 ≤ r.length) && decide (encScheme r ≤ 1) && leAt r 2 2 / 2 == 0 && allZero (slice r 38 26) &&
    r.length == 64 + encPsshLen r) then 1
  else if encScheme r == 0 && !(leAt r 1 1 == 0 && allZero (encConstIv r)) then 2
  else if 4096 < encPsshLen r ∨ !psshTiles (encPsshLen r) (encPssh r) then 3
  else 0

end Sys2Proof.Machine
end

