-- ==== Sys2Proof/Machine/Profiles.lean ====
section
/-! DEFINITION. The profile store: loads, versions, epochs and unloads (R89, R104 to R106). -/

namespace Sys2Proof.Machine

/-- Versions of one profile number of a function, in commit order. -/
def State.versions (s : State) (f kind num : Nat) : List Profile :=
  s.objs.profiles.filter (fun p => p.func == f && p.kind == kind && p.num == num)

/-- The stamp selects the version (R105): at or after its commit, and before its successor's or its unload. -/
def Profile.selects (p : Profile) (stamp : BitVec 16) : Bool :=
  !epochBefore stamp p.since && (match p.upTo with | some e => epochBefore stamp e | none => true)

/-- The version of a profile number that a stamp selects (R104, R105). -/
def State.profileFor (s : State) (f kind num : Nat) (stamp : BitVec 16) : Option Profile :=
  (s.versions f kind num).find? (·.selects stamp)

/-- The version after `v`: 0xFFFF is followed by 0x0001 (R104). -/
def nextVersion (v : BitVec 16) : BitVec 16 := if v = 0xFFFF then 1 else v + 1

/-- The version a load gives (R104): from the current version, or the most recently current one still retiring, or 1. -/
def loadVersion (vs : List Profile) : BitVec 16 :=
  match vs.find? (·.current) with
  | some p => nextVersion p.ver
  | none => match vs.getLast? with
    | some p => nextVersion p.ver
    | none => 1

/-- The current version of a number starts retiring at an epoch (R104). -/
def State.retireProfile (s : State) (f kind num : Nat) (e : BitVec 16) : State :=
  { s with objs := { s.objs with profiles := s.objs.profiles.map (fun p =>
      if p.func = f ∧ p.kind = kind ∧ p.num = num ∧ p.current then { p with current := false, upTo := some e } else p) } }

/-- A version becomes current (R104 to R106). -/
def State.commitProfile (s : State) (f kind num : Nat) (record : Bytes) : State × BitVec 16 :=
  let v := loadVersion (s.versions f kind num)
  let s1 := s.raiseEpoch f
  let e := (s1.fn f).epoch
  let s2 := s1.retireProfile f kind num e
  let p : Profile := { func := f, kind := kind, num := num, ver := v, record := record, since := e }
  ({ s2 with objs := { s2.objs with profiles := s2.objs.profiles ++ [p] } }.raise evProfileCommitted f
    [(1, f), (1, kind), (1, num), (2, v.toNat)], v)

/-- A complete record of one kind is checked and committed (R89, R104). -/
def State.loadProfile (s : State) (f kind num : Nat) (record : Bytes) : State × MbResp :=
  let check := if kind = 0 then pkgCheck record else encCheck record
  let check := if check ≠ 0 then check
    else if 3 ≤ (s.versions f kind num).countP (fun p => !p.current) then 0x80 else 0
  if check ≠ 0 then (s.raise evProfileRejected f [(1, f), (1, num), (1, check)], mbErr 0x0008 check)
  else
    let r := s.commitProfile f kind num record
    (r.1, mbOk (leBytes 2 r.2.toNat))

/-- MB_PROFILE_LOAD of one kind, piece by piece (R89, R206). -/
def State.mbProfileLoad (s : State) (f kind : Nat) : State :=
  s.mbRun f 0x0501 (fun p => bit (leAt p 0 8) 8 == (kind == 1)) (fun s p =>
    if 512 ≤ leAt p 0 8 then (s, some (mbErr 0x0004))
    else
      let r := s.loadPiece f 0x0501 p
      match r.2 with
      | .error e => (r.1, some e)
      | .ok none => (r.1, some (mbOk []))
      | .ok (some image) =>
        let l := r.1.loadProfile f kind (leAt p 0 1) image
        (l.1, some l.2))

/-- MB_PROFILE_LOAD_PACKAGING (R89, R104). -/
def execMbProfileLoadPackaging (f : Nat) (s : State) : Host.Outcome State Fault Refusal := .next (s.mbProfileLoad f 0)

/-- MB_PROFILE_LOAD_ENCRYPTION (R89, R104). -/
def execMbProfileLoadEncryption (f : Nat) (s : State) : Host.Outcome State Fault Refusal := .next (s.mbProfileLoad f 1)

/-- MB_PROFILE_UNLOAD (R104, R106). -/
def execMbProfileUnload (f : Nat) (s : State) : Host.Outcome State Fault Refusal :=
  .next (s.mbRun f 0x0502 anyPayload (fun s p =>
    let num := byteAt p 0
    let kind := byteAt p 1
    if 1 < kind then (s, some (mbErr 0x0004))
    else if (s.versions f kind num).all (fun v => !v.current) then (s, some (mbErr 0x000B))
    else
      let s1 := s.raiseEpoch f
      (s1.retireProfile f kind num (s1.fn f).epoch, some (mbOk []))))

/-- MB_PROFILE_STATUS (R104): the current version, 0 for none, and the versions retiring. -/
def execMbProfileStatus (f : Nat) (s : State) : Host.Outcome State Fault Refusal :=
  .next (s.mbRun f 0x0503 anyPayload (fun s p =>
    let vs := s.versions f (byteAt p 1) (byteAt p 0)
    (s, some (if 1 < byteAt p 1 then mbErr 0x0004
      else if vs.isEmpty then mbErr 0x000B
      else mbOk (leBytes 2 (match vs.find? (·.current) with | some v => v.ver.toNat | none => 0) ++
        [byteOf (vs.countP (fun v => !v.current))])))))

/-- A view in flight uses a profile number of a function, by its fields (R78). -/
def viewNames (c : Cmd) (f kind num : Nat) : Bool :=
  let w := c.sqe.cdw14.toNat
  c.func == f && !c.sqe.admin && (c.sqe.opcode == 0x82 || c.sqe.opcode == 0x86) && c.result.isNone && field w 29 28 != 2 &&
    (if kind = 0 then field w 7 0 == num else field w 15 8 == num && !bit w 30)

/-- PROFILE_VERSION_FREE (R104): a retiring version goes when the last view that uses it completes. -/
def execProfileVersionFree (f kind num : Nat) (ver : BitVec 16) (s : State) : Host.Outcome State Fault Refusal :=
  .next (
    let used := fun (p : Profile) => s.inflight.any (fun e => viewNames e.2 f kind num && p.selects e.2.epoch)
    { s with objs := { s.objs with profiles := s.objs.profiles.filter (fun p =>
        !(p.func == f && p.kind == kind && p.num == num && p.ver == ver && !p.current && !used p)) } })

end Sys2Proof.Machine
end

