-- ==== Sys2Proof/Machine/ViewLayout.lean ====
section
/-! DEFINITION. What a view's bytes are: CMAF boxes woven from templates, content encryption of samples, and transport stream
packets, with their lengths (R71, R79 to R81, R87 to R103). -/

namespace Sys2Proof.Machine

/-- What a view is built from: the sealed sample index, the packaging record, the encryption record (none for a clear view)
and the content key. -/
structure ViewCtx where
  index : Bytes
  pkg : Bytes := []
  enc : Option Bytes := none
  key : Bytes := []
  /-- R48 check 8: NAL units of each sample. -/
  nals : List Nat := []
  deriving DecidableEq, Repr

/-- One sample of a view: its record, its map, its number in the essence, its decode time and its NAL units. -/
structure ViewSamp where
  samp : Samp
  map : List SubRange
  num : Nat
  decode : Nat
  nals : Nat
  deriving DecidableEq, Repr

/-- What supplies a fragment's sample bytes: the bytes, and IV_BASE (R97, R108). -/
structure Source where
  bytes : Bytes
  ivBase : Nat
  deriving DecidableEq, Repr

/-- Samples numbered from `n` with decode times from `t`. -/
def viewSampsFrom (nals : List Nat) : Nat → Nat → List (Samp × List SubRange) → List ViewSamp
  | _, _, [] => []
  | n, t, (x, m) :: l => { samp := x, map := m, num := n, decode := t, nals := nth 0 nals n } ::
      viewSampsFrom nals (n + 1) (t + x.duration) l

/-- The samples of a fragment (R47). -/
def ViewCtx.samps (v : ViewCtx) (f : Frag) : List ViewSamp :=
  let ss := fragSamps f (idxSamps v.index)
  viewSampsFrom v.nals f.first (idxBaseTime v.index + f.decode) (ss.zip (subMaps ss ((idxSubs v.index).drop f.subFirst)))

/-- Whole-sample protection of a sample without a map, under the encryption profile (R96). -/
def ViewCtx.protects (v : ViewCtx) : Bool := match v.enc with | some e => !encWholeClear e | none => false

/-- 'cenc' rather than 'cbcs'. -/
def ViewCtx.isCenc (v : ViewCtx) : Bool := match v.enc with | some e => encScheme e == 0 | none => false

/-! ### Content encryption (R96, R97) -/

/-- The protected ranges of a sample as (offset, bytes). -/
def ViewCtx.ranges (v : ViewCtx) (x : ViewSamp) : List (Nat × Nat) :=
  if x.samp.subCount = 0 then (if v.protects then [(0, x.samp.size)] else []) else protRanges 0 x.map

/-- The IV of a sample. -/
def sampleIv (ivBase num : Nat) : Bytes := beBytes 8 ((ivBase + num) % 2 ^ 64)

/-- Replacement of ranges of `data`, in order, by consecutive bytes of `new`. -/
def putRanges : List (Nat × Nat) → Bytes → Bytes → Bytes
  | [], _, data => data
  | (o, n) :: rs, new, data => putRanges rs (new.drop n) (splice data o (new.take n))

/-- A sample's bytes as the view carries them. -/
def ViewCtx.encrypt (v : ViewCtx) (ivBase : Nat) (x : ViewSamp) (data : Bytes) : Bytes :=
  match v.enc with
  | none => data
  | some e =>
    let rs := v.ranges x
    if encScheme e = 0 then
      putRanges rs (aesCtr v.key (sampleIv ivBase x.num ++ List.replicate 8 0) (rs.map (fun r => slice data r.1 r.2)).flatten) data
    else putRanges rs (rs.map (fun r => aesCbcs false v.key (encConstIv e) (encCrypt e) (encSkip e) (slice data r.1 r.2))).flatten data

/-- The samples of a fragment with their stored bytes and the bytes placed. -/
def ViewCtx.placed (v : ViewCtx) (f : Frag) (src : Source) : List (ViewSamp × Bytes × Bytes) :=
  let xs := v.samps f
  (xs.zip (sampleBytes (xs.map (·.samp)) src.bytes)).map (fun e => (e.1, e.2, v.encrypt src.ivBase e.1 e.2))

/-! ### Boxes -/

/-- A box of a type and its body. -/
def box (ty : String) (body : Bytes) : Bytes := beBytes 4 (8 + body.length) ++ fourCC ty ++ body

/-- A box with version and flags. -/
def fullBox (ty : String) (version flags : Nat) (body : Bytes) : Bytes := box ty (beBytes 1 version ++ beBytes 3 flags ++ body)

/-- The 'trun' box (R92). -/
def ViewCtx.trun (v : ViewCtx) (f : Frag) (dataOffset : Nat) : Bytes :=
  let fl := pkgTrunFlags v.pkg
  let xs := (v.samps f).map (·.samp)
  let flags := fun (x : Samp) => beBytes 4 (field x.deps 1 0 * 2 ^ 26 + field x.deps 3 2 * 2 ^ 24 + field x.deps 5 4 * 2 ^ 22 +
    field x.deps 7 6 * 2 ^ 20 + (if x.nonSync then 2 ^ 16 else 0))
  let opt := fun (b : Nat) (d : Bytes) => if bit fl b then d else []
  fullBox "trun" (pkgTrunVersion v.pkg) fl (beBytes 4 xs.length ++ opt 0 (beBytes 4 dataOffset) ++
    opt 2 (match xs.head? with | some x => flags x | none => []) ++
    (xs.map (fun x => opt 8 (beBytes 4 x.duration) ++ opt 9 (beBytes 4 x.size) ++ opt 10 (flags x) ++
      opt 11 (beBytes 4 x.cts.toNat))).flatten)

/-- Clear pairs that cover a sample (R98). -/
def clearPairs (size : Nat) : List (Nat × Nat) :=
  (List.range (ceilDiv size 65535)).map (fun i => (Nat.min 65535 (size - 65535 * i), 0))

/-- The pairs of a sample's 'senc' entry. -/
def ViewCtx.pairs (v : ViewCtx) (x : ViewSamp) : List (Nat × Nat) :=
  if x.samp.subCount ≠ 0 then x.map.map (fun r => (r.clear, r.prot))
  else if v.protects then [(0, x.samp.size)] else clearPairs x.samp.size

/-- Some sample of the fragment has a map. -/
def anyMap (xs : List ViewSamp) : Bool := xs.any (fun x => x.samp.subCount != 0)

/-- One 'senc' entry. -/
def ViewCtx.sencEntry (v : ViewCtx) (ivBase : Nat) (maps : Bool) (x : ViewSamp) : Bytes :=
  (if v.isCenc then sampleIv ivBase x.num else []) ++
    (if maps then beBytes 2 (v.pairs x).length ++ ((v.pairs x).map (fun p => beBytes 2 p.1 ++ beBytes 4 p.2)).flatten else [])

/-- The 'senc' entries of a fragment. -/
def ViewCtx.sencEntries (v : ViewCtx) (ivBase : Nat) (xs : List ViewSamp) : List Bytes :=
  xs.map (v.sencEntry ivBase (anyMap xs))

/-- INSERT_CENC (R98): `at` is where the insertion starts, counted from the 'moof' box. -/
def ViewCtx.cencBoxes (v : ViewCtx) (f : Frag) (ivBase pos : Nat) : Bytes :=
  let xs := v.samps f
  if v.enc.isNone ∨ (!v.isCenc ∧ !anyMap xs) then []
  else
    let es := v.sencEntries ivBase xs
    let size := match es.head? with | some e => e.length | none => 0
    let same := es.all (fun e => e.length == size)
    let saiz := fullBox "saiz" 0 0 (beBytes 1 (if same then size else 0) ++ beBytes 4 es.length ++
      (if same then [] else es.map (fun e => byteOf e.length)))
    saiz ++ fullBox "saio" 0 0 (beBytes 4 1 ++ beBytes 4 (pos + saiz.length + 20 + 16)) ++
      fullBox "senc" 0 (if anyMap xs then 2 else 0) (beBytes 4 es.length ++ es.flatten)

/-- The 'tenc' box (R93). -/
def tenc (e : Bytes) : Bytes :=
  if encScheme e = 0 then fullBox "tenc" 0 0 ([0, 0, 1, 8] ++ encKid e)
  else fullBox "tenc" 1 0 ([0, byteOf (encCrypt e * 16 + encSkip e), 1, 0] ++ encKid e ++ [16] ++ encConstIv e)

/-- INSERT_SAMPLE_ENTRY (R93). -/
def ViewCtx.sampleEntry (v : ViewCtx) : Bytes :=
  let entry := idxEntry v.index
  match v.enc with
  | none => entry
  | some e =>
    let sinf := box "sinf" (box "frma" (idxCodec v.index) ++
      fullBox "schm" 0 0 ((if encScheme e = 0 then fourCC "cenc" else fourCC "cbcs") ++ beBytes 4 0x10000) ++ box "schi" (tenc e))
    beBytes 4 (beAt entry 0 4 + sinf.length) ++ fourCC (if idxHandler v.index = 0 then "encv" else "enca") ++
      entry.drop 8 ++ sinf

/-! ### Templates (R86 to R88) -/

/-- The variables: `k` is the fragment number and `f` the fragment record. -/
def ViewCtx.variable (v : ViewCtx) (k : Nat) (f : Frag) (arg : Nat) : Nat :=
  match arg with
  | 0 => k + pkgSeqBase v.pkg
  | 1 => idxBaseTime v.index + f.decode
  | 2 => pkgTrackId v.pkg
  | 3 => idxTimescale v.index
  | 4 => pkgCreation v.pkg
  | 5 => idxWidth v.index * 65536
  | 6 => idxHeight v.index * 65536
  | _ => (byteAt (idxLanguage v.index) 0 - 0x60) * 1024 + (byteAt (idxLanguage v.index) 1 - 0x60) * 32 +
      (byteAt (idxLanguage v.index) 2 - 0x60)

/-- A literal with insertions before given offsets, from offset `cur`. -/
def weave : Nat → Bytes → List (Nat × Bytes) → Bytes
  | _, lit, [] => lit
  | cur, lit, (p, b) :: r => lit.take (p - cur) ++ b ++ weave p (lit.drop (p - cur)) r

/-- Bytes inserted at an offset above `lo` and not above `hi`. -/
def insertedIn (lo hi : Nat) (ins : List (Nat × Bytes)) : Nat :=
  sumBy (fun e => e.2.length) (ins.filter (fun e => decide (lo < e.1 ∧ e.1 ≤ hi)))

/-- The literal with its PUT and BOX_SIZE directives applied in order. -/
def ViewCtx.patch (v : ViewCtx) (k : Nat) (f : Frag) (ins : List (Nat × Bytes)) : List Directive → Bytes → Bytes
  | [], lit => lit
  | d :: ds, lit => v.patch k f ins ds (
      if d.op = 4 then splice lit d.pos (beBytes 4 (d.param - d.pos + insertedIn d.pos d.param ins))
      else if d.op ≤ 3 then splice lit d.pos (beBytes (putWidth d.op) (v.variable k f d.arg))
      else lit)

/-- The insertions of a template, with the place of each CENC insertion taken from `posOf`. -/
def ViewCtx.inserts (v : ViewCtx) (f : Frag) (ivBase dataOffset : Nat) (posOf : Nat → Nat) : Nat → List Directive →
    List (Nat × Bytes)
  | _, [] => []
  | i, d :: ds =>
    let rest := v.inserts f ivBase dataOffset posOf (i + 1) ds
    match d.op with
    | 0x10 => (d.pos, v.trun f dataOffset) :: rest
    | 0x11 => (d.pos, v.cencBoxes f ivBase (posOf i)) :: rest
    | 0x12 => (d.pos, match v.enc with | some e => encPssh e | none => []) :: rest
    | 0x13 => (d.pos, v.sampleEntry) :: rest
    | _ => (d.pos, []) :: rest

/-- A template's result (R86, R87, R92, R98): the first pass gives each insertion's length, the second its bytes. -/
def ViewCtx.template (v : ViewCtx) (t : Template) (k : Nat) (f : Frag) (ivBase : Nat) : Bytes :=
  let lens := v.inserts f ivBase 0 (fun _ => 0) 0 t.dirs
  let total := t.literal.length + sumBy (fun e => e.2.length) lens
  let ahead := sumBy (fun e => e.2.length) (lens.filter (fun e => e.1 == 0))
  let place := fun i => (match lens[i]? with | some e => e.1 | none => 0) + sumBy (fun e => e.2.length) (lens.take i)
  let ins := v.inserts f ivBase (total - ahead + 8) (fun i => place i - ahead) 0 t.dirs
  weave 0 (v.patch k f ins t.dirs t.literal) ins

/-! ### CMAF output (R90, R91) -/

/-- The fragments of a view with their numbers. -/
def ViewCtx.frags (v : ViewCtx) (first count : Nat) : List (Nat × Frag) :=
  (((idxFrags v.index).drop first).take count).zipIdx.map (fun e => (first + e.2, e.1))

/-- The MOOF template's result for a fragment. -/
def ViewCtx.moof (v : ViewCtx) (e : Nat × Frag) (ivBase : Nat) : Bytes := v.template (pkgMoof v.pkg) e.1 e.2 ivBase

/-- Bytes of a fragment's MOOF result and 'mdat'. -/
def ViewCtx.fragLen (v : ViewCtx) (e : Nat × Frag) : Nat := (v.moof e 0).length + 8 + e.2.bytes

/-- The least presentation time of a fragment (R91). -/
def ViewCtx.earliest (v : ViewCtx) (f : Frag) : Int :=
  match (v.samps f).map (fun x => (x.decode : Int) + x.samp.cts.toInt) with
  | [] => 0
  | t :: ts => ts.foldl min t

/-- The 'sidx' box (R91). -/
def ViewCtx.sidx (v : ViewCtx) (fs : List (Nat × Frag)) : Bytes :=
  let first := match fs.head? with | some e => v.earliest e.2 | none => 0
  fullBox "sidx" 1 0 (beBytes 4 (pkgTrackId v.pkg) ++ beBytes 4 (idxTimescale v.index) ++ beBytes 8 (first % 2 ^ 64).toNat ++
    beBytes 8 0 ++ beBytes 2 0 ++ beBytes 2 fs.length ++
    (fs.map (fun e =>
      let xs := (v.samps e.2).map (·.samp)
      let sync := match xs.head? with | some x => !x.nonSync | none => false
      beBytes 4 (v.fragLen e) ++ beBytes 4 (sumBy (·.duration) xs) ++
        beBytes 4 (if sync then 2 ^ 31 + 2 ^ 28 else 0))).flatten)

/-- What leads the fragments of a CMAF view. -/
def ViewCtx.cmafHead (v : ViewCtx) (fs : List (Nat × Frag)) : Bytes :=
  (if pkgEmitStyp v.pkg then pkgStyp v.pkg else []) ++ (if pkgEmitSidx v.pkg then v.sidx fs else [])

/-- One fragment of a CMAF view (R90). -/
def ViewCtx.cmafFrag (v : ViewCtx) (e : Nat × Frag) (src : Source) : Bytes :=
  v.moof e src.ivBase ++ beBytes 4 (8 + e.2.bytes) ++ fourCC "mdat" ++ ((v.placed e.2 src).map (fun p => p.2.2)).flatten

/-! ### Transport stream output (R71, R99 to R103) -/

/-- A packet's first four bytes. -/
def tsHeader (pusi : Bool) (pid afc cc : Nat) : Bytes :=
  [0x47, byteOf ((if pusi then 0x40 else 0) + pid / 256), byteOf pid, byteOf (afc * 16 + cc % 16)]

/-- A packet that carries one section. -/
def tsSection (pid : Nat) (body : Bytes) : Bytes :=
  let s := body ++ beBytes 4 (crcMsb (0x04C11DB7 : BitVec 32) 0xFFFFFFFF body).toNat
  let p := tsHeader true pid 1 0 ++ [0] ++ s
  p ++ List.replicate (188 - p.length) 0xFF

/-- The PAT packet (R100). -/
def ViewCtx.pat (v : ViewCtx) : Bytes :=
  tsSection 0 ([0x00, 0xB0, 13] ++ beBytes 2 (pkgTsid v.pkg) ++ [0xC1, 0, 0] ++ beBytes 2 1 ++ beBytes 2 (0xE000 + pkgPmtPid v.pkg))

/-- The PMT packet (R100). -/
def ViewCtx.pmt (v : ViewCtx) : Bytes :=
  tsSection (pkgPmtPid v.pkg) ([0x02] ++ beBytes 2 (0xB000 + 18 + pkgEsInfoLen v.pkg) ++ beBytes 2 1 ++ [0xC1, 0, 0] ++
    beBytes 2 (0xE000 + pkgEsPid v.pkg) ++ beBytes 2 0xF000 ++ [byteOf (pkgStreamType v.pkg)] ++
    beBytes 2 (0xE000 + pkgEsPid v.pkg) ++ beBytes 2 (0xF000 + pkgEsInfoLen v.pkg) ++ pkgEsInfo v.pkg)

/-- The child boxes of a run of boxes as (type, body), as far as they parse. -/
def childBoxes : Nat → Bytes → List (Bytes × Bytes)
  | 0, _ => []
  | n + 1, bs =>
    let size := beAt bs 0 4
    if bs.length < 8 ∨ size < 8 ∨ bs.length < size then []
    else (slice bs 4 4, slice bs 8 (size - 8)) :: childBoxes n (bs.drop size)

/-- `n` NAL units, each after a 2-byte length, and what follows them. -/
def nalArray : Nat → Bytes → Option (List Bytes × Bytes)
  | 0, bs => some ([], bs)
  | n + 1, bs =>
    let l := beAt bs 0 2
    if bs.length < 2 + l then none
    else (nalArray n (bs.drop (2 + l))).map (fun r => (slice bs 2 l :: r.1, r.2))

/-- The parameter sets of an 'avcC' body: SPS, PPS and, where the record goes on and profile_idc is one of those that carry them, SPS
extensions (ISO/IEC 14496-15, log 105). -/
def avcSets (b : Bytes) : Option (List Bytes) :=
  if b.length < 7 then none
  else match nalArray (byteAt b 5 % 32) (b.drop 6) with
    | none | some (_, []) => none
    | some (sps, r) => match nalArray (byteAt r 0) (r.drop 1) with
      | none => none
      | some (pps, r) =>
        if r.isEmpty ∨ !([100, 110, 122, 144].contains (byteAt b 1)) then some (sps ++ pps)
        else if r.length < 4 then none
        else (nalArray (byteAt r 3) (r.drop 4)).map (fun e => sps ++ pps ++ e.1)

/-- The arrays of an 'hvcC' body: the NAL units of types 32 to 34. -/
def hvcArrays : Nat → Bytes → Option (List Bytes)
  | 0, _ => some []
  | n + 1, b =>
    if b.length < 3 then none
    else match nalArray (beAt b 1 2) (b.drop 3) with
      | none => none
      | some (ns, r) => (hvcArrays n r).map (fun l =>
          (if 32 ≤ byteAt b 0 % 64 ∧ byteAt b 0 % 64 ≤ 34 then ns else []) ++ l)

/-- The parameter sets of the sample entry's configuration record; nothing when there is none or it does not parse (R101). The
child boxes of a visual sample entry follow its first 86 bytes. -/
def ViewCtx.paramSets (v : ViewCtx) : List Bytes :=
  let kids := childBoxes (idxEntry v.index).length ((idxEntry v.index).drop 86)
  match kids.find? (fun k => k.1 == fourCC "avcC" || k.1 == fourCC "hvcC") with
  | none => []
  | some k =>
    (if k.1 = fourCC "avcC" then avcSets k.2
      else if k.2.length < 23 then none else hvcArrays (byteAt k.2 22) (k.2.drop 23)).getD []

/-- The start code. -/
def startCode : Bytes := [0, 0, 0, 1]

/-- An ADTS header is added (R101). -/
def ViewCtx.addsAdts (v : ViewCtx) : Bool :=
  idxNalLen v.index == 0 && idxHandler v.index == 1 && !allZero (pkgAdts v.pkg)

/-- What leads a sample in its access unit (R101). -/
def ViewCtx.auHead (v : ViewCtx) (x : ViewSamp) : Bytes :=
  if idxNalLen v.index ≠ 0 then
    (if pkgAudInsert v.pkg then
      startCode ++ (if nalHeader (idxCodec v.index) = 1 then [0x09, 0xF0] else [0x46, 0x01, 0x50]) else []) ++
    (if pkgParamsAtSync v.pkg ∧ !x.samp.nonSync then (v.paramSets.map (fun p => startCode ++ p)).flatten else [])
  else if v.addsAdts then
    let h := beNat (pkgAdts v.pkg)
    beBytes 7 (h - field h 25 13 * 2 ^ 13 + (x.samp.size + 7) % 2 ^ 13 * 2 ^ 13)
  else []

/-- The bytes of an access unit (R101): boundaries from the stored bytes, content from the placed ones. -/
def ViewCtx.accessUnit (v : ViewCtx) (x : ViewSamp) (stored placed : Bytes) : Bytes :=
  v.auHead x ++
    (if idxNalLen v.index = 0 then placed
     else (((nalsOf (idxNalLen v.index) stored).getD []).map (fun n =>
       startCode ++ slice placed (n.1 + idxNalLen v.index) n.2)).flatten)

/-- Its length, from the index and the counts of the seal (R81). -/
def ViewCtx.auLen (v : ViewCtx) (x : ViewSamp) : Nat :=
  (v.auHead x).length + x.samp.size + (if idxNalLen v.index = 0 then 0 else x.nals * (4 - idxNalLen v.index))

/-- A time in 90 kHz ticks, modulo 2^33 (R71). -/
def ViewCtx.ticks (v : ViewCtx) (t : Int) : Nat := ((t * 90000 / (idxTimescale v.index : Int)) % 2 ^ 33).toNat

/-- A PTS or DTS field with its prefix (R102). -/
def ptsBytes (pre v : Nat) : Bytes :=
  beBytes 5 (pre * 2 ^ 36 + field v 32 30 * 2 ^ 33 + 2 ^ 32 + field v 29 15 * 2 ^ 17 + 2 ^ 16 + field v 14 0 * 2 + 1)

/-- The header of a PES packet whose access unit has `len` bytes (R102). -/
def ViewCtx.pesHead (v : ViewCtx) (x : ViewSamp) (len : Nat) : Bytes :=
  let dts := v.ticks x.decode
  let pts := v.ticks ((x.decode : Int) + x.samp.cts.toInt)
  let body := if x.samp.cts ≠ 0 then [0x84, 0xC0, 0x0A] ++ ptsBytes 3 pts ++ ptsBytes 1 dts else [0x84, 0x80, 0x05] ++ ptsBytes 2 pts
  let count := body.length + len
  [0, 0, 1, byteOf (pkgStreamId v.pkg)] ++ beBytes 2 (if 0xE0 ≤ pkgStreamId v.pkg ∨ 65535 < count then 0 else count) ++ body

/-- Bytes of a sample's PES packet. -/
def ViewCtx.pesLen (v : ViewCtx) (x : ViewSamp) : Nat := (if x.samp.cts ≠ 0 then 19 else 14) + v.auLen x

/-- Packets that a PES packet takes (R103). -/
def tsCount (n : Nat) : Nat := 1 + ceilDiv (n - 176) 184

/-- The PCR field (R71, R103). -/
def ViewCtx.pcr (v : ViewCtx) (x : ViewSamp) : Bytes :=
  let base := (((v.ticks x.decode : Int) - pkgPcrLead v.pkg) % 2 ^ 33).toNat
  beBytes 6 (base * 2 ^ 15 + 0x3F * 2 ^ 9)

/-- A PES packet split across packets, the first with continuity counter `cc` (R103). -/
def ViewCtx.tsPackets (v : ViewCtx) (x : ViewSamp) (cc : Nat) (pes : Bytes) : Bytes :=
  let es := pkgEsPid v.pkg
  let head := pes.take 176
  let stuff := 176 - head.length
  tsHeader true es 3 cc ++ [byteOf (7 + stuff), if x.samp.nonSync then 0x10 else 0x50] ++ v.pcr x ++
    List.replicate stuff 0xFF ++ head ++
    (((chunksOf 184 (pes.drop 176)).zipIdx).map (fun c =>
      let n := 184 - c.1.length
      if n = 0 then tsHeader false es 1 (cc + 1 + c.2) ++ c.1
      else tsHeader false es 3 (cc + 1 + c.2) ++
        (if n = 1 then [0] else [byteOf (n - 1), 0] ++ List.replicate (n - 2) 0xFF) ++ c.1)).flatten

/-- The packets of samples from continuity counter `cc`. -/
def ViewCtx.tsSamples (v : ViewCtx) : Nat → List (ViewSamp × Bytes × Bytes) → Bytes
  | _, [] => []
  | cc, p :: ps =>
    let au := v.accessUnit p.1 p.2.1 p.2.2
    let pes := v.pesHead p.1 au.length ++ au
    v.tsPackets p.1 cc pes ++ v.tsSamples (cc + tsCount pes.length) ps

/-- Bytes of a fragment's packets. -/
def ViewCtx.tsFragLen (v : ViewCtx) (f : Frag) : Nat := sumBy (fun x => 188 * tsCount (v.pesLen x)) (v.samps f)

/-! ### Whole views -/

/-- TS rather than CMAF. -/
def ViewCtx.isTs (v : ViewCtx) : Bool := pkgKind v.pkg == 1

/-- What precedes the first entry of a FORM 0 view. -/
def ViewCtx.head (v : ViewCtx) (fs : List (Nat × Frag)) : Bytes :=
  if v.isTs then v.pat ++ v.pmt else v.cmafHead fs

/-- The length of each fragment's part of a FORM 0 view (R83). -/
def ViewCtx.partLens (v : ViewCtx) (fs : List (Nat × Frag)) : List Nat :=
  fs.map (fun e => if v.isTs then v.tsFragLen e.2 else v.fragLen e)

/-- The initialisation segment (R79). -/
def ViewCtx.initSegment (v : ViewCtx) : Bytes := v.template (pkgInit v.pkg) 0 (fragOf []) 0

/-- The fragments' bytes of a FORM 0 view, from continuity counter `cc` (R90, R99). -/
def ViewCtx.body (v : ViewCtx) : Nat → List (Nat × Frag) → List Source → Bytes
  | cc, e :: es, src :: srcs =>
    if v.isTs then v.tsSamples cc (v.placed e.2 src) ++ v.body (cc + v.tsFragLen e.2 / 188) es srcs
    else v.cmafFrag e src ++ v.body cc es srcs
  | _, _, _ => []

/-! ### Limits found by the layout -/

/-- A sample's 'senc' entry exceeds 255 bytes (R98). -/
def ViewCtx.entryTooLong (v : ViewCtx) (fs : List (Nat × Frag)) : Bool :=
  v.enc.isSome && !v.isTs && (pkgMoof v.pkg).dirs.any (fun d => d.op == 0x11) && fs.any (fun e =>
    let xs := v.samps e.2
    (v.isCenc || anyMap xs) && (v.sencEntries 0 xs).any (fun b => decide (255 < b.length)))

/-- A sample is too long for its ADTS header (R101). -/
def ViewCtx.adtsTooLong (v : ViewCtx) (fs : List (Nat × Frag)) : Bool :=
  v.isTs && v.addsAdts && fs.any (fun e => (v.samps e.2).any (fun x => decide (8184 < x.samp.size)))

end Sys2Proof.Machine
end

