-- ==== Sys2Proof/Machine/Views.lean ====
section
/-! DEFINITION. The segment assembly engine: VIEW READ, VIEW SIZE and variant hooks (R76 to R120). -/

namespace Sys2Proof.Machine

/-! ### The dwords of a view (R78, R83) -/

/-- FORM. -/
def viewForm (e : Sqe) : Nat := field e.cdw14.toNat 29 28
/-- COUNT_M1 plus 1. -/
def viewCount (e : Sqe) : Nat := field e.cdw13.toNat 7 0 + 1
/-- CLEAR. -/
def viewClear (e : Sqe) : Bool := bit e.cdw14.toNat 30
/-- WINDOW. -/
def viewWindow (e : Sqe) : Bool := bit e.cdw14.toNat 31
/-- WINDOW_START or RANGE_LEN. -/
def viewStart (e : Sqe) : Nat := field e.cdw15.toNat 26 0
/-- The byte offset of FORM 2. -/
def viewOffset (e : Sqe) : Nat := e.cdw12.toNat + field e.cdw13.toNat 15 8 * 2 ^ 32
/-- The retraction fill. -/
def viewFill (e : Sqe) : Byte := if bit e.cdw13.toNat 16 then 0xDB else 0x00
/-- VIEW SIZE. -/
def viewIsSize (e : Sqe) : Bool := e.opcode == 0x86
/-- PKG_PROFILE. -/
def viewPkg (e : Sqe) : Nat := field e.cdw14.toNat 7 0
/-- ENC_PROFILE. -/
def viewEnc (e : Sqe) : Nat := field e.cdw14.toNat 15 8
/-- KEY_SLOT. -/
def viewSlot (e : Sqe) : Nat := field e.cdw14.toNat 27 16

/-- The fields are in range (R78, R83). -/
def viewFieldsOk (e : Sqe) : Bool :=
  let len := e.cdw2.toNat
  let form := viewForm e
  decide (1 ≤ len) && decide (len ≤ if viewIsSize e then 65536 else 67108864) &&
    field e.cdw13.toNat 31 17 == 0 && field e.cdw15.toNat 31 27 == 0 && decide (form ≤ 2) &&
    !(viewIsSize e && bit e.cdw13.toNat 16) && (form != 1 || e.cdw12 == 0) && (form == 0 || viewCount e == 1) &&
    (form == 2 || field e.cdw13.toNat 15 8 == 0) && (!viewClear e || (viewEnc e == 0 && viewSlot e == 0)) &&
    (if form = 2 then viewPkg e == 0 && viewClear e && !viewWindow e && decide (1 ≤ viewStart e ∧ viewStart e ≤ 67108864)
     else viewWindow e || viewStart e == 0)

/-! ### The checks and the layout (R81) -/

/-- A view that passes every check: its object, what it is built from, its versions, fragments, length, parts and hook. -/
structure ViewPlan where
  obj : Obj
  ctx : ViewCtx
  form : Nat
  pkgVer : Nat
  encVer : Nat
  frags : List (Nat × Frag)
  len : Nat
  parts : List (Nat × Nat)
  hook : Option Nat
  deriving DecidableEq, Repr

/-- A view that fails a check: its status and dwords 0 and 1. -/
abbrev ViewError := Status × Nat × Nat

/-- The key of a content slot (R95): owned, LOADED for the view's stamp and not LOCKED (R354, R356), 128 bits, permitted in the scheme's mode. -/
def State.contentKey (s : State) (f slot : Nat) (stamp : BitVec 16) (cenc : Bool) : Option Bytes :=
  if !s.ownsSlot f slot then none
  else match (s.slot slot).keyFor stamp with
    | none => none
    | some k => if k.bytes.length = 16 ∧ !k.locked ∧ bit k.attr.toNat (if cenc then 0 else 1) then some k.bytes else none

/-- The hook program of a view (R107): loaded by the tenant at acceptance, not UNLOADING for it, with USE_HOOK. -/
def State.hookProgram (s : State) (id : CmdId) (f handle : Nat) : Option Prog :=
  s.sca.progs.find? (fun p => p.func == f && p.handle == handle && p.useHook && decide (p.loadedAt ≤ id) &&
    (!p.unloading || p.keepFor.contains id))

/-- Starts and lengths of parts that follow each other. -/
def partsFrom : Nat → List Nat → List (Nat × Nat)
  | _, [] => []
  | p, n :: ns => (p, n) :: partsFrom (p + n) ns

/-- The profile checks of FORM 0 and 1 (R79, R95, R107, R114). The hook program is looked at for FORM 0, the form that calls hooks (log
104). -/
def State.viewProfiles (s : State) (id : CmdId) (c : Cmd) (o : Obj) : Except Status (ViewCtx × Nat × Nat × Option Nat) :=
  let e := c.sqe
  let clear := viewClear e || (!o.plain && idxHandler o.index == 2)
  match s.profileFor c.func 0 (viewPkg e) c.epoch, if clear then some none else (s.profileFor c.func 1 (viewEnc e) c.epoch).map some with
  | none, _ | _, none => .error .profileUnknown
  | some p, some q =>
    let ts := pkgKind p.record == 1
    let enc := q.map (·.record)
    let hooked := viewForm e == 0 && pkgHookMode p.record == 1
    if o.plain ∨ (viewForm e = 1 ∧ ts) ∨ (ts ∧ (enc.map encScheme == some 0)) then
      .error .profileMismatch
    else if hooked ∧ (s.hookProgram id c.func (pkgHookProgram p.record)).isNone then .error .profileMismatch
    else
      let ctx : ViewCtx := { index := o.index, pkg := p.record, enc := enc, nals := o.nalCounts }
      .ok (ctx, p.ver.toNat, (match q with | some v => v.ver.toNat | none => 0),
        if hooked then some (pkgHookProgram p.record) else none)

/-- The key of an encrypted view (R95). -/
def State.viewKey (s : State) (c : Cmd) (v : ViewCtx) : Except Status ViewCtx :=
  match v.enc with
  | none => .ok v
  | some r => match s.contentKey c.func (viewSlot c.sqe) c.epoch (encScheme r == 0) with
    | none => .error .keySlotInvalid
    | some k => .ok { v with key := k }

/-- The limits on a view's length (R81 to R83); VIEW_TOO_LARGE reports the encryption profile version `ev` that the layout used, and
ABOVE_LIMIT in place of the packaging version (log 49). -/
def viewLengthCheck (e : Sqe) (len ev : Nat) : Option ViewError :=
  let shown := Nat.min len 0xFFFFFFFF
  if 67108864 < len then some (.viewTooLarge, shown, 1 + ev * 2 ^ 16)
  else if viewWindow e ∧ len ≤ viewStart e then some (.sampleRange, len, 0)
  else if !viewWindow e ∧ !viewIsSize e ∧ e.cdw2.toNat < len then some (.viewTooLarge, shown, ev * 2 ^ 16)
  else none

/-- A FORM 2 view's plan (R79, R110). -/
def rangePlan (e : Sqe) (o : Obj) : Except ViewError ViewPlan :=
  let len := viewStart e
  if o.length < viewOffset e + len then .error (.sampleRange, 0, 0)
  else match viewLengthCheck e len 0 with
    | some r => .error r
    | none => .ok { obj := o, ctx := { index := [] }, form := 2, pkgVer := 0, encVer := 0, frags := [], len := len
                    parts := [(0, len)], hook := none }

/-- A FORM 0 or FORM 1 view's plan (R79, R81, R98, R101, R110). -/
def State.segmentPlan (s : State) (id : CmdId) (c : Cmd) (o : Obj) : Except ViewError ViewPlan :=
  let e := c.sqe
  match s.viewProfiles id c o with
  | .error st => .error (st, 0, 0)
  | .ok (v, pv, ev, hook) =>
    let init := viewForm e == 1
    let fs := if init then [] else v.frags e.cdw12.toNat (viewCount e)
    if !init ∧ idxFragCount o.index < e.cdw12.toNat + viewCount e then .error (.sampleRange, 0, 0)
    else if v.entryTooLong fs ∨ v.adtsTooLong fs then .error (.sampleRange, 0, 0)
    else match s.viewKey c v with
      | .error st => .error (st, 0, 0)
      | .ok v =>
        let parts := if init then [(0, v.initSegment.length)] else partsFrom (v.head fs).length (v.partLens fs)
        let len := match parts.getLast? with | some p => p.1 + p.2 | none => 0
        match viewLengthCheck e len ev with
        | some r => .error r
        | none => .ok { obj := o, ctx := v, form := viewForm e, pkgVer := pv, encVer := ev, frags := fs, len := len
                        parts := parts, hook := hook }

/-- Every check of a view and its layout (R80, R81, R114). Which status answers where several checks fail is the model's choice (log
73). -/
def State.viewPlan (s : State) (id : CmdId) (c : Cmd) : Except ViewError ViewPlan :=
  let e := c.sqe
  match s.objectTarget c with
  | .error st => .error (st, 0, 0)
  | .ok _ =>
    if !viewFieldsOk e then .error (.invalidField, 0, 0)
    else if sglShort e e.cdw2.toNat then .error (.dataSglLengthInvalid, 0, 0)
    else match s.objFor id (sqeNsid e) (sqeOid e) with
      | none => .error (.objectUnknown, 0, 0)
      | some o =>
        if !o.isSealed then .error (.objectNotSealed, 0, 0)
        else if viewForm e = 2 then rangePlan e o
        else s.segmentPlan id c o

/-- DW1 of a view that succeeds (R82). -/
def ViewPlan.dw1 (p : ViewPlan) : BitVec 32 := BitVec.ofNat 32 (p.pkgVer + p.encVer * 2 ^ 16)

/-! ### The bytes -/

/-- The object that supplies fragment `i`: the hook's choice, or the named object (R108). -/
def State.fragObj (s : State) (id : CmdId) (c : Cmd) (p : ViewPlan) (i : Nat) : Obj :=
  match c.hook.chosen[i]? with
  | some oid => (s.objFor id (sqeNsid c.sqe) oid).getD p.obj
  | none => p.obj

/-- The stored bytes that fragments `a` up to `b` of a view take, or that a byte range takes: object, first byte, end (R79, R108). -/
def State.viewRanges (s : State) (id : CmdId) (c : Cmd) (p : ViewPlan) (a b : Nat) : List (Obj × Nat × Nat) :=
  match p.form with
  | 2 => [(p.obj, viewOffset c.sqe, viewOffset c.sqe + viewStart c.sqe)]
  | 1 => []
  | _ => ((p.frags.zipIdx.take b).drop a).map (fun x => (s.fragObj id c p x.2, x.1.2.offset, x.1.2.offset + x.1.2.bytes))

/-- The samples of fragments, or the bytes of a range, are looked up for a view, through the extent maps of their objects (R109,
R244). -/
def State.fetchView (s : State) (id : CmdId) (c : Cmd) (rs : List (Obj × Nat × Nat)) : State :=
  rs.foldl (fun s r => s.fetchObject (.cmd id) r.1 c.gen.toNat (r.1.unitsAt r.2.1 r.2.2)) s

/-- What supplies some ranges of stored bytes: outer none while a unit is missing, inner none when one could not be read. -/
def State.viewSources (s : State) (id : CmdId) : List (Obj × Nat × Nat) → Option (Option (List Source))
  | [] => some (some [])
  | r :: rs =>
    match s.objBytes (.cmd id) r.1 r.2.1 r.2.2, s.viewSources id rs with
    | some (some d), some (some l) => some (some ({ bytes := d, ivBase := r.1.ivBase.toNat } :: l))
    | some _, some _ => some none
    | _, _ => none

/-- The bytes of a view as far as its first `n` fragments go, from what supplies them. -/
def viewBytes (p : ViewPlan) (n : Nat) (srcs : List Source) : Bytes :=
  match p.form with
  | 2 => (srcs.map (·.bytes)).flatten
  | 1 => p.ctx.initSegment
  | _ => p.ctx.head p.frags ++ p.ctx.body 0 (p.frags.take n) srcs

/-- The part of a view that goes to the destination (R81). -/
def viewWindowed (e : Sqe) (bs : Bytes) : Bytes :=
  if viewWindow e then (bs.drop (viewStart e)).take e.cdw2.toNat else bs

/-- The part of a view that goes to the destination, as far as its first `n` fragments go; empty while they are not all read. -/
def State.viewOut (s : State) (id : CmdId) (c : Cmd) (p : ViewPlan) (n : Nat) : Bytes :=
  match s.viewSources id (s.viewRanges id c p 0 n) with
  | some (some l) => viewWindowed c.sqe (viewBytes p n l)
  | _ => []

/-- The chunk extents that a range of an object's bytes lies in (R43, R246). -/
def objExtents (o : Obj) (off len : Nat) : List Nat :=
  (granulesOf (off, len)).filterMap (fun g => (o.chunks[g / 4]?).map (fun r => 4 * r.chunk + g % 4))

/-- The extents that some ranges lie in are counted as read (R258, log 49). -/
def State.countRanges (s : State) (rs : List (Obj × Nat × Nat)) : State :=
  (nubNat ((rs.map (fun r => objExtents r.1 r.2.1 (r.2.2 - r.2.1))).flatten)).foldl (fun s x => s.countRead x) s

/-- The next bytes of a view go to its destination (R81, R109): `out` is all that it has placed. -/
def State.writeView (s : State) (id : CmdId) (c : Cmd) (out : Bytes) : State :=
  (s.dataWrite id c.wrote 0 (out.drop c.wrote)).updCmd id (fun x => { x with wrote := Nat.max c.wrote out.length })

/-- A view fails late, after the first bytes of `out` (R112): what has been written is filled again, and the command ends. -/
def State.failView (s : State) (id : CmdId) (c : Cmd) (out : Bytes) (cause : Nat) (st : Status) : State :=
  (((s.writeView id c out).retractWritten id cause).finish id st).unstage (.cmd id)

/-- The fragments a view may place: all, or those that the hook has decided (R109). -/
def ViewPlan.ready (p : ViewPlan) (c : Cmd) : Nat := if p.hook.isSome then c.hook.chosen.length else p.frags.length

/-- A view places what it has read (R81, R82, R109, R112), and ends when that is all. A mismatch that a checker reports, and a domain
forced off, come when the first bytes of the view, as many as the fault says, have been written. -/
def State.placeView (s : State) (id : CmdId) (c : Cmd) (p : ViewPlan) (fault : ViewFault) (out : Bytes) : State :=
  let n := p.ready c
  match fault with
  | .domainOff m => s.failView id c (out.take m) 0x06 .domainOffRetracted
  | .tagMismatch comp m u =>
    if !componentOk comp then s
    else ((((s.writeView id c (out.take m)).retractWritten id 0x03).tagMismatch id comp c.func (sqeNsid c.sqe) u)).unstage (.cmd id)
  | _ =>
    let s1 := ((s.countRanges (s.viewRanges id c p c.hook.placed n)).writeView id c out).updCmd id (fun x => { x with hook := { x.hook with
      placed := n } })
    if n < p.frags.length then s1
    else (s1.finish id .success (BitVec.ofNat 32 out.length) p.dw1).unstage (.cmd id)

/-- The longest run of a view's first fragments that can be read. -/
def State.readableFrags (s : State) (id : CmdId) (c : Cmd) (p : ViewPlan) (n : Nat) : Nat :=
  if p.form = 2 then 0
  else (List.range n).countP (fun i => match s.viewSources id (s.viewRanges id c p 0 (i + 1)) with | some (some _) => true | _ => false)

/-- A view takes its next step (R81, R82, R109, R112): the samples it may place are read, and placed once they are there. A unit that
cannot be read fails it; the fragments before that one may have been written by then, as far as the fault says. -/
def State.runView (s : State) (id : CmdId) (c : Cmd) (p : ViewPlan) (fault : ViewFault) : State :=
  let n := p.ready c
  let rs := s.viewRanges id c p 0 n
  let s1 := s.fetchView id c rs
  if (s1.cmd id).any (fun x => x.result.isSome) then s1.unstage (.cmd id)
  else match s1.viewSources id rs with
    | none => s1
    | some none =>
      let m := match fault with | .readError m => m | _ => 0
      let out := if p.form = 2 then [] else s1.viewOut id c p (s1.readableFrags id c p n)
      s1.failView id c (out.take m) 0x01 .unrecoveredReadError
    | some (some l) => s1.placeView id c p fault (viewWindowed c.sqe (viewBytes p n l))

/-- VIEW READ of some forms. A view whose hook failed writes nothing more (R107 to R109, R112). -/
def State.viewRead (s : State) (id : CmdId) (forms : List Nat) (fault : ViewFault) : State :=
  match s.live id false 0x82 with
  | none => s
  | some c =>
    if !forms.contains (viewForm c.sqe) ∨ !s.objectTurn id c then s
    else match s.viewPlan id c with
      | .error r => s.finish id r.1 (BitVec.ofNat 32 r.2.1) (BitVec.ofNat 32 r.2.2)
      | .ok p =>
        match p.hook, c.hook.outcome with
        | some _, some st => s.failView id c [] 0x05 st
        | _, _ => s.runView id c p fault

/-- VIEW_READ_FRAGMENT (R78 to R82, R90 to R103). FORM 3 fails here too. -/
def execViewReadFragment (id : CmdId) (fault : ViewFault) (s : State) : Host.Outcome State Fault Refusal :=
  .next (s.viewRead id [0, 3] fault)

/-- VIEW_READ_INIT_SEGMENT (R79, R93). -/
def execViewReadInitSegment (id : CmdId) (fault : ViewFault) (s : State) : Host.Outcome State Fault Refusal :=
  .next (s.viewRead id [1] fault)

/-- VIEW_READ_BYTE_RANGE (R79, R110). -/
def execViewReadByteRange (id : CmdId) (fault : ViewFault) (s : State) : Host.Outcome State Fault Refusal :=
  .next (s.viewRead id [2] fault)

/-! ### VIEW SIZE (R83) -/

/-- The report. -/
def ViewPlan.report (p : ViewPlan) : Bytes :=
  leBytes 4 p.len ++ leBytes 4 p.parts.length ++ leBytes 2 p.pkgVer ++ leBytes 2 p.encVer ++ leBytes 4 0 ++
    (p.parts.map (fun x => leBytes 4 x.1 ++ leBytes 4 x.2)).flatten

/-- VIEW SIZE of some forms. -/
def State.viewSize (s : State) (id : CmdId) (forms : List Nat) : State :=
  match s.live id false 0x86 with
  | none => s
  | some c =>
    if !forms.contains (viewForm c.sqe) ∨ !s.objectTurn id c then s
    else match s.viewPlan id c with
      | .error r => s.finish id r.1 (BitVec.ofNat 32 r.2.1) (BitVec.ofNat 32 r.2.2)
      | .ok p => (s.reply id (p.report.take c.sqe.cdw2.toNat)).finish id .success (BitVec.ofNat 32 p.len) p.dw1

/-- VIEW_SIZE_FRAGMENT (R83). FORM 3 fails here too. -/
def execViewSizeFragment (id : CmdId) (s : State) : Host.Outcome State Fault Refusal := .next (s.viewSize id [0, 3])

/-- VIEW_SIZE_INIT_SEGMENT (R83). -/
def execViewSizeInitSegment (id : CmdId) (s : State) : Host.Outcome State Fault Refusal := .next (s.viewSize id [1])

/-- VIEW_SIZE_BYTE_RANGE (R83). -/
def execViewSizeByteRange (id : CmdId) (s : State) : Host.Outcome State Fault Refusal := .next (s.viewSize id [2])

/-! ### Hooks (R107 to R109) -/

/-- A view that calls a hook and has neither failed nor had every decision. -/
def State.hookedView (s : State) (id : CmdId) : Option (Cmd × ViewPlan × Nat) :=
  match s.live id false 0x82 with
  | none => none
  | some c =>
    if !s.objectTurn id c ∨ c.hook.outcome.isSome then none
    else match s.viewPlan id c with
      | .ok p => (match p.hook with
        | some h => if c.hook.chosen.length < p.frags.length then some (c, p, h) else none
        | none => none)
      | .error _ => none

/-- A token that no hook request in flight carries (R107). -/
def freshToken (used : List (BitVec 32)) (t : BitVec 32) : BitVec 32 :=
  match (List.range (used.length + 1)).find? (fun i => !used.contains (t + BitVec.ofNat 32 i)) with
  | some i => t + BitVec.ofNat 32 i
  | none => t

/-- HOOK_REQUEST (R107, R109, R502): the request for the next fragment enters the program's queue, or waits for room. -/
def execHookRequest (id : CmdId) (s : State) : Host.Outcome State Fault Refusal :=
  .next (match s.hookedView id with
    | none => s
    | some (c, _, h) =>
      if c.hook.waiting ∨ c.hook.next ≠ c.hook.chosen.length then s
      else match s.hookProgram id c.func h with
        | none => s
        | some g =>
          if 256 ≤ g.queue.length then s
          else
            let used := (s.inflight.filter (fun e => decide (e.2.hook.chosen.length < e.2.hook.next))).map (fun e => e.2.hook.token)
            let r := s.draw 32
            let s1 := r.2.updCmd id (fun x => { x with hook := { x.hook with
                next := x.hook.next + 1, waiting := true, reply := [], token := freshToken used r.1 } })
            { s1 with sca := { s1.sca with progs := s1.sca.progs.map (fun (p : Prog) =>
                if p.func = c.func ∧ p.handle = h then { p with queue := p.queue ++ [.hook id] } else p) } })

/-- The six request words of the hook request a view waits on (R107). -/
def State.hookWords (s : State) (id : CmdId) : List TWord :=
  match s.cmd id with
  | none => []
  | some c =>
    let e := c.sqe
    let ver := match s.profileFor c.func 0 (viewPkg e) c.epoch with | some p => p.ver.toNat | none => 0
    [c.hook.token.toNat, e.cdw12.toNat + c.hook.chosen.length, e.cdw3.toNat, e.cdw10.toNat, e.cdw11.toNat,
      viewPkg e + 256 * ver].map (fun n => mkWord 1 n)

/-- The SAE accepts a variant for fragment `k` (R108). -/
def variantOk (o x : Obj) (ts : Bool) (k : Nat) : Bool :=
  let a := o.index
  let b := x.index
  x.isSealed && !x.plain && idxFragCount b == idxFragCount a && idxNalLen b == idxNalLen a && idxCodec b == idxCodec a &&
    idxTimescale b == idxTimescale a && idxBaseTime b == idxBaseTime a && idxEntry b == idxEntry a &&
    (match (idxFrags a)[k]?, (idxFrags b)[k]? with
      | some f, some g =>
        g == { f with offset := g.offset } &&
          slice b (idxSampOff b + 16 * f.first) (16 * (f.samplesM1 + 1)) == slice a (idxSampOff a + 16 * f.first) (16 * (f.samplesM1 + 1)) &&
          (let n := 8 * sumBy (·.subCount) (fragSamps f (idxSamps a))
           n == 0 || slice b (idxSubOff b + 8 * f.subFirst) n == slice a (idxSubOff a + 8 * f.subFirst) n) &&
          (!ts || idxNalLen a == 0 || idxNalLen a == 4 ||
            (x.nalCounts.drop f.first).take (f.samplesM1 + 1) == (o.nalCounts.drop f.first).take (f.samplesM1 + 1))
      | _, _ => false)

/-- The object a reply names, when the SAE accepts it (R108). -/
def State.hookChoice (s : State) (c : Cmd) (p : ViewPlan) : Option Nat :=
  match c.hook.reply with
  | [t, lo, hi] =>
    if [t, lo, hi].any (fun w => tagOf w != 1) ∨ valOf t ≠ c.hook.token.toNat then none
    else
      let oid := valOf lo + valOf hi * 2 ^ 32
      if oid = 0 then some p.obj.oid
      else match s.obj p.obj.nsid oid with
        | none => none
        | some x => if variantOk p.obj x p.ctx.isTs (c.sqe.cdw12.toNat + c.hook.chosen.length) then some oid else none
  | _ => none

/-- HOOK_REPLY (R108): the reply to the outstanding request is checked, and the view keeps the choice or fails; HOOK_FAULT is not
recorded for it (R115; log 103). -/
def execHookReply (id : CmdId) (s : State) : Host.Outcome State Fault Refusal :=
  .next (match s.hookedView id with
    | none => s
    | some (c, p, _) =>
      if c.hook.waiting ∨ c.hook.next ≠ c.hook.chosen.length + 1 then s
      else s.updCmd id (fun x => { x with hook := match s.hookChoice c p with
        | some oid => { x.hook with chosen := x.hook.chosen ++ [oid] }
        | none => { x.hook with outcome := some .variantInvalid } }))

end Sys2Proof.Machine
end

