-- ==== Sys2Proof/Machine/Programs.lean ====
section
/-! DEFINITION. Scull programs: images and their checks, placement, LX720 filters, unloading, PROGRAM INVOKE, FILTERED READ, and the start
and the faulting end of invocations (R497 to R525). -/

namespace Sys2Proof.Machine

/-! ### Jeriec images (R497, R498) -/

/-- Bits [hi:lo] of an image's 64-byte header. -/
def imgField (b : Bytes) (hi lo : Nat) : Nat := field (leNat (padTo 64 b)) hi lo
/-- PL. -/
def jlPl (b : Bytes) : Nat := imgField b 77 64
/-- ENTRY. -/
def jlEntry (b : Bytes) : Nat := imgField b 92 80
/-- DATA_WORDS. -/
def jlDataWords (b : Bytes) : Nat := imgField b 110 96
/-- DATA_BASE. -/
def jlDataBase (b : Bytes) : Nat := imgField b 125 112
/-- SCULLS_M1 plus one. -/
def jlSculls (b : Bytes) : Nat := imgField b 60 56 + 1
/-- SHARED_PAGES. -/
def jlPages (b : Bytes) : Nat := imgField b 135 128
/-- SCRATCH_KIB. -/
def jlScratch (b : Bytes) : Nat := imgField b 159 144
/-- BUDGET. -/
def jlBudget (b : Bytes) : Nat := imgField b 191 160

/-- The program words, 16 bits each. -/
def jlWords (b : Bytes) : List Nat := (List.range (jlPl b)).map (fun i => leAt b (64 + 2 * i) 2)
/-- The data words, 64 bits each. -/
def jlData (b : Bytes) : List Nat := (List.range (jlDataWords b)).map (fun i => leAt b (64 + 2 * jlPl b + 8 * i) 8)

/-- Check 1: the header and the length. -/
def jlHeaderOk (b : Bytes) : Bool :=
  decide (64 ≤ b.length) && b.take 4 == [0x4C, 0x58, 0x53, 0x43] && imgField b 47 32 == 1 && imgField b 50 48 != 0 &&
    imgField b 55 51 == 0 && imgField b 63 61 == 0 && imgField b 79 78 == 0 && imgField b 95 93 == 0 && imgField b 111 111 == 0 &&
    imgField b 127 126 == 0 && imgField b 143 136 == 0 && imgField b 511 224 == 0 && decide (1 ≤ jlPl b ∧ jlPl b ≤ 8192) &&
    decide (jlDataBase b + jlDataWords b ≤ 16128) && decide (jlScratch b ≤ 16384) &&
    decide (1000 ≤ jlBudget b ∧ jlBudget b ≤ 2147483647) && b.length == 64 + 2 * jlPl b + 8 * jlDataWords b

/-- The instructions of an image in order, with their addresses (check 3): none when a word is reserved, has bits [15:14] set, or a
two-word instruction starts at the last word. -/
def jlOps : Nat → List Nat → Option (List (Nat × JOp))
  | _, [] => some []
  | a, [w] => if 16384 ≤ w ∨ twoWords (BitVec.ofNat 14 w) then none
    else (jeriecDecode (BitVec.ofNat 14 w) 0).map (fun op => [(a, op)])
  | a, w :: w1 :: ws =>
    if 16384 ≤ w then none
    else match jeriecDecode (BitVec.ofNat 14 w) (BitVec.ofNat 14 w1) with
      | none => none
      | some op =>
        if twoWords (BitVec.ofNat 14 w) then (if 16384 ≤ w1 then none else (jlOps (a + 2) ws).map (fun l => (a, op) :: l))
        else (jlOps (a + 1) (w1 :: ws)).map (fun l => (a, op) :: l)

/-- Check 4: an address is the first word of an instruction below PL. -/
def jlStart (ops : List (Nat × JOp)) (t : Int) : Bool := ops.any (fun o => (o.1 : Int) == t)

/-- Check 5: no repeat prefix is followed by what R479 forbids. -/
def jlRepsOk : List (Nat × JOp) → Bool
  | (_, a) :: (p, b) :: rest => !(isRep a && repForbids b) && jlRepsOk ((p, b) :: rest)
  | _ => true

/-- Check 6: a data word. -/
def jlDataOk (ops : List (Nat × JOp)) (w : Nat) : Bool :=
  decide (w < 2 ^ 36) && (match w / 2 ^ 32 with
    | 0 => w % 2 ^ 32 == 0
    | 1 | 2 | 3 | 7 | 0xE => true
    | 5 => decide (w % 2 ^ 32 < 8192) && jlStart ops ((w % 2 ^ 32 : Nat) : Int)
    | _ => false)

/-- The first of checks 1 to 6 that an image fails, 0 for none. -/
def jlCheck (b : Bytes) : Nat :=
  if !jlHeaderOk b then 1
  else if (crc32c (b.drop 64)).toNat ≠ imgField b 223 192 then 2
  else match jlOps 0 (jlWords b) with
    | none => 3
    | some ops =>
      if !(jlStart ops (jlEntry b) && ops.all (fun o => match targetOf o.1 o.2 with | some t => jlStart ops t | none => true)) then 4
      else if !jlRepsOk ops then 5
      else if !(jlData b).all (jlDataOk ops) then 6
      else 0

/-- The program an image describes, not yet placed. -/
def jlProg (f : Nat) (b : Bytes) : Prog :=
  { func := f, handle := 0, useInvoke := imgField b 48 48 == 1, useFilter := imgField b 49 49 == 1, useHook := imgField b 50 50 == 1
    sculls := [], words := (jlWords b).map (BitVec.ofNat 14), data := (jlData b).map (BitVec.ofNat 36), dataBase := jlDataBase b
    entry := jlEntry b, sharedPages := jlPages b, scratchKib := jlScratch b, budget := jlBudget b }

/-! ### LX720 filters (R518, R519) -/

/-- Check 1 of a filter: its header. -/
def lxHeaderOk (b : Bytes) : Bool :=
  decide (16 ≤ b.length) && b.take 4 == [0x4C, 0x37, 0x46, 0x50] && leAt b 4 2 == 3 && decide (1 ≤ byteAt b 6 ∧ byteAt b 6 ≤ 64) &&
    decide (byteAt b 8 ≤ 1) && allZero (slice b 9 7) && b.length == 16 + 16 * byteAt b 6

/-- The rules. -/
def lxRules (b : Bytes) : List Bytes := (List.range (byteAt b 6)).map (fun i => slice b (16 + 16 * i) 16)

/-- Check 8 of a filter: a rule. -/
def lxRuleOk (r : Bytes) : Bool :=
  let n := byteAt r 2 % 16
  decide (leAt r 0 2 ≤ 65534) && decide (1 ≤ n ∧ n ≤ 8) && decide (byteAt r 2 < 32) && allZero (slice r 3 5) && allZero (r.drop (8 + n))

/-- The filter. -/
def lxFilter (b : Bytes) : Filter720 :=
  { delim := byteOf (byteAt b 7), defaultKeep := byteAt b 8 == 1
    rules := (lxRules b).map (fun r =>
      { offset := leAt r 0 2, len := byteAt r 2 % 16, keep := bit (byteAt r 2) 4, value := slice r 8 8 }) }

/-- The first of checks 1 and 8 that a filter fails, 0 for none. -/
def lxCheck (b : Bytes) : Nat := if !lxHeaderOk b then 1 else if !(lxRules b).all lxRuleOk then 8 else 0

/-- The program a filter is translated to (R519), not yet placed; its words are its own (log 60). -/
def lxProg (f : Nat) (b : Bytes) : Prog :=
  { func := f, handle := 0, lx720 := true, useFilter := true, sculls := [], words := [], budget := 2147483647, filter := some (lxFilter b) }

/-! ### Placement (R498 check 7, R499) -/

/-- The free sculls of a function's mask, lowest first. -/
def State.freeSculls (s : State) (f : Nat) : List Nat :=
  match s.tenant f with
  | none => []
  | some t => (List.range 32).filter (fun k => t.scullMask.getLsbD k && !s.sca.progs.any (fun p => p.sculls.contains k))

/-- A shared page of an Eight is free. -/
def State.pageFree (s : State) (eight page : Nat) : Bool :=
  !s.sca.progs.any (fun p => p.sculls.any (fun k => eightOf k == eight) &&
    (let a := Mem.get 0 p.sharedAt eight; decide (a ≤ page ∧ page < a + p.sharedPages)))

/-- The lowest run of free shared pages of an Eight. -/
def State.pageRun (s : State) (eight n : Nat) : Option Nat :=
  (List.range (257 - n)).find? (fun a => (List.range n).all (fun i => s.pageFree eight (a + i)))

/-- The scratch areas in use: address and bytes. -/
def State.scratchUsed (s : State) : List (Nat × Nat) :=
  (s.sca.progs.map (fun p => p.scratchAt.map (fun a => (a, p.scratchKib * 1024)))).flatten

/-- The lowest place of `n` bytes below `limit` that meets no range in use. -/
def lowestGap (used : List (Nat × Nat)) (n limit : Nat) : Option Nat :=
  let fits := fun a => decide (a + n ≤ limit) && used.all (fun u => decide (a + n ≤ u.1 ∨ u.1 + u.2 ≤ a))
  ((0 :: used.map (fun u => u.1 + u.2)).filter fits).foldl (fun (acc : Option Nat) a =>
    match acc with | some b => some (Nat.min a b) | none => some a) none

/-- Scratch areas for `count` sculls in the pool of 256 MiB (log 57). -/
def scratchFor (bytes : Nat) : Nat → List (Nat × Nat) → List Nat → Option (List Nat)
  | 0, _, acc => some acc
  | count + 1, used, acc =>
    match lowestGap used bytes 268435456 with
    | none => none
    | some a => scratchFor bytes count (used ++ [(a, bytes)]) (acc ++ [a])

/-- The places a program of `n` sculls takes; none when check 7 fails. -/
def State.placeFor (s : State) (p : Prog) (n : Nat) : Option Prog :=
  let ks := (s.freeSculls p.func).take n
  if ks.length < n then none
  else
    let runs := (nubNat (ks.map eightOf)).map (fun e => (e, s.pageRun e p.sharedPages))
    if runs.any (fun r => r.2.isNone) then none
    else match (if p.scratchKib = 0 then some [] else scratchFor (p.scratchKib * 1024) n s.scratchUsed []) with
      | none => none
      | some at_ =>
        some { p with sculls := ks, scratchAt := at_, sharedAt := runs.foldl (fun m r => Mem.set 0 m r.1 (r.2.getD 0)) [] }

/-- The handle a load returns (R499), and the next one to issue. -/
def State.issueHandle (s : State) (f : Nat) : Nat × State :=
  let h := (s.fn f).nextHandle
  if h ≤ 65535 then (h, s.updFn f (fun x => { x with nextHandle := h + 1 }))
  else (((List.range 65535).map (· + 1)).find? (fun h => (s.prog f h).isNone) |>.getD 0, s)

/-- The mask of some sculls. -/
def scullBits (ks : List Nat) : Nat := (ks.map (2 ^ ·)).foldl (· + ·) 0

/-- A scull takes a program: its words, and nothing of another function's (R501). -/
def Scull.take (c : Scull) (p : Prog) : Scull :=
  { c with func := p.func, prog := (p.words.zipIdx).foldl (fun m e => Mem.set 0 m e.2 e.1) [], pl := p.words.length
           mem := [], inq := [], mail := if c.func = p.func then c.mail else [] }

/-- A placed program is loaded (R499): its pages start as POISON, and nothing of an earlier program is left in its scratch (R192). -/
def State.install (s : State) (p : Prog) (fmt : Nat) : State × MbResp :=
  let h := s.issueHandle p.func
  let p := { p with handle := h.1, loadedAt := s.hif.nextCmd }
  let pl := h.2.draw 13
  let s1 := if p.lx720 then pl.2 else h.2
  let s2 := p.sculls.foldl (fun s k => s.updScull k (fun c => c.take p)) s1
  let s3 := { s2 with
    sca := { s2.sca with progs := s2.sca.progs ++ [p], shared := Mem.keep (fun k => !p.ownsShared k) s2.sca.shared }
    dram := { s2.dram with cells := Mem.keep (fun x => !p.ownsScratch x) s2.dram.cells } }
  (s3.raise evProgramLoaded p.func [(1, p.func), (2, p.handle), (1, fmt), (4, scullBits p.sculls),
      (2, if p.lx720 then pl.1.toNat + 1 else p.words.length)], mbOk (leBytes 2 p.handle))

/-- A refused image (R498): recorded, nothing placed. -/
def State.rejectProgram (s : State) (f fmt check : Nat) : State × MbResp :=
  (s.raise evProgramRejected f [(1, f), (1, fmt), (1, check)], mbErr 0x0008 check)

/-- A complete image is checked and placed. -/
def State.loadProgram (s : State) (f fmt check n : Nat) (p : Prog) : State × MbResp :=
  if check ≠ 0 then s.rejectProgram f fmt check
  else match s.placeFor p n with
    | none => s.rejectProgram f fmt 7
    | some q => s.install q fmt

/-- MB_PROGRAM_LOAD of one format, piece by piece (R206). -/
def State.mbProgramLoad (s : State) (f : Nat) (lx : Bool) : State :=
  s.mbRun f 0x0601 (fun p => (leAt p 0 8 == 1) == lx) (fun s p =>
    if 2 ≤ leAt p 0 8 then (s, some (mbErr 0x0004))
    else
      let r := s.loadPiece f 0x0601 p
      match r.2 with
      | .error e => (r.1, some e)
      | .ok none => (r.1, some (mbOk []))
      | .ok (some b) =>
        let l := if lx then r.1.loadProgram f 1 (lxCheck b) 1 (lxProg f b) else r.1.loadProgram f 0 (jlCheck b) (jlSculls b) (jlProg f b)
        (l.1, some l.2))

/-- MB_PROGRAM_LOAD_JERIEC (R497 to R499); a SEL that names no format is BAD_FIELD here. -/
def execMbProgramLoadJeriec (f : Nat) (s : State) : Host.Outcome State Fault Refusal := .next (s.mbProgramLoad f false)

/-- MB_PROGRAM_LOAD_LX720 (R498, R499, R518, R519). -/
def execMbProgramLoadLx720 (f : Nat) (s : State) : Host.Outcome State Fault Refusal := .next (s.mbProgramLoad f true)

/-- MB_PROGRAM_STATUS (R500). -/
def execMbProgramStatus (f : Nat) (s : State) : Host.Outcome State Fault Refusal :=
  .next (s.mbRun f 0x0603 anyPayload (fun s p => (s, some (match s.prog f (leAt p 0 2) with
    | none => mbErr 0x000B
    | some q => mbOk (leBytes 4 (if q.unloading then 2 else 1) ++ leBytes 4 (scullBits q.sculls) ++ leBytes 4 q.faults)))))

/-- A view or a VIEW SIZE of FORM 0 names this hook program through its packaging profile (R107, R522). -/
def State.callsHook (s : State) (c : Cmd) (handle : Nat) : Bool :=
  (c.sqe.opcode == 0x82 || c.sqe.opcode == 0x86) && viewForm c.sqe == 0 && (match s.profileFor c.func 0 (viewPkg c.sqe) c.epoch with
    | some p => pkgHookMode p.record == 1 && pkgHookProgram p.record == handle
    | none => false)

/-- Commands accepted before an unload that still use the program (R500, R522). -/
def State.programUsers (s : State) (f handle : Nat) : List CmdId :=
  ((s.inflightOf f).filter (fun e => !e.2.sqe.admin && e.2.result.isNone &&
    ((e.2.sqe.opcode == 0x97 && field e.2.sqe.cdw10.toNat 15 0 == handle) ||
     (e.2.sqe.opcode == 0x92 && field e.2.sqe.cdw13.toNat 15 0 == handle) || s.callsHook e.2 handle))).map (·.1)

/-- MB_PROGRAM_UNLOAD (R500): UNLOADING from here on; a second unload changes nothing (log 58). -/
def execMbProgramUnload (f : Nat) (s : State) : Host.Outcome State Fault Refusal :=
  .next (s.mbRun f 0x0602 anyPayload (fun s p =>
    let h := leAt p 0 2
    match s.prog f h with
    | none => (s, some (mbErr 0x000B))
    | some q =>
      if q.unloading then (s, some (mbOk []))
      else (s.updProg f h (fun x => { x with unloading := true, keepFor := s.programUsers f h }), some (mbOk []))))

/-- PROGRAM_FREE (R500): the last accepted invocation and view have ended; sculls, pages and scratch are cleared and freed. -/
def execProgramFree (f handle : Nat) (s : State) : Host.Outcome State Fault Refusal :=
  .next (match s.prog f handle with
    | none => s
    | some p =>
      let busy := p.keepFor.any (fun id => match s.cmd id with | some c => c.result.isNone | none => false) ||
        p.sculls.any (fun k => (s.scull k).running)
      if !p.unloading ∨ busy ∨ !p.queue.isEmpty then s
      else (s.freeProgram p).raise evProgramUnloaded f [(1, f), (2, handle), (1, 1)])

/-! ### PROGRAM INVOKE (R509, R510) -/

/-- HANDLE of a PROGRAM INVOKE. -/
def invHandle (e : Sqe) : Nat := field e.cdw10.toNat 15 0
/-- STREAM. -/
def invStream (e : Sqe) : Bool := bit e.cdw10.toNat 16
/-- IN_LEN. -/
def invIn (e : Sqe) : Nat := field e.cdw11.toNat 21 0
/-- OUT_LEN. -/
def invOut (e : Sqe) : Nat := field e.cdw14.toNat 21 0
/-- The argument block's BUDGET. -/
def argBudget (arg : Bytes) : Nat := leAt arg 48 4
/-- A KEY_SLOT field. -/
def argSlot (arg : Bytes) (i : Nat) : Nat := leAt arg (2 * i) 2

/-- The dwords of a PROGRAM INVOKE. -/
def invFieldsOk (e : Sqe) : Bool :=
  field e.cdw10.toNat 31 17 == 0 && field e.cdw11.toNat 31 22 == 0 && field e.cdw14.toNat 31 22 == 0 && e.cdw15 == 0 &&
    decide (invIn e ≤ 2097088) && decide (invOut e ≤ 2097152)

/-- A named key slot passes the checks of acceptance, range and state (R356, R509); a LOCKED slot has a key, and its requests end at
port 1 (log 110). -/
def State.argSlotOk (s : State) (c : Cmd) (n : Nat) : Bool :=
  n == 0xFFFF || (s.ownsSlot c.func n && ((s.slot n).keyFor c.epoch).isSome)

/-- A program that a command names: loaded, or UNLOADING with the command accepted before. -/
def State.progFor (s : State) (id : CmdId) (f handle : Nat) : Option Prog :=
  match s.prog f handle with
  | some p => if p.unloading && !p.keepFor.contains id then none else some p
  | none => none

/-- PROGRAM_INVOKE (R502, R509, R510): the checks, then the input moves and the entry is queued. -/
def execProgramInvoke (id : CmdId) (data : Bytes) (s : State) : Host.Outcome State Fault Refusal :=
  .next (match s.live id false 0x97 with
    | none => s
    | some c =>
      let e := c.sqe
      if c.moved ∨ c.away then s
      else if e.nsid ≠ 0xFFFFFFFF then s.finish id .invalidNamespaceOrFormat
      else match s.progFor id c.func (invHandle e) with
        | none => s.finish id .programUnknown
        | some p =>
          let arg := padTo 64 data
          if !p.useInvoke ∨ !invFieldsOk e then s.finish id .invalidField
          else if sglShort e (64 + invIn e) then s.finish id .dataSglLengthInvalid
          else if !allZero (slice arg 52 12) ∨ p.budget < argBudget arg then s.finish id .invalidField
          else if !(List.range 8).all (fun i => s.argSlotOk c (argSlot arg i)) then s.finish id .keySlotInvalid
          else if 256 ≤ p.queue.length then s.finish id .tenantQuota
          else (s.updCmd id (fun c => { c with data := padTo (64 + invIn e) data, moved := true })).updProg c.func (invHandle e)
            (fun p => { p with queue := p.queue ++ [.invoke id] }))

/-! ### FILTERED READ (R511, R512) -/

/-- HANDLE of a FILTERED READ. -/
def filHandle (e : Sqe) : Nat := field e.cdw13.toNat 15 0
/-- DECOMP. -/
def filDecomp (e : Sqe) : Bool := bit e.cdw13.toNat 16
/-- FORMAT. -/
def filFormat (e : Sqe) : Nat := field e.cdw13.toNat 18 17
/-- OUT_LEN. -/
def filOut (e : Sqe) : Nat := field e.cdw14.toNat 21 0
/-- The budget, in cycles. -/
def filBudget (e : Sqe) : Nat := field e.cdw15.toNat 15 0 * 1000

/-- The dwords of a FILTERED READ. -/
def filFieldsOk (e : Sqe) : Bool :=
  field e.cdw12.toNat 31 12 == 0 && field e.cdw13.toNat 31 19 == 0 && field e.cdw14.toNat 31 22 == 0 && field e.cdw15.toNat 31 16 == 0 &&
    decide (1 ≤ filOut e ∧ filOut e ≤ 2097152) && (filDecomp e || filFormat e == 0)

/-- The checks of a FILTERED READ (R511, R516). -/
def State.filterChecks (s : State) (id : CmdId) (c : Cmd) : Except Status Ns :=
  let e := c.sqe
  match s.ns (sqeNsid e) with
  | none => .error .invalidNamespaceOrFormat
  | some n =>
    if n.attached ≠ some c.func then .error .invalidNamespaceOrFormat
    else if n.object then .error .invalidOpcode
    else match s.progFor id c.func (filHandle e) with
      | none => .error .programUnknown
      | some p =>
        if !p.useFilter ∨ !filFieldsOk e ∨ p.budget < filBudget e ∨ n.blocks * lbaBytes n.lbaf < (lockRange n e).1 + (lockRange n e).2 then
          .error .invalidField
        else if sglShort e (filOut e) then .error .dataSglLengthInvalid
        else .ok n

/-- The feed of a FILTERED READ (R512): the blocks' data, decompressed when asked. -/
def filterFeed (e : Sqe) (data : Bytes) : Except (Status × Nat × Nat) Bytes :=
  if !filDecomp e then .ok data
  else
    let d := decodeStream (filFormat e) 0 (2 ^ 40) data
    match d.stop with
    | .done => .ok d.out
    | .bad 0 => .error (.lengthMismatch, 0, d.used)
    | .bad k => .error (.checkFail, k, d.used)
    | .starved => .error (.checkFail, 6, d.used)
    | .full => .error (.checkFail, 6, d.used)

/-- FILTERED_READ (R502, R511, R512): the blocks are read under shared locks and decompressed; a feed that fails its checks ends the
command before an invocation starts (log 59). The entry waits while the queue is full. -/
def execFilteredRead (id : CmdId) (s : State) : Host.Outcome State Fault Refusal :=
  .next (match s.live id false 0x92 with
    | none => s
    | some c =>
      let e := c.sqe
      if c.moved ∨ c.away then s
      else match s.filterChecks id c with
        | .error st => (s.finish id st).releaseAll id
        | .ok n =>
          let r := lockRange n e
          let s1 := s.readProgress id c n r
          match s1.readBlocks id c n r with
          | none => s1
          | some none => (s1.finish id .unrecoveredReadError).unstage (.cmd id)
          | some (some bs) =>
            match filterFeed e ((bs.map (·.1)).flatten) with
            | .error (st, reason, at_) =>
              let ctx : CmpCtx := { func := c.func, gen := c.gen, op := 1, format := filFormat e }
              let s2 := if st = .checkFail then s1.checkFailed ctx reason at_ else s1
              (s2.finish id st).unstage (.cmd id)
            | .ok feed =>
              match s1.prog c.func (filHandle e) with
              | none => s1
              | some p =>
                if 256 ≤ p.queue.length then s1
                else ((s1.updCmd id (fun c => { c with data := feed, moved := true })).unstage (.cmd id)).updProg c.func (filHandle e)
                  (fun p => { p with queue := p.queue ++ [.filter id] }))

/-! ### Starting an invocation (R502 to R504, R508) -/

/-- A scull that can take the next invocation: nothing runs on it, and nothing of an earlier one is outstanding. -/
def Scull.free (c : Scull) : Bool := !c.running && (List.range 5).all (fun p => Mem.get 0 c.outstanding p == 0)

/-- The command an entry serves. -/
def Start.cmd : Start → CmdId
  | .invoke id | .filter id | .hook id => id

/-- What an invocation starts with. -/
structure Setup where
  input : Bytes := []
  outLen : Nat := 0
  stream : Bool := false
  feed : Bytes := []
  keys : List TWord := []
  args : List TWord := []
  code : Nat := 0
  inLen : Nat := 0
  budget : Nat := 0
  request : List TWord := []
  deriving DecidableEq, Repr

/-- The image's budget, unless the command names one (R508). -/
def budgetOr (n image : Nat) : Nat := if n = 0 then image else n

/-- What each kind of start brings (R503, R504, R508, R513, R515). A hook names no arguments: its words are free values. -/
def State.setupFor (s : State) (p : Prog) (st : Start) (c : Cmd) : Setup × State :=
  let e := c.sqe
  match st with
  | .invoke _ =>
    let arg := padTo 64 c.data
    let input := slice c.data 64 (invIn e)
    ({ input := if invStream e then [] else input, outLen := invOut e, stream := invStream e, feed := if invStream e then input else []
       keys := (List.range 8).map (fun i => if argSlot arg i = 0xFFFF then 0 else mkWord 6 (argSlot arg i))
       args := (List.range 8).map (fun i => mkWord 1 (leAt arg (16 + 4 * i) 4))
       code := 0, inLen := invIn e, budget := budgetOr (argBudget arg) p.budget }, s)
  | .filter _ =>
    ({ outLen := filOut e, stream := true, feed := c.data, keys := List.replicate 8 0
       args := [e.cdw2.toNat, e.cdw3.toNat, 0, 0, 0, 0, 0, 0].map (mkWord 1)
       code := 1, budget := budgetOr (filBudget e) p.budget }, s)
  | .hook id =>
    let a := s.draw 256
    ({ keys := List.replicate 8 0, args := (List.range 8).map (fun i => mkWord 1 (a.1.toNat / 2 ^ (32 * i)))
       code := 2, budget := p.budget, request := s.hookWords id }, a.2)

/-- SPL ranges in use (log 57): the protected buffer, and the buffers of invocations and of the requests they have left outstanding. -/
def State.splUsed (s : State) : List (Nat × Nat) :=
  (0, 16777216) :: ((s.sca.sculls.filter (fun e => !e.2.free)).map (fun e => (e.2.bufAt, e.2.bufLen) :: e.2.stages)).flatten

/-- Whole pages of an SPL buffer. -/
def splRound (n : Nat) : Nat := ceilDiv n 4096 * 4096

/-- The windows of an invocation (R504), with its SPL buffers from `at_`. -/
def windowsFor (p : Prog) (k : Nat) (u : Setup) (at_ : Nat) : Mem Win :=
  let w := fun (kind base len : Nat) (r wr : Bool) => ({ kind := kind, r := r, w := wr, live := true, len := len, base := base } : Win)
  let put := fun (m : Mem Win) (i : Nat) (yes : Bool) (x : Win) => if yes then Mem.set {} m i x else m
  let m := put [] 0 true (w 0 0 16384 true true)
  let m := put m 1 (u.code == 0 && !u.stream && u.inLen != 0) (w 2 at_ u.inLen true false)
  let m := put m 2 (u.code == 0 && !u.stream && u.outLen != 0) (w 2 (at_ + splRound u.inLen) u.outLen false true)
  let m := put m 3 (p.sharedPages != 0) (w 1 (256 * Mem.get 0 p.sharedAt (eightOf k)) (256 * p.sharedPages) true true)
  put m 4 (p.scratchKib != 0) (w 4 (nth 0 p.scratchAt (p.sculls.idxOf k)) (1024 * p.scratchKib) true true)

/-- The PTR word of a window entry at the start, NIL where it is absent. -/
def startPtr (ws : Mem Win) (i : Nat) : TWord := if (Mem.get {} ws i).live then mkPtr 0 i 0 else 0

/-- Words stored from an address upwards. -/
def putWords (m : Mem TWord) (a : Nat) (ws : List TWord) : Mem TWord := (ws.zipIdx).foldl (fun m e => Mem.set poison m (a + e.2) e.1) m

/-- The scull as an invocation starts (R460, R503, R504). -/
def startScull (c : Scull) (p : Prog) (k : Nat) (st : Start) (x : Cmd) (u : Setup) (at_ : Nat) (feed : Bytes) : Scull :=
  let ws := windowsFor p k u at_
  let ptrs := (List.range 5).map (startPtr ws)
  let page := u.keys ++ u.args ++ [mkWord 1 u.code, mkWord 1 u.inLen, mkWord 1 u.outLen] ++ ptrs
  let regs := [mkWord 1 u.code, mkWord 1 u.inLen, mkWord 1 u.outLen]
  { running := true, func := p.func, handle := p.handle, gen := x.gen, epoch := x.epoch, start := some st
    prog := c.prog, pl := c.pl, mem := putWords (putWords [] p.dataBase p.data) 16128 page
    d := (regs.zipIdx).foldl (fun m e => Mem.set 0 m e.2 e.1) []
    a := (List.range 4).foldl (fun m i => if startPtr ws i = 0 then m else Mem.set none m i (some (startPtr ws i))) []
    pc := BitVec.ofNat 13 p.entry, lastPc := BitVec.ofNat 13 p.entry, budget := u.budget, wins := ws
    sharedFirst := Mem.get 0 p.sharedAt (eightOf k), sharedCount := p.sharedPages
    inq := if u.request.isEmpty then [] else Mem.set [] [] 5 u.request
    mail := c.mail, feed := feed, feedTail := if u.feed.isEmpty then 0 else (u.feed.length - 1) % 4 + 1, feedEnd := u.stream
    outLen := u.outLen, stream := u.stream
    bufAt := at_, bufLen := if u.code = 0 ∧ !u.stream then splRound u.inLen + splRound u.outLen else 0 }

/-- The invocation queue of a program without its first entry. -/
def State.popStart (s : State) (f handle : Nat) : State := s.updProg f handle (fun p => { p with queue := p.queue.drop 1 })

/-- INVOCATION_START (R502 to R504): the first entry goes to the lowest-numbered idle scull; it waits while the SPL has no room for its
buffers (log 57). An entry whose command has ended is dropped. -/
def execInvocationStart (f handle : Nat) (s : State) : Host.Outcome State Fault Refusal :=
  .next (match s.prog f handle with
    | none => s
    | some p =>
      match p.queue with
      | [] => s
      | st :: _ =>
        if !s.psm.mode.runsSculls then s
        else match s.cmd st.cmd with
          | none => s.popStart f handle
          | some x =>
            if x.result.isSome then s.popStart f handle
            else match p.sculls.find? (fun k => (s.scull k).free) with
              | none => s
              | some k =>
                let r := s.setupFor p st x
                let u := r.1
                let len := if u.code = 0 ∧ !u.stream then splRound u.inLen + splRound u.outLen else 0
                match lowestGap s.splUsed len 41943040 with
                | none => s
                | some at_ =>
                  let pad := r.2.drawBytes 4
                  let short := (4 - u.feed.length % 4) % 4
                  let s1 := pad.2.popStart f handle
                  let s2 := { s1 with dmf := { s1.dmf with
                    spl := writeBytes s1.dmf.spl at_ u.input
                    tags := Mem.keep (fun t => !decide (at_ ≤ t * 4096 ∧ t * 4096 < at_ + len)) s1.dmf.tags } }
                  s2.setScull k (startScull (s.scull k) p k st x u at_ (u.feed ++ pad.1.take short)))

/-- INVOCATION_FAULT_END (R484, R507, R517): every request outstanding on ports 0 to 4 has replied. -/
def execInvocationFaultEnd (k : Nat) (s : State) : Host.Outcome State Fault Refusal :=
  let c := s.scull k
  .next (
    if !(decide (k < 32) && c.running && c.trapped && (List.range 5).all (fun p => Mem.get 0 c.outstanding p == 0)) then s
    else
      let s1 := s.raiseLimited evProgramTrap c.func 0x0F28 [(1, c.func), (2, c.handle), (1, k), (4, c.trapinfo.toNat)]
      s1.endFault k c.trapinfo)

end Sys2Proof.Machine
end

