-- ==== Sys2Proof/Machine/Ports.lean ====
section
/-! DEFINITION. The engine ports of the sculls: a request of port 0 to 4 is taken, checked, and becomes DMA descriptors, a cipher entry, a
digest, a compression job or a search (R337, R338, R382, R383, R394, R422, R447, R463). -/

namespace Sys2Proof.Machine

/-! ### Requests and replies -/

/-- The oldest complete request on a port of a scull, in a mode in which engines run. -/
def State.portFront (s : State) (k port : Nat) : Option (List TWord) :=
  if k < 32 ∧ s.psm.mode.runsSculls then (Mem.get [] (s.scull k).sent port).head? else none

/-- The port takes it. -/
def State.portPop (s : State) (k port : Nat) : State :=
  s.updScull k (fun c => { c with sent := Mem.upd [] c.sent port (fun q => q.drop 1) })

/-- Word `i`, from 1, of a request. -/
def wordAt (m : List TWord) (i : Nat) : TWord := nth 0 m (i - 1)
/-- The value of word `i`. -/
def valAt (m : List TWord) (i : Nat) : Nat := valOf (wordAt m i)
/-- Word `i` has a tag. -/
def tagIs (m : List TWord) (i t : Nat) : Bool := tagOf (wordAt m i) == t

/-- An ERR word. -/
def errWord (code : Nat) : TWord := mkWord 0xE code

/-- A refused request: the cookie and an ERR word (R338). -/
def State.portRefuse (s : State) (k port cookie code : Nat) : State := s.scullReply k port [mkWord 1 cookie, errWord code]

/-- A failure to which the manual gives no ERR code: its code is a free value (log 61). -/
def State.portRefuseFree (s : State) (k port cookie : Nat) : State :=
  let d := s.draw 32
  d.2.portRefuse k port cookie d.1.toNat

/-- A DMA space and address. -/
structure Place where
  space : Nat
  addr : Nat
  win : Win
  deriving DecidableEq, Repr

/-- What a PTR word of a request names (R337, R338, R463): the range lies in a live window of a kind that is a DMA space, with its
right. A local window is no DMA space (R319), and a shared one is reached in whole words (log 61). -/
def Scull.place (c : Scull) (k : Nat) (p : TWord) (len : Nat) (write : Bool) : Except Nat Place :=
  match c.entry p with
  | none => .error 0x02
  | some w =>
    let o := ptrOff p
    let units := if w.kind = 1 then len / 4 else len
    if w.kind = 0 ∨ 6 ≤ w.kind then .error 0x02
    else if (if write then !w.w else !w.r) then .error 0x03
    else if w.len < o + units then .error 0x02
    else if w.kind = 1 ∧ len % 4 ≠ 0 then .error 0x04
    else match w.kind with
      | 1 => .ok { space := 4, addr := eightOf k * 262144 + 4 * (w.base + o), win := w }
      | 4 => .ok { space := 3, addr := w.base + o, win := w }
      | 5 => .ok { space := flag w.hostPort, addr := w.base + o, win := w }
      | _ => .ok { space := 2, addr := w.base + o, win := w }

/-- A channel lies in the tenant's groups (R214, R316). -/
def State.ownsChannel (s : State) (f ch : Nat) : Bool :=
  match s.tenant f with
  | some t => t.dmaMask.getLsbD (ch / 8)
  | none => false

/-! ### Descriptors the ports append (R329, R337, R383, log 13) -/

/-- A descriptor's slot in the ring of a channel. -/
def ringSlot (ch n : Nat) : Nat := 41943040 + ch * 32768 + 64 * (n % 512)

/-- The ring has room for `n` more descriptors. -/
def State.ringRoom (s : State) (ch n : Nat) : Bool :=
  (List.range n).all (fun i => !(s.readDesc true (ringSlot ch ((s.ch ch).appended + i))).own)

/-- Appends a descriptor (R329): behind the tail of the chain, or as the head of a channel that is IDLE; a HALTED channel is cleared
first. -/
def State.appendDesc (s : State) (ch raw : Nat) : State :=
  let n := (s.ch ch).appended
  let slot := ringSlot ch n
  let s1 := s.spaceWrite 0 2 slot (leBytes 64 raw)
  let s2 := if (s1.ch ch).state = .halted then s1.dmaClear ch else s1
  let s3 := if (s2.ch ch).state = .idle then s2.setCh ch { s2.ch ch with head := BitVec.ofNat 64 (slot + 2) }
    else s2.spaceWrite 0 2 (ringSlot ch (n + 511) + 56) (leBytes 8 (slot + 2))
  (s3.setCh ch { s3.ch ch with appended := n + 1 }).dmaRing ch

/-- The fields of a descriptor that the ports set; LINK ends the chain, OWN is set. -/
def descRaw (len src dst srcSpace dstSpace flags func gen user : Nat) : Nat :=
  (len - 1) + srcSpace * 2 ^ 20 + dstSpace * 2 ^ 23 + 2 ^ 31 + src * 2 ^ 64 + dst * 2 ^ 128 + func * 2 ^ 352 + gen * 2 ^ 360 +
    user * 2 ^ 384 + linkEnd * 2 ^ 448 + flags

/-- The tag fields that name a unit of a tagged window at an offset (R321, R463). -/
def Win.tagFields (w : Win) (off : Nat) : Nat := (w.tagUnit + off / 4096) * 2 ^ 192 + w.tagObj * 2 ^ 256 + w.tagNsid * 2 ^ 320

/-- The integrity tag work of two windows (R321, R337): TAG_MODE, and the tag fields: of the units that a CREATE writes, else of the units
that are checked. -/
def tagFields (src : Option (Win × Nat)) (dst : Win) (dstOff : Nat) : Nat :=
  match src.filter (fun p => p.1.kind == 3) with
  | some (w, off) => (if dst.kind = 3 then 3 else 2) * 2 ^ 26 + w.tagFields off
  | none => if dst.kind = 3 then 2 ^ 26 + dst.tagFields dstOff else 0

/-- The DMA request that five words make, or the ERR code they are refused with, in the order tags, channel, length, windows (R337,
R338, log 61): the channel and the descriptor. -/
def State.dmaRequest (s : State) (k : Nat) (m : List TWord) : Except Nat (Nat × Nat) :=
  let c := s.scull k
  let w := valAt m 1
  let ch := field w 7 0
  let len := valAt m 4
  let pattern := tagIs m 2 2
  if !tagIs m 1 1 ∨ w / 4096 ≠ 0 ∨ !(tagIs m 2 4 || pattern) ∨ !tagIs m 3 4 ∨ !tagIs m 4 1 ∨ !tagIs m 5 1 then .error 0x05
  else if !s.ownsChannel c.func ch then .error 0x01
  else if len = 0 ∨ 1048576 < len then .error 0x04
  else
    let flags := flag (bit w 8) * 2 ^ 30 + flag (bit w 9) * 2 ^ 376 + flag (bit w 10) * 2 ^ 28 + flag (bit w 11) * 2 ^ 29 + 2 ^ 378
    let build := fun (src : Option Place) (d : Place) (pat : Nat) =>
      let tags := tagFields (src.map (fun p => (p.win, p.addr - p.win.base))) d.win (d.addr - d.win.base)
      (ch, descRaw len (match src with | some p => p.addr | none => 0) d.addr (match src with | some p => p.space | none => 7) d.space
        (flags + tags + pat * 2 ^ 368) c.func c.gen.toNat (valAt m 5 + (k + 1) * 2 ^ 32))
    match c.place k (wordAt m 3) len true with
    | .error e => .error e
    | .ok d =>
      if pattern then .ok (build none d (valAt m 2 % 256))
      else match c.place k (wordAt m 2) len false with
        | .error e => .error e
        | .ok p => .ok (build (some p) d 0)

/-- PORT0_DMA_REQUEST (R337, R338). -/
def execPort0DmaRequest (k : Nat) (s : State) : Host.Outcome State Fault Refusal :=
  .next (match s.portFront k 0 with
    | none => s
    | some m =>
      match s.dmaRequest k m with
      | .error e => (s.portPop k 0).portRefuse k 0 (valAt m 5) e
      | .ok (ch, raw) => if !s.ringRoom ch 1 then s else (s.portPop k 0).appendDesc ch raw)

/-! ### Outputs that leave through a channel (R383, R422) -/

/-- Staging ranges that nothing outstanding uses any more are freed: this request is the only one on ports 1 and 3, and no job of an
earlier one is left. -/
def State.trimStages (s : State) (k : Nat) : State :=
  s.updScull k (fun c =>
    if Mem.get 0 c.outstanding 0 = 0 ∧ Mem.get 0 c.outstanding 1 + Mem.get 0 c.outstanding 3 ≤ 1 then { c with stages := [] } else c)

/-- An SPL range that stages `n` bytes; none while there is no room. -/
def State.stageFor (s : State) (n : Nat) : Option Nat := lowestGap s.splUsed n 41943040

/-- The descriptors of a job that moves `n` bytes from a staging range to a place (R383): at most 262,144 bytes each, the first with
JOB_START, the last with JOB_END, VERDICT and EVENT. -/
def jobDescs (c : Scull) (user stage : Nat) (d : Place) (n fill : Nat) : List Nat :=
  let count := ceilDiv n 262144
  (List.range count).map (fun i =>
    let last := decide (i + 1 = count)
    let len := if last then n - 262144 * i else 262144
    descRaw len (stage + 262144 * i) (d.addr + 262144 * i) 2 d.space
      (flag (i == 0) * 2 ^ 28 + flag last * (2 ^ 29 + 2 ^ 377 + 2 ^ 378) + fill * 2 ^ 376) c.func c.gen.toNat user)

/-- The job is appended; its last descriptor's reply on port 0 counts as outstanding. -/
def State.startJob (s : State) (k ch user stage : Nat) (d : Place) (n fill : Nat) : State :=
  let s1 := s.setCh ch { s.ch ch with verdicts := (s.ch ch).verdicts.filter (fun v => v.1 != user) }
  let s2 := (jobDescs (s.scull k) user stage d n fill).foldl (fun s raw => s.appendDesc ch raw) s1
  s2.updScull k (fun c => { c with stages := c.stages ++ [(stage, n)]
                                   held := c.held.filter (fun h => !(h.1 == user && h.2.1 == 99))
                                   outstanding := Mem.upd 0 c.outstanding 0 (· + 1) })

/-- How an output reaches its window: straight into an SPL buffer, or staged and moved; none while there is no room. -/
inductive Route where
  | spl (addr : Nat) | job (stage : Nat) (d : Place)
  deriving DecidableEq, Repr

/-- The route of `n` bytes to a place through a channel. -/
def State.route (s : State) (ch : Nat) (d : Place) (n : Nat) : Option Route :=
  if d.space = 2 then some (.spl d.addr)
  else if !s.ringRoom ch (ceilDiv n 262144) then none
  else (s.stageFor n).map (fun a => .job a d)

/-! ### Port 1 (R382, R383) -/

/-- Four bytes of each word, first byte lowest. -/
def wordBytes (m : List TWord) (first n : Nat) : Bytes := ((List.range n).map (fun i => leBytes 4 (valAt m (first + i)))).flatten

/-- Word tags of a cipher request: the IV words are NIL exactly for GCM encryption, the tag words BYTES exactly for GCM decryption. -/
def cipherTagsOk (m : List TWord) : Bool :=
  let w := valAt m 1
  let gcm := field w 2 0 == 1
  let all := fun (first t : Nat) => (List.range 4).all (fun i => tagIs m (first + i) t)
  tagIs m 1 1 && field w 31 27 == 0 && tagIs m 2 6 && tagIs m 3 4 && tagIs m 4 4 && tagIs m 5 1 && tagIs m 6 1 && tagIs m 15 1 &&
    all 7 (if gcm && !bit w 3 then 0 else 2) && all 11 (if gcm && bit w 3 then 2 else 0)

/-- The checks of a cipher request: source and destination, or the ERR code (R338, R383). -/
def State.cipherPlaces (s : State) (k : Nat) (m : List TWord) : Except Nat (Place × Place) :=
  let c := s.scull k
  let len := valAt m 5
  if !cipherTagsOk m then .error 0x05
  else if !s.ownsChannel c.func (field (valAt m 1) 21 14) then .error 0x01
  else if len = 0 ∨ 67108864 < len ∨ len < valAt m 6 ∨ 65536 ≤ valAt m 6 then .error 0x04
  else match c.place k (wordAt m 3) len false with
    | .error e => .error e
    | .ok src =>
      if src.space ≠ 2 then .error 0x06
      else match c.place k (wordAt m 4) (len - valAt m 6) true with
        | .error e => .error e
        | .ok dst => .ok (src, dst)

/-- The entry of a cipher request (R362, R383): URGENT 0, VERDICT_EN 1. -/
def cipherEntry (c : Scull) (m : List TWord) (src dst user : Nat) : BitVec 512 :=
  let w := valAt m 1
  let iv := leNat (wordBytes m 7 4)
  let tag := leNat (wordBytes m 11 4)
  BitVec.ofNat 512 (field w 2 0 + flag (bit w 3) * 8 + flag (bit w 4) * 32 + 64 + valAt m 2 % 4096 * 2 ^ 12 + c.func * 2 ^ 24 +
    c.gen.toNat * 2 ^ 32 + field w 8 5 * 2 ^ 40 + field w 12 9 * 2 ^ 44 + c.epoch.toNat * 2 ^ 48 + valAt m 5 * 2 ^ 64 +
    valAt m 6 * 2 ^ 96 + field w 26 22 * 2 ^ 112 + field w 21 14 * 2 ^ 120 + src * 2 ^ 128 + dst * 2 ^ 160 + iv * 2 ^ 192 +
    tag * 2 ^ 320 + user * 2 ^ 448)

/-- PORT1_CIPHER_REQUEST (R382, R383): the entry is submitted by the port of the scull's Eight; an output that no SPL buffer takes is
staged, and its job appended first. It waits while there is no room for that. -/
def execPort1CipherRequest (k : Nat) (s : State) : Host.Outcome State Fault Refusal :=
  .next (match s.portFront k 1 with
    | none => s
    | some m =>
      match s.cipherPlaces k m with
      | .error e => (s.portPop k 1).portRefuse k 1 (valAt m 15) e
      | .ok (src, dst) =>
        let s0 := s.trimStages k
        let ch := field (valAt m 1) 21 14
        let n := valAt m 5 - valAt m 6
        let c := s.scull k
        match (if n = 0 then some (.spl dst.addr) else s0.route ch dst n) with
        | none => s
        | some (.spl a) =>
          (s0.portPop k 1).cpeSubmit (3 + eightOf k) (cipherEntry c m src.addr (if dst.space = 2 then a else 0) (valAt m 15 + (k + 1) * 2 ^ 32))
        | some (.job a d) =>
          let user := jobUser k (valAt m 15)
          ((s0.portPop k 1).startJob k ch user a d n (flag (bit (valAt m 1) 13))).cpeSubmit (3 + eightOf k)
            (cipherEntry c m src.addr a user))

/-! ### Port 2 (R394) -/

/-- The bytes of a source window; none when a shared word must not leave (R320). -/
def State.placeBytes (s : State) (p : Place) (n : Nat) : Option Bytes :=
  match p.space with
  | 2 => some (readBytes s.dmf.spl p.addr n)
  | 3 => some (readBytes s.dram.cells p.addr n)
  | 4 => (let r := s.eightBytes (p.addr / 262144 * 65536 + p.addr % 262144 / 4) (n / 4); if r.2 then some r.1 else none)
  | _ => none

/-- ALG, KEYED, OPEN, FINAL and EXPECT_WORDS of word 1. -/
def d2Alg (m : List TWord) : Nat := field (valAt m 1) 1 0
/-- KEYED. -/
def d2Keyed (m : List TWord) : Bool := bit (valAt m 1) 2
/-- OPEN. -/
def d2Open (m : List TWord) : Bool := bit (valAt m 1) 3
/-- FINAL. -/
def d2Final (m : List TWord) : Bool := bit (valAt m 1) 4
/-- EXPECT_WORDS. -/
def d2Expect (m : List TWord) : Nat := field (valAt m 1) 8 5

/-- Word tags of a digest request, and its reserved bits. -/
def digestTagsOk (m : List TWord) : Bool :=
  tagIs m 1 1 && decide (valAt m 1 < 512) && tagIs m 2 (if d2Keyed m && d2Open m then 6 else 0) && tagIs m 3 4 && tagIs m 4 1 &&
    tagIs m 5 1 && (List.range (d2Expect m)).all (fun i => tagIs m (6 + i) 2)

/-- Its lengths. -/
def digestLensOk (m : List TWord) : Bool :=
  let n := valAt m 4
  decide (n ≤ 1048576) && (d2Final m || (decide (128 ≤ n) && n % 128 == 0)) &&
    (if d2Keyed m && d2Final m then decide (4 ≤ d2Expect m) else d2Expect m == 0)

/-- The message a digest request feeds (R394): a new one with OPEN, else the one open; none when its key is not one the scull's
function may use for HMAC. -/
def State.digestMsg (s : State) (k : Nat) (m : List TWord) (cur : Option Port2Msg) : Option Port2Msg :=
  let c := s.scull k
  if !d2Open m then cur
  else if !d2Keyed m then some { alg := d2Alg m, msg := [] }
  else (s.dgeKey .feeder (4 + valAt m 2 % 4096 * 32 + c.func * 2 ^ 32 + c.epoch.toNat * 2 ^ 48)).map (fun key =>
    { alg := d2Alg m, key := some key, msg := [] })

/-- What a finished message answers: the digest, or 1 for EQUAL and 0 for any other outcome. -/
def digestWords (m : List TWord) (x : Port2Msg) : List TWord :=
  match x.key with
  | none => (chunksOf 4 (digestOf x.alg x.msg)).map (fun b => mkWord 2 (leNat b))
  | some key =>
    let n := 4 * d2Expect m
    [mkWord 1 (flag (decide (16 ≤ n) && (padTo 64 (hmacOf x.alg key x.msg)).take n == (wordBytes m 6 (d2Expect m)).take n))]

/-- The message open on port 2 of a scull. -/
def State.setPort2 (s : State) (k : Nat) (x : Option Port2Msg) : State :=
  { s with dge := { s.dge with port2 := Mem.set none s.dge.port2 k x } }

/-- PORT2_DIGEST_REQUEST (R394). -/
def execPort2DigestRequest (k : Nat) (s : State) : Host.Outcome State Fault Refusal :=
  .next (match s.portFront k 2 with
    | none => s
    | some m =>
      let s1 := s.portPop k 2
      let cookie := valAt m 5
      let cur := Mem.get none s.dge.port2 k
      if !digestTagsOk m then s1.portRefuse k 2 cookie 0x05
      else if !digestLensOk m then s1.portRefuse k 2 cookie 0x04
      else if !d2Open m ∧ cur.isNone then s1.portRefuse k 2 cookie 0x07
      else match (s.scull k).place k (wordAt m 3) (valAt m 4) false with
        | .error e => s1.portRefuse k 2 cookie e
        | .ok p =>
          if p.space = 2 ∧ (s.splRead p.addr (valAt m 4)).isNone then
            (s1.splError (p.addr + s.splBadAt p.addr (valAt m 4))).portRefuseFree k 2 cookie
          else match s.placeBytes p (valAt m 4), s.digestMsg k m cur with
          | none, _ => s1.portRefuse k 2 cookie 0x05
          | _, none => s1.portRefuseFree k 2 cookie
          | some bs, some x =>
            if x.alg = 3 then s1.portRefuse k 2 cookie Config.reservedAlgCode.toNat
            else
              let y := { x with msg := x.msg ++ bs }
              if d2Final m then
                (s1.setPort2 k none).scullReply k 2 ([mkWord 1 cookie, mkWord 1 0] ++ digestWords m y)
              else (s1.setPort2 k (some y)).scullReply k 2 [mkWord 1 cookie, mkWord 1 0])

/-! ### Port 3 (R422) -/

/-- Tags and reserved bits of a compression request. -/
def cmpTagsOk (m : List TWord) : Bool :=
  tagIs m 1 1 && field (valAt m 1) 31 28 == 0 && tagIs m 2 4 && tagIs m 3 4 && [4, 5, 6, 7, 8].all (fun i => tagIs m i 1)

/-- RESUME. -/
def c3Resume (m : List TWord) : Bool := bit (valAt m 1) 4
/-- OP, 1 to decompress. -/
def c3Op (m : List TWord) : Nat := field (valAt m 1) 0 0
/-- DECL_LEN. -/
def c3Decl (m : List TWord) : Nat := valAt m 6 + valAt m 7 * 2 ^ 32

/-- The lengths of a compression request. -/
def cmpLensOk (m : List TWord) : Bool :=
  decide (valAt m 4 ≤ 1048576) && (c3Resume m || valAt m 4 != 0) && decide (1 ≤ valAt m 5 ∧ valAt m 5 ≤ 16777216)

/-- The header fields of R419 that a request stands for. -/
def c3Header (m : List TWord) : TfHeader :=
  let w := valAt m 1
  { n := c3Op m + field w 2 1 * 2 ^ 4 + flag (bit w 3) * 2 ^ 6 + field w 10 7 * 2 ^ 16 + field w 18 11 * 2 ^ 20 + flag (bit w 19) * 2 ^ 28 +
      valAt m 4 * 2 ^ 32 + c3Decl m * 2 ^ 64 }

/-- The context a scull holds on port 3. -/
def State.scullCtx (s : State) (k : Nat) : Option (Nat × CmpCtx) :=
  (s.cmp.ctxs.filterMap (fun e => e.2.map (fun c => (e.1, c)))).find? (fun e => e.2.scull == some k && e.2.func == (s.scull k).func)

/-- The checks of a compression request in order (R338, R383, R422). -/
def State.cmpPlaces (s : State) (k : Nat) (m : List TWord) : Except Nat (Place × Place) :=
  let c := s.scull k
  if !cmpTagsOk m then .error 0x05
  else if !s.ownsChannel c.func (field (valAt m 1) 27 20) then .error 0x01
  else if !cmpLensOk m then .error 0x04
  else match c.place k (wordAt m 2) (valAt m 4) false with
    | .error e => .error e
    | .ok src =>
      if src.space ≠ 2 then .error 0x06
      else match c.place k (wordAt m 3) (valAt m 5) true with
        | .error e => .error e
        | .ok dst =>
          if !c3Resume m then .ok (src, dst)
          else match s.scullCtx k with
            | none => .error 0x07
            | some x => if x.2.op = c3Op m ∧ field (valAt m 1) 2 1 = 0 ∧ field (valAt m 1) 19 7 = 0 ∧ c3Decl m = 0 then .ok (src, dst) else .error 0x0B

/-- The job a request runs: its context, whether it resumes one, and its first state. A scull that starts a new job gives up the context
it holds (log 61). -/
def State.c3Job (s : State) (k : Nat) (m : List TWord) : Option (Nat × Bool × CmpCtx) :=
  let c := s.scull k
  let w := valAt m 1
  match s.scullCtx k with
  | some (i, x) => if c3Resume m then some (i, true, x) else some (i, false, newCtx c w)
  | none => (s.freeCtx).map (fun i => (i, false, newCtx c w))
where
  /-- A new context. -/
  newCtx (c : Scull) (w : Nat) : CmpCtx :=
    { func := c.func, gen := c.gen, scull := some k, op := field w 0 0, format := field w 2 1, windowLog := field w 10 7
      depth := field w 18 11 + 1, lazy := bit w 19
      declLen := if field w 0 0 = 0 ∧ field w 2 1 = 3 ∧ c3Decl m = 0 then valAt m 4 else c3Decl m }

/-- The five words of a reply. -/
def c3Reply (m : List TWord) (result consumed produced : Nat) (fallback held : Bool) : List TWord :=
  [mkWord 1 (valAt m 8), mkWord 1 result, mkWord 1 consumed, mkWord 1 produced, mkWord 1 (flag fallback + 2 * flag held)]

/-- The output of a job in an SPL buffer (R415): with RETRACT, a job that ends in error leaves the fill. -/
def State.c3Spl (s : State) (addr : Nat) (out : Bytes) (keep : Bool) (fill : Byte) : State :=
  s.spaceWrite 0 2 addr (if keep then out else List.replicate out.length fill)

/-- Where the input of a request cannot be used, and why (R14, R26, R421): 6 an uncorrectable SPL word, 7 a unit whose tag does not
match; the result codes are log 55's. -/
def State.c3Bad (s : State) (addr len : Nat) (bad : Option TagFault) : Option (Nat × Nat) :=
  let e := s.splBadAt addr len
  match bad with
  | some b => if 4096 * b.unitNo < len ∧ 4096 * b.unitNo ≤ e then some (4096 * b.unitNo, 7) else if e < len then some (e, 6) else none
  | none => if e < len then some (e, 6) else none

/-- What a port's job whose input could not be used reports (R26, R27, R544). -/
def State.c3Report (s : State) (x : CmpCtx) (addr : Nat) (b : Nat × Nat) (bad : Option TagFault) : State :=
  match bad with
  | some f => if b.2 = 7 then s.reportTag f.component x.func 0 f.unitNo else s.splError (addr + b.1)
  | none => s.splError (addr + b.1)

/-- The step of a request: the state, the step, its result word, and whether its output stays. -/
def State.c3Step (s : State) (m : List TWord) (i : Nat) (resume : Bool) (x : CmpCtx) (addr : Nat) (verifyOk : Bool) (bad : Option TagFault) :
    State × CmpStep × Nat × Bool :=
  let w := valAt m 1
  let input := readBytes s.dmf.spl addr (valAt m 4)
  match (s.c3Bad addr (valAt m 4) bad).bind (fun b => (badStep x input (valAt m 5) b.1).map (fun r => (b, r))) with
  | some (b, r) => ((s.setHeld i none).c3Report x addr b bad, { r with hold := none, fallback := false }, (Config.cmpResultCode b.2).toNat, !bit w 5)
  | none =>
    let r := s.cmpRun i resume x input (bit w 3) (valAt m 5) verifyOk
    (r.1, r.2, r.2.result.word, (match r.2.result with | .done | .outputFull => true | _ => false) || !bit w 5)

/-- The output of a step goes to its destination and the reply to the scull; none while the channel takes no descriptor (R329, R383). -/
def State.c3Send (s : State) (k : Nat) (m : List TWord) (dst : Place) (out : Bytes) (keep : Bool) (reply : List TWord) : Option State :=
  let w := valAt m 1
  let ch := field w 27 20
  match (if out.isEmpty then some (.spl dst.addr) else s.route ch dst out.length) with
  | none => none
  | some (.spl a) => some ((if out.isEmpty then s else s.c3Spl a out keep (if bit w 6 then 0xDB else 0x00)).scullReply k 3 reply)
  | some (.job a d) =>
    let user := jobUser k (valAt m 8)
    let s1 := (s.spaceWrite 0 2 a out).startJob k ch user a d out.length (flag (bit w 6))
    some ((s1.jobVerdictFor ch user keep).replyAfterJob k user 3 reply)

/-- PORT3_COMPRESSION_REQUEST (R422). A job outside the ranges of R413 ends as an invalid entry (R421). -/
def execPort3CompressionRequest (k : Nat) (verifyOk : Bool) (s : State) (bad : Option TagFault := none) : Host.Outcome State Fault Refusal :=
  .next (match s.portFront k 3 with
    | none => s
    | some m =>
      match s.cmpPlaces k m with
      | .error e => (s.portPop k 3).portRefuse k 3 (valAt m 8) e
      | .ok (src, dst) =>
        if !c3Resume m ∧ !tfStartOk (c3Header m) then
          (s.portPop k 3).scullReply k 3 (c3Reply m (Config.cmpResultCode 5).toNat 0 0 false false)
        else match s.c3Job k m with
          | none => s
          | some (i, resume, x) =>
            let r := (if resume then s else s.setHeld i none).c3Step m i resume x src.addr verifyOk (faultOf bad)
            let reply := c3Reply m r.2.2.1 r.2.1.consumed r.2.1.out.length r.2.1.fallback r.2.1.hold.isSome
            (((r.1.trimStages k).portPop k 3).c3Send k m dst r.2.1.out r.2.2.2 reply).getD s)

/-! ### Port 4 (R447) -/

/-- An update. -/
def p4Update (m : List TWord) : Bool := m.length == 24

/-- The 288-bit field in nine BYTES words. -/
def bits288 (m : List TWord) (first : Nat) : BitVec 288 := BitVec.ofNat 288 (leNat (wordBytes m first 9))

/-- The reply to a search: refused where the unit failed, else MATCH_TOTAL, and ENTRY with the associated word of each match
returned (R447). -/
def State.port4Reply (s : State) (k cookie max : Nat) (failed : Option State) (ms : List (Nat × Row)) : State :=
  match failed with
  | some s1 => s1.portRefuseFree k 4 cookie
  | none => s.scullReply k 4 ([mkWord 1 cookie, mkWord 1 0, mkWord 1 ms.length] ++ ((ms.take max).map (fun e =>
      [mkWord 1 e.1, mkWord 2 e.2.assoc.toNat, mkWord 2 (e.2.assoc.toNat / 2 ^ 32)])).flatten)

/-- A search of table `t` for a program (R447). -/
def State.port4Find (s : State) (k cookie : Nat) (t : Table) (q : Search) (fault : AsuFault) : State :=
  if t.deleting.isSome then s.portRefuse k 4 cookie 0x08
  else if 2 ^ t.bits ≤ q.key.toNat then s.portRefuse k 4 cookie 0x0A
  else if s.tableDown t then s.portRefuseFree k 4 cookie
  else s.port4Reply k cookie q.max (s.asuFault t fault (((s.matches t q).take q.max).map (·.1))) (s.matches t q)

/-- PORT4_SEARCH (R447): the cookie, the status, MATCH_TOTAL, and ENTRY with the associated word of each match returned. -/
def execPort4Search (k : Nat) (fault : AsuFault) (s : State) : Host.Outcome State Fault Refusal :=
  .next (match s.portFront k 4 with
    | none => s
    | some m =>
      if p4Update m then s
      else
        let s1 := s.portPop k 4
        let cookie := valAt m 11
        let w := valAt m 1
        if !tagIs m 1 1 ∨ !tagIs m 11 1 ∨ !(List.range 9).all (fun i => tagIs m (2 + i) 2) then s1.portRefuse k 4 cookie 0x05
        else match s.table (s.scull k).func (field w 15 0) with
          | none => s1.portRefuse k 4 cookie 0x08
          | some t =>
            s1.port4Find k cookie t { tag := BitVec.ofNat 8 (field w 25 18), allTags := bit w 17, max := field w 31 26 + 1, key := bits288 m 2 } fault)

/-- PORT4_UPDATE (R443, R447); a row of the entry that fails parity fails the write (R448). -/
def execPort4Update (k : Nat) (s : State) (fault : AsuFault := .none) : Host.Outcome State Fault Refusal :=
  .next (match s.portFront k 4 with
    | none => s
    | some m =>
      if !p4Update m then s
      else
        let s1 := s.portPop k 4
        let cookie := valAt m 24
        let w := valAt m 1
        let key := bits288 m 4
        let mask := bits288 m 13
        if !tagIs m 1 1 ∨ field w 31 26 ≠ 0 ∨ !tagIs m 2 1 ∨ !tagIs m 3 1 ∨ 4096 ≤ valAt m 3 ∨ !tagIs m 24 1 ∨
            !(List.range 20).all (fun i => tagIs m (4 + i) 2) then s1.portRefuse k 4 cookie 0x05
        else match s.table (s.scull k).func (field w 15 0) with
          | none => s1.portRefuse k 4 cookie 0x08
          | some t =>
            if t.deleting.isSome then s1.portRefuse k 4 cookie 0x08
            else if t.capacity ≤ valAt m 2 then s1.portRefuse k 4 cookie 0x09
            else if !bit w 17 ∧ !keyFits t key mask then s1.portRefuse k 4 cookie 0x0A
            else if s.tableDown t then s1.portRefuseFree k 4 cookie
            else
              let r : Option Row := if bit w 17 then none
                else some { key := key, mask := mask, prefilter := BitVec.ofNat 8 (field w 25 18), priority := valAt m 3
                            assoc := BitVec.ofNat 64 (leNat (wordBytes m 22 2)) }
              match s1.rowFault t fault [valAt m 2] with
              | some s2 => s2.portRefuseFree k 4 cookie
              | none => (s1.setRow t (valAt m 2) r).scullReply k 4 [mkWord 1 cookie, mkWord 1 0])

end Sys2Proof.Machine
end

