-- ==== Sys2Proof/Machine/Registers.lean ====
section
/-! DEFINITION. The registers: where the BARs hold them, what a read of each returns, and the writes of those that have no row of their
own (R8, R9, R124, R126, R127, R197, R198, R327, R344, R380, R385). -/

namespace Sys2Proof.Machine

/-! ### Where the registers lie (R126, R197) -/

/-- The size of a BAR of a function; none where there is no such BAR (R126). -/
def barSize : Nat → Option Nat
  | 0 | 2 => some 16384
  | 4 => some 65536
  | _ => none

/-- The BAR of a register and its byte offset there (R126, R197; the controller registers as NVM Express places them, log 95). -/
def regPlace : Reg → Option (Nat × Nat)
  | .cap _ => some (0, 0x00) | .vs _ => some (0, 0x08) | .csts _ => some (0, 0x1C)
  | .aqa _ => some (0, 0x24) | .asq _ => some (0, 0x28) | .acq _ => some (0, 0x30)
  | .mbRequest _ off => some (2, off) | .mbResponse _ off => some (2, 0x1000 + off)
  | .mbStatus _ => some (2, 0x2004) | .mbIrq _ => some (2, 0x2008) | .mbReserved _ off => some (2, 0x200C + off)
  | .msixTable _ index dword => some (4, 16 * index + 4 * dword) | .msixPba _ index => some (4, 0x8000 + 8 * index)
  | _ => none

/-- The BAR 0 offset of a doorbell of queue `q` (R127 CAP.DSTRD 0; NVM Express). -/
def doorbellAt (q : Nat) (cq : Bool) : Nat := 0x1000 + 4 * (2 * q + flag cq)

/-- The BARs of function `f` answer: its port's link has trained, the HIF is out of reset and the function in D0 (R17, R124, R126,
R205). -/
def State.barOpen (s : State) (f : Nat) : Bool :=
  s.psm.mode.live && (s.fn f).present && Mem.get false s.hif.link (s.portOf f) && !s.hostGone f

/-- Configuration requests of function `f` are answered, in D3hot too (R17, R124; PCI Express, log 95). -/
def State.cfgOpen (s : State) (f : Nat) : Bool :=
  s.psm.mode.live && (s.fn f).present && Mem.get false s.hif.link (s.portOf f) && !s.noRefclk f

/-! ### What reads return -/

/-- CAP (R127; the command set bit is PRESUMED NVM Express, log 95). -/
def capReg (f : Nat) : Nat :=
  0xFFFF + 2 ^ 16 + 2 ^ 17 + 0x04 * 2 ^ 24 + flag (decide (f ≤ 1)) * 2 ^ 36 + 2 ^ 37 + 4 * 2 ^ 52

/-- CSTS: RDY, CFS in SAFE-HALT and what is held from it, PP while commands wait for an activation or for MAINTENANCE (R151, R152,
R154, R540, R546). -/
def State.cstsReg (s : State) (f : Nat) : Nat :=
  flag (s.fn f).rdy + flag (s.psm.mode == .safeHalt || s.psm.heldFromHalt) * 2 +
    flag (s.hif.fetchStopped || s.psm.mode == .maintenance) * 2 ^ 5

/-- STATE of CXP_MB_STATUS (R198). -/
def MbState.code : MbState → Nat
  | .idle => 0 | .busy => 1 | .done => 2

/-- CXP_MB_STATUS (R198). -/
def Mbox.statusReg (m : Mbox) : Nat := m.state.code + flag m.ignored * 4 + m.lastSeq.toNat * 2 ^ 16

/-- CXP_MB_IRQ (R198). -/
def Mbox.irqReg (m : Mbox) : Nat := flag m.irqEn + m.irqVector % 2048 * 2

/-- A byte of the mailbox window (R8, R197, R198): the header of a request is write-only, the doorbell too, and reserved offsets read
0 (the payload of a request reads back, log 112). -/
def Mbox.windowByte (m : Mbox) (off : Nat) : Byte :=
  if off < 16 then 0
  else if off < 0x1000 then Mem.get 0 m.req off
  else if off < 0x2000 then nth 0 m.resp (off - 0x1000)
  else if off < 0x2004 then 0
  else if off < 0x2008 then byteOf (m.statusReg / 256 ^ (off - 0x2004))
  else if off < 0x200C then byteOf (m.irqReg / 256 ^ (off - 0x2008))
  else 0

/-- `n` bytes of the mailbox window from an offset. -/
def Mbox.window (m : Mbox) (off n : Nat) : Nat := leNat ((List.range n).map (fun i => m.windowByte (off + i)))

/-- STATE of DMF_CH_STATE (R327). -/
def ChState.code : ChState → Nat
  | .idle => 0 | .ready => 1 | .active => 2 | .parked => 3 | .halted => 4

/-- DMF_CH_STATE (R327). -/
def DmaCh.stateReg (c : DmaCh) : Nat :=
  c.state.code + flag c.pend * 8 + flag c.curSpl * 16 + flag c.jobOpen * 32 + c.cur / 64 * 64

/-- AU_REQ_CFG, which reads as its shadow (R8, R344). -/
def AuReq.cfgReg (r : AuReq) : Nat := r.shadowCls % 4 + r.shadowLimit % 4096 * 16

/-- A transfer of an arbitration unit is in progress (R317, R344): on a DMA engine's instance while a channel of the engine is ACTIVE;
elsewhere no row shows a transfer's end, and the grant is held until the next round (log 118). -/
def State.auHeld (s : State) (inst : Nat) : Bool :=
  if inst ≤ 7 then (List.range 32).any (fun k => (s.ch (32 * inst + k)).state == .active) else (s.au inst).held

/-- AU_STATE (R344). -/
def State.auStateReg (s : State) (inst : Nat) : Nat :=
  let a := s.au inst
  a.owner % 64 + flag a.parked * 64 + flag (s.auHeld inst) * 128

/-- Eight bytes of a context window (R385): write-only and reserved registers read 0. -/
def DgeCtx.window (x : DgeCtx) (off : Nat) : Nat :=
  if off = 0x00 then x.cfg.toNat
  else if off = 0x20 then x.status.toNat
  else if 0x80 ≤ off ∧ off < 0xC0 then leNat (slice (padTo 64 x.result) (off - 0x80) 8)
  else 0

/-- CPE_PG_STATUS (R380). -/
def Page.statusReg (x : Page) : Nat := (if x.busy then 1 else flag x.done * 2) + x.result * 256

/-- A register of a privileged page at an offset (R380): CPE_PG_ENTRY, CPE_PG_GO and the page keys read 0. -/
def Page.window (x : Page) (off : Nat) : Nat :=
  if off = 0x044 then x.statusReg
  else if 0x080 ≤ off ∧ off < 0x0C0 then (nth 0 x.completion ((off - 0x080) / 8)).toNat
  else 0

/-- A register of a privileged page as a bus identity reads it (R381): any other than the owner's, and page 0 after BOOT, reads 0. -/
def State.pageRead (s : State) (page identity off : Nat) : Nat :=
  if 4 ≤ page ∨ identity ≠ page ∨ (page = 0 ∧ s.cpe.page0Closed) then 0 else (Mem.get {} s.cpe.pages page).window off

/-- Sixty-four pending bits (R126). -/
def Fn.pendBits (x : Fn) (index : Nat) : Nat :=
  ((List.range 64).map (fun i => flag (x.msixPend.contains (64 * index + i)) * 2 ^ i)).foldl (· + ·) 0

/-- What a read of a register returns (R8): the current value of RO, RW and W1C fields, and 0 of WO and RSV fields. -/
def State.regRead (s : State) : Reg → Nat
  | .mbRequest f off => (s.mb f).window off 8
  | .mbResponse f off => (s.mb f).window (0x1000 + off) 8
  | .mbStatus f => (s.mb f).statusReg
  | .mbIrq f => (s.mb f).irqReg
  | .mbReserved f off => (s.mb f).window (0x200C + off) 4
  | .msixTable f index dword => if s.msixCount f ≤ index ∨ 3 < dword then 0 else ((s.fn f).msixDword (4 * index + dword)).toNat
  | .msixPba f index => (s.fn f).pendBits index
  | .aqa f => (s.fn f).aqa.toNat
  | .asq f => (s.fn f).asq.toNat
  | .acq f => (s.fn f).acq.toNat
  | .cap f => capReg f
  | .vs _ => 0x00020000
  | .csts f => s.cstsReg f
  | .devControl f => (s.fn f).devControl.toNat
  | .powerState f => if (s.fn f).d3hot then 3 else 0
  | .aerStatus port => (Mem.get 0 s.hif.aerStatus port).toNat
  | .aerHeader port dword => field (Mem.get 0 s.hif.aerHeader port).toNat (32 * dword + 31) (32 * dword)
  | .dmfHead ch => (s.ch ch).head.toNat
  | .dmfState ch => (s.ch ch).stateReg
  | .auReqCfg inst req => (nth {} (s.au inst).reqs req).cfgReg
  | .auState inst => s.auStateReg inst
  | .dgeExpect _ _ => 0
  | .dgeStatus ctx => (s.ctx ctx).window 0x20
  | .dgeResult ctx index => (s.ctx ctx).window (0x80 + 8 * index)
  | .pgEntry page index identity => s.pageRead page identity (8 * index)
  | .pgStatus page identity => s.pageRead page identity 0x044
  | .pgCompletion page index identity => s.pageRead page identity (0x080 + 8 * index)

/-! ### Writes -/

/-- CXP_MB_IRQ (R198). -/
def State.writeMbIrq (s : State) (f v : Nat) : State :=
  s.updMb f (fun m => { m with irqEn := bit v 0, irqVector := field v 11 1 })

/-- Eight bytes of the request buffer, cut at its end (R197). -/
def State.writeMbRequest (s : State) (f off v : Nat) : State :=
  s.updMb f (fun m => { m with req := writeBytes m.req off ((leBytes 8 v).take (4096 - off)) })

/-- A dword of the MSI-X table of a vector the function has; of the vector control only the mask bit is stored. A vector that is
unmasked while pending sends its message (R126; PCI Express, log 68). -/
def State.writeMsix (s : State) (f index dword v : Nat) : State :=
  if s.msixCount f ≤ index ∨ 3 < dword then s
  else
    let w : BitVec 32 := if dword = 3 then BitVec.ofNat 32 (v % 2) ^^^ 1 else BitVec.ofNat 32 v
    let s1 := s.updFn f (fun x => { x with msix := Mem.set 0 x.msix (4 * index + dword) w })
    if dword = 3 ∧ v % 2 = 0 ∧ (s.fn f).msixPend.contains index then
      (s1.updFn f (fun x => { x with msixPend := x.msixPend.filter (fun p => p != index) })).msix f index
    else s1

/-- The shadow of AU_REQ_CFG (R343, R344). -/
def State.writeAuCfg (s : State) (inst req v : Nat) : State :=
  if 90 < inst ∨ auCount inst ≤ req then s
  else
    let a := s.au inst
    let put := fun (r : AuReq) => { r with shadowCls := field v 1 0, shadowLimit := field v 15 4 }
    s.setAu inst { a with reqs := a.reqs.modify req put }

/-- A word of DGE_CTX_EXPECT of an open message (R388, R389); another context keeps nothing of it (log 53). -/
def State.writeExpect (s : State) (ctx index : Nat) (w : BitVec 64) : State :=
  let x := s.ctx ctx
  if 1024 ≤ ctx ∨ 7 < index ∨ x.state ≠ .opened ∨ !s.dgeServes then s
  else s.setCtx ctx { x with expectSet := true, expect := Mem.set 0 x.expect index w }

/-- The bits of DMF_CH_HEAD that hold something: ADDR, LINK_SPL and EOC (R9, R324, R327). -/
def headMask : BitVec 64 := 0xFFFFFFFFFFFFFFC3

/-- Device Control as it is kept (R124): a payload size above 512 bytes and a read request size above 4,096 are not taken; bit 15, which
starts a Function Level Reset, reads 0. -/
def newDevControl (old v : Nat) : BitVec 16 :=
  let mps := if field v 7 5 ≤ 2 then field v 7 5 else field old 7 5
  let mrrs := if field v 14 12 ≤ 5 then field v 14 12 else field old 14 12
  BitVec.ofNat 16 (field v 4 0 + mps * 2 ^ 5 + field v 11 8 * 2 ^ 8 + mrrs * 2 ^ 12)

/-- The power state of function `f` as software writes it (R124): 0 is D0 and 3 D3hot; the others are not supported. -/
def State.writePower (s : State) (f v : Nat) : State :=
  match v % 4 with
  | 0 => s.updFn f (fun x => { x with d3hot := false })
  | 3 => s.updFn f (fun x => { x with d3hot := true })
  | _ => s

/-- A BAR register takes a write (R8, R9): a read-only register and a reserved place discard it. -/
def State.writeBar (s : State) (r : Reg) (v : Nat) : State :=
  match r with
  | .mbRequest f off => if off < 4096 then s.writeMbRequest f off v else s
  | .mbStatus f => if bit v 2 then s.updMb f (fun m => { m with ignored := false }) else s
  | .mbIrq f => s.writeMbIrq f v
  | .msixTable f index dword => s.writeMsix f index dword v
  | .aqa f => s.updFn f (fun x => { x with aqa := BitVec.ofNat 32 v &&& 0x0FFF0FFF })
  | .asq f => s.updFn f (fun x => { x with asq := BitVec.ofNat 64 (v / 4096 * 4096) })
  | .acq f => s.updFn f (fun x => { x with acq := BitVec.ofNat 64 (v / 4096 * 4096) })
  | _ => s

/-- A configuration register takes a write (R8, R124). -/
def State.writeCfg (s : State) (r : Reg) (v : Nat) : State :=
  match r with
  | .devControl f => s.updFn f (fun x => { x with devControl := newDevControl x.devControl.toNat v })
  | .powerState f => s.writePower f v
  | .aerStatus port => { s with hif := { s.hif with aerStatus := Mem.upd 0 s.hif.aerStatus port (· &&& ~~~BitVec.ofNat 32 v) } }
  | _ => s

/-- A BAR write of function `f` where its BARs answer, a wake event in REST (R126, R205, R539). -/
def State.barWrite (s : State) (f : Nat) (r : Reg) (v : Nat) : State := if s.barOpen f then (s.writeBar r v).wake else s

/-- A configuration write of function `f`, for which its port has left L1 (R124, R539). -/
def State.cfgWrite (s : State) (f : Nat) (r : Reg) (v : Nat) : State := if s.cfgOpen f then (s.writeCfg r v).wake else s

/-- REGISTER_WRITE (R8, R9): a read-only register and a reserved place discard the write; a privileged page answers its owner only
(R381). -/
def execRegisterWrite (r : Reg) (value : BitVec 64) (s : State) : Host.Outcome State Fault Refusal :=
  let v := value.toNat
  .next (match r with
    | .mbRequest f _ | .mbResponse f _ | .mbStatus f | .mbIrq f | .mbReserved f _ | .msixTable f _ _ | .msixPba f _ | .aqa f | .asq f
    | .acq f | .cap f | .vs f | .csts f => s.barWrite f r v
    | .devControl f | .powerState f => s.cfgWrite f r v
    | .aerStatus port | .aerHeader port _ => s.cfgWrite port r v
    | .dmfHead ch => if ch < 256 ∧ s.psm.mode.live then s.setCh ch { s.ch ch with head := value &&& headMask } else s
    | .dmfState _ | .auState _ => s
    | .auReqCfg inst req => if s.psm.mode.live then s.writeAuCfg inst req v else s
    | .dgeExpect ctx index => s.writeExpect ctx index value
    | .dgeStatus _ | .dgeResult _ _ => s
    | .pgEntry page index identity => s.pageAccess page identity (8 * index) (fun s =>
        if 7 < index then s else s.updPage page (fun x => { x with entry := Mem.set 0 x.entry index value }))
    | .pgStatus page identity => s.pageAccess page identity 0x044 id
    | .pgCompletion page index identity => s.pageAccess page identity (0x080 + 8 * index) id)

end Sys2Proof.Machine
end

