-- ==== Sys2Proof/Machine/Tap.lean ====
section
/-! DEFINITION. The test access port (R604, R617, R629; IEEE 1149.1). It is powered from the always-on domain. -/

namespace Sys2Proof.Machine

/-- The low `n` bits of a number, least significant first, as a data register shifts them. -/
def scanBits (n v : Nat) : List Bool := (List.range n).map (fun i => v.testBit i)

/-- IDCODE (R617): version 0x1, part 0x0960, manufacturer 0x6A5, with bit 0 set. -/
def idcodeWord : Nat := 0x10960D4B

/-- An instruction in force with its data register as captured; in OFF the port has no power. -/
def State.tapLoad (s : State) (ir : BitVec 8) (dr boundary : List Bool) : State :=
  if s.psm.mode = .off then s else { s with tap := { ir := ir, dr := dr, boundary := boundary } }

/-- BYPASS: one bit, captured 0. -/
def State.tapBypass (s : State) : State := s.tapLoad 0xFF [false] s.tap.boundary

/-- EXTEST (R617): the boundary register drives the balls; BYPASS while TEST_EN was sampled low. -/
def execExtest (s : State) : Host.Outcome State Fault Refusal :=
  .next (if s.psm.pins.testEn then s.tapLoad 0x00 s.tap.boundary s.tap.boundary else s.tapBypass)

/-- IDCODE (R617). -/
def execIdcode (s : State) : Host.Outcome State Fault Refusal := .next (s.tapLoad 0x01 (scanBits 32 idcodeWord) s.tap.boundary)

/-- SAMPLE/PRELOAD (R617): `cells` is what is sampled and what is preloaded. -/
def execSamplePreload (cells : List Bool) (s : State) : Host.Outcome State Fault Refusal := .next (s.tapLoad 0x02 cells cells)

/-- HIGHZ (R617): the bypass register is selected. -/
def execHighz (s : State) : Host.Outcome State Fault Refusal :=
  .next (if s.psm.pins.testEn then s.tapLoad 0x08 [false] s.tap.boundary else s.tapBypass)

/-- CLAMP (R617): the bypass register is selected, and the boundary register drives the balls. -/
def execClamp (s : State) : Host.Outcome State Fault Refusal :=
  .next (if s.psm.pins.testEn then s.tapLoad 0x09 [false] s.tap.boundary else s.tapBypass)

/-- BYPASS, and every value that is no instruction (R617). -/
def execBypass (s : State) : Host.Outcome State Fault Refusal := .next s.tapBypass

/-- TRST_N low (R604): the port is reset, with IDCODE in force (IEEE 1149.1). -/
def execTrstN (s : State) : Host.Outcome State Fault Refusal := .next (s.tapLoad 0x01 [] s.tap.boundary)

end Sys2Proof.Machine
end

