-- ==== Sys2Proof/Machine/Thermal.lean ====
section
/-! DEFINITION. The thermal unit (R621 to R623, R627). Temperatures are in kelvin: t °C is t + 273. -/

namespace Sys2Proof.Machine

/-- The throttle level at a composite temperature (R622). -/
def throttleLevel (old k : Nat) : Nat :=
  if 377 ≤ k then 2
  else if old = 2 ∧ 374 < k then 2
  else if 373 ≤ k then 1
  else if old ≠ 0 ∧ 370 < k then 1
  else 0

/-- The first sensor that reads the composite temperature. -/
def hottest (l : List Nat) : Nat := (l.findIdx? (fun x => x == l.foldl Nat.max 0)).getD 0

/-- Critical warning bit 1 of a function follows its thresholds; a bit that is set reports a SMART/Health event, temperature
(R621; NVM Express, log 12). -/
def State.warnTemp (s : State) (f : Nat) : State :=
  let out := s.tempOut f
  let s1 := s.updFn f (fun x => { x with tempWarn := out })
  if out && !(s.fn f).tempWarn then s1.asyncEvent f (BitVec.ofNat 32 (1 + 1 * 2 ^ 8 + 0x02 * 2 ^ 16)) else s1

/-- THERMAL_CRITICAL when the composite first reaches CCTEMP, and every 60 s while it stays there (R623); samples come every 100 ms. -/
def State.thermalCritical (s : State) : State :=
  if s.composite < 378 then { s with therm := { s.therm with critical := 0 } }
  else
    let n := s.therm.critical
    let s1 := { s with therm := { s.therm with critical := n + 1 } }
    if n % 600 = 0 then s1.raise evThermalCritical 255 [(2, s.composite), (4, n / 10), (1, 1)] else s1

/-- The throttle level follows the composite (R622). -/
def State.throttle (s : State) : State :=
  let l := throttleLevel s.therm.level s.composite
  if l = s.therm.level then s
  else { s with therm := { s.therm with level := l } }.raise evThermalThrottle 255
    [(1, l), (2, s.composite), (1, hottest s.therm.sensors)]

/-- Thermal shutdown at 115 °C (R537, R623): a drain on the main supply. -/
def State.thermalShutdown (s : State) : State :=
  if s.composite < 388 ∨ !s.psm.mode.live then s
  else
    let s1 := s.raise evThermalCritical 255 [(2, s.composite), (4, (s.therm.critical - 1) / 10), (1, 2)]
    { s1 with psm := { s1.psm with thermalHold := true } }.supplyWarning evThermalCritical.code

/-- THERMAL_SAMPLE (R621 to R623): eight sensors; in HOLD only sensor 0, which lies in the always-on domain. -/
def execThermalSample (kelvin : List Nat) (s : State) : Host.Outcome State Fault Refusal :=
  .next (match s.psm.mode with
    | .off => s
    | .hold => { s with therm := { s.therm with sensors := s.therm.sensors.set 0 (nth (nth 0 s.therm.sensors 0) kelvin 0) } }
    | _ =>
      if kelvin.length ≠ 8 then s
      else
        let s1 := ({ s with therm := { s.therm with sensors := kelvin } }).throttle.thermalCritical
        (s1.present.foldl State.warnTemp s1).thermalShutdown)

end Sys2Proof.Machine
end

