-- ==== Sys2Proof/Machine/Dispatch.lean ====
section
/-! DEFINITION. The dispatch of a command to its meaning: one arm per constructor of `Instr`. -/

namespace Sys2Proof.Machine

/-- The effect of a command on the state whose queue is the rest of the waiting commands. -/
def exec (i : Instr) (s : State) : Host.Outcome State Fault Refusal :=
  match i with
  | .sqTailDoorbell f qid tail => Sys2Proof.Machine.execSqTailDoorbell f qid tail s
  | .cqHeadDoorbell f qid head => Sys2Proof.Machine.execCqHeadDoorbell f qid head s
  | .fetchDecision reads => Sys2Proof.Machine.execFetchDecision reads s
  | .acceptance => Sys2Proof.Machine.execAcceptance s
  | .completionPost id => Sys2Proof.Machine.execCompletionPost id s
  | .write id data bad => Sys2Proof.Machine.execWrite id data s bad
  | .granuleCommit id g => Sys2Proof.Machine.execGranuleCommit id g s
  | .read id => Sys2Proof.Machine.execRead id s
  | .writeZeroes id => Sys2Proof.Machine.execWriteZeroes id s
  | .compare id data => Sys2Proof.Machine.execCompare id data s
  | .verify id => Sys2Proof.Machine.execVerify id s
  | .flush id => Sys2Proof.Machine.execFlush id s
  | .datasetManagement id ranges => Sys2Proof.Machine.execDatasetManagement id ranges s
  | .abort id => Sys2Proof.Machine.execAbort id s
  | .formatNvm id => Sys2Proof.Machine.execFormatNvm id s
  | .sanitize id => Sys2Proof.Machine.execSanitize id s
  | .namespaceCreate id d => Sys2Proof.Machine.execNamespaceCreate id d s
  | .namespaceDelete id => Sys2Proof.Machine.execNamespaceDelete id s
  | .namespaceAttach id ctrls => Sys2Proof.Machine.execNamespaceAttach id ctrls s
  | .namespaceDetach id ctrls => Sys2Proof.Machine.execNamespaceDetach id ctrls s
  | .createIoSq id => Sys2Proof.Machine.execCreateIoSq id s
  | .createIoCq id => Sys2Proof.Machine.execCreateIoCq id s
  | .deleteIoSq id => Sys2Proof.Machine.execDeleteIoSq id s
  | .deleteIoCq id => Sys2Proof.Machine.execDeleteIoCq id s
  | .identify id => Sys2Proof.Machine.execIdentify id s
  | .getLogPage id => Sys2Proof.Machine.execGetLogPage id s
  | .getFeatures id => Sys2Proof.Machine.execGetFeatures id s
  | .setFeaturesVolatileWriteCache id => Sys2Proof.Machine.execSetFeaturesVolatileWriteCache id s
  | .setFeaturesNumberOfQueues id => Sys2Proof.Machine.execSetFeaturesNumberOfQueues id s
  | .setFeaturesTimestamp id wallMs tick => Sys2Proof.Machine.execSetFeaturesTimestamp id wallMs tick s
  | .setFeaturesTemperatureThreshold id => Sys2Proof.Machine.execSetFeaturesTemperatureThreshold id s
  | .asynchronousEventRequest id => Sys2Proof.Machine.execAsynchronousEventRequest id s
  | .deviceSelfTest id => Sys2Proof.Machine.execDeviceSelfTest id s
  | .virtualizationManagement id => Sys2Proof.Machine.execVirtualizationManagement id s
  | .nvmeMiSend id msg => Sys2Proof.Machine.execNvmeMiSend id msg s
  | .nvmeMiReceive id => Sys2Proof.Machine.execNvmeMiReceive id s
  | .reservationRegister id crkey nrkey => Sys2Proof.Machine.execReservationRegister id crkey nrkey s
  | .reservationReport id => Sys2Proof.Machine.execReservationReport id s
  | .reservationAcquire id crkey prkey => Sys2Proof.Machine.execReservationAcquire id crkey prkey s
  | .reservationRelease id crkey => Sys2Proof.Machine.execReservationRelease id crkey s
  | .firmwareImageDownload id data => Sys2Proof.Machine.execFirmwareImageDownload id data s
  | .firmwareCommit id => Sys2Proof.Machine.execFirmwareCommit id s
  | .firmwareCommitActivate id => Sys2Proof.Machine.execFirmwareCommitActivate id s
  | .fwActivation failed ms => Sys2Proof.Machine.execFwActivation failed ms s
  | .mailboxSend id data => Sys2Proof.Machine.execMailboxSend id data s
  | .mailboxReceive id => Sys2Proof.Machine.execMailboxReceive id s
  | .ccEnClear f => Sys2Proof.Machine.execCcEnClear f s
  | .ccEnSet f ams => Sys2Proof.Machine.execCcEnSet f ams s
  | .nvmSubsystemReset f => Sys2Proof.Machine.execNvmSubsystemReset f s
  | .functionLevelReset f => Sys2Proof.Machine.execFunctionLevelReset f s
  | .generationAdvance f waitedUs => Sys2Proof.Machine.execGenerationAdvance f waitedUs s
  | .vfDisable pf => Sys2Proof.Machine.execVfDisable pf s
  | .pciePerstAssert port => Sys2Proof.Machine.execPciePerstAssert port s
  | .linkTraining port width speed => Sys2Proof.Machine.execLinkTraining port width speed s
  | .pcieUncorrectable port status header => Sys2Proof.Machine.execPcieUncorrectable port status header s
  | .hostRefclkLost port => Sys2Proof.Machine.execHostRefclkLost port s
  | .essenceAppend id data bad => Sys2Proof.Machine.execEssenceAppend id data s bad
  | .sampleIndexLoad id data => Sys2Proof.Machine.execSampleIndexLoad id data s
  | .objectSeal id => Sys2Proof.Machine.execObjectSeal id s
  | .objectQuery id => Sys2Proof.Machine.execObjectQuery id s
  | .objectDelete id => Sys2Proof.Machine.execObjectDelete id s
  | .chunkRefsRelease nsid oid => Sys2Proof.Machine.execChunkRefsRelease nsid oid s
  | .chunkFingerprint nsid oid n => Sys2Proof.Machine.execChunkFingerprint nsid oid n s
  | .verifyCompare nsid oid n readOk => Sys2Proof.Machine.execVerifyCompare nsid oid n readOk s
  | .viewReadFragment id fault => Sys2Proof.Machine.execViewReadFragment id fault s
  | .viewReadInitSegment id fault => Sys2Proof.Machine.execViewReadInitSegment id fault s
  | .viewReadByteRange id fault => Sys2Proof.Machine.execViewReadByteRange id fault s
  | .viewSizeFragment id => Sys2Proof.Machine.execViewSizeFragment id s
  | .viewSizeInitSegment id => Sys2Proof.Machine.execViewSizeInitSegment id s
  | .viewSizeByteRange id => Sys2Proof.Machine.execViewSizeByteRange id s
  | .hookRequest id => Sys2Proof.Machine.execHookRequest id s
  | .hookReply id => Sys2Proof.Machine.execHookReply id s
  | .profileVersionFree f kind num ver => Sys2Proof.Machine.execProfileVersionFree f kind num ver s
  | .mailboxRing f => Sys2Proof.Machine.execMailboxRing f s
  | .mailboxResponse f => Sys2Proof.Machine.execMailboxResponse f s
  | .nonceExpire f => Sys2Proof.Machine.execNonceExpire f s
  | .mbIdStatus f => Sys2Proof.Machine.execMbIdStatus f s
  | .mbFwStatus f => Sys2Proof.Machine.execMbFwStatus f s
  | .mbEcho f => Sys2Proof.Machine.execMbEcho f s
  | .mbConfigStatus f => Sys2Proof.Machine.execMbConfigStatus f s
  | .mbConfigStage f => Sys2Proof.Machine.execMbConfigStage f s
  | .mbConfigRead f => Sys2Proof.Machine.execMbConfigRead f s
  | .mbConfigCommit f => Sys2Proof.Machine.execMbConfigCommit f s
  | .configCommitApply chans => Sys2Proof.Machine.execConfigCommitApply s chans
  | .mbConfigConfirm f => Sys2Proof.Machine.execMbConfigConfirm f s
  | .mbConfigRollback f => Sys2Proof.Machine.execMbConfigRollback f s
  | .mbConfigFactory f => Sys2Proof.Machine.execMbConfigFactory f s
  | .trialExpire => Sys2Proof.Machine.execTrialExpire s
  | .mbTenantStatus f => Sys2Proof.Machine.execMbTenantStatus f s
  | .mbTenantRate f => Sys2Proof.Machine.execMbTenantRate f s
  | .tokenTick => Sys2Proof.Machine.execTokenTick s
  | .mbMigDirtyStart f => Sys2Proof.Machine.execMbMigDirtyStart f s
  | .mbMigDirtyHarvest f => Sys2Proof.Machine.execMbMigDirtyHarvest f s
  | .mbMigDirtyStop f => Sys2Proof.Machine.execMbMigDirtyStop f s
  | .mbMigQuiesce f => Sys2Proof.Machine.execMbMigQuiesce f s
  | .mbMigResume f => Sys2Proof.Machine.execMbMigResume f s
  | .mbMigSave f => Sys2Proof.Machine.execMbMigSave f s
  | .mbMigRestore f => Sys2Proof.Machine.execMbMigRestore f s
  | .mbKeyImport f => Sys2Proof.Machine.execMbKeyImport f s
  | .mbKeyErase f => Sys2Proof.Machine.execMbKeyErase f s
  | .mbKeyStatus f => Sys2Proof.Machine.execMbKeyStatus f s
  | .mbKekImport f => Sys2Proof.Machine.execMbKekImport f s
  | .keySlotSettle slot => Sys2Proof.Machine.execKeySlotSettle slot s
  | .mbProfileLoadPackaging f => Sys2Proof.Machine.execMbProfileLoadPackaging f s
  | .mbProfileLoadEncryption f => Sys2Proof.Machine.execMbProfileLoadEncryption f s
  | .mbProfileUnload f => Sys2Proof.Machine.execMbProfileUnload f s
  | .mbProfileStatus f => Sys2Proof.Machine.execMbProfileStatus f s
  | .mbProgramLoadJeriec f => Sys2Proof.Machine.execMbProgramLoadJeriec f s
  | .mbProgramLoadLx720 f => Sys2Proof.Machine.execMbProgramLoadLx720 f s
  | .mbProgramUnload f => Sys2Proof.Machine.execMbProgramUnload f s
  | .programFree f handle => Sys2Proof.Machine.execProgramFree f handle s
  | .mbProgramStatus f => Sys2Proof.Machine.execMbProgramStatus f s
  | .mbTableCreate f => Sys2Proof.Machine.execMbTableCreate f s
  | .mbTableDelete f => Sys2Proof.Machine.execMbTableDelete f s
  | .mbTableStatus f => Sys2Proof.Machine.execMbTableStatus f s
  | .mbEvtRead f => Sys2Proof.Machine.execMbEvtRead f s
  | .mbEvtClear f => Sys2Proof.Machine.execMbEvtClear f s
  | .mbEvtTimemark f tick => Sys2Proof.Machine.execMbEvtTimemark f tick s
  | .mbSafetyStatus f => Sys2Proof.Machine.execMbSafetyStatus f s
  | .mbAuthChallenge f => Sys2Proof.Machine.execMbAuthChallenge f s
  | .mbMaintEnter f => Sys2Proof.Machine.execMbMaintEnter f s
  | .mbMaintExit f => Sys2Proof.Machine.execMbMaintExit f s
  | .diagHoldup f v0 v1 v2 => Sys2Proof.Machine.execDiagHoldup f v0 v1 v2 s
  | .diagEngineSweep f failed => Sys2Proof.Machine.execDiagEngineSweep f failed s
  | .diagClock f failed => Sys2Proof.Machine.execDiagClock f failed s
  | .diagMramScrub f corrected uncorrectable => Sys2Proof.Machine.execDiagMramScrub f corrected uncorrectable s
  | .diagSplMarch f lines => Sys2Proof.Machine.execDiagSplMarch f lines s
  | .mbDramProfile f => Sys2Proof.Machine.execMbDramProfile f s
  | .mbFlashProfile f => Sys2Proof.Machine.execMbFlashProfile f s
  | .mbPairStatus f => Sys2Proof.Machine.execMbPairStatus f s
  | .mbPairJoin f => Sys2Proof.Machine.execMbPairJoin f s
  | .mbPairLeave f => Sys2Proof.Machine.execMbPairLeave f s
  | .flashReadComplete op r => Sys2Proof.Machine.execFlashReadComplete op r s
  | .ladderRungRead op r => Sys2Proof.Machine.execLadderRungRead op r s
  | .flashProgramComplete op failed => Sys2Proof.Machine.execFlashProgramComplete op failed s
  | .flashEraseComplete op failed => Sys2Proof.Machine.execFlashEraseComplete op failed s
  | .programSuspend op => Sys2Proof.Machine.execProgramSuspend op s
  | .dieFailed die busy => Sys2Proof.Machine.execDieFailed die busy s
  | .fold q => Sys2Proof.Machine.execFold q s
  | .gcStart q => Sys2Proof.Machine.execGcStart q s
  | .wearLevelRelocate q => Sys2Proof.Machine.execWearLevelRelocate q s
  | .readDisturbRelocate q sb => Sys2Proof.Machine.execReadDisturbRelocate q sb s
  | .disturbCheckpoint => Sys2Proof.Machine.execDisturbCheckpoint s
  | .patrolScan q sb rung corrected => Sys2Proof.Machine.execPatrolScan q sb rung corrected s
  | .hotPromote ext => Sys2Proof.Machine.execHotPromote ext s
  | .sketchHalving => Sys2Proof.Machine.execSketchHalving s
  | .journalProgram => Sys2Proof.Machine.execJournalProgram s
  | .mapCheckpoint => Sys2Proof.Machine.execMapCheckpoint s
  | .writeStopReadOnly die => Sys2Proof.Machine.execWriteStopReadOnly die s
  | .readOnlyCleared => Sys2Proof.Machine.execReadOnlyCleared s
  | .flashDiscovery dies chans => Sys2Proof.Machine.execFlashDiscovery dies chans s
  | .journalReplay => Sys2Proof.Machine.execJournalReplay s
  | .dramRequest r => Sys2Proof.Machine.execDramRequest r s
  | .rowDisturbWindow => Sys2Proof.Machine.execRowDisturbWindow s
  | .refresh ch rank bank act => Sys2Proof.Machine.execRefresh ch rank bank act s
  | .zqCalibration => Sys2Proof.Machine.execZqCalibration s
  | .mr4Read doubled => Sys2Proof.Machine.execMr4Read doubled s
  | .scrubRead ch rank line wrong => Sys2Proof.Machine.execScrubRead ch rank line wrong s
  | .rankMigrated ch rebuilt ms => Sys2Proof.Machine.execRankMigrated ch rebuilt ms s
  | .spareInit ch rank badLine => Sys2Proof.Machine.execSpareInit ch rank badLine s
  | .selfRefreshEntry ch requestBefore requestAfter => Sys2Proof.Machine.execSelfRefreshEntry ch requestBefore requestAfter s
  | .dramBringup reports => Sys2Proof.Machine.execDramBringup reports s
  | .channelRing ch => Sys2Proof.Machine.execChannelRing ch s
  | .channelClear ch => Sys2Proof.Machine.execChannelClear ch s
  | .auRound inst asking => Sys2Proof.Machine.execAuRound inst asking s
  | .descriptorComplete ch r => Sys2Proof.Machine.execDescriptorComplete ch r s
  | .auCommit inst => Sys2Proof.Machine.execAuCommit inst s
  | .jobVerdict ch pass => Sys2Proof.Machine.execJobVerdict ch pass s
  | .upstreamFail ch producer => Sys2Proof.Machine.execUpstreamFail ch producer s
  | .forceOff domain => Sys2Proof.Machine.execForceOff domain s
  | .domainPowerDown domain => Sys2Proof.Machine.execDomainPowerDown domain s
  | .port0DmaRequest k => Sys2Proof.Machine.execPort0DmaRequest k s
  | .cpeRequest submitter entry => Sys2Proof.Machine.execCpeRequest submitter entry s
  | .cpeDispatch => Sys2Proof.Machine.execCpeDispatch s
  | .cpeSliceEnd p => Sys2Proof.Machine.execCpeSliceEnd p s
  | .cpeRequestComplete p r => Sys2Proof.Machine.execCpeRequestComplete p r s
  | .drbgReseed p healthy => Sys2Proof.Machine.execDrbgReseed p healthy s
  | .rngHealthFail test => Sys2Proof.Machine.execRngHealthFail test s
  | .cpePgGo page identity => Sys2Proof.Machine.execCpePgGo page identity s
  | .cpePgKey page k identity key attr => Sys2Proof.Machine.execCpePgKey page k identity key attr s
  | .pageViolation page identity offset => Sys2Proof.Machine.execPageViolation page identity offset s
  | .port1CipherRequest k => Sys2Proof.Machine.execPort1CipherRequest k s
  | .dgeCtxCfg ctx src cfg => Sys2Proof.Machine.execDgeCtxCfg ctx src cfg s
  | .dgeCtxData ctx word => Sys2Proof.Machine.execDgeCtxData ctx word s
  | .dgeCtxLastData ctx word => Sys2Proof.Machine.execDgeCtxLastData ctx word s
  | .dgeCtxLastCnt ctx cnt => Sys2Proof.Machine.execDgeCtxLastCnt ctx cnt s
  | .dgeContextSwitch p save restore tagOk => Sys2Proof.Machine.execDgeContextSwitch p save restore tagOk s
  | .port2DigestRequest k => Sys2Proof.Machine.execPort2DigestRequest k s
  | .transformCompress id data verifyOk bad => Sys2Proof.Machine.execTransformCompress id data verifyOk s bad
  | .transformDecompress id data bad => Sys2Proof.Machine.execTransformDecompress id data s bad
  | .transformDigest id data bad => Sys2Proof.Machine.execTransformDigest id data s bad
  | .transformEncrypt id data bad => Sys2Proof.Machine.execTransformEncrypt id data s bad
  | .transformDecrypt id data bad => Sys2Proof.Machine.execTransformDecrypt id data s bad
  | .cmpContextExpired ctx => Sys2Proof.Machine.execCmpContextExpired ctx s
  | .port3CompressionRequest k verifyOk bad => Sys2Proof.Machine.execPort3CompressionRequest k verifyOk s bad
  | .indexUpdate id data fault => Sys2Proof.Machine.execIndexUpdate id data s fault
  | .indexSearch id list fault => Sys2Proof.Machine.execIndexSearch id list fault s
  | .asuSelftest group pattern pass => Sys2Proof.Machine.execAsuSelftest group pattern pass s
  | .port4Search k fault => Sys2Proof.Machine.execPort4Search k fault s
  | .port4Update k fault => Sys2Proof.Machine.execPort4Update k s fault
  | .programInvoke id data => Sys2Proof.Machine.execProgramInvoke id data s
  | .filteredRead id => Sys2Proof.Machine.execFilteredRead id s
  | .invocationStart f handle => Sys2Proof.Machine.execInvocationStart f handle s
  | .invocationFaultEnd k => Sys2Proof.Machine.execInvocationFaultEnd k s
  | .budget k => Sys2Proof.Machine.execBudget k s
  | .interruptEntry k => Sys2Proof.Machine.execInterruptEntry k s
  | .timerExpiry k => Sys2Proof.Machine.execTimerExpiry k s
  | .ldl k d short ue => Sys2Proof.Machine.execLdl k d short ue s
  | .stl k as short => Sys2Proof.Machine.execStl k as short s
  | .ldx k w d short ue => Sys2Proof.Machine.execLdx k w d short ue s
  | .stx k w as short => Sys2Proof.Machine.execStx k w as short s
  | .movi k d imm => Sys2Proof.Machine.execMovi k d imm s
  | .beqz k d off => Sys2Proof.Machine.execBeqz k d off s
  | .bnez k d off => Sys2Proof.Machine.execBnez k d off s
  | .bltz k d off => Sys2Proof.Machine.execBltz k d off s
  | .bgez k d off => Sys2Proof.Machine.execBgez k d off s
  | .add k d as => Sys2Proof.Machine.execAdd k d as s
  | .sub k d as => Sys2Proof.Machine.execSub k d as s
  | .mul k d as => Sys2Proof.Machine.execMul k d as s
  | .div k d as => Sys2Proof.Machine.execDiv k d as s
  | .rem k d as => Sys2Proof.Machine.execRem k d as s
  | .and k d as => Sys2Proof.Machine.execAnd k d as s
  | .or k d as => Sys2Proof.Machine.execOr k d as s
  | .xor k d as => Sys2Proof.Machine.execXor k d as s
  | .shl k d as => Sys2Proof.Machine.execShl k d as s
  | .shr k d as => Sys2Proof.Machine.execShr k d as s
  | .sar k d as => Sys2Proof.Machine.execSar k d as s
  | .min k d as => Sys2Proof.Machine.execMin k d as s
  | .max k d as => Sys2Proof.Machine.execMax k d as s
  | .extb k d as => Sys2Proof.Machine.execExtb k d as s
  | .mkpair k d as => Sys2Proof.Machine.execMkpair k d as s
  | .not k d as => Sys2Proof.Machine.execNot k d as s
  | .addi k d imm => Sys2Proof.Machine.execAddi k d imm s
  | .shli k d imm => Sys2Proof.Machine.execShli k d imm s
  | .shri k d imm => Sys2Proof.Machine.execShri k d imm s
  | .sari k d imm => Sys2Proof.Machine.execSari k d imm s
  | .ld k w d a u ue => Sys2Proof.Machine.execLd k w d a u ue s
  | .st k w d a u => Sys2Proof.Machine.execSt k w d a u s
  | .setdpg k page => Sys2Proof.Machine.execSetdpg k page s
  | .acshr k x n => Sys2Proof.Machine.execAcshr k x n s
  | .rep k n => Sys2Proof.Machine.execRep k n s
  | .repDr k r => Sys2Proof.Machine.execRepDr k r s
  | .setxpg k r => Sys2Proof.Machine.execSetxpg k r s
  | .jmpr k r => Sys2Proof.Machine.execJmpr k r s
  | .setiv k r => Sys2Proof.Machine.execSetiv k r s
  | .acadd k x r => Sys2Proof.Machine.execAcadd k x r s
  | .freew k a => Sys2Proof.Machine.execFreew k a s
  | .restrict k a m => Sys2Proof.Machine.execRestrict k a m s
  | .trap k n => Sys2Proof.Machine.execTrap k n s
  | .nop k => Sys2Proof.Machine.execNop k s
  | .endInv k => Sys2Proof.Machine.execEndInv k s
  | .reti k => Sys2Proof.Machine.execReti k s
  | .ei k => Sys2Proof.Machine.execEi k s
  | .di k => Sys2Proof.Machine.execDi k s
  | .acclr k x => Sys2Proof.Machine.execAcclr k x s
  | .send k stall p d => Sys2Proof.Machine.execSend k stall p d s
  | .recv k stall p d => Sys2Proof.Machine.execRecv k stall p d s
  | .beq k as t w => Sys2Proof.Machine.execBeq k as t w s
  | .bne k as t w => Sys2Proof.Machine.execBne k as t w s
  | .blt k as t w => Sys2Proof.Machine.execBlt k as t w s
  | .bge k as t w => Sys2Proof.Machine.execBge k as t w s
  | .bltu k as t w => Sys2Proof.Machine.execBltu k as t w s
  | .bgeu k as t w => Sys2Proof.Machine.execBgeu k as t w s
  | .bteq k t d w => Sys2Proof.Machine.execBteq k t d w s
  | .btne k t d w => Sys2Proof.Machine.execBtne k t d w s
  | .jmp k w => Sys2Proof.Machine.execJmp k w s
  | .call k d w => Sys2Proof.Machine.execCall k d w s
  | .mkcode k d w => Sys2Proof.Machine.execMkcode k d w s
  | .movw k d w => Sys2Proof.Machine.execMovw k d w s
  | .movt k d w => Sys2Proof.Machine.execMovt k d w s
  | .brdy k sending p w => Sys2Proof.Machine.execBrdy k sending p w s
  | .mov k r as => Sys2Proof.Machine.execMov k r as s
  | .retag k d t => Sys2Proof.Machine.execRetag k d t s
  | .rdspr k d code => Sys2Proof.Machine.execRdspr k d code s
  | .ldp k w d a ue => Sys2Proof.Machine.execLdp k w d a ue s
  | .stp k w d a => Sys2Proof.Machine.execStp k w d a s
  | .lda k w ka a u ue => Sys2Proof.Machine.execLda k w ka a u ue s
  | .sta k w ka a u => Sys2Proof.Machine.execSta k w ka a u s
  | .aadd k a d => Sys2Proof.Machine.execAadd k a d s
  | .narrow k a d => Sys2Proof.Machine.execNarrow k a d s
  | .gettag k d as => Sys2Proof.Machine.execGettag k d as s
  | .aoff k d a => Sys2Proof.Machine.execAoff k d a s
  | .arem k d a => Sys2Proof.Machine.execArem k d a s
  | .mac k x as t => Sys2Proof.Machine.execMac k x as t s
  | .supplyFailWarning vsenseMv => Sys2Proof.Machine.execSupplyFailWarning vsenseMv s
  | .nvWriteFence vsenseMv ms => Sys2Proof.Machine.execNvWriteFence vsenseMv ms s
  | .flashWpAssert ch => Sys2Proof.Machine.execFlashWpAssert ch s
  | .drainComplete ms vsenseMv => Sys2Proof.Machine.execDrainComplete ms vsenseMv s
  | .mainValid vsenseMv => Sys2Proof.Machine.execMainValid vsenseMv s
  | .bootComplete failed => Sys2Proof.Machine.execBootComplete failed s
  | .railLimitTrip rail mv ms above => Sys2Proof.Machine.execRailLimitTrip rail mv ms above s
  | .aonSwitchover => Sys2Proof.Machine.execAonSwitchover s
  | .aonSwitchback => Sys2Proof.Machine.execAonSwitchback s
  | .aonPowerUp testEn => Sys2Proof.Machine.execAonPowerUp testEn s
  | .aonLoss => Sys2Proof.Machine.execAonLoss s
  | .porN => Sys2Proof.Machine.execPorN s
  | .holdupTestStart vsenseMv v0 => Sys2Proof.Machine.execHoldupTestStart vsenseMv v0 s
  | .holdupPhaseB v1 => Sys2Proof.Machine.execHoldupPhaseB v1 s
  | .holdupTestEnd v2 sagged => Sys2Proof.Machine.execHoldupTestEnd v2 sagged s
  | .restEntry => Sys2Proof.Machine.execRestEntry s
  | .restExit => Sys2Proof.Machine.execRestExit s
  | .safeHaltEntered cause component safeDrain => Sys2Proof.Machine.execSafeHaltEntered cause component safeDrain s
  | .safeDrainComplete skipped => Sys2Proof.Machine.execSafeDrainComplete skipped s
  | .coxLockstep pair cycle => Sys2Proof.Machine.execCoxLockstep pair cycle s
  | .clockFault domain khz => Sys2Proof.Machine.execClockFault domain khz s
  | .engineSelftest inst pass pattern => Sys2Proof.Machine.execEngineSelftest inst pass pattern s
  | .eventRecordWrite => Sys2Proof.Machine.execEventRecordWrite s
  | .hourCounterTick => Sys2Proof.Machine.execHourCounterTick s
  | .counterMirror => Sys2Proof.Machine.execCounterMirror s
  | .thermalSample kelvin => Sys2Proof.Machine.execThermalSample kelvin s
  | .extest => Sys2Proof.Machine.execExtest s
  | .idcode => Sys2Proof.Machine.execIdcode s
  | .samplePreload cells => Sys2Proof.Machine.execSamplePreload cells s
  | .highz => Sys2Proof.Machine.execHighz s
  | .clamp => Sys2Proof.Machine.execClamp s
  | .bypass => Sys2Proof.Machine.execBypass s
  | .hello fr h => Sys2Proof.Machine.execHello fr h s
  | .helloSend => Sys2Proof.Machine.execHelloSend s
  | .unit fr u => Sys2Proof.Machine.execUnit fr u s
  | .held fr => Sys2Proof.Machine.execHeld fr s
  | .command fr cid e => Sys2Proof.Machine.execCommand fr cid e s
  | .completion fr c dw0 dw1 cid => Sys2Proof.Machine.execCompletion fr c dw0 dw1 cid s
  | .heartbeat fr h => Sys2Proof.Machine.execHeartbeat fr h s
  | .heartbeatSend => Sys2Proof.Machine.execHeartbeatSend s
  | .rekey fr nonce => Sys2Proof.Machine.execRekey fr nonce s
  | .rekeyStart => Sys2Proof.Machine.execRekeyStart s
  | .leave fr => Sys2Proof.Machine.execLeave fr s
  | .goBackNResend => Sys2Proof.Machine.execGoBackNResend s
  | .linkLost ms => Sys2Proof.Machine.execLinkLost ms s
  | .resyncCopy nsid g => Sys2Proof.Machine.execResyncCopy nsid g s
  | .registerWrite r value => Sys2Proof.Machine.execRegisterWrite r value s
  | .pairUpIn level => Sys2Proof.Machine.execPairUpIn level s
  | .hostRefclkReturn port => Sys2Proof.Machine.execHostRefclkReturn port s
  | .porNRise testEn => Sys2Proof.Machine.execPorNRise testEn s
  | .setFeaturesArbitration id => Sys2Proof.Machine.execSetFeaturesArbitration id s
  | .vfEnable pf num => Sys2Proof.Machine.execVfEnable pf num s
  | .nvmeMiOverSmbus msg => Sys2Proof.Machine.execNvmeMiOverSmbus msg s
  | .trstN => Sys2Proof.Machine.execTrstN s
  | .progParity k => Sys2Proof.Machine.execProgParity k s

end Sys2Proof.Machine
end

