-- ==== Sys2Proof/Machine/Package.lean ====
section
/-! DEFINITION. The package: which signal each ball carries (R600 to R608), and what the outputs that a board relies on drive in each
mode (R613). Nothing here is state of its own. -/

namespace Sys2Proof.Machine

/-! ### Balls (R600 to R608) -/

/-- A ball by row and column number, both from 1 (R600). -/
structure Ball where
  row : Nat
  col : Nat
  deriving DecidableEq, Repr

/-- The row letters in the order of their numbers (R600). -/
def rowNames : List String :=
  ["A", "B", "C", "D", "E", "F", "G", "H", "J", "K", "L", "M", "N", "P", "T", "U", "V", "W", "Y", "AA", "AB", "AC", "AD", "AE", "AF",
   "AG", "AH", "AJ", "AK", "AL", "AM", "AN", "AP", "AT"]

/-- What a ball carries: a supply, ground, or a signal of a group by name. A lane's balls say the direction and the polarity. -/
inductive Signal where
  | vss | vddCore | vddSram | vddSerdes | vddFio | vddDio | vddAonMain | vddAonBkup
  | lane (sweep : Bool) (n : Nat) (receive negative : Bool)
  | serdesRef (name : String)
  | sideband (name : String)
  | flash (channel : Nat) (name : String)
  | dram (channel : Nat) (name : String)
  deriving DecidableEq, Repr

/-- Flash channel 0, rows H to V by columns 1 to 3 (R606). -/
def flashPattern : List (List String) :=
  [["CE0_N", "CE1_N", "CE2_N"], ["CE3_N", "CE4_N", "CE5_N"], ["CE6_N", "CE7_N", "RB0_N"], ["DQ0", "DQ1", "RB1_N"],
   ["DQ2", "DQ3", "VSS"], ["DQS_T", "DQS_C", "VDD"], ["DQ4", "DQ5", "VSS"], ["DQ6", "DQ7", "VDD"], ["RE_T", "RE_C", "WP_N"],
   ["WE_N", "ALE", "CLE"]]

/-- A data row of a DRAM channel: two lines of each byte, with the ball that follows each pair, and the row's last two (R608). -/
def dramDataRow (first : Nat) (last : List String) : List String :=
  ((List.range 5).map (fun b => ["DQ" ++ toString (8 * b + first), "DQ" ++ toString (8 * b + first + 1), "VSS"])).flatten ++ last

/-- A strobe row of a DRAM channel (R608). -/
def dramStrobeRow (first : Nat) (last : List String) : List String :=
  ((List.range 5).map (fun b => ["DQS" ++ toString (first + b) ++ "_T", "DQS" ++ toString (first + b) ++ "_C", "VDD"])).flatten ++ last

/-- DRAM channel 0, rows AJ to AT by columns 1 to 17 (R608). -/
def dramPattern : List (List String) :=
  [["CA0", "CA1", "CA2", "CA3", "CA4", "CA5", "CA6", "CK_T", "CK_C", "CA7", "CA8", "CA9", "CA10", "CA11", "CA12", "CA13", "VSS"],
   dramDataRow 6 ["CS0_N", "CS1_N"], dramStrobeRow 5 ["CS2_N", "CS3_N"], dramDataRow 4 ["ALERT_N", "RESET_N"],
   dramDataRow 2 ["ZQ", "VSS"], dramStrobeRow 0 ["VDD", "VDD"], dramDataRow 0 ["VSS", "VSS"]]

/-- The sideband, clock, test and always-on balls of a centre row, from column 13 (R604). -/
def sidebandRow (row : Nat) : List String :=
  match row with
  | 8 => ["PCIE_PERST0_N", "PCIE_PERST1_N", "PCIE_CLKREQ0_N", "PCIE_CLKREQ1_N", "PAIR_UP_OUT", "PAIR_UP_IN", "SMB_SCL", "SMB_SDA",
          "SMB_ALERT_N"]
  | 9 => ["TCK", "TMS", "TDI", "TDO", "TRST_N", "TEST_EN"]
  | 26 => ["XTAL25_IN", "XTAL25_OUT", "VSS", "XTAL32K_IN", "XTAL32K_OUT", "VSS", "VSENSE_MAIN"]
  | 27 => ["AON_MAIN", "AON_MAIN", "AON_BKUP", "AON_BKUP", "POR_N", "FAULT_N", "PP_IN_EN", "HOLDUP_BLEED"]
  | _ => []

/-- The SerDes band, rows A to G (R603). -/
def serdesBall (b : Ball) : Signal :=
  let i := (b.col - 2) / 4
  let pair := decide (2 ≤ b.col) && decide ((b.col - 2) % 4 < 2)
  let negative := decide ((b.col - 2) % 4 = 1)
  match b.row with
  | 7 => .vddSerdes
  | 2 => if b.col = 34 then .serdesRef "SD_RCAL_PCIE" else if pair ∧ i < 8 then .lane false i false negative else .vss
  | 4 => if b.col = 34 then .serdesRef "SD_RCAL_SWEEP" else if pair ∧ i < 8 then .lane false i true negative else .vss
  | 6 =>
    if b.col = 33 then .serdesRef "PCIE_REFCLK_P" else if b.col = 34 then .serdesRef "PCIE_REFCLK_N"
    else if pair ∧ i < 8 then .lane true (i % 4) (decide (4 ≤ i)) negative else .vss
  | _ => .vss

/-- A name of a channel's pattern as the signal of that ball. -/
def patternSignal (supply : Signal) (signal : String → Signal) (name : String) : Signal :=
  if name = "VSS" then .vss else if name = "VDD" then supply else signal name

/-- A flash ball (R606, R607): channel c = 8s + 4h + g lies 10h rows down and 3g columns inwards from the nearer edge. -/
def flashBall (b : Ball) : Signal :=
  let right := decide (13 ≤ b.col)
  let edge := if right then 35 - b.col else b.col
  let channel := 8 * flag right + 4 * ((b.row - 8) / 10) + (edge - 1) / 3
  patternSignal .vddFio (.flash channel) ((flashPattern.getD ((b.row - 8) % 10) []).getD ((edge - 1) % 3) "VSS")

/-- A ball of the centre region (R604, R605). -/
def centreBall (b : Ball) : Signal :=
  if b.row = 8 ∨ b.row = 9 ∨ b.row = 26 ∨ b.row = 27 then
    match (sidebandRow b.row).getD (b.col - 13) "VSS" with
    | "VSS" => .vss
    | "AON_MAIN" => .vddAonMain
    | "AON_BKUP" => .vddAonBkup
    | name => .sideband name
  else if (b.row + b.col) % 2 = 0 then .vss
  else if b.col = 13 ∨ b.col = 22 then .vddSram
  else .vddCore

/-- A DRAM ball (R608): channel 1 lies 17 columns to the right. -/
def dramBall (b : Ball) : Signal :=
  patternSignal .vddDio (.dram ((b.col - 1) / 17)) ((dramPattern.getD (b.row - 28) []).getD ((b.col - 1) % 17) "VSS")

/-- What a ball carries, by the regions of R601; every ball that no assignment names is VSS (R602). -/
def Ball.signal (b : Ball) : Signal :=
  if b.row ≤ 7 then serdesBall b
  else if 28 ≤ b.row then dramBall b
  else if 13 ≤ b.col ∧ b.col ≤ 22 then centreBall b
  else flashBall b

/-- The 1,156 balls (R600). -/
def allBalls : List Ball := ((List.range 34).map (fun r => (List.range 34).map (fun c => ({ row := r + 1, col := c + 1 } : Ball)))).flatten

/-- The strobe that times a DQ line, with devices 4 or 8 wide (R609). -/
def strobeOf (x8 : Bool) (dq : Nat) : Nat := if x8 ∨ dq % 8 < 4 then dq / 8 else dq / 8 + 5

/-! ### Outputs by mode (R613) -/

/-- What an output does. -/
inductive Drive where
  | low | high | highZ | undriven | idle | active
  deriving DecidableEq, Repr

/-- A level that is driven. -/
def Drive.ofLevel (b : Bool) : Drive := if b then .high else .low

/-- The main domains are off: OFF and HOLD. -/
def Mode.unpowered (m : Mode) : Bool := m == .off || m == .hold

/-- FLc_WP_N (R613). -/
def State.flashWp (s : State) (ch : Nat) : Drive := if s.psm.mode.unpowered then .undriven else .ofLevel (!s.wpLow ch)
/-- Dc_RESET_N (R613). -/
def State.dramReset (s : State) : Drive := if s.psm.mode.unpowered then .undriven else .ofLevel s.dram.resetHigh
/-- PCIe TX (R613). -/
def State.pcieTx (s : State) : Drive :=
  if s.psm.mode.unpowered then .undriven else if s.psm.mode = .boot ∨ s.psm.mode = .drain then .idle else .active
/-- Sweep TX (R575, R613). -/
def State.sweepTx (s : State) : Drive := if s.psm.mode = .off then .undriven else if s.pairUpOut then .active else .idle
/-- PAIR_UP_OUT (R575, R613). -/
def State.pairUpPin (s : State) : Drive := if s.psm.mode = .off then .undriven else .ofLevel s.pairUpOut
/-- FAULT_N (R547, R613): open drain. -/
def State.faultPin (s : State) : Drive := if s.faultN then .highZ else .low
/-- PP_IN_EN (R534, R613). -/
def State.ppInPin (s : State) : Drive := if s.psm.mode = .off then .undriven else .ofLevel s.psm.pins.ppInEn
/-- HOLDUP_BLEED (R534, R613). -/
def State.bleedPin (s : State) : Drive := if s.psm.mode = .off then .undriven else .ofLevel s.psm.pins.bleed

end Sys2Proof.Machine
end

