-- ==== Sys2Proof/Safety.lean ====
section
/-! DEFINITION. What counts as a sound state, and the promises a step keeps whatever command it runs, in the terms the statements use. -/

namespace Sys2Proof.Machine

/-- A sound state: the contents of DRAM and of the SPL are in the canonical form of Machine/Ops.lean; the recorder's queue holds at
most 64 records (R552) and its retention buffer at most 8 (R553). -/
structure State.Sound (s : State) : Prop where
  dram : Mem.wf 0 s.dram.cells = true
  spl : Mem.wf 0 s.dmf.spl = true
  queue : s.recd.queue.length ≤ 64
  retention : s.recd.retention.length ≤ 8

/-- What no command of the block takes back, from `s` on: the waiting commands stay as they are, the count of free values drawn does
not fall, the minimum SVN does not fall (R224), and firmware slot 1, the recovery image, is as it was (R222). -/
structure State.Holds (s t : State) : Prop where
  pending : t.pending = s.pending
  free : s.freeCtr ≤ t.freeCtr
  svn : s.nvs.minSvn ≤ t.nvs.minSvn
  recovery : Mem.get {} t.nvs.fw 1 = Mem.get {} s.nvs.fw 1

/-! ### The parts that the statements are written in -/

/-- Command `id` is in flight with the result `r`. -/
def State.ResultIs (t : State) (id : CmdId) (r : Result) : Prop := ∃ c, t.cmd id = some c ∧ c.result = some r

/-- The mailbox of function `f` has taken a request of command `cmd` that passed its checks and has no answer yet, in a mode in which
the command's own step runs, while fewer than 16 requests run (R202, R203, R205). -/
structure State.MbReady (s : State) (f cmd : Nat) : Prop where
  mode : s.psm.mode.mailbox = true
  awake : s.psm.mode ≠ .rest
  halt : s.psm.mode ≠ .safeHalt ∨ (mbHaltOk cmd = true ∧ f < 2)
  cox : s.coxDown = false
  room : s.mbRunning < 16
  orphans : (s.mb f).orphans = []
  busy : (s.mb f).state = .busy
  open_ : (s.mb f).prepared = none
  fresh : (s.mb f).waiting = false
  checked : (s.mb f).unchecked = false
  command : mbCmd (s.mb f).taken = cmd

/-- The payload of the request that the mailbox of function `f` has taken. -/
def State.mbRequest (s : State) (f : Nat) : Bytes := mbPayload (s.mb f).taken

/-- The mailbox of function `f` has its response prepared. -/
def State.mbAnswer (s : State) (f : Nat) (p : MbResp) : State := s.updMb f (fun m => { m with prepared := some p })

/-- The request of function `f` waits for the device (R203). -/
def State.mbHold (s : State) (f : Nat) : State := s.updMb f (fun m => { m with waiting := true })

/-- A scull as an instruction starts: RC falls by 1, and interruption points are back (R478, R495). -/
def Scull.begun (c : Scull) : Scull := { c with rc := if c.rc = 0 then 0 else c.rc - 1, noPoint := false }

/-- The scull after an instruction at `c` that takes `n` cycles and leaves `c1`: CYCLES and BUDGET_LEFT count them (R487, R508). -/
def Scull.after (c c1 : Scull) (n : Nat) : Scull := { c1.spend n with lastPc := c.pc }

/-- Scull `k` has run the instruction at PC in `n` cycles, which left it at `c1`: PC goes past the instruction, or stays on it while a
repeat prefix has iterations left (R478). Nothing else changes. -/
def State.passed (s : State) (k n : Nat) (c1 : Scull) : State :=
  let c := s.scull k
  s.setScull k (if c.rc ≠ 0 ∧ c1.rc ≠ 0 then c.after c1 n else (c.after c1 n).goto (c.pc.toNat + wordsOf (c.word c.pc.toNat)))

/-- Scull `k` has run the instruction at PC in `n` cycles, which left it at `c1` and sent PC to `target`. -/
def State.jumped (s : State) (k n : Nat) (target : Int) (c1 : Scull) : State := s.setScull k (((s.scull k).after c1 n).goto target)

/-- A word is stored in the shared memory of a scull's Eight. -/
def State.storeShared (s : State) (k a : Nat) (w : TWord) : State :=
  { s with sca := { s.sca with shared := Mem.set poison s.sca.shared (eightOf k * 65536 + a) w } }

end Sys2Proof.Machine
end

