-- ==== Sys2Proof/Certificates/Slice0/Obligations.lean ====
section
/-! DEFINITION. The statements about the block, family by family: each is a conjunction of what the commands of its family do, and on
which states and operands. -/

set_option linter.unusedVariables false

open Sys2Proof Sys2Proof.Machine

/-- After reset the contents of DRAM and of the SPL are in the canonical form of the model's memory (the model's own, Machine/Ops.lean), the
recorder's queue holds at most 64 records and its retention buffer at most 8 (R552, R553). The witness premise of EveryStepKeepsSound. -/
def Obligations.ResetIsSound : Prop :=
  State.reset.Sound

/-- For every sound state, whatever command stands at the front of the queue and whatever its operands, the state after the step is sound: the
contents of DRAM and of the SPL keep their canonical form (the model's own, Machine/Ops.lean), the recorder's queue never holds more than
64 records and the retention buffer never more than 8 (R552, R553). -/
def Obligations.EveryStepKeepsSound : Prop :=
  ∀ s t : State, s.Sound → step s = .next t → t.Sound

/-- For every sound state, every command and all its operands: the waiting commands stay as they are and the count of free values drawn does
not fall (both the model's own, logs 7 and 3), the minimum SVN does not fall (R224), and firmware slot 1, the recovery image, stays as it
was (R222). -/
def Obligations.EveryCommandHoldsItsPromises : Prop :=
  ∀ (c : Instr) (s t : State), s.Sound → exec c s = .next t → s.Holds t

/-- For every command and state: with the command at the front of the pending queue, step answers what exec answers for that command on the
state whose queue is the rest. The queue of waiting commands is the model's own (log 7). -/
def Obligations.StepRunsTheFrontCommand : Prop :=
  ∀ (c : Instr) (cs : List Instr) (s : State), s.pending = c :: cs → step s = exec c { s with pending := cs }

/-- With no command waiting, a step answers the state unchanged. This is the model's own convention (log 1, DESIGN CHOICE): no rule of the
spec has a queue of commands. -/
def Obligations.EmptyQueueIdles : Prop :=
  ∀ s : State, s.pending = [] → step s = .next s

/-- In a live mode, for a function that is enabled, not resetting and not quiesced: a tail doorbell sets the tail of its queue, waking a
device at rest, a head doorbell on a queue that holds nothing back counts the entries still posted, and on a quiesced function both are
recorded and not acted on. The fetch round robin takes the burst from the admin queue of the function whose turn it is, else from the I/O
queue its arbitration picks. Acceptance hands the oldest fetched entry its ASN, generation and profile epoch under the next handle. A
finished command's completion is posted in the order of finishing when its queue has room and nothing is held before it: an entry with its
result enters the FIFO to the host, it leaves the in-flight count, and no other command's entry changes; with no room it is held, in
order. A token tick gives every function its rate. -/
def Obligations.QueuesFetchAndAcceptance : Prop :=
  (∀ (s : State) (f q tail : Nat) (x : Sq),
    s.psm.mode.live = true →
    (s.fn f).resetting = false →
    (s.fn f).en = true →
    (s.fn f).quiesced = false →
    s.hostGone f = false →
    s.sq f q = some x →
    tail < x.size →
    exec (.sqTailDoorbell f q tail) s = .next (s.setSq f q (some { x with tail := tail })).wake) ∧
  (∀ (s : State) (f q head : Nat) (x : Cq),
    s.psm.mode.live = true →
    (s.fn f).resetting = false →
    (s.fn f).en = true →
    (s.fn f).quiesced = false →
    s.hostGone f = false →
    s.cq f q = some x →
    head < x.size →
    x.held = [] →
    exec (.cqHeadDoorbell f q head) s = .next (s.setCq f q (some { x with posted := (x.tail + x.size - head) % x.size })).wake) ∧
  (∀ (s : State) (f q v : Nat),
    s.psm.mode.live = true →
    (s.fn f).resetting = false →
    (s.fn f).en = true →
    (s.fn f).quiesced = true →
    s.hostGone f = false →
    exec (.sqTailDoorbell f q v) s = .next (s.updFn f (fun x => { x with pendingDoorbells := x.pendingDoorbells ++ [(2 * q, v)] })).wake ∧
      exec (.cqHeadDoorbell f q v) s = .next (s.updFn f (fun x => { x with pendingDoorbells := x.pendingDoorbells ++ [(2 * q + 1, v)] })).wake) ∧
  (∀ (s : State) (reads : List Sqe) (f : Nat),
    nextAfter s.hif.rrAdmin (s.present.filter s.adminFetchable) = some f →
    s.sharedCount < 65408 →
    exec (.fetchDecision reads) s =
      .next { s.takeEntries f 0 (reads.take ([s.waitingIn f 0, arbBurst (s.fn f).features.ab, 65408 - s.sharedCount].foldl Nat.min reads.length)) with
        hif := { (s.takeEntries f 0 (reads.take ([s.waitingIn f 0, arbBurst (s.fn f).features.ab, 65408 - s.sharedCount].foldl Nat.min reads.length))).hif with rrAdmin := f } }) ∧
  (∀ (s : State) (reads : List Sqe) (f q c most : Nat) (cr : List Nat) (tn : Tenant),
    nextAfter s.hif.rrAdmin (s.present.filter s.adminFetchable) = none →
    nextAfter s.hif.rrFunc (s.present.filter s.ioFetchable) = some f →
    s.pickQueue f = some (q, c, most, cr) →
    s.tenant f = some tn →
    ∃ t, exec (.fetchDecision reads) s = .next t ∧ t.hif.rrFunc = f ∧
      t.hif.fetched = (s.takeEntries f q (reads.take ([s.waitingIn f q, arbBurst (s.fn f).features.ab, 65408 - s.sharedCount,
        tn.flightCap - s.ioCount f, most].foldl Nat.min reads.length))).hif.fetched) ∧
  (∀ (s : State) (f q : Nat) (e : Sqe) (rest : List (Nat × Nat × Sqe)),
    s.hif.fetched = (f, q, e) :: rest →
    s.hostGone f = false →
    (s.fn f).resetting = false →
    s.psm.mode.live = true →
    exec .acceptance s = .next ({ s with hif := { s.hif with fetched := rest } }.accept f q e none)) ∧
  (∀ (s : State) (f q : Nat) (e : Sqe) (rest : List (Nat × Nat × Sqe)),
    s.hif.fetched = (f, q, e) :: rest →
    s.hostGone f = false →
    (s.fn f).resetting = false →
    s.psm.mode.live = true →
    e.admin = true →
    ∃ t c, exec .acceptance s = .next t ∧ t.hif.fetched = rest ∧ t.hif.nextCmd = s.hif.nextCmd + 1 ∧ t.cmd s.hif.nextCmd = some c ∧
      c.func = f ∧ c.sq = q ∧ c.sqe = e ∧ c.gen = (s.fn f).gen ∧ c.epoch = (s.fn f).epoch) ∧
  (∀ (s : State) (id : CmdId) (c : Cmd) (r : Result) (x : Cq),
    s.cmd id = some c →
    c.result = some r →
    s.psm.mode.live = true →
    s.heldBack id = false →
    c.fromPartner = false →
    (s.fn c.func).resetting = false →
    s.hostGone c.func = false →
    s.postTurn id c = true →
    s.cq c.func (s.cqOf c) = some x →
    x.full = false →
    x.held = [] →
    ∃ t, exec (.completionPost id) s = .next t ∧ t.cmd id = none ∧ (∀ j, j ≠ id → t.cmd j = s.cmd j) ∧
      ∃ head, HostMsg.cqe c.func (s.cqOf c) c.sq c.sqe.cid head r (Status.dnr r.status) false 0 ∈ t.hif.toHost) ∧
  (∀ (s : State) (id : CmdId) (c : Cmd) (r : Result) (x : Cq),
    s.cmd id = some c →
    c.result = some r →
    s.psm.mode.live = true →
    s.heldBack id = false →
    c.fromPartner = false →
    (s.fn c.func).resetting = false →
    s.hostGone c.func = false →
    s.postTurn id c = true →
    s.cq c.func (s.cqOf c) = some x →
    x.full = true →
    ¬ id ∈ x.held →
    exec (.completionPost id) s = .next (s.setCq c.func (s.cqOf c) (some { x with held := x.held ++ [id] }))) ∧
  (∀ (s : State),
    s.psm.mode.live = true →
    exec .tokenTick s = .next { s with fns := Mem.mapAll {} (·.tick) s.fns })

/-- A block command in flight whose target passes its checks does its work: a Write moves its data into the buffer, whatever its locks, and
then waits for its granules, while one whose data fail their tag check on entry fails; a granule whose lock is granted, whose units are
there and confirmed, and for which the buffer has slots, commits as a whole; a Read whose units are all staged returns the blocks and
succeeds; Write Zeroes notes its granules; Compare gives Success or Compare Failure as the blocks equal the host's or not; Verify
succeeds; a Flush with no earlier write open and nothing of them left in the buffer succeeds; Dataset Management without the deallocate
attribute is a hint and succeeds, and with it, once every lock of its ranges is granted, it makes every unit that the ranges cover
completely UNMAPPED and completes; one that is refused gives up its locks; Abort of a command that holds all its locks, or that is not
there, answers 1 in DW0 and leaves its target as it is. -/
def Obligations.BlockCommandsDoTheirWork : Prop :=
  (∀ (s : State) (id : CmdId) (data : Bytes) (c : Cmd) (n : Ns),
    s.live id false 0x01 = some c →
    c.moved = false →
    c.away = false →
    s.blockTarget c true = .ok n →
    s.hasRoom (writeUnits n c.sqe) = true →
    exec (.write id data none) s = .next ((s.updCmd id (fun c => { c with
        data := padTo (if strips n c.sqe then sqeBlocks c.sqe * lbaBytes n.lbaf else blockTransfer n c.sqe) data
        moved := true, uncommitted := granulesOf (blockRange n c.sqe), needFlash := s.writeThrough c })).sendLegs id)) ∧
  (∀ (s : State) (id : CmdId) (data : Bytes) (bad : TagFault) (c : Cmd) (n : Ns),
    s.live id false 0x01 = some c →
    c.moved = false →
    c.away = false →
    s.blockTarget c true = .ok n →
    s.hasRoom (writeUnits n c.sqe) = true →
    componentOk bad.component = true →
    exec (.write id data (some bad)) s = .next (s.badTransfer id c bad)) ∧
  (∀ (s : State) (id : CmdId) (g : Nat) (c : Cmd) (n : Ns) (us : List (Nat × Option Bytes)) (m : Option (Nat × Bytes)),
    s.cmd id = some c →
    c.result = none →
    c.sqe.admin = false →
    c.sqe.opcode = 0x01 ∨ c.sqe.opcode = 0x08 →
    c.moved = true →
    c.uncommitted.contains g = true →
    s.grantedFor id g = true →
    s.psm.mode.engines = true →
    s.ns (sqeNsid c.sqe) = some n →
    mergeKeys c n g = [] →
    s.granuleParts id c n g = some (us, m) →
    s.heldAll c.asn (sqeNsid c.sqe) (us.map (·.1) ++ m.toList.map (·.1)) = true →
    s.slotsFor (us.length + m.toList.length) = true →
    exec (.granuleCommit id g) s = .next (s.commitGranule id g c us m)) ∧
  (∀ (s : State) (id : CmdId) (g : Nat) (c : Cmd) (n : Ns),
    s.cmd id = some c →
    c.result = none →
    c.sqe.admin = false →
    c.sqe.opcode = 0x01 ∨ c.sqe.opcode = 0x08 →
    c.moved = true →
    c.uncommitted.contains g = true →
    s.grantedFor id g = true →
    s.psm.mode.engines = true →
    s.ns (sqeNsid c.sqe) = some n →
    (s.fetchUnits id (mergeKeys c n g)).merged id c n g = true →
    (s.fetchUnits id (mergeKeys c n g)).granuleParts id c n g = none →
    exec (.granuleCommit id g) s = .next ((s.fetchUnits id (mergeKeys c n g)).failWrite id)) ∧
  (∀ (s : State) (id : CmdId) (c : Cmd) (n : Ns) (bs : List (Bytes × Bytes)),
    s.live id false 0x02 = some c →
    c.away = false →
    s.blockTarget c true = .ok n →
    (s.readProgress id c n (blockRange n c.sqe)).readBlocks id c n (blockRange n c.sqe) = some (some bs) →
    exec (.read id) s = .next (((((s.readProgress id c n (blockRange n c.sqe)).dataWrite id 0 ((blockRange n c.sqe).1 / 4096)
        (joinTransfer n c.sqe bs).1).cmdWrite id c.sqe.mptr (2 ^ 36) (joinTransfer n c.sqe bs).2).finish id .success).unstage (.cmd id))) ∧
  (∀ (s : State) (id : CmdId) (c : Cmd) (n : Ns),
    s.live id false 0x08 = some c →
    c.moved = false →
    c.away = false →
    s.blockTarget c false = .ok n →
    exec (.writeZeroes id) s = .next ((s.updCmd id (fun c => { c with
        moved := true, uncommitted := granulesOf (blockRange n c.sqe), needFlash := s.writeThrough c })).sendLegs id)) ∧
  (∀ (s : State) (id : CmdId) (data : Bytes) (c : Cmd) (n : Ns) (bs : List (Bytes × Bytes)),
    s.live id false 0x05 = some c →
    c.away = false →
    s.blockTarget c true = .ok n →
    (s.readProgress id c n (blockRange n c.sqe)).readBlocks id c n (blockRange n c.sqe) = some (some bs) →
    strips n c.sqe = false →
    exec (.compare id data) s = .next (((s.readProgress id c n (blockRange n c.sqe)).finish id
        (if bs = splitTransfer n (sqeBlocks c.sqe) data then .success else .compareFailure)).unstage (.cmd id))) ∧
  (∀ (s : State) (id : CmdId) (c : Cmd) (n : Ns) (bs : List (Bytes × Bytes)),
    s.live id false 0x0C = some c →
    c.away = false →
    s.blockTarget c false = .ok n →
    (s.readProgress id c n (blockRange n c.sqe)).readBlocks id c n (blockRange n c.sqe) = some (some bs) →
    exec (.verify id) s = .next (((s.readProgress id c n (blockRange n c.sqe)).finish id .success).unstage (.cmd id))) ∧
  (∀ (s : State) (id : CmdId) (c : Cmd) (l : List Nat),
    s.live id false 0x00 = some c →
    s.nsScope c = some l →
    c.waitFor = [] →
    c.flashWait = [] →
    l.filter s.linkedNs = [] →
    ∃ t, exec (.flush id) s = .next t ∧ t.ResultIs id { status := .success } ∧ t.nss = s.nss ∧ t.dram = s.dram) ∧
  (∀ (s : State) (id : CmdId) (ranges : List DsmRange) (c : Cmd) (l : List Nat),
    s.live id false 0x09 = some c →
    c.away = false →
    c.needFlash = false →
    s.nsScope c = some l →
    dsmRefused c.sqe (s.dsmScope c l) (ranges.take (field c.sqe.cdw10.toNat 7 0 + 1)) = none →
    bit c.sqe.cdw11.toNat 2 = false →
    exec (.datasetManagement id ranges) s = .next ((s.finish id .success).writeDone id)) ∧
  (∀ (s : State) (id : CmdId) (ranges : List DsmRange) (c : Cmd) (l : List Nat),
    s.live id false 0x09 = some c →
    c.away = false →
    c.needFlash = false →
    s.nsScope c = some l →
    dsmRefused c.sqe (s.dsmScope c l) (ranges.take (field c.sqe.cdw10.toNat 7 0 + 1)) = none →
    bit c.sqe.cdw11.toNat 2 = true →
    c.moved = true →
    s.allGranted id = true →
    (c.legs.isEmpty = false ∨ (s.dsmScope c l).any (fun e => s.mirrorLegs e.1) = false) →
    ((s.dsmScope c l).all (fun e => s.heldAll (c.asnIn e.1) e.1 (wholeUnits e.2 (ranges.take (field c.sqe.cdw10.toNat 7 0 + 1)))) = true) →
    exec (.datasetManagement id ranges) s = .next (s.dsmCommit id c.asnIn (s.dsmScope c l) (ranges.take (field c.sqe.cdw10.toNat 7 0 + 1)) (s.volatileNow && !(s.fn c.func).wce))) ∧
  (∀ (s : State) (id : CmdId) (ranges : List DsmRange) (c : Cmd) (l : List Nat) (st : Status),
    s.live id false 0x09 = some c →
    c.away = false →
    c.needFlash = false →
    s.nsScope c = some l →
    dsmRefused c.sqe (s.dsmScope c l) (ranges.take (field c.sqe.cdw10.toNat 7 0 + 1)) = some st →
    exec (.datasetManagement id ranges) s = .next (((s.finish id st).releaseAll id).writeDone id)) ∧
  (∀ (s : State) (id : CmdId) (c : Cmd) (e : CmdId × Cmd),
    s.live id true 0x08 = some c →
    ((s.inflightOf c.func).find? (fun e => e.2.sq == field c.sqe.cdw10.toNat 15 0 && e.2.sqe.cid.toNat == field c.sqe.cdw10.toNat 31 16 &&
        e.1 != id && e.2.result.isNone) = some e) →
    s.allGranted e.1 = true →
    exec (.abort id) s = .next (s.finish id .success 1)) ∧
  (∀ (s : State) (id : CmdId) (c : Cmd) (e : CmdId × Cmd),
    s.live id true 0x08 = some c →
    ((s.inflightOf c.func).find? (fun e => e.2.sq == field c.sqe.cdw10.toNat 15 0 && e.2.sqe.cid.toNat == field c.sqe.cdw10.toNat 31 16 &&
        e.1 != id && e.2.result.isNone) = some e) →
    s.allGranted e.1 = false →
    exec (.abort id) s = .next ((((((s.updCmd e.1 (fun c => { c with uncommitted := [], data := [] })).finish e.1 .commandAbortRequested).releaseAll
        e.1).unstage (.cmd e.1)).writeDone e.1).finish id .success 0))

/-- Within the function's allotment, Create I/O Completion Queue makes a queue that does not exist, contiguous, of the size, vector and
address asked for; Create I/O Submission Queue makes one on a completion queue that exists, with its priority; Delete I/O Submission Queue
takes the queue away once none of its commands is fetched or in flight; Delete I/O Completion Queue takes away a queue that no submission
queue uses. Each succeeds and touches no other queue. -/
def Obligations.IoQueuesComeAndGo : Prop :=
  (∀ (s : State) (id : CmdId) (c : Cmd) (q : Nat),
    s.live id true 0x05 = some c →
    field c.sqe.cdw10.toNat 15 0 = q →
    q ≠ 0 →
    q ≤ s.queueAllotment c.func →
    s.cq c.func q = none →
    field c.sqe.cdw10.toNat 31 16 ≠ 0 →
    bit c.sqe.cdw11.toNat 0 = true →
    field c.sqe.cdw11.toNat 31 16 < s.msixCount c.func →
    exec (.createIoCq id) s = .next ((s.setCq c.func q (some { size := field c.sqe.cdw10.toNat 31 16 + 1, ien := bit c.sqe.cdw11.toNat 1, vector := field c.sqe.cdw11.toNat 31 16, base := c.sqe.dptr })).finish id .success)) ∧
  (∀ (s : State) (id : CmdId) (c : Cmd) (q : Nat) (x : Cq),
    s.live id true 0x01 = some c →
    field c.sqe.cdw10.toNat 15 0 = q →
    q ≠ 0 →
    q ≤ s.queueAllotment c.func →
    s.sq c.func q = none →
    field c.sqe.cdw11.toNat 31 16 ≠ 0 →
    s.cq c.func (field c.sqe.cdw11.toNat 31 16) = some x →
    field c.sqe.cdw10.toNat 31 16 ≠ 0 →
    bit c.sqe.cdw11.toNat 0 = true →
    exec (.createIoSq id) s = .next ((s.setSq c.func q (some { size := field c.sqe.cdw10.toNat 31 16 + 1, cq := field c.sqe.cdw11.toNat 31 16, prio := BitVec.ofNat 2 (field c.sqe.cdw11.toNat 2 1), base := c.sqe.dptr })).finish
        id .success)) ∧
  (∀ (s : State) (id : CmdId) (c : Cmd) (q : Nat) (x : Sq),
    s.live id true 0x00 = some c →
    field c.sqe.cdw10.toNat 15 0 = q →
    q ≠ 0 →
    s.sq c.func q = some x →
    ((s.inflightOf c.func).any (fun e => e.2.sq == q) = false) →
    (s.hif.fetched.any (fun e => e.1 == c.func && e.2.1 == q) = false) →
    exec (.deleteIoSq id) s = .next ((s.setSq c.func q none).finish id .success)) ∧
  (∀ (s : State) (id : CmdId) (c : Cmd) (q : Nat) (x : Cq),
    s.live id true 0x04 = some c →
    field c.sqe.cdw10.toNat 15 0 = q →
    q ≠ 0 →
    s.cq c.func q = some x →
    (s.hif.sqs.any (fun e => match e.2 with | some y => e.1 / 65536 == c.func && y.cq == q | none => false) = false) →
    exec (.deleteIoCq id) s = .next ((s.setCq c.func q none).finish id .success))

/-- Identify and Get Log Page return the page that the model composes for the CNS or log identifier, whose bytes that no rule states are free,
and succeed where the SGL, if there is one, describes enough bytes; a log page is returned from its offset on. Get Features answers in DW0
the value of a supported feature as the selector asks: current, default or saved; the capabilities for selector 3; the timestamp's bytes
are free data. -/
def Obligations.IdentifyLogsAndFeatures : Prop :=
  (∀ (s : State) (id : CmdId) (c : Cmd) (p : Bytes × State),
    s.live id true 0x06 = some c →
    s.identifyPage c = .ok p →
    exec (.identify id) s = .next (p.2.answer id p.1)) ∧
  (∀ (s : State) (id : CmdId) (c : Cmd) (p : Bytes × State),
    s.live id true 0x02 = some c →
    s.logPage c = .ok p →
    logPastEnd c.sqe p.1.length = false →
    exec (.getLogPage id) s = .next (p.2.answer id (logWindow c.sqe p.1))) ∧
  (∀ (s : State) (id : CmdId) (c : Cmd) (v : Nat × State),
    s.live id true 0x0A = some c →
    featureIds.contains (field c.sqe.cdw10.toNat 7 0) = true →
    field c.sqe.cdw10.toNat 10 8 = 0 →
    field c.sqe.cdw10.toNat 7 0 ≠ 0x06 ∨ s.volatileNow = true →
    field c.sqe.cdw10.toNat 7 0 ≠ 0x0E →
    s.featureValue c (s.fn c.func).features (field c.sqe.cdw10.toNat 7 0) = some v →
    exec (.getFeatures id) s = .next (v.2.finish id .success (BitVec.ofNat 32 v.1))) ∧
  (∀ (s : State) (id : CmdId) (c : Cmd),
    s.live id true 0x0A = some c →
    featureIds.contains (field c.sqe.cdw10.toNat 7 0) = true →
    field c.sqe.cdw10.toNat 10 8 = 3 →
    field c.sqe.cdw10.toNat 7 0 ≠ 0x06 ∨ s.volatileNow = true →
    exec (.getFeatures id) s = .next (s.finish id .success (BitVec.ofNat 32 (flag (featureSaveable (field c.sqe.cdw10.toNat 7 0)) + 4))))

/-- Set Features Volatile Write Cache sets WCE in the VOLATILE hold-up state, and is refused in PROTECTED; Number of Queues answers the
function's allotment, zero-based, in both halves of DW0; Timestamp stores the time and records it; Temperature Threshold sets the over or
under threshold of the composite temperature and looks at the temperature again; Arbitration sets the burst and the three weights. Each
succeeds; Temperature Threshold and Arbitration change the saved value too where Save is set. -/
def Obligations.SetFeaturesTakeEffect : Prop :=
  (∀ (s : State) (id : CmdId) (c : Cmd),
    s.live id true 0x09 = some c →
    field c.sqe.cdw10.toNat 7 0 = 0x06 →
    bit c.sqe.cdw10.toNat 31 = false →
    s.volatileNow = true →
    exec (.setFeaturesVolatileWriteCache id) s = .next ((s.updFn c.func (fun f => { f with wce := bit c.sqe.cdw11.toNat 0 })).finish id .success)) ∧
  (∀ (s : State) (id : CmdId) (c : Cmd),
    s.live id true 0x09 = some c →
    field c.sqe.cdw10.toNat 7 0 = 0x06 →
    bit c.sqe.cdw10.toNat 31 = false →
    s.volatileNow = false →
    exec (.setFeaturesVolatileWriteCache id) s = .next (s.finish id .invalidField)) ∧
  (∀ (s : State) (id : CmdId) (c : Cmd) (n : Nat),
    s.live id true 0x09 = some c →
    field c.sqe.cdw10.toNat 7 0 = 0x07 →
    bit c.sqe.cdw10.toNat 31 = false →
    field c.sqe.cdw11.toNat 15 0 ≠ 0xFFFF →
    field c.sqe.cdw11.toNat 31 16 ≠ 0xFFFF →
    s.queueAllotment c.func = n + 1 →
    exec (.setFeaturesNumberOfQueues id) s = .next (s.finish id .success (BitVec.ofNat 32 (n * 65537)))) ∧
  (∀ (s : State) (id : CmdId) (wallMs tick : Nat) (c : Cmd),
    s.live id true 0x09 = some c →
    field c.sqe.cdw10.toNat 7 0 = 0x0E →
    bit c.sqe.cdw10.toNat 31 = false →
    c.sqe.sgl = false →
    exec (.setFeaturesTimestamp id wallMs tick) s = .next (((s.updFn c.func (fun f => { f with
        features := { f.features with timestamp := wallMs } })).timeMark wallMs tick).finish id .success)) ∧
  (∀ (s : State) (id : CmdId) (c : Cmd),
    s.live id true 0x09 = some c →
    field c.sqe.cdw10.toNat 7 0 = 0x04 →
    bit c.sqe.cdw10.toNat 31 = false →
    field c.sqe.cdw11.toNat 19 16 = 0 →
    field c.sqe.cdw11.toNat 21 20 = 0 →
    exec (.setFeaturesTemperatureThreshold id) s = .next (((s.updFn c.func (fun f => { f with
        features := { f.features with tempOver := field c.sqe.cdw11.toNat 15 0 } })).checkTemp c.func).finish id .success)) ∧
  (∀ (s : State) (id : CmdId) (c : Cmd),
    s.live id true 0x09 = some c →
    field c.sqe.cdw10.toNat 7 0 = 0x04 →
    bit c.sqe.cdw10.toNat 31 = false →
    field c.sqe.cdw11.toNat 19 16 = 0 →
    field c.sqe.cdw11.toNat 21 20 = 1 →
    exec (.setFeaturesTemperatureThreshold id) s = .next (((s.updFn c.func (fun f => { f with
        features := { f.features with tempUnder := field c.sqe.cdw11.toNat 15 0 } })).checkTemp c.func).finish id .success)) ∧
  (∀ (s : State) (id : CmdId) (c : Cmd) (v : Features),
    s.live id true 0x09 = some c →
    field c.sqe.cdw10.toNat 7 0 = 0x01 →
    bit c.sqe.cdw10.toNat 31 = false →
    v = { (s.fn c.func).features with ab := BitVec.ofNat 3 (field c.sqe.cdw11.toNat 2 0), lpw := BitVec.ofNat 8 (field c.sqe.cdw11.toNat 15 8), mpw := BitVec.ofNat 8 (field c.sqe.cdw11.toNat 23 16), hpw := BitVec.ofNat 8 (field c.sqe.cdw11.toNat 31 24) } →
    ∃ t, exec (.setFeaturesArbitration id) s = .next t ∧ t = (s.updFn c.func (fun f => { f with
        features := { f.features with ab := v.ab, lpw := v.lpw, mpw := v.mpw, hpw := v.hpw } })).finish id .success)

/-- An Asynchronous Event Request is completed at once by the oldest event that waits, with its DW0; with none it waits, one of at most eight.
Device Self-test of a supported code succeeds. NVMe-MI Send and Receive succeed with a free tunnelled status, a Receive after writing free
bytes to its data pointer; a message over SMBus is answered out of band with free bytes (log 46). Nothing else is touched. -/
def Obligations.EventsSelfTestAndManagementInterface : Prop :=
  (∀ (s : State) (id : CmdId) (c : Cmd) (e : BitVec 32) (es : List (BitVec 32)),
    s.live id true 0x0C = some c →
    id ∉ (s.fn c.func).aers →
    (s.fn c.func).events = e :: es →
    exec (.asynchronousEventRequest id) s = .next ((s.updFn c.func (fun x => { x with events := es })).finish id .success e)) ∧
  (∀ (s : State) (id : CmdId) (c : Cmd),
    s.live id true 0x0C = some c →
    id ∉ (s.fn c.func).aers →
    (s.fn c.func).events = [] →
    (s.fn c.func).aers.length < 8 →
    exec (.asynchronousEventRequest id) s = .next (s.updFn c.func (fun x => { x with aers := x.aers ++ [id] }))) ∧
  (∀ (s : State) (id : CmdId) (c : Cmd),
    s.live id true 0x14 = some c →
    field c.sqe.cdw10.toNat 3 0 = 1 ∨ field c.sqe.cdw10.toNat 3 0 = 2 ∨ field c.sqe.cdw10.toNat 3 0 = 15 →
    exec (.deviceSelfTest id) s = .next (s.finish id .success)) ∧
  (∀ (s : State) (id : CmdId) (msg : Bytes) (c : Cmd),
    s.live id true 0x1D = some c →
    exec (.nvmeMiSend id msg) s = .next ({ s with freeCtr := s.freeCtr + 1 }.finish id .success (Config.freeValue 32 s.freeCtr))) ∧
  (∀ (s : State) (id : CmdId) (c : Cmd),
    s.live id true 0x1E = some c →
    c.sqe.dptrLen = 0 →
    c.fromPartner = false →
    exec (.nvmeMiReceive id) s = .next ({ s with freeCtr := s.freeCtr + 2 }.finish id .success (Config.freeValue 32 (s.freeCtr + 1)))) ∧
  (∀ (s : State) (id : CmdId) (c : Cmd),
    s.live id true 0x1E = some c →
    exec (.nvmeMiReceive id) s = .next ((((s.drawBytes c.sqe.dptrLen).2.draw 32).2.reply id (s.drawBytes c.sqe.dptrLen).1).finish id .success
        ((s.drawBytes c.sqe.dptrLen).2.draw 32).1)) ∧
  (∀ (s : State) (msg : Bytes),
    s.psm.mode.live = true →
    ∃ t, exec (.nvmeMiOverSmbus msg) s = .next t ∧ t = { s with freeCtr := s.freeCtr + 2, hif := { s.hif with smbReply := t.hif.smbReply } })

/-- Namespace Management create with valid bytes 3840 and 3841, format and size makes the namespace under the lowest free NSID, which DW0
returns; delete of a namespace that the function may delete, once nothing accepted earlier still works on it, removes it with its contents
and its charge; attach of a detached namespace to one present function within its allotment attaches it; detach clears the attachment and
keeps the key owner and the charge. Format NVM, once the function's earlier commands have completed, erases as SES asks and gives the
named namespaces their new format. Sanitize from a physical function starts, is recorded, and succeeds; run again once nothing earlier is
open, it erases every namespace of the device. -/
def Obligations.NamespacesAreManaged : Prop :=
  (∀ (s : State) (id : CmdId) (d : NsData) (c : Cmd) (i : Nat) (n : Ns),
    s.live id true 0x0D = some c →
    field c.sqe.cdw10.toNat 3 0 = 0 →
    n = { object := d.b3840 == 1, verifyDefault := d.b3841 == 1, blocks := d.nsze, lbaf := field d.flbas 3 0, pi := field d.dps 2 0, extended := bit d.flbas 4 } →
    ((d.b3840 == 0 && d.b3841 == 0) || (d.b3840 == 1 && (d.b3841 == 0 || d.b3841 == 1))) = true →
    formatOk n.object n.lbaf n.pi = true →
    bit d.dps 3 = false →
    d.nsze ≠ 0 →
    d.ncap ≤ d.nsze →
    field c.sqe.cdw11.toNat 31 24 = 0 →
    c.sqe.sgl = false →
    d.nsze * lbaBytes n.lbaf ≤ s.usableGib s.flash.cfg * 2 ^ 30 →
    (((List.range 1024).map (· + 1)).find? (fun i => (s.ns i).isNone) = some i) →
    exec (.namespaceCreate id d) s = .next ((s.setNs i (some n)).finish id .success (BitVec.ofNat 32 i))) ∧
  (∀ (s : State) (id : CmdId) (c : Cmd) (n : Ns),
    s.live id true 0x0D = some c →
    field c.sqe.cdw10.toNat 3 0 = 1 →
    c.sqe.nsid ≠ 0xFFFFFFFF →
    s.ns (sqeNsid c.sqe) = some n →
    c.func ≤ 1 ∨ n.attached = some c.func →
    s.nsBusy id (sqeNsid c.sqe) = false →
    exec (.namespaceDelete id) s = .next ((((s.eraseNs (sqeNsid c.sqe)).refundNs n).setNs (sqeNsid c.sqe) none).finish id .success)) ∧
  (∀ (s : State) (id : CmdId) (ctrls : List Nat) (c : Cmd) (n : Ns) (f : Nat),
    s.live id true 0x15 = some c →
    field c.sqe.cdw10.toNat 3 0 = 0 →
    s.ns (sqeNsid c.sqe) = some n →
    c.sqe.sgl = false →
    ctrls.map s.controller = [some f] →
    c.func ≤ 1 →
    n.attached = none →
    n.keyOwner = some f ∨ (s.fn f).capacityUsed + nsCharge n ≤ s.capacityLimit f →
    exec (.namespaceAttach id ctrls) s = .next ((s.attachNs (sqeNsid c.sqe) n f).finish id .success)) ∧
  (∀ (s : State) (id : CmdId) (ctrls : List Nat) (c : Cmd) (n : Ns) (f : Nat),
    s.live id true 0x15 = some c →
    field c.sqe.cdw10.toNat 3 0 = 1 →
    s.ns (sqeNsid c.sqe) = some n →
    c.sqe.sgl = false →
    ctrls.map s.controller = [some f] →
    c.func ≤ 1 →
    n.attached = some f →
    s.nsBusy id (sqeNsid c.sqe) = false →
    exec (.namespaceDetach id ctrls) s = .next ((s.setNs (sqeNsid c.sqe) (some { n with attached := none })).finish id .success)) ∧
  (∀ (s : State) (id : CmdId) (c : Cmd) (named mine : List Nat) (e : Nat),
    s.live id true 0x80 = some c →
    mine = (s.nsOf c.func).map (·.1) →
    (named = (if c.sqe.nsid = 0xFFFFFFFF then mine else mine.filter (· == sqeNsid c.sqe))) →
    named ≠ [] →
    field c.sqe.cdw10.toNat 11 9 = e →
    e ≤ 2 →
    bit c.sqe.cdw10.toNat 8 = false →
    field c.sqe.cdw10.toNat 13 12 = 0 →
    (named.any (fun i => match s.ns i with | some n => !formatOk n.object (field c.sqe.cdw10.toNat 3 0) (field c.sqe.cdw10.toNat 7 5) | none => false) = false) →
    (s.earlierOpen id (fun x => x.func == c.func) = false) →
    ∃ t, exec (.formatNvm id) s = .next (t.finish id .success) ∧
      t = (if e = 2 then (named.foldl (fun s i => s.reformat i c.sqe.cdw10.toNat) (mine.foldl State.eraseNs s)).cryptoErase c.func
           else named.foldl (fun s i => s.reformat i c.sqe.cdw10.toNat) (if e = 0 then s else mine.foldl State.eraseNs s))) ∧
  (∀ (s : State) (id : CmdId) (c : Cmd) (act : Nat),
    s.live id true 0x84 = some c →
    field c.sqe.cdw10.toNat 2 0 = act →
    act = 2 ∨ act = 4 →
    s.hif.sanitizing = none →
    exec (.sanitize id) s = .next (({ s with hif := { s.hif with sanitizing := some (id, act) } }.raise evSanitizeStarted c.func
        [(4, act), (1, c.func)]).finish id .success)) ∧
  (∀ (s : State) (id : CmdId) (act : Nat),
    s.hif.sanitizing = some (id, act) →
    s.psm.mode.engines = true →
    (s.earlierOpen id (fun _ => true) = false) →
    ∃ t, exec (.sanitize id) s = .next t ∧ t = { s.sanitizeAll (act == 4) with hif := { (s.sanitizeAll (act == 4)).hif with sanitizing := none } })

/-- On a block namespace attached to the function: Register of a new key adds the registrant and advances the generation; Acquire by a
registrant with its current key, when nobody holds the reservation, makes it the holder of the type asked for; Release by the holder, with
its key and the type held, clears it; Report returns the model's reservation status, whose host identifiers are free. Only that
namespace's reservation state changes. -/
def Obligations.ReservationsRunAsNvmExpressSays : Prop :=
  (∀ (s : State) (id : CmdId) (crkey nrkey : BitVec 64) (c : Cmd) (n : Ns),
    s.live id false 0x0D = some c →
    c.away = false →
    s.resvTarget c = .ok n →
    c.sqe.sgl = false →
    field c.sqe.cdw10.toNat 2 0 = 0 →
    n.resv.keyOf c.func = none →
    exec (.reservationRegister id crkey nrkey) s = .next ((s.setNs (sqeNsid c.sqe) (some { n with
        resv := { n.resv with regs := n.resv.regs ++ [(c.func, nrkey)], gen := n.resv.gen + 1 } })).finish id .success)) ∧
  (∀ (s : State) (id : CmdId) (crkey prkey : BitVec 64) (c : Cmd) (n : Ns),
    s.live id false 0x11 = some c →
    c.away = false →
    s.resvTarget c = .ok n →
    c.sqe.sgl = false →
    field c.sqe.cdw10.toNat 2 0 = 0 →
    n.resv.keyOf c.func = some crkey →
    n.resv.holder = none →
    1 ≤ field c.sqe.cdw10.toNat 15 8 →
    field c.sqe.cdw10.toNat 15 8 ≤ 6 →
    exec (.reservationAcquire id crkey prkey) s = .next ((s.setNs (sqeNsid c.sqe) (some { n with
        resv := { n.resv with holder := some (c.func, field c.sqe.cdw10.toNat 15 8) } })).finish id .success)) ∧
  (∀ (s : State) (id : CmdId) (crkey : BitVec 64) (c : Cmd) (n : Ns) (k : Nat),
    s.live id false 0x15 = some c →
    c.away = false →
    s.resvTarget c = .ok n →
    c.sqe.sgl = false →
    field c.sqe.cdw10.toNat 2 0 = 0 →
    n.resv.keyOf c.func = some crkey →
    n.resv.holder = some (c.func, k) →
    field c.sqe.cdw10.toNat 15 8 = k →
    exec (.reservationRelease id crkey) s = .next ((s.setNs (sqeNsid c.sqe) (some { n with resv := { n.resv with holder := none } })).finish id .success)) ∧
  (∀ (s : State) (id : CmdId) (c : Cmd) (n : Ns),
    s.live id false 0x0E = some c →
    c.away = false →
    s.resvTarget c = .ok n →
    exec (.reservationReport id) s = .next ((s.resvStatus n.resv (bit c.sqe.cdw11.toNat 0)).2.answer id
        ((s.resvStatus n.resv (bit c.sqe.cdw11.toNat 0)).1.take (4 * (c.sqe.cdw10.toNat + 1)))))

/-- A piece of a firmware image within 1,536 KiB is placed at its offset and succeeds. A commit that writes slot 2 or 3 of an image that
passes its checks stores its SVN, revision and length in the slot (an image that fails a check is refused and recorded; whether a
signature verifies is open, log 4), and by its Commit Action 001b makes the slot active at the next BOOT; Commit Action 010b makes a slot
that holds an image active without writing. Commit Action 011b stops fetching and leaves the activation to FW_ACTIVATION, which, once only
the commit is left, runs the new slot, raises the minimum SVN to the image's and resumes fetching; a pair that does not restart fails the
commit, and fetching resumes too. -/
def Obligations.FirmwareImagesAreWrittenAndActivated : Prop :=
  (∀ (s : State) (id : CmdId) (data : Bytes) (c : Cmd),
    s.live id true 0x11 = some c →
    4 * c.sqe.cdw11.toNat + 4 * (c.sqe.cdw10.toNat + 1) ≤ 1572864 →
    c.sqe.sgl = false →
    exec (.firmwareImageDownload id data) s = .next ((s.updFn c.func (fun x => { x with
        fwDownload := splice x.fwDownload (4 * c.sqe.cdw11.toNat) (padTo (4 * (c.sqe.cdw10.toNat + 1)) data) })).finish id .success)) ∧
  (∀ (s : State) (id : CmdId) (c : Cmd) (act slot : Nat) (img : Bytes),
    s.live id true 0x10 = some c →
    field c.sqe.cdw10.toNat 5 3 = act →
    act = 0 ∨ act = 1 →
    s.cfgBusy = false →
    s.fwTarget (field c.sqe.cdw10.toNat 2 0) = slot →
    slot = 2 ∨ slot = 3 →
    (s.fn c.func).fwDownload = img →
    ∃ t, exec (.firmwareCommit id) s = .next t ∧
      (s.fwReason img = none → Mem.get {} t.nvs.fw slot = fwSlotOf img ∧ (t.fn c.func).fwDownload = [] ∧
        t.nvs.fwActive = (if act = 1 then slot else s.nvs.fwActive) ∧ t.ResultIs id { status := .success }) ∧
      (∀ r, s.fwReason img = some r → t = (s.raise evFwImageRejected 255 [(1, r), (1, slot)]).finish id .invalidFirmwareImage)) ∧
  (∀ (s : State) (id : CmdId) (c : Cmd) (slot : Nat),
    s.live id true 0x10 = some c →
    field c.sqe.cdw10.toNat 5 3 = 2 →
    s.cfgBusy = false →
    s.fwTarget (field c.sqe.cdw10.toNat 2 0) = slot →
    slot ≤ 3 →
    (s.fwSlot slot).present = true ∨ slot = 1 →
    exec (.firmwareCommit id) s = .next ({ s with nvs := { s.nvs with fwActive := slot } }.finish id .success)) ∧
  (∀ (s : State) (id : CmdId) (c : Cmd) (slot : Nat),
    s.live id true 0x10 = some c →
    field c.sqe.cdw10.toNat 5 3 = 3 →
    s.cfgBusy = false →
    s.hif.activating = none →
    s.fwTarget (field c.sqe.cdw10.toNat 2 0) = slot →
    (s.fn c.func).fwDownload = [] →
    (s.fwSlot slot).present = true →
    exec (.firmwareCommitActivate id) s = .next ({ s with hif := { s.hif with fetchStopped := true, activating := some (id, slot) } }.activationNotice)) ∧
  (∀ (s : State) (id : CmdId) (slot ms : Nat),
    s.hif.activating = some (id, slot) →
    s.onlyCommitLeft id = true →
    (∀ f ∈ s.present, (s.fn f).resetPending = false) →
    ∃ t, exec (.fwActivation none ms) s = .next t ∧ t.nvs.fwRunning = slot ∧ t.nvs.fwActive = slot ∧ t.hif.fetchStopped = false ∧
      t.hif.activating = none ∧ t.nvs.minSvn = (if slot = 1 then s.nvs.minSvn else Nat.max s.nvs.minSvn (s.fwSlot slot).svn)) ∧
  (∀ (s : State) (id : CmdId) (slot ms pair : Nat),
    s.hif.activating = some (id, slot) →
    s.onlyCommitLeft id = true →
    (∀ f ∈ s.present, (s.fn f).resetPending = false) →
    exec (.fwActivation (some pair) ms) s = .next ({ s with hif := { s.hif with fetchStopped := false, activating := none } }.finish id .invalidFirmwareImage))

/-- A RING finds the mailbox BUSY and sets IGNORED; else the request is taken and its checks are made. A prepared response becomes the
response bytes, LAST_SEQ and DONE, with the MSI-X message where it is enabled. MAILBOX_SEND of 16 to 4,096 bytes copies the request in,
takes it, and returns its SEQ in DW0; MAILBOX_RECEIVE returns the response buffer when it is DONE with the expected SEQ. A nonce that
expires is kept as expired. MB_ID_STATUS, MB_FW_STATUS and MB_ECHO prepare their payload; MB_AUTH_CHALLENGE gives a fresh nonce of 16 free
bytes in place of any earlier one. -/
def Obligations.MailboxCarriesRequestsAndResponses : Prop :=
  (∀ (s : State) (f : Nat),
    s.psm.mode.mailbox = true →
    (s.fn f).present = true →
    s.coxDown = false →
    s.hostGone f = false →
    Mem.get false s.hif.link (s.portOf f) = true →
    (s.mb f).state = .busy →
    exec (.mailboxRing f) s = .next (s.updMb f (fun m => { m with ignored := true })).wake) ∧
  (∀ (s : State) (f : Nat),
    s.psm.mode.mailbox = true →
    (s.fn f).present = true →
    s.coxDown = false →
    s.hostGone f = false →
    Mem.get false s.hif.link (s.portOf f) = true →
    (s.mb f).state ≠ .busy →
    exec (.mailboxRing f) s = .next (s.takeRequest f).wake) ∧
  (∀ (s : State) (f : Nat) (p : MbResp),
    (s.mb f).unchecked = false →
    (s.mb f).prepared = some p →
    s.psm.mode.mailbox = true →
    s.psm.mode ≠ .rest →
    s.coxDown = false →
    (s.mb f).state = .busy →
    (s.mb f).irqEn = false →
    exec (.mailboxResponse f) s = .next (s.updMb f (fun m => { m with
        resp := respHeader m.taken p ++ p.payload ++ m.resp.drop (16 + p.payload.length), lastSeq := BitVec.ofNat 16 (mbSeq m.taken)
        state := .done, prepared := none, waiting := false, taken := [] }))) ∧
  (∀ (s : State) (id : CmdId) (data : Bytes) (c : Cmd) (n : Nat),
    s.live id true 0xC1 = some c →
    mbNumb c.sqe = some n →
    c.sqe.sgl = false →
    s.coxDown = false →
    (s.mb c.func).state ≠ .busy →
    exec (.mailboxSend id data) s = .next (((s.updMb c.func (fun m => { m with req := writeBytes m.req 0 (padTo n data) })).takeRequest c.func).finish
        id .success (BitVec.ofNat 32 (mbSeq (padTo n data))))) ∧
  (∀ (s : State) (id : CmdId) (c : Cmd) (n : Nat),
    s.live id true 0xC2 = some c →
    mbNumb c.sqe = some n →
    (s.mb c.func).state = .done →
    bit c.sqe.cdw11.toNat 16 = true ∨ (s.mb c.func).lastSeq.toNat = field c.sqe.cdw11.toNat 15 0 →
    exec (.mailboxReceive id) s = .next (s.answer id (padTo n (s.mb c.func).resp))) ∧
  (∀ (s : State) (f : Nat),
    exec (.nonceExpire f) s = .next (s.updMb f (fun m => { m with nonce := m.nonce.map (fun n => (n.1, true)) }))) ∧
  (∀ (s : State) (f : Nat),
    s.MbReady f 0x0101 →
    exec (.mbIdStatus f) s = .next (s.mbAnswer f (mbOk (s.idStatus f)))) ∧
  (∀ (s : State) (f : Nat),
    s.MbReady f 0x0102 →
    exec (.mbFwStatus f) s = .next (s.mbAnswer f (mbOk s.fwStatus))) ∧
  (∀ (s : State) (f : Nat),
    s.MbReady f 0x0103 →
    exec (.mbEcho f) s = .next (s.mbAnswer f (mbOk (s.mbRequest f)))) ∧
  (∀ (s : State) (f : Nat),
    s.MbReady f 0x0902 →
    exec (.mbAuthChallenge f) s = .next (((s.drawBytes 16).2.updMb f (fun m => { m with nonce := some ((s.drawBytes 16).1, false) })).mbAnswer f
        (mbOk (s.drawBytes 16).1)))

/-- In a live mode: clearing CC.EN of an enabled function is a controller reset; setting it on a present function enables it and it becomes
ready, or will when its reset ends; an NVM Subsystem Reset from a physical function resets the controller of every present function; a
Function Level Reset retires the function, and a physical function's virtual functions are removed; PERST does the same to its port's
functions and takes the link down. A reset ends when no work carries the next generation: the generation advances by one and the function
can become ready; a removal also waits for the work of its own generation, zeroises the key slots, and the function is gone. VF Disable
removes the virtual functions of a physical function; VF Enable makes as many present as asked, up to TotalVFs; Virtualization Management
takes one offline as a removal or brings it online. -/
def Obligations.ResetsRetireAndAdvanceGenerations : Prop :=
  (∀ (s : State) (f : Nat),
    s.psm.mode.live = true →
    (s.fn f).en = true →
    s.hostGone f = false →
    exec (.ccEnClear f) s = .next (s.controllerReset f).wake) ∧
  (∀ (s : State) (f : Nat) (ams : BitVec 3),
    s.psm.mode.live = true →
    (s.fn f).present = true →
    (s.fn f).en = false →
    s.hostGone f = false →
    exec (.ccEnSet f ams) s = .next ((s.updFn f (fun x => { x with en := true, ams := ams })).becomeReady f).wake) ∧
  (∀ (s : State) (f : Nat),
    s.psm.mode.live = true →
    f ≤ 1 →
    (s.fn f).present = true →
    s.hostGone f = false →
    exec (.nvmSubsystemReset f) s = .next (s.present.foldl State.controllerReset s).wake) ∧
  (∀ (s : State) (f : Nat),
    s.psm.mode.live = true →
    (s.fn f).present = true →
    s.noRefclk f = false →
    exec (.functionLevelReset f) s = .next (if f ≤ 1 then (s.retire f false).removeVfs f else s.retire f false)) ∧
  (∀ (s : State) (f waitedUs : Nat),
    (s.fn f).resetting = true →
    (s.fn f).removing = false →
    s.pendingWork f ((s.fn f).gen + 1) = 0 →
    (s.fn f).en = false →
    ∃ t, exec (.generationAdvance f waitedUs) s = .next t ∧ (t.fn f).gen = (s.fn f).gen + 1 ∧ (t.fn f).resetting = false ∧ (t.fn f).present = (s.fn f).present) ∧
  (∀ (s : State) (f waitedUs : Nat),
    (s.fn f).resetting = true →
    (s.fn f).removing = true →
    s.pendingWork f ((s.fn f).gen + 1) = 0 →
    s.pendingWork f (s.fn f).gen = 0 →
    ∃ t, exec (.generationAdvance f waitedUs) s = .next t ∧ (t.fn f).gen = (s.fn f).gen + 1 ∧ (t.fn f).present = false ∧
      ∀ e ∈ t.cpe.slots, e.2.func ≠ f) ∧
  (∀ (s : State) (pf : Nat),
    s.psm.mode.live = true →
    pf ≤ 1 →
    s.noRefclk pf = false →
    exec (.vfDisable pf) s = .next (s.removeVfs pf)) ∧
  (∀ (s : State) (pf num : Nat) (t : State),
    s.psm.mode.live = true →
    pf ≤ 1 →
    (s.fn pf).present = true →
    Mem.get 0 s.hif.numVfs pf = 0 →
    num ≤ s.totalVfs pf →
    t = { s with hif := { s.hif with numVfs := Mem.set 0 s.hif.numVfs pf num } } →
    ((t.vfsOf pf).any (fun f => (s.fn f).removing) = false) →
    s.noRefclk pf = false →
    exec (.vfEnable pf num) s = .next ((t.vfsOf pf).foldl (fun s f => s.updFn f (fun x => { x with present := true }.fillBuckets)) t)) ∧
  (∀ (s : State) (id : CmdId) (c : Cmd) (v : Nat),
    s.live id true 0x1C = some c →
    field c.sqe.cdw10.toNat 31 16 % 256 = v →
    2 ≤ v →
    (s.vfsOf c.func).contains v = true →
    field c.sqe.cdw10.toNat 3 0 = 7 →
    exec (.virtualizationManagement id) s = .next ((s.beginRemoval v).finish id .success)) ∧
  (∀ (s : State) (id : CmdId) (c : Cmd) (v : Nat),
    s.live id true 0x1C = some c →
    field c.sqe.cdw10.toNat 31 16 % 256 = v →
    2 ≤ v →
    (s.vfsOf c.func).contains v = true →
    field c.sqe.cdw10.toNat 3 0 = 9 →
    (s.fn v).resetting = false →
    exec (.virtualizationManagement id) s = .next ((s.updFn v (fun x => { x with present := true }.fillBuckets)).finish id .success))

/-- On a port in use, in a live mode: PERST low resets the port's functions, takes the link down and is kept; training with the reference
present brings the link up at the width and rate found, and a width or rate below the configured one is recorded; an uncorrectable error
is recorded with its status and header; the loss of the 100 MHz reference takes the link down and is recorded; its return lets the link
train again. -/
def Obligations.LinksTrainFailAndReturn : Prop :=
  (∀ (s : State) (port : Nat),
    s.psm.mode.live = true →
    s.portUsed port = true →
    ∃ t, exec (.pciePerstAssert port) s = .next t ∧ Mem.get false t.hif.perst port = true ∧ Mem.get false t.hif.link port = false ∧
      (t.fn port).devControl = 0x2010) ∧
  (∀ (s : State) (port width speed : Nat),
    s.psm.mode.live = true →
    s.portUsed port = true →
    Mem.get false s.hif.refclkLost port = false →
    width = s.portWidth →
    speed = 6 →
    exec (.linkTraining port width speed) s = .next { s with hif := { s.hif with
        perst := Mem.set false s.hif.perst port false, link := Mem.set false s.hif.link port true
        linkWidth := Mem.set 0 s.hif.linkWidth port width, linkSpeed := Mem.set 0 s.hif.linkSpeed port speed } }) ∧
  (∀ (s : State) (port width speed : Nat) (t : State),
    s.psm.mode.live = true →
    s.portUsed port = true →
    Mem.get false s.hif.refclkLost port = false →
    width = 1 ∨ width = 2 →
    1 ≤ speed →
    speed ≤ 6 →
    t = { s with hif := { s.hif with perst := Mem.set false s.hif.perst port false, link := Mem.set false s.hif.link port true, linkWidth := Mem.set 0 s.hif.linkWidth port width, linkSpeed := Mem.set 0 s.hif.linkSpeed port speed } } →
    exec (.linkTraining port width speed) s =
      .next (t.raiseFrom (0x0400 + port) evLinkDegraded 255 [(1, width), (1, speed), (1, s.portWidth), (1, 6)])) ∧
  (∀ (s : State) (port : Nat) (status : BitVec 32) (header : BitVec 128),
    s.psm.mode.live = true →
    s.portUsed port = true →
    exec (.pcieUncorrectable port status header) s =
      .next ({ s with hif := { s.hif with
        aerStatus := Mem.upd 0 s.hif.aerStatus port (· ||| status), aerHeader := Mem.set 0 s.hif.aerHeader port header } }.raiseFrom
        (0x0400 + port) evPcieUncorrectable 255 [(4, status.toNat), (16, header.toNat)])) ∧
  (∀ (s : State) (port : Nat),
    s.psm.mode.live = true →
    s.portUsed port = true →
    Mem.get false s.hif.refclkLost port = false →
    ∃ t, exec (.hostRefclkLost port) s = .next t ∧ Mem.get false t.hif.refclkLost port = true ∧ Mem.get false t.hif.link port = false ∧ t.recd.next = s.recd.next + 1) ∧
  (∀ (s : State) (port : Nat),
    exec (.hostRefclkReturn port) s = .next { s with hif := { s.hif with refclkLost := Mem.set false s.hif.refclkLost port false } })

/-- On an object namespace of the function, when the command's turn on its object has come: an append whose fields, object and position are
right and that has room grows the object by its data and, where no flash wait applies, succeeds; one without room has the buffer
programmed and waits, and one with a unit that fails its check on entry, or refused, ends with its charge refunded; an index load on an
open, indexable object replaces the index from 0 or adds to its end; a seal of an object whose chunks all have their place in the Chive
table seals it; a seal of a sealed object answers its flags again; a query returns the first bytes of the descriptor; a delete removes the
object, which readings accepted before still keep. -/
def Obligations.ObjectCommandsDoTheirWork : Prop :=
  (∀ (s : State) (id : CmdId) (data : Bytes) (bad : Option TagFault) (c : Cmd) (n : Ns),
    s.live id false 0x81 = some c →
    c.moved = false →
    s.objectTurn id c = true →
    s.objectTarget c = .ok n →
    s.appendRefused c = none →
    s.hasRuns (appendRuns (s.appendAt c) (field c.sqe.cdw14.toNat 21 0)) = true →
    faultOf bad = none →
    s.obj (sqeNsid c.sqe) (sqeOid c.sqe) = none →
    s.volatileNow = false →
    exec (.essenceAppend id data bad) s = .next ((((fun u : State => (u.noteCommitted id (u.extKeys (sqeNsid c.sqe) (sqeOid c.sqe) (sqeOffset c.sqe) (field c.sqe.cdw14.toNat 21 0))).programBuffer false) ((((s.createObject c n).storeData (sqeNsid c.sqe) (sqeOid c.sqe) (padTo (field c.sqe.cdw14.toNat 21 0) data) c.gen.toNat []).unstage (.cmd id)).updCmd id
        (fun c => { c with charge := 0, moved := true, needFlash := false, undo := none }))).finish id .success).writeDone id)) ∧
  (∀ (s : State) (id : CmdId) (data : Bytes) (bad : Option TagFault) (c : Cmd) (n : Ns) (o : Obj),
    s.live id false 0x81 = some c →
    c.moved = false →
    s.objectTurn id c = true →
    s.objectTarget c = .ok n →
    s.appendRefused c = none →
    s.hasRuns (appendRuns (s.appendAt c) (field c.sqe.cdw14.toNat 21 0)) = true →
    faultOf bad = none →
    s.obj (sqeNsid c.sqe) (sqeOid c.sqe) = some o →
    o.lastHashed = false →
    s.appendFrom o = o.length →
    s.volatileNow = false →
    exec (.essenceAppend id data bad) s = .next ((((fun u : State => (u.noteCommitted id (u.extKeys (sqeNsid c.sqe) (sqeOid c.sqe) (sqeOffset c.sqe) (field c.sqe.cdw14.toNat 21 0))).programBuffer false) (((s.storeData (sqeNsid c.sqe) (sqeOid c.sqe) (padTo (field c.sqe.cdw14.toNat 21 0) data) c.gen.toNat []).unstage (.cmd id)).updCmd id
        (fun c => { c with charge := 0, moved := true, needFlash := false, undo := none }))).finish id .success).writeDone id)) ∧
  (∀ (s : State) (id : CmdId) (data : Bytes) (bad : Option TagFault) (c : Cmd) (n : Ns) (b : TagFault),
    s.live id false 0x81 = some c →
    c.moved = false →
    s.objectTurn id c = true →
    s.objectTarget c = .ok n →
    s.appendRefused c = none →
    s.hasRuns (appendRuns (s.appendAt c) (field c.sqe.cdw14.toNat 21 0)) = true →
    faultOf bad = some b →
    exec (.essenceAppend id data bad) s = .next ((s.badTransfer id c b).failAppend id c .internalContained)) ∧
  (∀ (s : State) (id : CmdId) (data : Bytes) (bad : Option TagFault) (c : Cmd) (n : Ns),
    s.live id false 0x81 = some c →
    c.moved = false →
    s.objectTurn id c = true →
    s.objectTarget c = .ok n →
    s.appendRefused c = none →
    s.hasRuns (appendRuns (s.appendAt c) (field c.sqe.cdw14.toNat 21 0)) = false →
    exec (.essenceAppend id data bad) s = .next (s.programBuffer true)) ∧
  (∀ (s : State) (id : CmdId) (data : Bytes) (bad : Option TagFault) (c : Cmd) (n : Ns) (e : Status),
    s.live id false 0x81 = some c →
    c.moved = false →
    s.objectTurn id c = true →
    s.objectTarget c = .ok n →
    s.appendRefused c = some e →
    exec (.essenceAppend id data bad) s = .next (s.failAppend id c e)) ∧
  (∀ (s : State) (id : CmdId) (data : Bytes) (c : Cmd) (n : Ns) (o : Obj),
    s.live id false 0x85 = some c →
    s.objectTurn id c = true →
    s.objectTarget c = .ok n →
    indexFieldsOk c.sqe = true →
    c.sqe.sgl = false →
    s.obj (sqeNsid c.sqe) (sqeOid c.sqe) = some o →
    o.isSealed = false →
    o.plain = false →
    field c.sqe.cdw12.toNat 25 0 + field c.sqe.cdw14.toNat 21 0 ≤ 67108864 →
    field c.sqe.cdw12.toNat 25 0 = 0 ∨ field c.sqe.cdw12.toNat 25 0 = o.index.length →
    exec (.sampleIndexLoad id data) s = .next (((s.updObj o.nsid o.oid (fun o => { o with
        index := (if field c.sqe.cdw12.toNat 25 0 = 0 then [] else o.index) ++ padTo (field c.sqe.cdw14.toNat 21 0) data })).finish id .success).writeDone id)) ∧
  (∀ (s : State) (id : CmdId) (c : Cmd) (n : Ns) (o : Obj),
    s.live id false 0x88 = some c →
    s.objectTurn id c = true →
    s.objectTarget c = .ok n →
    sealFieldsOk c.sqe = true →
    s.obj (sqeNsid c.sqe) (sqeOid c.sqe) = some o →
    o.isSealed = false →
    o.plain = true ∨ c.moved = true →
    (o.chunks.all (fun r => r.hashed && r.verifyWith.isNone) = true) →
    exec (.objectSeal id) s = .next ((s.updCmd id (fun c => { c with moved := true })).sealObject id o (bit c.sqe.cdw12.toNat 0))) ∧
  (∀ (s : State) (id : CmdId) (c : Cmd) (n : Ns) (o : Obj),
    s.live id false 0x88 = some c →
    s.objectTurn id c = true →
    s.objectTarget c = .ok n →
    sealFieldsOk c.sqe = true →
    s.obj (sqeNsid c.sqe) (sqeOid c.sqe) = some o →
    o.isSealed = true →
    exec (.objectSeal id) s = .next (s.finish id .success o.sealFlags)) ∧
  (∀ (s : State) (id : CmdId) (c : Cmd) (n : Ns) (o : Obj),
    s.live id false 0x8A = some c →
    s.objectTurn id c = true →
    s.objectTarget c = .ok n →
    1 ≤ c.sqe.cdw12.toNat →
    c.sqe.cdw13 = 0 →
    c.sqe.cdw14 = 0 →
    c.sqe.cdw15 = 0 →
    c.sqe.sgl = false →
    s.objFor id (sqeNsid c.sqe) (sqeOid c.sqe) = some o →
    exec (.objectQuery id) s = .next (s.answer id (o.descriptor.take (Nat.min c.sqe.cdw12.toNat 128)))) ∧
  (∀ (s : State) (id : CmdId) (c : Cmd) (n : Ns) (o : Obj),
    s.live id false 0x8C = some c →
    s.objectTurn id c = true →
    s.objectTarget c = .ok n →
    c.sqe.cdw12 = 0 →
    c.sqe.cdw13 = 0 →
    c.sqe.cdw14 = 0 →
    c.sqe.cdw15 = 0 →
    s.obj (sqeNsid c.sqe) (sqeOid c.sqe) = some o →
    exec (.objectDelete id) s = .next (((s.removeObject o id).finish id .success).writeDone id))

/-- The references of a deleted object go once the readings it waits for have results and no other object shares its map. A complete chunk
whose units are read is fingerprinted: a digest that no chunk of the same function has enters the Chive table; with a match, the chunk
becomes an alias at once, or in verify mode notes the chunk to compare with. A comparison makes an alias of equal chunks, records a
collision of different ones, and a failed read of one that cannot be read; where the other chunk is gone the lookup is made again. A
retiring profile version that no view uses is gone; nothing else is touched. -/
def Obligations.ChunksAreFingerprintedAndReleased : Prop :=
  (∀ (s : State) (nsid oid : Nat) (d : Obj × List CmdId),
    s.objs.deleted.find? (s.releaseDue nsid oid) = some d →
    ((s.objs.deleted.erase d).any (fun x => x.1.mapNo == d.1.mapNo) = false) →
    (s.objs.objects.any (fun x => x.mapNo == d.1.mapNo) = false) →
    exec (.chunkRefsRelease nsid oid) s =
      .next ((d.1.chunks.foldl (fun s r => s.dropRef r.chunk) ({ s with objs := { s.objs with deleted := s.objs.deleted.erase d } } : State)).journalMap d.1.tableIndex d.1.extents [])) ∧
  (∀ (s : State) (nsid oid : Nat) (d : Obj × List CmdId),
    s.objs.deleted.find? (s.releaseDue nsid oid) = some d →
    ((s.objs.deleted.erase d).any (fun x => x.1.mapNo == d.1.mapNo) = true ∨ s.objs.objects.any (fun x => x.mapNo == d.1.mapNo) = true) →
    exec (.chunkRefsRelease nsid oid) s = .next ({ s with objs := { s.objs with deleted := s.objs.deleted.erase d } } : State)) ∧
  (∀ (s : State) (nsid oid n : Nat) (o : Obj) (r : ChunkRef) (x : Chunk) (d : Bytes),
    s.obj nsid oid = some o →
    o.chunks[n]? = some r →
    s.chunk r.chunk = some x →
    r.hashed = false →
    s.psm.mode.engines = true →
    s.appending o.nsid o.oid = false →
    x.len = 1048576 ∨ s.sealing o.nsid o.oid = true →
    s.chunkBytes (.chunk r.chunk) r.chunk = some (some d) →
    exec (.chunkFingerprint nsid oid n) s = .next ((((s.unstage (.chunk r.chunk)).updObj nsid oid (fun o => { o with chunks := o.chunks.set n { r with hashed := true, digest := sha256 d, verifyWith := none } })).decideChunk o n { r with hashed := true, digest := sha256 d, verifyWith := none }).programBuffer false)) ∧
  (∀ (s : State) (nsid oid n : Nat) (o : Obj) (r : ChunkRef),
    s.obj nsid oid = some o →
    o.chunks[n]? = some r →
    r.hashed = true ∨ s.appending o.nsid o.oid = true →
    exec (.chunkFingerprint nsid oid n) s = .next s) ∧
  (∀ (s : State) (o : Obj) (n : Nat) (r : ChunkRef),
    r.kept = true ∨ s.chiveLookup o.func r.digest r.chunk = none →
    s.decideChunk o n r = s.enterChunk o.func r.chunk r.digest) ∧
  (∀ (s : State) (o : Obj) (n : Nat) (r : ChunkRef) (e : Chive),
    r.kept = false →
    s.chiveLookup o.func r.digest r.chunk = some e →
    o.verify = false →
    s.decideChunk o n r = (s.cacheChive e).aliasChunk o n e.chunk) ∧
  (∀ (s : State) (o : Obj) (n : Nat) (r : ChunkRef) (e : Chive),
    r.kept = false →
    s.chiveLookup o.func r.digest r.chunk = some e →
    o.verify = true →
    s.decideChunk o n r = (s.cacheChive e).updObj o.nsid o.oid (fun o => { o with chunks := o.chunks.set n { r with verifyWith := some e.chunk } })) ∧
  (∀ (s : State) (f own : Nat) (d : Bytes),
    (s.chiveLookup f d own = none ↔ ∀ e ∈ s.objs.chive, ¬ (e.func = f ∧ e.digest = d ∧ e.chunk ≠ own)) ∧ (∀ e, s.chiveLookup f d own = some e → e ∈ s.objs.chive ∧ e.func = f ∧ e.digest = d ∧ e.chunk ≠ own)) ∧
  (∀ (s : State) (nsid oid n t : Nat) (o : Obj) (r : ChunkRef) (y : Chunk) (a : Bytes),
    s.obj nsid oid = some o →
    o.chunks[n]? = some r →
    r.verifyWith = some t →
    s.chunk t = some y →
    s.chunkBytes (.chunk r.chunk) r.chunk = some (some a) →
    s.chunkBytes (.chunk r.chunk) t = some (some a) →
    exec (.verifyCompare nsid oid n true) s = .next ((((s.unstage (.chunk r.chunk)).updObj nsid oid (fun o => { o with chunks := o.chunks.set n { r with verifyWith := none } })).aliasChunk o n t).programBuffer false)) ∧
  (∀ (s : State) (nsid oid n t : Nat) (o : Obj) (r : ChunkRef) (y : Chunk) (a b : Bytes),
    s.obj nsid oid = some o →
    o.chunks[n]? = some r →
    r.verifyWith = some t →
    s.chunk t = some y →
    s.chunkBytes (.chunk r.chunk) r.chunk = some (some a) →
    s.chunkBytes (.chunk r.chunk) t = some (some b) →
    a ≠ b →
    exec (.verifyCompare nsid oid n true) s = .next ((((s.unstage (.chunk r.chunk)).updObj nsid oid (fun o => { o with chunks := o.chunks.set n { r with verifyWith := none } })).raise evChiveCollision o.func [(1, o.func), (16, leNat (r.digest.take 16)), (5, r.chunk), (5, t)]).programBuffer false)) ∧
  (∀ (s : State) (nsid oid n t : Nat) (o : Obj) (r : ChunkRef) (y : Chunk) (x z : Option Bytes) (k : Bool),
    s.obj nsid oid = some o →
    o.chunks[n]? = some r →
    r.verifyWith = some t →
    s.chunk t = some y →
    s.chunkBytes (.chunk r.chunk) r.chunk = some x →
    s.chunkBytes (.chunk r.chunk) t = some z →
    x = none ∨ z = none ∨ k = false →
    exec (.verifyCompare nsid oid n k) s = .next ((((s.unstage (.chunk r.chunk)).updObj nsid oid (fun o => { o with chunks := o.chunks.set n { r with verifyWith := none } })).raise evVerifyReadFail o.func [(1, o.func), (5, t), (2, 0x281)]).programBuffer false)) ∧
  (∀ (s : State) (nsid oid n t : Nat) (o : Obj) (r : ChunkRef) (k : Bool),
    s.obj nsid oid = some o →
    o.chunks[n]? = some r →
    r.verifyWith = some t →
    s.chunk t = none →
    exec (.verifyCompare nsid oid n k) s = .next ((((s.unstage (.chunk r.chunk)).updObj nsid oid (fun o => { o with chunks := o.chunks.set n { r with verifyWith := none } })).decideChunk o n { r with verifyWith := none }).programBuffer false)) ∧
  (∀ (s : State) (f kind num : Nat) (ver : BitVec 16),
    ∃ t, exec (.profileVersionFree f kind num ver) s = .next t ∧ t = { s with objs := { s.objs with profiles := t.objs.profiles } } ∧
      (∀ p ∈ s.objs.profiles, p.current = true → p ∈ t.objs.profiles) ∧ (s.inflight = [] → ∀ p ∈ t.objs.profiles,
        ¬ (p.func = f ∧ p.kind = kind ∧ p.num = num ∧ p.ver = ver ∧ p.current = false)))

/-- When a view's turn on its object has come and every check of its FORM passes: VIEW READ reads the samples through the extent maps, waits
while one is missing, and then writes the bytes that the layout gives (those of its window, where it has one), counts the reads of its
extents, and succeeds with the length written in DW0 and the profile versions used in DW1; a view with a hook does so once every fragment
has its choice; VIEW SIZE writes the first LEN bytes of the report and gives the length of the view in DW0 and the versions in DW1. A view
that fails a check ends with that check's status and dwords, and writes nothing. -/
def Obligations.ViewsAreBuiltAndSized : Prop :=
  (∀ (s : State) (id : CmdId) (c : Cmd) (p : ViewPlan) (rs : List (Obj × Nat × Nat)) (t : State) (l : List Source) (out : Bytes),
    s.live id false 0x82 = some c →
    viewForm c.sqe = 0 →
    s.objectTurn id c = true →
    s.viewPlan id c = .ok p →
    p.hook = none →
    rs = s.viewRanges id c p 0 (p.ready c) →
    t = s.fetchView id c rs →
    ((t.cmd id).any (fun x => x.result.isSome) = false) →
    t.viewSources id rs = some (some l) →
    out = viewWindowed c.sqe (viewBytes p (p.ready c) l) →
    exec (.viewReadFragment id .none) s = .next (((((t.countRanges (t.viewRanges id c p c.hook.placed (p.ready c))).writeView id c out).updCmd id
        (fun x => { x with hook := { x.hook with placed := p.ready c } })).finish id .success (BitVec.ofNat 32 out.length) p.dw1).unstage (.cmd id))) ∧
  (∀ (s : State) (id : CmdId) (c : Cmd) (p : ViewPlan) (rs : List (Obj × Nat × Nat)) (t : State) (l : List Source) (out : Bytes),
    s.live id false 0x82 = some c →
    viewForm c.sqe = 1 →
    s.objectTurn id c = true →
    s.viewPlan id c = .ok p →
    p.hook = none →
    rs = s.viewRanges id c p 0 (p.ready c) →
    t = s.fetchView id c rs →
    ((t.cmd id).any (fun x => x.result.isSome) = false) →
    t.viewSources id rs = some (some l) →
    out = viewWindowed c.sqe (viewBytes p (p.ready c) l) →
    exec (.viewReadInitSegment id .none) s = .next (((((t.countRanges (t.viewRanges id c p c.hook.placed (p.ready c))).writeView id c out).updCmd id
        (fun x => { x with hook := { x.hook with placed := p.ready c } })).finish id .success (BitVec.ofNat 32 out.length) p.dw1).unstage (.cmd id))) ∧
  (∀ (s : State) (id : CmdId) (c : Cmd) (p : ViewPlan) (rs : List (Obj × Nat × Nat)) (t : State) (l : List Source) (out : Bytes),
    s.live id false 0x82 = some c →
    viewForm c.sqe = 2 →
    s.objectTurn id c = true →
    s.viewPlan id c = .ok p →
    p.hook = none →
    rs = s.viewRanges id c p 0 (p.ready c) →
    t = s.fetchView id c rs →
    ((t.cmd id).any (fun x => x.result.isSome) = false) →
    t.viewSources id rs = some (some l) →
    out = viewWindowed c.sqe (viewBytes p (p.ready c) l) →
    exec (.viewReadByteRange id .none) s = .next (((((t.countRanges (t.viewRanges id c p c.hook.placed (p.ready c))).writeView id c out).updCmd id
        (fun x => { x with hook := { x.hook with placed := p.ready c } })).finish id .success (BitVec.ofNat 32 out.length) p.dw1).unstage (.cmd id))) ∧
  (∀ (s : State) (id : CmdId) (c : Cmd) (p : ViewPlan) (rs : List (Obj × Nat × Nat)) (t : State) (l : List Source) (out : Bytes) (h : Nat),
    s.live id false 0x82 = some c →
    viewForm c.sqe = 0 →
    s.objectTurn id c = true →
    s.viewPlan id c = .ok p →
    p.hook = some h →
    c.hook.outcome = none →
    c.hook.chosen.length = p.frags.length →
    rs = s.viewRanges id c p 0 (p.ready c) →
    t = s.fetchView id c rs →
    ((t.cmd id).any (fun x => x.result.isSome) = false) →
    t.viewSources id rs = some (some l) →
    out = viewWindowed c.sqe (viewBytes p (p.ready c) l) →
    exec (.viewReadFragment id .none) s = .next (((((t.countRanges (t.viewRanges id c p c.hook.placed (p.ready c))).writeView id c out).updCmd id
        (fun x => { x with hook := { x.hook with placed := p.ready c } })).finish id .success (BitVec.ofNat 32 out.length) p.dw1).unstage (.cmd id))) ∧
  (∀ (s : State) (id : CmdId) (c : Cmd) (p : ViewPlan) (rs : List (Obj × Nat × Nat)) (t : State),
    s.live id false 0x82 = some c →
    viewForm c.sqe = 2 →
    s.objectTurn id c = true →
    s.viewPlan id c = .ok p →
    p.hook = none →
    rs = s.viewRanges id c p 0 (p.ready c) →
    t = s.fetchView id c rs →
    ((t.cmd id).any (fun x => x.result.isSome) = false) →
    t.viewSources id rs = none →
    exec (.viewReadByteRange id .none) s = .next t) ∧
  (∀ (s : State) (id : CmdId) (c : Cmd) (p : ViewPlan),
    s.live id false 0x86 = some c →
    viewForm c.sqe = 0 →
    s.objectTurn id c = true →
    s.viewPlan id c = .ok p →
    exec (.viewSizeFragment id) s = .next ((s.reply id (p.report.take c.sqe.cdw2.toNat)).finish id .success (BitVec.ofNat 32 p.len) p.dw1)) ∧
  (∀ (s : State) (id : CmdId) (c : Cmd) (p : ViewPlan),
    s.live id false 0x86 = some c →
    viewForm c.sqe = 1 →
    s.objectTurn id c = true →
    s.viewPlan id c = .ok p →
    exec (.viewSizeInitSegment id) s = .next ((s.reply id (p.report.take c.sqe.cdw2.toNat)).finish id .success (BitVec.ofNat 32 p.len) p.dw1)) ∧
  (∀ (s : State) (id : CmdId) (c : Cmd) (p : ViewPlan),
    s.live id false 0x86 = some c →
    viewForm c.sqe = 2 →
    s.objectTurn id c = true →
    s.viewPlan id c = .ok p →
    exec (.viewSizeByteRange id) s = .next ((s.reply id (p.report.take c.sqe.cdw2.toNat)).finish id .success (BitVec.ofNat 32 p.len) p.dw1)) ∧
  (∀ (s : State) (id : CmdId) (c : Cmd) (e : ViewError),
    s.live id false 0x82 = some c →
    viewForm c.sqe = 0 →
    s.objectTurn id c = true →
    s.viewPlan id c = .error e →
    exec (.viewReadFragment id .none) s = .next (s.finish id e.1 (BitVec.ofNat 32 e.2.1) (BitVec.ofNat 32 e.2.2)))

/-- A view whose packaging profile has a hook asks for the next fragment: the request enters the queue of the hook program once, the view
waits, and only that queue and the view's hook record change. A reply that names the object itself or an acceptable variant adds the
choice; any other reply ends the hook with VARIANT_INVALID. -/
def Obligations.HooksChooseVariants : Prop :=
  (∀ (s : State) (id : CmdId) (c : Cmd) (p : ViewPlan) (h : Nat) (g : Prog),
    s.hookedView id = some (c, p, h) →
    c.hook.waiting = false →
    c.hook.next = c.hook.chosen.length →
    s.hookProgram id c.func h = some g →
    g.queue.length < 256 →
    ∃ u x, exec (.hookRequest id) s = .next u ∧ u.cmd id = some x ∧ x.hook.waiting = true ∧ x.hook.next = c.hook.next + 1 ∧ x.hook.reply = [] ∧
      { x with hook := c.hook } = c ∧ (∀ j, j ≠ id → u.cmd j = s.cmd j) ∧ u.objs = s.objs ∧ { u.hif with cmds := s.hif.cmds } = s.hif ∧ u.nvs = s.nvs ∧
      u.sca = { s.sca with progs := s.sca.progs.map (fun (q : Prog) =>
        if q.func = c.func ∧ q.handle = h then { q with queue := q.queue ++ [.hook id] } else q) }) ∧
  (∀ (s : State) (id : CmdId) (c : Cmd) (p : ViewPlan) (h o : Nat),
    s.hookedView id = some (c, p, h) →
    c.hook.waiting = false →
    c.hook.next = c.hook.chosen.length + 1 →
    s.hookChoice c p = some o →
    exec (.hookReply id) s = .next (s.updCmd id (fun x => { x with hook := { x.hook with chosen := x.hook.chosen ++ [o] } }))) ∧
  (∀ (s : State) (id : CmdId) (c : Cmd) (p : ViewPlan) (h : Nat),
    s.hookedView id = some (c, p, h) →
    c.hook.waiting = false →
    c.hook.next = c.hook.chosen.length + 1 →
    s.hookChoice c p = none →
    exec (.hookReply id) s = .next (s.updCmd id (fun x => { x with hook := { x.hook with outcome := some .variantInvalid } })))

/-- MB_CONFIG_STATUS answers the configuration status. A first piece of a staged image becomes the staged slot, VALID when complete; a piece
that follows in order is added; MB_CONFIG_READ returns a piece of the image of a role; MB_CONFIG_FACTORY stages the factory image with the
next VERSION and its new digest. A commit, a rollback and the expiry of a trial enter MAINTENANCE and wait for accepted I/O. Once it has
ended, a staged image that fails a check is refused with the number of the check and recorded, and the roles stay; one that passes becomes
ACTIVE on trial, the old ACTIVE PREVIOUS; a trial reverts to PREVIOUS. Confirming with the right fingerprint ends the trial and empties
the retained image. -/
def Obligations.ConfigurationIsStagedCommittedAndReverted : Prop :=
  (∀ (s : State) (f : Nat),
    s.MbReady f 0x0201 →
    exec (.mbConfigStatus f) s = .next (s.mbAnswer f (mbOk s.configStatus))) ∧
  (∀ (s : State) (f : Nat),
    s.MbReady f 0x0202 →
    s.nvs.trial = false →
    leAt (s.mbRequest f) 0 8 = 0 →
    leAt (s.mbRequest f) 8 4 = 0 →
    ((s.mbRequest f).drop 16).length ≤ leAt (s.mbRequest f) 12 4 →
    leAt (s.mbRequest f) 12 4 ≤ 524288 →
    exec (.mbConfigStage f) s = .next ({ s with nvs := { s.nvs with
        stageOwner := f, received := ((s.mbRequest f).drop 16).length, total := leAt (s.mbRequest f) 12 4
        slots := Mem.set {} s.nvs.slots (nth 0 s.nvs.roles 2)
          { content := if ((s.mbRequest f).drop 16).length = leAt (s.mbRequest f) 12 4 then .valid else .partialImage
            image := (s.mbRequest f).drop 16 } } }.mbAnswer f (mbOk []))) ∧
  (∀ (s : State) (f : Nat) (img : Bytes),
    s.MbReady f 0x0202 →
    s.nvs.trial = false →
    leAt (s.mbRequest f) 0 8 = 0 →
    leAt (s.mbRequest f) 8 4 ≠ 0 →
    s.nvs.stageOwner = f →
    (s.cfgSlot 2).content = .partialImage →
    leAt (s.mbRequest f) 12 4 = s.nvs.total →
    leAt (s.mbRequest f) 8 4 = s.nvs.received →
    img = (s.cfgSlot 2).image ++ (s.mbRequest f).drop 16 →
    img.length ≤ leAt (s.mbRequest f) 12 4 →
    leAt (s.mbRequest f) 12 4 ≤ 524288 →
    exec (.mbConfigStage f) s = .next ({ s with nvs := { s.nvs with
        stageOwner := f, received := img.length, total := leAt (s.mbRequest f) 12 4
        slots := Mem.set {} s.nvs.slots (nth 0 s.nvs.roles 2)
          { content := if img.length = leAt (s.mbRequest f) 12 4 then .valid else .partialImage, image := img } } }.mbAnswer f (mbOk []))) ∧
  (∀ (s : State) (f : Nat),
    s.MbReady f 0x0203 →
    leAt (s.mbRequest f) 0 8 ≤ 3 →
    (s.cfgSlot (leAt (s.mbRequest f) 0 8)).content ≠ .empty →
    exec (.mbConfigRead f) s = .next (s.mbAnswer f (readPiece (s.cfgSlot (leAt (s.mbRequest f) 0 8)).image (s.mbRequest f)))) ∧
  (∀ (s : State) (f t : Nat),
    s.cfgBusy = false →
    s.hif.activating = none →
    s.MbReady f 0x0204 →
    leAt (s.mbRequest f) 0 4 = t →
    t = 0 ∨ (10 ≤ t ∧ t ≤ 86400) →
    s.nvs.trial = false →
    leAt (s.mbRequest f) 4 4 = 0 ∨ leAt (s.mbRequest f) 4 4 = (s.cfgSlot 2).version →
    exec (.mbConfigCommit f) s = .next ({ s.enterMaintWork evConfigCommitted.code with nvs := { (s.enterMaintWork evConfigCommitted.code).nvs with
        committing := some (f, if t = 0 then (s.enterMaintWork evConfigCommitted.code).nvs.trialDefault else t) } }.mbHold f)) ∧
  (∀ (s : State) (f : Nat),
    s.cfgBusy = false →
    s.hif.activating = none →
    s.MbReady f 0x0206 →
    s.nvs.trial = true ∨ (s.cfgSlot 1).content ≠ .empty →
    exec (.mbConfigRollback f) s = .next ({ s.enterMaintWork evConfigReverted.code with nvs := { (s.enterMaintWork evConfigReverted.code).nvs with
        reverting := some (if s.nvs.trial then 2 else 0, some f) } }.mbHold f)) ∧
  (∀ (s : State),
    s.nvs.trial = true →
    s.nvs.trialLeft = 0 →
    s.nvs.reverting = none →
    s.psm.mode.engines = true →
    exec .trialExpire s = .next { s.enterMaintWork evConfigReverted.code with nvs := { (s.enterMaintWork evConfigReverted.code).nvs with
        reverting := some (1, none) } }) ∧
  (∀ (s : State) (reports : List ChanReport) (f t n : Nat),
    s.ioDone = true →
    s.psm.mode = .maintenance →
    s.nvs.committing = some (f, t) →
    s.failingCheck (s.cfgSlot 2) = some n →
    exec (.configCommitApply reports) s = .next ((({ s with nvs := { s.nvs with committing := none } }.raise evConfigRefused 255
        [(1, n), (4, (s.cfgSlot 2).version)]).endMaintWork evConfigRefused.code).mbRespond f (mbErr 0x0008 n))) ∧
  (∀ (s : State) (reports : List ChanReport) (f t : Nat),
    s.ioDone = true →
    s.psm.mode = .maintenance →
    s.nvs.committing = some (f, t) →
    ∃ u, exec (.configCommitApply reports) s = .next u ∧ (s.failingCheck (s.cfgSlot 2) = none →
      u.nvs.roles = [nth 0 s.nvs.roles 2, nth 0 s.nvs.roles 0, nth 0 s.nvs.roles 1, nth 0 s.nvs.roles 3] ∧ u.nvs.trial = true ∧ u.nvs.trialLeft = t ∧
      u.nvs.trialS = t ∧ u.nvs.tenants = tenantsOf ((imgSection (s.cfgSlot 2).image 2).getD []))) ∧
  (∀ (s : State) (reports : List ChanReport) (why : Nat) (mb : Option Nat),
    s.ioDone = true →
    s.psm.mode = .maintenance →
    s.nvs.committing = none →
    s.nvs.reverting = some (why, mb) →
    ∃ u, exec (.configCommitApply reports) s = .next u ∧ u.nvs.reverting = none ∧ u.nvs.trial = (if why = 0 then s.nvs.trial else false) ∧
      u.nvs.roles = [nth 0 s.nvs.roles 1, nth 0 s.nvs.roles 2, nth 0 s.nvs.roles 0, nth 0 s.nvs.roles 3]) ∧
  (∀ (s : State) (f : Nat),
    s.MbReady f 0x0205 →
    s.nvs.trial = true →
    s.nvs.reverting = none →
    leAt (s.mbRequest f) 0 8 = (s.cfgSlot 0).fp →
    ∃ u : State, exec (.mbConfigConfirm f) s = .next (u.mbAnswer f (mbOk [])) ∧ u.nvs.trial = false ∧ u.nvs.trialLeft = 0 ∧ u.nvs.roles = s.nvs.roles ∧
      u.nvs.slots = Mem.set {} s.nvs.slots (nth 0 s.nvs.roles 2) {} ∧ u.recd.next = s.recd.next + 1) ∧
  (∀ (s : State) (f : Nat),
    s.MbReady f 0x0207 →
    s.nvs.trial = false →
    (s.cfgSlot 3).content ≠ .empty →
    exec (.mbConfigFactory f) s = .next ({ s with nvs := { s.nvs with
        received := (s.factoryImage).length, total := (s.factoryImage).length
        slots := Mem.set {} s.nvs.slots (nth 0 s.nvs.roles 2) { content := .valid, image := s.factoryImage } } }.mbAnswer f (mbOk [])))

/-- MB_TENANT_STATUS of a function that the caller may name answers the tenant's entry, bucket levels and usage and changes nothing.
MB_TENANT_RATE with correct parameters notes them, to take effect at the next tick of the buckets (log 34). -/
def Obligations.TenantsAreReportedAndRated : Prop :=
  (∀ (s : State) (f : Nat),
    s.MbReady f 0x0301 →
    byteAt (s.mbRequest f) 0 ≤ 127 →
    f < 2 ∨ byteAt (s.mbRequest f) 0 = f →
    exec (.mbTenantStatus f) s = .next (s.mbAnswer f (mbOk (s.tenantStatus (byteAt (s.mbRequest f) 0))))) ∧
  (∀ (s : State) (f : Nat),
    s.MbReady f 0x0302 →
    byteAt (s.mbRequest f) 0 ≤ 127 →
    allZero (slice (s.mbRequest f) 1 7) = true →
    rateOk (slice (s.mbRequest f) 8 8) = true →
    exec (.mbTenantRate f) s = .next ((s.updFn (byteAt (s.mbRequest f) 0) (fun x => { x with rateNext := some (rateOf (slice (s.mbRequest f) 8 8)) })).mbAnswer f (mbOk [])))

/-- On a virtual function that is present: dirty logging starts with its base, page count and buffers; a harvest freezes the active buffer
behind its line writes, answers which one it was and goes on with the other, empty; a stop ends logging. A quiesce stops fetching for the
function and waits while accepted work is left; with none it writes the dirty lines and answers. A resume lets the function fetch again
and acts on the doorbells kept meanwhile. A save of a quiesced function with an HMAC key of the caller makes the image, records it and
answers its first piece. A restore of an image that authenticates is refused or loads it, as R185 says; an image whose MAC does not verify
is refused with reason 1. -/
def Obligations.MigrationCommandsDoTheirWork : Prop :=
  (∀ (s : State) (f g : Nat) (d : Dirty),
    s.MbReady f 0x0310 →
    byteAt (s.mbRequest f) 0 = g →
    s.isVf g = true →
    allZero (slice (s.mbRequest f) 1 3) = true →
    1 ≤ leAt (s.mbRequest f) 4 4 →
    leAt (s.mbRequest f) 4 4 ≤ 16777216 →
    leAt (s.mbRequest f) 8 8 % 4096 = 0 →
    leAt (s.mbRequest f) 16 8 % 64 = 0 →
    leAt (s.mbRequest f) 24 8 % 64 = 0 →
    d = { base := leAt (s.mbRequest f) 8 8, pages := leAt (s.mbRequest f) 4 4, bufA := leAt (s.mbRequest f) 16 8, bufB := leAt (s.mbRequest f) 24 8, pf := f } →
    exec (.mbMigDirtyStart f) s = .next ((s.updFn g (fun x => { x with dirty := some d })).mbAnswer f (mbOk []))) ∧
  (∀ (s : State) (f g : Nat) (d : Dirty),
    s.MbReady f 0x0311 →
    byteAt (s.mbRequest f) 0 = g →
    (s.fn g).dirty = some d →
    exec (.mbMigDirtyHarvest f) s = .next (((s.flushDirty g).updFn g (fun x => { x with
        dirty := x.dirty.map (fun d => { d with activeB := !d.activeB, bits := [], lines := [] }) })).mbAnswer f (mbOk [byteOf (flag d.activeB)]))) ∧
  (∀ (s : State) (f g : Nat) (d : Dirty),
    s.MbReady f 0x0312 →
    byteAt (s.mbRequest f) 0 = g →
    (s.fn g).dirty = some d →
    exec (.mbMigDirtyStop f) s = .next (((s.flushDirty g).updFn g (fun x => { x with dirty := none })).mbAnswer f (mbOk [byteOf (flag d.activeB)]))) ∧
  (∀ (s : State) (f g : Nat),
    s.MbReady f 0x0313 →
    byteAt (s.mbRequest f) 0 = g →
    s.isVf g = true →
    (∀ e ∈ s.fns, e.2.quiesceBy = none) →
    s.workEnded g = false →
    exec (.mbMigQuiesce f) s = .next ((s.updFn g (fun x => { x with quiesced := true, quiesceBy := some f })).mbHold f)) ∧
  (∀ (s : State) (f g : Nat),
    (s.mb f).waiting = true →
    (s.mb f).unchecked = false →
    (s.mb f).orphans = [] →
    (s.fn g).quiesceBy = some f →
    (s.fns.filter (fun e => e.2.quiesceBy == some f || e.2.quiesceBy == some (orphanOf f) || e.2.quiesceBy == some nobody) = [(g, s.fn g)]) →
    s.workEnded g = true →
    exec (.mbMigQuiesce f) s = .next (((s.flushDirty g).updFn g (fun x => { x with quiesceBy := none })).mbRespond f (mbOk [0]))) ∧
  (∀ (s : State) (f g : Nat) (l : List (Nat × Nat)),
    s.MbReady f 0x0314 →
    byteAt (s.mbRequest f) 0 = g →
    s.isVf g = true →
    (s.fn g).pendingDoorbells = l →
    exec (.mbMigResume f) s = .next ((l.foldl (fun s d => if d.1 % 2 = 0 then s.ringSq g (d.1 / 2) d.2 else s.ringCq g (d.1 / 2) d.2)
        (s.updFn g (fun x => { x with quiesced := false, pendingDoorbells := [] }))).mbAnswer f (mbOk []))) ∧
  (∀ (s : State) (f g slot : Nat) (k img : Bytes) (x : State),
    s.MbReady f 0x0315 →
    field (leAt (s.mbRequest f) 0 8) 7 0 = g →
    field (leAt (s.mbRequest f) 0 8) 23 8 = slot →
    field (leAt (s.mbRequest f) 0 8) 63 24 = 0 →
    s.isVf g = true →
    leAt (s.mbRequest f) 8 4 = 0 →
    s.macKey f slot = .ok k →
    (s.fn g).quiesced = true →
    (s.fn g).quiesceBy = none →
    img = s.migImage g slot k →
    (x = s.updMb f (fun m => { m with parts := (s.mb f).parts.filter (fun x => x.cmd != 0x0315) ++
    [{ cmd := 0x0315, sel := leAt (s.mbRequest f) 0 8, total := img.length, bytes := img }] })) →
    exec (.mbMigSave f) s = .next ((x.raise evMigSaved g [(1, g), (4, img.length), (8, leAt img 32 8)]).mbAnswer f (readPiece img (s.mbRequest f)))) ∧
  (∀ (s t : State) (f g : Nat) (img : Bytes),
    s.MbReady f 0x0316 →
    leAt (s.mbRequest f) 0 8 = g →
    s.isVf g = true →
    s.loadPiece f 0x0316 (s.mbRequest f) = (t, .ok (some img)) →
    (t.fn g).quiesced = true →
    leAt img 0 4 ≠ 0x494D584C →
    exec (.mbMigRestore f) s = .next ((t.raise evMigImageRejected g [(1, g), (1, 1)]).mbAnswer f (mbErr 0x0008 1))) ∧
  (∀ (s t : State) (f g : Nat) (img : Bytes) (ns : List Nat),
    s.MbReady f 0x0316 →
    leAt (s.mbRequest f) 0 8 = g →
    s.isVf g = true →
    s.loadPiece f 0x0316 (s.mbRequest f) = (t, .ok (some img)) →
    (t.fn g).quiesced = true →
    ∃ u, exec (.mbMigRestore f) s = .next u ∧ ((∃ k, t.macKey f (leAt img 20 2) = .ok k ∧ hmacOf 0 k (img.take 32 ++ img.drop 64) = slice img 32 32 ∧
        leAt img 0 4 = 0x494D584C ∧ leAt img 8 4 = img.length ∧ leAt img 4 2 = 1 ∧ Config.migrationContents (img.drop 64) = some ns ∧
        t.allotmentCovers g ns = true) →
      u = ((t.migLoad g ns).raise evMigRestored g [(1, g), (1, byteAt img 6), (8, leAt img 12 8)]).mbAnswer f (mbOk [])))

/-- An import into a slot that the function owns, with a permitted ATTR, a wrapped key of the right length and a KEK, unwraps the key: when
the unwrap fails, the refusal is recorded with cause 1; when it passes, the epoch of the function rises and the slot is rewritten, PENDING
with the old key beside it. An erase of a slot that holds a key does the same with no key. Status answers the state, ATTR and counter. A
KEK wrapped under the transport key is installed for its function, and 0xFF installs the maintenance key. A pending slot settles once no
work of an earlier stamp is left: the old key is gone, and the slot is LOADED, or EMPTY when it was erased. -/
def Obligations.KeysAreImportedErasedAndSettled : Prop :=
  (∀ (s : State) (f : Nat),
    s.MbReady f 0x0401 →
    s.importCause f (s.mbRequest f) = none →
    keyUnwrap ((s.fn f).kek.getD []) (slice (s.mbRequest f) 4 ((s.mbRequest f).length - 8)) = none →
    exec (.mbKeyImport f) s = .next ((s.raise evKeyImportRejected f [(1, f), (2, leAt (s.mbRequest f) 0 2), (1, 1)]).mbAnswer f (mbErr 0x0008 1))) ∧
  (∀ (s t : State) (f n : Nat) (k : Bytes) (key : Key),
    s.MbReady f 0x0401 →
    s.importCause f (s.mbRequest f) = none →
    keyUnwrap ((s.fn f).kek.getD []) (slice (s.mbRequest f) 4 ((s.mbRequest f).length - 8)) = some k →
    leAt (s.mbRequest f) 0 2 = n →
    s.raiseEpoch f = t →
    key = { bytes := k, attr := BitVec.ofNat 16 (leAt (s.mbRequest f) 2 2), fixed := BitVec.ofNat 32 (leAt (s.mbRequest f) (4 + ((s.mbRequest f).length - 8)) 4) } →
    exec (.mbKeyImport f) s = .next (((t.setSlot n ((t.slot n).rewrite (t.fn f).epoch (some key) f)).raise evKeyImported f
        [(1, f), (2, n), (2, leAt (s.mbRequest f) 2 2), (2, (t.fn f).epoch.toNat)]).mbAnswer f (mbOk []))) ∧
  (∀ (s t : State) (f n : Nat),
    s.MbReady f 0x0402 →
    leAt (s.mbRequest f) 0 2 = n →
    s.ownsSlot f n = true →
    (s.slot n).code = 1 ∨ (s.slot n).code = 3 →
    s.raiseEpoch f = t →
    exec (.mbKeyErase f) s = .next (((t.setSlot n ((t.slot n).rewrite (t.fn f).epoch none f)).raise evKeyErased f [(1, f), (2, n)]).mbAnswer f (mbOk []))) ∧
  (∀ (s : State) (f n : Nat),
    s.MbReady f 0x0402 →
    leAt (s.mbRequest f) 0 2 = n →
    s.ownsSlot f n = true →
    (s.slot n).code = 2 →
    exec (.mbKeyErase f) s = .next (s.mbAnswer f (mbErr 0x0008 2))) ∧
  (∀ (s : State) (f : Nat),
    s.MbReady f 0x0403 →
    s.ownsSlot f (leAt (s.mbRequest f) 0 2) = true →
    exec (.mbKeyStatus f) s = .next (s.mbAnswer f (mbOk (s.slot (leAt (s.mbRequest f) 0 2)).status))) ∧
  (∀ (s : State) (f g : Nat) (tk k : Bytes),
    s.MbReady f 0x0404 →
    byteAt (s.mbRequest f) 0 = g →
    g ≤ 127 →
    allZero (slice (s.mbRequest f) 1 7) = true →
    s.nvs.transportKey = some tk →
    keyUnwrap tk (slice (s.mbRequest f) 8 40) = some k →
    exec (.mbKekImport f) s = .next (((s.updFn g (fun x => { x with kek := some k })).raise evKekImported g [(1, g)]).mbAnswer f (mbOk []))) ∧
  (∀ (s : State) (f : Nat) (tk k : Bytes),
    s.MbReady f 0x0404 →
    byteAt (s.mbRequest f) 0 = 255 →
    allZero (slice (s.mbRequest f) 1 7) = true →
    s.nvs.transportKey = some tk →
    keyUnwrap tk (slice (s.mbRequest f) 8 40) = some k →
    exec (.mbKekImport f) s = .next (({ s with nvs := { s.nvs with maintKey := some k } }.raise evKekImported 255 [(1, 255)]).mbAnswer f (mbOk []))) ∧
  (∀ (s : State) (n : Nat) (big : BitVec 16) (old : Option Key),
    (s.slot n).staged = some (big, old) →
    s.stampedBefore (s.slot n).func big = false →
    exec (.keySlotSettle n) s = .next (s.setSlot n (if (s.slot n).key.isNone then {} else { s.slot n with staged := none }))) ∧
  (∀ (s : State) (n : Nat) (big : BitVec 16) (old : Option Key),
    (s.slot n).staged = some (big, old) →
    s.stampedBefore (s.slot n).func big = true →
    exec (.keySlotSettle n) s = .next s)

/-- The last piece of a profile of its kind is checked: a record that fails a check is refused with the number of the check and recorded; one
that passes becomes the current version of its number at a new epoch, the earlier one retires, and the answer is its version. A piece that
is not the last is kept. An unload raises the epoch and retires the current version. Status answers the current version, 0 for none, and
how many retire. -/
def Obligations.ProfilesAreLoadedAndUnloaded : Prop :=
  (∀ (s t : State) (f : Nat) (img : Bytes),
    s.MbReady f 0x0501 →
    bit (leAt (s.mbRequest f) 0 8) 8 = false →
    leAt (s.mbRequest f) 0 8 < 512 →
    s.loadPiece f 0x0501 (s.mbRequest f) = (t, .ok (some img)) →
    exec (.mbProfileLoadPackaging f) s = .next ((t.loadProfile f 0 (leAt (s.mbRequest f) 0 1) img).1.mbAnswer f (t.loadProfile f 0 (leAt (s.mbRequest f) 0 1) img).2)) ∧
  (∀ (s t : State) (f : Nat),
    s.MbReady f 0x0501 →
    bit (leAt (s.mbRequest f) 0 8) 8 = false →
    leAt (s.mbRequest f) 0 8 < 512 →
    s.loadPiece f 0x0501 (s.mbRequest f) = (t, .ok none) →
    exec (.mbProfileLoadPackaging f) s = .next (t.mbAnswer f (mbOk []))) ∧
  (∀ (s t : State) (f : Nat) (img : Bytes),
    s.MbReady f 0x0501 →
    bit (leAt (s.mbRequest f) 0 8) 8 = true →
    leAt (s.mbRequest f) 0 8 < 512 →
    s.loadPiece f 0x0501 (s.mbRequest f) = (t, .ok (some img)) →
    exec (.mbProfileLoadEncryption f) s = .next ((t.loadProfile f 1 (leAt (s.mbRequest f) 0 1) img).1.mbAnswer f (t.loadProfile f 1 (leAt (s.mbRequest f) 0 1) img).2)) ∧
  (∀ (s t : State) (f : Nat),
    s.MbReady f 0x0501 →
    bit (leAt (s.mbRequest f) 0 8) 8 = true →
    leAt (s.mbRequest f) 0 8 < 512 →
    s.loadPiece f 0x0501 (s.mbRequest f) = (t, .ok none) →
    exec (.mbProfileLoadEncryption f) s = .next (t.mbAnswer f (mbOk []))) ∧
  (∀ (s : State) (f num kind : Nat) (record : Bytes),
    ((if kind = 0 then pkgCheck record else encCheck record) = 0) →
    ((s.versions f kind num).countP (fun p => !p.current) < 3) →
    s.loadProfile f kind num record = ((s.commitProfile f kind num record).1, mbOk (leBytes 2 (s.commitProfile f kind num record).2.toNat)) ∧
      ∃ p ∈ (s.commitProfile f kind num record).1.objs.profiles, p.func = f ∧ p.kind = kind ∧ p.num = num ∧ p.record = record ∧ p.current = true ∧
        p.ver = (s.commitProfile f kind num record).2 ∧ p.since = (s.fn f).epoch + 1) ∧
  (∀ (s : State) (f num kind : Nat),
    s.MbReady f 0x0502 →
    byteAt (s.mbRequest f) 0 = num →
    byteAt (s.mbRequest f) 1 = kind →
    kind ≤ 1 →
    ((s.versions f kind num).all (fun v => !v.current) = false) →
    exec (.mbProfileUnload f) s = .next (((s.raiseEpoch f).retireProfile f kind num ((s.raiseEpoch f).fn f).epoch).mbAnswer f (mbOk []))) ∧
  (∀ (s : State) (f : Nat) (vs : List Profile),
    s.MbReady f 0x0503 →
    byteAt (s.mbRequest f) 1 ≤ 1 →
    s.versions f (byteAt (s.mbRequest f) 1) (byteAt (s.mbRequest f) 0) = vs →
    vs ≠ [] →
    exec (.mbProfileStatus f) s = .next (s.mbAnswer f (mbOk (leBytes 2 (match vs.find? (·.current) with | some v => v.ver.toNat | none => 0) ++
        [byteOf (vs.countP (fun v => !v.current))]))))

/-- The last piece of a Jeriec image or an LX720 filter is checked and, when it fails, refused with the number of the check and recorded; a
program that passes and finds its places is installed: it is in the array with the next handle, which the answer returns, on the lowest
free sculls of its function. A piece that is not the last is kept. Status answers state, sculls and faults. An unload marks the program
UNLOADING and keeps it for the commands accepted before; when they have ended and nothing runs or waits, its sculls, pages and scratch are
cleared and the program is gone. -/
def Obligations.ProgramsAreLoadedAndUnloaded : Prop :=
  (∀ (s t : State) (f : Nat) (b : Bytes),
    s.MbReady f 0x0601 →
    leAt (s.mbRequest f) 0 8 = 0 →
    s.loadPiece f 0x0601 (s.mbRequest f) = (t, .ok (some b)) →
    exec (.mbProgramLoadJeriec f) s = .next ((t.loadProgram f 0 (jlCheck b) (jlSculls b) (jlProg f b)).1.mbAnswer f (t.loadProgram f 0 (jlCheck b) (jlSculls b) (jlProg f b)).2)) ∧
  (∀ (s t : State) (f : Nat),
    s.MbReady f 0x0601 →
    leAt (s.mbRequest f) 0 8 = 0 →
    s.loadPiece f 0x0601 (s.mbRequest f) = (t, .ok none) →
    exec (.mbProgramLoadJeriec f) s = .next (t.mbAnswer f (mbOk []))) ∧
  (∀ (s t : State) (f : Nat) (b : Bytes),
    s.MbReady f 0x0601 →
    leAt (s.mbRequest f) 0 8 = 1 →
    s.loadPiece f 0x0601 (s.mbRequest f) = (t, .ok (some b)) →
    exec (.mbProgramLoadLx720 f) s = .next ((t.loadProgram f 1 (lxCheck b) 1 (lxProg f b)).1.mbAnswer f (t.loadProgram f 1 (lxCheck b) 1 (lxProg f b)).2)) ∧
  (∀ (s t : State) (f : Nat),
    s.MbReady f 0x0601 →
    leAt (s.mbRequest f) 0 8 = 1 →
    s.loadPiece f 0x0601 (s.mbRequest f) = (t, .ok none) →
    exec (.mbProgramLoadLx720 f) s = .next (t.mbAnswer f (mbOk []))) ∧
  (∀ (s : State) (f fmt n : Nat) (p q : Prog),
    s.placeFor p n = some q →
    p.func = f →
    (s.fn f).nextHandle ≤ 65535 →
    ∃ t, s.loadProgram f fmt 0 n p = (t, mbOk (leBytes 2 (s.fn f).nextHandle)) ∧ q.sculls = (s.freeSculls f).take n ∧ q.sculls.length = n ∧
      ∃ x, t.sca.progs = s.sca.progs ++ [x] ∧ x.func = f ∧ x.handle = (s.fn f).nextHandle ∧ x.sculls = q.sculls ∧ x.words = p.words ∧ x.entry = p.entry) ∧
  (∀ (s : State) (f fmt n check : Nat) (p : Prog),
    check ≠ 0 →
    s.loadProgram f fmt check n p = (s.raise evProgramRejected f [(1, f), (1, fmt), (1, check)], mbErr 0x0008 check)) ∧
  (∀ (s : State) (f : Nat) (q : Prog),
    s.MbReady f 0x0603 →
    s.prog f (leAt (s.mbRequest f) 0 2) = some q →
    exec (.mbProgramStatus f) s = .next (s.mbAnswer f (mbOk (leBytes 4 (if q.unloading then 2 else 1) ++ leBytes 4 (scullBits q.sculls) ++ leBytes 4 q.faults)))) ∧
  (∀ (s : State) (f h : Nat) (q : Prog),
    s.MbReady f 0x0602 →
    leAt (s.mbRequest f) 0 2 = h →
    s.prog f h = some q →
    q.unloading = false →
    exec (.mbProgramUnload f) s = .next ((s.updProg f h (fun x => { x with unloading := true, keepFor := s.programUsers f h })).mbAnswer f (mbOk []))) ∧
  (∀ (s : State) (f h : Nat) (p : Prog),
    s.prog f h = some p →
    p.unloading = true →
    p.queue = [] →
    (∀ id ∈ p.keepFor, ∀ c, s.cmd id = some c → c.result ≠ none) →
    (∀ k ∈ p.sculls, (s.scull k).running = false) →
    ∃ t, exec (.programFree f h) s = .next t ∧ t.sca.progs = s.sca.progs.filter (fun q => !(q.func == f && q.handle == h)) ∧
      (∀ k ∈ p.sculls, (t.scull k).prog = [] ∧ (t.scull k).mem = [] ∧ (t.scull k).pl = 0) ∧
      (∀ a ∈ p.scratchAt, ∀ x, a ≤ x → x < a + p.scratchKib * 1024 → Mem.get 0 t.dram.cells x = 0) ∧ t.recd.next = s.recd.next + 1)

/-- PROGRAM INVOKE that passes its checks takes its argument block and input and enters the queue of its program, which holds 256; a full
queue refuses it. FILTERED READ, its blocks read and the data decompressed where asked, enters the queue with its feed. With an idle scull
and room in the SPL, the first entry of a queue starts on the lowest-numbered idle scull of the program: at ENTRY, with the windows,
budget and generation it brings; nothing else starts. A trapped invocation ends, recorded and with PROGRAM_FAULT, once every outstanding
port request has replied. -/
def Obligations.InvocationsAreQueuedStartedAndEnded : Prop :=
  (∀ (s : State) (id : CmdId) (data : Bytes) (c : Cmd) (p : Prog),
    s.live id false 0x97 = some c →
    c.moved = false →
    c.away = false →
    c.sqe.nsid = 0xFFFFFFFF →
    s.progFor id c.func (invHandle c.sqe) = some p →
    p.useInvoke = true →
    invFieldsOk c.sqe = true →
    c.sqe.sgl = false →
    allZero (slice (padTo 64 data) 52 12) = true →
    argBudget (padTo 64 data) ≤ p.budget →
    ((List.range 8).all (fun i => s.argSlotOk c (argSlot (padTo 64 data) i)) = true) →
    p.queue.length < 256 →
    exec (.programInvoke id data) s = .next ((s.updCmd id (fun c => { c with data := padTo (64 + invIn c.sqe) data, moved := true })).updProg c.func (invHandle c.sqe)
        (fun p => { p with queue := p.queue ++ [.invoke id] }))) ∧
  (∀ (s : State) (id : CmdId) (data : Bytes) (c : Cmd) (p : Prog),
    s.live id false 0x97 = some c →
    c.moved = false →
    c.away = false →
    c.sqe.nsid = 0xFFFFFFFF →
    s.progFor id c.func (invHandle c.sqe) = some p →
    p.useInvoke = true →
    invFieldsOk c.sqe = true →
    c.sqe.sgl = false →
    allZero (slice (padTo 64 data) 52 12) = true →
    argBudget (padTo 64 data) ≤ p.budget →
    ((List.range 8).all (fun i => s.argSlotOk c (argSlot (padTo 64 data) i)) = true) →
    256 ≤ p.queue.length →
    exec (.programInvoke id data) s = .next (s.finish id .tenantQuota)) ∧
  (∀ (s s1 : State) (id : CmdId) (c : Cmd) (n : Ns) (bs : List (Bytes × Bytes)) (feed : Bytes) (p : Prog),
    s.live id false 0x92 = some c →
    c.moved = false →
    c.away = false →
    s.filterChecks id c = .ok n →
    s.readProgress id c n (lockRange n c.sqe) = s1 →
    s1.readBlocks id c n (lockRange n c.sqe) = some (some bs) →
    filterFeed c.sqe ((bs.map (·.1)).flatten) = .ok feed →
    s1.prog c.func (filHandle c.sqe) = some p →
    p.queue.length < 256 →
    exec (.filteredRead id) s = .next (((s1.updCmd id (fun c => { c with data := feed, moved := true })).unstage (.cmd id)).updProg c.func (filHandle c.sqe)
        (fun p => { p with queue := p.queue ++ [.filter id] }))) ∧
  (∀ (s : State) (f h k at_ : Nat) (p : Prog) (st : Start) (l : List Start) (x : Cmd) (u : Setup),
    s.prog f h = some p →
    p.queue = st :: l →
    s.psm.mode.runsSculls = true →
    s.cmd st.cmd = some x →
    x.result = none →
    (p.sculls.find? (fun k => (s.scull k).free) = some k) →
    (s.setupFor p st x).1 = u →
    (lowestGap s.splUsed (if u.code = 0 ∧ !u.stream then splRound u.inLen + splRound u.outLen else 0) 41943040 = some at_) →
    ∃ t feed, exec (.invocationStart f h) s = .next t ∧ t.scull k = startScull (s.scull k) p k st x u at_ feed ∧ feed.take u.feed.length = u.feed ∧
      (t.scull k).running = true ∧ (t.scull k).pc = BitVec.ofNat 13 p.entry ∧ (t.scull k).budget = u.budget ∧ (t.scull k).gen = x.gen ∧
      (∀ j, j ≠ k → t.scull j = s.scull j) ∧ t.sca.progs = (s.popStart f h).sca.progs) ∧
  (∀ (s : State) (k : Nat) (c : Scull),
    k < 32 →
    s.scull k = c →
    c.running = true →
    c.trapped = true →
    ((List.range 5).all (fun p => Mem.get 0 c.outstanding p == 0) = true) →
    exec (.invocationFaultEnd k) s = .next ((s.raiseLimited evProgramTrap c.func 0x0F28 [(1, c.func), (2, c.handle), (1, k), (4, c.trapinfo.toNat)]).endFault k c.trapinfo))

/-- A create of 1 to 384 slabs within the quota takes the lowest free ID from 1 to 64, places the table, records it and answers the ID; past
the quota it is refused with DETAIL 1, with no ID free with DETAIL 2. A delete waits for the earlier searches and updates of the table:
with none, the table and its rows are gone, the delete is recorded and answered. Status answers the entries the table uses and the quota
left; a table that does not exist is answered 0x000B (R437, R440, R441). -/
def Obligations.TablesAreCreatedDeletedAndReported : Prop :=
  (∀ (s : State) (f n id : Nat) (t : Tenant),
    s.MbReady f 0x0701 →
    leAt (s.mbRequest f) 0 16 = n →
    field n 1 0 ≠ 3 →
    field n 15 3 = 0 →
    1 ≤ field n 24 16 →
    field n 24 16 ≤ 384 →
    field n 127 25 = 0 →
    s.tenant f = some t →
    s.asuCharged f + 512 * field n 24 16 ≤ t.asuQuota →
    1 ≤ id →
    id ≤ 64 →
    s.table f id = none →
    (∀ i, 1 ≤ i → i < id → s.table f i ≠ none) →
    exec (.mbTableCreate f) s = .next ((({ s with asu := { s.asu with tables := s.asu.tables ++
        [{ func := f, id := id, width := field n 1 0, longest := bit n 2, slabs := s.pickSlabs (field n 24 16) }] } } : State).raise evTableCreated f
        [(1, f), (2, id), (1, field n 1 0), (2, field n 24 16)]).mbAnswer f (mbOk (leBytes 2 id)))) ∧
  (∀ (s : State) (f n : Nat) (t : Tenant),
    s.MbReady f 0x0701 →
    leAt (s.mbRequest f) 0 16 = n →
    field n 1 0 ≠ 3 →
    field n 15 3 = 0 →
    1 ≤ field n 24 16 →
    field n 24 16 ≤ 384 →
    field n 127 25 = 0 →
    s.tenant f = some t →
    t.asuQuota < s.asuCharged f + 512 * field n 24 16 →
    exec (.mbTableCreate f) s = .next (s.mbAnswer f (mbErr 0x0008 1))) ∧
  (∀ (s : State) (f n : Nat) (t : Tenant),
    s.MbReady f 0x0701 →
    leAt (s.mbRequest f) 0 16 = n →
    field n 1 0 ≠ 3 →
    field n 15 3 = 0 →
    1 ≤ field n 24 16 →
    field n 24 16 ≤ 384 →
    field n 127 25 = 0 →
    s.tenant f = some t →
    s.asuCharged f + 512 * field n 24 16 ≤ t.asuQuota →
    (∀ i, 1 ≤ i → i ≤ 64 → s.table f i ≠ none) →
    exec (.mbTableCreate f) s = .next (s.mbAnswer f (mbErr 0x0008 2))) ∧
  (∀ (s : State) (f i : Nat) (t : Table),
    s.MbReady f 0x0702 →
    leAt (s.mbRequest f) 0 2 = i →
    s.table f i = some t →
    (∀ u ∈ s.asu.tables, u.deleting = none) →
    (∀ e ∈ s.inflight, s.hif.nextCmd ≤ e.1 ∨ indexNames e.2 f i = false ∨ e.2.result ≠ none) →
    (s.mb f).prepared = none →
    ∃ u : State, exec (.mbTableDelete f) s = .next u ∧ u.table f i = none ∧ (∀ j, j ≠ i → u.table f j = s.table f j) ∧ (u.mb f).prepared = some (mbOk []) ∧
      u.asu.rows = Mem.keep (fun x => x / 2 ^ 24 != f * 65 + i) s.asu.rows) ∧
  (∀ (s : State) (f i : Nat) (t : Table) (q : Tenant),
    s.MbReady f 0x0703 →
    leAt (s.mbRequest f) 0 2 = i →
    s.table f i = some t →
    s.tenant f = some q →
    exec (.mbTableStatus f) s = .next (s.mbAnswer f (mbOk (leBytes 4 (t.k * s.asu.rows.countP (fun e => e.1 / 2 ^ 24 == f * 65 + t.id && e.2.isSome)) ++ leBytes 4 (q.asuQuota - s.asuCharged f))))) ∧
  (∀ (s : State) (f : Nat),
    s.MbReady f 0x0703 →
    s.table f (leAt (s.mbRequest f) 0 2) = none →
    exec (.mbTableStatus f) s = .next (s.mbAnswer f (mbErr 0x000B)))

/-- An event read of 1 to 63 records answers the lowest and highest sequence numbers that the function may read, the count, the invalid ones,
and the records in ascending order; any other count is answered 0x0004. A clear leaves one record in the ring, EVT_CLEARED, which takes
the next number, and the records still queued take the numbers above it. A time mark records the wall time and answers its sequence
number. The recorder writes the first queued record to its slot of the ring, a blocked one takes the room it leaves, and dropped ones are
then counted by one record. A trial whose time has run out begins its revert in MAINTENANCE. The hour counter counts seconds and hours and
stops at its largest value, TRIAL_LEFT falling with it, and its mirror is written where the mode lets it (R549 to R559). -/
def Obligations.EventLogIsReadClearedAndMarked : Prop :=
  (∀ (s : State) (f n : Nat),
    s.MbReady f 0x0801 →
    leAt (s.mbRequest f) 6 2 = 0 →
    byteAt (s.mbRequest f) 8 = n →
    1 ≤ n →
    n ≤ 63 →
    exec (.mbEvtRead f) s = .next (s.mbAnswer f (mbOk (s.evtRead f (leAt (s.mbRequest f) 0 8) n)))) ∧
  (∀ (s : State) (f n : Nat),
    s.MbReady f 0x0801 →
    byteAt (s.mbRequest f) 8 = n →
    n < 1 ∨ 63 < n →
    exec (.mbEvtRead f) s = .next (s.mbAnswer f (mbErr 0x0004))) ∧
  (∀ (s : State) (f q : Nat),
    s.MbReady f 0x0802 →
    (q = (match s.recd.queue ++ s.recd.blocked with | e :: _ => e.seq | [] => s.recd.next)) →
    ∃ (u : State) (e : Event), exec (.mbEvtClear f) s = .next (u.mbAnswer f (mbOk [])) ∧ u.recd.ring = Mem.set none [] (q % 16384) (some e) ∧ e.seq = q ∧ e.code = evEvtCleared.code ∧ e.tenant = f ∧
      u.recd.next = s.recd.next + 1 ∧ u.recd.queue = s.recd.queue.map (fun x => { x with seq := x.seq + 1 }) ∧ u.hif = s.hif ∧ u.nvs = s.nvs ∧ u.psm = s.psm) ∧
  (∀ (s : State) (f tick w : Nat),
    s.MbReady f 0x0803 →
    leAt (s.mbRequest f) 0 8 = w →
    exec (.mbEvtTimemark f tick) s = .next ((s.raise evTimeMark 255 [(8, w), (4, s.recd.hours), (2, s.recd.seconds), (2, tick % 32768)]).mbAnswer f
        (mbOk (leBytes 8 s.recd.next)))) ∧
  (∀ (s : State) (e : Event) (q : List Event),
    s.psm.fence = false →
    s.psm.mode ≠ .hold →
    s.psm.mode ≠ .off →
    s.recd.queue = e :: q →
    s.recd.blocked = [] →
    s.recd.dropped = 0 →
    exec .eventRecordWrite s = .next { s with recd := { s.recd with queue := q, ring := Mem.set none s.recd.ring (e.seq % 16384) (some e) } }) ∧
  (∀ (s : State) (e b : Event) (q bs : List Event),
    s.psm.fence = false →
    s.psm.mode ≠ .hold →
    s.psm.mode ≠ .off →
    s.recd.queue = e :: q →
    s.recd.blocked = b :: bs →
    s.recd.dropped = 0 →
    exec .eventRecordWrite s = .next { s with recd := { s.recd with queue := q ++ [b], blocked := bs, ring := Mem.set none s.recd.ring (e.seq % 16384) (some e) } }) ∧
  (∀ (s : State) (e : Event) (q : List Event),
    s.psm.fence = false →
    s.psm.mode ≠ .hold →
    s.psm.mode ≠ .off →
    s.recd.queue = e :: q →
    s.recd.blocked = [] →
    s.recd.dropped ≠ 0 →
    q.length < 64 →
    exec .eventRecordWrite s = .next (({ s with recd := { s.recd with queue := q, dropped := 0, ring := Mem.set none s.recd.ring (e.seq % 16384) (some e) } } : State).raise evEvtOverflow 255 [(4, s.recd.dropped)])) ∧
  (∀ (s : State),
    s.psm.mode ≠ .hold ∧ s.psm.mode ≠ .off →
    s.recd.seconds < 3599 →
    exec .hourCounterTick s = .next ({ s with recd := { s.recd with hours := s.recd.hours, seconds := s.recd.seconds + 1 }, nvs := { s.nvs with trialLeft := s.nvs.trialLeft - 1 } } : State).expireTrial) ∧
  (∀ (s : State),
    s.psm.mode ≠ .hold ∧ s.psm.mode ≠ .off →
    s.recd.seconds = 3599 →
    s.recd.hours < 16777215 →
    exec .hourCounterTick s = .next ({ s with recd := { s.recd with hours := s.recd.hours + 1, seconds := 0 }, nvs := { s.nvs with trialLeft := s.nvs.trialLeft - 1 } } : State).expireTrial) ∧
  (∀ (s : State),
    s.psm.mode ≠ .hold ∧ s.psm.mode ≠ .off →
    s.recd.seconds = 3599 →
    s.recd.hours = 16777215 →
    exec .hourCounterTick s = .next ({ s with recd := { s.recd with hours := 16777215, seconds := 3599 }, nvs := { s.nvs with trialLeft := s.nvs.trialLeft - 1 } } : State).expireTrial) ∧
  (∀ (s : State),
    s.nvs.trial = false ∨ s.nvs.trialLeft ≠ 0 ∨ s.nvs.reverting ≠ none →
    s.expireTrial = s) ∧
  (∀ (s : State),
    s.nvs.trial = true →
    s.nvs.trialLeft = 0 →
    s.nvs.reverting = none →
    s.psm.mode.engines = true →
    s.expireTrial.nvs.reverting = some (1, none) ∧ s.expireTrial.psm.maintByWork = true) ∧
  (∀ (s : State),
    s.psm.mode ≠ .hold ∧ s.psm.mode ≠ .off →
    s.psm.fence = false →
    exec .counterMirror s = .next { s with recd := { s.recd with mirror := (s.recd.hours, s.recd.seconds, s.recd.powerCycles) } })

/-- The safety status is answered in every mode with a mailbox. A maintenance request with no I/O left enters MAINTENANCE with MAINT_ENTERED
and answers; with I/O left it waits; from SAFE-HALT it enters MAINTENANCE held. An exit outside MAINTENANCE is answered 0x0005; inside, it
enters the mode that the causes give. A diagnostic outside MAINTENANCE is answered 0x0005; inside, test 1 runs the hold-up test, test 2
tests every instance as the rotating self-test does, tests 3 to 5 answer the clock monitors, the MRAM scrub and the SPL march, bit 0
telling a failure (R537, R540, R541, R548). -/
def Obligations.MaintenanceAndItsDiagnostics : Prop :=
  (∀ (s : State) (f : Nat),
    s.MbReady f 0x0901 →
    exec (.mbSafetyStatus f) s = .next (s.mbAnswer f (mbOk s.safetyStatus))) ∧
  (∀ (s t : State) (f : Nat),
    s.MbReady f 0x0903 →
    s.psm.maintWaiting = none →
    s.psm.mode = .service ∨ s.psm.mode = .degraded →
    s.psm.heldFromHalt = false →
    s.psm.maintByHost = false →
    s.maintEnter f false = t →
    t.ioDone = true →
    exec (.mbMaintEnter f) s = .next (t.mbAnswer f (mbOk [])) ∧ t.psm.mode = .maintenance ∧ t.psm.maintByHost = true) ∧
  (∀ (s t : State) (f : Nat),
    s.MbReady f 0x0903 →
    s.psm.maintWaiting = none →
    s.psm.mode = .service ∨ s.psm.mode = .degraded →
    s.psm.heldFromHalt = false →
    s.psm.maintByHost = false →
    s.maintEnter f false = t →
    t.ioDone = false →
    exec (.mbMaintEnter f) s = .next (({ t with psm := { t.psm with maintWaiting := some f } } : State).mbHold f) ∧ t.psm.mode = .maintenance) ∧
  (∀ (s : State) (f : Nat),
    s.MbReady f 0x0903 →
    s.psm.maintWaiting = none →
    s.psm.mode = .safeHalt →
    s.psm.halt.safeDrain = false →
    exec (.mbMaintEnter f) s = .next ((s.maintEnter f true).mbAnswer f (mbOk [])) ∧ (s.maintEnter f true).psm.mode = .maintenance ∧ (s.maintEnter f true).psm.heldFromHalt = true) ∧
  (∀ (s : State) (f : Nat),
    s.MbReady f 0x0904 →
    s.psm.restartDue = false →
    s.psm.mode ≠ .maintenance →
    exec (.mbMaintExit f) s = .next (s.mbAnswer f (mbErr 0x0005))) ∧
  (∀ (s t : State) (f : Nat),
    s.MbReady f 0x0904 →
    s.psm.restartDue = false →
    s.psm.mode = .maintenance →
    s.psm.heldFromHalt = false →
    ({ s with psm := { s.psm with maintByHost := false } } : State).leaveMaint evMaintExited.code = t →
    exec (.mbMaintExit f) s = .next ((t.raise evMaintExited 255 [(1, t.psm.mode.code)]).mbAnswer f (mbOk [byteOf t.psm.mode.code]))) ∧
  (∀ (s : State) (f : Nat),
    s.MbReady f 0x0904 →
    s.psm.restartDue = false →
    s.psm.mode = .maintenance →
    s.psm.heldFromHalt = true →
    exec (.mbMaintExit f) s = .next ((({ s with psm := { s.psm with restartDue := true } } : State).raise evMaintExited 255 [(1, Mode.boot.code)]).mbAnswer f (mbOk [byteOf Mode.boot.code]))) ∧
  (∀ (s : State) (f : Nat) (v0 v1 v2 : Nat),
    s.MbReady f 0x0905 →
    leAt (s.mbRequest f) 0 2 = 1 →
    s.psm.mode ≠ .maintenance →
    exec (.diagHoldup f v0 v1 v2) s = .next (s.mbAnswer f (mbErr 0x0005))) ∧
  (∀ (s t : State) (f v0 v1 v2 : Nat) (ok : Bool),
    s.MbReady f 0x0905 →
    leAt (s.mbRequest f) 0 2 = 1 →
    s.psm.mode = .maintenance →
    11600 ≤ v0 →
    s.psm.holdup.run = none →
    s.holdupResult v0 v1 v2 false false = (t, ok) →
    exec (.diagHoldup f v0 v1 v2) s = .next (t.mbAnswer f (mbOk (leBytes 8 (flag (!ok) + t.psm.holdup.c * 2 ^ 8 + t.psm.holdup.tproj * 2 ^ 24 + t.psm.holdup.pdTenths * 2 ^ 40))))) ∧
  (∀ (s : State) (f v0 v1 v2 : Nat),
    s.MbReady f 0x0905 →
    leAt (s.mbRequest f) 0 2 = 1 →
    s.psm.mode = .maintenance →
    v0 < 11600 →
    exec (.diagHoldup f v0 v1 v2) s = .next (s.mbAnswer f (mbOk (leBytes 8 2)))) ∧
  (∀ (s : State) (f : Nat) (failed : List Instance),
    s.MbReady f 0x0905 →
    leAt (s.mbRequest f) 0 2 = 2 →
    s.psm.mode ≠ .maintenance →
    exec (.diagEngineSweep f failed) s = .next (s.mbAnswer f (mbErr 0x0005))) ∧
  (∀ (s : State) (f : Nat),
    s.MbReady f 0x0905 →
    leAt (s.mbRequest f) 0 2 = 2 →
    s.psm.mode = .maintenance →
    exec (.diagEngineSweep f []) s = .next ((allInstances.foldl (fun s i => s.selfTest i true 0) s).mbAnswer f (mbOk (leBytes 8 0)))) ∧
  (∀ (s : State) (f : Nat) (i : Instance),
    s.MbReady f 0x0905 →
    leAt (s.mbRequest f) 0 2 = 2 →
    s.psm.mode = .maintenance →
    i ∈ allInstances →
    ∃ (u : State) (n : Nat), exec (.diagEngineSweep f [i]) s = .next u ∧ (u.mb f).prepared = some (mbOk (leBytes 8 n)) ∧ n % 2 = 1) ∧
  (∀ (s : State) (f : Nat) (failed : BitVec 9),
    s.MbReady f 0x0905 →
    leAt (s.mbRequest f) 0 2 = 3 →
    s.psm.mode ≠ .maintenance →
    exec (.diagClock f failed) s = .next (s.mbAnswer f (mbErr 0x0005))) ∧
  (∀ (s : State) (f : Nat) (failed : BitVec 9),
    s.MbReady f 0x0905 →
    leAt (s.mbRequest f) 0 2 = 3 →
    s.psm.mode = .maintenance →
    exec (.diagClock f failed) s = .next (s.mbAnswer f (mbOk (leBytes 8 (flag (failed != 0) + failed.toNat * 2 ^ 8))))) ∧
  (∀ (s : State) (f : Nat) (corrected uncorrectable : Nat),
    s.MbReady f 0x0905 →
    leAt (s.mbRequest f) 0 2 = 4 →
    s.psm.mode ≠ .maintenance →
    exec (.diagMramScrub f corrected uncorrectable) s = .next (s.mbAnswer f (mbErr 0x0005))) ∧
  (∀ (s : State) (f : Nat) (corrected uncorrectable : Nat),
    s.MbReady f 0x0905 →
    leAt (s.mbRequest f) 0 2 = 4 →
    s.psm.mode = .maintenance →
    exec (.diagMramScrub f corrected uncorrectable) s = .next (s.mbAnswer f (mbOk (leBytes 8 (flag (uncorrectable != 0) + corrected % 2 ^ 32 * 2 ^ 8 + uncorrectable % 2 ^ 24 * 2 ^ 40))))) ∧
  (∀ (s : State) (f : Nat) (lines : Nat),
    s.MbReady f 0x0905 →
    leAt (s.mbRequest f) 0 2 = 5 →
    s.psm.mode ≠ .maintenance →
    exec (.diagSplMarch f lines) s = .next (s.mbAnswer f (mbErr 0x0005))) ∧
  (∀ (s : State) (f : Nat) (lines : Nat),
    s.MbReady f 0x0905 →
    leAt (s.mbRequest f) 0 2 = 5 →
    s.psm.mode = .maintenance →
    exec (.diagSplMarch f lines) s = .next (s.mbAnswer f (mbOk (leBytes 8 (flag (lines != 0) + lines % 2 ^ 24 * 2 ^ 8)))))

/-- The DRAM profile and the flash profile of a channel from 0 to 15 are answered, a channel above it with 0x0004; the pair's status is
answered. A join of position 0 or 1 without a pair configuration is refused with DETAIL 1; an unpaired device with one becomes JOINING at
that position with a free member number, and the answer waits. A leave of an unpaired device is answered at once; of a linked one it sends
LEAVE, ends the pair, records it, and leaves the device UNPAIRED (R239, R309, R584, R591, R592). -/
def Obligations.ProfilesOfMemoryAndThePairAreReported : Prop :=
  (∀ (s : State) (f : Nat),
    s.MbReady f 0x0A01 →
    exec (.mbDramProfile f) s = .next ((s.draw 32).2.mbAnswer f (mbOk ((s.draw 32).2.dramProfile (s.draw 32).1.toNat)))) ∧
  (∀ (s : State) (f c : Nat),
    s.MbReady f 0x0A02 →
    byteAt (s.mbRequest f) 0 = c →
    c ≤ 15 →
    exec (.mbFlashProfile f) s = .next (s.mbAnswer f (mbOk (s.flashProfile c)))) ∧
  (∀ (s : State) (f c : Nat),
    s.MbReady f 0x0A02 →
    byteAt (s.mbRequest f) 0 = c →
    15 < c →
    exec (.mbFlashProfile f) s = .next (s.mbAnswer f (mbErr 0x0004))) ∧
  (∀ (s : State) (f : Nat),
    s.MbReady f 0x0B01 →
    exec (.mbPairStatus f) s = .next (s.mbAnswer f (mbOk s.pairStatus))) ∧
  (∀ (s : State) (f : Nat),
    s.MbReady f 0x0B02 →
    byteAt (s.mbRequest f) 0 ≤ 1 →
    s.swl.cfg = none →
    exec (.mbPairJoin f) s = .next (s.mbAnswer f (mbErr 0x0008 1))) ∧
  (∀ (s : State) (f p : Nat) (g : PairCfg),
    s.MbReady f 0x0B02 →
    byteAt (s.mbRequest f) 0 = p →
    p ≤ 1 →
    s.swl.cfg = some g →
    s.swl.state = .unpaired →
    ∃ u : State, exec (.mbPairJoin f) s = .next u ∧ u.swl.state = .joining ∧ u.swl.position = p ∧ u.swl.memberId = Config.freeValue 64 s.freeCtr ∧ u.swl.joining = some f ∧ (u.mb f).waiting = true ∧ (u.mb f).prepared = none) ∧
  (∀ (s : State) (f : Nat),
    s.MbReady f 0x0B03 →
    s.swl.state = .unpaired →
    exec (.mbPairLeave f) s = .next (s.mbAnswer f (mbOk []))) ∧
  (∀ (s : State) (f : Nat),
    s.MbReady f 0x0B03 →
    s.swl.state ≠ .unpaired →
    ∃ u : State, exec (.mbPairLeave f) s = .next u ∧ u.swl.state = .unpaired ∧ u.swl.position = 255 ∧ (u.mb f).prepared = some (mbOk []) ∧ u.swl.dirtyOn = false ∧ u.swl.resyncLeft = [])

/-- The first read of a unit ends with FLASH_READ_COMPLETE, the reads of rungs 1 to 3 with LADDER_RUNG_READ. Each unit that decodes goes to
its reader, with GEN of the reader's command in its tag, when its unit key is the one asked for, and an integrity mismatch otherwise; the
units that do not decode go below rung 3 to the next rung with their pages counted as read once more; after rung 3 their map entries are
LOST, recorded and their superblock queued for relocation, or, of a hot-tier copy, the copy is dropped and the location of the map read; a
read for a copy goes to its destination instead (R25, R242, R243, R244, R249, R256, R260). An operation of another kind, and a rung that
is not the one the operation is at, stay as they were. -/
def Obligations.FlashReadsClimbTheLadder : Prop :=
  (∀ (s : State) (i : Nat) (op : FlashOp) (w : Reader) (r : ReadOutcome) (p n : Nat),
    s.op i = some op →
    op.kind = .read (some w) p 0 →
    exec (.flashReadComplete i r) s = .next (s.readRung i op w 0 r)) ∧
  (∀ (s : State) (i : Nat) (op : FlashOp) (w : Reader) (r : ReadOutcome) (p n : Nat),
    s.op i = some op →
    op.kind = .read (some w) p (n + 1) →
    exec (.ladderRungRead i r) s = .next (s.readRung i op w (n + 1) r)) ∧
  (∀ (s : State) (i : Nat) (op : FlashOp) (w : Reader) (r : ReadOutcome) (p n : Nat),
    s.op i = some op →
    op.kind = .read none p 0 →
    exec (.flashReadComplete i r) s = .next (s.copyRung i op p 0 r)) ∧
  (∀ (s : State) (i : Nat) (op : FlashOp) (w : Reader) (r : ReadOutcome) (p n : Nat),
    s.op i = some op →
    op.kind = .read none p (n + 1) →
    exec (.ladderRungRead i r) s = .next (s.copyRung i op p (n + 1) r)) ∧
  (∀ (s : State) (i n p : Nat) (op : FlashOp) (x : Option Reader) (r : ReadOutcome),
    s.op i = some op →
    op.kind = .read x p (n + 1) →
    exec (.flashReadComplete i r) s = .next (s)) ∧
  (∀ (s : State) (i p : Nat) (op : FlashOp) (x : Option Reader) (r : ReadOutcome),
    s.op i = some op →
    op.kind = .read x p 0 →
    exec (.ladderRungRead i r) s = .next (s)) ∧
  (∀ (s : State) (i : Nat) (op : FlashOp) (slc : Bool) (u : Nat) (r : ReadOutcome),
    s.op i = some op →
    op.kind = .program slc u →
    exec (.flashReadComplete i r) s = .next s ∧ exec (.ladderRungRead i r) s = .next s) ∧
  (∀ (s : State) (i : Nat) (op : FlashOp) (w : Reader) (r : ReadOutcome) (n : Nat),
    failedUnits (s.readWords op r) = [] →
    s.readRung i op w n r = ((((decodedUnits (s.readWords op r)).foldl (fun s u => s.deliver (op.asker w) u) s).endRead i op).readResults op []).eraseEmpty) ∧
  (∀ (s : State) (i : Nat) (op : FlashOp) (w : Reader) (r : ReadOutcome) (n : Nat),
    failedUnits (s.readWords op r) ≠ [] →
    n < 3 →
    s.readRung i op w n r = (((decodedUnits (s.readWords op r)).foldl (fun s u => s.deliver (op.asker w) u) s).countPages ((failedUnits (s.readWords op r)).map (·.2))).setOp i (some { op with kind := .read (some w) 0 (n + 1), units := failedUnits (s.readWords op r) })) ∧
  (∀ (s : State) (i : Nat) (op : FlashOp) (w : Reader) (r : ReadOutcome) (n : Nat),
    failedUnits (s.readWords op r) ≠ [] →
    3 ≤ n →
    op.hot = false →
    s.readRung i op w n r = ((failedUnits (s.readWords op r)).foldl (fun s u => s.stage w u.1 none) (((((decodedUnits (s.readWords op r)).foldl (fun s u => s.deliver (op.asker w) u) s).endRead i op).readResults op (failedUnits (s.readWords op r))).loseFailed (failedUnits (s.readWords op r)))).eraseEmpty) ∧
  (∀ (s : State) (a : Asker) (u : Nat × Nat × Codeword) (key d : Bytes),
    isChunkKey u.1 = false ∨ s.chunk (chunkOf u.1) ≠ none →
    u.2.2.key = BitVec.ofNat 64 (codeKey u.1 (s.unitLen u.1)) →
    s.mediaKeyOf u.1 = some key →
    aesXts true key (dataUnit u.1) u.2.2.data = d →
    integrityTag d (s.readerTrailer a u.1) = retag u.2.2.tag (s.restTrailer u.1) (s.readerTrailer a u.1) →
    s.deliver a u = s.stage a.who u.1 (some (padTo (s.unitLen u.1) d))) ∧
  (∀ (s : State) (a : Asker) (u : Nat × Nat × Codeword),
    isChunkKey u.1 = false ∨ s.chunk (chunkOf u.1) ≠ none →
    u.2.2.key ≠ BitVec.ofNat 64 (codeKey u.1 (s.unitLen u.1)) →
    s.deliver a u = s.readMismatch a u.1 (0x0900 + dieChannel (paddrDie u.2.1))) ∧
  (∀ (s : State) (a : Asker) (u : Nat × Nat × Codeword),
    isChunkKey u.1 = false ∨ s.chunk (chunkOf u.1) ≠ none →
    u.2.2.key = BitVec.ofNat 64 (codeKey u.1 (s.unitLen u.1)) →
    s.mediaKeyOf u.1 = none →
    s.deliver a u = s.readMismatch a u.1 0x0AFF) ∧
  (∀ (s : State) (k p : Nat),
    isChunkKey k = false →
    ((s.unrecovered k p).entry k).state = .lost ∧ (s.unrecovered k p).nss.mediaErrors = s.nss.mediaErrors + 1 ∧ ((s.unrecovered k p).sb (paddrSb p)).relocate = true) ∧
  (∀ (s : State) (k p : Nat) (us : List (Nat × Nat)),
    (s.entry k).state ≠ .flash ∨ (s.entry k).paddr + (k - entryOf k) ≠ p →
    s.loseFailed ((k, p) :: us) = s.loseFailed us)

/-- A program that succeeded stands on the dies and moves its entries from the buffer, or from their old place, to their new one: a buffered
entry's slots are free, its map entry names flash, and commands that waited for it go on. On the members where it failed it is recorded,
the superblock closed and queued for relocation, and what was lost programmed elsewhere. An erase that succeeded empties its blocks and
frees the superblock with one more erase and its read counts at 0; failed members are replaced by spares of their dies, or the superblock
is retired. A program or erase is suspended at most 4 times, for a read that waits on its dies. A die that stays busy, or whose last three
operations failed, is failed: recorded, its quad's data queued for relocation, and the critical warning set (R141, R144, R244, R262, R264,
R267, R268). -/
def Obligations.ProgramsErasesAndDiesEnd : Prop :=
  (∀ (s : State) (i p : Nat) (op : FlashOp) (slc : Bool),
    s.op i = some op →
    op.kind = .program slc p →
    exec (.flashProgramComplete i []) s = .next ((fun t : State => ({ t with flash := { t.flash with collecting := t.flash.collecting.filter (fun q => decide (t.quadFree q < t.flash.cfg.gcStart)) } } : State).settleHoldup) ((((programParts op.dest op.units op.words).foldl (fun s u => s.partDone slc p u) (s.setOp i none)).dieResults ((membersFrom op.dest op.words.length).map (nth 0 (quadDies op.quad))) [] 1).programmed.eraseEmpty))) ∧
  (∀ (s : State) (i p : Nat) (op : FlashOp) (slc : Bool) (ml : List Nat),
    s.op i = some op →
    op.kind = .program slc p →
    membersFrom op.dest op.words.length ≠ [] →
    (∀ m ∈ membersFrom op.dest op.words.length, m ∈ ml) →
    (∀ u ∈ programParts op.dest op.units op.words, u.2.2.2 ≠ []) →
    (∀ u ∈ programParts op.dest op.units op.words, ∀ m ∈ membersFrom u.2.2.1 u.2.2.2.length, m ∈ membersFrom op.dest op.words.length) →
    exec (.flashProgramComplete i ml) s = .next ((fun t : State => ({ t with flash := { t.flash with collecting := t.flash.collecting.filter (fun q => decide (t.quadFree q < t.flash.cfg.gcStart)) } } : State).settleHoldup) (((s.setOp i none).programFailed op slc p (membersFrom op.dest op.words.length)).dieResults ((membersFrom op.dest op.words.length).map (nth 0 (quadDies op.quad))) ((membersFrom op.dest op.words.length).map (nth 0 (quadDies op.quad))) 1).programmed.eraseEmpty)) ∧
  (∀ (s : State) (slc : Bool) (p : Nat) (k src dest : Nat) (ws : List (Option Codeword)),
    p = 0 ∨ p = 5 →
    s.partDone slc p (k, src, dest, ws) = (s.setCells dest ws).bufferDone slc k src dest (ws.countP (·.isSome))) ∧
  (∀ (s : State) (slc : Bool) (p : Nat) (k src dest : Nat) (ws : List (Option Codeword)),
    p ≠ 0 →
    p ≠ 5 →
    s.partDone slc p (k, src, dest, ws) = (s.setCells dest ws).copyDone slc (p == 3) k src dest) ∧
  (∀ (s : State) (slc : Bool) (k src dest : Nat),
    isChunkKey k = false →
    (s.entry k).state = .buffer →
    (s.entry k).paddr = src →
    s.nss.journal.length < 65536 →
    ((s.bufferDone slc k src dest 1).entry k).state = .flash ∧ ((s.bufferDone slc k src dest 1).entry k).paddr = dest ∧ ((s.bufferDone slc k src dest 1).entry k).slc = slc ∧ ((s.bufferDone slc k src dest 1).entry k).ok k = true ∧
      (s.bufferDone slc k src dest 1).slotFree src = true ∧ (s.bufferDone slc k src dest 1).nss.journal.length = s.nss.journal.length + 1) ∧
  (∀ (s : State) (slc : Bool) (k src dest n : Nat),
    isChunkKey k = false →
    ¬ ((s.entry k).state = .buffer ∧ (s.entry k).paddr = src) →
    Mem.get none s.nss.slots src = some k →
    s.bufferDone slc k src dest n = s.freeSlotAt src) ∧
  (∀ (s : State) (slc : Bool) (k src dest : Nat),
    (s.entry k).state = .flash →
    (s.entry k).paddr = src →
    s.copyDone slc false k src dest = s.setEntry k { s.entry k with paddr := dest, slc := slc }) ∧
  (∀ (s : State) (slc : Bool) (k src dest : Nat),
    (s.entry k).state = .flash →
    (s.entry k).paddr = src →
    s.copyDone slc true k src dest = s.enterCopy k dest) ∧
  (∀ (s : State) (slc hot : Bool) (k src dest : Nat),
    (s.entry k).state ≠ .flash ∨ (s.entry k).paddr ≠ src →
    s.copyDone slc hot k src dest = s) ∧
  (∀ (s : State) (i : Nat) (op : FlashOp),
    s.op i = some op →
    op.kind = .erase →
    (s.sb (sbKey op.quad op.sb)).failedMembers = [] →
    s.flash.recopy = [] →
    ∃ u : State, exec (.flashEraseComplete i []) s = .next u ∧ (u.sb (sbKey op.quad op.sb)).state = .free ∧ (u.sb (sbKey op.quad op.sb)).erases = (s.sb (sbKey op.quad op.sb)).erases + 1 ∧ (u.sb (sbKey op.quad op.sb)).reads = [0, 0, 0, 0] ∧ (u.sb (sbKey op.quad op.sb)).fill = 0 ∧
      u.op i = none ∧ u.nss = s.nss ∧ u.objs = s.objs ∧ (∀ m c, m < 4 → c / 2 ^ 14 = s.memberKey (sbKey op.quad op.sb) m → Mem.get none u.flash.cells c = none)) ∧
  (∀ (s : State) (i m : Nat) (op : FlashOp),
    s.op i = some op →
    op.kind = .erase →
    m < 4 →
    (s.sb (sbKey op.quad op.sb)).failedMembers = [] →
    s.flash.recopy = [] →
    (s.die (nth 0 (quadDies op.quad) m)).spares = [] →
    (∀ d, (s.die d).failures < 2) →
    ∃ u : State, exec (.flashEraseComplete i [m]) s = .next u ∧ (u.sb (sbKey op.quad op.sb)).state = .retired ∧ (u.die (nth 0 (quadDies op.quad) m)).retired = (s.die (nth 0 (quadDies op.quad) m)).retired + 1 ∧ (u.die (nth 0 (quadDies op.quad) m)).failures = (s.die (nth 0 (quadDies op.quad) m)).failures + 1) ∧
  (∀ (s : State) (i m : Nat) (op : FlashOp) (b : Nat) (bl : List Nat),
    s.op i = some op →
    op.kind = .erase →
    m < 4 →
    (s.sb (sbKey op.quad op.sb)).failedMembers = [] →
    s.flash.recopy = [] →
    (s.die (nth 0 (quadDies op.quad) m)).spares = b :: bl →
    (s.die (nth 0 (quadDies op.quad) m)).failures < 2 →
    ∃ u : State, exec (.flashEraseComplete i [m]) s = .next u ∧ (u.sb (sbKey op.quad op.sb)).state = .free ∧ (u.sb (sbKey op.quad op.sb)).members = (s.memberBlocks (sbKey op.quad op.sb)).set m b ∧ (u.die (nth 0 (quadDies op.quad) m)).spares = bl ∧ (u.die (nth 0 (quadDies op.quad) m)).retired = (s.die (nth 0 (quadDies op.quad) m)).retired + 1 ∧ (u.die (nth 0 (quadDies op.quad) m)).free = (s.die (nth 0 (quadDies op.quad) m)).free + 1) ∧
  (∀ (s : State) (i : Nat) (op : FlashOp),
    s.op i = some op →
    (∀ c q n, op.kind ≠ .read c q n) →
    op.suspended < 4 →
    (∃ j r x q n, s.op j = some r ∧ r.kind = .read x q n ∧ r.units.any (fun u => (quadDies op.quad).contains (paddrDie u.2)) = true) →
    exec (.programSuspend i) s = .next (s.setOp i (some { op with suspended := op.suspended + 1 }))) ∧
  (∀ (s : State) (i : Nat) (op : FlashOp),
    s.op i = some op →
    4 ≤ op.suspended →
    exec (.programSuspend i) s = .next (s)) ∧
  (∀ (s : State) (d : Nat),
    (s.die d).state = 1 →
    ∃ u : State, exec (.dieFailed d true) s = .next u ∧ (u.die d).state = 2 ∧ u.flash.unreliable = true ∧ u.recd.next = s.recd.next + 1 ∧ (∀ j, j ≠ d → u.die j = s.die j) ∧ u.nss = s.nss) ∧
  (∀ (s : State) (d : Nat),
    (s.die d).state = 1 →
    3 ≤ (s.die d).failures →
    exec (.dieFailed d false) s = .next (s.failDie d 1)) ∧
  (∀ (s : State) (d : Nat),
    (s.die d).failures < 3 →
    exec (.dieFailed d false) s = .next (s))

/-- Where media work runs: a fold moves the oldest closed SLC write-buffer superblock of a quad to native mode, and waits for dies without
host work while less than half of the write buffer is in use; collection takes a superblock queued for relocation first, then, below
GC_START, the closed native one with the fewest valid units; wear levelling moves the least-worn superblock that holds data once the
spread passes WEAR_SPREAD; a superblock read to its limit is recorded and relocated; a patrol scans a closed superblock once in a period,
retunes its thresholds and queues it when it needed rung 2 or 70 % of the correction; an extent at HOT_PROMOTE gets an SLC copy; the
sketch is halved every 2^20 increments (R255 to R266). -/
def Obligations.BackgroundMediaWorkMovesData : Prop :=
  (∀ (s : State) (q : Nat) (e : Nat × Sb),
    s.mediaWork = true →
    s.foldYields = false ∨ s.quadIdle q = true →
    (leastBy (fun e => e.2.closedAt) (s.closedIn q (fun b => b.isFor .write)) = some e) →
    exec (.fold q) s = .next (s.relocateSb e.1 1)) ∧
  (∀ (s : State) (q : Nat),
    s.mediaWork = false ∨ (s.foldYields = true ∧ s.quadIdle q = false) →
    exec (.fold q) s = .next (s)) ∧
  (∀ (s : State) (q : Nat) (e : Nat × Sb),
    s.mediaWork = true →
    (leastBy (fun e => e.2.closedAt) (s.closedIn q (fun b => b.relocate && !b.hot && !b.metadata)) = some e) →
    exec (.gcStart q) s = .next ((s.updSb e.1 (fun b => { b with relocate := false })).relocateSb e.1 2)) ∧
  (∀ (s : State) (q : Nat) (e : Nat × Sb),
    s.mediaWork = true →
    (leastBy (fun e => e.2.closedAt) (s.closedIn q (fun b => b.relocate && !b.hot && !b.metadata)) = none) →
    s.quadFree q < s.flash.cfg.gcStart →
    s.quadUsed q = true →
    (leastBy (fun e => s.validUnits e.1 * 2 ^ 40 + e.2.closedAt) (s.closedIn q (fun b => !b.slc)) = some e) →
    exec (.gcStart q) s = .next (({ s with flash := { s.flash with collecting := nubNat (s.flash.collecting ++ [q]) } } : State).relocateSb e.1 2)) ∧
  (∀ (s : State) (q : Nat),
    s.mediaWork = true →
    (leastBy (fun e => e.2.closedAt) (s.closedIn q (fun b => b.relocate && !b.hot && !b.metadata)) = none) →
    s.flash.cfg.gcStart ≤ s.quadFree q →
    exec (.gcStart q) s = .next (s)) ∧
  (∀ (s : State) (q hi : Nat) (e : Nat × Sb),
    s.mediaWork = true →
    ((s.flash.sbs.filter (fun e => e.1 / 2 ^ 17 == q)).foldl (fun n e => Nat.max n e.2.erases) 0 = hi) →
    ((s.flash.sbs.filter (fun e => e.1 / 2 ^ 17 == q)).length < s.quadBlocks q) →
    s.flash.cfg.wearSpread < hi →
    (leastBy (fun e => e.2.erases) ((s.closedIn q (fun b => !b.hot && !b.metadata)).filter (fun e => s.validUnits e.1 != 0)) = some e) →
    exec (.wearLevelRelocate q) s = .next (s.relocateSb e.1 2)) ∧
  (∀ (s : State) (q sb n : Nat),
    s.mediaWork = true →
    (s.sb (sbKey q sb)).state = .closed →
    s.sbBusy (sbKey q sb) = false →
    (s.sb (sbKey q sb)).reads.foldl Nat.max 0 = n →
    ((if (s.sb (sbKey q sb)).slc then s.flash.cfg.rdSlc else s.flash.cfg.rdNative) ≤ n) →
    (s.sb (sbKey q sb)).hot = false →
    exec (.readDisturbRelocate q sb) s = .next ((s.raise evReadDisturbRelocate 255 [(1, q), (4, sb), (4, n)]).relocateSb (sbKey q sb) 2)) ∧
  (∀ (s : State) (q sb n : Nat),
    s.mediaWork = true →
    (s.sb (sbKey q sb)).state = .closed →
    s.sbBusy (sbKey q sb) = false →
    (s.sb (sbKey q sb)).reads.foldl Nat.max 0 = n →
    ((if (s.sb (sbKey q sb)).slc then s.flash.cfg.rdSlc else s.flash.cfg.rdNative) ≤ n) →
    (s.sb (sbKey q sb)).hot = true →
    exec (.readDisturbRelocate q sb) s = .next ((s.raise evReadDisturbRelocate 255 [(1, q), (4, sb), (4, n)]).reclaimHot (sbKey q sb))) ∧
  (∀ (s : State) (q sb : Nat),
    ((s.sb (sbKey q sb)).reads.foldl Nat.max 0 < (if (s.sb (sbKey q sb)).slc then s.flash.cfg.rdSlc else s.flash.cfg.rdNative)) →
    exec (.readDisturbRelocate q sb) s = .next (s)) ∧
  (∀ (s : State),
    s.mayProgram = true →
    ∃ u : State, exec .disturbCheckpoint s = .next u ∧ u.nss = s.nss ∧ { u.flash with checkpoint := s.flash.checkpoint } = s.flash ∧ u.flash.checkpoint = s.flash.sbs.foldl (fun m e => Mem.set [0, 0, 0, 0] m e.1 e.2.reads) []) ∧
  (∀ (s : State) (q sb rung corrected : Nat),
    s.psm.mode = .service ∨ s.psm.mode = .degraded →
    (s.sb (sbKey q sb)).state = .closed →
    s.quadIdle q = true →
    (s.sb (sbKey q sb)).patrolled ≠ some s.patrolPeriod →
    ∃ u : State, exec (.patrolScan q sb rung corrected) s = .next u ∧ (u.sb (sbKey q sb)).patrolled = some s.patrolPeriod ∧
      (u.sb (sbKey q sb)).relocate = ((s.sb (sbKey q sb)).relocate || decide (2 ≤ rung ∨ 70 < corrected)) ∧ u.nss = s.nss ∧ u.objs = s.objs ∧ u.flash.cells = s.flash.cells ∧ u.freeCtr = s.freeCtr + 4) ∧
  (∀ (s : State) (q sb rung corrected : Nat),
    (s.sb (sbKey q sb)).state = .closed →
    s.quadIdle q = true →
    (s.sb (sbKey q sb)).patrolled = some s.patrolPeriod →
    exec (.patrolScan q sb rung corrected) s = .next (s)) ∧
  (∀ (s : State) (ext : Nat) (c : Chunk),
    s.mediaWork = true →
    s.chunk (ext / 4) = some c →
    (s.entry (chunkKey (ext / 4) (64 * (ext % 4)))).state = .flash →
    (s.entry (chunkKey (ext / 4) (64 * (ext % 4)))).hot = false →
    s.flash.ops = [] →
    s.flash.cfg.hotTier ≠ 0 →
    s.flash.cfg.hotPromote ≤ s.estimate ext →
    (∀ w ∈ ((s.entryUnits (chunkKey (ext / 4) (64 * (ext % 4)))).map (fun u => s.cell ((s.entry (chunkKey (ext / 4) (64 * (ext % 4)))).paddr + (u - (chunkKey (ext / 4) (64 * (ext % 4))))))), w ≠ none) →
    ((s.place .hot 64 64 (fun x => x == (s.entry (chunkKey (ext / 4) (64 * (ext % 4)))).paddr / 2 ^ 33)).isSome = true) →
    exec (.hotPromote ext) s = .next (s.startProgram .hot 3 [((chunkKey (ext / 4) (64 * (ext % 4))), (s.entry (chunkKey (ext / 4) (64 * (ext % 4)))).paddr, ((s.entryUnits (chunkKey (ext / 4) (64 * (ext % 4)))).map (fun u => s.cell ((s.entry (chunkKey (ext / 4) (64 * (ext % 4)))).paddr + (u - (chunkKey (ext / 4) (64 * (ext % 4))))))) ++ List.replicate (64 - (((s.entryUnits (chunkKey (ext / 4) (64 * (ext % 4)))).map (fun u => s.cell ((s.entry (chunkKey (ext / 4) (64 * (ext % 4)))).paddr + (u - (chunkKey (ext / 4) (64 * (ext % 4)))))))).length) none)] (fun x => x == (s.entry (chunkKey (ext / 4) (64 * (ext % 4)))).paddr / 2 ^ 33))) ∧
  (∀ (s : State) (ext : Nat),
    s.chunk (ext / 4) = none ∨ (s.entry (chunkKey (ext / 4) (64 * (ext % 4)))).state ≠ .flash ∨ (s.entry (chunkKey (ext / 4) (64 * (ext % 4)))).hot = true →
    exec (.hotPromote ext) s = .next (s)) ∧
  (∀ (s : State) (i : Nat),
    2 ^ 20 ≤ s.flash.increments →
    s.flash.sketch = [] →
    ∃ u : State, exec .sketchHalving s = .next u ∧ u.flash.increments + 2 ^ 20 = s.flash.increments ∧ u.flash.sketch = []) ∧
  (∀ (s : State) (k n : Nat),
    2 ^ 20 ≤ s.flash.increments →
    s.flash.sketch = [(k, n)] →
    ∃ u : State, exec .sketchHalving s = .next u ∧ Mem.get 0 u.flash.sketch k = n / 2) ∧
  (∀ (s : State),
    s.flash.increments < 2 ^ 20 →
    exec (.sketchHalving) s = .next (s))

/-- A full 256 KiB of journal records is programmed to metadata pages, and after 64 MiB of them a map checkpoint is taken: the dirty pages of
the map cache are written and the directory stands for the maps. A used die down to 8 free blocks makes the device read-only, with its
record, its DEGRADED cause and the critical warning; 24 free blocks on every used die clear it. Discovery at BOOT trains the channels,
excludes dies that report badly or differ, and puts complete quads into service; with none left BOOT ends in SAFE-HALT. Replay loads the
maps from the checkpoint and the records since, sets the units of the ledger's lost words LOST, empties buffer and ledger, and restores
the read counts from their checkpoint (R235, R236, R238, R250, R251, R271, R272, R531). -/
def Obligations.JournalReadOnlyAndDiscovery : Prop :=
  (∀ (s : State),
    16384 ≤ s.nss.journal.length →
    exec (.journalProgram) s = .next (s.programJournal 16384)) ∧
  (∀ (s : State),
    s.nss.journal.length < 16384 →
    exec (.journalProgram) s = .next (s)) ∧
  (∀ (s : State) (n : Nat) (t : State) (ps : List Nat),
    s.nss.journal.take n ≠ [] →
    (s.programPages 3 ((chunksOf 256 (s.nss.journal.take n)).map (fun g => padTo 4096 (g.map recordBytes).flatten)) = (t, ps)) →
    ps ≠ [] →
    s.programJournal n = { t with nss := { t.nss with journal := s.nss.journal.drop n, journalPages := s.nss.journalPages ++ ps } }) ∧
  (∀ (s : State) (n : Nat),
    s.nss.journal.take n = [] ∨ s.mayProgram = false ∨ s.nss.metaKey = none →
    s.programJournal n = s) ∧
  (∀ (s : State),
    16384 ≤ s.nss.journalPages.length →
    s.mayProgram = true →
    exec (.mapCheckpoint) s = .next (s.checkpointMaps.eraseEmpty)) ∧
  (∀ (s : State),
    (∀ c ∈ s.nss.cache, c.dirty = false) →
    s.checkpointMaps.nss.checkpointed = s.nss.directory ∧ s.checkpointMaps.nss.journalPages = [] ∧ s.checkpointMaps.nss.changed = [] ∧ s.checkpointMaps.nss.checkpoints = s.nss.checkpoints + 1 ∧ s.checkpointMaps.flash = s.flash) ∧
  (∀ (s : State) (d : Nat),
    (s.die d).state = 1 →
    (s.die d).free ≤ 8 →
    s.flash.readOnly = false →
    s.psm.mode = .service →
    ∃ u : State, exec (.writeStopReadOnly d) s = .next u ∧ u.flash.readOnly = true ∧ u.flash.readOnlySince = s.recd.hours ∧ u.psm.causes.getLsbD 0 = true ∧ u.psm.mode = .degraded ∧ u.flash.dies = s.flash.dies) ∧
  (∀ (s : State) (d : Nat),
    8 < (s.die d).free →
    exec (.writeStopReadOnly d) s = .next (s)) ∧
  (∀ (s : State),
    s.flash.readOnly = true →
    (∀ e ∈ s.usedDies, 24 ≤ e.2.free) →
    exec (.readOnlyCleared) s = .next ((({ s with flash := { s.flash with readOnly := false } } : State).raise evReadOnlyCleared 255 [(4, s.recd.hours - s.flash.readOnlySince)]).clearCause 0 evReadOnlyCleared.code)) ∧
  (∀ (s : State),
    s.flash.readOnly = true →
    (∃ e ∈ s.usedDies, e.2.free < 24) →
    exec (.readOnlyCleared) s = .next (s)) ∧
  (∀ (s : State) (dies : List DieReport) (chans : List ChanReport),
    s.psm.mode ≠ .boot ∨ s.psm.pins.testEn = true →
    exec (.flashDiscovery dies chans) s = .next (s)) ∧
  (∀ (s : State) (chans : List ChanReport),
    s.psm.mode = .boot →
    s.psm.pins.testEn = false →
    ∃ u : State, exec (.flashDiscovery [] chans) s = .next u ∧ u.psm.mode = .safeHalt ∧ u.psm.halt.code = evBootSelftestFail.code) ∧
  (∀ (s : State) (dies : List DieReport) (chans : List ChanReport) (q m : Nat),
    s.psm.mode = .boot →
    s.psm.pins.testEn = false →
    s.psm.halt.withdrawn = [] →
    q < 128 →
    (dies = (quadDies q).map (fun d => ({ die := d, cell := 3, timing := 1, blocks := 1000, bad := List.range (1000 - m), blockBytes := 1048576 } : DieReport))) →
    (chans = (quadDies q).map (fun d => ({ ch := dieChannel d, lpddr4 := false, eyes := [(1600, 300, 300), (1200, 300, 300), (800, 300, 300)] } : ChanReport))) →
    s.flash.cfg.chanEn = BitVec.allOnes 16 →
    800 ≤ s.flash.cfg.rate →
    s.flash.dies = [] →
    s.flash.blocks = 0 →
    25 ≤ m →
    m ≤ 1000 →
    ∃ u : State, exec (.flashDiscovery dies chans) s = .next u ∧ u.quadUsed q = true ∧ u.psm.mode = .boot ∧ (∀ d ∈ quadDies q, (u.die d).good = m ∧ (u.die d).free = m - 25 ∧ (u.die d).spares.length = 25 ∧ (u.flash.chans.any (fun c => c.1 == dieChannel d && c.2.trained)) = true) ∧
      u.flash.blocks = 1000 ∧ u.flash.sbUnits = 1024 ∧ u.flash.rawBytes = 4 * 1000 * 1048576 ∧ u.nss.metaKey.isSome = true) ∧
  (∀ (s : State),
    s.psm.mode = .boot →
    s.psm.pins.testEn = false →
    s.flash.journalRead = false →
    ∃ u : State, exec .journalReplay s = .next u ∧ u.nss.slots = [] ∧ u.nss.ledger = [] ∧ u.flash.ops = [] ∧ u.flash.journalRead = true ∧ u.flash.drained = false ∧ u.psm = s.psm) ∧
  (∀ (s : State) (i k : Nat),
    s.psm.mode = .boot →
    s.psm.pins.testEn = false →
    s.flash.journalRead = false →
    isChunkKey k = false →
    k / 2 ^ 40 < 2 ^ 11 →
    k % 2 ^ 40 < 2 ^ 37 →
    Mem.get none s.nss.ledger i = some (ledgerWord k 4096) →
    ∃ u : State, exec .journalReplay s = .next u ∧ (u.entry k).state = .lost) ∧
  (∀ (s : State) (k w : Nat),
    s.psm.mode = .boot →
    s.psm.pins.testEn = false →
    s.flash.journalRead = false →
    s.nss.ledger = [] →
    s.mapRecords = [(k, w)] →
    0 < k →
    k < 2 ^ 62 →
    ∃ u : State, exec .journalReplay s = .next u ∧ u.entry k = MapEntry.ofWord w k) ∧
  (∀ (s : State) (k : Nat) (b : Sb) (r : List Nat),
    s.psm.mode = .boot →
    s.psm.pins.testEn = false →
    s.flash.journalRead = false →
    s.flash.drained = true →
    s.nss.ledger = [] →
    s.flash.sbs = [(k, b)] →
    b.state ≠ .free →
    Mem.get [0, 0, 0, 0] s.flash.checkpoint k = r →
    ∃ u : State, exec .journalReplay s = .next u ∧ (u.sb k).reads = r ∧ (u.sb k).readers = 0)

/-- A request lies within one line of an in-service rank (R287, R289). A read that decodes returns the bytes of its range and changes no byte
of memory; a write changes the bytes of its range and no other, and replies without data; a read that is uncorrectable, or a write whose
command failed after three retries, replies with an error and takes the rank out of service (R302 to R304). A channel in self-refresh is
woken by a request; in SAFE-HALT's self-refresh a request fails to its requester (R298, R299). A request to a rank out of service has no
reply. Up to 4 of the 40 symbols that read wrongly are corrected; a failure while a migration runs on its channel waits for it (R302,
R310). -/
def Obligations.DramServesReadsAndWrites : Prop :=
  (∀ (s : State) (r : DramReq) (cs : Nat),
    r.port ≤ 7 →
    1 ≤ r.len →
    r.addr % 64 + r.len ≤ 64 →
    s.dram.resetHigh = true →
    s.dram.board.isEmpty = false →
    (s.dramPlace r.addr).2.1 < 4 →
    s.csOf (s.dramPlace r.addr).1 (s.dramPlace r.addr).2.1 = some cs →
    s.dmcServes (s.dramPlace r.addr).1 = true →
    r.isWrite = false →
    eccOf r.wrong = .clean →
    ∃ u : State, exec (.dramRequest r) s = .next u ∧ u.dram.reply = some (r.port, some (readBytes s.dram.cells r.addr r.len)) ∧ u.dram.cells = s.dram.cells ∧ u.dram.ranks = s.dram.ranks) ∧
  (∀ (s : State) (r : DramReq) (cs : Nat),
    r.port ≤ 7 →
    1 ≤ r.len →
    r.addr % 64 + r.len ≤ 64 →
    s.dram.resetHigh = true →
    s.dram.board.isEmpty = false →
    (s.dramPlace r.addr).2.1 < 4 →
    s.csOf (s.dramPlace r.addr).1 (s.dramPlace r.addr).2.1 = some cs →
    s.dmcServes (s.dramPlace r.addr).1 = true →
    r.isWrite = false →
    eccOf r.wrong = .uncorrectable →
    ∃ u : State, exec (.dramRequest r) s = .next u ∧ u.dram.reply = some (r.port, none)) ∧
  (∀ (s : State) (r : DramReq) (cs : Nat),
    r.port ≤ 7 →
    1 ≤ r.len →
    r.addr % 64 + r.len ≤ 64 →
    s.dram.resetHigh = true →
    s.dram.board.isEmpty = false →
    (s.dramPlace r.addr).2.1 < 4 →
    s.csOf (s.dramPlace r.addr).1 (s.dramPlace r.addr).2.1 = some cs →
    s.dmcServes (s.dramPlace r.addr).1 = true →
    r.isWrite = true →
    eccOf r.wrong = .clean →
    r.alerts < 4 →
    ∃ u : State, exec (.dramRequest r) s = .next u ∧ u.dram.reply = some (r.port, some []) ∧ readBytes u.dram.cells r.addr r.len = padTo r.len r.data ∧ u.dram.ranks = s.dram.ranks) ∧
  (∀ (s : State) (r : DramReq) (cs : Nat) (a : Nat),
    r.port ≤ 7 →
    1 ≤ r.len →
    r.addr % 64 + r.len ≤ 64 →
    s.dram.resetHigh = true →
    s.dram.board.isEmpty = false →
    (s.dramPlace r.addr).2.1 < 4 →
    s.csOf (s.dramPlace r.addr).1 (s.dramPlace r.addr).2.1 = some cs →
    s.dmcServes (s.dramPlace r.addr).1 = true →
    r.isWrite = true →
    eccOf r.wrong = .clean →
    r.alerts < 4 →
    a < r.addr ∨ r.addr + r.len ≤ a →
    ∃ u : State, exec (.dramRequest r) s = .next u ∧ Mem.get 0 u.dram.cells a = Mem.get 0 s.dram.cells a) ∧
  (∀ (s : State) (r : DramReq) (cs : Nat),
    r.port ≤ 7 →
    1 ≤ r.len →
    r.addr % 64 + r.len ≤ 64 →
    s.dram.resetHigh = true →
    s.dram.board.isEmpty = false →
    (s.dramPlace r.addr).2.1 < 4 →
    s.csOf (s.dramPlace r.addr).1 (s.dramPlace r.addr).2.1 = some cs →
    s.dmcServes (s.dramPlace r.addr).1 = true →
    r.isWrite = true →
    4 ≤ r.alerts →
    ∃ u : State, exec (.dramRequest r) s = .next u ∧ u.dram.reply = some (r.port, none)) ∧
  (∀ (s : State) (r : DramReq) (cs : Nat),
    r.port ≤ 7 →
    1 ≤ r.len →
    r.addr % 64 + r.len ≤ 64 →
    s.dram.resetHigh = true →
    s.dram.board.isEmpty = false →
    (s.dramPlace r.addr).2.1 < 4 →
    s.csOf (s.dramPlace r.addr).1 (s.dramPlace r.addr).2.1 = some cs →
    s.dmcServes (s.dramPlace r.addr).1 = false →
    s.psm.mode = .safeHalt →
    exec (.dramRequest r) s = .next (s.dramReply r.port none)) ∧
  (∀ (s : State) (r : DramReq),
    s.csOf (s.dramPlace r.addr).1 (s.dramPlace r.addr).2.1 = none →
    exec (.dramRequest r) s = .next (s)) ∧
  (∀ (s : State) (ch cs m port : Nat),
    s.rank ch cs = .inService →
    s.dmcNormal = true →
    s.spareOf ch = some m →
    Mem.get none s.dram.migration ch = none →
    (s.retireRank ch cs true).rank ch cs = .migratingOut ∧ (m ≠ cs → (s.retireRank ch cs true).rank ch m = .migratingIn) ∧ Mem.get none (s.retireRank ch cs true).dram.migration ch = some { fromCs := cs, toCs := m }) ∧
  (∀ (s : State) (ch cs : Nat) (m : Migration),
    s.rank ch cs = .inService →
    s.dmcNormal = true →
    Mem.get none s.dram.migration ch = some m →
    s.retireRank ch cs false = s ∧ (s.retireRank ch cs true).dram.ranks = s.dram.ranks ∧ (s.retireRank ch cs true).dram.migration = s.dram.migration ∧ 4 * ch + cs ∈ (s.retireRank ch cs true).dram.deferredFail) ∧
  (∀ (l : List Nat),
    l.Nodup →
    (∀ j ∈ l, j < 40) →
    (l = [] → eccOf l = .clean) ∧ (1 ≤ l.length → l.length ≤ 4 → eccOf l = .corrected) ∧ (4 < l.length → eccOf l = .uncorrectable))

/-- The end of a row-disturb window clears every count and lifts every throttle (R300). A refresh of a bank is issued and closes its row, is
postponed up to 4 times, or is issued early up to 4 times (R296). ZQ calibration and MR4 reads run on a channel outside self-refresh; MR4
sets the refresh rate (R292). A self-refresh that the device asked for is entered unless a request comes before it, and left at once when
one comes after it, except in SAFE-HALT (R297, R298). A patrol read of an in-service rank counts, and a corrected or uncorrectable line is
counted and handled as a request's is (R303, R304). A migration that is done maps the logical rank to its target, which is in service, the
old rank RETIRED, and is recorded (R306, R307). A spare is initialised, or unavailable with its record when a line is bad (R294). Bring-up
runs in BOOT once every fitted rank is reported: RESET_n is high, the memory reads as zeros, the fitted ranks are in service but for the
spare, and a rank in service below its margin takes the device to SAFE-HALT with DRAM_PROFILE_FAIL (R293, R294). -/
def Obligations.RanksRefreshScrubMigrateAndComeUp : Prop :=
  (∀ (s : State) (k : Nat),
    ∃ u : State, exec .rowDisturbWindow s = .next u ∧ (Mem.get {} u.dram.track k).rows = [] ∧ (Mem.get {} u.dram.track k).throttled = none ∧ u.dram.cells = s.dram.cells ∧ u.dram.throttles = s.dram.throttles) ∧
  (∀ (s : State) (ch rank bank : Nat) (b : RowTrack),
    ch ≤ 1 →
    rank ≤ 3 →
    bank ≤ 31 →
    s.dmcAwake ch = true →
    s.rank ch rank ≠ .absent →
    Mem.get {} s.dram.track ((4 * ch + rank) * 32 + bank) = b →
    ∃ u : State, exec (.refresh ch rank bank .issue) s = .next u ∧ Mem.get {} u.dram.track ((4 * ch + rank) * 32 + bank) = { b with refreshes := b.refreshes + 1, openRow := none }) ∧
  (∀ (s : State) (ch rank bank : Nat) (b : RowTrack),
    ch ≤ 1 →
    rank ≤ 3 →
    bank ≤ 31 →
    s.dmcAwake ch = true →
    s.rank ch rank ≠ .absent →
    Mem.get {} s.dram.track ((4 * ch + rank) * 32 + bank) = b →
    b.debt < 4 →
    ∃ u : State, exec (.refresh ch rank bank .postpone) s = .next u ∧ Mem.get {} u.dram.track ((4 * ch + rank) * 32 + bank) = { b with debt := b.debt + 1 }) ∧
  (∀ (s : State) (ch rank bank : Nat) (b : RowTrack),
    ch ≤ 1 →
    rank ≤ 3 →
    bank ≤ 31 →
    s.dmcAwake ch = true →
    s.rank ch rank ≠ .absent →
    Mem.get {} s.dram.track ((4 * ch + rank) * 32 + bank) = b →
    4 ≤ b.debt →
    ∃ u : State, exec (.refresh ch rank bank .postpone) s = .next u ∧ Mem.get {} u.dram.track ((4 * ch + rank) * 32 + bank) = { b with refreshes := b.refreshes + 1, openRow := none }) ∧
  (∀ (s : State) (ch rank bank : Nat) (b : RowTrack),
    ch ≤ 1 →
    rank ≤ 3 →
    bank ≤ 31 →
    s.dmcAwake ch = true →
    s.rank ch rank ≠ .absent →
    Mem.get {} s.dram.track ((4 * ch + rank) * 32 + bank) = b →
    -4 < b.debt →
    ∃ u : State, exec (.refresh ch rank bank .early) s = .next u ∧ Mem.get {} u.dram.track ((4 * ch + rank) * 32 + bank) = { b with refreshes := b.refreshes + 1, debt := b.debt - 1, openRow := none }) ∧
  (∀ (s : State) (ch rank bank : Nat) (b : RowTrack),
    ch ≤ 1 →
    rank ≤ 3 →
    bank ≤ 31 →
    s.dmcAwake ch = true →
    s.rank ch rank ≠ .absent →
    Mem.get {} s.dram.track ((4 * ch + rank) * 32 + bank) = b →
    b.debt ≤ -4 →
    ∃ u : State, exec (.refresh ch rank bank .early) s = .next u ∧ Mem.get {} u.dram.track ((4 * ch + rank) * 32 + bank) = b) ∧
  (∀ (s : State),
    s.dmcAwake 0 = true ∨ s.dmcAwake 1 = true →
    exec (.zqCalibration) s = .next ({ s with dram := { s.dram with zq := s.dram.zq + 1 } })) ∧
  (∀ (s : State) (d : Bool),
    s.dmcAwake 0 = true ∨ s.dmcAwake 1 = true →
    exec (.mr4Read d) s = .next ({ s with dram := { s.dram with refresh2x := d } })) ∧
  (∀ (s : State) (ch : Nat) (after : Bool),
    ch ≤ 1 →
    s.dram.srRequested = true →
    s.dram.resetHigh = true →
    s.psm.mode = .rest →
    s.psm.heldFromHalt = false →
    ∃ u : State, exec (.selfRefreshEntry ch false after) s = .next u ∧ Mem.get false u.dram.selfRefresh ch = !after ∧ u.dram.cells = s.dram.cells) ∧
  (∀ (s : State) (ch : Nat) (after : Bool),
    ch ≤ 1 →
    s.dram.srRequested = true →
    s.dram.resetHigh = true →
    s.psm.mode = .safeHalt →
    ∃ u : State, exec (.selfRefreshEntry ch false after) s = .next u ∧ Mem.get false u.dram.selfRefresh ch = true) ∧
  (∀ (s : State) (ch : Nat) (after : Bool),
    exec (.selfRefreshEntry ch true after) s = .next (s)) ∧
  (∀ (s t : State) (ch rk line l : Nat) (wl : List Nat),
    ch ≤ 1 →
    rk ≤ 3 →
    line < rankLines s.dram.board →
    s.dmcNormal = true →
    s.logicalOf ch rk = some l →
    (s.wakeChannel ch).activate ch rk line 7 = t →
    eccOf wl = .clean →
    exec (.scrubRead ch rk line wl) s = .next ({ t with dram := { t.dram with scrubbed := t.dram.scrubbed + 1 } })) ∧
  (∀ (s t : State) (ch rk line l : Nat) (wl : List Nat),
    ch ≤ 1 →
    rk ≤ 3 →
    line < rankLines s.dram.board →
    s.dmcNormal = true →
    s.logicalOf ch rk = some l →
    (s.wakeChannel ch).activate ch rk line 7 = t →
    eccOf wl = .corrected →
    exec (.scrubRead ch rk line wl) s = .next (({ t with dram := { t.dram with scrubbed := t.dram.scrubbed + 1 } } : State).correctedError ch rk)) ∧
  (∀ (s t : State) (ch rk line l : Nat) (wl : List Nat),
    ch ≤ 1 →
    rk ≤ 3 →
    line < rankLines s.dram.board →
    s.dmcNormal = true →
    s.logicalOf ch rk = some l →
    (s.wakeChannel ch).activate ch rk line 7 = t →
    eccOf wl = .uncorrectable →
    exec (.scrubRead ch rk line wl) s = .next (({ t with dram := { t.dram with scrubbed := t.dram.scrubbed + 1 } } : State).uncorrectable ch rk (s.dramAddr ch l line) 7 1)) ∧
  (∀ (s : State) (ch cs : Nat) (n : Nat),
    Mem.get (0, 0) s.dram.ceHour (4 * ch + cs) = (s.recd.hours, n) →
    n ≠ 4096 →
    (s.correctedError ch cs).recd = s.recd ∧ Mem.get (0, 0) (s.correctedError ch cs).dram.ceHour (4 * ch + cs) = (s.recd.hours, n + 1) ∧ (s.correctedError ch cs).dram.cells = s.dram.cells) ∧
  (∀ (s : State) (ch rebuilt ms : Nat) (m : Migration),
    s.dmcNormal = true →
    Mem.get none s.dram.migration ch = some m →
    m.fromCs ≠ m.toCs →
    m.fromCs < 4 →
    m.toCs < 4 →
    ch ≤ 1 →
    s.dram.deferredFail = [] →
    ∃ u : State, exec (.rankMigrated ch rebuilt ms) s = .next u ∧ u.rank ch m.fromCs = .retired ∧ u.rank ch m.toCs = .inService ∧ Mem.get none u.dram.migration ch = none ∧
      (∀ l, s.logicalOf ch m.fromCs = some l → u.csOf ch l = some m.toCs) ∧ u.recd.next = s.recd.next + 1 ∧ u.dram.cells = s.dram.cells) ∧
  (∀ (s : State) (ch rk : Nat),
    s.dmcNormal = true →
    ch ≤ 1 →
    rk ≤ 3 →
    s.rank ch rk = .spare →
    Mem.get false s.dram.spareInit (4 * ch + rk) = false →
    exec (.spareInit ch rk none) s = .next ({ s with dram := { s.dram with spareInit := Mem.set false s.dram.spareInit (4 * ch + rk) true } })) ∧
  (∀ (s : State) (ch rk a : Nat),
    s.dmcNormal = true →
    ch ≤ 1 →
    rk ≤ 3 →
    s.rank ch rk = .spare →
    Mem.get false s.dram.spareInit (4 * ch + rk) = false →
    exec (.spareInit ch rk (some a)) s = .next ((s.setRank ch rk .spareUnavailable).raise evDramSpareUnavailable 255 [(1, ch), (1, rk), (8, a)])) ∧
  (∀ (s : State) (reports : List RankReport),
    s.psm.mode ≠ .boot ∨ s.psm.pins.testEn = true ∨ s.dram.resetHigh = true ∨ s.dram.board = [] →
    exec (.dramBringup reports) s = .next (s)) ∧
  (∀ (s : State) (a b : RankReport) (m : Nat),
    s.psm.mode = .boot →
    s.psm.pins.testEn = false →
    s.dram.resetHigh = false →
    s.dram.board ≠ [] →
    boardRanks s.dram.board = 1 →
    bit (byteAt s.dram.board 0) 6 = false →
    s.dram.ranks = [] →
    s.dram.rankMap = [] →
    a.ch = 0 →
    b.ch = 1 →
    a.rank = 0 →
    b.rank = 0 →
    a.badLine = none →
    b.badLine = none →
    lowMargin a m = none →
    lowMargin b m = none →
    byteAt s.dram.board 14 = m →
    ∃ u : State, exec (.dramBringup [a, b]) s = .next u ∧ u.psm = s.psm ∧ u.dram.resetHigh = true ∧ u.dram.cells = [] ∧ u.rank 0 0 = .inService ∧ u.rank 1 0 = .inService ∧ u.csOf 0 0 = some 0 ∧ u.csOf 1 0 = some 0 ∧ u.recd = s.recd) ∧
  (∀ (s : State) (a b : RankReport) (m : Nat),
    s.psm.mode = .boot →
    s.psm.pins.testEn = false →
    s.dram.resetHigh = false →
    s.dram.board ≠ [] →
    boardRanks s.dram.board = 1 →
    bit (byteAt s.dram.board 0) 6 = false →
    s.dram.ranks = [] →
    s.dram.rankMap = [] →
    a.ch = 0 →
    b.ch = 1 →
    a.rank = 0 →
    b.rank = 0 →
    lowMargin a (byteAt s.dram.board 14) = some m →
    ∃ u : State, exec (.dramBringup [a, b]) s = .next u ∧ u.psm.mode = .safeHalt ∧ u.dram.resetHigh = true ∧ u.psm.halt.code = evDramProfileFail.code)

/-- RING and CLEAR act by the channel's state (R328). A round grants an expired requester first, then the highest class, and clears the
winner's wait; an engine's round fetches the winner's descriptor, and no round runs while the engine is busy or no READY channel asks
(R317, R335, R340, R341); a commit takes the shadow settings at the next round (R343). A descriptor without OWN or with a bad field halts
its channel with STATUS written and a record (R322, R346); one that a completed move ends has its bytes at the destination, STATUS written
and OWN cleared, with no other byte of its line changed (R325); an error, a forbidden tag or a bad integrity tag retracts the job, a bad
tag is reported to the integrity monitor and an SPL word that cannot be corrected is recorded (R14, R27, R320, R321, R323, R332); the tags
of units are written under TAG_MODE 1 and 3; JOB_END with VERDICT holds until its verdict, a PASS that came early ends it at once, and
FAIL retracts the job (R331). A producer's failure with no job is recorded as late (R347). A forced shutdown of a live device that has
used no channel marks the domain and is recorded (R336); a powered-down domain is granted nothing (R335). A port 0 request is refused with
its ERR code or appended to the channel (R337, R338). -/
def Obligations.DmaChannelsJobsAndArbitration : Prop :=
  (∀ (s : State) (ch : Nat),
    (s.ch ch).state = .idle →
    exec (.channelRing ch) s = .next (s.setCh ch { s.ch ch with state := .ready, curSpl := (s.ch ch).head.getLsbD 1, cur := (s.ch ch).head.toNat / 64 * 64, pend := false })) ∧
  (∀ (s : State) (ch : Nat),
    (s.ch ch).state = .halted →
    exec (.channelRing ch) s = .next (s.setCh ch { s.ch ch with state := .ready, curSpl := (s.ch ch).head.getLsbD 1, cur := (s.ch ch).head.toNat / 64 * 64, pend := false })) ∧
  (∀ (s : State) (ch : Nat),
    (s.ch ch).state = .ready →
    exec (.channelRing ch) s = .next (s.setCh ch { s.ch ch with pend := true })) ∧
  (∀ (s : State) (ch : Nat),
    (s.ch ch).state = .ready →
    exec (.channelClear ch) s = .next (s)) ∧
  (∀ (s : State) (ch : Nat),
    (s.ch ch).state = .active →
    exec (.channelRing ch) s = .next (s.setCh ch { s.ch ch with pend := true })) ∧
  (∀ (s : State) (ch : Nat),
    (s.ch ch).state = .active →
    exec (.channelClear ch) s = .next (s)) ∧
  (∀ (s : State) (ch l : Nat),
    (s.ch ch).state = .parked →
    (s.readDesc (s.ch ch).curSpl (s.ch ch).cur).link = l →
    l % 2 = 1 →
    exec (.channelRing ch) s = .next (s)) ∧
  (∀ (s : State) (ch l : Nat),
    (s.ch ch).state = .parked →
    (s.readDesc (s.ch ch).curSpl (s.ch ch).cur).link = l →
    l % 2 = 0 →
    exec (.channelRing ch) s = .next (s.setCh ch { s.ch ch with state := .ready, curSpl := l.testBit 1, cur := l / 64 * 64 })) ∧
  (∀ (s : State) (ch : Nat),
    (s.ch ch).state = .idle →
    exec (.channelClear ch) s = .next (({ s with cpe := s.cpe.settle (fun e => e.1 == ch) } : State).setCh ch { s.ch ch with state := .idle, pend := false, jobOpen := false, job := [], aborting := false, partialTag := none, verdicts := (s.ch ch).dropPass })) ∧
  (∀ (s : State) (ch : Nat),
    (s.ch ch).state = .parked →
    exec (.channelClear ch) s = .next (({ s with cpe := s.cpe.settle (fun e => e.1 == ch) } : State).setCh ch { s.ch ch with state := .idle, pend := false, jobOpen := false, job := [], aborting := false, partialTag := none, verdicts := (s.ch ch).dropPass })) ∧
  (∀ (s : State) (ch : Nat),
    (s.ch ch).state = .halted →
    exec (.channelClear ch) s = .next (({ s with cpe := s.cpe.settle (fun e => e.1 == ch) } : State).setCh ch { s.ch ch with state := .idle, pend := false, jobOpen := false, job := [], aborting := false, partialTag := none, verdicts := (s.ch ch).dropPass })) ∧
  (∀ (a b : Au) (asking : List Nat) (w : Nat),
    a.round asking = (b, some w) →
    w ∈ asking ∧ w < a.reqs.length ∧ (nth {} b.reqs w).wait = 0 ∧ b.owner = w ∧ b.held = true ∧ b.parked = (asking.length == 1) ∧ b.reqs.length = a.reqs.length) ∧
  (∀ (a b : Au) (asking : List Nat) (w i : Nat),
    a.round asking = (b, some w) →
    i ∈ asking →
    i < a.reqs.length →
    (nth {} a.reqs i).expired = true →
    (nth {} a.reqs w).expired = true) ∧
  (∀ (a b : Au) (asking : List Nat) (w i : Nat),
    a.round asking = (b, some w) →
    i ∈ asking →
    i < a.reqs.length →
    (∀ j ∈ asking, (nth {} a.reqs j).expired = false) →
    (∀ j ∈ asking, (nth {} a.reqs j).cls ≤ 3) →
    (nth {} a.reqs i).cls ≤ (nth {} a.reqs w).cls) ∧
  (∀ (a b : Au) (asking : List Nat) (w i : Nat),
    a.round asking = (b, some w) →
    i ≠ w →
    i < a.reqs.length →
    nth {} b.reqs i = (if i ∈ asking then { nth {} a.reqs i with wait := min ((nth {} a.reqs i).wait + 1) 4095 } else nth {} a.reqs i)) ∧
  (∀ (s : State) (inst : Nat) (asking : List Nat),
    8 ≤ inst →
    asking ≠ [] →
    (s.au inst).parked = false →
    exec (.auRound inst asking) s = .next (s.setAu inst ((s.au inst).takeCommit.round asking).1)) ∧
  (∀ (s : State) (inst : Nat) (asking : List Nat) (ch : Nat),
    inst ≤ 7 →
    32 * inst ≤ ch →
    ch < 32 * inst + 32 →
    (s.ch ch).state = .active →
    exec (.auRound inst asking) s = .next (s)) ∧
  (∀ (s : State) (inst : Nat) (asking : List Nat),
    inst ≤ 7 →
    (∀ k ∈ asking, (s.ch (32 * inst + k)).state ≠ .ready) →
    exec (.auRound inst asking) s = .next (s)) ∧
  (∀ (s : State) (inst k : Nat),
    inst ≤ 7 →
    s.psm.halt.withdrawn = [] →
    k < 32 →
    (s.ch (32 * inst + k)).state = .ready →
    (∀ j, j < 32 → (s.ch (32 * inst + j)).state ≠ .active) →
    s.dmf.domainsOff = [] →
    (s.au inst).reqs.length = 32 →
    (s.au inst).commit = false →
    (nth {} (s.au inst).reqs k).cls ≤ 3 →
    ∃ a : Au, exec (.auRound inst [k]) s = .next ((s.setAu inst a).fetchDesc (32 * inst + k)) ∧ a.owner = k ∧ a.held = true ∧ a.parked = true) ∧
  (∀ (s : State) (inst : Nat) (asking : List Nat),
    inst ≤ 7 →
    .dma inst ∈ s.psm.halt.withdrawn →
    exec (.auRound inst asking) s = .next (s)) ∧
  (∀ (s : State) (inst : Nat),
    exec (.auCommit inst) s = .next (s.setAu inst { s.au inst with commit := true })) ∧
  (∀ (a : Au) (i : Nat),
    a.commit = true →
    i < a.reqs.length →
    (nth {} a.takeCommit.reqs i).cls = (nth {} a.reqs i).shadowCls ∧ (nth {} a.takeCommit.reqs i).limit = (nth {} a.reqs i).shadowLimit ∧ (nth {} a.takeCommit.reqs i).wait = (nth {} a.reqs i).wait ∧ a.takeCommit.commit = false) ∧
  (∀ (s : State) (ch : Nat),
    ((s.readDesc (s.ch ch).curSpl (s.ch ch).cur)).own = false →
    s.fetchDesc ch = ((s.closeDesc (s.ch ch).curSpl (s.ch ch).cur (statusWord 0x09 false 0)).setCh ch { s.ch ch with state := .halted }).raiseFrom (engineOf ch) evDmaChannelHalted (s.readDesc (s.ch ch).curSpl (s.ch ch).cur).func [(1, ch), (8, (s.ch ch).cur), (1, 0x09)]) ∧
  (∀ (s : State) (ch : Nat),
    ((s.readDesc (s.ch ch).curSpl (s.ch ch).cur)).own = true →
    s.descOk (s.ch ch) (s.readDesc (s.ch ch).curSpl (s.ch ch).cur) = false →
    s.fetchDesc ch = ((s.closeDesc (s.ch ch).curSpl (s.ch ch).cur (statusWord 0x08 false 0)).setCh ch { s.ch ch with state := .halted }).raiseFrom (engineOf ch) evDmaChannelHalted (s.readDesc (s.ch ch).curSpl (s.ch ch).cur).func [(1, ch), (8, (s.ch ch).cur), (1, 0x08)]) ∧
  (∀ (s : State) (ch : Nat),
    ((s.readDesc (s.ch ch).curSpl (s.ch ch).cur)).own = true →
    s.descOk (s.ch ch) (s.readDesc (s.ch ch).curSpl (s.ch ch).cur) = true →
    (s.ch ch).aborting = false →
    ((s.fetchDesc ch).ch ch).state = .active ∧ ((s.fetchDesc ch).ch ch).jobOpen = ((s.ch ch).jobOpen || ((s.readDesc (s.ch ch).curSpl (s.ch ch).cur).jobStart && !(s.readDesc (s.ch ch).curSpl (s.ch ch).cur).jobEnd)) ∧ (s.fetchDesc ch).curDesc ch = (s.readDesc (s.ch ch).curSpl (s.ch ch).cur) ∧ (s.fetchDesc ch).dmf.spl = s.dmf.spl ∧ (s.fetchDesc ch).dram = s.dram) ∧
  (∀ (s : State) (ch : Nat) (r : MoveOutcome),
    (s.ch ch).state ≠ .active ∨ (s.ch ch).held = true →
    exec (.descriptorComplete ch r) s = .next (s)) ∧
  (∀ (s : State) (ch : Nat) (r : MoveOutcome) (d : Desc),
    (s.ch ch).state = .active →
    (s.ch ch).held = false →
    (s.curDesc ch) = d →
    s.retired d.func d.gen = true →
    exec (.descriptorComplete ch r) s = .next (s.completeDesc ch d 0x07 0)) ∧
  (∀ (s : State) (ch : Nat) (r : MoveOutcome) (d : Desc),
    (s.ch ch).state = .active →
    (s.ch ch).held = false →
    (s.curDesc ch) = d →
    s.retired d.func d.gen = false →
    s.awaitsCpe d = true →
    exec (.descriptorComplete ch r) s = .next (s)) ∧
  (∀ (s : State) (ch : Nat) (r : MoveOutcome) (d : Desc),
    (s.ch ch).state = .active →
    (s.ch ch).held = false →
    (s.curDesc ch) = d →
    s.retired d.func d.gen = false →
    s.awaitsCpe d = false →
    (s.ch ch).verdictFor d = some false →
    exec (.descriptorComplete ch r) s = .next (((s.takeVerdict ch d).stopMove ch d).failJob ch d 0x05)) ∧
  (∀ (s : State) (ch n : Nat) (d : Desc),
    (s.ch ch).state = .active →
    (s.ch ch).held = false →
    (s.curDesc ch) = d →
    s.retired d.func d.gen = false →
    s.awaitsCpe d = false →
    (s.ch ch).verdictFor d ≠ some false →
    d.srcSpace ≠ 2 →
    exec (.descriptorComplete ch (.srcError n)) s = .next ((s.moveDesc ch d ((s.sourceBytes d []).1.take n)).failJob ch d 0x01)) ∧
  (∀ (s : State) (ch n : Nat) (d : Desc),
    (s.ch ch).state = .active →
    (s.ch ch).held = false →
    (s.curDesc ch) = d →
    s.retired d.func d.gen = false →
    s.awaitsCpe d = false →
    (s.ch ch).verdictFor d ≠ some false →
    d.srcSpace = 2 →
    exec (.descriptorComplete ch (.srcError n)) s = .next (((s.moveDesc ch d ((s.sourceBytes d []).1.take n)).failJob ch d 0x01).splError (d.src + ((s.sourceBytes d []).1.take n).length))) ∧
  (∀ (s : State) (ch n : Nat) (d : Desc),
    (s.ch ch).state = .active →
    (s.ch ch).held = false →
    (s.curDesc ch) = d →
    s.retired d.func d.gen = false →
    s.awaitsCpe d = false →
    (s.ch ch).verdictFor d ≠ some false →
    exec (.descriptorComplete ch (.dstError n)) s = .next ((s.moveDesc ch d ((s.sourceBytes d []).1.take n)).failJob ch d 0x02)) ∧
  (∀ (s : State) (ch n : Nat) (d : Desc),
    (s.ch ch).state = .active →
    (s.ch ch).held = false →
    (s.curDesc ch) = d →
    s.retired d.func d.gen = false →
    s.awaitsCpe d = false →
    (s.ch ch).verdictFor d ≠ some false →
    exec (.descriptorComplete ch (.tagMismatch n)) s = .next (((s.moveDesc ch d ((s.sourceBytes d []).1.take n)).failJob ch d 0x03).reportTag (engineOf ch) d.func d.tagNsid (d.tagUnit + (d.src % 4096 + n) / 4096))) ∧
  (∀ (s : State) (ch : Nat) (h bs : Bytes) (d : Desc),
    (s.ch ch).state = .active →
    (s.ch ch).held = false →
    (s.curDesc ch) = d →
    s.retired d.func d.gen = false →
    s.awaitsCpe d = false →
    (s.ch ch).verdictFor d ≠ some false →
    s.sourceBytes d h = (bs, 4) →
    exec (.descriptorComplete ch (.moved h)) s = .next ((s.moveDesc ch d bs).failJob ch d 0x04)) ∧
  (∀ (s : State) (ch : Nat) (h bs : Bytes) (d : Desc),
    (s.ch ch).state = .active →
    (s.ch ch).held = false →
    (s.curDesc ch) = d →
    s.retired d.func d.gen = false →
    s.awaitsCpe d = false →
    (s.ch ch).verdictFor d ≠ some false →
    s.sourceBytes d h = (bs, 1) →
    exec (.descriptorComplete ch (.moved h)) s = .next (s.failSource ch d (readBytes s.dmf.spl d.src (s.splBadAt d.src d.length)))) ∧
  (∀ (s : State) (ch : Nat) (h bs : Bytes) (d : Desc),
    (s.ch ch).state = .active →
    (s.ch ch).held = false →
    (s.curDesc ch) = d →
    s.retired d.func d.gen = false →
    s.awaitsCpe d = false →
    (s.ch ch).verdictFor d ≠ some false →
    s.sourceBytes d h = (bs, 0) →
    s.badTag d (s.tagWork ch d bs) = none →
    (s.ch ch).failing = true →
    exec (.descriptorComplete ch (.moved h)) s = .next (((s.moveDesc ch d bs).writeTags ch d (s.tagWork ch d bs)).failJob ch d 0x05)) ∧
  (∀ (s : State) (ch : Nat) (h bs : Bytes) (d : Desc),
    (s.ch ch).state = .active →
    (s.ch ch).held = false →
    (s.curDesc ch) = d →
    s.retired d.func d.gen = false →
    s.awaitsCpe d = false →
    (s.ch ch).verdictFor d ≠ some false →
    s.sourceBytes d h = (bs, 0) →
    s.badTag d (s.tagWork ch d bs) = none →
    (s.ch ch).failing = false →
    d.jobEnd = false ∨ d.verdict = false →
    exec (.descriptorComplete ch (.moved h)) s = .next (((s.moveDesc ch d bs).writeTags ch d (s.tagWork ch d bs)).completeDesc ch d 0x00 d.length)) ∧
  (∀ (s : State) (ch : Nat) (h bs : Bytes) (d : Desc),
    (s.ch ch).state = .active →
    (s.ch ch).held = false →
    (s.curDesc ch) = d →
    s.retired d.func d.gen = false →
    s.awaitsCpe d = false →
    (s.ch ch).verdictFor d ≠ some false →
    s.sourceBytes d h = (bs, 0) →
    s.badTag d (s.tagWork ch d bs) = none →
    (s.ch ch).failing = false →
    d.jobEnd = true →
    d.verdict = true →
    (s.ch ch).verdictFor d = none →
    exec (.descriptorComplete ch (.moved h)) s = .next (((s.moveDesc ch d bs).writeTags ch d (s.tagWork ch d bs)).setCh ch { ((s.moveDesc ch d bs).writeTags ch d (s.tagWork ch d bs)).ch ch with held := true })) ∧
  (∀ (s : State) (ch : Nat) (h bs : Bytes) (d : Desc),
    (s.ch ch).state = .active →
    (s.ch ch).held = false →
    (s.curDesc ch) = d →
    s.retired d.func d.gen = false →
    s.awaitsCpe d = false →
    (s.ch ch).verdictFor d ≠ some false →
    s.sourceBytes d h = (bs, 0) →
    s.badTag d (s.tagWork ch d bs) = none →
    (s.ch ch).failing = false →
    d.jobEnd = true →
    d.verdict = true →
    (s.ch ch).verdictFor d = some true →
    exec (.descriptorComplete ch (.moved h)) s = .next ((((s.moveDesc ch d bs).writeTags ch d (s.tagWork ch d bs)).takeVerdict ch d).completeDesc ch d 0x00 d.length)) ∧
  (∀ (s : State) (ch : Nat) (h bs : Bytes) (d : Desc) (n : Nat),
    (s.ch ch).state = .active →
    (s.ch ch).held = false →
    (s.curDesc ch) = d →
    s.retired d.func d.gen = false →
    s.awaitsCpe d = false →
    (s.ch ch).verdictFor d ≠ some false →
    s.sourceBytes d h = (bs, 0) →
    s.badTag d (s.tagWork ch d bs) = some n →
    exec (.descriptorComplete ch (.moved h)) s = .next (((s.moveDesc ch d (bs.take (bytesBefore d.src n))).failJob ch d 0x03).reportTag (engineOf ch) d.func d.tagNsid (d.tagUnit + n))) ∧
  (∀ (s : State) (ch : Nat) (d : Desc) (r : TagRun) (u n : Nat) (v : BitVec 64),
    d.tagMode = 1 →
    r.done = [(u, n, v)] →
    Mem.get none (s.writeTags ch d r).dmf.tags u = some v ∧ (∀ j, j ≠ u → Mem.get none (s.writeTags ch d r).dmf.tags j = Mem.get none s.dmf.tags j) ∧ ((s.writeTags ch d r).ch ch).partialTag = r.partialTag) ∧
  (∀ (s : State) (ch : Nat) (d : Desc) (r : TagRun),
    d.tagMode = 0 ∨ d.tagMode = 2 →
    (s.writeTags ch d r).dmf.tags = s.dmf.tags) ∧
  (∀ (s : State) (ch : Nat) (h bs : Bytes) (d : Desc) (i : Nat),
    d.dstSpace = 2 →
    readBytes (s.moveDesc ch d bs).dmf.spl d.dst bs.length = bs ∧ (i < d.dst ∨ d.dst + bs.length ≤ i → Mem.get 0 (s.moveDesc ch d bs).dmf.spl i = Mem.get 0 s.dmf.spl i) ∧ ((s.moveDesc ch d bs).ch ch).job = (s.ch ch).job ++ [((s.ch ch).curSpl, (s.ch ch).cur, bs.length)] ∧ (s.moveDesc ch d bs).dram = s.dram) ∧
  (∀ (s : State) (a st i : Nat),
    leNat (readBytes (s.closeDesc true a st).dmf.spl a 4) = leNat (readBytes s.dmf.spl a 4) % 2 ^ 31 ∧ leNat (readBytes (s.closeDesc true a st).dmf.spl (a + 4) 4) = st % 2 ^ 32 ∧ (i < a ∨ a + 8 ≤ i → Mem.get 0 (s.closeDesc true a st).dmf.spl i = Mem.get 0 s.dmf.spl i)) ∧
  (∀ (s : State) (ch : Nat) (d : Desc) (res n i : Nat),
    d.dstSpace = 2 →
    (s.ch ch).curSpl = true →
    (s.readDesc (s.ch ch).curSpl (s.ch ch).cur) = d →
    s.retired d.func d.gen = false →
    s.dmf.forced.contains 1 = false →
    n ≠ 0 →
    d.dst + n ≤ (s.ch ch).cur ∨ (s.ch ch).cur + 64 ≤ d.dst →
    i < n →
    (s.retractJob (s.ch ch).cur res [(true, (s.ch ch).cur, n)] 0).2 = n ∧ Mem.get 0 (s.retractJob (s.ch ch).cur res [(true, (s.ch ch).cur, n)] 0).1.dmf.spl (d.dst + i) = d.fill) ∧
  (∀ (s : State) (ch : Nat) (pass : Bool),
    (s.ch ch).state ≠ .active ∨ (s.ch ch).held = false →
    (s.ch ch).hasJob (s.curDesc ch) = false →
    exec (.jobVerdict ch pass) s = .next (s)) ∧
  (∀ (s : State) (ch : Nat),
    (s.ch ch).state ≠ .active ∨ (s.ch ch).held = false →
    (s.ch ch).hasJob (s.curDesc ch) = true →
    exec (.jobVerdict ch true) s = .next (s.setCh ch { s.ch ch with verdicts := (s.ch ch).verdicts ++ [(0, true)] })) ∧
  (∀ (s : State) (ch : Nat),
    (s.ch ch).state ≠ .active ∨ (s.ch ch).held = false →
    (s.ch ch).hasJob (s.curDesc ch) = true →
    (s.ch ch).state = .active →
    exec (.jobVerdict ch false) s = .next ((s.stopMove ch (s.curDesc ch)).failJob ch (s.curDesc ch) 0x05)) ∧
  (∀ (s : State) (ch : Nat),
    (s.ch ch).state = .active →
    (s.ch ch).held = true →
    exec (.jobVerdict ch true) s = .next (s.completeDesc ch (s.curDesc ch) 0x00 (s.curDesc ch).length)) ∧
  (∀ (s : State) (ch : Nat),
    (s.ch ch).state = .active →
    (s.ch ch).held = true →
    exec (.jobVerdict ch false) s = .next (s.failJob ch (s.curDesc ch) 0x05)) ∧
  (∀ (s : State) (ch producer : Nat),
    (s.ch ch).state = .active →
    (s.ch ch).held = true →
    componentOk producer = true →
    exec (.upstreamFail ch producer) s = .next (s.failJob ch (s.curDesc ch) 0x05)) ∧
  (∀ (s : State) (ch producer : Nat),
    (s.ch ch).state = .active →
    (s.ch ch).held = false →
    componentOk producer = true →
    exec (.upstreamFail ch producer) s = .next ((s.stopMove ch (s.curDesc ch)).failJob ch (s.curDesc ch) 0x05)) ∧
  (∀ (s : State) (ch producer : Nat),
    componentOk producer = false →
    exec (.upstreamFail ch producer) s = .next (s)) ∧
  (∀ (s : State) (ch producer : Nat),
    (s.ch ch).state ≠ .active →
    (s.ch ch).jobOpen = false →
    componentOk producer = true →
    exec (.upstreamFail ch producer) s = .next (s.raiseFrom (engineOf ch) evDmaLateFail (s.readDesc (s.ch ch).curSpl (s.ch ch).cur).func [(1, ch), (2, producer), (1, (s.readDesc (s.ch ch).curSpl (s.ch ch).cur).func)])) ∧
  (∀ (s : State) (domain : Nat),
    s.psm.mode.live = true →
    s.dmf.chans = [] →
    1 < domain →
    exec (.forceOff domain) s = .next (({ s with dmf := { s.dmf with forced := nubNat (s.dmf.forced ++ [domain]) } } : State).raise evDmaDomainOff 255 [(1, domain), (4, 0), (4, 0)])) ∧
  (∀ (s : State) (domain : Nat),
    s.psm.mode.live = false →
    exec (.forceOff domain) s = .next (s)) ∧
  (∀ (s : State) (domain : Nat),
    ∃ u : State, exec (.domainPowerDown domain) s = .next u ∧ domain ∈ u.dmf.domainsOff ∧ u.dmf.chans = s.dmf.chans ∧ u.dmf.spl = s.dmf.spl ∧ u.dram = s.dram) ∧
  (∀ (s : State) (inst k domain : Nat),
    inst ≤ 7 →
    domain ∈ s.dmf.domainsOff →
    s.touches (32 * inst + k) domain = true →
    exec (.auRound inst [k]) s = .next (s)) ∧
  (∀ (s : State) (k : Nat),
    s.portFront k 0 = none →
    exec (.port0DmaRequest k) s = .next (s)) ∧
  (∀ (s : State) (k : Nat) (m : List TWord) (e : Nat),
    s.portFront k 0 = some m →
    s.dmaRequest k m = .error e →
    exec (.port0DmaRequest k) s = .next ((s.portPop k 0).portRefuse k 0 (valAt m 5) e)) ∧
  (∀ (s : State) (k : Nat) (m : List TWord) (ch n : Nat),
    s.portFront k 0 = some m →
    s.dmaRequest k m = .ok (ch, n) →
    s.ringRoom ch 1 = true →
    exec (.port0DmaRequest k) s = .next ((s.portPop k 0).appendDesc ch n)) ∧
  (∀ (s : State) (ch n : Nat),
    (s.ch ch).state = .idle →
    ch ≤ 255 →
    (s.ch ch).appended = 0 →
    (s.appendDesc ch n).ch ch = { s.ch ch with state := .ready, curSpl := true, cur := ringSlot ch 0, pend := false, head := BitVec.ofNat 64 (ringSlot ch 0 + 2), appended := 1 } ∧ readBytes (s.appendDesc ch n).dmf.spl (ringSlot ch 0) 64 = leBytes 64 n)

/-- Without a request on the port nothing happens. A request that breaks a check is taken and refused with the cookie and an ERR word (R338,
R383, R394, R422, R447). A cipher request becomes an entry of the submitter of the scull's Eight, straight to an SPL buffer or through a
job of its channel appended first, and waits while there is no room (R382, R383). A digest request with OPEN and FINAL and no key answers
the digest of its bytes; one without FINAL leaves the message open with the bytes added; a keyed one answers 1 for EQUAL and 0 otherwise
(R394). A compression request outside R413 ends as invalid; one that ends DONE with output for an SPL buffer writes it there and answers
its five words (R422). A search answers MATCH_TOTAL and the entries; an update writes or invalidates its entry, and fails where a row of
it fails parity (R447, R448). An SPL word that cannot be corrected is recorded and ends the request (R14); a reserved ALG is refused with
one code (R10). -/
def Obligations.EnginePortsTakeTheirRequests : Prop :=
  (∀ (s : State) (k : Nat),
    s.portFront k 1 = none →
    exec (.port1CipherRequest k) s = .next (s)) ∧
  (∀ (s : State) (k : Nat),
    s.portFront k 2 = none →
    exec (.port2DigestRequest k) s = .next (s)) ∧
  (∀ (s : State) (k : Nat) (v : Bool) (tf : Option TagFault),
    s.portFront k 3 = none →
    exec (.port3CompressionRequest k v tf) s = .next (s)) ∧
  (∀ (s : State) (k : Nat) (f : AsuFault),
    s.portFront k 4 = none →
    exec (.port4Search k f) s = .next (s)) ∧
  (∀ (s : State) (k : Nat) (f : AsuFault),
    s.portFront k 4 = none →
    exec (.port4Update k f) s = .next (s)) ∧
  (∀ (s : State) (k : Nat) (m : List TWord) (e : Nat),
    s.portFront k 1 = some m →
    s.cipherPlaces k m = .error e →
    exec (.port1CipherRequest k) s = .next ((s.portPop k 1).portRefuse k 1 (valAt m 15) e)) ∧
  (∀ (s : State) (k : Nat) (m : List TWord) (p d : Place),
    s.portFront k 1 = some m →
    s.cipherPlaces k m = .ok (p, d) →
    d.space = 2 →
    exec (.port1CipherRequest k) s = .next (((s.trimStages k).portPop k 1).cpeSubmit (3 + eightOf k) (cipherEntry (s.scull k) m p.addr d.addr (valAt m 15 + (k + 1) * 2 ^ 32)))) ∧
  (∀ (s : State) (k : Nat) (m : List TWord) (p d : Place) (a : Nat),
    s.portFront k 1 = some m →
    s.cipherPlaces k m = .ok (p, d) →
    d.space ≠ 2 →
    valAt m 5 ≠ valAt m 6 →
    s.ringRoom (field (valAt m 1) 21 14) (ceilDiv (valAt m 5 - valAt m 6) 262144) = true →
    (s.trimStages k).stageFor (valAt m 5 - valAt m 6) = some a →
    exec (.port1CipherRequest k) s = .next ((((s.trimStages k).portPop k 1).startJob k (field (valAt m 1) 21 14) (jobUser k (valAt m 15)) a d (valAt m 5 - valAt m 6) (flag (bit (valAt m 1) 13))).cpeSubmit (3 + eightOf k) (cipherEntry (s.scull k) m p.addr a (jobUser k (valAt m 15))))) ∧
  (∀ (s : State) (k : Nat) (m : List TWord) (p d : Place),
    s.portFront k 1 = some m →
    s.cipherPlaces k m = .ok (p, d) →
    d.space ≠ 2 →
    valAt m 5 ≠ valAt m 6 →
    s.ringRoom (field (valAt m 1) 21 14) (ceilDiv (valAt m 5 - valAt m 6) 262144) = false →
    exec (.port1CipherRequest k) s = .next (s)) ∧
  (∀ (s : State) (k : Nat) (m : List TWord),
    s.portFront k 2 = some m →
    digestTagsOk m = false →
    exec (.port2DigestRequest k) s = .next ((s.portPop k 2).portRefuse k 2 (valAt m 5) 0x05)) ∧
  (∀ (s : State) (k : Nat) (m : List TWord),
    s.portFront k 2 = some m →
    digestTagsOk m = true →
    digestLensOk m = false →
    exec (.port2DigestRequest k) s = .next ((s.portPop k 2).portRefuse k 2 (valAt m 5) 0x04)) ∧
  (∀ (s : State) (k : Nat) (m : List TWord),
    s.portFront k 2 = some m →
    digestTagsOk m = true →
    digestLensOk m = true →
    d2Open m = false →
    Mem.get none s.dge.port2 k = none →
    exec (.port2DigestRequest k) s = .next ((s.portPop k 2).portRefuse k 2 (valAt m 5) 0x07)) ∧
  (∀ (s : State) (k : Nat) (m : List TWord) (e : Nat),
    s.portFront k 2 = some m →
    digestTagsOk m = true →
    digestLensOk m = true →
    d2Open m = true ∨ Mem.get none s.dge.port2 k ≠ none →
    (s.scull k).place k (wordAt m 3) (valAt m 4) false = .error e →
    exec (.port2DigestRequest k) s = .next ((s.portPop k 2).portRefuse k 2 (valAt m 5) e)) ∧
  (∀ (s : State) (k : Nat) (m : List TWord) (p : Place),
    s.portFront k 2 = some m →
    digestTagsOk m = true →
    digestLensOk m = true →
    d2Open m = true ∨ Mem.get none s.dge.port2 k ≠ none →
    (s.scull k).place k (wordAt m 3) (valAt m 4) false = .ok p →
    p.space = 2 →
    s.splRead p.addr (valAt m 4) = none →
    exec (.port2DigestRequest k) s = .next ((((s.portPop k 2).splError (p.addr + s.splBadAt p.addr (valAt m 4))).portRefuseFree k 2 (valAt m 5)))) ∧
  (∀ (s : State) (k : Nat) (m : List TWord) (p : Place) (bs : Bytes),
    s.portFront k 2 = some m →
    digestTagsOk m = true →
    digestLensOk m = true →
    d2Open m = true →
    d2Keyed m = false →
    d2Final m = true →
    d2Alg m = 3 →
    (s.scull k).place k (wordAt m 3) (valAt m 4) false = .ok p →
    p.space ≠ 2 ∨ s.splRead p.addr (valAt m 4) ≠ none →
    s.placeBytes p (valAt m 4) = some bs →
    exec (.port2DigestRequest k) s = .next ((s.portPop k 2).portRefuse k 2 (valAt m 5) Config.reservedAlgCode.toNat)) ∧
  (∀ (s : State) (k : Nat) (m : List TWord) (p : Place) (bs : Bytes),
    s.portFront k 2 = some m →
    digestTagsOk m = true →
    digestLensOk m = true →
    d2Open m = true →
    d2Keyed m = false →
    d2Final m = true →
    d2Alg m ≠ 3 →
    (s.scull k).place k (wordAt m 3) (valAt m 4) false = .ok p →
    p.space ≠ 2 ∨ s.splRead p.addr (valAt m 4) ≠ none →
    s.placeBytes p (valAt m 4) = some bs →
    exec (.port2DigestRequest k) s = .next (((s.portPop k 2).setPort2 k none).scullReply k 2 ([mkWord 1 (valAt m 5), mkWord 1 0] ++ (chunksOf 4 (digestOf (d2Alg m) bs)).map (fun b => mkWord 2 (leNat b))))) ∧
  (∀ (s : State) (k : Nat) (m : List TWord) (p : Place) (bs : Bytes),
    s.portFront k 2 = some m →
    digestTagsOk m = true →
    digestLensOk m = true →
    d2Open m = true →
    d2Keyed m = false →
    d2Final m = false →
    d2Alg m ≠ 3 →
    (s.scull k).place k (wordAt m 3) (valAt m 4) false = .ok p →
    p.space ≠ 2 ∨ s.splRead p.addr (valAt m 4) ≠ none →
    s.placeBytes p (valAt m 4) = some bs →
    exec (.port2DigestRequest k) s = .next (((s.portPop k 2).setPort2 k (some { alg := d2Alg m, msg := bs })).scullReply k 2 [mkWord 1 (valAt m 5), mkWord 1 0])) ∧
  (∀ (s : State) (k : Nat) (m : List TWord) (p : Place) (bs : Bytes) (x : Port2Msg),
    s.portFront k 2 = some m →
    digestTagsOk m = true →
    digestLensOk m = true →
    d2Open m = false →
    Mem.get none s.dge.port2 k = some x →
    x.key = none →
    x.alg ≠ 3 →
    d2Final m = true →
    (s.scull k).place k (wordAt m 3) (valAt m 4) false = .ok p →
    p.space ≠ 2 ∨ s.splRead p.addr (valAt m 4) ≠ none →
    s.placeBytes p (valAt m 4) = some bs →
    exec (.port2DigestRequest k) s = .next (((s.portPop k 2).setPort2 k none).scullReply k 2 ([mkWord 1 (valAt m 5), mkWord 1 0] ++ (chunksOf 4 (digestOf x.alg (x.msg ++ bs))).map (fun b => mkWord 2 (leNat b))))) ∧
  (∀ (s : State) (k : Nat) (m : List TWord) (p : Place) (bs : Bytes) (x : Port2Msg) (key : Bytes) (w : TWord),
    s.portFront k 2 = some m →
    digestTagsOk m = true →
    digestLensOk m = true →
    d2Open m = false →
    Mem.get none s.dge.port2 k = some x →
    x.key = some key →
    x.alg ≠ 3 →
    d2Keyed m = true →
    d2Final m = true →
    (mkWord 1 (if (padTo 64 (hmacOf x.alg key (x.msg ++ bs))).take (4 * d2Expect m) = (wordBytes m 6 (d2Expect m)).take (4 * d2Expect m) then 1 else 0) = w) →
    (s.scull k).place k (wordAt m 3) (valAt m 4) false = .ok p →
    p.space ≠ 2 ∨ s.splRead p.addr (valAt m 4) ≠ none →
    s.placeBytes p (valAt m 4) = some bs →
    exec (.port2DigestRequest k) s = .next (((s.portPop k 2).setPort2 k none).scullReply k 2 [mkWord 1 (valAt m 5), mkWord 1 0, w])) ∧
  (∀ (s : State) (k : Nat) (m : List TWord) (v : Bool) (tf : Option TagFault) (e : Nat),
    s.portFront k 3 = some m →
    s.cmpPlaces k m = .error e →
    exec (.port3CompressionRequest k v tf) s = .next ((s.portPop k 3).portRefuse k 3 (valAt m 8) e)) ∧
  (∀ (s : State) (k : Nat) (m : List TWord) (v : Bool) (tf : Option TagFault) (p d : Place),
    s.portFront k 3 = some m →
    s.cmpPlaces k m = .ok (p, d) →
    c3Resume m = false →
    tfStartOk (c3Header m) = false →
    exec (.port3CompressionRequest k v tf) s = .next ((s.portPop k 3).scullReply k 3 [mkWord 1 (valAt m 8), mkWord 1 (Config.cmpResultCode 5).toNat, mkWord 1 0, mkWord 1 0, mkWord 1 0])) ∧
  (∀ (s : State) (k : Nat) (m : List TWord) (v : Bool) (tf : Option TagFault) (p d : Place) (i : Nat) (x : CmpCtx) (st : State × CmpStep × Nat × Bool),
    s.portFront k 3 = some m →
    s.cmpPlaces k m = .ok (p, d) →
    c3Resume m = true ∨ tfStartOk (c3Header m) = true →
    s.c3Job k m = some (i, c3Resume m, x) →
    (((if c3Resume m then s else s.setHeld i none).c3Step m i (c3Resume m) x p.addr v (faultOf tf)) = st) →
    exec (.port3CompressionRequest k v tf) s = .next ((((st.1.trimStages k).portPop k 3).c3Send k m d st.2.1.out st.2.2.2 (c3Reply m st.2.2.1 st.2.1.consumed st.2.1.out.length st.2.1.fallback st.2.1.hold.isSome)).getD s)) ∧
  (∀ (s : State) (m : List TWord) (i : Nat) (rs v : Bool) (x : CmpCtx) (a : Nat) (bad : Option TagFault),
    s.c3Bad a (valAt m 4) bad = none →
    s.c3Step m i rs x a v bad = ((s.cmpRun i rs x (readBytes s.dmf.spl a (valAt m 4)) (bit (valAt m 1) 3) (valAt m 5) v).1, (s.cmpRun i rs x (readBytes s.dmf.spl a (valAt m 4)) (bit (valAt m 1) 3) (valAt m 5) v).2, (s.cmpRun i rs x (readBytes s.dmf.spl a (valAt m 4)) (bit (valAt m 1) 3) (valAt m 5) v).2.result.word, (match (s.cmpRun i rs x (readBytes s.dmf.spl a (valAt m 4)) (bit (valAt m 1) 3) (valAt m 5) v).2.result with | .done | .outputFull => true | _ => false) || !bit (valAt m 1) 5)) ∧
  (∀ (w : Win) (off o2 : Nat) (d : Win),
    w.kind = 3 →
    tagFields (some (w, off)) d o2 = (if d.kind = 3 then 3 else 2) * 2 ^ 26 + w.tagFields off) ∧
  (∀ (s : State) (a n : Nat),
    (∀ w ∈ s.dmf.splBad, 8 * w + 8 ≤ a ∨ a + n ≤ 8 * w) →
    s.c3Bad a n none = none) ∧
  (∀ (s : State) (k a : Nat) (m : List TWord) (p : Place) (bs : Bytes) (kp : Bool) (ws : List TWord),
    p.space = 2 →
    p.addr = a →
    bs ≠ [] →
    s.c3Send k m p bs kp ws = some ((s.c3Spl a bs kp (if bit (valAt m 1) 6 then 0xDB else 0)).scullReply k 3 ws)) ∧
  (∀ (s : State) (k : Nat) (m : List TWord) (f : AsuFault),
    s.portFront k 4 = some m →
    m.length = 24 →
    exec (.port4Search k f) s = .next (s)) ∧
  (∀ (s : State) (k : Nat) (m : List TWord) (f : AsuFault),
    s.portFront k 4 = some m →
    m.length ≠ 24 →
    tagIs m 11 1 = false →
    exec (.port4Search k f) s = .next ((s.portPop k 4).portRefuse k 4 (valAt m 11) 0x05)) ∧
  (∀ (s : State) (k : Nat) (m : List TWord) (f : AsuFault),
    s.portFront k 4 = some m →
    m.length ≠ 24 →
    tagIs m 1 1 = true →
    tagIs m 11 1 = true →
    ((List.range 9).all (fun i => tagIs m (2 + i) 2) = true) →
    s.table (s.scull k).func (field (valAt m 1) 15 0) = none →
    exec (.port4Search k f) s = .next ((s.portPop k 4).portRefuse k 4 (valAt m 11) 0x08)) ∧
  (∀ (s : State) (k : Nat) (m : List TWord) (f : AsuFault) (t : Table),
    s.portFront k 4 = some m →
    m.length ≠ 24 →
    tagIs m 1 1 = true →
    tagIs m 11 1 = true →
    ((List.range 9).all (fun i => tagIs m (2 + i) 2) = true) →
    s.table (s.scull k).func (field (valAt m 1) 15 0) = some t →
    t.deleting ≠ none →
    exec (.port4Search k f) s = .next ((s.portPop k 4).portRefuse k 4 (valAt m 11) 0x08)) ∧
  (∀ (s : State) (k : Nat) (m : List TWord) (f : AsuFault) (t : Table),
    s.portFront k 4 = some m →
    m.length ≠ 24 →
    tagIs m 1 1 = true →
    tagIs m 11 1 = true →
    ((List.range 9).all (fun i => tagIs m (2 + i) 2) = true) →
    s.table (s.scull k).func (field (valAt m 1) 15 0) = some t →
    t.deleting = none →
    2 ^ t.bits ≤ (bits288 m 2).toNat →
    exec (.port4Search k f) s = .next ((s.portPop k 4).portRefuse k 4 (valAt m 11) 0x0A)) ∧
  (∀ (s : State) (k : Nat) (m : List TWord) (f : AsuFault) (t : Table) (q : Search),
    s.portFront k 4 = some m →
    m.length ≠ 24 →
    tagIs m 1 1 = true →
    tagIs m 11 1 = true →
    ((List.range 9).all (fun i => tagIs m (2 + i) 2) = true) →
    s.table (s.scull k).func (field (valAt m 1) 15 0) = some t →
    t.deleting = none →
    { tag := BitVec.ofNat 8 (field (valAt m 1) 25 18), allTags := bit (valAt m 1) 17, max := field (valAt m 1) 31 26 + 1, key := bits288 m 2 } = q →
    q.key.toNat < 2 ^ t.bits →
    s.tableDown t = false →
    exec (.port4Search k .none) s = .next ((s.portPop k 4).scullReply k 4 ([mkWord 1 (valAt m 11), mkWord 1 0, mkWord 1 (s.matches t q).length] ++ (((s.matches t q).take q.max).map (fun e => [mkWord 1 e.1, mkWord 2 e.2.assoc.toNat, mkWord 2 (e.2.assoc.toNat / 2 ^ 32)])).flatten))) ∧
  (∀ (s : State) (k : Nat) (m : List TWord) (f : AsuFault),
    s.portFront k 4 = some m →
    m.length ≠ 24 →
    exec (.port4Update k f) s = .next (s)) ∧
  (∀ (s : State) (k : Nat) (m : List TWord) (f : AsuFault),
    s.portFront k 4 = some m →
    m.length = 24 →
    4096 ≤ valAt m 3 →
    exec (.port4Update k f) s = .next ((s.portPop k 4).portRefuse k 4 (valAt m 24) 0x05)) ∧
  (∀ (s : State) (k : Nat) (m : List TWord) (f : AsuFault),
    s.portFront k 4 = some m →
    m.length = 24 →
    tagIs m 1 1 = true →
    field (valAt m 1) 31 26 = 0 →
    tagIs m 2 1 = true →
    tagIs m 3 1 = true →
    valAt m 3 < 4096 →
    tagIs m 24 1 = true →
    ((List.range 20).all (fun i => tagIs m (4 + i) 2) = true) →
    s.table (s.scull k).func (field (valAt m 1) 15 0) = none →
    exec (.port4Update k f) s = .next ((s.portPop k 4).portRefuse k 4 (valAt m 24) 0x08)) ∧
  (∀ (s : State) (k : Nat) (m : List TWord) (f : AsuFault) (t : Table),
    s.portFront k 4 = some m →
    m.length = 24 →
    tagIs m 1 1 = true →
    field (valAt m 1) 31 26 = 0 →
    tagIs m 2 1 = true →
    tagIs m 3 1 = true →
    valAt m 3 < 4096 →
    tagIs m 24 1 = true →
    ((List.range 20).all (fun i => tagIs m (4 + i) 2) = true) →
    s.table (s.scull k).func (field (valAt m 1) 15 0) = some t →
    t.deleting = none →
    t.capacity ≤ valAt m 2 →
    exec (.port4Update k f) s = .next ((s.portPop k 4).portRefuse k 4 (valAt m 24) 0x09)) ∧
  (∀ (s : State) (k : Nat) (m : List TWord) (f : AsuFault) (t : Table),
    s.portFront k 4 = some m →
    m.length = 24 →
    tagIs m 1 1 = true →
    field (valAt m 1) 31 26 = 0 →
    tagIs m 2 1 = true →
    tagIs m 3 1 = true →
    valAt m 3 < 4096 →
    tagIs m 24 1 = true →
    ((List.range 20).all (fun i => tagIs m (4 + i) 2) = true) →
    s.table (s.scull k).func (field (valAt m 1) 15 0) = some t →
    t.deleting = none →
    valAt m 2 < t.capacity →
    bit (valAt m 1) 17 = false →
    keyFits t (bits288 m 4) (bits288 m 13) = false →
    exec (.port4Update k f) s = .next ((s.portPop k 4).portRefuse k 4 (valAt m 24) 0x0A)) ∧
  (∀ (s : State) (k : Nat) (m : List TWord) (f : AsuFault) (t : Table),
    s.portFront k 4 = some m →
    m.length = 24 →
    tagIs m 1 1 = true →
    field (valAt m 1) 31 26 = 0 →
    tagIs m 2 1 = true →
    tagIs m 3 1 = true →
    valAt m 3 < 4096 →
    tagIs m 24 1 = true →
    ((List.range 20).all (fun i => tagIs m (4 + i) 2) = true) →
    s.table (s.scull k).func (field (valAt m 1) 15 0) = some t →
    t.deleting = none →
    valAt m 2 < t.capacity →
    bit (valAt m 1) 17 = false →
    keyFits t (bits288 m 4) (bits288 m 13) = true →
    s.tableDown t = false →
    (s.portPop k 4).rowFault t f [valAt m 2] = none →
    exec (.port4Update k f) s = .next (((s.portPop k 4).setRow t (valAt m 2) (some { key := bits288 m 4, mask := bits288 m 13, prefilter := BitVec.ofNat 8 (field (valAt m 1) 25 18), priority := valAt m 3, assoc := BitVec.ofNat 64 (leNat (wordBytes m 22 2)) })).scullReply k 4 [mkWord 1 (valAt m 24), mkWord 1 0])) ∧
  (∀ (s : State) (k : Nat) (m : List TWord) (f : AsuFault) (t : Table),
    s.portFront k 4 = some m →
    m.length = 24 →
    tagIs m 1 1 = true →
    field (valAt m 1) 31 26 = 0 →
    tagIs m 2 1 = true →
    tagIs m 3 1 = true →
    valAt m 3 < 4096 →
    tagIs m 24 1 = true →
    ((List.range 20).all (fun i => tagIs m (4 + i) 2) = true) →
    s.table (s.scull k).func (field (valAt m 1) 15 0) = some t →
    t.deleting = none →
    valAt m 2 < t.capacity →
    bit (valAt m 1) 17 = true →
    s.tableDown t = false →
    (s.portPop k 4).rowFault t f [valAt m 2] = none →
    exec (.port4Update k f) s = .next (((s.portPop k 4).setRow t (valAt m 2) none).scullReply k 4 [mkWord 1 (valAt m 24), mkWord 1 0])) ∧
  (∀ (s : State) (k : Nat) (m : List TWord) (f : AsuFault) (t : Table) (u : State),
    s.portFront k 4 = some m →
    m.length = 24 →
    tagIs m 1 1 = true →
    field (valAt m 1) 31 26 = 0 →
    tagIs m 2 1 = true →
    tagIs m 3 1 = true →
    valAt m 3 < 4096 →
    tagIs m 24 1 = true →
    ((List.range 20).all (fun i => tagIs m (4 + i) 2) = true) →
    s.table (s.scull k).func (field (valAt m 1) 15 0) = some t →
    t.deleting = none →
    valAt m 2 < t.capacity →
    bit (valAt m 1) 17 = true →
    s.tableDown t = false →
    (s.portPop k 4).rowFault t f [valAt m 2] = some u →
    exec (.port4Update k f) s = .next (u.portRefuseFree k 4 (valAt m 24))) ∧
  (∀ (s : State) (k port : Nat) (ws : List TWord),
    Mem.get 0 (s.scull k).outstanding port ≠ 0 →
    (s.scull k).running = true →
    (s.scull k).trapped = false →
    Mem.get [] ((s.scullReply k port ws).scull k).inq port = Mem.get [] (s.scull k).inq port ++ ws ∧ Mem.get 0 ((s.scullReply k port ws).scull k).outstanding port = Mem.get 0 (s.scull k).outstanding port - 1)

/-- For every row of the ALU table and every operand value: the next instruction of a running scull writes to Dd the word that the row gives,
in the cycles of the instruction, with nothing else of the scull changed but PC, RC, CYCLES and BUDGET_LEFT; ADD and SUB of PAIR and BYTES
words work lane by lane; SHL and SHR take the count as unsigned and give 0 from 32 on, SAR the sign; DIV and REM round toward zero and
trap with DIV_ZERO on 0; EXTB traps with OPERAND_RANGE outside 0 to 3; a combination of tags that the table does not list traps with
TAG_MISMATCH and changes nothing but the trap's own state. The immediate forms are the same operations on an INT word of the immediate. -/
def Obligations.AluComputesEveryRowOfItsTable : Prop :=
  (∀ (s : State) (k : Nat) (d r : BitVec 3) (x y : BitVec 32),
    s.nextIs k (.add d r) = true →
    (s.scull k).dr d = tagged 1 x →
    (s.scull k).dr r = tagged 1 y →
    exec (.add k d r) s = .next (s.passed k 1 ((s.scull k).begun.setD d (tagged 1 (x + y))))) ∧
  (∀ (s : State) (k : Nat) (d r : BitVec 3) (x y : BitVec 32),
    s.nextIs k (.add d r) = true →
    (s.scull k).dr d = tagged 7 x →
    (s.scull k).dr r = tagged 1 y →
    exec (.add k d r) s = .next (s.passed k 1 ((s.scull k).begun.setD d (tagged 7 (x + y))))) ∧
  (∀ (s : State) (k : Nat) (d r : BitVec 3) (x y : BitVec 32),
    s.nextIs k (.add d r) = true →
    (s.scull k).dr d = tagged 1 x →
    (s.scull k).dr r = tagged 7 y →
    exec (.add k d r) s = .next (s.passed k 1 ((s.scull k).begun.setD d (tagged 7 (x + y))))) ∧
  (∀ (s : State) (k : Nat) (d r : BitVec 3) (x y : BitVec 32),
    s.nextIs k (.sub d r) = true →
    (s.scull k).dr d = tagged 1 x →
    (s.scull k).dr r = tagged 1 y →
    exec (.sub k d r) s = .next (s.passed k 1 ((s.scull k).begun.setD d (tagged 1 (x - y))))) ∧
  (∀ (s : State) (k : Nat) (d r : BitVec 3) (x y : BitVec 32),
    s.nextIs k (.sub d r) = true →
    (s.scull k).dr d = tagged 7 x →
    (s.scull k).dr r = tagged 7 y →
    exec (.sub k d r) s = .next (s.passed k 1 ((s.scull k).begun.setD d (tagged 1 (x - y))))) ∧
  (∀ (s : State) (k : Nat) (d r : BitVec 3) (x y : BitVec 32),
    s.nextIs k (.sub d r) = true →
    (s.scull k).dr d = tagged 7 x →
    (s.scull k).dr r = tagged 1 y →
    exec (.sub k d r) s = .next (s.passed k 1 ((s.scull k).begun.setD d (tagged 7 (x - y))))) ∧
  (∀ (s : State) (k : Nat) (d r : BitVec 3) (a b x y : BitVec 16),
    s.nextIs k (.add d r) = true →
    (s.scull k).dr d = tagged 3 (a ++ b) →
    (s.scull k).dr r = tagged 3 (x ++ y) →
    exec (.add k d r) s = .next (s.passed k 1 ((s.scull k).begun.setD d (tagged 3 ((a + x) ++ (b + y)))))) ∧
  (∀ (s : State) (k : Nat) (d r : BitVec 3) (a b c e w x y z : BitVec 8),
    s.nextIs k (.add d r) = true →
    (s.scull k).dr d = tagged 2 (a ++ b ++ c ++ e) →
    (s.scull k).dr r = tagged 2 (w ++ x ++ y ++ z) →
    exec (.add k d r) s = .next (s.passed k 1 ((s.scull k).begun.setD d (tagged 2 ((a + w) ++ (b + x) ++ (c + y) ++ (e + z)))))) ∧
  (∀ (s : State) (k : Nat) (d r : BitVec 3) (a b x y : BitVec 16),
    s.nextIs k (.sub d r) = true →
    (s.scull k).dr d = tagged 3 (a ++ b) →
    (s.scull k).dr r = tagged 3 (x ++ y) →
    exec (.sub k d r) s = .next (s.passed k 1 ((s.scull k).begun.setD d (tagged 3 ((a - x) ++ (b - y)))))) ∧
  (∀ (s : State) (k : Nat) (d r : BitVec 3) (a b c e w x y z : BitVec 8),
    s.nextIs k (.sub d r) = true →
    (s.scull k).dr d = tagged 2 (a ++ b ++ c ++ e) →
    (s.scull k).dr r = tagged 2 (w ++ x ++ y ++ z) →
    exec (.sub k d r) s = .next (s.passed k 1 ((s.scull k).begun.setD d (tagged 2 ((a - w) ++ (b - x) ++ (c - y) ++ (e - z)))))) ∧
  (∀ (s : State) (k : Nat) (d r : BitVec 3) (x y : BitVec 32),
    s.nextIs k (.mul d r) = true →
    (s.scull k).dr d = tagged 1 x →
    (s.scull k).dr r = tagged 1 y →
    exec (.mul k d r) s = .next (s.passed k 3 ((s.scull k).begun.setD d (tagged 1 (x * y))))) ∧
  (∀ (s : State) (k : Nat) (d r : BitVec 3) (x y : BitVec 32),
    s.nextIs k (.div d r) = true →
    (s.scull k).dr d = tagged 1 x →
    (s.scull k).dr r = tagged 1 y →
    y ≠ 0 →
    exec (.div k d r) s = .next (s.passed k 18 ((s.scull k).begun.setD d (tagged 1 (BitVec.ofInt 32 (x.toInt.tdiv y.toInt)))))) ∧
  (∀ (s : State) (k : Nat) (d r : BitVec 3) (x y : BitVec 32),
    s.nextIs k (.rem d r) = true →
    (s.scull k).dr d = tagged 1 x →
    (s.scull k).dr r = tagged 1 y →
    y ≠ 0 →
    exec (.rem k d r) s = .next (s.passed k 18 ((s.scull k).begun.setD d (tagged 1 (BitVec.ofInt 32 (x.toInt.tmod y.toInt)))))) ∧
  (∀ (s : State) (k : Nat) (d r : BitVec 3) (x : BitVec 32),
    s.nextIs k (.div d r) = true →
    (s.scull k).dr d = tagged 1 x →
    (s.scull k).dr r = tagged 1 0 →
    exec (.div k d r) s = .next (s.trapAt k .divZero (s.scull k).pc.toNat)) ∧
  (∀ (s : State) (k : Nat) (d r : BitVec 3) (x : BitVec 32),
    s.nextIs k (.rem d r) = true →
    (s.scull k).dr d = tagged 1 x →
    (s.scull k).dr r = tagged 1 0 →
    exec (.rem k d r) s = .next (s.trapAt k .divZero (s.scull k).pc.toNat)) ∧
  (∀ (s : State) (k t : Nat) (d r : BitVec 3) (x y : BitVec 32),
    s.nextIs k (.and d r) = true →
    t = 1 ∨ t = 2 ∨ t = 3 →
    (s.scull k).dr d = tagged t x →
    (s.scull k).dr r = tagged t y →
    exec (.and k d r) s = .next (s.passed k 1 ((s.scull k).begun.setD d (tagged t (x &&& y))))) ∧
  (∀ (s : State) (k t : Nat) (d r : BitVec 3) (x y : BitVec 32),
    s.nextIs k (.or d r) = true →
    t = 1 ∨ t = 2 ∨ t = 3 →
    (s.scull k).dr d = tagged t x →
    (s.scull k).dr r = tagged t y →
    exec (.or k d r) s = .next (s.passed k 1 ((s.scull k).begun.setD d (tagged t (x ||| y))))) ∧
  (∀ (s : State) (k t : Nat) (d r : BitVec 3) (x y : BitVec 32),
    s.nextIs k (.xor d r) = true →
    t = 1 ∨ t = 2 ∨ t = 3 →
    (s.scull k).dr d = tagged t x →
    (s.scull k).dr r = tagged t y →
    exec (.xor k d r) s = .next (s.passed k 1 ((s.scull k).begun.setD d (tagged t (x ^^^ y))))) ∧
  (∀ (s : State) (k t : Nat) (d r : BitVec 3) (x y : BitVec 32),
    s.nextIs k (.shl d r) = true →
    t = 1 ∨ t = 2 →
    (s.scull k).dr d = tagged t x →
    (s.scull k).dr r = tagged 1 y →
    y.toNat < 32 →
    exec (.shl k d r) s = .next (s.passed k 1 ((s.scull k).begun.setD d (tagged t (x <<< y.toNat))))) ∧
  (∀ (s : State) (k t : Nat) (d r : BitVec 3) (x y : BitVec 32),
    s.nextIs k (.shl d r) = true →
    t = 1 ∨ t = 2 →
    (s.scull k).dr d = tagged t x →
    (s.scull k).dr r = tagged 1 y →
    32 ≤ y.toNat →
    exec (.shl k d r) s = .next (s.passed k 1 ((s.scull k).begun.setD d (tagged t 0)))) ∧
  (∀ (s : State) (k t : Nat) (d : BitVec 3) (imm : BitVec 5) (x : BitVec 32),
    s.nextIs k (.shli d imm) = true →
    t = 1 ∨ t = 2 →
    (s.scull k).dr d = tagged t x →
    exec (.shli k d imm) s = .next (s.passed k 1 ((s.scull k).begun.setD d (tagged t (x <<< imm.toNat))))) ∧
  (∀ (s : State) (k t : Nat) (d r : BitVec 3) (x y : BitVec 32),
    s.nextIs k (.shr d r) = true →
    t = 1 ∨ t = 2 →
    (s.scull k).dr d = tagged t x →
    (s.scull k).dr r = tagged 1 y →
    y.toNat < 32 →
    exec (.shr k d r) s = .next (s.passed k 1 ((s.scull k).begun.setD d (tagged t (x >>> y.toNat))))) ∧
  (∀ (s : State) (k t : Nat) (d r : BitVec 3) (x y : BitVec 32),
    s.nextIs k (.shr d r) = true →
    t = 1 ∨ t = 2 →
    (s.scull k).dr d = tagged t x →
    (s.scull k).dr r = tagged 1 y →
    32 ≤ y.toNat →
    exec (.shr k d r) s = .next (s.passed k 1 ((s.scull k).begun.setD d (tagged t 0)))) ∧
  (∀ (s : State) (k t : Nat) (d : BitVec 3) (imm : BitVec 5) (x : BitVec 32),
    s.nextIs k (.shri d imm) = true →
    t = 1 ∨ t = 2 →
    (s.scull k).dr d = tagged t x →
    exec (.shri k d imm) s = .next (s.passed k 1 ((s.scull k).begun.setD d (tagged t (x >>> imm.toNat))))) ∧
  (∀ (s : State) (k : Nat) (d r : BitVec 3) (x y : BitVec 32),
    s.nextIs k (.sar d r) = true →
    (s.scull k).dr d = tagged 1 x →
    (s.scull k).dr r = tagged 1 y →
    y.toNat < 32 →
    exec (.sar k d r) s = .next (s.passed k 1 ((s.scull k).begun.setD d (tagged 1 (BitVec.ofInt 32 (x.toInt / 2 ^ y.toNat)))))) ∧
  (∀ (s : State) (k : Nat) (d r : BitVec 3) (x y : BitVec 32),
    s.nextIs k (.sar d r) = true →
    (s.scull k).dr d = tagged 1 x →
    (s.scull k).dr r = tagged 1 y →
    32 ≤ y.toNat →
    exec (.sar k d r) s = .next (s.passed k 1 ((s.scull k).begun.setD d (tagged 1 (if x.msb then BitVec.allOnes 32 else 0))))) ∧
  (∀ (s : State) (k : Nat) (d : BitVec 3) (imm : BitVec 5) (x : BitVec 32),
    s.nextIs k (.sari d imm) = true →
    (s.scull k).dr d = tagged 1 x →
    exec (.sari k d imm) s = .next (s.passed k 1 ((s.scull k).begun.setD d (tagged 1 (BitVec.ofInt 32 (x.toInt / 2 ^ imm.toNat)))))) ∧
  (∀ (s : State) (k : Nat) (d : BitVec 3) (imm : BitVec 5) (x : BitVec 32),
    s.nextIs k (.addi d imm) = true →
    (s.scull k).dr d = tagged 1 x →
    exec (.addi k d imm) s = .next (s.passed k 1 ((s.scull k).begun.setD d (tagged 1 (x + imm.signExtend 32))))) ∧
  (∀ (s : State) (k : Nat) (d : BitVec 3) (imm : BitVec 5) (x : BitVec 32),
    s.nextIs k (.addi d imm) = true →
    (s.scull k).dr d = tagged 7 x →
    exec (.addi k d imm) s = .next (s.passed k 1 ((s.scull k).begun.setD d (tagged 7 (x + imm.signExtend 32))))) ∧
  (∀ (s : State) (k : Nat) (d r : BitVec 3) (x y : BitVec 32),
    s.nextIs k (.min d r) = true →
    (s.scull k).dr d = tagged 1 x →
    (s.scull k).dr r = tagged 1 y →
    exec (.min k d r) s = .next (s.passed k 1 ((s.scull k).begun.setD d (tagged 1 (if x.toInt ≤ y.toInt then x else y))))) ∧
  (∀ (s : State) (k : Nat) (d r : BitVec 3) (x y : BitVec 32),
    s.nextIs k (.max d r) = true →
    (s.scull k).dr d = tagged 1 x →
    (s.scull k).dr r = tagged 1 y →
    exec (.max k d r) s = .next (s.passed k 1 ((s.scull k).begun.setD d (tagged 1 (if x.toInt ≤ y.toInt then y else x))))) ∧
  (∀ (s : State) (k : Nat) (d r : BitVec 3) (b : Nat) (x y : BitVec 32),
    s.nextIs k (.extb d r) = true →
    (s.scull k).dr d = tagged 2 x →
    (s.scull k).dr r = tagged 1 y →
    y.toNat = b →
    b ≤ 3 →
    exec (.extb k d r) s = .next (s.passed k 1 ((s.scull k).begun.setD d (tagged 1 (BitVec.ofNat 32 (x.toNat / 2 ^ (8 * b) % 256)))))) ∧
  (∀ (s : State) (k : Nat) (d r : BitVec 3) (x y : BitVec 32),
    s.nextIs k (.extb d r) = true →
    (s.scull k).dr d = tagged 2 x →
    (s.scull k).dr r = tagged 1 y →
    3 < y.toNat →
    exec (.extb k d r) s = .next (s.trapAt k .operandRange (s.scull k).pc.toNat)) ∧
  (∀ (s : State) (k : Nat) (d r : BitVec 3) (a b x y : BitVec 16),
    s.nextIs k (.mkpair d r) = true →
    (s.scull k).dr d = tagged 1 (a ++ b) →
    (s.scull k).dr r = tagged 1 (x ++ y) →
    exec (.mkpair k d r) s = .next (s.passed k 1 ((s.scull k).begun.setD d (tagged 3 (b ++ y))))) ∧
  (∀ (s : State) (k t : Nat) (d r : BitVec 3) (y : BitVec 32),
    s.nextIs k (.not d r) = true →
    t = 1 ∨ t = 2 ∨ t = 3 →
    (s.scull k).dr r = tagged t y →
    exec (.not k d r) s = .next (s.passed k 1 ((s.scull k).begun.setD d (tagged t (~~~ y))))) ∧
  (∀ (s : State) (k : Nat) (d r : BitVec 3) (v w : TWord),
    s.nextIs k (.add d r) = true →
    (s.scull k).dr d = v →
    (s.scull k).dr r = w →
    ((tag4 v).toNat, (tag4 w).toNat) ∉ [(1, 1), (7, 1), (1, 7), (3, 3), (2, 2)] →
    exec (.add k d r) s = .next (s.trapAt k .tagMismatch (s.scull k).pc.toNat)) ∧
  (∀ (s : State) (k : Nat) (d r : BitVec 3) (v w : TWord),
    s.nextIs k (.sub d r) = true →
    (s.scull k).dr d = v →
    (s.scull k).dr r = w →
    ((tag4 v).toNat, (tag4 w).toNat) ∉ [(1, 1), (7, 1), (7, 7), (3, 3), (2, 2)] →
    exec (.sub k d r) s = .next (s.trapAt k .tagMismatch (s.scull k).pc.toNat)) ∧
  (∀ (s : State) (k : Nat) (d r : BitVec 3) (v w : TWord),
    s.nextIs k (.mul d r) = true →
    (s.scull k).dr d = v →
    (s.scull k).dr r = w →
    ((tag4 v).toNat, (tag4 w).toNat) ∉ [(1, 1)] →
    exec (.mul k d r) s = .next (s.trapAt k .tagMismatch (s.scull k).pc.toNat)) ∧
  (∀ (s : State) (k : Nat) (d r : BitVec 3) (v w : TWord),
    s.nextIs k (.div d r) = true →
    (s.scull k).dr d = v →
    (s.scull k).dr r = w →
    ((tag4 v).toNat, (tag4 w).toNat) ∉ [(1, 1)] →
    exec (.div k d r) s = .next (s.trapAt k .tagMismatch (s.scull k).pc.toNat)) ∧
  (∀ (s : State) (k : Nat) (d r : BitVec 3) (v w : TWord),
    s.nextIs k (.rem d r) = true →
    (s.scull k).dr d = v →
    (s.scull k).dr r = w →
    ((tag4 v).toNat, (tag4 w).toNat) ∉ [(1, 1)] →
    exec (.rem k d r) s = .next (s.trapAt k .tagMismatch (s.scull k).pc.toNat)) ∧
  (∀ (s : State) (k : Nat) (d r : BitVec 3) (v w : TWord),
    s.nextIs k (.and d r) = true →
    (s.scull k).dr d = v →
    (s.scull k).dr r = w →
    ((tag4 v).toNat, (tag4 w).toNat) ∉ [(1, 1), (2, 2), (3, 3)] →
    exec (.and k d r) s = .next (s.trapAt k .tagMismatch (s.scull k).pc.toNat)) ∧
  (∀ (s : State) (k : Nat) (d r : BitVec 3) (v w : TWord),
    s.nextIs k (.shl d r) = true →
    (s.scull k).dr d = v →
    (s.scull k).dr r = w →
    ((tag4 v).toNat, (tag4 w).toNat) ∉ [(1, 1), (2, 1)] →
    exec (.shl k d r) s = .next (s.trapAt k .tagMismatch (s.scull k).pc.toNat)) ∧
  (∀ (s : State) (k : Nat) (d r : BitVec 3) (v w : TWord),
    s.nextIs k (.sar d r) = true →
    (s.scull k).dr d = v →
    (s.scull k).dr r = w →
    ((tag4 v).toNat, (tag4 w).toNat) ∉ [(1, 1)] →
    exec (.sar k d r) s = .next (s.trapAt k .tagMismatch (s.scull k).pc.toNat)) ∧
  (∀ (s : State) (k : Nat) (d r : BitVec 3) (v w : TWord),
    s.nextIs k (.extb d r) = true →
    (s.scull k).dr d = v →
    (s.scull k).dr r = w →
    ((tag4 v).toNat, (tag4 w).toNat) ∉ [(2, 1)] →
    exec (.extb k d r) s = .next (s.trapAt k .tagMismatch (s.scull k).pc.toNat)) ∧
  (∀ (s : State) (k : Nat) (d r : BitVec 3) (v w : TWord),
    s.nextIs k (.or d r) = true →
    (s.scull k).dr d = v →
    (s.scull k).dr r = w →
    ((tag4 v).toNat, (tag4 w).toNat) ∉ [(1, 1), (2, 2), (3, 3)] →
    exec (.or k d r) s = .next (s.trapAt k .tagMismatch (s.scull k).pc.toNat)) ∧
  (∀ (s : State) (k : Nat) (d r : BitVec 3) (v w : TWord),
    s.nextIs k (.xor d r) = true →
    (s.scull k).dr d = v →
    (s.scull k).dr r = w →
    ((tag4 v).toNat, (tag4 w).toNat) ∉ [(1, 1), (2, 2), (3, 3)] →
    exec (.xor k d r) s = .next (s.trapAt k .tagMismatch (s.scull k).pc.toNat)) ∧
  (∀ (s : State) (k : Nat) (d r : BitVec 3) (v w : TWord),
    s.nextIs k (.shr d r) = true →
    (s.scull k).dr d = v →
    (s.scull k).dr r = w →
    ((tag4 v).toNat, (tag4 w).toNat) ∉ [(1, 1), (2, 1)] →
    exec (.shr k d r) s = .next (s.trapAt k .tagMismatch (s.scull k).pc.toNat)) ∧
  (∀ (s : State) (k : Nat) (d r : BitVec 3) (v w : TWord),
    s.nextIs k (.min d r) = true →
    (s.scull k).dr d = v →
    (s.scull k).dr r = w →
    ((tag4 v).toNat, (tag4 w).toNat) ∉ [(1, 1)] →
    exec (.min k d r) s = .next (s.trapAt k .tagMismatch (s.scull k).pc.toNat)) ∧
  (∀ (s : State) (k : Nat) (d r : BitVec 3) (v w : TWord),
    s.nextIs k (.max d r) = true →
    (s.scull k).dr d = v →
    (s.scull k).dr r = w →
    ((tag4 v).toNat, (tag4 w).toNat) ∉ [(1, 1)] →
    exec (.max k d r) s = .next (s.trapAt k .tagMismatch (s.scull k).pc.toNat)) ∧
  (∀ (s : State) (k : Nat) (d r : BitVec 3) (v w : TWord),
    s.nextIs k (.mkpair d r) = true →
    (s.scull k).dr d = v →
    (s.scull k).dr r = w →
    ((tag4 v).toNat, (tag4 w).toNat) ∉ [(1, 1)] →
    exec (.mkpair k d r) s = .next (s.trapAt k .tagMismatch (s.scull k).pc.toNat)) ∧
  (∀ (s : State) (k : Nat) (d r : BitVec 3) (w : TWord),
    s.nextIs k (.not d r) = true →
    (s.scull k).dr r = w →
    (tag4 w).toNat ∉ [1, 2, 3] →
    exec (.not k d r) s = .next (s.trapAt k .tagMismatch (s.scull k).pc.toNat)) ∧
  (∀ (s : State) (k : Nat) (d : BitVec 3) (imm : BitVec 5) (v : TWord),
    s.nextIs k (.addi d imm) = true →
    (s.scull k).dr d = v →
    (tag4 v).toNat ∉ [1, 7] →
    exec (.addi k d imm) s = .next (s.trapAt k .tagMismatch (s.scull k).pc.toNat)) ∧
  (∀ (s : State) (k : Nat) (d : BitVec 3) (imm : BitVec 5) (v : TWord),
    s.nextIs k (.shli d imm) = true →
    (s.scull k).dr d = v →
    (tag4 v).toNat ∉ [1, 2] →
    exec (.shli k d imm) s = .next (s.trapAt k .tagMismatch (s.scull k).pc.toNat)) ∧
  (∀ (s : State) (k : Nat) (d : BitVec 3) (imm : BitVec 5) (v : TWord),
    s.nextIs k (.shri d imm) = true →
    (s.scull k).dr d = v →
    (tag4 v).toNat ∉ [1, 2] →
    exec (.shri k d imm) s = .next (s.trapAt k .tagMismatch (s.scull k).pc.toNat)) ∧
  (∀ (s : State) (k : Nat) (d : BitVec 3) (imm : BitVec 5) (v : TWord),
    s.nextIs k (.sari d imm) = true →
    (s.scull k).dr d = v →
    (tag4 v).toNat ∉ [1] →
    exec (.sari k d imm) s = .next (s.trapAt k .tagMismatch (s.scull k).pc.toNat))

/-- MOV copies a word unchanged between D registers, and between D and A registers, where an A register takes only a PTR and an A register
without one traps with A_NOT_PTR (R457). An accumulator gives an INT when its value lies in the range of 32-bit integers and traps with
ACC_RANGE outside it; it takes an INT sign-extended; an accumulator copies to the other; a move between an A register and an accumulator
traps with TAG_MISMATCH. MAC adds the product of two INT words, or of two PAIR words the sum of the products of their signed halves; ACADD
adds a sign-extended INT; both wrap modulo 2^64. -/
def Obligations.MovAndTheAccumulatorsFollowTheirRules : Prop :=
  (∀ (s : State) (k : Nat) (d r : BitVec 3) (w : TWord),
    s.nextIs k (.mov (d.setWidth 4) (r.setWidth 4)) = true →
    (s.scull k).dr r = w →
    exec (.mov k (d.setWidth 4) (r.setWidth 4)) s = .next (s.passed k 1 ((s.scull k).begun.setD d w))) ∧
  (∀ (s : State) (k : Nat) (a : BitVec 2) (r : BitVec 3) (w : TWord),
    s.nextIs k (.mov (8 + a.setWidth 4) (r.setWidth 4)) = true →
    (s.scull k).dr r = w →
    tag4 w = 4 →
    exec (.mov k (8 + a.setWidth 4) (r.setWidth 4)) s = .next (s.passed k 1 ((s.scull k).begun.setA a w))) ∧
  (∀ (s : State) (k : Nat) (a : BitVec 2) (r : BitVec 3) (w : TWord),
    s.nextIs k (.mov (8 + a.setWidth 4) (r.setWidth 4)) = true →
    (s.scull k).dr r = w →
    tag4 w ≠ 4 →
    exec (.mov k (8 + a.setWidth 4) (r.setWidth 4)) s = .next (s.trapAt k .aNotPtr (s.scull k).pc.toNat)) ∧
  (∀ (s : State) (k : Nat) (d : BitVec 3) (a : BitVec 2) (w : TWord),
    s.nextIs k (.mov (d.setWidth 4) (8 + a.setWidth 4)) = true →
    (s.scull k).ar a = some w →
    exec (.mov k (d.setWidth 4) (8 + a.setWidth 4)) s = .next (s.passed k 1 ((s.scull k).begun.setD d w))) ∧
  (∀ (s : State) (k : Nat) (d : BitVec 3) (a : BitVec 2),
    s.nextIs k (.mov (d.setWidth 4) (8 + a.setWidth 4)) = true →
    (s.scull k).ar a = none →
    exec (.mov k (d.setWidth 4) (8 + a.setWidth 4)) s = .next (s.trapAt k .aNotPtr (s.scull k).pc.toNat)) ∧
  (∀ (s : State) (k : Nat) (a b : BitVec 2) (w : TWord),
    s.nextIs k (.mov (8 + a.setWidth 4) (8 + b.setWidth 4)) = true →
    (s.scull k).ar b = some w →
    tag4 w = 4 →
    exec (.mov k (8 + a.setWidth 4) (8 + b.setWidth 4)) s = .next (s.passed k 1 ((s.scull k).begun.setA a w))) ∧
  (∀ (s : State) (k : Nat) (d : BitVec 3) (x : BitVec 1) (v : BitVec 64),
    s.nextIs k (.mov (d.setWidth 4) (12 + x.setWidth 4)) = true →
    (s.scull k).acc x.toNat = v →
    -2 ^ 31 ≤ v.toInt →
    v.toInt < 2 ^ 31 →
    exec (.mov k (d.setWidth 4) (12 + x.setWidth 4)) s = .next (s.passed k 1 ((s.scull k).begun.setD d (tagged 1 (BitVec.ofInt 32 v.toInt))))) ∧
  (∀ (s : State) (k : Nat) (d : BitVec 3) (x : BitVec 1) (v : BitVec 64),
    s.nextIs k (.mov (d.setWidth 4) (12 + x.setWidth 4)) = true →
    (s.scull k).acc x.toNat = v →
    ¬ (-2 ^ 31 ≤ v.toInt ∧ v.toInt < 2 ^ 31) →
    exec (.mov k (d.setWidth 4) (12 + x.setWidth 4)) s = .next (s.trapAt k .accRange (s.scull k).pc.toNat)) ∧
  (∀ (s : State) (k : Nat) (x : BitVec 1) (r : BitVec 3) (v : BitVec 32),
    s.nextIs k (.mov (12 + x.setWidth 4) (r.setWidth 4)) = true →
    (s.scull k).dr r = tagged 1 v →
    exec (.mov k (12 + x.setWidth 4) (r.setWidth 4)) s = .next (s.passed k 1 ((s.scull k).begun.setAcc x.toNat (v.signExtend 64)))) ∧
  (∀ (s : State) (k : Nat) (x : BitVec 1) (r : BitVec 3) (w : TWord),
    s.nextIs k (.mov (12 + x.setWidth 4) (r.setWidth 4)) = true →
    (s.scull k).dr r = w →
    tag4 w ≠ 1 →
    exec (.mov k (12 + x.setWidth 4) (r.setWidth 4)) s = .next (s.trapAt k .tagMismatch (s.scull k).pc.toNat)) ∧
  (∀ (s : State) (k : Nat) (x y : BitVec 1) (v : BitVec 64),
    s.nextIs k (.mov (12 + x.setWidth 4) (12 + y.setWidth 4)) = true →
    (s.scull k).acc y.toNat = v →
    exec (.mov k (12 + x.setWidth 4) (12 + y.setWidth 4)) s = .next (s.passed k 1 ((s.scull k).begun.setAcc x.toNat v))) ∧
  (∀ (s : State) (k : Nat) (x : BitVec 1) (a : BitVec 2),
    s.nextIs k (.mov (12 + x.setWidth 4) (8 + a.setWidth 4)) = true →
    exec (.mov k (12 + x.setWidth 4) (8 + a.setWidth 4)) s = .next (s.trapAt k .tagMismatch (s.scull k).pc.toNat)) ∧
  (∀ (s : State) (k : Nat) (x : BitVec 1) (a : BitVec 2),
    s.nextIs k (.mov (8 + a.setWidth 4) (12 + x.setWidth 4)) = true →
    exec (.mov k (8 + a.setWidth 4) (12 + x.setWidth 4)) s = .next (s.trapAt k .tagMismatch (s.scull k).pc.toNat)) ∧
  (∀ (s : State) (k : Nat) (x : BitVec 1) (r t : BitVec 3) (v w : BitVec 32) (c : BitVec 64),
    s.nextIs k (.mac x r t) = true →
    (s.scull k).dr r = tagged 1 v →
    (s.scull k).dr t = tagged 1 w →
    (s.scull k).acc x.toNat = c →
    exec (.mac k x r t) s = .next (s.passed k 2 ((s.scull k).begun.setAcc x.toNat (c + BitVec.ofInt 64 (v.toInt * w.toInt))))) ∧
  (∀ (s : State) (k : Nat) (x : BitVec 1) (r t : BitVec 3) (a b e g : BitVec 16) (c : BitVec 64),
    s.nextIs k (.mac x r t) = true →
    (s.scull k).dr r = tagged 3 (a ++ b) →
    (s.scull k).dr t = tagged 3 (e ++ g) →
    (s.scull k).acc x.toNat = c →
    exec (.mac k x r t) s = .next (s.passed k 2 ((s.scull k).begun.setAcc x.toNat (c + BitVec.ofInt 64 (a.toInt * e.toInt + b.toInt * g.toInt))))) ∧
  (∀ (s : State) (k : Nat) (x : BitVec 1) (r t : BitVec 3) (v w : TWord),
    s.nextIs k (.mac x r t) = true →
    (s.scull k).dr r = v →
    (s.scull k).dr t = w →
    ¬ (tag4 v = 1 ∧ tag4 w = 1) →
    ¬ (tag4 v = 3 ∧ tag4 w = 3) →
    exec (.mac k x r t) s = .next (s.trapAt k .tagMismatch (s.scull k).pc.toNat)) ∧
  (∀ (s : State) (k : Nat) (x : BitVec 1) (r : BitVec 3) (v : BitVec 32) (c : BitVec 64),
    s.nextIs k (.acadd x r) = true →
    (s.scull k).dr r = tagged 1 v →
    (s.scull k).acc x.toNat = c →
    exec (.acadd k x r) s = .next (s.passed k 1 ((s.scull k).begun.setAcc x.toNat (c + v.signExtend 64)))) ∧
  (∀ (s : State) (k : Nat) (x : BitVec 1) (r : BitVec 3) (w : TWord),
    s.nextIs k (.acadd x r) = true →
    (s.scull k).dr r = w →
    tag4 w ≠ 1 →
    exec (.acadd k x r) s = .next (s.trapAt k .tagMismatch (s.scull k).pc.toNat))

/-- MOVI and MOVW give an INT, sign-extended. MOVT needs an INT in Dd, and gives that value shifted left by 14 with the second word in the low
bits; any other tag traps with TAG_MISMATCH. MOVW with v >> 28, then MOVT with bits 27 to 14 and MOVT with bits 13 to 0 of v, give v, in
two cycles and two words each. LDL of a word of local memory takes one cycle and one word. -/
def Obligations.ConstantsAreMadeByMoviMovwAndMovt : Prop :=
  (∀ (s : State) (k : Nat) (d : BitVec 3) (imm : BitVec 8),
    s.nextIs k (.movi d imm) = true →
    exec (.movi k d imm) s = .next (s.passed k 1 ((s.scull k).begun.setD d (tagged 1 (BitVec.ofInt 32 imm.toInt))))) ∧
  (∀ (s : State) (k : Nat) (d : BitVec 3) (w : BitVec 14),
    s.nextIs k (.movw d w) = true →
    exec (.movw k d w) s = .next (s.passed k 2 ((s.scull k).begun.setD d (tagged 1 (BitVec.ofInt 32 w.toInt))))) ∧
  (∀ (s : State) (k : Nat) (d : BitVec 3) (w : BitVec 14) (v : BitVec 32),
    s.nextIs k (.movt d w) = true →
    (s.scull k).dr d = tagged 1 v →
    exec (.movt k d w) s = .next (s.passed k 2 ((s.scull k).begun.setD d (tagged 1 (v <<< 14 ||| w.setWidth 32))))) ∧
  (∀ (s : State) (k : Nat) (d : BitVec 3) (w : BitVec 14) (v : TWord),
    s.nextIs k (.movt d w) = true →
    (s.scull k).dr d = v →
    tag4 v ≠ 1 →
    exec (.movt k d w) s = .next (s.trapAt k .tagMismatch (s.scull k).pc.toNat)) ∧
  (∀ (v : BitVec 32) (x : BitVec 14),
    x = (v.sshiftRight 28).setWidth 14 →
    ((BitVec.ofInt 32 x.toInt <<< 14 ||| (((v >>> 14).setWidth 14 : BitVec 14).setWidth 32)) <<< 14 ||| ((v.setWidth 14 : BitVec 14).setWidth 32)) = v) ∧
  (∀ (s : State) (k : Nat) (d : BitVec 3) (short : BitVec 8) (v : TWord),
    s.nextIs k (.ldl d short) = true →
    Mem.get poison (s.scull k).mem ((s.scull k).dpg.toNat * 256 + short.toNat) = v →
    (tag4 v).toNat ∉ [8, 9, 10, 11, 12, 13, 15] →
    exec (.ldl k d short false) s = .next (s.passed k 1 ((s.scull k).begun.setD d v))) ∧
  (∀ (s : State) (k : Nat),
    (s.scull k).word (s.scull k).pc.toNat ∈ [15201, 15233] →
    wordsOf ((s.scull k).word (s.scull k).pc.toNat) = 2)

/-- RETAG replaces the tag and keeps the value, and gives the value 0 for NIL; the source and the target must both be NIL, INT, BYTES, PAIR,
TICKS or ERR, and any other traps with TAG_FORGE. GETTAG gives INT with the tag code of any word. AOFF gives OFFSET and AREM gives LENGTH
− OFFSET of the window, as INT words. -/
def Obligations.TagsAreReadAndReplaced : Prop :=
  (∀ (s : State) (k : Nat) (d : BitVec 3) (t u : BitVec 4) (v : BitVec 32),
    s.nextIs k (.retag d t) = true →
    (s.scull k).dr d = u ++ v →
    u.toNat ∈ [0, 1, 2, 3, 7, 14] →
    t.toNat ∈ [0, 1, 2, 3, 7, 14] →
    exec (.retag k d t) s = .next (s.passed k 1 ((s.scull k).begun.setD d (t ++ (if t = 0 then 0 else v))))) ∧
  (∀ (s : State) (k : Nat) (d : BitVec 3) (t u : BitVec 4) (v : BitVec 32),
    s.nextIs k (.retag d t) = true →
    (s.scull k).dr d = u ++ v →
    ¬ (u.toNat ∈ [0, 1, 2, 3, 7, 14] ∧ t.toNat ∈ [0, 1, 2, 3, 7, 14]) →
    exec (.retag k d t) s = .next (s.trapAt k .tagForge (s.scull k).pc.toNat)) ∧
  (∀ (s : State) (k : Nat) (d r : BitVec 3) (u : BitVec 4) (v : BitVec 32),
    s.nextIs k (.gettag d r) = true →
    (s.scull k).dr r = u ++ v →
    exec (.gettag k d r) s = .next (s.passed k 1 ((s.scull k).begun.setD d (tagged 1 (u.setWidth 32))))) ∧
  (∀ (s : State) (k : Nat) (d : BitVec 3) (a : BitVec 2) (p : TWord),
    s.nextIs k (.aoff d a) = true →
    (s.scull k).ar a = some p →
    exec (.aoff k d a) s = .next (s.passed k 1 ((s.scull k).begun.setD d (mkWord 1 (ptrOff p))))) ∧
  (∀ (s : State) (k : Nat) (d : BitVec 3) (a : BitVec 2) (p : TWord) (e : Win),
    s.nextIs k (.arem d a) = true →
    (s.scull k).ar a = some p →
    (s.scull k).entry p = some e →
    exec (.arem k d a) s = .next (s.passed k 1 ((s.scull k).begun.setD d (mkWord 1 (e.len - ptrOff p))))) ∧
  (∀ (s : State) (k : Nat) (d : BitVec 3) (a : BitVec 2),
    s.nextIs k (.aoff d a) = true →
    (s.scull k).ar a = none →
    exec (.aoff k d a) s = .next (s.trapAt k .aNotPtr (s.scull k).pc.toNat))

/-- RDSPR reads each special register with its tag (R458): NPC as CODE, DPG, XPG, RC, SCULL_ID, CYCLES and BUDGET_LEFT as INT, IVEC and IRET
as they are, and STATUS. ACSHR shifts an accumulator arithmetically right by 0 to 31 and ACCLR clears it; SETDPG and SETXPG set the pages,
SETXPG from an INT of 0 to 255 and with its traps; NOP only takes its cycle; TRAP n traps with 0x30 + n (R471, R485). -/
def Obligations.SpecialRegistersAndAccumulatorControl : Prop :=
  (∀ (s : State) (k : Nat) (d : BitVec 3),
    s.nextIs k (.rdspr d 0) = true →
    exec (.rdspr k d 0) s = .next (s.passed k 1 ((s.scull k).begun.setD d (mkWord 5 (((s.scull k).pc.toNat + 1) % 8192))))) ∧
  (∀ (s : State) (k : Nat) (d : BitVec 3),
    s.nextIs k (.rdspr d 1) = true →
    exec (.rdspr k d 1) s = .next (s.passed k 1 ((s.scull k).begun.setD d (mkWord 1 (s.scull k).dpg.toNat)))) ∧
  (∀ (s : State) (k : Nat) (d : BitVec 3),
    s.nextIs k (.rdspr d 2) = true →
    exec (.rdspr k d 2) s = .next (s.passed k 1 ((s.scull k).begun.setD d (mkWord 1 (s.scull k).xpg.toNat)))) ∧
  (∀ (s : State) (k : Nat) (d : BitVec 3),
    s.nextIs k (.rdspr d 3) = true →
    exec (.rdspr k d 3) s = .next (s.passed k 1 ((s.scull k).begun.setD d (mkWord 1 (s.scull k).begun.rc.toNat)))) ∧
  (∀ (s : State) (k : Nat) (d : BitVec 3),
    s.nextIs k (.rdspr d 4) = true →
    exec (.rdspr k d 4) s = .next (s.passed k 1 ((s.scull k).begun.setD d ((s.scull k).ivec)))) ∧
  (∀ (s : State) (k : Nat) (d : BitVec 3),
    s.nextIs k (.rdspr d 5) = true →
    exec (.rdspr k d 5) s = .next (s.passed k 1 ((s.scull k).begun.setD d ((s.scull k).iret)))) ∧
  (∀ (s : State) (k : Nat) (d : BitVec 3),
    s.nextIs k (.rdspr d 7) = true →
    exec (.rdspr k d 7) s = .next (s.passed k 1 ((s.scull k).begun.setD d (mkWord 1 k)))) ∧
  (∀ (s : State) (k : Nat) (d : BitVec 3),
    s.nextIs k (.rdspr d 8) = true →
    exec (.rdspr k d 8) s = .next (s.passed k 1 ((s.scull k).begun.setD d (mkWord 1 (s.scull k).cycles)))) ∧
  (∀ (s : State) (k : Nat) (d : BitVec 3),
    s.nextIs k (.rdspr d 9) = true →
    exec (.rdspr k d 9) s = .next (s.passed k 1 ((s.scull k).begun.setD d (mkWord 1 (s.scull k).budget)))) ∧
  (∀ (s : State) (k : Nat) (d : BitVec 3),
    s.nextIs k (.rdspr d 6) = true →
    exec (.rdspr k d 6) s = .next (s.passed k 1 ((s.scull k).begun.setD d (mkWord 1 (flag (s.scull k).ien + 2 * flag (s.scull k).inHandler + 4 * flag (!(s.scull k).mail.isEmpty) + 8 * flag (s.scull k).timerExpired))))) ∧
  (∀ (s : State) (k : Nat) (x : BitVec 1) (n : BitVec 5) (v : BitVec 64),
    s.nextIs k (.acshr x n) = true →
    (s.scull k).acc x.toNat = v →
    exec (.acshr k x n) s = .next (s.passed k 1 ((s.scull k).begun.setAcc x.toNat (BitVec.ofInt 64 (v.toInt / 2 ^ n.toNat))))) ∧
  (∀ (s : State) (k : Nat) (x : BitVec 1),
    s.nextIs k (.acclr x) = true →
    exec (.acclr k x) s = .next (s.passed k 1 ((s.scull k).begun.setAcc x.toNat 0))) ∧
  (∀ (s : State) (k : Nat) (page : BitVec 6),
    s.nextIs k (.setdpg page) = true →
    exec (.setdpg k page) s = .next (s.passed k 1 ({ (s.scull k).begun with dpg := page }))) ∧
  (∀ (s : State) (k : Nat) (r : BitVec 3) (v : BitVec 32),
    s.nextIs k (.setxpg r) = true →
    (s.scull k).dr r = tagged 1 v →
    v.toNat ≤ 255 →
    exec (.setxpg k r) s = .next (s.passed k 1 ({ (s.scull k).begun with xpg := v.setWidth 8 }))) ∧
  (∀ (s : State) (k : Nat) (r : BitVec 3) (v : BitVec 32),
    s.nextIs k (.setxpg r) = true →
    (s.scull k).dr r = tagged 1 v →
    255 < v.toNat →
    exec (.setxpg k r) s = .next (s.trapAt k .operandRange (s.scull k).pc.toNat)) ∧
  (∀ (s : State) (k : Nat) (r : BitVec 3) (w : TWord),
    s.nextIs k (.setxpg r) = true →
    (s.scull k).dr r = w →
    tag4 w ≠ 1 →
    exec (.setxpg k r) s = .next (s.trapAt k .tagMismatch (s.scull k).pc.toNat)) ∧
  (∀ (s : State) (k : Nat),
    s.nextIs k (.nop) = true →
    exec (.nop k) s = .next (s.passed k 1 (s.scull k).begun)) ∧
  (∀ (s : State) (k : Nat) (n : BitVec 4),
    s.nextIs k (.trap n) = true →
    exec (.trap k n) s = .next (s.trapAt k (.user n) (s.scull k).pc.toNat))

/-- A branch against zero tests Dd signed, as an INT or TICKS: taken it goes to the address after it plus the signed offset in 2 cycles, not
taken past it in 1; any other tag traps with TAG_MISMATCH. BEQ and BNE compare the values of two words of one tag among NIL, INT, BYTES,
PAIR, TICKS and ERR; BLT and BGE two INT words signed, or two TICKS words by (a − b) mod 2^32 ≥ 2^31; BLTU and BGEU two INT words
unsigned; any other combination traps. BTEQ and BTNE test the tag. BRDY branches when the port would not stall, and traps with
PORT_RESERVED on ports 10 to 15 (R468, R476, R480, R487; the readiness of port 4 is log 56). -/
def Obligations.BranchesTestWhatTheyName : Prop :=
  (∀ (s : State) (k t : Nat) (d : BitVec 3) (off : BitVec 5) (v : BitVec 32),
    s.nextIs k (.beqz d off) = true →
    t = 1 ∨ t = 7 →
    (s.scull k).dr d = tagged t v →
    exec (.beqz k d off) s = .next (if v.toInt = 0 then s.jumped k 2 ((s.scull k).pc.toNat + 1 + off.toInt) (s.scull k).begun else s.passed k 1 (s.scull k).begun)) ∧
  (∀ (s : State) (k : Nat) (d : BitVec 3) (off : BitVec 5) (w : TWord),
    s.nextIs k (.beqz d off) = true →
    (s.scull k).dr d = w →
    tag4 w ≠ 1 →
    tag4 w ≠ 7 →
    exec (.beqz k d off) s = .next (s.trapAt k .tagMismatch (s.scull k).pc.toNat)) ∧
  (∀ (s : State) (k t : Nat) (d : BitVec 3) (off : BitVec 5) (v : BitVec 32),
    s.nextIs k (.bnez d off) = true →
    t = 1 ∨ t = 7 →
    (s.scull k).dr d = tagged t v →
    exec (.bnez k d off) s = .next (if v.toInt ≠ 0 then s.jumped k 2 ((s.scull k).pc.toNat + 1 + off.toInt) (s.scull k).begun else s.passed k 1 (s.scull k).begun)) ∧
  (∀ (s : State) (k : Nat) (d : BitVec 3) (off : BitVec 5) (w : TWord),
    s.nextIs k (.bnez d off) = true →
    (s.scull k).dr d = w →
    tag4 w ≠ 1 →
    tag4 w ≠ 7 →
    exec (.bnez k d off) s = .next (s.trapAt k .tagMismatch (s.scull k).pc.toNat)) ∧
  (∀ (s : State) (k t : Nat) (d : BitVec 3) (off : BitVec 5) (v : BitVec 32),
    s.nextIs k (.bltz d off) = true →
    t = 1 ∨ t = 7 →
    (s.scull k).dr d = tagged t v →
    exec (.bltz k d off) s = .next (if v.toInt < 0 then s.jumped k 2 ((s.scull k).pc.toNat + 1 + off.toInt) (s.scull k).begun else s.passed k 1 (s.scull k).begun)) ∧
  (∀ (s : State) (k : Nat) (d : BitVec 3) (off : BitVec 5) (w : TWord),
    s.nextIs k (.bltz d off) = true →
    (s.scull k).dr d = w →
    tag4 w ≠ 1 →
    tag4 w ≠ 7 →
    exec (.bltz k d off) s = .next (s.trapAt k .tagMismatch (s.scull k).pc.toNat)) ∧
  (∀ (s : State) (k t : Nat) (d : BitVec 3) (off : BitVec 5) (v : BitVec 32),
    s.nextIs k (.bgez d off) = true →
    t = 1 ∨ t = 7 →
    (s.scull k).dr d = tagged t v →
    exec (.bgez k d off) s = .next (if 0 ≤ v.toInt then s.jumped k 2 ((s.scull k).pc.toNat + 1 + off.toInt) (s.scull k).begun else s.passed k 1 (s.scull k).begun)) ∧
  (∀ (s : State) (k : Nat) (d : BitVec 3) (off : BitVec 5) (w : TWord),
    s.nextIs k (.bgez d off) = true →
    (s.scull k).dr d = w →
    tag4 w ≠ 1 →
    tag4 w ≠ 7 →
    exec (.bgez k d off) s = .next (s.trapAt k .tagMismatch (s.scull k).pc.toNat)) ∧
  (∀ (s : State) (k t : Nat) (d r : BitVec 3) (w : BitVec 14) (x y : BitVec 32),
    s.nextIs k (.beq d r w) = true →
    t ∈ [0, 1, 2, 3, 7, 14] →
    (s.scull k).dr d = tagged t x →
    (s.scull k).dr r = tagged t y →
    exec (.beq k d r w) s = .next (if x = y then s.jumped k 3 ((s.scull k).pc.toNat + 2 + w.toInt) (s.scull k).begun else s.passed k 2 (s.scull k).begun)) ∧
  (∀ (s : State) (k t : Nat) (d r : BitVec 3) (w : BitVec 14) (x y : BitVec 32),
    s.nextIs k (.bne d r w) = true →
    t ∈ [0, 1, 2, 3, 7, 14] →
    (s.scull k).dr d = tagged t x →
    (s.scull k).dr r = tagged t y →
    exec (.bne k d r w) s = .next (if x ≠ y then s.jumped k 3 ((s.scull k).pc.toNat + 2 + w.toInt) (s.scull k).begun else s.passed k 2 (s.scull k).begun)) ∧
  (∀ (s : State) (k : Nat) (d r : BitVec 3) (w : BitVec 14) (x y : BitVec 32),
    s.nextIs k (.blt d r w) = true →
    (s.scull k).dr d = tagged 1 x →
    (s.scull k).dr r = tagged 1 y →
    exec (.blt k d r w) s = .next (if x.toInt < y.toInt then s.jumped k 3 ((s.scull k).pc.toNat + 2 + w.toInt) (s.scull k).begun else s.passed k 2 (s.scull k).begun)) ∧
  (∀ (s : State) (k : Nat) (d r : BitVec 3) (w : BitVec 14) (x y : BitVec 32),
    s.nextIs k (.bge d r w) = true →
    (s.scull k).dr d = tagged 1 x →
    (s.scull k).dr r = tagged 1 y →
    exec (.bge k d r w) s = .next (if y.toInt ≤ x.toInt then s.jumped k 3 ((s.scull k).pc.toNat + 2 + w.toInt) (s.scull k).begun else s.passed k 2 (s.scull k).begun)) ∧
  (∀ (s : State) (k : Nat) (d r : BitVec 3) (w : BitVec 14) (x y : BitVec 32),
    s.nextIs k (.bltu d r w) = true →
    (s.scull k).dr d = tagged 1 x →
    (s.scull k).dr r = tagged 1 y →
    exec (.bltu k d r w) s = .next (if x.toNat < y.toNat then s.jumped k 3 ((s.scull k).pc.toNat + 2 + w.toInt) (s.scull k).begun else s.passed k 2 (s.scull k).begun)) ∧
  (∀ (s : State) (k : Nat) (d r : BitVec 3) (w : BitVec 14) (x y : BitVec 32),
    s.nextIs k (.bgeu d r w) = true →
    (s.scull k).dr d = tagged 1 x →
    (s.scull k).dr r = tagged 1 y →
    exec (.bgeu k d r w) s = .next (if y.toNat ≤ x.toNat then s.jumped k 3 ((s.scull k).pc.toNat + 2 + w.toInt) (s.scull k).begun else s.passed k 2 (s.scull k).begun)) ∧
  (∀ (s : State) (k : Nat) (d r : BitVec 3) (w : BitVec 14) (x y : BitVec 32),
    s.nextIs k (.blt d r w) = true →
    (s.scull k).dr d = tagged 7 x →
    (s.scull k).dr r = tagged 7 y →
    exec (.blt k d r w) s = .next (if 2 ^ 31 ≤ (x - y).toNat then s.jumped k 3 ((s.scull k).pc.toNat + 2 + w.toInt) (s.scull k).begun else s.passed k 2 (s.scull k).begun)) ∧
  (∀ (s : State) (k : Nat) (d r : BitVec 3) (w : BitVec 14) (x y : BitVec 32),
    s.nextIs k (.bge d r w) = true →
    (s.scull k).dr d = tagged 7 x →
    (s.scull k).dr r = tagged 7 y →
    exec (.bge k d r w) s = .next (if (x - y).toNat < 2 ^ 31 then s.jumped k 3 ((s.scull k).pc.toNat + 2 + w.toInt) (s.scull k).begun else s.passed k 2 (s.scull k).begun)) ∧
  (∀ (s : State) (k : Nat) (d r : BitVec 3) (w : BitVec 14) (x y : TWord),
    s.nextIs k (.beq d r w) = true →
    (s.scull k).dr d = x →
    (s.scull k).dr r = y →
    ¬ (tag4 x = tag4 y ∧ (tag4 x).toNat ∈ [0, 1, 2, 3, 7, 14]) →
    exec (.beq k d r w) s = .next (s.trapAt k .tagMismatch (s.scull k).pc.toNat)) ∧
  (∀ (s : State) (k : Nat) (d r : BitVec 3) (w : BitVec 14) (x y : TWord),
    s.nextIs k (.bne d r w) = true →
    (s.scull k).dr d = x →
    (s.scull k).dr r = y →
    ¬ (tag4 x = tag4 y ∧ (tag4 x).toNat ∈ [0, 1, 2, 3, 7, 14]) →
    exec (.bne k d r w) s = .next (s.trapAt k .tagMismatch (s.scull k).pc.toNat)) ∧
  (∀ (s : State) (k : Nat) (d r : BitVec 3) (w : BitVec 14) (x y : TWord),
    s.nextIs k (.blt d r w) = true →
    (s.scull k).dr d = x →
    (s.scull k).dr r = y →
    ¬ (tag4 x = 1 ∧ tag4 y = 1 ∨ tag4 x = 7 ∧ tag4 y = 7) →
    exec (.blt k d r w) s = .next (s.trapAt k .tagMismatch (s.scull k).pc.toNat)) ∧
  (∀ (s : State) (k : Nat) (d r : BitVec 3) (w : BitVec 14) (x y : TWord),
    s.nextIs k (.bge d r w) = true →
    (s.scull k).dr d = x →
    (s.scull k).dr r = y →
    ¬ (tag4 x = 1 ∧ tag4 y = 1 ∨ tag4 x = 7 ∧ tag4 y = 7) →
    exec (.bge k d r w) s = .next (s.trapAt k .tagMismatch (s.scull k).pc.toNat)) ∧
  (∀ (s : State) (k : Nat) (d r : BitVec 3) (w : BitVec 14) (x y : TWord),
    s.nextIs k (.bltu d r w) = true →
    (s.scull k).dr d = x →
    (s.scull k).dr r = y →
    ¬ (tag4 x = 1 ∧ tag4 y = 1) →
    exec (.bltu k d r w) s = .next (s.trapAt k .tagMismatch (s.scull k).pc.toNat)) ∧
  (∀ (s : State) (k : Nat) (d r : BitVec 3) (w : BitVec 14) (x y : TWord),
    s.nextIs k (.bgeu d r w) = true →
    (s.scull k).dr d = x →
    (s.scull k).dr r = y →
    ¬ (tag4 x = 1 ∧ tag4 y = 1) →
    exec (.bgeu k d r w) s = .next (s.trapAt k .tagMismatch (s.scull k).pc.toNat)) ∧
  (∀ (s : State) (k : Nat) (t : BitVec 4) (d : BitVec 3) (w : BitVec 14) (v : TWord),
    s.nextIs k (.bteq t d w) = true →
    (s.scull k).dr d = v →
    exec (.bteq k t d w) s = .next (if tag4 v = t then s.jumped k 3 ((s.scull k).pc.toNat + 2 + w.toInt) (s.scull k).begun else s.passed k 2 (s.scull k).begun)) ∧
  (∀ (s : State) (k : Nat) (t : BitVec 4) (d : BitVec 3) (w : BitVec 14) (v : TWord),
    s.nextIs k (.btne t d w) = true →
    (s.scull k).dr d = v →
    exec (.btne k t d w) s = .next (if tag4 v ≠ t then s.jumped k 3 ((s.scull k).pc.toNat + 2 + w.toInt) (s.scull k).begun else s.passed k 2 (s.scull k).begun)) ∧
  (∀ (s : State) (k : Nat) (p : BitVec 4) (w : BitVec 14),
    s.nextIs k (.brdy 0 p w) = true →
    p.toNat < 10 →
    exec (.brdy k 0 p w) s = .next (if (s.scull k).begun.recvWord p.toNat 0 ≠ .stall then s.jumped k 3 ((s.scull k).pc.toNat + 2 + w.toInt) (s.scull k).begun else s.passed k 2 (s.scull k).begun)) ∧
  (∀ (s : State) (k : Nat) (p : BitVec 4) (w : BitVec 14),
    s.nextIs k (.brdy 1 p w) = true →
    p.toNat < 10 →
    exec (.brdy k 1 p w) s = .next (if s.sendReady k (s.scull k).begun p.toNat = true then s.jumped k 3 ((s.scull k).pc.toNat + 2 + w.toInt) (s.scull k).begun else s.passed k 2 (s.scull k).begun)) ∧
  (∀ (s : State) (k : Nat) (g : BitVec 1) (p : BitVec 4) (w : BitVec 14),
    s.nextIs k (.brdy g p w) = true →
    10 ≤ p.toNat →
    exec (.brdy k g p w) s = .next (s.trapAt k .portReserved (s.scull k).pc.toNat))

/-- JMP sets PC to the target. CALL sets Dd to the CODE of the address after the CALL and PC to the target; MKCODE sets Dd to the CODE of the
target. A target of PL or above traps with PC_RANGE at the instruction. JMPR and SETIV need a CODE, and JMPR ignores the repeat count;
another tag traps with TAG_MISMATCH. -/
def Obligations.JumpsCallsAndCodeWords : Prop :=
  (∀ (s : State) (k : Nat) (w : BitVec 14),
    s.nextIs k (.jmp w) = true →
    w.toNat < (s.scull k).pl →
    exec (.jmp k w) s = .next (s.jumped k 3 w.toNat (s.scull k).begun)) ∧
  (∀ (s : State) (k : Nat) (d : BitVec 3) (w : BitVec 14),
    s.nextIs k (.call d w) = true →
    w.toNat < (s.scull k).pl →
    exec (.call k d w) s = .next (s.jumped k 3 w.toNat ((s.scull k).begun.setD d (mkWord 5 (((s.scull k).pc.toNat + 2) % 8192))))) ∧
  (∀ (s : State) (k : Nat) (d : BitVec 3) (w : BitVec 14),
    s.nextIs k (.mkcode d w) = true →
    w.toNat < (s.scull k).pl →
    (s.scull k).pl ≤ 8192 →
    exec (.mkcode k d w) s = .next (s.passed k 2 ((s.scull k).begun.setD d (mkWord 5 w.toNat)))) ∧
  (∀ (s : State) (k : Nat) (w : BitVec 14),
    s.nextIs k (.jmp w) = true →
    (s.scull k).pl ≤ w.toNat →
    exec (.jmp k w) s = .next (s.trapAt k .pcRange (s.scull k).pc.toNat)) ∧
  (∀ (s : State) (k : Nat) (d : BitVec 3) (w : BitVec 14),
    s.nextIs k (.call d w) = true →
    (s.scull k).pl ≤ w.toNat →
    exec (.call k d w) s = .next (s.trapAt k .pcRange (s.scull k).pc.toNat)) ∧
  (∀ (s : State) (k : Nat) (d : BitVec 3) (w : BitVec 14),
    s.nextIs k (.mkcode d w) = true →
    (s.scull k).pl ≤ w.toNat →
    exec (.mkcode k d w) s = .next (s.trapAt k .pcRange (s.scull k).pc.toNat)) ∧
  (∀ (s : State) (k n : Nat) (r : BitVec 3) (w : TWord),
    s.nextIs k (.jmpr r) = true →
    (s.scull k).dr r = w →
    tag4 w = 5 →
    w.toNat % 2 ^ 13 = n →
    exec (.jmpr k r) s = .next (s.jumped k 3 n (s.scull k).begun)) ∧
  (∀ (s : State) (k : Nat) (r : BitVec 3) (w : TWord),
    s.nextIs k (.setiv r) = true →
    (s.scull k).dr r = w →
    tag4 w = 5 →
    exec (.setiv k r) s = .next (s.passed k 1 { (s.scull k).begun with ivec := w })) ∧
  (∀ (s : State) (k : Nat) (r : BitVec 3) (w : TWord),
    s.nextIs k (.jmpr r) = true →
    (s.scull k).dr r = w →
    tag4 w ≠ 5 →
    exec (.jmpr k r) s = .next (s.trapAt k .tagMismatch (s.scull k).pc.toNat)) ∧
  (∀ (s : State) (k : Nat) (r : BitVec 3) (w : TWord),
    s.nextIs k (.setiv r) = true →
    (s.scull k).dr r = w →
    tag4 w ≠ 5 →
    exec (.setiv k r) s = .next (s.trapAt k .tagMismatch (s.scull k).pc.toNat))

/-- LDL and STL reach local word DPG × 256 + short, LDX and STX shared word XPG × 256 + short of the Eight (R467). A load takes any tag but
POISON, which traps with POISON_USE, and a reserved one, which traps with RESERVED_TAG; an uncorrectable word traps with
DATA_UNCORRECTABLE, which is recorded and reported (R475, R484). A store writes the whole word, and STX of a PTR, CODE or KEY traps with
CAP_ESCAPE (R466). A shared page without the right traps with SHARED_RIGHTS. A later load of the word stored gives it back, and every
other word is as it was. -/
def Obligations.DirectAccessesReachLocalAndSharedWords : Prop :=
  (∀ (s : State) (k : Nat) (d : BitVec 3) (short : BitVec 8) (v : TWord),
    s.nextIs k (.ldl d short) = true →
    Mem.get poison (s.scull k).mem ((s.scull k).dpg.toNat * 256 + short.toNat) = v →
    (tag4 v).toNat ∉ [8, 9, 10, 11, 12, 13, 15] →
    exec (.ldl k d short false) s = .next (s.passed k 1 ((s.scull k).begun.setD d v))) ∧
  (∀ (s : State) (k : Nat) (d : BitVec 3) (short : BitVec 8) (v : TWord),
    s.nextIs k (.ldl d short) = true →
    Mem.get poison (s.scull k).mem ((s.scull k).dpg.toNat * 256 + short.toNat) = v →
    tag4 v = 15 →
    exec (.ldl k d short false) s = .next (s.trapAt k .poisonUse (s.scull k).pc.toNat)) ∧
  (∀ (w : Nat) (s : State) (k : Nat) (d : BitVec 3) (short : BitVec 8) (v : TWord),
    s.nextIs k (.ldx d short) = true →
    (s.scull k).pageOk (s.scull k).xpg.toNat = true →
    Mem.get poison s.sca.shared (eightOf k * 65536 + ((s.scull k).xpg.toNat * 256 + short.toNat)) = v →
    tag4 v = 15 →
    exec (.ldx k w d short false) s = .next (s.trapAt k .poisonUse (s.scull k).pc.toNat)) ∧
  (∀ (s : State) (k : Nat) (d : BitVec 3) (short : BitVec 8) (v : TWord),
    s.nextIs k (.ldl d short) = true →
    Mem.get poison (s.scull k).mem ((s.scull k).dpg.toNat * 256 + short.toNat) = v →
    8 ≤ (tag4 v).toNat ∧ (tag4 v).toNat ≤ 13 →
    exec (.ldl k d short false) s = .next (s.trapAt k .reservedTag (s.scull k).pc.toNat)) ∧
  (∀ (w : Nat) (s : State) (k : Nat) (d : BitVec 3) (short : BitVec 8) (v : TWord),
    s.nextIs k (.ldx d short) = true →
    (s.scull k).pageOk (s.scull k).xpg.toNat = true →
    Mem.get poison s.sca.shared (eightOf k * 65536 + ((s.scull k).xpg.toNat * 256 + short.toNat)) = v →
    8 ≤ (tag4 v).toNat ∧ (tag4 v).toNat ≤ 13 →
    exec (.ldx k w d short false) s = .next (s.trapAt k .reservedTag (s.scull k).pc.toNat)) ∧
  (∀ (s : State) (k : Nat) (d : BitVec 3) (short : BitVec 8),
    s.nextIs k (.ldl d short) = true →
    exec (.ldl k d short true) s = .next ((s.trapAt k .dataUncorrectable (s.scull k).pc.toNat).scullFault k (0x0F00 + k) evScullDataUe
        [(1, (s.scull k).func), (1, 2), (4, (s.scull k).dpg.toNat * 256 + short.toNat)])) ∧
  (∀ (s : State) (k : Nat) (r : BitVec 3) (short : BitVec 8) (v : TWord),
    s.nextIs k (.stl r short) = true →
    (s.scull k).dr r = v →
    exec (.stl k r short) s = .next (s.passed k 1 ((s.scull k).begun.setLocal ((s.scull k).dpg.toNat * 256 + short.toNat) v))) ∧
  (∀ (w : Nat) (s : State) (k : Nat) (d : BitVec 3) (short : BitVec 8) (v : TWord),
    s.nextIs k (.ldx d short) = true →
    (s.scull k).pageOk (s.scull k).xpg.toNat = true →
    Mem.get poison s.sca.shared (eightOf k * 65536 + ((s.scull k).xpg.toNat * 256 + short.toNat)) = v →
    (tag4 v).toNat ∉ [8, 9, 10, 11, 12, 13, 15] →
    exec (.ldx k w d short false) s = .next (s.passed k (3 + w) ((s.scull k).begun.setD d v))) ∧
  (∀ (w : Nat) (s : State) (k : Nat) (d : BitVec 3) (short : BitVec 8) (ue : Bool),
    s.nextIs k (.ldx d short) = true →
    (s.scull k).pageOk (s.scull k).xpg.toNat = false →
    exec (.ldx k w d short ue) s = .next (s.trapAt k .sharedRights (s.scull k).pc.toNat)) ∧
  (∀ (w : Nat) (s : State) (k : Nat) (r : BitVec 3) (short : BitVec 8) (v : TWord),
    s.nextIs k (.stx r short) = true →
    (s.scull k).dr r = v →
    (tag4 v).toNat ∉ [4, 5, 6] →
    (s.scull k).pageOk (s.scull k).xpg.toNat = true →
    exec (.stx k w r short) s = .next ((s.passed k (3 + w) (s.scull k).begun).storeShared k ((s.scull k).xpg.toNat * 256 + short.toNat) v)) ∧
  (∀ (w : Nat) (s : State) (k : Nat) (r : BitVec 3) (short : BitVec 8) (v : TWord),
    s.nextIs k (.stx r short) = true →
    (s.scull k).dr r = v →
    (tag4 v).toNat ∈ [4, 5, 6] →
    exec (.stx k w r short) s = .next (s.trapAt k .capEscape (s.scull k).pc.toNat)) ∧
  (∀ (w : Nat) (s : State) (k : Nat) (r : BitVec 3) (short : BitVec 8),
    s.nextIs k (.stx r short) = true →
    isCap ((s.scull k).dr r) = false →
    (s.scull k).pageOk (s.scull k).xpg.toNat = false →
    exec (.stx k w r short) s = .next (s.trapAt k .sharedRights (s.scull k).pc.toNat)) ∧
  (∀ (c : Scull) (a b : Nat) (v : TWord),
    (c.setLocal a v).local b = (if b = a then v else c.local b)) ∧
  (∀ (s : State) (k a b : Nat) (v : TWord),
    (s.storeShared k a v).sharedWord k b = (if b = a then v else s.sharedWord k b))

/-- An access through a PTR checks in this order that the entry is live with the PTR's INC (STALE_WINDOW), that it is LOCAL or SHARED
(WINDOW_KIND), that it has the right (WINDOW_RIGHTS) and that OFFSET + u is less than LENGTH (WINDOW_BOUNDS); the word is BASE + OFFSET +
u (R463). A load gives the word with R475's traps, LDA only a PTR; a store writes the word subject to R466; LDP and STP then add 1 to
OFFSET (R464). A local access takes 2 cycles, a shared one 4 + w (R487). -/
def Obligations.WindowAccessesRunTheirFourChecks : Prop :=
  (∀ (c : Scull) (p : TWord) (u : Nat),
    c.entry p = none →
    c.access p u false = .error .staleWindow) ∧
  (∀ (c : Scull) (p : TWord) (u : Nat) (e : Win),
    c.entry p = some e →
    2 ≤ e.kind →
    c.access p u false = .error .windowKind) ∧
  (∀ (c : Scull) (p : TWord) (u : Nat) (e : Win),
    c.entry p = some e →
    e.kind < 2 →
    e.r = false →
    c.access p u false = .error .windowRights) ∧
  (∀ (c : Scull) (p : TWord) (u : Nat) (e : Win),
    c.entry p = some e →
    e.kind < 2 →
    e.r = true →
    e.len ≤ ptrOff p + u →
    c.access p u false = .error .windowBounds) ∧
  (∀ (c : Scull) (p : TWord) (u : Nat) (e : Win),
    c.entry p = some e →
    e.kind < 2 →
    e.r = true →
    ptrOff p + u < e.len →
    c.access p u false = .ok (e.kind, e.base + ptrOff p + u)) ∧
  (∀ (c : Scull) (p : TWord) (u : Nat),
    c.entry p = none →
    c.access p u true = .error .staleWindow) ∧
  (∀ (c : Scull) (p : TWord) (u : Nat) (e : Win),
    c.entry p = some e →
    2 ≤ e.kind →
    c.access p u true = .error .windowKind) ∧
  (∀ (c : Scull) (p : TWord) (u : Nat) (e : Win),
    c.entry p = some e →
    e.kind < 2 →
    e.w = false →
    c.access p u true = .error .windowRights) ∧
  (∀ (c : Scull) (p : TWord) (u : Nat) (e : Win),
    c.entry p = some e →
    e.kind < 2 →
    e.w = true →
    e.len ≤ ptrOff p + u →
    c.access p u true = .error .windowBounds) ∧
  (∀ (c : Scull) (p : TWord) (u : Nat) (e : Win),
    c.entry p = some e →
    e.kind < 2 →
    e.w = true →
    ptrOff p + u < e.len →
    c.access p u true = .ok (e.kind, e.base + ptrOff p + u)) ∧
  (∀ (w : Nat) (s : State) (k n : Nat) (d : BitVec 3) (a u : BitVec 2) (p v : TWord),
    s.nextIs k (.ld d a u) = true →
    (s.scull k).ar a = some p →
    (s.scull k).access p u.toNat false = .ok (0, n) →
    (s.scull k).local n = v →
    (tag4 v).toNat ∉ [8, 9, 10, 11, 12, 13, 15] →
    exec (.ld k w d a u false) s = .next (s.passed k 2 ((s.scull k).begun.setD d v))) ∧
  (∀ (w : Nat) (s : State) (k n : Nat) (ka a u : BitVec 2) (p v : TWord),
    s.nextIs k (.lda ka a u) = true →
    (s.scull k).ar a = some p →
    (s.scull k).access p u.toNat false = .ok (0, n) →
    (s.scull k).local n = v →
    tag4 v = 4 →
    exec (.lda k w ka a u false) s = .next (s.passed k 2 ((s.scull k).begun.setA ka v))) ∧
  (∀ (w : Nat) (s : State) (k n : Nat) (d : BitVec 3) (a : BitVec 2) (p v : TWord) (e : Win),
    s.nextIs k (.ldp d a) = true →
    (s.scull k).ar a = some p →
    (s.scull k).access p 0 false = .ok (0, n) →
    (s.scull k).local n = v →
    (tag4 v).toNat ∉ [8, 9, 10, 11, 12, 13, 15] →
    (s.scull k).entry p = some e →
    ptrOff p + 1 ≤ 1048575 →
    exec (.ldp k w d a false) s = .next (s.passed k 2 (((s.scull k).begun.setA a (mkPtr (ptrInc p) (ptrIndex p) (ptrOff p + 1))).setD d v))) ∧
  (∀ (w : Nat) (s : State) (k n : Nat) (r : BitVec 3) (a u : BitVec 2) (p v : TWord),
    s.nextIs k (.st r a u) = true →
    (s.scull k).ar a = some p →
    (s.scull k).access p u.toNat true = .ok (0, n) →
    (s.scull k).dr r = v →
    tag4 v ≠ 6 →
    exec (.st k w r a u) s = .next (s.passed k 2 ((s.scull k).begun.setLocal n v))) ∧
  (∀ (w : Nat) (s : State) (k n : Nat) (r : BitVec 3) (a : BitVec 2) (p v : TWord) (e : Win),
    s.nextIs k (.stp r a) = true →
    (s.scull k).ar a = some p →
    (s.scull k).access p 0 true = .ok (0, n) →
    (s.scull k).dr r = v →
    tag4 v ≠ 6 →
    (s.scull k).entry p = some e →
    ptrOff p + 1 ≤ 1048575 →
    exec (.stp k w r a) s = .next (s.passed k 2 (((s.scull k).begun.setA a (mkPtr (ptrInc p) (ptrIndex p) (ptrOff p + 1))).setLocal n v))) ∧
  (∀ (w : Nat) (s : State) (k n : Nat) (d : BitVec 3) (a u : BitVec 2) (p v : TWord),
    s.nextIs k (.ld d a u) = true →
    (s.scull k).ar a = some p →
    (s.scull k).access p u.toNat false = .ok (1, n) →
    s.sharedWord k n = v →
    (tag4 v).toNat ∉ [8, 9, 10, 11, 12, 13, 15] →
    exec (.ld k w d a u false) s = .next (s.passed k (4 + w) ((s.scull k).begun.setD d v))) ∧
  (∀ (w : Nat) (s : State) (k n : Nat) (ka a u : BitVec 2) (p v : TWord),
    s.nextIs k (.lda ka a u) = true →
    (s.scull k).ar a = some p →
    (s.scull k).access p u.toNat false = .ok (1, n) →
    s.sharedWord k n = v →
    tag4 v = 4 →
    exec (.lda k w ka a u false) s = .next (s.passed k (4 + w) ((s.scull k).begun.setA ka v))) ∧
  (∀ (w : Nat) (s : State) (k n : Nat) (d : BitVec 3) (a : BitVec 2) (p v : TWord) (e : Win),
    s.nextIs k (.ldp d a) = true →
    (s.scull k).ar a = some p →
    (s.scull k).access p 0 false = .ok (1, n) →
    s.sharedWord k n = v →
    (tag4 v).toNat ∉ [8, 9, 10, 11, 12, 13, 15] →
    (s.scull k).entry p = some e →
    ptrOff p + 1 ≤ 1048575 →
    exec (.ldp k w d a false) s = .next (s.passed k (4 + w) (((s.scull k).begun.setA a (mkPtr (ptrInc p) (ptrIndex p) (ptrOff p + 1))).setD d v))) ∧
  (∀ (w : Nat) (s : State) (k n : Nat) (r : BitVec 3) (a u : BitVec 2) (p v : TWord),
    s.nextIs k (.st r a u) = true →
    (s.scull k).ar a = some p →
    (s.scull k).access p u.toNat true = .ok (1, n) →
    (s.scull k).dr r = v →
    (tag4 v).toNat ∉ [4, 5, 6] →
    exec (.st k w r a u) s = .next ((s.passed k (4 + w) ((s.scull k).begun)).storeShared k n v)) ∧
  (∀ (w : Nat) (s : State) (k n : Nat) (r : BitVec 3) (a : BitVec 2) (p v : TWord) (e : Win),
    s.nextIs k (.stp r a) = true →
    (s.scull k).ar a = some p →
    (s.scull k).access p 0 true = .ok (1, n) →
    (s.scull k).dr r = v →
    (tag4 v).toNat ∉ [4, 5, 6] →
    (s.scull k).entry p = some e →
    ptrOff p + 1 ≤ 1048575 →
    exec (.stp k w r a) s = .next ((s.passed k (4 + w) (((s.scull k).begun.setA a (mkPtr (ptrInc p) (ptrIndex p) (ptrOff p + 1))))).storeShared k n v)) ∧
  (∀ (w : Nat) (s : State) (k n : Nat) (ka a u : BitVec 2) (p v : TWord),
    s.nextIs k (.sta ka a u) = true →
    (s.scull k).ar a = some p →
    (s.scull k).ar ka = some v →
    (s.scull k).access p u.toNat true = .ok (0, n) →
    tag4 v = 4 →
    exec (.sta k w ka a u) s = .next (s.passed k 2 ((s.scull k).begun.setLocal n v))) ∧
  (∀ (w : Nat) (s : State) (k : Nat) (ka a u : BitVec 2) (p v : TWord) (e : Win),
    s.nextIs k (.sta ka a u) = true →
    (s.scull k).ar a = some p →
    (s.scull k).ar ka = some v →
    (s.scull k).entry p = some e →
    e.kind = 1 →
    tag4 v = 4 →
    exec (.sta k w ka a u) s = .next (s.trapAt k .capEscape (s.scull k).pc.toNat)) ∧
  (∀ (w : Nat) (s : State) (k : Nat) (d : BitVec 3) (a u : BitVec 2) (p : TWord) (t : Trap),
    s.nextIs k (.ld d a u) = true →
    (s.scull k).ar a = some p →
    (s.scull k).access p u.toNat false = .error t →
    exec (.ld k w d a u false) s = .next (s.trapAt k t (s.scull k).pc.toNat)) ∧
  (∀ (w : Nat) (s : State) (k : Nat) (ka a u : BitVec 2) (p : TWord) (t : Trap),
    s.nextIs k (.lda ka a u) = true →
    (s.scull k).ar a = some p →
    (s.scull k).access p u.toNat false = .error t →
    exec (.lda k w ka a u false) s = .next (s.trapAt k t (s.scull k).pc.toNat)) ∧
  (∀ (w : Nat) (s : State) (k : Nat) (d : BitVec 3) (a u : BitVec 2) (ue : Bool),
    s.nextIs k (.ld d a u) = true →
    (s.scull k).ar a = none →
    exec (.ld k w d a u ue) s = .next (s.trapAt k .aNotPtr (s.scull k).pc.toNat))

/-- AADD adds the INT to OFFSET, and a result outside [0, min(LENGTH, 1,048,575)] traps with WINDOW_BOUNDS and leaves An as it was (R464).
NARROW of n, 1 to LENGTH − OFFSET, and RESTRICT take the lowest entry that is not live and has INC below 63, make it a derived window of
the same kind from BASE + OFFSET, and leave in An a PTR to it with OFFSET 0; 0 or below traps with OPERAND_RANGE, above LENGTH − OFFSET
with WINDOW_BOUNDS, no entry with WINDOW_FULL. FREEW clears LIVE of a derived entry and adds 1 to its INC; another entry traps with
WINDOW_RIGHTS (R465). -/
def Obligations.PointersAndDerivedWindows : Prop :=
  (∀ (s : State) (k : Nat) (a : BitVec 2) (d : BitVec 3) (p : TWord) (e : Win) (v : BitVec 32) (o : Nat),
    s.nextIs k (.aadd a d) = true →
    (s.scull k).ar a = some p →
    (s.scull k).entry p = some e →
    (s.scull k).dr d = tagged 1 v →
    (ptrOff p : Int) + v.toInt = o →
    o ≤ e.len →
    o ≤ 1048575 →
    exec (.aadd k a d) s = .next (s.passed k 2 ((s.scull k).begun.setA a (mkPtr (ptrInc p) (ptrIndex p) o)))) ∧
  (∀ (s : State) (k : Nat) (a : BitVec 2) (d : BitVec 3) (p : TWord) (e : Win) (v : BitVec 32),
    s.nextIs k (.aadd a d) = true →
    (s.scull k).ar a = some p →
    (s.scull k).entry p = some e →
    (s.scull k).dr d = tagged 1 v →
    (ptrOff p : Int) + v.toInt < 0 ∨ (e.len : Int) < ptrOff p + v.toInt ∨ 1048575 < ptrOff p + v.toInt →
    exec (.aadd k a d) s = .next (s.trapAt k .windowBounds (s.scull k).pc.toNat)) ∧
  (∀ (s : State) (k i n : Nat) (a : BitVec 2) (d : BitVec 3) (p : TWord) (e : Win),
    s.nextIs k (.narrow a d) = true →
    (s.scull k).ar a = some p →
    (s.scull k).entry p = some e →
    (s.scull k).dr d = mkWord 1 n →
    1 ≤ n →
    n < 2 ^ 31 →
    ptrOff p + n ≤ e.len →
    (e.kind = 3 → ptrOff p % 4096 = 0) →
    (s.scull k).freeWin = some i →
    ∃ c, exec (.narrow k a d) s = .next (s.passed k 4 c) ∧ c.ar a = some (mkPtr ((s.scull k).win i).inc.toNat i 0) ∧ (∀ j, j ≠ i → c.win j = (s.scull k).win j) ∧
      c.win i = { e with derived := true, live := true, inc := ((s.scull k).win i).inc, len := n, base := e.base + ptrOff p, tagUnit := (if e.kind = 3 then e.tagUnit + ptrOff p / 4096 else e.tagUnit) } ∧
      (∀ j, j ≠ a → c.ar j = (s.scull k).ar j) ∧ { c with a := (s.scull k).a, wins := (s.scull k).wins } = (s.scull k).begun) ∧
  (∀ (s : State) (k : Nat) (a : BitVec 2) (d : BitVec 3) (p : TWord) (e : Win) (v : BitVec 32),
    s.nextIs k (.narrow a d) = true →
    (s.scull k).ar a = some p →
    (s.scull k).entry p = some e →
    (s.scull k).dr d = tagged 1 v →
    (e.len : Int) < ptrOff p + v.toInt →
    exec (.narrow k a d) s = .next (s.trapAt k .windowBounds (s.scull k).pc.toNat)) ∧
  (∀ (s : State) (k i : Nat) (a : BitVec 2) (d : BitVec 3) (p : TWord) (e : Win) (v : BitVec 32),
    s.nextIs k (.narrow a d) = true →
    (s.scull k).ar a = some p →
    (s.scull k).entry p = some e →
    (s.scull k).dr d = tagged 1 v →
    v.toInt ≤ 0 →
    ptrOff p ≤ e.len →
    e.kind ≠ 3 →
    (s.scull k).freeWin = some i →
    exec (.narrow k a d) s = .next (s.trapAt k .operandRange (s.scull k).pc.toNat)) ∧
  (∀ (s : State) (k i : Nat) (a m : BitVec 2) (p : TWord) (e : Win),
    s.nextIs k (.restrict a m) = true →
    (s.scull k).ar a = some p →
    (s.scull k).entry p = some e →
    ptrOff p < e.len →
    (e.kind = 3 → ptrOff p % 4096 = 0) →
    (s.scull k).freeWin = some i →
    ∃ c, exec (.restrict k a m) s = .next (s.passed k 4 c) ∧ c.ar a = some (mkPtr ((s.scull k).win i).inc.toNat i 0) ∧ (∀ j, j ≠ i → c.win j = (s.scull k).win j) ∧
      c.win i = { e with r := e.r && !m.getLsbD 0, w := e.w && !m.getLsbD 1, derived := true, live := true, inc := ((s.scull k).win i).inc, len := e.len - ptrOff p, base := e.base + ptrOff p, tagUnit := (if e.kind = 3 then e.tagUnit + ptrOff p / 4096 else e.tagUnit) } ∧
      (∀ j, j ≠ a → c.ar j = (s.scull k).ar j) ∧ { c with a := (s.scull k).a, wins := (s.scull k).wins } = (s.scull k).begun) ∧
  (∀ (s : State) (k : Nat) (a m : BitVec 2) (p : TWord) (e : Win),
    s.nextIs k (.restrict a m) = true →
    (s.scull k).ar a = some p →
    (s.scull k).entry p = some e →
    ptrOff p < e.len →
    e.kind ≠ 3 →
    (s.scull k).freeWin = none →
    exec (.restrict k a m) s = .next (s.trapAt k .windowFull (s.scull k).pc.toNat)) ∧
  (∀ (s : State) (k : Nat) (a : BitVec 2) (p : TWord) (e : Win),
    s.nextIs k (.freew a) = true →
    (s.scull k).ar a = some p →
    (s.scull k).entry p = some e →
    e.derived = true →
    exec (.freew k a) s = .next (s.passed k 2 { (s.scull k).begun with wins := Mem.set {} (s.scull k).wins (ptrIndex p) { e with live := false, inc := e.inc + 1 } })) ∧
  (∀ (s : State) (k : Nat) (a : BitVec 2) (p : TWord) (e : Win),
    s.nextIs k (.freew a) = true →
    (s.scull k).ar a = some p →
    (s.scull k).entry p = some e →
    e.derived = false →
    exec (.freew k a) s = .next (s.trapAt k .windowRights (s.scull k).pc.toNat)) ∧
  (∀ (s : State) (k : Nat) (a : BitVec 2) (d : BitVec 3) (p : TWord),
    s.nextIs k (.aadd a d) = true →
    (s.scull k).ar a = some p →
    (s.scull k).entry p = none →
    tag4 ((s.scull k).dr d) = 1 →
    exec (.aadd k a d) s = .next (s.trapAt k .staleWindow (s.scull k).pc.toNat)) ∧
  (∀ (s : State) (k : Nat) (a : BitVec 2) (d : BitVec 3) (p : TWord),
    s.nextIs k (.narrow a d) = true →
    (s.scull k).ar a = some p →
    (s.scull k).entry p = none →
    tag4 ((s.scull k).dr d) = 1 →
    exec (.narrow k a d) s = .next (s.trapAt k .staleWindow (s.scull k).pc.toNat)) ∧
  (∀ (s : State) (k : Nat) (a m : BitVec 2) (p : TWord),
    s.nextIs k (.restrict a m) = true →
    (s.scull k).ar a = some p →
    (s.scull k).entry p = none →
    exec (.restrict k a m) s = .next (s.trapAt k .staleWindow (s.scull k).pc.toNat)) ∧
  (∀ (s : State) (k : Nat) (a : BitVec 2) (p : TWord),
    s.nextIs k (.freew a) = true →
    (s.scull k).ar a = some p →
    (s.scull k).entry p = none →
    exec (.freew k a) s = .next (s.trapAt k .staleWindow (s.scull k).pc.toNat))

/-- REP #n puts n, 1 to 256, into RC (its field holds n − 1); REP Dr puts the INT of Dr there; a count of 0 skips the next instruction with no
interruption point before the one after it. A count below 0 or above 256 traps with OPERAND_RANGE, a tag other than INT with TAG_MISMATCH;
a reserved next instruction with ILLEGAL, one that may not be repeated with REP_HAZARD, one at or beyond PL with PC_RANGE. A repeated
instruction stays at PC while RC, which falls as each iteration starts, has iterations left, and PC then moves past it (R478, R479, R495). -/
def Obligations.RepeatsRunTheNextInstruction : Prop :=
  (∀ (s : State) (k : Nat) (n : BitVec 8) (op : JOp),
    s.nextIs k (.rep n) = true →
    (s.scull k).pc.toNat + 1 + wordsOf ((s.scull k).word ((s.scull k).pc.toNat + 1)) ≤ (s.scull k).pl →
    jeriecDecode ((s.scull k).word ((s.scull k).pc.toNat + 1)) ((s.scull k).word ((s.scull k).pc.toNat + 2)) = some op →
    repForbids op = false →
    exec (.rep k n) s = .next (s.jumped k 1 ((s.scull k).pc.toNat + 1 : Nat) { (s.scull k).begun with rc := BitVec.ofNat 9 (n.toNat + 1) })) ∧
  (∀ (s : State) (k n : Nat) (r : BitVec 3) (op : JOp),
    s.nextIs k (.repDr r) = true →
    (s.scull k).pc.toNat + 1 + wordsOf ((s.scull k).word ((s.scull k).pc.toNat + 1)) ≤ (s.scull k).pl →
    jeriecDecode ((s.scull k).word ((s.scull k).pc.toNat + 1)) ((s.scull k).word ((s.scull k).pc.toNat + 2)) = some op →
    (s.scull k).dr r = mkWord 1 n →
    1 ≤ n →
    n ≤ 256 →
    repForbids op = false →
    exec (.repDr k r) s = .next (s.jumped k 1 ((s.scull k).pc.toNat + 1 : Nat) { (s.scull k).begun with rc := BitVec.ofNat 9 n })) ∧
  (∀ (s : State) (k : Nat) (r : BitVec 3) (op : JOp),
    s.nextIs k (.repDr r) = true →
    (s.scull k).pc.toNat + 1 + wordsOf ((s.scull k).word ((s.scull k).pc.toNat + 1)) ≤ (s.scull k).pl →
    jeriecDecode ((s.scull k).word ((s.scull k).pc.toNat + 1)) ((s.scull k).word ((s.scull k).pc.toNat + 2)) = some op →
    (s.scull k).dr r = mkWord 1 0 →
    repForbids op = false →
    exec (.repDr k r) s = .next (s.jumped k 1 ((s.scull k).pc.toNat + 1 + wordsOf ((s.scull k).word ((s.scull k).pc.toNat + 1)) : Nat) { (s.scull k).begun with noPoint := true })) ∧
  (∀ (s : State) (k : Nat) (r : BitVec 3) (op : JOp) (v : BitVec 32),
    s.nextIs k (.repDr r) = true →
    (s.scull k).pc.toNat + 1 + wordsOf ((s.scull k).word ((s.scull k).pc.toNat + 1)) ≤ (s.scull k).pl →
    jeriecDecode ((s.scull k).word ((s.scull k).pc.toNat + 1)) ((s.scull k).word ((s.scull k).pc.toNat + 2)) = some op →
    (s.scull k).dr r = tagged 1 v →
    v.toInt < 0 ∨ 256 < v.toInt →
    repForbids op = false →
    exec (.repDr k r) s = .next (s.trapAt k .operandRange (s.scull k).pc.toNat)) ∧
  (∀ (s : State) (k : Nat) (r : BitVec 3) (op : JOp),
    s.nextIs k (.repDr r) = true →
    (s.scull k).pc.toNat + 1 + wordsOf ((s.scull k).word ((s.scull k).pc.toNat + 1)) ≤ (s.scull k).pl →
    jeriecDecode ((s.scull k).word ((s.scull k).pc.toNat + 1)) ((s.scull k).word ((s.scull k).pc.toNat + 2)) = some op →
    tag4 ((s.scull k).dr r) ≠ 1 →
    exec (.repDr k r) s = .next (s.trapAt k .tagMismatch (s.scull k).pc.toNat)) ∧
  (∀ (s : State) (k : Nat) (n : BitVec 8) (op : JOp),
    s.nextIs k (.rep n) = true →
    (s.scull k).pc.toNat + 1 + wordsOf ((s.scull k).word ((s.scull k).pc.toNat + 1)) ≤ (s.scull k).pl →
    jeriecDecode ((s.scull k).word ((s.scull k).pc.toNat + 1)) ((s.scull k).word ((s.scull k).pc.toNat + 2)) = some op →
    repForbids op = true →
    exec (.rep k n) s = .next (s.trapAt k .repHazard (s.scull k).pc.toNat)) ∧
  (∀ (s : State) (k : Nat) (n : BitVec 8),
    s.nextIs k (.rep n) = true →
    (s.scull k).pc.toNat + 1 < (s.scull k).pl →
    jeriecDecode ((s.scull k).word ((s.scull k).pc.toNat + 1)) ((s.scull k).word ((s.scull k).pc.toNat + 2)) = none →
    exec (.rep k n) s = .next (s.trapAt k .illegal (s.scull k).pc.toNat)) ∧
  (∀ (s : State) (k : Nat) (n : BitVec 8),
    s.nextIs k (.rep n) = true →
    (s.scull k).pl ≤ (s.scull k).pc.toNat + 1 →
    exec (.rep k n) s = .next (s.trapAt k .pcRange (s.scull k).pc.toNat)) ∧
  (∀ (s : State) (k : Nat) (m : BitVec 9),
    s.nextIs k (.nop) = true →
    (s.scull k).rc = m →
    1 < m.toNat →
    ∃ u, exec (.nop k) s = .next u ∧ (u.scull k).pc = (s.scull k).pc ∧ (u.scull k).rc.toNat + 1 = m.toNat) ∧
  (∀ (s : State) (k : Nat) (m : BitVec 9),
    s.nextIs k (.nop) = true →
    (s.scull k).rc = m →
    m.toNat ≤ 1 →
    (s.scull k).pc.toNat < 8191 →
    ∃ u, exec (.nop k) s = .next u ∧ (u.scull k).pc = (s.scull k).pc + 1 ∧ (u.scull k).rc = 0)

/-- SEND appends the word of Ds to the message of ports 0 to 4, or stalls while the port has no room (R480, R481); on port 9 it arms the timer
or disarms it with 0; on port 7 it adds 4 bytes to the output, and an INT of 1 to 3 cuts the last word; past OUT_LEN the invocation ends
(R514); on port 8 it names a destination and then delivers the word; on port 5 it collects the reply of a hook. RECV takes the next word
of the replies, of the stream, of the mailbox or of the timer. Ports 10 to 15 trap with PORT_RESERVED, closed ones with PORT_DENIED, idle
ones with PORT_IDLE, a PTR, CODE or KEY on port 5 or 6 with CAP_ESCAPE and on 7 to 9 with TAG_MISMATCH (log 8), a SEND into a held message
with HANDLER_STATE (R482, R483). -/
def Obligations.PortsTakeAndGiveWords : Prop :=
  (∀ (s : State) (k st : Nat) (p : BitVec 4) (d : BitVec 3) (w : TWord),
    s.nextIs k (.send p d) = true →
    (s.scull k).dr d = w →
    p.toNat ≤ 4 →
    (s.scull k).handlerHeld p.toNat = false →
    (s.scull k).engineFull p.toNat w = false →
    exec (.send k st p d) s = .next (s.passed k 1 ((s.scull k).begun.sendEngine p.toNat w))) ∧
  (∀ (s : State) (k st : Nat) (p : BitVec 4) (d : BitVec 3) (w : TWord),
    s.nextIs k (.send p d) = true →
    (s.scull k).dr d = w →
    p.toNat ≤ 4 →
    (s.scull k).handlerHeld p.toNat = false →
    (s.scull k).engineFull p.toNat w = true →
    exec (.send k st p d) s = .next (s.setScull k ((s.scull k).stalled st))) ∧
  (∀ (c : Scull) (p : Nat) (w : TWord),
    (c.partial_ p ++ [w]).length < requestWords p ((c.partial_ p ++ [w]).headD w) →
    (c.sendEngine p w).partial_ p = c.partial_ p ++ [w] ∧ Mem.get [] (c.sendEngine p w).sent p = Mem.get [] c.sent p ∧ (c.sendEngine p w).out_ p = c.out_ p) ∧
  (∀ (c : Scull) (p : Nat) (w : TWord),
    requestWords p ((c.partial_ p ++ [w]).headD w) ≤ (c.partial_ p ++ [w]).length →
    (c.sendEngine p w).partial_ p = [] ∧ Mem.get [] (c.sendEngine p w).sent p = Mem.get [] c.sent p ++ [c.partial_ p ++ [w]] ∧ (c.sendEngine p w).out_ p = c.out_ p + 1) ∧
  (∀ (s : State) (k st : Nat) (p : BitVec 4) (d : BitVec 3),
    s.nextIs k (.send p d) = true →
    10 ≤ p.toNat →
    exec (.send k st p d) s = .next (s.trapAt k .portReserved (s.scull k).pc.toNat)) ∧
  (∀ (s : State) (k st : Nat) (p : BitVec 4) (d : BitVec 3),
    s.nextIs k (.recv p d) = true →
    10 ≤ p.toNat →
    exec (.recv k st p d) s = .next (s.trapAt k .portReserved (s.scull k).pc.toNat)) ∧
  (∀ (s : State) (k st : Nat) (p : BitVec 4) (d : BitVec 3) (w : TWord),
    s.nextIs k (.send p d) = true →
    (s.scull k).dr d = w →
    p = 5 ∨ (p = 8 ∧ (s.scull k).partial_ 8 ≠ []) →
    (tag4 w).toNat ∈ [4, 5, 6] →
    exec (.send k st p d) s = .next (s.trapAt k .capEscape (s.scull k).pc.toNat)) ∧
  (∀ (s : State) (k st : Nat) (p : BitVec 4) (d : BitVec 3) (w : TWord),
    s.nextIs k (.send p d) = true →
    (s.scull k).dr d = w →
    p = 7 ∨ p = 9 ∨ (p = 8 ∧ (s.scull k).partial_ 8 = []) →
    (tag4 w).toNat ∈ [4, 5, 6] →
    exec (.send k st p d) s = .next (s.trapAt k .tagMismatch (s.scull k).pc.toNat)) ∧
  (∀ (s : State) (k st : Nat) (p : BitVec 4) (d : BitVec 3) (w : TWord) (v : BitVec 32),
    s.nextIs k (.send p d) = true →
    (s.scull k).dr d = w →
    p = 9 →
    w = tagged 1 v →
    v.msb = false →
    v ≠ 0 →
    (s.scull k).handlerHeld p.toNat = false →
    exec (.send k st p d) s = .next (s.passed k 1 ({ (s.scull k).begun with timer := some v.toNat, timerExpired := false }))) ∧
  (∀ (s : State) (k st : Nat) (p : BitVec 4) (d : BitVec 3) (w : TWord),
    s.nextIs k (.send p d) = true →
    (s.scull k).dr d = w →
    p = 9 →
    w = tagged 1 0 →
    (s.scull k).handlerHeld p.toNat = false →
    exec (.send k st p d) s = .next (s.passed k 1 ({ (s.scull k).begun with timer := none }))) ∧
  (∀ (s : State) (k st : Nat) (p : BitVec 4) (d : BitVec 3) (w : TWord) (v : BitVec 32),
    s.nextIs k (.send p d) = true →
    (s.scull k).dr d = w →
    p = 9 →
    w = tagged 1 v →
    v.msb = true →
    exec (.send k st p d) s = .next (s.trapAt k .operandRange (s.scull k).pc.toNat)) ∧
  (∀ (s : State) (k st : Nat) (p : BitVec 4) (d : BitVec 3) (w : TWord) (v : BitVec 32),
    s.nextIs k (.send p d) = true →
    (s.scull k).dr d = w →
    p = 7 →
    w = tagged 2 v →
    (s.scull k).stream = true →
    (s.scull k).handlerHeld p.toNat = false →
    (s.scull k).output.length + 4 ≤ (s.scull k).outLen →
    exec (.send k st p d) s = .next (s.passed k 1 ({ (s.scull k).begun with output := (s.scull k).output ++ leBytes 4 v.toNat, lastBytes := true }))) ∧
  (∀ (s : State) (k st : Nat) (p : BitVec 4) (d : BitVec 3) (w : TWord) (v : BitVec 32),
    s.nextIs k (.send p d) = true →
    (s.scull k).dr d = w →
    p = 7 →
    w = tagged 2 v →
    (s.scull k).stream = true →
    (s.scull k).handlerHeld p.toNat = false →
    (s.scull k).outLen < (s.scull k).output.length + 4 →
    exec (.send k st p d) s = .next ((s.setScull k ((s.scull k).spend 1)).endOverrun k (s.scull k).pc.toNat)) ∧
  (∀ (s : State) (k st : Nat) (p : BitVec 4) (d : BitVec 3) (w : TWord) (v : BitVec 32),
    s.nextIs k (.send p d) = true →
    (s.scull k).dr d = w →
    p = 7 →
    w = tagged 1 v →
    (s.scull k).stream = true →
    (s.scull k).handlerHeld p.toNat = false →
    (s.scull k).lastBytes = true →
    1 ≤ v.toNat →
    v.toNat ≤ 3 →
    exec (.send k st p d) s = .next (s.passed k 1 ({ (s.scull k).begun with output := (s.scull k).output.take ((s.scull k).output.length - (4 - v.toNat)), lastBytes := false }))) ∧
  (∀ (s : State) (k st : Nat) (p : BitVec 4) (d : BitVec 3) (w : TWord),
    s.nextIs k (.send p d) = true →
    (s.scull k).dr d = w →
    p = 7 →
    w = tagged 1 0 ∨ w = tagged 2 0 →
    (s.scull k).stream = false →
    exec (.send k st p d) s = .next (s.trapAt k .portDenied (s.scull k).pc.toNat)) ∧
  (∀ (s : State) (k st : Nat) (p : BitVec 4) (d : BitVec 3) (w : TWord),
    s.nextIs k (.send p d) = true →
    (s.scull k).dr d = w →
    p = 5 →
    isCap w = false →
    (s.scull k).isHook = true →
    (s.scull k).hookSent.length < 3 →
    (s.scull k).handlerHeld p.toNat = false →
    exec (.send k st p d) s = .next (s.passed k 1 ({ (s.scull k).begun with hookSent := (s.scull k).hookSent ++ [w] }))) ∧
  (∀ (s : State) (k st : Nat) (p : BitVec 4) (d : BitVec 3) (w : TWord) (n : Nat),
    s.nextIs k (.send p d) = true →
    (s.scull k).dr d = w →
    p = 8 →
    w = mkWord 1 n →
    n < 2 ^ 32 →
    (s.scull k).partial_ 8 = [] →
    (s.scull k).handlerHeld p.toNat = false →
    s.mailOk k w = true →
    exec (.send k st p d) s = .next (s.passed k 1 ({ (s.scull k).begun with out := Mem.set [] (s.scull k).out 8 [w] }))) ∧
  (∀ (s : State) (k st : Nat) (p : BitVec 4) (d : BitVec 3) (w : TWord),
    s.nextIs k (.send p d) = true →
    (s.scull k).dr d = w →
    p = 8 →
    tag4 w = 1 →
    (s.scull k).partial_ 8 = [] →
    s.mailOk k w = false →
    exec (.send k st p d) s = .next (s.trapAt k .portDenied (s.scull k).pc.toNat)) ∧
  (∀ (s : State) (k st : Nat) (p : BitVec 4) (d : BitVec 3) (w : TWord) (n : Nat) (m : List TWord),
    s.nextIs k (.send p d) = true →
    (s.scull k).dr d = w →
    p = 8 →
    isCap w = false →
    (s.scull k).partial_ 8 = mkWord 1 n :: m →
    n < 8 →
    (s.scull k).handlerHeld p.toNat = false →
    (s.scull (eightOf k * 8 + n)).mail.length < 16 →
    exec (.send k st p d) s = .next ((s.passed k 1 { (s.scull k).begun with out := Mem.set [] (s.scull k).out 8 [] }).updScull (eightOf k * 8 + n) (fun x => { x with mail := x.mail ++ [(k % 8, w)] }))) ∧
  (∀ (s : State) (k st : Nat) (p : BitVec 4) (d : BitVec 3) (w : TWord),
    s.nextIs k (.send p d) = true →
    (s.scull k).dr d = w →
    p.toNat ≤ 4 →
    (s.scull k).handlerHeld p.toNat = true →
    exec (.send k st p d) s = .next (s.trapAt k .handlerState (s.scull k).pc.toNat)) ∧
  (∀ (s : State) (k st : Nat) (p : BitVec 4) (d : BitVec 3) (w : TWord) (rest : List TWord),
    s.nextIs k (.recv p d) = true →
    p.toNat ≤ 5 →
    (p = 5 → (s.scull k).isHook = true) →
    (s.scull k).queue p.toNat = w :: rest →
    exec (.recv k st p d) s = .next (s.passed k 1 (({ (s.scull k).begun with inq := Mem.set [] (s.scull k).inq p.toNat rest } : Scull).setD d w))) ∧
  (∀ (s : State) (k st : Nat) (p : BitVec 4) (d : BitVec 3),
    s.nextIs k (.recv p d) = true →
    p.toNat ≤ 4 →
    (s.scull k).queue p.toNat = [] →
    (s.scull k).out_ p.toNat = 0 →
    exec (.recv k st p d) s = .next (s.trapAt k .portIdle (s.scull k).pc.toNat)) ∧
  (∀ (s : State) (k st : Nat) (p : BitVec 4) (d : BitVec 3),
    s.nextIs k (.recv p d) = true →
    p.toNat ≤ 4 →
    (s.scull k).queue p.toNat = [] →
    (s.scull k).out_ p.toNat ≠ 0 →
    exec (.recv k st p d) s = .next (s.setScull k ((s.scull k).stalled st))) ∧
  (∀ (s : State) (k st : Nat) (p : BitVec 4) (d : BitVec 3),
    s.nextIs k (.recv p d) = true →
    p = 5 ∧ (s.scull k).isHook = false ∨ p = 6 ∧ (s.scull k).stream = false ∨ p = 7 →
    exec (.recv k st p d) s = .next (s.trapAt k .portDenied (s.scull k).pc.toNat)) ∧
  (∀ (s : State) (k st : Nat) (p : BitVec 4) (d : BitVec 3),
    s.nextIs k (.recv p d) = true →
    p = 6 →
    (s.scull k).stream = true →
    (s.scull k).feed ≠ [] →
    exec (.recv k st p d) s = .next (s.passed k 1 (({ (s.scull k).begun with feed := (s.scull k).feed.drop 4 } : Scull).setD d (mkWord 2 (leAt (s.scull k).feed 0 4))))) ∧
  (∀ (s : State) (k st : Nat) (p : BitVec 4) (d : BitVec 3),
    s.nextIs k (.recv p d) = true →
    p = 9 →
    (s.scull k).timerExpired = true →
    exec (.recv k st p d) s = .next (s.passed k 1 (({ (s.scull k).begun with timerExpired := false } : Scull).setD d (mkWord 1 0)))) ∧
  (∀ (s : State) (k st : Nat) (p : BitVec 4) (d : BitVec 3),
    s.nextIs k (.recv p d) = true →
    p = 9 →
    (s.scull k).timerExpired = false →
    (s.scull k).timer = none →
    exec (.recv k st p d) s = .next (s.trapAt k .portIdle (s.scull k).pc.toNat)) ∧
  (∀ (s : State) (k st : Nat) (p : BitVec 4) (d : BitVec 3) (src : Nat) (w : TWord) (rest : List (Nat × TWord)),
    s.nextIs k (.recv p d) = true →
    p = 8 →
    (s.scull k).mail = (src, w) :: rest →
    (s.scull k).mailHalf = false →
    exec (.recv k st p d) s = .next (s.passed k 1 (({ (s.scull k).begun with mailHalf := true } : Scull).setD d (mkWord 1 src)))) ∧
  (∀ (s : State) (k st : Nat) (p : BitVec 4) (d : BitVec 3) (src : Nat) (w : TWord) (rest : List (Nat × TWord)),
    s.nextIs k (.recv p d) = true →
    p = 8 →
    (s.scull k).mail = (src, w) :: rest →
    (s.scull k).mailHalf = true →
    exec (.recv k st p d) s = .next (s.passed k 1 (({ (s.scull k).begun with mail := rest, mailHalf := false } : Scull).setD d w)))

/-- EI sets IEN when IVEC is a CODE and no handler runs; DI clears it. At an interruption point with an interrupt due, entry saves PC and RC
in IRET, clears RC and IEN, sets IN_HANDLER and goes to IVEC in 3 cycles; RETI restores them (R483). The armed timer that runs out sets
TIMER_EXPIRED. A budget of 0 at an interruption point traps with BUDGET (R490). A trap halts the scull, writes TRAPINFO and changes none
of its registers (R484, R486). A fetch beyond PL traps with PC_RANGE, a reserved word with ILLEGAL, another with PROG_PARITY, which is
recorded and reported (R468). END completes the invocation as D0 and D1 say (R505). -/
def Obligations.InterruptsTrapsAndTheEndOfAnInvocation : Prop :=
  (∀ (s : State) (k : Nat),
    s.nextIs k (.ei) = true →
    tag4 (s.scull k).ivec = 5 →
    (s.scull k).inHandler = false →
    exec (.ei k) s = .next (s.passed k 1 { (s.scull k).begun with ien := true })) ∧
  (∀ (s : State) (k : Nat),
    s.nextIs k (.ei) = true →
    tag4 (s.scull k).ivec ≠ 5 →
    exec (.ei k) s = .next (s.trapAt k .tagMismatch (s.scull k).pc.toNat)) ∧
  (∀ (s : State) (k : Nat),
    s.nextIs k (.ei) = true →
    tag4 (s.scull k).ivec = 5 →
    (s.scull k).inHandler = true →
    exec (.ei k) s = .next (s.trapAt k .handlerState (s.scull k).pc.toNat)) ∧
  (∀ (s : State) (k : Nat),
    s.nextIs k (.di) = true →
    exec (.di k) s = .next (s.passed k 1 { (s.scull k).begun with ien := false })) ∧
  (∀ (s : State) (k n : Nat) (r : BitVec 9),
    s.nextIs k (.reti) = true →
    (s.scull k).inHandler = true →
    (s.scull k).iret = mkWord 5 (n + r.toNat * 2 ^ 13) →
    n < 2 ^ 13 →
    exec (.reti k) s = .next (s.jumped k 3 n { (s.scull k).begun with ien := true, inHandler := false, iret := 0, heldOut := [], rc := r })) ∧
  (∀ (s : State) (k : Nat),
    s.nextIs k (.reti) = true →
    (s.scull k).inHandler = false →
    exec (.reti k) s = .next (s.trapAt k .handlerState (s.scull k).pc.toNat)) ∧
  (∀ (s : State) (k n : Nat),
    k < 32 →
    (s.scull k).alive = true →
    s.psm.mode.runsSculls = true →
    (s.scull k).noPoint = false →
    (s.scull k).budget ≠ 0 →
    (s.scull k).ien = true →
    (s.scull k).mail ≠ [] ∨ (s.scull k).timerExpired = true →
    (s.scull k).ivec = mkWord 5 n →
    n < 2 ^ 13 →
    ∃ c, exec (.interruptEntry k) s = .next (s.setScull k c) ∧ c.pc.toNat = n ∧ c.iret = mkWord 5 ((s.scull k).pc.toNat + (s.scull k).rc.toNat * 2 ^ 13) ∧ c.rc = 0 ∧ c.ien = false ∧
      c.inHandler = true ∧ c.budget = (s.scull k).budget - 3 ∧ c.cycles = min ((s.scull k).cycles + 3) 0x7FFFFFFF ∧ c.d = (s.scull k).d ∧ c.a = (s.scull k).a ∧ c.ac = (s.scull k).ac ∧ c.mem = (s.scull k).mem) ∧
  (∀ (s : State) (k t : Nat),
    (s.scull k).alive = true →
    s.psm.mode.runsSculls = true →
    (s.scull k).timer = some t →
    exec (.timerExpiry k) s = .next (s.setScull k { s.scull k with timer := none, timerExpired := true })) ∧
  (∀ (s : State) (k : Nat),
    k < 32 →
    (s.scull k).alive = true →
    s.psm.mode.runsSculls = true →
    (s.scull k).noPoint = false →
    (s.scull k).budget = 0 →
    exec (.budget k) s = .next (s.trapAt k .budget (s.scull k).pc.toNat)) ∧
  (∀ (s : State) (k pc : Nat) (t : Trap),
    (s.trapAt k t pc).scull k = { s.scull k with trapped := true, out := [], inq := [], trapinfo := BitVec.ofNat 32 (t.code + pc * 2 ^ 8 + flag ((s.scull k).rc != 0) * 2 ^ 21 + (s.scull k).rc.toNat * 2 ^ 22 + flag (s.scull k).inHandler * 2 ^ 31) }) ∧
  (∀ (s : State) (k : Nat),
    k < 32 →
    (s.scull k).alive = true →
    s.psm.mode.runsSculls = true →
    (s.scull k).pointTaken = false →
    s.filterOf k = none →
    (s.scull k).pl ≤ (s.scull k).pc.toNat →
    exec (.progParity k) s = .next (s.trapAt k .pcRange (s.scull k).lastPc.toNat)) ∧
  (∀ (s : State) (k : Nat),
    k < 32 →
    (s.scull k).alive = true →
    s.psm.mode.runsSculls = true →
    (s.scull k).pointTaken = false →
    s.filterOf k = none →
    (s.scull k).pastEnd = false →
    (s.scull k).pc.toNat + wordsOf ((s.scull k).word (s.scull k).pc.toNat) ≤ (s.scull k).pl →
    jeriecDecode ((s.scull k).word (s.scull k).pc.toNat) ((s.scull k).word ((s.scull k).pc.toNat + 1)) = none →
    exec (.progParity k) s = .next (s.trapAt k .illegal (s.scull k).pc.toNat)) ∧
  (∀ (s : State) (k : Nat) (op : JOp),
    k < 32 →
    (s.scull k).alive = true →
    s.psm.mode.runsSculls = true →
    (s.scull k).pointTaken = false →
    s.filterOf k = none →
    (s.scull k).pastEnd = false →
    (s.scull k).pc.toNat + wordsOf ((s.scull k).word (s.scull k).pc.toNat) ≤ (s.scull k).pl →
    jeriecDecode ((s.scull k).word (s.scull k).pc.toNat) ((s.scull k).word ((s.scull k).pc.toNat + 1)) = some op →
    exec (.progParity k) s = .next ((s.trapAt k .progParity (s.scull k).pc.toNat).scullFault k (0x0F00 + k) evScullProgParity
        [(1, (s.scull k).func), (2, (s.scull k).handle), (2, (s.scull k).pc.toNat)])) ∧
  (∀ (s : State) (k n v : Nat) (id : CmdId) (x : Cmd),
    s.nextIs k (.endInv) = true →
    s.filterOf k = none →
    (s.scull k).start = some (.invoke id) →
    s.cmd id = some x →
    x.result = none →
    (s.scull k).stream = false →
    Mem.get 0 (s.scull k).d 0 = mkWord 1 n →
    n < 2 ^ 32 →
    n ≤ (s.scull k).outLen →
    Mem.get 0 (s.scull k).d 1 = mkWord 1 v →
    v < 2 ^ 32 →
    ∃ u, exec (.endInv k) s = .next u ∧ u.ResultIs id ⟨.success, BitVec.ofNat 32 v, BitVec.ofNat 32 (n + k * 2 ^ 22)⟩ ∧ (u.scull k).running = false) ∧
  (∀ (s : State) (k : Nat) (id : CmdId),
    s.nextIs k (.endInv) = true →
    s.filterOf k = none →
    (s.scull k).start = some (.hook id) →
    exec (.endInv k) s = .next ((s.setScull k ((s.scull k).spend 1)).endHook k id))

/-- INDEX UPDATE applies its records in order up to the first that fails, and DW0 counts those applied (R443, R444); a physical row of the
entry that fails parity is recorded and fails the record, and one of the entries read out fails the search (R448); a record writes or
invalidates its entry and no other (R438, R443). INDEX SEARCH answers, for each search, exactly the valid rows of the table that the pre-
filter admits and whose masked key matches, in descending score, the lower entry number first among equals (R433 to R435), and DW0 counts
the searches that matched (R445). A key that does not fit, an unknown table and a withdrawn bank group end the command with its status
(R445, R446). A bank group that fails its self-test is recorded and withdrawn; one that passes changes nothing (R448). -/
def Obligations.TablesAreUpdatedAndSearched : Prop :=
  (∀ (s : State) (id : CmdId) (c : Cmd) (d : Bytes) (f : AsuFault),
    s.live id false 0xA1 = some c →
    c.sqe.nsid ≠ 0xFFFFFFFF →
    ∃ u : State, exec (.indexUpdate id d f) s = .next u ∧ u.ResultIs id { status := .invalidNamespaceOrFormat, dw0 := 0 }) ∧
  (∀ (s : State) (id : CmdId) (c : Cmd) (d : Bytes) (f : AsuFault),
    s.live id false 0xA1 = some c →
    c.sqe.nsid = 0xFFFFFFFF →
    field c.sqe.cdw10.toNat 31 16 = 0 →
    field c.sqe.cdw11.toNat 31 15 = 0 →
    c.sqe.cdw12 = 0 →
    c.sqe.cdw13 = 0 →
    c.sqe.cdw14 = 0 →
    c.sqe.cdw15 = 0 →
    field c.sqe.cdw11.toNat 14 0 = 0 ∨ 21845 < field c.sqe.cdw11.toNat 14 0 →
    ∃ u : State, exec (.indexUpdate id d f) s = .next u ∧ u.ResultIs id { status := .invalidField, dw0 := 0 }) ∧
  (∀ (s : State) (id : CmdId) (c : Cmd) (d : Bytes) (f : AsuFault),
    s.live id false 0xA1 = some c →
    c.sqe.nsid = 0xFFFFFFFF →
    field c.sqe.cdw10.toNat 31 16 = 0 →
    field c.sqe.cdw11.toNat 31 15 = 0 →
    c.sqe.cdw12 = 0 →
    c.sqe.cdw13 = 0 →
    c.sqe.cdw14 = 0 →
    c.sqe.cdw15 = 0 →
    1 ≤ field c.sqe.cdw11.toNat 14 0 →
    field c.sqe.cdw11.toNat 14 0 ≤ 21845 →
    c.sqe.sgl = false →
    s.tableFor c.func (field c.sqe.cdw10.toNat 15 0) id = none →
    ∃ u : State, exec (.indexUpdate id d f) s = .next u ∧ u.ResultIs id { status := .tableUnknown, dw0 := 0 }) ∧
  (∀ (s : State) (id : CmdId) (c : Cmd) (d : Bytes) (f : AsuFault) (t : Table),
    s.live id false 0xA1 = some c →
    c.sqe.nsid = 0xFFFFFFFF →
    field c.sqe.cdw10.toNat 31 16 = 0 →
    field c.sqe.cdw11.toNat 31 15 = 0 →
    c.sqe.cdw12 = 0 →
    c.sqe.cdw13 = 0 →
    c.sqe.cdw14 = 0 →
    c.sqe.cdw15 = 0 →
    1 ≤ field c.sqe.cdw11.toNat 14 0 →
    field c.sqe.cdw11.toNat 14 0 ≤ 21845 →
    c.sqe.sgl = false →
    s.tableFor c.func (field c.sqe.cdw10.toNat 15 0) id = some t →
    s.tableDown t = true →
    ∃ u : State, exec (.indexUpdate id d f) s = .next u ∧ u.ResultIs id { status := .internalContained, dw0 := 0 }) ∧
  (∀ (s : State) (id : CmdId) (c : Cmd) (d : Bytes) (f : AsuFault) (t : Table),
    s.live id false 0xA1 = some c →
    c.sqe.nsid = 0xFFFFFFFF →
    field c.sqe.cdw10.toNat 31 16 = 0 →
    field c.sqe.cdw11.toNat 31 15 = 0 →
    c.sqe.cdw12 = 0 →
    c.sqe.cdw13 = 0 →
    c.sqe.cdw14 = 0 →
    c.sqe.cdw15 = 0 →
    1 ≤ field c.sqe.cdw11.toNat 14 0 →
    field c.sqe.cdw11.toNat 14 0 ≤ 21845 →
    c.sqe.sgl = false →
    s.tableFor c.func (field c.sqe.cdw10.toNat 15 0) id = some t →
    s.tableDown t = false →
    exec (.indexUpdate id d f) s = .next ((s.applyRecords t f (chunksOf 96 (padTo (96 * field c.sqe.cdw11.toNat 14 0) d)) 0).1.finish id ((s.applyRecords t f (chunksOf 96 (padTo (96 * field c.sqe.cdw11.toNat 14 0) d)) 0).2.2.getD .success) (BitVec.ofNat 32 (s.applyRecords t f (chunksOf 96 (padTo (96 * field c.sqe.cdw11.toNat 14 0) d)) 0).2.1))) ∧
  (∀ (s u : State) (t : Table) (f : AsuFault) (bs : Bytes) (bl : List Bytes) (n : Nat) (e : Status),
    s.applyRecord t bs f = .error (u, e) →
    s.applyRecords t f (bs :: bl) n = (u, n, some e)) ∧
  (∀ (s u : State) (t : Table) (f : AsuFault) (bs : Bytes) (bl : List Bytes) (n : Nat),
    s.applyRecord t bs f = .ok u →
    s.applyRecords t f (bs :: bl) n = u.applyRecords t f bl (n + 1)) ∧
  (∀ (s : State) (t : Table) (f : AsuFault) (bl : List Bytes) (n : Nat),
    s.applyRecords t f [] n = (s, n, none)) ∧
  (∀ (s : State) (t : Table) (bs : Bytes) (f : AsuFault),
    field (leNat bs) 25 24 = 0 →
    field (leNat bs) 31 26 = 0 →
    field (leNat bs) 63 52 = 0 →
    field (leNat bs) 767 704 = 0 →
    keyFits t (BitVec.ofNat 288 (field (leNat bs) 415 128)) (BitVec.ofNat 288 (field (leNat bs) 703 416)) = true →
    field (leNat bs) 23 0 < t.capacity →
    s.rowFault t f [field (leNat bs) 23 0] = none →
    s.applyRecord t bs f = .ok (s.setRow t (field (leNat bs) 23 0) (some { key := BitVec.ofNat 288 (field (leNat bs) 415 128), mask := BitVec.ofNat 288 (field (leNat bs) 703 416), prefilter := BitVec.ofNat 8 (field (leNat bs) 39 32), priority := field (leNat bs) 51 40, assoc := BitVec.ofNat 64 (field (leNat bs) 127 64) }))) ∧
  (∀ (s : State) (t : Table) (bs : Bytes) (f : AsuFault),
    leNat bs / 2 ^ 26 = 0 →
    field (leNat bs) 25 24 = 1 →
    field (leNat bs) 23 0 < t.capacity →
    s.rowFault t f [field (leNat bs) 23 0] = none →
    s.applyRecord t bs f = .ok (s.setRow t (field (leNat bs) 23 0) none)) ∧
  (∀ (s : State) (t : Table) (bs : Bytes) (f : AsuFault) (u : State),
    field (leNat bs) 25 24 = 0 →
    field (leNat bs) 31 26 = 0 →
    field (leNat bs) 63 52 = 0 →
    field (leNat bs) 767 704 = 0 →
    keyFits t (BitVec.ofNat 288 (field (leNat bs) 415 128)) (BitVec.ofNat 288 (field (leNat bs) 703 416)) = true →
    field (leNat bs) 23 0 < t.capacity →
    s.rowFault t f [field (leNat bs) 23 0] = some u →
    s.applyRecord t bs f = .error (u, .internalContained)) ∧
  (∀ (s : State) (t : Table) (bs : Bytes) (f : AsuFault),
    2 ≤ field (leNat bs) 25 24 →
    s.applyRecord t bs f = .error (s, .invalidField)) ∧
  (∀ (s : State) (t : Table) (bs : Bytes) (f : AsuFault),
    field (leNat bs) 25 24 = 0 →
    field (leNat bs) 31 26 = 0 →
    field (leNat bs) 63 52 = 0 →
    field (leNat bs) 767 704 = 0 →
    keyFits t (BitVec.ofNat 288 (field (leNat bs) 415 128)) (BitVec.ofNat 288 (field (leNat bs) 703 416)) = true →
    t.capacity ≤ field (leNat bs) 23 0 →
    s.applyRecord t bs f = .error (s, .tenantQuota)) ∧
  (∀ (s : State) (t : Table) (bank row : Nat) (l : List Nat),
    (∃ n ∈ l, (bank, row) ∈ t.rows n) →
    s.rowFault t (.rowParity bank row) l = some ((s.raiseFrom (0x0D00 + bank) evAsuRowParity t.func [(1, bank), (2, row), (1, t.func)]).detect (0x0D00 + bank) evAsuRowParity.code s.recd.next)) ∧
  (∀ (s : State) (t : Table) (bank row : Nat) (l : List Nat),
    (∀ n ∈ l, ¬ (bank, row) ∈ t.rows n) →
    s.rowFault t (.rowParity bank row) l = none) ∧
  (∀ (s : State) (t : Table) (n m : Nat) (r : Option Row),
    m ≠ n →
    (s.setRow t n r).row t n = r ∧ (s.setRow t n r).row t m = s.row t m) ∧
  (∀ (s : State) (id : CmdId) (c : Cmd) (d : Bytes) (f : AsuFault) (bs : List Bytes),
    s.live id false 0xA2 = some c →
    chunksOf 48 (padTo (48 * field c.sqe.cdw11.toNat 12 0) d) = bs →
    c.sqe.nsid ≠ 0xFFFFFFFF →
    ∃ u : State, exec (.indexSearch id d f) s = .next u ∧ u.ResultIs id { status := .invalidNamespaceOrFormat, dw0 := 0 }) ∧
  (∀ (s : State) (id : CmdId) (c : Cmd) (d : Bytes) (f : AsuFault) (bs : List Bytes),
    s.live id false 0xA2 = some c →
    chunksOf 48 (padTo (48 * field c.sqe.cdw11.toNat 12 0) d) = bs →
    c.sqe.nsid = 0xFFFFFFFF →
    indexSearchOk c.sqe = false ∨ bs.all searchFieldsOk = false →
    ∃ u : State, exec (.indexSearch id d f) s = .next u ∧ u.ResultIs id { status := .invalidField, dw0 := 0 }) ∧
  (∀ (s : State) (id : CmdId) (c : Cmd) (d : Bytes) (f : AsuFault) (bs : List Bytes),
    s.live id false 0xA2 = some c →
    chunksOf 48 (padTo (48 * field c.sqe.cdw11.toNat 12 0) d) = bs →
    c.sqe.nsid = 0xFFFFFFFF →
    indexSearchOk c.sqe = true →
    bs.all searchFieldsOk = true →
    ((bs.map (fun b => 16 * (1 + (searchOf b).max))).foldl (· + ·) 0 ≤ 2097152) →
    c.sqe.sgl = false →
    s.tableFor c.func (field c.sqe.cdw10.toNat 15 0) id = none →
    ∃ u : State, exec (.indexSearch id d f) s = .next u ∧ u.ResultIs id { status := .tableUnknown, dw0 := 0 }) ∧
  (∀ (s : State) (id : CmdId) (c : Cmd) (d : Bytes) (f : AsuFault) (bs : List Bytes) (t : Table),
    s.live id false 0xA2 = some c →
    chunksOf 48 (padTo (48 * field c.sqe.cdw11.toNat 12 0) d) = bs →
    c.sqe.nsid = 0xFFFFFFFF →
    indexSearchOk c.sqe = true →
    bs.all searchFieldsOk = true →
    ((bs.map (fun b => 16 * (1 + (searchOf b).max))).foldl (· + ·) 0 ≤ 2097152) →
    c.sqe.sgl = false →
    s.tableFor c.func (field c.sqe.cdw10.toNat 15 0) id = some t →
    (bs.any (fun b => decide (2 ^ t.bits ≤ (searchOf b).key.toNat)) = true) →
    ∃ u : State, exec (.indexSearch id d f) s = .next u ∧ u.ResultIs id { status := .invalidField, dw0 := 0 }) ∧
  (∀ (s : State) (id : CmdId) (c : Cmd) (d : Bytes) (f : AsuFault) (bs : List Bytes) (t : Table),
    s.live id false 0xA2 = some c →
    chunksOf 48 (padTo (48 * field c.sqe.cdw11.toNat 12 0) d) = bs →
    c.sqe.nsid = 0xFFFFFFFF →
    indexSearchOk c.sqe = true →
    bs.all searchFieldsOk = true →
    ((bs.map (fun b => 16 * (1 + (searchOf b).max))).foldl (· + ·) 0 ≤ 2097152) →
    c.sqe.sgl = false →
    s.tableFor c.func (field c.sqe.cdw10.toNat 15 0) id = some t →
    (bs.all (fun b => decide ((searchOf b).key.toNat < 2 ^ t.bits)) = true) →
    s.tableDown t = true →
    ∃ u : State, exec (.indexSearch id d f) s = .next u ∧ u.ResultIs id { status := .internalContained, dw0 := 0 }) ∧
  (∀ (s : State) (id : CmdId) (c : Cmd) (d : Bytes) (f : AsuFault) (bs : List Bytes) (t : Table),
    s.live id false 0xA2 = some c →
    chunksOf 48 (padTo (48 * field c.sqe.cdw11.toNat 12 0) d) = bs →
    c.sqe.nsid = 0xFFFFFFFF →
    indexSearchOk c.sqe = true →
    bs.all searchFieldsOk = true →
    ((bs.map (fun b => 16 * (1 + (searchOf b).max))).foldl (· + ·) 0 ≤ 2097152) →
    c.sqe.sgl = false →
    s.tableFor c.func (field c.sqe.cdw10.toNat 15 0) id = some t →
    (bs.all (fun b => decide ((searchOf b).key.toNat < 2 ^ t.bits)) = true) →
    s.tableDown t = false →
    (s.asuFault t f ((bs.map (fun b => ((s.matches t (searchOf b)).take (searchOf b).max).map (·.1))).flatten) = none) →
    exec (.indexSearch id d f) s = .next ((s.reply id ((bs.map (fun b => searchResult (s.matches t (searchOf b)) (searchOf b).max)).flatten)).finish id .success (BitVec.ofNat 32 (bs.countP (fun b => !(s.matches t (searchOf b)).isEmpty))))) ∧
  (∀ (s : State) (id : CmdId) (c : Cmd) (d : Bytes) (f : AsuFault) (bs : List Bytes) (t : Table) (u : State),
    s.live id false 0xA2 = some c →
    chunksOf 48 (padTo (48 * field c.sqe.cdw11.toNat 12 0) d) = bs →
    c.sqe.nsid = 0xFFFFFFFF →
    indexSearchOk c.sqe = true →
    bs.all searchFieldsOk = true →
    ((bs.map (fun b => 16 * (1 + (searchOf b).max))).foldl (· + ·) 0 ≤ 2097152) →
    c.sqe.sgl = false →
    s.tableFor c.func (field c.sqe.cdw10.toNat 15 0) id = some t →
    (bs.all (fun b => decide ((searchOf b).key.toNat < 2 ^ t.bits)) = true) →
    s.tableDown t = false →
    (s.asuFault t f ((bs.map (fun b => ((s.matches t (searchOf b)).take (searchOf b).max).map (·.1))).flatten) = some u) →
    exec (.indexSearch id d f) s = .next (u.finish id .internalContained)) ∧
  (∀ (s : State) (t : Table) (l : List Nat) (g w : Nat),
    g ∈ t.groups →
    s.asuFault t .none l = none ∧ s.asuFault t (.disagree g w) l = some ((s.raise evAsuMatchDisagree t.func [(1, g), (1, t.func), (2, t.id), (1, w)]).withdraw (.asu g) evAsuMatchDisagree.code s.recd.next) ∧ s.asuFault t (.selftest g w) l = some (s.selftestFail g w) ∧ s.asuFault t (.rowParity g w) l = s.rowFault t (.rowParity g w) l) ∧
  (∀ (s : State) (t : Table) (q : Search) (e : Nat) (r : Row),
    Mem.wf none s.asu.rows = true →
    e < 2 ^ 24 →
    ((e, r) ∈ s.matches t q) ↔ (s.row t e = some r ∧ (q.allTags = true ∨ r.prefilter = q.tag ∨ r.prefilter = 0xFF) ∧ (r.key &&& r.mask) = (q.key &&& r.mask))) ∧
  (∀ (s : State) (t : Table) (q : Search),
    Mem.wf none s.asu.rows = true →
    (s.matches t q).Pairwise (fun a b => t.score b.2 < t.score a.2 ∨ (t.score b.2 = t.score a.2 ∧ a.1 < b.1))) ∧
  (∀ (s : State) (g p : Nat) (ok : Bool),
    ok = true ∨ 8 ≤ g ∨ s.psm.mode.engines = false →
    exec (.asuSelftest g p ok) s = .next (s)) ∧
  (∀ (s : State) (g p : Nat),
    g < 8 →
    s.psm.mode.engines = true →
    exec (.asuSelftest g p false) s = .next ((s.raise evAsuSelftestFail 255 [(1, g), (4, p), (4, s.asu.tables.countP (fun t => t.groups.contains g))]).withdraw (.asu g) evAsuSelftestFail.code s.recd.next))

/-- An entry that its mode does not serve ends as GEN_RETIRED, a malformed one as ENTRY_INVALID, any other joins the queue or, with the
submitter's reserve and the pool used up, waits (R362, R364, R395). Dispatch takes the first urgent entry that ends or can be bound, else
the first normal one, binds it to a pipeline of the fewest requests, and takes a counter nonce that never passes its mark (R365, R369,
R373, R376). A slice end passes the turn on (R368). A request that has run writes its output at DST, no other byte, and completes DONE; a
held GCM decryption whose tag differs writes nothing; a unit that fails its tag check ends its request with SRC_ERROR before it writes
(R26, R27; log 106); a parity fault empties its pipeline and withdraws it, recorded; a request of a retired generation ends as GEN_RETIRED
(R366, R370 to R372, R378, R400). Health failures stop reseeds and end in SAFE-HALT (R377, R379). A privileged page serves its own master
only; a breach ends in SAFE-HALT (R380, R381). -/
def Obligations.CipherRequestsRunFromQueueToCompletion : Prop :=
  (∀ (s : State) (p : Nat) (e : BitVec 512),
    6 < p ∨ s.psm.mode = .off ∨ s.psm.mode = .hold →
    exec (.cpeRequest p e) s = .next (s)) ∧
  (∀ (s : State) (p : Nat) (e : BitVec 512),
    p ≤ 6 →
    s.psm.mode ≠ .off →
    s.psm.mode ≠ .hold →
    s.cpeServes p = false →
    exec (.cpeRequest p e) s = .next (s.cpeFail { submitter := p, entry := e } 0x0A11 0x07 0)) ∧
  (∀ (s : State) (p : Nat) (e : BitVec 512),
    p ≤ 6 →
    s.psm.mode ≠ .off →
    s.psm.mode ≠ .hold →
    s.cpeServes p = true →
    entryOk p e.toNat = false →
    exec (.cpeRequest p e) s = .next (s.cpeFail { submitter := p, entry := e } 0x0A11 0x06 0)) ∧
  (∀ (s : State) (p : Nat) (e : BitVec 512),
    p ≤ 6 →
    s.psm.mode ≠ .off →
    s.psm.mode ≠ .hold →
    s.cpeServes p = true →
    entryOk p e.toNat = true →
    exec (.cpeRequest p e) s = .next (({ s with cpe := s.cpe.enqueue { submitter := p, entry := e } } : State).wake)) ∧
  (∀ (c : Cpe) (e : CpeEntry),
    16 ≤ e.submitter ∨ (c.queued e.submitter < 128 ∧ c.waiting = []) →
    c.enqueue e = { c with queue := c.queue ++ [e] }) ∧
  (∀ (c : Cpe) (e : CpeEntry),
    e.submitter < 16 →
    128 ≤ c.queued e.submitter →
    1152 ≤ c.pool →
    c.enqueue e = { c with waiting := c.waiting ++ [e] }) ∧
  (∀ (s : State),
    (∀ e ∈ s.cpe.queue, s.dispatchEnd e = none ∧ s.pickPipe e = none) →
    exec (.cpeDispatch) s = .next (s)) ∧
  (∀ (s : State) (e : CpeEntry) (a z : List CpeEntry) (r : Nat),
    s.psm.mode ≠ .rest →
    ((s.cpe.queue.filter (fun e => ceUrgent e.entry.toNat) ++ s.cpe.queue.filter (fun e => !ceUrgent e.entry.toNat)) = a ++ e :: z) →
    (∀ x ∈ a, s.dispatchEnd x = none ∧ s.pickPipe x = none) →
    s.dispatchEnd e = some r →
    exec (.cpeDispatch) s = .next (({ s with cpe := s.cpe.dequeue e } : State).cpeFail e 0x0A11 r 0)) ∧
  (∀ (s : State) (e : CpeEntry) (a z : List CpeEntry) (k : Key) (q : Nat) (t : State) (nonce : Bytes),
    s.psm.mode ≠ .rest →
    ((s.cpe.queue.filter (fun e => ceUrgent e.entry.toNat) ++ s.cpe.queue.filter (fun e => !ceUrgent e.entry.toNat)) = a ++ e :: z) →
    (∀ x ∈ a, s.dispatchEnd x = none ∧ s.pickPipe x = none) →
    s.dispatchEnd e = none →
    s.cpeKey e = .ok k →
    s.pickPipe e = some q →
    ({ s with cpe := s.cpe.dequeue e } : State).bindNonce e k = (nonce, t) →
    exec (.cpeDispatch) s = .next (t.setPipe q ((t.pipe q).bind { e with key := k.bytes, nonce := nonce }))) ∧
  (∀ (s : State) (e : CpeEntry) (p q : Nat),
    s.pickPipe e = some p →
    q < 8 →
    s.pipeTakes q e = true →
    s.pipeTakes p e = true ∧ p < 8 ∧ (s.pipe p).bound.length ≤ (s.pipe q).bound.length ∧ ((s.pipe p).bound.length = (s.pipe q).bound.length → p ≤ q)) ∧
  (∀ (s : State) (f n : Nat) (k : Key),
    k.counter < 2 ^ 64 - 1 →
    (s.slot n).key = some k →
    (s.slot n).staged = none →
    k.counter ≤ (s.slot n).mark →
    (s.takeNonce f n false k).1 = beBytes 4 k.fixed.toNat ++ beBytes 8 k.counter ∧ k.counter < ((s.takeNonce f n false k).2.slot n).mark ∧ ((s.takeNonce f n false k).2.slot n).key = some { k with counter := k.counter + 1, locked := k.counter + 1 == 2 ^ 64 - 1 }) ∧
  (∀ (x : Pipe) (e : CpeEntry),
    ceUrgent e.entry.toNat = true →
    (x.bind e).bound = x.bound.filter (fun b => ceUrgent b.entry.toNat) ++ [e] ++ x.bound.filter (fun b => !ceUrgent b.entry.toNat)) ∧
  (∀ (s : State) (p : Nat),
    ((s.pipe p).bound.filter (fun b => !ceUrgent b.entry.toNat) = []) →
    exec (.cpeSliceEnd p) s = .next (s)) ∧
  (∀ (s : State) (p : Nat) (e : CpeEntry) (z : List CpeEntry),
    ((s.pipe p).bound.filter (fun b => !ceUrgent b.entry.toNat) = e :: z) →
    ceLength e.entry.toNat ≤ (e.slices + 1) * 65536 →
    exec (.cpeSliceEnd p) s = .next (s)) ∧
  (∀ (s : State) (p : Nat) (e : CpeEntry) (z : List CpeEntry),
    ((s.pipe p).bound.filter (fun b => !ceUrgent b.entry.toNat) = e :: z) →
    (e.slices + 1) * 65536 < ceLength e.entry.toNat →
    exec (.cpeSliceEnd p) s = .next (s.setPipe p { s.pipe p with bound := (s.pipe p).bound.filter (fun b => ceUrgent b.entry.toNat) ++ z ++ [{ e with slices := e.slices + 1 }], drbgBlocks := (s.pipe p).drbgBlocks + 4096 })) ∧
  (∀ (s : State) (p : Nat) (r : CpeOutcome),
    (s.pipe p).bound = [] →
    exec (.cpeRequestComplete p r) s = .next (s)) ∧
  (∀ (s : State) (p : Nat) (r : CpeOutcome) (e : CpeEntry) (z : List CpeEntry) (t : State),
    (s.pipe p).bound = e :: z →
    s.setPipe p { s.pipe p with bound := z, drbgBlocks := (s.pipe p).drbgBlocks + ceilDiv (ceLength e.entry.toNat - e.slices * 65536) 16 } = t →
    s.retired (ceFunc e.entry.toNat) (ceGen e.entry.toNat) = true →
    e.submitter < 16 →
    exec (.cpeRequestComplete p r) s = .next (t.cpeFail e 0 0x07 0)) ∧
  (∀ (s : State) (p : Nat) (e : CpeEntry) (z : List CpeEntry) (t : State) (out tag : Bytes),
    (s.pipe p).bound = e :: z →
    s.setPipe p { s.pipe p with bound := z, drbgBlocks := (s.pipe p).drbgBlocks + ceilDiv (ceLength e.entry.toNat - e.slices * 65536) 16 } = t →
    s.retired (ceFunc e.entry.toNat) (ceGen e.entry.toNat) = false →
    ceHolds e.entry.toNat = false →
    ceMode e.entry.toNat ≠ 1 →
    (s.splRead (ceSrc e.entry.toNat) (ceLength e.entry.toNat)).isSome = true →
    e.run (readBytes s.dmf.spl (ceSrc e.entry.toNat) (ceLength e.entry.toNat)) = (out, tag) →
    exec (.cpeRequestComplete p .ran) s = .next (((t.cpeWrite e out).cpeVerdict e (0x0A00 + p) true out.length).cpeDeliver e 0x00 out.length (ceVerdict e.entry.toNat) (tag.take (ceTagLen e.entry.toNat)) [])) ∧
  (∀ (s : State) (p : Nat) (e : CpeEntry) (z : List CpeEntry) (t : State) (out tag : Bytes),
    (s.pipe p).bound = e :: z →
    s.setPipe p { s.pipe p with bound := z, drbgBlocks := (s.pipe p).drbgBlocks + ceilDiv (ceLength e.entry.toNat - e.slices * 65536) 16 } = t →
    s.retired (ceFunc e.entry.toNat) (ceGen e.entry.toNat) = false →
    ceMode e.entry.toNat = 1 →
    ceDecrypt e.entry.toNat = false →
    (s.splRead (ceSrc e.entry.toNat) (ceLength e.entry.toNat)).isSome = true →
    e.run (readBytes s.dmf.spl (ceSrc e.entry.toNat) (ceLength e.entry.toNat)) = (out, tag) →
    exec (.cpeRequestComplete p .ran) s = .next (((t.cpeWrite e out).cpeVerdict e (0x0A00 + p) true out.length).cpeDeliver e 0x00 out.length (ceVerdict e.entry.toNat) (tag.take (ceTagLen e.entry.toNat)) e.nonce)) ∧
  (∀ (s : State) (p : Nat) (e : CpeEntry) (z : List CpeEntry) (t : State) (out tag : Bytes),
    (s.pipe p).bound = e :: z →
    s.setPipe p { s.pipe p with bound := z, drbgBlocks := (s.pipe p).drbgBlocks + ceilDiv (ceLength e.entry.toNat - e.slices * 65536) 16 } = t →
    s.retired (ceFunc e.entry.toNat) (ceGen e.entry.toNat) = false →
    ceHolds e.entry.toNat = true →
    ceReleases e.entry.toNat = false →
    ceVerdict e.entry.toNat = false →
    (s.splRead (ceSrc e.entry.toNat) (ceLength e.entry.toNat)).isSome = true →
    e.run (readBytes s.dmf.spl (ceSrc e.entry.toNat) (ceLength e.entry.toNat)) = (out, tag) →
    tag.take (ceTagLen e.entry.toNat) ≠ leBytes (ceTagLen e.entry.toNat) (ceTag e.entry.toNat) →
    ∃ u : State, exec (.cpeRequestComplete p .ran) s = .next u ∧ u.dmf.spl = s.dmf.spl ∧ ((e.submitter < 3 ∨ 6 < e.submitter) → u.cpe.done = s.cpe.done ++ [(e.submitter, cpeCompletion (entryUser e.entry) 0x03 false 0 [] [])])) ∧
  (∀ (s : State) (p blk : Nat) (e : CpeEntry) (z : List CpeEntry),
    (s.pipe p).bound = e :: z →
    s.retired (ceFunc e.entry.toNat) (ceGen e.entry.toNat) = false →
    blk ≤ ceLength e.entry.toNat / 16 →
    exec (.cpeRequestComplete p (.parity blk)) s = .next (s.cpeParity p e blk)) ∧
  (∀ (s : State) (p blk : Nat) (e : CpeEntry),
    (s.pipe p).bound = [e] →
    ceVerdict e.entry.toNat = false →
    e.submitter < 3 →
    p ≤ 7 →
    s.psm.halt.withdrawn = [] →
    ((s.cpeParity p e blk).pipe p).bound = [] ∧ (s.cpeParity p e blk).psm.halt.withdrawn = [.cpe p] ∧ (s.cpeParity p e blk).recd.next = s.recd.next + 1) ∧
  (∀ (s : State) (p : Nat) (e : CpeEntry) (z : List CpeEntry) (t : State) (d : BitVec 32 × State),
    (s.pipe p).bound = e :: z →
    s.setPipe p { s.pipe p with bound := z, drbgBlocks := (s.pipe p).drbgBlocks + ceilDiv (ceLength e.entry.toNat - e.slices * 65536) 16 } = t →
    s.retired (ceFunc e.entry.toNat) (ceGen e.entry.toNat) = false →
    t.draw 32 = d →
    exec (.cpeRequestComplete p .srcError) s = .next ((d.2.splError (ceSrc e.entry.toNat + d.1.toNat % ceLength e.entry.toNat)).cpeCut p e 0x08 (d.1.toNat % ceLength e.entry.toNat))) ∧
  (∀ (s : State) (p : Nat) (k : Nat) (e : CpeEntry) (z : List CpeEntry) (t : State),
    (s.pipe p).bound = e :: z →
    s.setPipe p { s.pipe p with bound := z, drbgBlocks := (s.pipe p).drbgBlocks + ceilDiv (ceLength e.entry.toNat - e.slices * 65536) 16 } = t →
    s.retired (ceFunc e.entry.toNat) (ceGen e.entry.toNat) = false →
    exec (.cpeRequestComplete p (.tagMismatch k)) s = .next (t.cpeBadTag p e k)) ∧
  (∀ (s : State) (e : CpeEntry) (out : Bytes) (i : Nat),
    i < ceDst e.entry.toNat ∨ ceDst e.entry.toNat + out.length ≤ i →
    readBytes (s.cpeWrite e out).dmf.spl (ceDst e.entry.toNat) out.length = out ∧ Mem.get 0 (s.cpeWrite e out).dmf.spl i = Mem.get 0 s.dmf.spl i ∧ (s.cpeWrite e out).dram = s.dram) ∧
  (∀ (s : State) (e : CpeEntry) (res n : Nat) (v : Bool) (tag nonce : Bytes),
    e.submitter < 3 ∨ 6 < e.submitter →
    res ≠ 0x04 ∨ v = false →
    s.cpeDeliver e res n v tag nonce = { s with cpe := s.cpe.deliver e res (cpeCompletion (entryUser e.entry) res v n tag nonce) } ∧ (s.cpe.deliver e res (cpeCompletion (entryUser e.entry) res v n tag nonce)).done = s.cpe.done ++ [(e.submitter, cpeCompletion (entryUser e.entry) res v n tag nonce)]) ∧
  (∀ (s : State) (e : CpeEntry) (comp res n : Nat),
    ceVerdict e.entry.toNat = false →
    res ≠ 0x07 →
    s.cpeFail e comp res n = s.cpeDeliver e res n false [] []) ∧
  (∀ (s : State) (p : Nat) (h : Bool),
    8 ≤ p →
    exec (.drbgReseed p h) s = .next (s)) ∧
  (∀ (s : State) (p : Nat),
    p < 8 →
    exec (.drbgReseed p true) s = .next ({ s with cpe := { s.cpe with rngFailed := false, pipes := Mem.set {} s.cpe.pipes p { s.pipe p with drbgBlocks := 0 } } })) ∧
  (∀ (s : State) (p : Nat),
    p < 8 →
    exec (.drbgReseed p false) s = .next ({ s with cpe := { s.cpe with rngFailed := true } })) ∧
  (∀ (s : State) (t : Nat),
    s.cpe.rngFailed = false →
    exec (.rngHealthFail t) s = .next (s)) ∧
  (∀ (s : State) (t : Nat),
    s.cpe.rngFailed = true →
    (∀ p, p < 8 → (s.pipe p).drbgBlocks < 2 ^ 24) →
    exec (.rngHealthFail t) s = .next (s.dangerHalt evRngHealthFail 0x0A12 [(2, t), (1, 0)] false)) ∧
  (∀ (s : State) (page i : Nat),
    4 ≤ page ∨ s.psm.mode = .off ∨ s.psm.mode = .hold →
    exec (.cpePgGo page i) s = .next (s)) ∧
  (∀ (s : State) (page i : Nat),
    page < 4 →
    s.psm.mode ≠ .off →
    s.psm.mode ≠ .hold →
    i ≠ page →
    exec (.cpePgGo page i) s = .next (s.pageBreach page i 0x040)) ∧
  (∀ (s : State) (i : Nat),
    s.psm.mode ≠ .off →
    s.psm.mode ≠ .hold →
    s.cpe.page0Closed = true →
    exec (.cpePgGo 0 0) s = .next (s)) ∧
  (∀ (s : State) (page : Nat),
    page < 4 →
    s.psm.mode ≠ .off →
    s.psm.mode ≠ .hold →
    page ≠ 0 ∨ s.cpe.page0Closed = false →
    (Mem.get {} s.cpe.pages page).busy = true →
    exec (.cpePgGo page page) s = .next (s)) ∧
  (∀ (s : State) (page : Nat) (x : Page),
    page < 4 →
    s.psm.mode ≠ .off →
    s.psm.mode ≠ .hold →
    page ≠ 0 ∨ s.cpe.page0Closed = false →
    Mem.get {} s.cpe.pages page = x →
    x.busy = false →
    exec (.cpePgGo page page) s = .next ((s.updPage page (fun y => { y with busy := true, done := false })).cpeSubmit (16 + page) (x.entryBits ||| 0x10))) ∧
  (∀ (s : State) (page k i : Nat) (key : Bytes) (attr : BitVec 16),
    page < 4 →
    s.psm.mode ≠ .off →
    s.psm.mode ≠ .hold →
    i ≠ page →
    exec (.cpePgKey page k i key attr) s = .next (s.pageBreach page i (0x100 + 0x40 * k))) ∧
  (∀ (s : State) (page k : Nat) (key : Bytes) (attr : BitVec 16),
    page < 4 →
    s.psm.mode ≠ .off →
    s.psm.mode ≠ .hold →
    page ≠ 0 ∨ s.cpe.page0Closed = false →
    4 ≤ k →
    exec (.cpePgKey page k page key attr) s = .next (s)) ∧
  (∀ (s : State) (page k : Nat) (key : Bytes) (attr : BitVec 16),
    page < 4 →
    s.psm.mode ≠ .off →
    s.psm.mode ≠ .hold →
    page ≠ 0 ∨ s.cpe.page0Closed = false →
    k < 4 →
    (Mem.get {} s.cpe.pages page).busy = false →
    exec (.cpePgKey page k page key attr) s = .next (s.updPage page (fun y => { y with keys := Mem.set ([], 0) y.keys k (padTo 32 key, attr) }))) ∧
  (∀ (s : State) (page k : Nat) (key : Bytes) (attr : BitVec 16),
    page < 4 →
    s.psm.mode ≠ .off →
    s.psm.mode ≠ .hold →
    page ≠ 0 ∨ s.cpe.page0Closed = false →
    k < 4 →
    (Mem.get {} s.cpe.pages page).busy = true →
    exec (.cpePgKey page k page key attr) s = .next (s.updPage page (fun y => { y with late := y.late ++ [(k, padTo 32 key, attr)] }))) ∧
  (∀ (s : State) (page i o : Nat),
    i = page →
    exec (.pageViolation page i o) s = .next (s)) ∧
  (∀ (s : State) (page i o : Nat),
    page < 4 →
    s.psm.mode ≠ .off →
    s.psm.mode ≠ .hold →
    i ≠ page →
    exec (.pageViolation page i o) s = .next (s.dangerHalt evPageViolation (0x0A20 + page) [(1, page), (2, i), (2, o)] false)) ∧
  (∀ (s : State) (k : Ev) (comp : Nat) (items : List (Nat × Nat)) (d : Bool),
    s.psm.mode = .service →
    (s.dangerHalt k comp items d).psm.mode = .safeHalt ∧ (s.dangerHalt k comp items d).psm.halt.code = k.code ∧ (s.dangerHalt k comp items d).psm.halt.component = comp)

/-- A CFG opens its context with its key, kept without its reserved bits (R9), or puts it in ERROR (no key: 2, a seal that is not allowed: 4),
or waits while the open contexts are at the limit (R386, R391, R393). Data words join the message in order, a finished context is reopened
by them with its CFG, and a context in IDLE or ERROR ignores them (R385, R389). LAST_CNT takes up to 8 bytes of the last word; a count
above 8, or 0 with data, is an error (R387). An unkeyed finish gives the digest of the message; a keyed one gives EQUAL, DIFFERENT or no
expected value and no MAC; a sealed one keeps its MAC inside (R389 to R391). A switch needs a 4 KiB boundary and saves an image of the
context that leaves (R392); a keyed image with a bad tag puts its context in ERROR, recorded (R392). -/
def Obligations.DigestMessagesOpenFeedAndFinish : Prop :=
  (∀ (s : State) (i : Nat) (src : DgeSource) (cfg : BitVec 64),
    1024 ≤ i ∨ s.dgeServes = false →
    exec (.dgeCtxCfg i src cfg) s = .next (s)) ∧
  (∀ (s : State) (i : Nat) (src : DgeSource) (cfg : BitVec 64),
    i < 1024 →
    s.dgeServes = true →
    (s.ctx i).state ≠ .opened →
    s.dgeLimit ≤ s.dgeOpenCount →
    exec (.dgeCtxCfg i src cfg) s = .next ({ s with dge := { s.dge with opens := s.dge.opens ++ [(i, src, cfg)] } })) ∧
  (∀ (s : State) (i : Nat) (src : DgeSource) (cfg : BitVec 64),
    i < 1024 →
    s.dgeServes = true →
    (s.ctx i).state = .opened ∨ s.dgeOpenCount < s.dgeLimit →
    bit cfg.toNat 24 = true →
    src ≠ .coxC ∨ bit cfg.toNat 2 = false →
    ∃ u : State, exec (.dgeCtxCfg i src cfg) s = .next u ∧ (u.ctx i).state = .error ∧ (u.ctx i).error = 4 ∧ (u.ctx i).cfg = cfgKept cfg) ∧
  (∀ (s : State) (i : Nat) (src : DgeSource) (cfg : BitVec 64),
    i < 1024 →
    s.dgeServes = true →
    (s.ctx i).state = .opened ∨ s.dgeOpenCount < s.dgeLimit →
    bit cfg.toNat 24 = false →
    bit cfg.toNat 2 = true →
    s.dgeKey src cfg.toNat = none →
    ∃ u : State, exec (.dgeCtxCfg i src cfg) s = .next u ∧ (u.ctx i).state = .error ∧ (u.ctx i).error = 2) ∧
  (∀ (s : State) (i : Nat) (src : DgeSource) (cfg : BitVec 64),
    i < 1024 →
    s.dgeServes = true →
    (s.ctx i).state = .opened ∨ s.dgeOpenCount < s.dgeLimit →
    bit cfg.toNat 24 = false →
    bit cfg.toNat 2 = false →
    ∃ u : State, exec (.dgeCtxCfg i src cfg) s = .next u ∧ (u.ctx i).state = .opened ∧ (u.ctx i).cfg = cfgKept cfg ∧ (u.ctx i).msg = [] ∧ (u.ctx i).key = [] ∧ (u.ctx i).expectSet = false) ∧
  (∀ (s : State) (i : Nat) (src : DgeSource) (cfg : BitVec 64) (k : Bytes),
    i < 1024 →
    s.dgeServes = true →
    (s.ctx i).state = .opened ∨ s.dgeOpenCount < s.dgeLimit →
    bit cfg.toNat 24 = false →
    bit cfg.toNat 2 = true →
    s.dgeKey src cfg.toNat = some k →
    ∃ u : State, exec (.dgeCtxCfg i src cfg) s = .next u ∧ (u.ctx i).state = .opened ∧ (u.ctx i).key = k ∧ (u.ctx i).msg = []) ∧
  (∀ (s : State) (i : Nat) (w : BitVec 64),
    s.dgeServes = true →
    (s.ctx i).state = .opened →
    exec (.dgeCtxData i w) s = .next (s.setCtx i { s.ctx i with msg := (s.ctx i).msg ++ leBytes 8 w.toNat })) ∧
  (∀ (s : State) (i : Nat) (w : BitVec 64),
    s.dgeServes = true →
    (s.ctx i).state = .opened →
    exec (.dgeCtxLastData i w) s = .next (s.setCtx i { s.ctx i with last := w })) ∧
  (∀ (s : State) (i : Nat) (w : BitVec 64),
    s.dgeServes = false ∨ (s.ctx i).state = .idle ∨ (s.ctx i).state = .error →
    exec (.dgeCtxData i w) s = .next (s)) ∧
  (∀ (s : State) (i : Nat) (w : BitVec 64),
    s.dgeServes = false ∨ (s.ctx i).state = .idle ∨ (s.ctx i).state = .error →
    exec (.dgeCtxLastData i w) s = .next (s)) ∧
  (∀ (s : State) (i : Nat) (w : BitVec 64),
    s.dgeServes = false ∨ (s.ctx i).state = .idle ∨ (s.ctx i).state = .error →
    exec (.dgeCtxLastCnt i w) s = .next (s)) ∧
  (∀ (s : State) (i : Nat) (w : BitVec 64),
    s.dgeServes = true →
    (s.ctx i).state = .done →
    ∃ u : State, exec (.dgeCtxData i w) s = .next u ∧ (u.ctx i).state = .opened ∧ (u.ctx i).msg = leBytes 8 w.toNat ∧ (u.ctx i).cfg = (s.ctx i).cfg ∧ (u.ctx i).key = (s.ctx i).key) ∧
  (∀ (s : State) (i : Nat) (w : BitVec 64),
    s.dgeServes = true →
    (s.ctx i).state = .opened →
    s.dge.opens = [] →
    8 < field w.toNat 3 0 ∨ (field w.toNat 3 0 = 0 ∧ (s.ctx i).msg ≠ []) →
    ∃ u : State, exec (.dgeCtxLastCnt i w) s = .next u ∧ (u.ctx i).state = .error ∧ (u.ctx i).error = 1) ∧
  (∀ (s : State) (i : Nat) (w : BitVec 64),
    s.dgeServes = true →
    (s.ctx i).state = .opened →
    s.dge.opens = [] →
    field w.toNat 3 0 ≤ 8 →
    field w.toNat 3 0 ≠ 0 ∨ (s.ctx i).msg = [] →
    field (s.ctx i).cfg.toNat 1 0 ≠ 3 →
    bit (s.ctx i).cfg.toNat 2 = false →
    ∃ u : State, exec (.dgeCtxLastCnt i w) s = .next u ∧ (u.ctx i).state = .done ∧ (u.ctx i).outcome = 1 ∧ (u.ctx i).result = padTo 64 (digestOf (field (s.ctx i).cfg.toNat 1 0) ((s.ctx i).msg ++ (leBytes 8 (s.ctx i).last.toNat).take (field w.toNat 3 0)))) ∧
  (∀ (s : State) (i : Nat) (w : BitVec 64),
    s.dgeServes = true →
    (s.ctx i).state = .opened →
    s.dge.opens = [] →
    field w.toNat 3 0 ≤ 8 →
    field w.toNat 3 0 ≠ 0 ∨ (s.ctx i).msg = [] →
    field (s.ctx i).cfg.toNat 1 0 ≠ 3 →
    bit (s.ctx i).cfg.toNat 2 = true →
    bit (s.ctx i).cfg.toNat 24 = false →
    (s.ctx i).expectSet = false →
    ∃ u : State, exec (.dgeCtxLastCnt i w) s = .next u ∧ (u.ctx i).state = .done ∧ (u.ctx i).outcome = 4 ∧ (u.ctx i).result = []) ∧
  (∀ (s : State) (i : Nat) (w : BitVec 64),
    s.dgeServes = true →
    (s.ctx i).state = .opened →
    s.dge.opens = [] →
    field w.toNat 3 0 ≤ 8 →
    field w.toNat 3 0 ≠ 0 ∨ (s.ctx i).msg = [] →
    field (s.ctx i).cfg.toNat 1 0 ≠ 3 →
    bit (s.ctx i).cfg.toNat 2 = true →
    bit (s.ctx i).cfg.toNat 24 = false →
    (s.ctx i).expectSet = true →
    16 ≤ field (s.ctx i).cfg.toNat 23 17 →
    field (s.ctx i).cfg.toNat 23 17 ≤ 64 →
    ∃ u : State, exec (.dgeCtxLastCnt i w) s = .next u ∧ (u.ctx i).state = .done ∧ (u.ctx i).result = [] ∧ ((u.ctx i).outcome = 2 ∨ (u.ctx i).outcome = 3) ∧ ((u.ctx i).outcome = 2 ↔ (padTo 64 (hmacOf (field (s.ctx i).cfg.toNat 1 0) (s.ctx i).key ((s.ctx i).msg ++ (leBytes 8 (s.ctx i).last.toNat).take (field w.toNat 3 0)))).take (field (s.ctx i).cfg.toNat 23 17) = (s.ctx i).expected.take (field (s.ctx i).cfg.toNat 23 17))) ∧
  (∀ (s : State) (i : Nat) (w : BitVec 64),
    s.dgeServes = true →
    (s.ctx i).state = .opened →
    s.dge.opens = [] →
    field w.toNat 3 0 ≤ 8 →
    field w.toNat 3 0 ≠ 0 ∨ (s.ctx i).msg = [] →
    field (s.ctx i).cfg.toNat 1 0 ≠ 3 →
    bit (s.ctx i).cfg.toNat 2 = true →
    bit (s.ctx i).cfg.toNat 24 = true →
    ∃ u : State, exec (.dgeCtxLastCnt i w) s = .next u ∧ (u.ctx i).state = .done ∧ (u.ctx i).outcome = 5 ∧ (u.ctx i).result = [] ∧ (u.ctx i).sealedMac = hmacOf (field (s.ctx i).cfg.toNat 1 0) (s.ctx i).key ((s.ctx i).msg ++ (leBytes 8 (s.ctx i).last.toNat).take (field w.toNat 3 0))) ∧
  (∀ (s : State) (p a r : Nat) (ok : Bool),
    s.dgeRun p ≠ some a ∨ s.dge.images.contains r = false ∨ (s.ctx a).msg.length % 4096 ≠ 0 ∨ s.dgeServes = false →
    exec (.dgeContextSwitch p a r ok) s = .next (s)) ∧
  (∀ (s : State) (p a r : Nat) (ok : Bool),
    s.dgeRun p = some a →
    s.dge.images.contains r = true →
    (s.ctx a).msg.length % 4096 = 0 →
    s.dgeServes = true →
    s.psm.halt.withdrawn.contains (.dge p) = false →
    ok = true ∨ bit (s.ctx r).cfg.toNat 2 = false →
    exec (.dgeContextSwitch p a r ok) s = .next ({ s.saveImage a with dge := { (s.saveImage a).dge with saved := Mem.set [] (s.saveImage a).dge.saved r [], images := s.dge.images.filter (· != r) ++ [a], running := Mem.set none s.dge.running p (some r) } })) ∧
  (∀ (s : State) (p a r : Nat),
    s.dgeRun p = some a →
    s.dge.images.contains r = true →
    (s.ctx a).msg.length % 4096 = 0 →
    s.dgeServes = true →
    s.psm.halt.withdrawn.contains (.dge p) = false →
    bit (s.ctx r).cfg.toNat 2 = true →
    s.dgeLimit = 1024 →
    s.psm.halt.detections = [] →
    ∃ u : State, exec (.dgeContextSwitch p a r false) s = .next u ∧ (u.ctx r).state = .error ∧ (u.ctx r).error = 3 ∧ u.recd.next = s.recd.next + 1)

/-- A TRANSFORM with another NSID, a field outside its rules or too short an SGL ends with that status (R162, R419). A compression or
decompression takes the lowest free context, waits while there is none, or resumes its own held context; another's, or none, is an invalid
field (R418). Its output is written, or on an error with RETRACT replaced by the fill, and DW0 and DW1 report what was consumed and
produced and the context held (R415, R420). A compression writes the words of its stream that fit (R416); one that writes all of a final
stream is DONE, or LENGTH_MISMATCH where a Lovage stream's length differs from the declared one (R413), and one that does not is
OUTPUT_FULL and stays held; a verify mismatch stores the blocks from one that the step codes, once in a job (R412). A digest without a key
writes the digest, one with a key answers 1 for EQUAL and 2 for DIFFERENT and writes nothing (R390, R420). A cipher job without a usable
key ends as KEY_SLOT_INVALID or NONCE_EXHAUSTED (R356); an encryption writes its text, with nonce and tag for GCM; a decryption whose tag
differs ends as AUTH_FAIL_RETRACTED without output (R370, R371, R420). A unit of the input that fails its tag check ends its job,
reported, with what was written filled again (R26, R27). A held context that expires is discarded and recorded, unless a TRANSFORM that
may resume it has been accepted (R418, R425). -/
def Obligations.TransformsRunAndAnswer : Prop :=
  (∀ (s : State) (id : CmdId) (d : Bytes) (v : Bool) (c : Cmd) (h : TfHeader),
    s.live id false 0x9B = some c →
    tfHeader d = h →
    h.op = 0 →
    c.sqe.nsid ≠ 0xFFFFFFFF →
    exec (.transformCompress id d v none) s = .next (s.finish id .invalidNamespaceOrFormat)) ∧
  (∀ (s : State) (id : CmdId) (d : Bytes) (v : Bool) (c : Cmd) (h : TfHeader),
    s.live id false 0x9B = some c →
    tfHeader d = h →
    h.op = 0 →
    c.sqe.nsid = 0xFFFFFFFF →
    tfOk c h = false →
    exec (.transformCompress id d v none) s = .next (s.finish id .invalidField)) ∧
  (∀ (s : State) (id : CmdId) (d : Bytes) (c : Cmd) (h : TfHeader),
    s.live id false 0x9B = some c →
    tfHeader d = h →
    h.op = 1 →
    c.sqe.nsid ≠ 0xFFFFFFFF →
    exec (.transformDecompress id d none) s = .next (s.finish id .invalidNamespaceOrFormat)) ∧
  (∀ (s : State) (id : CmdId) (d : Bytes) (c : Cmd) (h : TfHeader),
    s.live id false 0x9B = some c →
    tfHeader d = h →
    h.op = 1 →
    c.sqe.nsid = 0xFFFFFFFF →
    tfOk c h = false →
    exec (.transformDecompress id d none) s = .next (s.finish id .invalidField)) ∧
  (∀ (s : State) (id : CmdId) (d : Bytes) (c : Cmd) (h : TfHeader),
    s.live id false 0x9B = some c →
    tfHeader d = h →
    h.op = 2 →
    c.sqe.nsid ≠ 0xFFFFFFFF →
    exec (.transformDigest id d none) s = .next (s.finish id .invalidNamespaceOrFormat)) ∧
  (∀ (s : State) (id : CmdId) (d : Bytes) (c : Cmd) (h : TfHeader),
    s.live id false 0x9B = some c →
    tfHeader d = h →
    h.op = 2 →
    c.sqe.nsid = 0xFFFFFFFF →
    tfOk c h = false →
    exec (.transformDigest id d none) s = .next (s.finish id .invalidField)) ∧
  (∀ (s : State) (id : CmdId) (d : Bytes) (c : Cmd) (h : TfHeader),
    s.live id false 0x9B = some c →
    tfHeader d = h →
    h.op = 3 →
    c.sqe.nsid ≠ 0xFFFFFFFF →
    exec (.transformEncrypt id d none) s = .next (s.finish id .invalidNamespaceOrFormat)) ∧
  (∀ (s : State) (id : CmdId) (d : Bytes) (c : Cmd) (h : TfHeader),
    s.live id false 0x9B = some c →
    tfHeader d = h →
    h.op = 3 →
    c.sqe.nsid = 0xFFFFFFFF →
    tfOk c h = false →
    exec (.transformEncrypt id d none) s = .next (s.finish id .invalidField)) ∧
  (∀ (s : State) (id : CmdId) (d : Bytes) (c : Cmd) (h : TfHeader),
    s.live id false 0x9B = some c →
    tfHeader d = h →
    h.op = 4 →
    c.sqe.nsid ≠ 0xFFFFFFFF →
    exec (.transformDecrypt id d none) s = .next (s.finish id .invalidNamespaceOrFormat)) ∧
  (∀ (s : State) (id : CmdId) (d : Bytes) (c : Cmd) (h : TfHeader),
    s.live id false 0x9B = some c →
    tfHeader d = h →
    h.op = 4 →
    c.sqe.nsid = 0xFFFFFFFF →
    tfOk c h = false →
    exec (.transformDecrypt id d none) s = .next (s.finish id .invalidField)) ∧
  (∀ (s : State) (id : CmdId) (d : Bytes) (v : Bool) (c : Cmd) (h : TfHeader),
    s.live id false 0x9B = some c →
    tfHeader d = h →
    5 ≤ h.op →
    c.sqe.nsid = 0xFFFFFFFF →
    exec (.transformCompress id d v none) s = .next (s.finish id .invalidField)) ∧
  (∀ (s : State) (id : CmdId) (d : Bytes) (v : Bool) (c : Cmd) (h : TfHeader),
    s.live id false 0x9B = some c →
    tfHeader d = h →
    h.op = 0 →
    c.sqe.nsid = 0xFFFFFFFF →
    tfOk c h = true →
    sglShort c.sqe (128 + h.inLen) = false →
    h.cont = true →
    s.heldCtx h.context = none →
    exec (.transformCompress id d v none) s = .next (s.finish id .invalidField)) ∧
  (∀ (s : State) (id : CmdId) (d : Bytes) (v : Bool) (c : Cmd) (h : TfHeader) (x : CmpCtx),
    s.live id false 0x9B = some c →
    tfHeader d = h →
    h.op = 0 →
    c.sqe.nsid = 0xFFFFFFFF →
    tfOk c h = true →
    sglShort c.sqe (128 + h.inLen) = false →
    h.cont = true →
    s.heldCtx h.context = some x →
    x.func ≠ c.func ∨ x.scull.isSome = true ∨ x.op ≠ h.op →
    exec (.transformCompress id d v none) s = .next (s.finish id .invalidField)) ∧
  (∀ (s : State) (id : CmdId) (d : Bytes) (v : Bool) (c : Cmd) (h : TfHeader),
    s.live id false 0x9B = some c →
    tfHeader d = h →
    h.op = 0 →
    c.sqe.nsid = 0xFFFFFFFF →
    tfOk c h = true →
    sglShort c.sqe (128 + h.inLen) = false →
    h.cont = false →
    s.freeCtx = none →
    exec (.transformCompress id d v none) s = .next (s)) ∧
  (∀ (s : State) (id : CmdId) (d : Bytes) (v : Bool) (c : Cmd) (h : TfHeader) (x : CmpCtx) (t : State) (r : CmpStep),
    s.live id false 0x9B = some c →
    tfHeader d = h →
    h.op = 0 →
    c.sqe.nsid = 0xFFFFFFFF →
    tfOk c h = true →
    sglShort c.sqe (128 + h.inLen) = false →
    h.cont = true →
    s.heldCtx h.context = some x →
    x.func = c.func →
    x.scull = none →
    x.op = h.op →
    (s.cmpRun h.context true x (slice d 128 h.inLen) h.more (tfOutLen c.sqe) v).1 = t →
    (s.cmpRun h.context true x (slice d 128 h.inLen) h.more (tfOutLen c.sqe) v).2 = r →
    exec (.transformCompress id d v none) s = .next (t.cmpFinish id c h h.context r)) ∧
  (∀ (s : State) (id : CmdId) (d : Bytes) (v : Bool) (c : Cmd) (h : TfHeader) (i : Nat) (t : State) (r : CmpStep),
    s.live id false 0x9B = some c →
    tfHeader d = h →
    h.op = 0 →
    c.sqe.nsid = 0xFFFFFFFF →
    tfOk c h = true →
    sglShort c.sqe (128 + h.inLen) = false →
    h.cont = false →
    s.freeCtx = some i →
    ((s.cmpRun i false { func := c.func, gen := c.gen, op := h.op, format := h.format, windowLog := h.windowLog, depth := field h.n 27 20 + 1, lazy := bit h.n 28, declLen := (if h.op = 0 ∧ h.format = 3 ∧ h.declLen = 0 then h.inLen else h.declLen) } (slice d 128 h.inLen) h.more (tfOutLen c.sqe) v).1 = t) →
    ((s.cmpRun i false { func := c.func, gen := c.gen, op := h.op, format := h.format, windowLog := h.windowLog, depth := field h.n 27 20 + 1, lazy := bit h.n 28, declLen := (if h.op = 0 ∧ h.format = 3 ∧ h.declLen = 0 then h.inLen else h.declLen) } (slice d 128 h.inLen) h.more (tfOutLen c.sqe) v).2 = r) →
    exec (.transformCompress id d v none) s = .next (t.cmpFinish id c h i r)) ∧
  (∀ (s : State) (id : CmdId) (d : Bytes) (c : Cmd) (h : TfHeader),
    s.live id false 0x9B = some c →
    tfHeader d = h →
    h.op = 1 →
    c.sqe.nsid = 0xFFFFFFFF →
    tfOk c h = true →
    sglShort c.sqe (128 + h.inLen) = false →
    h.cont = true →
    s.heldCtx h.context = none →
    exec (.transformDecompress id d none) s = .next (s.finish id .invalidField)) ∧
  (∀ (s : State) (id : CmdId) (d : Bytes) (c : Cmd) (h : TfHeader) (x : CmpCtx),
    s.live id false 0x9B = some c →
    tfHeader d = h →
    h.op = 1 →
    c.sqe.nsid = 0xFFFFFFFF →
    tfOk c h = true →
    sglShort c.sqe (128 + h.inLen) = false →
    h.cont = true →
    s.heldCtx h.context = some x →
    x.func ≠ c.func ∨ x.scull.isSome = true ∨ x.op ≠ h.op →
    exec (.transformDecompress id d none) s = .next (s.finish id .invalidField)) ∧
  (∀ (s : State) (id : CmdId) (d : Bytes) (c : Cmd) (h : TfHeader),
    s.live id false 0x9B = some c →
    tfHeader d = h →
    h.op = 1 →
    c.sqe.nsid = 0xFFFFFFFF →
    tfOk c h = true →
    sglShort c.sqe (128 + h.inLen) = false →
    h.cont = false →
    s.freeCtx = none →
    exec (.transformDecompress id d none) s = .next (s)) ∧
  (∀ (s : State) (id : CmdId) (d : Bytes) (c : Cmd) (h : TfHeader) (x : CmpCtx) (t : State) (r : CmpStep),
    s.live id false 0x9B = some c →
    tfHeader d = h →
    h.op = 1 →
    c.sqe.nsid = 0xFFFFFFFF →
    tfOk c h = true →
    sglShort c.sqe (128 + h.inLen) = false →
    h.cont = true →
    s.heldCtx h.context = some x →
    x.func = c.func →
    x.scull = none →
    x.op = h.op →
    (s.cmpRun h.context true x (slice d 128 h.inLen) h.more (tfOutLen c.sqe) true).1 = t →
    (s.cmpRun h.context true x (slice d 128 h.inLen) h.more (tfOutLen c.sqe) true).2 = r →
    exec (.transformDecompress id d none) s = .next (t.cmpFinish id c h h.context r)) ∧
  (∀ (s : State) (id : CmdId) (d : Bytes) (c : Cmd) (h : TfHeader) (i : Nat) (t : State) (r : CmpStep),
    s.live id false 0x9B = some c →
    tfHeader d = h →
    h.op = 1 →
    c.sqe.nsid = 0xFFFFFFFF →
    tfOk c h = true →
    sglShort c.sqe (128 + h.inLen) = false →
    h.cont = false →
    s.freeCtx = some i →
    ((s.cmpRun i false { func := c.func, gen := c.gen, op := h.op, format := h.format, windowLog := h.windowLog, depth := field h.n 27 20 + 1, lazy := bit h.n 28, declLen := (if h.op = 0 ∧ h.format = 3 ∧ h.declLen = 0 then h.inLen else h.declLen) } (slice d 128 h.inLen) h.more (tfOutLen c.sqe) true).1 = t) →
    ((s.cmpRun i false { func := c.func, gen := c.gen, op := h.op, format := h.format, windowLog := h.windowLog, depth := field h.n 27 20 + 1, lazy := bit h.n 28, declLen := (if h.op = 0 ∧ h.format = 3 ∧ h.declLen = 0 then h.inLen else h.declLen) } (slice d 128 h.inLen) h.more (tfOutLen c.sqe) true).2 = r) →
    exec (.transformDecompress id d none) s = .next (t.cmpFinish id c h i r)) ∧
  (∀ (s : State) (id : CmdId) (c : Cmd) (h : TfHeader) (i : Nat) (r : CmpStep),
    r.result = .done ∨ r.result = .outputFull ∨ h.retract = false →
    s.cmpFinish id c h i r = (s.hostWrite c.func (tfOut c.sqe) r.out).finish id r.result.status (BitVec.ofNat 32 r.consumed) (tfDw1 r.out.length (r.hold.map (fun _ => i)) r.fallback 0)) ∧
  (∀ (s : State) (id : CmdId) (c : Cmd) (h : TfHeader) (i k : Nat) (r : CmpStep),
    r.result = .checkFail k →
    h.retract = true →
    s.cmpFinish id c h i r = (s.outRetracted c r.out h.fill).finish id .checkFail (BitVec.ofNat 32 r.consumed) (tfDw1 r.out.length (r.hold.map (fun _ => i)) r.fallback 0)) ∧
  (∀ (c : CmpCtx) (new : Bytes) (more : Bool) (n : Nat) (ws : Words) (bs : List Words),
    c.ended = false →
    c.stream (c.input ++ new) (!more) = ws →
    c.blocks (c.input ++ new) (!more) = bs →
    more = false →
    fitting (8 * (c.produced + n)) ws = ws →
    c.format ≠ 3 ∨ (c.input ++ new).length = c.declLen →
    compressStep c new more n = { result := .done, out := (packBits (fitting (8 * (c.produced + n)) ws).flatten).drop c.produced, consumed := new.length, hold := none, coded := bs.length, fallback := c.fallback.isSome }) ∧
  (∀ (c : CmpCtx) (new : Bytes) (more : Bool) (n : Nat) (ws : Words) (bs : List Words),
    c.ended = false →
    c.stream (c.input ++ new) (!more) = ws →
    c.blocks (c.input ++ new) (!more) = bs →
    more = false →
    fitting (8 * (c.produced + n)) ws = ws →
    c.format = 3 →
    (c.input ++ new).length ≠ c.declLen →
    compressStep c new more n = { result := .lengthMismatch, out := (packBits (fitting (8 * (c.produced + n)) ws).flatten).drop c.produced, consumed := new.length, hold := none, coded := bs.length, fallback := c.fallback.isSome }) ∧
  (∀ (c : CmpCtx) (new : Bytes) (more : Bool) (n : Nat) (ws : Words) (bs : List Words),
    c.ended = false →
    c.stream (c.input ++ new) (!more) = ws →
    c.blocks (c.input ++ new) (!more) = bs →
    more = true →
    fitting (8 * (c.produced + n)) ws = ws →
    compressStep c new more n = { result := .done, out := (packBits (fitting (8 * (c.produced + n)) ws).flatten).drop c.produced, consumed := new.length, hold := some { c with input := c.input ++ new, produced := c.produced + ((packBits (fitting (8 * (c.produced + n)) ws).flatten).drop c.produced).length, consumed := new.length, coded := bs.length }, coded := bs.length, fallback := c.fallback.isSome }) ∧
  (∀ (c : CmpCtx) (new : Bytes) (more : Bool) (n : Nat) (ws : Words) (bs : List Words),
    c.ended = false →
    c.stream (c.input ++ new) (!more) = ws →
    c.blocks (c.input ++ new) (!more) = bs →
    (fitting (8 * (c.produced + n)) ws).length ≠ ws.length →
    (compressStep c new more n).result = .outputFull ∧ (compressStep c new more n).out = (packBits (fitting (8 * (c.produced + n)) ws).flatten).drop c.produced ∧ (compressStep c new more n).hold.isSome = true) ∧
  (∀ (n : Nat) (ws : Words),
    fitting n ws <+: ws ∧ (fitting n ws).flatten.length ≤ n ∧ ((ws.drop (fitting n ws).length).head?.all (fun w => decide (n < (fitting n ws).flatten.length + w.length)) = true)) ∧
  (∀ (s : State) (c : CmpCtx) (n : Nat),
    c.fallback.isSome = true ∨ n ≤ c.coded →
    s.verifyMismatch c n = (s, c)) ∧
  (∀ (s : State) (c : CmpCtx) (n : Nat),
    c.fallback = none →
    c.coded < n →
    ∃ b, (s.verifyMismatch c n).2.fallback = some b ∧ c.coded ≤ b ∧ b < n) ∧
  (∀ (c : CmpCtx) (new : Bytes) (more : Bool) (n : Nat),
    (decodeStream c.format c.declLen (c.produced + n) (c.input ++ new)).stop = .done →
    decompressStep c new more n = { result := .done, out := (decodeStream c.format c.declLen (c.produced + n) (c.input ++ new)).out.drop c.produced, consumed := (decodeStream c.format c.declLen (c.produced + n) (c.input ++ new)).used - c.input.length, hold := none }) ∧
  (∀ (s : State) (id : CmdId) (d : Bytes) (c : Cmd) (h : TfHeader),
    s.live id false 0x9B = some c →
    tfHeader d = h →
    h.op = 2 →
    c.sqe.nsid = 0xFFFFFFFF →
    tfOk c h = true →
    sglShort c.sqe (128 + h.inLen) = false →
    h.keyed = false →
    tfOutLen c.sqe < digestLen h.alg →
    exec (.transformDigest id d none) s = .next (s.finish id .outputFull)) ∧
  (∀ (s : State) (id : CmdId) (d : Bytes) (c : Cmd) (h : TfHeader),
    s.live id false 0x9B = some c →
    tfHeader d = h →
    h.op = 2 →
    c.sqe.nsid = 0xFFFFFFFF →
    tfOk c h = true →
    sglShort c.sqe (128 + h.inLen) = false →
    h.keyed = false →
    digestLen h.alg ≤ tfOutLen c.sqe →
    exec (.transformDigest id d none) s = .next ((s.hostWrite c.func (tfOut c.sqe) (digestOf h.alg (slice d 128 h.inLen))).finish id .success (BitVec.ofNat 32 (slice d 128 h.inLen).length) (tfDw1 (digestLen h.alg) none false 0))) ∧
  (∀ (s : State) (id : CmdId) (d : Bytes) (c : Cmd) (h : TfHeader),
    s.live id false 0x9B = some c →
    tfHeader d = h →
    h.op = 2 →
    c.sqe.nsid = 0xFFFFFFFF →
    tfOk c h = true →
    sglShort c.sqe (128 + h.inLen) = false →
    h.keyed = true →
    s.dgeKey .feeder (4 + h.slot * 32 + c.func * 2 ^ 32 + c.epoch.toNat * 2 ^ 48) = none →
    exec (.transformDigest id d none) s = .next (s.finish id .keySlotInvalid)) ∧
  (∀ (s : State) (id : CmdId) (d : Bytes) (c : Cmd) (h : TfHeader) (k : Bytes),
    s.live id false 0x9B = some c →
    tfHeader d = h →
    h.op = 2 →
    c.sqe.nsid = 0xFFFFFFFF →
    tfOk c h = true →
    sglShort c.sqe (128 + h.inLen) = false →
    h.keyed = true →
    s.dgeKey .feeder (4 + h.slot * 32 + c.func * 2 ^ 32 + c.epoch.toNat * 2 ^ 48) = some k →
    (padTo 64 (hmacOf h.alg k (slice d 128 h.inLen))).take h.expectLen = (slice d 64 64).take h.expectLen →
    exec (.transformDigest id d none) s = .next (s.finish id .success (BitVec.ofNat 32 (slice d 128 h.inLen).length) (tfDw1 0 none false 1))) ∧
  (∀ (s : State) (id : CmdId) (d : Bytes) (c : Cmd) (h : TfHeader) (k : Bytes),
    s.live id false 0x9B = some c →
    tfHeader d = h →
    h.op = 2 →
    c.sqe.nsid = 0xFFFFFFFF →
    tfOk c h = true →
    sglShort c.sqe (128 + h.inLen) = false →
    h.keyed = true →
    s.dgeKey .feeder (4 + h.slot * 32 + c.func * 2 ^ 32 + c.epoch.toNat * 2 ^ 48) = some k →
    (padTo 64 (hmacOf h.alg k (slice d 128 h.inLen))).take h.expectLen ≠ (slice d 64 64).take h.expectLen →
    exec (.transformDigest id d none) s = .next (s.finish id .success (BitVec.ofNat 32 (slice d 128 h.inLen).length) (tfDw1 0 none false 2))) ∧
  (∀ (s : State) (id : CmdId) (d : Bytes) (c : Cmd) (h : TfHeader),
    s.live id false 0x9B = some c →
    tfHeader d = h →
    h.op = 3 →
    c.sqe.nsid = 0xFFFFFFFF →
    tfOk c h = true →
    sglShort c.sqe (128 + h.inLen) = false →
    tfOutLen c.sqe < tfCipherOut h →
    exec (.transformEncrypt id d none) s = .next (s.finish id .outputFull)) ∧
  (∀ (s : State) (id : CmdId) (d : Bytes) (c : Cmd) (h : TfHeader) (e : CpeEntry),
    s.live id false 0x9B = some c →
    tfHeader d = h →
    h.op = 3 →
    c.sqe.nsid = 0xFFFFFFFF →
    tfOk c h = true →
    sglShort c.sqe (128 + h.inLen) = false →
    tfCipherOut h ≤ tfOutLen c.sqe →
    tfEntry c h = e →
    s.cpeKey e = .error 0x02 →
    exec (.transformEncrypt id d none) s = .next (s.finish id .nonceExhausted)) ∧
  (∀ (s : State) (id : CmdId) (d : Bytes) (c : Cmd) (h : TfHeader) (e : CpeEntry),
    s.live id false 0x9B = some c →
    tfHeader d = h →
    h.op = 3 →
    c.sqe.nsid = 0xFFFFFFFF →
    tfOk c h = true →
    sglShort c.sqe (128 + h.inLen) = false →
    tfCipherOut h ≤ tfOutLen c.sqe →
    tfEntry c h = e →
    s.cpeKey e = .error 0x01 →
    exec (.transformEncrypt id d none) s = .next (s.finish id .keySlotInvalid)) ∧
  (∀ (s : State) (id : CmdId) (d : Bytes) (c : Cmd) (h : TfHeader) (e : CpeEntry) (k : Key) (out tag : Bytes),
    s.live id false 0x9B = some c →
    tfHeader d = h →
    h.op = 3 →
    c.sqe.nsid = 0xFFFFFFFF →
    tfOk c h = true →
    sglShort c.sqe (128 + h.inLen) = false →
    tfCipherOut h ≤ tfOutLen c.sqe →
    tfEntry c h = e →
    s.cpeKey e = .ok k →
    h.mode ≠ 1 →
    ({ e with key := k.bytes, nonce := leBytes 16 (ceIv e.entry.toNat) } : CpeEntry).run (slice d 128 h.inLen) = (out, tag) →
    exec (.transformEncrypt id d none) s = .next ((s.hostWrite c.func (tfOut c.sqe) out).finish id .success (BitVec.ofNat 32 (slice d 128 h.inLen).length) (tfDw1 out.length none false 0))) ∧
  (∀ (s : State) (id : CmdId) (d : Bytes) (c : Cmd) (h : TfHeader),
    s.live id false 0x9B = some c →
    tfHeader d = h →
    h.op = 4 →
    c.sqe.nsid = 0xFFFFFFFF →
    tfOk c h = true →
    sglShort c.sqe (128 + h.inLen) = false →
    tfOutLen c.sqe < tfCipherOut h →
    exec (.transformDecrypt id d none) s = .next (s.finish id .outputFull)) ∧
  (∀ (s : State) (id : CmdId) (d : Bytes) (c : Cmd) (h : TfHeader) (e : CpeEntry),
    s.live id false 0x9B = some c →
    tfHeader d = h →
    h.op = 4 →
    c.sqe.nsid = 0xFFFFFFFF →
    tfOk c h = true →
    sglShort c.sqe (128 + h.inLen) = false →
    tfCipherOut h ≤ tfOutLen c.sqe →
    tfEntry c h = e →
    s.cpeKey e = .error 0x02 →
    exec (.transformDecrypt id d none) s = .next (s.finish id .nonceExhausted)) ∧
  (∀ (s : State) (id : CmdId) (d : Bytes) (c : Cmd) (h : TfHeader) (e : CpeEntry),
    s.live id false 0x9B = some c →
    tfHeader d = h →
    h.op = 4 →
    c.sqe.nsid = 0xFFFFFFFF →
    tfOk c h = true →
    sglShort c.sqe (128 + h.inLen) = false →
    tfCipherOut h ≤ tfOutLen c.sqe →
    tfEntry c h = e →
    s.cpeKey e = .error 0x01 →
    exec (.transformDecrypt id d none) s = .next (s.finish id .keySlotInvalid)) ∧
  (∀ (s : State) (id : CmdId) (d : Bytes) (c : Cmd) (h : TfHeader) (e : CpeEntry) (k : Key) (out tag : Bytes),
    s.live id false 0x9B = some c →
    tfHeader d = h →
    h.op = 4 →
    c.sqe.nsid = 0xFFFFFFFF →
    tfOk c h = true →
    sglShort c.sqe (128 + h.inLen) = false →
    tfCipherOut h ≤ tfOutLen c.sqe →
    tfEntry c h = e →
    s.cpeKey e = .ok k →
    h.mode ≠ 1 →
    ({ e with key := k.bytes, nonce := leBytes 16 (ceIv e.entry.toNat) } : CpeEntry).run (slice d 128 h.inLen) = (out, tag) →
    exec (.transformDecrypt id d none) s = .next ((s.hostWrite c.func (tfOut c.sqe) out).finish id .success (BitVec.ofNat 32 (slice d 128 h.inLen).length) (tfDw1 out.length none false 0))) ∧
  (∀ (s : State) (id : CmdId) (d : Bytes) (c : Cmd) (h : TfHeader) (e : CpeEntry) (k : Key) (nonce out tag : Bytes) (t : State),
    s.live id false 0x9B = some c →
    tfHeader d = h →
    h.op = 3 →
    c.sqe.nsid = 0xFFFFFFFF →
    tfOk c h = true →
    sglShort c.sqe (128 + h.inLen) = false →
    tfCipherOut h ≤ tfOutLen c.sqe →
    tfEntry c h = e →
    h.mode = 1 →
    s.cpeKey e = .ok k →
    (s.bindNonce e k).1 = nonce →
    (s.bindNonce e k).2 = t →
    ({ e with key := k.bytes, nonce := nonce } : CpeEntry).run (slice d 128 h.inLen) = (out, tag) →
    exec (.transformEncrypt id d none) s = .next ((t.hostWrite c.func (tfOut c.sqe) (out ++ nonce ++ tag.take h.tagLen)).finish id .success (BitVec.ofNat 32 (slice d 128 h.inLen).length) (tfDw1 (out ++ nonce ++ tag.take h.tagLen).length none false 0))) ∧
  (∀ (s : State) (id : CmdId) (d : Bytes) (c : Cmd) (h : TfHeader) (e : CpeEntry) (k : Key) (out tag : Bytes),
    s.live id false 0x9B = some c →
    tfHeader d = h →
    h.op = 4 →
    c.sqe.nsid = 0xFFFFFFFF →
    tfOk c h = true →
    sglShort c.sqe (128 + h.inLen) = false →
    tfCipherOut h ≤ tfOutLen c.sqe →
    tfEntry c h = e →
    h.mode = 1 →
    ceReleases e.entry.toNat = false →
    s.cpeKey e = .ok k →
    ({ e with key := k.bytes, nonce := leBytes 12 (ceIv e.entry.toNat) } : CpeEntry).run (slice d 128 h.inLen) = (out, tag) →
    tag.take (ceTagLen e.entry.toNat) ≠ leBytes (ceTagLen e.entry.toNat) (ceTag e.entry.toNat) →
    ∃ u : State, exec (.transformDecrypt id d none) s = .next u ∧ u.ResultIs id { status := .authFailRetracted, dw0 := BitVec.ofNat 32 (slice d 128 h.inLen).length } ∧ u.hif.toHost = s.hif.toHost) ∧
  (∀ (s : State) (i : Nat),
    s.heldCtx i = none →
    exec (.cmpContextExpired i) s = .next (s)) ∧
  (∀ (s : State) (i : Nat) (x : CmpCtx),
    s.heldCtx i = some x →
    s.mayResume x = false →
    exec (.cmpContextExpired i) s = .next ((s.setHeld i none).raise evCmpContextExpired x.func [(1, x.func), (2, i), (4, x.consumed), (4, x.produced)])) ∧
  (∀ (s : State) (i : Nat) (x : CmpCtx),
    s.heldCtx i = some x →
    s.mayResume x = true →
    exec (.cmpContextExpired i) s = .next (s)) ∧
  (∀ (s : State) (id : CmdId) (d : Bytes) (b : TagFault) (c : Cmd) (h : TfHeader),
    s.live id false 0x9B = some c →
    tfHeader d = h →
    h.op = 2 →
    c.sqe.nsid = 0xFFFFFFFF →
    tfOk c h = true →
    sglShort c.sqe (128 + h.inLen) = false →
    componentOk b.component = true →
    exec (.transformDigest id d (some b)) s = .next ((s.tfReport c b).finish id .internalContained)) ∧
  (∀ (s : State) (id : CmdId) (d : Bytes) (b : TagFault) (c : Cmd) (h : TfHeader),
    s.live id false 0x9B = some c →
    tfHeader d = h →
    h.op = 3 →
    c.sqe.nsid = 0xFFFFFFFF →
    tfOk c h = true →
    sglShort c.sqe (128 + h.inLen) = false →
    componentOk b.component = true →
    exec (.transformEncrypt id d (some b)) s = .next ((s.tfReport c b).finish id .internalContained)) ∧
  (∀ (s : State) (id : CmdId) (d : Bytes) (b : TagFault) (c : Cmd) (h : TfHeader),
    s.live id false 0x9B = some c →
    tfHeader d = h →
    h.op = 4 →
    c.sqe.nsid = 0xFFFFFFFF →
    tfOk c h = true →
    sglShort c.sqe (128 + h.inLen) = false →
    componentOk b.component = true →
    exec (.transformDecrypt id d (some b)) s = .next ((s.tfReport c b).finish id .internalContained)) ∧
  (∀ (s : State) (id : CmdId) (d : Bytes) (v : Bool) (b : TagFault) (c : Cmd) (h : TfHeader) (x : CmpCtx),
    s.live id false 0x9B = some c →
    tfHeader d = h →
    h.op = 0 →
    c.sqe.nsid = 0xFFFFFFFF →
    tfOk c h = true →
    sglShort c.sqe (128 + h.inLen) = false →
    h.cont = true →
    s.heldCtx h.context = some x →
    x.func = c.func →
    x.scull = none →
    x.op = h.op →
    componentOk b.component = true →
    exec (.transformCompress id d v (some b)) s = .next (s.cmpJob id c h h.context x (slice d 128 h.inLen) v (some b))) ∧
  (∀ (s : State) (id : CmdId) (d : Bytes) (b : TagFault) (c : Cmd) (h : TfHeader) (x : CmpCtx) (r : CmpStep),
    s.live id false 0x9B = some c →
    tfHeader d = h →
    h.op = 1 →
    c.sqe.nsid = 0xFFFFFFFF →
    tfOk c h = true →
    sglShort c.sqe (128 + h.inLen) = false →
    h.cont = true →
    s.heldCtx h.context = some x →
    x.func = c.func →
    x.scull = none →
    x.op = h.op →
    componentOk b.component = true →
    badStep x (slice d 128 h.inLen) (tfOutLen c.sqe) (4096 * b.unitNo) = some r →
    exec (.transformDecompress id d (some b)) s = .next ((((s.setHeld h.context none).cmpOut c h false r.out).tfReport c b).finish id .internalContained (BitVec.ofNat 32 r.consumed) (tfDw1 r.out.length none false 0)))

/-- The supply-fail warning below 1.10 V takes BOOT to HOLD and a running mode to DRAIN (R527, R530). The fence rises below 0.96 V and lets a
channel's write protect go low (R529). DRAIN_COMPLETE is recorded and leads to HOLD once the programs have ended or the fence is up
(R530). A rail out of limits raises the fence and ends in SAFE-HALT, once (R527). MAIN_VALID needs 1.14 V, POR_N high and a cooled device
and starts BOOT, which counts a power cycle (R527, R537, R614, R623). BOOT_COMPLETE enters SERVICE, or DEGRADED with a cause, closes page
0 and releases FAULT_N (R381, R537, R614). The hold-up test takes its three voltages in order, and in BOOT is recorded (R534, R535). REST
is entered from an idle SERVICE and left for SERVICE (R538, R539). The always-on domain switches its input, resets when both are lost, and
leaves reset for HOLD with TEST_EN sampled, when POR_N is high (R528, R537, R615, R617, R625). -/
def Obligations.SuppliesAndModesMoveTheDevice : Prop :=
  (∀ (s : State) (v : Nat),
    1100 ≤ v ∨ s.psm.mode = .off →
    exec (.supplyFailWarning v) s = .next (s)) ∧
  (∀ (s : State) (v : Nat),
    v < 1100 →
    s.psm.mode = .service ∨ s.psm.mode = .rest ∨ s.psm.mode = .degraded ∨ s.psm.mode = .maintenance ∨ s.psm.mode = .safeHalt →
    ∃ u : State, exec (.supplyFailWarning v) s = .next u ∧ u.psm.mode = .drain ∧ u.psm.warning = true ∧ u.psm.pins.vsenseMv = v ∧ u.hif.cmds = [] ∧ u.psm.pins.ppInEn = true ∧ u.psm.pins.bleed = false ∧ u.dram.cells = s.dram.cells) ∧
  (∀ (s : State) (v : Nat),
    v < 1100 →
    s.psm.mode = .boot →
    s.psm.por = none →
    ∃ u : State, exec (.supplyFailWarning v) s = .next u ∧ u.psm.mode = .hold ∧ u.hif.cmds = [] ∧ u.dram.cells = []) ∧
  (∀ (s : State) (v : Nat),
    v < 1100 →
    s.psm.mode = .drain ∨ s.psm.mode = .hold →
    exec (.supplyFailWarning v) s = .next ({ s with psm := { s.psm with pins := { s.psm.pins with vsenseMv := v } } })) ∧
  (∀ (s : State) (v ms : Nat),
    960 ≤ v ∨ s.psm.mode = .off →
    exec (.nvWriteFence v ms) s = .next (s)) ∧
  (∀ (s : State) (v ms : Nat),
    v < 960 →
    s.psm.mode ≠ .off →
    ∃ u : State, exec (.nvWriteFence v ms) s = .next u ∧ u.psm.fence = true ∧ u.psm.pins.vsenseMv = v ∧ u.psm.mode = s.psm.mode ∧ u.mayProgram = false ∧ u.nss = s.nss ∧ u.flash = s.flash) ∧
  (∀ (s : State) (ch : Nat),
    s.psm.fence = false →
    exec (.flashWpAssert ch) s = .next (s)) ∧
  (∀ (s : State) (ch : Nat),
    s.psm.fence = true →
    ∃ u : State, exec (.flashWpAssert ch) s = .next u ∧ Mem.get {} u.flash.chans ch = { Mem.get {} s.flash.chans ch with wpHigh := false } ∧ (∀ k, k ≠ ch → Mem.get {} u.flash.chans k = Mem.get {} s.flash.chans k)) ∧
  (∀ (s : State) (ms v : Nat),
    s.psm.mode ≠ .drain ∨ (s.psm.fence = false ∧ s.flashQuiet = false) →
    exec (.drainComplete ms v) s = .next (s)) ∧
  (∀ (s : State) (ms v : Nat),
    s.psm.mode = .drain →
    s.psm.fence = true ∨ s.flashQuiet = true →
    s.psm.por = none →
    s.inflight = [] →
    s.objs.undone = [] →
    ∃ u : State, exec (.drainComplete ms v) s = .next u ∧ u.psm.mode = .hold ∧ u.dram.cells = [] ∧ s.recd.next + 2 ≤ u.recd.next ∧ u.nss.ledger = s.nss.ledger) ∧
  (∀ (s : State) (r mv ms : Nat) (up : Bool),
    4 < r ∨ s.psm.mode = .off ∨ s.psm.mode = .hold ∨ s.psm.rails.contains r = true →
    exec (.railLimitTrip r mv ms up) s = .next (s)) ∧
  (∀ (s : State) (r mv ms : Nat),
    railNominal r * 94 ≤ mv * 100 →
    mv * 100 ≤ railNominal r * 108 →
    exec (.railLimitTrip r mv ms true) s = .next s ∧ exec (.railLimitTrip r mv ms false) s = .next s) ∧
  (∀ (s : State) (r mv ms : Nat),
    r ≤ 4 →
    railNominal r * 108 < mv * 100 →
    s.psm.rails.contains r = false →
    s.psm.mode = .boot ∨ s.psm.mode.live = true →
    s.psm.mode ≠ .safeHalt →
    ∃ u : State, exec (.railLimitTrip r mv ms true) s = .next u ∧ u.psm.fence = true ∧ u.psm.mode = .safeHalt ∧ u.psm.halt.code = evSupplyFault.code ∧ u.psm.halt.safeDrain = false ∧ r ∈ u.psm.rails) ∧
  (∀ (s : State) (r mv ms : Nat),
    r ≤ 4 →
    mv * 100 < railNominal r * 94 →
    s.psm.rails.contains r = false →
    s.psm.mode = .boot ∨ s.psm.mode.live = true →
    s.psm.mode ≠ .safeHalt →
    ∃ u : State, exec (.railLimitTrip r mv ms false) s = .next u ∧ u.psm.fence = true ∧ u.psm.mode = .safeHalt ∧ u.psm.halt.code = evSupplyFault.code ∧ u.psm.halt.safeDrain = false ∧ r ∈ u.psm.rails) ∧
  (∀ (s : State) (v : Nat),
    s.psm.mode ≠ .hold ∨ v < 1140 ∨ s.psm.pins.porLow = true ∨ (s.psm.thermalHold = true ∧ 368 ≤ nth 0 s.therm.sensors 0) →
    exec (.mainValid v) s = .next (s)) ∧
  (∀ (s : State) (v : Nat),
    s.psm.mode = .hold →
    1140 ≤ v →
    s.psm.pins.porLow = false →
    s.psm.thermalHold = false ∨ nth 0 s.therm.sensors 0 < 368 →
    s.recd.aonLost = false →
    s.recd.powerCycles < 0xFFFFFFFF →
    s.nvs.trial = false →
    s.bootRole = some 0 →
    ∃ u : State, exec (.mainValid v) s = .next u ∧ u.psm.mode = .boot ∧ u.recd.powerCycles = s.recd.powerCycles + 1 ∧ u.psm.fence = false ∧ u.psm.warning = false ∧ u.psm.holdup.volat = true ∧ u.psm.holdup.passed = false) ∧
  (∀ (s : State) (v : Nat),
    s.psm.mode = .hold →
    1140 ≤ v →
    s.psm.pins.porLow = false →
    s.psm.thermalHold = false ∨ nth 0 s.therm.sensors 0 < 368 →
    s.recd.aonLost = false →
    s.recd.powerCycles < 0xFFFFFFFF →
    s.nvs.trial = false →
    s.bootRole = none →
    ∃ u : State, exec (.mainValid v) s = .next u ∧ u.psm.mode = .safeHalt ∧ u.psm.halt.code = evConfigBootFallback.code ∧ u.recd.powerCycles = s.recd.powerCycles + 1) ∧
  (∀ (s : State) (l : List Instance),
    s.psm.mode ≠ .boot ∨ s.psm.pins.testEn = true ∨ s.dram.resetHigh = false ∨ s.flash.journalRead = false ∨ s.psm.holdup.run ≠ none →
    exec (.bootComplete l) s = .next (s)) ∧
  (∀ (s : State),
    s.psm.mode = .boot →
    s.psm.pins.testEn = false →
    s.dram.resetHigh = true →
    s.flash.journalRead = true →
    s.psm.holdup.run = none →
    s.nvs.fwRunning ≠ 1 →
    s.psm.holdup.passed = true →
    s.psm.causes = 0 →
    ∃ u : State, exec (.bootComplete []) s = .next u ∧ u.psm.mode = .service ∧ u.psm.holdup.volat = false ∧ u.cpe.page0Closed = true ∧ u.psm.pins.faultLow = false) ∧
  (∀ (s : State),
    s.psm.mode = .boot →
    s.psm.pins.testEn = false →
    s.dram.resetHigh = true →
    s.flash.journalRead = true →
    s.psm.holdup.run = none →
    s.nvs.fwRunning ≠ 1 →
    s.psm.holdup.passed = false →
    ∃ u : State, exec (.bootComplete []) s = .next u ∧ u.psm.mode = .degraded ∧ u.psm.holdup.volat = true ∧ u.psm.causes.getLsbD 3 = true ∧ u.cpe.page0Closed = true) ∧
  (∀ (s : State) (v v0 : Nat),
    s.psm.mode.tests = false ∨ s.psm.heldFromHalt = true ∨ s.psm.holdup.run ≠ none →
    exec (.holdupTestStart v v0) s = .next (s)) ∧
  (∀ (s : State) (v v0 : Nat),
    s.psm.mode.tests = true →
    s.psm.heldFromHalt = false →
    s.psm.holdup.run = none →
    v < 1160 →
    exec (.holdupTestStart v v0) s = .next ({ s with psm := { s.psm with pins := { s.psm.pins with vsenseMv := v } } })) ∧
  (∀ (s : State) (v v0 : Nat),
    s.psm.mode.tests = true →
    s.psm.heldFromHalt = false →
    s.psm.holdup.run = none →
    1160 ≤ v →
    exec (.holdupTestStart v v0) s = .next ({ s with psm := { s.psm with pins := { s.psm.pins with vsenseMv := v, ppInEn := false }, holdup := { s.psm.holdup with run := some { v0 := v0, boot := s.psm.mode == .boot } } } })) ∧
  (∀ (s : State) (v1 : Nat) (r : HoldupRun),
    s.psm.holdup.run = some r →
    r.v1 = none →
    exec (.holdupPhaseB v1) s = .next ({ s with psm := { s.psm with pins := { s.psm.pins with bleed := true }, holdup := { s.psm.holdup with run := some { r with v1 := some v1 } } } })) ∧
  (∀ (s : State) (v1 v2 : Nat) (g : Bool),
    s.psm.holdup.run = none →
    exec (.holdupPhaseB v1) s = .next s ∧ exec (.holdupTestEnd v2 g) s = .next s) ∧
  (∀ (s : State) (v2 v1 : Nat) (r : HoldupRun) (g : Bool),
    s.psm.holdup.run = some r →
    r.v1 = some v1 →
    exec (.holdupTestEnd v2 g) s = .next ((s.holdupResult r.v0 v1 v2 r.boot g).1)) ∧
  (∀ (s : State) (v2 : Nat) (r : HoldupRun) (g : Bool),
    s.psm.holdup.run = some r →
    r.v1 = none →
    exec (.holdupTestEnd v2 g) s = .next (if g then (s.holdupResult r.v0 v2 v2 r.boot true).1 else s)) ∧
  (∀ (s : State) (v0 v1 v2 : Nat) (boot g : Bool),
    boot = true →
    (s.holdupResult v0 v1 v2 boot g).1.psm.holdup.run = none ∧ (s.holdupResult v0 v1 v2 boot g).1.psm.pins.ppInEn = true ∧ (s.holdupResult v0 v1 v2 boot g).1.psm.pins.bleed = false ∧ (s.holdupResult v0 v1 v2 boot g).1.recd.next = s.recd.next + 1 ∧ (s.holdupResult v0 v1 v2 boot g).1.psm.holdup.testedAt = s.recd.hours) ∧
  (∀ (s : State) (v0 v1 v2 : Nat) (boot : Bool),
    v0 * v0 + v2 * v2 < 2 * v1 * v1 →
    (s.holdupFigures v0 v1 v2 boot false).2.c = nearest (20000 * (v1 + v2)) (2 * v1 * v1 - (v0 * v0 + v2 * v2))) ∧
  (∀ (s : State),
    s.idle = false →
    exec (.restEntry) s = .next (s)) ∧
  (∀ (s : State),
    s.idle = true →
    ∃ u : State, exec .restEntry s = .next u ∧ u.psm.mode = .rest ∧ u.dram = { s.dram with srRequested := true } ∧ u.flash = s.flash ∧ u.nss = s.nss) ∧
  (∀ (s : State),
    s.psm.mode ≠ .rest →
    exec (.restExit) s = .next (s)) ∧
  (∀ (s : State),
    s.psm.mode = .rest →
    ∃ u : State, exec .restExit s = .next u ∧ u.psm.mode = .service ∧ u.dram = { s.dram with srRequested := false, selfRefresh := [] } ∧ u.flash = s.flash ∧ u.nss = s.nss) ∧
  (∀ (s : State),
    s.psm.mode ≠ .off →
    s.psm.pins.aonBkup = false →
    exec (.aonSwitchover) s = .next (({ s with psm := { s.psm with pins := { s.psm.pins with aonBkup := true } } } : State).raise evAonSwitchover 255 [(1, 1)])) ∧
  (∀ (s : State),
    s.psm.mode ≠ .off →
    s.psm.pins.aonBkup = true →
    exec (.aonSwitchback) s = .next (({ s with psm := { s.psm with pins := { s.psm.pins with aonBkup := false } } } : State).raise evAonSwitchover 255 [(1, 2)])) ∧
  (∀ (s : State),
    s.psm.mode = .off →
    exec .aonSwitchover s = .next s ∧ exec .aonSwitchback s = .next s) ∧
  (∀ (s : State) (t : Bool),
    s.psm.mode = .off →
    s.psm.pins.porLow = false →
    ∃ u : State, exec (.aonPowerUp t) s = .next u ∧ u.psm.mode = .hold ∧ u.psm.pins.aonUp = true ∧ u.psm.pins.testEn = t) ∧
  (∀ (s : State) (t : Bool),
    s.psm.pins.porLow = true ∨ s.psm.mode ≠ .off →
    exec (.aonPowerUp t) s = .next ({ s with psm := { s.psm with pins := { s.psm.pins with aonUp := true } } })) ∧
  (∀ (s : State) (t : Bool),
    s.psm.mode = .off →
    s.psm.pins.aonUp = true →
    ∃ u : State, exec (.porNRise t) s = .next u ∧ u.psm.mode = .hold ∧ u.psm.pins.porLow = false ∧ u.psm.pins.testEn = t) ∧
  (∀ (s : State) (t : Bool),
    s.psm.mode ≠ .off ∨ s.psm.pins.aonUp = false →
    exec (.porNRise t) s = .next ({ s with psm := { s.psm with pins := { s.psm.pins with porLow := false } } })) ∧
  (∀ (s : State),
    ∃ u : State, exec .aonLoss s = .next u ∧ u.psm.mode = .off ∧ u.psm.pins.aonUp = false ∧ u.recd.retention = [] ∧ u.recd.aonLost = true ∧ u.recd.ring = s.recd.ring ∧ u.dram.cells = [] ∧ u.tap = {}) ∧
  (∀ (s : State),
    s.psm.pins.porLow = true →
    exec (.porN) s = .next (s)) ∧
  (∀ (s : State),
    s.psm.pins.porLow = false →
    s.psm.mode = .hold →
    ∃ u : State, exec .porN s = .next u ∧ u.psm.mode = .off ∧ u.psm.pins.porLow = true ∧ u.recd.aonLost = true) ∧
  (∀ (s : State),
    s.psm.pins.porLow = false →
    s.psm.mode = .service ∨ s.psm.mode = .rest ∨ s.psm.mode = .degraded ∨ s.psm.mode = .maintenance ∨ s.psm.mode = .safeHalt →
    ∃ u : State, exec .porN s = .next u ∧ u.psm.mode = .drain ∧ u.psm.pins.porLow = true ∧ u.psm.por ≠ none)

/-- A dangerous failure in a running mode ends in SAFE-HALT with its code and component latched; in OFF, HOLD and SAFE-HALT it changes nothing
(R544, R546), and a reserved component identifier reports nothing (R12, R13). The end of the safe drain asserts write protect, asks for
self-refresh and clears the keys (R546). A lockstep or clock failure ends in SAFE-HALT, a clock within 3 % does not (R33, R547, R563). A
self-test that passes brings its instance back, one that fails is recorded and withdraws it (R448, R545). Thermal samples set the throttle
level; 115 °C drains the device (R621 to R623). The test access port loads the register and data that IEEE 1149.1 and R617 give each
instruction, and EXTEST, HIGHZ and CLAMP act as BYPASS with TEST_EN low (R604, R617). A register write changes its own register; read-only
and reserved places discard it; a privileged page answers its owner only; a read returns the current value, and 0 of write-only and
reserved places (R8, R9, R126, R127, R197, R198, R327, R344, R380, R381, R385, R388). The balls of a group count as R602 says, channels
repeat the first one's pattern (R607 to R609), and outputs follow the mode (R613). -/
def Obligations.MonitorsTestPortAndRegisterWrites : Prop :=
  (∀ (s : State) (c k : Nat) (d : Bool),
    s.psm.mode = .off ∨ s.psm.mode = .hold ∨ s.psm.mode = .safeHalt →
    exec (.safeHaltEntered c k d) s = .next (s)) ∧
  (∀ (s : State) (c k : Nat) (d : Bool),
    componentOk k = false →
    exec (.safeHaltEntered c k d) s = .next (s)) ∧
  (∀ (s : State) (c k : Nat) (d : Bool),
    s.psm.mode = .boot ∨ s.psm.mode = .service ∨ s.psm.mode = .rest ∨ s.psm.mode = .degraded ∨ s.psm.mode = .maintenance →
    componentOk k = true →
    ∃ u : State, exec (.safeHaltEntered c k d) s = .next u ∧ u.psm.mode = .safeHalt ∧ u.psm.halt.code = c ∧ u.psm.halt.component = k ∧ u.psm.pins.faultLow = true ∧ (d = false → u.psm.halt.safeDrain = false ∧ u.dram.srRequested = true)) ∧
  (∀ (s : State) (l : List Nat),
    s.psm.mode ≠ .safeHalt ∨ s.psm.halt.safeDrain = false →
    exec (.safeDrainComplete l) s = .next (s)) ∧
  (∀ (s : State) (l : List Nat) (ch : Nat),
    s.psm.mode = .safeHalt →
    s.psm.halt.safeDrain = true →
    ∃ u : State, exec (.safeDrainComplete l) s = .next u ∧ u.psm.halt.safeDrain = false ∧ u.psm.mode = .safeHalt ∧ u.dram.srRequested = true ∧ (Mem.get {} u.flash.chans ch).wpHigh = false) ∧
  (∀ (s : State) (p c : Nat),
    s.psm.mode = .off ∨ s.psm.mode = .hold ∨ 2 < p →
    exec (.coxLockstep p c) s = .next (s)) ∧
  (∀ (s : State) (p c : Nat),
    s.psm.mode = .boot ∨ s.psm.mode = .service ∨ s.psm.mode = .rest ∨ s.psm.mode = .degraded ∨ s.psm.mode = .maintenance →
    p ≤ 2 →
    exec (.coxLockstep p c) s = .next (s.dangerHalt evCoxLockstep evCoxLockstep.comp [(1, p), (8, c)] true) ∧ (s.dangerHalt evCoxLockstep evCoxLockstep.comp [(1, p), (8, c)] true).psm.mode = .safeHalt) ∧
  (∀ (s : State) (d khz : Nat),
    clockNominal d * 97 ≤ khz * 100 →
    khz * 100 ≤ clockNominal d * 103 →
    exec (.clockFault d khz) s = .next (s)) ∧
  (∀ (s : State) (d khz : Nat),
    s.psm.mode = .boot ∨ s.psm.mode = .service ∨ s.psm.mode = .rest ∨ s.psm.mode = .degraded ∨ s.psm.mode = .maintenance →
    clockNominal d ≠ 0 →
    khz * 100 < clockNominal d * 97 ∨ clockNominal d * 103 < khz * 100 →
    ∃ u : State, exec (.clockFault d khz) s = .next u ∧ u.psm.mode = .safeHalt ∧ u.psm.halt.code = evClockFault.code ∧ u.psm.halt.component = evClockFault.comp ∧ d ∈ u.dmf.forced) ∧
  (∀ (s : State) (d khz : Nat),
    s.psm.mode = .drain →
    clockNominal d ≠ 0 →
    khz * 100 < clockNominal d * 97 ∨ clockNominal d * 103 < khz * 100 →
    exec (.clockFault d khz) s = .next (s.raise evClockFault 255 [(1, d), (4, khz)])) ∧
  (∀ (s : State) (i : Instance) (p : Nat),
    realInstance i = false ∨ (s.psm.mode.engines = false ∧ s.psm.mode ≠ .drain) →
    exec (.engineSelftest i true p) s = .next s ∧ exec (.engineSelftest i false p) s = .next s) ∧
  (∀ (s : State) (i : Instance) (p : Nat),
    realInstance i = true →
    s.psm.mode.engines = true →
    (∀ g, i ≠ .asu g) →
    ∃ u : State, exec (.engineSelftest i true p) s = .next u ∧ i ∉ u.psm.halt.withdrawn ∧ (∀ j, j ≠ i → (j ∈ u.psm.halt.withdrawn ↔ j ∈ s.psm.halt.withdrawn)) ∧ u.recd = s.recd) ∧
  (∀ (s : State) (i : Instance) (p : Nat),
    realInstance i = true →
    s.psm.mode.engines = true →
    (∀ g, i ≠ .asu g) →
    exec (.engineSelftest i false p) s = .next ((s.raise evSelftestFail 255 [(2, instanceComp i), (4, p)]).withdraw i evSelftestFail.code s.recd.next)) ∧
  (∀ (s : State) (g p : Nat),
    g < 8 →
    s.psm.mode.engines = true →
    exec (.engineSelftest (.asu g) true p) s = .next s ∧ exec (.engineSelftest (.asu g) false p) s = .next ((s.raise evAsuSelftestFail 255 [(1, g), (4, p), (4, s.asu.tables.countP (fun t => t.groups.contains g))]).withdraw (.asu g) evAsuSelftestFail.code s.recd.next)) ∧
  (∀ (s : State) (i j : Instance) (c n : Nat),
    j ∈ instanceKin i →
    j ≠ i →
    j ∉ s.psm.halt.withdrawn →
    (s.withdraw i c n).psm.halt.withdrawn.contains i = true ∧ (s.withdraw i c n).psm.mode = s.psm.mode ∧ (s.withdraw i c n).recd = s.recd) ∧
  (∀ (s : State) (i : Instance) (c n : Nat),
    (∀ j ∈ instanceKin i, j = i ∨ j ∈ s.psm.halt.withdrawn) →
    s.psm.mode.engines = true →
    (s.withdraw i c n).psm.mode = .safeHalt ∧ (s.withdraw i c n).psm.halt.code = c) ∧
  (∀ (s : State) (l : List Nat),
    s.psm.mode = .off ∨ (s.psm.mode ≠ .hold ∧ l.length ≠ 8) →
    exec (.thermalSample l) s = .next (s)) ∧
  (∀ (s : State) (k : Nat) (l : List Nat),
    s.psm.mode = .hold →
    exec (.thermalSample (k :: l)) s = .next ({ s with therm := { s.therm with sensors := s.therm.sensors.set 0 k } })) ∧
  (∀ (s : State) (l : List Nat),
    s.psm.mode.live = true →
    l.length = 8 →
    l.foldl max 0 < 370 →
    ∃ u : State, exec (.thermalSample l) s = .next u ∧ u.therm.sensors = l ∧ u.therm.level = 0 ∧ u.therm.critical = 0 ∧ u.psm.mode = s.psm.mode) ∧
  (∀ (s : State) (l : List Nat),
    s.psm.mode.live = true →
    l.length = 8 →
    377 ≤ l.foldl max 0 →
    l.foldl max 0 < 388 →
    ∃ u : State, exec (.thermalSample l) s = .next u ∧ u.therm.sensors = l ∧ u.therm.level = 2 ∧ u.psm.mode = s.psm.mode ∧ u.psm.thermalHold = s.psm.thermalHold) ∧
  (∀ (s : State) (l : List Nat),
    s.psm.mode.live = true →
    l.length = 8 →
    388 ≤ l.foldl max 0 →
    ∃ u : State, exec (.thermalSample l) s = .next u ∧ u.psm.mode = .drain ∧ u.psm.thermalHold = true) ∧
  (∀ (old k : Nat),
    throttleLevel old k = (if 377 ≤ k ∨ (old = 2 ∧ 374 < k) then 2 else if 373 ≤ k ∨ (old ≠ 0 ∧ 370 < k) then 1 else 0)) ∧
  (∀ (s : State),
    s.psm.mode ≠ .off →
    exec (.idcode) s = .next ({ s with tap := { ir := 0x01, dr := (List.range 32).map (fun i => (0x10960D4B : Nat).testBit i), boundary := s.tap.boundary } })) ∧
  (∀ (s : State),
    s.psm.mode ≠ .off →
    exec (.bypass) s = .next ({ s with tap := { ir := 0xFF, dr := [false], boundary := s.tap.boundary } })) ∧
  (∀ (s : State),
    s.psm.mode ≠ .off →
    exec (.trstN) s = .next ({ s with tap := { ir := 0x01, dr := [], boundary := s.tap.boundary } })) ∧
  (∀ (s : State) (l : List Bool),
    s.psm.mode ≠ .off →
    exec (.samplePreload l) s = .next ({ s with tap := { ir := 0x02, dr := l, boundary := l } })) ∧
  (∀ (s : State),
    s.psm.mode ≠ .off →
    s.psm.pins.testEn = true →
    exec (.extest) s = .next ({ s with tap := { ir := 0x00, dr := s.tap.boundary, boundary := s.tap.boundary } })) ∧
  (∀ (s : State),
    s.psm.mode ≠ .off →
    s.psm.pins.testEn = true →
    exec (.highz) s = .next ({ s with tap := { ir := 0x08, dr := [false], boundary := s.tap.boundary } })) ∧
  (∀ (s : State),
    s.psm.mode ≠ .off →
    s.psm.pins.testEn = true →
    exec (.clamp) s = .next ({ s with tap := { ir := 0x09, dr := [false], boundary := s.tap.boundary } })) ∧
  (∀ (s : State),
    s.psm.mode ≠ .off →
    s.psm.pins.testEn = false →
    exec (.extest) s = .next ({ s with tap := { ir := 0xFF, dr := [false], boundary := s.tap.boundary } })) ∧
  (∀ (s : State),
    s.psm.mode ≠ .off →
    s.psm.pins.testEn = false →
    exec (.highz) s = .next ({ s with tap := { ir := 0xFF, dr := [false], boundary := s.tap.boundary } })) ∧
  (∀ (s : State),
    s.psm.mode ≠ .off →
    s.psm.pins.testEn = false →
    exec (.clamp) s = .next ({ s with tap := { ir := 0xFF, dr := [false], boundary := s.tap.boundary } })) ∧
  (∀ (s : State) (l : List Bool),
    s.psm.mode = .off →
    exec .extest s = .next s ∧ exec .idcode s = .next s ∧ exec (.samplePreload l) s = .next s ∧ exec .highz s = .next s ∧ exec .clamp s = .next s ∧ exec .bypass s = .next s ∧ exec .trstN s = .next s) ∧
  (∀ (s : State) (v : BitVec 64) (f : Nat) (off : Nat),
    s.barOpen f = true →
    off + 8 ≤ 4096 →
    ∃ u : State, exec (.registerWrite (.mbRequest f off) v) s = .next u ∧ leNat (readBytes (u.mb f).req off 8) = v.toNat ∧ (∀ i, (i < off ∨ off + 8 ≤ i) → Mem.get 0 (u.mb f).req i = Mem.get 0 (s.mb f).req i) ∧ (u.mb f).state = (s.mb f).state) ∧
  (∀ (s : State) (v : BitVec 64) (f : Nat) (off : Nat),
    s.barOpen f = true →
    4096 ≤ off →
    exec (.registerWrite (.mbRequest f off) v) s = .next (s.wake)) ∧
  (∀ (s : State) (v : BitVec 64) (f : Nat),
    s.barOpen f = true →
    exec (.registerWrite (.mbIrq f) v) s = .next ((s.updMb f (fun m => { m with irqEn := v.getLsbD 0, irqVector := v.toNat / 2 % 2 ^ 11 })).wake)) ∧
  (∀ (s : State) (v : BitVec 64) (f : Nat),
    s.barOpen f = true →
    v.getLsbD 2 = true →
    exec (.registerWrite (.mbStatus f) v) s = .next ((s.updMb f (fun m => { m with ignored := false })).wake)) ∧
  (∀ (s : State) (v : BitVec 64) (f : Nat),
    s.barOpen f = true →
    v.getLsbD 2 = false →
    exec (.registerWrite (.mbStatus f) v) s = .next (s.wake)) ∧
  (∀ (s : State) (v : BitVec 64) (f o : Nat),
    exec (.registerWrite (.mbResponse f o) v) s = .next (if s.barOpen f then s.wake else s)) ∧
  (∀ (s : State) (v : BitVec 64) (f o : Nat),
    exec (.registerWrite (.mbReserved f o) v) s = .next (if s.barOpen f then s.wake else s)) ∧
  (∀ (s : State) (v : BitVec 64) (f o : Nat),
    exec (.registerWrite (.msixPba f o) v) s = .next (if s.barOpen f then s.wake else s)) ∧
  (∀ (s : State) (v : BitVec 64) (f : Nat),
    exec (.registerWrite (.cap f) v) s = .next (if s.barOpen f then s.wake else s)) ∧
  (∀ (s : State) (v : BitVec 64) (f : Nat),
    exec (.registerWrite (.vs f) v) s = .next (if s.barOpen f then s.wake else s)) ∧
  (∀ (s : State) (v : BitVec 64) (f : Nat),
    exec (.registerWrite (.csts f) v) s = .next (if s.barOpen f then s.wake else s)) ∧
  (∀ (s : State) (v : BitVec 64) (f : Nat),
    exec (.registerWrite (.dmfState f) v) s = .next (s)) ∧
  (∀ (s : State) (v : BitVec 64) (f : Nat),
    exec (.registerWrite (.auState f) v) s = .next (s)) ∧
  (∀ (s : State) (v : BitVec 64) (f : Nat),
    exec (.registerWrite (.dgeStatus f) v) s = .next (s)) ∧
  (∀ (s : State) (v : BitVec 64) (f o : Nat),
    exec (.registerWrite (.dgeResult f o) v) s = .next (s)) ∧
  (∀ (s : State) (v : BitVec 64) (f : Nat),
    s.barOpen f = false →
    exec (.registerWrite (.mbStatus f) v) s = .next (s)) ∧
  (∀ (s : State) (v : BitVec 64) (f : Nat),
    s.barOpen f = true →
    exec (.registerWrite (.aqa f) v) s = .next ((s.updFn f (fun x => { x with aqa := v.setWidth 32 &&& 0x0FFF0FFF })).wake)) ∧
  (∀ (s : State) (v : BitVec 64) (f : Nat),
    s.barOpen f = true →
    exec (.registerWrite (.asq f) v) s = .next ((s.updFn f (fun x => { x with asq := BitVec.ofNat 64 (v.toNat / 4096 * 4096) })).wake)) ∧
  (∀ (s : State) (v : BitVec 64) (f : Nat),
    s.barOpen f = true →
    exec (.registerWrite (.acq f) v) s = .next ((s.updFn f (fun x => { x with acq := BitVec.ofNat 64 (v.toNat / 4096 * 4096) })).wake)) ∧
  (∀ (s : State) (v : BitVec 64) (f : Nat),
    s.cfgOpen f = true →
    exec (.registerWrite (.devControl f) v) s = .next ((s.updFn f (fun x => { x with devControl := newDevControl x.devControl.toNat v.toNat })).wake)) ∧
  (∀ (s : State) (v : BitVec 64) (f : Nat),
    s.cfgOpen f = true →
    v.toNat % 4 = 3 →
    exec (.registerWrite (.powerState f) v) s = .next ((s.updFn f (fun x => { x with d3hot := true })).wake)) ∧
  (∀ (s : State) (v : BitVec 64) (f : Nat),
    s.cfgOpen f = true →
    v.toNat % 4 = 0 →
    exec (.registerWrite (.powerState f) v) s = .next ((s.updFn f (fun x => { x with d3hot := false })).wake)) ∧
  (∀ (s : State) (v : BitVec 64) (f : Nat),
    s.cfgOpen f = true →
    exec (.registerWrite (.aerStatus f) v) s = .next (({ s with hif := { s.hif with aerStatus := Mem.upd 0 s.hif.aerStatus f (· &&& ~~~BitVec.ofNat 32 v.toNat) } } : State).wake)) ∧
  (∀ (s : State) (v : BitVec 64) (f d : Nat),
    exec (.registerWrite (.aerHeader f d) v) s = .next (if s.cfgOpen f then s.wake else s)) ∧
  (∀ (s : State) (v : BitVec 64) (ch : Nat),
    ch < 256 →
    s.psm.mode.live = true →
    exec (.registerWrite (.dmfHead ch) v) s = .next (s.setCh ch { s.ch ch with head := v &&& headMask })) ∧
  (∀ (s : State) (v : BitVec 64) (ch : Nat),
    256 ≤ ch ∨ s.psm.mode.live = false →
    exec (.registerWrite (.dmfHead ch) v) s = .next (s)) ∧
  (∀ (s : State) (v : BitVec 64) (i r : Nat),
    s.psm.mode.live = true →
    i ≤ 90 →
    r < auCount i →
    (s.au i).reqs.length = auCount i →
    ∃ u : State, exec (.registerWrite (.auReqCfg i r) v) s = .next u ∧ (∀ k, k < auCount i → k ≠ r → nth {} (u.au i).reqs k = nth {} (s.au i).reqs k) ∧ nth {} (u.au i).reqs r = { nth {} (s.au i).reqs r with shadowCls := v.toNat % 4, shadowLimit := v.toNat / 16 % 4096 }) ∧
  (∀ (s : State) (v : BitVec 64) (c i : Nat),
    c < 1024 →
    i ≤ 7 →
    (s.ctx c).state = .opened →
    s.dgeServes = true →
    exec (.registerWrite (.dgeExpect c i) v) s = .next (s.setCtx c { s.ctx c with expectSet := true, expect := Mem.set 0 (s.ctx c).expect i v })) ∧
  (∀ (s : State) (v : BitVec 64) (c i : Nat),
    (s.ctx c).state ≠ .opened →
    exec (.registerWrite (.dgeExpect c i) v) s = .next (s)) ∧
  (∀ (s : State) (v : BitVec 64) (p i : Nat),
    p < 4 →
    s.psm.mode ≠ .off →
    s.psm.mode ≠ .hold →
    p ≠ 0 ∨ s.cpe.page0Closed = false →
    i ≤ 7 →
    exec (.registerWrite (.pgEntry p i p) v) s = .next (s.updPage p (fun x => { x with entry := Mem.set 0 x.entry i v }))) ∧
  (∀ (s : State) (v : BitVec 64) (p i k : Nat),
    p < 4 →
    s.psm.mode ≠ .off →
    s.psm.mode ≠ .hold →
    k ≠ p →
    exec (.registerWrite (.pgEntry p i k) v) s = .next (s.pageBreach p k (8 * i))) ∧
  (∀ (s : State) (v : BitVec 64) (p k : Nat),
    p < 4 →
    s.psm.mode ≠ .off →
    s.psm.mode ≠ .hold →
    k ≠ p →
    exec (.registerWrite (.pgStatus p k) v) s = .next (s.pageBreach p k 0x044)) ∧
  (∀ (s : State) (v : BitVec 64) (p i k : Nat),
    p < 4 →
    s.psm.mode ≠ .off →
    s.psm.mode ≠ .hold →
    k ≠ p →
    exec (.registerWrite (.pgCompletion p i k) v) s = .next (s.pageBreach p k (0x080 + 8 * i))) ∧
  (∀ (s : State) (v : BitVec 64) (f i d : Nat),
    s.barOpen f = true →
    i < s.msixCount f →
    d ≤ 2 →
    exec (.registerWrite (.msixTable f i d) v) s = .next ((s.updFn f (fun x => { x with msix := Mem.set 0 x.msix (4 * i + d) (v.setWidth 32) })).wake)) ∧
  (∀ (s : State) (v : BitVec 64) (f i d : Nat),
    s.barOpen f = true →
    s.msixCount f ≤ i ∨ 3 < d →
    exec (.registerWrite (.msixTable f i d) v) s = .next (s.wake)) ∧
  (∀ (s : State) (f o : Nat),
    s.regRead (.mbReserved f o) = 0) ∧
  (∀ (s : State) (f o : Nat),
    o + 8 ≤ 16 →
    s.regRead (.mbRequest f o) = 0) ∧
  (∀ (s : State) (f o : Nat),
    16 ≤ o →
    o + 8 ≤ 4096 →
    s.regRead (.mbRequest f o) = leNat (readBytes (s.mb f).req o 8)) ∧
  (∀ (s : State) (f o : Nat),
    o + 8 ≤ 4096 →
    s.regRead (.mbResponse f o) = leNat ((List.range 8).map (fun i => nth 0 (s.mb f).resp (o + i)))) ∧
  (∀ (s : State) (f o : Nat),
    o ≤ 7 →
    s.regRead (.dgeExpect f o) = 0 ∧ s.regRead (.pgEntry f o f) = 0) ∧
  (∀ (s : State) (f : Nat),
    s.regRead (.cap f) = (if f ≤ 1 then 0x004000300403FFFF else 0x004000200403FFFF) ∧ s.regRead (.vs f) = 0x00020000 ∧ s.regRead (.aqa f) = (s.fn f).aqa.toNat ∧ s.regRead (.asq f) = (s.fn f).asq.toNat ∧ s.regRead (.acq f) = (s.fn f).acq.toNat) ∧
  (∀ (s : State) (f : Nat),
    s.regRead (.mbStatus f) = (match (s.mb f).state with | .idle => 0 | .busy => 1 | .done => 2) + flag (s.mb f).ignored * 4 + (s.mb f).lastSeq.toNat * 2 ^ 16) ∧
  (∀ (s : State) (v : BitVec 64) (f : Nat),
    s.barOpen f = true →
    ∃ u : State, exec (.registerWrite (.mbIrq f) v) s = .next u ∧ u.regRead (.mbIrq f) = v.toNat % 4096) ∧
  (∀ (s : State) (v : BitVec 64) (c : Nat),
    c < 256 →
    s.psm.mode.live = true →
    ∃ u : State, exec (.registerWrite (.dmfHead c) v) s = .next u ∧ u.regRead (.dmfHead c) = (v &&& headMask).toNat) ∧
  (∀ (s : State) (v : BitVec 64) (i r : Nat),
    s.psm.mode.live = true →
    i ≤ 90 →
    r < auCount i →
    (s.au i).reqs.length = auCount i →
    ∃ u : State, exec (.registerWrite (.auReqCfg i r) v) s = .next u ∧ u.regRead (.auReqCfg i r) = v.toNat % 4 + v.toNat / 16 % 4096 * 16) ∧
  (∀ (s : State) (p k o : Nat),
    4 ≤ p ∨ k ≠ p ∨ (p = 0 ∧ s.cpe.page0Closed = true) →
    s.regRead (.pgStatus p k) = 0 ∧ s.regRead (.pgCompletion p o k) = 0) ∧
  (∀ (s : State) (p o : Nat),
    p < 4 →
    p ≠ 0 ∨ s.cpe.page0Closed = false →
    o ≤ 7 →
    s.regRead (.pgStatus p p) = (Mem.get {} s.cpe.pages p).statusReg ∧ s.regRead (.pgCompletion p o p) = (nth 0 (Mem.get {} s.cpe.pages p).completion o).toNat) ∧
  (∀ (i : Nat) (f o : Nat),
    barSize 0 = some 16384 ∧ barSize 2 = some 16384 ∧ barSize 4 = some 65536 ∧ barSize 1 = none ∧ regPlace (.mbRequest f o) = some (2, o) ∧ regPlace (.mbResponse f o) = some (2, 0x1000 + o) ∧ regPlace (.mbStatus f) = some (2, 0x2004) ∧ regPlace (.mbIrq f) = some (2, 0x2008) ∧ regPlace (.msixTable f i o) = some (4, 16 * i + 4 * o) ∧ regPlace (.msixPba f i) = some (4, 0x8000 + 8 * i)) ∧
  (∀ (r c : Nat),
    1 ≤ r →
    r ≤ 34 →
    1 ≤ c →
    c ≤ 34 →
    { row := r, col := c } ∈ allBalls) ∧
  (∀ (x : Signal) (n : Nat),
    (x, n) ∈ [(Signal.vss, 324), (Signal.vddCore, 64), (Signal.vddSram, 16), (Signal.vddSerdes, 34), (Signal.vddFio, 32), (Signal.vddDio, 24), (Signal.vddAonMain, 2), (Signal.vddAonBkup, 2)] →
    allBalls.countP (fun b => decide (b.signal = x)) = n) ∧
  (∀ (x8 : Bool) (i k : Nat),
    i < 5 →
    k < 4 →
    strobeOf true (8 * i + k) = i ∧ strobeOf true (8 * i + 4 + k) = i ∧ strobeOf false (8 * i + k) = i ∧ strobeOf false (8 * i + 4 + k) = i + 5) ∧
  (∀ (r c s h g : Nat),
    8 ≤ r →
    r ≤ 17 →
    1 ≤ c →
    c ≤ 3 →
    s < 2 →
    h < 2 →
    g < 4 →
    (({ row := r + 10 * h, col := if s = 0 then c + 3 * g else 35 - (c + 3 * g) } : Ball).signal) = (match ({ row := r, col := c } : Ball).signal with | .flash _ n => .flash (8 * s + 4 * h + g) n | x => x)) ∧
  (∀ (r c : Nat),
    28 ≤ r →
    r ≤ 34 →
    1 ≤ c →
    c ≤ 17 →
    ({ row := r, col := c + 17 } : Ball).signal = (match ({ row := r, col := c } : Ball).signal with | .dram _ n => .dram 1 n | x => x)) ∧
  (∀ (s : State) (c : Nat),
    s.psm.mode = .off ∨ s.psm.mode = .hold →
    s.flashWp c = .undriven ∧ s.dramReset = .undriven ∧ s.pcieTx = .undriven ∧ (s.psm.mode = .off → s.sweepTx = .undriven ∧ s.pairUpPin = .undriven ∧ s.ppInPin = .undriven ∧ s.bleedPin = .undriven) ∧ (s.psm.mode = .hold → s.sweepTx = .idle ∧ s.pairUpPin = .low)) ∧
  (∀ (s : State) (c : Nat),
    s.psm.mode ≠ .off →
    s.psm.mode ≠ .hold →
    s.flashWp c = (if (Mem.get {} s.flash.chans c).wpHigh then .high else .low) ∧ s.dramReset = (if s.dram.resetHigh then .high else .low) ∧ s.pcieTx = (if s.psm.mode = .boot ∨ s.psm.mode = .drain then .idle else .active) ∧ s.ppInPin = (if s.psm.pins.ppInEn then .high else .low) ∧ s.bleedPin = (if s.psm.pins.bleed then .high else .low)) ∧
  (∀ (s : State),
    s.faultPin = (if s.psm.pins.faultLow then .low else .highZ) ∧ (s.psm.mode = .boot ∨ s.psm.mode = .drain ∨ s.psm.mode = .safeHalt → s.sweepTx = .idle ∧ s.pairUpPin = .low))

/-- A frame is discarded when the link is down, its CRC fails or its SEQ is not the next, and a tag failure is recorded; one that is taken
acknowledges up to its ACK_SEQ (R573, R598). A unit with a bad tag is recorded and goes no further; read data goes to the host; a mirrored
unit is answered with HELD (R27, R578, R579). HELD confirms, and a copy whose units are all held is complete (R579, R590). A forwarded
command is accepted, and its COMPLETION ends it here (R578). Heartbeats carry the mode, hold-up state, pair state and at times the
fingerprint (R585). A rekey raises KEY_NO, inverts KEY_PHASE and restarts SEQ (R574). A lost link leads to ISOLATED or, with PAIR_UP_IN
low, to the takeover, with DEGRADED cause 2 (R587, R588). A HELLO that fails a check is refused, recorded and retried; one that passes
leads to RESYNC, or on to PAIRED (R584, R589). A copy takes an ASN of its own, reads its granule, and sends it once all of it has been
read (R590, R594). -/
def Obligations.PairKeepsItsCopiesAndSurvivesLoss : Prop :=
  (∀ (s : State) (fr : Frame),
    s.pairUpOut = false ∨ fr.crcOk = false →
    s.frameIn fr = (s, false)) ∧
  (∀ (s : State) (fr : Frame),
    s.pairUpOut = true →
    s.swl.state.linked = true ∨ s.swl.state = .isolated →
    fr.crcOk = true →
    fr.tagOk = false →
    s.frameIn fr = (s.authFail, false) ∧ s.authFail.swl.link.rxSeq = s.swl.link.rxSeq ∧ (s.swl.link.authSecond ≠ some s.now → s.authFail.recd.next = s.recd.next + 1)) ∧
  (∀ (s : State) (fr : Frame),
    s.pairUpOut = true →
    s.swl.state.linked = true ∨ s.swl.state = .isolated →
    fr.crcOk = true →
    fr.tagOk = true →
    fr.seq ≠ s.swl.link.rxSeq →
    s.frameIn fr = (s, false)) ∧
  (∀ (s : State) (fr : Frame),
    s.pairUpOut = true →
    s.swl.state.linked = true ∨ s.swl.state = .isolated →
    fr.crcOk = true →
    fr.tagOk = true →
    fr.seq = s.swl.link.rxSeq →
    s.frameIn fr = ({ s with swl := { s.swl with link := { s.swl.link.ack fr with rxSeq := s.swl.link.rxSeq + 1 } } }, true)) ∧
  (∀ (l : SwlLink) (fr : Frame) (x : TxFrame),
    x.keyNo = fr.keyNo →
    x ∈ (l.ack fr).unacked ↔ (x ∈ l.unacked ∧ fr.ackSeq < x.seq)) ∧
  (∀ (s : State) (fr : Frame) (t : State),
    s.frameIn fr = (t, false) →
    exec (.held fr) s = .next (t)) ∧
  (∀ (s : State) (fr : Frame) (t : State),
    s.frameIn fr = (t, true) →
    t.swl.state = .isolated →
    exec (.held fr) s = .next (t)) ∧
  (∀ (s : State) (fr : Frame) (t : State) (c : Nat) (e : Sqe),
    s.frameIn fr = (t, false) →
    exec (.command fr c e) s = .next (t)) ∧
  (∀ (s : State) (fr : Frame) (t : State) (c : Nat) (e : Sqe),
    s.frameIn fr = (t, true) →
    t.swl.state = .isolated →
    exec (.command fr c e) s = .next (t)) ∧
  (∀ (s : State) (fr : Frame) (t : State) (st : Status) (d0 d1 : BitVec 32) (c : Nat),
    s.frameIn fr = (t, false) →
    exec (.completion fr st d0 d1 c) s = .next (t)) ∧
  (∀ (s : State) (fr : Frame) (t : State) (st : Status) (d0 d1 : BitVec 32) (c : Nat),
    s.frameIn fr = (t, true) →
    t.swl.state = .isolated →
    exec (.completion fr st d0 d1 c) s = .next (t)) ∧
  (∀ (s : State) (fr : Frame) (t : State) (h : HeartbeatBody),
    s.frameIn fr = (t, false) →
    exec (.heartbeat fr h) s = .next (t)) ∧
  (∀ (s : State) (fr : Frame) (t : State) (h : HeartbeatBody),
    s.frameIn fr = (t, true) →
    t.swl.state = .isolated →
    exec (.heartbeat fr h) s = .next (t)) ∧
  (∀ (s : State) (fr : Frame) (t : State) (n : Bytes),
    s.frameIn fr = (t, false) →
    exec (.rekey fr n) s = .next (t)) ∧
  (∀ (s : State) (fr : Frame) (t : State) (n : Bytes),
    s.frameIn fr = (t, true) →
    t.swl.state = .isolated →
    exec (.rekey fr n) s = .next (t)) ∧
  (∀ (s : State) (fr : Frame) (t : State),
    s.frameIn fr = (t, false) →
    exec (.leave fr) s = .next (t)) ∧
  (∀ (s : State) (fr : Frame) (u : UnitBody) (t : State),
    u.cid ≠ none ∨ fr.payload = [] ∨ u.tagGood = false ∨ s.freeSlot ≠ none →
    s.frameIn fr = (t, false) →
    exec (.unit fr u) s = .next (t)) ∧
  (∀ (s : State) (fr : Frame) (u : UnitBody) (t : State),
    u.cid ≠ none ∨ fr.payload = [] ∨ u.tagGood = false ∨ s.freeSlot ≠ none →
    s.frameIn fr = (t, true) →
    t.swl.state = .isolated →
    exec (.unit fr u) s = .next (t)) ∧
  (∀ (s : State) (fr : Frame) (u : UnitBody) (t : State) (i : Nat) (c : Cmd),
    s.frameIn fr = (t, true) →
    t.swl.state ≠ .isolated →
    u.tagGood = true →
    u.cid = some i →
    t.cmd i = some c →
    c.forwarded = true →
    c.result = none →
    exec (.unit fr u) s = .next (t.returnData c fr.unitNo fr.payload)) ∧
  (∀ (s : State) (fr : Frame) (u : UnitBody) (t : State),
    s.frameIn fr = (t, true) →
    t.swl.state ≠ .isolated →
    u.tagGood = false →
    u.cid = none →
    s.psm.halt.detections = [] →
    ∃ v : State, exec (.unit fr u) s = .next v ∧ v.recd.next = t.recd.next + 1 ∧ v.nss = t.nss ∧ v.swl = t.swl ∧ v.psm.halt.detections = [(0x1012, evIntegrityTagMismatch.code, t.now)]) ∧
  (∀ (s : State) (fr : Frame) (u : UnitBody) (t : State),
    s.frameIn fr = (t, true) →
    t.swl.state ≠ .isolated →
    u.tagGood = true →
    u.cid = none →
    fr.payload ≠ [] →
    s.freeSlot ≠ none →
    u.first = fr.unitNo →
    u.last = fr.unitNo →
    t.swl.heldUnits = [] →
    t.swl.link.txSeq < 2 ^ 32 - 1 →
    Mem.get none t.swl.placed (unitKey fr.nsid fr.unitNo) = none →
    isChunkKey (unitKey fr.nsid fr.unitNo) = false →
    (t.entry (unitKey fr.nsid fr.unitNo)).state = .unmapped →
    t.psm.fence = true →
    ∃ v : State, exec (.unit fr u) s = .next v ∧ (v.entry (unitKey fr.nsid fr.unitNo)).state = .buffer ∧ readBytes v.dmf.spl (4096 * (v.entry (unitKey fr.nsid fr.unitNo)).paddr) 4096 = padTo 4096 fr.payload ∧ v.swl.heldUnits = [] ∧ v.swl.link.unacked = t.swl.link.unacked ++ [{ kind := 3, keyNo := t.swl.link.keyNo, seq := t.swl.link.txSeq, asn := fr.asn, nsid := fr.nsid, unitNo := fr.unitNo }]) ∧
  (∀ (s : State) (fr : Frame) (t : State),
    s.frameIn fr = (t, true) →
    t.swl.state ≠ .isolated →
    t.swl.copying = [] →
    exec (.held fr) s = .next ({ t with swl := { t.swl with confirmed := t.swl.confirmed ++ [(fr.asn, fr.nsid, fr.unitNo)] } })) ∧
  (∀ (s : State) (fr : Frame) (t : State) (g : Nat),
    s.frameIn fr = (t, true) →
    t.swl.state ≠ .isolated →
    t.swl.copying = [(fr.asn, fr.nsid, g, [fr.unitNo])] →
    (∃ x ∈ t.swl.resyncLeft, x ≠ (fr.nsid, g)) →
    ∃ v : State, exec (.held fr) s = .next v ∧ v.swl.copying = [] ∧ v.swl.resyncLeft = t.swl.resyncLeft.filter (· != (fr.nsid, g)) ∧ v.swl.dirty = t.swl.dirty.filter (· != (fr.nsid, g)) ∧ v.swl.state = t.swl.state) ∧
  (∀ (s : State) (fr : Frame) (t : State) (c : Nat) (e : Sqe) (f : Nat),
    s.frameIn fr = (t, true) →
    t.swl.state ≠ .isolated →
    (t.ns (sqeNsid e)).bind (·.attached) = some f →
    exec (.command fr c e) s = .next (t.accept f 0 { e with admin := false } (some c))) ∧
  (∀ (s : State) (fr : Frame) (t : State) (c : Nat) (e : Sqe),
    s.frameIn fr = (t, true) →
    t.swl.state ≠ .isolated →
    (t.ns (sqeNsid e)).bind (·.attached) = none →
    exec (.command fr c e) s = .next (t.accept 0 0 { e with admin := false } (some c))) ∧
  (∀ (s : State) (fr : Frame) (t : State) (st : Status) (d0 d1 : BitVec 32) (c : Nat),
    s.frameIn fr = (t, true) →
    t.swl.state ≠ .isolated →
    t.cmd c = none →
    exec (.completion fr st d0 d1 c) s = .next (t)) ∧
  (∀ (s : State) (fr : Frame) (t : State) (st : Status) (d0 d1 : BitVec 32) (c : Nat) (x : Cmd),
    s.frameIn fr = (t, true) →
    t.swl.state ≠ .isolated →
    t.cmd c = some x →
    x.forwarded = true →
    exec (.completion fr st d0 d1 c) s = .next (t.finish c st d0 d1)) ∧
  (∀ (s : State) (fr : Frame) (t : State) (st : Status) (d0 d1 : BitVec 32) (c : Nat) (x : Cmd) (n : Nat),
    s.frameIn fr = (t, true) →
    t.swl.state ≠ .isolated →
    t.cmd c = some x →
    x.forwarded = false →
    x.partnerFlush = some n →
    exec (.completion fr st d0 d1 c) s = .next (if st = .success then t.updCmd c (fun x => { x with partnerFlush := some (n - 1) }) else t.finish c st)) ∧
  (∀ (s : State) (fr : Frame) (t : State) (h : HeartbeatBody),
    s.frameIn fr = (t, true) →
    t.swl.state ≠ .isolated →
    h.fp = none →
    t.swl.state = .paired →
    (t.fn 0).present = true →
    ∃ v : State, exec (.heartbeat fr h) s = .next v ∧ v.swl.partnerMode = h.mode ∧ v.swl.partnerVolatile = h.holdupVolatile ∧ v.swl.partnerState = h.state ∧ v.swl.partnerFp = t.swl.partnerFp ∧ v.swl.partnerAge = t.swl.partnerAge ∧ v.swl.state = .paired ∧ (t.volatileNow = false → h.holdupVolatile = true → (v.fn 0).wce = true)) ∧
  (∀ (s : State) (fr : Frame) (t : State) (h : HeartbeatBody) (x : BitVec 64),
    s.frameIn fr = (t, true) →
    t.swl.state ≠ .isolated →
    h.fp = some x →
    t.swl.state = .paired →
    x ≠ t.configFp →
    ∃ v : State, exec (.heartbeat fr h) s = .next v ∧ v.swl.partnerFp = x ∧ v.swl.partnerAge = 0 ∧ v.swl.state = .suspended ∧ v.psm.causes.getLsbD 4 = true) ∧
  (∀ (s : State),
    s.pairUpOut = false ∨ s.swl.state.linked = false →
    exec .heartbeatSend s = .next s ∧ exec .rekeyStart s = .next s ∧ exec .goBackNResend s = .next s) ∧
  (∀ (s : State) (ms : Nat),
    s.pairUpOut = false ∨ s.swl.state.linked = false →
    exec (.linkLost ms) s = .next (s)) ∧
  (∀ (s : State) (fp : Option (BitVec 64)),
    s.pairUpOut = true →
    s.swl.state.linked = true →
    s.swl.link.txSeq < 2 ^ 32 - 1 →
    (fp = if (s.swl.link.beats + 1) % 100 = 0 ∨ s.swl.fpChanged = true then some s.configFp else none) →
    ∃ v : State, exec .heartbeatSend s = .next v ∧ v.swl.link.beats = s.swl.link.beats + 1 ∧ v.swl.fpChanged = false ∧ v.swl.link.unacked = s.swl.link.unacked ++ [{ kind := 6, keyNo := s.swl.link.keyNo, seq := s.swl.link.txSeq, body := .heartbeat s.psm.mode.code s.psm.holdup.volat s.swl.state.code fp }]) ∧
  (∀ (s : State),
    s.swl.link.rekeying = true ∨ s.swl.link.txSeq < 2 ^ 32 - 2 ^ 20 →
    exec (.rekeyStart) s = .next (s)) ∧
  (∀ (s : State),
    s.pairUpOut = true →
    s.swl.state.linked = true →
    s.swl.link.rekeying = false →
    2 ^ 32 - 2 ^ 20 ≤ s.swl.link.txSeq →
    s.swl.link.txSeq < 2 ^ 32 - 1 →
    ∃ v : State, exec .rekeyStart s = .next v ∧ v.swl.link.rekeying = true ∧ v.swl.link.txSeq = s.swl.link.txSeq + 1 ∧ v.swl.link.keyNo = s.swl.link.keyNo) ∧
  (∀ (s : State) (fr : Frame) (t : State) (n : Bytes),
    s.frameIn fr = (t, true) →
    t.swl.state ≠ .isolated →
    t.swl.position = 0 →
    ∃ v : State, exec (.rekey fr n) s = .next v ∧ v.swl.link.keyNo = (t.swl.link.keyNo + 1) % 2 ^ 32 ∧ v.swl.link.keyPhase = !t.swl.link.keyPhase ∧ v.swl.link.txSeq = 0 ∧ v.swl.link.rxSeq = 0 ∧ v.swl.link.rekeying = false ∧ v.swl.link.nonce1 = padTo 16 n) ∧
  (∀ (s : State),
    s.swl.link.unacked = [] →
    exec (.goBackNResend) s = .next (s)) ∧
  (∀ (s : State),
    s.pairUpOut = true →
    s.swl.state.linked = true →
    s.swl.link.unacked ≠ [] →
    s.swl.link.unacked.length ≤ 512 →
    (∀ x ∈ s.swl.link.unacked, x.resends < 15) →
    exec (.goBackNResend) s = .next ({ s with swl := { s.swl with link := { s.swl.link with unacked := s.swl.link.unacked.map (fun x => { x with resends := x.resends + 1 }), retries := min (s.swl.link.retries + s.swl.link.unacked.length) 0xFFFFFFFF } } })) ∧
  (∀ (s : State) (ms : Nat),
    s.pairUpOut = true →
    s.swl.state.linked = true →
    s.swl.link.upIn = true →
    ∃ v : State, exec (.linkLost ms) s = .next v ∧ v.swl.state = .isolated ∧ v.psm.causes.getLsbD 2 = true ∧ v.swl.dirtyOn = true ∧ v.swl.link.lanes = 0 ∧ v.swl.taken = s.swl.taken) ∧
  (∀ (s : State) (ms : Nat) (c : PairCfg),
    s.pairUpOut = true →
    s.swl.state.linked = true →
    s.swl.link.upIn = false →
    s.swl.cfg = some c →
    ∃ v : State, exec (.linkLost ms) s = .next v ∧ v.swl.state = .sole ∧ v.psm.causes.getLsbD 2 = true ∧ v.swl.dirtyOn = true ∧ v.swl.link.lanes = 0 ∧ (∀ n ∈ c.mirrored, v.owns n = true)) ∧
  (∀ (s : State) (fr : Frame) (t : State) (c : PairCfg),
    s.frameIn fr = (t, true) →
    s.swl.cfg = some c →
    ∃ v : State, exec (.leave fr) s = .next v ∧ v.swl.state = .sole ∧ v.psm.causes.getLsbD 2 = true ∧ v.swl.dirtyOn = true ∧ v.swl.link.lanes = 0 ∧ (∀ n ∈ c.mirrored, v.owns n = true)) ∧
  (∀ (s : State) (c : PairCfg),
    s.pairUpOut = true →
    s.swl.state = .isolated →
    s.swl.cfg = some c →
    ∃ v : State, exec (.pairUpIn false) s = .next v ∧ v.swl.link.upIn = false ∧ v.swl.state = .sole ∧ v.psm.causes.getLsbD 2 = true ∧ v.swl.dirtyOn = true ∧ v.swl.link.lanes = 0 ∧ (∀ n ∈ c.mirrored, v.owns n = true)) ∧
  (∀ (s : State) (b : Bool),
    b = true ∨ s.pairUpOut = false ∨ s.swl.state ≠ .isolated →
    exec (.pairUpIn b) s = .next ({ s with swl := { s.swl with link := { s.swl.link with upIn := b } } })) ∧
  (∀ (s : State) (fr : Frame) (h : HelloBody),
    s.pairUpOut = false ∨ (s.swl.state ≠ .joining ∧ s.swl.state ≠ .isolated ∧ s.swl.state ≠ .sole) ∨ fr.crcOk = false ∨ s.swl.retryMs ≠ 0 →
    exec (.hello fr h) s = .next (s)) ∧
  (∀ (s : State) (fr : Frame) (h : HelloBody) (n : Nat) (t : State),
    s.pairUpOut = true →
    s.swl.state = .joining ∨ s.swl.state = .isolated ∨ s.swl.state = .sole →
    fr.crcOk = true →
    s.swl.retryMs = 0 →
    s.answerHello = t →
    t.helloFails h = some n →
    exec (.hello fr h) s = .next (({ t with swl := { t.swl with retryMs := (if t.swl.state = .joining then 1000 else t.swl.retryMs), refusal := some n } } : State).raise evPairJoinRefused 255 [(1, n)])) ∧
  (∀ (s : State),
    s.swl.state = .joining →
    s.answerHello = s) ∧
  (∀ (s : State),
    s.swl.state ≠ .joining →
    s.answerHello.swl.link.hellos = s.ownNonce.swl.link.hellos + 1 ∧ s.answerHello.swl.state = s.ownNonce.swl.state ∧ s.answerHello.fns = s.fns) ∧
  (∀ (s : State) (fr : Frame) (h : HelloBody),
    s.pairUpOut = true →
    s.swl.state = .joining ∨ s.swl.state = .isolated ∨ s.swl.state = .sole →
    fr.crcOk = true →
    s.swl.retryMs = 0 →
    s.answerHello.helloFails h = none →
    ∃ v : State, exec (.hello fr h) s = .next v ∧ (v.swl.state = .resync ∨ v.swl.state = .paired) ∧ v.swl.partnerId = h.memberId ∧ v.swl.joining = none ∧ v.swl.link.keyNo = 0 ∧ v.swl.link.lanes = 0xF) ∧
  (∀ (s : State) (h : HelloBody) (c : PairCfg),
    s.swl.cfg = some c →
    s.helloFails h = none →
    h.pairId = c.pairId ∧ h.position ≠ s.swl.position ∧ h.fp = s.configFp ∧ h.keyOk = true ∧ (h.state = 5 → s.swl.state ≠ .sole)) ∧
  (∀ (s : State),
    s.pairUpOut = false ∨ s.swl.state ≠ .joining →
    exec (.helloSend) s = .next (s)) ∧
  (∀ (s : State),
    s.pairUpOut = true →
    s.swl.state = .joining →
    s.swl.retryMs = 0 →
    s.swl.joining = none →
    ∃ v : State, exec .helloSend s = .next v ∧ v.swl.link.hellos = s.swl.link.hellos + 1 ∧ v.swl.joinMs = s.swl.joinMs + 10 ∧ v.swl.state = .joining) ∧
  (∀ (s : State) (f n : Nat),
    s.pairUpOut = true →
    s.swl.state = .joining →
    s.swl.retryMs ≠ 0 →
    s.swl.joining = some f →
    s.swl.refusal = some n →
    990 ≤ s.swl.joinMs →
    ∃ v : State, exec .helloSend s = .next v ∧ v.swl.joining = none ∧ v.swl.retryMs = s.swl.retryMs - 10) ∧
  (∀ (s : State) (n g : Nat),
    s.pairUpOut = false ∨ s.swl.state ≠ .resync ∨ (n, g) ∉ s.swl.resyncLeft →
    exec (.resyncCopy n g) s = .next (s)) ∧
  (∀ (s : State) (n g : Nat) (x : Ns),
    s.pairUpOut = true →
    s.swl.state = .resync →
    (n, g) ∈ s.swl.resyncLeft →
    s.swl.copying = [] →
    s.ns n = some x →
    s.hif.locks = [] →
    s.swl.copyReads = [] →
    exec (.resyncCopy n g) s = .next ((s.beginCopy n g x).readCopy n g x x.asn)) ∧
  (∀ (s : State) (n g : Nat) (x : Ns) (a : BitVec 48),
    s.pairUpOut = true →
    s.swl.state = .resync →
    (n, g) ∈ s.swl.resyncLeft →
    s.swl.copying = [] →
    s.ns n = some x →
    s.swl.copyReads = [(n, g, a)] →
    exec (.resyncCopy n g) s = .next (s.readCopy n g x a)) ∧
  (∀ (s : State) (n g : Nat) (x : Ns) (a : BitVec 48) (t : State),
    (t = ((granuleAll x g).map (unitKey n)).foldl (fun s k => s.fetchEntry (s.copyAsker n g k) [k]) s) →
    s.readCopy n g x a = (match t.gather (.copy n g) ((granuleAll x g).map (unitKey n)) with | none => t | some ds => t.sendCopy n g a (granuleAll x g) ds)) ∧
  (∀ (s : State) (n g : Nat) (x : Ns),
    (s.beginCopy n g x).ns n = some { x with asn := x.asn + 1 } ∧ (s.beginCopy n g x).swl.copyReads = s.swl.copyReads ++ [(n, g, x.asn)])
end

