-- ==== Sys2Proof/Laws/Mem.lean ====
section
/-! SUPPORT. The laws of the sparse tables and of byte memory: what a read gives after a write, and that every operation keeps the
canonical form. -/

namespace Sys2Proof.Machine

/-! ### Reads after writes -/

theorem Mem.get_erase_self {α : Type} (d : α) (m : Mem α) (k : Nat) : Mem.get d (Mem.erase m k) k = d := by
  induction m with
  | nil => rfl
  | cons e m ih => by_cases h : e.1 = k <;> simp [Mem.erase, Mem.get, h, ih]

theorem Mem.get_erase_other {α : Type} (d : α) (m : Mem α) {k j : Nat} (h : j ≠ k) :
    Mem.get d (Mem.erase m k) j = Mem.get d m j := by
  induction m with
  | nil => rfl
  | cons e m ih =>
    by_cases h1 : e.1 = k
    · have h2 : k ≠ j := fun x => h x.symm
      simp [Mem.erase, Mem.get, h1, h2, ih]
    · simp [Mem.erase, Mem.get, h1, ih]

/-- An erased key is listed nowhere. -/
theorem Mem.erase_free {α : Type} (m : Mem α) (k : Nat) : ∀ e ∈ Mem.erase m k, e.1 ≠ k := by
  induction m with
  | nil => simp [Mem.erase]
  | cons e m ih =>
    by_cases h : e.1 = k
    · simpa [Mem.erase, h] using ih
    · simpa [Mem.erase, h] using ih

/-- A table reads as the entry put into it, and elsewhere as before. -/
theorem Mem.get_insert {α : Type} (d : α) (m : Mem α) (k j : Nat) (v : α) (h : ∀ e ∈ m, e.1 ≠ k) :
    Mem.get d (Mem.insert m k v) j = if j = k then v else Mem.get d m j := by
  induction m with
  | nil => by_cases hj : k = j <;> simp [Mem.insert, Mem.get, hj, eq_comm]
  | cons e m ih =>
    obtain ⟨a, w⟩ := e
    have h0 : a ≠ k := h (a, w) (by simp)
    have ih := ih (fun x hx => h x (by simp [hx]))
    by_cases h1 : k < a
    · rw [Mem.insert, if_pos h1]
      by_cases hj : j = k
      · simp [Mem.get, hj]
      · rw [Mem.get, if_neg (fun x => hj x.symm), if_neg hj]
    · rw [Mem.insert, if_neg h1]
      by_cases h2 : a = j
      · have h3 : ¬ j = k := fun x => h0 (h2.trans x)
        simp [Mem.get, h2, h3]
      · rw [Mem.get, if_neg h2, ih, Mem.get, if_neg h2]

/-- A read at the key that was set gives the value set. -/
@[simp] theorem Mem.get_set_self {α : Type} [DecidableEq α] (d : α) (m : Mem α) (k : Nat) (v : α) :
    Mem.get d (Mem.set d m k v) k = v := by
  by_cases h : v = d
  · simp [Mem.set, h, Mem.get_erase_self]
  · simp [Mem.set, h, Mem.get_insert d _ k k v (Mem.erase_free m k)]

/-- A read at any other key gives what it gave before. -/
theorem Mem.get_set_other {α : Type} [DecidableEq α] (d : α) (m : Mem α) {k j : Nat} (v : α) (h : j ≠ k) :
    Mem.get d (Mem.set d m k v) j = Mem.get d m j := by
  by_cases hv : v = d
  · simp [Mem.set, hv, Mem.get_erase_other d m h]
  · simp [Mem.set, hv, Mem.get_insert d _ k j v (Mem.erase_free m k), h, Mem.get_erase_other d m h]

/-- A read after an update at the same key. -/
@[simp] theorem Mem.get_upd_self {α : Type} [DecidableEq α] (d : α) (m : Mem α) (k : Nat) (g : α → α) :
    Mem.get d (Mem.upd d m k g) k = g (Mem.get d m k) := Mem.get_set_self d m k _

/-- A read after an update at another key. -/
theorem Mem.get_upd_other {α : Type} [DecidableEq α] (d : α) (m : Mem α) {k j : Nat} (g : α → α) (h : j ≠ k) :
    Mem.get d (Mem.upd d m k g) j = Mem.get d m j := Mem.get_set_other d m _ h

/-- A read of a key that a filter keeps. -/
theorem Mem.get_keep {α : Type} (d : α) (m : Mem α) (p : Nat → Bool) (k : Nat) :
    Mem.get d (Mem.keep p m) k = if p k then Mem.get d m k else d := by
  induction m with
  | nil => simp [Mem.keep, Mem.get]
  | cons e m ih =>
    have ih : Mem.get d (m.filter (fun e => p e.1)) k = _ := ih
    by_cases h : p e.1 <;> by_cases hk : e.1 = k <;> simp_all [Mem.keep, Mem.get]

/-- Writing bytes leaves every address outside them as it was. -/
theorem writeBytes_other (m : List Host.Cell) (bs : Bytes) (a i : Nat) (h : i < a ∨ a + bs.length ≤ i) :
    Mem.get 0 (writeBytes m a bs) i = Mem.get 0 m i := by
  induction bs generalizing m a with
  | nil => rfl
  | cons b bs ih =>
    simp only [writeBytes]
    rw [ih _ _ (by simp at h; omega), Mem.get_set_other _ _ _ (by simp at h; omega)]

/-- A byte that was written reads as written. -/
theorem writeBytes_get (m : List Host.Cell) (bs : Bytes) (a i : Nat) (h : i < bs.length) :
    Mem.get 0 (writeBytes m a bs) (a + i) = bs[i] := by
  induction bs generalizing m a i with
  | nil => simp at h
  | cons b bs ih =>
    cases i with
    | zero => simpa [writeBytes] using writeBytes_other (Mem.set 0 m a b) bs (a + 1) a (by omega)
    | succ i =>
      have : a + (i + 1) = (a + 1) + i := by omega
      simpa [writeBytes, this] using ih (Mem.set 0 m a b) (a + 1) i (by simpa using h)

/-- Bytes read back where they were written are those bytes. -/
theorem readBytes_writeBytes (m : List Host.Cell) (bs : Bytes) (a : Nat) : readBytes (writeBytes m a bs) a bs.length = bs := by
  apply List.ext_getElem <;> simp [readBytes]
  intros
  apply writeBytes_get

/-! ### The canonical form -/

/-- The canonical form: keys strictly rising, and no value that an unlisted key reads as. -/
theorem Mem.wf_iff {α : Type} [DecidableEq α] (d : α) (m : Mem α) :
    Mem.wf d m = true ↔ m.Pairwise (fun x y => x.1 < y.1) ∧ ∀ e ∈ m, e.2 ≠ d := by
  induction m with
  | nil => simp [Mem.wf]
  | cons e m ih =>
    cases m with
    | nil => simp [Mem.wf]
    | cons e' m =>
      simp only [Mem.wf, Bool.and_eq_true, decide_eq_true_eq, ih]
      constructor
      · rintro ⟨⟨h1, h2⟩, h3, h4⟩
        refine ⟨List.pairwise_cons.2 ⟨fun x hx => ?_, h3⟩, fun x hx => ?_⟩
        · rcases List.mem_cons.1 hx with rfl | hx
          · exact h2
          · exact Nat.lt_trans h2 ((List.pairwise_cons.1 h3).1 x hx)
        · rcases List.mem_cons.1 hx with rfl | hx
          · exact h1
          · exact h4 x hx
      · rintro ⟨h1, h2⟩
        have h3 := List.pairwise_cons.1 h1
        exact ⟨⟨h2 e (by simp), h3.1 e' (by simp)⟩, h3.2, fun x hx => h2 x (by simp [hx])⟩

theorem Mem.mem_erase {α : Type} (m : Mem α) (k : Nat) : ∀ e ∈ Mem.erase m k, e ∈ m := by
  induction m with
  | nil => simp [Mem.erase]
  | cons e m ih =>
    intro x hx
    by_cases h : e.1 = k
    · simp only [Mem.erase, h, if_true] at hx; exact List.mem_cons_of_mem _ (ih x hx)
    · simp only [Mem.erase, h, if_false] at hx
      rcases List.mem_cons.1 hx with rfl | hx
      · simp
      · exact List.mem_cons_of_mem _ (ih x hx)

theorem Mem.pairwise_erase {α : Type} (m : Mem α) (k : Nat) (h : m.Pairwise (fun x y => x.1 < y.1)) :
    (Mem.erase m k).Pairwise (fun x y => x.1 < y.1) := by
  induction m with
  | nil => simp [Mem.erase]
  | cons e m ih =>
    have h' := List.pairwise_cons.1 h
    by_cases hk : e.1 = k
    · simpa [Mem.erase, hk] using ih h'.2
    · simp only [Mem.erase, hk, if_false]
      exact List.pairwise_cons.2 ⟨fun x hx => h'.1 x (Mem.mem_erase m k x hx), ih h'.2⟩

theorem Mem.mem_insert {α : Type} (m : Mem α) (k : Nat) (v : α) : ∀ e ∈ Mem.insert m k v, e = (k, v) ∨ e ∈ m := by
  induction m with
  | nil => simp [Mem.insert]
  | cons e m ih =>
    intro x hx
    by_cases h : k < e.1
    · simpa [Mem.insert, h] using hx
    · simp only [Mem.insert, h, if_false] at hx
      rcases List.mem_cons.1 hx with rfl | hx
      · simp
      · rcases ih x hx with h | h <;> simp [h]

theorem Mem.pairwise_insert {α : Type} (m : Mem α) (k : Nat) (v : α) (h : m.Pairwise (fun x y => x.1 < y.1))
    (hk : ∀ e ∈ m, e.1 ≠ k) : (Mem.insert m k v).Pairwise (fun x y => x.1 < y.1) := by
  induction m with
  | nil => simp [Mem.insert]
  | cons e m ih =>
    have h' := List.pairwise_cons.1 h
    by_cases hlt : k < e.1
    · simp only [Mem.insert, hlt, if_true]
      refine List.pairwise_cons.2 ⟨fun x hx => ?_, h⟩
      rcases List.mem_cons.1 hx with rfl | hx
      · exact hlt
      · exact Nat.lt_trans hlt (h'.1 x hx)
    · simp only [Mem.insert, hlt, if_false]
      refine List.pairwise_cons.2 ⟨fun x hx => ?_, ih h'.2 (fun y hy => hk y (by simp [hy]))⟩
      rcases Mem.mem_insert m k v x hx with rfl | hx
      · have := hk e (by simp)
        show e.1 < k
        omega
      · exact h'.1 x hx

/-- Setting an entry keeps the canonical form. -/
theorem Mem.wf_set {α : Type} [DecidableEq α] (d : α) (m : Mem α) (k : Nat) (v : α) (h : Mem.wf d m = true) :
    Mem.wf d (Mem.set d m k v) = true := by
  rw [Mem.wf_iff] at *
  by_cases hv : v = d
  · simp only [Mem.set, hv, if_true]
    exact ⟨Mem.pairwise_erase m k h.1, fun e he => h.2 e (Mem.mem_erase m k e he)⟩
  · simp only [Mem.set, hv, if_false]
    refine ⟨Mem.pairwise_insert _ k v (Mem.pairwise_erase m k h.1) (Mem.erase_free m k), fun e he => ?_⟩
    rcases Mem.mem_insert _ k v e he with rfl | he
    · exact hv
    · exact h.2 e (Mem.mem_erase m k e he)

/-- Updating an entry keeps the canonical form. -/
theorem Mem.wf_upd {α : Type} [DecidableEq α] (d : α) (m : Mem α) (k : Nat) (g : α → α) (h : Mem.wf d m = true) :
    Mem.wf d (Mem.upd d m k g) = true := Mem.wf_set d m k _ h

/-- Taking entries out keeps the canonical form. -/
theorem Mem.wf_keep {α : Type} [DecidableEq α] (d : α) (m : Mem α) (p : Nat → Bool) (h : Mem.wf d m = true) :
    Mem.wf d (Mem.keep p m) = true := by
  rw [Mem.wf_iff] at *
  exact ⟨h.1.filter _, fun e he => h.2 e (List.mem_filter.1 he).1⟩

/-- Changing every listed value keeps the canonical form. -/
theorem Mem.wf_mapAll {α : Type} [DecidableEq α] (d : α) (g : α → α) (m : Mem α) (h : Mem.wf d m = true) :
    Mem.wf d (Mem.mapAll d g m) = true := by
  rw [Mem.wf_iff] at *
  refine ⟨?_, fun e he => ?_⟩
  · refine List.Pairwise.filterMap _ ?_ h.1
    intro x y hxy a ha b hb
    by_cases h1 : g x.2 = d <;> by_cases h2 : g y.2 = d <;> simp_all
    rw [← ha, ← hb]; exact hxy
  · obtain ⟨x, -, hx⟩ := List.mem_filterMap.1 he
    by_cases h1 : g x.2 = d <;> simp_all
    rw [← hx]; exact h1

/-- Writing bytes keeps the canonical form. -/
theorem writeBytes_wf (m : List Host.Cell) (a : Nat) (bs : Bytes) (h : Mem.wf 0 m = true) : Mem.wf 0 (writeBytes m a bs) = true := by
  induction bs generalizing m a with
  | nil => exact h
  | cons b bs ih => exact ih _ _ (Mem.wf_set 0 m a b h)

end Sys2Proof.Machine
end

