-- ==== Sys2Proof/Laws/Kept.lean ====
section
/-! SUPPORT. `Kept o s`: since `o` nothing is taken back (`State.Holds`), and `s` is sound. The shape of the proofs that every
operation and every meaning keeps it: one lemma per operation, in the files named after the operations' own. -/

namespace Sys2Proof.Machine

/-- Since `o` nothing is taken back, and `s` is sound. -/
def Kept (o s : State) : Prop := o.Holds s ∧ s.Sound

/-- An outcome that is a next state leaves it kept. -/
def KeptBy (o : State) (r : Host.Outcome State Fault Refusal) : Prop := ∀ t, r = .next t → Kept o t

theorem Kept.start {s : State} (h : s.Sound) : Kept s s := ⟨⟨rfl, Nat.le_refl _, Nat.le_refl _, rfl⟩, h⟩

@[simp] theorem KeptBy_next (o t : State) : KeptBy o (.next t) ↔ Kept o t := by simp [KeptBy]

/-- A memory in canonical form, a queue and a retention buffer within their places; `o` is named for the sake of rewriting. -/
def OkCells (_o : State) (m : List Host.Cell) : Prop := Mem.wf 0 m = true
def OkQueue (_o : State) (q : List Event) : Prop := q.length ≤ 64
def OkKept (_o : State) (q : List Event) : Prop := q.length ≤ 8

/-- What `Kept` says of a state written out field by field. -/
@[simp] theorem Kept_mk (o : State) (pending freeCtr fns hif nss objs flash dram dmf cpe dge cmp asu sca psm recd therm tap nvs swl) :
    Kept o (State.mk pending freeCtr fns hif nss objs flash dram dmf cpe dge cmp asu sca psm recd therm tap nvs swl) ↔
      pending = o.pending ∧ o.freeCtr ≤ freeCtr ∧ o.nvs.minSvn ≤ nvs.minSvn ∧ Mem.get {} nvs.fw 1 = Mem.get {} o.nvs.fw 1 ∧
        OkCells o dram.cells ∧ OkCells o dmf.spl ∧ OkQueue o recd.queue ∧ OkKept o recd.retention :=
  ⟨fun h => ⟨h.1.1, h.1.2, h.1.3, h.1.4, h.2.1, h.2.2, h.2.3, h.2.4⟩,
    fun h => ⟨⟨h.1, h.2.1, h.2.2.1, h.2.2.2.1⟩, ⟨h.2.2.2.2.1, h.2.2.2.2.2.1, h.2.2.2.2.2.2.1, h.2.2.2.2.2.2.2⟩⟩⟩

variable {o s : State}

@[simp] theorem Kept.pending (h : Kept o s) : (s.pending = o.pending) = True := by simp [h.1.pending]
@[simp] theorem Kept.free (h : Kept o s) : (o.freeCtr ≤ s.freeCtr) = True := by simp [h.1.free]
@[simp] theorem Kept.svn (h : Kept o s) : (o.nvs.minSvn ≤ s.nvs.minSvn) = True := by simp [h.1.svn]
@[simp] theorem Kept.recovery (h : Kept o s) : (Mem.get {} s.nvs.fw 1 = Mem.get {} o.nvs.fw 1) = True := by simp [h.1.recovery]
@[simp] theorem Kept.dram (h : Kept o s) : OkCells o s.dram.cells = True := eq_true h.2.dram
@[simp] theorem Kept.spl (h : Kept o s) : OkCells o s.dmf.spl = True := eq_true h.2.spl
@[simp] theorem Kept.queue (h : Kept o s) : OkQueue o s.recd.queue = True := eq_true h.2.queue
@[simp] theorem Kept.retention (h : Kept o s) : OkKept o s.recd.retention = True := eq_true h.2.retention

@[simp] theorem OkCells_nil : OkCells o [] := rfl
@[simp] theorem OkQueue_nil : OkQueue o [] := Nat.zero_le _
@[simp] theorem OkKept_nil : OkKept o [] := Nat.zero_le _
@[simp] theorem OkCells_write {m : List Host.Cell} (a : Nat) (bs : Bytes) (h : OkCells o m) : OkCells o (writeBytes m a bs) :=
  writeBytes_wf m a bs h
@[simp] theorem OkCells_keep {m : List Host.Cell} (p : Nat → Bool) (h : OkCells o m) : OkCells o (Mem.keep p m) := Mem.wf_keep 0 m p h

@[simp] theorem Kept_ite {c : Prop} [Decidable c] {a b : State} : Kept o (if c then a else b) ↔ if c then Kept o a else Kept o b := by
  split <;> rfl

@[simp] theorem Kept_ite_fst {β : Type} {c : Prop} [Decidable c] {a b : State × β} :
    Kept o (if c then a else b).1 ↔ if c then Kept o a.1 else Kept o b.1 := by
  split <;> rfl

@[simp] theorem Kept_ite_snd {β : Type} {c : Prop} [Decidable c] {a b : β × State} :
    Kept o (if c then a else b).2 ↔ if c then Kept o a.2 else Kept o b.2 := by
  split <;> rfl

/-! What is bound to a name: a state is shown to be kept once, and anything else is left open. -/

theorem Kept.bind {v : State} {b : State → State} (hv : Kept o v) (hb : ∀ x, Kept o x → Kept o (b x)) : Kept o (have x := v; b x) :=
  hb v hv

theorem Kept.name {α : Type} {v : α} {b : α → State} (hb : ∀ x, Kept o (b x)) : Kept o (have x := v; b x) := hb v

theorem Kept.bind_fst {β : Type} {v : State} {b : State → State × β} (hv : Kept o v) (hb : ∀ x, Kept o x → Kept o (b x).1) :
    Kept o (have x := v; b x).1 := hb v hv

theorem Kept.name_fst {α β : Type} {v : α} {b : α → State × β} (hb : ∀ x, Kept o (b x).1) : Kept o (have x := v; b x).1 := hb v

theorem Kept.bind_pair {β : Type} {v : State × β} {b : State × β → State} (hv : Kept o v.1) (hb : ∀ x, Kept o x.1 → Kept o (b x)) :
    Kept o (have x := v; b x) := hb v hv

theorem Kept.bind_pair_snd {β : Type} {v : β × State} {b : β × State → State} (hv : Kept o v.2) (hb : ∀ x, Kept o x.2 → Kept o (b x)) :
    Kept o (have x := v; b x) := hb v hv

/-- A fold of an operation that keeps it. -/
@[simp] theorem Kept.foldl {α : Type} {g : State → α → State} (h : Kept o s) (hg : ∀ s x, Kept o s → Kept o (g s x)) (l : List α) :
    Kept o (l.foldl g s) := by
  induction l generalizing s with
  | nil => exact h
  | cons x l ih => exact ih (hg s x h)

@[simp] theorem Kept.foldl_fst {α β : Type} {g : State × β → α → State × β} {x : State × β} (h : Kept o x.1)
    (hg : ∀ x a, Kept o x.1 → Kept o (g x a).1) (l : List α) : Kept o (l.foldl g x).1 := by
  induction l generalizing x with
  | nil => exact h
  | cons a l ih => exact ih (hg x a h)

@[simp] theorem Kept.foldl_snd {α β : Type} {g : β × State → α → β × State} {x : β × State} (h : Kept o x.2)
    (hg : ∀ x a, Kept o x.2 → Kept o (g x a).2) (l : List α) : Kept o (l.foldl g x).2 := by
  induction l generalizing x with
  | nil => exact h
  | cons a l ih => exact ih (hg x a h)

end Sys2Proof.Machine
end

