-- ==== Sys2Proof/Laws/KeptOps.lean ====
section
/-! SUPPORT. That every operation of Machine/Ops.lean keeps `Kept`. -/

namespace Sys2Proof.Machine

variable {o s : State}

@[simp] theorem State.splWrite_kept (h : Kept o s) (a) (b) : Kept o (State.splWrite s a b) := by simp [State.splWrite, h]

@[simp] theorem State.setTag_kept (h : Kept o s) (a) (b) : Kept o (State.setTag s a b) := by simp [State.setTag, h]

@[simp] theorem State.updFn_kept (h : Kept o s) (a) (b) : Kept o (State.updFn s a b) := by simp [State.updFn, h]

@[simp] theorem State.updMb_kept (h : Kept o s) (a) (b) : Kept o (State.updMb s a b) := by simp [State.updMb, h]

@[simp] theorem State.setCmd_kept (h : Kept o s) (a) (b) : Kept o (State.setCmd s a b) := by simp [State.setCmd, h]

@[simp] theorem State.updCmd_kept (h : Kept o s) (a) (b) : Kept o (State.updCmd s a b) := by
  unfold State.updCmd
  repeat' split
  all_goals simp [h]

@[simp] theorem State.setScull_kept (h : Kept o s) (a) (b) : Kept o (State.setScull s a b) := by simp [State.setScull, h]

@[simp] theorem State.updScull_kept (h : Kept o s) (a) (b) : Kept o (State.updScull s a b) := by simp [State.updScull, h]

@[simp] theorem State.draw_kept (h : Kept o s) (w) : Kept o (s.draw w).2 := by
  have h1 : o.freeCtr ≤ s.freeCtr + 1 := Nat.le_succ_of_le h.1.free
  simp [State.draw, h, h1]

@[simp] theorem State.drawBytes_kept (h : Kept o s) (a) : Kept o (State.drawBytes s a).2 := by simp [State.drawBytes, h]

@[simp] theorem State.emit_kept (h : Kept o s) (a) : Kept o (State.emit s a) := by simp [State.emit, h]

end Sys2Proof.Machine
end

