-- ==== Sys2Proof/Laws/KeptRecords.lean ====
section
/-! SUPPORT. That every operation of Machine/Records.lean keeps `Kept`. -/

namespace Sys2Proof.Machine

variable {o s : State}

/-- A record that enters the queue finds a place or waits outside it. -/
theorem Rec.enqueue_queue {r : Rec} (e : Event) (h : OkQueue o r.queue) : OkQueue o (r.enqueue e).queue := by
  unfold OkQueue at *
  unfold Rec.enqueue
  split
  · simp; omega
  · split
    · exact h
    · split
      · rename_i i hi
        have h1 : i < r.queue.length := by simpa using (List.findIdx?_eq_some_iff_getElem.1 hi).1
        simp [List.length_eraseIdx]
        split <;> omega
      · exact h

theorem Rec.enqueue_retention (r : Rec) (e : Event) : (r.enqueue e).retention = r.retention := by
  unfold Rec.enqueue
  repeat' split
  all_goals rfl

/-- A record that enters the retention buffer takes a place or another's. -/
theorem retain_length (q : List Event) (e : Event) (h : q.length ≤ 8) : (retain q e).1.length ≤ 8 := by
  unfold retain
  split
  · simp; omega
  · split
    · rename_i i hi
      have h1 : i < q.length := by simpa using (List.findIdx?_eq_some_iff_getElem.1 hi).1
      simp [List.length_eraseIdx]
      split <;> omega
    · split
      · exact h
      · split
        · rename_i i hi
          have h1 : i < q.length := by simpa using (List.findIdx?_eq_some_iff_getElem.1 hi).1
          simp [List.length_eraseIdx]
          split <;> omega
        · exact h

theorem Rec.keepBack_retention {r : Rec} (e : Event) (h : OkKept o r.retention) : OkKept o (r.keepBack e).retention :=
  retain_length _ _ h

theorem Rec.keepBack_queue (r : Rec) (e : Event) : (r.keepBack e).queue = r.queue := rfl

@[simp] theorem State.raiseFrom_kept (h : Kept o s) (a) (b) (c) (d) : Kept o (State.raiseFrom s a b c d) := by
  have hq := of_eq_true h.queue
  have hk := of_eq_true h.retention
  unfold State.raiseFrom
  dsimp only
  split <;> split <;>
    simp [h, Rec.enqueue_queue, Rec.enqueue_retention, Rec.keepBack_queue, Rec.keepBack_retention, hq, hk]

@[simp] theorem State.raise_kept (h : Kept o s) (a) (b) (c) : Kept o (State.raise s a b c) := by simp [State.raise, h]

@[simp] theorem State.raiseLimited_kept (h : Kept o s) (a) (b) (c) (d) : Kept o (State.raiseLimited s a b c d) := by simp [State.raiseLimited, h]

@[simp] theorem State.writeRecord_kept (h : Kept o s) : Kept o (State.writeRecord s) := by
  have hq := h.2.queue
  have hk := h.2.retention
  unfold State.writeRecord
  split
  · exact h
  · rename_i e q he
    rw [he] at hq
    simp only [List.length_cons] at hq
    have h1 : OkQueue o q := by show q.length ≤ 64; omega
    have h2 : ∀ b : Event, OkQueue o (q ++ [b]) := by intro b; show (q ++ [b]).length ≤ 64; simp; omega
    dsimp only
    split <;> split <;> simp [h, h1, h2]

@[simp] theorem State.toMode_kept (h : Kept o s) (a) (b) : Kept o (State.toMode s a b) := by simp [State.toMode, h]

@[simp] theorem State.setCause_kept (h : Kept o s) (a) (b) : Kept o (State.setCause s a b) := by simp [State.setCause, h]

@[simp] theorem State.clearCause_kept (h : Kept o s) (a) (b) : Kept o (State.clearCause s a b) := by simp [State.clearCause, h]

end Sys2Proof.Machine
end

