-- ==== Sys2Proof/Laws/KeptHostOps.lean ====
section
/-! SUPPORT. That every operation of Machine/HostOps.lean keeps `Kept`. -/

namespace Sys2Proof.Machine

variable {o s : State}

@[simp] theorem State.noteFinished_kept (h : Kept o s) (a) : Kept o (State.noteFinished s a) := by unfold State.noteFinished; split <;> simp [h]

@[simp] theorem State.finish_kept (h : Kept o s) (a) (b) (c) (d) : Kept o (State.finish s a b c d) := by simp [State.finish, h]

theorem State.onOk_kept {α : Type} (h : Kept o s) (id : CmdId) {r : Except Status α} {k : α → State}
    (hk : ∀ a, r = .ok a → Kept o (k a)) : Kept o (s.onOk id r k) := by
  unfold State.onOk
  split
  · simp [h]
  · exact hk _ rfl

@[simp] theorem State.flushDirty_kept (h : Kept o s) (a) : Kept o (State.flushDirty s a) := by
  unfold State.flushDirty
  repeat' split
  all_goals simp [h]

@[simp] theorem State.markDirty_kept (h : Kept o s) (a) (b) (c) : Kept o (State.markDirty s a b c) := by
  unfold State.markDirty
  repeat' split
  all_goals simp [h]

@[simp] theorem State.hostWrite_kept (h : Kept o s) (a) (b) (c) : Kept o (State.hostWrite s a b c) := by unfold State.hostWrite; split <;> simp [h]

@[simp] theorem State.hostFill_kept (h : Kept o s) (a) (b) (c) (d) : Kept o (State.hostFill s a b c d) := by unfold State.hostFill; split <;> simp [h]

@[simp] theorem State.scatter_kept (h : Kept o s) (a) (b) (c) : Kept o (State.scatter s a b c) := by
  induction b generalizing s c with
  | nil => exact h
  | cons p ps ih => exact ih (by simp [h]) _

@[simp] theorem State.scatterFill_kept (h : Kept o s) (a) (b) (c) : Kept o (State.scatterFill s a b c) := by simp (maxDischargeDepth := 40) +contextual [State.scatterFill, h]

@[simp] theorem State.retractSpan_kept (h : Kept o s) (a) (b) (c) (d) (e) : Kept o (State.retractSpan s a b c d e) := by simp (maxDischargeDepth := 40) +contextual [State.retractSpan, h]

@[simp] theorem State.retractData_kept (h : Kept o s) (a) (b) (c) (d) (e) : Kept o (State.retractData s a b c d e) := by simp [State.retractData, h]

@[simp] theorem State.writeRetracted_kept (h : Kept o s) (a) (b) (c) (d) (e) : Kept o (State.writeRetracted s a b c d e) := by simp (maxDischargeDepth := 40) +contextual [State.writeRetracted, h]

@[simp] theorem State.retractWritten_kept (h : Kept o s) (a) (b) : Kept o (State.retractWritten s a b) := by unfold State.retractWritten; split <;> simp [h]

@[simp] theorem State.sendFrame_kept (h : Kept o s) (a) (b) (c) (d) (e) : Kept o (State.sendFrame s a b c d e) := by simp [State.sendFrame, h]

@[simp] theorem State.cmdWrite_kept (h : Kept o s) (a) (b) (c) (d) : Kept o (State.cmdWrite s a b c d) := by
  unfold State.cmdWrite
  repeat' split
  all_goals simp (maxDischargeDepth := 40) +contextual [h]

@[simp] theorem State.dataWrite_kept (h : Kept o s) (a) (b) (c) (d) : Kept o (State.dataWrite s a b c d) := by unfold State.dataWrite; split <;> simp [h]

@[simp] theorem State.reply_kept (h : Kept o s) (a) (b) : Kept o (State.reply s a b) := by
  unfold State.reply
  repeat' split
  all_goals simp [h]

@[simp] theorem State.answer_kept (h : Kept o s) (a) (b) : Kept o (State.answer s a b) := by
  unfold State.answer
  repeat' split
  all_goals simp [h]

@[simp] theorem State.asyncEvent_kept (h : Kept o s) (a) (b) : Kept o (State.asyncEvent s a b) := by
  unfold State.asyncEvent
  repeat' split
  all_goals simp [h]

@[simp] theorem State.smartEvent_kept (h : Kept o s) (a) : Kept o (State.smartEvent s a) := by simp (maxDischargeDepth := 40) +contextual [State.smartEvent, h]

@[simp] theorem State.release_kept (h : Kept o s) (a) (b) : Kept o (State.release s a b) := by simp [State.release, h]

@[simp] theorem State.releaseAll_kept (h : Kept o s) (a) : Kept o (State.releaseAll s a) := by simp [State.releaseAll, h]

@[simp] theorem State.takeLocks_kept (h : Kept o s) (a) (b) (c) (d) (e) : Kept o (State.takeLocks s a b c d e) := by simp [State.takeLocks, h]

@[simp] theorem State.wake_kept (h : Kept o s) : Kept o (State.wake s) := by unfold State.wake; split <;> simp [h]

end Sys2Proof.Machine
end

