-- ==== Sys2Proof/Laws/KeptDmf.lean ====
section
/-! SUPPORT. That every operation of Machine/Dmf.lean keeps `Kept`. -/

namespace Sys2Proof.Machine

variable {o s : State}

@[simp] theorem State.spaceWrite_kept (h : Kept o s) (a) (b) (c) (d) : Kept o (State.spaceWrite s a b c d) := by
  unfold State.spaceWrite
  repeat' split
  all_goals simp [h]

@[simp] theorem State.spaceFill_kept (h : Kept o s) (a) (b) (c) (d) (e) : Kept o (State.spaceFill s a b c d e) := by
  unfold State.spaceFill
  repeat' split
  all_goals simp [h]

@[simp] theorem State.writeLine_kept (h : Kept o s) (a) (b) (c) : Kept o (State.writeLine s a b c) := by unfold State.writeLine; split <;> simp [h]

@[simp] theorem State.closeDesc_kept (h : Kept o s) (a) (b) (c) : Kept o (State.closeDesc s a b c) := by unfold State.closeDesc; split <;> simp [h]

@[simp] theorem State.setCh_kept (h : Kept o s) (a) (b) : Kept o (State.setCh s a b) := by simp [State.setCh, h]

@[simp] theorem State.scullReply_kept (h : Kept o s) (a) (b) (c) : Kept o (State.scullReply s a b c) := by unfold State.scullReply; split <;> simp [h]

@[simp] theorem State.releaseHeld_kept (h : Kept o s) (a) (b) : Kept o (State.releaseHeld s a b) := by
  unfold State.releaseHeld
  repeat' split
  all_goals simp [h]

@[simp] theorem State.replyAfterJob_kept (h : Kept o s) (a) (b) (c) (d) : Kept o (State.replyAfterJob s a b c d) := by unfold State.replyAfterJob; split <;> simp [h]

@[simp] theorem State.dmaEvent_kept (h : Kept o s) (a) (b) : Kept o (State.dmaEvent s a b) := by unfold State.dmaEvent; split <;> simp [h]

@[simp] theorem State.jobEnded_kept (h : Kept o s) (a) (b) : Kept o (State.jobEnded s a b) := by unfold State.jobEnded; split <;> simp [h]

@[simp] theorem State.advance_kept (h : Kept o s) (a) (b) : Kept o (State.advance s a b) := by unfold State.advance; split <;> simp [h]

@[simp] theorem State.retractJob_kept (h : Kept o s) (a) (b) (c) (d) : Kept o (State.retractJob s a b c d).1 := by
  induction c generalizing s d with
  | nil => exact h
  | cons x l ih => exact ih (by simp (maxDischargeDepth := 40) [h]) _

@[simp] theorem State.failJob_kept (h : Kept o s) (a) (b) (c) : Kept o (State.failJob s a b c) := by simp (maxDischargeDepth := 40) +contextual [State.failJob, h]

@[simp] theorem State.completeDesc_kept (h : Kept o s) (a) (b) (c) (d) : Kept o (State.completeDesc s a b c d) := by simp (maxDischargeDepth := 40) +contextual [State.completeDesc, h]

@[simp] theorem State.fetchDesc_kept (h : Kept o s) (a) : Kept o (State.fetchDesc s a) := by simp (maxDischargeDepth := 40) +contextual [State.fetchDesc, h]

@[simp] theorem State.writeTags_kept (h : Kept o s) (a) (b) (c) : Kept o (State.writeTags s a b c) := by
  unfold State.writeTags
  repeat' split
  all_goals simp (maxDischargeDepth := 40) +contextual [h]

@[simp] theorem State.moveDesc_kept (h : Kept o s) (a) (b) (c) : Kept o (State.moveDesc s a b c) := by simp (maxDischargeDepth := 40) +contextual [State.moveDesc, h]

@[simp] theorem State.stopMove_kept (h : Kept o s) (a) (b) : Kept o (State.stopMove s a b) := by simp (maxDischargeDepth := 40) +contextual [State.stopMove, h]

@[simp] theorem State.failMove_kept (h : Kept o s) (a) (b) (c) (d) : Kept o (State.failMove s a b c d) := by simp [State.failMove, h]

@[simp] theorem State.dmaRing_kept (h : Kept o s) (a) : Kept o (State.dmaRing s a) := by
  unfold State.dmaRing
  dsimp only
  repeat' split
  all_goals simp (maxDischargeDepth := 40) +contextual [h]

@[simp] theorem execChannelRing_kept (h : Kept o s) (a) : KeptBy o (execChannelRing a s) := by simp [execChannelRing, h]

@[simp] theorem State.dmaClear_kept (h : Kept o s) (a) : Kept o (State.dmaClear s a) := by
  unfold State.dmaClear
  dsimp only
  repeat' split
  all_goals simp (maxDischargeDepth := 40) +contextual [h]

@[simp] theorem execChannelClear_kept (h : Kept o s) (a) : KeptBy o (execChannelClear a s) := by simp [execChannelClear, h]

@[simp] theorem State.takeVerdict_kept (h : Kept o s) (a) (b) : Kept o (State.takeVerdict s a b) := by simp [State.takeVerdict, h]

@[simp] theorem State.upstreamFail_kept (h : Kept o s) (a) (b) : Kept o (State.upstreamFail s a b) := by simp [State.upstreamFail, h]

@[simp] theorem State.jobVerdict_kept (h : Kept o s) (a) (b) (c) : Kept o (State.jobVerdict s a b c) := by unfold State.jobVerdict; split <;> simp [h]

@[simp] theorem State.jobVerdictFor_kept (h : Kept o s) (a) (b) (c) : Kept o (State.jobVerdictFor s a b c) := by simp [State.jobVerdictFor, h]

@[simp] theorem execJobVerdict_kept (h : Kept o s) (a) (b) : KeptBy o (execJobVerdict a b s) := by simp [execJobVerdict, h]

@[simp] theorem execUpstreamFail_kept (h : Kept o s) (a) (b) : KeptBy o (execUpstreamFail a b s) := by simp [execUpstreamFail, h]

@[simp] theorem State.forceChannel_kept (h : Kept o s) (a) (b) : Kept o (State.forceChannel s a b).1 := by
  unfold State.forceChannel
  dsimp only
  repeat' split
  all_goals simp (maxDischargeDepth := 40) +contextual [h]

@[simp] theorem State.forceOff_kept (h : Kept o s) (a) : Kept o (State.forceOff s a) := by
  unfold State.forceOff
  dsimp only
  repeat' split
  all_goals simp (maxDischargeDepth := 40) +contextual [h]

@[simp] theorem execForceOff_kept (h : Kept o s) (a) : KeptBy o (execForceOff a s) := by unfold execForceOff; split <;> simp [h]

@[simp] theorem execDomainPowerDown_kept (h : Kept o s) (a) : KeptBy o (execDomainPowerDown a s) := by simp [execDomainPowerDown, h]

@[simp] theorem State.setAu_kept (h : Kept o s) (a) (b) : Kept o (State.setAu s a b) := by simp [State.setAu, h]

@[simp] theorem execAuRound_kept (h : Kept o s) (a) (b) : KeptBy o (execAuRound a b s) := by
  unfold execAuRound
  dsimp only
  repeat' split
  all_goals simp (maxDischargeDepth := 40) +contextual [h]

@[simp] theorem execAuCommit_kept (h : Kept o s) (a) : KeptBy o (execAuCommit a s) := by simp [execAuCommit, h]

end Sys2Proof.Machine
end

