-- ==== Sys2Proof/Laws/KeptIntegrity.lean ====
section
/-! SUPPORT. That every operation of Machine/Integrity.lean keeps `Kept`. -/

namespace Sys2Proof.Machine

variable {o s : State}

@[simp] theorem State.stopEngines_kept (h : Kept o s) : Kept o (State.stopEngines s) := by simp [State.stopEngines, h]

@[simp] theorem State.haltChannel_kept (h : Kept o s) (a) : Kept o (State.haltChannel s a) := by simp (maxDischargeDepth := 40) +contextual [State.haltChannel, h]

@[simp] theorem State.haltOutputs_kept (h : Kept o s) : Kept o (State.haltOutputs s) := by simp [State.haltOutputs, h]

@[simp] theorem State.abandonWork_kept (h : Kept o s) : Kept o (State.abandonWork s) := by simp (maxDischargeDepth := 40) +contextual [State.abandonWork, h]

@[simp] theorem State.noteUndone_kept (h : Kept o s) : Kept o (State.noteUndone s) := by simp [State.noteUndone, h]

@[simp] theorem State.enterSafeHalt_kept (h : Kept o s) (a) (b) (c) (d) : Kept o (State.enterSafeHalt s a b c d) := by
  unfold State.enterSafeHalt
  repeat' split
  all_goals simp (maxDischargeDepth := 40) +contextual [h]

@[simp] theorem State.dangerHalt_kept (h : Kept o s) (a) (b) (c) (d) : Kept o (State.dangerHalt s a b c d) := by simp [State.dangerHalt, h]

@[simp] theorem State.withdraw_kept (h : Kept o s) (a) (b) (c) : Kept o (State.withdraw s a b c) := by simp [State.withdraw, h]

@[simp] theorem State.detect_kept (h : Kept o s) (a) (b) (c) : Kept o (State.detect s a b c) := by unfold State.detect; split <;> simp [h]

@[simp] theorem State.splError_kept (h : Kept o s) (a) : Kept o (State.splError s a) := by simp [State.splError, h]

@[simp] theorem State.reportTag_kept (h : Kept o s) (a) (b) (c) (d) : Kept o (State.reportTag s a b c d) := by simp [State.reportTag, h]

@[simp] theorem State.tagMismatch_kept (h : Kept o s) (a) (b) (c) (d) (e) : Kept o (State.tagMismatch s a b c d e) := by simp (maxDischargeDepth := 40) +contextual [State.tagMismatch, h]

end Sys2Proof.Machine
end

