-- ==== Sys2Proof/Laws/KeptChannels.lean ====
section
/-! SUPPORT. That every operation of Machine/Channels.lean keeps `Kept`. -/

namespace Sys2Proof.Machine

variable {o s : State}

@[simp] theorem State.failTag_kept (h : Kept o s) (a) (b) (c) (d) : Kept o (State.failTag s a b c d) := by simp [State.failTag, h]

@[simp] theorem State.failSource_kept (h : Kept o s) (a) (b) (c) : Kept o (State.failSource s a b c) := by unfold State.failSource; split <;> simp [h]

@[simp] theorem State.endMove_kept (h : Kept o s) (a) (b) (c) : Kept o (State.endMove s a b c) := by simp (maxDischargeDepth := 40) +contextual [State.endMove, h]

@[simp] theorem execDescriptorComplete_kept (h : Kept o s) (a) (b) : KeptBy o (execDescriptorComplete a b s) := by
  unfold execDescriptorComplete
  dsimp only
  repeat' split
  all_goals simp (maxDischargeDepth := 40) +contextual [h]

end Sys2Proof.Machine
end

