-- ==== Sys2Proof/Laws/KeptUnits.lean ====
section
/-! SUPPORT. That every operation of Machine/Units.lean keeps `Kept`. -/

namespace Sys2Proof.Machine

variable {o s : State}

@[simp] theorem State.setNs_kept (h : Kept o s) (a) (b) : Kept o (State.setNs s a b) := by simp [State.setNs, h]

@[simp] theorem State.setChunk_kept (h : Kept o s) (a) (b) : Kept o (State.setChunk s a b) := by simp [State.setChunk, h]

@[simp] theorem State.updDie_kept (h : Kept o s) (a) (b) : Kept o (State.updDie s a b) := by simp [State.updDie, h]

@[simp] theorem State.updSb_kept (h : Kept o s) (a) (b) : Kept o (State.updSb s a b) := by simp [State.updSb, h]

@[simp] theorem State.setCells_kept (h : Kept o s) (a) (b) : Kept o (State.setCells s a b) := by
  induction b generalizing s a with
  | nil => exact h
  | cons w ws ih => cases w <;> exact ih (by simp [h]) _

@[simp] theorem State.closeSb_kept (h : Kept o s) (a) : Kept o (State.closeSb s a) := by simp [State.closeSb, h]

@[simp] theorem State.openSb_kept (h : Kept o s) (a) (b) : Kept o (State.openSb s a b) := by simp (maxDischargeDepth := 40) +contextual [State.openSb, h]

theorem State.placeIn_kept (h : Kept o s) {q : Nat} {u : SbUse} {n a : Nat} {r : State × Nat × Nat}
    (hr : s.placeIn q u n a = some r) : Kept o r.1 := by
  have k : ∀ (c : Bool) (x : State) (y : State × Nat × Nat), Kept o x →
      (if c then (x.freeSb q).map (fun i => (x.openSb (sbKey q i) u, sbKey q i, 0)) else none) = some y → Kept o y.1 := by
    intro c x y hx hy
    split at hy
    · obtain ⟨i, -, rfl⟩ := Option.map_eq_some_iff.1 hy
      exact State.openSb_kept hx _ _
    · contradiction
  unfold State.placeIn at hr
  dsimp only at hr
  split at hr
  · split at hr
    · injection hr with hr; subst hr; exact h
    · exact k _ _ _ (State.closeSb_kept h _) hr
  · exact k _ _ _ h hr

theorem State.place_kept (h : Kept o s) {u : SbUse} {n a : Nat} {p : Nat → Bool} {r : State × Nat × Nat}
    (hr : s.place u n a p = some r) : Kept o r.1 := by
  unfold State.place at hr
  obtain ⟨q, -, hq⟩ := List.exists_of_findSome?_eq_some hr
  exact State.placeIn_kept h hq

@[simp] theorem State.fillSb_kept (h : Kept o s) (a) (b) : Kept o (State.fillSb s a b) := by simp [State.fillSb, h]

@[simp] theorem State.countPages_kept (h : Kept o s) (a) : Kept o (State.countPages s a) := by simp (maxDischargeDepth := 40) +contextual [State.countPages, h]

@[simp] theorem State.programPages_kept (h : Kept o s) (a) (b) : Kept o (State.programPages s a b).1 := by
  unfold State.programPages
  split
  · split
    · exact h
    · extract_lets seq s2 s3
      have k : Kept o s3 := State.fillSb_kept (State.setCells_kept (State.place_kept h ‹_›) _ _) _ _
      simp [k]
  · exact h

@[simp] theorem State.programJournal_kept (h : Kept o s) (a) : Kept o (State.programJournal s a) := by simp [State.programJournal, h]

@[simp] theorem State.putEntry_kept (h : Kept o s) (a) (b) : Kept o (State.putEntry s a b) := by
  unfold State.putEntry
  repeat' split
  all_goals simp [h]

@[simp] theorem State.writePage_kept (h : Kept o s) (a) : Kept o (State.writePage s a) := by
  have k : Kept o (s.programPages 2 [s.mapPage a]).1 := State.programPages_kept h _ _
  unfold State.writePage
  split <;> simp_all

@[simp] theorem State.evictPage_kept (h : Kept o s) : Kept o (State.evictPage s) := by unfold State.evictPage; split <;> simp [h]

@[simp] theorem State.touchPage_kept (h : Kept o s) (a) (b) : Kept o (State.touchPage s a b) := by
  unfold State.touchPage
  dsimp only
  repeat' split
  all_goals simp (maxDischargeDepth := 40) +contextual [h]

@[simp] theorem State.journalRecord_kept (h : Kept o s) (a) (b) : Kept o (State.journalRecord s a b) := by simp (maxDischargeDepth := 40) +contextual [State.journalRecord, h]

@[simp] theorem State.setEntry_kept (h : Kept o s) (a) (b) : Kept o (State.setEntry s a b) := by simp [State.setEntry, h]

@[simp] theorem State.applyWord_kept (h : Kept o s) (a) : Kept o (State.applyWord s a) := by unfold State.applyWord; split <;> simp [h]

@[simp] theorem State.forgetMaps_kept (h : Kept o s) : Kept o (State.forgetMaps s) := by simp [State.forgetMaps, h]

@[simp] theorem State.replayMaps_kept (h : Kept o s) : Kept o (State.replayMaps s) := by simp (maxDischargeDepth := 40) +contextual [State.replayMaps, h]

end Sys2Proof.Machine
end

