-- ==== Sys2Proof/Laws/KeptMedia.lean ====
section
/-! SUPPORT. That every operation of Machine/Media.lean keeps `Kept`. -/

namespace Sys2Proof.Machine

variable {o s : State}

@[simp] theorem State.takeSlot_kept (h : Kept o s) (a) (b) : Kept o (State.takeSlot s a b) := by simp [State.takeSlot, h]

@[simp] theorem State.fillSlot_kept (h : Kept o s) (a) (b) (c) (d) : Kept o (State.fillSlot s a b c d) := by simp (maxDischargeDepth := 40) +contextual [State.fillSlot, h]

@[simp] theorem State.freeSlotAt_kept (h : Kept o s) (a) : Kept o (State.freeSlotAt s a) := by unfold State.freeSlotAt; split <;> simp [h]

@[simp] theorem State.dropBuffer_kept (h : Kept o s) (a) : Kept o (State.dropBuffer s a) := by simp (maxDischargeDepth := 40) +contextual [State.dropBuffer, h]

@[simp] theorem State.putUnit_kept (h : Kept o s) (a) (b) (c) : Kept o (State.putUnit s a b c) := by
  unfold State.putUnit
  repeat' split
  all_goals simp (maxDischargeDepth := 40) +contextual [h]

@[simp] theorem State.unmap_kept (h : Kept o s) (a) : Kept o (State.unmap s a) := by simp [State.unmap, h]

@[simp] theorem State.loseUnit_kept (h : Kept o s) (a) : Kept o (State.loseUnit s a) := by
  unfold State.loseUnit
  dsimp only
  repeat' split
  all_goals simp (maxDischargeDepth := 40) +contextual [h]

@[simp] theorem State.startOp_kept (h : Kept o s) (a) : Kept o (State.startOp s a) := by simp [State.startOp, h]

@[simp] theorem State.setOp_kept (h : Kept o s) (a) (b) : Kept o (State.setOp s a b) := by simp [State.setOp, h]

@[simp] theorem State.startProgram_kept (h : Kept o s) (a) (b) (c) (d) : Kept o (State.startProgram s a b c d) := by
  unfold State.startProgram
  dsimp only
  split
  · exact h
  · split
    · exact h
    · exact State.startOp_kept (State.fillSb_kept (State.place_kept h ‹_›) _ _) _

@[simp] theorem State.spoiled_kept (h : Kept o s) (a) (b) : Kept o (State.spoiled s a b) := by
  unfold State.spoiled
  repeat' split
  all_goals simp (maxDischargeDepth := 40) +contextual [h]

@[simp] theorem State.sendEntries_kept (h : Kept o s) (a) : Kept o (State.sendEntries s a) :=
  Kept.foldl (Kept.foldl h (fun _ _ h => State.startProgram_kept h _ _ _ _) _) (fun _ _ h => State.startProgram_kept h _ _ _ _) _

@[simp] theorem State.programBuffer_kept (h : Kept o s) (a) : Kept o (State.programBuffer s a) := by
  refine State.sendEntries_kept (Kept.foldl h (fun s e h => ?_) _) _
  split <;> simp [h]

@[simp] theorem State.programmed_kept (h : Kept o s) : Kept o (State.programmed s) := by simp (maxDischargeDepth := 40) +contextual [State.programmed, h]

@[simp] theorem State.bufferDone_kept (h : Kept o s) (a) (b) (c) (d) (e) : Kept o (State.bufferDone s a b c d e) := by
  unfold State.bufferDone
  dsimp only
  repeat' split
  all_goals simp (maxDischargeDepth := 40) +contextual [h]

@[simp] theorem State.enterCopy_kept (h : Kept o s) (a) (b) : Kept o (State.enterCopy s a b) := by simp [State.enterCopy, h]

@[simp] theorem State.copyDone_kept (h : Kept o s) (a) (b) (c) (d) (e) : Kept o (State.copyDone s a b c d e) := by
  unfold State.copyDone
  dsimp only
  repeat' split
  all_goals simp (maxDischargeDepth := 40) +contextual [h]

@[simp] theorem State.eraseEmpty_kept (h : Kept o s) : Kept o (State.eraseEmpty s) := by simp (maxDischargeDepth := 40) +contextual [State.eraseEmpty, h]

@[simp] theorem State.startCopy_kept (h : Kept o s) (a) (b) (c) : Kept o (State.startCopy s a b c) := by simp (maxDischargeDepth := 40) +contextual [State.startCopy, h]

@[simp] theorem State.relocateSb_kept (h : Kept o s) (a) (b) : Kept o (State.relocateSb s a b) := by simp [State.relocateSb, h]

@[simp] theorem State.checkSpare_kept (h : Kept o s) : Kept o (State.checkSpare s) := by simp (maxDischargeDepth := 40) +contextual [State.checkSpare, h]

@[simp] theorem State.retireMembers_kept (h : Kept o s) (a) (b) : Kept o (State.retireMembers s a b) := by simp (maxDischargeDepth := 40) +contextual [State.retireMembers, h]

@[simp] theorem State.failDie_kept (h : Kept o s) (a) (b) : Kept o (State.failDie s a b) := by simp (maxDischargeDepth := 40) +contextual [State.failDie, h]

@[simp] theorem State.dieResult_kept (h : Kept o s) (a) (b) (c) : Kept o (State.dieResult s a b c) := by unfold State.dieResult; split <;> simp [h]

@[simp] theorem State.dieResults_kept (h : Kept o s) (a) (b) (c) : Kept o (State.dieResults s a b c) := by simp (maxDischargeDepth := 40) +contextual [State.dieResults, h]

@[simp] theorem State.unrecovered_kept (h : Kept o s) (a) (b) : Kept o (State.unrecovered s a b) := by simp (maxDischargeDepth := 40) +contextual [State.unrecovered, h]

@[simp] theorem State.settleHoldup_kept (h : Kept o s) : Kept o (State.settleHoldup s) := by
  unfold State.settleHoldup
  repeat' split
  all_goals simp (maxDischargeDepth := 40) +contextual [h]

@[simp] theorem State.startVolatile_kept (h : Kept o s) : Kept o (State.startVolatile s) := by simp (maxDischargeDepth := 40) +contextual [State.startVolatile, h]

@[simp] theorem State.becomeProtected_kept (h : Kept o s) : Kept o (State.becomeProtected s) := by unfold State.becomeProtected; split <;> simp [h]

@[simp] theorem State.stage_kept (h : Kept o s) (a) (b) (c) : Kept o (State.stage s a b c) := by simp [State.stage, h]

@[simp] theorem State.unstage_kept (h : Kept o s) (a) : Kept o (State.unstage s a) := by simp [State.unstage, h]

@[simp] theorem State.readMismatch_kept (h : Kept o s) (a) (b) (c) : Kept o (State.readMismatch s a b c) := by unfold State.readMismatch; split <;> simp [h]

@[simp] theorem State.stageBuffered_kept (h : Kept o s) (a) (b) : Kept o (State.stageBuffered s a b) := by unfold State.stageBuffered; split <;> simp [h]

@[simp] theorem State.startRead_kept (h : Kept o s) (a) (b) (c) : Kept o (State.startRead s a b c) := by simp (maxDischargeDepth := 40) +contextual [State.startRead, h]

@[simp] theorem State.fetchEntry_kept (h : Kept o s) (a) (b) : Kept o (State.fetchEntry s a b) := by
  unfold State.fetchEntry
  dsimp only
  repeat' split
  all_goals simp (maxDischargeDepth := 40) +contextual [h]

@[simp] theorem State.fetchUnit_kept (h : Kept o s) (a) (b) : Kept o (State.fetchUnit s a b) := by
  unfold State.fetchUnit
  repeat' split
  all_goals simp [h]

@[simp] theorem State.fetchUnits_kept (h : Kept o s) (a) (b) : Kept o (State.fetchUnits s a b) := by simp (maxDischargeDepth := 40) +contextual [State.fetchUnits, h]

end Sys2Proof.Machine
end

