-- ==== Sys2Proof/Laws/KeptFlash.lean ====
section
/-! SUPPORT. That every operation of Machine/Flash.lean keeps `Kept`. -/

namespace Sys2Proof.Machine

variable {o s : State}

@[simp] theorem State.endRead_kept (h : Kept o s) (a) (b) : Kept o (State.endRead s a b) := by simp [State.endRead, h]

@[simp] theorem State.deliver_kept (h : Kept o s) (a) (b) : Kept o (State.deliver s a b) := by
  unfold State.deliver
  repeat' split
  all_goals simp [h]

@[simp] theorem State.loseFailed_kept (h : Kept o s) (a) : Kept o (State.loseFailed s a) := by simp (maxDischargeDepth := 40) +contextual [State.loseFailed, h]

@[simp] theorem State.dropCopy_kept (h : Kept o s) (a) : Kept o (State.dropCopy s a) := by simp [State.dropCopy, h]

@[simp] theorem State.readResults_kept (h : Kept o s) (a) (b) : Kept o (State.readResults s a b) := by simp [State.readResults, h]

@[simp] theorem State.readRung_kept (h : Kept o s) (a) (b) (c) (d) (e) : Kept o (State.readRung s a b c d e) := by simp (maxDischargeDepth := 40) +contextual [State.readRung, h]

@[simp] theorem State.flushRecopy_kept (h : Kept o s) : Kept o (State.flushRecopy s) := by simp (maxDischargeDepth := 40) +contextual [State.flushRecopy, h]

@[simp] theorem State.copyRead_kept (h : Kept o s) (a) (b) (c) (d) : Kept o (State.copyRead s a b c d) := by simp (maxDischargeDepth := 40) +contextual [State.copyRead, h]

@[simp] theorem State.copyRung_kept (h : Kept o s) (a) (b) (c) (d) (e) : Kept o (State.copyRung s a b c d e) := by simp (maxDischargeDepth := 40) +contextual [State.copyRung, h]

@[simp] theorem State.readStep_kept (h : Kept o s) (a) (b) (c) : Kept o (State.readStep s a b c) := by
  unfold State.readStep
  repeat' split
  all_goals simp [h]

@[simp] theorem execFlashReadComplete_kept (h : Kept o s) (a) (b) : KeptBy o (execFlashReadComplete a b s) := by
  unfold execFlashReadComplete
  repeat' split
  all_goals simp [h]

@[simp] theorem execLadderRungRead_kept (h : Kept o s) (a) (b) : KeptBy o (execLadderRungRead a b s) := by
  unfold execLadderRungRead
  repeat' split
  all_goals simp [h]

@[simp] theorem State.partDone_kept (h : Kept o s) (a) (b) (c) : Kept o (State.partDone s a b c) := by unfold State.partDone; split <;> simp [h]

@[simp] theorem State.programFailRecord_kept (h : Kept o s) (a) (b) (c) (d) : Kept o (State.programFailRecord s a b c d) := by unfold State.programFailRecord; split <;> simp [h]

@[simp] theorem State.redirect_kept (h : Kept o s) (a) (b) (c) (d) : Kept o (State.redirect s a b c d) := by unfold State.redirect; split <;> simp [h]

@[simp] theorem State.programFailed_kept (h : Kept o s) (a) (b) (c) (d) : Kept o (State.programFailed s a b c d) := by simp (maxDischargeDepth := 40) +contextual [State.programFailed, h]

@[simp] theorem execFlashProgramComplete_kept (h : Kept o s) (a) (b) : KeptBy o (execFlashProgramComplete a b s) := by
  unfold execFlashProgramComplete
  repeat' split
  all_goals simp (maxDischargeDepth := 40) +contextual [h]

@[simp] theorem State.eraseBlocks_kept (h : Kept o s) (a) (b) : Kept o (State.eraseBlocks s a b) := by simp (maxDischargeDepth := 40) +contextual [State.eraseBlocks, h]

@[simp] theorem execFlashEraseComplete_kept (h : Kept o s) (a) (b) : KeptBy o (execFlashEraseComplete a b s) := by
  unfold execFlashEraseComplete
  repeat' split
  all_goals simp (maxDischargeDepth := 40) +contextual [h]

@[simp] theorem execProgramSuspend_kept (h : Kept o s) (a) : KeptBy o (execProgramSuspend a s) := by
  unfold execProgramSuspend
  repeat' split
  all_goals simp [h]

@[simp] theorem execDieFailed_kept (h : Kept o s) (a) (b) : KeptBy o (execDieFailed a b s) := by unfold execDieFailed; split <;> simp [h]

@[simp] theorem execFold_kept (h : Kept o s) (a) : KeptBy o (execFold a s) := by
  unfold execFold
  repeat' split
  all_goals simp [h]

@[simp] theorem execGcStart_kept (h : Kept o s) (a) : KeptBy o (execGcStart a s) := by
  unfold execGcStart
  repeat' split
  all_goals simp [h]

@[simp] theorem execWearLevelRelocate_kept (h : Kept o s) (a) : KeptBy o (execWearLevelRelocate a s) := by unfold execWearLevelRelocate; split <;> simp [h]

@[simp] theorem State.countRead_kept (h : Kept o s) (a) : Kept o (State.countRead s a) := by simp [State.countRead, h]

@[simp] theorem State.reclaimHot_kept (h : Kept o s) (a) : Kept o (State.reclaimHot s a) := by
  unfold State.reclaimHot
  extract_lets here s1 kept
  have k : Kept o s1 := Kept.foldl h (fun s x h => State.dropCopy_kept h _) _
  split <;> simp [k]

@[simp] theorem execReadDisturbRelocate_kept (h : Kept o s) (a) (b) : KeptBy o (execReadDisturbRelocate a b s) := by simp (maxDischargeDepth := 40) +contextual [execReadDisturbRelocate, h]

@[simp] theorem execDisturbCheckpoint_kept (h : Kept o s) : KeptBy o (execDisturbCheckpoint s) := by unfold execDisturbCheckpoint; split <;> simp [h]

@[simp] theorem State.retune_kept (h : Kept o s) (a) : Kept o (State.retune s a) := by simp (maxDischargeDepth := 40) +contextual [State.retune, h]

@[simp] theorem execPatrolScan_kept (h : Kept o s) (a) (b) (c) (d) : KeptBy o (execPatrolScan a b c d s) := by simp (maxDischargeDepth := 40) +contextual [execPatrolScan, h]

@[simp] theorem execHotPromote_kept (h : Kept o s) (a) : KeptBy o (execHotPromote a s) := by
  unfold execHotPromote
  dsimp only
  repeat' split
  all_goals simp (maxDischargeDepth := 40) +contextual [h]

@[simp] theorem execSketchHalving_kept (h : Kept o s) : KeptBy o (execSketchHalving s) := by unfold execSketchHalving; split <;> simp [h]

@[simp] theorem execJournalProgram_kept (h : Kept o s) : KeptBy o (execJournalProgram s) := by unfold execJournalProgram; split <;> simp [h]

@[simp] theorem State.checkpointMaps_kept (h : Kept o s) : Kept o (State.checkpointMaps s) := by simp (maxDischargeDepth := 40) +contextual [State.checkpointMaps, h]

@[simp] theorem execMapCheckpoint_kept (h : Kept o s) : KeptBy o (execMapCheckpoint s) := by unfold execMapCheckpoint; split <;> simp [h]

@[simp] theorem execWriteStopReadOnly_kept (h : Kept o s) (a) : KeptBy o (execWriteStopReadOnly a s) := by simp (maxDischargeDepth := 40) +contextual [execWriteStopReadOnly, h]

@[simp] theorem execReadOnlyCleared_kept (h : Kept o s) : KeptBy o (execReadOnlyCleared s) := by simp (maxDischargeDepth := 40) +contextual [execReadOnlyCleared, h]

@[simp] theorem State.trained_kept (h : Kept o s) (a) : Kept o (State.trained s a) := by unfold State.trained; split <;> simp [h]

@[simp] theorem State.takeDie_kept (h : Kept o s) (a) (b) : Kept o (State.takeDie s a b) := by simp [State.takeDie, h]

@[simp] theorem State.firstBoot_kept (h : Kept o s) (a) : Kept o (State.firstBoot s a) := by unfold State.firstBoot; split <;> simp [h]

@[simp] theorem State.excludeDie_kept (h : Kept o s) (a) (b) : Kept o (State.excludeDie s a b) := by simp [State.excludeDie, h]

@[simp] theorem execFlashDiscovery_kept (h : Kept o s) (a) (b) : KeptBy o (execFlashDiscovery a b s) := by
  unfold execFlashDiscovery
  dsimp only
  repeat' split
  all_goals simp (maxDischargeDepth := 40) +contextual [h]

@[simp] theorem execJournalReplay_kept (h : Kept o s) : KeptBy o (execJournalReplay s) := by simp (maxDischargeDepth := 40) +contextual [execJournalReplay, h]

end Sys2Proof.Machine
end

