-- ==== Sys2Proof/Laws/KeptPair.lean ====
section
/-! SUPPORT. That every operation of Machine/Pair.lean keeps `Kept`. -/

namespace Sys2Proof.Machine

variable {o s : State}

@[simp] theorem State.noteDirty_kept (h : Kept o s) (a) (b) : Kept o (State.noteDirty s a b) := by unfold State.noteDirty; split <;> simp [h]

@[simp] theorem State.anaEvent_kept (h : Kept o s) : Kept o (State.anaEvent s) := by simp (maxDischargeDepth := 40) +contextual [State.anaEvent, h]

end Sys2Proof.Machine
end

