-- ==== Sys2Proof/Laws/KeptHif.lean ====
section
/-! SUPPORT. That every operation of Machine/Hif.lean keeps `Kept`. -/

namespace Sys2Proof.Machine

variable {o s : State}

@[simp] theorem State.setSq_kept (h : Kept o s) (a) (b) (c) : Kept o (State.setSq s a b c) := by simp [State.setSq, h]

@[simp] theorem State.setCq_kept (h : Kept o s) (a) (b) (c) : Kept o (State.setCq s a b c) := by simp [State.setCq, h]

@[simp] theorem State.msix_kept (h : Kept o s) (a) (b) : Kept o (State.msix s a b) := by unfold State.msix; split <;> simp [h]

@[simp] theorem State.endCmd_kept (h : Kept o s) (a) : Kept o (State.endCmd s a) := by simp (maxDischargeDepth := 40) +contextual [State.endCmd, h]

@[simp] theorem State.postEntry_kept (h : Kept o s) (a) : Kept o (State.postEntry s a) := by
  unfold State.postEntry
  dsimp only
  repeat' split
  all_goals simp (maxDischargeDepth := 40) +contextual [h]

@[simp] theorem State.postHeld_kept (h : Kept o s) (a) (b) (c) : Kept o (State.postHeld s a b c) := by
  induction c generalizing s with
  | zero => exact h
  | succ n ih =>
    unfold State.postHeld
    repeat' split
    all_goals first | exact h | exact ih (by simp [h])

@[simp] theorem execCompletionPost_kept (h : Kept o s) (a) : KeptBy o (execCompletionPost a s) := by
  unfold execCompletionPost
  dsimp only
  repeat' split
  all_goals simp (maxDischargeDepth := 40) +contextual [h]

@[simp] theorem State.ringSq_kept (h : Kept o s) (a) (b) (c) : Kept o (State.ringSq s a b c) := by unfold State.ringSq; split <;> simp [h]

@[simp] theorem State.ringCq_kept (h : Kept o s) (a) (b) (c) : Kept o (State.ringCq s a b c) := by unfold State.ringCq; split <;> simp [h]

@[simp] theorem execSqTailDoorbell_kept (h : Kept o s) (a) (b) (c) : KeptBy o (execSqTailDoorbell a b c s) := by unfold execSqTailDoorbell; split <;> simp [h]

@[simp] theorem execCqHeadDoorbell_kept (h : Kept o s) (a) (b) (c) : KeptBy o (execCqHeadDoorbell a b c s) := by unfold execCqHeadDoorbell; split <;> simp [h]

@[simp] theorem State.takeEntries_kept (h : Kept o s) (a) (b) (c) : Kept o (State.takeEntries s a b c) := by unfold State.takeEntries; split <;> simp [h]

/-- The host interface holds nothing that `Kept` speaks of. -/
theorem Kept.hif (h : Kept o s) (x : Hif) : Kept o { s with hif := x } :=
  ⟨⟨h.1.1, h.1.2, h.1.3, h.1.4⟩, ⟨h.2.1, h.2.2, h.2.3, h.2.4⟩⟩

@[simp] theorem execFetchDecision_kept (h : Kept o s) (a) : KeptBy o (execFetchDecision a s) := by
  unfold execFetchDecision
  rw [KeptBy_next]
  dsimp only
  repeat' split
  all_goals first
    | exact h
    | exact Kept.hif (State.takeEntries_kept h _ _ _) _
    | exact Kept.hif (State.updFn_kept (State.takeEntries_kept h _ _ _) _ _) _

@[simp] theorem State.accept_kept (h : Kept o s) (a) (b) (c) (d) : Kept o (State.accept s a b c d) := by
  unfold State.accept
  extract_lets id nsid all owned crosses asn asns s1 flushNs isFlush x src s2 s3 gate
  clear_value gate crosses asns asn owned all flushNs isFlush
  have h1 : Kept o s1 := by
    unfold s1
    split
    · exact h
    · split
      · simp +contextual [h]
      · split <;> simp [h]
  have h2 : Kept o s2 := by
    unfold s2
    exact State.setCmd_kept (by simp [h1]) _ _
  have h3 : Kept o s3 := by
    unfold s3
    split
    · exact h2
    · simp [h2]
  have h4 : ∀ (e : Bool) (l : List (Nat × Ns)) (p : Nat × Ns → Bool), Kept o (l.foldl (fun s n =>
      if p n then s else s.takeLocks id n.1 n.2.asn e [lockRange n.2 c]) s3) :=
    fun e l p => Kept.foldl h3 (fun s n h => by split <;> simp [h]) _
  clear_value s1 s2 s3 x src
  repeat' split
  all_goals first | (simp [h3]; done) | simpa using h4 _ _ (fun n => n.2.object || decide (n.2.blocks * lbaBytes n.2.lbaf < (lockRange n.2 c).1 + (lockRange n.2 c).2))

@[simp] theorem execAcceptance_kept (h : Kept o s) : KeptBy o (execAcceptance s) := by unfold execAcceptance; split <;> simp [h]

@[simp] theorem execTokenTick_kept (h : Kept o s) : KeptBy o (execTokenTick s) := by unfold execTokenTick; split <;> simp [h]

end Sys2Proof.Machine
end

