-- ==== Sys2Proof/Laws/KeptBlockIo.lean ====
section
/-! SUPPORT. That every operation of Machine/BlockIo.lean keeps `Kept`. -/

namespace Sys2Proof.Machine

variable {o s : State}

@[simp] theorem State.writeDone_kept (h : Kept o s) (a) : Kept o (State.writeDone s a) := by simp (maxDischargeDepth := 40) +contextual [State.writeDone, h]

@[simp] theorem State.noteCommitted_kept (h : Kept o s) (a) (b) : Kept o (State.noteCommitted s a b) := by simp (maxDischargeDepth := 40) +contextual [State.noteCommitted, h]

@[simp] theorem State.badTransfer_kept (h : Kept o s) (a) (b) (c) : Kept o (State.badTransfer s a b c) := by simp (maxDischargeDepth := 40) +contextual [State.badTransfer, h]

@[simp] theorem State.sendLeg_kept (h : Kept o s) (a) (b) (c) (d) (e) : Kept o (State.sendLeg s a b c d e) := by simp (maxDischargeDepth := 40) +contextual [State.sendLeg, h]

@[simp] theorem State.sendLegs_kept (h : Kept o s) (a) : Kept o (State.sendLegs s a) := by
  unfold State.sendLegs
  split
  · exact h
  · split
    · exact h
    · split
      · exact h
      · refine Kept.foldl h (fun s x h => ?_) _
        dsimp only
        repeat' split
        all_goals simp [h]

@[simp] theorem State.dropConfirmed_kept (h : Kept o s) (a) (b) (c) : Kept o (State.dropConfirmed s a b c) := by simp [State.dropConfirmed, h]

@[simp] theorem execWrite_kept (h : Kept o s) (a) (b) (c) : KeptBy o (execWrite a b s c) := by
  unfold execWrite
  repeat' split
  all_goals simp [h]

@[simp] theorem execWriteZeroes_kept (h : Kept o s) (a) : KeptBy o (execWriteZeroes a s) := by
  unfold execWriteZeroes
  repeat' split
  all_goals simp [h]

@[simp] theorem State.endWrite_kept (h : Kept o s) (a) : Kept o (State.endWrite s a) := by unfold State.endWrite; split <;> simp [h]

@[simp] theorem State.noteChanged_kept (h : Kept o s) (a) (b) (c) : Kept o (State.noteChanged s a b c) := by unfold State.noteChanged; split <;> simp [h]

@[simp] theorem State.commitGranule_kept (h : Kept o s) (a) (b) (c) (d) (e) : Kept o (State.commitGranule s a b c d e) := by
  unfold State.commitGranule
  extract_lets nsid touched s1 s2 keys s3
  have h1 : Kept o s1 := by
    refine Kept.foldl (by simp [h]) (fun s x h => ?_) _
    split <;> simp [h]
  have h2 : Kept o s2 := by
    unfold s2
    split <;> simp [h1]
  have h3 : Kept o s3 := by simp (maxDischargeDepth := 40) [s3, h2]
  simp (maxDischargeDepth := 40) [h3]

@[simp] theorem State.failWrite_kept (h : Kept o s) (a) : Kept o (State.failWrite s a) := by simp (maxDischargeDepth := 40) +contextual [State.failWrite, h]

theorem State.tryCommit_parts {s1 : State} (h1 : Kept o s1) (a : CmdId) (b : Nat) (c : Cmd)
    (p : Option (List (Nat × Option Bytes) × Option (Nat × Bytes))) : Kept o (p.elim (s1.failWrite a) (fun p =>
      if !s1.heldAll c.asn (sqeNsid c.sqe) (p.1.map (·.1) ++ p.2.toList.map (·.1)) then s1.sendLegs a
      else if !s1.slotsFor (p.1.length + p.2.toList.length) then s1.programBuffer true
      else s1.commitGranule a b c p.1 p.2)) := by
  cases p with
  | none => exact State.failWrite_kept h1 a
  | some us =>
    rw [Option.elim_some]
    split
    · exact State.sendLegs_kept h1 a
    · split <;> simp [h1]

@[simp] theorem State.tryCommit_kept (h : Kept o s) (a) (b) (c) (d) : Kept o (State.tryCommit s a b c d) := by
  rw [State.tryCommit]
  generalize hs : s.fetchUnits a (mergeKeys c d b) = s1
  have h1 : Kept o s1 := hs ▸ State.fetchUnits_kept h _ _
  split
  · exact h1
  · exact State.tryCommit_parts h1 _ _ _ _

@[simp] theorem execGranuleCommit_kept (h : Kept o s) (a) (b) : KeptBy o (execGranuleCommit a b s) := by
  unfold execGranuleCommit
  repeat' split
  all_goals simp [h]

@[simp] theorem State.readProgress_kept (h : Kept o s) (a) (b) (c) (d) : Kept o (State.readProgress s a b c d) := by simp (maxDischargeDepth := 40) +contextual [State.readProgress, h]

@[simp] theorem execRead_kept (h : Kept o s) (a) : KeptBy o (execRead a s) := by
  unfold execRead
  dsimp only
  repeat' split
  all_goals simp (maxDischargeDepth := 40) +contextual [h]

@[simp] theorem execCompare_kept (h : Kept o s) (a) (b) : KeptBy o (execCompare a b s) := by
  unfold execCompare
  dsimp only
  repeat' split
  all_goals simp (maxDischargeDepth := 40) +contextual [h]

@[simp] theorem execVerify_kept (h : Kept o s) (a) : KeptBy o (execVerify a s) := by
  unfold execVerify
  dsimp only
  repeat' split
  all_goals simp (maxDischargeDepth := 40) +contextual [h]

@[simp] theorem execFlush_kept (h : Kept o s) (a) : KeptBy o (execFlush a s) := by
  unfold execFlush
  repeat' split
  all_goals simp (maxDischargeDepth := 40) +contextual [h]

@[simp] theorem State.dsmLocks_kept (h : Kept o s) (a) (b) (c) (d) : Kept o (State.dsmLocks s a b c d) := by simp (maxDischargeDepth := 40) +contextual [State.dsmLocks, h]

@[simp] theorem State.dsmCommit_kept (h : Kept o s) (a) (b) (c) (d) (e) : Kept o (State.dsmCommit s a b c d e) := by simp (maxDischargeDepth := 40) +contextual [State.dsmCommit, h]

@[simp] theorem execDatasetManagement_kept (h : Kept o s) (a) (b) : KeptBy o (execDatasetManagement a b s) := by
  unfold execDatasetManagement
  rw [KeptBy_next]
  split
  · exact h
  · split
    · exact h
    · split
      · simp [h]
      · extract_lets rs nss asnOf s1
        have h1 : Kept o s1 := by unfold s1; split <;> simp [h]
        clear_value s1 asnOf nss
        split
        · simp (maxDischargeDepth := 40) [h]
        · split
          · simp [h]
          · split
            · exact h1
            · split
              · refine State.updCmd_kept (Kept.foldl h1 (fun s x h => ?_) _) _ _
                split
                · exact Kept.foldl h (fun s x h => State.sendFrame_kept h _ _ _ _ _) _
                · exact h
              · split <;> simp [h1]

@[simp] theorem execAbort_kept (h : Kept o s) (a) : KeptBy o (execAbort a s) := by
  unfold execAbort
  dsimp only
  repeat' split
  all_goals simp (maxDischargeDepth := 40) +contextual [h]

end Sys2Proof.Machine
end

