-- ==== Sys2Proof/Laws/KeptChunks.lean ====
section
/-! SUPPORT. That every operation of Machine/Chunks.lean keeps `Kept`. -/

namespace Sys2Proof.Machine

variable {o s : State}

@[simp] theorem State.updObj_kept (h : Kept o s) (a) (b) (c) : Kept o (State.updObj s a b c) := by simp [State.updObj, h]

@[simp] theorem State.journalMap_kept (h : Kept o s) (a) (b) (c) : Kept o (State.journalMap s a b c) := by simp (maxDischargeDepth := 40) +contextual [State.journalMap, h]

@[simp] theorem State.mapObject_kept (h : Kept o s) (a) (b) : Kept o (State.mapObject s a b) := by unfold State.mapObject; split <;> simp [h]

@[simp] theorem State.findPage_kept (h : Kept o s) (a) (b) : Kept o (State.findPage s a b) := by
  unfold State.findPage
  dsimp only
  repeat' split
  all_goals simp (maxDischargeDepth := 40) +contextual [h]

@[simp] theorem State.fetchObject_kept (h : Kept o s) (a) (b) (c) (d) : Kept o (State.fetchObject s a b c d) := by simp (maxDischargeDepth := 40) +contextual [State.fetchObject, h]

@[simp] theorem State.fetchChunk_kept (h : Kept o s) (a) (b) : Kept o (State.fetchChunk s a b) := by
  unfold State.fetchChunk
  repeat' split
  all_goals simp (maxDischargeDepth := 40) +contextual [h]

@[simp] theorem State.dropChive_kept (h : Kept o s) (a) : Kept o (State.dropChive s a) := by simp [State.dropChive, h]

@[simp] theorem State.cacheChive_kept (h : Kept o s) (a) : Kept o (State.cacheChive s a) := by simp [State.cacheChive, h]

@[simp] theorem State.freeChunk_kept (h : Kept o s) (a) : Kept o (State.freeChunk s a) := by
  unfold State.freeChunk
  repeat' split
  all_goals simp (maxDischargeDepth := 40) +contextual [h]

@[simp] theorem State.dropRef_kept (h : Kept o s) (a) : Kept o (State.dropRef s a) := by unfold State.dropRef; split <;> simp [h]

@[simp] theorem State.addRef_kept (h : Kept o s) (a) : Kept o (State.addRef s a) := by unfold State.addRef; split <;> simp [h]

@[simp] theorem State.putExtent_kept (h : Kept o s) (a) (b) (c) (d) : Kept o (State.putExtent s a b c d) := by
  unfold State.putExtent
  repeat' split
  all_goals simp (maxDischargeDepth := 40) +contextual [h]

@[simp] theorem State.ownChunk_kept (h : Kept o s) (a) (b) : Kept o (State.ownChunk s a b).1 := by
  unfold State.ownChunk
  repeat' split
  all_goals simp (maxDischargeDepth := 40) +contextual [h]

@[simp] theorem State.appendExtent_kept (h : Kept o s) (a) (b) (c) (d) (e) : Kept o (State.appendExtent s a b c d e) := by
  unfold State.appendExtent
  dsimp only
  repeat' split
  all_goals simp (maxDischargeDepth := 40) +contextual [h]

@[simp] theorem State.storeData_kept (h : Kept o s) (a) (b) (c) (d) (e) : Kept o (State.storeData s a b c d e) := by
  unfold State.storeData
  dsimp only
  repeat' split
  all_goals simp (maxDischargeDepth := 40) +contextual [h]

@[simp] theorem State.cutChunk_kept (h : Kept o s) (a) (b) : Kept o (State.cutChunk s a b) := by
  unfold State.cutChunk
  dsimp only
  repeat' split
  all_goals simp (maxDischargeDepth := 40) +contextual [h]

@[simp] theorem State.undoAppend_kept (h : Kept o s) (a) : Kept o (State.undoAppend s a) := by
  unfold State.undoAppend
  dsimp only
  repeat' split
  all_goals simp (maxDischargeDepth := 40) +contextual [h]

end Sys2Proof.Machine
end

