-- ==== Sys2Proof/Laws/KeptReset.lean ====
section
/-! SUPPORT. That every operation of Machine/Reset.lean keeps `Kept`. -/

namespace Sys2Proof.Machine

variable {o s : State}

@[simp] theorem State.mbRespond_kept (h : Kept o s) (a) (b) : Kept o (State.mbRespond s a b) := by unfold State.mbRespond; split <;> simp [h]

@[simp] theorem State.detachMailbox_kept (h : Kept o s) (a) : Kept o (State.detachMailbox s a) := by simp [State.detachMailbox, h]

@[simp] theorem State.dropCommand_kept (h : Kept o s) (a) (b) : Kept o (State.dropCommand s a b) := by simp (maxDischargeDepth := 40) +contextual [State.dropCommand, h]

@[simp] theorem State.dropCommands_kept (h : Kept o s) (a) : Kept o (State.dropCommands s a) := by simp (maxDischargeDepth := 40) +contextual [State.dropCommands, h]

@[simp] theorem State.dropQueues_kept (h : Kept o s) (a) : Kept o (State.dropQueues s a) := by simp [State.dropQueues, h]

@[simp] theorem State.dropEngines_kept (h : Kept o s) (a) : Kept o (State.dropEngines s a) := by simp [State.dropEngines, h]

@[simp] theorem State.endQuiesce_kept (h : Kept o s) (a) : Kept o (State.endQuiesce s a) := by unfold State.endQuiesce; split <;> simp [h]

@[simp] theorem State.stopLogging_kept (h : Kept o s) (a) : Kept o (State.stopLogging s a) := by simp [State.stopLogging, h]

@[simp] theorem State.retire_kept (h : Kept o s) (a) (b) : Kept o (State.retire s a b) := by simp (maxDischargeDepth := 40) +contextual [State.retire, h]

@[simp] theorem State.freeProgram_kept (h : Kept o s) (a) : Kept o (State.freeProgram s a) := by simp (maxDischargeDepth := 40) +contextual [State.freeProgram, h]

@[simp] theorem State.beginRemoval_kept (h : Kept o s) (a) : Kept o (State.beginRemoval s a) := by simp (maxDischargeDepth := 40) +contextual [State.beginRemoval, h]

@[simp] theorem State.controllerReset_kept (h : Kept o s) (a) : Kept o (State.controllerReset s a) := by unfold State.controllerReset; split <;> simp [h]

@[simp] theorem State.removeVfs_kept (h : Kept o s) (a) : Kept o (State.removeVfs s a) := by simp (maxDischargeDepth := 40) +contextual [State.removeVfs, h]

@[simp] theorem State.flr_kept (h : Kept o s) (a) : Kept o (State.flr s a) := by unfold State.flr; split <;> simp [h]

@[simp] theorem State.zeroiseSlots_kept (h : Kept o s) (a) : Kept o (State.zeroiseSlots s a).1 := by simp [State.zeroiseSlots, h]

@[simp] theorem State.buildAdmin_kept (h : Kept o s) (a) : Kept o (State.buildAdmin s a) := by simp [State.buildAdmin, h]

@[simp] theorem State.becomeReady_kept (h : Kept o s) (a) : Kept o (State.becomeReady s a) := by simp [State.becomeReady, h]

@[simp] theorem execGenerationAdvance_kept (h : Kept o s) (a) (b) : KeptBy o (execGenerationAdvance a b s) := by simp (maxDischargeDepth := 40) +contextual [execGenerationAdvance, h]

@[simp] theorem execCcEnClear_kept (h : Kept o s) (a) : KeptBy o (execCcEnClear a s) := by unfold execCcEnClear; split <;> simp [h]

@[simp] theorem execCcEnSet_kept (h : Kept o s) (a) (b) : KeptBy o (execCcEnSet a b s) := by simp (maxDischargeDepth := 40) +contextual [execCcEnSet, h]

@[simp] theorem execNvmSubsystemReset_kept (h : Kept o s) (a) : KeptBy o (execNvmSubsystemReset a s) := by simp (maxDischargeDepth := 40) +contextual [execNvmSubsystemReset, h]

@[simp] theorem execFunctionLevelReset_kept (h : Kept o s) (a) : KeptBy o (execFunctionLevelReset a s) := by unfold execFunctionLevelReset; split <;> simp [h]

@[simp] theorem execVfDisable_kept (h : Kept o s) (a) : KeptBy o (execVfDisable a s) := by unfold execVfDisable; split <;> simp [h]

@[simp] theorem execVfEnable_kept (h : Kept o s) (a) (b) : KeptBy o (execVfEnable a b s) := by simp (maxDischargeDepth := 40) +contextual [execVfEnable, h]

@[simp] theorem execVirtualizationManagement_kept (h : Kept o s) (a) : KeptBy o (execVirtualizationManagement a s) := by unfold execVirtualizationManagement; split <;> simp [h]

@[simp] theorem State.linkDown_kept (h : Kept o s) (a) : Kept o (State.linkDown s a) := by simp [State.linkDown, h]

@[simp] theorem execPciePerstAssert_kept (h : Kept o s) (a) : KeptBy o (execPciePerstAssert a s) := by simp (maxDischargeDepth := 40) +contextual [execPciePerstAssert, h]

@[simp] theorem execLinkTraining_kept (h : Kept o s) (a) (b) (c) : KeptBy o (execLinkTraining a b c s) := by unfold execLinkTraining; split <;> simp [h]

@[simp] theorem execPcieUncorrectable_kept (h : Kept o s) (a) (b) (c) : KeptBy o (execPcieUncorrectable a b c s) := by unfold execPcieUncorrectable; split <;> simp [h]

@[simp] theorem execHostRefclkLost_kept (h : Kept o s) (a) : KeptBy o (execHostRefclkLost a s) := by simp (maxDischargeDepth := 40) +contextual [execHostRefclkLost, h]

@[simp] theorem execHostRefclkReturn_kept (h : Kept o s) (a) : KeptBy o (execHostRefclkReturn a s) := by simp [execHostRefclkReturn, h]

end Sys2Proof.Machine
end

