-- ==== Sys2Proof/Laws/KeptMailbox.lean ====
section
/-! SUPPORT. That every operation of Machine/Mailbox.lean keeps `Kept`. -/

namespace Sys2Proof.Machine

variable {o s : State}

@[simp] theorem State.authorise_kept (h : Kept o s) (a) (b) (c) : Kept o (State.authorise s a b c).1 := by
  unfold State.authorise
  dsimp only
  repeat' split
  all_goals simp (maxDischargeDepth := 40) +contextual [h]

@[simp] theorem State.mbCheck_kept (h : Kept o s) (a) (b) : Kept o (State.mbCheck s a b).1 := by
  unfold State.mbCheck
  repeat' split
  all_goals simp [h]

@[simp] theorem State.checkTaken_kept (h : Kept o s) (a) : Kept o (State.checkTaken s a) := by unfold State.checkTaken; split <;> simp [h]

@[simp] theorem State.takeRequest_kept (h : Kept o s) (a) : Kept o (State.takeRequest s a) := by simp [State.takeRequest, h]

@[simp] theorem State.ring_kept (h : Kept o s) (a) : Kept o (State.ring s a) := by unfold State.ring; split <;> simp [h]

/-- A request of before a reset keeps it when its command's own step does. -/
@[simp] theorem State.runOrphan_kept (h : Kept o s) (f : Nat) (q) {body : State → Nat → Bytes → State × Option MbResp}
    (hb : ∀ s w p, Kept o s → Kept o (body s w p).1) : Kept o (s.runOrphan f q body) := by
  unfold State.runOrphan
  dsimp only
  repeat' split
  all_goals first | exact h | exact hb _ _ _ (by simp [h]) | simp [hb, h]

/-- A mailbox command keeps it when its own step does. -/
@[simp] theorem State.mbRunAs_kept (h : Kept o s) (f cmd : Nat) (sub : Bytes → Bool) {body : State → Nat → Bytes → State × Option MbResp}
    (hb : ∀ s w p, Kept o s → Kept o (body s w p).1) : Kept o (s.mbRunAs f cmd sub body) := by
  unfold State.mbRunAs
  extract_lets mine s1 m
  have h1 : Kept o s1 := State.checkTaken_kept h _
  clear_value s1
  split
  · exact h1
  · split
    · exact State.runOrphan_kept h1 _ _ hb
    · split
      · split
        · simp [h1]
        · exact State.updFn_kept (hb _ _ _ h1) _ _
      · exact h1

@[simp] theorem State.mbRun_kept (h : Kept o s) (f cmd : Nat) (sub : Bytes → Bool) {body : State → Bytes → State × Option MbResp}
    (hb : ∀ s p, Kept o s → Kept o (body s p).1) : Kept o (s.mbRun f cmd sub body) :=
  State.mbRunAs_kept h f cmd sub (fun s _ p h => hb s p h)

@[simp] theorem State.loadPiece_kept (h : Kept o s) (a) (b) (c) : Kept o (State.loadPiece s a b c).1 := by
  unfold State.loadPiece
  dsimp only
  repeat' split
  all_goals simp (maxDischargeDepth := 40) +contextual [h]

@[simp] theorem execMailboxRing_kept (h : Kept o s) (a) : KeptBy o (execMailboxRing a s) := by simp [execMailboxRing, h]

@[simp] theorem execMailboxResponse_kept (h : Kept o s) (a) : KeptBy o (execMailboxResponse a s) := by
  unfold execMailboxResponse
  dsimp only
  repeat' split
  all_goals simp (maxDischargeDepth := 40) +contextual [h]

@[simp] theorem execMailboxSend_kept (h : Kept o s) (a) (b) : KeptBy o (execMailboxSend a b s) := by
  unfold execMailboxSend
  repeat' split
  all_goals simp (maxDischargeDepth := 40) +contextual [h]

@[simp] theorem execMailboxReceive_kept (h : Kept o s) (a) : KeptBy o (execMailboxReceive a s) := by
  unfold execMailboxReceive
  repeat' split
  all_goals simp [h]

@[simp] theorem execNonceExpire_kept (h : Kept o s) (a) : KeptBy o (execNonceExpire a s) := by simp [execNonceExpire, h]

@[simp] theorem execMbIdStatus_kept (h : Kept o s) (a) : KeptBy o (execMbIdStatus a s) := by simp [execMbIdStatus, h]

@[simp] theorem execMbFwStatus_kept (h : Kept o s) (a) : KeptBy o (execMbFwStatus a s) := by simp [execMbFwStatus, h]

@[simp] theorem execMbEcho_kept (h : Kept o s) (a) : KeptBy o (execMbEcho a s) := by simp [execMbEcho, h]

@[simp] theorem execMbAuthChallenge_kept (h : Kept o s) (a) : KeptBy o (execMbAuthChallenge a s) := by simp (maxDischargeDepth := 40) +contextual [execMbAuthChallenge, h]

end Sys2Proof.Machine
end

