-- ==== Sys2Proof/Laws/KeptConfiguration.lean ====
section
/-! SUPPORT. That every operation of Machine/Configuration.lean keeps `Kept`. -/

namespace Sys2Proof.Machine

variable {o s : State}

@[simp] theorem State.applyTenants_kept (h : Kept o s) (a) : Kept o (State.applyTenants s a) := by simp (maxDischargeDepth := 40) +contextual [State.applyTenants, h]

@[simp] theorem State.applyFlash_kept (h : Kept o s) (a) (b) : Kept o (State.applyFlash s a b) := by simp (maxDischargeDepth := 40) +contextual [State.applyFlash, h]

@[simp] theorem State.applyArbiters_kept (h : Kept o s) (a) : Kept o (State.applyArbiters s a) := by simp (maxDischargeDepth := 40) +contextual [State.applyArbiters, h]

@[simp] theorem State.applyPair_kept (h : Kept o s) (a) : Kept o (State.applyPair s a) := by simp [State.applyPair, h]

@[simp] theorem State.compareFp_kept (h : Kept o s) : Kept o (State.compareFp s) := by
  unfold State.compareFp
  dsimp only
  repeat' split
  all_goals simp (maxDischargeDepth := 40) +contextual [h]

@[simp] theorem State.applyCommit_kept (h : Kept o s) (a) (b) : Kept o (State.applyCommit s a b) := by simp (maxDischargeDepth := 40) +contextual [State.applyCommit, h]

@[simp] theorem State.applyBoot_kept (h : Kept o s) (a) : Kept o (State.applyBoot s a) := by simp [State.applyBoot, h]

@[simp] theorem State.enterMaintWork_kept (h : Kept o s) (a) : Kept o (State.enterMaintWork s a) := by unfold State.enterMaintWork; split <;> simp [h]

@[simp] theorem State.leaveMaint_kept (h : Kept o s) (a) : Kept o (State.leaveMaint s a) := by unfold State.leaveMaint; split <;> simp [h]

@[simp] theorem State.endMaintWork_kept (h : Kept o s) (a) : Kept o (State.endMaintWork s a) := by simp [State.endMaintWork, h]

@[simp] theorem execMbConfigStatus_kept (h : Kept o s) (a) : KeptBy o (execMbConfigStatus a s) := by simp [execMbConfigStatus, h]

@[simp] theorem State.stagePiece_kept (h : Kept o s) (a) (b) : Kept o (State.stagePiece s a b).1 := by
  unfold State.stagePiece
  dsimp only
  repeat' split
  all_goals simp (maxDischargeDepth := 40) +contextual [h]

@[simp] theorem execMbConfigStage_kept (h : Kept o s) (a) : KeptBy o (execMbConfigStage a s) := by simp (maxDischargeDepth := 40) +contextual [execMbConfigStage, h]

@[simp] theorem execMbConfigRead_kept (h : Kept o s) (a) : KeptBy o (execMbConfigRead a s) := by simp [execMbConfigRead, h]

@[simp] theorem execMbConfigCommit_kept (h : Kept o s) (a) : KeptBy o (execMbConfigCommit a s) := by simp (maxDischargeDepth := 40) +contextual [execMbConfigCommit, h]

@[simp] theorem Nvs.commitRoles_minSvn (n : Nvs) (t : Nat) : (n.commitRoles t).minSvn = n.minSvn := rfl
@[simp] theorem Nvs.commitRoles_fw (n : Nvs) (t : Nat) : (n.commitRoles t).fw = n.fw := rfl
@[simp] theorem Nvs.revertRoles_minSvn (n : Nvs) : n.revertRoles.minSvn = n.minSvn := rfl
@[simp] theorem Nvs.revertRoles_fw (n : Nvs) : n.revertRoles.fw = n.fw := rfl
@[simp] theorem Nvs.rollbackRoles_minSvn (n : Nvs) : n.rollbackRoles.minSvn = n.minSvn := rfl
@[simp] theorem Nvs.rollbackRoles_fw (n : Nvs) : n.rollbackRoles.fw = n.fw := rfl

@[simp] theorem State.commitApply_kept (h : Kept o s) (a) (b) (c) : Kept o (State.commitApply s a b c) := by
  unfold State.commitApply
  dsimp only
  repeat' split
  all_goals simp (maxDischargeDepth := 40) +contextual [h]

@[simp] theorem State.revertApply_kept (h : Kept o s) (a) (b) (c) : Kept o (State.revertApply s a b c) := by
  unfold State.revertApply
  repeat' split
  all_goals simp (maxDischargeDepth := 40) +contextual [h]

@[simp] theorem execConfigCommitApply_kept (h : Kept o s) (a) : KeptBy o (execConfigCommitApply s a) := by
  unfold execConfigCommitApply
  repeat' split
  all_goals simp [h]

@[simp] theorem execMbConfigConfirm_kept (h : Kept o s) (a) : KeptBy o (execMbConfigConfirm a s) := by
  unfold execMbConfigConfirm
  repeat' first
    | refine Kept.bind ?_ (fun _ _ => ?_)
    | refine Kept.bind_pair ?_ (fun _ _ => ?_)
    | refine Kept.bind_pair_snd ?_ (fun _ _ => ?_)
    | refine Kept.bind_fst ?_ (fun _ _ => ?_)
    | refine Kept.name (fun _ => ?_)
    | refine Kept.name_fst (fun _ => ?_)
    | split
  all_goals simp (maxDischargeDepth := 40) +contextual [*]

@[simp] theorem execMbConfigRollback_kept (h : Kept o s) (a) : KeptBy o (execMbConfigRollback a s) := by simp (maxDischargeDepth := 40) +contextual [execMbConfigRollback, h]

@[simp] theorem execMbConfigFactory_kept (h : Kept o s) (a) : KeptBy o (execMbConfigFactory a s) := by
  unfold execMbConfigFactory
  repeat' first
    | refine Kept.bind ?_ (fun _ _ => ?_)
    | refine Kept.bind_pair ?_ (fun _ _ => ?_)
    | refine Kept.bind_pair_snd ?_ (fun _ _ => ?_)
    | refine Kept.bind_fst ?_ (fun _ _ => ?_)
    | refine Kept.name (fun _ => ?_)
    | refine Kept.name_fst (fun _ => ?_)
    | split
  all_goals simp (maxDischargeDepth := 40) +contextual [*]

@[simp] theorem State.expireTrial_kept (h : Kept o s) : Kept o (State.expireTrial s) := by unfold State.expireTrial; split <;> simp [h]

@[simp] theorem execTrialExpire_kept (h : Kept o s) : KeptBy o (execTrialExpire s) := by simp [execTrialExpire, h]

@[simp] theorem State.bootConfig_kept (h : Kept o s) : Kept o (State.bootConfig s) := by
  unfold State.bootConfig
  dsimp only
  repeat' split
  all_goals simp (maxDischargeDepth := 40) +contextual [h]

end Sys2Proof.Machine
end

