-- ==== Sys2Proof/Laws/KeptFirmware.lean ====
section
/-! SUPPORT. That every operation of Machine/Firmware.lean keeps `Kept`. -/

namespace Sys2Proof.Machine

variable {o s : State}

@[simp] theorem execFirmwareImageDownload_kept (h : Kept o s) (a) (b) : KeptBy o (execFirmwareImageDownload a b s) := by unfold execFirmwareImageDownload; split <;> simp [h]

@[simp] theorem State.commitImage_kept (h : Kept o s) (a) (b) (c) : Kept o (State.commitImage s a b c).1 := by
  unfold State.commitImage
  extract_lets +onlyGivenNames img
  split
  · simp [h]
  · rename_i hc
    have h1 : Mem.get {} (Mem.set {} s.nvs.fw c (fwSlotOf img)) 1 = Mem.get {} s.nvs.fw 1 :=
      Mem.get_set_other _ _ _ (by omega)
    split
    · simp [h]
    · simp (maxDischargeDepth := 40) [h, h1]

@[simp] theorem execFirmwareCommit_kept (h : Kept o s) (a) : KeptBy o (execFirmwareCommit a s) := by unfold execFirmwareCommit; split <;> simp [h]

@[simp] theorem State.activationNotice_kept (h : Kept o s) : Kept o (State.activationNotice s) := by
  unfold State.activationNotice
  (repeat' split) <;> simp_all

@[simp] theorem execFirmwareCommitActivate_kept (h : Kept o s) (a) : KeptBy o (execFirmwareCommitActivate a s) := by
  unfold execFirmwareCommitActivate
  repeat' split
  all_goals simp (maxDischargeDepth := 40) +contextual [h]

@[simp] theorem execFwActivation_kept (h : Kept o s) (a) (b) : KeptBy o (execFwActivation a b s) := by
  have h2 : ∀ n, o.nvs.minSvn ≤ Nat.max s.nvs.minSvn n := fun n => Nat.le_trans h.1.svn (Nat.le_max_left _ _)
  unfold execFwActivation
  rw [KeptBy_next]
  split
  · exact h
  · split
    · exact h
    · dsimp only
      refine Kept.foldl ?_ (fun s x h => by simp [h]) _
      split
      · simp [h]
      · split <;> simp (maxDischargeDepth := 40) [h, h2]

@[simp] theorem State.bootFirmware_kept (h : Kept o s) : Kept o (State.bootFirmware s) := by simp [State.bootFirmware, h]

@[simp] theorem State.bootSvn_kept (h : Kept o s) : Kept o (State.bootSvn s) := by
  have h1 := h.1.svn
  unfold State.bootSvn
  dsimp only
  split
  · simp [h]
  · have h2 : o.nvs.minSvn ≤ Nat.max s.nvs.minSvn (s.fwSlot s.nvs.fwRunning).svn := Nat.le_trans h1 (Nat.le_max_left _ _)
    simp [h, h2]

end Sys2Proof.Machine
end

