-- ==== Sys2Proof/Laws/KeptKeys.lean ====
section
/-! SUPPORT. That every operation of Machine/Keys.lean keeps `Kept`. -/

namespace Sys2Proof.Machine

variable {o s : State}

@[simp] theorem State.setSlot_kept (h : Kept o s) (a) (b) : Kept o (State.setSlot s a b) := by simp [State.setSlot, h]

@[simp] theorem State.raiseEpoch_kept (h : Kept o s) (a) : Kept o (State.raiseEpoch s a) := by simp [State.raiseEpoch, h]

@[simp] theorem State.importRefused_kept (h : Kept o s) (a) (b) (c) : Kept o (State.importRefused s a b c).1 := by unfold State.importRefused; split <;> simp [h]

@[simp] theorem execMbKeyImport_kept (h : Kept o s) (a) : KeptBy o (execMbKeyImport a s) := by
  unfold execMbKeyImport
  rw [KeptBy_next]
  refine State.mbRun_kept h _ _ _ (fun s p h => ?_)
  dsimp only
  repeat' split
  all_goals simp (maxDischargeDepth := 40) +contextual [h]

@[simp] theorem execMbKeyErase_kept (h : Kept o s) (a) : KeptBy o (execMbKeyErase a s) := by
  unfold execMbKeyErase
  rw [KeptBy_next]
  refine State.mbRun_kept h _ _ _ (fun s p h => ?_)
  dsimp only
  repeat' split
  all_goals simp (maxDischargeDepth := 40) +contextual [h]

@[simp] theorem execMbKeyStatus_kept (h : Kept o s) (a) : KeptBy o (execMbKeyStatus a s) := by simp [execMbKeyStatus, h]

@[simp] theorem execMbKekImport_kept (h : Kept o s) (a) : KeptBy o (execMbKekImport a s) := by
  unfold execMbKekImport
  rw [KeptBy_next]
  refine State.mbRun_kept h _ _ _ (fun s p h => ?_)
  dsimp only
  repeat' split
  all_goals simp (maxDischargeDepth := 40) +contextual [h]

@[simp] theorem execKeySlotSettle_kept (h : Kept o s) (a) : KeptBy o (execKeySlotSettle a s) := by
  unfold execKeySlotSettle
  dsimp only
  repeat' split
  all_goals simp (maxDischargeDepth := 40) +contextual [h]

@[simp] theorem State.needMediaKey_kept (h : Kept o s) (a) : Kept o (State.needMediaKey s a) := by unfold State.needMediaKey; split <;> simp [h]

@[simp] theorem State.newMediaKey_kept (h : Kept o s) (a) : Kept o (State.newMediaKey s a) := by simp [State.newMediaKey, h]

end Sys2Proof.Machine
end

