-- ==== Sys2Proof/Laws/KeptRecorder.lean ====
section
/-! SUPPORT. That every operation of Machine/Recorder.lean keeps `Kept`. -/

namespace Sys2Proof.Machine

variable {o s : State}

@[simp] theorem execEventRecordWrite_kept (h : Kept o s) : KeptBy o (execEventRecordWrite s) := by unfold execEventRecordWrite; split <;> simp [h]

@[simp] theorem Rec.tick_queue (r : Rec) : r.tick.queue = r.queue := by unfold Rec.tick; split; rfl; split <;> rfl
@[simp] theorem Rec.tick_retention (r : Rec) : r.tick.retention = r.retention := by unfold Rec.tick; split; rfl; split <;> rfl
@[simp] theorem Rec.mirrorNow_queue (r : Rec) : r.mirrorNow.queue = r.queue := rfl
@[simp] theorem Rec.mirrorNow_retention (r : Rec) : r.mirrorNow.retention = r.retention := rfl
@[simp] theorem OkQueue_map {q : List Event} (g : Event → Event) (h : OkQueue o q) : OkQueue o (q.map g) := by
  simpa [OkQueue] using h

@[simp] theorem execHourCounterTick_kept (h : Kept o s) : KeptBy o (execHourCounterTick s) := by unfold execHourCounterTick; split <;> simp [h]

@[simp] theorem execCounterMirror_kept (h : Kept o s) : KeptBy o (execCounterMirror s) := by unfold execCounterMirror; split <;> simp [h]

@[simp] theorem execMbEvtRead_kept (h : Kept o s) (a) : KeptBy o (execMbEvtRead a s) := by simp [execMbEvtRead, h]

@[simp] theorem State.evtClear_kept (h : Kept o s) (a) : Kept o (State.evtClear s a) := by simp [State.evtClear, h]

@[simp] theorem execMbEvtClear_kept (h : Kept o s) (a) : KeptBy o (execMbEvtClear a s) := by simp (maxDischargeDepth := 40) +contextual [execMbEvtClear, h]

@[simp] theorem State.timeMark_kept (h : Kept o s) (a) (b) : Kept o (State.timeMark s a b) := by simp [State.timeMark, h]

@[simp] theorem execMbEvtTimemark_kept (h : Kept o s) (a) (b) : KeptBy o (execMbEvtTimemark a b s) := by simp (maxDischargeDepth := 40) +contextual [execMbEvtTimemark, h]

end Sys2Proof.Machine
end

