-- ==== Sys2Proof/Laws/KeptTenants.lean ====
section
/-! SUPPORT. That every operation of Machine/Tenants.lean keeps `Kept`. -/

namespace Sys2Proof.Machine

variable {o s : State}

@[simp] theorem execMbTenantStatus_kept (h : Kept o s) (a) : KeptBy o (execMbTenantStatus a s) := by simp [execMbTenantStatus, h]

@[simp] theorem execMbTenantRate_kept (h : Kept o s) (a) : KeptBy o (execMbTenantRate a s) := by simp (maxDischargeDepth := 40) +contextual [execMbTenantRate, h]

end Sys2Proof.Machine
end

