-- ==== Sys2Proof/Laws/KeptMigration.lean ====
section
/-! SUPPORT. That every operation of Machine/Migration.lean keeps `Kept`. -/

namespace Sys2Proof.Machine

variable {o s : State}

@[simp] theorem execMbMigDirtyStart_kept (h : Kept o s) (a) : KeptBy o (execMbMigDirtyStart a s) := by simp (maxDischargeDepth := 40) +contextual [execMbMigDirtyStart, h]

@[simp] theorem State.freezeDirty_kept (h : Kept o s) (a) : Kept o (State.freezeDirty s a).1 := by unfold State.freezeDirty; split <;> simp [h]

@[simp] theorem execMbMigDirtyHarvest_kept (h : Kept o s) (a) : KeptBy o (execMbMigDirtyHarvest a s) := by simp (maxDischargeDepth := 40) +contextual [execMbMigDirtyHarvest, h]

@[simp] theorem execMbMigDirtyStop_kept (h : Kept o s) (a) : KeptBy o (execMbMigDirtyStop a s) := by simp (maxDischargeDepth := 40) +contextual [execMbMigDirtyStop, h]

@[simp] theorem State.quiesceDone_kept (h : Kept o s) (a) : Kept o (State.quiesceDone s a) := by
  unfold State.quiesceDone
  repeat' split
  all_goals simp (maxDischargeDepth := 40) +contextual [h]

@[simp] theorem execMbMigQuiesce_kept (h : Kept o s) (a) : KeptBy o (execMbMigQuiesce a s) := by simp (maxDischargeDepth := 40) +contextual [execMbMigQuiesce, h]

@[simp] theorem execMbMigResume_kept (h : Kept o s) (a) : KeptBy o (execMbMigResume a s) := by simp (maxDischargeDepth := 40) +contextual [execMbMigResume, h]

@[simp] theorem execMbMigSave_kept (h : Kept o s) (a) : KeptBy o (execMbMigSave a s) := by
  unfold execMbMigSave
  rw [KeptBy_next]
  refine State.mbRun_kept h _ _ _ (fun s p h => ?_)
  dsimp only
  repeat' split
  all_goals simp (maxDischargeDepth := 40) +contextual [h]

@[simp] theorem State.migLoad_kept (h : Kept o s) (a) (b) : Kept o (State.migLoad s a b) := by simp (maxDischargeDepth := 40) +contextual [State.migLoad, h]

@[simp] theorem execMbMigRestore_kept (h : Kept o s) (a) : KeptBy o (execMbMigRestore a s) := by
  unfold execMbMigRestore
  rw [KeptBy_next]
  refine State.mbRun_kept h _ _ _ (fun s p h => ?_)
  dsimp only
  repeat' split
  all_goals simp (maxDischargeDepth := 40) +contextual [h]

end Sys2Proof.Machine
end

