-- ==== Sys2Proof/Laws/KeptObjects.lean ====
section
/-! SUPPORT. That every operation of Machine/Objects.lean keeps `Kept`. -/

namespace Sys2Proof.Machine

variable {o s : State}

@[simp] theorem State.releaseRefs_kept (h : Kept o s) (a) : Kept o (State.releaseRefs s a) := by simp (maxDischargeDepth := 40) +contextual [State.releaseRefs, h]

@[simp] theorem State.chiveFull_kept (h : Kept o s) (a) (b) : Kept o (State.chiveFull s a b) := by unfold State.chiveFull; split <;> simp [h]

@[simp] theorem State.enterChunk_kept (h : Kept o s) (a) (b) (c) : Kept o (State.enterChunk s a b c) := by unfold State.enterChunk; split <;> simp [h]

@[simp] theorem State.aliasChunk_kept (h : Kept o s) (a) (b) (c) : Kept o (State.aliasChunk s a b c) := by
  unfold State.aliasChunk
  repeat' split
  all_goals simp (maxDischargeDepth := 40) +contextual [h]

@[simp] theorem State.failAppend_kept (h : Kept o s) (a) (b) (c) : Kept o (State.failAppend s a b c) := by simp (maxDischargeDepth := 40) +contextual [State.failAppend, h]

@[simp] theorem State.createObject_kept (h : Kept o s) (a) (b) : Kept o (State.createObject s a b) := by unfold State.createObject; split <;> simp [h]

@[simp] theorem State.reopenChunk_kept (h : Kept o s) (a) : Kept o (State.reopenChunk s a) := by
  unfold State.reopenChunk
  dsimp only
  repeat' split
  all_goals simp (maxDischargeDepth := 40) +contextual [h]

@[simp] theorem State.appendStore_kept (h : Kept o s) (a) (b) (c) (d) (e) : Kept o (State.appendStore s a b c d e) := by
  unfold State.appendStore
  dsimp only
  repeat' split
  all_goals simp (maxDischargeDepth := 40) +contextual [h]

@[simp] theorem State.appendRead_kept (h : Kept o s) (a) (b) (c) (d) : Kept o (State.appendRead s a b c d) := by
  unfold State.appendRead
  dsimp only
  repeat' split
  all_goals simp (maxDischargeDepth := 40) +contextual [h]

@[simp] theorem execEssenceAppend_kept (h : Kept o s) (a) (b) (c) : KeptBy o (execEssenceAppend a b s c) := by
  unfold execEssenceAppend
  repeat' split
  all_goals simp [h]

@[simp] theorem execSampleIndexLoad_kept (h : Kept o s) (a) (b) : KeptBy o (execSampleIndexLoad a b s) := by
  unfold execSampleIndexLoad
  dsimp only
  repeat' split
  all_goals simp (maxDischargeDepth := 40) +contextual [h]

@[simp] theorem State.sealIv_kept (h : Kept o s) (a) : Kept o (State.sealIv s a).2.2 := by
  unfold State.sealIv
  repeat' split
  all_goals simp [h]

@[simp] theorem State.sealObject_kept (h : Kept o s) (a) (b) (c) : Kept o (State.sealObject s a b c) := by
  unfold State.sealObject
  dsimp only
  repeat' split
  all_goals simp (maxDischargeDepth := 40) +contextual [h]

@[simp] theorem State.sealChunks_kept (h : Kept o s) (a) (b) (c) : Kept o (State.sealChunks s a b c) := by simp (maxDischargeDepth := 40) +contextual [State.sealChunks, h]

@[simp] theorem State.sealChecks_kept (h : Kept o s) (a) (b) (c) (d) : Kept o (State.sealChecks s a b c d) := by
  unfold State.sealChecks
  dsimp only
  repeat' split
  all_goals simp (maxDischargeDepth := 40) +contextual [h]

@[simp] theorem execObjectSeal_kept (h : Kept o s) (a) : KeptBy o (execObjectSeal a s) := by
  unfold execObjectSeal
  dsimp only
  repeat' split
  all_goals simp (maxDischargeDepth := 40) +contextual [h]

@[simp] theorem execObjectQuery_kept (h : Kept o s) (a) : KeptBy o (execObjectQuery a s) := by
  unfold execObjectQuery
  dsimp only
  repeat' split
  all_goals simp (maxDischargeDepth := 40) +contextual [h]

@[simp] theorem State.removeObject_kept (h : Kept o s) (a) (b) : Kept o (State.removeObject s a b) := by simp [State.removeObject, h]

@[simp] theorem execObjectDelete_kept (h : Kept o s) (a) : KeptBy o (execObjectDelete a s) := by
  unfold execObjectDelete
  dsimp only
  repeat' split
  all_goals simp (maxDischargeDepth := 40) +contextual [h]

@[simp] theorem State.releaseMap_kept (h : Kept o s) (a) : Kept o (State.releaseMap s a) := by simp (maxDischargeDepth := 40) +contextual [State.releaseMap, h]

@[simp] theorem execChunkRefsRelease_kept (h : Kept o s) (a) (b) : KeptBy o (execChunkRefsRelease a b s) := by
  unfold execChunkRefsRelease
  repeat' split
  all_goals simp (maxDischargeDepth := 40) +contextual [h]

@[simp] theorem State.decideChunk_kept (h : Kept o s) (a) (b) (c) : Kept o (State.decideChunk s a b c) := by unfold State.decideChunk; split <;> simp [h]

@[simp] theorem execChunkFingerprint_kept (h : Kept o s) (a) (b) (c) : KeptBy o (execChunkFingerprint a b c s) := by
  unfold execChunkFingerprint
  dsimp only
  repeat' split
  all_goals simp (maxDischargeDepth := 40) +contextual [h]

@[simp] theorem State.verdict_kept (h : Kept o s) (a) (b) (c) (d) (e) (f) : Kept o (State.verdict s a b c d e f) := by unfold State.verdict; split <;> simp [h]

@[simp] theorem execVerifyCompare_kept (h : Kept o s) (a) (b) (c) (d) : KeptBy o (execVerifyCompare a b c d s) := by
  unfold execVerifyCompare
  dsimp only
  repeat' split
  all_goals simp (maxDischargeDepth := 40) +contextual [h]

end Sys2Proof.Machine
end

