-- ==== Sys2Proof/Laws/KeptNamespaces.lean ====
section
/-! SUPPORT. That every operation of Machine/Namespaces.lean keeps `Kept`. -/

namespace Sys2Proof.Machine

variable {o s : State}

@[simp] theorem State.refundNs_kept (h : Kept o s) (a) : Kept o (State.refundNs s a) := by unfold State.refundNs; split <;> simp [h]

@[simp] theorem State.chargeNs_kept (h : Kept o s) (a) : Kept o (State.chargeNs s a) := by unfold State.chargeNs; split <;> simp [h]

@[simp] theorem State.releaseDeleted_kept (h : Kept o s) (a) : Kept o (State.releaseDeleted s a) := by simp [State.releaseDeleted, h]

@[simp] theorem State.eraseNs_kept (h : Kept o s) (a) : Kept o (State.eraseNs s a) := by simp (maxDischargeDepth := 40) +contextual [State.eraseNs, h]

@[simp] theorem State.durable_kept (h : Kept o s) : Kept o (State.durable s) := by unfold State.durable; split <;> simp [h]

@[simp] theorem execNamespaceCreate_kept (h : Kept o s) (a) (b) : KeptBy o (execNamespaceCreate a b s) := by
  unfold execNamespaceCreate
  repeat' split
  all_goals simp [h]

@[simp] theorem State.deleteNs_kept (h : Kept o s) (a) : Kept o (State.deleteNs s a) := by
  unfold State.deleteNs
  repeat' split
  all_goals simp (maxDischargeDepth := 40) +contextual [h]

@[simp] theorem execNamespaceDelete_kept (h : Kept o s) (a) : KeptBy o (execNamespaceDelete a s) := by
  unfold execNamespaceDelete
  repeat' split
  all_goals simp (maxDischargeDepth := 40) +contextual [h]

@[simp] theorem State.attachNs_kept (h : Kept o s) (a) (b) (c) : Kept o (State.attachNs s a b c) := by
  unfold State.attachNs
  repeat' split
  all_goals simp (maxDischargeDepth := 40) +contextual [h]

@[simp] theorem execNamespaceAttach_kept (h : Kept o s) (a) (b) : KeptBy o (execNamespaceAttach a b s) := by
  unfold execNamespaceAttach
  repeat' split
  all_goals simp [h]

@[simp] theorem execNamespaceDetach_kept (h : Kept o s) (a) (b) : KeptBy o (execNamespaceDetach a b s) := by
  unfold execNamespaceDetach
  repeat' split
  all_goals simp [h]

@[simp] theorem State.cryptoErase_kept (h : Kept o s) (a) : Kept o (State.cryptoErase s a) := by simp (maxDischargeDepth := 40) +contextual [State.cryptoErase, h]

@[simp] theorem State.reformat_kept (h : Kept o s) (a) (b) : Kept o (State.reformat s a b) := by
  unfold State.reformat
  repeat' split
  all_goals simp (maxDischargeDepth := 40) +contextual [h]

@[simp] theorem execFormatNvm_kept (h : Kept o s) (a) : KeptBy o (execFormatNvm a s) := by
  unfold execFormatNvm
  repeat' split
  all_goals simp (maxDischargeDepth := 40) +contextual [h]

@[simp] theorem State.sanitizeAll_kept (h : Kept o s) (a) : Kept o (State.sanitizeAll s a) := by simp (maxDischargeDepth := 40) +contextual [State.sanitizeAll, h]

@[simp] theorem execSanitize_kept (h : Kept o s) (a) : KeptBy o (execSanitize a s) := by
  unfold execSanitize
  repeat' split
  all_goals simp (maxDischargeDepth := 40) +contextual [h]

end Sys2Proof.Machine
end

