-- ==== Sys2Proof/Laws/KeptAdmin.lean ====
section
/-! SUPPORT. That every operation of Machine/Admin.lean keeps `Kept`. -/

namespace Sys2Proof.Machine

variable {o s : State}

@[simp] theorem execCreateIoCq_kept (h : Kept o s) (a) : KeptBy o (execCreateIoCq a s) := by unfold execCreateIoCq; split <;> simp [h]

@[simp] theorem execCreateIoSq_kept (h : Kept o s) (a) : KeptBy o (execCreateIoSq a s) := by unfold execCreateIoSq; split <;> simp [h]

@[simp] theorem execDeleteIoSq_kept (h : Kept o s) (a) : KeptBy o (execDeleteIoSq a s) := by unfold execDeleteIoSq; split <;> simp [h]

@[simp] theorem execDeleteIoCq_kept (h : Kept o s) (a) : KeptBy o (execDeleteIoCq a s) := by unfold execDeleteIoCq; split <;> simp [h]

@[simp] theorem State.drawPage_kept (h : Kept o s) (a) (b) : Kept o (State.drawPage s a b).2 := by simp [State.drawPage, h]

theorem State.identifyPage_kept (h : Kept o s) {c : Cmd} {r : Bytes × State} (hr : s.identifyPage c = .ok r) : Kept o r.2 := by
  unfold State.identifyPage at hr
  dsimp only at hr
  repeat' split at hr
  all_goals first | contradiction | (injection hr with hr; subst hr; simp (maxDischargeDepth := 40) [h])

@[simp] theorem execIdentify_kept (h : Kept o s) (a) : KeptBy o (execIdentify a s) := by
  unfold execIdentify
  rw [KeptBy_next]
  split
  · exact h
  · exact State.onOk_kept h a (fun r hr => State.answer_kept (State.identifyPage_kept h hr) _ _)

@[simp] theorem State.anaLog_kept (h : Kept o s) (a) : Kept o (State.anaLog s a).2 := by simp [State.anaLog, h]

@[simp] theorem State.pelEntries_kept (h : Kept o s) (a) : Kept o (State.pelEntries s a).2 := by
  induction a generalizing s with
  | nil => exact h
  | cons e es ih =>
    unfold State.pelEntries
    dsimp only
    split <;> exact ih (by simp (maxDischargeDepth := 40) [h])

@[simp] theorem State.pelLog_kept (h : Kept o s) : Kept o (State.pelLog s).2 := by simp [State.pelLog, h]

theorem State.logPage_kept (h : Kept o s) {c : Cmd} {r : Bytes × State} (hr : s.logPage c = .ok r) : Kept o r.2 := by
  unfold State.logPage at hr
  dsimp only at hr
  repeat' split at hr
  all_goals first | contradiction | (injection hr with hr; subst hr; simp (maxDischargeDepth := 40) [h])

@[simp] theorem execGetLogPage_kept (h : Kept o s) (a) : KeptBy o (execGetLogPage a s) := by
  unfold execGetLogPage
  rw [KeptBy_next]
  split
  · exact h
  · refine State.onOk_kept h a (fun r hr => ?_)
    have h1 := State.logPage_kept h hr
    split <;> simp [h, h1]

theorem State.featureValue_kept (h : Kept o s) {c : Cmd} {v : Features} {fid : Nat} {r : Nat × State}
    (hr : s.featureValue c v fid = some r) : Kept o r.2 := by
  unfold State.featureValue at hr
  dsimp only at hr
  repeat' split at hr
  all_goals first | contradiction | (injection hr with hr; subst hr; simp [h])

@[simp] theorem execGetFeatures_kept (h : Kept o s) (a) : KeptBy o (execGetFeatures a s) := by
  unfold execGetFeatures
  rw [KeptBy_next]
  split
  · exact h
  · dsimp only
    split
    · simp [h]
    · split
      · simp [h]
      · split
        · simp (maxDischargeDepth := 40) [h]
        · split
          · simp [h]
          · exact State.finish_kept (State.featureValue_kept h ‹_›) _ _ _ _

@[simp] theorem State.checkTemp_kept (h : Kept o s) (a) : Kept o (State.checkTemp s a) := by simp [State.checkTemp, h]

/-- A Set Features command keeps it when its own step does. -/
@[simp] theorem State.setFeature_kept (h : Kept o s) (id : CmdId) (fid : Nat) {body : Cmd → State} (hb : ∀ c, Kept o (body c)) :
    Kept o (s.setFeature id fid body) := by
  unfold State.setFeature
  split
  · exact h
  · dsimp only
    repeat' split
    all_goals first | exact hb _ | simp [h]

@[simp] theorem execSetFeaturesVolatileWriteCache_kept (h : Kept o s) (a) : KeptBy o (execSetFeaturesVolatileWriteCache a s) := by simp (maxDischargeDepth := 40) +contextual [execSetFeaturesVolatileWriteCache, h]

@[simp] theorem execSetFeaturesNumberOfQueues_kept (h : Kept o s) (a) : KeptBy o (execSetFeaturesNumberOfQueues a s) := by
  unfold execSetFeaturesNumberOfQueues
  rw [KeptBy_next]
  refine State.setFeature_kept h _ _ (fun c => ?_)
  dsimp only
  split
  · simp [h]
  · split
    · exact State.finish_kept (State.featureValue_kept h ‹_›) _ _ _ _
    · exact h

@[simp] theorem execSetFeaturesTimestamp_kept (h : Kept o s) (a) (b) (c) : KeptBy o (execSetFeaturesTimestamp a b c s) := by simp (maxDischargeDepth := 40) +contextual [execSetFeaturesTimestamp, h]

@[simp] theorem execSetFeaturesTemperatureThreshold_kept (h : Kept o s) (a) : KeptBy o (execSetFeaturesTemperatureThreshold a s) := by simp (maxDischargeDepth := 40) +contextual [execSetFeaturesTemperatureThreshold, h]

@[simp] theorem execSetFeaturesArbitration_kept (h : Kept o s) (a) : KeptBy o (execSetFeaturesArbitration a s) := by simp (maxDischargeDepth := 40) +contextual [execSetFeaturesArbitration, h]

@[simp] theorem execAsynchronousEventRequest_kept (h : Kept o s) (a) : KeptBy o (execAsynchronousEventRequest a s) := by
  unfold execAsynchronousEventRequest
  dsimp only
  repeat' split
  all_goals simp (maxDischargeDepth := 40) +contextual [h]

@[simp] theorem execDeviceSelfTest_kept (h : Kept o s) (a) : KeptBy o (execDeviceSelfTest a s) := by unfold execDeviceSelfTest; split <;> simp [h]

@[simp] theorem execNvmeMiSend_kept (h : Kept o s) (a) (b) : KeptBy o (execNvmeMiSend a b s) := by unfold execNvmeMiSend; split <;> simp [h]

@[simp] theorem execNvmeMiReceive_kept (h : Kept o s) (a) : KeptBy o (execNvmeMiReceive a s) := by
  unfold execNvmeMiReceive
  repeat' split
  all_goals simp (maxDischargeDepth := 40) +contextual [h]

@[simp] theorem execNvmeMiOverSmbus_kept (h : Kept o s) (a) : KeptBy o (execNvmeMiOverSmbus a s) := by simp (maxDischargeDepth := 40) +contextual [execNvmeMiOverSmbus, h]

@[simp] theorem State.reserve_kept (h : Kept o s) (a) (b) (c) (d) : Kept o (State.reserve s a b c d) := by
  unfold State.reserve
  repeat' split
  all_goals simp [h]

@[simp] theorem execReservationRegister_kept (h : Kept o s) (a) (b) (c) : KeptBy o (execReservationRegister a b c s) := by simp [execReservationRegister, h]

@[simp] theorem execReservationAcquire_kept (h : Kept o s) (a) (b) (c) : KeptBy o (execReservationAcquire a b c s) := by simp [execReservationAcquire, h]

@[simp] theorem execReservationRelease_kept (h : Kept o s) (a) (b) : KeptBy o (execReservationRelease a b s) := by simp [execReservationRelease, h]

@[simp] theorem State.resvStatus_kept (h : Kept o s) (a) (b) : Kept o (State.resvStatus s a b).2 := by unfold State.resvStatus; split <;> simp [h]

@[simp] theorem execReservationReport_kept (h : Kept o s) (a) : KeptBy o (execReservationReport a s) := by
  unfold execReservationReport
  repeat' split
  all_goals simp [h]

end Sys2Proof.Machine
end

