-- ==== Sys2Proof/Laws/KeptAes.lean ====
section
/-! SUPPORT. That every operation of Machine/Aes.lean keeps `Kept`. -/

namespace Sys2Proof.Machine

variable {o s : State}

end Sys2Proof.Machine
end

