-- ==== Sys2Proof/Laws/KeptProfiles.lean ====
section
/-! SUPPORT. That every operation of Machine/Profiles.lean keeps `Kept`. -/

namespace Sys2Proof.Machine

variable {o s : State}

@[simp] theorem State.retireProfile_kept (h : Kept o s) (a) (b) (c) (d) : Kept o (State.retireProfile s a b c d) := by simp [State.retireProfile, h]

@[simp] theorem State.commitProfile_kept (h : Kept o s) (a) (b) (c) (d) : Kept o (State.commitProfile s a b c d).1 := by simp (maxDischargeDepth := 40) +contextual [State.commitProfile, h]

@[simp] theorem State.loadProfile_kept (h : Kept o s) (a) (b) (c) (d) : Kept o (State.loadProfile s a b c d).1 := by unfold State.loadProfile; split <;> simp [h]

@[simp] theorem State.mbProfileLoad_kept (h : Kept o s) (a) (b) : Kept o (State.mbProfileLoad s a b) := by
  unfold State.mbProfileLoad
  refine State.mbRun_kept h _ _ _ (fun s p h => ?_)
  dsimp only
  repeat' split
  all_goals simp (maxDischargeDepth := 40) [h]

@[simp] theorem execMbProfileLoadPackaging_kept (h : Kept o s) (a) : KeptBy o (execMbProfileLoadPackaging a s) := by simp [execMbProfileLoadPackaging, h]

@[simp] theorem execMbProfileLoadEncryption_kept (h : Kept o s) (a) : KeptBy o (execMbProfileLoadEncryption a s) := by simp [execMbProfileLoadEncryption, h]

@[simp] theorem execMbProfileUnload_kept (h : Kept o s) (a) : KeptBy o (execMbProfileUnload a s) := by simp (maxDischargeDepth := 40) +contextual [execMbProfileUnload, h]

@[simp] theorem execMbProfileStatus_kept (h : Kept o s) (a) : KeptBy o (execMbProfileStatus a s) := by simp [execMbProfileStatus, h]

@[simp] theorem execProfileVersionFree_kept (h : Kept o s) (a) (b) (c) (d) : KeptBy o (execProfileVersionFree a b c d s) := by simp [execProfileVersionFree, h]

end Sys2Proof.Machine
end

