-- ==== Sys2Proof/Laws/KeptViews.lean ====
section
/-! SUPPORT. That every operation of Machine/Views.lean keeps `Kept`. -/

namespace Sys2Proof.Machine

variable {o s : State}

@[simp] theorem State.fetchView_kept (h : Kept o s) (a) (b) (c) : Kept o (State.fetchView s a b c) := by simp (maxDischargeDepth := 40) +contextual [State.fetchView, h]

@[simp] theorem State.countRanges_kept (h : Kept o s) (a) : Kept o (State.countRanges s a) := by simp (maxDischargeDepth := 40) +contextual [State.countRanges, h]

@[simp] theorem State.writeView_kept (h : Kept o s) (a) (b) (c) : Kept o (State.writeView s a b c) := by simp [State.writeView, h]

@[simp] theorem State.failView_kept (h : Kept o s) (a) (b) (c) (d) (e) : Kept o (State.failView s a b c d e) := by simp (maxDischargeDepth := 40) +contextual [State.failView, h]

@[simp] theorem State.placeView_kept (h : Kept o s) (a) (b) (c) (d) (e) : Kept o (State.placeView s a b c d e) := by
  unfold State.placeView
  repeat' split
  all_goals simp (maxDischargeDepth := 40) +contextual [h]

@[simp] theorem State.runView_kept (h : Kept o s) (a) (b) (c) (d) : Kept o (State.runView s a b c d) := by
  unfold State.runView
  dsimp only
  repeat' split
  all_goals simp (maxDischargeDepth := 40) +contextual [h]

@[simp] theorem State.viewRead_kept (h : Kept o s) (a) (b) (c) : Kept o (State.viewRead s a b c) := by
  unfold State.viewRead
  repeat' split
  all_goals simp [h]

@[simp] theorem execViewReadFragment_kept (h : Kept o s) (a) (b) : KeptBy o (execViewReadFragment a b s) := by simp [execViewReadFragment, h]

@[simp] theorem execViewReadInitSegment_kept (h : Kept o s) (a) (b) : KeptBy o (execViewReadInitSegment a b s) := by simp [execViewReadInitSegment, h]

@[simp] theorem execViewReadByteRange_kept (h : Kept o s) (a) (b) : KeptBy o (execViewReadByteRange a b s) := by simp [execViewReadByteRange, h]

@[simp] theorem State.viewSize_kept (h : Kept o s) (a) (b) : Kept o (State.viewSize s a b) := by
  unfold State.viewSize
  repeat' split
  all_goals simp [h]

@[simp] theorem execViewSizeFragment_kept (h : Kept o s) (a) : KeptBy o (execViewSizeFragment a s) := by simp [execViewSizeFragment, h]

@[simp] theorem execViewSizeInitSegment_kept (h : Kept o s) (a) : KeptBy o (execViewSizeInitSegment a s) := by simp [execViewSizeInitSegment, h]

@[simp] theorem execViewSizeByteRange_kept (h : Kept o s) (a) : KeptBy o (execViewSizeByteRange a s) := by simp [execViewSizeByteRange, h]

@[simp] theorem execHookRequest_kept (h : Kept o s) (a) : KeptBy o (execHookRequest a s) := by
  unfold execHookRequest
  repeat' split
  all_goals simp (maxDischargeDepth := 40) +contextual [h]

@[simp] theorem execHookReply_kept (h : Kept o s) (a) : KeptBy o (execHookReply a s) := by unfold execHookReply; split <;> simp [h]

end Sys2Proof.Machine
end

