-- ==== Sys2Proof/Laws/KeptCpe.lean ====
section
/-! SUPPORT. That every operation of Machine/Cpe.lean keeps `Kept`. -/

namespace Sys2Proof.Machine

variable {o s : State}

@[simp] theorem State.cpeDeliver_kept (h : Kept o s) (a) (b) (c) (d) (e) (f) : Kept o (State.cpeDeliver s a b c d e f) := by simp [State.cpeDeliver, h]

@[simp] theorem State.cpeVerdict_kept (h : Kept o s) (a) (b) (c) (d) : Kept o (State.cpeVerdict s a b c d) := by unfold State.cpeVerdict; split <;> simp [h]

@[simp] theorem State.cpeFail_kept (h : Kept o s) (a) (b) (c) (d) : Kept o (State.cpeFail s a b c d) := by unfold State.cpeFail; split <;> simp [h]

@[simp] theorem State.cpeSubmit_kept (h : Kept o s) (a) (b) : Kept o (State.cpeSubmit s a b) := by unfold State.cpeSubmit; split <;> simp [h]

@[simp] theorem execCpeRequest_kept (h : Kept o s) (a) (b) : KeptBy o (execCpeRequest a b s) := by unfold execCpeRequest; split <;> simp [h]

@[simp] theorem State.setPipe_kept (h : Kept o s) (a) (b) : Kept o (State.setPipe s a b) := by simp [State.setPipe, h]

@[simp] theorem State.pipeStops_kept (h : Kept o s) (a) : Kept o (State.pipeStops s a) := by simp [State.pipeStops, h]

@[simp] theorem State.takeNonce_kept (h : Kept o s) (a) (b) (c) (d) : Kept o (State.takeNonce s a b c d).2 := by simp [State.takeNonce, h]

@[simp] theorem State.bindNonce_kept (h : Kept o s) (a) (b) : Kept o (State.bindNonce s a b).2 := by simp [State.bindNonce, h]

@[simp] theorem execCpeDispatch_kept (h : Kept o s) : KeptBy o (execCpeDispatch s) := by
  unfold execCpeDispatch
  dsimp only
  repeat' split
  all_goals simp (maxDischargeDepth := 40) +contextual [h]

@[simp] theorem execCpeSliceEnd_kept (h : Kept o s) (a) : KeptBy o (execCpeSliceEnd a s) := by
  unfold execCpeSliceEnd
  dsimp only
  repeat' split
  all_goals simp (maxDischargeDepth := 40) +contextual [h]

@[simp] theorem State.cpeWrite_kept (h : Kept o s) (a) (b) : Kept o (State.cpeWrite s a b) := by simp [State.cpeWrite, h]

@[simp] theorem State.cpeCut_kept (h : Kept o s) (a) (b) (c) (d) : Kept o (State.cpeCut s a b c d) := by simp [State.cpeCut, h]

@[simp] theorem State.cpeAuthFail_kept (h : Kept o s) (a) (b) (c) : Kept o (State.cpeAuthFail s a b c) := by simp (maxDischargeDepth := 40) +contextual [State.cpeAuthFail, h]

@[simp] theorem State.cpeRan_kept (h : Kept o s) (a) (b) : Kept o (State.cpeRan s a b) := by simp (maxDischargeDepth := 40) +contextual [State.cpeRan, h]

@[simp] theorem State.cpeParity_kept (h : Kept o s) (a) (b) (c) : Kept o (State.cpeParity s a b c) := by simp (maxDischargeDepth := 40) +contextual [State.cpeParity, h]

@[simp] theorem State.cpeBadTag_kept (h : Kept o s) (a) (b) (c) : Kept o (State.cpeBadTag s a b c) := by simp [State.cpeBadTag, h]

@[simp] theorem execCpeRequestComplete_kept (h : Kept o s) (a) (b) : KeptBy o (execCpeRequestComplete a b s) := by
  unfold execCpeRequestComplete
  dsimp only
  repeat' split
  all_goals simp (maxDischargeDepth := 40) +contextual [h]

@[simp] theorem execDrbgReseed_kept (h : Kept o s) (a) (b) : KeptBy o (execDrbgReseed a b s) := by unfold execDrbgReseed; split <;> simp [h]

@[simp] theorem execRngHealthFail_kept (h : Kept o s) (a) : KeptBy o (execRngHealthFail a s) := by unfold execRngHealthFail; split <;> simp [h]

@[simp] theorem State.pageBreach_kept (h : Kept o s) (a) (b) (c) : Kept o (State.pageBreach s a b c) := by simp [State.pageBreach, h]

/-- An access to a privileged page keeps it when its own effect does. -/
@[simp] theorem State.pageAccess_kept (h : Kept o s) (a b c : Nat) {body : State → State} (hb : ∀ s, Kept o s → Kept o (body s)) :
    Kept o (s.pageAccess a b c body) := by
  unfold State.pageAccess
  repeat' split
  all_goals first | exact h | exact hb _ h | simp [h]

@[simp] theorem State.updPage_kept (h : Kept o s) (a) (b) : Kept o (State.updPage s a b) := by simp [State.updPage, h]

@[simp] theorem execCpePgGo_kept (h : Kept o s) (a) (b) : KeptBy o (execCpePgGo a b s) := by simp (maxDischargeDepth := 40) +contextual [execCpePgGo, h]

@[simp] theorem execCpePgKey_kept (h : Kept o s) (a) (b) (c) (d) (e) : KeptBy o (execCpePgKey a b c d e s) := by simp (maxDischargeDepth := 40) +contextual [execCpePgKey, h]

@[simp] theorem execPageViolation_kept (h : Kept o s) (a) (b) (c) : KeptBy o (execPageViolation a b c s) := by unfold execPageViolation; split <;> simp [h]

end Sys2Proof.Machine
end

