-- ==== Sys2Proof/Laws/KeptDge.lean ====
section
/-! SUPPORT. That every operation of Machine/Dge.lean keeps `Kept`. -/

namespace Sys2Proof.Machine

variable {o s : State}

@[simp] theorem State.setCtx_kept (h : Kept o s) (a) (b) : Kept o (State.setCtx s a b) := by simp [State.setCtx, h]

@[simp] theorem State.dgeSchedule_kept (h : Kept o s) : Kept o (State.dgeSchedule s) := by
  unfold State.dgeSchedule
  refine Kept.foldl (by simp (maxDischargeDepth := 40) [h]) (fun s x h => ?_) _
  dsimp only
  repeat' split
  all_goals simp (maxDischargeDepth := 40) [h]

@[simp] theorem State.dgeLeave_kept (h : Kept o s) (a) : Kept o (State.dgeLeave s a) := by simp [State.dgeLeave, h]

@[simp] theorem State.dgeOpen_kept (h : Kept o s) (a) (b) (c) : Kept o (State.dgeOpen s a b c) := by
  unfold State.dgeOpen
  dsimp only
  repeat' split
  all_goals simp (maxDischargeDepth := 40) +contextual [h]

@[simp] theorem State.dgeNextOpen_kept (h : Kept o s) : Kept o (State.dgeNextOpen s) := by
  unfold State.dgeNextOpen
  refine Kept.foldl h (fun s x h => ?_) _
  split <;> simp [h]

@[simp] theorem execDgeCtxCfg_kept (h : Kept o s) (a) (b) (c) : KeptBy o (execDgeCtxCfg a b c s) := by unfold execDgeCtxCfg; split <;> simp [h]

@[simp] theorem State.dgeReopen_kept (h : Kept o s) (a) : Kept o (State.dgeReopen s a) := by simp (maxDischargeDepth := 40) +contextual [State.dgeReopen, h]

/-- A write to a digest context keeps it when its own effect does. -/
@[simp] theorem State.dgeWrite_kept (h : Kept o s) (i : Nat) {body : State → DgeCtx → State} (hb : ∀ s x, Kept o s → Kept o (body s x)) :
    Kept o (s.dgeWrite i body) := by
  unfold State.dgeWrite
  split
  · exact h
  · dsimp only
    split
    · exact h
    · exact hb _ _ (by simp [h])

@[simp] theorem execDgeCtxData_kept (h : Kept o s) (a) (b) : KeptBy o (execDgeCtxData a b s) := by simp (maxDischargeDepth := 40) +contextual [execDgeCtxData, h]

@[simp] theorem execDgeCtxLastData_kept (h : Kept o s) (a) (b) : KeptBy o (execDgeCtxLastData a b s) := by simp (maxDischargeDepth := 40) +contextual [execDgeCtxLastData, h]

@[simp] theorem State.dgeCompare_kept (h : Kept o s) (a) (b) : Kept o (State.dgeCompare s a b).2 := by unfold State.dgeCompare; split <;> simp [h]

@[simp] theorem State.dgeFinish_kept (h : Kept o s) (a) (b) : Kept o (State.dgeFinish s a b) := by simp (maxDischargeDepth := 40) +contextual [State.dgeFinish, h]

@[simp] theorem execDgeCtxLastCnt_kept (h : Kept o s) (a) (b) : KeptBy o (execDgeCtxLastCnt a b s) := by simp (maxDischargeDepth := 40) +contextual [execDgeCtxLastCnt, h]

@[simp] theorem State.saveImage_kept (h : Kept o s) (a) : Kept o (State.saveImage s a) := by simp (maxDischargeDepth := 40) +contextual [State.saveImage, h]

@[simp] theorem execDgeContextSwitch_kept (h : Kept o s) (a) (b) (c) (d) : KeptBy o (execDgeContextSwitch a b c d s) := by simp (maxDischargeDepth := 40) +contextual [execDgeContextSwitch, h]

end Sys2Proof.Machine
end

