-- ==== Sys2Proof/Laws/KeptAsu.lean ====
section
/-! SUPPORT. That every operation of Machine/Asu.lean keeps `Kept`. -/

namespace Sys2Proof.Machine

variable {o s : State}

@[simp] theorem execMbTableCreate_kept (h : Kept o s) (a) : KeptBy o (execMbTableCreate a s) := by
  unfold execMbTableCreate
  rw [KeptBy_next]
  refine State.mbRun_kept h _ _ _ (fun s p h => ?_)
  dsimp only
  repeat' split
  all_goals simp (maxDischargeDepth := 40) +contextual [h]

@[simp] theorem State.tableDeleteEnd_kept (h : Kept o s) (a) : Kept o (State.tableDeleteEnd s a) := by
  unfold State.tableDeleteEnd
  repeat' split
  all_goals simp (maxDischargeDepth := 40) +contextual [h]

@[simp] theorem execMbTableDelete_kept (h : Kept o s) (a) : KeptBy o (execMbTableDelete a s) := by
  unfold execMbTableDelete
  rw [KeptBy_next]
  refine State.tableDeleteEnd_kept (State.mbRunAs_kept h _ _ _ (fun s w p h => ?_)) _
  split <;> simp [h]

@[simp] theorem execMbTableStatus_kept (h : Kept o s) (a) : KeptBy o (execMbTableStatus a s) := by
  unfold execMbTableStatus
  rw [KeptBy_next]
  refine State.mbRun_kept h _ _ _ (fun s p h => ?_)
  dsimp only
  repeat' split
  all_goals simp (maxDischargeDepth := 40) +contextual [h]

@[simp] theorem State.setRow_kept (h : Kept o s) (a) (b) (c) : Kept o (State.setRow s a b c) := by simp [State.setRow, h]

@[simp] theorem State.selftestFail_kept (h : Kept o s) (a) (b) : Kept o (State.selftestFail s a b) := by simp [State.selftestFail, h]

theorem State.rowFault_kept (h : Kept o s) {t : Table} {x : AsuFault} {l : List Nat} {s1 : State} (hr : s.rowFault t x l = some s1) :
    Kept o s1 := by
  unfold State.rowFault at hr
  dsimp only at hr
  repeat' split at hr
  all_goals first | contradiction | (injection hr with hr; subst hr; simp (maxDischargeDepth := 40) [h])

theorem State.asuFault_kept (h : Kept o s) {t : Table} {x : AsuFault} {l : List Nat} {s1 : State} (hr : s.asuFault t x l = some s1) :
    Kept o s1 := by
  unfold State.asuFault at hr
  dsimp only at hr
  repeat' split at hr
  all_goals first
    | contradiction
    | exact State.rowFault_kept h hr
    | (injection hr with hr; subst hr; simp (maxDischargeDepth := 40) [h])

theorem State.applyRecord_kept (h : Kept o s) (t : Table) (b : Bytes) (x : AsuFault) :
    (∀ s1, s.applyRecord t b x = .ok s1 → Kept o s1) ∧ ∀ s1 st, s.applyRecord t b x = .error (s1, st) → Kept o s1 := by
  unfold State.applyRecord
  dsimp only
  constructor <;> intro s1 <;> intros <;> rename_i hr <;> repeat' split at hr
  all_goals first
    | contradiction
    | (injection hr with hr; subst hr; simp [h]; done)
    | (injection hr with hr; injection hr with hr; subst hr; first | exact h | exact State.rowFault_kept h ‹_›)

@[simp] theorem State.applyRecords_kept (h : Kept o s) (a) (b) (c) (d) : Kept o (State.applyRecords s a b c d).1 := by
  induction c generalizing s d with
  | nil => exact h
  | cons x l ih =>
    unfold State.applyRecords
    split
    · exact (State.applyRecord_kept h _ _ _).2 _ _ ‹_›
    · exact ih ((State.applyRecord_kept h _ _ _).1 _ ‹_›) _

@[simp] theorem execIndexUpdate_kept (h : Kept o s) (a) (b) (c) : KeptBy o (execIndexUpdate a b s c) := by
  unfold execIndexUpdate
  dsimp only
  repeat' split
  all_goals simp (maxDischargeDepth := 40) +contextual [h]

@[simp] theorem execIndexSearch_kept (h : Kept o s) (a) (b) (c) : KeptBy o (execIndexSearch a b c s) := by
  unfold execIndexSearch
  rw [KeptBy_next]
  dsimp only
  repeat' split
  all_goals first | exact h | exact State.finish_kept (State.asuFault_kept h ‹_›) _ _ _ _ | simp [h]

@[simp] theorem execAsuSelftest_kept (h : Kept o s) (a) (b) (c) : KeptBy o (execAsuSelftest a b c s) := by unfold execAsuSelftest; split <;> simp [h]

end Sys2Proof.Machine
end

