-- ==== Sys2Proof/Laws/KeptCmp.lean ====
section
/-! SUPPORT. That every operation of Machine/Cmp.lean keeps `Kept`. -/

namespace Sys2Proof.Machine

variable {o s : State}

@[simp] theorem State.setHeld_kept (h : Kept o s) (a) (b) : Kept o (State.setHeld s a b) := by simp [State.setHeld, h]

@[simp] theorem State.verifyMismatch_kept (h : Kept o s) (a) (b) : Kept o (State.verifyMismatch s a b).1 := by unfold State.verifyMismatch; split <;> simp (maxDischargeDepth := 40) +contextual [h]

@[simp] theorem State.checkFailed_kept (h : Kept o s) (a) (b) (c) : Kept o (State.checkFailed s a b c) := by simp [State.checkFailed, h]

@[simp] theorem State.cmpRun_kept (h : Kept o s) (a) (b) (c) (d) (e) (f) (g) : Kept o (State.cmpRun s a b c d e f g).1 := by
  unfold State.cmpRun
  dsimp only
  repeat' split
  all_goals simp (maxDischargeDepth := 40) +contextual [h]

@[simp] theorem execCmpContextExpired_kept (h : Kept o s) (a) : KeptBy o (execCmpContextExpired a s) := by unfold execCmpContextExpired; split <;> simp [h]

/-- A TRANSFORM keeps it when its own operation does. -/
@[simp] theorem State.transform_kept (h : Kept o s) (id : CmdId) (data : Bytes) (ops : List Nat) {body : Cmd → TfHeader → Bytes → State}
    (hb : ∀ c t i, Kept o (body c t i)) : Kept o (s.transform id data ops body) := by
  unfold State.transform
  split
  · exact h
  · dsimp only
    repeat' split
    all_goals first | exact h | exact hb _ _ _ | simp [h]

@[simp] theorem State.outRetracted_kept (h : Kept o s) (a) (b) (c) : Kept o (State.outRetracted s a b c) := by simp [State.outRetracted, h]

@[simp] theorem State.cmpOut_kept (h : Kept o s) (a) (b) (c) (d) : Kept o (State.cmpOut s a b c d) := by unfold State.cmpOut; split <;> simp [h]

@[simp] theorem State.tfReport_kept (h : Kept o s) (a) (b) : Kept o (State.tfReport s a b) := by simp [State.tfReport, h]

@[simp] theorem State.cmpFinish_kept (h : Kept o s) (a) (b) (c) (d) (e) : Kept o (State.cmpFinish s a b c d e) := by unfold State.cmpFinish; split <;> simp [h]

@[simp] theorem State.cmpJob_kept (h : Kept o s) (a) (b) (c) (d) (e) (f) (g) (i) : Kept o (State.cmpJob s a b c d e f g i) := by
  unfold State.cmpJob
  repeat' split
  all_goals simp (maxDischargeDepth := 40) +contextual [h]

@[simp] theorem State.transformCmp_kept (h : Kept o s) (a) (b) (c) (d) (e) (f) : Kept o (State.transformCmp s a b c d e f) := by
  unfold State.transformCmp
  repeat' split
  all_goals simp [h]

@[simp] theorem execTransformCompress_kept (h : Kept o s) (a) (b) (c) (d) : KeptBy o (execTransformCompress a b c s d) := by simp [execTransformCompress, h]

@[simp] theorem execTransformDecompress_kept (h : Kept o s) (a) (b) (c) : KeptBy o (execTransformDecompress a b s c) := by simp [execTransformDecompress, h]

@[simp] theorem State.tfCompare_kept (h : Kept o s) (a) (b) (c) (d) (e) : Kept o (State.tfCompare s a b c d e) := by unfold State.tfCompare; split <;> simp [h]

@[simp] theorem State.transformDigest_kept (h : Kept o s) (a) (b) (c) (d) (e) : Kept o (State.transformDigest s a b c d e) := by unfold State.transformDigest; split <;> simp [h]

/-- A TRANSFORM whose input passed its checks keeps it when what it then does keeps it. -/
theorem State.tfChecked_kept (h : Kept o s) (id : CmdId) (c : Cmd) (b : Option TagFault) {t : State} (ht : Kept o t) :
    Kept o (s.tfChecked id c b t) := by
  unfold State.tfChecked
  split <;> simp [h, ht]

@[simp] theorem execTransformDigest_kept (h : Kept o s) (a) (b) (c) : KeptBy o (execTransformDigest a b s c) := by
  rw [execTransformDigest, KeptBy_next]
  exact State.transform_kept h _ _ _ (fun c t i => State.tfChecked_kept h _ _ _ (State.transformDigest_kept h _ _ _ _ _))

@[simp] theorem State.cipherEnd_kept (h : Kept o s) (a) (b) (c) (d) (e) (f) (g) (i) : Kept o (State.cipherEnd s a b c d e f g i) := by simp (maxDischargeDepth := 40) +contextual [State.cipherEnd, h]

@[simp] theorem State.cipherWith_kept (h : Kept o s) (a) (b) (c) (d) (e) (f) : Kept o (State.cipherWith s a b c d e f) := by unfold State.cipherWith; split <;> simp [h]

@[simp] theorem State.transformCipher_kept (h : Kept o s) (a) (b) (c) (d) : Kept o (State.transformCipher s a b c d) := by unfold State.transformCipher; split <;> simp [h]

@[simp] theorem execTransformEncrypt_kept (h : Kept o s) (a) (b) (c) : KeptBy o (execTransformEncrypt a b s c) := by
  rw [execTransformEncrypt, KeptBy_next]
  exact State.transform_kept h _ _ _ (fun c t i => State.tfChecked_kept h _ _ _ (State.transformCipher_kept h _ _ _ _))

@[simp] theorem execTransformDecrypt_kept (h : Kept o s) (a) (b) (c) : KeptBy o (execTransformDecrypt a b s c) := by
  rw [execTransformDecrypt, KeptBy_next]
  exact State.transform_kept h _ _ _ (fun c t i => State.tfChecked_kept h _ _ _ (State.transformCipher_kept h _ _ _ _))

end Sys2Proof.Machine
end

