-- ==== Sys2Proof/Laws/KeptInvocation.lean ====
section
/-! SUPPORT. That every operation of Machine/Invocation.lean keeps `Kept`. -/

namespace Sys2Proof.Machine

variable {o s : State}

@[simp] theorem State.updProg_kept (h : Kept o s) (a) (b) (c) : Kept o (State.updProg s a b c) := by simp [State.updProg, h]

@[simp] theorem State.trapAt_kept (h : Kept o s) (a) (b) (c) : Kept o (State.trapAt s a b c) := by simp [State.trapAt, h]

@[simp] theorem State.scullFault_kept (h : Kept o s) (a) (b) (c) (d) : Kept o (State.scullFault s a b c d) := by simp [State.scullFault, h]

@[simp] theorem State.idleScull_kept (h : Kept o s) (a) : Kept o (State.idleScull s a) := by simp [State.idleScull, h]

@[simp] theorem State.countFault_kept (h : Kept o s) (a) : Kept o (State.countFault s a) := by simp [State.countFault, h]

@[simp] theorem State.endCommand_kept (h : Kept o s) (a) (b) (c) (d) : Kept o (State.endCommand s a b c d) := by
  unfold State.endCommand
  dsimp only
  repeat' split
  all_goals simp (maxDischargeDepth := 40) +contextual [h]

@[simp] theorem State.endHook_kept (h : Kept o s) (a) (b) : Kept o (State.endHook s a b) := by simp [State.endHook, h]

@[simp] theorem State.failHook_kept (h : Kept o s) (a) (b) : Kept o (State.failHook s a b) := by
  unfold State.failHook
  repeat' split
  all_goals simp (maxDischargeDepth := 40) +contextual [h]

@[simp] theorem State.endFault_kept (h : Kept o s) (a) (b) : Kept o (State.endFault s a b) := by unfold State.endFault; split <;> simp [h]

@[simp] theorem State.endInvocation_kept (h : Kept o s) (a) (b) : Kept o (State.endInvocation s a b) := by
  unfold State.endInvocation
  dsimp only
  repeat' split
  all_goals simp (maxDischargeDepth := 40) +contextual [h]

@[simp] theorem State.endOverrun_kept (h : Kept o s) (a) (b) : Kept o (State.endOverrun s a b) := by
  unfold State.endOverrun
  dsimp only
  repeat' split
  all_goals simp (maxDischargeDepth := 40) +contextual [h]

@[simp] theorem State.runFilter_kept (h : Kept o s) (a) (b) : Kept o (State.runFilter s a b) := by simp (maxDischargeDepth := 40) +contextual [State.runFilter, h]

end Sys2Proof.Machine
end

