-- ==== Sys2Proof/Laws/KeptJeriec.lean ====
section
/-! SUPPORT. That every operation of Machine/Jeriec.lean keeps `Kept`. -/

namespace Sys2Proof.Machine

variable {o s : State}

@[simp] theorem State.runJ_kept (h : Kept o s) (a) (b) (c) (d) : Kept o (State.runJ s a b c d) := by
  unfold State.runJ
  dsimp only
  repeat' split
  all_goals simp (maxDischargeDepth := 40) +contextual [h]

@[simp] theorem State.alu_kept (h : Kept o s) (a) (b) (c) (d) (e) (f) : KeptBy o (State.alu s a b c d e f) := by simp [State.alu, h]

@[simp] theorem execAdd_kept (h : Kept o s) (a) (b) (c) : KeptBy o (execAdd a b c s) := by simp [execAdd, h]

@[simp] theorem execSub_kept (h : Kept o s) (a) (b) (c) : KeptBy o (execSub a b c s) := by simp [execSub, h]

@[simp] theorem execMul_kept (h : Kept o s) (a) (b) (c) : KeptBy o (execMul a b c s) := by simp [execMul, h]

@[simp] theorem execDiv_kept (h : Kept o s) (a) (b) (c) : KeptBy o (execDiv a b c s) := by simp [execDiv, h]

@[simp] theorem execRem_kept (h : Kept o s) (a) (b) (c) : KeptBy o (execRem a b c s) := by simp [execRem, h]

@[simp] theorem execAnd_kept (h : Kept o s) (a) (b) (c) : KeptBy o (execAnd a b c s) := by simp [execAnd, h]

@[simp] theorem execOr_kept (h : Kept o s) (a) (b) (c) : KeptBy o (execOr a b c s) := by simp [execOr, h]

@[simp] theorem execXor_kept (h : Kept o s) (a) (b) (c) : KeptBy o (execXor a b c s) := by simp [execXor, h]

@[simp] theorem execShl_kept (h : Kept o s) (a) (b) (c) : KeptBy o (execShl a b c s) := by simp [execShl, h]

@[simp] theorem execShr_kept (h : Kept o s) (a) (b) (c) : KeptBy o (execShr a b c s) := by simp [execShr, h]

@[simp] theorem execSar_kept (h : Kept o s) (a) (b) (c) : KeptBy o (execSar a b c s) := by simp [execSar, h]

@[simp] theorem execMin_kept (h : Kept o s) (a) (b) (c) : KeptBy o (execMin a b c s) := by simp [execMin, h]

@[simp] theorem execMax_kept (h : Kept o s) (a) (b) (c) : KeptBy o (execMax a b c s) := by simp [execMax, h]

@[simp] theorem execExtb_kept (h : Kept o s) (a) (b) (c) : KeptBy o (execExtb a b c s) := by simp [execExtb, h]

@[simp] theorem execMkpair_kept (h : Kept o s) (a) (b) (c) : KeptBy o (execMkpair a b c s) := by simp [execMkpair, h]

@[simp] theorem execNot_kept (h : Kept o s) (a) (b) (c) : KeptBy o (execNot a b c s) := by simp [execNot, h]

@[simp] theorem execAddi_kept (h : Kept o s) (a) (b) (c) : KeptBy o (execAddi a b c s) := by simp [execAddi, h]

@[simp] theorem execShli_kept (h : Kept o s) (a) (b) (c) : KeptBy o (execShli a b c s) := by simp [execShli, h]

@[simp] theorem execShri_kept (h : Kept o s) (a) (b) (c) : KeptBy o (execShri a b c s) := by simp [execShri, h]

@[simp] theorem execSari_kept (h : Kept o s) (a) (b) (c) : KeptBy o (execSari a b c s) := by simp [execSari, h]

@[simp] theorem execLdl_kept (h : Kept o s) (a) (b) (c) (d) : KeptBy o (execLdl a b c d s) := by unfold execLdl; split <;> simp [h]

@[simp] theorem execStl_kept (h : Kept o s) (a) (b) (c) : KeptBy o (execStl a b c s) := by simp [execStl, h]

@[simp] theorem execLdx_kept (h : Kept o s) (a) (b) (c) (d) (e) : KeptBy o (execLdx a b c d e s) := by simp [execLdx, h]

@[simp] theorem execStx_kept (h : Kept o s) (a) (b) (c) (d) : KeptBy o (execStx a b c d s) := by simp [execStx, h]

/-- A load keeps it when its own step does. -/
@[simp] theorem State.loadVia_kept {s1 : State} (h : Kept o s1) (k : Nat) (op : JOp) (a : BitVec 2) (u : Nat) (ue : Bool) :
    Kept o (s.loadVia s1 k op a u ue) := by
  unfold State.loadVia
  repeat' split
  all_goals simp [h]

@[simp] theorem execLd_kept (h : Kept o s) (a) (b) (c) (d) (e) (f) : KeptBy o (execLd a b c d e f s) := by simp [execLd, h]

@[simp] theorem execSt_kept (h : Kept o s) (a) (b) (c) (d) (e) : KeptBy o (execSt a b c d e s) := by simp [execSt, h]

@[simp] theorem execLdp_kept (h : Kept o s) (a) (b) (c) (d) (e) : KeptBy o (execLdp a b c d e s) := by simp [execLdp, h]

@[simp] theorem execStp_kept (h : Kept o s) (a) (b) (c) (d) : KeptBy o (execStp a b c d s) := by simp [execStp, h]

@[simp] theorem execLda_kept (h : Kept o s) (a) (b) (c) (d) (e) (f) : KeptBy o (execLda a b c d e f s) := by simp [execLda, h]

@[simp] theorem execSta_kept (h : Kept o s) (a) (b) (c) (d) (e) : KeptBy o (execSta a b c d e s) := by simp [execSta, h]

@[simp] theorem execMovi_kept (h : Kept o s) (a) (b) (c) : KeptBy o (execMovi a b c s) := by simp [execMovi, h]

@[simp] theorem execMovw_kept (h : Kept o s) (a) (b) (c) : KeptBy o (execMovw a b c s) := by simp [execMovw, h]

@[simp] theorem execMovt_kept (h : Kept o s) (a) (b) (c) : KeptBy o (execMovt a b c s) := by simp [execMovt, h]

@[simp] theorem execMov_kept (h : Kept o s) (a) (b) (c) : KeptBy o (execMov a b c s) := by simp [execMov, h]

@[simp] theorem execRetag_kept (h : Kept o s) (a) (b) (c) : KeptBy o (execRetag a b c s) := by unfold execRetag; split <;> simp [h]

@[simp] theorem execRdspr_kept (h : Kept o s) (a) (b) (c) : KeptBy o (execRdspr a b c s) := by simp [execRdspr, h]

@[simp] theorem execGettag_kept (h : Kept o s) (a) (b) (c) : KeptBy o (execGettag a b c s) := by simp [execGettag, h]

@[simp] theorem execAoff_kept (h : Kept o s) (a) (b) (c) : KeptBy o (execAoff a b c s) := by simp [execAoff, h]

@[simp] theorem execArem_kept (h : Kept o s) (a) (b) (c) : KeptBy o (execArem a b c s) := by simp [execArem, h]

@[simp] theorem execMac_kept (h : Kept o s) (a) (b) (c) (d) : KeptBy o (execMac a b c d s) := by simp [execMac, h]

@[simp] theorem execAcadd_kept (h : Kept o s) (a) (b) (c) : KeptBy o (execAcadd a b c s) := by simp [execAcadd, h]

@[simp] theorem execAcshr_kept (h : Kept o s) (a) (b) (c) : KeptBy o (execAcshr a b c s) := by simp [execAcshr, h]

@[simp] theorem execAcclr_kept (h : Kept o s) (a) (b) : KeptBy o (execAcclr a b s) := by simp [execAcclr, h]

@[simp] theorem State.zeroBranch_kept (h : Kept o s) (a) (b) (c) (d) (e) : KeptBy o (State.zeroBranch s a b c d e) := by simp [State.zeroBranch, h]

@[simp] theorem execBeqz_kept (h : Kept o s) (a) (b) (c) : KeptBy o (execBeqz a b c s) := by simp [execBeqz, h]

@[simp] theorem execBnez_kept (h : Kept o s) (a) (b) (c) : KeptBy o (execBnez a b c s) := by simp [execBnez, h]

@[simp] theorem execBltz_kept (h : Kept o s) (a) (b) (c) : KeptBy o (execBltz a b c s) := by simp [execBltz, h]

@[simp] theorem execBgez_kept (h : Kept o s) (a) (b) (c) : KeptBy o (execBgez a b c s) := by simp [execBgez, h]

@[simp] theorem State.cmpBranch_kept (h : Kept o s) (a) (b) (c) (d) (e) (f) (g) : KeptBy o (State.cmpBranch s a b c d e f g) := by simp [State.cmpBranch, h]

@[simp] theorem execBeq_kept (h : Kept o s) (a) (b) (c) (d) : KeptBy o (execBeq a b c d s) := by simp [execBeq, h]

@[simp] theorem execBne_kept (h : Kept o s) (a) (b) (c) (d) : KeptBy o (execBne a b c d s) := by simp [execBne, h]

@[simp] theorem execBlt_kept (h : Kept o s) (a) (b) (c) (d) : KeptBy o (execBlt a b c d s) := by simp [execBlt, h]

@[simp] theorem execBge_kept (h : Kept o s) (a) (b) (c) (d) : KeptBy o (execBge a b c d s) := by simp [execBge, h]

@[simp] theorem execBltu_kept (h : Kept o s) (a) (b) (c) (d) : KeptBy o (execBltu a b c d s) := by simp [execBltu, h]

@[simp] theorem execBgeu_kept (h : Kept o s) (a) (b) (c) (d) : KeptBy o (execBgeu a b c d s) := by simp [execBgeu, h]

@[simp] theorem execBteq_kept (h : Kept o s) (a) (b) (c) (d) : KeptBy o (execBteq a b c d s) := by simp [execBteq, h]

@[simp] theorem execBtne_kept (h : Kept o s) (a) (b) (c) (d) : KeptBy o (execBtne a b c d s) := by simp [execBtne, h]

@[simp] theorem execJmp_kept (h : Kept o s) (a) (b) : KeptBy o (execJmp a b s) := by simp [execJmp, h]

@[simp] theorem execCall_kept (h : Kept o s) (a) (b) (c) : KeptBy o (execCall a b c s) := by simp [execCall, h]

@[simp] theorem execMkcode_kept (h : Kept o s) (a) (b) (c) : KeptBy o (execMkcode a b c s) := by simp [execMkcode, h]

@[simp] theorem execJmpr_kept (h : Kept o s) (a) (b) : KeptBy o (execJmpr a b s) := by simp [execJmpr, h]

@[simp] theorem execSetiv_kept (h : Kept o s) (a) (b) : KeptBy o (execSetiv a b s) := by simp [execSetiv, h]

@[simp] theorem execSetdpg_kept (h : Kept o s) (a) (b) : KeptBy o (execSetdpg a b s) := by simp [execSetdpg, h]

@[simp] theorem execSetxpg_kept (h : Kept o s) (a) (b) : KeptBy o (execSetxpg a b s) := by simp [execSetxpg, h]

@[simp] theorem execAadd_kept (h : Kept o s) (a) (b) (c) : KeptBy o (execAadd a b c s) := by simp [execAadd, h]

@[simp] theorem execNarrow_kept (h : Kept o s) (a) (b) (c) : KeptBy o (execNarrow a b c s) := by simp [execNarrow, h]

@[simp] theorem execRestrict_kept (h : Kept o s) (a) (b) (c) : KeptBy o (execRestrict a b c s) := by simp [execRestrict, h]

@[simp] theorem execFreew_kept (h : Kept o s) (a) (b) : KeptBy o (execFreew a b s) := by simp [execFreew, h]

@[simp] theorem execTrap_kept (h : Kept o s) (a) (b) : KeptBy o (execTrap a b s) := by simp [execTrap, h]

@[simp] theorem execNop_kept (h : Kept o s) (a) : KeptBy o (execNop a s) := by simp [execNop, h]

@[simp] theorem execEndInv_kept (h : Kept o s) (a) : KeptBy o (execEndInv a s) := by unfold execEndInv; split <;> simp [h]

@[simp] theorem execRep_kept (h : Kept o s) (a) (b) : KeptBy o (execRep a b s) := by simp [execRep, h]

@[simp] theorem execRepDr_kept (h : Kept o s) (a) (b) : KeptBy o (execRepDr a b s) := by simp [execRepDr, h]

@[simp] theorem execSend_kept (h : Kept o s) (a) (b) (c) (d) : KeptBy o (execSend a b c d s) := by simp [execSend, h]

@[simp] theorem execRecv_kept (h : Kept o s) (a) (b) (c) (d) : KeptBy o (execRecv a b c d s) := by simp [execRecv, h]

@[simp] theorem execBrdy_kept (h : Kept o s) (a) (b) (c) (d) : KeptBy o (execBrdy a b c d s) := by unfold execBrdy; split <;> simp [h]

@[simp] theorem execEi_kept (h : Kept o s) (a) : KeptBy o (execEi a s) := by simp [execEi, h]

@[simp] theorem execDi_kept (h : Kept o s) (a) : KeptBy o (execDi a s) := by simp [execDi, h]

@[simp] theorem execReti_kept (h : Kept o s) (a) : KeptBy o (execReti a s) := by simp [execReti, h]

@[simp] theorem execInterruptEntry_kept (h : Kept o s) (a) : KeptBy o (execInterruptEntry a s) := by simp [execInterruptEntry, h]

@[simp] theorem execTimerExpiry_kept (h : Kept o s) (a) : KeptBy o (execTimerExpiry a s) := by simp [execTimerExpiry, h]

@[simp] theorem execBudget_kept (h : Kept o s) (a) : KeptBy o (execBudget a s) := by simp [execBudget, h]

@[simp] theorem execProgParity_kept (h : Kept o s) (a) : KeptBy o (execProgParity a s) := by simp (maxDischargeDepth := 40) +contextual [execProgParity, h]

end Sys2Proof.Machine
end

