-- ==== Sys2Proof/Laws/KeptPrograms.lean ====
section
/-! SUPPORT. That every operation of Machine/Programs.lean keeps `Kept`. -/

namespace Sys2Proof.Machine

variable {o s : State}

@[simp] theorem State.issueHandle_kept (h : Kept o s) (a) : Kept o (State.issueHandle s a).2 := by simp [State.issueHandle, h]

@[simp] theorem State.install_kept (h : Kept o s) (a) (b) : Kept o (State.install s a b).1 := by simp (maxDischargeDepth := 40) +contextual [State.install, h]

@[simp] theorem State.rejectProgram_kept (h : Kept o s) (a) (b) (c) : Kept o (State.rejectProgram s a b c).1 := by simp [State.rejectProgram, h]

@[simp] theorem State.loadProgram_kept (h : Kept o s) (a) (b) (c) (d) (e) : Kept o (State.loadProgram s a b c d e).1 := by
  unfold State.loadProgram
  repeat' split
  all_goals simp [h]

@[simp] theorem State.mbProgramLoad_kept (h : Kept o s) (a) (b) : Kept o (State.mbProgramLoad s a b) := by
  unfold State.mbProgramLoad
  refine State.mbRun_kept h _ _ _ (fun s p h => ?_)
  dsimp only
  repeat' split
  all_goals simp (maxDischargeDepth := 40) [h]

@[simp] theorem execMbProgramLoadJeriec_kept (h : Kept o s) (a) : KeptBy o (execMbProgramLoadJeriec a s) := by simp [execMbProgramLoadJeriec, h]

@[simp] theorem execMbProgramLoadLx720_kept (h : Kept o s) (a) : KeptBy o (execMbProgramLoadLx720 a s) := by simp [execMbProgramLoadLx720, h]

@[simp] theorem execMbProgramStatus_kept (h : Kept o s) (a) : KeptBy o (execMbProgramStatus a s) := by simp [execMbProgramStatus, h]

@[simp] theorem execMbProgramUnload_kept (h : Kept o s) (a) : KeptBy o (execMbProgramUnload a s) := by
  unfold execMbProgramUnload
  rw [KeptBy_next]
  refine State.mbRun_kept h _ _ _ (fun s p h => ?_)
  dsimp only
  repeat' split
  all_goals simp (maxDischargeDepth := 40) +contextual [h]

@[simp] theorem execProgramFree_kept (h : Kept o s) (a) (b) : KeptBy o (execProgramFree a b s) := by
  unfold execProgramFree
  repeat' split
  all_goals simp (maxDischargeDepth := 40) +contextual [h]

@[simp] theorem execProgramInvoke_kept (h : Kept o s) (a) (b) : KeptBy o (execProgramInvoke a b s) := by
  unfold execProgramInvoke
  dsimp only
  repeat' split
  all_goals simp (maxDischargeDepth := 40) +contextual [h]

@[simp] theorem execFilteredRead_kept (h : Kept o s) (a) : KeptBy o (execFilteredRead a s) := by
  unfold execFilteredRead
  dsimp only
  repeat' split
  all_goals simp (maxDischargeDepth := 40) +contextual [h]

@[simp] theorem State.setupFor_kept (h : Kept o s) (a) (b) (c) : Kept o (State.setupFor s a b c).2 := by unfold State.setupFor; split <;> simp [h]

@[simp] theorem State.popStart_kept (h : Kept o s) (a) (b) : Kept o (State.popStart s a b) := by simp [State.popStart, h]

@[simp] theorem execInvocationStart_kept (h : Kept o s) (a) (b) : KeptBy o (execInvocationStart a b s) := by
  unfold execInvocationStart
  dsimp only
  repeat' split
  all_goals simp (maxDischargeDepth := 40) +contextual [h]

@[simp] theorem execInvocationFaultEnd_kept (h : Kept o s) (a) : KeptBy o (execInvocationFaultEnd a s) := by simp [execInvocationFaultEnd, h]

end Sys2Proof.Machine
end

