-- ==== Sys2Proof/Laws/KeptPorts.lean ====
section
/-! SUPPORT. That every operation of Machine/Ports.lean keeps `Kept`. -/

namespace Sys2Proof.Machine

variable {o s : State}

@[simp] theorem State.portPop_kept (h : Kept o s) (a) (b) : Kept o (State.portPop s a b) := by simp [State.portPop, h]

@[simp] theorem State.portRefuse_kept (h : Kept o s) (a) (b) (c) (d) : Kept o (State.portRefuse s a b c d) := by simp [State.portRefuse, h]

@[simp] theorem State.portRefuseFree_kept (h : Kept o s) (a) (b) (c) : Kept o (State.portRefuseFree s a b c) := by simp [State.portRefuseFree, h]

@[simp] theorem State.appendDesc_kept (h : Kept o s) (a) (b) : Kept o (State.appendDesc s a b) := by simp (maxDischargeDepth := 40) +contextual [State.appendDesc, h]

@[simp] theorem execPort0DmaRequest_kept (h : Kept o s) (a) : KeptBy o (execPort0DmaRequest a s) := by
  unfold execPort0DmaRequest
  repeat' split
  all_goals simp [h]

@[simp] theorem State.trimStages_kept (h : Kept o s) (a) : Kept o (State.trimStages s a) := by simp [State.trimStages, h]

@[simp] theorem State.startJob_kept (h : Kept o s) (a) (b) (c) (d) (e) (f) (g) : Kept o (State.startJob s a b c d e f g) := by simp (maxDischargeDepth := 40) +contextual [State.startJob, h]

@[simp] theorem execPort1CipherRequest_kept (h : Kept o s) (a) : KeptBy o (execPort1CipherRequest a s) := by
  unfold execPort1CipherRequest
  dsimp only
  repeat' split
  all_goals simp (maxDischargeDepth := 40) +contextual [h]

@[simp] theorem State.setPort2_kept (h : Kept o s) (a) (b) : Kept o (State.setPort2 s a b) := by simp [State.setPort2, h]

@[simp] theorem execPort2DigestRequest_kept (h : Kept o s) (a) : KeptBy o (execPort2DigestRequest a s) := by
  unfold execPort2DigestRequest
  dsimp only
  repeat' split
  all_goals simp (maxDischargeDepth := 40) +contextual [h]

@[simp] theorem State.c3Spl_kept (h : Kept o s) (a) (b) (c) (d) : Kept o (State.c3Spl s a b c d) := by unfold State.c3Spl; split <;> simp [h]

@[simp] theorem State.c3Report_kept (h : Kept o s) (a) (b) (c) (d) : Kept o (State.c3Report s a b c d) := by unfold State.c3Report; split <;> simp [h]

@[simp] theorem State.c3Step_kept (h : Kept o s) (a) (b) (c) (d) (e) (f) (g) : Kept o (State.c3Step s a b c d e f g).1 := by
  unfold State.c3Step
  dsimp only
  repeat' split
  all_goals simp (maxDischargeDepth := 40) +contextual [h]

theorem State.c3Send_kept (h : Kept o s) {k : Nat} {m : List TWord} {d : Place} {out : Bytes} {keep : Bool} {r : List TWord} {t : State}
    (hr : s.c3Send k m d out keep r = some t) : Kept o t := by
  unfold State.c3Send at hr
  dsimp only at hr
  split at hr
  · contradiction
  · injection hr with hr; subst hr
    split <;> simp (maxDischargeDepth := 40) [h]
  · injection hr with hr; subst hr
    simp (maxDischargeDepth := 40) [h]

/-- What goes to its place keeps it, and so does what stays where it was. -/
theorem State.c3SendOr_kept (h : Kept o s) {s1 : State} (h1 : Kept o s1) (k : Nat) (m : List TWord) (d : Place) (out : Bytes) (keep : Bool)
    (r : List TWord) : Kept o ((s1.c3Send k m d out keep r).getD s) := by
  cases hr : s1.c3Send k m d out keep r with
  | none => exact h
  | some t => exact State.c3Send_kept h1 hr

@[simp] theorem execPort3CompressionRequest_kept (h : Kept o s) (a) (b) (c) : KeptBy o (execPort3CompressionRequest a b s c) := by
  unfold execPort3CompressionRequest
  rw [KeptBy_next]
  split; · exact h
  split; · simp [h]
  split; · simp [h]
  split; · exact h
  refine State.c3SendOr_kept h (State.portPop_kept (State.trimStages_kept (State.c3Step_kept ?_ _ _ _ _ _ _ _) _) _ _) _ _ _ _ _ _
  split <;> simp [h]

theorem State.port4Reply_kept (h : Kept o s) (a b c) {d : Option State} (hd : ∀ t, d = some t → Kept o t) (e) :
    Kept o (State.port4Reply s a b c d e) := by
  unfold State.port4Reply
  split
  · exact State.portRefuseFree_kept (hd _ rfl) _ _ _
  · simp [h]

@[simp] theorem State.port4Find_kept (h : Kept o s) (a) (b) (c) (d) (e) : Kept o (State.port4Find s a b c d e) := by
  unfold State.port4Find
  split; · simp [h]
  split; · simp [h]
  split; · simp [h]
  exact State.port4Reply_kept h _ _ _ (fun _ hr => State.asuFault_kept h hr) _

@[simp] theorem execPort4Search_kept (h : Kept o s) (a) (b) : KeptBy o (execPort4Search a b s) := by
  unfold execPort4Search
  dsimp only
  repeat' split
  all_goals simp (maxDischargeDepth := 40) +contextual [h]

@[simp] theorem execPort4Update_kept (h : Kept o s) (a) (b) : KeptBy o (execPort4Update a s b) := by
  unfold execPort4Update
  rw [KeptBy_next]
  dsimp only
  repeat' split
  all_goals first
    | with_reducible exact h
    | exact State.portRefuseFree_kept (State.rowFault_kept (State.portPop_kept h _ _) ‹_›) _ _ _
    | simp (maxDischargeDepth := 40) [h]

end Sys2Proof.Machine
end

