-- ==== Sys2Proof/Laws/KeptDram.lean ====
section
/-! SUPPORT. That every operation of Machine/Dram.lean keeps `Kept`. -/

namespace Sys2Proof.Machine

variable {o s : State}

@[simp] theorem State.setRank_kept (h : Kept o s) (a) (b) (c) : Kept o (State.setRank s a b c) := by simp [State.setRank, h]

@[simp] theorem State.mapRank_kept (h : Kept o s) (a) (b) (c) : Kept o (State.mapRank s a b c) := by simp [State.mapRank, h]

@[simp] theorem State.shrinkCache_kept (h : Kept o s) : Kept o (State.shrinkCache s) := by simp (maxDischargeDepth := 40) +contextual [State.shrinkCache, h]

@[simp] theorem State.loseRank_kept (h : Kept o s) (a) (b) : Kept o (State.loseRank s a b) := by
  unfold State.loseRank
  dsimp only
  repeat' split
  all_goals simp (maxDischargeDepth := 40) +contextual [h]

@[simp] theorem State.retireRank_kept (h : Kept o s) (a) (b) (c) : Kept o (State.retireRank s a b c) := by
  unfold State.retireRank
  repeat' split
  all_goals simp (maxDischargeDepth := 40) +contextual [h]

@[simp] theorem State.correctedError_kept (h : Kept o s) (a) (b) : Kept o (State.correctedError s a b) := by simp (maxDischargeDepth := 40) +contextual [State.correctedError, h]

@[simp] theorem State.uncorrectable_kept (h : Kept o s) (a) (b) (c) (d) (e) : Kept o (State.uncorrectable s a b c d e) := by simp (maxDischargeDepth := 40) +contextual [State.uncorrectable, h]

@[simp] theorem State.activate_kept (h : Kept o s) (a) (b) (c) (d) : Kept o (State.activate s a b c d) := by simp [State.activate, h]

@[simp] theorem State.wakeChannel_kept (h : Kept o s) (a) : Kept o (State.wakeChannel s a) := by simp [State.wakeChannel, h]

@[simp] theorem State.dramReply_kept (h : Kept o s) (a) (b) : Kept o (State.dramReply s a b) := by simp [State.dramReply, h]

@[simp] theorem State.serve_kept (h : Kept o s) (a) (b) (c) (d) : Kept o (State.serve s a b c d) := by
  unfold State.serve
  dsimp only
  repeat' split
  all_goals simp (maxDischargeDepth := 40) +contextual [h]

@[simp] theorem execDramRequest_kept (h : Kept o s) (a) : KeptBy o (execDramRequest a s) := by
  unfold execDramRequest
  dsimp only
  repeat' split
  all_goals simp (maxDischargeDepth := 40) +contextual [h]

@[simp] theorem execRowDisturbWindow_kept (h : Kept o s) : KeptBy o (execRowDisturbWindow s) := by simp [execRowDisturbWindow, h]

@[simp] theorem execRefresh_kept (h : Kept o s) (a) (b) (c) (d) : KeptBy o (execRefresh a b c d s) := by unfold execRefresh; split <;> simp [h]

@[simp] theorem execZqCalibration_kept (h : Kept o s) : KeptBy o (execZqCalibration s) := by unfold execZqCalibration; split <;> simp [h]

@[simp] theorem execMr4Read_kept (h : Kept o s) (a) : KeptBy o (execMr4Read a s) := by unfold execMr4Read; split <;> simp [h]

@[simp] theorem execScrubRead_kept (h : Kept o s) (a) (b) (c) (d) : KeptBy o (execScrubRead a b c d s) := by
  unfold execScrubRead
  repeat' split
  all_goals simp (maxDischargeDepth := 40) +contextual [h]

@[simp] theorem execRankMigrated_kept (h : Kept o s) (a) (b) (c) : KeptBy o (execRankMigrated a b c s) := by
  unfold execRankMigrated
  repeat' split
  all_goals simp (maxDischargeDepth := 40) +contextual [h]

@[simp] theorem execSpareInit_kept (h : Kept o s) (a) (b) (c) : KeptBy o (execSpareInit a b c s) := by
  unfold execSpareInit
  repeat' split
  all_goals simp [h]

@[simp] theorem execSelfRefreshEntry_kept (h : Kept o s) (a) (b) (c) : KeptBy o (execSelfRefreshEntry a b c s) := by simp [execSelfRefreshEntry, h]

@[simp] theorem State.bootRanks_kept (h : Kept o s) : Kept o (State.bootRanks s) := by
  unfold State.bootRanks
  dsimp only
  split
  · refine Kept.foldl h (fun s x h => ?_) _
    split <;> simp [h]
  · refine Kept.foldl h (fun s x h => ?_) _
    split
    · refine State.setRank_kept (State.setRank_kept ?_ _ _ _) _ _ _
      split <;> simp [h]
    · exact h

@[simp] theorem State.storeMargins_kept (h : Kept o s) (a) : Kept o (State.storeMargins s a) := by simp [State.storeMargins, h]

@[simp] theorem State.judgeRank_kept (h : Kept o s) (a) (b) : Kept o (State.judgeRank s a b) := by
  unfold State.judgeRank
  repeat' split
  all_goals simp (maxDischargeDepth := 40) +contextual [h]

@[simp] theorem execDramBringup_kept (h : Kept o s) (a) : KeptBy o (execDramBringup a s) := by simp (maxDischargeDepth := 40) +contextual [execDramBringup, h]

@[simp] theorem execMbDramProfile_kept (h : Kept o s) (a) : KeptBy o (execMbDramProfile a s) := by simp (maxDischargeDepth := 40) +contextual [execMbDramProfile, h]

end Sys2Proof.Machine
end

