-- ==== Sys2Proof/Laws/KeptSweep.lean ====
section
/-! SUPPORT. That every operation of Machine/Sweep.lean keeps `Kept`. -/

namespace Sys2Proof.Machine

variable {o s : State}

@[simp] theorem State.authFail_kept (h : Kept o s) : Kept o (State.authFail s) := by simp [State.authFail, h]

@[simp] theorem State.frameIn_kept (h : Kept o s) (a) : Kept o (State.frameIn s a).1 := by unfold State.frameIn; split <;> simp [h]

@[simp] theorem State.freeHeld_kept (h : Kept o s) (a) : Kept o (State.freeHeld s a) := by unfold State.freeHeld; split <;> simp [h]

@[simp] theorem State.dropHeld_kept (h : Kept o s) (a) : Kept o (State.dropHeld s a) := by
  have k : Kept o ((s.swl.heldUnits.filter a).foldl State.freeHeld s) := Kept.foldl h (fun s x h => State.freeHeld_kept h x) _
  simp [State.dropHeld, k]

@[simp] theorem State.commitHeldUnit_kept (h : Kept o s) (a) : Kept o (State.commitHeldUnit s a) := by
  unfold State.commitHeldUnit
  repeat' split
  all_goals simp (maxDischargeDepth := 40) +contextual [h]

@[simp] theorem State.commitHeld_kept (h : Kept o s) (a) : Kept o (State.commitHeld s a) := by
  induction a generalizing s with
  | zero => exact h
  | succ n ih =>
    unfold State.commitHeld
    split
    · exact h
    · exact ih (Kept.foldl h (fun s x h => State.commitHeldUnit_kept h x) _)

@[simp] theorem State.dropCopies_kept (h : Kept o s) : Kept o (State.dropCopies s) := by simp [State.dropCopies, h]

@[simp] theorem State.linkLost_kept (h : Kept o s) : Kept o (State.linkLost s) := by simp [State.linkLost, h]

@[simp] theorem State.endForwarded_kept (h : Kept o s) (a) : Kept o (State.endForwarded s a) := by simp (maxDischargeDepth := 40) +contextual [State.endForwarded, h]

@[simp] theorem State.isolate_kept (h : Kept o s) (a) : Kept o (State.isolate s a) := by simp (maxDischargeDepth := 40) +contextual [State.isolate, h]

@[simp] theorem State.takeover_kept (h : Kept o s) (a) : Kept o (State.takeover s a) := by simp (maxDischargeDepth := 40) +contextual [State.takeover, h]

@[simp] theorem execLinkLost_kept (h : Kept o s) (a) : KeptBy o (execLinkLost a s) := by unfold execLinkLost; split <;> simp [h]

@[simp] theorem execPairUpIn_kept (h : Kept o s) (a) : KeptBy o (execPairUpIn a s) := by simp (maxDischargeDepth := 40) +contextual [execPairUpIn, h]

@[simp] theorem execLeave_kept (h : Kept o s) (a) : KeptBy o (execLeave a s) := by simp [execLeave, h]

@[simp] theorem State.noteAsn_kept (h : Kept o s) (a) (b) : Kept o (State.noteAsn s a b) := by unfold State.noteAsn; split <;> simp [h]

@[simp] theorem State.returnData_kept (h : Kept o s) (a) (b) (c) : Kept o (State.returnData s a b c) := by unfold State.returnData; split <;> simp [h]

@[simp] theorem execUnit_kept (h : Kept o s) (a) (b) : KeptBy o (execUnit a b s) := by
  unfold execUnit
  dsimp only
  repeat' split
  all_goals simp (maxDischargeDepth := 40) +contextual [h]

@[simp] theorem State.settleResync_kept (h : Kept o s) : Kept o (State.settleResync s) := by simp (maxDischargeDepth := 40) +contextual [State.settleResync, h]

@[simp] theorem execHeld_kept (h : Kept o s) (a) : KeptBy o (execHeld a s) := by
  unfold execHeld
  dsimp only
  repeat' split
  all_goals simp (maxDischargeDepth := 40) +contextual [h]

@[simp] theorem State.beginCopy_kept (h : Kept o s) (a) (b) (c) : Kept o (State.beginCopy s a b c) := by simp [State.beginCopy, h]

@[simp] theorem State.sendCopy_kept (h : Kept o s) (a) (b) (c) (d) (e) : Kept o (State.sendCopy s a b c d e) := by simp (maxDischargeDepth := 40) +contextual [State.sendCopy, h]

@[simp] theorem State.readCopy_kept (h : Kept o s) (a) (b) (c) (d) : Kept o (State.readCopy s a b c d) := by
  unfold State.readCopy
  dsimp only
  repeat' split
  all_goals simp (maxDischargeDepth := 40) +contextual [h]

@[simp] theorem execResyncCopy_kept (h : Kept o s) (a) (b) : KeptBy o (execResyncCopy a b s) := by
  unfold execResyncCopy
  repeat' split
  all_goals simp (maxDischargeDepth := 40) +contextual [h]

@[simp] theorem execCommand_kept (h : Kept o s) (a) (b) (c) : KeptBy o (execCommand a b c s) := by
  unfold execCommand
  dsimp only
  repeat' split
  all_goals simp (maxDischargeDepth := 40) +contextual [h]

@[simp] theorem execCompletion_kept (h : Kept o s) (a) (b) (c) (d) (e) : KeptBy o (execCompletion a b c d e s) := by
  unfold execCompletion
  dsimp only
  repeat' split
  all_goals simp (maxDischargeDepth := 40) +contextual [h]

@[simp] theorem execHeartbeatSend_kept (h : Kept o s) : KeptBy o (execHeartbeatSend s) := by unfold execHeartbeatSend; split <;> simp [h]

@[simp] theorem execHeartbeat_kept (h : Kept o s) (a) (b) : KeptBy o (execHeartbeat a b s) := by simp (maxDischargeDepth := 40) +contextual [execHeartbeat, h]

@[simp] theorem State.setSessionKey_kept (h : Kept o s) (a) : Kept o (State.setSessionKey s a) := by unfold State.setSessionKey; split <;> simp [h]

@[simp] theorem State.ownNonce_kept (h : Kept o s) : Kept o (State.ownNonce s) := by unfold State.ownNonce; split <;> simp [h]

@[simp] theorem State.createMirrored_kept (h : Kept o s) (a) : Kept o (State.createMirrored s a) := by
  unfold State.createMirrored
  repeat' split
  all_goals simp [h]

@[simp] theorem State.joinPartner_kept (h : Kept o s) (a) : Kept o (State.joinPartner s a) := by
  unfold State.joinPartner
  dsimp only
  repeat' split
  all_goals simp (maxDischargeDepth := 40) +contextual [h]

@[simp] theorem State.answerHello_kept (h : Kept o s) : Kept o (State.answerHello s) := by
  unfold State.answerHello
  split <;> simp [h]

@[simp] theorem execHello_kept (h : Kept o s) (a) (b) : KeptBy o (execHello a b s) := by
  unfold execHello
  dsimp only
  repeat' split
  all_goals simp (maxDischargeDepth := 40) +contextual [h]

@[simp] theorem execHelloSend_kept (h : Kept o s) : KeptBy o (execHelloSend s) := by
  unfold execHelloSend
  dsimp only
  repeat' split
  all_goals simp (maxDischargeDepth := 40) +contextual [h]

@[simp] theorem State.newKey_kept (h : Kept o s) : Kept o (State.newKey s) := by simp [State.newKey, h]

@[simp] theorem State.sendRekey_kept (h : Kept o s) : Kept o (State.sendRekey s) := by simp (maxDischargeDepth := 40) +contextual [State.sendRekey, h]

@[simp] theorem execRekeyStart_kept (h : Kept o s) : KeptBy o (execRekeyStart s) := by unfold execRekeyStart; split <;> simp [h]

@[simp] theorem execRekey_kept (h : Kept o s) (a) (b) : KeptBy o (execRekey a b s) := by simp (maxDischargeDepth := 40) +contextual [execRekey, h]

@[simp] theorem execGoBackNResend_kept (h : Kept o s) : KeptBy o (execGoBackNResend s) := by simp [execGoBackNResend, h]

@[simp] theorem execMbPairStatus_kept (h : Kept o s) (a) : KeptBy o (execMbPairStatus a s) := by simp [execMbPairStatus, h]

@[simp] theorem execMbPairJoin_kept (h : Kept o s) (a) : KeptBy o (execMbPairJoin a s) := by simp (maxDischargeDepth := 40) +contextual [execMbPairJoin, h]

@[simp] theorem State.releaseNs_kept (h : Kept o s) (a) : Kept o (State.releaseNs s a) := by
  unfold State.releaseNs
  dsimp only
  repeat' split
  all_goals simp (maxDischargeDepth := 40) +contextual [h]

@[simp] theorem State.unpair_kept (h : Kept o s) : Kept o (State.unpair s) := by simp [State.unpair, h]

@[simp] theorem execMbPairLeave_kept (h : Kept o s) (a) : KeptBy o (execMbPairLeave a s) := by simp (maxDischargeDepth := 40) +contextual [execMbPairLeave, h]

end Sys2Proof.Machine
end

