-- ==== Sys2Proof/Laws/KeptPower.lean ====
section
/-! SUPPORT. That every operation of Machine/Power.lean keeps `Kept`. -/

namespace Sys2Proof.Machine

variable {o s : State}

theorem Rec.fence_queue (r : Rec) : OkQueue o r.fence.queue := by
  have aux : ∀ (l : List Event) (r : Rec), r.queue = [] → (l.foldl Rec.keepBack r).queue = [] := by
    intro l
    induction l with
    | nil => intro r h; exact h
    | cons x l ih => intro r h; exact ih _ (by rw [Rec.keepBack_queue, h])
  unfold Rec.fence
  rw [aux _ _ rfl]
  exact OkQueue_nil

theorem Rec.fence_retention (r : Rec) (h : OkKept o r.retention) : OkKept o r.fence.retention := by
  have aux : ∀ (l : List Event) (r : Rec), OkKept o r.retention → OkKept o (l.foldl Rec.keepBack r).retention := by
    intro l
    induction l with
    | nil => intro r h; exact h
    | cons x l ih => intro r h; exact ih _ (Rec.keepBack_retention x h)
  exact aux _ _ h

@[simp] theorem State.raiseFence_kept (h : Kept o s) (a) : Kept o (State.raiseFence s a) := by
  have k : Kept o { s with psm := { s.psm with fence := true }, recd := s.recd.fence } := by
    simp [h, Rec.fence_queue, Rec.fence_retention]
  unfold State.raiseFence
  split
  · exact h
  · dsimp only
    split
    · exact State.raise_kept k _ _ _
    · exact k

@[simp] theorem execNvWriteFence_kept (h : Kept o s) (a) (b) : KeptBy o (execNvWriteFence a b s) := by unfold execNvWriteFence; split <;> simp [h]

@[simp] theorem execFlashWpAssert_kept (h : Kept o s) (a) : KeptBy o (execFlashWpAssert a s) := by unfold execFlashWpAssert; split <;> simp [h]

@[simp] theorem execRailLimitTrip_kept (h : Kept o s) (a) (b) (c) (d) : KeptBy o (execRailLimitTrip a b c d s) := by simp (maxDischargeDepth := 40) +contextual [execRailLimitTrip, h]

@[simp] theorem State.abandonAll_kept (h : Kept o s) : Kept o (State.abandonAll s) := by simp (maxDischargeDepth := 40) +contextual [State.abandonAll, h]

@[simp] theorem State.mainOff_kept (h : Kept o s) : Kept o (State.mainOff s) := by simp (maxDischargeDepth := 40) +contextual [State.mainOff, h]

@[simp] theorem State.aonReset_kept (h : Kept o s) : Kept o (State.aonReset s) := by simp [State.aonReset, h]

@[simp] theorem State.enterHold_kept (h : Kept o s) (a) : Kept o (State.enterHold s a) := by simp [State.enterHold, h]

@[simp] theorem State.leaveReset_kept (h : Kept o s) (a) : Kept o (State.leaveReset s a) := by unfold State.leaveReset; split <;> simp [h]

@[simp] theorem State.writeAll_kept (h : Kept o s) : Kept o (State.writeAll s) := by simp (maxDischargeDepth := 40) +contextual [State.writeAll, h]

@[simp] theorem State.switchOff_kept (h : Kept o s) (a) : Kept o (State.switchOff s a) := by simp (maxDischargeDepth := 40) +contextual [State.switchOff, h]

@[simp] theorem State.drainStops_kept (h : Kept o s) (a) : Kept o (State.drainStops s a) := by simp (maxDischargeDepth := 40) +contextual [State.drainStops, h]

@[simp] theorem State.keepUnhashed_kept (h : Kept o s) : Kept o (State.keepUnhashed s) := by simp [State.keepUnhashed, h]

@[simp] theorem State.drainPrograms_kept (h : Kept o s) : Kept o (State.drainPrograms s) := by simp (maxDischargeDepth := 40) +contextual [State.drainPrograms, h]

@[simp] theorem State.supplyWarning_kept (h : Kept o s) (a) : Kept o (State.supplyWarning s a) := by
  unfold State.supplyWarning
  repeat' split
  all_goals simp (maxDischargeDepth := 40) +contextual [h]

@[simp] theorem execSupplyFailWarning_kept (h : Kept o s) (a) : KeptBy o (execSupplyFailWarning a s) := by unfold execSupplyFailWarning; split <;> simp [h]

@[simp] theorem execDrainComplete_kept (h : Kept o s) (a) (b) : KeptBy o (execDrainComplete a b s) := by simp (maxDischargeDepth := 40) +contextual [execDrainComplete, h]

@[simp] theorem execAonSwitchover_kept (h : Kept o s) : KeptBy o (execAonSwitchover s) := by unfold execAonSwitchover; split <;> simp [h]

@[simp] theorem execAonSwitchback_kept (h : Kept o s) : KeptBy o (execAonSwitchback s) := by unfold execAonSwitchback; split <;> simp [h]

@[simp] theorem execAonPowerUp_kept (h : Kept o s) (a) : KeptBy o (execAonPowerUp a s) := by simp [execAonPowerUp, h]

@[simp] theorem execAonLoss_kept (h : Kept o s) : KeptBy o (execAonLoss s) := by simp (maxDischargeDepth := 40) +contextual [execAonLoss, h]

@[simp] theorem execPorN_kept (h : Kept o s) : KeptBy o (execPorN s) := by
  unfold execPorN
  repeat' split
  all_goals simp [h]

@[simp] theorem execPorNRise_kept (h : Kept o s) (a) : KeptBy o (execPorNRise a s) := by simp [execPorNRise, h]

@[simp] theorem State.bootFunctions_kept (h : Kept o s) : Kept o (State.bootFunctions s) := by unfold State.bootFunctions; split <;> simp [h]

theorem Rec.restored_queue (r : Rec) : r.restored.queue = r.queue := by unfold Rec.restored; split <;> rfl

@[simp] theorem Rec.atBoot_queue (r : Rec) : r.atBoot.queue = r.queue := Rec.restored_queue r
@[simp] theorem Rec.atBoot_retention (r : Rec) : r.atBoot.retention = [] := rfl

@[simp] theorem State.bootStart_kept (h : Kept o s) (a) : Kept o (State.bootStart s a) := by
  unfold State.bootStart
  extract_lets old r cycles s1 s2 s3 s4 s5 d d2 fl s6
  have h1 : Kept o s1 := by simp [s1, r, h]
  have h3 : Kept o s3 := by simp [s3, s2, h1]
  have h4 : Kept o s4 := by unfold s4; split <;> simp [h3]
  have h5 : Kept o s5 := by unfold s5; split <;> simp [h4]
  have h6 : Kept o s6 := by simp [s6, d2, d, fl, h5]
  exact State.bootFunctions_kept (State.bootConfig_kept (State.bootFirmware_kept h6))

@[simp] theorem execMainValid_kept (h : Kept o s) (a) : KeptBy o (execMainValid a s) := by unfold execMainValid; split <;> simp [h]

@[simp] theorem State.bootFailed_kept (h : Kept o s) (a) : Kept o (State.bootFailed s a) := by
  unfold State.bootFailed
  dsimp only
  repeat' split
  all_goals simp (maxDischargeDepth := 40) +contextual [h]

@[simp] theorem execBootComplete_kept (h : Kept o s) (a) : KeptBy o (execBootComplete a s) := by simp (maxDischargeDepth := 40) +contextual [execBootComplete, h]

@[simp] theorem State.holdupFigures_kept (h : Kept o s) (a) (b) (c) (d) (e) : Kept o (State.holdupFigures s a b c d e).1 := by simp (maxDischargeDepth := 40) +contextual [State.holdupFigures, h]

@[simp] theorem State.holdupResult_kept (h : Kept o s) (a) (b) (c) (d) (e) : Kept o (State.holdupResult s a b c d e).1 := by simp (maxDischargeDepth := 40) +contextual [State.holdupResult, h]

@[simp] theorem execHoldupTestStart_kept (h : Kept o s) (a) (b) : KeptBy o (execHoldupTestStart a b s) := by unfold execHoldupTestStart; split <;> simp [h]

@[simp] theorem execHoldupPhaseB_kept (h : Kept o s) (a) : KeptBy o (execHoldupPhaseB a s) := by unfold execHoldupPhaseB; split <;> simp [h]

@[simp] theorem execHoldupTestEnd_kept (h : Kept o s) (a) (b) : KeptBy o (execHoldupTestEnd a b s) := by
  unfold execHoldupTestEnd
  repeat' split
  all_goals simp [h]

@[simp] theorem execRestEntry_kept (h : Kept o s) : KeptBy o (execRestEntry s) := by unfold execRestEntry; split <;> simp [h]

@[simp] theorem execRestExit_kept (h : Kept o s) : KeptBy o (execRestExit s) := by unfold execRestExit; split <;> simp [h]

end Sys2Proof.Machine
end

