-- ==== Sys2Proof/Laws/KeptSafety.lean ====
section
/-! SUPPORT. That every operation of Machine/Safety.lean keeps `Kept`. -/

namespace Sys2Proof.Machine

variable {o s : State}

@[simp] theorem execSafeHaltEntered_kept (h : Kept o s) (a) (b) (c) : KeptBy o (execSafeHaltEntered a b c s) := by unfold execSafeHaltEntered; split <;> simp [h]

@[simp] theorem State.safeProgram_kept (h : Kept o s) (a) (b) (c) : Kept o (State.safeProgram s a b c) := by
  unfold State.safeProgram
  repeat' split
  all_goals simp (maxDischargeDepth := 40) +contextual [h]

@[simp] theorem State.safeDrain_kept (h : Kept o s) (a) : Kept o (State.safeDrain s a) := by
  unfold State.safeDrain
  split
  · exact h
  · extract_lets s0 s1 s2
    have h1 : Kept o s1 := State.sendEntries_kept (State.programJournal_kept (State.keepUnhashed_kept h) _) _
    have h2 : Kept o s2 := by
      refine Kept.foldl h1 (fun s x h => ?_) _
      split <;> simp [h]
    exact State.programJournal_kept h2 _

@[simp] theorem execSafeDrainComplete_kept (h : Kept o s) (a) : KeptBy o (execSafeDrainComplete a s) := by simp (maxDischargeDepth := 40) +contextual [execSafeDrainComplete, h]

@[simp] theorem execCoxLockstep_kept (h : Kept o s) (a) (b) : KeptBy o (execCoxLockstep a b s) := by unfold execCoxLockstep; split <;> simp [h]

@[simp] theorem execClockFault_kept (h : Kept o s) (a) (b) : KeptBy o (execClockFault a b s) := by simp [execClockFault, h]

@[simp] theorem State.selfTest_kept (h : Kept o s) (a) (b) (c) : Kept o (State.selfTest s a b c) := by unfold State.selfTest; split <;> simp [h]

@[simp] theorem execEngineSelftest_kept (h : Kept o s) (a) (b) (c) : KeptBy o (execEngineSelftest a b c s) := by unfold execEngineSelftest; split <;> simp [h]

end Sys2Proof.Machine
end

