-- ==== Sys2Proof/Laws/KeptThermal.lean ====
section
/-! SUPPORT. That every operation of Machine/Thermal.lean keeps `Kept`. -/

namespace Sys2Proof.Machine

variable {o s : State}

@[simp] theorem State.warnTemp_kept (h : Kept o s) (a) : Kept o (State.warnTemp s a) := by simp [State.warnTemp, h]

@[simp] theorem State.thermalCritical_kept (h : Kept o s) : Kept o (State.thermalCritical s) := by unfold State.thermalCritical; split <;> simp [h]

@[simp] theorem State.throttle_kept (h : Kept o s) : Kept o (State.throttle s) := by simp [State.throttle, h]

@[simp] theorem State.thermalShutdown_kept (h : Kept o s) : Kept o (State.thermalShutdown s) := by simp (maxDischargeDepth := 40) +contextual [State.thermalShutdown, h]

@[simp] theorem execThermalSample_kept (h : Kept o s) (a) : KeptBy o (execThermalSample a s) := by
  unfold execThermalSample
  repeat' split
  all_goals simp (maxDischargeDepth := 40) +contextual [h]

end Sys2Proof.Machine
end

