-- ==== Sys2Proof/Laws/KeptTap.lean ====
section
/-! SUPPORT. That every operation of Machine/Tap.lean keeps `Kept`. -/

namespace Sys2Proof.Machine

variable {o s : State}

@[simp] theorem State.tapLoad_kept (h : Kept o s) (a) (b) (c) : Kept o (State.tapLoad s a b c) := by unfold State.tapLoad; split <;> simp [h]

@[simp] theorem State.tapBypass_kept (h : Kept o s) : Kept o (State.tapBypass s) := by simp [State.tapBypass, h]

@[simp] theorem execExtest_kept (h : Kept o s) : KeptBy o (execExtest s) := by unfold execExtest; split <;> simp [h]

@[simp] theorem execIdcode_kept (h : Kept o s) : KeptBy o (execIdcode s) := by simp [execIdcode, h]

@[simp] theorem execSamplePreload_kept (h : Kept o s) (a) : KeptBy o (execSamplePreload a s) := by simp [execSamplePreload, h]

@[simp] theorem execHighz_kept (h : Kept o s) : KeptBy o (execHighz s) := by unfold execHighz; split <;> simp [h]

@[simp] theorem execClamp_kept (h : Kept o s) : KeptBy o (execClamp s) := by unfold execClamp; split <;> simp [h]

@[simp] theorem execBypass_kept (h : Kept o s) : KeptBy o (execBypass s) := by simp [execBypass, h]

@[simp] theorem execTrstN_kept (h : Kept o s) : KeptBy o (execTrstN s) := by simp [execTrstN, h]

end Sys2Proof.Machine
end

