-- ==== Sys2Proof/Laws/KeptRegisters.lean ====
section
/-! SUPPORT. That every operation of Machine/Registers.lean keeps `Kept`. -/

namespace Sys2Proof.Machine

variable {o s : State}

@[simp] theorem State.writeMbIrq_kept (h : Kept o s) (a) (b) : Kept o (State.writeMbIrq s a b) := by simp [State.writeMbIrq, h]

@[simp] theorem State.writeMbRequest_kept (h : Kept o s) (a) (b) (c) : Kept o (State.writeMbRequest s a b c) := by simp [State.writeMbRequest, h]

@[simp] theorem State.writeMsix_kept (h : Kept o s) (a) (b) (c) (d) : Kept o (State.writeMsix s a b c d) := by simp (maxDischargeDepth := 40) +contextual [State.writeMsix, h]

@[simp] theorem State.writeAuCfg_kept (h : Kept o s) (a) (b) (c) : Kept o (State.writeAuCfg s a b c) := by unfold State.writeAuCfg; split <;> simp [h]

@[simp] theorem State.writeExpect_kept (h : Kept o s) (a) (b) (c) : Kept o (State.writeExpect s a b c) := by simp [State.writeExpect, h]

@[simp] theorem State.writePower_kept (h : Kept o s) (a) (b) : Kept o (State.writePower s a b) := by unfold State.writePower; split <;> simp [h]

@[simp] theorem State.writeBar_kept (h : Kept o s) (a) (b) : Kept o (State.writeBar s a b) := by unfold State.writeBar; split <;> simp [h]

@[simp] theorem State.writeCfg_kept (h : Kept o s) (a) (b) : Kept o (State.writeCfg s a b) := by unfold State.writeCfg; split <;> simp [h]

@[simp] theorem State.barWrite_kept (h : Kept o s) (a) (b) (c) : Kept o (State.barWrite s a b c) := by unfold State.barWrite; split <;> simp [h]

@[simp] theorem State.cfgWrite_kept (h : Kept o s) (a) (b) (c) : Kept o (State.cfgWrite s a b c) := by unfold State.cfgWrite; split <;> simp [h]

@[simp] theorem execRegisterWrite_kept (h : Kept o s) (a) (b) : KeptBy o (execRegisterWrite a b s) := by
  unfold execRegisterWrite
  repeat' split
  all_goals simp (maxDischargeDepth := 40) +contextual [h]

end Sys2Proof.Machine
end

