-- ==== Sys2Proof/Laws/KeptModes.lean ====
section
/-! SUPPORT. That every operation of Machine/Modes.lean keeps `Kept`. -/

namespace Sys2Proof.Machine

variable {o s : State}

@[simp] theorem execMbSafetyStatus_kept (h : Kept o s) (a) : KeptBy o (execMbSafetyStatus a s) := by simp [execMbSafetyStatus, h]

@[simp] theorem State.maintEnter_kept (h : Kept o s) (a) (b) : Kept o (State.maintEnter s a b) := by simp [State.maintEnter, h]

@[simp] theorem State.maintRequest_kept (h : Kept o s) (a) (b) : Kept o (State.maintRequest s a b).1 := by unfold State.maintRequest; split <;> simp [h]

@[simp] theorem execMbMaintEnter_kept (h : Kept o s) (a) : KeptBy o (execMbMaintEnter a s) := by
  unfold execMbMaintEnter
  repeat' split
  all_goals simp (maxDischargeDepth := 40) +contextual [h]

@[simp] theorem execMbMaintExit_kept (h : Kept o s) (a) : KeptBy o (execMbMaintExit a s) := by simp (maxDischargeDepth := 40) +contextual [execMbMaintExit, h]

/-- A diagnostic keeps it when its own test does. -/
@[simp] theorem State.diag_kept (h : Kept o s) (f n : Nat) {body : State → State × Nat} (hb : ∀ s, Kept o s → Kept o (body s).1) :
    Kept o (s.diag f n body) := by
  unfold State.diag
  refine State.mbRun_kept h _ _ _ (fun s p h => ?_)
  dsimp only
  repeat' split
  all_goals first | exact h | exact hb _ h

@[simp] theorem execDiagHoldup_kept (h : Kept o s) (a) (b) (c) (d) : KeptBy o (execDiagHoldup a b c d s) := by simp (maxDischargeDepth := 40) +contextual [execDiagHoldup, h]

@[simp] theorem execDiagEngineSweep_kept (h : Kept o s) (a) (b) : KeptBy o (execDiagEngineSweep a b s) := by simp (maxDischargeDepth := 40) +contextual [execDiagEngineSweep, h]

@[simp] theorem execDiagClock_kept (h : Kept o s) (a) (b) : KeptBy o (execDiagClock a b s) := by simp [execDiagClock, h]

@[simp] theorem execDiagMramScrub_kept (h : Kept o s) (a) (b) (c) : KeptBy o (execDiagMramScrub a b c s) := by simp [execDiagMramScrub, h]

@[simp] theorem execDiagSplMarch_kept (h : Kept o s) (a) (b) : KeptBy o (execDiagSplMarch a b s) := by simp [execDiagSplMarch, h]

end Sys2Proof.Machine
end

