-- ==== Sys2Proof/Laws/KeptFlashProfile.lean ====
section
/-! SUPPORT. That every operation of Machine/FlashProfile.lean keeps `Kept`. -/

namespace Sys2Proof.Machine

variable {o s : State}

@[simp] theorem execMbFlashProfile_kept (h : Kept o s) (a) : KeptBy o (execMbFlashProfile a s) := by simp [execMbFlashProfile, h]

end Sys2Proof.Machine
end

