-- ==== Sys2Proof/Laws/KeptOperands.lean ====
section
/-! SUPPORT. That every operation of Machine/Operands.lean keeps `Kept`. -/

namespace Sys2Proof.Machine

variable {o s : State}

end Sys2Proof.Machine
end

