-- ==== Sys2Proof/Laws/KeptProfileRecord.lean ====
section
/-! SUPPORT. That every operation of Machine/ProfileRecord.lean keeps `Kept`. -/

namespace Sys2Proof.Machine

variable {o s : State}

end Sys2Proof.Machine
end

