-- ==== Sys2Proof/Laws/KeptSampleIndex.lean ====
section
/-! SUPPORT. That every operation of Machine/SampleIndex.lean keeps `Kept`. -/

namespace Sys2Proof.Machine

variable {o s : State}

end Sys2Proof.Machine
end

