-- ==== Sys2Proof/Laws/KeptSha.lean ====
section
/-! SUPPORT. That every operation of Machine/Sha.lean keeps `Kept`. -/

namespace Sys2Proof.Machine

variable {o s : State}

end Sys2Proof.Machine
end

