-- ==== Sys2Proof/Laws/Runs.lean ====
section
/-! SUPPORT. What the shared runners do: a command in flight after an update, a mailbox request that is ready, and a scull instruction that
runs, jumps, stores, stalls or traps. -/

namespace Sys2Proof.Machine

/-- A command in flight reads as it was set, every other one as before. -/
theorem cmd_setCmd (s : State) (id j : CmdId) (c : Option Cmd) : (s.setCmd id c).cmd j = if j = id then c else s.cmd j := by
  unfold State.cmd State.setCmd
  split
  · subst_vars; simp
  · exact Mem.get_set_other _ _ _ (by assumption)

/-- A command in flight reads as it was changed, every other one as before. -/
theorem cmd_updCmd (s : State) (id j : CmdId) (g : Cmd → Cmd) : (s.updCmd id g).cmd j = if j = id then (s.cmd id).map g else s.cmd j := by
  unfold State.updCmd
  split
  · split <;> simp_all
  · rw [cmd_setCmd]; simp [*]

/-- A live command is in flight without a result. -/
theorem live_cmd {s : State} {id : CmdId} {a : Bool} {n : Nat} {c : Cmd} (h : s.live id a n = some c) :
    s.cmd id = some c ∧ c.result = none := by
  unfold State.live at h
  split at h
  · contradiction
  · split at h
    · injection h with h; subst h; simp_all
    · contradiction

/-- The order of finishing is kept beside the commands in flight. -/
@[simp] theorem cmd_noteFinished (s : State) (id j : CmdId) : (s.noteFinished id).cmd j = s.cmd j := by
  unfold State.noteFinished; split <;> rfl

/-- A live command that is finished has its result. -/
theorem finish_result {s : State} {id : CmdId} {a : Bool} {n : Nat} {c : Cmd} (h : s.live id a n = some c) (st : Status) (x y : BitVec 32) :
    (s.finish id st x y).ResultIs id ⟨st, x, y⟩ := by
  have k := live_cmd h
  unfold State.ResultIs State.finish
  simp [cmd_updCmd, k]

/-- A change of a function leaves the commands in flight. -/
@[simp] theorem cmd_updFn (s : State) (f : Nat) (g : Fn → Fn) (j : CmdId) : (s.updFn f g).cmd j = s.cmd j := rfl

/-- A change of a function leaves the host interface. -/
@[simp] theorem hif_updFn (s : State) (f : Nat) (g : Fn → Fn) : (s.updFn f g).hif = s.hif := rfl

/-- A change of a namespace leaves the host interface. -/
@[simp] theorem hif_setNs (s : State) (f : Nat) (g) : (s.setNs f g).hif = s.hif := rfl

/-- The order of finishing is kept beside what is fetched and the next handle. -/
theorem fetched_noteFinished (s : State) (id : CmdId) :
    (s.noteFinished id).hif.fetched = s.hif.fetched ∧ (s.noteFinished id).hif.nextCmd = s.hif.nextCmd := by
  unfold State.noteFinished; split <;> exact ⟨rfl, rfl⟩

/-- A change of a command leaves what is fetched, the next handle and the messages to the host. -/
theorem fetched_updCmd (s : State) (id : CmdId) (g : Cmd → Cmd) : (s.updCmd id g).hif.fetched = s.hif.fetched ∧ (s.updCmd id g).hif.nextCmd = s.hif.nextCmd ∧ (s.updCmd id g).hif.toHost = s.hif.toHost := by
  unfold State.updCmd; split <;> exact ⟨rfl, rfl, rfl⟩

/-- A mailbox request that is ready runs its body, and is answered, or waits, as the body says (R203, R205). -/
theorem mbRunAs_ready {s : State} {f cmd : Nat} (h : s.MbReady f cmd) (sub : Bytes → Bool)
    (body : State → Nat → Bytes → State × Option MbResp) (hs : sub (s.mbRequest f) = true) :
    s.mbRunAs f cmd sub body = (match (body s f (s.mbRequest f)).2 with
      | some p => (body s f (s.mbRequest f)).1.mbAnswer f p
      | none => (body s f (s.mbRequest f)).1.mbHold f) := by
  obtain ⟨h1, h2, h3, h4, h5, h6, h7, h8, h9, h10, h11⟩ := h
  unfold State.mbRequest at *
  have k1 : s.checkTaken f = s := by simp [State.checkTaken, h10]
  have k2 : s.mbMay = true := by simp [State.mbMay, h1, h2, h4, h5]
  have k3 : s.mbDue f (fun r => mbCmd r == cmd && sub (mbPayload r)) = true := by
    rcases h3 with h3 | ⟨-, h3⟩ <;> simp [State.mbDue, h7, h8, h9, h10, h11, hs, h3]
  have k4 : ¬(s.psm.mode = .safeHalt ∧ (!mbHaltOk cmd) = true) := by
    rintro ⟨a, b⟩
    rcases h3 with h3 | ⟨h3, -⟩
    · exact h3 a
    · simp [h3] at b
  unfold State.mbRunAs
  simp only [k1, k2, h6, List.find?_nil, k3, if_true, Bool.not_true, Bool.false_eq_true, if_false]
  rw [if_neg k4]
  unfold State.mbAnswer State.mbHold
  generalize body s f (mbPayload (s.mb f).taken) = r
  obtain ⟨a, b⟩ := r
  cases b <;> rfl

/-- The same of a request whose body does not ask for whom it runs. -/
theorem mbRun_ready {s : State} {f cmd : Nat} (h : s.MbReady f cmd) (sub : Bytes → Bool) (body : State → Bytes → State × Option MbResp)
    (hs : sub (s.mbRequest f) = true) :
    s.mbRun f cmd sub body = (match (body s (s.mbRequest f)).2 with
      | some p => (body s (s.mbRequest f)).1.mbAnswer f p
      | none => (body s (s.mbRequest f)).1.mbHold f) := mbRunAs_ready h sub (fun s _ p => body s p) hs

/-- A scull instruction that runs in `n` cycles passes on from the scull it leaves (R478, R487). -/
theorem runJ_ok {s : State} {k w n : Nat} {op : JOp} {f : Scull → Ran} {c1 : Scull} (h : s.nextIs k op = true)
    (hf : f (s.scull k).begun = .ok c1 n none none none) : s.runJ k w op f = s.passed k n c1 := by
  have e : { s.scull k with rc := if (s.scull k).rc = 0 then 0 else (s.scull k).rc - 1, noPoint := false } = (s.scull k).begun := rfl
  simp only [State.runJ, h, Bool.not_true, Bool.false_eq_true, if_false, e, hf, State.passed, Scull.after]

/-- A scull instruction that sends PC elsewhere. -/
theorem runJ_jump {s : State} {k w n : Nat} {op : JOp} {f : Scull → Ran} {c1 : Scull} {t : Int} (h : s.nextIs k op = true)
    (hf : f (s.scull k).begun = .ok c1 n (some t) none none) : s.runJ k w op f = s.jumped k n t c1 := by
  have e : { s.scull k with rc := if (s.scull k).rc = 0 then 0 else (s.scull k).rc - 1, noPoint := false } = (s.scull k).begun := rfl
  simp only [State.runJ, h, Bool.not_true, Bool.false_eq_true, if_false, e, hf, State.jumped, Scull.after]

/-- A scull instruction that traps (R481). -/
theorem runJ_trap {s : State} {k w : Nat} {op : JOp} {f : Scull → Ran} {t : Trap} (h : s.nextIs k op = true)
    (hf : f (s.scull k).begun = .trap t) : s.runJ k w op f = s.trapAt k t (s.scull k).pc.toNat := by
  have e : { s.scull k with rc := if (s.scull k).rc = 0 then 0 else (s.scull k).rc - 1, noPoint := false } = (s.scull k).begun := rfl
  simp only [State.runJ, h, Bool.not_true, Bool.false_eq_true, if_false, e, hf]

/-- A scull instruction that waits. -/
theorem runJ_stall {s : State} {k w : Nat} {op : JOp} {f : Scull → Ran} (h : s.nextIs k op = true)
    (hf : f (s.scull k).begun = .stall) : s.runJ k w op f = s.setScull k ((s.scull k).stalled w) := by
  have e : { s.scull k with rc := if (s.scull k).rc = 0 then 0 else (s.scull k).rc - 1, noPoint := false } = (s.scull k).begun := rfl
  simp only [State.runJ, h, Bool.not_true, Bool.false_eq_true, if_false, e, hf]

/-- A scull instruction that stores a word in shared memory. -/
theorem runJ_store {s : State} {k w n a : Nat} {v : TWord} {op : JOp} {f : Scull → Ran} {c1 : Scull} (h : s.nextIs k op = true)
    (hf : f (s.scull k).begun = .ok c1 n none (some (a, v)) none) : s.runJ k w op f = (s.passed k n c1).storeShared k a v := by
  have e : { s.scull k with rc := if (s.scull k).rc = 0 then 0 else (s.scull k).rc - 1, noPoint := false } = (s.scull k).begun := rfl
  simp only [State.runJ, h, Bool.not_true, Bool.false_eq_true, if_false, e, hf, State.passed, Scull.after, State.storeShared]

@[simp] theorem begun_dr (c : Scull) (i : BitVec 3) : c.begun.dr i = c.dr i := rfl

@[simp] theorem begun_ar (c : Scull) (i : BitVec 2) : c.begun.ar i = c.ar i := rfl

@[simp] theorem begun_acc (c : Scull) (i : Nat) : c.begun.acc i = c.acc i := rfl

@[simp] theorem begun_pc (c : Scull) : c.begun.pc = c.pc := rfl

@[simp] theorem begun_pl (c : Scull) : c.begun.pl = c.pl := rfl

@[simp] theorem begun_entry (c : Scull) (p : TWord) : c.begun.entry p = c.entry p := rfl

@[simp] theorem begun_access (c : Scull) (p : TWord) (u : Nat) (w : Bool) : c.begun.access p u w = c.access p u w := rfl

@[simp] theorem begun_escapes (c : Scull) (p w : TWord) : c.begun.escapes p w = c.escapes p w := rfl

/-- The tag of a word put together. -/
@[simp] theorem tag4_tagged (t : Nat) (v : BitVec 32) : tag4 (tagged t v) = BitVec.ofNat 4 t := by
  unfold tag4 tagged
  exact BitVec.extractLsb'_append_eq_left

/-- The value of a word put together. -/
@[simp] theorem val32_tagged (t : Nat) (v : BitVec 32) : val32 (tagged t v) = v := by
  unfold val32 tagged
  exact BitVec.setWidth_append_eq_right

end Sys2Proof.Machine
end

