-- ==== Sys2Proof/Laws/State.lean ====
section
/-! SUPPORT. The small laws of State: what each update leaves as it is, one lemma per field per update, and what each accessor reads after
an update of its own place or of another. -/

namespace Sys2Proof.Machine

/-! ### State.putEntry -/

@[simp] theorem State.putEntry_pending (s : State) (k : Nat) (e : MapEntry) : (s.putEntry k e).pending = s.pending := by
  unfold State.putEntry; (repeat' split) <;> rfl
@[simp] theorem State.putEntry_freeCtr (s : State) (k : Nat) (e : MapEntry) : (s.putEntry k e).freeCtr = s.freeCtr := by
  unfold State.putEntry; (repeat' split) <;> rfl
@[simp] theorem State.putEntry_fns (s : State) (k : Nat) (e : MapEntry) : (s.putEntry k e).fns = s.fns := by
  unfold State.putEntry; (repeat' split) <;> rfl
@[simp] theorem State.putEntry_hif (s : State) (k : Nat) (e : MapEntry) : (s.putEntry k e).hif = s.hif := by
  unfold State.putEntry; (repeat' split) <;> rfl
@[simp] theorem State.putEntry_flash (s : State) (k : Nat) (e : MapEntry) : (s.putEntry k e).flash = s.flash := by
  unfold State.putEntry; (repeat' split) <;> rfl
@[simp] theorem State.putEntry_dram (s : State) (k : Nat) (e : MapEntry) : (s.putEntry k e).dram = s.dram := by
  unfold State.putEntry; (repeat' split) <;> rfl
@[simp] theorem State.putEntry_dmf (s : State) (k : Nat) (e : MapEntry) : (s.putEntry k e).dmf = s.dmf := by
  unfold State.putEntry; (repeat' split) <;> rfl
@[simp] theorem State.putEntry_cpe (s : State) (k : Nat) (e : MapEntry) : (s.putEntry k e).cpe = s.cpe := by
  unfold State.putEntry; (repeat' split) <;> rfl
@[simp] theorem State.putEntry_dge (s : State) (k : Nat) (e : MapEntry) : (s.putEntry k e).dge = s.dge := by
  unfold State.putEntry; (repeat' split) <;> rfl
@[simp] theorem State.putEntry_cmp (s : State) (k : Nat) (e : MapEntry) : (s.putEntry k e).cmp = s.cmp := by
  unfold State.putEntry; (repeat' split) <;> rfl
@[simp] theorem State.putEntry_asu (s : State) (k : Nat) (e : MapEntry) : (s.putEntry k e).asu = s.asu := by
  unfold State.putEntry; (repeat' split) <;> rfl
@[simp] theorem State.putEntry_sca (s : State) (k : Nat) (e : MapEntry) : (s.putEntry k e).sca = s.sca := by
  unfold State.putEntry; (repeat' split) <;> rfl
@[simp] theorem State.putEntry_psm (s : State) (k : Nat) (e : MapEntry) : (s.putEntry k e).psm = s.psm := by
  unfold State.putEntry; (repeat' split) <;> rfl
@[simp] theorem State.putEntry_recd (s : State) (k : Nat) (e : MapEntry) : (s.putEntry k e).recd = s.recd := by
  unfold State.putEntry; (repeat' split) <;> rfl
@[simp] theorem State.putEntry_therm (s : State) (k : Nat) (e : MapEntry) : (s.putEntry k e).therm = s.therm := by
  unfold State.putEntry; (repeat' split) <;> rfl
@[simp] theorem State.putEntry_tap (s : State) (k : Nat) (e : MapEntry) : (s.putEntry k e).tap = s.tap := by
  unfold State.putEntry; (repeat' split) <;> rfl
@[simp] theorem State.putEntry_nvs (s : State) (k : Nat) (e : MapEntry) : (s.putEntry k e).nvs = s.nvs := by
  unfold State.putEntry; (repeat' split) <;> rfl
@[simp] theorem State.putEntry_swl (s : State) (k : Nat) (e : MapEntry) : (s.putEntry k e).swl = s.swl := by
  unfold State.putEntry; (repeat' split) <;> rfl

/-! ### State.updFn -/

@[simp] theorem State.updFn_pending (s : State) (f : Nat) (g : Fn → Fn) : (s.updFn f g).pending = s.pending := rfl
@[simp] theorem State.updFn_freeCtr (s : State) (f : Nat) (g : Fn → Fn) : (s.updFn f g).freeCtr = s.freeCtr := rfl
@[simp] theorem State.updFn_hif (s : State) (f : Nat) (g : Fn → Fn) : (s.updFn f g).hif = s.hif := rfl
@[simp] theorem State.updFn_nss (s : State) (f : Nat) (g : Fn → Fn) : (s.updFn f g).nss = s.nss := rfl
@[simp] theorem State.updFn_objs (s : State) (f : Nat) (g : Fn → Fn) : (s.updFn f g).objs = s.objs := rfl
@[simp] theorem State.updFn_flash (s : State) (f : Nat) (g : Fn → Fn) : (s.updFn f g).flash = s.flash := rfl
@[simp] theorem State.updFn_dram (s : State) (f : Nat) (g : Fn → Fn) : (s.updFn f g).dram = s.dram := rfl
@[simp] theorem State.updFn_dmf (s : State) (f : Nat) (g : Fn → Fn) : (s.updFn f g).dmf = s.dmf := rfl
@[simp] theorem State.updFn_cpe (s : State) (f : Nat) (g : Fn → Fn) : (s.updFn f g).cpe = s.cpe := rfl
@[simp] theorem State.updFn_dge (s : State) (f : Nat) (g : Fn → Fn) : (s.updFn f g).dge = s.dge := rfl
@[simp] theorem State.updFn_cmp (s : State) (f : Nat) (g : Fn → Fn) : (s.updFn f g).cmp = s.cmp := rfl
@[simp] theorem State.updFn_asu (s : State) (f : Nat) (g : Fn → Fn) : (s.updFn f g).asu = s.asu := rfl
@[simp] theorem State.updFn_sca (s : State) (f : Nat) (g : Fn → Fn) : (s.updFn f g).sca = s.sca := rfl
@[simp] theorem State.updFn_psm (s : State) (f : Nat) (g : Fn → Fn) : (s.updFn f g).psm = s.psm := rfl
@[simp] theorem State.updFn_recd (s : State) (f : Nat) (g : Fn → Fn) : (s.updFn f g).recd = s.recd := rfl
@[simp] theorem State.updFn_therm (s : State) (f : Nat) (g : Fn → Fn) : (s.updFn f g).therm = s.therm := rfl
@[simp] theorem State.updFn_tap (s : State) (f : Nat) (g : Fn → Fn) : (s.updFn f g).tap = s.tap := rfl
@[simp] theorem State.updFn_nvs (s : State) (f : Nat) (g : Fn → Fn) : (s.updFn f g).nvs = s.nvs := rfl
@[simp] theorem State.updFn_swl (s : State) (f : Nat) (g : Fn → Fn) : (s.updFn f g).swl = s.swl := rfl

/-! ### State.updMb -/

@[simp] theorem State.updMb_pending (s : State) (f : Nat) (g : Mbox → Mbox) : (s.updMb f g).pending = s.pending := rfl
@[simp] theorem State.updMb_freeCtr (s : State) (f : Nat) (g : Mbox → Mbox) : (s.updMb f g).freeCtr = s.freeCtr := rfl
@[simp] theorem State.updMb_hif (s : State) (f : Nat) (g : Mbox → Mbox) : (s.updMb f g).hif = s.hif := rfl
@[simp] theorem State.updMb_nss (s : State) (f : Nat) (g : Mbox → Mbox) : (s.updMb f g).nss = s.nss := rfl
@[simp] theorem State.updMb_objs (s : State) (f : Nat) (g : Mbox → Mbox) : (s.updMb f g).objs = s.objs := rfl
@[simp] theorem State.updMb_flash (s : State) (f : Nat) (g : Mbox → Mbox) : (s.updMb f g).flash = s.flash := rfl
@[simp] theorem State.updMb_dram (s : State) (f : Nat) (g : Mbox → Mbox) : (s.updMb f g).dram = s.dram := rfl
@[simp] theorem State.updMb_dmf (s : State) (f : Nat) (g : Mbox → Mbox) : (s.updMb f g).dmf = s.dmf := rfl
@[simp] theorem State.updMb_cpe (s : State) (f : Nat) (g : Mbox → Mbox) : (s.updMb f g).cpe = s.cpe := rfl
@[simp] theorem State.updMb_dge (s : State) (f : Nat) (g : Mbox → Mbox) : (s.updMb f g).dge = s.dge := rfl
@[simp] theorem State.updMb_cmp (s : State) (f : Nat) (g : Mbox → Mbox) : (s.updMb f g).cmp = s.cmp := rfl
@[simp] theorem State.updMb_asu (s : State) (f : Nat) (g : Mbox → Mbox) : (s.updMb f g).asu = s.asu := rfl
@[simp] theorem State.updMb_sca (s : State) (f : Nat) (g : Mbox → Mbox) : (s.updMb f g).sca = s.sca := rfl
@[simp] theorem State.updMb_psm (s : State) (f : Nat) (g : Mbox → Mbox) : (s.updMb f g).psm = s.psm := rfl
@[simp] theorem State.updMb_recd (s : State) (f : Nat) (g : Mbox → Mbox) : (s.updMb f g).recd = s.recd := rfl
@[simp] theorem State.updMb_therm (s : State) (f : Nat) (g : Mbox → Mbox) : (s.updMb f g).therm = s.therm := rfl
@[simp] theorem State.updMb_tap (s : State) (f : Nat) (g : Mbox → Mbox) : (s.updMb f g).tap = s.tap := rfl
@[simp] theorem State.updMb_nvs (s : State) (f : Nat) (g : Mbox → Mbox) : (s.updMb f g).nvs = s.nvs := rfl
@[simp] theorem State.updMb_swl (s : State) (f : Nat) (g : Mbox → Mbox) : (s.updMb f g).swl = s.swl := rfl

/-! ### State.setCmd -/

@[simp] theorem State.setCmd_pending (s : State) (id : CmdId) (c : Option Cmd) : (s.setCmd id c).pending = s.pending := rfl
@[simp] theorem State.setCmd_freeCtr (s : State) (id : CmdId) (c : Option Cmd) : (s.setCmd id c).freeCtr = s.freeCtr := rfl
@[simp] theorem State.setCmd_fns (s : State) (id : CmdId) (c : Option Cmd) : (s.setCmd id c).fns = s.fns := rfl
@[simp] theorem State.setCmd_nss (s : State) (id : CmdId) (c : Option Cmd) : (s.setCmd id c).nss = s.nss := rfl
@[simp] theorem State.setCmd_objs (s : State) (id : CmdId) (c : Option Cmd) : (s.setCmd id c).objs = s.objs := rfl
@[simp] theorem State.setCmd_flash (s : State) (id : CmdId) (c : Option Cmd) : (s.setCmd id c).flash = s.flash := rfl
@[simp] theorem State.setCmd_dram (s : State) (id : CmdId) (c : Option Cmd) : (s.setCmd id c).dram = s.dram := rfl
@[simp] theorem State.setCmd_dmf (s : State) (id : CmdId) (c : Option Cmd) : (s.setCmd id c).dmf = s.dmf := rfl
@[simp] theorem State.setCmd_cpe (s : State) (id : CmdId) (c : Option Cmd) : (s.setCmd id c).cpe = s.cpe := rfl
@[simp] theorem State.setCmd_dge (s : State) (id : CmdId) (c : Option Cmd) : (s.setCmd id c).dge = s.dge := rfl
@[simp] theorem State.setCmd_cmp (s : State) (id : CmdId) (c : Option Cmd) : (s.setCmd id c).cmp = s.cmp := rfl
@[simp] theorem State.setCmd_asu (s : State) (id : CmdId) (c : Option Cmd) : (s.setCmd id c).asu = s.asu := rfl
@[simp] theorem State.setCmd_sca (s : State) (id : CmdId) (c : Option Cmd) : (s.setCmd id c).sca = s.sca := rfl
@[simp] theorem State.setCmd_psm (s : State) (id : CmdId) (c : Option Cmd) : (s.setCmd id c).psm = s.psm := rfl
@[simp] theorem State.setCmd_recd (s : State) (id : CmdId) (c : Option Cmd) : (s.setCmd id c).recd = s.recd := rfl
@[simp] theorem State.setCmd_therm (s : State) (id : CmdId) (c : Option Cmd) : (s.setCmd id c).therm = s.therm := rfl
@[simp] theorem State.setCmd_tap (s : State) (id : CmdId) (c : Option Cmd) : (s.setCmd id c).tap = s.tap := rfl
@[simp] theorem State.setCmd_nvs (s : State) (id : CmdId) (c : Option Cmd) : (s.setCmd id c).nvs = s.nvs := rfl
@[simp] theorem State.setCmd_swl (s : State) (id : CmdId) (c : Option Cmd) : (s.setCmd id c).swl = s.swl := rfl

/-! ### State.setNs -/

@[simp] theorem State.setNs_pending (s : State) (n : Nat) (x : Option Ns) : (s.setNs n x).pending = s.pending := rfl
@[simp] theorem State.setNs_freeCtr (s : State) (n : Nat) (x : Option Ns) : (s.setNs n x).freeCtr = s.freeCtr := rfl
@[simp] theorem State.setNs_fns (s : State) (n : Nat) (x : Option Ns) : (s.setNs n x).fns = s.fns := rfl
@[simp] theorem State.setNs_hif (s : State) (n : Nat) (x : Option Ns) : (s.setNs n x).hif = s.hif := rfl
@[simp] theorem State.setNs_objs (s : State) (n : Nat) (x : Option Ns) : (s.setNs n x).objs = s.objs := rfl
@[simp] theorem State.setNs_flash (s : State) (n : Nat) (x : Option Ns) : (s.setNs n x).flash = s.flash := rfl
@[simp] theorem State.setNs_dram (s : State) (n : Nat) (x : Option Ns) : (s.setNs n x).dram = s.dram := rfl
@[simp] theorem State.setNs_dmf (s : State) (n : Nat) (x : Option Ns) : (s.setNs n x).dmf = s.dmf := rfl
@[simp] theorem State.setNs_cpe (s : State) (n : Nat) (x : Option Ns) : (s.setNs n x).cpe = s.cpe := rfl
@[simp] theorem State.setNs_dge (s : State) (n : Nat) (x : Option Ns) : (s.setNs n x).dge = s.dge := rfl
@[simp] theorem State.setNs_cmp (s : State) (n : Nat) (x : Option Ns) : (s.setNs n x).cmp = s.cmp := rfl
@[simp] theorem State.setNs_asu (s : State) (n : Nat) (x : Option Ns) : (s.setNs n x).asu = s.asu := rfl
@[simp] theorem State.setNs_sca (s : State) (n : Nat) (x : Option Ns) : (s.setNs n x).sca = s.sca := rfl
@[simp] theorem State.setNs_psm (s : State) (n : Nat) (x : Option Ns) : (s.setNs n x).psm = s.psm := rfl
@[simp] theorem State.setNs_recd (s : State) (n : Nat) (x : Option Ns) : (s.setNs n x).recd = s.recd := rfl
@[simp] theorem State.setNs_therm (s : State) (n : Nat) (x : Option Ns) : (s.setNs n x).therm = s.therm := rfl
@[simp] theorem State.setNs_tap (s : State) (n : Nat) (x : Option Ns) : (s.setNs n x).tap = s.tap := rfl
@[simp] theorem State.setNs_nvs (s : State) (n : Nat) (x : Option Ns) : (s.setNs n x).nvs = s.nvs := rfl
@[simp] theorem State.setNs_swl (s : State) (n : Nat) (x : Option Ns) : (s.setNs n x).swl = s.swl := rfl

/-! ### State.setChunk -/

@[simp] theorem State.setChunk_pending (s : State) (k : Nat) (x : Option Chunk) : (s.setChunk k x).pending = s.pending := rfl
@[simp] theorem State.setChunk_freeCtr (s : State) (k : Nat) (x : Option Chunk) : (s.setChunk k x).freeCtr = s.freeCtr := rfl
@[simp] theorem State.setChunk_fns (s : State) (k : Nat) (x : Option Chunk) : (s.setChunk k x).fns = s.fns := rfl
@[simp] theorem State.setChunk_hif (s : State) (k : Nat) (x : Option Chunk) : (s.setChunk k x).hif = s.hif := rfl
@[simp] theorem State.setChunk_nss (s : State) (k : Nat) (x : Option Chunk) : (s.setChunk k x).nss = s.nss := rfl
@[simp] theorem State.setChunk_flash (s : State) (k : Nat) (x : Option Chunk) : (s.setChunk k x).flash = s.flash := rfl
@[simp] theorem State.setChunk_dram (s : State) (k : Nat) (x : Option Chunk) : (s.setChunk k x).dram = s.dram := rfl
@[simp] theorem State.setChunk_dmf (s : State) (k : Nat) (x : Option Chunk) : (s.setChunk k x).dmf = s.dmf := rfl
@[simp] theorem State.setChunk_cpe (s : State) (k : Nat) (x : Option Chunk) : (s.setChunk k x).cpe = s.cpe := rfl
@[simp] theorem State.setChunk_dge (s : State) (k : Nat) (x : Option Chunk) : (s.setChunk k x).dge = s.dge := rfl
@[simp] theorem State.setChunk_cmp (s : State) (k : Nat) (x : Option Chunk) : (s.setChunk k x).cmp = s.cmp := rfl
@[simp] theorem State.setChunk_asu (s : State) (k : Nat) (x : Option Chunk) : (s.setChunk k x).asu = s.asu := rfl
@[simp] theorem State.setChunk_sca (s : State) (k : Nat) (x : Option Chunk) : (s.setChunk k x).sca = s.sca := rfl
@[simp] theorem State.setChunk_psm (s : State) (k : Nat) (x : Option Chunk) : (s.setChunk k x).psm = s.psm := rfl
@[simp] theorem State.setChunk_recd (s : State) (k : Nat) (x : Option Chunk) : (s.setChunk k x).recd = s.recd := rfl
@[simp] theorem State.setChunk_therm (s : State) (k : Nat) (x : Option Chunk) : (s.setChunk k x).therm = s.therm := rfl
@[simp] theorem State.setChunk_tap (s : State) (k : Nat) (x : Option Chunk) : (s.setChunk k x).tap = s.tap := rfl
@[simp] theorem State.setChunk_nvs (s : State) (k : Nat) (x : Option Chunk) : (s.setChunk k x).nvs = s.nvs := rfl
@[simp] theorem State.setChunk_swl (s : State) (k : Nat) (x : Option Chunk) : (s.setChunk k x).swl = s.swl := rfl

/-! ### State.updObj -/

@[simp] theorem State.updObj_pending (s : State) (n o : Nat) (g : Obj → Obj) : (s.updObj n o g).pending = s.pending := rfl
@[simp] theorem State.updObj_freeCtr (s : State) (n o : Nat) (g : Obj → Obj) : (s.updObj n o g).freeCtr = s.freeCtr := rfl
@[simp] theorem State.updObj_fns (s : State) (n o : Nat) (g : Obj → Obj) : (s.updObj n o g).fns = s.fns := rfl
@[simp] theorem State.updObj_hif (s : State) (n o : Nat) (g : Obj → Obj) : (s.updObj n o g).hif = s.hif := rfl
@[simp] theorem State.updObj_nss (s : State) (n o : Nat) (g : Obj → Obj) : (s.updObj n o g).nss = s.nss := rfl
@[simp] theorem State.updObj_flash (s : State) (n o : Nat) (g : Obj → Obj) : (s.updObj n o g).flash = s.flash := rfl
@[simp] theorem State.updObj_dram (s : State) (n o : Nat) (g : Obj → Obj) : (s.updObj n o g).dram = s.dram := rfl
@[simp] theorem State.updObj_dmf (s : State) (n o : Nat) (g : Obj → Obj) : (s.updObj n o g).dmf = s.dmf := rfl
@[simp] theorem State.updObj_cpe (s : State) (n o : Nat) (g : Obj → Obj) : (s.updObj n o g).cpe = s.cpe := rfl
@[simp] theorem State.updObj_dge (s : State) (n o : Nat) (g : Obj → Obj) : (s.updObj n o g).dge = s.dge := rfl
@[simp] theorem State.updObj_cmp (s : State) (n o : Nat) (g : Obj → Obj) : (s.updObj n o g).cmp = s.cmp := rfl
@[simp] theorem State.updObj_asu (s : State) (n o : Nat) (g : Obj → Obj) : (s.updObj n o g).asu = s.asu := rfl
@[simp] theorem State.updObj_sca (s : State) (n o : Nat) (g : Obj → Obj) : (s.updObj n o g).sca = s.sca := rfl
@[simp] theorem State.updObj_psm (s : State) (n o : Nat) (g : Obj → Obj) : (s.updObj n o g).psm = s.psm := rfl
@[simp] theorem State.updObj_recd (s : State) (n o : Nat) (g : Obj → Obj) : (s.updObj n o g).recd = s.recd := rfl
@[simp] theorem State.updObj_therm (s : State) (n o : Nat) (g : Obj → Obj) : (s.updObj n o g).therm = s.therm := rfl
@[simp] theorem State.updObj_tap (s : State) (n o : Nat) (g : Obj → Obj) : (s.updObj n o g).tap = s.tap := rfl
@[simp] theorem State.updObj_nvs (s : State) (n o : Nat) (g : Obj → Obj) : (s.updObj n o g).nvs = s.nvs := rfl
@[simp] theorem State.updObj_swl (s : State) (n o : Nat) (g : Obj → Obj) : (s.updObj n o g).swl = s.swl := rfl

/-! ### State.updDie -/

@[simp] theorem State.updDie_pending (s : State) (d : Nat) (g : Die → Die) : (s.updDie d g).pending = s.pending := rfl
@[simp] theorem State.updDie_freeCtr (s : State) (d : Nat) (g : Die → Die) : (s.updDie d g).freeCtr = s.freeCtr := rfl
@[simp] theorem State.updDie_fns (s : State) (d : Nat) (g : Die → Die) : (s.updDie d g).fns = s.fns := rfl
@[simp] theorem State.updDie_hif (s : State) (d : Nat) (g : Die → Die) : (s.updDie d g).hif = s.hif := rfl
@[simp] theorem State.updDie_nss (s : State) (d : Nat) (g : Die → Die) : (s.updDie d g).nss = s.nss := rfl
@[simp] theorem State.updDie_objs (s : State) (d : Nat) (g : Die → Die) : (s.updDie d g).objs = s.objs := rfl
@[simp] theorem State.updDie_dram (s : State) (d : Nat) (g : Die → Die) : (s.updDie d g).dram = s.dram := rfl
@[simp] theorem State.updDie_dmf (s : State) (d : Nat) (g : Die → Die) : (s.updDie d g).dmf = s.dmf := rfl
@[simp] theorem State.updDie_cpe (s : State) (d : Nat) (g : Die → Die) : (s.updDie d g).cpe = s.cpe := rfl
@[simp] theorem State.updDie_dge (s : State) (d : Nat) (g : Die → Die) : (s.updDie d g).dge = s.dge := rfl
@[simp] theorem State.updDie_cmp (s : State) (d : Nat) (g : Die → Die) : (s.updDie d g).cmp = s.cmp := rfl
@[simp] theorem State.updDie_asu (s : State) (d : Nat) (g : Die → Die) : (s.updDie d g).asu = s.asu := rfl
@[simp] theorem State.updDie_sca (s : State) (d : Nat) (g : Die → Die) : (s.updDie d g).sca = s.sca := rfl
@[simp] theorem State.updDie_psm (s : State) (d : Nat) (g : Die → Die) : (s.updDie d g).psm = s.psm := rfl
@[simp] theorem State.updDie_recd (s : State) (d : Nat) (g : Die → Die) : (s.updDie d g).recd = s.recd := rfl
@[simp] theorem State.updDie_therm (s : State) (d : Nat) (g : Die → Die) : (s.updDie d g).therm = s.therm := rfl
@[simp] theorem State.updDie_tap (s : State) (d : Nat) (g : Die → Die) : (s.updDie d g).tap = s.tap := rfl
@[simp] theorem State.updDie_nvs (s : State) (d : Nat) (g : Die → Die) : (s.updDie d g).nvs = s.nvs := rfl
@[simp] theorem State.updDie_swl (s : State) (d : Nat) (g : Die → Die) : (s.updDie d g).swl = s.swl := rfl

/-! ### State.updSb -/

@[simp] theorem State.updSb_pending (s : State) (k : Nat) (g : Sb → Sb) : (s.updSb k g).pending = s.pending := rfl
@[simp] theorem State.updSb_freeCtr (s : State) (k : Nat) (g : Sb → Sb) : (s.updSb k g).freeCtr = s.freeCtr := rfl
@[simp] theorem State.updSb_fns (s : State) (k : Nat) (g : Sb → Sb) : (s.updSb k g).fns = s.fns := rfl
@[simp] theorem State.updSb_hif (s : State) (k : Nat) (g : Sb → Sb) : (s.updSb k g).hif = s.hif := rfl
@[simp] theorem State.updSb_nss (s : State) (k : Nat) (g : Sb → Sb) : (s.updSb k g).nss = s.nss := rfl
@[simp] theorem State.updSb_objs (s : State) (k : Nat) (g : Sb → Sb) : (s.updSb k g).objs = s.objs := rfl
@[simp] theorem State.updSb_dram (s : State) (k : Nat) (g : Sb → Sb) : (s.updSb k g).dram = s.dram := rfl
@[simp] theorem State.updSb_dmf (s : State) (k : Nat) (g : Sb → Sb) : (s.updSb k g).dmf = s.dmf := rfl
@[simp] theorem State.updSb_cpe (s : State) (k : Nat) (g : Sb → Sb) : (s.updSb k g).cpe = s.cpe := rfl
@[simp] theorem State.updSb_dge (s : State) (k : Nat) (g : Sb → Sb) : (s.updSb k g).dge = s.dge := rfl
@[simp] theorem State.updSb_cmp (s : State) (k : Nat) (g : Sb → Sb) : (s.updSb k g).cmp = s.cmp := rfl
@[simp] theorem State.updSb_asu (s : State) (k : Nat) (g : Sb → Sb) : (s.updSb k g).asu = s.asu := rfl
@[simp] theorem State.updSb_sca (s : State) (k : Nat) (g : Sb → Sb) : (s.updSb k g).sca = s.sca := rfl
@[simp] theorem State.updSb_psm (s : State) (k : Nat) (g : Sb → Sb) : (s.updSb k g).psm = s.psm := rfl
@[simp] theorem State.updSb_recd (s : State) (k : Nat) (g : Sb → Sb) : (s.updSb k g).recd = s.recd := rfl
@[simp] theorem State.updSb_therm (s : State) (k : Nat) (g : Sb → Sb) : (s.updSb k g).therm = s.therm := rfl
@[simp] theorem State.updSb_tap (s : State) (k : Nat) (g : Sb → Sb) : (s.updSb k g).tap = s.tap := rfl
@[simp] theorem State.updSb_nvs (s : State) (k : Nat) (g : Sb → Sb) : (s.updSb k g).nvs = s.nvs := rfl
@[simp] theorem State.updSb_swl (s : State) (k : Nat) (g : Sb → Sb) : (s.updSb k g).swl = s.swl := rfl

/-! ### State.setOp -/

@[simp] theorem State.setOp_pending (s : State) (i : Nat) (o : Option FlashOp) : (s.setOp i o).pending = s.pending := rfl
@[simp] theorem State.setOp_freeCtr (s : State) (i : Nat) (o : Option FlashOp) : (s.setOp i o).freeCtr = s.freeCtr := rfl
@[simp] theorem State.setOp_fns (s : State) (i : Nat) (o : Option FlashOp) : (s.setOp i o).fns = s.fns := rfl
@[simp] theorem State.setOp_hif (s : State) (i : Nat) (o : Option FlashOp) : (s.setOp i o).hif = s.hif := rfl
@[simp] theorem State.setOp_nss (s : State) (i : Nat) (o : Option FlashOp) : (s.setOp i o).nss = s.nss := rfl
@[simp] theorem State.setOp_objs (s : State) (i : Nat) (o : Option FlashOp) : (s.setOp i o).objs = s.objs := rfl
@[simp] theorem State.setOp_dram (s : State) (i : Nat) (o : Option FlashOp) : (s.setOp i o).dram = s.dram := rfl
@[simp] theorem State.setOp_dmf (s : State) (i : Nat) (o : Option FlashOp) : (s.setOp i o).dmf = s.dmf := rfl
@[simp] theorem State.setOp_cpe (s : State) (i : Nat) (o : Option FlashOp) : (s.setOp i o).cpe = s.cpe := rfl
@[simp] theorem State.setOp_dge (s : State) (i : Nat) (o : Option FlashOp) : (s.setOp i o).dge = s.dge := rfl
@[simp] theorem State.setOp_cmp (s : State) (i : Nat) (o : Option FlashOp) : (s.setOp i o).cmp = s.cmp := rfl
@[simp] theorem State.setOp_asu (s : State) (i : Nat) (o : Option FlashOp) : (s.setOp i o).asu = s.asu := rfl
@[simp] theorem State.setOp_sca (s : State) (i : Nat) (o : Option FlashOp) : (s.setOp i o).sca = s.sca := rfl
@[simp] theorem State.setOp_psm (s : State) (i : Nat) (o : Option FlashOp) : (s.setOp i o).psm = s.psm := rfl
@[simp] theorem State.setOp_recd (s : State) (i : Nat) (o : Option FlashOp) : (s.setOp i o).recd = s.recd := rfl
@[simp] theorem State.setOp_therm (s : State) (i : Nat) (o : Option FlashOp) : (s.setOp i o).therm = s.therm := rfl
@[simp] theorem State.setOp_tap (s : State) (i : Nat) (o : Option FlashOp) : (s.setOp i o).tap = s.tap := rfl
@[simp] theorem State.setOp_nvs (s : State) (i : Nat) (o : Option FlashOp) : (s.setOp i o).nvs = s.nvs := rfl
@[simp] theorem State.setOp_swl (s : State) (i : Nat) (o : Option FlashOp) : (s.setOp i o).swl = s.swl := rfl

/-! ### State.setRank -/

@[simp] theorem State.setRank_pending (s : State) (ch cs : Nat) (r : RankState) : (s.setRank ch cs r).pending = s.pending := rfl
@[simp] theorem State.setRank_freeCtr (s : State) (ch cs : Nat) (r : RankState) : (s.setRank ch cs r).freeCtr = s.freeCtr := rfl
@[simp] theorem State.setRank_fns (s : State) (ch cs : Nat) (r : RankState) : (s.setRank ch cs r).fns = s.fns := rfl
@[simp] theorem State.setRank_hif (s : State) (ch cs : Nat) (r : RankState) : (s.setRank ch cs r).hif = s.hif := rfl
@[simp] theorem State.setRank_nss (s : State) (ch cs : Nat) (r : RankState) : (s.setRank ch cs r).nss = s.nss := rfl
@[simp] theorem State.setRank_objs (s : State) (ch cs : Nat) (r : RankState) : (s.setRank ch cs r).objs = s.objs := rfl
@[simp] theorem State.setRank_flash (s : State) (ch cs : Nat) (r : RankState) : (s.setRank ch cs r).flash = s.flash := rfl
@[simp] theorem State.setRank_dmf (s : State) (ch cs : Nat) (r : RankState) : (s.setRank ch cs r).dmf = s.dmf := rfl
@[simp] theorem State.setRank_cpe (s : State) (ch cs : Nat) (r : RankState) : (s.setRank ch cs r).cpe = s.cpe := rfl
@[simp] theorem State.setRank_dge (s : State) (ch cs : Nat) (r : RankState) : (s.setRank ch cs r).dge = s.dge := rfl
@[simp] theorem State.setRank_cmp (s : State) (ch cs : Nat) (r : RankState) : (s.setRank ch cs r).cmp = s.cmp := rfl
@[simp] theorem State.setRank_asu (s : State) (ch cs : Nat) (r : RankState) : (s.setRank ch cs r).asu = s.asu := rfl
@[simp] theorem State.setRank_sca (s : State) (ch cs : Nat) (r : RankState) : (s.setRank ch cs r).sca = s.sca := rfl
@[simp] theorem State.setRank_psm (s : State) (ch cs : Nat) (r : RankState) : (s.setRank ch cs r).psm = s.psm := rfl
@[simp] theorem State.setRank_recd (s : State) (ch cs : Nat) (r : RankState) : (s.setRank ch cs r).recd = s.recd := rfl
@[simp] theorem State.setRank_therm (s : State) (ch cs : Nat) (r : RankState) : (s.setRank ch cs r).therm = s.therm := rfl
@[simp] theorem State.setRank_tap (s : State) (ch cs : Nat) (r : RankState) : (s.setRank ch cs r).tap = s.tap := rfl
@[simp] theorem State.setRank_nvs (s : State) (ch cs : Nat) (r : RankState) : (s.setRank ch cs r).nvs = s.nvs := rfl
@[simp] theorem State.setRank_swl (s : State) (ch cs : Nat) (r : RankState) : (s.setRank ch cs r).swl = s.swl := rfl

/-! ### State.setCh -/

@[simp] theorem State.setCh_pending (s : State) (ch : Nat) (c : DmaCh) : (s.setCh ch c).pending = s.pending := rfl
@[simp] theorem State.setCh_freeCtr (s : State) (ch : Nat) (c : DmaCh) : (s.setCh ch c).freeCtr = s.freeCtr := rfl
@[simp] theorem State.setCh_fns (s : State) (ch : Nat) (c : DmaCh) : (s.setCh ch c).fns = s.fns := rfl
@[simp] theorem State.setCh_hif (s : State) (ch : Nat) (c : DmaCh) : (s.setCh ch c).hif = s.hif := rfl
@[simp] theorem State.setCh_nss (s : State) (ch : Nat) (c : DmaCh) : (s.setCh ch c).nss = s.nss := rfl
@[simp] theorem State.setCh_objs (s : State) (ch : Nat) (c : DmaCh) : (s.setCh ch c).objs = s.objs := rfl
@[simp] theorem State.setCh_flash (s : State) (ch : Nat) (c : DmaCh) : (s.setCh ch c).flash = s.flash := rfl
@[simp] theorem State.setCh_dram (s : State) (ch : Nat) (c : DmaCh) : (s.setCh ch c).dram = s.dram := rfl
@[simp] theorem State.setCh_cpe (s : State) (ch : Nat) (c : DmaCh) : (s.setCh ch c).cpe = s.cpe := rfl
@[simp] theorem State.setCh_dge (s : State) (ch : Nat) (c : DmaCh) : (s.setCh ch c).dge = s.dge := rfl
@[simp] theorem State.setCh_cmp (s : State) (ch : Nat) (c : DmaCh) : (s.setCh ch c).cmp = s.cmp := rfl
@[simp] theorem State.setCh_asu (s : State) (ch : Nat) (c : DmaCh) : (s.setCh ch c).asu = s.asu := rfl
@[simp] theorem State.setCh_sca (s : State) (ch : Nat) (c : DmaCh) : (s.setCh ch c).sca = s.sca := rfl
@[simp] theorem State.setCh_psm (s : State) (ch : Nat) (c : DmaCh) : (s.setCh ch c).psm = s.psm := rfl
@[simp] theorem State.setCh_recd (s : State) (ch : Nat) (c : DmaCh) : (s.setCh ch c).recd = s.recd := rfl
@[simp] theorem State.setCh_therm (s : State) (ch : Nat) (c : DmaCh) : (s.setCh ch c).therm = s.therm := rfl
@[simp] theorem State.setCh_tap (s : State) (ch : Nat) (c : DmaCh) : (s.setCh ch c).tap = s.tap := rfl
@[simp] theorem State.setCh_nvs (s : State) (ch : Nat) (c : DmaCh) : (s.setCh ch c).nvs = s.nvs := rfl
@[simp] theorem State.setCh_swl (s : State) (ch : Nat) (c : DmaCh) : (s.setCh ch c).swl = s.swl := rfl

/-! ### State.setAu -/

@[simp] theorem State.setAu_pending (s : State) (i : Nat) (a : Au) : (s.setAu i a).pending = s.pending := rfl
@[simp] theorem State.setAu_freeCtr (s : State) (i : Nat) (a : Au) : (s.setAu i a).freeCtr = s.freeCtr := rfl
@[simp] theorem State.setAu_fns (s : State) (i : Nat) (a : Au) : (s.setAu i a).fns = s.fns := rfl
@[simp] theorem State.setAu_hif (s : State) (i : Nat) (a : Au) : (s.setAu i a).hif = s.hif := rfl
@[simp] theorem State.setAu_nss (s : State) (i : Nat) (a : Au) : (s.setAu i a).nss = s.nss := rfl
@[simp] theorem State.setAu_objs (s : State) (i : Nat) (a : Au) : (s.setAu i a).objs = s.objs := rfl
@[simp] theorem State.setAu_flash (s : State) (i : Nat) (a : Au) : (s.setAu i a).flash = s.flash := rfl
@[simp] theorem State.setAu_dram (s : State) (i : Nat) (a : Au) : (s.setAu i a).dram = s.dram := rfl
@[simp] theorem State.setAu_cpe (s : State) (i : Nat) (a : Au) : (s.setAu i a).cpe = s.cpe := rfl
@[simp] theorem State.setAu_dge (s : State) (i : Nat) (a : Au) : (s.setAu i a).dge = s.dge := rfl
@[simp] theorem State.setAu_cmp (s : State) (i : Nat) (a : Au) : (s.setAu i a).cmp = s.cmp := rfl
@[simp] theorem State.setAu_asu (s : State) (i : Nat) (a : Au) : (s.setAu i a).asu = s.asu := rfl
@[simp] theorem State.setAu_sca (s : State) (i : Nat) (a : Au) : (s.setAu i a).sca = s.sca := rfl
@[simp] theorem State.setAu_psm (s : State) (i : Nat) (a : Au) : (s.setAu i a).psm = s.psm := rfl
@[simp] theorem State.setAu_recd (s : State) (i : Nat) (a : Au) : (s.setAu i a).recd = s.recd := rfl
@[simp] theorem State.setAu_therm (s : State) (i : Nat) (a : Au) : (s.setAu i a).therm = s.therm := rfl
@[simp] theorem State.setAu_tap (s : State) (i : Nat) (a : Au) : (s.setAu i a).tap = s.tap := rfl
@[simp] theorem State.setAu_nvs (s : State) (i : Nat) (a : Au) : (s.setAu i a).nvs = s.nvs := rfl
@[simp] theorem State.setAu_swl (s : State) (i : Nat) (a : Au) : (s.setAu i a).swl = s.swl := rfl

/-! ### State.setSlot -/

@[simp] theorem State.setSlot_pending (s : State) (n : Nat) (x : Slot) : (s.setSlot n x).pending = s.pending := rfl
@[simp] theorem State.setSlot_freeCtr (s : State) (n : Nat) (x : Slot) : (s.setSlot n x).freeCtr = s.freeCtr := rfl
@[simp] theorem State.setSlot_fns (s : State) (n : Nat) (x : Slot) : (s.setSlot n x).fns = s.fns := rfl
@[simp] theorem State.setSlot_hif (s : State) (n : Nat) (x : Slot) : (s.setSlot n x).hif = s.hif := rfl
@[simp] theorem State.setSlot_nss (s : State) (n : Nat) (x : Slot) : (s.setSlot n x).nss = s.nss := rfl
@[simp] theorem State.setSlot_objs (s : State) (n : Nat) (x : Slot) : (s.setSlot n x).objs = s.objs := rfl
@[simp] theorem State.setSlot_flash (s : State) (n : Nat) (x : Slot) : (s.setSlot n x).flash = s.flash := rfl
@[simp] theorem State.setSlot_dram (s : State) (n : Nat) (x : Slot) : (s.setSlot n x).dram = s.dram := rfl
@[simp] theorem State.setSlot_dmf (s : State) (n : Nat) (x : Slot) : (s.setSlot n x).dmf = s.dmf := rfl
@[simp] theorem State.setSlot_dge (s : State) (n : Nat) (x : Slot) : (s.setSlot n x).dge = s.dge := rfl
@[simp] theorem State.setSlot_cmp (s : State) (n : Nat) (x : Slot) : (s.setSlot n x).cmp = s.cmp := rfl
@[simp] theorem State.setSlot_asu (s : State) (n : Nat) (x : Slot) : (s.setSlot n x).asu = s.asu := rfl
@[simp] theorem State.setSlot_sca (s : State) (n : Nat) (x : Slot) : (s.setSlot n x).sca = s.sca := rfl
@[simp] theorem State.setSlot_psm (s : State) (n : Nat) (x : Slot) : (s.setSlot n x).psm = s.psm := rfl
@[simp] theorem State.setSlot_recd (s : State) (n : Nat) (x : Slot) : (s.setSlot n x).recd = s.recd := rfl
@[simp] theorem State.setSlot_therm (s : State) (n : Nat) (x : Slot) : (s.setSlot n x).therm = s.therm := rfl
@[simp] theorem State.setSlot_tap (s : State) (n : Nat) (x : Slot) : (s.setSlot n x).tap = s.tap := rfl
@[simp] theorem State.setSlot_nvs (s : State) (n : Nat) (x : Slot) : (s.setSlot n x).nvs = s.nvs := rfl
@[simp] theorem State.setSlot_swl (s : State) (n : Nat) (x : Slot) : (s.setSlot n x).swl = s.swl := rfl

/-! ### State.setPipe -/

@[simp] theorem State.setPipe_pending (s : State) (p : Nat) (x : Pipe) : (s.setPipe p x).pending = s.pending := rfl
@[simp] theorem State.setPipe_freeCtr (s : State) (p : Nat) (x : Pipe) : (s.setPipe p x).freeCtr = s.freeCtr := rfl
@[simp] theorem State.setPipe_fns (s : State) (p : Nat) (x : Pipe) : (s.setPipe p x).fns = s.fns := rfl
@[simp] theorem State.setPipe_hif (s : State) (p : Nat) (x : Pipe) : (s.setPipe p x).hif = s.hif := rfl
@[simp] theorem State.setPipe_nss (s : State) (p : Nat) (x : Pipe) : (s.setPipe p x).nss = s.nss := rfl
@[simp] theorem State.setPipe_objs (s : State) (p : Nat) (x : Pipe) : (s.setPipe p x).objs = s.objs := rfl
@[simp] theorem State.setPipe_flash (s : State) (p : Nat) (x : Pipe) : (s.setPipe p x).flash = s.flash := rfl
@[simp] theorem State.setPipe_dram (s : State) (p : Nat) (x : Pipe) : (s.setPipe p x).dram = s.dram := rfl
@[simp] theorem State.setPipe_dmf (s : State) (p : Nat) (x : Pipe) : (s.setPipe p x).dmf = s.dmf := rfl
@[simp] theorem State.setPipe_dge (s : State) (p : Nat) (x : Pipe) : (s.setPipe p x).dge = s.dge := rfl
@[simp] theorem State.setPipe_cmp (s : State) (p : Nat) (x : Pipe) : (s.setPipe p x).cmp = s.cmp := rfl
@[simp] theorem State.setPipe_asu (s : State) (p : Nat) (x : Pipe) : (s.setPipe p x).asu = s.asu := rfl
@[simp] theorem State.setPipe_sca (s : State) (p : Nat) (x : Pipe) : (s.setPipe p x).sca = s.sca := rfl
@[simp] theorem State.setPipe_psm (s : State) (p : Nat) (x : Pipe) : (s.setPipe p x).psm = s.psm := rfl
@[simp] theorem State.setPipe_recd (s : State) (p : Nat) (x : Pipe) : (s.setPipe p x).recd = s.recd := rfl
@[simp] theorem State.setPipe_therm (s : State) (p : Nat) (x : Pipe) : (s.setPipe p x).therm = s.therm := rfl
@[simp] theorem State.setPipe_tap (s : State) (p : Nat) (x : Pipe) : (s.setPipe p x).tap = s.tap := rfl
@[simp] theorem State.setPipe_nvs (s : State) (p : Nat) (x : Pipe) : (s.setPipe p x).nvs = s.nvs := rfl
@[simp] theorem State.setPipe_swl (s : State) (p : Nat) (x : Pipe) : (s.setPipe p x).swl = s.swl := rfl

/-! ### State.updPage -/

@[simp] theorem State.updPage_pending (s : State) (p : Nat) (g : Page → Page) : (s.updPage p g).pending = s.pending := rfl
@[simp] theorem State.updPage_freeCtr (s : State) (p : Nat) (g : Page → Page) : (s.updPage p g).freeCtr = s.freeCtr := rfl
@[simp] theorem State.updPage_fns (s : State) (p : Nat) (g : Page → Page) : (s.updPage p g).fns = s.fns := rfl
@[simp] theorem State.updPage_hif (s : State) (p : Nat) (g : Page → Page) : (s.updPage p g).hif = s.hif := rfl
@[simp] theorem State.updPage_nss (s : State) (p : Nat) (g : Page → Page) : (s.updPage p g).nss = s.nss := rfl
@[simp] theorem State.updPage_objs (s : State) (p : Nat) (g : Page → Page) : (s.updPage p g).objs = s.objs := rfl
@[simp] theorem State.updPage_flash (s : State) (p : Nat) (g : Page → Page) : (s.updPage p g).flash = s.flash := rfl
@[simp] theorem State.updPage_dram (s : State) (p : Nat) (g : Page → Page) : (s.updPage p g).dram = s.dram := rfl
@[simp] theorem State.updPage_dmf (s : State) (p : Nat) (g : Page → Page) : (s.updPage p g).dmf = s.dmf := rfl
@[simp] theorem State.updPage_dge (s : State) (p : Nat) (g : Page → Page) : (s.updPage p g).dge = s.dge := rfl
@[simp] theorem State.updPage_cmp (s : State) (p : Nat) (g : Page → Page) : (s.updPage p g).cmp = s.cmp := rfl
@[simp] theorem State.updPage_asu (s : State) (p : Nat) (g : Page → Page) : (s.updPage p g).asu = s.asu := rfl
@[simp] theorem State.updPage_sca (s : State) (p : Nat) (g : Page → Page) : (s.updPage p g).sca = s.sca := rfl
@[simp] theorem State.updPage_psm (s : State) (p : Nat) (g : Page → Page) : (s.updPage p g).psm = s.psm := rfl
@[simp] theorem State.updPage_recd (s : State) (p : Nat) (g : Page → Page) : (s.updPage p g).recd = s.recd := rfl
@[simp] theorem State.updPage_therm (s : State) (p : Nat) (g : Page → Page) : (s.updPage p g).therm = s.therm := rfl
@[simp] theorem State.updPage_tap (s : State) (p : Nat) (g : Page → Page) : (s.updPage p g).tap = s.tap := rfl
@[simp] theorem State.updPage_nvs (s : State) (p : Nat) (g : Page → Page) : (s.updPage p g).nvs = s.nvs := rfl
@[simp] theorem State.updPage_swl (s : State) (p : Nat) (g : Page → Page) : (s.updPage p g).swl = s.swl := rfl

/-! ### State.setCtx -/

@[simp] theorem State.setCtx_pending (s : State) (i : Nat) (x : DgeCtx) : (s.setCtx i x).pending = s.pending := rfl
@[simp] theorem State.setCtx_freeCtr (s : State) (i : Nat) (x : DgeCtx) : (s.setCtx i x).freeCtr = s.freeCtr := rfl
@[simp] theorem State.setCtx_fns (s : State) (i : Nat) (x : DgeCtx) : (s.setCtx i x).fns = s.fns := rfl
@[simp] theorem State.setCtx_hif (s : State) (i : Nat) (x : DgeCtx) : (s.setCtx i x).hif = s.hif := rfl
@[simp] theorem State.setCtx_nss (s : State) (i : Nat) (x : DgeCtx) : (s.setCtx i x).nss = s.nss := rfl
@[simp] theorem State.setCtx_objs (s : State) (i : Nat) (x : DgeCtx) : (s.setCtx i x).objs = s.objs := rfl
@[simp] theorem State.setCtx_flash (s : State) (i : Nat) (x : DgeCtx) : (s.setCtx i x).flash = s.flash := rfl
@[simp] theorem State.setCtx_dram (s : State) (i : Nat) (x : DgeCtx) : (s.setCtx i x).dram = s.dram := rfl
@[simp] theorem State.setCtx_dmf (s : State) (i : Nat) (x : DgeCtx) : (s.setCtx i x).dmf = s.dmf := rfl
@[simp] theorem State.setCtx_cpe (s : State) (i : Nat) (x : DgeCtx) : (s.setCtx i x).cpe = s.cpe := rfl
@[simp] theorem State.setCtx_cmp (s : State) (i : Nat) (x : DgeCtx) : (s.setCtx i x).cmp = s.cmp := rfl
@[simp] theorem State.setCtx_asu (s : State) (i : Nat) (x : DgeCtx) : (s.setCtx i x).asu = s.asu := rfl
@[simp] theorem State.setCtx_sca (s : State) (i : Nat) (x : DgeCtx) : (s.setCtx i x).sca = s.sca := rfl
@[simp] theorem State.setCtx_psm (s : State) (i : Nat) (x : DgeCtx) : (s.setCtx i x).psm = s.psm := rfl
@[simp] theorem State.setCtx_recd (s : State) (i : Nat) (x : DgeCtx) : (s.setCtx i x).recd = s.recd := rfl
@[simp] theorem State.setCtx_therm (s : State) (i : Nat) (x : DgeCtx) : (s.setCtx i x).therm = s.therm := rfl
@[simp] theorem State.setCtx_tap (s : State) (i : Nat) (x : DgeCtx) : (s.setCtx i x).tap = s.tap := rfl
@[simp] theorem State.setCtx_nvs (s : State) (i : Nat) (x : DgeCtx) : (s.setCtx i x).nvs = s.nvs := rfl
@[simp] theorem State.setCtx_swl (s : State) (i : Nat) (x : DgeCtx) : (s.setCtx i x).swl = s.swl := rfl

/-! ### State.setPort2 -/

@[simp] theorem State.setPort2_pending (s : State) (k : Nat) (x : Option Port2Msg) : (s.setPort2 k x).pending = s.pending := rfl
@[simp] theorem State.setPort2_freeCtr (s : State) (k : Nat) (x : Option Port2Msg) : (s.setPort2 k x).freeCtr = s.freeCtr := rfl
@[simp] theorem State.setPort2_fns (s : State) (k : Nat) (x : Option Port2Msg) : (s.setPort2 k x).fns = s.fns := rfl
@[simp] theorem State.setPort2_hif (s : State) (k : Nat) (x : Option Port2Msg) : (s.setPort2 k x).hif = s.hif := rfl
@[simp] theorem State.setPort2_nss (s : State) (k : Nat) (x : Option Port2Msg) : (s.setPort2 k x).nss = s.nss := rfl
@[simp] theorem State.setPort2_objs (s : State) (k : Nat) (x : Option Port2Msg) : (s.setPort2 k x).objs = s.objs := rfl
@[simp] theorem State.setPort2_flash (s : State) (k : Nat) (x : Option Port2Msg) : (s.setPort2 k x).flash = s.flash := rfl
@[simp] theorem State.setPort2_dram (s : State) (k : Nat) (x : Option Port2Msg) : (s.setPort2 k x).dram = s.dram := rfl
@[simp] theorem State.setPort2_dmf (s : State) (k : Nat) (x : Option Port2Msg) : (s.setPort2 k x).dmf = s.dmf := rfl
@[simp] theorem State.setPort2_cpe (s : State) (k : Nat) (x : Option Port2Msg) : (s.setPort2 k x).cpe = s.cpe := rfl
@[simp] theorem State.setPort2_cmp (s : State) (k : Nat) (x : Option Port2Msg) : (s.setPort2 k x).cmp = s.cmp := rfl
@[simp] theorem State.setPort2_asu (s : State) (k : Nat) (x : Option Port2Msg) : (s.setPort2 k x).asu = s.asu := rfl
@[simp] theorem State.setPort2_sca (s : State) (k : Nat) (x : Option Port2Msg) : (s.setPort2 k x).sca = s.sca := rfl
@[simp] theorem State.setPort2_psm (s : State) (k : Nat) (x : Option Port2Msg) : (s.setPort2 k x).psm = s.psm := rfl
@[simp] theorem State.setPort2_recd (s : State) (k : Nat) (x : Option Port2Msg) : (s.setPort2 k x).recd = s.recd := rfl
@[simp] theorem State.setPort2_therm (s : State) (k : Nat) (x : Option Port2Msg) : (s.setPort2 k x).therm = s.therm := rfl
@[simp] theorem State.setPort2_tap (s : State) (k : Nat) (x : Option Port2Msg) : (s.setPort2 k x).tap = s.tap := rfl
@[simp] theorem State.setPort2_nvs (s : State) (k : Nat) (x : Option Port2Msg) : (s.setPort2 k x).nvs = s.nvs := rfl
@[simp] theorem State.setPort2_swl (s : State) (k : Nat) (x : Option Port2Msg) : (s.setPort2 k x).swl = s.swl := rfl

/-! ### State.setHeld -/

@[simp] theorem State.setHeld_pending (s : State) (i : Nat) (c : Option CmpCtx) : (s.setHeld i c).pending = s.pending := rfl
@[simp] theorem State.setHeld_freeCtr (s : State) (i : Nat) (c : Option CmpCtx) : (s.setHeld i c).freeCtr = s.freeCtr := rfl
@[simp] theorem State.setHeld_fns (s : State) (i : Nat) (c : Option CmpCtx) : (s.setHeld i c).fns = s.fns := rfl
@[simp] theorem State.setHeld_hif (s : State) (i : Nat) (c : Option CmpCtx) : (s.setHeld i c).hif = s.hif := rfl
@[simp] theorem State.setHeld_nss (s : State) (i : Nat) (c : Option CmpCtx) : (s.setHeld i c).nss = s.nss := rfl
@[simp] theorem State.setHeld_objs (s : State) (i : Nat) (c : Option CmpCtx) : (s.setHeld i c).objs = s.objs := rfl
@[simp] theorem State.setHeld_flash (s : State) (i : Nat) (c : Option CmpCtx) : (s.setHeld i c).flash = s.flash := rfl
@[simp] theorem State.setHeld_dram (s : State) (i : Nat) (c : Option CmpCtx) : (s.setHeld i c).dram = s.dram := rfl
@[simp] theorem State.setHeld_dmf (s : State) (i : Nat) (c : Option CmpCtx) : (s.setHeld i c).dmf = s.dmf := rfl
@[simp] theorem State.setHeld_cpe (s : State) (i : Nat) (c : Option CmpCtx) : (s.setHeld i c).cpe = s.cpe := rfl
@[simp] theorem State.setHeld_dge (s : State) (i : Nat) (c : Option CmpCtx) : (s.setHeld i c).dge = s.dge := rfl
@[simp] theorem State.setHeld_asu (s : State) (i : Nat) (c : Option CmpCtx) : (s.setHeld i c).asu = s.asu := rfl
@[simp] theorem State.setHeld_sca (s : State) (i : Nat) (c : Option CmpCtx) : (s.setHeld i c).sca = s.sca := rfl
@[simp] theorem State.setHeld_psm (s : State) (i : Nat) (c : Option CmpCtx) : (s.setHeld i c).psm = s.psm := rfl
@[simp] theorem State.setHeld_recd (s : State) (i : Nat) (c : Option CmpCtx) : (s.setHeld i c).recd = s.recd := rfl
@[simp] theorem State.setHeld_therm (s : State) (i : Nat) (c : Option CmpCtx) : (s.setHeld i c).therm = s.therm := rfl
@[simp] theorem State.setHeld_tap (s : State) (i : Nat) (c : Option CmpCtx) : (s.setHeld i c).tap = s.tap := rfl
@[simp] theorem State.setHeld_nvs (s : State) (i : Nat) (c : Option CmpCtx) : (s.setHeld i c).nvs = s.nvs := rfl
@[simp] theorem State.setHeld_swl (s : State) (i : Nat) (c : Option CmpCtx) : (s.setHeld i c).swl = s.swl := rfl

/-! ### State.setRow -/

@[simp] theorem State.setRow_pending (s : State) (t : Table) (e : Nat) (r : Option Row) : (s.setRow t e r).pending = s.pending := rfl
@[simp] theorem State.setRow_freeCtr (s : State) (t : Table) (e : Nat) (r : Option Row) : (s.setRow t e r).freeCtr = s.freeCtr := rfl
@[simp] theorem State.setRow_fns (s : State) (t : Table) (e : Nat) (r : Option Row) : (s.setRow t e r).fns = s.fns := rfl
@[simp] theorem State.setRow_hif (s : State) (t : Table) (e : Nat) (r : Option Row) : (s.setRow t e r).hif = s.hif := rfl
@[simp] theorem State.setRow_nss (s : State) (t : Table) (e : Nat) (r : Option Row) : (s.setRow t e r).nss = s.nss := rfl
@[simp] theorem State.setRow_objs (s : State) (t : Table) (e : Nat) (r : Option Row) : (s.setRow t e r).objs = s.objs := rfl
@[simp] theorem State.setRow_flash (s : State) (t : Table) (e : Nat) (r : Option Row) : (s.setRow t e r).flash = s.flash := rfl
@[simp] theorem State.setRow_dram (s : State) (t : Table) (e : Nat) (r : Option Row) : (s.setRow t e r).dram = s.dram := rfl
@[simp] theorem State.setRow_dmf (s : State) (t : Table) (e : Nat) (r : Option Row) : (s.setRow t e r).dmf = s.dmf := rfl
@[simp] theorem State.setRow_cpe (s : State) (t : Table) (e : Nat) (r : Option Row) : (s.setRow t e r).cpe = s.cpe := rfl
@[simp] theorem State.setRow_dge (s : State) (t : Table) (e : Nat) (r : Option Row) : (s.setRow t e r).dge = s.dge := rfl
@[simp] theorem State.setRow_cmp (s : State) (t : Table) (e : Nat) (r : Option Row) : (s.setRow t e r).cmp = s.cmp := rfl
@[simp] theorem State.setRow_sca (s : State) (t : Table) (e : Nat) (r : Option Row) : (s.setRow t e r).sca = s.sca := rfl
@[simp] theorem State.setRow_psm (s : State) (t : Table) (e : Nat) (r : Option Row) : (s.setRow t e r).psm = s.psm := rfl
@[simp] theorem State.setRow_recd (s : State) (t : Table) (e : Nat) (r : Option Row) : (s.setRow t e r).recd = s.recd := rfl
@[simp] theorem State.setRow_therm (s : State) (t : Table) (e : Nat) (r : Option Row) : (s.setRow t e r).therm = s.therm := rfl
@[simp] theorem State.setRow_tap (s : State) (t : Table) (e : Nat) (r : Option Row) : (s.setRow t e r).tap = s.tap := rfl
@[simp] theorem State.setRow_nvs (s : State) (t : Table) (e : Nat) (r : Option Row) : (s.setRow t e r).nvs = s.nvs := rfl
@[simp] theorem State.setRow_swl (s : State) (t : Table) (e : Nat) (r : Option Row) : (s.setRow t e r).swl = s.swl := rfl

/-! ### State.setScull -/

@[simp] theorem State.setScull_pending (s : State) (k : Nat) (c : Scull) : (s.setScull k c).pending = s.pending := rfl
@[simp] theorem State.setScull_freeCtr (s : State) (k : Nat) (c : Scull) : (s.setScull k c).freeCtr = s.freeCtr := rfl
@[simp] theorem State.setScull_fns (s : State) (k : Nat) (c : Scull) : (s.setScull k c).fns = s.fns := rfl
@[simp] theorem State.setScull_hif (s : State) (k : Nat) (c : Scull) : (s.setScull k c).hif = s.hif := rfl
@[simp] theorem State.setScull_nss (s : State) (k : Nat) (c : Scull) : (s.setScull k c).nss = s.nss := rfl
@[simp] theorem State.setScull_objs (s : State) (k : Nat) (c : Scull) : (s.setScull k c).objs = s.objs := rfl
@[simp] theorem State.setScull_flash (s : State) (k : Nat) (c : Scull) : (s.setScull k c).flash = s.flash := rfl
@[simp] theorem State.setScull_dram (s : State) (k : Nat) (c : Scull) : (s.setScull k c).dram = s.dram := rfl
@[simp] theorem State.setScull_dmf (s : State) (k : Nat) (c : Scull) : (s.setScull k c).dmf = s.dmf := rfl
@[simp] theorem State.setScull_cpe (s : State) (k : Nat) (c : Scull) : (s.setScull k c).cpe = s.cpe := rfl
@[simp] theorem State.setScull_dge (s : State) (k : Nat) (c : Scull) : (s.setScull k c).dge = s.dge := rfl
@[simp] theorem State.setScull_cmp (s : State) (k : Nat) (c : Scull) : (s.setScull k c).cmp = s.cmp := rfl
@[simp] theorem State.setScull_asu (s : State) (k : Nat) (c : Scull) : (s.setScull k c).asu = s.asu := rfl
@[simp] theorem State.setScull_psm (s : State) (k : Nat) (c : Scull) : (s.setScull k c).psm = s.psm := rfl
@[simp] theorem State.setScull_recd (s : State) (k : Nat) (c : Scull) : (s.setScull k c).recd = s.recd := rfl
@[simp] theorem State.setScull_therm (s : State) (k : Nat) (c : Scull) : (s.setScull k c).therm = s.therm := rfl
@[simp] theorem State.setScull_tap (s : State) (k : Nat) (c : Scull) : (s.setScull k c).tap = s.tap := rfl
@[simp] theorem State.setScull_nvs (s : State) (k : Nat) (c : Scull) : (s.setScull k c).nvs = s.nvs := rfl
@[simp] theorem State.setScull_swl (s : State) (k : Nat) (c : Scull) : (s.setScull k c).swl = s.swl := rfl

/-! ### State.updScull -/

@[simp] theorem State.updScull_pending (s : State) (k : Nat) (g : Scull → Scull) : (s.updScull k g).pending = s.pending := rfl
@[simp] theorem State.updScull_freeCtr (s : State) (k : Nat) (g : Scull → Scull) : (s.updScull k g).freeCtr = s.freeCtr := rfl
@[simp] theorem State.updScull_fns (s : State) (k : Nat) (g : Scull → Scull) : (s.updScull k g).fns = s.fns := rfl
@[simp] theorem State.updScull_hif (s : State) (k : Nat) (g : Scull → Scull) : (s.updScull k g).hif = s.hif := rfl
@[simp] theorem State.updScull_nss (s : State) (k : Nat) (g : Scull → Scull) : (s.updScull k g).nss = s.nss := rfl
@[simp] theorem State.updScull_objs (s : State) (k : Nat) (g : Scull → Scull) : (s.updScull k g).objs = s.objs := rfl
@[simp] theorem State.updScull_flash (s : State) (k : Nat) (g : Scull → Scull) : (s.updScull k g).flash = s.flash := rfl
@[simp] theorem State.updScull_dram (s : State) (k : Nat) (g : Scull → Scull) : (s.updScull k g).dram = s.dram := rfl
@[simp] theorem State.updScull_dmf (s : State) (k : Nat) (g : Scull → Scull) : (s.updScull k g).dmf = s.dmf := rfl
@[simp] theorem State.updScull_cpe (s : State) (k : Nat) (g : Scull → Scull) : (s.updScull k g).cpe = s.cpe := rfl
@[simp] theorem State.updScull_dge (s : State) (k : Nat) (g : Scull → Scull) : (s.updScull k g).dge = s.dge := rfl
@[simp] theorem State.updScull_cmp (s : State) (k : Nat) (g : Scull → Scull) : (s.updScull k g).cmp = s.cmp := rfl
@[simp] theorem State.updScull_asu (s : State) (k : Nat) (g : Scull → Scull) : (s.updScull k g).asu = s.asu := rfl
@[simp] theorem State.updScull_psm (s : State) (k : Nat) (g : Scull → Scull) : (s.updScull k g).psm = s.psm := rfl
@[simp] theorem State.updScull_recd (s : State) (k : Nat) (g : Scull → Scull) : (s.updScull k g).recd = s.recd := rfl
@[simp] theorem State.updScull_therm (s : State) (k : Nat) (g : Scull → Scull) : (s.updScull k g).therm = s.therm := rfl
@[simp] theorem State.updScull_tap (s : State) (k : Nat) (g : Scull → Scull) : (s.updScull k g).tap = s.tap := rfl
@[simp] theorem State.updScull_nvs (s : State) (k : Nat) (g : Scull → Scull) : (s.updScull k g).nvs = s.nvs := rfl
@[simp] theorem State.updScull_swl (s : State) (k : Nat) (g : Scull → Scull) : (s.updScull k g).swl = s.swl := rfl

/-! ### State.mbAnswer -/

@[simp] theorem State.mbAnswer_pending (s : State) (f : Nat) (p : MbResp) : (s.mbAnswer f p).pending = s.pending := rfl
@[simp] theorem State.mbAnswer_freeCtr (s : State) (f : Nat) (p : MbResp) : (s.mbAnswer f p).freeCtr = s.freeCtr := rfl
@[simp] theorem State.mbAnswer_hif (s : State) (f : Nat) (p : MbResp) : (s.mbAnswer f p).hif = s.hif := rfl
@[simp] theorem State.mbAnswer_nss (s : State) (f : Nat) (p : MbResp) : (s.mbAnswer f p).nss = s.nss := rfl
@[simp] theorem State.mbAnswer_objs (s : State) (f : Nat) (p : MbResp) : (s.mbAnswer f p).objs = s.objs := rfl
@[simp] theorem State.mbAnswer_flash (s : State) (f : Nat) (p : MbResp) : (s.mbAnswer f p).flash = s.flash := rfl
@[simp] theorem State.mbAnswer_dram (s : State) (f : Nat) (p : MbResp) : (s.mbAnswer f p).dram = s.dram := rfl
@[simp] theorem State.mbAnswer_dmf (s : State) (f : Nat) (p : MbResp) : (s.mbAnswer f p).dmf = s.dmf := rfl
@[simp] theorem State.mbAnswer_cpe (s : State) (f : Nat) (p : MbResp) : (s.mbAnswer f p).cpe = s.cpe := rfl
@[simp] theorem State.mbAnswer_dge (s : State) (f : Nat) (p : MbResp) : (s.mbAnswer f p).dge = s.dge := rfl
@[simp] theorem State.mbAnswer_cmp (s : State) (f : Nat) (p : MbResp) : (s.mbAnswer f p).cmp = s.cmp := rfl
@[simp] theorem State.mbAnswer_asu (s : State) (f : Nat) (p : MbResp) : (s.mbAnswer f p).asu = s.asu := rfl
@[simp] theorem State.mbAnswer_sca (s : State) (f : Nat) (p : MbResp) : (s.mbAnswer f p).sca = s.sca := rfl
@[simp] theorem State.mbAnswer_psm (s : State) (f : Nat) (p : MbResp) : (s.mbAnswer f p).psm = s.psm := rfl
@[simp] theorem State.mbAnswer_recd (s : State) (f : Nat) (p : MbResp) : (s.mbAnswer f p).recd = s.recd := rfl
@[simp] theorem State.mbAnswer_therm (s : State) (f : Nat) (p : MbResp) : (s.mbAnswer f p).therm = s.therm := rfl
@[simp] theorem State.mbAnswer_tap (s : State) (f : Nat) (p : MbResp) : (s.mbAnswer f p).tap = s.tap := rfl
@[simp] theorem State.mbAnswer_nvs (s : State) (f : Nat) (p : MbResp) : (s.mbAnswer f p).nvs = s.nvs := rfl
@[simp] theorem State.mbAnswer_swl (s : State) (f : Nat) (p : MbResp) : (s.mbAnswer f p).swl = s.swl := rfl

/-! ### State.mbHold -/

@[simp] theorem State.mbHold_pending (s : State) (f : Nat) : (s.mbHold f).pending = s.pending := rfl
@[simp] theorem State.mbHold_freeCtr (s : State) (f : Nat) : (s.mbHold f).freeCtr = s.freeCtr := rfl
@[simp] theorem State.mbHold_hif (s : State) (f : Nat) : (s.mbHold f).hif = s.hif := rfl
@[simp] theorem State.mbHold_nss (s : State) (f : Nat) : (s.mbHold f).nss = s.nss := rfl
@[simp] theorem State.mbHold_objs (s : State) (f : Nat) : (s.mbHold f).objs = s.objs := rfl
@[simp] theorem State.mbHold_flash (s : State) (f : Nat) : (s.mbHold f).flash = s.flash := rfl
@[simp] theorem State.mbHold_dram (s : State) (f : Nat) : (s.mbHold f).dram = s.dram := rfl
@[simp] theorem State.mbHold_dmf (s : State) (f : Nat) : (s.mbHold f).dmf = s.dmf := rfl
@[simp] theorem State.mbHold_cpe (s : State) (f : Nat) : (s.mbHold f).cpe = s.cpe := rfl
@[simp] theorem State.mbHold_dge (s : State) (f : Nat) : (s.mbHold f).dge = s.dge := rfl
@[simp] theorem State.mbHold_cmp (s : State) (f : Nat) : (s.mbHold f).cmp = s.cmp := rfl
@[simp] theorem State.mbHold_asu (s : State) (f : Nat) : (s.mbHold f).asu = s.asu := rfl
@[simp] theorem State.mbHold_sca (s : State) (f : Nat) : (s.mbHold f).sca = s.sca := rfl
@[simp] theorem State.mbHold_psm (s : State) (f : Nat) : (s.mbHold f).psm = s.psm := rfl
@[simp] theorem State.mbHold_recd (s : State) (f : Nat) : (s.mbHold f).recd = s.recd := rfl
@[simp] theorem State.mbHold_therm (s : State) (f : Nat) : (s.mbHold f).therm = s.therm := rfl
@[simp] theorem State.mbHold_tap (s : State) (f : Nat) : (s.mbHold f).tap = s.tap := rfl
@[simp] theorem State.mbHold_nvs (s : State) (f : Nat) : (s.mbHold f).nvs = s.nvs := rfl
@[simp] theorem State.mbHold_swl (s : State) (f : Nat) : (s.mbHold f).swl = s.swl := rfl

/-! ### State.storeShared -/

@[simp] theorem State.storeShared_pending (s : State) (k a : Nat) (w : TWord) : (s.storeShared k a w).pending = s.pending := rfl
@[simp] theorem State.storeShared_freeCtr (s : State) (k a : Nat) (w : TWord) : (s.storeShared k a w).freeCtr = s.freeCtr := rfl
@[simp] theorem State.storeShared_fns (s : State) (k a : Nat) (w : TWord) : (s.storeShared k a w).fns = s.fns := rfl
@[simp] theorem State.storeShared_hif (s : State) (k a : Nat) (w : TWord) : (s.storeShared k a w).hif = s.hif := rfl
@[simp] theorem State.storeShared_nss (s : State) (k a : Nat) (w : TWord) : (s.storeShared k a w).nss = s.nss := rfl
@[simp] theorem State.storeShared_objs (s : State) (k a : Nat) (w : TWord) : (s.storeShared k a w).objs = s.objs := rfl
@[simp] theorem State.storeShared_flash (s : State) (k a : Nat) (w : TWord) : (s.storeShared k a w).flash = s.flash := rfl
@[simp] theorem State.storeShared_dram (s : State) (k a : Nat) (w : TWord) : (s.storeShared k a w).dram = s.dram := rfl
@[simp] theorem State.storeShared_dmf (s : State) (k a : Nat) (w : TWord) : (s.storeShared k a w).dmf = s.dmf := rfl
@[simp] theorem State.storeShared_cpe (s : State) (k a : Nat) (w : TWord) : (s.storeShared k a w).cpe = s.cpe := rfl
@[simp] theorem State.storeShared_dge (s : State) (k a : Nat) (w : TWord) : (s.storeShared k a w).dge = s.dge := rfl
@[simp] theorem State.storeShared_cmp (s : State) (k a : Nat) (w : TWord) : (s.storeShared k a w).cmp = s.cmp := rfl
@[simp] theorem State.storeShared_asu (s : State) (k a : Nat) (w : TWord) : (s.storeShared k a w).asu = s.asu := rfl
@[simp] theorem State.storeShared_psm (s : State) (k a : Nat) (w : TWord) : (s.storeShared k a w).psm = s.psm := rfl
@[simp] theorem State.storeShared_recd (s : State) (k a : Nat) (w : TWord) : (s.storeShared k a w).recd = s.recd := rfl
@[simp] theorem State.storeShared_therm (s : State) (k a : Nat) (w : TWord) : (s.storeShared k a w).therm = s.therm := rfl
@[simp] theorem State.storeShared_tap (s : State) (k a : Nat) (w : TWord) : (s.storeShared k a w).tap = s.tap := rfl
@[simp] theorem State.storeShared_nvs (s : State) (k a : Nat) (w : TWord) : (s.storeShared k a w).nvs = s.nvs := rfl
@[simp] theorem State.storeShared_swl (s : State) (k a : Nat) (w : TWord) : (s.storeShared k a w).swl = s.swl := rfl

/-! ### Reads after updates -/

@[simp] theorem State.cmd_setCmd_self (s : State) (k : Nat) (x : Option Cmd) : (s.setCmd k x).cmd k = x := Mem.get_set_self _ _ _ _
theorem State.cmd_setCmd_other (s : State) {k j : Nat} (x : Option Cmd) (h : j ≠ k) : (s.setCmd k x).cmd j = s.cmd j := Mem.get_set_other _ _ _ h

@[simp] theorem State.ns_setNs_self (s : State) (k : Nat) (x : Option Ns) : (s.setNs k x).ns k = x := Mem.get_set_self _ _ _ _
theorem State.ns_setNs_other (s : State) {k j : Nat} (x : Option Ns) (h : j ≠ k) : (s.setNs k x).ns j = s.ns j := Mem.get_set_other _ _ _ h

@[simp] theorem State.chunk_setChunk_self (s : State) (k : Nat) (x : Option Chunk) : (s.setChunk k x).chunk k = x := Mem.get_set_self _ _ _ _
theorem State.chunk_setChunk_other (s : State) {k j : Nat} (x : Option Chunk) (h : j ≠ k) : (s.setChunk k x).chunk j = s.chunk j := Mem.get_set_other _ _ _ h

@[simp] theorem State.op_setOp_self (s : State) (k : Nat) (x : Option FlashOp) : (s.setOp k x).op k = x := Mem.get_set_self _ _ _ _
theorem State.op_setOp_other (s : State) {k j : Nat} (x : Option FlashOp) (h : j ≠ k) : (s.setOp k x).op j = s.op j := Mem.get_set_other _ _ _ h

@[simp] theorem State.ch_setCh_self (s : State) (k : Nat) (x : DmaCh) : (s.setCh k x).ch k = x := Mem.get_set_self _ _ _ _
theorem State.ch_setCh_other (s : State) {k j : Nat} (x : DmaCh) (h : j ≠ k) : (s.setCh k x).ch j = s.ch j := Mem.get_set_other _ _ _ h

@[simp] theorem State.slot_setSlot_self (s : State) (k : Nat) (x : Slot) : (s.setSlot k x).slot k = x := Mem.get_set_self _ _ _ _
theorem State.slot_setSlot_other (s : State) {k j : Nat} (x : Slot) (h : j ≠ k) : (s.setSlot k x).slot j = s.slot j := Mem.get_set_other _ _ _ h

@[simp] theorem State.pipe_setPipe_self (s : State) (k : Nat) (x : Pipe) : (s.setPipe k x).pipe k = x := Mem.get_set_self _ _ _ _
theorem State.pipe_setPipe_other (s : State) {k j : Nat} (x : Pipe) (h : j ≠ k) : (s.setPipe k x).pipe j = s.pipe j := Mem.get_set_other _ _ _ h

@[simp] theorem State.ctx_setCtx_self (s : State) (k : Nat) (x : DgeCtx) : (s.setCtx k x).ctx k = x := Mem.get_set_self _ _ _ _
theorem State.ctx_setCtx_other (s : State) {k j : Nat} (x : DgeCtx) (h : j ≠ k) : (s.setCtx k x).ctx j = s.ctx j := Mem.get_set_other _ _ _ h

@[simp] theorem State.heldCtx_setHeld_self (s : State) (k : Nat) (x : Option CmpCtx) : (s.setHeld k x).heldCtx k = x := Mem.get_set_self _ _ _ _
theorem State.heldCtx_setHeld_other (s : State) {k j : Nat} (x : Option CmpCtx) (h : j ≠ k) : (s.setHeld k x).heldCtx j = s.heldCtx j := Mem.get_set_other _ _ _ h

@[simp] theorem State.scull_setScull_self (s : State) (k : Nat) (x : Scull) : (s.setScull k x).scull k = x := Mem.get_set_self _ _ _ _
theorem State.scull_setScull_other (s : State) {k j : Nat} (x : Scull) (h : j ≠ k) : (s.setScull k x).scull j = s.scull j := Mem.get_set_other _ _ _ h

/-- A function reads as it was changed, and every other function as before. -/
@[simp] theorem State.fn_updFn_self (s : State) (f : Nat) (g : Fn → Fn) : (s.updFn f g).fn f = g (s.fn f) := Mem.get_set_self _ _ _ _

theorem State.fn_updFn_other (s : State) {f k : Nat} (g : Fn → Fn) (h : k ≠ f) : (s.updFn f g).fn k = s.fn k := Mem.get_set_other _ _ _ h

/-- A mailbox reads as it was changed. -/
@[simp] theorem State.mb_updMb_self (s : State) (f : Nat) (g : Mbox → Mbox) : (s.updMb f g).mb f = g (s.mb f) := by
  simp [State.updMb, State.mb]

/-- A scull reads as it was changed, and every other scull as before. -/
@[simp] theorem State.scull_updScull_self (s : State) (k : Nat) (g : Scull → Scull) : (s.updScull k g).scull k = g (s.scull k) :=
  Mem.get_set_self _ _ _ _

theorem State.scull_updScull_other (s : State) {k j : Nat} (g : Scull → Scull) (h : j ≠ k) : (s.updScull k g).scull j = s.scull j :=
  Mem.get_set_other _ _ _ h

end Sys2Proof.Machine
end

