-- ==== Sys2Proof/WellFormed.lean ====
section
/-! DEFINITION. Well-formed commands: every operand within the range that its rule gives. -/

namespace Sys2Proof

/-- A function, 0 to 127 (R125). -/
def fnOk (f : Nat) : Bool := decide (f < 128)

/-- A withdrawable instance that the device has (R12, R545). -/
def instanceOk : Instance → Bool
  | .cpe n | .decomp n | .asu n | .dma n => decide (n < 8)
  | .dge n | .comp n | .sae n => decide (n < 4)
  | .flash n => decide (n < 16)

/-- A submitter of the cipher engine: 0 media path, 1 SAE, 2 cox pair C, 3 to 6 the scull ports, 16 to 19 the privileged pages (R362). -/
def submitterOk (n : Nat) : Bool := decide (n ≤ 6 ∨ (16 ≤ n ∧ n ≤ 19))

/-- A component identifier: a subsystem of R12, and bits [15:13] zero (R13). -/
def compOk (c : Nat) : Bool := decide (c / 256 ≤ 0x10)

/-- A fault that a checker of the device finds (R12, R26). -/
def faultOk (b : Option TagFault) : Bool := match b with | some x => compOk x.component | none => true

/-- A submission entry: the data it describes fits a 64-bit address space. -/
def sqeOk (e : Sqe) : Bool := decide (e.dptr < 2 ^ 64 ∧ e.mptr < 2 ^ 64)

/-- A Sweep frame header: its fields within their widths (R572). -/
def frameOk (fr : Frame) : Bool := decide (fr.seq < 2 ^ 32 ∧ fr.ackSeq < 2 ^ 32 ∧ fr.keyNo < 2 ^ 32 ∧ fr.unitNo < 2 ^ 48)

/-- A DMC request: a port, a length of whole lines, and data of that length for a write (R289). -/
def dramReqOk (r : DramReq) : Bool := decide (1 ≤ r.len) && (!r.isWrite || r.data.length == r.len)

/-- A register that exists (R126, R198, R327, R340, R385, R380). -/
def regOk : Reg → Bool
  | .mbRequest f off | .mbResponse f off => fnOk f && decide (off < 4096)
  | .mbReserved f off => fnOk f && decide (off < 0x1FF4)
  | .mbStatus f | .mbIrq f | .aqa f | .asq f | .acq f | .cap f | .vs f | .csts f | .devControl f | .powerState f => fnOk f
  | .aerStatus port => decide (port < 2)
  | .aerHeader port dword => decide (port < 2 ∧ dword < 4)
  | .msixTable f index dword => fnOk f && decide (index < 2048 ∧ dword < 4)
  | .msixPba f index => fnOk f && decide (index < 32)
  | .dmfHead ch | .dmfState ch => decide (ch < 256)
  | .auReqCfg inst _ | .auState inst => decide (inst < 91)
  | .dgeExpect ctx index | .dgeResult ctx index => decide (ctx < 1024 ∧ index < 8)
  | .dgeStatus ctx => decide (ctx < 1024)
  | .pgEntry page index _ | .pgCompletion page index _ => decide (page < 4 ∧ index < 8)
  | .pgStatus page _ => decide (page < 4)

/-- Every operand of the command is within its range. -/
def Instr.wf : Instr → Bool
  | .sqTailDoorbell f qid tail => fnOk f && decide (qid ≤ 1024) && decide (tail < 65536)
  | .cqHeadDoorbell f qid head => fnOk f && decide (qid ≤ 1024) && decide (head < 65536)
  | .fetchDecision reads => reads.all sqeOk
  | .acceptance | .completionPost _ | .granuleCommit _ _ | .read _ | .writeZeroes _ | .compare _ _ | .verify _ | .flush _
  | .abort _ | .formatNvm _ | .sanitize _ | .namespaceCreate _ _ | .namespaceDelete _ | .createIoSq _ | .createIoCq _
  | .deleteIoSq _ | .deleteIoCq _ | .identify _ | .getLogPage _ | .getFeatures _ | .setFeaturesVolatileWriteCache _
  | .setFeaturesNumberOfQueues _ | .setFeaturesTimestamp _ _ _ | .setFeaturesTemperatureThreshold _ | .asynchronousEventRequest _
  | .deviceSelfTest _ | .virtualizationManagement _ | .nvmeMiSend _ _ | .nvmeMiReceive _ | .reservationRegister _ _ _
  | .reservationReport _ | .reservationAcquire _ _ _ | .reservationRelease _ _ | .firmwareImageDownload _ _ | .firmwareCommit _
  | .firmwareCommitActivate _ | .mailboxSend _ _ | .mailboxReceive _ | .sampleIndexLoad _ _ | .objectSeal _ | .objectQuery _
  | .objectDelete _ | .viewReadFragment _ _ | .viewReadInitSegment _ _ | .viewReadByteRange _ _ | .viewSizeFragment _
  | .viewSizeInitSegment _ | .viewSizeByteRange _ | .hookRequest _ | .hookReply _ | .configCommitApply _ | .trialExpire
  | .tokenTick | .flashReadComplete _ _ | .ladderRungRead _ _ | .flashProgramComplete _ _ | .flashEraseComplete _ _
  | .programSuspend _ | .disturbCheckpoint | .hotPromote _ | .sketchHalving | .journalProgram | .mapCheckpoint | .readOnlyCleared
  | .flashDiscovery _ _ | .journalReplay | .rowDisturbWindow | .zqCalibration | .mr4Read _ | .dramBringup _ | .cpeDispatch
  | .rngHealthFail _ | .indexUpdate _ _ _ | .indexSearch _ _ _ | .programInvoke _ _ | .filteredRead _ | .supplyFailWarning _
  | .nvWriteFence _ _ | .drainComplete _ _ | .mainValid _ | .aonSwitchover | .aonSwitchback | .aonPowerUp _ | .aonLoss | .porN
  | .holdupTestStart _ _ | .holdupPhaseB _ | .holdupTestEnd _ _ | .restEntry | .restExit | .safeDrainComplete _ | .eventRecordWrite
  | .hourCounterTick | .counterMirror | .extest | .idcode | .samplePreload _ | .highz | .clamp | .bypass | .helloSend
  | .heartbeatSend | .rekeyStart | .goBackNResend | .linkLost _ | .pairUpIn _ | .porNRise _ | .setFeaturesArbitration _
  | .nvmeMiOverSmbus _ | .trstN => true
  | .write _ _ bad | .essenceAppend _ _ bad | .transformCompress _ _ _ bad | .transformDecompress _ _ bad
  | .transformDigest _ _ bad | .transformEncrypt _ _ bad | .transformDecrypt _ _ bad => faultOk bad
  | .datasetManagement _ ranges => decide (ranges.length ≤ 256)
  | .namespaceAttach _ ctrls | .namespaceDetach _ ctrls => decide (ctrls.length ≤ 2047)
  | .fwActivation failed _ => (match failed with | some p => decide (p < 3) | none => true)
  | .ccEnClear f | .ccEnSet f _ | .nvmSubsystemReset f | .functionLevelReset f | .generationAdvance f _ | .mailboxRing f
  | .mailboxResponse f | .nonceExpire f | .mbIdStatus f | .mbFwStatus f | .mbEcho f | .mbConfigStatus f | .mbConfigStage f
  | .mbConfigRead f | .mbConfigCommit f | .mbConfigConfirm f | .mbConfigRollback f | .mbConfigFactory f | .mbTenantStatus f
  | .mbTenantRate f | .mbMigDirtyStart f | .mbMigDirtyHarvest f | .mbMigDirtyStop f | .mbMigQuiesce f | .mbMigResume f
  | .mbMigSave f | .mbMigRestore f | .mbKeyImport f | .mbKeyErase f | .mbKeyStatus f | .mbKekImport f | .mbProfileLoadPackaging f
  | .mbProfileLoadEncryption f | .mbProfileUnload f | .mbProfileStatus f | .mbProgramLoadJeriec f | .mbProgramLoadLx720 f
  | .mbProgramUnload f | .mbProgramStatus f | .mbTableCreate f | .mbTableDelete f | .mbTableStatus f | .mbEvtRead f | .mbEvtClear f
  | .mbEvtTimemark f _ | .mbSafetyStatus f | .mbAuthChallenge f | .mbMaintEnter f | .mbMaintExit f | .diagHoldup f _ _ _
  | .diagClock f _ | .diagMramScrub f _ _ | .diagSplMarch f _ | .mbDramProfile f | .mbFlashProfile f | .mbPairStatus f
  | .mbPairJoin f | .mbPairLeave f => fnOk f
  | .vfDisable pf => decide (pf < 2)
  | .pciePerstAssert port | .pcieUncorrectable port _ _ | .hostRefclkLost port | .hostRefclkReturn port => decide (port < 2)
  | .linkTraining port width speed => decide (port < 2) && decide (width ≤ 8) && decide (1 ≤ speed ∧ speed ≤ 6)
  | .chunkRefsRelease nsid _ | .chunkFingerprint nsid _ _ | .verifyCompare nsid _ _ _ | .resyncCopy nsid _ => decide (nsid < 1025)
  | .profileVersionFree f kind num _ => fnOk f && decide (kind < 2) && decide (num < 256)
  | .keySlotSettle slot => decide (slot < 4096)
  | .programFree f handle | .invocationStart f handle => fnOk f && decide (1 ≤ handle ∧ handle ≤ 65535)
  | .diagEngineSweep f failed => fnOk f && failed.all instanceOk
  | .dieFailed die _ | .writeStopReadOnly die => decide (die < 512)
  | .fold q | .gcStart q | .wearLevelRelocate q => decide (q < 128)
  | .readDisturbRelocate q sb | .patrolScan q sb _ _ => decide (q < 128) && decide (sb < 131072)
  | .dramRequest r => dramReqOk r
  | .refresh ch rank bank _ => decide (ch < 2) && decide (rank < 4) && decide (bank < 32)
  | .scrubRead ch rank _ _ | .spareInit ch rank _ => decide (ch < 2) && decide (rank < 4)
  | .rankMigrated ch _ _ | .selfRefreshEntry ch _ _ => decide (ch < 2)
  | .channelRing ch | .channelClear ch | .descriptorComplete ch _ | .jobVerdict ch _ => decide (ch < 256)
  | .auRound inst _ | .auCommit inst => decide (inst < 91)
  | .upstreamFail ch producer => decide (ch < 256) && compOk producer
  | .forceOff domain | .domainPowerDown domain | .clockFault domain _ => decide (domain < 9)
  | .port0DmaRequest k | .port1CipherRequest k | .port2DigestRequest k | .port4Search k _ | .port4Update k _
  | .invocationFaultEnd k | .budget k | .interruptEntry k | .timerExpiry k | .ldl k _ _ _ | .stl k _ _ | .ldx k _ _ _ _
  | .stx k _ _ _ | .movi k _ _ | .beqz k _ _ | .bnez k _ _ | .bltz k _ _ | .bgez k _ _ | .add k _ _ | .sub k _ _ | .mul k _ _
  | .div k _ _ | .rem k _ _ | .and k _ _ | .or k _ _ | .xor k _ _ | .shl k _ _ | .shr k _ _ | .sar k _ _ | .min k _ _ | .max k _ _
  | .extb k _ _ | .mkpair k _ _ | .not k _ _ | .addi k _ _ | .shli k _ _ | .shri k _ _ | .sari k _ _ | .ld k _ _ _ _ _
  | .st k _ _ _ _ | .setdpg k _ | .acshr k _ _ | .rep k _ | .repDr k _ | .setxpg k _ | .jmpr k _ | .setiv k _ | .acadd k _ _
  | .freew k _ | .restrict k _ _ | .trap k _ | .nop k | .endInv k | .reti k | .ei k | .di k | .acclr k _ | .send k _ _ _
  | .recv k _ _ _ | .beq k _ _ _ | .bne k _ _ _ | .blt k _ _ _ | .bge k _ _ _ | .bltu k _ _ _ | .bgeu k _ _ _ | .bteq k _ _ _
  | .btne k _ _ _ | .movw k _ _ | .movt k _ _ | .brdy k _ _ _ | .retag k _ _ | .ldp k _ _ _ _ | .stp k _ _ _ | .lda k _ _ _ _ _
  | .sta k _ _ _ _ | .aadd k _ _ | .narrow k _ _ | .gettag k _ _ | .aoff k _ _ | .arem k _ _ | .mac k _ _ _ | .progParity k => decide (k < 32)
  | .cpeRequest submitter _ => submitterOk submitter
  | .cpeSliceEnd p | .cpeRequestComplete p _ | .drbgReseed p _ => decide (p < 8)
  | .cpePgGo page _ | .pageViolation page _ _ => decide (page < 4)
  | .cpePgKey page k _ key _ => decide (page < 4) && decide (k < 4) && decide (key.length ≤ 64)
  | .dgeCtxCfg ctx _ _ | .dgeCtxData ctx _ | .dgeCtxLastData ctx _ | .dgeCtxLastCnt ctx _ => decide (ctx < 1024)
  | .dgeContextSwitch p save restore _ => decide (p < 4) && decide (save < 1024) && decide (restore < 1024)
  | .cmpContextExpired ctx => decide (ctx < 64)
  | .port3CompressionRequest k _ bad => decide (k < 32) && faultOk bad
  | .asuSelftest group _ _ => decide (group < 8)
  | .jmp k w | .call k _ w | .mkcode k _ w => decide (k < 32) && decide (w.toNat < 8192)
  | .mov k r s => decide (k < 32) && decide (r.toNat < 14) && decide (s.toNat < 14)
  | .rdspr k _ code => decide (k < 32) && decide (code.toNat < 10)
  | .flashWpAssert ch => decide (ch < 16)
  | .bootComplete failed => failed.all instanceOk
  | .railLimitTrip rail _ _ _ => decide (rail < 5)
  | .safeHaltEntered _ component _ => compOk component
  | .coxLockstep pair _ => decide (pair < 3)
  | .engineSelftest i _ _ => instanceOk i
  | .thermalSample kelvin => (kelvin.length == 8)
  | .hello fr _ | .unit fr _ | .held fr | .heartbeat fr _ | .rekey fr _ | .leave fr => frameOk fr
  | .command fr cid e => frameOk fr && decide (cid < 65536) && sqeOk e
  | .completion fr _ _ _ cid => frameOk fr && decide (cid < 65536)
  | .registerWrite r _ => regOk r
  | .vfEnable pf num => decide (pf < 2) && decide (num ≤ 126)

end Sys2Proof
end

