-- ==== Sys2Proof/Tests/Slice0.lean ====
section
/-! SUPPORT. The model's own tests: the smoke tests of well-formedness, a few words written out from the spec's encodings, and a witness for
every clause of a statement that has hypotheses. -/

set_option linter.unusedVariables false

open Sys2Proof Sys2Proof.Machine

namespace Sys2Proof.Tests

set_option Elab.async false

/-! ### Well-formedness: an ill-formed command for each check, refused -/

/-- An entry whose data pointer lies outside the address space, and one within it. -/
def wSqeBad : Sqe := { admin := true, opcode := 2, cid := 1, nsid := 0, dptr := 2 ^ 64 }
def wSqeGood : Sqe := { wSqeBad with dptr := 2 ^ 64 - 1 }

theorem test_wf_fn_range : (Instr.wf (.ccEnClear 128) = false) := by decide +kernel
theorem test_wf_queue_id : (Instr.wf (.sqTailDoorbell 0 1025 0) = false) := by decide +kernel
theorem test_wf_queue_tail : (Instr.wf (.sqTailDoorbell 0 1024 65536) = false) := by decide +kernel
theorem test_wf_cq_head : (Instr.wf (.cqHeadDoorbell 128 0 0) = false) := by decide +kernel
theorem test_wf_sqe_address : (Instr.wf (.fetchDecision [wSqeBad]) = false) := by decide +kernel
theorem test_wf_dsm_ranges : (Instr.wf (.datasetManagement 5 (List.replicate 257 { attr := 0, len := 0, slba := 0 })) = false) := by decide +kernel
theorem test_wf_controller_list : (Instr.wf (.namespaceAttach 5 (List.replicate 2048 0)) = false) := by decide +kernel
theorem test_wf_fw_port : (Instr.wf (.fwActivation (some 3) 0) = false) := by decide +kernel
theorem test_wf_vf_pf : (Instr.wf (.vfDisable 2) = false) := by decide +kernel
theorem test_wf_vf_count : (Instr.wf (.vfEnable 0 127) = false) := by decide +kernel
theorem test_wf_port : (Instr.wf (.hostRefclkLost 2) = false) := by decide +kernel
theorem test_wf_link_width : (Instr.wf (.linkTraining 0 9 6) = false) := by decide +kernel
theorem test_wf_link_speed : (Instr.wf (.linkTraining 1 8 7) = false) := by decide +kernel
theorem test_wf_nsid : (Instr.wf (.resyncCopy 1025 0) = false) := by decide +kernel
theorem test_wf_profile_number : (Instr.wf (.profileVersionFree 0 0 256 1) = false) := by decide +kernel
theorem test_wf_key_slot : (Instr.wf (.keySlotSettle 4096) = false) := by decide +kernel
theorem test_wf_program_handle : (Instr.wf (.programFree 0 0) = false) := by decide +kernel
theorem test_wf_diag_instance : (Instr.wf (.diagEngineSweep 0 [.dge 4]) = false) := by decide +kernel
theorem test_wf_die : (Instr.wf (.writeStopReadOnly 512) = false) := by decide +kernel
theorem test_wf_quad : (Instr.wf (.fold 128) = false) := by decide +kernel
theorem test_wf_superblock : (Instr.wf (.readDisturbRelocate 127 131072) = false) := by decide +kernel
theorem test_wf_dram_request : (Instr.wf (.dramRequest { port := 0, isWrite := true, addr := 0, len := 3, data := [1], alerts := 0 }) = false) := by decide +kernel
theorem test_wf_bank : (Instr.wf (.refresh 1 3 32 .issue) = false) := by decide +kernel
theorem test_wf_rank : (Instr.wf (.spareInit 1 4 none) = false) := by decide +kernel
theorem test_wf_dram_channel : (Instr.wf (.selfRefreshEntry 2 true true) = false) := by decide +kernel
theorem test_wf_dma_channel : (Instr.wf (.channelRing 256) = false) := by decide +kernel
theorem test_wf_arbiter : (Instr.wf (.auCommit 91) = false) := by decide +kernel
theorem test_wf_domain : (Instr.wf (.forceOff 9) = false) := by decide +kernel
theorem test_wf_scull : (Instr.wf (.nop 32) = false) := by decide +kernel
theorem test_wf_submitter : (Instr.wf (.cpeRequest 7 0) = false) := by decide +kernel
theorem test_wf_pipeline : (Instr.wf (.cpeSliceEnd 8) = false) := by decide +kernel
theorem test_wf_page : (Instr.wf (.cpePgGo 4 0) = false) := by decide +kernel
theorem test_wf_page_key : (Instr.wf (.cpePgKey 3 4 3 [] 0) = false) := by decide +kernel
theorem test_wf_dge_context : (Instr.wf (.dgeCtxData 1024 0) = false) := by decide +kernel
theorem test_wf_dge_pipeline : (Instr.wf (.dgeContextSwitch 4 0 1 true) = false) := by decide +kernel
theorem test_wf_cmp_context : (Instr.wf (.cmpContextExpired 64) = false) := by decide +kernel
theorem test_wf_bank_group : (Instr.wf (.asuSelftest 8 0 true) = false) := by decide +kernel
theorem test_wf_code_word : (Instr.wf (.jmp 0 8192) = false) := by decide +kernel
theorem test_wf_register : (Instr.wf (.mov 0 14 0) = false) := by decide +kernel
theorem test_wf_special_register : (Instr.wf (.rdspr 0 0 10) = false) := by decide +kernel
theorem test_wf_flash_channel : (Instr.wf (.flashWpAssert 16) = false) := by decide +kernel
theorem test_wf_boot_instance : (Instr.wf (.bootComplete [.cpe 8]) = false) := by decide +kernel
theorem test_wf_rail : (Instr.wf (.railLimitTrip 5 0 0 true) = false) := by decide +kernel
theorem test_wf_cox_pair : (Instr.wf (.coxLockstep 3 0) = false) := by decide +kernel
theorem test_wf_selftest_instance : (Instr.wf (.engineSelftest (.flash 16) true 0) = false) := by decide +kernel
theorem test_wf_sensors : (Instr.wf (.thermalSample [300]) = false) := by decide +kernel
theorem test_wf_frame : (Instr.wf (.held { seq := 4294967296 }) = false) := by decide +kernel
theorem test_wf_command_cid : (Instr.wf (.command { seq := 0 } 65536 wSqeGood) = false) := by decide +kernel
theorem test_wf_completion_cid : (Instr.wf (.completion { seq := 0 } .success 0 0 65536) = false) := by decide +kernel
theorem test_wf_register_place : (Instr.wf (.registerWrite (.dmfHead 256) 0) = false) := by decide +kernel
theorem test_wf_good_1 : (Instr.wf (.sqTailDoorbell 127 1024 65535) = true) := by decide +kernel
theorem test_wf_good_2 : (Instr.wf (.linkTraining 1 8 6) = true) := by decide +kernel
theorem test_wf_good_3 : (Instr.wf (.refresh 1 3 31 .issue) = true) := by decide +kernel
theorem test_wf_good_4 : (Instr.wf (.mov 31 13 13) = true) := by decide +kernel
theorem test_wf_good_5 : (Instr.wf (.registerWrite (.auState 90) 0) = true) := by decide +kernel

/-! ### Words of the JERIEC instruction set, written out from the encodings and worked examples of spec/13_jeriec_isa.md -/

theorem test_decode_movi : jeriecDecode 0x2330 0 = some (.movi 3 48) := by decide +kernel
theorem test_decode_ldp : jeriecDecode 0x3E01 0 = some (.ldp 0 1) := by decide +kernel
theorem test_decode_acadd : jeriecDecode 0x35A0 0 = some (.acadd 0 0) := by decide +kernel
theorem test_decode_addi : jeriecDecode 0x307F 0 = some (.addi 3 31) := by decide +kernel
theorem test_decode_bnez : jeriecDecode 0x29BC 0 = some (.bnez 3 28) := by decide +kernel
theorem test_decode_mov : jeriecDecode 0x3C2C 0 = some (.mov 2 12) := by decide +kernel
theorem test_decode_acclr : jeriecDecode 0x35E5 0 = some (.acclr 0) := by decide +kernel

/-- An outcome that is fine is known by what it holds. -/
theorem decOkEq {ε α : Type} (x : Except ε α) (a : α) (h : x.toOption = some a) : x = .ok a := by
  cases x <;> simp_all [Except.toOption]

/-- What a read that is complete returns. -/
theorem someSome {α : Type} (x : Option (Option α)) (h : (x.bind id).isSome = true) : x = some (some ((x.bind id).get h)) := by
  cases x with
  | none => simp at h
  | some y => cases y with
    | none => simp at h
    | some z => rfl

/-! Small states for the witnesses. -/

/-- An entry with an opcode on NSID 1. -/
def wSqe (admin : Bool) (op : Nat) : Sqe := { admin := admin, opcode := BitVec.ofNat 8 op, cid := 9, nsid := 1 }

/-- A tenant entry of function 0. -/
def wTenant : Tenant :=
  { func := 0, ioQueues := 4, flightCap := 8, keyBase := 0, keyCount := 8, scullMask := 0xFF, dmaMask := 0xFF, asuQuota := 4
    capacityGib := 1, objectQuota := 8, chiveQuota := 8 }

/-- SERVICE, with function 0 enabled, its queues 1, and a block namespace 1 of 8 blocks attached to it. -/
def wHost : State :=
  { psm := { mode := .service, holdup := { volat := false } }
    fns := [(0, { present := true, en := true, rdy := true })]
    nvs := { tenants := [wTenant] }
    nss := { ns := [(1, some { object := false, blocks := 8, keyOwner := some 0, attached := some 0 })] }
    hif := { sqs := [(0, some { size := 8, cq := 0 }), (1, some { size := 8, cq := 1 })]
             cqs := [(0, some { size := 8 }), (1, some { size := 8 })], link := [(0, true)] } }

/-- A command of queue 1 of function 0, on an entry. -/
def wCmd (e : Sqe) : Cmd := { func := 0, sq := if e.admin then 0 else 1, sqe := e }

/-- `wHost` with command 5 at work. -/
def wAt (e : Sqe) : State := wHost.setCmd 5 (some (wCmd e))

/-- `wHost` with command 5 finished. -/
def wDone : State := wHost.setCmd 5 (some { wCmd (wSqe false 2) with result := some { status := .success } })

/-- The namespace of `wHost`. -/
def wNs : Ns := { object := false, blocks := 8, keyOwner := some 0, attached := some 0 }

/-- The namespace of `wHost` with function 0 registered under key 7. -/
def wReg : Ns := { wNs with resv := { regs := [(0, 7)] } }

/-- A request of a mailbox command with a payload. -/
def wReq (cmd : Nat) (p : Bytes) : Bytes := leBytes 2 cmd ++ leBytes 2 1 ++ leBytes 2 p.length ++ leBytes 10 0 ++ p

/-- A state whose mailbox 0 has taken a request. -/
def wBoxIn (s : State) (cmd : Nat) (p : Bytes) : State := s.updMb 0 (fun m => { m with state := .busy, taken := wReq cmd p })

/-- `wHost` whose mailbox 0 has taken a request. -/
def wBox (cmd : Nat) (p : Bytes) : State := wBoxIn wHost cmd p

/-- What evaluates to true holds. -/
theorem holds {p : Prop} [Decidable p] (h : decide p = true := by decide +kernel) : p := of_decide_eq_true h

/-- The mailbox is ready when each of its parts says so. -/
theorem readyOf (s : State) (f cmd : Nat) (h : (s.psm.mode.mailbox && (s.psm.mode != .rest) && ((s.psm.mode != .safeHalt) || (mbHaltOk cmd && decide (f < 2))) &&
    !s.coxDown && decide (s.mbRunning < 16) && (s.mb f).orphans.isEmpty && ((s.mb f).state == .busy) && (s.mb f).prepared.isNone &&
    !(s.mb f).waiting && !(s.mb f).unchecked && (mbCmd (s.mb f).taken == cmd)) = true) : s.MbReady f cmd := by
  constructor <;> simp_all

/-- An object namespace of function 0. -/
def wObjNs : Ns := { object := true, blocks := 8, keyOwner := some 0, attached := some 0 }

/-- `wHost` with an object namespace 1 and command 5 at work on it. -/
def wObjAt (e : Sqe) : State := { wAt e with nss := { ns := [(1, some wObjNs)] } }

/-- Object 1 of namespace 1, open and empty. -/
def wObj : Obj := { nsid := 1, oid := 1, func := 0 }

/-- An entry with an opcode on object 1 of NSID 1. -/
def wSqo (op : Nat) : Sqe := { wSqe false op with cdw10 := 1 }

/-- A state that holds the object. -/
def wHeld (s : State) (plain : Bool := false) (shut : Bool := false) : State :=
  { s with objs := { s.objs with objects := [{ wObj with plain := plain, isSealed := shut }] } }

/-- A stored chunk of one byte, and an object that refers to it. -/
def wChunk : Chunk := { func := 0, len := 1, exts := [] }
def wObj1 : Obj := { wObj with chunks := [{ chunk := 1 }] }

/-- An object under seal, with a Chive table. -/
def wSealing (t : List Chive) : State :=
  { wHost.setCmd 5 (some { wCmd (wSqo 0x88) with moved := true }) with
    objs := { objects := [wObj1], chunks := [(1, some wChunk)], chive := t } }

/-- An object whose chunk waits for a comparison with chunk 2, both read. -/
def wCompare (d : Bytes) : State :=
  let s1 := { wHost with nss := { wHost.nss with staged := [(.chunk 1, chunkKey 1 0, some [1]), (.chunk 1, chunkKey 2 0, some d)] } }
  { s1 with objs := { objects := [{ wObj with chunks := [{ chunk := 1, verifyWith := some 2 }] }], chunks := [(1, some wChunk), (2, some wChunk)] } }

/-- A value that is fine. -/
def okOf {ε α : Type} (x : Except ε α) (h : x.toOption.isSome = true) : α := x.toOption.get h
theorem okOf_eq {ε α : Type} (x : Except ε α) (h : x.toOption.isSome = true) : x = .ok (okOf x h) := by
  cases x with
  | error e => simp [Except.toOption] at h
  | ok a => simp [okOf, Except.toOption]

/-- A sample index of one fragment of one sample of no bytes. -/
def wIdx : Bytes := padTo 24 [] ++ leBytes 4 1 ++ leBytes 4 1 ++ padTo 24 [] ++ leBytes 4 96 ++ leBytes 4 128 ++ padTo 80 []

/-- A packaging record of KIND 0 that names hook program 3 in a mode. -/
def wPkg (hook : Nat) : Bytes := [0, 0, byteOf hook] ++ padTo 21 [] ++ leBytes 2 3 ++ padTo 334 []

/-- Object 1, sealed, with an index. -/
def wSeen : Obj := { wObj with isSealed := true, index := wIdx }

/-- A profile of function 0. -/
def wProf (hook : Nat) : Profile := { func := 0, kind := 0, num := 2, ver := 1, record := wPkg hook, since := 0 }

/-- A program of function 0 with the right to answer hooks. -/
def wHookProg : Prog := { func := 0, handle := 3, useHook := true, sculls := [0], words := [0] }

/-- A view entry of a form on object 1, clear, with profile 2. -/
def wView (op form : Nat) : Sqe :=
  { wSqo op with cdw2 := 4096, cdw14 := BitVec.ofNat 32 (if form = 2 then 0x60000000 else 0x40000002 + form * 0x10000000), cdw15 := if form = 2 then 1 else 0 }

/-- A state with a view at work, its object, profile and program. -/
def wViewAt (hook : Nat) (e : Sqe) (h : HookRun := {}) : State :=
  { (wObjAt e).setCmd 5 (some { wCmd e with hook := h }) with
    objs := { objects := [{ wSeen with length := 1 }], profiles := [wProf hook] }
    sca := { progs := [wHookProg] } }

/-- A byte range of an object whose one extent is on flash. -/
def wViewOut : State :=
  let s := wViewAt 0 (wView 0x82 2)
  { s with objs := { s.objs with objects := [{ wSeen with length := 1, chunks := [{ chunk := 1 }], extents := [extEntry 0 0 4] }],
                                 chunks := [(1, some { wChunk with exts := [({ state := .flash, paddr := 5 } : MapEntry).seal (entryKey (chunkKey 1 0))] })] }
           flash := { dies := [(paddrDie 5, { state := 1 })], cfg := { chanEn := BitVec.allOnes 16 } } }

/-- An error is known by comparing. -/
theorem errIs {ε α : Type} [DecidableEq ε] (x : Except ε α) (e : ε) (h : (match x with | .error y => decide (y = e) | .ok _ => false) = true) : x = .error e := by
  cases x with
  | error y => simp only [decide_eq_true_eq] at h; rw [h]
  | ok a => simp at h

/-- A state with virtual function 2 present. -/
def wVf (s : State) : State := s.updFn 2 (fun x => { x with present := true })

/-- Dirty logging of 8 pages. -/
def wDirty : Dirty := { base := 0, pages := 8, bufA := 0, bufB := 0, pf := 0 }

/-- A restore of one byte into the quiesced function 2. -/
def wRestore : State := (wVf (wBox 0x0316 (leBytes 8 2 ++ leBytes 4 0 ++ leBytes 4 1 ++ [7]))).updFn 2 (fun x => { x with quiesced := true })

/-- A pair whose second part is fine. -/
theorem pairOk {ε α β : Type} (x : α × Except ε β) (b : β) (h : x.2.toOption = some b) : x = (x.1, .ok b) := by
  obtain ⟨a, c⟩ := x
  cases c <;> simp_all [Except.toOption]

/-- A piece of 1 byte of a load of `total` bytes. -/
def wLoad (cmd sel total : Nat) : State := wBox cmd (leBytes 8 sel ++ leBytes 4 0 ++ leBytes 4 total ++ [7])

/-- An import of a 16-byte key into slot 3, wrapped (RFC 3394) under the KEK of function 0. -/
def wImport : State :=
  (wBox 0x0401 (leBytes 2 3 ++ leBytes 2 1 ++ leBytes 24 2385155463629615675871247806734775315701507738587690233129 ++ leBytes 4 0)).updFn 0
    (fun x => { x with kek := some (padTo 32 [1]) })

/-- An import of a KEK of 32 bytes, wrapped (RFC 3394) under the transport key. -/
def wKek (g : Nat) : State :=
  wBoxIn { wHost with nvs := { wHost.nvs with transportKey := some (padTo 32 [9]) } } 0x0404 (padTo 8 [byteOf g] ++
    leBytes 40 1208714668461364319472304871394031529195245450102214920096886847982297736689451741344798948162128 ++ leBytes 32 0)

/-- A state with one program. -/
def wProg (s : State) (p : Prog) : State := { s with sca := { s.sca with progs := [p] } }

/-- PROGRAM INVOKE of program 3, and the program. -/
def wInvoke : Sqe := { wSqe false 0x97 with nsid := 0xFFFFFFFF, cdw10 := 3 }
def wInvProg : Prog := { wHookProg with useHook := false, useInvoke := true }

/-- FILTERED READ of one block by program 3, and the program. -/
def wFiltered : Sqe := { wSqe false 0x92 with cdw13 := 3, cdw14 := 16 }
def wFilProg : Prog := { wHookProg with useHook := false, useFilter := true }
def wFilCmd : Cmd := wCmd wFiltered
def wFil : State := (wProg (wHost.setCmd 5 (some wFilCmd)) wFilProg).takeLocks 5 1 0 false [(0, 4096)]

/-- A queued invocation. -/
def wStart : State :=
  wProg (wHost.setCmd 5 (some { wCmd wInvoke with data := List.replicate 16 255, moved := true })) { wInvProg with queue := [.invoke 5] }

/-- Scull 0 at the start of a program of two words, with two words in D1 and D2. -/
def wJ (w w2 : BitVec 14) (d1 : TWord := 0) (d2 : TWord := 0) : State :=
  wHost.setScull 0 { running := true, prog := [(0, w), (1, w2)], pl := 8, d := [(1, d1), (2, d2)], budget := 100 }

/-- The scull of `wJ` with a PTR at offset 5 of window 2 in A1. -/
def wPtr (w : BitVec 14) (e : Win) (d1 : TWord := 0) : State :=
  (wJ w 0 d1).updScull 0 (fun c => { c.setA 1 (mkPtr 0 2 5) with wins := [(2, e)] })

/-- A live window of 9 words from word 32. -/
def wWin : Win := { live := true, r := true, w := true, len := 9, base := 32 }

/-- The word at offset 5 of that window, stored. -/
def wMem (s : State) (v : TWord) : State :=
  { s.updScull 0 (·.setLocal 37 v) with sca := { (s.updScull 0 (·.setLocal 37 v)).sca with shared := [(37, v)] } }

/-- A state in which function 0 has a table under every ID. -/
def wTables : State :=
  { wBox 0x0701 (leBytes 16 0x10001) with
    nvs := { wHost.nvs with tenants := [{ wTenant with asuQuota := 512 }] }
    asu := { tables := (List.range 65).map (fun i => { func := 0, id := i, width := 0, longest := false, slabs := [] }) } }

/-- A read of unit 0 of namespace 1 for command 5, on a rung. -/
def wRead (rung : Nat) : FlashOp := { kind := .read (some (.cmd 5)) 0 rung, die := 0, quad := 0, sb := 0, units := [(2 ^ 40, 0)] }

/-- A state with a flash operation 3 and a closed superblock 0 of quad 0, in service. -/
def wFlash (op : FlashOp) (b : Sb := { state := .closed, readers := 1 }) : State :=
  { wAt (wSqe false 2) with
    nss := { wHost.nss with units := [(2 ^ 40, { state := .flash })] }
    flash := { ops := [(3, some op)], nextOp := 4, blocks := 100, sbs := [(0, b)]
               dies := (List.range 16).map (fun i => (i, { state := 1, cell := 3, good := 100, free := 50, spares := [98, 99], spareFirst := 2 })) } }

/-- A program of unit 0 of namespace 1 from buffer slot 0. -/
def wProgram (purpose : Nat) : FlashOp := { kind := .program true purpose, die := 0, quad := 0, sb := 0, units := [(2 ^ 40, 0)] }

/-- A state in BOOT. -/
def wBoot : State := { wHost with psm := { mode := .boot, pins := { testEn := false } } }

/-- A state with one extent in flash and a hot tier that takes any extent. -/
def wHot : State :=
  { wFlash (wRead 0) with
    objs := { chunks := [(1, some { wChunk with exts := [{ state := .flash, paddr := 9, slc := true }] })] }
    flash := { (wFlash (wRead 0)).flash with ops := [], cells := [(9, some { data := [], tag := 0, key := 0 })]
                                             cfg := { hotTier := 10, hotPromote := 0 } } }

/-- A state whose map journal holds one record and whose dies serve. -/
def wMeta : State :=
  { wFlash (wRead 0) with nss := { wHost.nss with journal := [(2 ^ 40, 0)], metaKey := some (padTo 64 [1]) } }

/-- No die of a list has failed twice in a row. -/
theorem noFail (m : Mem Die) (d : Nat) (h : m.all (fun e => decide (e.2.failures < 2)) = true) : (Mem.get {} m d).failures < 2 := by
  induction m with
  | nil => show (0 : Nat) < 2; omega
  | cons e m ih =>
    simp only [List.all_cons, Bool.and_eq_true, decide_eq_true_eq] at h
    simp only [Mem.get]
    split
    · exact h.1
    · exact ih h.2

/-- A board of one rank on each channel, in service, and in `spare` a second rank that is a spare. -/
def wDram (spare : Bool := false) : State :=
  { wHost with dram :=
    { resetHigh := true, board := padTo 1152 [if spare then 0x50 else 0], rankMap := [(0, some 0), (4, some 0)]
      ranks := if spare then [(0, .inService), (1, .spare), (4, .inService), (5, .spare)] else [(0, .inService), (4, .inService)] } }

/-- Window 1 of a scull: an SPL buffer of 4,096 bytes at 65,536. -/
def wSplWin : Win := { kind := 3, r := true, w := true, live := true, len := 4096, base := 65536 }

/-- Scull 0 with one request on a port, windows 1 (SPL) and 2 (DRAM), and one request outstanding on the port. -/
def wPort (port : Nat) (m : List TWord) : State :=
  wHost.updScull 0 (fun c => { c with
    func := 0, wins := [(1, wSplWin), (2, { wSplWin with kind := 4, len := 8388608, base := 0 })], running := true, outstanding := [(port, 1)], sent := [(port, [m])] })

/-- Words of a request. -/
def wI (n : Nat) : TWord := mkWord 1 n
def wB (n : Nat) : TWord := mkWord 2 n

/-- A cipher request of `n` bytes from window 1 to a window, CBC under slot 3. -/
def wCipher (n win : Nat) : List TWord :=
  [wI 3, mkWord 6 3, mkPtr 0 1 0, mkPtr 0 win 64, wI n, wI 0, wB 0, wB 0, wB 0, wB 0, 0, 0, 0, 0, wI 77]

/-- A digest request of `n` bytes of window 1. -/
def wDigest (w n : Nat) : List TWord := [wI w, if w % 8 / 4 = 1 then mkWord 6 3 else 0, mkPtr 0 1 0, wI n, wI 77]

/-- A compression request of `n` bytes of window 1. -/
def wCmpReq (w n out : Nat) : List TWord := [wI w, mkPtr 0 1 0, mkPtr 0 1 64, wI n, wI out, wI 0, wI 0, wI 77]

/-- A search of table 7 for a key, and an update of an entry of it. -/
def wFind (key : Nat) : List TWord := wI (7 + 63 * 2 ^ 26) :: ((List.range 9).map (fun i => wB (if i = 0 then key else 0)) ++ [wI 77])
def wUpdate (entry key : Nat) : List TWord :=
  [wI (7 + 3 * 2 ^ 18), wI entry, wI 4095] ++ (List.range 20).map (fun i => wB (if i = 0 then key else if i = 9 then 255 else 0)) ++ [wI 77]

/-- A table of 512 entries of 72 bits, with entries 3 and 4. -/
def wTable : Table := { func := 0, id := 7, width := 0, longest := false, slabs := [128] }
def wRow (key : BitVec 288) (prio : Nat) : Row := { key := key, mask := 255, prefilter := 255, priority := prio, assoc := 9 }
def wAsu (s : State) : State :=
  { s with asu := { tables := [wTable], rows := [(rowKey 0 7 3, some (wRow 5 1)), (rowKey 0 7 4, some (wRow 5 2)), (rowKey 0 7 511, some (wRow 6 9))] } }

/-- A cipher entry: a mode with flags, `len` bytes from SPL 4,096 to SPL 8,192, key slot 3 of function 0, USER 77. -/
def wEnt (flags len : Nat) : BitVec 512 := BitVec.ofNat 512 (flags + 3 * 2 ^ 12 + len * 2 ^ 64 + 4096 * 2 ^ 128 + 8192 * 2 ^ 160 + 77 * 2 ^ 448)
def wEntry (flags len : Nat) : CpeEntry := { submitter := 1, entry := wEnt flags len, key := padTo 16 [1], nonce := padTo 16 [2] }

/-- The key of slot 3, which may encrypt and decrypt in every mode. -/
def wKey : Key := { bytes := padTo 16 [1], attr := 0x3F, fixed := 5, counter := 65535 }

/-- A state with the key, and entries queued or bound to pipeline 0. -/
def wCpe (queue bound : List CpeEntry) : State :=
  { wHost with cpe := { slots := [(3, { key := some wKey, mark := 65536 })], queue := queue, pipes := if bound = [] then [] else [(0, { bound := bound })] } }

/-- A GCM entry of 4 bytes with a tag of 16, and a flag (8 decrypts). -/
def wGcm (flags : Nat) : CpeEntry := { wEntry 0 0 with entry := wEnt (1 + flags + 16 * 2 ^ 112) 4, nonce := padTo 12 [2] }

/-- A state with context 7 of the digest engine, open on pipeline 0. -/
def wDge (x : DgeCtx) : State := { wHost with dge := { ctxs := [(7, { x with state := .opened })], running := [(0, some 7)] } }

/-- A TRANSFORM of command 5 with an output limit, and its data: a header and the input. -/
def wTfE (out : Nat) : Sqe := { wSqe false 0x9B with nsid := 0xFFFFFFFF, cdw12 := 4096, cdw14 := BitVec.ofNat 32 out }
def wTf (n : Nat) (input : Bytes) : Bytes := leBytes 128 (n + input.length * 2 ^ 32) ++ input

/-- HOLD, with an empty configuration image that passes its fingerprint as ACTIVE. -/
def wImg : Bytes := splice (padTo 64 []) 32 (imgDigest (padTo 64 []))
def wCold : State := { wHost with psm := { mode := .hold }, recd := { aonLost := false }, nvs := { slots := [(0, { content := .valid, image := wImg })] } }

/-- A pair that mirrors namespace 1, owned by position 0. -/
def wPairCfg : PairCfg := { pairId := 7, pairKey := padTo 32 [1], mirrored := [1] }

/-- This side at position 0, in a pair state, the link up. -/
def wPair (st : PairState) (s : State := wHost) : State :=
  { s with swl := { cfg := some wPairCfg, state := st, position := 0, link := { lanes := 15, upIn := true } } }

/-- The next frame, for unit 5 of namespace 1. -/
def wFr : Frame := { seq := 0, asn := 3, nsid := 1, unitNo := 5, payload := [7] }

/-- A HELLO of the partner. -/
def wHello (s : State) : HelloBody := { pairId := 7, position := 1, memberId := 9, nonce := padTo 16 [5], state := 1, fp := s.configFp, keyOk := true }

/-! ### Witnesses -/

theorem test_meets_EveryStepKeepsSound : ∃ s t : State, s.Sound ∧ step s = .next t :=
  ⟨State.reset, State.reset, ⟨rfl, rfl, by decide, by decide⟩, rfl⟩

theorem test_meets_EveryCommandHoldsItsPromises : ∃ (c : Instr) (s t : State), s.Sound ∧ exec c s = .next t :=
  ⟨.idcode, State.reset, State.reset, ⟨rfl, rfl, by decide, by decide⟩, rfl⟩

theorem test_meets_QueuesFetchAndAcceptance_1 :
    (∃ (s : State) (f q tail : Nat) (x : Sq),
    (s.psm.mode.live = true) ∧ ((s.fn f).resetting = false) ∧ ((s.fn f).en = true) ∧ ((s.fn f).quiesced = false) ∧ (s.hostGone f = false) ∧ (s.sq f q = some x) ∧ (tail < x.size)) ∧
    (∃ (s : State) (f q head : Nat) (x : Cq),
    (s.psm.mode.live = true) ∧ ((s.fn f).resetting = false) ∧ ((s.fn f).en = true) ∧ ((s.fn f).quiesced = false) ∧ (s.hostGone f = false) ∧ (s.cq f q = some x) ∧ (head < x.size) ∧ (x.held = [])) ∧
    (∃ (s : State) (f q v : Nat),
    (s.psm.mode.live = true) ∧ ((s.fn f).resetting = false) ∧ ((s.fn f).en = true) ∧ ((s.fn f).quiesced = true) ∧ (s.hostGone f = false)) ∧
    (∃ (s : State) (reads : List Sqe) (f : Nat),
    (nextAfter s.hif.rrAdmin (s.present.filter s.adminFetchable) = some f) ∧ (s.sharedCount < 65408)) :=
  ⟨⟨wHost, 0, 1, 7, { size := 8, cq := 1 }, by
    repeat' apply And.intro
    all_goals first | decide +kernel | exact decOkEq _ _ (by decide +kernel) | exact readyOf _ _ _ (by decide +kernel)⟩,
   ⟨wHost, 0, 1, 7, { size := 8 }, by
    repeat' apply And.intro
    all_goals first | decide +kernel | exact decOkEq _ _ (by decide +kernel) | exact readyOf _ _ _ (by decide +kernel)⟩,
   ⟨wHost.updFn 0 (fun x => { x with quiesced := true }), 0, 1, 7, by
    repeat' apply And.intro
    all_goals first | decide +kernel | exact decOkEq _ _ (by decide +kernel) | exact readyOf _ _ _ (by decide +kernel)⟩,
   ⟨wHost.setSq 0 0 (some { size := 8, cq := 0, tail := 3 }), [], 0, by
    repeat' apply And.intro
    all_goals first | decide +kernel | exact decOkEq _ _ (by decide +kernel) | exact readyOf _ _ _ (by decide +kernel)⟩⟩

theorem test_meets_QueuesFetchAndAcceptance_2 :
    (∃ (s : State) (reads : List Sqe) (f q c most : Nat) (cr : List Nat) (tn : Tenant),
    (nextAfter s.hif.rrAdmin (s.present.filter s.adminFetchable) = none) ∧ (nextAfter s.hif.rrFunc (s.present.filter s.ioFetchable) = some f) ∧ (s.pickQueue f = some (q, c, most, cr)) ∧ (s.tenant f = some tn)) ∧
    (∃ (s : State) (f q : Nat) (e : Sqe) (rest : List (Nat × Nat × Sqe)),
    (s.hif.fetched = (f, q, e) :: rest) ∧ (s.hostGone f = false) ∧ ((s.fn f).resetting = false) ∧ (s.psm.mode.live = true)) ∧
    (∃ (s : State) (f q : Nat) (e : Sqe) (rest : List (Nat × Nat × Sqe)),
    (s.hif.fetched = (f, q, e) :: rest) ∧ (s.hostGone f = false) ∧ ((s.fn f).resetting = false) ∧ (s.psm.mode.live = true) ∧ (e.admin = true)) ∧
    (∃ (s : State) (id : CmdId) (c : Cmd) (r : Result) (x : Cq),
    (s.cmd id = some c) ∧ (c.result = some r) ∧ (s.psm.mode.live = true) ∧ (s.heldBack id = false) ∧ (c.fromPartner = false) ∧ ((s.fn c.func).resetting = false) ∧ (s.hostGone c.func = false) ∧ (s.postTurn id c = true) ∧ (s.cq c.func (s.cqOf c) = some x) ∧ (x.full = false) ∧ (x.held = [])) :=
  ⟨⟨wHost.setSq 0 1 (some { size := 8, cq := 1, tail := 3 }), [], 0, 1, 0, 65536, [0, 0, 0], wTenant, by
    repeat' apply And.intro
    all_goals first | decide +kernel | exact decOkEq _ _ (by decide +kernel) | exact readyOf _ _ _ (by decide +kernel)⟩,
   ⟨{ wHost with hif := { wHost.hif with fetched := [(0, 1, wSqe false 2)] } }, 0, 1, wSqe false 2, [], by
    repeat' apply And.intro
    all_goals first | decide +kernel | exact decOkEq _ _ (by decide +kernel) | exact readyOf _ _ _ (by decide +kernel)⟩,
   ⟨{ wHost with hif := { wHost.hif with fetched := [(0, 0, wSqe true 6)] } }, 0, 0, wSqe true 6, [], by
    repeat' apply And.intro
    all_goals first | decide +kernel | exact decOkEq _ _ (by decide +kernel) | exact readyOf _ _ _ (by decide +kernel)⟩,
   ⟨wDone, 5, { func := 0, sq := 1, sqe := wSqe false 2, result := some { status := .success } }, { status := .success }, { size := 8 }, by
    repeat' apply And.intro
    all_goals first | decide +kernel | exact decOkEq _ _ (by decide +kernel) | exact readyOf _ _ _ (by decide +kernel)⟩⟩

theorem test_meets_QueuesFetchAndAcceptance_3 :
    (∃ (s : State) (id : CmdId) (c : Cmd) (r : Result) (x : Cq),
    (s.cmd id = some c) ∧ (c.result = some r) ∧ (s.psm.mode.live = true) ∧ (s.heldBack id = false) ∧ (c.fromPartner = false) ∧ ((s.fn c.func).resetting = false) ∧ (s.hostGone c.func = false) ∧ (s.postTurn id c = true) ∧ (s.cq c.func (s.cqOf c) = some x) ∧ (x.full = true) ∧ (¬ id ∈ x.held)) ∧
    (∃ (s : State),
    (s.psm.mode.live = true)) :=
  ⟨⟨wDone.setCq 0 1 (some { size := 8, posted := 7 }), 5, { func := 0, sq := 1, sqe := wSqe false 2, result := some { status := .success } }, { status := .success }, { size := 8, posted := 7 }, by
    repeat' apply And.intro
    all_goals first | decide +kernel | exact decOkEq _ _ (by decide +kernel) | exact readyOf _ _ _ (by decide +kernel)⟩,
   ⟨wHost, by
    repeat' apply And.intro
    all_goals first | decide +kernel | exact decOkEq _ _ (by decide +kernel) | exact readyOf _ _ _ (by decide +kernel)⟩⟩

theorem test_meets_BlockCommandsDoTheirWork_1 :
    (∃ (s : State) (id : CmdId) (data : Bytes) (c : Cmd) (n : Ns),
    (s.live id false 0x01 = some c) ∧ (c.moved = false) ∧ (c.away = false) ∧ (s.blockTarget c true = .ok n) ∧ (s.hasRoom (writeUnits n c.sqe) = true)) ∧
    (∃ (s : State) (id : CmdId) (data : Bytes) (bad : TagFault) (c : Cmd) (n : Ns),
    (s.live id false 0x01 = some c) ∧ (c.moved = false) ∧ (c.away = false) ∧ (s.blockTarget c true = .ok n) ∧ (s.hasRoom (writeUnits n c.sqe) = true) ∧ (componentOk bad.component = true)) ∧
    (∃ (s : State) (id : CmdId) (g : Nat) (c : Cmd) (n : Ns) (us : List (Nat × Option Bytes)) (m : Option (Nat × Bytes)),
    (s.cmd id = some c) ∧ (c.result = none) ∧ (c.sqe.admin = false) ∧ (c.sqe.opcode = 0x01 ∨ c.sqe.opcode = 0x08) ∧ (c.moved = true) ∧ (c.uncommitted.contains g = true) ∧ (s.grantedFor id g = true) ∧ (s.psm.mode.engines = true) ∧ (s.ns (sqeNsid c.sqe) = some n) ∧ (mergeKeys c n g = []) ∧ (s.granuleParts id c n g = some (us, m)) ∧ (s.heldAll c.asn (sqeNsid c.sqe) (us.map (·.1) ++ m.toList.map (·.1)) = true) ∧ (s.slotsFor (us.length + m.toList.length) = true)) ∧
    (∃ (s : State) (id : CmdId) (g : Nat) (c : Cmd) (n : Ns),
    (s.cmd id = some c) ∧ (c.result = none) ∧ (c.sqe.admin = false) ∧ (c.sqe.opcode = 0x01 ∨ c.sqe.opcode = 0x08) ∧ (c.moved = true) ∧ (c.uncommitted.contains g = true) ∧ (s.grantedFor id g = true) ∧ (s.psm.mode.engines = true) ∧ (s.ns (sqeNsid c.sqe) = some n) ∧ ((s.fetchUnits id (mergeKeys c n g)).merged id c n g = true) ∧ ((s.fetchUnits id (mergeKeys c n g)).granuleParts id c n g = none)) :=
  ⟨⟨wAt (wSqe false 1), 5, [], wCmd (wSqe false 1), wNs, by
    repeat' apply And.intro
    all_goals first | decide +kernel | exact decOkEq _ _ (by decide +kernel) | exact readyOf _ _ _ (by decide +kernel)⟩,
   ⟨wAt (wSqe false 1), 5, [], { component := 0x07FF, unitNo := 0 }, wCmd (wSqe false 1), wNs, by
    repeat' apply And.intro
    all_goals first | decide +kernel | exact decOkEq _ _ (by decide +kernel) | exact readyOf _ _ _ (by decide +kernel)⟩,
   ⟨(wHost.setCmd 5 (some { wCmd (wSqe false 8) with moved := true, uncommitted := [0] })).takeLocks 5 1 0 true [(0, 4096)], 5, 0,
    { wCmd (wSqe false 8) with moved := true, uncommitted := [0] }, wNs, [(0, none)], none, by
    repeat' apply And.intro
    all_goals first | decide +kernel | exact decOkEq _ _ (by decide +kernel) | exact readyOf _ _ _ (by decide +kernel)⟩,
   ⟨(let c := { wCmd { wSqe false 1 with cdw12 := 0 } with moved := true, uncommitted := [0], data := padTo 512 [] }
    let t := (wHost.setCmd 5 (some c)).takeLocks 5 1 0 true [(0, 512)]
    { t with nss := { t.nss with ns := [(1, some { wNs with lbaf := 3 })], staged := [(.cmd 5, 2 ^ 40, none)] } }), 5, 0,
    { wCmd { wSqe false 1 with cdw12 := 0 } with moved := true, uncommitted := [0], data := padTo 512 [] }, { wNs with lbaf := 3 }, by
    repeat' apply And.intro
    all_goals first | decide +kernel | exact decOkEq _ _ (by decide +kernel) | exact readyOf _ _ _ (by decide +kernel)⟩⟩

theorem test_meets_BlockCommandsDoTheirWork_2 :
    (∃ (s : State) (id : CmdId) (c : Cmd) (n : Ns) (bs : List (Bytes × Bytes)),
    (s.live id false 0x02 = some c) ∧ (c.away = false) ∧ (s.blockTarget c true = .ok n) ∧ ((s.readProgress id c n (blockRange n c.sqe)).readBlocks id c n (blockRange n c.sqe) = some (some bs))) ∧
    (∃ (s : State) (id : CmdId) (c : Cmd) (n : Ns),
    (s.live id false 0x08 = some c) ∧ (c.moved = false) ∧ (c.away = false) ∧ (s.blockTarget c false = .ok n)) ∧
    (∃ (s : State) (id : CmdId) (data : Bytes) (c : Cmd) (n : Ns) (bs : List (Bytes × Bytes)),
    (s.live id false 0x05 = some c) ∧ (c.away = false) ∧ (s.blockTarget c true = .ok n) ∧ ((s.readProgress id c n (blockRange n c.sqe)).readBlocks id c n (blockRange n c.sqe) = some (some bs)) ∧ (strips n c.sqe = false)) ∧
    (∃ (s : State) (id : CmdId) (c : Cmd) (n : Ns) (bs : List (Bytes × Bytes)),
    (s.live id false 0x0C = some c) ∧ (c.away = false) ∧ (s.blockTarget c false = .ok n) ∧ ((s.readProgress id c n (blockRange n c.sqe)).readBlocks id c n (blockRange n c.sqe) = some (some bs))) :=
  ⟨⟨(wAt (wSqe false 2)).takeLocks 5 1 0 false [(0, 4096)], 5, wCmd (wSqe false 2), wNs, _, ⟨by decide +kernel, by decide, decOkEq _ _ (by decide +kernel), someSome _ (by decide +kernel)⟩⟩,
   ⟨wAt (wSqe false 8), 5, wCmd (wSqe false 8), wNs, by
    repeat' apply And.intro
    all_goals first | decide +kernel | exact decOkEq _ _ (by decide +kernel) | exact readyOf _ _ _ (by decide +kernel)⟩,
   ⟨(wAt (wSqe false 5)).takeLocks 5 1 0 false [(0, 4096)], 5, [], wCmd (wSqe false 5), wNs, _, ⟨by decide +kernel, by decide, decOkEq _ _ (by decide +kernel), someSome _ (by decide +kernel), by decide⟩⟩,
   ⟨(wAt (wSqe false 12)).takeLocks 5 1 0 false [(0, 4096)], 5, wCmd (wSqe false 12), wNs, _, ⟨by decide +kernel, by decide, decOkEq _ _ (by decide +kernel), someSome _ (by decide +kernel)⟩⟩⟩

theorem test_meets_BlockCommandsDoTheirWork_3 :
    (∃ (s : State) (id : CmdId) (c : Cmd) (l : List Nat),
    (s.live id false 0x00 = some c) ∧ (s.nsScope c = some l) ∧ (c.waitFor = []) ∧ (c.flashWait = []) ∧ (l.filter s.linkedNs = [])) ∧
    (∃ (s : State) (id : CmdId) (ranges : List DsmRange) (c : Cmd) (l : List Nat),
    (s.live id false 0x09 = some c) ∧ (c.away = false) ∧ (c.needFlash = false) ∧ (s.nsScope c = some l) ∧ (dsmRefused c.sqe (s.dsmScope c l) (ranges.take (field c.sqe.cdw10.toNat 7 0 + 1)) = none) ∧ (bit c.sqe.cdw11.toNat 2 = false)) ∧
    (∃ (s : State) (id : CmdId) (ranges : List DsmRange) (c : Cmd) (l : List Nat),
    (s.live id false 0x09 = some c) ∧ (c.away = false) ∧ (c.needFlash = false) ∧ (s.nsScope c = some l) ∧ (dsmRefused c.sqe (s.dsmScope c l) (ranges.take (field c.sqe.cdw10.toNat 7 0 + 1)) = none) ∧ (bit c.sqe.cdw11.toNat 2 = true) ∧ (c.moved = true) ∧ (s.allGranted id = true) ∧ (c.legs.isEmpty = false ∨ (s.dsmScope c l).any (fun e => s.mirrorLegs e.1) = false) ∧ ((s.dsmScope c l).all (fun e => s.heldAll (c.asnIn e.1) e.1 (wholeUnits e.2 (ranges.take (field c.sqe.cdw10.toNat 7 0 + 1)))) = true)) ∧
    (∃ (s : State) (id : CmdId) (ranges : List DsmRange) (c : Cmd) (l : List Nat) (st : Status),
    (s.live id false 0x09 = some c) ∧ (c.away = false) ∧ (c.needFlash = false) ∧ (s.nsScope c = some l) ∧ (dsmRefused c.sqe (s.dsmScope c l) (ranges.take (field c.sqe.cdw10.toNat 7 0 + 1)) = some st)) :=
  ⟨⟨wAt (wSqe false 0), 5, wCmd (wSqe false 0), [1], by
    repeat' apply And.intro
    all_goals first | decide +kernel | exact decOkEq _ _ (by decide +kernel) | exact readyOf _ _ _ (by decide +kernel)⟩,
   ⟨wAt (wSqe false 9), 5, [], wCmd (wSqe false 9), [1], by
    repeat' apply And.intro
    all_goals first | decide +kernel | exact decOkEq _ _ (by decide +kernel) | exact readyOf _ _ _ (by decide +kernel)⟩,
   ⟨wHost.setCmd 5 (some { wCmd { wSqe false 9 with cdw11 := 4 } with moved := true }), 5, [{ attr := 0, slba := 0, len := 1 }], { wCmd { wSqe false 9 with cdw11 := 4 } with moved := true }, [1], by
    repeat' apply And.intro
    all_goals first | decide +kernel | exact decOkEq _ _ (by decide +kernel) | exact readyOf _ _ _ (by decide +kernel)⟩,
   ⟨wAt (wSqe false 9), 5, [{ attr := 0, slba := 8, len := 1 }], wCmd (wSqe false 9), [1], .invalidField, by
    repeat' apply And.intro
    all_goals first | decide +kernel | exact decOkEq _ _ (by decide +kernel) | exact readyOf _ _ _ (by decide +kernel)⟩⟩

theorem test_meets_BlockCommandsDoTheirWork_4 :
    (∃ (s : State) (id : CmdId) (c : Cmd) (e : CmdId × Cmd),
    (s.live id true 0x08 = some c) ∧ ((s.inflightOf c.func).find? (fun e => e.2.sq == field c.sqe.cdw10.toNat 15 0 && e.2.sqe.cid.toNat == field c.sqe.cdw10.toNat 31 16 &&
        e.1 != id && e.2.result.isNone) = some e) ∧ (s.allGranted e.1 = true)) ∧
    (∃ (s : State) (id : CmdId) (c : Cmd) (e : CmdId × Cmd),
    (s.live id true 0x08 = some c) ∧ ((s.inflightOf c.func).find? (fun e => e.2.sq == field c.sqe.cdw10.toNat 15 0 && e.2.sqe.cid.toNat == field c.sqe.cdw10.toNat 31 16 &&
        e.1 != id && e.2.result.isNone) = some e) ∧ (s.allGranted e.1 = false)) :=
  ⟨⟨(wAt { wSqe true 8 with cdw10 := 0x90001 }).setCmd 6 (some (wCmd (wSqe false 1))), 5, wCmd { wSqe true 8 with cdw10 := 0x90001 }, (6, wCmd (wSqe false 1)), by
    repeat' apply And.intro
    all_goals first | decide +kernel | exact decOkEq _ _ (by decide +kernel) | exact readyOf _ _ _ (by decide +kernel)⟩,
   ⟨(({ (wAt { wSqe true 8 with cdw10 := 0x90001 }) with hif := { (wAt { wSqe true 8 with cdw10 := 0x90001 }).hif with locks :=
    [{ cmd := 7, nsid := 1, asn := 0, lo := 0, hi := 0, excl := true }, { cmd := 6, nsid := 1, asn := 1, lo := 0, hi := 0, excl := true }] } }).setCmd 6 (some (wCmd (wSqe false 1)))), 5,
    wCmd { wSqe true 8 with cdw10 := 0x90001 }, (6, wCmd (wSqe false 1)), by
    repeat' apply And.intro
    all_goals first | decide +kernel | exact decOkEq _ _ (by decide +kernel) | exact readyOf _ _ _ (by decide +kernel)⟩⟩

theorem test_meets_IoQueuesComeAndGo :
    (∃ (s : State) (id : CmdId) (c : Cmd) (q : Nat),
    (s.live id true 0x05 = some c) ∧ (field c.sqe.cdw10.toNat 15 0 = q) ∧ (q ≠ 0) ∧ (q ≤ s.queueAllotment c.func) ∧ (s.cq c.func q = none) ∧ (field c.sqe.cdw10.toNat 31 16 ≠ 0) ∧ (bit c.sqe.cdw11.toNat 0 = true) ∧ (field c.sqe.cdw11.toNat 31 16 < s.msixCount c.func)) ∧
    (∃ (s : State) (id : CmdId) (c : Cmd) (q : Nat) (x : Cq),
    (s.live id true 0x01 = some c) ∧ (field c.sqe.cdw10.toNat 15 0 = q) ∧ (q ≠ 0) ∧ (q ≤ s.queueAllotment c.func) ∧ (s.sq c.func q = none) ∧ (field c.sqe.cdw11.toNat 31 16 ≠ 0) ∧ (s.cq c.func (field c.sqe.cdw11.toNat 31 16) = some x) ∧ (field c.sqe.cdw10.toNat 31 16 ≠ 0) ∧ (bit c.sqe.cdw11.toNat 0 = true)) ∧
    (∃ (s : State) (id : CmdId) (c : Cmd) (q : Nat) (x : Sq),
    (s.live id true 0x00 = some c) ∧ (field c.sqe.cdw10.toNat 15 0 = q) ∧ (q ≠ 0) ∧ (s.sq c.func q = some x) ∧ ((s.inflightOf c.func).any (fun e => e.2.sq == q) = false) ∧ (s.hif.fetched.any (fun e => e.1 == c.func && e.2.1 == q) = false)) ∧
    (∃ (s : State) (id : CmdId) (c : Cmd) (q : Nat) (x : Cq),
    (s.live id true 0x04 = some c) ∧ (field c.sqe.cdw10.toNat 15 0 = q) ∧ (q ≠ 0) ∧ (s.cq c.func q = some x) ∧ (s.hif.sqs.any (fun e => match e.2 with | some y => e.1 / 65536 == c.func && y.cq == q | none => false) = false)) :=
  ⟨⟨wAt { wSqe true 5 with cdw10 := 0x70002, cdw11 := 3 }, 5, wCmd { wSqe true 5 with cdw10 := 0x70002, cdw11 := 3 }, 2, by
    repeat' apply And.intro
    all_goals first | decide +kernel | exact decOkEq _ _ (by decide +kernel) | exact readyOf _ _ _ (by decide +kernel)⟩,
   ⟨wAt { wSqe true 1 with cdw10 := 0x70002, cdw11 := 0x10001 }, 5, wCmd { wSqe true 1 with cdw10 := 0x70002, cdw11 := 0x10001 }, 2, { size := 8 }, by
    repeat' apply And.intro
    all_goals first | decide +kernel | exact decOkEq _ _ (by decide +kernel) | exact readyOf _ _ _ (by decide +kernel)⟩,
   ⟨wAt { wSqe true 0 with cdw10 := 1 }, 5, wCmd { wSqe true 0 with cdw10 := 1 }, 1, { size := 8, cq := 1 }, by
    repeat' apply And.intro
    all_goals first | decide +kernel | exact decOkEq _ _ (by decide +kernel) | exact readyOf _ _ _ (by decide +kernel)⟩,
   ⟨(wAt { wSqe true 4 with cdw10 := 1 }).setSq 0 1 none, 5, wCmd { wSqe true 4 with cdw10 := 1 }, 1, { size := 8 }, by
    repeat' apply And.intro
    all_goals first | decide +kernel | exact decOkEq _ _ (by decide +kernel) | exact readyOf _ _ _ (by decide +kernel)⟩⟩

theorem test_meets_IdentifyLogsAndFeatures :
    (∃ (s : State) (id : CmdId) (c : Cmd) (p : Bytes × State),
    (s.live id true 0x06 = some c) ∧ (s.identifyPage c = .ok p)) ∧
    (∃ (s : State) (id : CmdId) (c : Cmd) (p : Bytes × State),
    (s.live id true 0x02 = some c) ∧ (s.logPage c = .ok p) ∧ (logPastEnd c.sqe p.1.length = false)) ∧
    (∃ (s : State) (id : CmdId) (c : Cmd) (v : Nat × State),
    (s.live id true 0x0A = some c) ∧ (featureIds.contains (field c.sqe.cdw10.toNat 7 0) = true) ∧ (field c.sqe.cdw10.toNat 10 8 = 0) ∧ (field c.sqe.cdw10.toNat 7 0 ≠ 0x06 ∨ s.volatileNow = true) ∧ (field c.sqe.cdw10.toNat 7 0 ≠ 0x0E) ∧ (s.featureValue c (s.fn c.func).features (field c.sqe.cdw10.toNat 7 0) = some v)) ∧
    (∃ (s : State) (id : CmdId) (c : Cmd),
    (s.live id true 0x0A = some c) ∧ (featureIds.contains (field c.sqe.cdw10.toNat 7 0) = true) ∧ (field c.sqe.cdw10.toNat 10 8 = 3) ∧ (field c.sqe.cdw10.toNat 7 0 ≠ 0x06 ∨ s.volatileNow = true)) :=
  ⟨⟨wAt { wSqe true 6 with cdw10 := 2 }, 5, wCmd { wSqe true 6 with cdw10 := 2 }, _, ⟨by decide +kernel, rfl⟩⟩,
   ⟨wAt { wSqe true 2 with cdw10 := 0x20D }, 5, wCmd { wSqe true 2 with cdw10 := 0x20D }, ([], (wAt { wSqe true 2 with cdw10 := 0x20D }).updFn 0 (fun x => { x with pel := none })), ⟨by decide +kernel, decOkEq _ _ (by decide +kernel), by decide +kernel⟩⟩,
   ⟨wAt { wSqe true 10 with cdw10 := 0x01 }, 5, wCmd { wSqe true 10 with cdw10 := 0x01 }, (0, wAt { wSqe true 10 with cdw10 := 0x01 }), by
    repeat' apply And.intro
    all_goals first | decide +kernel | exact decOkEq _ _ (by decide +kernel) | exact readyOf _ _ _ (by decide +kernel)⟩,
   ⟨wAt { wSqe true 10 with cdw10 := 0x304 }, 5, wCmd { wSqe true 10 with cdw10 := 0x304 }, by
    repeat' apply And.intro
    all_goals first | decide +kernel | exact decOkEq _ _ (by decide +kernel) | exact readyOf _ _ _ (by decide +kernel)⟩⟩

theorem test_meets_SetFeaturesTakeEffect_1 :
    (∃ (s : State) (id : CmdId) (c : Cmd),
    (s.live id true 0x09 = some c) ∧ (field c.sqe.cdw10.toNat 7 0 = 0x06) ∧ (bit c.sqe.cdw10.toNat 31 = false) ∧ (s.volatileNow = true)) ∧
    (∃ (s : State) (id : CmdId) (c : Cmd),
    (s.live id true 0x09 = some c) ∧ (field c.sqe.cdw10.toNat 7 0 = 0x06) ∧ (bit c.sqe.cdw10.toNat 31 = false) ∧ (s.volatileNow = false)) ∧
    (∃ (s : State) (id : CmdId) (c : Cmd) (n : Nat),
    (s.live id true 0x09 = some c) ∧ (field c.sqe.cdw10.toNat 7 0 = 0x07) ∧ (bit c.sqe.cdw10.toNat 31 = false) ∧ (field c.sqe.cdw11.toNat 15 0 ≠ 0xFFFF) ∧ (field c.sqe.cdw11.toNat 31 16 ≠ 0xFFFF) ∧ (s.queueAllotment c.func = n + 1)) ∧
    (∃ (s : State) (id : CmdId) (wallMs tick : Nat) (c : Cmd),
    (s.live id true 0x09 = some c) ∧ (field c.sqe.cdw10.toNat 7 0 = 0x0E) ∧ (bit c.sqe.cdw10.toNat 31 = false) ∧ (c.sqe.sgl = false)) :=
  ⟨⟨{ wAt { wSqe true 9 with cdw10 := 6 } with psm := { mode := .service } }, 5, wCmd { wSqe true 9 with cdw10 := 6 }, by
    repeat' apply And.intro
    all_goals first | decide +kernel | exact decOkEq _ _ (by decide +kernel) | exact readyOf _ _ _ (by decide +kernel)⟩,
   ⟨wAt { wSqe true 9 with cdw10 := 6 }, 5, wCmd { wSqe true 9 with cdw10 := 6 }, by
    repeat' apply And.intro
    all_goals first | decide +kernel | exact decOkEq _ _ (by decide +kernel) | exact readyOf _ _ _ (by decide +kernel)⟩,
   ⟨wAt { wSqe true 9 with cdw10 := 7 }, 5, wCmd { wSqe true 9 with cdw10 := 7 }, 3, by
    repeat' apply And.intro
    all_goals first | decide +kernel | exact decOkEq _ _ (by decide +kernel) | exact readyOf _ _ _ (by decide +kernel)⟩,
   ⟨wAt { wSqe true 9 with cdw10 := 14 }, 5, 1000, 7, wCmd { wSqe true 9 with cdw10 := 14 }, by
    repeat' apply And.intro
    all_goals first | decide +kernel | exact decOkEq _ _ (by decide +kernel) | exact readyOf _ _ _ (by decide +kernel)⟩⟩

theorem test_meets_SetFeaturesTakeEffect_2 :
    (∃ (s : State) (id : CmdId) (c : Cmd),
    (s.live id true 0x09 = some c) ∧ (field c.sqe.cdw10.toNat 7 0 = 0x04) ∧ (bit c.sqe.cdw10.toNat 31 = false) ∧ (field c.sqe.cdw11.toNat 19 16 = 0) ∧ (field c.sqe.cdw11.toNat 21 20 = 0)) ∧
    (∃ (s : State) (id : CmdId) (c : Cmd),
    (s.live id true 0x09 = some c) ∧ (field c.sqe.cdw10.toNat 7 0 = 0x04) ∧ (bit c.sqe.cdw10.toNat 31 = false) ∧ (field c.sqe.cdw11.toNat 19 16 = 0) ∧ (field c.sqe.cdw11.toNat 21 20 = 1)) ∧
    (∃ (s : State) (id : CmdId) (c : Cmd) (v : Features),
    (s.live id true 0x09 = some c) ∧ (field c.sqe.cdw10.toNat 7 0 = 0x01) ∧ (bit c.sqe.cdw10.toNat 31 = false) ∧ (v = { (s.fn c.func).features with ab := BitVec.ofNat 3 (field c.sqe.cdw11.toNat 2 0), lpw := BitVec.ofNat 8 (field c.sqe.cdw11.toNat 15 8), mpw := BitVec.ofNat 8 (field c.sqe.cdw11.toNat 23 16), hpw := BitVec.ofNat 8 (field c.sqe.cdw11.toNat 31 24) })) :=
  ⟨⟨wAt { wSqe true 9 with cdw10 := 4, cdw11 := 350 }, 5, wCmd { wSqe true 9 with cdw10 := 4, cdw11 := 350 }, by
    repeat' apply And.intro
    all_goals first | decide +kernel | exact decOkEq _ _ (by decide +kernel) | exact readyOf _ _ _ (by decide +kernel)⟩,
   ⟨wAt { wSqe true 9 with cdw10 := 4, cdw11 := 0x100100 }, 5, wCmd { wSqe true 9 with cdw10 := 4, cdw11 := 0x100100 }, by
    repeat' apply And.intro
    all_goals first | decide +kernel | exact decOkEq _ _ (by decide +kernel) | exact readyOf _ _ _ (by decide +kernel)⟩,
   ⟨wAt { wSqe true 9 with cdw10 := 1, cdw11 := 0x04030207 }, 5, wCmd { wSqe true 9 with cdw10 := 1, cdw11 := 0x04030207 }, { ab := 7, lpw := 2, mpw := 3, hpw := 4 }, by
    repeat' apply And.intro
    all_goals first | decide +kernel | exact decOkEq _ _ (by decide +kernel) | exact readyOf _ _ _ (by decide +kernel)⟩⟩

theorem test_meets_EventsSelfTestAndManagementInterface_1 :
    (∃ (s : State) (id : CmdId) (c : Cmd) (e : BitVec 32) (es : List (BitVec 32)),
    (s.live id true 0x0C = some c) ∧ (id ∉ (s.fn c.func).aers) ∧ ((s.fn c.func).events = e :: es)) ∧
    (∃ (s : State) (id : CmdId) (c : Cmd),
    (s.live id true 0x0C = some c) ∧ (id ∉ (s.fn c.func).aers) ∧ ((s.fn c.func).events = []) ∧ ((s.fn c.func).aers.length < 8)) ∧
    (∃ (s : State) (id : CmdId) (c : Cmd),
    (s.live id true 0x14 = some c) ∧ (field c.sqe.cdw10.toNat 3 0 = 1 ∨ field c.sqe.cdw10.toNat 3 0 = 2 ∨ field c.sqe.cdw10.toNat 3 0 = 15)) ∧
    (∃ (s : State) (id : CmdId) (msg : Bytes) (c : Cmd),
    (s.live id true 0x1D = some c)) :=
  ⟨⟨(wAt (wSqe true 12)).updFn 0 (fun x => { x with events := [7] }), 5, wCmd (wSqe true 12), 7, [], by
    repeat' apply And.intro
    all_goals first | decide +kernel | exact decOkEq _ _ (by decide +kernel) | exact readyOf _ _ _ (by decide +kernel)⟩,
   ⟨wAt (wSqe true 12), 5, wCmd (wSqe true 12), by
    repeat' apply And.intro
    all_goals first | decide +kernel | exact decOkEq _ _ (by decide +kernel) | exact readyOf _ _ _ (by decide +kernel)⟩,
   ⟨wAt { wSqe true 20 with cdw10 := 15 }, 5, wCmd { wSqe true 20 with cdw10 := 15 }, by
    repeat' apply And.intro
    all_goals first | decide +kernel | exact decOkEq _ _ (by decide +kernel) | exact readyOf _ _ _ (by decide +kernel)⟩,
   ⟨wAt (wSqe true 0x1D), 5, [], wCmd (wSqe true 0x1D), by
    repeat' apply And.intro
    all_goals first | decide +kernel | exact decOkEq _ _ (by decide +kernel) | exact readyOf _ _ _ (by decide +kernel)⟩⟩

theorem test_meets_EventsSelfTestAndManagementInterface_2 :
    (∃ (s : State) (id : CmdId) (c : Cmd),
    (s.live id true 0x1E = some c) ∧ (c.sqe.dptrLen = 0) ∧ (c.fromPartner = false)) ∧
    (∃ (s : State) (id : CmdId) (c : Cmd),
    (s.live id true 0x1E = some c)) ∧
    (∃ (s : State) (msg : Bytes),
    (s.psm.mode.live = true)) :=
  ⟨⟨wAt (wSqe true 0x1E), 5, wCmd (wSqe true 0x1E), by
    repeat' apply And.intro
    all_goals first | decide +kernel | exact decOkEq _ _ (by decide +kernel) | exact readyOf _ _ _ (by decide +kernel)⟩,
   ⟨wAt { wSqe true 0x1E with dptrLen := 16 }, 5, wCmd { wSqe true 0x1E with dptrLen := 16 }, by
    repeat' apply And.intro
    all_goals first | decide +kernel | exact decOkEq _ _ (by decide +kernel) | exact readyOf _ _ _ (by decide +kernel)⟩,
   ⟨wHost, [], by
    repeat' apply And.intro
    all_goals first | decide +kernel | exact decOkEq _ _ (by decide +kernel) | exact readyOf _ _ _ (by decide +kernel)⟩⟩

theorem test_meets_NamespacesAreManaged_1 :
    (∃ (s : State) (id : CmdId) (d : NsData) (c : Cmd) (i : Nat) (n : Ns),
    (s.live id true 0x0D = some c) ∧ (field c.sqe.cdw10.toNat 3 0 = 0) ∧ (n = { object := d.b3840 == 1, verifyDefault := d.b3841 == 1, blocks := d.nsze, lbaf := field d.flbas 3 0, pi := field d.dps 2 0, extended := bit d.flbas 4 }) ∧ (((d.b3840 == 0 && d.b3841 == 0) || (d.b3840 == 1 && (d.b3841 == 0 || d.b3841 == 1))) = true) ∧ (formatOk n.object n.lbaf n.pi = true) ∧ (bit d.dps 3 = false) ∧ (d.nsze ≠ 0) ∧ (d.ncap ≤ d.nsze) ∧ (field c.sqe.cdw11.toNat 31 24 = 0) ∧ (c.sqe.sgl = false) ∧ (d.nsze * lbaBytes n.lbaf ≤ s.usableGib s.flash.cfg * 2 ^ 30) ∧ (((List.range 1024).map (· + 1)).find? (fun i => (s.ns i).isNone) = some i)) ∧
    (∃ (s : State) (id : CmdId) (c : Cmd) (n : Ns),
    (s.live id true 0x0D = some c) ∧ (field c.sqe.cdw10.toNat 3 0 = 1) ∧ (c.sqe.nsid ≠ 0xFFFFFFFF) ∧ (s.ns (sqeNsid c.sqe) = some n) ∧ (c.func ≤ 1 ∨ n.attached = some c.func) ∧ (s.nsBusy id (sqeNsid c.sqe) = false)) ∧
    (∃ (s : State) (id : CmdId) (ctrls : List Nat) (c : Cmd) (n : Ns) (f : Nat),
    (s.live id true 0x15 = some c) ∧ (field c.sqe.cdw10.toNat 3 0 = 0) ∧ (s.ns (sqeNsid c.sqe) = some n) ∧ (c.sqe.sgl = false) ∧ (ctrls.map s.controller = [some f]) ∧ (c.func ≤ 1) ∧ (n.attached = none) ∧ (n.keyOwner = some f ∨ (s.fn f).capacityUsed + nsCharge n ≤ s.capacityLimit f)) ∧
    (∃ (s : State) (id : CmdId) (ctrls : List Nat) (c : Cmd) (n : Ns) (f : Nat),
    (s.live id true 0x15 = some c) ∧ (field c.sqe.cdw10.toNat 3 0 = 1) ∧ (s.ns (sqeNsid c.sqe) = some n) ∧ (c.sqe.sgl = false) ∧ (ctrls.map s.controller = [some f]) ∧ (c.func ≤ 1) ∧ (n.attached = some f) ∧ (s.nsBusy id (sqeNsid c.sqe) = false)) :=
  ⟨⟨{ wAt (wSqe true 13) with flash := { rawBytes := 2 ^ 40 } }, 5,
    { nsze := 8, ncap := 8, flbas := 0, dps := 0, b3840 := 0, b3841 := 0 }, wCmd (wSqe true 13), 2, { object := false, blocks := 8 }, by
    repeat' apply And.intro
    all_goals first | decide +kernel | exact decOkEq _ _ (by decide +kernel) | exact readyOf _ _ _ (by decide +kernel)⟩,
   ⟨wAt { wSqe true 13 with cdw10 := 1 }, 5, wCmd { wSqe true 13 with cdw10 := 1 }, wNs, by
    repeat' apply And.intro
    all_goals first | decide +kernel | exact decOkEq _ _ (by decide +kernel) | exact readyOf _ _ _ (by decide +kernel)⟩,
   ⟨(wAt (wSqe true 21)).setNs 1 (some { wNs with attached := none }), 5, [0], wCmd (wSqe true 21), { wNs with attached := none }, 0, by
    repeat' apply And.intro
    all_goals first | decide +kernel | exact decOkEq _ _ (by decide +kernel) | exact readyOf _ _ _ (by decide +kernel)⟩,
   ⟨wAt { wSqe true 21 with cdw10 := 1 }, 5, [0], wCmd { wSqe true 21 with cdw10 := 1 }, wNs, 0, by
    repeat' apply And.intro
    all_goals first | decide +kernel | exact decOkEq _ _ (by decide +kernel) | exact readyOf _ _ _ (by decide +kernel)⟩⟩

theorem test_meets_NamespacesAreManaged_2 :
    (∃ (s : State) (id : CmdId) (c : Cmd) (named mine : List Nat) (e : Nat),
    (s.live id true 0x80 = some c) ∧ (mine = (s.nsOf c.func).map (·.1)) ∧ (named = (if c.sqe.nsid = 0xFFFFFFFF then mine else mine.filter (· == sqeNsid c.sqe))) ∧ (named ≠ []) ∧ (field c.sqe.cdw10.toNat 11 9 = e) ∧ (e ≤ 2) ∧ (bit c.sqe.cdw10.toNat 8 = false) ∧ (field c.sqe.cdw10.toNat 13 12 = 0) ∧ (named.any (fun i => match s.ns i with | some n => !formatOk n.object (field c.sqe.cdw10.toNat 3 0) (field c.sqe.cdw10.toNat 7 5) | none => false) = false) ∧ (s.earlierOpen id (fun x => x.func == c.func) = false)) ∧
    (∃ (s : State) (id : CmdId) (c : Cmd) (act : Nat),
    (s.live id true 0x84 = some c) ∧ (field c.sqe.cdw10.toNat 2 0 = act) ∧ (act = 2 ∨ act = 4) ∧ (s.hif.sanitizing = none)) ∧
    (∃ (s : State) (id : CmdId) (act : Nat),
    (s.hif.sanitizing = some (id, act)) ∧ (s.psm.mode.engines = true) ∧ (s.earlierOpen id (fun _ => true) = false)) :=
  ⟨⟨wAt (wSqe true 0x80), 5, wCmd (wSqe true 0x80), [1], [1], 0, by
    repeat' apply And.intro
    all_goals first | decide +kernel | exact decOkEq _ _ (by decide +kernel) | exact readyOf _ _ _ (by decide +kernel)⟩,
   ⟨wAt { wSqe true 0x84 with cdw10 := 2 }, 5, wCmd { wSqe true 0x84 with cdw10 := 2 }, 2, by
    repeat' apply And.intro
    all_goals first | decide +kernel | exact decOkEq _ _ (by decide +kernel) | exact readyOf _ _ _ (by decide +kernel)⟩,
   ⟨{ wHost with hif := { wHost.hif with sanitizing := some (5, 2) } }, 5, 2, by
    repeat' apply And.intro
    all_goals first | decide +kernel | exact decOkEq _ _ (by decide +kernel) | exact readyOf _ _ _ (by decide +kernel)⟩⟩

theorem test_meets_ReservationsRunAsNvmExpressSays :
    (∃ (s : State) (id : CmdId) (crkey nrkey : BitVec 64) (c : Cmd) (n : Ns),
    (s.live id false 0x0D = some c) ∧ (c.away = false) ∧ (s.resvTarget c = .ok n) ∧ (c.sqe.sgl = false) ∧ (field c.sqe.cdw10.toNat 2 0 = 0) ∧ (n.resv.keyOf c.func = none)) ∧
    (∃ (s : State) (id : CmdId) (crkey prkey : BitVec 64) (c : Cmd) (n : Ns),
    (s.live id false 0x11 = some c) ∧ (c.away = false) ∧ (s.resvTarget c = .ok n) ∧ (c.sqe.sgl = false) ∧ (field c.sqe.cdw10.toNat 2 0 = 0) ∧ (n.resv.keyOf c.func = some crkey) ∧ (n.resv.holder = none) ∧ (1 ≤ field c.sqe.cdw10.toNat 15 8) ∧ (field c.sqe.cdw10.toNat 15 8 ≤ 6)) ∧
    (∃ (s : State) (id : CmdId) (crkey : BitVec 64) (c : Cmd) (n : Ns) (k : Nat),
    (s.live id false 0x15 = some c) ∧ (c.away = false) ∧ (s.resvTarget c = .ok n) ∧ (c.sqe.sgl = false) ∧ (field c.sqe.cdw10.toNat 2 0 = 0) ∧ (n.resv.keyOf c.func = some crkey) ∧ (n.resv.holder = some (c.func, k)) ∧ (field c.sqe.cdw10.toNat 15 8 = k)) ∧
    (∃ (s : State) (id : CmdId) (c : Cmd) (n : Ns),
    (s.live id false 0x0E = some c) ∧ (c.away = false) ∧ (s.resvTarget c = .ok n)) :=
  ⟨⟨wAt (wSqe false 13), 5, 0, 7, wCmd (wSqe false 13), wNs, by
    repeat' apply And.intro
    all_goals first | decide +kernel | exact decOkEq _ _ (by decide +kernel) | exact readyOf _ _ _ (by decide +kernel)⟩,
   ⟨(wAt { wSqe false 17 with cdw10 := 0x100 }).setNs 1 (some wReg), 5, 7, 0, wCmd { wSqe false 17 with cdw10 := 0x100 }, wReg, by
    repeat' apply And.intro
    all_goals first | decide +kernel | exact decOkEq _ _ (by decide +kernel) | exact readyOf _ _ _ (by decide +kernel)⟩,
   ⟨(wAt { wSqe false 21 with cdw10 := 0x100 }).setNs 1 (some { wReg with resv := { wReg.resv with holder := some (0, 1) } }), 5, 7, wCmd { wSqe false 21 with cdw10 := 0x100 },
    { wReg with resv := { wReg.resv with holder := some (0, 1) } }, 1, by
    repeat' apply And.intro
    all_goals first | decide +kernel | exact decOkEq _ _ (by decide +kernel) | exact readyOf _ _ _ (by decide +kernel)⟩,
   ⟨wAt (wSqe false 14), 5, wCmd (wSqe false 14), wNs, by
    repeat' apply And.intro
    all_goals first | decide +kernel | exact decOkEq _ _ (by decide +kernel) | exact readyOf _ _ _ (by decide +kernel)⟩⟩

theorem test_meets_FirmwareImagesAreWrittenAndActivated_1 :
    (∃ (s : State) (id : CmdId) (data : Bytes) (c : Cmd),
    (s.live id true 0x11 = some c) ∧ (4 * c.sqe.cdw11.toNat + 4 * (c.sqe.cdw10.toNat + 1) ≤ 1572864) ∧ (c.sqe.sgl = false)) ∧
    (∃ (s : State) (id : CmdId) (c : Cmd) (act slot : Nat) (img : Bytes),
    (s.live id true 0x10 = some c) ∧ (field c.sqe.cdw10.toNat 5 3 = act) ∧ (act = 0 ∨ act = 1) ∧ (s.cfgBusy = false) ∧ (s.fwTarget (field c.sqe.cdw10.toNat 2 0) = slot) ∧ (slot = 2 ∨ slot = 3) ∧ ((s.fn c.func).fwDownload = img)) ∧
    (∃ (s : State) (id : CmdId) (c : Cmd) (slot : Nat),
    (s.live id true 0x10 = some c) ∧ (field c.sqe.cdw10.toNat 5 3 = 2) ∧ (s.cfgBusy = false) ∧ (s.fwTarget (field c.sqe.cdw10.toNat 2 0) = slot) ∧ (slot ≤ 3) ∧ ((s.fwSlot slot).present = true ∨ slot = 1)) ∧
    (∃ (s : State) (id : CmdId) (c : Cmd) (slot : Nat),
    (s.live id true 0x10 = some c) ∧ (field c.sqe.cdw10.toNat 5 3 = 3) ∧ (s.cfgBusy = false) ∧ (s.hif.activating = none) ∧ (s.fwTarget (field c.sqe.cdw10.toNat 2 0) = slot) ∧ ((s.fn c.func).fwDownload = []) ∧ ((s.fwSlot slot).present = true)) :=
  ⟨⟨wAt { wSqe true 17 with cdw10 := 0 }, 5, [1, 2, 3, 4], wCmd { wSqe true 17 with cdw10 := 0 }, by
    repeat' apply And.intro
    all_goals first | decide +kernel | exact decOkEq _ _ (by decide +kernel) | exact readyOf _ _ _ (by decide +kernel)⟩,
   ⟨wAt { wSqe true 16 with cdw10 := 0xA }, 5, wCmd { wSqe true 16 with cdw10 := 0xA }, 1, 2, [], by
    repeat' apply And.intro
    all_goals first | decide +kernel | exact decOkEq _ _ (by decide +kernel) | exact readyOf _ _ _ (by decide +kernel)⟩,
   ⟨wAt { wSqe true 16 with cdw10 := 0x11 }, 5, wCmd { wSqe true 16 with cdw10 := 0x11 }, 1, by
    repeat' apply And.intro
    all_goals first | decide +kernel | exact decOkEq _ _ (by decide +kernel) | exact readyOf _ _ _ (by decide +kernel)⟩,
   ⟨{ (wAt { wSqe true 16 with cdw10 := 0x1A }) with nvs := { tenants := [wTenant], fw := [(2, { present := true, ok := true })] } }, 5, wCmd { wSqe true 16 with cdw10 := 0x1A }, 2, by
    repeat' apply And.intro
    all_goals first | decide +kernel | exact decOkEq _ _ (by decide +kernel) | exact readyOf _ _ _ (by decide +kernel)⟩⟩

theorem test_meets_FirmwareImagesAreWrittenAndActivated_2 :
    (∃ (s : State) (id : CmdId) (slot ms : Nat),
    (s.hif.activating = some (id, slot)) ∧ (s.onlyCommitLeft id = true) ∧ (∀ f ∈ s.present, (s.fn f).resetPending = false)) ∧
    (∃ (s : State) (id : CmdId) (slot ms pair : Nat),
    (s.hif.activating = some (id, slot)) ∧ (s.onlyCommitLeft id = true) ∧ (∀ f ∈ s.present, (s.fn f).resetPending = false)) :=
  ⟨⟨{ (wAt { wSqe true 16 with cdw10 := 0x1A }) with hif := { (wAt { wSqe true 16 with cdw10 := 0x1A }).hif with fetchStopped := true, activating := some (5, 2) } }, 5, 2, 0, by
    repeat' apply And.intro
    all_goals first | decide +kernel | exact decOkEq _ _ (by decide +kernel) | exact readyOf _ _ _ (by decide +kernel)⟩,
   ⟨{ (wAt { wSqe true 16 with cdw10 := 0x1A }) with hif := { (wAt { wSqe true 16 with cdw10 := 0x1A }).hif with fetchStopped := true, activating := some (5, 2) } }, 5, 2, 0, 1, by
    repeat' apply And.intro
    all_goals first | decide +kernel | exact decOkEq _ _ (by decide +kernel) | exact readyOf _ _ _ (by decide +kernel)⟩⟩

theorem test_meets_MailboxCarriesRequestsAndResponses_1 :
    (∃ (s : State) (f : Nat),
    (s.psm.mode.mailbox = true) ∧ ((s.fn f).present = true) ∧ (s.coxDown = false) ∧ (s.hostGone f = false) ∧ (Mem.get false s.hif.link (s.portOf f) = true) ∧ ((s.mb f).state = .busy)) ∧
    (∃ (s : State) (f : Nat),
    (s.psm.mode.mailbox = true) ∧ ((s.fn f).present = true) ∧ (s.coxDown = false) ∧ (s.hostGone f = false) ∧ (Mem.get false s.hif.link (s.portOf f) = true) ∧ ((s.mb f).state ≠ .busy)) ∧
    (∃ (s : State) (f : Nat) (p : MbResp),
    ((s.mb f).unchecked = false) ∧ ((s.mb f).prepared = some p) ∧ (s.psm.mode.mailbox = true) ∧ (s.psm.mode ≠ .rest) ∧ (s.coxDown = false) ∧ ((s.mb f).state = .busy) ∧ ((s.mb f).irqEn = false)) ∧
    (∃ (s : State) (id : CmdId) (data : Bytes) (c : Cmd) (n : Nat),
    (s.live id true 0xC1 = some c) ∧ (mbNumb c.sqe = some n) ∧ (c.sqe.sgl = false) ∧ (s.coxDown = false) ∧ ((s.mb c.func).state ≠ .busy)) :=
  ⟨⟨wBox 0x0101 [], 0, by
    repeat' apply And.intro
    all_goals first | decide +kernel | exact decOkEq _ _ (by decide +kernel) | exact readyOf _ _ _ (by decide +kernel)⟩,
   ⟨wHost, 0, by
    repeat' apply And.intro
    all_goals first | decide +kernel | exact decOkEq _ _ (by decide +kernel) | exact readyOf _ _ _ (by decide +kernel)⟩,
   ⟨(wBox 0x0101 []).mbAnswer 0 (mbOk []), 0, mbOk [], by
    repeat' apply And.intro
    all_goals first | decide +kernel | exact decOkEq _ _ (by decide +kernel) | exact readyOf _ _ _ (by decide +kernel)⟩,
   ⟨wAt { wSqe true 0xC1 with cdw10 := 4096 }, 5, [1, 1], wCmd { wSqe true 0xC1 with cdw10 := 4096 }, 4096, by
    repeat' apply And.intro
    all_goals first | decide +kernel | exact decOkEq _ _ (by decide +kernel) | exact readyOf _ _ _ (by decide +kernel)⟩⟩

theorem test_meets_MailboxCarriesRequestsAndResponses_2 :
    (∃ (s : State) (id : CmdId) (c : Cmd) (n : Nat),
    (s.live id true 0xC2 = some c) ∧ (mbNumb c.sqe = some n) ∧ ((s.mb c.func).state = .done) ∧ (bit c.sqe.cdw11.toNat 16 = true ∨ (s.mb c.func).lastSeq.toNat = field c.sqe.cdw11.toNat 15 0)) ∧
    (∃ (s : State) (f : Nat),
    True) ∧
    (∃ (s : State) (f : Nat),
    (s.MbReady f 0x0101)) ∧
    (∃ (s : State) (f : Nat),
    (s.MbReady f 0x0102)) :=
  ⟨⟨(wAt { wSqe true 0xC2 with cdw10 := 16 }).updMb 0 (fun m => { m with state := .done }), 5, wCmd { wSqe true 0xC2 with cdw10 := 16 }, 16, by
    repeat' apply And.intro
    all_goals first | decide +kernel | exact decOkEq _ _ (by decide +kernel) | exact readyOf _ _ _ (by decide +kernel)⟩,
   ⟨wHost, 0, by
    repeat' apply And.intro
    all_goals first | decide +kernel | exact decOkEq _ _ (by decide +kernel) | exact readyOf _ _ _ (by decide +kernel)⟩,
   ⟨wBox 0x0101 [], 0, by
    repeat' apply And.intro
    all_goals first | decide +kernel | exact decOkEq _ _ (by decide +kernel) | exact readyOf _ _ _ (by decide +kernel)⟩,
   ⟨wBox 0x0102 [], 0, by
    repeat' apply And.intro
    all_goals first | decide +kernel | exact decOkEq _ _ (by decide +kernel) | exact readyOf _ _ _ (by decide +kernel)⟩⟩

theorem test_meets_MailboxCarriesRequestsAndResponses_3 :
    (∃ (s : State) (f : Nat),
    (s.MbReady f 0x0103)) ∧
    (∃ (s : State) (f : Nat),
    (s.MbReady f 0x0902)) :=
  ⟨⟨wBox 0x0103 [1, 2], 0, by
    repeat' apply And.intro
    all_goals first | decide +kernel | exact decOkEq _ _ (by decide +kernel) | exact readyOf _ _ _ (by decide +kernel)⟩,
   ⟨wBox 0x0902 [], 0, by
    repeat' apply And.intro
    all_goals first | decide +kernel | exact decOkEq _ _ (by decide +kernel) | exact readyOf _ _ _ (by decide +kernel)⟩⟩

theorem test_meets_ResetsRetireAndAdvanceGenerations_1 :
    (∃ (s : State) (f : Nat),
    (s.psm.mode.live = true) ∧ ((s.fn f).en = true) ∧ (s.hostGone f = false)) ∧
    (∃ (s : State) (f : Nat) (ams : BitVec 3),
    (s.psm.mode.live = true) ∧ ((s.fn f).present = true) ∧ ((s.fn f).en = false) ∧ (s.hostGone f = false)) ∧
    (∃ (s : State) (f : Nat),
    (s.psm.mode.live = true) ∧ (f ≤ 1) ∧ ((s.fn f).present = true) ∧ (s.hostGone f = false)) ∧
    (∃ (s : State) (f : Nat),
    (s.psm.mode.live = true) ∧ ((s.fn f).present = true) ∧ (s.noRefclk f = false)) :=
  ⟨⟨wHost, 0, by
    repeat' apply And.intro
    all_goals first | decide +kernel | exact decOkEq _ _ (by decide +kernel) | exact readyOf _ _ _ (by decide +kernel)⟩,
   ⟨wHost.updFn 0 (fun x => { x with en := false, rdy := false }), 0, 1, by
    repeat' apply And.intro
    all_goals first | decide +kernel | exact decOkEq _ _ (by decide +kernel) | exact readyOf _ _ _ (by decide +kernel)⟩,
   ⟨wHost, 0, by
    repeat' apply And.intro
    all_goals first | decide +kernel | exact decOkEq _ _ (by decide +kernel) | exact readyOf _ _ _ (by decide +kernel)⟩,
   ⟨wHost, 0, by
    repeat' apply And.intro
    all_goals first | decide +kernel | exact decOkEq _ _ (by decide +kernel) | exact readyOf _ _ _ (by decide +kernel)⟩⟩

theorem test_meets_ResetsRetireAndAdvanceGenerations_2 :
    (∃ (s : State) (f waitedUs : Nat),
    ((s.fn f).resetting = true) ∧ ((s.fn f).removing = false) ∧ (s.pendingWork f ((s.fn f).gen + 1) = 0) ∧ ((s.fn f).en = false)) ∧
    (∃ (s : State) (f waitedUs : Nat),
    ((s.fn f).resetting = true) ∧ ((s.fn f).removing = true) ∧ (s.pendingWork f ((s.fn f).gen + 1) = 0) ∧ (s.pendingWork f (s.fn f).gen = 0)) ∧
    (∃ (s : State) (pf : Nat),
    (s.psm.mode.live = true) ∧ (pf ≤ 1) ∧ (s.noRefclk pf = false)) ∧
    (∃ (s : State) (pf num : Nat) (t : State),
    (s.psm.mode.live = true) ∧ (pf ≤ 1) ∧ ((s.fn pf).present = true) ∧ (Mem.get 0 s.hif.numVfs pf = 0) ∧ (num ≤ s.totalVfs pf) ∧ (t = { s with hif := { s.hif with numVfs := Mem.set 0 s.hif.numVfs pf num } }) ∧ ((t.vfsOf pf).any (fun f => (s.fn f).removing) = false) ∧ (s.noRefclk pf = false)) :=
  ⟨⟨wHost.updFn 0 (fun x => { x with en := false, rdy := false, resetting := true, gen := 255 }), 0, 3, by
    repeat' apply And.intro
    all_goals first | decide +kernel | exact decOkEq _ _ (by decide +kernel) | exact readyOf _ _ _ (by decide +kernel)⟩,
   ⟨wHost.updFn 0 (fun x => { x with resetting := true, removing := true }), 0, 3, by
    repeat' apply And.intro
    all_goals first | decide +kernel | exact decOkEq _ _ (by decide +kernel) | exact readyOf _ _ _ (by decide +kernel)⟩,
   ⟨wHost, 1, by
    repeat' apply And.intro
    all_goals first | decide +kernel | exact decOkEq _ _ (by decide +kernel) | exact readyOf _ _ _ (by decide +kernel)⟩,
   ⟨wHost, 0, 126, { wHost with hif := { wHost.hif with numVfs := [(0, 126)] } }, by
    repeat' apply And.intro
    all_goals first | decide +kernel | exact decOkEq _ _ (by decide +kernel) | exact readyOf _ _ _ (by decide +kernel)⟩⟩

theorem test_meets_ResetsRetireAndAdvanceGenerations_3 :
    (∃ (s : State) (id : CmdId) (c : Cmd) (v : Nat),
    (s.live id true 0x1C = some c) ∧ (field c.sqe.cdw10.toNat 31 16 % 256 = v) ∧ (2 ≤ v) ∧ ((s.vfsOf c.func).contains v = true) ∧ (field c.sqe.cdw10.toNat 3 0 = 7)) ∧
    (∃ (s : State) (id : CmdId) (c : Cmd) (v : Nat),
    (s.live id true 0x1C = some c) ∧ (field c.sqe.cdw10.toNat 31 16 % 256 = v) ∧ (2 ≤ v) ∧ ((s.vfsOf c.func).contains v = true) ∧ (field c.sqe.cdw10.toNat 3 0 = 9) ∧ ((s.fn v).resetting = false)) :=
  ⟨⟨{ wAt { wSqe true 0x1C with cdw10 := 0x20007 } with hif := { (wAt { wSqe true 0x1C with cdw10 := 0x20007 }).hif with numVfs := [(0, 4)] } }, 5, wCmd { wSqe true 0x1C with cdw10 := 0x20007 }, 2, by
    repeat' apply And.intro
    all_goals first | decide +kernel | exact decOkEq _ _ (by decide +kernel) | exact readyOf _ _ _ (by decide +kernel)⟩,
   ⟨{ wAt { wSqe true 0x1C with cdw10 := 0x20009 } with hif := { (wAt { wSqe true 0x1C with cdw10 := 0x20009 }).hif with numVfs := [(0, 4)] } }, 5, wCmd { wSqe true 0x1C with cdw10 := 0x20009 }, 2, by
    repeat' apply And.intro
    all_goals first | decide +kernel | exact decOkEq _ _ (by decide +kernel) | exact readyOf _ _ _ (by decide +kernel)⟩⟩

theorem test_meets_LinksTrainFailAndReturn_1 :
    (∃ (s : State) (port : Nat),
    (s.psm.mode.live = true) ∧ (s.portUsed port = true)) ∧
    (∃ (s : State) (port width speed : Nat),
    (s.psm.mode.live = true) ∧ (s.portUsed port = true) ∧ (Mem.get false s.hif.refclkLost port = false) ∧ (width = s.portWidth) ∧ (speed = 6)) ∧
    (∃ (s : State) (port width speed : Nat) (t : State),
    (s.psm.mode.live = true) ∧ (s.portUsed port = true) ∧ (Mem.get false s.hif.refclkLost port = false) ∧ (width = 1 ∨ width = 2) ∧ (1 ≤ speed) ∧ (speed ≤ 6) ∧ (t = { s with hif := { s.hif with perst := Mem.set false s.hif.perst port false, link := Mem.set false s.hif.link port true, linkWidth := Mem.set 0 s.hif.linkWidth port width, linkSpeed := Mem.set 0 s.hif.linkSpeed port speed } })) ∧
    (∃ (s : State) (port : Nat) (status : BitVec 32) (header : BitVec 128),
    (s.psm.mode.live = true) ∧ (s.portUsed port = true)) :=
  ⟨⟨wHost, 0, by
    repeat' apply And.intro
    all_goals first | decide +kernel | exact decOkEq _ _ (by decide +kernel) | exact readyOf _ _ _ (by decide +kernel)⟩,
   ⟨wHost, 0, 8, 6, by
    repeat' apply And.intro
    all_goals first | decide +kernel | exact decOkEq _ _ (by decide +kernel) | exact readyOf _ _ _ (by decide +kernel)⟩,
   ⟨wHost, 0, 2, 1, _, ⟨by decide, by decide, by decide, by decide, by decide, by decide, rfl⟩⟩,
   ⟨wHost, 0, 1, 2, by
    repeat' apply And.intro
    all_goals first | decide +kernel | exact decOkEq _ _ (by decide +kernel) | exact readyOf _ _ _ (by decide +kernel)⟩⟩

theorem test_meets_LinksTrainFailAndReturn_2 :
    (∃ (s : State) (port : Nat),
    (s.psm.mode.live = true) ∧ (s.portUsed port = true) ∧ (Mem.get false s.hif.refclkLost port = false)) ∧
    (∃ (s : State) (port : Nat),
    True) :=
  ⟨⟨wHost, 0, by
    repeat' apply And.intro
    all_goals first | decide +kernel | exact decOkEq _ _ (by decide +kernel) | exact readyOf _ _ _ (by decide +kernel)⟩,
   ⟨wHost, 0, by
    repeat' apply And.intro
    all_goals first | decide +kernel | exact decOkEq _ _ (by decide +kernel) | exact readyOf _ _ _ (by decide +kernel)⟩⟩

theorem test_meets_ObjectCommandsDoTheirWork_1 :
    (∃ (s : State) (id : CmdId) (data : Bytes) (bad : Option TagFault) (c : Cmd) (n : Ns),
    (s.live id false 0x81 = some c) ∧ (c.moved = false) ∧ (s.objectTurn id c = true) ∧ (s.objectTarget c = .ok n) ∧ (s.appendRefused c = none) ∧ (s.hasRuns (appendRuns (s.appendAt c) (field c.sqe.cdw14.toNat 21 0)) = true) ∧ (faultOf bad = none) ∧ (s.obj (sqeNsid c.sqe) (sqeOid c.sqe) = none) ∧ (s.volatileNow = false)) ∧
    (∃ (s : State) (id : CmdId) (data : Bytes) (bad : Option TagFault) (c : Cmd) (n : Ns) (o : Obj),
    (s.live id false 0x81 = some c) ∧ (c.moved = false) ∧ (s.objectTurn id c = true) ∧ (s.objectTarget c = .ok n) ∧ (s.appendRefused c = none) ∧ (s.hasRuns (appendRuns (s.appendAt c) (field c.sqe.cdw14.toNat 21 0)) = true) ∧ (faultOf bad = none) ∧ (s.obj (sqeNsid c.sqe) (sqeOid c.sqe) = some o) ∧ (o.lastHashed = false) ∧ (s.appendFrom o = o.length) ∧ (s.volatileNow = false)) ∧
    (∃ (s : State) (id : CmdId) (data : Bytes) (bad : Option TagFault) (c : Cmd) (n : Ns) (b : TagFault),
    (s.live id false 0x81 = some c) ∧ (c.moved = false) ∧ (s.objectTurn id c = true) ∧ (s.objectTarget c = .ok n) ∧ (s.appendRefused c = none) ∧ (s.hasRuns (appendRuns (s.appendAt c) (field c.sqe.cdw14.toNat 21 0)) = true) ∧ (faultOf bad = some b)) ∧
    (∃ (s : State) (id : CmdId) (data : Bytes) (bad : Option TagFault) (c : Cmd) (n : Ns),
    (s.live id false 0x81 = some c) ∧ (c.moved = false) ∧ (s.objectTurn id c = true) ∧ (s.objectTarget c = .ok n) ∧ (s.appendRefused c = none) ∧ (s.hasRuns (appendRuns (s.appendAt c) (field c.sqe.cdw14.toNat 21 0)) = false)) :=
  ⟨⟨wObjAt { wSqo 0x81 with cdw14 := 16, cdw15 := 1 }, 5, [1], none, wCmd { wSqo 0x81 with cdw14 := 16, cdw15 := 1 }, wObjNs, by
    repeat' apply And.intro
    all_goals first | decide +kernel | exact decOkEq _ _ (by decide +kernel) | exact readyOf _ _ _ (by decide +kernel)⟩,
   ⟨{ wObjAt { wSqo 0x81 with cdw12 := 4096, cdw14 := 16 } with objs := { objects := [{ wObj with length := 4096, chunks := [{ chunk := 1 }] }], chunks := [(1, some { wChunk with len := 4096, exts := [{ state := .buffer, paddr := 64 }] })] } }, 5, [1], none, wCmd { wSqo 0x81 with cdw12 := 4096, cdw14 := 16 }, wObjNs, { wObj with length := 4096, chunks := [{ chunk := 1 }] }, by
    repeat' apply And.intro
    all_goals first | decide +kernel | exact decOkEq _ _ (by decide +kernel) | exact readyOf _ _ _ (by decide +kernel)⟩,
   ⟨wObjAt { wSqo 0x81 with cdw14 := 16, cdw15 := 1 }, 5, [1], some { component := 0x0600, unitNo := 0 }, wCmd { wSqo 0x81 with cdw14 := 16, cdw15 := 1 }, wObjNs, { component := 0x0600, unitNo := 0 }, by
    repeat' apply And.intro
    all_goals first | decide +kernel | exact decOkEq _ _ (by decide +kernel) | exact readyOf _ _ _ (by decide +kernel)⟩,
   ⟨(let t := { wObjAt { wSqo 0x81 with cdw12 := 4096, cdw14 := 16 } with objs := { objects := [{ wObj with length := 4096, chunks := [{ chunk := 1 }] }], chunks := [(1, some { wChunk with len := 4096, exts := [{ state := .buffer, paddr := 64 }] })] } }; { t with nss := { t.nss with slots := (List.range 60).map (fun i => (64 * i, some 1)) } }), 5, [1], none, wCmd { wSqo 0x81 with cdw12 := 4096, cdw14 := 16 }, wObjNs, by
    repeat' apply And.intro
    all_goals first | decide +kernel | exact decOkEq _ _ (by decide +kernel) | exact readyOf _ _ _ (by decide +kernel)⟩⟩

theorem test_meets_ObjectCommandsDoTheirWork_2 :
    (∃ (s : State) (id : CmdId) (data : Bytes) (bad : Option TagFault) (c : Cmd) (n : Ns) (e : Status),
    (s.live id false 0x81 = some c) ∧ (c.moved = false) ∧ (s.objectTurn id c = true) ∧ (s.objectTarget c = .ok n) ∧ (s.appendRefused c = some e)) ∧
    (∃ (s : State) (id : CmdId) (data : Bytes) (c : Cmd) (n : Ns) (o : Obj),
    (s.live id false 0x85 = some c) ∧ (s.objectTurn id c = true) ∧ (s.objectTarget c = .ok n) ∧ (indexFieldsOk c.sqe = true) ∧ (c.sqe.sgl = false) ∧ (s.obj (sqeNsid c.sqe) (sqeOid c.sqe) = some o) ∧ (o.isSealed = false) ∧ (o.plain = false) ∧ (field c.sqe.cdw12.toNat 25 0 + field c.sqe.cdw14.toNat 21 0 ≤ 67108864) ∧ (field c.sqe.cdw12.toNat 25 0 = 0 ∨ field c.sqe.cdw12.toNat 25 0 = o.index.length)) ∧
    (∃ (s : State) (id : CmdId) (c : Cmd) (n : Ns) (o : Obj),
    (s.live id false 0x88 = some c) ∧ (s.objectTurn id c = true) ∧ (s.objectTarget c = .ok n) ∧ (sealFieldsOk c.sqe = true) ∧ (s.obj (sqeNsid c.sqe) (sqeOid c.sqe) = some o) ∧ (o.isSealed = false) ∧ (o.plain = true ∨ c.moved = true) ∧ (o.chunks.all (fun r => r.hashed && r.verifyWith.isNone) = true)) ∧
    (∃ (s : State) (id : CmdId) (c : Cmd) (n : Ns) (o : Obj),
    (s.live id false 0x88 = some c) ∧ (s.objectTurn id c = true) ∧ (s.objectTarget c = .ok n) ∧ (sealFieldsOk c.sqe = true) ∧ (s.obj (sqeNsid c.sqe) (sqeOid c.sqe) = some o) ∧ (o.isSealed = true)) :=
  ⟨⟨wObjAt { wSqo 0x81 with cdw14 := 16 }, 5, [1], none, wCmd { wSqo 0x81 with cdw14 := 16 }, wObjNs, .objectUnknown, by
    repeat' apply And.intro
    all_goals first | decide +kernel | exact decOkEq _ _ (by decide +kernel) | exact readyOf _ _ _ (by decide +kernel)⟩,
   ⟨wHeld (wObjAt { wSqo 0x85 with cdw14 := 16 }), 5, [1], wCmd { wSqo 0x85 with cdw14 := 16 }, wObjNs, wObj, by
    repeat' apply And.intro
    all_goals first | decide +kernel | exact decOkEq _ _ (by decide +kernel) | exact readyOf _ _ _ (by decide +kernel)⟩,
   ⟨wHeld (wObjAt (wSqo 0x88)) true, 5, wCmd (wSqo 0x88), wObjNs, { wObj with plain := true }, by
    repeat' apply And.intro
    all_goals first | decide +kernel | exact decOkEq _ _ (by decide +kernel) | exact readyOf _ _ _ (by decide +kernel)⟩,
   ⟨wHeld (wObjAt (wSqo 0x88)) false true, 5, wCmd (wSqo 0x88), wObjNs, { wObj with isSealed := true }, by
    repeat' apply And.intro
    all_goals first | decide +kernel | exact decOkEq _ _ (by decide +kernel) | exact readyOf _ _ _ (by decide +kernel)⟩⟩

theorem test_meets_ObjectCommandsDoTheirWork_3 :
    (∃ (s : State) (id : CmdId) (c : Cmd) (n : Ns) (o : Obj),
    (s.live id false 0x8A = some c) ∧ (s.objectTurn id c = true) ∧ (s.objectTarget c = .ok n) ∧ (1 ≤ c.sqe.cdw12.toNat) ∧ (c.sqe.cdw13 = 0) ∧ (c.sqe.cdw14 = 0) ∧ (c.sqe.cdw15 = 0) ∧ (c.sqe.sgl = false) ∧ (s.objFor id (sqeNsid c.sqe) (sqeOid c.sqe) = some o)) ∧
    (∃ (s : State) (id : CmdId) (c : Cmd) (n : Ns) (o : Obj),
    (s.live id false 0x8C = some c) ∧ (s.objectTurn id c = true) ∧ (s.objectTarget c = .ok n) ∧ (c.sqe.cdw12 = 0) ∧ (c.sqe.cdw13 = 0) ∧ (c.sqe.cdw14 = 0) ∧ (c.sqe.cdw15 = 0) ∧ (s.obj (sqeNsid c.sqe) (sqeOid c.sqe) = some o)) :=
  ⟨⟨wHeld (wObjAt { wSqo 0x8A with cdw12 := 128 }), 5, wCmd { wSqo 0x8A with cdw12 := 128 }, wObjNs, wObj, by
    repeat' apply And.intro
    all_goals first | decide +kernel | exact decOkEq _ _ (by decide +kernel) | exact readyOf _ _ _ (by decide +kernel)⟩,
   ⟨wHeld (wObjAt (wSqo 0x8C)), 5, wCmd (wSqo 0x8C), wObjNs, wObj, by
    repeat' apply And.intro
    all_goals first | decide +kernel | exact decOkEq _ _ (by decide +kernel) | exact readyOf _ _ _ (by decide +kernel)⟩⟩

theorem test_meets_ChunksAreFingerprintedAndReleased_1 :
    (∃ (s : State) (nsid oid : Nat) (d : Obj × List CmdId),
    (s.objs.deleted.find? (s.releaseDue nsid oid) = some d) ∧ ((s.objs.deleted.erase d).any (fun x => x.1.mapNo == d.1.mapNo) = false) ∧ (s.objs.objects.any (fun x => x.mapNo == d.1.mapNo) = false)) ∧
    (∃ (s : State) (nsid oid : Nat) (d : Obj × List CmdId),
    (s.objs.deleted.find? (s.releaseDue nsid oid) = some d) ∧ ((s.objs.deleted.erase d).any (fun x => x.1.mapNo == d.1.mapNo) = true ∨ s.objs.objects.any (fun x => x.mapNo == d.1.mapNo) = true)) ∧
    (∃ (s : State) (nsid oid n : Nat) (o : Obj) (r : ChunkRef) (x : Chunk) (d : Bytes),
    (s.obj nsid oid = some o) ∧ (o.chunks[n]? = some r) ∧ (s.chunk r.chunk = some x) ∧ (r.hashed = false) ∧ (s.psm.mode.engines = true) ∧ (s.appending o.nsid o.oid = false) ∧ (x.len = 1048576 ∨ s.sealing o.nsid o.oid = true) ∧ (s.chunkBytes (.chunk r.chunk) r.chunk = some (some d))) ∧
    (∃ (s : State) (nsid oid n : Nat) (o : Obj) (r : ChunkRef),
    (s.obj nsid oid = some o) ∧ (o.chunks[n]? = some r) ∧ (r.hashed = true ∨ s.appending o.nsid o.oid = true)) :=
  ⟨⟨{ wHost with objs := { deleted := [(wObj1, [])], chunks := [(1, some wChunk)] } }, 1, 1, (wObj1, []), by
    repeat' apply And.intro
    all_goals first | decide +kernel | exact decOkEq _ _ (by decide +kernel) | exact readyOf _ _ _ (by decide +kernel)⟩,
   ⟨{ wHost with objs := { objects := [{ wObj1 with oid := 2 }], deleted := [(wObj1, [])], chunks := [(1, some wChunk)] } }, 1, 1, (wObj1, []), by
    repeat' apply And.intro
    all_goals first | decide +kernel | exact decOkEq _ _ (by decide +kernel) | exact readyOf _ _ _ (by decide +kernel)⟩,
   ⟨(let t := wSealing []; { t with nss := { t.nss with staged := [(.chunk 1, chunkKey 1 0, some [1])] } }), 1, 1, 0, wObj1, { chunk := 1 }, wChunk, [1], by
    repeat' apply And.intro
    all_goals first | decide +kernel | exact decOkEq _ _ (by decide +kernel) | exact readyOf _ _ _ (by decide +kernel)⟩,
   ⟨{ wHost with objs := { objects := [{ wObj with chunks := [{ chunk := 1, hashed := true }] }] } }, 1, 1, 0, { wObj with chunks := [{ chunk := 1, hashed := true }] }, { chunk := 1, hashed := true }, by
    repeat' apply And.intro
    all_goals first | decide +kernel | exact decOkEq _ _ (by decide +kernel) | exact readyOf _ _ _ (by decide +kernel)⟩⟩

theorem test_meets_ChunksAreFingerprintedAndReleased_2 :
    (∃ (s : State) (o : Obj) (n : Nat) (r : ChunkRef),
    (r.kept = true ∨ s.chiveLookup o.func r.digest r.chunk = none)) ∧
    (∃ (s : State) (o : Obj) (n : Nat) (r : ChunkRef) (e : Chive),
    (r.kept = false) ∧ (s.chiveLookup o.func r.digest r.chunk = some e) ∧ (o.verify = false)) ∧
    (∃ (s : State) (o : Obj) (n : Nat) (r : ChunkRef) (e : Chive),
    (r.kept = false) ∧ (s.chiveLookup o.func r.digest r.chunk = some e) ∧ (o.verify = true)) ∧
    (∃ (s : State) (f own : Nat) (d : Bytes),
    True) :=
  ⟨⟨wSealing [], wObj1, 0, { chunk := 1, digest := [7] }, by
    repeat' apply And.intro
    all_goals first | decide +kernel | exact decOkEq _ _ (by decide +kernel) | exact readyOf _ _ _ (by decide +kernel)⟩,
   ⟨wSealing [{ func := 0, digest := [7], chunk := 2, slot := 0 }], wObj1, 0, { chunk := 1, digest := [7] }, { func := 0, digest := [7], chunk := 2, slot := 0 }, by
    repeat' apply And.intro
    all_goals first | decide +kernel | exact decOkEq _ _ (by decide +kernel) | exact readyOf _ _ _ (by decide +kernel)⟩,
   ⟨wSealing [{ func := 0, digest := [7], chunk := 2, slot := 0 }], { wObj1 with verify := true }, 0, { chunk := 1, digest := [7] }, { func := 0, digest := [7], chunk := 2, slot := 0 }, by
    repeat' apply And.intro
    all_goals first | decide +kernel | exact decOkEq _ _ (by decide +kernel) | exact readyOf _ _ _ (by decide +kernel)⟩,
   ⟨wSealing [{ func := 0, digest := [7], chunk := 2, slot := 0 }], 0, 1, [7], by
    repeat' apply And.intro
    all_goals first | decide +kernel | exact decOkEq _ _ (by decide +kernel) | exact readyOf _ _ _ (by decide +kernel)⟩⟩

theorem test_meets_ChunksAreFingerprintedAndReleased_3 :
    (∃ (s : State) (nsid oid n t : Nat) (o : Obj) (r : ChunkRef) (y : Chunk) (a : Bytes),
    (s.obj nsid oid = some o) ∧ (o.chunks[n]? = some r) ∧ (r.verifyWith = some t) ∧ (s.chunk t = some y) ∧ (s.chunkBytes (.chunk r.chunk) r.chunk = some (some a)) ∧ (s.chunkBytes (.chunk r.chunk) t = some (some a))) ∧
    (∃ (s : State) (nsid oid n t : Nat) (o : Obj) (r : ChunkRef) (y : Chunk) (a b : Bytes),
    (s.obj nsid oid = some o) ∧ (o.chunks[n]? = some r) ∧ (r.verifyWith = some t) ∧ (s.chunk t = some y) ∧ (s.chunkBytes (.chunk r.chunk) r.chunk = some (some a)) ∧ (s.chunkBytes (.chunk r.chunk) t = some (some b)) ∧ (a ≠ b)) ∧
    (∃ (s : State) (nsid oid n t : Nat) (o : Obj) (r : ChunkRef) (y : Chunk) (x z : Option Bytes) (k : Bool),
    (s.obj nsid oid = some o) ∧ (o.chunks[n]? = some r) ∧ (r.verifyWith = some t) ∧ (s.chunk t = some y) ∧ (s.chunkBytes (.chunk r.chunk) r.chunk = some x) ∧ (s.chunkBytes (.chunk r.chunk) t = some z) ∧ (x = none ∨ z = none ∨ k = false)) ∧
    (∃ (s : State) (nsid oid n t : Nat) (o : Obj) (r : ChunkRef) (k : Bool),
    (s.obj nsid oid = some o) ∧ (o.chunks[n]? = some r) ∧ (r.verifyWith = some t) ∧ (s.chunk t = none)) :=
  ⟨⟨wCompare [1], 1, 1, 0, 2, { wObj with chunks := [{ chunk := 1, verifyWith := some 2 }] }, { chunk := 1, verifyWith := some 2 }, wChunk, [1], by
    repeat' apply And.intro
    all_goals first | decide +kernel | exact decOkEq _ _ (by decide +kernel) | exact readyOf _ _ _ (by decide +kernel)⟩,
   ⟨wCompare [2], 1, 1, 0, 2, { wObj with chunks := [{ chunk := 1, verifyWith := some 2 }] }, { chunk := 1, verifyWith := some 2 }, wChunk, [1], [2], by
    repeat' apply And.intro
    all_goals first | decide +kernel | exact decOkEq _ _ (by decide +kernel) | exact readyOf _ _ _ (by decide +kernel)⟩,
   ⟨(let w := wCompare [1]; { w with nss := { w.nss with staged := [(.chunk 1, chunkKey 1 0, some [1]), (.chunk 1, chunkKey 2 0, none)] } }), 1, 1, 0, 2, { wObj with chunks := [{ chunk := 1, verifyWith := some 2 }] }, { chunk := 1, verifyWith := some 2 }, wChunk, some [1], none, true, by
    repeat' apply And.intro
    all_goals first | decide +kernel | exact decOkEq _ _ (by decide +kernel) | exact readyOf _ _ _ (by decide +kernel)⟩,
   ⟨{ wHost with objs := { objects := [{ wObj with chunks := [{ chunk := 1, verifyWith := some 2 }] }], chunks := [(1, some wChunk)] } }, 1, 1, 0, 2, { wObj with chunks := [{ chunk := 1, verifyWith := some 2 }] }, { chunk := 1, verifyWith := some 2 }, false, by
    repeat' apply And.intro
    all_goals first | decide +kernel | exact decOkEq _ _ (by decide +kernel) | exact readyOf _ _ _ (by decide +kernel)⟩⟩

theorem test_meets_ChunksAreFingerprintedAndReleased_4 :
    (∃ (s : State) (f kind num : Nat) (ver : BitVec 16),
    True) :=
  ⟨wHost, 0, 0, 1, 2, by
    repeat' apply And.intro
    all_goals first | decide +kernel | exact decOkEq _ _ (by decide +kernel) | exact readyOf _ _ _ (by decide +kernel)⟩

theorem test_meets_ViewsAreBuiltAndSized_1 :
    (∃ (s : State) (id : CmdId) (c : Cmd) (p : ViewPlan) (rs : List (Obj × Nat × Nat)) (t : State) (l : List Source) (out : Bytes),
    (s.live id false 0x82 = some c) ∧ (viewForm c.sqe = 0) ∧ (s.objectTurn id c = true) ∧ (s.viewPlan id c = .ok p) ∧ (p.hook = none) ∧ (rs = s.viewRanges id c p 0 (p.ready c)) ∧ (t = s.fetchView id c rs) ∧ ((t.cmd id).any (fun x => x.result.isSome) = false) ∧ (t.viewSources id rs = some (some l)) ∧ (out = viewWindowed c.sqe (viewBytes p (p.ready c) l))) ∧
    (∃ (s : State) (id : CmdId) (c : Cmd) (p : ViewPlan) (rs : List (Obj × Nat × Nat)) (t : State) (l : List Source) (out : Bytes),
    (s.live id false 0x82 = some c) ∧ (viewForm c.sqe = 1) ∧ (s.objectTurn id c = true) ∧ (s.viewPlan id c = .ok p) ∧ (p.hook = none) ∧ (rs = s.viewRanges id c p 0 (p.ready c)) ∧ (t = s.fetchView id c rs) ∧ ((t.cmd id).any (fun x => x.result.isSome) = false) ∧ (t.viewSources id rs = some (some l)) ∧ (out = viewWindowed c.sqe (viewBytes p (p.ready c) l))) ∧
    (∃ (s : State) (id : CmdId) (c : Cmd) (p : ViewPlan) (rs : List (Obj × Nat × Nat)) (t : State) (l : List Source) (out : Bytes),
    (s.live id false 0x82 = some c) ∧ (viewForm c.sqe = 2) ∧ (s.objectTurn id c = true) ∧ (s.viewPlan id c = .ok p) ∧ (p.hook = none) ∧ (rs = s.viewRanges id c p 0 (p.ready c)) ∧ (t = s.fetchView id c rs) ∧ ((t.cmd id).any (fun x => x.result.isSome) = false) ∧ (t.viewSources id rs = some (some l)) ∧ (out = viewWindowed c.sqe (viewBytes p (p.ready c) l))) ∧
    (∃ (s : State) (id : CmdId) (c : Cmd) (p : ViewPlan) (rs : List (Obj × Nat × Nat)) (t : State) (l : List Source) (out : Bytes) (h : Nat),
    (s.live id false 0x82 = some c) ∧ (viewForm c.sqe = 0) ∧ (s.objectTurn id c = true) ∧ (s.viewPlan id c = .ok p) ∧ (p.hook = some h) ∧ (c.hook.outcome = none) ∧ (c.hook.chosen.length = p.frags.length) ∧ (rs = s.viewRanges id c p 0 (p.ready c)) ∧ (t = s.fetchView id c rs) ∧ ((t.cmd id).any (fun x => x.result.isSome) = false) ∧ (t.viewSources id rs = some (some l)) ∧ (out = viewWindowed c.sqe (viewBytes p (p.ready c) l))) :=
  ⟨⟨wViewAt 0 (wView 0x82 0), 5, wCmd (wView 0x82 0), okOf _ (by decide +kernel : ((wViewAt 0 (wView 0x82 0)).viewPlan 5 (wCmd (wView 0x82 0))).toOption.isSome = true), _, _, _, _, ⟨by decide +kernel, by decide +kernel, by decide +kernel, okOf_eq _ (by decide +kernel), by decide +kernel, rfl, rfl, by decide +kernel, someSome _ (by decide +kernel), rfl⟩⟩,
   ⟨wViewAt 0 (wView 0x82 1), 5, wCmd (wView 0x82 1), okOf _ (by decide +kernel : ((wViewAt 0 (wView 0x82 1)).viewPlan 5 (wCmd (wView 0x82 1))).toOption.isSome = true), _, _, _, _, ⟨by decide +kernel, by decide +kernel, by decide +kernel, okOf_eq _ (by decide +kernel), by decide +kernel, rfl, rfl, by decide +kernel, someSome _ (by decide +kernel), rfl⟩⟩,
   ⟨wViewAt 0 (wView 0x82 2), 5, wCmd (wView 0x82 2), okOf _ (by decide +kernel : ((wViewAt 0 (wView 0x82 2)).viewPlan 5 (wCmd (wView 0x82 2))).toOption.isSome = true), _, _, _, _, ⟨by decide +kernel, by decide +kernel, by decide +kernel, okOf_eq _ (by decide +kernel), by decide +kernel, rfl, rfl, by decide +kernel, someSome _ (by decide +kernel), rfl⟩⟩,
   ⟨wViewAt 1 (wView 0x82 0) { chosen := [1], next := 1 }, 5, { wCmd (wView 0x82 0) with hook := { chosen := [1], next := 1 } }, okOf _ (by decide +kernel : ((wViewAt 1 (wView 0x82 0) { chosen := [1], next := 1 }).viewPlan 5 ({ wCmd (wView 0x82 0) with hook := { chosen := [1], next := 1 } })).toOption.isSome = true), _, _, _, _, 3, ⟨by decide +kernel, by decide +kernel, by decide +kernel, okOf_eq _ (by decide +kernel), by decide +kernel, by decide +kernel, by decide +kernel, rfl, rfl, by decide +kernel, someSome _ (by decide +kernel), rfl⟩⟩⟩

theorem test_meets_ViewsAreBuiltAndSized_2 :
    (∃ (s : State) (id : CmdId) (c : Cmd) (p : ViewPlan) (rs : List (Obj × Nat × Nat)) (t : State),
    (s.live id false 0x82 = some c) ∧ (viewForm c.sqe = 2) ∧ (s.objectTurn id c = true) ∧ (s.viewPlan id c = .ok p) ∧ (p.hook = none) ∧ (rs = s.viewRanges id c p 0 (p.ready c)) ∧ (t = s.fetchView id c rs) ∧ ((t.cmd id).any (fun x => x.result.isSome) = false) ∧ (t.viewSources id rs = none)) ∧
    (∃ (s : State) (id : CmdId) (c : Cmd) (p : ViewPlan),
    (s.live id false 0x86 = some c) ∧ (viewForm c.sqe = 0) ∧ (s.objectTurn id c = true) ∧ (s.viewPlan id c = .ok p)) ∧
    (∃ (s : State) (id : CmdId) (c : Cmd) (p : ViewPlan),
    (s.live id false 0x86 = some c) ∧ (viewForm c.sqe = 1) ∧ (s.objectTurn id c = true) ∧ (s.viewPlan id c = .ok p)) ∧
    (∃ (s : State) (id : CmdId) (c : Cmd) (p : ViewPlan),
    (s.live id false 0x86 = some c) ∧ (viewForm c.sqe = 2) ∧ (s.objectTurn id c = true) ∧ (s.viewPlan id c = .ok p)) :=
  ⟨⟨wViewOut, 5, wCmd (wView 0x82 2), okOf _ (by decide +kernel : ((wViewOut).viewPlan 5 (wCmd (wView 0x82 2))).toOption.isSome = true), _, _, ⟨by decide +kernel, by decide +kernel, by decide +kernel, okOf_eq _ (by decide +kernel), by decide +kernel, rfl, rfl, by decide +kernel, by decide +kernel⟩⟩,
   ⟨wViewAt 0 (wView 0x86 0), 5, wCmd (wView 0x86 0), okOf _ (by decide +kernel : ((wViewAt 0 (wView 0x86 0)).viewPlan 5 (wCmd (wView 0x86 0))).toOption.isSome = true), ⟨by decide +kernel, by decide +kernel, by decide +kernel, okOf_eq _ (by decide +kernel)⟩⟩,
   ⟨wViewAt 0 (wView 0x86 1), 5, wCmd (wView 0x86 1), okOf _ (by decide +kernel : ((wViewAt 0 (wView 0x86 1)).viewPlan 5 (wCmd (wView 0x86 1))).toOption.isSome = true), ⟨by decide +kernel, by decide +kernel, by decide +kernel, okOf_eq _ (by decide +kernel)⟩⟩,
   ⟨wViewAt 0 (wView 0x86 2), 5, wCmd (wView 0x86 2), okOf _ (by decide +kernel : ((wViewAt 0 (wView 0x86 2)).viewPlan 5 (wCmd (wView 0x86 2))).toOption.isSome = true), ⟨by decide +kernel, by decide +kernel, by decide +kernel, okOf_eq _ (by decide +kernel)⟩⟩⟩

theorem test_meets_ViewsAreBuiltAndSized_3 :
    (∃ (s : State) (id : CmdId) (c : Cmd) (e : ViewError),
    (s.live id false 0x82 = some c) ∧ (viewForm c.sqe = 0) ∧ (s.objectTurn id c = true) ∧ (s.viewPlan id c = .error e)) :=
  ⟨wObjAt (wView 0x82 0), 5, wCmd (wView 0x82 0), (.objectUnknown, 0, 0), ⟨by decide +kernel, by decide +kernel, by decide +kernel, errIs _ _ (by decide +kernel)⟩⟩

theorem test_meets_HooksChooseVariants :
    (∃ (s : State) (id : CmdId) (c : Cmd) (p : ViewPlan) (h : Nat) (g : Prog),
    (s.hookedView id = some (c, p, h)) ∧ (c.hook.waiting = false) ∧ (c.hook.next = c.hook.chosen.length) ∧ (s.hookProgram id c.func h = some g) ∧ (g.queue.length < 256)) ∧
    (∃ (s : State) (id : CmdId) (c : Cmd) (p : ViewPlan) (h o : Nat),
    (s.hookedView id = some (c, p, h)) ∧ (c.hook.waiting = false) ∧ (c.hook.next = c.hook.chosen.length + 1) ∧ (s.hookChoice c p = some o)) ∧
    (∃ (s : State) (id : CmdId) (c : Cmd) (p : ViewPlan) (h : Nat),
    (s.hookedView id = some (c, p, h)) ∧ (c.hook.waiting = false) ∧ (c.hook.next = c.hook.chosen.length + 1) ∧ (s.hookChoice c p = none)) :=
  ⟨⟨wViewAt 1 (wView 0x82 0), 5, wCmd (wView 0x82 0), okOf _ (by decide +kernel : ((wViewAt 1 (wView 0x82 0)).viewPlan 5 (wCmd (wView 0x82 0))).toOption.isSome = true), 3, wHookProg, ⟨holds, holds, holds, holds, holds⟩⟩,
   ⟨wViewAt 1 (wView 0x82 0) { next := 1, token := 7, reply := [mkWord 1 7, mkWord 1 0, mkWord 1 0] }, 5, { wCmd (wView 0x82 0) with hook := { next := 1, token := 7, reply := [mkWord 1 7, mkWord 1 0, mkWord 1 0] } }, okOf _ (by decide +kernel : ((wViewAt 1 (wView 0x82 0)).viewPlan 5 (wCmd (wView 0x82 0))).toOption.isSome = true), 3, 1, ⟨by decide +kernel, by decide +kernel, by decide +kernel, by decide +kernel⟩⟩,
   ⟨wViewAt 1 (wView 0x82 0) { next := 1, token := 7, reply := [mkWord 1 8, mkWord 1 0, mkWord 1 0] }, 5, { wCmd (wView 0x82 0) with hook := { next := 1, token := 7, reply := [mkWord 1 8, mkWord 1 0, mkWord 1 0] } }, okOf _ (by decide +kernel : ((wViewAt 1 (wView 0x82 0)).viewPlan 5 (wCmd (wView 0x82 0))).toOption.isSome = true), 3, ⟨by decide +kernel, by decide +kernel, by decide +kernel, by decide +kernel⟩⟩⟩

theorem test_meets_ConfigurationIsStagedCommittedAndReverted_1 :
    (∃ (s : State) (f : Nat),
    (s.MbReady f 0x0201)) ∧
    (∃ (s : State) (f : Nat),
    (s.MbReady f 0x0202) ∧ (s.nvs.trial = false) ∧ (leAt (s.mbRequest f) 0 8 = 0) ∧ (leAt (s.mbRequest f) 8 4 = 0) ∧ (((s.mbRequest f).drop 16).length ≤ leAt (s.mbRequest f) 12 4) ∧ (leAt (s.mbRequest f) 12 4 ≤ 524288)) ∧
    (∃ (s : State) (f : Nat) (img : Bytes),
    (s.MbReady f 0x0202) ∧ (s.nvs.trial = false) ∧ (leAt (s.mbRequest f) 0 8 = 0) ∧ (leAt (s.mbRequest f) 8 4 ≠ 0) ∧ (s.nvs.stageOwner = f) ∧ ((s.cfgSlot 2).content = .partialImage) ∧ (leAt (s.mbRequest f) 12 4 = s.nvs.total) ∧ (leAt (s.mbRequest f) 8 4 = s.nvs.received) ∧ (img = (s.cfgSlot 2).image ++ (s.mbRequest f).drop 16) ∧ (img.length ≤ leAt (s.mbRequest f) 12 4) ∧ (leAt (s.mbRequest f) 12 4 ≤ 524288)) ∧
    (∃ (s : State) (f : Nat),
    (s.MbReady f 0x0203) ∧ (leAt (s.mbRequest f) 0 8 ≤ 3) ∧ ((s.cfgSlot (leAt (s.mbRequest f) 0 8)).content ≠ .empty)) :=
  ⟨⟨wBox 0x0201 [], 0, by
    repeat' apply And.intro
    all_goals first | decide +kernel | exact decOkEq _ _ (by decide +kernel) | exact readyOf _ _ _ (by decide +kernel)⟩,
   ⟨wBox 0x0202 (leBytes 12 0 ++ leBytes 4 64 ++ [1, 2]), 0, by
    repeat' apply And.intro
    all_goals first | decide +kernel | exact decOkEq _ _ (by decide +kernel) | exact readyOf _ _ _ (by decide +kernel)⟩,
   ⟨let s := wBox 0x0202 (leBytes 8 0 ++ leBytes 4 2 ++ leBytes 4 64 ++ [1, 2]); { s with nvs := { s.nvs with stageOwner := 0, received := 2, total := 64, slots := [(2, { content := .partialImage, image := [8, 9] })] } }, 0, [8, 9, 1, 2], by
    repeat' apply And.intro
    all_goals first | decide +kernel | exact decOkEq _ _ (by decide +kernel) | exact readyOf _ _ _ (by decide +kernel)⟩,
   ⟨let s := wBox 0x0203 (leBytes 8 2 ++ leBytes 8 0); { s with nvs := { s.nvs with slots := [(2, { content := .valid, image := [8, 9] })] } }, 0, by
    repeat' apply And.intro
    all_goals first | decide +kernel | exact decOkEq _ _ (by decide +kernel) | exact readyOf _ _ _ (by decide +kernel)⟩⟩

theorem test_meets_ConfigurationIsStagedCommittedAndReverted_2 :
    (∃ (s : State) (f t : Nat),
    (s.cfgBusy = false) ∧ (s.hif.activating = none) ∧ (s.MbReady f 0x0204) ∧ (leAt (s.mbRequest f) 0 4 = t) ∧ (t = 0 ∨ (10 ≤ t ∧ t ≤ 86400)) ∧ (s.nvs.trial = false) ∧ (leAt (s.mbRequest f) 4 4 = 0 ∨ leAt (s.mbRequest f) 4 4 = (s.cfgSlot 2).version)) ∧
    (∃ (s : State) (f : Nat),
    (s.cfgBusy = false) ∧ (s.hif.activating = none) ∧ (s.MbReady f 0x0206) ∧ (s.nvs.trial = true ∨ (s.cfgSlot 1).content ≠ .empty)) ∧
    (∃ (s : State),
    (s.nvs.trial = true) ∧ (s.nvs.trialLeft = 0) ∧ (s.nvs.reverting = none) ∧ (s.psm.mode.engines = true)) ∧
    (∃ (s : State) (reports : List ChanReport) (f t n : Nat),
    (s.ioDone = true) ∧ (s.psm.mode = .maintenance) ∧ (s.nvs.committing = some (f, t)) ∧ (s.failingCheck (s.cfgSlot 2) = some n)) :=
  ⟨⟨wBox 0x0204 (leBytes 4 60 ++ leBytes 4 0), 0, 60, by
    repeat' apply And.intro
    all_goals first | decide +kernel | exact decOkEq _ _ (by decide +kernel) | exact readyOf _ _ _ (by decide +kernel)⟩,
   ⟨let s := wBox 0x0206 []; { s with nvs := { s.nvs with trial := true } }, 0, by
    repeat' apply And.intro
    all_goals first | decide +kernel | exact decOkEq _ _ (by decide +kernel) | exact readyOf _ _ _ (by decide +kernel)⟩,
   ⟨{ wHost with nvs := { wHost.nvs with trial := true } }, by
    repeat' apply And.intro
    all_goals first | decide +kernel | exact decOkEq _ _ (by decide +kernel) | exact readyOf _ _ _ (by decide +kernel)⟩,
   ⟨{ wHost with psm := { mode := .maintenance }, nvs := { wHost.nvs with committing := some (0, 60) } }, [], 0, 60, 1, by
    repeat' apply And.intro
    all_goals first | decide +kernel | exact decOkEq _ _ (by decide +kernel) | exact readyOf _ _ _ (by decide +kernel)⟩⟩

theorem test_meets_ConfigurationIsStagedCommittedAndReverted_3 :
    (∃ (s : State) (reports : List ChanReport) (f t : Nat),
    (s.ioDone = true) ∧ (s.psm.mode = .maintenance) ∧ (s.nvs.committing = some (f, t))) ∧
    (∃ (s : State) (reports : List ChanReport) (why : Nat) (mb : Option Nat),
    (s.ioDone = true) ∧ (s.psm.mode = .maintenance) ∧ (s.nvs.committing = none) ∧ (s.nvs.reverting = some (why, mb))) ∧
    (∃ (s : State) (f : Nat),
    (s.MbReady f 0x0205) ∧ (s.nvs.trial = true) ∧ (s.nvs.reverting = none) ∧ (leAt (s.mbRequest f) 0 8 = (s.cfgSlot 0).fp)) ∧
    (∃ (s : State) (f : Nat),
    (s.MbReady f 0x0207) ∧ (s.nvs.trial = false) ∧ ((s.cfgSlot 3).content ≠ .empty)) :=
  ⟨⟨{ wHost with psm := { mode := .maintenance }, nvs := { wHost.nvs with committing := some (0, 60) } }, [], 0, 60, by
    repeat' apply And.intro
    all_goals first | decide +kernel | exact decOkEq _ _ (by decide +kernel) | exact readyOf _ _ _ (by decide +kernel)⟩,
   ⟨{ wHost with psm := { mode := .maintenance }, nvs := { wHost.nvs with reverting := some (2, none), trial := true } }, [], 2, none, by
    repeat' apply And.intro
    all_goals first | decide +kernel | exact decOkEq _ _ (by decide +kernel) | exact readyOf _ _ _ (by decide +kernel)⟩,
   ⟨let s := wBox 0x0205 (leBytes 8 0); { s with nvs := { s.nvs with trial := true } }, 0, by
    repeat' apply And.intro
    all_goals first | decide +kernel | exact decOkEq _ _ (by decide +kernel) | exact readyOf _ _ _ (by decide +kernel)⟩,
   ⟨let s := wBox 0x0207 []; { s with nvs := { s.nvs with slots := [(3, { content := .valid, image := padTo 64 [] })] } }, 0, by
    repeat' apply And.intro
    all_goals first | decide +kernel | exact decOkEq _ _ (by decide +kernel) | exact readyOf _ _ _ (by decide +kernel)⟩⟩

theorem test_meets_TenantsAreReportedAndRated :
    (∃ (s : State) (f : Nat),
    (s.MbReady f 0x0301) ∧ (byteAt (s.mbRequest f) 0 ≤ 127) ∧ (f < 2 ∨ byteAt (s.mbRequest f) 0 = f)) ∧
    (∃ (s : State) (f : Nat),
    (s.MbReady f 0x0302) ∧ (byteAt (s.mbRequest f) 0 ≤ 127) ∧ (allZero (slice (s.mbRequest f) 1 7) = true) ∧ (rateOk (slice (s.mbRequest f) 8 8) = true)) :=
  ⟨⟨wBox 0x0301 [0], 0, by
    repeat' apply And.intro
    all_goals first | decide +kernel | exact decOkEq _ _ (by decide +kernel) | exact readyOf _ _ _ (by decide +kernel)⟩,
   ⟨wBox 0x0302 [0, 0, 0, 0, 0, 0, 0, 0, 0, 0, 1, 0, 0, 0, 1, 0], 0, by
    repeat' apply And.intro
    all_goals first | decide +kernel | exact decOkEq _ _ (by decide +kernel) | exact readyOf _ _ _ (by decide +kernel)⟩⟩

theorem test_meets_MigrationCommandsDoTheirWork_1 :
    (∃ (s : State) (f g : Nat) (d : Dirty),
    (s.MbReady f 0x0310) ∧ (byteAt (s.mbRequest f) 0 = g) ∧ (s.isVf g = true) ∧ (allZero (slice (s.mbRequest f) 1 3) = true) ∧ (1 ≤ leAt (s.mbRequest f) 4 4) ∧ (leAt (s.mbRequest f) 4 4 ≤ 16777216) ∧ (leAt (s.mbRequest f) 8 8 % 4096 = 0) ∧ (leAt (s.mbRequest f) 16 8 % 64 = 0) ∧ (leAt (s.mbRequest f) 24 8 % 64 = 0) ∧ (d = { base := leAt (s.mbRequest f) 8 8, pages := leAt (s.mbRequest f) 4 4, bufA := leAt (s.mbRequest f) 16 8, bufB := leAt (s.mbRequest f) 24 8, pf := f })) ∧
    (∃ (s : State) (f g : Nat) (d : Dirty),
    (s.MbReady f 0x0311) ∧ (byteAt (s.mbRequest f) 0 = g) ∧ ((s.fn g).dirty = some d)) ∧
    (∃ (s : State) (f g : Nat) (d : Dirty),
    (s.MbReady f 0x0312) ∧ (byteAt (s.mbRequest f) 0 = g) ∧ ((s.fn g).dirty = some d)) ∧
    (∃ (s : State) (f g : Nat),
    (s.MbReady f 0x0313) ∧ (byteAt (s.mbRequest f) 0 = g) ∧ (s.isVf g = true) ∧ (∀ e ∈ s.fns, e.2.quiesceBy = none) ∧ (s.workEnded g = false)) :=
  ⟨⟨wVf (wBox 0x0310 (leBytes 4 2 ++ leBytes 4 8 ++ padTo 24 [])), 0, 2, { base := 0, pages := 8, bufA := 0, bufB := 0, pf := 0 }, by
    repeat' apply And.intro
    all_goals first | decide +kernel | exact decOkEq _ _ (by decide +kernel) | exact readyOf _ _ _ (by decide +kernel)⟩,
   ⟨(wVf (wBox 0x0311 [2])).updFn 2 (fun x => { x with dirty := some wDirty }), 0, 2, wDirty, by
    repeat' apply And.intro
    all_goals first | decide +kernel | exact decOkEq _ _ (by decide +kernel) | exact readyOf _ _ _ (by decide +kernel)⟩,
   ⟨(wVf (wBox 0x0312 [2])).updFn 2 (fun x => { x with dirty := some wDirty }), 0, 2, wDirty, by
    repeat' apply And.intro
    all_goals first | decide +kernel | exact decOkEq _ _ (by decide +kernel) | exact readyOf _ _ _ (by decide +kernel)⟩,
   ⟨(wVf (wBox 0x0313 [2])).setCmd 5 (some { wCmd (wSqe false 2) with func := 2 }), 0, 2, ⟨readyOf _ _ _ (by decide +kernel), by decide +kernel, by decide +kernel, by decide +kernel, by decide +kernel⟩⟩⟩

theorem test_meets_MigrationCommandsDoTheirWork_2 :
    (∃ (s : State) (f g : Nat),
    ((s.mb f).waiting = true) ∧ ((s.mb f).unchecked = false) ∧ ((s.mb f).orphans = []) ∧ ((s.fn g).quiesceBy = some f) ∧ (s.fns.filter (fun e => e.2.quiesceBy == some f || e.2.quiesceBy == some (orphanOf f) || e.2.quiesceBy == some nobody) = [(g, s.fn g)]) ∧ (s.workEnded g = true)) ∧
    (∃ (s : State) (f g : Nat) (l : List (Nat × Nat)),
    (s.MbReady f 0x0314) ∧ (byteAt (s.mbRequest f) 0 = g) ∧ (s.isVf g = true) ∧ ((s.fn g).pendingDoorbells = l)) ∧
    (∃ (s : State) (f g slot : Nat) (k img : Bytes) (x : State),
    (s.MbReady f 0x0315) ∧ (field (leAt (s.mbRequest f) 0 8) 7 0 = g) ∧ (field (leAt (s.mbRequest f) 0 8) 23 8 = slot) ∧ (field (leAt (s.mbRequest f) 0 8) 63 24 = 0) ∧ (s.isVf g = true) ∧ (leAt (s.mbRequest f) 8 4 = 0) ∧ (s.macKey f slot = .ok k) ∧ ((s.fn g).quiesced = true) ∧ ((s.fn g).quiesceBy = none) ∧ (img = s.migImage g slot k) ∧ (x = s.updMb f (fun m => { m with parts := (s.mb f).parts.filter (fun x => x.cmd != 0x0315) ++
    [{ cmd := 0x0315, sel := leAt (s.mbRequest f) 0 8, total := img.length, bytes := img }] }))) ∧
    (∃ (s t : State) (f g : Nat) (img : Bytes),
    (s.MbReady f 0x0316) ∧ (leAt (s.mbRequest f) 0 8 = g) ∧ (s.isVf g = true) ∧ (s.loadPiece f 0x0316 (s.mbRequest f) = (t, .ok (some img))) ∧ ((t.fn g).quiesced = true) ∧ (leAt img 0 4 ≠ 0x494D584C)) :=
  ⟨⟨(wVf wHost).updFn 2 (fun x => { x with quiesced := true, quiesceBy := some 0 }) |>.updMb 0 (fun m => { m with state := .busy, waiting := true }), 0, 2, by
    repeat' apply And.intro
    all_goals first | decide +kernel | exact decOkEq _ _ (by decide +kernel) | exact readyOf _ _ _ (by decide +kernel)⟩,
   ⟨(wVf (wBox 0x0314 [2])).updFn 2 (fun x => { x with quiesced := true, pendingDoorbells := [(0, 1)] }), 0, 2, [(0, 1)], by
    repeat' apply And.intro
    all_goals first | decide +kernel | exact decOkEq _ _ (by decide +kernel) | exact readyOf _ _ _ (by decide +kernel)⟩,
   ⟨(wVf (wBox 0x0315 (padTo 16 [2]))).updFn 2 (fun x => { x with quiesced := true }) |>.setSlot 0 { key := some { bytes := [7], attr := 0x20 } }, 0, 2, 0, [7], _, _, ⟨readyOf _ _ _ (by decide +kernel), holds, holds, holds, holds, holds, decOkEq _ _ (by decide +kernel), holds, holds, rfl, rfl⟩⟩,
   ⟨wRestore, (wRestore.loadPiece 0 0x0316 (wRestore.mbRequest 0)).1, 0, 2, [7], ⟨readyOf _ _ _ (by decide +kernel), by decide +kernel, by decide +kernel, pairOk _ _ (by decide +kernel), by decide +kernel, by decide +kernel⟩⟩⟩

theorem test_meets_MigrationCommandsDoTheirWork_3 :
    (∃ (s t : State) (f g : Nat) (img : Bytes) (ns : List Nat),
    (s.MbReady f 0x0316) ∧ (leAt (s.mbRequest f) 0 8 = g) ∧ (s.isVf g = true) ∧ (s.loadPiece f 0x0316 (s.mbRequest f) = (t, .ok (some img))) ∧ ((t.fn g).quiesced = true)) :=
  ⟨wRestore, (wRestore.loadPiece 0 0x0316 (wRestore.mbRequest 0)).1, 0, 2, [7], [], ⟨readyOf _ _ _ (by decide +kernel), by decide +kernel, by decide +kernel, pairOk _ _ (by decide +kernel), by decide +kernel⟩⟩

theorem test_meets_KeysAreImportedErasedAndSettled_1 :
    (∃ (s : State) (f : Nat),
    (s.MbReady f 0x0401) ∧ (s.importCause f (s.mbRequest f) = none) ∧ (keyUnwrap ((s.fn f).kek.getD []) (slice (s.mbRequest f) 4 ((s.mbRequest f).length - 8)) = none)) :=
  ⟨(wBox 0x0401 (leBytes 2 3 ++ leBytes 2 0x01 ++ padTo 28 [])).updFn 0 (fun x => { x with kek := some (padTo 32 [1]) }), 0, by
    repeat' apply And.intro
    all_goals first | decide +kernel | exact decOkEq _ _ (by decide +kernel) | exact readyOf _ _ _ (by decide +kernel)⟩

theorem test_meets_KeysAreImportedErasedAndSettled_2 :
    (∃ (s t : State) (f n : Nat) (k : Bytes) (key : Key),
    (s.MbReady f 0x0401) ∧ (s.importCause f (s.mbRequest f) = none) ∧ (keyUnwrap ((s.fn f).kek.getD []) (slice (s.mbRequest f) 4 ((s.mbRequest f).length - 8)) = some k) ∧ (leAt (s.mbRequest f) 0 2 = n) ∧ (s.raiseEpoch f = t) ∧ (key = { bytes := k, attr := BitVec.ofNat 16 (leAt (s.mbRequest f) 2 2), fixed := BitVec.ofNat 32 (leAt (s.mbRequest f) (4 + ((s.mbRequest f).length - 8)) 4) })) :=
  ⟨wImport, wImport.raiseEpoch 0, 0, 3, padTo 16 [1, 2], { bytes := padTo 16 [1, 2], attr := 1 }, ⟨readyOf _ _ _ (by decide +kernel), by decide +kernel, by decide +kernel, by decide +kernel, rfl, by decide +kernel⟩⟩

theorem test_meets_KeysAreImportedErasedAndSettled_3 :
    (∃ (s t : State) (f n : Nat),
    (s.MbReady f 0x0402) ∧ (leAt (s.mbRequest f) 0 2 = n) ∧ (s.ownsSlot f n = true) ∧ ((s.slot n).code = 1 ∨ (s.slot n).code = 3) ∧ (s.raiseEpoch f = t)) :=
  ⟨(wBox 0x0402 [3, 0]).setSlot 3 { key := some { bytes := [1], attr := 1 } }, _, 0, 3, ⟨readyOf _ _ _ (by decide +kernel), by decide +kernel, by decide +kernel, by decide +kernel, rfl⟩⟩

theorem test_meets_KeysAreImportedErasedAndSettled_4 :
    (∃ (s : State) (f n : Nat),
    (s.MbReady f 0x0402) ∧ (leAt (s.mbRequest f) 0 2 = n) ∧ (s.ownsSlot f n = true) ∧ ((s.slot n).code = 2)) :=
  ⟨(wBox 0x0402 [3, 0]).setSlot 3 { staged := some (1, none) }, 0, 3, by
    repeat' apply And.intro
    all_goals first | decide +kernel | exact decOkEq _ _ (by decide +kernel) | exact readyOf _ _ _ (by decide +kernel)⟩

theorem test_meets_KeysAreImportedErasedAndSettled_5 :
    (∃ (s : State) (f : Nat),
    (s.MbReady f 0x0403) ∧ (s.ownsSlot f (leAt (s.mbRequest f) 0 2) = true)) :=
  ⟨wBox 0x0403 [3, 0], 0, by
    repeat' apply And.intro
    all_goals first | decide +kernel | exact decOkEq _ _ (by decide +kernel) | exact readyOf _ _ _ (by decide +kernel)⟩

theorem test_meets_KeysAreImportedErasedAndSettled_6 :
    (∃ (s : State) (f g : Nat) (tk k : Bytes),
    (s.MbReady f 0x0404) ∧ (byteAt (s.mbRequest f) 0 = g) ∧ (g ≤ 127) ∧ (allZero (slice (s.mbRequest f) 1 7) = true) ∧ (s.nvs.transportKey = some tk) ∧ (keyUnwrap tk (slice (s.mbRequest f) 8 40) = some k)) :=
  ⟨wKek 0, 0, 0, padTo 32 [9], padTo 32 [1, 2], by
    repeat' apply And.intro
    all_goals first | decide +kernel | exact decOkEq _ _ (by decide +kernel) | exact readyOf _ _ _ (by decide +kernel)⟩

theorem test_meets_KeysAreImportedErasedAndSettled_7 :
    (∃ (s : State) (f : Nat) (tk k : Bytes),
    (s.MbReady f 0x0404) ∧ (byteAt (s.mbRequest f) 0 = 255) ∧ (allZero (slice (s.mbRequest f) 1 7) = true) ∧ (s.nvs.transportKey = some tk) ∧ (keyUnwrap tk (slice (s.mbRequest f) 8 40) = some k)) :=
  ⟨wKek 255, 0, padTo 32 [9], padTo 32 [1, 2], by
    repeat' apply And.intro
    all_goals first | decide +kernel | exact decOkEq _ _ (by decide +kernel) | exact readyOf _ _ _ (by decide +kernel)⟩

theorem test_meets_KeysAreImportedErasedAndSettled_8 :
    (∃ (s : State) (n : Nat) (big : BitVec 16) (old : Option Key),
    ((s.slot n).staged = some (big, old)) ∧ (s.stampedBefore (s.slot n).func big = false)) :=
  ⟨wHost.setSlot 3 { staged := some (1, none) }, 3, 1, none, by
    repeat' apply And.intro
    all_goals first | decide +kernel | exact decOkEq _ _ (by decide +kernel) | exact readyOf _ _ _ (by decide +kernel)⟩

theorem test_meets_KeysAreImportedErasedAndSettled_9 :
    (∃ (s : State) (n : Nat) (big : BitVec 16) (old : Option Key),
    ((s.slot n).staged = some (big, old)) ∧ (s.stampedBefore (s.slot n).func big = true)) :=
  ⟨(wAt (wSqe false 2)).setSlot 3 { staged := some (1, none) }, 3, 1, none, by
    repeat' apply And.intro
    all_goals first | decide +kernel | exact decOkEq _ _ (by decide +kernel) | exact readyOf _ _ _ (by decide +kernel)⟩

theorem test_meets_ProfilesAreLoadedAndUnloaded_1 :
    (∃ (s t : State) (f : Nat) (img : Bytes),
    (s.MbReady f 0x0501) ∧ (bit (leAt (s.mbRequest f) 0 8) 8 = false) ∧ (leAt (s.mbRequest f) 0 8 < 512) ∧ (s.loadPiece f 0x0501 (s.mbRequest f) = (t, .ok (some img)))) ∧
    (∃ (s t : State) (f : Nat),
    (s.MbReady f 0x0501) ∧ (bit (leAt (s.mbRequest f) 0 8) 8 = false) ∧ (leAt (s.mbRequest f) 0 8 < 512) ∧ (s.loadPiece f 0x0501 (s.mbRequest f) = (t, .ok none))) ∧
    (∃ (s t : State) (f : Nat) (img : Bytes),
    (s.MbReady f 0x0501) ∧ (bit (leAt (s.mbRequest f) 0 8) 8 = true) ∧ (leAt (s.mbRequest f) 0 8 < 512) ∧ (s.loadPiece f 0x0501 (s.mbRequest f) = (t, .ok (some img)))) ∧
    (∃ (s t : State) (f : Nat),
    (s.MbReady f 0x0501) ∧ (bit (leAt (s.mbRequest f) 0 8) 8 = true) ∧ (leAt (s.mbRequest f) 0 8 < 512) ∧ (s.loadPiece f 0x0501 (s.mbRequest f) = (t, .ok none))) :=
  ⟨⟨wLoad 0x0501 2 1, ((wLoad 0x0501 2 1).loadPiece 0 0x0501 ((wLoad 0x0501 2 1).mbRequest 0)).1, 0, [7], ⟨readyOf _ _ _ (by decide +kernel), by decide +kernel, by decide +kernel, pairOk _ _ (by decide +kernel)⟩⟩,
   ⟨wLoad 0x0501 2 2, ((wLoad 0x0501 2 2).loadPiece 0 0x0501 ((wLoad 0x0501 2 2).mbRequest 0)).1, 0, ⟨readyOf _ _ _ (by decide +kernel), by decide +kernel, by decide +kernel, pairOk _ _ (by decide +kernel)⟩⟩,
   ⟨wLoad 0x0501 258 1, ((wLoad 0x0501 258 1).loadPiece 0 0x0501 ((wLoad 0x0501 258 1).mbRequest 0)).1, 0, [7], ⟨readyOf _ _ _ (by decide +kernel), by decide +kernel, by decide +kernel, pairOk _ _ (by decide +kernel)⟩⟩,
   ⟨wLoad 0x0501 258 2, ((wLoad 0x0501 258 2).loadPiece 0 0x0501 ((wLoad 0x0501 258 2).mbRequest 0)).1, 0, ⟨readyOf _ _ _ (by decide +kernel), by decide +kernel, by decide +kernel, pairOk _ _ (by decide +kernel)⟩⟩⟩

theorem test_meets_ProfilesAreLoadedAndUnloaded_2 :
    (∃ (s : State) (f num kind : Nat) (record : Bytes),
    ((if kind = 0 then pkgCheck record else encCheck record) = 0) ∧ ((s.versions f kind num).countP (fun p => !p.current) < 3)) ∧
    (∃ (s : State) (f num kind : Nat),
    (s.MbReady f 0x0502) ∧ (byteAt (s.mbRequest f) 0 = num) ∧ (byteAt (s.mbRequest f) 1 = kind) ∧ (kind ≤ 1) ∧ ((s.versions f kind num).all (fun v => !v.current) = false)) ∧
    (∃ (s : State) (f : Nat) (vs : List Profile),
    (s.MbReady f 0x0503) ∧ (byteAt (s.mbRequest f) 1 ≤ 1) ∧ (s.versions f (byteAt (s.mbRequest f) 1) (byteAt (s.mbRequest f) 0) = vs) ∧ (vs ≠ [])) :=
  ⟨⟨wHost, 0, 2, 1, padTo 64 [], by
    repeat' apply And.intro
    all_goals first | decide +kernel | exact decOkEq _ _ (by decide +kernel) | exact readyOf _ _ _ (by decide +kernel)⟩,
   ⟨{ wBox 0x0502 [2, 0] with objs := { profiles := [wProf 0] } }, 0, 2, 0, by
    repeat' apply And.intro
    all_goals first | decide +kernel | exact decOkEq _ _ (by decide +kernel) | exact readyOf _ _ _ (by decide +kernel)⟩,
   ⟨{ wBox 0x0503 [2, 0] with objs := { profiles := [wProf 0] } }, 0, [wProf 0], by
    repeat' apply And.intro
    all_goals first | decide +kernel | exact decOkEq _ _ (by decide +kernel) | exact readyOf _ _ _ (by decide +kernel)⟩⟩

theorem test_meets_ProgramsAreLoadedAndUnloaded_1 :
    (∃ (s t : State) (f : Nat) (b : Bytes),
    (s.MbReady f 0x0601) ∧ (leAt (s.mbRequest f) 0 8 = 0) ∧ (s.loadPiece f 0x0601 (s.mbRequest f) = (t, .ok (some b)))) ∧
    (∃ (s t : State) (f : Nat),
    (s.MbReady f 0x0601) ∧ (leAt (s.mbRequest f) 0 8 = 0) ∧ (s.loadPiece f 0x0601 (s.mbRequest f) = (t, .ok none))) ∧
    (∃ (s t : State) (f : Nat) (b : Bytes),
    (s.MbReady f 0x0601) ∧ (leAt (s.mbRequest f) 0 8 = 1) ∧ (s.loadPiece f 0x0601 (s.mbRequest f) = (t, .ok (some b)))) ∧
    (∃ (s t : State) (f : Nat),
    (s.MbReady f 0x0601) ∧ (leAt (s.mbRequest f) 0 8 = 1) ∧ (s.loadPiece f 0x0601 (s.mbRequest f) = (t, .ok none))) :=
  ⟨⟨wLoad 0x0601 0 1, ((wLoad 0x0601 0 1).loadPiece 0 0x0601 ((wLoad 0x0601 0 1).mbRequest 0)).1, 0, [7], ⟨readyOf _ _ _ (by decide +kernel), by decide +kernel, pairOk _ _ (by decide +kernel)⟩⟩,
   ⟨wLoad 0x0601 0 2, ((wLoad 0x0601 0 2).loadPiece 0 0x0601 ((wLoad 0x0601 0 2).mbRequest 0)).1, 0, ⟨readyOf _ _ _ (by decide +kernel), by decide +kernel, pairOk _ _ (by decide +kernel)⟩⟩,
   ⟨wLoad 0x0601 1 1, ((wLoad 0x0601 1 1).loadPiece 0 0x0601 ((wLoad 0x0601 1 1).mbRequest 0)).1, 0, [7], ⟨readyOf _ _ _ (by decide +kernel), by decide +kernel, pairOk _ _ (by decide +kernel)⟩⟩,
   ⟨wLoad 0x0601 1 2, ((wLoad 0x0601 1 2).loadPiece 0 0x0601 ((wLoad 0x0601 1 2).mbRequest 0)).1, 0, ⟨readyOf _ _ _ (by decide +kernel), by decide +kernel, pairOk _ _ (by decide +kernel)⟩⟩⟩

theorem test_meets_ProgramsAreLoadedAndUnloaded_2 :
    (∃ (s : State) (f fmt n : Nat) (p q : Prog),
    (s.placeFor p n = some q) ∧ (p.func = f) ∧ ((s.fn f).nextHandle ≤ 65535)) ∧
    (∃ (s : State) (f fmt n check : Nat) (p : Prog),
    (check ≠ 0)) ∧
    (∃ (s : State) (f : Nat) (q : Prog),
    (s.MbReady f 0x0603) ∧ (s.prog f (leAt (s.mbRequest f) 0 2) = some q)) ∧
    (∃ (s : State) (f h : Nat) (q : Prog),
    (s.MbReady f 0x0602) ∧ (leAt (s.mbRequest f) 0 2 = h) ∧ (s.prog f h = some q) ∧ (q.unloading = false)) :=
  ⟨⟨wHost, 0, 1, 1, lxProg 0 [], { lxProg 0 [] with sculls := [0], sharedAt := [] }, by
    repeat' apply And.intro
    all_goals first | decide +kernel | exact decOkEq _ _ (by decide +kernel) | exact readyOf _ _ _ (by decide +kernel)⟩,
   ⟨wHost, 0, 1, 1, 8, lxProg 0 [], by
    repeat' apply And.intro
    all_goals first | decide +kernel | exact decOkEq _ _ (by decide +kernel) | exact readyOf _ _ _ (by decide +kernel)⟩,
   ⟨wProg (wBox 0x0603 [3, 0]) wHookProg, 0, wHookProg, by
    repeat' apply And.intro
    all_goals first | decide +kernel | exact decOkEq _ _ (by decide +kernel) | exact readyOf _ _ _ (by decide +kernel)⟩,
   ⟨wProg (wBox 0x0602 [3, 0]) wHookProg, 0, 3, wHookProg, by
    repeat' apply And.intro
    all_goals first | decide +kernel | exact decOkEq _ _ (by decide +kernel) | exact readyOf _ _ _ (by decide +kernel)⟩⟩

theorem test_meets_ProgramsAreLoadedAndUnloaded_3 :
    (∃ (s : State) (f h : Nat) (p : Prog),
    (s.prog f h = some p) ∧ (p.unloading = true) ∧ (p.queue = []) ∧ (∀ id ∈ p.keepFor, ∀ c, s.cmd id = some c → c.result ≠ none) ∧ (∀ k ∈ p.sculls, (s.scull k).running = false)) :=
  ⟨wProg wHost { wHookProg with unloading := true, keepFor := [9] }, 0, 3, { wHookProg with unloading := true, keepFor := [9] }, by
    repeat' apply And.intro
    all_goals first | decide +kernel | exact decOkEq _ _ (by decide +kernel) | exact readyOf _ _ _ (by decide +kernel)⟩

theorem test_meets_InvocationsAreQueuedStartedAndEnded_1 :
    (∃ (s : State) (id : CmdId) (data : Bytes) (c : Cmd) (p : Prog),
    (s.live id false 0x97 = some c) ∧ (c.moved = false) ∧ (c.away = false) ∧ (c.sqe.nsid = 0xFFFFFFFF) ∧ (s.progFor id c.func (invHandle c.sqe) = some p) ∧ (p.useInvoke = true) ∧ (invFieldsOk c.sqe = true) ∧ (c.sqe.sgl = false) ∧ (allZero (slice (padTo 64 data) 52 12) = true) ∧ (argBudget (padTo 64 data) ≤ p.budget) ∧ ((List.range 8).all (fun i => s.argSlotOk c (argSlot (padTo 64 data) i)) = true) ∧ (p.queue.length < 256)) ∧
    (∃ (s : State) (id : CmdId) (data : Bytes) (c : Cmd) (p : Prog),
    (s.live id false 0x97 = some c) ∧ (c.moved = false) ∧ (c.away = false) ∧ (c.sqe.nsid = 0xFFFFFFFF) ∧ (s.progFor id c.func (invHandle c.sqe) = some p) ∧ (p.useInvoke = true) ∧ (invFieldsOk c.sqe = true) ∧ (c.sqe.sgl = false) ∧ (allZero (slice (padTo 64 data) 52 12) = true) ∧ (argBudget (padTo 64 data) ≤ p.budget) ∧ ((List.range 8).all (fun i => s.argSlotOk c (argSlot (padTo 64 data) i)) = true) ∧ (256 ≤ p.queue.length)) ∧
    (∃ (s s1 : State) (id : CmdId) (c : Cmd) (n : Ns) (bs : List (Bytes × Bytes)) (feed : Bytes) (p : Prog),
    (s.live id false 0x92 = some c) ∧ (c.moved = false) ∧ (c.away = false) ∧ (s.filterChecks id c = .ok n) ∧ (s.readProgress id c n (lockRange n c.sqe) = s1) ∧ (s1.readBlocks id c n (lockRange n c.sqe) = some (some bs)) ∧ (filterFeed c.sqe ((bs.map (·.1)).flatten) = .ok feed) ∧ (s1.prog c.func (filHandle c.sqe) = some p) ∧ (p.queue.length < 256)) ∧
    (∃ (s : State) (f h k at_ : Nat) (p : Prog) (st : Start) (l : List Start) (x : Cmd) (u : Setup),
    (s.prog f h = some p) ∧ (p.queue = st :: l) ∧ (s.psm.mode.runsSculls = true) ∧ (s.cmd st.cmd = some x) ∧ (x.result = none) ∧ (p.sculls.find? (fun k => (s.scull k).free) = some k) ∧ ((s.setupFor p st x).1 = u) ∧ (lowestGap s.splUsed (if u.code = 0 ∧ !u.stream then splRound u.inLen + splRound u.outLen else 0) 41943040 = some at_)) :=
  ⟨⟨wProg (wAt wInvoke) wInvProg, 5, List.replicate 16 255, wCmd wInvoke, wInvProg, by
    repeat' apply And.intro
    all_goals first | decide +kernel | exact decOkEq _ _ (by decide +kernel) | exact readyOf _ _ _ (by decide +kernel)⟩,
   ⟨wProg (wAt wInvoke) { wInvProg with queue := List.replicate 256 (.invoke 1) }, 5, List.replicate 16 255, wCmd wInvoke, { wInvProg with queue := List.replicate 256 (.invoke 1) }, by
    repeat' apply And.intro
    all_goals first | decide +kernel | exact decOkEq _ _ (by decide +kernel) | exact readyOf _ _ _ (by decide +kernel)⟩,
   ⟨wFil, wFil.readProgress 5 (wFilCmd) wNs (lockRange wNs wFiltered), 5, wFilCmd, wNs, _, _, wFilProg, ⟨by decide +kernel, by decide +kernel, by decide +kernel, decOkEq _ _ (by decide +kernel), rfl, someSome _ (by decide +kernel), rfl, by decide +kernel, by decide +kernel⟩⟩,
   ⟨wStart, 0, 3, 0, 0, { wInvProg with queue := [.invoke 5] }, .invoke 5, [], { wCmd wInvoke with data := List.replicate 16 255, moved := true }, _, ⟨holds, holds, holds, holds, holds, holds, rfl, holds⟩⟩⟩

theorem test_meets_InvocationsAreQueuedStartedAndEnded_2 :
    (∃ (s : State) (k : Nat) (c : Scull),
    (k < 32) ∧ (s.scull k = c) ∧ (c.running = true) ∧ (c.trapped = true) ∧ ((List.range 5).all (fun p => Mem.get 0 c.outstanding p == 0) = true)) :=
  ⟨wHost.setScull 0 { running := true, trapped := true }, 0, { running := true, trapped := true }, by
    repeat' apply And.intro
    all_goals first | decide +kernel | exact decOkEq _ _ (by decide +kernel) | exact readyOf _ _ _ (by decide +kernel)⟩

theorem test_meets_TablesAreCreatedDeletedAndReported_1 :
    (∃ (s : State) (f n id : Nat) (t : Tenant),
    (s.MbReady f 0x0701) ∧ (leAt (s.mbRequest f) 0 16 = n) ∧ (field n 1 0 ≠ 3) ∧ (field n 15 3 = 0) ∧ (1 ≤ field n 24 16) ∧ (field n 24 16 ≤ 384) ∧ (field n 127 25 = 0) ∧ (s.tenant f = some t) ∧ (s.asuCharged f + 512 * field n 24 16 ≤ t.asuQuota) ∧ (1 ≤ id) ∧ (id ≤ 64) ∧ (s.table f id = none) ∧ (∀ i, 1 ≤ i → i < id → s.table f i ≠ none)) ∧
    (∃ (s : State) (f n : Nat) (t : Tenant),
    (s.MbReady f 0x0701) ∧ (leAt (s.mbRequest f) 0 16 = n) ∧ (field n 1 0 ≠ 3) ∧ (field n 15 3 = 0) ∧ (1 ≤ field n 24 16) ∧ (field n 24 16 ≤ 384) ∧ (field n 127 25 = 0) ∧ (s.tenant f = some t) ∧ (t.asuQuota < s.asuCharged f + 512 * field n 24 16)) ∧
    (∃ (s : State) (f n : Nat) (t : Tenant),
    (s.MbReady f 0x0701) ∧ (leAt (s.mbRequest f) 0 16 = n) ∧ (field n 1 0 ≠ 3) ∧ (field n 15 3 = 0) ∧ (1 ≤ field n 24 16) ∧ (field n 24 16 ≤ 384) ∧ (field n 127 25 = 0) ∧ (s.tenant f = some t) ∧ (s.asuCharged f + 512 * field n 24 16 ≤ t.asuQuota) ∧ (∀ i, 1 ≤ i → i ≤ 64 → s.table f i ≠ none)) ∧
    (∃ (s : State) (f i : Nat) (t : Table),
    (s.MbReady f 0x0702) ∧ (leAt (s.mbRequest f) 0 2 = i) ∧ (s.table f i = some t) ∧ (∀ u ∈ s.asu.tables, u.deleting = none) ∧ (∀ e ∈ s.inflight, s.hif.nextCmd ≤ e.1 ∨ indexNames e.2 f i = false ∨ e.2.result ≠ none) ∧ ((s.mb f).prepared = none)) :=
  ⟨⟨{ wBox 0x0701 (leBytes 16 0x10001) with nvs := { wHost.nvs with tenants := [{ wTenant with asuQuota := 512 }] } }, 0, 0x10001, 1, { wTenant with asuQuota := 512 }, by
    refine ⟨readyOf _ _ _ (by decide +kernel), ?_⟩
    repeat' apply And.intro
    all_goals first | decide +kernel | (intro i h1 h2; omega)⟩,
   ⟨wBox 0x0701 (leBytes 16 0x10001), 0, 0x10001, wTenant, by
    repeat' apply And.intro
    all_goals first | decide +kernel | exact decOkEq _ _ (by decide +kernel) | exact readyOf _ _ _ (by decide +kernel)⟩,
   ⟨wTables, 0, 0x10001, { wTenant with asuQuota := 512 }, by
    refine ⟨readyOf _ _ _ (by decide +kernel), ?_⟩
    repeat' apply And.intro
    all_goals first | decide +kernel | (have k : ∀ i : Fin 65, wTables.table 0 i.val ≠ none := by decide +kernel
                                        intro i h1 h2; exact k ⟨i, by omega⟩)⟩,
   ⟨{ wBox 0x0702 [3, 0] with asu := { tables := [{ func := 0, id := 3, width := 0, longest := false, slabs := [64] }] } }, 0, 3, { func := 0, id := 3, width := 0, longest := false, slabs := [64] }, by
    refine ⟨readyOf _ _ _ (by decide +kernel), ?_⟩
    repeat' apply And.intro
    all_goals first | decide +kernel⟩⟩

theorem test_meets_TablesAreCreatedDeletedAndReported_2 :
    (∃ (s : State) (f i : Nat) (t : Table) (q : Tenant),
    (s.MbReady f 0x0703) ∧ (leAt (s.mbRequest f) 0 2 = i) ∧ (s.table f i = some t) ∧ (s.tenant f = some q)) ∧
    (∃ (s : State) (f : Nat),
    (s.MbReady f 0x0703) ∧ (s.table f (leAt (s.mbRequest f) 0 2) = none)) :=
  ⟨⟨{ wBox 0x0703 [3, 0] with asu := { tables := [{ func := 0, id := 3, width := 0, longest := false, slabs := [64] }] } }, 0, 3, { func := 0, id := 3, width := 0, longest := false, slabs := [64] }, wTenant, by
    repeat' apply And.intro
    all_goals first | decide +kernel | exact decOkEq _ _ (by decide +kernel) | exact readyOf _ _ _ (by decide +kernel)⟩,
   ⟨wBox 0x0703 [3, 0], 0, by
    repeat' apply And.intro
    all_goals first | decide +kernel | exact decOkEq _ _ (by decide +kernel) | exact readyOf _ _ _ (by decide +kernel)⟩⟩

theorem test_meets_EventLogIsReadClearedAndMarked_1 :
    (∃ (s : State) (f n : Nat),
    (s.MbReady f 0x0801) ∧ (leAt (s.mbRequest f) 6 2 = 0) ∧ (byteAt (s.mbRequest f) 8 = n) ∧ (1 ≤ n) ∧ (n ≤ 63)) ∧
    (∃ (s : State) (f n : Nat),
    (s.MbReady f 0x0801) ∧ (byteAt (s.mbRequest f) 8 = n) ∧ (n < 1 ∨ 63 < n)) ∧
    (∃ (s : State) (f q : Nat),
    (s.MbReady f 0x0802) ∧ (q = (match s.recd.queue ++ s.recd.blocked with | e :: _ => e.seq | [] => s.recd.next))) ∧
    (∃ (s : State) (f tick w : Nat),
    (s.MbReady f 0x0803) ∧ (leAt (s.mbRequest f) 0 8 = w)) :=
  ⟨⟨wBox 0x0801 (leBytes 8 0 ++ [63]), 0, 63, by
    repeat' apply And.intro
    all_goals first | decide +kernel | exact decOkEq _ _ (by decide +kernel) | exact readyOf _ _ _ (by decide +kernel)⟩,
   ⟨wBox 0x0801 (leBytes 8 0 ++ [64]), 0, 64, by
    repeat' apply And.intro
    all_goals first | decide +kernel | exact decOkEq _ _ (by decide +kernel) | exact readyOf _ _ _ (by decide +kernel)⟩,
   ⟨wBox 0x0802 [], 0, 0, by
    repeat' apply And.intro
    all_goals first | decide +kernel | exact decOkEq _ _ (by decide +kernel) | exact readyOf _ _ _ (by decide +kernel)⟩,
   ⟨wBox 0x0803 (leBytes 8 5), 0, 32768, 5, by
    repeat' apply And.intro
    all_goals first | decide +kernel | exact decOkEq _ _ (by decide +kernel) | exact readyOf _ _ _ (by decide +kernel)⟩⟩

theorem test_meets_EventLogIsReadClearedAndMarked_2 :
    (∃ (s : State) (e : Event) (q : List Event),
    (s.psm.fence = false) ∧ (s.psm.mode ≠ .hold) ∧ (s.psm.mode ≠ .off) ∧ (s.recd.queue = e :: q) ∧ (s.recd.blocked = []) ∧ (s.recd.dropped = 0)) ∧
    (∃ (s : State) (e b : Event) (q bs : List Event),
    (s.psm.fence = false) ∧ (s.psm.mode ≠ .hold) ∧ (s.psm.mode ≠ .off) ∧ (s.recd.queue = e :: q) ∧ (s.recd.blocked = b :: bs) ∧ (s.recd.dropped = 0)) ∧
    (∃ (s : State) (e : Event) (q : List Event),
    (s.psm.fence = false) ∧ (s.psm.mode ≠ .hold) ∧ (s.psm.mode ≠ .off) ∧ (s.recd.queue = e :: q) ∧ (s.recd.blocked = []) ∧ (s.recd.dropped ≠ 0) ∧ (q.length < 64)) ∧
    (∃ (s : State),
    (s.psm.mode ≠ .hold ∧ s.psm.mode ≠ .off) ∧ (s.recd.seconds < 3599)) :=
  ⟨⟨{ wHost with recd := { queue := [{ seq := 5, cls := 0, component := 0, code := 1, tenant := 0, data := [] }] } }, { seq := 5, cls := 0, component := 0, code := 1, tenant := 0, data := [] }, [], by
    repeat' apply And.intro
    all_goals first | decide +kernel | exact decOkEq _ _ (by decide +kernel) | exact readyOf _ _ _ (by decide +kernel)⟩,
   ⟨{ wHost with recd := { queue := [{ seq := 5, cls := 0, component := 0, code := 1, tenant := 0, data := [] }], blocked := [{ seq := 6, cls := 0, component := 0, code := 1, tenant := 0, data := [] }] } }, { seq := 5, cls := 0, component := 0, code := 1, tenant := 0, data := [] }, { seq := 6, cls := 0, component := 0, code := 1, tenant := 0, data := [] }, [], [], by
    repeat' apply And.intro
    all_goals first | decide +kernel | exact decOkEq _ _ (by decide +kernel) | exact readyOf _ _ _ (by decide +kernel)⟩,
   ⟨{ wHost with recd := { queue := [{ seq := 5, cls := 0, component := 0, code := 1, tenant := 0, data := [] }], dropped := 3 } }, { seq := 5, cls := 0, component := 0, code := 1, tenant := 0, data := [] }, [], by
    repeat' apply And.intro
    all_goals first | decide +kernel | exact decOkEq _ _ (by decide +kernel) | exact readyOf _ _ _ (by decide +kernel)⟩,
   ⟨wHost, by
    repeat' apply And.intro
    all_goals first | decide +kernel | exact decOkEq _ _ (by decide +kernel) | exact readyOf _ _ _ (by decide +kernel)⟩⟩

theorem test_meets_EventLogIsReadClearedAndMarked_3 :
    (∃ (s : State),
    (s.psm.mode ≠ .hold ∧ s.psm.mode ≠ .off) ∧ (s.recd.seconds = 3599) ∧ (s.recd.hours < 16777215)) ∧
    (∃ (s : State),
    (s.psm.mode ≠ .hold ∧ s.psm.mode ≠ .off) ∧ (s.recd.seconds = 3599) ∧ (s.recd.hours = 16777215)) ∧
    (∃ (s : State),
    (s.nvs.trial = false ∨ s.nvs.trialLeft ≠ 0 ∨ s.nvs.reverting ≠ none)) ∧
    (∃ (s : State),
    (s.nvs.trial = true) ∧ (s.nvs.trialLeft = 0) ∧ (s.nvs.reverting = none) ∧ (s.psm.mode.engines = true)) :=
  ⟨⟨{ wHost with recd := { seconds := 3599, hours := 16777214 } }, by
    repeat' apply And.intro
    all_goals first | decide +kernel | exact decOkEq _ _ (by decide +kernel) | exact readyOf _ _ _ (by decide +kernel)⟩,
   ⟨{ wHost with recd := { seconds := 3599, hours := 16777215 } }, by
    repeat' apply And.intro
    all_goals first | decide +kernel | exact decOkEq _ _ (by decide +kernel) | exact readyOf _ _ _ (by decide +kernel)⟩,
   ⟨wHost, by
    repeat' apply And.intro
    all_goals first | decide +kernel | exact decOkEq _ _ (by decide +kernel) | exact readyOf _ _ _ (by decide +kernel)⟩,
   ⟨{ wHost with nvs := { trial := true, trialLeft := 0 } }, by
    repeat' apply And.intro
    all_goals first | decide +kernel | exact decOkEq _ _ (by decide +kernel) | exact readyOf _ _ _ (by decide +kernel)⟩⟩

theorem test_meets_EventLogIsReadClearedAndMarked_4 :
    (∃ (s : State),
    (s.psm.mode ≠ .hold ∧ s.psm.mode ≠ .off) ∧ (s.psm.fence = false)) :=
  ⟨wHost, by
    repeat' apply And.intro
    all_goals first | decide +kernel | exact decOkEq _ _ (by decide +kernel) | exact readyOf _ _ _ (by decide +kernel)⟩

theorem test_meets_MaintenanceAndItsDiagnostics_1 :
    (∃ (s : State) (f : Nat),
    (s.MbReady f 0x0901)) ∧
    (∃ (s t : State) (f : Nat),
    (s.MbReady f 0x0903) ∧ (s.psm.maintWaiting = none) ∧ (s.psm.mode = .service ∨ s.psm.mode = .degraded) ∧ (s.psm.heldFromHalt = false) ∧ (s.psm.maintByHost = false) ∧ (s.maintEnter f false = t) ∧ (t.ioDone = true)) ∧
    (∃ (s t : State) (f : Nat),
    (s.MbReady f 0x0903) ∧ (s.psm.maintWaiting = none) ∧ (s.psm.mode = .service ∨ s.psm.mode = .degraded) ∧ (s.psm.heldFromHalt = false) ∧ (s.psm.maintByHost = false) ∧ (s.maintEnter f false = t) ∧ (t.ioDone = false)) ∧
    (∃ (s : State) (f : Nat),
    (s.MbReady f 0x0903) ∧ (s.psm.maintWaiting = none) ∧ (s.psm.mode = .safeHalt) ∧ (s.psm.halt.safeDrain = false)) :=
  ⟨⟨wBox 0x0901 [], 0, by
    repeat' apply And.intro
    all_goals first | decide +kernel | exact decOkEq _ _ (by decide +kernel) | exact readyOf _ _ _ (by decide +kernel)⟩,
   ⟨wBox 0x0903 [], _, 0, by
    refine ⟨readyOf _ _ _ (by decide +kernel), holds, holds, holds, holds, rfl, ?_⟩
    decide +kernel⟩,
   ⟨(wBox 0x0903 []).setCmd 5 (some (wCmd (wSqe false 2))), _, 0, by
    refine ⟨readyOf _ _ _ (by decide +kernel), holds, holds, holds, holds, rfl, ?_⟩
    decide +kernel⟩,
   ⟨wBoxIn { wHost with psm := { mode := .safeHalt } } 0x0903 [], 0, by
    repeat' apply And.intro
    all_goals first | decide +kernel | exact decOkEq _ _ (by decide +kernel) | exact readyOf _ _ _ (by decide +kernel)⟩⟩

theorem test_meets_MaintenanceAndItsDiagnostics_2 :
    (∃ (s : State) (f : Nat),
    (s.MbReady f 0x0904) ∧ (s.psm.restartDue = false) ∧ (s.psm.mode ≠ .maintenance)) ∧
    (∃ (s t : State) (f : Nat),
    (s.MbReady f 0x0904) ∧ (s.psm.restartDue = false) ∧ (s.psm.mode = .maintenance) ∧ (s.psm.heldFromHalt = false) ∧ (({ s with psm := { s.psm with maintByHost := false } } : State).leaveMaint evMaintExited.code = t)) ∧
    (∃ (s : State) (f : Nat),
    (s.MbReady f 0x0904) ∧ (s.psm.restartDue = false) ∧ (s.psm.mode = .maintenance) ∧ (s.psm.heldFromHalt = true)) ∧
    (∃ (s : State) (f : Nat) (v0 v1 v2 : Nat),
    (s.MbReady f 0x0905) ∧ (leAt (s.mbRequest f) 0 2 = 1) ∧ (s.psm.mode ≠ .maintenance)) :=
  ⟨⟨wBox 0x0904 [], 0, by
    repeat' apply And.intro
    all_goals first | decide +kernel | exact decOkEq _ _ (by decide +kernel) | exact readyOf _ _ _ (by decide +kernel)⟩,
   ⟨wBoxIn { wHost with psm := { mode := .maintenance, maintByHost := true } } 0x0904 [], _, 0, ⟨readyOf _ _ _ (by decide +kernel), by decide +kernel, by decide +kernel, by decide +kernel, rfl⟩⟩,
   ⟨wBoxIn { wHost with psm := { mode := .maintenance, heldFromHalt := true } } 0x0904 [], 0, by
    repeat' apply And.intro
    all_goals first | decide +kernel | exact decOkEq _ _ (by decide +kernel) | exact readyOf _ _ _ (by decide +kernel)⟩,
   ⟨wBox 0x0905 [1, 0, 0, 0, 0, 0, 0, 0], 0, 12000, 11000, 10500, by
    repeat' apply And.intro
    all_goals first | decide +kernel | exact decOkEq _ _ (by decide +kernel) | exact readyOf _ _ _ (by decide +kernel)⟩⟩

theorem test_meets_MaintenanceAndItsDiagnostics_3 :
    (∃ (s t : State) (f v0 v1 v2 : Nat) (ok : Bool),
    (s.MbReady f 0x0905) ∧ (leAt (s.mbRequest f) 0 2 = 1) ∧ (s.psm.mode = .maintenance) ∧ (11600 ≤ v0) ∧ (s.psm.holdup.run = none) ∧ (s.holdupResult v0 v1 v2 false false = (t, ok))) ∧
    (∃ (s : State) (f v0 v1 v2 : Nat),
    (s.MbReady f 0x0905) ∧ (leAt (s.mbRequest f) 0 2 = 1) ∧ (s.psm.mode = .maintenance) ∧ (v0 < 11600)) ∧
    (∃ (s : State) (f : Nat) (failed : List Instance),
    (s.MbReady f 0x0905) ∧ (leAt (s.mbRequest f) 0 2 = 2) ∧ (s.psm.mode ≠ .maintenance)) ∧
    (∃ (s : State) (f : Nat),
    (s.MbReady f 0x0905) ∧ (leAt (s.mbRequest f) 0 2 = 2) ∧ (s.psm.mode = .maintenance)) :=
  ⟨⟨wBoxIn { wHost with psm := { mode := .maintenance, maintByHost := true, holdup := { volat := false } } } 0x0905 [1, 0, 0, 0, 0, 0, 0, 0], _, 0, 12000, 11000, 10500, _, ⟨readyOf _ _ _ (by decide +kernel), holds, holds, holds, holds, rfl⟩⟩,
   ⟨wBoxIn { wHost with psm := { mode := .maintenance, maintByHost := true, holdup := { volat := false } } } 0x0905 [1, 0, 0, 0, 0, 0, 0, 0], 0, 11599, 11000, 10500, by
    repeat' apply And.intro
    all_goals first | decide +kernel | exact decOkEq _ _ (by decide +kernel) | exact readyOf _ _ _ (by decide +kernel)⟩,
   ⟨wBox 0x0905 [2, 0, 0, 0, 0, 0, 0, 0], 0, [.cpe 7], by
    repeat' apply And.intro
    all_goals first | decide +kernel | exact decOkEq _ _ (by decide +kernel) | exact readyOf _ _ _ (by decide +kernel)⟩,
   ⟨wBoxIn { wHost with psm := { mode := .maintenance, maintByHost := true, holdup := { volat := false } } } 0x0905 [2, 0, 0, 0, 0, 0, 0, 0], 0, by
    repeat' apply And.intro
    all_goals first | decide +kernel | exact decOkEq _ _ (by decide +kernel) | exact readyOf _ _ _ (by decide +kernel)⟩⟩

theorem test_meets_MaintenanceAndItsDiagnostics_4 :
    (∃ (s : State) (f : Nat) (i : Instance),
    (s.MbReady f 0x0905) ∧ (leAt (s.mbRequest f) 0 2 = 2) ∧ (s.psm.mode = .maintenance) ∧ (i ∈ allInstances)) ∧
    (∃ (s : State) (f : Nat) (failed : BitVec 9),
    (s.MbReady f 0x0905) ∧ (leAt (s.mbRequest f) 0 2 = 3) ∧ (s.psm.mode ≠ .maintenance)) ∧
    (∃ (s : State) (f : Nat) (failed : BitVec 9),
    (s.MbReady f 0x0905) ∧ (leAt (s.mbRequest f) 0 2 = 3) ∧ (s.psm.mode = .maintenance)) ∧
    (∃ (s : State) (f : Nat) (corrected uncorrectable : Nat),
    (s.MbReady f 0x0905) ∧ (leAt (s.mbRequest f) 0 2 = 4) ∧ (s.psm.mode ≠ .maintenance)) :=
  ⟨⟨wBoxIn { wHost with psm := { mode := .maintenance, maintByHost := true, holdup := { volat := false } } } 0x0905 [2, 0, 0, 0, 0, 0, 0, 0], 0, .cpe 7, by
    repeat' apply And.intro
    all_goals first | decide +kernel | exact decOkEq _ _ (by decide +kernel) | exact readyOf _ _ _ (by decide +kernel)⟩,
   ⟨wBox 0x0905 [3, 0, 0, 0, 0, 0, 0, 0], 0, 0x100, by
    repeat' apply And.intro
    all_goals first | decide +kernel | exact decOkEq _ _ (by decide +kernel) | exact readyOf _ _ _ (by decide +kernel)⟩,
   ⟨wBoxIn { wHost with psm := { mode := .maintenance, maintByHost := true, holdup := { volat := false } } } 0x0905 [3, 0, 0, 0, 0, 0, 0, 0], 0, 0x100, by
    repeat' apply And.intro
    all_goals first | decide +kernel | exact decOkEq _ _ (by decide +kernel) | exact readyOf _ _ _ (by decide +kernel)⟩,
   ⟨wBox 0x0905 [4, 0, 0, 0, 0, 0, 0, 0], 0, 7, 1, by
    repeat' apply And.intro
    all_goals first | decide +kernel | exact decOkEq _ _ (by decide +kernel) | exact readyOf _ _ _ (by decide +kernel)⟩⟩

theorem test_meets_MaintenanceAndItsDiagnostics_5 :
    (∃ (s : State) (f : Nat) (corrected uncorrectable : Nat),
    (s.MbReady f 0x0905) ∧ (leAt (s.mbRequest f) 0 2 = 4) ∧ (s.psm.mode = .maintenance)) ∧
    (∃ (s : State) (f : Nat) (lines : Nat),
    (s.MbReady f 0x0905) ∧ (leAt (s.mbRequest f) 0 2 = 5) ∧ (s.psm.mode ≠ .maintenance)) ∧
    (∃ (s : State) (f : Nat) (lines : Nat),
    (s.MbReady f 0x0905) ∧ (leAt (s.mbRequest f) 0 2 = 5) ∧ (s.psm.mode = .maintenance)) :=
  ⟨⟨wBoxIn { wHost with psm := { mode := .maintenance, maintByHost := true, holdup := { volat := false } } } 0x0905 [4, 0, 0, 0, 0, 0, 0, 0], 0, 7, 1, by
    repeat' apply And.intro
    all_goals first | decide +kernel | exact decOkEq _ _ (by decide +kernel) | exact readyOf _ _ _ (by decide +kernel)⟩,
   ⟨wBox 0x0905 [5, 0, 0, 0, 0, 0, 0, 0], 0, 0, by
    repeat' apply And.intro
    all_goals first | decide +kernel | exact decOkEq _ _ (by decide +kernel) | exact readyOf _ _ _ (by decide +kernel)⟩,
   ⟨wBoxIn { wHost with psm := { mode := .maintenance, maintByHost := true, holdup := { volat := false } } } 0x0905 [5, 0, 0, 0, 0, 0, 0, 0], 0, 0, by
    repeat' apply And.intro
    all_goals first | decide +kernel | exact decOkEq _ _ (by decide +kernel) | exact readyOf _ _ _ (by decide +kernel)⟩⟩

theorem test_meets_ProfilesOfMemoryAndThePairAreReported_1 :
    (∃ (s : State) (f : Nat),
    (s.MbReady f 0x0A01)) ∧
    (∃ (s : State) (f c : Nat),
    (s.MbReady f 0x0A02) ∧ (byteAt (s.mbRequest f) 0 = c) ∧ (c ≤ 15)) ∧
    (∃ (s : State) (f c : Nat),
    (s.MbReady f 0x0A02) ∧ (byteAt (s.mbRequest f) 0 = c) ∧ (15 < c)) ∧
    (∃ (s : State) (f : Nat),
    (s.MbReady f 0x0B01)) :=
  ⟨⟨wBox 0x0A01 [], 0, by
    repeat' apply And.intro
    all_goals first | decide +kernel | exact decOkEq _ _ (by decide +kernel) | exact readyOf _ _ _ (by decide +kernel)⟩,
   ⟨wBox 0x0A02 [15], 0, 15, by
    repeat' apply And.intro
    all_goals first | decide +kernel | exact decOkEq _ _ (by decide +kernel) | exact readyOf _ _ _ (by decide +kernel)⟩,
   ⟨wBox 0x0A02 [16], 0, 16, by
    repeat' apply And.intro
    all_goals first | decide +kernel | exact decOkEq _ _ (by decide +kernel) | exact readyOf _ _ _ (by decide +kernel)⟩,
   ⟨wBox 0x0B01 [], 0, by
    repeat' apply And.intro
    all_goals first | decide +kernel | exact decOkEq _ _ (by decide +kernel) | exact readyOf _ _ _ (by decide +kernel)⟩⟩

theorem test_meets_ProfilesOfMemoryAndThePairAreReported_2 :
    (∃ (s : State) (f : Nat),
    (s.MbReady f 0x0B02) ∧ (byteAt (s.mbRequest f) 0 ≤ 1) ∧ (s.swl.cfg = none)) ∧
    (∃ (s : State) (f p : Nat) (g : PairCfg),
    (s.MbReady f 0x0B02) ∧ (byteAt (s.mbRequest f) 0 = p) ∧ (p ≤ 1) ∧ (s.swl.cfg = some g) ∧ (s.swl.state = .unpaired)) ∧
    (∃ (s : State) (f : Nat),
    (s.MbReady f 0x0B03) ∧ (s.swl.state = .unpaired)) ∧
    (∃ (s : State) (f : Nat),
    (s.MbReady f 0x0B03) ∧ (s.swl.state ≠ .unpaired)) :=
  ⟨⟨wBox 0x0B02 [1], 0, by
    repeat' apply And.intro
    all_goals first | decide +kernel | exact decOkEq _ _ (by decide +kernel) | exact readyOf _ _ _ (by decide +kernel)⟩,
   ⟨{ wBox 0x0B02 [1] with swl := { cfg := some { pairId := 7 } } }, 0, 1, { pairId := 7 }, by
    repeat' apply And.intro
    all_goals first | decide +kernel | exact decOkEq _ _ (by decide +kernel) | exact readyOf _ _ _ (by decide +kernel)⟩,
   ⟨wBox 0x0B03 [], 0, by
    repeat' apply And.intro
    all_goals first | decide +kernel | exact decOkEq _ _ (by decide +kernel) | exact readyOf _ _ _ (by decide +kernel)⟩,
   ⟨{ wBox 0x0B03 [] with swl := { state := .paired, position := 1 } }, 0, by
    repeat' apply And.intro
    all_goals first | decide +kernel | exact decOkEq _ _ (by decide +kernel) | exact readyOf _ _ _ (by decide +kernel)⟩⟩

theorem test_meets_FlashReadsClimbTheLadder_1 :
    (∃ (s : State) (i : Nat) (op : FlashOp) (w : Reader) (r : ReadOutcome) (p n : Nat),
    (s.op i = some op) ∧ (op.kind = .read (some w) p 0)) ∧
    (∃ (s : State) (i : Nat) (op : FlashOp) (w : Reader) (r : ReadOutcome) (p n : Nat),
    (s.op i = some op) ∧ (op.kind = .read (some w) p (n + 1))) ∧
    (∃ (s : State) (i : Nat) (op : FlashOp) (w : Reader) (r : ReadOutcome) (p n : Nat),
    (s.op i = some op) ∧ (op.kind = .read none p 0)) ∧
    (∃ (s : State) (i : Nat) (op : FlashOp) (w : Reader) (r : ReadOutcome) (p n : Nat),
    (s.op i = some op) ∧ (op.kind = .read none p (n + 1))) :=
  ⟨⟨wFlash (wRead 0), 3, wRead 0, .cmd 5, { misread := [(0, { data := [7], tag := 0, key := 0 })] }, 0, 0, by
    repeat' apply And.intro
    all_goals first | decide +kernel | exact decOkEq _ _ (by decide +kernel) | exact readyOf _ _ _ (by decide +kernel)⟩,
   ⟨wFlash (wRead 1), 3, wRead 1, .cmd 5, { misread := [(0, { data := [7], tag := 0, key := 0 })] }, 0, 0, by
    repeat' apply And.intro
    all_goals first | decide +kernel | exact decOkEq _ _ (by decide +kernel) | exact readyOf _ _ _ (by decide +kernel)⟩,
   ⟨wFlash { wRead 0 with kind := .read none 1 0 }, 3, { wRead 0 with kind := .read none 1 0 }, .cmd 5, { failed := [0] }, 1, 0, by
    repeat' apply And.intro
    all_goals first | decide +kernel | exact decOkEq _ _ (by decide +kernel) | exact readyOf _ _ _ (by decide +kernel)⟩,
   ⟨wFlash { wRead 0 with kind := .read none 1 3 }, 3, { wRead 0 with kind := .read none 1 3 }, .cmd 5, { failed := [0] }, 1, 2, by
    repeat' apply And.intro
    all_goals first | decide +kernel | exact decOkEq _ _ (by decide +kernel) | exact readyOf _ _ _ (by decide +kernel)⟩⟩

theorem test_meets_FlashReadsClimbTheLadder_2 :
    (∃ (s : State) (i n p : Nat) (op : FlashOp) (x : Option Reader) (r : ReadOutcome),
    (s.op i = some op) ∧ (op.kind = .read x p (n + 1))) ∧
    (∃ (s : State) (i p : Nat) (op : FlashOp) (x : Option Reader) (r : ReadOutcome),
    (s.op i = some op) ∧ (op.kind = .read x p 0)) ∧
    (∃ (s : State) (i : Nat) (op : FlashOp) (slc : Bool) (u : Nat) (r : ReadOutcome),
    (s.op i = some op) ∧ (op.kind = .program slc u)) ∧
    (∃ (s : State) (i : Nat) (op : FlashOp) (w : Reader) (r : ReadOutcome) (n : Nat),
    (failedUnits (s.readWords op r) = [])) :=
  ⟨⟨wFlash (wRead 1), 3, 0, 0, wRead 1, some (.cmd 5), {}, by
    repeat' apply And.intro
    all_goals first | decide +kernel | exact decOkEq _ _ (by decide +kernel) | exact readyOf _ _ _ (by decide +kernel)⟩,
   ⟨wFlash (wRead 0), 3, 0, wRead 0, some (.cmd 5), {}, by
    repeat' apply And.intro
    all_goals first | decide +kernel | exact decOkEq _ _ (by decide +kernel) | exact readyOf _ _ _ (by decide +kernel)⟩,
   ⟨wFlash (wProgram 0), 3, wProgram 0, true, 0, {}, by
    repeat' apply And.intro
    all_goals first | decide +kernel | exact decOkEq _ _ (by decide +kernel) | exact readyOf _ _ _ (by decide +kernel)⟩,
   ⟨wFlash (wRead 0), 3, wRead 0, .cmd 5, { misread := [(0, { data := [7], tag := 0, key := 0 })] }, 0, by
    repeat' apply And.intro
    all_goals first | decide +kernel | exact decOkEq _ _ (by decide +kernel) | exact readyOf _ _ _ (by decide +kernel)⟩⟩

theorem test_meets_FlashReadsClimbTheLadder_3 :
    (∃ (s : State) (i : Nat) (op : FlashOp) (w : Reader) (r : ReadOutcome) (n : Nat),
    (failedUnits (s.readWords op r) ≠ []) ∧ (n < 3)) ∧
    (∃ (s : State) (i : Nat) (op : FlashOp) (w : Reader) (r : ReadOutcome) (n : Nat),
    (failedUnits (s.readWords op r) ≠ []) ∧ (3 ≤ n) ∧ (op.hot = false)) ∧
    (∃ (s : State) (a : Asker) (u : Nat × Nat × Codeword) (key d : Bytes),
    (isChunkKey u.1 = false ∨ s.chunk (chunkOf u.1) ≠ none) ∧ (u.2.2.key = BitVec.ofNat 64 (codeKey u.1 (s.unitLen u.1))) ∧ (s.mediaKeyOf u.1 = some key) ∧ (aesXts true key (dataUnit u.1) u.2.2.data = d) ∧ (integrityTag d (s.readerTrailer a u.1) = retag u.2.2.tag (s.restTrailer u.1) (s.readerTrailer a u.1))) ∧
    (∃ (s : State) (a : Asker) (u : Nat × Nat × Codeword),
    (isChunkKey u.1 = false ∨ s.chunk (chunkOf u.1) ≠ none) ∧ (u.2.2.key ≠ BitVec.ofNat 64 (codeKey u.1 (s.unitLen u.1)))) :=
  ⟨⟨wFlash (wRead 2), 3, wRead 2, .cmd 5, { failed := [0] }, 2, by
    repeat' apply And.intro
    all_goals first | decide +kernel | exact decOkEq _ _ (by decide +kernel) | exact readyOf _ _ _ (by decide +kernel)⟩,
   ⟨wFlash (wRead 3), 3, wRead 3, .cmd 5, { failed := [0] }, 3, by
    repeat' apply And.intro
    all_goals first | decide +kernel | exact decOkEq _ _ (by decide +kernel) | exact readyOf _ _ _ (by decide +kernel)⟩,
   ⟨wHot.updFn 0 (fun f => { f with mediaKey := some (padTo 64 [1]) }), { who := .cmd 5, nsid := 1, unitBase := 0, func := 0, gen := 3 }, (chunkKey 1 0, 0, { data := [], tag := integrityTag [] (wHot.restTrailer (chunkKey 1 0)), key := BitVec.ofNat 64 (codeKey (chunkKey 1 0) 1) }), padTo 64 [1], [], by
    repeat' apply And.intro
    all_goals first | decide +kernel | exact decOkEq _ _ (by decide +kernel) | exact readyOf _ _ _ (by decide +kernel)⟩,
   ⟨wFlash (wRead 0), { who := .cmd 5, nsid := 1, unitBase := 0, func := 0, gen := 0 }, (2 ^ 40, 0, { data := [7], tag := 0, key := 0 }), by
    repeat' apply And.intro
    all_goals first | decide +kernel | exact decOkEq _ _ (by decide +kernel) | exact readyOf _ _ _ (by decide +kernel)⟩⟩

theorem test_meets_FlashReadsClimbTheLadder_4 :
    (∃ (s : State) (a : Asker) (u : Nat × Nat × Codeword),
    (isChunkKey u.1 = false ∨ s.chunk (chunkOf u.1) ≠ none) ∧ (u.2.2.key = BitVec.ofNat 64 (codeKey u.1 (s.unitLen u.1))) ∧ (s.mediaKeyOf u.1 = none)) ∧
    (∃ (s : State) (k p : Nat),
    (isChunkKey k = false)) ∧
    (∃ (s : State) (k p : Nat) (us : List (Nat × Nat)),
    ((s.entry k).state ≠ .flash ∨ (s.entry k).paddr + (k - entryOf k) ≠ p)) :=
  ⟨⟨wFlash (wRead 0), { who := .cmd 5, nsid := 1, unitBase := 0, func := 0, gen := 0 }, (2 ^ 40, 0, { data := [7], tag := 0, key := BitVec.ofNat 64 (codeKey (2 ^ 40) 4096) }), by
    repeat' apply And.intro
    all_goals first | decide +kernel | exact decOkEq _ _ (by decide +kernel) | exact readyOf _ _ _ (by decide +kernel)⟩,
   ⟨wFlash (wRead 0), 2 ^ 40, 0, by
    repeat' apply And.intro
    all_goals first | decide +kernel | exact decOkEq _ _ (by decide +kernel) | exact readyOf _ _ _ (by decide +kernel)⟩,
   ⟨wHost, 2 ^ 40, 0, [], by
    repeat' apply And.intro
    all_goals first | decide +kernel | exact decOkEq _ _ (by decide +kernel) | exact readyOf _ _ _ (by decide +kernel)⟩⟩

theorem test_meets_ProgramsErasesAndDiesEnd_1 :
    (∃ (s : State) (i p : Nat) (op : FlashOp) (slc : Bool),
    (s.op i = some op) ∧ (op.kind = .program slc p)) ∧
    (∃ (s : State) (i p : Nat) (op : FlashOp) (slc : Bool) (ml : List Nat),
    (s.op i = some op) ∧ (op.kind = .program slc p) ∧ (membersFrom op.dest op.words.length ≠ []) ∧ (∀ m ∈ membersFrom op.dest op.words.length, m ∈ ml) ∧ (∀ u ∈ programParts op.dest op.units op.words, u.2.2.2 ≠ []) ∧ (∀ u ∈ programParts op.dest op.units op.words, ∀ m ∈ membersFrom u.2.2.1 u.2.2.2.length, m ∈ membersFrom op.dest op.words.length)) ∧
    (∃ (s : State) (slc : Bool) (p : Nat) (k src dest : Nat) (ws : List (Option Codeword)),
    (p = 0 ∨ p = 5)) ∧
    (∃ (s : State) (slc : Bool) (p : Nat) (k src dest : Nat) (ws : List (Option Codeword)),
    (p ≠ 0) ∧ (p ≠ 5)) :=
  ⟨⟨wFlash ({ wProgram 0 with dest := 4, words := [some { data := [7], tag := 0, key := 0 }] }), 3, 0, { wProgram 0 with dest := 4, words := [some { data := [7], tag := 0, key := 0 }] }, true, by
    repeat' apply And.intro
    all_goals first | decide +kernel | exact decOkEq _ _ (by decide +kernel) | exact readyOf _ _ _ (by decide +kernel)⟩,
   ⟨wFlash ({ wProgram 0 with dest := 4, words := [some { data := [7], tag := 0, key := 0 }] }), 3, 0, { wProgram 0 with dest := 4, words := [some { data := [7], tag := 0, key := 0 }] }, true, [0], by
    repeat' apply And.intro
    all_goals first | decide +kernel | exact decOkEq _ _ (by decide +kernel) | exact readyOf _ _ _ (by decide +kernel)⟩,
   ⟨wHost, true, 5, 2 ^ 40, 2, 9, [], by
    repeat' apply And.intro
    all_goals first | decide +kernel | exact decOkEq _ _ (by decide +kernel) | exact readyOf _ _ _ (by decide +kernel)⟩,
   ⟨wHost, true, 2, 2 ^ 40, 2, 9, [], by
    repeat' apply And.intro
    all_goals first | decide +kernel | exact decOkEq _ _ (by decide +kernel) | exact readyOf _ _ _ (by decide +kernel)⟩⟩

theorem test_meets_ProgramsErasesAndDiesEnd_2 :
    (∃ (s : State) (slc : Bool) (k src dest : Nat),
    (isChunkKey k = false) ∧ ((s.entry k).state = .buffer) ∧ ((s.entry k).paddr = src) ∧ (s.nss.journal.length < 65536)) ∧
    (∃ (s : State) (slc : Bool) (k src dest n : Nat),
    (isChunkKey k = false) ∧ (¬ ((s.entry k).state = .buffer ∧ (s.entry k).paddr = src)) ∧ (Mem.get none s.nss.slots src = some k)) ∧
    (∃ (s : State) (slc : Bool) (k src dest : Nat),
    ((s.entry k).state = .flash) ∧ ((s.entry k).paddr = src)) ∧
    (∃ (s : State) (slc : Bool) (k src dest : Nat),
    ((s.entry k).state = .flash) ∧ ((s.entry k).paddr = src)) :=
  ⟨⟨{ wHost with nss := { wHost.nss with units := [(2 ^ 40, { state := .buffer, paddr := 2 })], slots := [(2, some (2 ^ 40))] } }, true, 2 ^ 40, 2, 9, by
    repeat' apply And.intro
    all_goals first | decide +kernel | exact decOkEq _ _ (by decide +kernel) | exact readyOf _ _ _ (by decide +kernel)⟩,
   ⟨{ wHost with nss := { wHost.nss with slots := [(2, some (2 ^ 40))] } }, true, 2 ^ 40, 2, 9, 1, by
    repeat' apply And.intro
    all_goals first | decide +kernel | exact decOkEq _ _ (by decide +kernel) | exact readyOf _ _ _ (by decide +kernel)⟩,
   ⟨wFlash (wRead 0), true, 2 ^ 40, 0, 9, by
    repeat' apply And.intro
    all_goals first | decide +kernel | exact decOkEq _ _ (by decide +kernel) | exact readyOf _ _ _ (by decide +kernel)⟩,
   ⟨wHot, true, chunkKey 1 0, 9, 20, by
    repeat' apply And.intro
    all_goals first | decide +kernel | exact decOkEq _ _ (by decide +kernel) | exact readyOf _ _ _ (by decide +kernel)⟩⟩

theorem test_meets_ProgramsErasesAndDiesEnd_3 :
    (∃ (s : State) (slc hot : Bool) (k src dest : Nat),
    ((s.entry k).state ≠ .flash ∨ (s.entry k).paddr ≠ src)) ∧
    (∃ (s : State) (i : Nat) (op : FlashOp),
    (s.op i = some op) ∧ (op.kind = .erase) ∧ ((s.sb (sbKey op.quad op.sb)).failedMembers = []) ∧ (s.flash.recopy = [])) ∧
    (∃ (s : State) (i m : Nat) (op : FlashOp),
    (s.op i = some op) ∧ (op.kind = .erase) ∧ (m < 4) ∧ ((s.sb (sbKey op.quad op.sb)).failedMembers = []) ∧ (s.flash.recopy = []) ∧ ((s.die (nth 0 (quadDies op.quad) m)).spares = []) ∧ (∀ d, (s.die d).failures < 2)) ∧
    (∃ (s : State) (i m : Nat) (op : FlashOp) (b : Nat) (bl : List Nat),
    (s.op i = some op) ∧ (op.kind = .erase) ∧ (m < 4) ∧ ((s.sb (sbKey op.quad op.sb)).failedMembers = []) ∧ (s.flash.recopy = []) ∧ ((s.die (nth 0 (quadDies op.quad) m)).spares = b :: bl) ∧ ((s.die (nth 0 (quadDies op.quad) m)).failures < 2)) :=
  ⟨⟨wFlash (wRead 0), true, true, 2 ^ 40, 1, 9, by
    repeat' apply And.intro
    all_goals first | decide +kernel | exact decOkEq _ _ (by decide +kernel) | exact readyOf _ _ _ (by decide +kernel)⟩,
   ⟨wFlash { wProgram 0 with kind := .erase }, 3, { wProgram 0 with kind := .erase }, by
    repeat' apply And.intro
    all_goals first | decide +kernel | exact decOkEq _ _ (by decide +kernel) | exact readyOf _ _ _ (by decide +kernel)⟩,
   ⟨(wFlash { wProgram 0 with kind := .erase }).updDie 4 (fun x => { x with spares := [] }), 3, 1, { wProgram 0 with kind := .erase }, by
    repeat' apply And.intro
    all_goals first | decide +kernel | (intro d; unfold State.die; rw [show ((wFlash { wProgram 0 with kind := .erase }).updDie 4 (fun x => { x with spares := [] })).flash.dies = (List.range 16).map (fun i => (i, ({ state := 1, cell := 3, good := 100, free := 50, spares := if i = 4 then [] else [98, 99], spareFirst := 2 } : Die))) by decide +kernel]; exact noFail _ d (by decide +kernel))⟩,
   ⟨wFlash { wProgram 0 with kind := .erase }, 3, 1, { wProgram 0 with kind := .erase }, 98, [99], by
    repeat' apply And.intro
    all_goals first | decide +kernel | exact decOkEq _ _ (by decide +kernel) | exact readyOf _ _ _ (by decide +kernel)⟩⟩

theorem test_meets_ProgramsErasesAndDiesEnd_4 :
    (∃ (s : State) (i : Nat) (op : FlashOp),
    (s.op i = some op) ∧ (∀ c q n, op.kind ≠ .read c q n) ∧ (op.suspended < 4) ∧ (∃ j r x q n, s.op j = some r ∧ r.kind = .read x q n ∧ r.units.any (fun u => (quadDies op.quad).contains (paddrDie u.2)) = true)) ∧
    (∃ (s : State) (i : Nat) (op : FlashOp),
    (s.op i = some op) ∧ (4 ≤ op.suspended)) ∧
    (∃ (s : State) (d : Nat),
    ((s.die d).state = 1)) ∧
    (∃ (s : State) (d : Nat),
    ((s.die d).state = 1) ∧ (3 ≤ (s.die d).failures)) :=
  ⟨⟨(wFlash { wProgram 0 with suspended := 3 }).setOp 2 (some (wRead 0)), 3, { wProgram 0 with suspended := 3 }, by
    refine ⟨by decide +kernel, ?_, by decide +kernel, 2, wRead 0, some (.cmd 5), 0, 0, by decide +kernel, rfl, by decide +kernel⟩
    intro c q n h; cases h⟩,
   ⟨wFlash { wProgram 0 with suspended := 4 }, 3, { wProgram 0 with suspended := 4 }, by
    repeat' apply And.intro
    all_goals first | decide +kernel | exact decOkEq _ _ (by decide +kernel) | exact readyOf _ _ _ (by decide +kernel)⟩,
   ⟨wFlash (wProgram 0), 15, by
    repeat' apply And.intro
    all_goals first | decide +kernel | exact decOkEq _ _ (by decide +kernel) | exact readyOf _ _ _ (by decide +kernel)⟩,
   ⟨(wFlash (wProgram 0)).updDie 15 (fun x => { x with failures := 3 }), 15, by
    repeat' apply And.intro
    all_goals first | decide +kernel | exact decOkEq _ _ (by decide +kernel) | exact readyOf _ _ _ (by decide +kernel)⟩⟩

theorem test_meets_ProgramsErasesAndDiesEnd_5 :
    (∃ (s : State) (d : Nat),
    ((s.die d).failures < 3)) :=
  ⟨wFlash (wProgram 0), 15, by
    repeat' apply And.intro
    all_goals first | decide +kernel | exact decOkEq _ _ (by decide +kernel) | exact readyOf _ _ _ (by decide +kernel)⟩

theorem test_meets_BackgroundMediaWorkMovesData_1 :
    (∃ (s : State) (q : Nat) (e : Nat × Sb),
    (s.mediaWork = true) ∧ (s.foldYields = false ∨ s.quadIdle q = true) ∧ (leastBy (fun e => e.2.closedAt) (s.closedIn q (fun b => b.isFor .write)) = some e)) ∧
    (∃ (s : State) (q : Nat),
    (s.mediaWork = false ∨ (s.foldYields = true ∧ s.quadIdle q = false))) ∧
    (∃ (s : State) (q : Nat) (e : Nat × Sb),
    (s.mediaWork = true) ∧ (leastBy (fun e => e.2.closedAt) (s.closedIn q (fun b => b.relocate && !b.hot && !b.metadata)) = some e)) ∧
    (∃ (s : State) (q : Nat) (e : Nat × Sb),
    (s.mediaWork = true) ∧ (leastBy (fun e => e.2.closedAt) (s.closedIn q (fun b => b.relocate && !b.hot && !b.metadata)) = none) ∧ (s.quadFree q < s.flash.cfg.gcStart) ∧ (s.quadUsed q = true) ∧ (leastBy (fun e => s.validUnits e.1 * 2 ^ 40 + e.2.closedAt) (s.closedIn q (fun b => !b.slc)) = some e)) :=
  ⟨⟨(wFlash (wRead 0) { state := .closed, slc := true }).setOp 3 none, 0, (0, { state := .closed, slc := true }), by
    repeat' apply And.intro
    all_goals first | decide +kernel | exact decOkEq _ _ (by decide +kernel) | exact readyOf _ _ _ (by decide +kernel)⟩,
   ⟨{ wFlash (wRead 0) { state := .closed, slc := true } with nvs := { slcSlice := 100 } }, 0, by
    repeat' apply And.intro
    all_goals first | decide +kernel | exact decOkEq _ _ (by decide +kernel) | exact readyOf _ _ _ (by decide +kernel)⟩,
   ⟨(wFlash (wRead 0) { state := .closed, relocate := true }).setOp 3 none, 0, (0, { state := .closed, relocate := true }), by
    repeat' apply And.intro
    all_goals first | decide +kernel | exact decOkEq _ _ (by decide +kernel) | exact readyOf _ _ _ (by decide +kernel)⟩,
   ⟨((wFlash (wRead 0) { state := .closed }).setOp 3 none).updDie 0 (fun x => { x with free := 0 }), 0, (0, { state := .closed }), by
    repeat' apply And.intro
    all_goals first | decide +kernel | exact decOkEq _ _ (by decide +kernel) | exact readyOf _ _ _ (by decide +kernel)⟩⟩

theorem test_meets_BackgroundMediaWorkMovesData_2 :
    (∃ (s : State) (q : Nat),
    (s.mediaWork = true) ∧ (leastBy (fun e => e.2.closedAt) (s.closedIn q (fun b => b.relocate && !b.hot && !b.metadata)) = none) ∧ (s.flash.cfg.gcStart ≤ s.quadFree q)) ∧
    (∃ (s : State) (q hi : Nat) (e : Nat × Sb),
    (s.mediaWork = true) ∧ ((s.flash.sbs.filter (fun e => e.1 / 2 ^ 17 == q)).foldl (fun n e => Nat.max n e.2.erases) 0 = hi) ∧ ((s.flash.sbs.filter (fun e => e.1 / 2 ^ 17 == q)).length < s.quadBlocks q) ∧ (s.flash.cfg.wearSpread < hi) ∧ (leastBy (fun e => e.2.erases) ((s.closedIn q (fun b => !b.hot && !b.metadata)).filter (fun e => s.validUnits e.1 != 0)) = some e)) ∧
    (∃ (s : State) (q sb n : Nat),
    (s.mediaWork = true) ∧ ((s.sb (sbKey q sb)).state = .closed) ∧ (s.sbBusy (sbKey q sb) = false) ∧ ((s.sb (sbKey q sb)).reads.foldl Nat.max 0 = n) ∧ ((if (s.sb (sbKey q sb)).slc then s.flash.cfg.rdSlc else s.flash.cfg.rdNative) ≤ n) ∧ ((s.sb (sbKey q sb)).hot = false)) ∧
    (∃ (s : State) (q sb n : Nat),
    (s.mediaWork = true) ∧ ((s.sb (sbKey q sb)).state = .closed) ∧ (s.sbBusy (sbKey q sb) = false) ∧ ((s.sb (sbKey q sb)).reads.foldl Nat.max 0 = n) ∧ ((if (s.sb (sbKey q sb)).slc then s.flash.cfg.rdSlc else s.flash.cfg.rdNative) ≤ n) ∧ ((s.sb (sbKey q sb)).hot = true)) :=
  ⟨⟨{ wHost with flash := { cfg := { gcStart := 0 } } }, 0, by
    repeat' apply And.intro
    all_goals first | decide +kernel | exact decOkEq _ _ (by decide +kernel) | exact readyOf _ _ _ (by decide +kernel)⟩,
   ⟨(wFlash (wRead 0) { state := .closed, erases := 100000 }).setOp 3 none, 0, 100000, (0, { state := .closed, erases := 100000 }), by
    repeat' apply And.intro
    all_goals first | decide +kernel | exact decOkEq _ _ (by decide +kernel) | exact readyOf _ _ _ (by decide +kernel)⟩,
   ⟨(wFlash (wRead 0) { state := .closed, reads := [0, 0, 10000000, 0] }).setOp 3 none, 0, 0, 10000000, by
    repeat' apply And.intro
    all_goals first | decide +kernel | exact decOkEq _ _ (by decide +kernel) | exact readyOf _ _ _ (by decide +kernel)⟩,
   ⟨(wFlash (wRead 0) { state := .closed, slc := true, hot := true, reads := [0, 0, 10000000, 0] }).setOp 3 none, 0, 0, 10000000, by
    repeat' apply And.intro
    all_goals first | decide +kernel | exact decOkEq _ _ (by decide +kernel) | exact readyOf _ _ _ (by decide +kernel)⟩⟩

theorem test_meets_BackgroundMediaWorkMovesData_3 :
    (∃ (s : State) (q sb : Nat),
    ((s.sb (sbKey q sb)).reads.foldl Nat.max 0 < (if (s.sb (sbKey q sb)).slc then s.flash.cfg.rdSlc else s.flash.cfg.rdNative))) ∧
    (∃ (s : State),
    (s.mayProgram = true)) ∧
    (∃ (s : State) (q sb rung corrected : Nat),
    (s.psm.mode = .service ∨ s.psm.mode = .degraded) ∧ ((s.sb (sbKey q sb)).state = .closed) ∧ (s.quadIdle q = true) ∧ ((s.sb (sbKey q sb)).patrolled ≠ some s.patrolPeriod)) ∧
    (∃ (s : State) (q sb rung corrected : Nat),
    ((s.sb (sbKey q sb)).state = .closed) ∧ (s.quadIdle q = true) ∧ ((s.sb (sbKey q sb)).patrolled = some s.patrolPeriod)) :=
  ⟨⟨wFlash (wRead 0), 0, 0, by
    repeat' apply And.intro
    all_goals first | decide +kernel | exact decOkEq _ _ (by decide +kernel) | exact readyOf _ _ _ (by decide +kernel)⟩,
   ⟨wFlash (wRead 0) { state := .closed, reads := [1, 0, 0, 0] }, by
    repeat' apply And.intro
    all_goals first | decide +kernel | exact decOkEq _ _ (by decide +kernel) | exact readyOf _ _ _ (by decide +kernel)⟩,
   ⟨(wFlash (wRead 0) { state := .closed }).setOp 3 none, 0, 0, 1, 71, by
    repeat' apply And.intro
    all_goals first | decide +kernel | exact decOkEq _ _ (by decide +kernel) | exact readyOf _ _ _ (by decide +kernel)⟩,
   ⟨(wFlash (wRead 0) { state := .closed, patrolled := some 0 }).setOp 3 none, 0, 0, 1, 71, by
    repeat' apply And.intro
    all_goals first | decide +kernel | exact decOkEq _ _ (by decide +kernel) | exact readyOf _ _ _ (by decide +kernel)⟩⟩

theorem test_meets_BackgroundMediaWorkMovesData_4 :
    (∃ (s : State) (ext : Nat) (c : Chunk),
    (s.mediaWork = true) ∧ (s.chunk (ext / 4) = some c) ∧ ((s.entry (chunkKey (ext / 4) (64 * (ext % 4)))).state = .flash) ∧ ((s.entry (chunkKey (ext / 4) (64 * (ext % 4)))).hot = false) ∧ (s.flash.ops = []) ∧ (s.flash.cfg.hotTier ≠ 0) ∧ (s.flash.cfg.hotPromote ≤ s.estimate ext) ∧ (∀ w ∈ ((s.entryUnits (chunkKey (ext / 4) (64 * (ext % 4)))).map (fun u => s.cell ((s.entry (chunkKey (ext / 4) (64 * (ext % 4)))).paddr + (u - (chunkKey (ext / 4) (64 * (ext % 4))))))), w ≠ none) ∧ ((s.place .hot 64 64 (fun x => x == (s.entry (chunkKey (ext / 4) (64 * (ext % 4)))).paddr / 2 ^ 33)).isSome = true)) ∧
    (∃ (s : State) (ext : Nat),
    (s.chunk (ext / 4) = none ∨ (s.entry (chunkKey (ext / 4) (64 * (ext % 4)))).state ≠ .flash ∨ (s.entry (chunkKey (ext / 4) (64 * (ext % 4)))).hot = true)) ∧
    (∃ (s : State) (i : Nat),
    (2 ^ 20 ≤ s.flash.increments) ∧ (s.flash.sketch = [])) ∧
    (∃ (s : State) (k n : Nat),
    (2 ^ 20 ≤ s.flash.increments) ∧ (s.flash.sketch = [(k, n)])) :=
  ⟨⟨wHot, 4, { wChunk with exts := [{ state := .flash, paddr := 9, slc := true }] }, ⟨holds, holds, holds, holds, holds, holds, Nat.zero_le _, holds, holds⟩⟩,
   ⟨{ wHost with objs := { chunks := [(1, some wChunk)] } }, 4, by
    repeat' apply And.intro
    all_goals first | decide +kernel | exact decOkEq _ _ (by decide +kernel) | exact readyOf _ _ _ (by decide +kernel)⟩,
   ⟨{ wHost with flash := { increments := 2 ^ 20 } }, 0, by
    repeat' apply And.intro
    all_goals first | decide +kernel | exact decOkEq _ _ (by decide +kernel) | exact readyOf _ _ _ (by decide +kernel)⟩,
   ⟨{ wHost with flash := { increments := 2 ^ 20, sketch := [(3, 1)] } }, 3, 1, by
    repeat' apply And.intro
    all_goals first | decide +kernel | exact decOkEq _ _ (by decide +kernel) | exact readyOf _ _ _ (by decide +kernel)⟩⟩

theorem test_meets_BackgroundMediaWorkMovesData_5 :
    (∃ (s : State),
    (s.flash.increments < 2 ^ 20)) :=
  ⟨wHost, by
    repeat' apply And.intro
    all_goals first | decide +kernel | exact decOkEq _ _ (by decide +kernel) | exact readyOf _ _ _ (by decide +kernel)⟩

theorem test_meets_JournalReadOnlyAndDiscovery_1 :
    (∃ (s : State),
    (16384 ≤ s.nss.journal.length)) ∧
    (∃ (s : State),
    (s.nss.journal.length < 16384)) ∧
    (∃ (s : State) (n : Nat) (t : State) (ps : List Nat),
    (s.nss.journal.take n ≠ []) ∧ (s.programPages 3 ((chunksOf 256 (s.nss.journal.take n)).map (fun g => padTo 4096 (g.map recordBytes).flatten)) = (t, ps)) ∧ (ps ≠ [])) ∧
    (∃ (s : State) (n : Nat),
    (s.nss.journal.take n = [] ∨ s.mayProgram = false ∨ s.nss.metaKey = none)) :=
  ⟨⟨{ wHost with nss := { wHost.nss with journal := List.replicate 16384 (1, 0) } }, by
    show 16384 ≤ (List.replicate 16384 _).length
    exact Nat.le_of_eq List.length_replicate.symm⟩,
   ⟨{ wHost with nss := { wHost.nss with journal := [(1, 0)] } }, by
    repeat' apply And.intro
    all_goals first | decide +kernel | exact decOkEq _ _ (by decide +kernel) | exact readyOf _ _ _ (by decide +kernel)⟩,
   ⟨wMeta, 1, _, _, ⟨by decide +kernel, rfl, by decide +kernel⟩⟩,
   ⟨wHost, 0, by
    repeat' apply And.intro
    all_goals first | decide +kernel | exact decOkEq _ _ (by decide +kernel) | exact readyOf _ _ _ (by decide +kernel)⟩⟩

theorem test_meets_JournalReadOnlyAndDiscovery_2 :
    (∃ (s : State),
    (16384 ≤ s.nss.journalPages.length) ∧ (s.mayProgram = true)) ∧
    (∃ (s : State),
    (∀ c ∈ s.nss.cache, c.dirty = false)) ∧
    (∃ (s : State) (d : Nat),
    ((s.die d).state = 1) ∧ ((s.die d).free ≤ 8) ∧ (s.flash.readOnly = false) ∧ (s.psm.mode = .service)) ∧
    (∃ (s : State) (d : Nat),
    (8 < (s.die d).free)) :=
  ⟨⟨{ wHost with nss := { wHost.nss with journalPages := List.replicate 16384 1 } }, ⟨by
    show 16384 ≤ (List.replicate 16384 _).length
    exact Nat.le_of_eq List.length_replicate.symm, by decide +kernel⟩⟩,
   ⟨wHost, by
    repeat' apply And.intro
    all_goals first | decide +kernel | exact decOkEq _ _ (by decide +kernel) | exact readyOf _ _ _ (by decide +kernel)⟩,
   ⟨(wFlash (wProgram 0)).updDie 15 (fun x => { x with free := 8 }), 15, by
    repeat' apply And.intro
    all_goals first | decide +kernel | exact decOkEq _ _ (by decide +kernel) | exact readyOf _ _ _ (by decide +kernel)⟩,
   ⟨(wFlash (wProgram 0)).updDie 15 (fun x => { x with free := 9 }), 15, by
    repeat' apply And.intro
    all_goals first | decide +kernel | exact decOkEq _ _ (by decide +kernel) | exact readyOf _ _ _ (by decide +kernel)⟩⟩

theorem test_meets_JournalReadOnlyAndDiscovery_3 :
    (∃ (s : State),
    (s.flash.readOnly = true) ∧ (∀ e ∈ s.usedDies, 24 ≤ e.2.free)) ∧
    (∃ (s : State),
    (s.flash.readOnly = true) ∧ (∃ e ∈ s.usedDies, e.2.free < 24)) ∧
    (∃ (s : State) (dies : List DieReport) (chans : List ChanReport),
    (s.psm.mode ≠ .boot ∨ s.psm.pins.testEn = true)) ∧
    (∃ (s : State) (chans : List ChanReport),
    (s.psm.mode = .boot) ∧ (s.psm.pins.testEn = false)) :=
  ⟨⟨{ wFlash (wProgram 0) with flash := { (wFlash (wProgram 0)).flash with readOnly := true } }, by
    repeat' apply And.intro
    all_goals first | decide +kernel | exact decOkEq _ _ (by decide +kernel) | exact readyOf _ _ _ (by decide +kernel)⟩,
   ⟨{ wFlash (wProgram 0) with flash := { ((wFlash (wProgram 0)).updDie 15 (fun x => { x with free := 23 })).flash with readOnly := true } }, by
    repeat' apply And.intro
    all_goals first | decide +kernel | exact decOkEq _ _ (by decide +kernel) | exact readyOf _ _ _ (by decide +kernel)⟩,
   ⟨wHost, [], [], by
    repeat' apply And.intro
    all_goals first | decide +kernel | exact decOkEq _ _ (by decide +kernel) | exact readyOf _ _ _ (by decide +kernel)⟩,
   ⟨wBoot, [], by
    repeat' apply And.intro
    all_goals first | decide +kernel | exact decOkEq _ _ (by decide +kernel) | exact readyOf _ _ _ (by decide +kernel)⟩⟩

theorem test_meets_JournalReadOnlyAndDiscovery_4 :
    (∃ (s : State) (dies : List DieReport) (chans : List ChanReport) (q m : Nat),
    (s.psm.mode = .boot) ∧ (s.psm.pins.testEn = false) ∧ (s.psm.halt.withdrawn = []) ∧ (q < 128) ∧ (dies = (quadDies q).map (fun d => ({ die := d, cell := 3, timing := 1, blocks := 1000, bad := List.range (1000 - m), blockBytes := 1048576 } : DieReport))) ∧ (chans = (quadDies q).map (fun d => ({ ch := dieChannel d, lpddr4 := false, eyes := [(1600, 300, 300), (1200, 300, 300), (800, 300, 300)] } : ChanReport))) ∧ (s.flash.cfg.chanEn = BitVec.allOnes 16) ∧ (800 ≤ s.flash.cfg.rate) ∧ (s.flash.dies = []) ∧ (s.flash.blocks = 0) ∧ (25 ≤ m) ∧ (m ≤ 1000)) ∧
    (∃ (s : State),
    (s.psm.mode = .boot) ∧ (s.psm.pins.testEn = false) ∧ (s.flash.journalRead = false)) ∧
    (∃ (s : State) (i k : Nat),
    (s.psm.mode = .boot) ∧ (s.psm.pins.testEn = false) ∧ (s.flash.journalRead = false) ∧ (isChunkKey k = false) ∧ (k / 2 ^ 40 < 2 ^ 11) ∧ (k % 2 ^ 40 < 2 ^ 37) ∧ (Mem.get none s.nss.ledger i = some (ledgerWord k 4096))) ∧
    (∃ (s : State) (k w : Nat),
    (s.psm.mode = .boot) ∧ (s.psm.pins.testEn = false) ∧ (s.flash.journalRead = false) ∧ (s.nss.ledger = []) ∧ (s.mapRecords = [(k, w)]) ∧ (0 < k) ∧ (k < 2 ^ 62)) :=
  ⟨⟨{ wBoot with flash := { cfg := { chanEn := 0xFFFF, rate := 3600 } } }, _, _, 127, 980, ⟨holds, holds, holds, holds, rfl, rfl, holds, holds, holds, holds, holds, holds⟩⟩,
   ⟨wBoot, by
    repeat' apply And.intro
    all_goals first | decide +kernel | exact decOkEq _ _ (by decide +kernel) | exact readyOf _ _ _ (by decide +kernel)⟩,
   ⟨{ wBoot with nss := { ledger := [(2, some (ledgerWord (2 ^ 40) 4096))] } }, 2, 2 ^ 40, by
    repeat' apply And.intro
    all_goals first | decide +kernel | exact decOkEq _ _ (by decide +kernel) | exact readyOf _ _ _ (by decide +kernel)⟩,
   ⟨{ wBoot with nss := { journal := [(2 ^ 40, 9 + 2 ^ 40)] } }, 2 ^ 40, 9 + 2 ^ 40, by
    repeat' apply And.intro
    all_goals first | decide +kernel | exact decOkEq _ _ (by decide +kernel) | exact readyOf _ _ _ (by decide +kernel)⟩⟩

theorem test_meets_JournalReadOnlyAndDiscovery_5 :
    (∃ (s : State) (k : Nat) (b : Sb) (r : List Nat),
    (s.psm.mode = .boot) ∧ (s.psm.pins.testEn = false) ∧ (s.flash.journalRead = false) ∧ (s.flash.drained = true) ∧ (s.nss.ledger = []) ∧ (s.flash.sbs = [(k, b)]) ∧ (b.state ≠ .free) ∧ (Mem.get [0, 0, 0, 0] s.flash.checkpoint k = r)) :=
  ⟨{ wBoot with flash := { drained := true, sbs := [(3, { state := .closed, reads := [9, 9, 9, 9] })], checkpoint := [(3, [5, 5, 5, 5])] } }, 3, { state := .closed, reads := [9, 9, 9, 9] }, [5, 5, 5, 5], by
    repeat' apply And.intro
    all_goals first | decide +kernel | exact decOkEq _ _ (by decide +kernel) | exact readyOf _ _ _ (by decide +kernel)⟩

theorem test_meets_DramServesReadsAndWrites_1 :
    (∃ (s : State) (r : DramReq) (cs : Nat),
    (r.port ≤ 7) ∧ (1 ≤ r.len) ∧ (r.addr % 64 + r.len ≤ 64) ∧ (s.dram.resetHigh = true) ∧ (s.dram.board.isEmpty = false) ∧ ((s.dramPlace r.addr).2.1 < 4) ∧ (s.csOf (s.dramPlace r.addr).1 (s.dramPlace r.addr).2.1 = some cs) ∧ (s.dmcServes (s.dramPlace r.addr).1 = true) ∧ (r.isWrite = false) ∧ (eccOf r.wrong = .clean)) ∧
    (∃ (s : State) (r : DramReq) (cs : Nat),
    (r.port ≤ 7) ∧ (1 ≤ r.len) ∧ (r.addr % 64 + r.len ≤ 64) ∧ (s.dram.resetHigh = true) ∧ (s.dram.board.isEmpty = false) ∧ ((s.dramPlace r.addr).2.1 < 4) ∧ (s.csOf (s.dramPlace r.addr).1 (s.dramPlace r.addr).2.1 = some cs) ∧ (s.dmcServes (s.dramPlace r.addr).1 = true) ∧ (r.isWrite = false) ∧ (eccOf r.wrong = .uncorrectable)) ∧
    (∃ (s : State) (r : DramReq) (cs : Nat),
    (r.port ≤ 7) ∧ (1 ≤ r.len) ∧ (r.addr % 64 + r.len ≤ 64) ∧ (s.dram.resetHigh = true) ∧ (s.dram.board.isEmpty = false) ∧ ((s.dramPlace r.addr).2.1 < 4) ∧ (s.csOf (s.dramPlace r.addr).1 (s.dramPlace r.addr).2.1 = some cs) ∧ (s.dmcServes (s.dramPlace r.addr).1 = true) ∧ (r.isWrite = true) ∧ (eccOf r.wrong = .clean) ∧ (r.alerts < 4)) ∧
    (∃ (s : State) (r : DramReq) (cs : Nat) (a : Nat),
    (r.port ≤ 7) ∧ (1 ≤ r.len) ∧ (r.addr % 64 + r.len ≤ 64) ∧ (s.dram.resetHigh = true) ∧ (s.dram.board.isEmpty = false) ∧ ((s.dramPlace r.addr).2.1 < 4) ∧ (s.csOf (s.dramPlace r.addr).1 (s.dramPlace r.addr).2.1 = some cs) ∧ (s.dmcServes (s.dramPlace r.addr).1 = true) ∧ (r.isWrite = true) ∧ (eccOf r.wrong = .clean) ∧ (r.alerts < 4) ∧ (a < r.addr ∨ r.addr + r.len ≤ a)) :=
  ⟨⟨wDram, { port := 1, isWrite := false, addr := 130, len := 3, data := [], wrong := [], alerts := 0 }, 0, by
    repeat' apply And.intro
    all_goals first | decide +kernel | exact decOkEq _ _ (by decide +kernel) | exact readyOf _ _ _ (by decide +kernel)⟩,
   ⟨wDram true, { port := 1, isWrite := false, addr := 130, len := 3, data := [], wrong := [0, 1, 2, 39, 4], alerts := 0 }, 0, by
    repeat' apply And.intro
    all_goals first | decide +kernel | exact decOkEq _ _ (by decide +kernel) | exact readyOf _ _ _ (by decide +kernel)⟩,
   ⟨wDram, { port := 1, isWrite := true, addr := 130, len := 3, data := [1, 2, 3], wrong := [], alerts := 0 }, 0, by
    repeat' apply And.intro
    all_goals first | decide +kernel | exact decOkEq _ _ (by decide +kernel) | exact readyOf _ _ _ (by decide +kernel)⟩,
   ⟨wDram, { port := 1, isWrite := true, addr := 130, len := 3, data := [1, 2, 3], wrong := [], alerts := 0 }, 0, 133, by
    repeat' apply And.intro
    all_goals first | decide +kernel | exact decOkEq _ _ (by decide +kernel) | exact readyOf _ _ _ (by decide +kernel)⟩⟩

theorem test_meets_DramServesReadsAndWrites_2 :
    (∃ (s : State) (r : DramReq) (cs : Nat),
    (r.port ≤ 7) ∧ (1 ≤ r.len) ∧ (r.addr % 64 + r.len ≤ 64) ∧ (s.dram.resetHigh = true) ∧ (s.dram.board.isEmpty = false) ∧ ((s.dramPlace r.addr).2.1 < 4) ∧ (s.csOf (s.dramPlace r.addr).1 (s.dramPlace r.addr).2.1 = some cs) ∧ (s.dmcServes (s.dramPlace r.addr).1 = true) ∧ (r.isWrite = true) ∧ (4 ≤ r.alerts)) ∧
    (∃ (s : State) (r : DramReq) (cs : Nat),
    (r.port ≤ 7) ∧ (1 ≤ r.len) ∧ (r.addr % 64 + r.len ≤ 64) ∧ (s.dram.resetHigh = true) ∧ (s.dram.board.isEmpty = false) ∧ ((s.dramPlace r.addr).2.1 < 4) ∧ (s.csOf (s.dramPlace r.addr).1 (s.dramPlace r.addr).2.1 = some cs) ∧ (s.dmcServes (s.dramPlace r.addr).1 = false) ∧ (s.psm.mode = .safeHalt)) ∧
    (∃ (s : State) (r : DramReq),
    (s.csOf (s.dramPlace r.addr).1 (s.dramPlace r.addr).2.1 = none)) ∧
    (∃ (s : State) (ch cs m port : Nat),
    (s.rank ch cs = .inService) ∧ (s.dmcNormal = true) ∧ (s.spareOf ch = some m) ∧ (Mem.get none s.dram.migration ch = none)) :=
  ⟨⟨wDram true, { port := 1, isWrite := true, addr := 130, len := 3, data := [1, 2, 3], wrong := [], alerts := 4 }, 0, by
    repeat' apply And.intro
    all_goals first | decide +kernel | exact decOkEq _ _ (by decide +kernel) | exact readyOf _ _ _ (by decide +kernel)⟩,
   ⟨{ wDram with psm := { mode := .safeHalt }, dram := { wDram.dram with selfRefresh := [(0, true)] } }, { port := 1, isWrite := false, addr := 130, len := 3, data := [], wrong := [], alerts := 0 }, 0, by
    repeat' apply And.intro
    all_goals first | decide +kernel | exact decOkEq _ _ (by decide +kernel) | exact readyOf _ _ _ (by decide +kernel)⟩,
   ⟨wHost, { port := 1, isWrite := false, addr := 130, len := 3, data := [], wrong := [], alerts := 0 }, by
    repeat' apply And.intro
    all_goals first | decide +kernel | exact decOkEq _ _ (by decide +kernel) | exact readyOf _ _ _ (by decide +kernel)⟩,
   ⟨wDram true, 0, 0, 1, 0, by
    repeat' apply And.intro
    all_goals first | decide +kernel | exact decOkEq _ _ (by decide +kernel) | exact readyOf _ _ _ (by decide +kernel)⟩⟩

theorem test_meets_DramServesReadsAndWrites_3 :
    (∃ (s : State) (ch cs : Nat) (m : Migration),
    (s.rank ch cs = .inService) ∧ (s.dmcNormal = true) ∧ (Mem.get none s.dram.migration ch = some m)) ∧
    (∃ (l : List Nat),
    (l.Nodup) ∧ (∀ j ∈ l, j < 40)) :=
  ⟨⟨(let s := wDram true; { s with dram := { s.dram with migration := [(0, some { fromCs := 2, toCs := 1 })] } }), 0, 0, { fromCs := 2, toCs := 1 }, by
    repeat' apply And.intro
    all_goals first | decide +kernel | exact decOkEq _ _ (by decide +kernel) | exact readyOf _ _ _ (by decide +kernel)⟩,
   ⟨[3, 39], by
    repeat' apply And.intro
    all_goals first | decide +kernel | exact decOkEq _ _ (by decide +kernel) | exact readyOf _ _ _ (by decide +kernel)⟩⟩

theorem test_meets_RanksRefreshScrubMigrateAndComeUp_1 :
    (∃ (s : State) (k : Nat),
    True) ∧
    (∃ (s : State) (ch rank bank : Nat) (b : RowTrack),
    (ch ≤ 1) ∧ (rank ≤ 3) ∧ (bank ≤ 31) ∧ (s.dmcAwake ch = true) ∧ (s.rank ch rank ≠ .absent) ∧ (Mem.get {} s.dram.track ((4 * ch + rank) * 32 + bank) = b)) ∧
    (∃ (s : State) (ch rank bank : Nat) (b : RowTrack),
    (ch ≤ 1) ∧ (rank ≤ 3) ∧ (bank ≤ 31) ∧ (s.dmcAwake ch = true) ∧ (s.rank ch rank ≠ .absent) ∧ (Mem.get {} s.dram.track ((4 * ch + rank) * 32 + bank) = b) ∧ (b.debt < 4)) ∧
    (∃ (s : State) (ch rank bank : Nat) (b : RowTrack),
    (ch ≤ 1) ∧ (rank ≤ 3) ∧ (bank ≤ 31) ∧ (s.dmcAwake ch = true) ∧ (s.rank ch rank ≠ .absent) ∧ (Mem.get {} s.dram.track ((4 * ch + rank) * 32 + bank) = b) ∧ (4 ≤ b.debt)) :=
  ⟨⟨{ wDram with dram := { wDram.dram with track := [(3, { rows := [(5, 4097)], throttled := some 1 })] } }, 3, by
    repeat' apply And.intro
    all_goals first | decide +kernel | exact decOkEq _ _ (by decide +kernel) | exact readyOf _ _ _ (by decide +kernel)⟩,
   ⟨{ wDram with dram := { wDram.dram with track := [(159, { openRow := some 5 })] } }, 1, 0, 31, { openRow := some 5 }, by
    repeat' apply And.intro
    all_goals first | decide +kernel | exact decOkEq _ _ (by decide +kernel) | exact readyOf _ _ _ (by decide +kernel)⟩,
   ⟨{ wDram with dram := { wDram.dram with track := [(159, { debt := 3 })] } }, 1, 0, 31, { debt := 3 }, by
    repeat' apply And.intro
    all_goals first | decide +kernel | exact decOkEq _ _ (by decide +kernel) | exact readyOf _ _ _ (by decide +kernel)⟩,
   ⟨{ wDram with dram := { wDram.dram with track := [(159, { debt := 4 })] } }, 1, 0, 31, { debt := 4 }, by
    repeat' apply And.intro
    all_goals first | decide +kernel | exact decOkEq _ _ (by decide +kernel) | exact readyOf _ _ _ (by decide +kernel)⟩⟩

theorem test_meets_RanksRefreshScrubMigrateAndComeUp_2 :
    (∃ (s : State) (ch rank bank : Nat) (b : RowTrack),
    (ch ≤ 1) ∧ (rank ≤ 3) ∧ (bank ≤ 31) ∧ (s.dmcAwake ch = true) ∧ (s.rank ch rank ≠ .absent) ∧ (Mem.get {} s.dram.track ((4 * ch + rank) * 32 + bank) = b) ∧ (-4 < b.debt)) ∧
    (∃ (s : State) (ch rank bank : Nat) (b : RowTrack),
    (ch ≤ 1) ∧ (rank ≤ 3) ∧ (bank ≤ 31) ∧ (s.dmcAwake ch = true) ∧ (s.rank ch rank ≠ .absent) ∧ (Mem.get {} s.dram.track ((4 * ch + rank) * 32 + bank) = b) ∧ (b.debt ≤ -4)) ∧
    (∃ (s : State),
    (s.dmcAwake 0 = true ∨ s.dmcAwake 1 = true)) ∧
    (∃ (s : State) (d : Bool),
    (s.dmcAwake 0 = true ∨ s.dmcAwake 1 = true)) :=
  ⟨⟨{ wDram with dram := { wDram.dram with track := [(159, { debt := -3 })] } }, 1, 0, 31, { debt := -3 }, by
    repeat' apply And.intro
    all_goals first | decide +kernel | exact decOkEq _ _ (by decide +kernel) | exact readyOf _ _ _ (by decide +kernel)⟩,
   ⟨{ wDram with dram := { wDram.dram with track := [(159, { debt := -4 })] } }, 1, 0, 31, { debt := -4 }, by
    repeat' apply And.intro
    all_goals first | decide +kernel | exact decOkEq _ _ (by decide +kernel) | exact readyOf _ _ _ (by decide +kernel)⟩,
   ⟨wDram, by
    repeat' apply And.intro
    all_goals first | decide +kernel | exact decOkEq _ _ (by decide +kernel) | exact readyOf _ _ _ (by decide +kernel)⟩,
   ⟨wDram, true, by
    repeat' apply And.intro
    all_goals first | decide +kernel | exact decOkEq _ _ (by decide +kernel) | exact readyOf _ _ _ (by decide +kernel)⟩⟩

theorem test_meets_RanksRefreshScrubMigrateAndComeUp_3 :
    (∃ (s : State) (ch : Nat) (after : Bool),
    (ch ≤ 1) ∧ (s.dram.srRequested = true) ∧ (s.dram.resetHigh = true) ∧ (s.psm.mode = .rest) ∧ (s.psm.heldFromHalt = false)) ∧
    (∃ (s : State) (ch : Nat) (after : Bool),
    (ch ≤ 1) ∧ (s.dram.srRequested = true) ∧ (s.dram.resetHigh = true) ∧ (s.psm.mode = .safeHalt)) ∧
    (∃ (s : State) (ch : Nat) (after : Bool),
    True) ∧
    (∃ (s t : State) (ch rk line l : Nat) (wl : List Nat),
    (ch ≤ 1) ∧ (rk ≤ 3) ∧ (line < rankLines s.dram.board) ∧ (s.dmcNormal = true) ∧ (s.logicalOf ch rk = some l) ∧ ((s.wakeChannel ch).activate ch rk line 7 = t) ∧ (eccOf wl = .clean)) :=
  ⟨⟨{ wDram with psm := { mode := .rest }, dram := { wDram.dram with srRequested := true } }, 1, true, by
    repeat' apply And.intro
    all_goals first | decide +kernel | exact decOkEq _ _ (by decide +kernel) | exact readyOf _ _ _ (by decide +kernel)⟩,
   ⟨{ wDram with psm := { mode := .safeHalt }, dram := { wDram.dram with srRequested := true } }, 1, true, by
    repeat' apply And.intro
    all_goals first | decide +kernel | exact decOkEq _ _ (by decide +kernel) | exact readyOf _ _ _ (by decide +kernel)⟩,
   ⟨wDram, 1, true, by
    repeat' apply And.intro
    all_goals first | decide +kernel | exact decOkEq _ _ (by decide +kernel) | exact readyOf _ _ _ (by decide +kernel)⟩,
   ⟨wDram, _, 1, 0, 5, 0, [], ⟨holds, holds, holds, holds, holds, rfl, holds⟩⟩⟩

theorem test_meets_RanksRefreshScrubMigrateAndComeUp_4 :
    (∃ (s t : State) (ch rk line l : Nat) (wl : List Nat),
    (ch ≤ 1) ∧ (rk ≤ 3) ∧ (line < rankLines s.dram.board) ∧ (s.dmcNormal = true) ∧ (s.logicalOf ch rk = some l) ∧ ((s.wakeChannel ch).activate ch rk line 7 = t) ∧ (eccOf wl = .corrected)) ∧
    (∃ (s t : State) (ch rk line l : Nat) (wl : List Nat),
    (ch ≤ 1) ∧ (rk ≤ 3) ∧ (line < rankLines s.dram.board) ∧ (s.dmcNormal = true) ∧ (s.logicalOf ch rk = some l) ∧ ((s.wakeChannel ch).activate ch rk line 7 = t) ∧ (eccOf wl = .uncorrectable)) ∧
    (∃ (s : State) (ch cs : Nat) (n : Nat),
    (Mem.get (0, 0) s.dram.ceHour (4 * ch + cs) = (s.recd.hours, n)) ∧ (n ≠ 4096)) ∧
    (∃ (s : State) (ch rebuilt ms : Nat) (m : Migration),
    (s.dmcNormal = true) ∧ (Mem.get none s.dram.migration ch = some m) ∧ (m.fromCs ≠ m.toCs) ∧ (m.fromCs < 4) ∧ (m.toCs < 4) ∧ (ch ≤ 1) ∧ (s.dram.deferredFail = [])) :=
  ⟨⟨wDram, _, 1, 0, 5, 0, [7, 7, 39], ⟨holds, holds, holds, holds, holds, rfl, holds⟩⟩,
   ⟨wDram, _, 1, 0, 5, 0, [0, 1, 2, 39, 4], ⟨holds, holds, holds, holds, holds, rfl, holds⟩⟩,
   ⟨wDram, 0, 0, 0, by
    repeat' apply And.intro
    all_goals first | decide +kernel | exact decOkEq _ _ (by decide +kernel) | exact readyOf _ _ _ (by decide +kernel)⟩,
   ⟨(wDram true).retireRank 0 0 true, 0, 7, 5, { fromCs := 0, toCs := 1 }, by
    repeat' apply And.intro
    all_goals first | decide +kernel | exact decOkEq _ _ (by decide +kernel) | exact readyOf _ _ _ (by decide +kernel)⟩⟩

theorem test_meets_RanksRefreshScrubMigrateAndComeUp_5 :
    (∃ (s : State) (ch rk : Nat),
    (s.dmcNormal = true) ∧ (ch ≤ 1) ∧ (rk ≤ 3) ∧ (s.rank ch rk = .spare) ∧ (Mem.get false s.dram.spareInit (4 * ch + rk) = false)) ∧
    (∃ (s : State) (ch rk a : Nat),
    (s.dmcNormal = true) ∧ (ch ≤ 1) ∧ (rk ≤ 3) ∧ (s.rank ch rk = .spare) ∧ (Mem.get false s.dram.spareInit (4 * ch + rk) = false)) ∧
    (∃ (s : State) (reports : List RankReport),
    (s.psm.mode ≠ .boot ∨ s.psm.pins.testEn = true ∨ s.dram.resetHigh = true ∨ s.dram.board = [])) ∧
    (∃ (s : State) (a b : RankReport) (m : Nat),
    (s.psm.mode = .boot) ∧ (s.psm.pins.testEn = false) ∧ (s.dram.resetHigh = false) ∧ (s.dram.board ≠ []) ∧ (boardRanks s.dram.board = 1) ∧ (bit (byteAt s.dram.board 0) 6 = false) ∧ (s.dram.ranks = []) ∧ (s.dram.rankMap = []) ∧ (a.ch = 0) ∧ (b.ch = 1) ∧ (a.rank = 0) ∧ (b.rank = 0) ∧ (a.badLine = none) ∧ (b.badLine = none) ∧ (lowMargin a m = none) ∧ (lowMargin b m = none) ∧ (byteAt s.dram.board 14 = m)) :=
  ⟨⟨wDram true, 1, 1, by
    repeat' apply And.intro
    all_goals first | decide +kernel | exact decOkEq _ _ (by decide +kernel) | exact readyOf _ _ _ (by decide +kernel)⟩,
   ⟨wDram true, 1, 1, 64, by
    repeat' apply And.intro
    all_goals first | decide +kernel | exact decOkEq _ _ (by decide +kernel) | exact readyOf _ _ _ (by decide +kernel)⟩,
   ⟨wHost, [], by
    repeat' apply And.intro
    all_goals first | decide +kernel | exact decOkEq _ _ (by decide +kernel) | exact readyOf _ _ _ (by decide +kernel)⟩,
   ⟨{ wBoot with dram := { board := padTo 1152 [0], resetHigh := false } }, { ch := 0, rank := 0, caMargin := 20, rdMargin := List.replicate 40 20, wrMargin := List.replicate 40 20, badLine := none }, { ch := 1, rank := 0, caMargin := 20, rdMargin := List.replicate 40 20, wrMargin := List.replicate 40 20, badLine := none }, 0, by
    repeat' apply And.intro
    all_goals first | decide +kernel | exact decOkEq _ _ (by decide +kernel) | exact readyOf _ _ _ (by decide +kernel)⟩⟩

theorem test_meets_RanksRefreshScrubMigrateAndComeUp_6 :
    (∃ (s : State) (a b : RankReport) (m : Nat),
    (s.psm.mode = .boot) ∧ (s.psm.pins.testEn = false) ∧ (s.dram.resetHigh = false) ∧ (s.dram.board ≠ []) ∧ (boardRanks s.dram.board = 1) ∧ (bit (byteAt s.dram.board 0) 6 = false) ∧ (s.dram.ranks = []) ∧ (s.dram.rankMap = []) ∧ (a.ch = 0) ∧ (b.ch = 1) ∧ (a.rank = 0) ∧ (b.rank = 0) ∧ (lowMargin a (byteAt s.dram.board 14) = some m)) :=
  ⟨{ wBoot with dram := { board := padTo 1152 (leBytes 15 (10 * 2 ^ 112)), resetHigh := false } }, { ch := 0, rank := 0, caMargin := 20, rdMargin := List.replicate 40 9, wrMargin := List.replicate 40 20, badLine := none }, { ch := 1, rank := 0, caMargin := 20, rdMargin := List.replicate 40 20, wrMargin := List.replicate 40 20, badLine := none }, 9, by
    repeat' apply And.intro
    all_goals first | decide +kernel | exact decOkEq _ _ (by decide +kernel) | exact readyOf _ _ _ (by decide +kernel)⟩

theorem test_meets_DmaChannelsJobsAndArbitration_1 :
    (∃ (s : State) (ch : Nat),
    ((s.ch ch).state = .idle)) ∧
    (∃ (s : State) (ch : Nat),
    ((s.ch ch).state = .halted)) ∧
    (∃ (s : State) (ch : Nat),
    ((s.ch ch).state = .ready)) ∧
    (∃ (s : State) (ch : Nat),
    ((s.ch ch).state = .ready)) :=
  ⟨⟨{ wHost with dmf := { chans := [(5, { state := .idle, head := 4098 })] } }, 5, by
    repeat' apply And.intro
    all_goals first | decide +kernel | exact decOkEq _ _ (by decide +kernel) | exact readyOf _ _ _ (by decide +kernel)⟩,
   ⟨{ wHost with dmf := { chans := [(5, { state := .halted, head := 4098 })] } }, 5, by
    repeat' apply And.intro
    all_goals first | decide +kernel | exact decOkEq _ _ (by decide +kernel) | exact readyOf _ _ _ (by decide +kernel)⟩,
   ⟨{ wHost with dmf := { chans := [(5, { state := .ready, curSpl := true, cur := 4096 })], spl := writeBytes [] 4096 (leBytes 64 726838724295606890549426617688108041677025450589923110299200597059900298724058005695760844698834575809799916386311434352359574973972483) } }, 5, by
    repeat' apply And.intro
    all_goals first | decide +kernel | exact decOkEq _ _ (by decide +kernel) | exact readyOf _ _ _ (by decide +kernel)⟩,
   ⟨{ wHost with dmf := { chans := [(5, { state := .ready, curSpl := true, cur := 4096 })], spl := writeBytes [] 4096 (leBytes 64 726838724295606890549426617688108041677025450589923110299200597059900298724058005695760844698834575809799916386311434352359574973972483) } }, 5, by
    repeat' apply And.intro
    all_goals first | decide +kernel | exact decOkEq _ _ (by decide +kernel) | exact readyOf _ _ _ (by decide +kernel)⟩⟩

theorem test_meets_DmaChannelsJobsAndArbitration_2 :
    (∃ (s : State) (ch : Nat),
    ((s.ch ch).state = .active)) ∧
    (∃ (s : State) (ch : Nat),
    ((s.ch ch).state = .active)) ∧
    (∃ (s : State) (ch l : Nat),
    ((s.ch ch).state = .parked) ∧ ((s.readDesc (s.ch ch).curSpl (s.ch ch).cur).link = l) ∧ (l % 2 = 1)) ∧
    (∃ (s : State) (ch l : Nat),
    ((s.ch ch).state = .parked) ∧ ((s.readDesc (s.ch ch).curSpl (s.ch ch).cur).link = l) ∧ (l % 2 = 0)) :=
  ⟨⟨{ wHost with dmf := { chans := [(5, { state := .active, curSpl := true, cur := 4096, fetched := 726838724295606890549426617688108041677025450589923110299200597059900298724058005695760844698834575809799916386311434352359574973972483 })], spl := writeBytes [] 4096 (leBytes 64 726838724295606890549426617688108041677025450589923110299200597059900298724058005695760844698834575809799916386311434352359574973972483) } }, 5, by
    repeat' apply And.intro
    all_goals first | decide +kernel | exact decOkEq _ _ (by decide +kernel) | exact readyOf _ _ _ (by decide +kernel)⟩,
   ⟨{ wHost with dmf := { chans := [(5, { state := .active, curSpl := true, cur := 4096, fetched := 726838724295606890549426617688108041677025450589923110299200597059900298724058005695760844698834575809799916386311434352359574973972483 })], spl := writeBytes [] 4096 (leBytes 64 726838724295606890549426617688108041677025450589923110299200597059900298724058005695760844698834575809799916386311434352359574973972483) } }, 5, by
    repeat' apply And.intro
    all_goals first | decide +kernel | exact decOkEq _ _ (by decide +kernel) | exact readyOf _ _ _ (by decide +kernel)⟩,
   ⟨{ wHost with dmf := { chans := [(5, { state := .parked, curSpl := true, cur := 4096 })], spl := writeBytes [] 4096 (leBytes 64 726838724295606890549426617688108041677025450589923110299200597059900298724058005695760844698834575809799916386311434352359574973972483) } }, 5, 1, by
    repeat' apply And.intro
    all_goals first | decide +kernel | exact decOkEq _ _ (by decide +kernel) | exact readyOf _ _ _ (by decide +kernel)⟩,
   ⟨{ wHost with dmf := { chans := [(5, { state := .parked, curSpl := true, cur := 4096 })], spl := writeBytes [] 4096 (leBytes 64 5955716506878202861161159384644109258001060693561786790996548402484037587811793243817179039342563727215137139436525107243801350718213849091) } }, 5, 8194, by
    repeat' apply And.intro
    all_goals first | decide +kernel | exact decOkEq _ _ (by decide +kernel) | exact readyOf _ _ _ (by decide +kernel)⟩⟩

theorem test_meets_DmaChannelsJobsAndArbitration_3 :
    (∃ (s : State) (ch : Nat),
    ((s.ch ch).state = .idle)) ∧
    (∃ (s : State) (ch : Nat),
    ((s.ch ch).state = .parked)) ∧
    (∃ (s : State) (ch : Nat),
    ((s.ch ch).state = .halted)) ∧
    (∃ (a b : Au) (asking : List Nat) (w : Nat),
    (a.round asking = (b, some w))) :=
  ⟨⟨{ wHost with dmf := { chans := [(5, { state := .idle, curSpl := true, cur := 4096 })], spl := writeBytes [] 4096 (leBytes 64 726838724295606890549426617688108041677025450589923110299200597059900298724058005695760844698834575809799916386311434352359574973972483) } }, 5, by
    repeat' apply And.intro
    all_goals first | decide +kernel | exact decOkEq _ _ (by decide +kernel) | exact readyOf _ _ _ (by decide +kernel)⟩,
   ⟨{ wHost with dmf := { chans := [(5, { state := .parked, curSpl := true, cur := 4096 })], spl := writeBytes [] 4096 (leBytes 64 726838724295606890549426617688108041677025450589923110299200597059900298724058005695760844698834575809799916386311434352359574973972483) } }, 5, by
    repeat' apply And.intro
    all_goals first | decide +kernel | exact decOkEq _ _ (by decide +kernel) | exact readyOf _ _ _ (by decide +kernel)⟩,
   ⟨{ wHost with dmf := { chans := [(5, { state := .halted, curSpl := true, cur := 4096 })], spl := writeBytes [] 4096 (leBytes 64 726838724295606890549426617688108041677025450589923110299200597059900298724058005695760844698834575809799916386311434352359574973972483) } }, 5, by
    repeat' apply And.intro
    all_goals first | decide +kernel | exact decOkEq _ _ (by decide +kernel) | exact readyOf _ _ _ (by decide +kernel)⟩,
   ⟨auReset 0, ((auReset 0).round [9, 31]).1, [9, 31], 9, by decide +kernel⟩⟩

theorem test_meets_DmaChannelsJobsAndArbitration_4 :
    (∃ (a b : Au) (asking : List Nat) (w i : Nat),
    (a.round asking = (b, some w)) ∧ (i ∈ asking) ∧ (i < a.reqs.length) ∧ ((nth {} a.reqs i).expired = true)) ∧
    (∃ (a b : Au) (asking : List Nat) (w i : Nat),
    (a.round asking = (b, some w)) ∧ (i ∈ asking) ∧ (i < a.reqs.length) ∧ (∀ j ∈ asking, (nth {} a.reqs j).expired = false) ∧ (∀ j ∈ asking, (nth {} a.reqs j).cls ≤ 3)) ∧
    (∃ (a b : Au) (asking : List Nat) (w i : Nat),
    (a.round asking = (b, some w)) ∧ (i ≠ w) ∧ (i < a.reqs.length)) ∧
    (∃ (s : State) (inst : Nat) (asking : List Nat),
    (8 ≤ inst) ∧ (asking ≠ []) ∧ ((s.au inst).parked = false)) :=
  ⟨⟨(let a := auReset 8; { a with reqs := a.reqs.set 7 { cls := 0, limit := 64, wait := 64 } }), _, [0, 7], 7, 7, ⟨rfl, by decide +kernel⟩⟩,
   ⟨auReset 8, _, [7, 0], 0, 7, ⟨rfl, by decide +kernel⟩⟩,
   ⟨auReset 8, _, [7, 0], 0, 7, ⟨rfl, by decide +kernel⟩⟩,
   ⟨wHost, 8, [7, 0], by
    repeat' apply And.intro
    all_goals first | decide +kernel | exact decOkEq _ _ (by decide +kernel) | exact readyOf _ _ _ (by decide +kernel)⟩⟩

theorem test_meets_DmaChannelsJobsAndArbitration_5 :
    (∃ (s : State) (inst : Nat) (asking : List Nat) (ch : Nat),
    (inst ≤ 7) ∧ (32 * inst ≤ ch) ∧ (ch < 32 * inst + 32) ∧ ((s.ch ch).state = .active)) ∧
    (∃ (s : State) (inst : Nat) (asking : List Nat),
    (inst ≤ 7) ∧ (∀ k ∈ asking, (s.ch (32 * inst + k)).state ≠ .ready)) ∧
    (∃ (s : State) (inst k : Nat),
    (inst ≤ 7) ∧ (s.psm.halt.withdrawn = []) ∧ (k < 32) ∧ ((s.ch (32 * inst + k)).state = .ready) ∧ (∀ j, j < 32 → (s.ch (32 * inst + j)).state ≠ .active) ∧ (s.dmf.domainsOff = []) ∧ ((s.au inst).reqs.length = 32) ∧ ((s.au inst).commit = false) ∧ ((nth {} (s.au inst).reqs k).cls ≤ 3)) ∧
    (∃ (s : State) (inst : Nat) (asking : List Nat),
    (inst ≤ 7) ∧ (.dma inst ∈ s.psm.halt.withdrawn)) :=
  ⟨⟨{ wHost with dmf := { chans := [(5, { state := .active, curSpl := true, cur := 4096, fetched := 726838724295606890549426617688108041677025450589923110299200597059900298724058005695760844698834575809799916386311434352359574973972483 })], spl := writeBytes [] 4096 (leBytes 64 726838724295606890549426617688108041677025450589923110299200597059900298724058005695760844698834575809799916386311434352359574973972483) } }, 0, [5], 5, by
    repeat' apply And.intro
    all_goals first | decide +kernel | exact decOkEq _ _ (by decide +kernel) | exact readyOf _ _ _ (by decide +kernel)⟩,
   ⟨{ wHost with dmf := { chans := [(5, { state := .active, curSpl := true, cur := 4096, fetched := 726838724295606890549426617688108041677025450589923110299200597059900298724058005695760844698834575809799916386311434352359574973972483 })], spl := writeBytes [] 4096 (leBytes 64 726838724295606890549426617688108041677025450589923110299200597059900298724058005695760844698834575809799916386311434352359574973972483) } }, 7, [31], by
    repeat' apply And.intro
    all_goals first | decide +kernel | exact decOkEq _ _ (by decide +kernel) | exact readyOf _ _ _ (by decide +kernel)⟩,
   ⟨{ wHost with dmf := { chans := [(5, { state := .ready, curSpl := true, cur := 4096 })], spl := writeBytes [] 4096 (leBytes 64 726838724295606890549426617688108041677025450589923110299200597059900298724058005695760844698834575809799916386311434352359574973972483) } }, 0, 5, ⟨by decide, holds, by decide, holds, holds, holds, holds, holds, holds⟩⟩,
   ⟨{ wHost with psm := { wHost.psm with halt := { withdrawn := [.dma 7] } } }, 7, [31], by
    repeat' apply And.intro
    all_goals first | decide +kernel | exact decOkEq _ _ (by decide +kernel) | exact readyOf _ _ _ (by decide +kernel)⟩⟩

theorem test_meets_DmaChannelsJobsAndArbitration_6 :
    (∃ (s : State) (inst : Nat),
    True) ∧
    (∃ (a : Au) (i : Nat),
    (a.commit = true) ∧ (i < a.reqs.length)) ∧
    (∃ (s : State) (ch : Nat),
    (((s.readDesc (s.ch ch).curSpl (s.ch ch).cur)).own = false)) ∧
    (∃ (s : State) (ch : Nat),
    (((s.readDesc (s.ch ch).curSpl (s.ch ch).cur)).own = true) ∧ (s.descOk (s.ch ch) (s.readDesc (s.ch ch).curSpl (s.ch ch).cur) = false)) :=
  ⟨⟨wHost, 8, by
    repeat' apply And.intro
    all_goals first | decide +kernel | exact decOkEq _ _ (by decide +kernel) | exact readyOf _ _ _ (by decide +kernel)⟩,
   ⟨{ auReset 8 with commit := true }, 7, by
    repeat' apply And.intro
    all_goals first | decide +kernel | exact decOkEq _ _ (by decide +kernel) | exact readyOf _ _ _ (by decide +kernel)⟩,
   ⟨{ wHost with dmf := { chans := [(5, { state := .ready, curSpl := true, cur := 4096 })], spl := writeBytes [] 4096 (leBytes 64 726838724295606890549426617688108041677025450589923110299200597059900298724058005695760844698834575809799916386311434352359572826488835) } }, 5, by
    repeat' apply And.intro
    all_goals first | decide +kernel | exact decOkEq _ _ (by decide +kernel) | exact readyOf _ _ _ (by decide +kernel)⟩,
   ⟨{ wHost with dmf := { chans := [(5, { state := .ready, curSpl := true, cur := 4096 })], spl := writeBytes [] 4096 (leBytes 64 726838724295606890549426617688108041677025450589923110299200597059900298724058005695760844698834575809799916386311434352359575007526915) } }, 5, by
    repeat' apply And.intro
    all_goals first | decide +kernel | exact decOkEq _ _ (by decide +kernel) | exact readyOf _ _ _ (by decide +kernel)⟩⟩

theorem test_meets_DmaChannelsJobsAndArbitration_7 :
    (∃ (s : State) (ch : Nat),
    (((s.readDesc (s.ch ch).curSpl (s.ch ch).cur)).own = true) ∧ (s.descOk (s.ch ch) (s.readDesc (s.ch ch).curSpl (s.ch ch).cur) = true) ∧ ((s.ch ch).aborting = false)) ∧
    (∃ (s : State) (ch : Nat) (r : MoveOutcome),
    ((s.ch ch).state ≠ .active ∨ (s.ch ch).held = true)) ∧
    (∃ (s : State) (ch : Nat) (r : MoveOutcome) (d : Desc),
    ((s.ch ch).state = .active) ∧ ((s.ch ch).held = false) ∧ ((s.curDesc ch) = d) ∧ (s.retired d.func d.gen = true)) ∧
    (∃ (s : State) (ch : Nat) (r : MoveOutcome) (d : Desc),
    ((s.ch ch).state = .active) ∧ ((s.ch ch).held = false) ∧ ((s.curDesc ch) = d) ∧ (s.retired d.func d.gen = false) ∧ (s.awaitsCpe d = true)) :=
  ⟨⟨{ wHost with dmf := { chans := [(5, { state := .ready, curSpl := true, cur := 4096 })], spl := writeBytes [] 4096 (leBytes 64 726838724295606890549426617688108041677025450589923110299200597059900298724058005695760844698834575809799916386311434352359574973972483) } }, 5, by
    repeat' apply And.intro
    all_goals first | decide +kernel | exact decOkEq _ _ (by decide +kernel) | exact readyOf _ _ _ (by decide +kernel)⟩,
   ⟨wHost, 5, .srcError 0, by
    repeat' apply And.intro
    all_goals first | decide +kernel | exact decOkEq _ _ (by decide +kernel) | exact readyOf _ _ _ (by decide +kernel)⟩,
   ⟨{ wHost with dmf := { chans := [(5, { state := .active, curSpl := true, cur := 4096, fetched := 726838724295606890549426620036650624450858678479403707088537624435582847632377876403051816231043600924408359850010432737128278005907459 })], spl := writeBytes [] 4096 (leBytes 64 726838724295606890549426620036650624450858678479403707088537624435582847632377876403051816231043600924408359850010432737128278005907459) } }, 5, .srcError 0, ⟨726838724295606890549426620036650624450858678479403707088537624435582847632377876403051816231043600924408359850010432737128278005907459⟩, by
    repeat' apply And.intro
    all_goals first | decide +kernel | exact decOkEq _ _ (by decide +kernel) | exact readyOf _ _ _ (by decide +kernel)⟩,
   ⟨{ { wHost with dmf := { chans := [(5, { state := .active, curSpl := true, cur := 4096, fetched := 1090258086443410335824088521632110308853846130933582140439945696650219942780756967358856370055716358590181177189444523319126875788279811 })], spl := writeBytes [] 4096 (leBytes 64 1090258086443410335824088521632110308853846130933582140439945696650219942780756967358856370055716358590181177189444523319126875788279811) } } with cpe := { queue := [{ submitter := 3, entry := BitVec.ofNat 512 (2 ^ 511) }] } }, 5, .moved [], ⟨1090258086443410335824088521632110308853846130933582140439945696650219942780756967358856370055716358590181177189444523319126875788279811⟩, by
    repeat' apply And.intro
    all_goals first | decide +kernel | exact decOkEq _ _ (by decide +kernel) | exact readyOf _ _ _ (by decide +kernel)⟩⟩

theorem test_meets_DmaChannelsJobsAndArbitration_8 :
    (∃ (s : State) (ch : Nat) (r : MoveOutcome) (d : Desc),
    ((s.ch ch).state = .active) ∧ ((s.ch ch).held = false) ∧ ((s.curDesc ch) = d) ∧ (s.retired d.func d.gen = false) ∧ (s.awaitsCpe d = false) ∧ ((s.ch ch).verdictFor d = some false)) ∧
    (∃ (s : State) (ch n : Nat) (d : Desc),
    ((s.ch ch).state = .active) ∧ ((s.ch ch).held = false) ∧ ((s.curDesc ch) = d) ∧ (s.retired d.func d.gen = false) ∧ (s.awaitsCpe d = false) ∧ ((s.ch ch).verdictFor d ≠ some false) ∧ (d.srcSpace ≠ 2)) ∧
    (∃ (s : State) (ch n : Nat) (d : Desc),
    ((s.ch ch).state = .active) ∧ ((s.ch ch).held = false) ∧ ((s.curDesc ch) = d) ∧ (s.retired d.func d.gen = false) ∧ (s.awaitsCpe d = false) ∧ ((s.ch ch).verdictFor d ≠ some false) ∧ (d.srcSpace = 2)) ∧
    (∃ (s : State) (ch n : Nat) (d : Desc),
    ((s.ch ch).state = .active) ∧ ((s.ch ch).held = false) ∧ ((s.curDesc ch) = d) ∧ (s.retired d.func d.gen = false) ∧ (s.awaitsCpe d = false) ∧ ((s.ch ch).verdictFor d ≠ some false)) :=
  ⟨⟨{ wHost with dmf := { chans := [(5, { state := .active, curSpl := true, cur := 4096, verdicts := [(0, false)], fetched := 726838724295606890549426617688108041677025450589923110299200597059900298724058005695760844698834575809799916386311434352359574973972483 })], spl := writeBytes [] 4096 (leBytes 64 726838724295606890549426617688108041677025450589923110299200597059900298724058005695760844698834575809799916386311434352359574973972483) } }, 5, .moved [], ⟨726838724295606890549426617688108041677025450589923110299200597059900298724058005695760844698834575809799916386311434352359574973972483⟩, by
    repeat' apply And.intro
    all_goals first | decide +kernel | exact decOkEq _ _ (by decide +kernel) | exact readyOf _ _ _ (by decide +kernel)⟩,
   ⟨{ wHost with dmf := { chans := [(5, { state := .active, curSpl := true, cur := 4096, fetched := 726838724295606890549426617688108041677025450589923110299200597059900298724058005695760844698834575809799916386311434352359574973972483 })], spl := writeBytes [] 4096 (leBytes 64 726838724295606890549426617688108041677025450589923110299200597059900298724058005695760844698834575809799916386311434352359574973972483) } }, 5, 2, ⟨726838724295606890549426617688108041677025450589923110299200597059900298724058005695760844698834575809799916386311434352359574973972483⟩, by
    repeat' apply And.intro
    all_goals first | decide +kernel | exact decOkEq _ _ (by decide +kernel) | exact readyOf _ _ _ (by decide +kernel)⟩,
   ⟨{ wHost with dmf := { chans := [(5, { state := .active, curSpl := true, cur := 4096, fetched := 726838724295606890549426617688108041677025450589923110299200597059900298724058005695760844698834575809799916386613665807263232262406147 })], spl := writeBytes [] 4096 (leBytes 64 726838724295606890549426617688108041677025450589923110299200597059900298724058005695760844698834575809799916386613665807263232262406147) } }, 5, 2, ⟨726838724295606890549426617688108041677025450589923110299200597059900298724058005695760844698834575809799916386613665807263232262406147⟩, by
    repeat' apply And.intro
    all_goals first | decide +kernel | exact decOkEq _ _ (by decide +kernel) | exact readyOf _ _ _ (by decide +kernel)⟩,
   ⟨{ wHost with dmf := { chans := [(5, { state := .active, curSpl := true, cur := 4096, fetched := 726838724295606890549426617688108041677025450589923110299200597059900298724058005695760844698834575809799916386311434352359574973972483 })], spl := writeBytes [] 4096 (leBytes 64 726838724295606890549426617688108041677025450589923110299200597059900298724058005695760844698834575809799916386311434352359574973972483) } }, 5, 2, ⟨726838724295606890549426617688108041677025450589923110299200597059900298724058005695760844698834575809799916386311434352359574973972483⟩, by
    repeat' apply And.intro
    all_goals first | decide +kernel | exact decOkEq _ _ (by decide +kernel) | exact readyOf _ _ _ (by decide +kernel)⟩⟩

theorem test_meets_DmaChannelsJobsAndArbitration_9 :
    (∃ (s : State) (ch n : Nat) (d : Desc),
    ((s.ch ch).state = .active) ∧ ((s.ch ch).held = false) ∧ ((s.curDesc ch) = d) ∧ (s.retired d.func d.gen = false) ∧ (s.awaitsCpe d = false) ∧ ((s.ch ch).verdictFor d ≠ some false)) ∧
    (∃ (s : State) (ch : Nat) (h bs : Bytes) (d : Desc),
    ((s.ch ch).state = .active) ∧ ((s.ch ch).held = false) ∧ ((s.curDesc ch) = d) ∧ (s.retired d.func d.gen = false) ∧ (s.awaitsCpe d = false) ∧ ((s.ch ch).verdictFor d ≠ some false) ∧ (s.sourceBytes d h = (bs, 4))) ∧
    (∃ (s : State) (ch : Nat) (h bs : Bytes) (d : Desc),
    ((s.ch ch).state = .active) ∧ ((s.ch ch).held = false) ∧ ((s.curDesc ch) = d) ∧ (s.retired d.func d.gen = false) ∧ (s.awaitsCpe d = false) ∧ ((s.ch ch).verdictFor d ≠ some false) ∧ (s.sourceBytes d h = (bs, 1))) ∧
    (∃ (s : State) (ch : Nat) (h bs : Bytes) (d : Desc),
    ((s.ch ch).state = .active) ∧ ((s.ch ch).held = false) ∧ ((s.curDesc ch) = d) ∧ (s.retired d.func d.gen = false) ∧ (s.awaitsCpe d = false) ∧ ((s.ch ch).verdictFor d ≠ some false) ∧ (s.sourceBytes d h = (bs, 0)) ∧ (s.badTag d (s.tagWork ch d bs) = none) ∧ ((s.ch ch).failing = true)) :=
  ⟨⟨{ wHost with dmf := { chans := [(5, { state := .active, curSpl := true, cur := 4096, fetched := 726838724295606890549426617688108041677025450589923110299200597059900298724058005695760844698834575809799916386311434352359574973972483 })], spl := writeBytes [] 4096 (leBytes 64 726838724295606890549426617688108041677025450589923110299200597059900298724058005695760844698834575809799916386311434352359574973972483) } }, 5, 2, ⟨726838724295606890549426617688108041677025450589923110299200597059900298724058005695760844698834575809799916386311434352359574973972483⟩, by
    repeat' apply And.intro
    all_goals first | decide +kernel | exact decOkEq _ _ (by decide +kernel) | exact readyOf _ _ _ (by decide +kernel)⟩,
   ⟨{ { wHost with dmf := { chans := [(5, { state := .active, curSpl := true, cur := 4096, fetched := 726838724295606890549426617688108041677025450589923110299200597059900298724058005695760844698834575809799916386311434352359574970826759 })], spl := writeBytes [] 4096 (leBytes 64 726838724295606890549426617688108041677025450589923110299200597059900298724058005695760844698834575809799916386311434352359574970826759) } } with sca := { shared := [(0, mkWord 2 7), (1, mkWord 4 9)] } }, 5, [], [7, 0, 0, 0], ⟨726838724295606890549426617688108041677025450589923110299200597059900298724058005695760844698834575809799916386311434352359574970826759⟩, by
    repeat' apply And.intro
    all_goals first | decide +kernel | exact decOkEq _ _ (by decide +kernel) | exact readyOf _ _ _ (by decide +kernel)⟩,
   ⟨(let s := { wHost with dmf := { chans := [(5, { state := .active, curSpl := true, cur := 4096, fetched := 726838724295606890549426617688108041677025450589923110299200597059900298724058005695760844698834575809799916386613665807263232262406147 })], spl := writeBytes [] 4096 (leBytes 64 726838724295606890549426617688108041677025450589923110299200597059900298724058005695760844698834575809799916386613665807263232262406147) } }; { s with dmf := { s.dmf with splBad := [2048] } }), 5, [], [], ⟨726838724295606890549426617688108041677025450589923110299200597059900298724058005695760844698834575809799916386613665807263232262406147⟩, by
    repeat' apply And.intro
    all_goals first | decide +kernel | exact decOkEq _ _ (by decide +kernel) | exact readyOf _ _ _ (by decide +kernel)⟩,
   ⟨{ wHost with dmf := { chans := [(5, { state := .active, curSpl := true, cur := 4096, failing := true, fetched := 726838724295606890549426617688108041677025450589923110299200597059900298724058005695760844698834575809799916386311434352359574973972483 })], spl := writeBytes [] 4096 (leBytes 64 726838724295606890549426617688108041677025450589923110299200597059900298724058005695760844698834575809799916386311434352359574973972483) } }, 5, [], [0xAB, 0xAB, 0xAB, 0xAB], ⟨726838724295606890549426617688108041677025450589923110299200597059900298724058005695760844698834575809799916386311434352359574973972483⟩, by
    repeat' apply And.intro
    all_goals first | decide +kernel | exact decOkEq _ _ (by decide +kernel) | exact readyOf _ _ _ (by decide +kernel)⟩⟩

theorem test_meets_DmaChannelsJobsAndArbitration_10 :
    (∃ (s : State) (ch : Nat) (h bs : Bytes) (d : Desc),
    ((s.ch ch).state = .active) ∧ ((s.ch ch).held = false) ∧ ((s.curDesc ch) = d) ∧ (s.retired d.func d.gen = false) ∧ (s.awaitsCpe d = false) ∧ ((s.ch ch).verdictFor d ≠ some false) ∧ (s.sourceBytes d h = (bs, 0)) ∧ (s.badTag d (s.tagWork ch d bs) = none) ∧ ((s.ch ch).failing = false) ∧ (d.jobEnd = false ∨ d.verdict = false)) ∧
    (∃ (s : State) (ch : Nat) (h bs : Bytes) (d : Desc),
    ((s.ch ch).state = .active) ∧ ((s.ch ch).held = false) ∧ ((s.curDesc ch) = d) ∧ (s.retired d.func d.gen = false) ∧ (s.awaitsCpe d = false) ∧ ((s.ch ch).verdictFor d ≠ some false) ∧ (s.sourceBytes d h = (bs, 0)) ∧ (s.badTag d (s.tagWork ch d bs) = none) ∧ ((s.ch ch).failing = false) ∧ (d.jobEnd = true) ∧ (d.verdict = true) ∧ ((s.ch ch).verdictFor d = none)) ∧
    (∃ (s : State) (ch : Nat) (h bs : Bytes) (d : Desc),
    ((s.ch ch).state = .active) ∧ ((s.ch ch).held = false) ∧ ((s.curDesc ch) = d) ∧ (s.retired d.func d.gen = false) ∧ (s.awaitsCpe d = false) ∧ ((s.ch ch).verdictFor d ≠ some false) ∧ (s.sourceBytes d h = (bs, 0)) ∧ (s.badTag d (s.tagWork ch d bs) = none) ∧ ((s.ch ch).failing = false) ∧ (d.jobEnd = true) ∧ (d.verdict = true) ∧ ((s.ch ch).verdictFor d = some true)) ∧
    (∃ (s : State) (ch : Nat) (h bs : Bytes) (d : Desc) (n : Nat),
    ((s.ch ch).state = .active) ∧ ((s.ch ch).held = false) ∧ ((s.curDesc ch) = d) ∧ (s.retired d.func d.gen = false) ∧ (s.awaitsCpe d = false) ∧ ((s.ch ch).verdictFor d ≠ some false) ∧ (s.sourceBytes d h = (bs, 0)) ∧ (s.badTag d (s.tagWork ch d bs) = some n)) :=
  ⟨⟨{ wHost with dmf := { chans := [(5, { state := .active, curSpl := true, cur := 4096, fetched := 726838724295606890549426617688108041677025450589923110299200597059900298724058005695760844698834575809799916386311434352359574973972483 })], spl := writeBytes [] 4096 (leBytes 64 726838724295606890549426617688108041677025450589923110299200597059900298724058005695760844698834575809799916386311434352359574973972483) } }, 5, [], [0xAB, 0xAB, 0xAB, 0xAB], ⟨726838724295606890549426617688108041677025450589923110299200597059900298724058005695760844698834575809799916386311434352359574973972483⟩, by
    repeat' apply And.intro
    all_goals first | decide +kernel | exact decOkEq _ _ (by decide +kernel) | exact readyOf _ _ _ (by decide +kernel)⟩,
   ⟨{ wHost with dmf := { chans := [(5, { state := .active, curSpl := true, cur := 4096, fetched := 726838724295606890549734445861517373545871380590705482282052782522950810026151351737981514400174397767701590341427722755803377292017667 })], spl := writeBytes [] 4096 (leBytes 64 726838724295606890549734445861517373545871380590705482282052782522950810026151351737981514400174397767701590341427722755803377292017667) } }, 5, [], [0xAB, 0xAB, 0xAB, 0xAB], ⟨726838724295606890549734445861517373545871380590705482282052782522950810026151351737981514400174397767701590341427722755803377292017667⟩, by
    repeat' apply And.intro
    all_goals first | decide +kernel | exact decOkEq _ _ (by decide +kernel) | exact readyOf _ _ _ (by decide +kernel)⟩,
   ⟨{ wHost with dmf := { chans := [(5, { state := .active, curSpl := true, cur := 4096, verdicts := [(0, true)], fetched := 726838724295606890549734445861517373545871380590705482282052782522950810026151351737981514400174397767701590341427722755803377292017667 })], spl := writeBytes [] 4096 (leBytes 64 726838724295606890549734445861517373545871380590705482282052782522950810026151351737981514400174397767701590341427722755803377292017667) } }, 5, [], [0xAB, 0xAB, 0xAB, 0xAB], ⟨726838724295606890549734445861517373545871380590705482282052782522950810026151351737981514400174397767701590341427722755803377292017667⟩, by
    repeat' apply And.intro
    all_goals first | decide +kernel | exact decOkEq _ _ (by decide +kernel) | exact readyOf _ _ _ (by decide +kernel)⟩,
   ⟨(let s := { wHost with dmf := { chans := [(5, { state := .active, curSpl := true, cur := 4096, fetched := 726838724295606890549426617688108041677025450589923110299200597059900298724058005695760844698834575809799916386613665807263232396623875 })], spl := writeBytes [] 4096 (leBytes 64 726838724295606890549426617688108041677025450589923110299200597059900298724058005695760844698834575809799916386613665807263232396623875) } }; { s with dmf := { s.dmf with tags := [(4, some 1)] } }), 5, [], [0, 0, 0, 0], ⟨726838724295606890549426617688108041677025450589923110299200597059900298724058005695760844698834575809799916386613665807263232396623875⟩, 0, by
    repeat' apply And.intro
    all_goals first | decide +kernel | exact decOkEq _ _ (by decide +kernel) | exact readyOf _ _ _ (by decide +kernel)⟩⟩

theorem test_meets_DmaChannelsJobsAndArbitration_11 :
    (∃ (s : State) (ch : Nat) (d : Desc) (r : TagRun) (u n : Nat) (v : BitVec 64),
    (d.tagMode = 1) ∧ (r.done = [(u, n, v)])) ∧
    (∃ (s : State) (ch : Nat) (d : Desc) (r : TagRun),
    (d.tagMode = 0 ∨ d.tagMode = 2)) ∧
    (∃ (s : State) (ch : Nat) (h bs : Bytes) (d : Desc) (i : Nat),
    (d.dstSpace = 2)) ∧
    (∃ (s : State) (a st i : Nat),
    True) :=
  ⟨⟨{ wHost with dmf := { chans := [(5, { state := .active, curSpl := true, cur := 4096, fetched := 726838724295606890549426617688108041677025450589923110299200597059900298724058005695760844698834575809799916386311434352359574973972483 })], spl := writeBytes [] 4096 (leBytes 64 726838724295606890549426617688108041677025450589923110299200597059900298724058005695760844698834575809799916386311434352359574973972483) } }, 5, ⟨726838724295606890549426617688108041677025450589923110299200597059900298724058005695760844698834575809799916386311434352359575041081347⟩, { done := [(4, 0, 7)] }, 4, 0, 7, by
    repeat' apply And.intro
    all_goals first | decide +kernel | exact decOkEq _ _ (by decide +kernel) | exact readyOf _ _ _ (by decide +kernel)⟩,
   ⟨{ wHost with dmf := { chans := [(5, { state := .active, curSpl := true, cur := 4096, fetched := 726838724295606890549426617688108041677025450589923110299200597059900298724058005695760844698834575809799916386311434352359574973972483 })], spl := writeBytes [] 4096 (leBytes 64 726838724295606890549426617688108041677025450589923110299200597059900298724058005695760844698834575809799916386311434352359574973972483) } }, 5, ⟨726838724295606890549426617688108041677025450589923110299200597059900298724058005695760844698834575809799916386311434352359574973972483⟩, { done := [(4, 0, 7)] }, by
    repeat' apply And.intro
    all_goals first | decide +kernel | exact decOkEq _ _ (by decide +kernel) | exact readyOf _ _ _ (by decide +kernel)⟩,
   ⟨{ wHost with dmf := { chans := [(5, { state := .active, curSpl := true, cur := 4096, fetched := 726838724295606890549426617688108041677025450589923110299200597059900298724058005695760844698834575809799916386311434352359574973972483 })], spl := writeBytes [] 4096 (leBytes 64 726838724295606890549426617688108041677025450589923110299200597059900298724058005695760844698834575809799916386311434352359574973972483) } }, 5, [], [1, 2], ⟨726838724295606890549426617688108041677025450589923110299200597059900298724058005695760844698834575809799916386311434352359574973972483⟩, 8194, by
    repeat' apply And.intro
    all_goals first | decide +kernel | exact decOkEq _ _ (by decide +kernel) | exact readyOf _ _ _ (by decide +kernel)⟩,
   ⟨{ wHost with dmf := { chans := [(5, { state := .active, curSpl := true, cur := 4096, fetched := 726838724295606890549426617688108041677025450589923110299200597059900298724058005695760844698834575809799916386311434352359574973972483 })], spl := writeBytes [] 4096 (leBytes 64 726838724295606890549426617688108041677025450589923110299200597059900298724058005695760844698834575809799916386311434352359574973972483) } }, 4096, 8192, 4104, by
    repeat' apply And.intro
    all_goals first | decide +kernel | exact decOkEq _ _ (by decide +kernel) | exact readyOf _ _ _ (by decide +kernel)⟩⟩

theorem test_meets_DmaChannelsJobsAndArbitration_12 :
    (∃ (s : State) (ch : Nat) (d : Desc) (res n i : Nat),
    (d.dstSpace = 2) ∧ ((s.ch ch).curSpl = true) ∧ ((s.readDesc (s.ch ch).curSpl (s.ch ch).cur) = d) ∧ (s.retired d.func d.gen = false) ∧ (s.dmf.forced.contains 1 = false) ∧ (n ≠ 0) ∧ (d.dst + n ≤ (s.ch ch).cur ∨ (s.ch ch).cur + 64 ≤ d.dst) ∧ (i < n)) ∧
    (∃ (s : State) (ch : Nat) (pass : Bool),
    ((s.ch ch).state ≠ .active ∨ (s.ch ch).held = false) ∧ ((s.ch ch).hasJob (s.curDesc ch) = false)) ∧
    (∃ (s : State) (ch : Nat),
    ((s.ch ch).state ≠ .active ∨ (s.ch ch).held = false) ∧ ((s.ch ch).hasJob (s.curDesc ch) = true)) ∧
    (∃ (s : State) (ch : Nat),
    ((s.ch ch).state ≠ .active ∨ (s.ch ch).held = false) ∧ ((s.ch ch).hasJob (s.curDesc ch) = true) ∧ ((s.ch ch).state = .active)) :=
  ⟨⟨{ wHost with dmf := { chans := [(5, { state := .active, curSpl := true, cur := 4096, fetched := 726838724295606890549426617688108041677025450589923110299200597059900298724058005695760844698834575809799916386311434352359574973972483 })], spl := writeBytes [] 4096 (leBytes 64 726838724295606890549426617688108041677025450589923110299200597059900298724058005695760844698834575809799916386311434352359574973972483) } }, 5, ⟨726838724295606890549426617688108041677025450589923110299200597059900298724058005695760844698834575809799916386311434352359574973972483⟩, 5, 3, 2, by
    repeat' apply And.intro
    all_goals first | decide +kernel | exact decOkEq _ _ (by decide +kernel) | exact readyOf _ _ _ (by decide +kernel)⟩,
   ⟨{ wHost with dmf := { chans := [(5, { state := .active, curSpl := true, cur := 4096, fetched := 726838724295606890549426617688108041677025450589923110299200597059900298724058005695760844698834575809799916386311434352359574973972483 })], spl := writeBytes [] 4096 (leBytes 64 726838724295606890549426617688108041677025450589923110299200597059900298724058005695760844698834575809799916386311434352359574973972483) } }, 5, true, by
    repeat' apply And.intro
    all_goals first | decide +kernel | exact decOkEq _ _ (by decide +kernel) | exact readyOf _ _ _ (by decide +kernel)⟩,
   ⟨{ wHost with dmf := { chans := [(5, { state := .active, curSpl := true, cur := 4096, jobOpen := true, fetched := 726838724295606890549426617688108041677025450589923110299200597059900298724058005695760844698834575809799916386311434352359574973972483 })], spl := writeBytes [] 4096 (leBytes 64 726838724295606890549426617688108041677025450589923110299200597059900298724058005695760844698834575809799916386311434352359574973972483) } }, 5, by
    repeat' apply And.intro
    all_goals first | decide +kernel | exact decOkEq _ _ (by decide +kernel) | exact readyOf _ _ _ (by decide +kernel)⟩,
   ⟨{ wHost with dmf := { chans := [(5, { state := .active, curSpl := true, cur := 4096, jobOpen := true, fetched := 726838724295606890549426617688108041677025450589923110299200597059900298724058005695760844698834575809799916386311434352359574973972483 })], spl := writeBytes [] 4096 (leBytes 64 726838724295606890549426617688108041677025450589923110299200597059900298724058005695760844698834575809799916386311434352359574973972483) } }, 5, by
    repeat' apply And.intro
    all_goals first | decide +kernel | exact decOkEq _ _ (by decide +kernel) | exact readyOf _ _ _ (by decide +kernel)⟩⟩

theorem test_meets_DmaChannelsJobsAndArbitration_13 :
    (∃ (s : State) (ch : Nat),
    ((s.ch ch).state = .active) ∧ ((s.ch ch).held = true)) ∧
    (∃ (s : State) (ch : Nat),
    ((s.ch ch).state = .active) ∧ ((s.ch ch).held = true)) ∧
    (∃ (s : State) (ch producer : Nat),
    ((s.ch ch).state = .active) ∧ ((s.ch ch).held = true) ∧ (componentOk producer = true)) ∧
    (∃ (s : State) (ch producer : Nat),
    ((s.ch ch).state = .active) ∧ ((s.ch ch).held = false) ∧ (componentOk producer = true)) :=
  ⟨⟨{ wHost with dmf := { chans := [(5, { state := .active, curSpl := true, cur := 4096, held := true, fetched := 726838724295606890549426617688108041677025450589923110299200597059900298724058005695760844698834575809799916386311434352359574973972483 })], spl := writeBytes [] 4096 (leBytes 64 726838724295606890549426617688108041677025450589923110299200597059900298724058005695760844698834575809799916386311434352359574973972483) } }, 5, by
    repeat' apply And.intro
    all_goals first | decide +kernel | exact decOkEq _ _ (by decide +kernel) | exact readyOf _ _ _ (by decide +kernel)⟩,
   ⟨{ wHost with dmf := { chans := [(5, { state := .active, curSpl := true, cur := 4096, held := true, fetched := 726838724295606890549426617688108041677025450589923110299200597059900298724058005695760844698834575809799916386311434352359574973972483 })], spl := writeBytes [] 4096 (leBytes 64 726838724295606890549426617688108041677025450589923110299200597059900298724058005695760844698834575809799916386311434352359574973972483) } }, 5, by
    repeat' apply And.intro
    all_goals first | decide +kernel | exact decOkEq _ _ (by decide +kernel) | exact readyOf _ _ _ (by decide +kernel)⟩,
   ⟨{ wHost with dmf := { chans := [(5, { state := .active, curSpl := true, cur := 4096, held := true, fetched := 726838724295606890549426617688108041677025450589923110299200597059900298724058005695760844698834575809799916386311434352359574973972483 })], spl := writeBytes [] 4096 (leBytes 64 726838724295606890549426617688108041677025450589923110299200597059900298724058005695760844698834575809799916386311434352359574973972483) } }, 5, 0xA00, by
    repeat' apply And.intro
    all_goals first | decide +kernel | exact decOkEq _ _ (by decide +kernel) | exact readyOf _ _ _ (by decide +kernel)⟩,
   ⟨{ wHost with dmf := { chans := [(5, { state := .active, curSpl := true, cur := 4096, fetched := 726838724295606890549426617688108041677025450589923110299200597059900298724058005695760844698834575809799916386311434352359574973972483 })], spl := writeBytes [] 4096 (leBytes 64 726838724295606890549426617688108041677025450589923110299200597059900298724058005695760844698834575809799916386311434352359574973972483) } }, 5, 0xA00, by
    repeat' apply And.intro
    all_goals first | decide +kernel | exact decOkEq _ _ (by decide +kernel) | exact readyOf _ _ _ (by decide +kernel)⟩⟩

theorem test_meets_DmaChannelsJobsAndArbitration_14 :
    (∃ (s : State) (ch producer : Nat),
    (componentOk producer = false)) ∧
    (∃ (s : State) (ch producer : Nat),
    ((s.ch ch).state ≠ .active) ∧ ((s.ch ch).jobOpen = false) ∧ (componentOk producer = true)) ∧
    (∃ (s : State) (domain : Nat),
    (s.psm.mode.live = true) ∧ (s.dmf.chans = []) ∧ (1 < domain)) ∧
    (∃ (s : State) (domain : Nat),
    (s.psm.mode.live = false)) :=
  ⟨⟨{ wHost with dmf := { chans := [(5, { state := .active, curSpl := true, cur := 4096, fetched := 726838724295606890549426617688108041677025450589923110299200597059900298724058005695760844698834575809799916386311434352359574973972483 })], spl := writeBytes [] 4096 (leBytes 64 726838724295606890549426617688108041677025450589923110299200597059900298724058005695760844698834575809799916386311434352359574973972483) } }, 5, 0x1100, by
    repeat' apply And.intro
    all_goals first | decide +kernel | exact decOkEq _ _ (by decide +kernel) | exact readyOf _ _ _ (by decide +kernel)⟩,
   ⟨wHost, 5, 0xA00, by
    repeat' apply And.intro
    all_goals first | decide +kernel | exact decOkEq _ _ (by decide +kernel) | exact readyOf _ _ _ (by decide +kernel)⟩,
   ⟨wHost, 4, by
    repeat' apply And.intro
    all_goals first | decide +kernel | exact decOkEq _ _ (by decide +kernel) | exact readyOf _ _ _ (by decide +kernel)⟩,
   ⟨State.reset, 4, by
    repeat' apply And.intro
    all_goals first | decide +kernel | exact decOkEq _ _ (by decide +kernel) | exact readyOf _ _ _ (by decide +kernel)⟩⟩

theorem test_meets_DmaChannelsJobsAndArbitration_15 :
    (∃ (s : State) (domain : Nat),
    True) ∧
    (∃ (s : State) (inst k domain : Nat),
    (inst ≤ 7) ∧ (domain ∈ s.dmf.domainsOff) ∧ (s.touches (32 * inst + k) domain = true)) ∧
    (∃ (s : State) (k : Nat),
    (s.portFront k 0 = none)) ∧
    (∃ (s : State) (k : Nat) (m : List TWord) (e : Nat),
    (s.portFront k 0 = some m) ∧ (s.dmaRequest k m = .error e)) :=
  ⟨⟨wHost, 4, by
    repeat' apply And.intro
    all_goals first | decide +kernel | exact decOkEq _ _ (by decide +kernel) | exact readyOf _ _ _ (by decide +kernel)⟩,
   ⟨(let s := { wHost with dmf := { chans := [(5, { state := .ready, curSpl := true, cur := 4096 })], spl := writeBytes [] 4096 (leBytes 64 726838724295606890549426617688108041677025450589923110299200597059900298724058005695760844698834575809799916386311434352359574973972483) } }; { s with dmf := { s.dmf with domainsOff := [1] } }), 0, 5, 1, by
    repeat' apply And.intro
    all_goals first | decide +kernel | exact decOkEq _ _ (by decide +kernel) | exact readyOf _ _ _ (by decide +kernel)⟩,
   ⟨wHost, 0, by
    repeat' apply And.intro
    all_goals first | decide +kernel | exact decOkEq _ _ (by decide +kernel) | exact readyOf _ _ _ (by decide +kernel)⟩,
   ⟨(wHost.updScull 0 (fun c => { c with func := 0, wins := [(1, { kind := 3, r := true, w := true, live := true, len := 4096, base := 65536 })], outstanding := [(0, 1)], running := true, sent := [(0, [[mkWord 1 5, mkWord 2 0xAB, mkPtr 0 1 16, mkWord 1 0, mkWord 1 77]])] })), 0, [mkWord 1 5, mkWord 2 0xAB, mkPtr 0 1 16, mkWord 1 0, mkWord 1 77], 4, ⟨by decide +kernel, errIs _ _ (by decide +kernel)⟩⟩⟩

theorem test_meets_DmaChannelsJobsAndArbitration_16 :
    (∃ (s : State) (k : Nat) (m : List TWord) (ch n : Nat),
    (s.portFront k 0 = some m) ∧ (s.dmaRequest k m = .ok (ch, n)) ∧ (s.ringRoom ch 1 = true)) ∧
    (∃ (s : State) (ch n : Nat),
    ((s.ch ch).state = .idle) ∧ (ch ≤ 255) ∧ ((s.ch ch).appended = 0)) :=
  ⟨⟨(wHost.updScull 0 (fun c => { c with func := 0, wins := [(1, { kind := 3, r := true, w := true, live := true, len := 4096, base := 65536 })], outstanding := [(0, 1)], running := true, sent := [(0, [[mkWord 1 5, mkWord 2 0xAB, mkPtr 0 1 16, mkWord 1 64, mkWord 1 77]])] })), 0, [mkWord 1 5, mkWord 2 0xAB, mkPtr 0 1 16, mkWord 1 64, mkWord 1 77], 5, (match ((wHost.updScull 0 (fun c => { c with func := 0, wins := [(1, { kind := 3, r := true, w := true, live := true, len := 4096, base := 65536 })], outstanding := [(0, 1)], running := true, sent := [(0, [[mkWord 1 5, mkWord 2 0xAB, mkPtr 0 1 16, mkWord 1 64, mkWord 1 77]])] }))).dmaRequest 0 [mkWord 1 5, mkWord 2 0xAB, mkPtr 0 1 16, mkWord 1 64, mkWord 1 77] with | .ok x => x.2 | .error _ => 0), ⟨by decide +kernel, decOkEq _ _ (by decide +kernel), by decide +kernel⟩⟩,
   ⟨wHost, 255, 726838724295606890549426617688108041677025450589923110299200597059900298724058005695760844698834575809799916386311434352359574973972483, by
    repeat' apply And.intro
    all_goals first | decide +kernel | exact decOkEq _ _ (by decide +kernel) | exact readyOf _ _ _ (by decide +kernel)⟩⟩

theorem test_meets_EnginePortsTakeTheirRequests_1 :
    (∃ (s : State) (k : Nat),
    (s.portFront k 1 = none)) ∧
    (∃ (s : State) (k : Nat),
    (s.portFront k 2 = none)) ∧
    (∃ (s : State) (k : Nat) (v : Bool) (tf : Option TagFault),
    (s.portFront k 3 = none)) ∧
    (∃ (s : State) (k : Nat) (f : AsuFault),
    (s.portFront k 4 = none)) :=
  ⟨⟨wHost, 0, by
    repeat' apply And.intro
    all_goals first | decide +kernel | exact decOkEq _ _ (by decide +kernel) | exact readyOf _ _ _ (by decide +kernel)⟩,
   ⟨wHost, 31, by
    repeat' apply And.intro
    all_goals first | decide +kernel | exact decOkEq _ _ (by decide +kernel) | exact readyOf _ _ _ (by decide +kernel)⟩,
   ⟨wHost, 0, true, none, by
    repeat' apply And.intro
    all_goals first | decide +kernel | exact decOkEq _ _ (by decide +kernel) | exact readyOf _ _ _ (by decide +kernel)⟩,
   ⟨wHost, 0, .none, by
    repeat' apply And.intro
    all_goals first | decide +kernel | exact decOkEq _ _ (by decide +kernel) | exact readyOf _ _ _ (by decide +kernel)⟩⟩

theorem test_meets_EnginePortsTakeTheirRequests_2 :
    (∃ (s : State) (k : Nat) (f : AsuFault),
    (s.portFront k 4 = none)) ∧
    (∃ (s : State) (k : Nat) (m : List TWord) (e : Nat),
    (s.portFront k 1 = some m) ∧ (s.cipherPlaces k m = .error e)) ∧
    (∃ (s : State) (k : Nat) (m : List TWord) (p d : Place),
    (s.portFront k 1 = some m) ∧ (s.cipherPlaces k m = .ok (p, d)) ∧ (d.space = 2)) ∧
    (∃ (s : State) (k : Nat) (m : List TWord) (p d : Place) (a : Nat),
    (s.portFront k 1 = some m) ∧ (s.cipherPlaces k m = .ok (p, d)) ∧ (d.space ≠ 2) ∧ (valAt m 5 ≠ valAt m 6) ∧ (s.ringRoom (field (valAt m 1) 21 14) (ceilDiv (valAt m 5 - valAt m 6) 262144) = true) ∧ ((s.trimStages k).stageFor (valAt m 5 - valAt m 6) = some a)) :=
  ⟨⟨wHost, 0, .none, by
    repeat' apply And.intro
    all_goals first | decide +kernel | exact decOkEq _ _ (by decide +kernel) | exact readyOf _ _ _ (by decide +kernel)⟩,
   ⟨wPort 1 (wCipher 16 9), 0, wCipher 16 9, 2, ⟨by decide +kernel, errIs _ _ (by decide +kernel)⟩⟩,
   ⟨wPort 1 (wCipher 16 1), 0, wCipher 16 1, { space := 2, addr := 65536, win := wSplWin }, { space := 2, addr := 65600, win := wSplWin }, ⟨by decide +kernel, decOkEq _ _ (by decide +kernel), by decide +kernel⟩⟩,
   ⟨wPort 1 (wCipher 16 2), 0, wCipher 16 2, { space := 2, addr := 65536, win := wSplWin }, { space := 3, addr := 64, win := { wSplWin with kind := 4, len := 8388608, base := 0 } }, 16777216, ⟨by decide +kernel, decOkEq _ _ (by decide +kernel), by decide +kernel, by decide +kernel, by decide +kernel, by decide +kernel⟩⟩⟩

theorem test_meets_EnginePortsTakeTheirRequests_3 :
    (∃ (s : State) (k : Nat) (m : List TWord) (p d : Place),
    (s.portFront k 1 = some m) ∧ (s.cipherPlaces k m = .ok (p, d)) ∧ (d.space ≠ 2) ∧ (valAt m 5 ≠ valAt m 6) ∧ (s.ringRoom (field (valAt m 1) 21 14) (ceilDiv (valAt m 5 - valAt m 6) 262144) = false)) ∧
    (∃ (s : State) (k : Nat) (m : List TWord),
    (s.portFront k 2 = some m) ∧ (digestTagsOk m = false)) ∧
    (∃ (s : State) (k : Nat) (m : List TWord),
    (s.portFront k 2 = some m) ∧ (digestTagsOk m = true) ∧ (digestLensOk m = false)) ∧
    (∃ (s : State) (k : Nat) (m : List TWord),
    (s.portFront k 2 = some m) ∧ (digestTagsOk m = true) ∧ (digestLensOk m = true) ∧ (d2Open m = false) ∧ (Mem.get none s.dge.port2 k = none)) :=
  ⟨⟨{ wPort 1 (wCipher 16 2) with dmf := { spl := writeBytes [] 41943040 [0, 0, 0, 0x80] } }, 0, wCipher 16 2, { space := 2, addr := 65536, win := wSplWin }, { space := 3, addr := 64, win := { wSplWin with kind := 4, len := 8388608, base := 0 } }, ⟨by decide +kernel, decOkEq _ _ (by decide +kernel), by decide +kernel, by decide +kernel, by decide +kernel⟩⟩,
   ⟨wPort 2 (wDigest 512 3), 0, wDigest 512 3, by
    repeat' apply And.intro
    all_goals first | decide +kernel | exact decOkEq _ _ (by decide +kernel) | exact readyOf _ _ _ (by decide +kernel)⟩,
   ⟨wPort 2 (wDigest 8 127), 0, wDigest 8 127, by
    repeat' apply And.intro
    all_goals first | decide +kernel | exact decOkEq _ _ (by decide +kernel) | exact readyOf _ _ _ (by decide +kernel)⟩,
   ⟨wPort 2 (wDigest 16 3), 0, wDigest 16 3, by
    repeat' apply And.intro
    all_goals first | decide +kernel | exact decOkEq _ _ (by decide +kernel) | exact readyOf _ _ _ (by decide +kernel)⟩⟩

theorem test_meets_EnginePortsTakeTheirRequests_4 :
    (∃ (s : State) (k : Nat) (m : List TWord) (e : Nat),
    (s.portFront k 2 = some m) ∧ (digestTagsOk m = true) ∧ (digestLensOk m = true) ∧ (d2Open m = true ∨ Mem.get none s.dge.port2 k ≠ none) ∧ ((s.scull k).place k (wordAt m 3) (valAt m 4) false = .error e)) ∧
    (∃ (s : State) (k : Nat) (m : List TWord) (p : Place),
    (s.portFront k 2 = some m) ∧ (digestTagsOk m = true) ∧ (digestLensOk m = true) ∧ (d2Open m = true ∨ Mem.get none s.dge.port2 k ≠ none) ∧ ((s.scull k).place k (wordAt m 3) (valAt m 4) false = .ok p) ∧ (p.space = 2) ∧ (s.splRead p.addr (valAt m 4) = none)) ∧
    (∃ (s : State) (k : Nat) (m : List TWord) (p : Place) (bs : Bytes),
    (s.portFront k 2 = some m) ∧ (digestTagsOk m = true) ∧ (digestLensOk m = true) ∧ (d2Open m = true) ∧ (d2Keyed m = false) ∧ (d2Final m = true) ∧ (d2Alg m = 3) ∧ ((s.scull k).place k (wordAt m 3) (valAt m 4) false = .ok p) ∧ (p.space ≠ 2 ∨ s.splRead p.addr (valAt m 4) ≠ none) ∧ (s.placeBytes p (valAt m 4) = some bs)) ∧
    (∃ (s : State) (k : Nat) (m : List TWord) (p : Place) (bs : Bytes),
    (s.portFront k 2 = some m) ∧ (digestTagsOk m = true) ∧ (digestLensOk m = true) ∧ (d2Open m = true) ∧ (d2Keyed m = false) ∧ (d2Final m = true) ∧ (d2Alg m ≠ 3) ∧ ((s.scull k).place k (wordAt m 3) (valAt m 4) false = .ok p) ∧ (p.space ≠ 2 ∨ s.splRead p.addr (valAt m 4) ≠ none) ∧ (s.placeBytes p (valAt m 4) = some bs)) :=
  ⟨⟨wPort 2 (wDigest 24 4097), 0, wDigest 24 4097, 2, ⟨holds, holds, holds, holds, errIs _ _ (by decide +kernel)⟩⟩,
   ⟨{ wPort 2 (wDigest 24 3) with dmf := { splBad := [8192] } }, 0, wDigest 24 3, { space := 2, addr := 65536, win := wSplWin }, ⟨holds, holds, holds, holds, decOkEq _ _ (by decide +kernel), holds, holds⟩⟩,
   ⟨wPort 2 (wDigest 27 3), 0, wDigest 27 3, { space := 2, addr := 65536, win := wSplWin }, [0, 0, 0], ⟨holds, holds, holds, holds, holds, holds, holds, decOkEq _ _ (by decide +kernel), holds, holds⟩⟩,
   ⟨wPort 2 (wDigest 24 3), 0, wDigest 24 3, { space := 2, addr := 65536, win := wSplWin }, [0, 0, 0], ⟨holds, holds, holds, holds, holds, holds, holds, decOkEq _ _ (by decide +kernel), holds, holds⟩⟩⟩

theorem test_meets_EnginePortsTakeTheirRequests_5 :
    (∃ (s : State) (k : Nat) (m : List TWord) (p : Place) (bs : Bytes),
    (s.portFront k 2 = some m) ∧ (digestTagsOk m = true) ∧ (digestLensOk m = true) ∧ (d2Open m = true) ∧ (d2Keyed m = false) ∧ (d2Final m = false) ∧ (d2Alg m ≠ 3) ∧ ((s.scull k).place k (wordAt m 3) (valAt m 4) false = .ok p) ∧ (p.space ≠ 2 ∨ s.splRead p.addr (valAt m 4) ≠ none) ∧ (s.placeBytes p (valAt m 4) = some bs)) ∧
    (∃ (s : State) (k : Nat) (m : List TWord) (p : Place) (bs : Bytes) (x : Port2Msg),
    (s.portFront k 2 = some m) ∧ (digestTagsOk m = true) ∧ (digestLensOk m = true) ∧ (d2Open m = false) ∧ (Mem.get none s.dge.port2 k = some x) ∧ (x.key = none) ∧ (x.alg ≠ 3) ∧ (d2Final m = true) ∧ ((s.scull k).place k (wordAt m 3) (valAt m 4) false = .ok p) ∧ (p.space ≠ 2 ∨ s.splRead p.addr (valAt m 4) ≠ none) ∧ (s.placeBytes p (valAt m 4) = some bs)) ∧
    (∃ (s : State) (k : Nat) (m : List TWord) (p : Place) (bs : Bytes) (x : Port2Msg) (key : Bytes) (w : TWord),
    (s.portFront k 2 = some m) ∧ (digestTagsOk m = true) ∧ (digestLensOk m = true) ∧ (d2Open m = false) ∧ (Mem.get none s.dge.port2 k = some x) ∧ (x.key = some key) ∧ (x.alg ≠ 3) ∧ (d2Keyed m = true) ∧ (d2Final m = true) ∧ (mkWord 1 (if (padTo 64 (hmacOf x.alg key (x.msg ++ bs))).take (4 * d2Expect m) = (wordBytes m 6 (d2Expect m)).take (4 * d2Expect m) then 1 else 0) = w) ∧ ((s.scull k).place k (wordAt m 3) (valAt m 4) false = .ok p) ∧ (p.space ≠ 2 ∨ s.splRead p.addr (valAt m 4) ≠ none) ∧ (s.placeBytes p (valAt m 4) = some bs)) ∧
    (∃ (s : State) (k : Nat) (m : List TWord) (v : Bool) (tf : Option TagFault) (e : Nat),
    (s.portFront k 3 = some m) ∧ (s.cmpPlaces k m = .error e)) :=
  ⟨⟨wPort 2 (wDigest 8 128), 0, wDigest 8 128, { space := 2, addr := 65536, win := wSplWin }, List.replicate 128 0, ⟨holds, holds, holds, holds, holds, holds, holds, decOkEq _ _ (by decide +kernel), holds, holds⟩⟩,
   ⟨(wPort 2 (wDigest 16 3)).setPort2 0 (some { alg := 1, msg := [1] }), 0, wDigest 16 3, { space := 2, addr := 65536, win := wSplWin }, [0, 0, 0], { alg := 1, msg := [1] }, ⟨holds, holds, holds, holds, holds, holds, holds, holds, decOkEq _ _ (by decide +kernel), holds, holds⟩⟩,
   ⟨(let m : List TWord := [wI 148, 0, mkPtr 0 1 0, wI 3, wI 77, wB 1, wB 2, wB 3, wB 4]; (wPort 2 m).setPort2 0 (some { alg := 1, msg := [1], key := some [9] })), 0, [wI 148, 0, mkPtr 0 1 0, wI 3, wI 77, wB 1, wB 2, wB 3, wB 4], { space := 2, addr := 65536, win := wSplWin }, [0, 0, 0], { alg := 1, msg := [1], key := some [9] }, [9], wI 0, ⟨holds, holds, holds, holds, holds, holds, holds, holds, holds, holds, decOkEq _ _ (by decide +kernel), holds, holds⟩⟩,
   ⟨wPort 3 (wCmpReq 1 0 64), 0, wCmpReq 1 0 64, true, none, 4, ⟨by decide +kernel, errIs _ _ (by decide +kernel)⟩⟩⟩

theorem test_meets_EnginePortsTakeTheirRequests_6 :
    (∃ (s : State) (k : Nat) (m : List TWord) (v : Bool) (tf : Option TagFault) (p d : Place),
    (s.portFront k 3 = some m) ∧ (s.cmpPlaces k m = .ok (p, d)) ∧ (c3Resume m = false) ∧ (tfStartOk (c3Header m) = false)) ∧
    (∃ (s : State) (k : Nat) (m : List TWord) (v : Bool) (tf : Option TagFault) (p d : Place) (i : Nat) (x : CmpCtx) (st : State × CmpStep × Nat × Bool),
    (s.portFront k 3 = some m) ∧ (s.cmpPlaces k m = .ok (p, d)) ∧ (c3Resume m = true ∨ tfStartOk (c3Header m) = true) ∧ (s.c3Job k m = some (i, c3Resume m, x)) ∧ (((if c3Resume m then s else s.setHeld i none).c3Step m i (c3Resume m) x p.addr v (faultOf tf)) = st)) ∧
    (∃ (s : State) (m : List TWord) (i : Nat) (rs v : Bool) (x : CmpCtx) (a : Nat) (bad : Option TagFault),
    (s.c3Bad a (valAt m 4) bad = none)) ∧
    (∃ (w : Win) (off o2 : Nat) (d : Win),
    (w.kind = 3)) :=
  ⟨⟨wPort 3 (wCmpReq 129 4 64), 0, wCmpReq 129 4 64, true, none, { space := 2, addr := 65536, win := wSplWin }, { space := 2, addr := 65600, win := wSplWin }, ⟨by decide +kernel, decOkEq _ _ (by decide +kernel), by decide +kernel, by decide +kernel⟩⟩,
   ⟨{ wPort 3 (wCmpReq 1 3 64) with dmf := { spl := writeBytes [] 65536 [0x4B, 0x04, 0x00] } }, 0, wCmpReq 1 3 64, true, none, { space := 2, addr := 65536, win := wSplWin }, { space := 2, addr := 65600, win := wSplWin }, 0, { func := 0, gen := (wPort 3 []).scull 0 |>.gen, scull := some 0, op := 1, format := 0, windowLog := 0, depth := 1, lazy := false, declLen := 0 }, _, ⟨by decide +kernel, decOkEq _ _ (by decide +kernel), by decide +kernel, by decide +kernel, rfl⟩⟩,
   ⟨{ wPort 3 (wCmpReq 1 3 64) with dmf := { spl := writeBytes [] 65536 [0x4B, 0x04, 0x00] } }, wCmpReq 1 3 64, 0, false, true, { func := 0, gen := (wPort 3 []).scull 0 |>.gen, scull := some 0, op := 1, format := 0, windowLog := 0, depth := 1, lazy := false, declLen := 0 }, 65536, none, by
    repeat' apply And.intro
    all_goals first | decide +kernel | exact decOkEq _ _ (by decide +kernel) | exact readyOf _ _ _ (by decide +kernel)⟩,
   ⟨{ wSplWin with kind := 3 }, 0, 4096, wSplWin, by
    repeat' apply And.intro
    all_goals first | decide +kernel | exact decOkEq _ _ (by decide +kernel) | exact readyOf _ _ _ (by decide +kernel)⟩⟩

theorem test_meets_EnginePortsTakeTheirRequests_7 :
    (∃ (s : State) (a n : Nat),
    (∀ w ∈ s.dmf.splBad, 8 * w + 8 ≤ a ∨ a + n ≤ 8 * w)) ∧
    (∃ (s : State) (k a : Nat) (m : List TWord) (p : Place) (bs : Bytes) (kp : Bool) (ws : List TWord),
    (p.space = 2) ∧ (p.addr = a) ∧ (bs ≠ [])) ∧
    (∃ (s : State) (k : Nat) (m : List TWord) (f : AsuFault),
    (s.portFront k 4 = some m) ∧ (m.length = 24)) ∧
    (∃ (s : State) (k : Nat) (m : List TWord) (f : AsuFault),
    (s.portFront k 4 = some m) ∧ (m.length ≠ 24) ∧ (tagIs m 11 1 = false)) :=
  ⟨⟨{ wPort 3 (wCmpReq 1 3 64) with dmf := { spl := writeBytes [] 65536 [0x4B, 0x04, 0x00] } }, 65536, 3, by
    repeat' apply And.intro
    all_goals first | decide +kernel | exact decOkEq _ _ (by decide +kernel) | exact readyOf _ _ _ (by decide +kernel)⟩,
   ⟨{ wPort 3 (wCmpReq 1 3 64) with dmf := { spl := writeBytes [] 65536 [0x4B, 0x04, 0x00] } }, 0, 65600, wCmpReq 1 3 64, { space := 2, addr := 65600, win := wSplWin }, [7], true, [wI 77], by
    repeat' apply And.intro
    all_goals first | decide +kernel | exact decOkEq _ _ (by decide +kernel) | exact readyOf _ _ _ (by decide +kernel)⟩,
   ⟨wPort 4 (wUpdate 0 0), 0, wUpdate 0 0, .none, by
    repeat' apply And.intro
    all_goals first | decide +kernel | exact decOkEq _ _ (by decide +kernel) | exact readyOf _ _ _ (by decide +kernel)⟩,
   ⟨wPort 4 ((wFind 5).take 10), 0, (wFind 5).take 10, .none, by
    repeat' apply And.intro
    all_goals first | decide +kernel | exact decOkEq _ _ (by decide +kernel) | exact readyOf _ _ _ (by decide +kernel)⟩⟩

theorem test_meets_EnginePortsTakeTheirRequests_8 :
    (∃ (s : State) (k : Nat) (m : List TWord) (f : AsuFault),
    (s.portFront k 4 = some m) ∧ (m.length ≠ 24) ∧ (tagIs m 1 1 = true) ∧ (tagIs m 11 1 = true) ∧ ((List.range 9).all (fun i => tagIs m (2 + i) 2) = true) ∧ (s.table (s.scull k).func (field (valAt m 1) 15 0) = none)) ∧
    (∃ (s : State) (k : Nat) (m : List TWord) (f : AsuFault) (t : Table),
    (s.portFront k 4 = some m) ∧ (m.length ≠ 24) ∧ (tagIs m 1 1 = true) ∧ (tagIs m 11 1 = true) ∧ ((List.range 9).all (fun i => tagIs m (2 + i) 2) = true) ∧ (s.table (s.scull k).func (field (valAt m 1) 15 0) = some t) ∧ (t.deleting ≠ none)) ∧
    (∃ (s : State) (k : Nat) (m : List TWord) (f : AsuFault) (t : Table),
    (s.portFront k 4 = some m) ∧ (m.length ≠ 24) ∧ (tagIs m 1 1 = true) ∧ (tagIs m 11 1 = true) ∧ ((List.range 9).all (fun i => tagIs m (2 + i) 2) = true) ∧ (s.table (s.scull k).func (field (valAt m 1) 15 0) = some t) ∧ (t.deleting = none) ∧ (2 ^ t.bits ≤ (bits288 m 2).toNat)) ∧
    (∃ (s : State) (k : Nat) (m : List TWord) (f : AsuFault) (t : Table) (q : Search),
    (s.portFront k 4 = some m) ∧ (m.length ≠ 24) ∧ (tagIs m 1 1 = true) ∧ (tagIs m 11 1 = true) ∧ ((List.range 9).all (fun i => tagIs m (2 + i) 2) = true) ∧ (s.table (s.scull k).func (field (valAt m 1) 15 0) = some t) ∧ (t.deleting = none) ∧ ({ tag := BitVec.ofNat 8 (field (valAt m 1) 25 18), allTags := bit (valAt m 1) 17, max := field (valAt m 1) 31 26 + 1, key := bits288 m 2 } = q) ∧ (q.key.toNat < 2 ^ t.bits) ∧ (s.tableDown t = false)) :=
  ⟨⟨wPort 4 (wFind 5), 0, wFind 5, .none, by
    repeat' apply And.intro
    all_goals first | decide +kernel | exact decOkEq _ _ (by decide +kernel) | exact readyOf _ _ _ (by decide +kernel)⟩,
   ⟨{ wPort 4 (wFind 5) with asu := { tables := [{ wTable with deleting := some 4 }] } }, 0, wFind 5, .none, { wTable with deleting := some 4 }, by
    repeat' apply And.intro
    all_goals first | decide +kernel | exact decOkEq _ _ (by decide +kernel) | exact readyOf _ _ _ (by decide +kernel)⟩,
   ⟨wAsu (wPort 4 ((wFind 5).set 4 (wB 256))), 0, (wFind 5).set 4 (wB 256), .none, wTable, by
    repeat' apply And.intro
    all_goals first | decide +kernel | exact decOkEq _ _ (by decide +kernel) | exact readyOf _ _ _ (by decide +kernel)⟩,
   ⟨wAsu (wPort 4 (wFind 5)), 0, wFind 5, .none, wTable, { tag := 0, allTags := false, max := 64, key := 5 }, by
    repeat' apply And.intro
    all_goals first | decide +kernel | exact decOkEq _ _ (by decide +kernel) | exact readyOf _ _ _ (by decide +kernel)⟩⟩

theorem test_meets_EnginePortsTakeTheirRequests_9 :
    (∃ (s : State) (k : Nat) (m : List TWord) (f : AsuFault),
    (s.portFront k 4 = some m) ∧ (m.length ≠ 24)) ∧
    (∃ (s : State) (k : Nat) (m : List TWord) (f : AsuFault),
    (s.portFront k 4 = some m) ∧ (m.length = 24) ∧ (4096 ≤ valAt m 3)) ∧
    (∃ (s : State) (k : Nat) (m : List TWord) (f : AsuFault),
    (s.portFront k 4 = some m) ∧ (m.length = 24) ∧ (tagIs m 1 1 = true) ∧ (field (valAt m 1) 31 26 = 0) ∧ (tagIs m 2 1 = true) ∧ (tagIs m 3 1 = true) ∧ (valAt m 3 < 4096) ∧ (tagIs m 24 1 = true) ∧ ((List.range 20).all (fun i => tagIs m (4 + i) 2) = true) ∧ (s.table (s.scull k).func (field (valAt m 1) 15 0) = none)) ∧
    (∃ (s : State) (k : Nat) (m : List TWord) (f : AsuFault) (t : Table),
    (s.portFront k 4 = some m) ∧ (m.length = 24) ∧ (tagIs m 1 1 = true) ∧ (field (valAt m 1) 31 26 = 0) ∧ (tagIs m 2 1 = true) ∧ (tagIs m 3 1 = true) ∧ (valAt m 3 < 4096) ∧ (tagIs m 24 1 = true) ∧ ((List.range 20).all (fun i => tagIs m (4 + i) 2) = true) ∧ (s.table (s.scull k).func (field (valAt m 1) 15 0) = some t) ∧ (t.deleting = none) ∧ (t.capacity ≤ valAt m 2)) :=
  ⟨⟨wPort 4 (wFind 5), 0, wFind 5, .none, by
    repeat' apply And.intro
    all_goals first | decide +kernel | exact decOkEq _ _ (by decide +kernel) | exact readyOf _ _ _ (by decide +kernel)⟩,
   ⟨wPort 4 ((wUpdate 0 5).set 2 (wI 4096)), 0, (wUpdate 0 5).set 2 (wI 4096), .none, by
    repeat' apply And.intro
    all_goals first | decide +kernel | exact decOkEq _ _ (by decide +kernel) | exact readyOf _ _ _ (by decide +kernel)⟩,
   ⟨wPort 4 (wUpdate 0 5), 0, wUpdate 0 5, .none, by
    repeat' apply And.intro
    all_goals first | decide +kernel | exact decOkEq _ _ (by decide +kernel) | exact readyOf _ _ _ (by decide +kernel)⟩,
   ⟨wAsu (wPort 4 (wUpdate 512 5)), 0, wUpdate 512 5, .none, wTable, by
    repeat' apply And.intro
    all_goals first | decide +kernel | exact decOkEq _ _ (by decide +kernel) | exact readyOf _ _ _ (by decide +kernel)⟩⟩

theorem test_meets_EnginePortsTakeTheirRequests_10 :
    (∃ (s : State) (k : Nat) (m : List TWord) (f : AsuFault) (t : Table),
    (s.portFront k 4 = some m) ∧ (m.length = 24) ∧ (tagIs m 1 1 = true) ∧ (field (valAt m 1) 31 26 = 0) ∧ (tagIs m 2 1 = true) ∧ (tagIs m 3 1 = true) ∧ (valAt m 3 < 4096) ∧ (tagIs m 24 1 = true) ∧ ((List.range 20).all (fun i => tagIs m (4 + i) 2) = true) ∧ (s.table (s.scull k).func (field (valAt m 1) 15 0) = some t) ∧ (t.deleting = none) ∧ (valAt m 2 < t.capacity) ∧ (bit (valAt m 1) 17 = false) ∧ (keyFits t (bits288 m 4) (bits288 m 13) = false)) ∧
    (∃ (s : State) (k : Nat) (m : List TWord) (f : AsuFault) (t : Table),
    (s.portFront k 4 = some m) ∧ (m.length = 24) ∧ (tagIs m 1 1 = true) ∧ (field (valAt m 1) 31 26 = 0) ∧ (tagIs m 2 1 = true) ∧ (tagIs m 3 1 = true) ∧ (valAt m 3 < 4096) ∧ (tagIs m 24 1 = true) ∧ ((List.range 20).all (fun i => tagIs m (4 + i) 2) = true) ∧ (s.table (s.scull k).func (field (valAt m 1) 15 0) = some t) ∧ (t.deleting = none) ∧ (valAt m 2 < t.capacity) ∧ (bit (valAt m 1) 17 = false) ∧ (keyFits t (bits288 m 4) (bits288 m 13) = true) ∧ (s.tableDown t = false) ∧ ((s.portPop k 4).rowFault t f [valAt m 2] = none)) ∧
    (∃ (s : State) (k : Nat) (m : List TWord) (f : AsuFault) (t : Table),
    (s.portFront k 4 = some m) ∧ (m.length = 24) ∧ (tagIs m 1 1 = true) ∧ (field (valAt m 1) 31 26 = 0) ∧ (tagIs m 2 1 = true) ∧ (tagIs m 3 1 = true) ∧ (valAt m 3 < 4096) ∧ (tagIs m 24 1 = true) ∧ ((List.range 20).all (fun i => tagIs m (4 + i) 2) = true) ∧ (s.table (s.scull k).func (field (valAt m 1) 15 0) = some t) ∧ (t.deleting = none) ∧ (valAt m 2 < t.capacity) ∧ (bit (valAt m 1) 17 = true) ∧ (s.tableDown t = false) ∧ ((s.portPop k 4).rowFault t f [valAt m 2] = none)) ∧
    (∃ (s : State) (k : Nat) (m : List TWord) (f : AsuFault) (t : Table) (u : State),
    (s.portFront k 4 = some m) ∧ (m.length = 24) ∧ (tagIs m 1 1 = true) ∧ (field (valAt m 1) 31 26 = 0) ∧ (tagIs m 2 1 = true) ∧ (tagIs m 3 1 = true) ∧ (valAt m 3 < 4096) ∧ (tagIs m 24 1 = true) ∧ ((List.range 20).all (fun i => tagIs m (4 + i) 2) = true) ∧ (s.table (s.scull k).func (field (valAt m 1) 15 0) = some t) ∧ (t.deleting = none) ∧ (valAt m 2 < t.capacity) ∧ (bit (valAt m 1) 17 = true) ∧ (s.tableDown t = false) ∧ ((s.portPop k 4).rowFault t f [valAt m 2] = some u)) :=
  ⟨⟨wAsu (wPort 4 (wUpdate 511 256)), 0, wUpdate 511 256, .none, wTable, by
    repeat' apply And.intro
    all_goals first | decide +kernel | exact decOkEq _ _ (by decide +kernel) | exact readyOf _ _ _ (by decide +kernel)⟩,
   ⟨wAsu (wPort 4 (wUpdate 511 5)), 0, wUpdate 511 5, .none, wTable, by
    repeat' apply And.intro
    all_goals first | decide +kernel | exact decOkEq _ _ (by decide +kernel) | exact readyOf _ _ _ (by decide +kernel)⟩,
   ⟨wAsu (wPort 4 ((wUpdate 4 5).set 0 (wI (7 + 2 ^ 17)))), 0, (wUpdate 4 5).set 0 (wI (7 + 2 ^ 17)), .none, wTable, by
    repeat' apply And.intro
    all_goals first | decide +kernel | exact decOkEq _ _ (by decide +kernel) | exact readyOf _ _ _ (by decide +kernel)⟩,
   ⟨(let w := (wUpdate 4 5).set 0 (wI (7 + 2 ^ 17)); wAsu (wPort 4 w)), 0, (wUpdate 4 5).set 0 (wI (7 + 2 ^ 17)), .rowParity 8 4, wTable, (((wAsu (wPort 4 ((wUpdate 4 5).set 0 (wI (7 + 2 ^ 17))))).portPop 0 4).rowFault wTable (.rowParity 8 4) [4]).get (by decide +kernel), by
    repeat' apply And.intro
    all_goals first | decide +kernel | exact decOkEq _ _ (by decide +kernel) | exact readyOf _ _ _ (by decide +kernel)⟩⟩

theorem test_meets_EnginePortsTakeTheirRequests_11 :
    (∃ (s : State) (k port : Nat) (ws : List TWord),
    (Mem.get 0 (s.scull k).outstanding port ≠ 0) ∧ ((s.scull k).running = true) ∧ ((s.scull k).trapped = false)) :=
  ⟨wPort 4 [], 0, 4, [wI 1], by
    repeat' apply And.intro
    all_goals first | decide +kernel | exact decOkEq _ _ (by decide +kernel) | exact readyOf _ _ _ (by decide +kernel)⟩

theorem test_meets_AluComputesEveryRowOfItsTable_1 :
    (∃ (s : State) (k : Nat) (d r : BitVec 3) (x y : BitVec 32),
    (s.nextIs k (.add d r) = true) ∧ ((s.scull k).dr d = tagged 1 x) ∧ ((s.scull k).dr r = tagged 1 y)) ∧
    (∃ (s : State) (k : Nat) (d r : BitVec 3) (x y : BitVec 32),
    (s.nextIs k (.add d r) = true) ∧ ((s.scull k).dr d = tagged 7 x) ∧ ((s.scull k).dr r = tagged 1 y)) ∧
    (∃ (s : State) (k : Nat) (d r : BitVec 3) (x y : BitVec 32),
    (s.nextIs k (.add d r) = true) ∧ ((s.scull k).dr d = tagged 1 x) ∧ ((s.scull k).dr r = tagged 7 y)) ∧
    (∃ (s : State) (k : Nat) (d r : BitVec 3) (x y : BitVec 32),
    (s.nextIs k (.sub d r) = true) ∧ ((s.scull k).dr d = tagged 1 x) ∧ ((s.scull k).dr r = tagged 1 y)) :=
  ⟨⟨wJ 11274 0 (tagged 1 7) (tagged 1 3), 0, 1, 2, 7, 3, by
    repeat' apply And.intro
    all_goals first | decide +kernel | exact decOkEq _ _ (by decide +kernel) | exact readyOf _ _ _ (by decide +kernel)⟩,
   ⟨wJ 11274 0 (tagged 7 7) (tagged 1 3), 0, 1, 2, 7, 3, by
    repeat' apply And.intro
    all_goals first | decide +kernel | exact decOkEq _ _ (by decide +kernel) | exact readyOf _ _ _ (by decide +kernel)⟩,
   ⟨wJ 11274 0 (tagged 1 7) (tagged 7 3), 0, 1, 2, 7, 3, by
    repeat' apply And.intro
    all_goals first | decide +kernel | exact decOkEq _ _ (by decide +kernel) | exact readyOf _ _ _ (by decide +kernel)⟩,
   ⟨wJ 11338 0 (tagged 1 7) (tagged 1 3), 0, 1, 2, 7, 3, by
    repeat' apply And.intro
    all_goals first | decide +kernel | exact decOkEq _ _ (by decide +kernel) | exact readyOf _ _ _ (by decide +kernel)⟩⟩

theorem test_meets_AluComputesEveryRowOfItsTable_2 :
    (∃ (s : State) (k : Nat) (d r : BitVec 3) (x y : BitVec 32),
    (s.nextIs k (.sub d r) = true) ∧ ((s.scull k).dr d = tagged 7 x) ∧ ((s.scull k).dr r = tagged 7 y)) ∧
    (∃ (s : State) (k : Nat) (d r : BitVec 3) (x y : BitVec 32),
    (s.nextIs k (.sub d r) = true) ∧ ((s.scull k).dr d = tagged 7 x) ∧ ((s.scull k).dr r = tagged 1 y)) ∧
    (∃ (s : State) (k : Nat) (d r : BitVec 3) (a b x y : BitVec 16),
    (s.nextIs k (.add d r) = true) ∧ ((s.scull k).dr d = tagged 3 (a ++ b)) ∧ ((s.scull k).dr r = tagged 3 (x ++ y))) ∧
    (∃ (s : State) (k : Nat) (d r : BitVec 3) (a b c e w x y z : BitVec 8),
    (s.nextIs k (.add d r) = true) ∧ ((s.scull k).dr d = tagged 2 (a ++ b ++ c ++ e)) ∧ ((s.scull k).dr r = tagged 2 (w ++ x ++ y ++ z))) :=
  ⟨⟨wJ 11338 0 (tagged 7 7) (tagged 7 3), 0, 1, 2, 7, 3, by
    repeat' apply And.intro
    all_goals first | decide +kernel | exact decOkEq _ _ (by decide +kernel) | exact readyOf _ _ _ (by decide +kernel)⟩,
   ⟨wJ 11338 0 (tagged 7 7) (tagged 1 3), 0, 1, 2, 7, 3, by
    repeat' apply And.intro
    all_goals first | decide +kernel | exact decOkEq _ _ (by decide +kernel) | exact readyOf _ _ _ (by decide +kernel)⟩,
   ⟨wJ 11274 0 (tagged 3 ((7 : BitVec 16) ++ (9 : BitVec 16))) (tagged 3 ((0xFFFF : BitVec 16) ++ (1 : BitVec 16))), 0, 1, 2, 7, 9, 0xFFFF, 1, by
    repeat' apply And.intro
    all_goals first | decide +kernel | exact decOkEq _ _ (by decide +kernel) | exact readyOf _ _ _ (by decide +kernel)⟩,
   ⟨wJ 11274 0 (tagged 2 ((7 : BitVec 8) ++ (9 : BitVec 8) ++ (1 : BitVec 8) ++ (255 : BitVec 8))) (tagged 2 ((255 : BitVec 8) ++ (9 : BitVec 8) ++ (1 : BitVec 8) ++ (2 : BitVec 8))), 0, 1, 2, 7, 9, 1, 255, 255, 9, 1, 2, by
    repeat' apply And.intro
    all_goals first | decide +kernel | exact decOkEq _ _ (by decide +kernel) | exact readyOf _ _ _ (by decide +kernel)⟩⟩

theorem test_meets_AluComputesEveryRowOfItsTable_3 :
    (∃ (s : State) (k : Nat) (d r : BitVec 3) (a b x y : BitVec 16),
    (s.nextIs k (.sub d r) = true) ∧ ((s.scull k).dr d = tagged 3 (a ++ b)) ∧ ((s.scull k).dr r = tagged 3 (x ++ y))) ∧
    (∃ (s : State) (k : Nat) (d r : BitVec 3) (a b c e w x y z : BitVec 8),
    (s.nextIs k (.sub d r) = true) ∧ ((s.scull k).dr d = tagged 2 (a ++ b ++ c ++ e)) ∧ ((s.scull k).dr r = tagged 2 (w ++ x ++ y ++ z))) ∧
    (∃ (s : State) (k : Nat) (d r : BitVec 3) (x y : BitVec 32),
    (s.nextIs k (.mul d r) = true) ∧ ((s.scull k).dr d = tagged 1 x) ∧ ((s.scull k).dr r = tagged 1 y)) ∧
    (∃ (s : State) (k : Nat) (d r : BitVec 3) (x y : BitVec 32),
    (s.nextIs k (.div d r) = true) ∧ ((s.scull k).dr d = tagged 1 x) ∧ ((s.scull k).dr r = tagged 1 y) ∧ (y ≠ 0)) :=
  ⟨⟨wJ 11338 0 (tagged 3 ((7 : BitVec 16) ++ (9 : BitVec 16))) (tagged 3 ((0xFFFF : BitVec 16) ++ (1 : BitVec 16))), 0, 1, 2, 7, 9, 0xFFFF, 1, by
    repeat' apply And.intro
    all_goals first | decide +kernel | exact decOkEq _ _ (by decide +kernel) | exact readyOf _ _ _ (by decide +kernel)⟩,
   ⟨wJ 11338 0 (tagged 2 ((7 : BitVec 8) ++ (9 : BitVec 8) ++ (1 : BitVec 8) ++ (255 : BitVec 8))) (tagged 2 ((255 : BitVec 8) ++ (9 : BitVec 8) ++ (1 : BitVec 8) ++ (2 : BitVec 8))), 0, 1, 2, 7, 9, 1, 255, 255, 9, 1, 2, by
    repeat' apply And.intro
    all_goals first | decide +kernel | exact decOkEq _ _ (by decide +kernel) | exact readyOf _ _ _ (by decide +kernel)⟩,
   ⟨wJ 11402 0 (tagged 1 7) (tagged 1 3), 0, 1, 2, 7, 3, by
    repeat' apply And.intro
    all_goals first | decide +kernel | exact decOkEq _ _ (by decide +kernel) | exact readyOf _ _ _ (by decide +kernel)⟩,
   ⟨wJ 11466 0 (tagged 1 0x80000000) (tagged 1 0xFFFFFFFF), 0, 1, 2, 0x80000000, 0xFFFFFFFF, by
    repeat' apply And.intro
    all_goals first | decide +kernel | exact decOkEq _ _ (by decide +kernel) | exact readyOf _ _ _ (by decide +kernel)⟩⟩

theorem test_meets_AluComputesEveryRowOfItsTable_4 :
    (∃ (s : State) (k : Nat) (d r : BitVec 3) (x y : BitVec 32),
    (s.nextIs k (.rem d r) = true) ∧ ((s.scull k).dr d = tagged 1 x) ∧ ((s.scull k).dr r = tagged 1 y) ∧ (y ≠ 0)) ∧
    (∃ (s : State) (k : Nat) (d r : BitVec 3) (x : BitVec 32),
    (s.nextIs k (.div d r) = true) ∧ ((s.scull k).dr d = tagged 1 x) ∧ ((s.scull k).dr r = tagged 1 0)) ∧
    (∃ (s : State) (k : Nat) (d r : BitVec 3) (x : BitVec 32),
    (s.nextIs k (.rem d r) = true) ∧ ((s.scull k).dr d = tagged 1 x) ∧ ((s.scull k).dr r = tagged 1 0)) ∧
    (∃ (s : State) (k t : Nat) (d r : BitVec 3) (x y : BitVec 32),
    (s.nextIs k (.and d r) = true) ∧ (t = 1 ∨ t = 2 ∨ t = 3) ∧ ((s.scull k).dr d = tagged t x) ∧ ((s.scull k).dr r = tagged t y)) :=
  ⟨⟨wJ 11530 0 (tagged 1 0x80000000) (tagged 1 0xFFFFFFFF), 0, 1, 2, 0x80000000, 0xFFFFFFFF, by
    repeat' apply And.intro
    all_goals first | decide +kernel | exact decOkEq _ _ (by decide +kernel) | exact readyOf _ _ _ (by decide +kernel)⟩,
   ⟨wJ 11466 0 (tagged 1 7) (tagged 1 0), 0, 1, 2, 7, by
    repeat' apply And.intro
    all_goals first | decide +kernel | exact decOkEq _ _ (by decide +kernel) | exact readyOf _ _ _ (by decide +kernel)⟩,
   ⟨wJ 11530 0 (tagged 1 7) (tagged 1 0), 0, 1, 2, 7, by
    repeat' apply And.intro
    all_goals first | decide +kernel | exact decOkEq _ _ (by decide +kernel) | exact readyOf _ _ _ (by decide +kernel)⟩,
   ⟨wJ 11594 0 (tagged 3 7) (tagged 3 5), 0, 3, 1, 2, 7, 5, by
    repeat' apply And.intro
    all_goals first | decide +kernel | exact decOkEq _ _ (by decide +kernel) | exact readyOf _ _ _ (by decide +kernel)⟩⟩

theorem test_meets_AluComputesEveryRowOfItsTable_5 :
    (∃ (s : State) (k t : Nat) (d r : BitVec 3) (x y : BitVec 32),
    (s.nextIs k (.or d r) = true) ∧ (t = 1 ∨ t = 2 ∨ t = 3) ∧ ((s.scull k).dr d = tagged t x) ∧ ((s.scull k).dr r = tagged t y)) ∧
    (∃ (s : State) (k t : Nat) (d r : BitVec 3) (x y : BitVec 32),
    (s.nextIs k (.xor d r) = true) ∧ (t = 1 ∨ t = 2 ∨ t = 3) ∧ ((s.scull k).dr d = tagged t x) ∧ ((s.scull k).dr r = tagged t y)) ∧
    (∃ (s : State) (k t : Nat) (d r : BitVec 3) (x y : BitVec 32),
    (s.nextIs k (.shl d r) = true) ∧ (t = 1 ∨ t = 2) ∧ ((s.scull k).dr d = tagged t x) ∧ ((s.scull k).dr r = tagged 1 y) ∧ (y.toNat < 32)) ∧
    (∃ (s : State) (k t : Nat) (d r : BitVec 3) (x y : BitVec 32),
    (s.nextIs k (.shl d r) = true) ∧ (t = 1 ∨ t = 2) ∧ ((s.scull k).dr d = tagged t x) ∧ ((s.scull k).dr r = tagged 1 y) ∧ (32 ≤ y.toNat)) :=
  ⟨⟨wJ 11658 0 (tagged 3 7) (tagged 3 5), 0, 3, 1, 2, 7, 5, by
    repeat' apply And.intro
    all_goals first | decide +kernel | exact decOkEq _ _ (by decide +kernel) | exact readyOf _ _ _ (by decide +kernel)⟩,
   ⟨wJ 11722 0 (tagged 3 7) (tagged 3 5), 0, 3, 1, 2, 7, 5, by
    repeat' apply And.intro
    all_goals first | decide +kernel | exact decOkEq _ _ (by decide +kernel) | exact readyOf _ _ _ (by decide +kernel)⟩,
   ⟨wJ 11786 0 (tagged 2 7) (tagged 1 31), 0, 2, 1, 2, 7, 31, by
    repeat' apply And.intro
    all_goals first | decide +kernel | exact decOkEq _ _ (by decide +kernel) | exact readyOf _ _ _ (by decide +kernel)⟩,
   ⟨wJ 11786 0 (tagged 2 7) (tagged 1 32), 0, 2, 1, 2, 7, 32, by
    repeat' apply And.intro
    all_goals first | decide +kernel | exact decOkEq _ _ (by decide +kernel) | exact readyOf _ _ _ (by decide +kernel)⟩⟩

theorem test_meets_AluComputesEveryRowOfItsTable_6 :
    (∃ (s : State) (k t : Nat) (d : BitVec 3) (imm : BitVec 5) (x : BitVec 32),
    (s.nextIs k (.shli d imm) = true) ∧ (t = 1 ∨ t = 2) ∧ ((s.scull k).dr d = tagged t x)) ∧
    (∃ (s : State) (k t : Nat) (d r : BitVec 3) (x y : BitVec 32),
    (s.nextIs k (.shr d r) = true) ∧ (t = 1 ∨ t = 2) ∧ ((s.scull k).dr d = tagged t x) ∧ ((s.scull k).dr r = tagged 1 y) ∧ (y.toNat < 32)) ∧
    (∃ (s : State) (k t : Nat) (d r : BitVec 3) (x y : BitVec 32),
    (s.nextIs k (.shr d r) = true) ∧ (t = 1 ∨ t = 2) ∧ ((s.scull k).dr d = tagged t x) ∧ ((s.scull k).dr r = tagged 1 y) ∧ (32 ≤ y.toNat)) ∧
    (∃ (s : State) (k t : Nat) (d : BitVec 3) (imm : BitVec 5) (x : BitVec 32),
    (s.nextIs k (.shri d imm) = true) ∧ (t = 1 ∨ t = 2) ∧ ((s.scull k).dr d = tagged t x)) :=
  ⟨⟨wJ 12607 0 (tagged 2 7), 0, 2, 1, 31, 7, by
    repeat' apply And.intro
    all_goals first | decide +kernel | exact decOkEq _ _ (by decide +kernel) | exact readyOf _ _ _ (by decide +kernel)⟩,
   ⟨wJ 11850 0 (tagged 2 7) (tagged 1 31), 0, 2, 1, 2, 7, 31, by
    repeat' apply And.intro
    all_goals first | decide +kernel | exact decOkEq _ _ (by decide +kernel) | exact readyOf _ _ _ (by decide +kernel)⟩,
   ⟨wJ 11850 0 (tagged 2 7) (tagged 1 32), 0, 2, 1, 2, 7, 32, by
    repeat' apply And.intro
    all_goals first | decide +kernel | exact decOkEq _ _ (by decide +kernel) | exact readyOf _ _ _ (by decide +kernel)⟩,
   ⟨wJ 12863 0 (tagged 2 7), 0, 2, 1, 31, 7, by
    repeat' apply And.intro
    all_goals first | decide +kernel | exact decOkEq _ _ (by decide +kernel) | exact readyOf _ _ _ (by decide +kernel)⟩⟩

theorem test_meets_AluComputesEveryRowOfItsTable_7 :
    (∃ (s : State) (k : Nat) (d r : BitVec 3) (x y : BitVec 32),
    (s.nextIs k (.sar d r) = true) ∧ ((s.scull k).dr d = tagged 1 x) ∧ ((s.scull k).dr r = tagged 1 y) ∧ (y.toNat < 32)) ∧
    (∃ (s : State) (k : Nat) (d r : BitVec 3) (x y : BitVec 32),
    (s.nextIs k (.sar d r) = true) ∧ ((s.scull k).dr d = tagged 1 x) ∧ ((s.scull k).dr r = tagged 1 y) ∧ (32 ≤ y.toNat)) ∧
    (∃ (s : State) (k : Nat) (d : BitVec 3) (imm : BitVec 5) (x : BitVec 32),
    (s.nextIs k (.sari d imm) = true) ∧ ((s.scull k).dr d = tagged 1 x)) ∧
    (∃ (s : State) (k : Nat) (d : BitVec 3) (imm : BitVec 5) (x : BitVec 32),
    (s.nextIs k (.addi d imm) = true) ∧ ((s.scull k).dr d = tagged 1 x)) :=
  ⟨⟨wJ 11914 0 (tagged 1 0x80000000) (tagged 1 31), 0, 1, 2, 0x80000000, 31, by
    repeat' apply And.intro
    all_goals first | decide +kernel | exact decOkEq _ _ (by decide +kernel) | exact readyOf _ _ _ (by decide +kernel)⟩,
   ⟨wJ 11914 0 (tagged 1 0x80000000) (tagged 1 32), 0, 1, 2, 0x80000000, 32, by
    repeat' apply And.intro
    all_goals first | decide +kernel | exact decOkEq _ _ (by decide +kernel) | exact readyOf _ _ _ (by decide +kernel)⟩,
   ⟨wJ 13119 0 (tagged 1 0x80000000), 0, 1, 31, 0x80000000, by
    repeat' apply And.intro
    all_goals first | decide +kernel | exact decOkEq _ _ (by decide +kernel) | exact readyOf _ _ _ (by decide +kernel)⟩,
   ⟨wJ 12351 0 (tagged 1 7), 0, 1, 31, 7, by
    repeat' apply And.intro
    all_goals first | decide +kernel | exact decOkEq _ _ (by decide +kernel) | exact readyOf _ _ _ (by decide +kernel)⟩⟩

theorem test_meets_AluComputesEveryRowOfItsTable_8 :
    (∃ (s : State) (k : Nat) (d : BitVec 3) (imm : BitVec 5) (x : BitVec 32),
    (s.nextIs k (.addi d imm) = true) ∧ ((s.scull k).dr d = tagged 7 x)) ∧
    (∃ (s : State) (k : Nat) (d r : BitVec 3) (x y : BitVec 32),
    (s.nextIs k (.min d r) = true) ∧ ((s.scull k).dr d = tagged 1 x) ∧ ((s.scull k).dr r = tagged 1 y)) ∧
    (∃ (s : State) (k : Nat) (d r : BitVec 3) (x y : BitVec 32),
    (s.nextIs k (.max d r) = true) ∧ ((s.scull k).dr d = tagged 1 x) ∧ ((s.scull k).dr r = tagged 1 y)) ∧
    (∃ (s : State) (k : Nat) (d r : BitVec 3) (b : Nat) (x y : BitVec 32),
    (s.nextIs k (.extb d r) = true) ∧ ((s.scull k).dr d = tagged 2 x) ∧ ((s.scull k).dr r = tagged 1 y) ∧ (y.toNat = b) ∧ (b ≤ 3)) :=
  ⟨⟨wJ 12351 0 (tagged 7 7), 0, 1, 31, 7, by
    repeat' apply And.intro
    all_goals first | decide +kernel | exact decOkEq _ _ (by decide +kernel) | exact readyOf _ _ _ (by decide +kernel)⟩,
   ⟨wJ 11978 0 (tagged 1 0x80000000) (tagged 1 3), 0, 1, 2, 0x80000000, 3, by
    repeat' apply And.intro
    all_goals first | decide +kernel | exact decOkEq _ _ (by decide +kernel) | exact readyOf _ _ _ (by decide +kernel)⟩,
   ⟨wJ 12042 0 (tagged 1 0x80000000) (tagged 1 3), 0, 1, 2, 0x80000000, 3, by
    repeat' apply And.intro
    all_goals first | decide +kernel | exact decOkEq _ _ (by decide +kernel) | exact readyOf _ _ _ (by decide +kernel)⟩,
   ⟨wJ 12106 0 (tagged 2 0xFF000000) (tagged 1 3), 0, 1, 2, 3, 0xFF000000, 3, by
    repeat' apply And.intro
    all_goals first | decide +kernel | exact decOkEq _ _ (by decide +kernel) | exact readyOf _ _ _ (by decide +kernel)⟩⟩

theorem test_meets_AluComputesEveryRowOfItsTable_9 :
    (∃ (s : State) (k : Nat) (d r : BitVec 3) (x y : BitVec 32),
    (s.nextIs k (.extb d r) = true) ∧ ((s.scull k).dr d = tagged 2 x) ∧ ((s.scull k).dr r = tagged 1 y) ∧ (3 < y.toNat)) ∧
    (∃ (s : State) (k : Nat) (d r : BitVec 3) (a b x y : BitVec 16),
    (s.nextIs k (.mkpair d r) = true) ∧ ((s.scull k).dr d = tagged 1 (a ++ b)) ∧ ((s.scull k).dr r = tagged 1 (x ++ y))) ∧
    (∃ (s : State) (k t : Nat) (d r : BitVec 3) (y : BitVec 32),
    (s.nextIs k (.not d r) = true) ∧ (t = 1 ∨ t = 2 ∨ t = 3) ∧ ((s.scull k).dr r = tagged t y)) ∧
    (∃ (s : State) (k : Nat) (d r : BitVec 3) (v w : TWord),
    (s.nextIs k (.add d r) = true) ∧ ((s.scull k).dr d = v) ∧ ((s.scull k).dr r = w) ∧ (((tag4 v).toNat, (tag4 w).toNat) ∉ [(1, 1), (7, 1), (1, 7), (3, 3), (2, 2)])) :=
  ⟨⟨wJ 12106 0 (tagged 2 7) (tagged 1 4), 0, 1, 2, 7, 4, by
    repeat' apply And.intro
    all_goals first | decide +kernel | exact decOkEq _ _ (by decide +kernel) | exact readyOf _ _ _ (by decide +kernel)⟩,
   ⟨wJ 12170 0 (tagged 1 ((7 : BitVec 16) ++ (9 : BitVec 16))) (tagged 1 ((0xFFFF : BitVec 16) ++ (1 : BitVec 16))), 0, 1, 2, 7, 9, 0xFFFF, 1, by
    repeat' apply And.intro
    all_goals first | decide +kernel | exact decOkEq _ _ (by decide +kernel) | exact readyOf _ _ _ (by decide +kernel)⟩,
   ⟨wJ 12234 0 0 (tagged 3 5), 0, 3, 1, 2, 5, by
    repeat' apply And.intro
    all_goals first | decide +kernel | exact decOkEq _ _ (by decide +kernel) | exact readyOf _ _ _ (by decide +kernel)⟩,
   ⟨wJ 11274 0 (tagged 4 7) (tagged 1 3), 0, 1, 2, tagged 4 7, tagged 1 3, by
    repeat' apply And.intro
    all_goals first | decide +kernel | exact decOkEq _ _ (by decide +kernel) | exact readyOf _ _ _ (by decide +kernel)⟩⟩

theorem test_meets_AluComputesEveryRowOfItsTable_10 :
    (∃ (s : State) (k : Nat) (d r : BitVec 3) (v w : TWord),
    (s.nextIs k (.sub d r) = true) ∧ ((s.scull k).dr d = v) ∧ ((s.scull k).dr r = w) ∧ (((tag4 v).toNat, (tag4 w).toNat) ∉ [(1, 1), (7, 1), (7, 7), (3, 3), (2, 2)])) ∧
    (∃ (s : State) (k : Nat) (d r : BitVec 3) (v w : TWord),
    (s.nextIs k (.mul d r) = true) ∧ ((s.scull k).dr d = v) ∧ ((s.scull k).dr r = w) ∧ (((tag4 v).toNat, (tag4 w).toNat) ∉ [(1, 1)])) ∧
    (∃ (s : State) (k : Nat) (d r : BitVec 3) (v w : TWord),
    (s.nextIs k (.div d r) = true) ∧ ((s.scull k).dr d = v) ∧ ((s.scull k).dr r = w) ∧ (((tag4 v).toNat, (tag4 w).toNat) ∉ [(1, 1)])) ∧
    (∃ (s : State) (k : Nat) (d r : BitVec 3) (v w : TWord),
    (s.nextIs k (.rem d r) = true) ∧ ((s.scull k).dr d = v) ∧ ((s.scull k).dr r = w) ∧ (((tag4 v).toNat, (tag4 w).toNat) ∉ [(1, 1)])) :=
  ⟨⟨wJ 11338 0 (tagged 4 7) (tagged 1 3), 0, 1, 2, tagged 4 7, tagged 1 3, by
    repeat' apply And.intro
    all_goals first | decide +kernel | exact decOkEq _ _ (by decide +kernel) | exact readyOf _ _ _ (by decide +kernel)⟩,
   ⟨wJ 11402 0 (tagged 4 7) (tagged 1 3), 0, 1, 2, tagged 4 7, tagged 1 3, by
    repeat' apply And.intro
    all_goals first | decide +kernel | exact decOkEq _ _ (by decide +kernel) | exact readyOf _ _ _ (by decide +kernel)⟩,
   ⟨wJ 11466 0 (tagged 4 7) (tagged 1 3), 0, 1, 2, tagged 4 7, tagged 1 3, by
    repeat' apply And.intro
    all_goals first | decide +kernel | exact decOkEq _ _ (by decide +kernel) | exact readyOf _ _ _ (by decide +kernel)⟩,
   ⟨wJ 11530 0 (tagged 4 7) (tagged 1 3), 0, 1, 2, tagged 4 7, tagged 1 3, by
    repeat' apply And.intro
    all_goals first | decide +kernel | exact decOkEq _ _ (by decide +kernel) | exact readyOf _ _ _ (by decide +kernel)⟩⟩

theorem test_meets_AluComputesEveryRowOfItsTable_11 :
    (∃ (s : State) (k : Nat) (d r : BitVec 3) (v w : TWord),
    (s.nextIs k (.and d r) = true) ∧ ((s.scull k).dr d = v) ∧ ((s.scull k).dr r = w) ∧ (((tag4 v).toNat, (tag4 w).toNat) ∉ [(1, 1), (2, 2), (3, 3)])) ∧
    (∃ (s : State) (k : Nat) (d r : BitVec 3) (v w : TWord),
    (s.nextIs k (.shl d r) = true) ∧ ((s.scull k).dr d = v) ∧ ((s.scull k).dr r = w) ∧ (((tag4 v).toNat, (tag4 w).toNat) ∉ [(1, 1), (2, 1)])) ∧
    (∃ (s : State) (k : Nat) (d r : BitVec 3) (v w : TWord),
    (s.nextIs k (.sar d r) = true) ∧ ((s.scull k).dr d = v) ∧ ((s.scull k).dr r = w) ∧ (((tag4 v).toNat, (tag4 w).toNat) ∉ [(1, 1)])) ∧
    (∃ (s : State) (k : Nat) (d r : BitVec 3) (v w : TWord),
    (s.nextIs k (.extb d r) = true) ∧ ((s.scull k).dr d = v) ∧ ((s.scull k).dr r = w) ∧ (((tag4 v).toNat, (tag4 w).toNat) ∉ [(2, 1)])) :=
  ⟨⟨wJ 11594 0 (tagged 4 7) (tagged 1 3), 0, 1, 2, tagged 4 7, tagged 1 3, by
    repeat' apply And.intro
    all_goals first | decide +kernel | exact decOkEq _ _ (by decide +kernel) | exact readyOf _ _ _ (by decide +kernel)⟩,
   ⟨wJ 11786 0 (tagged 4 7) (tagged 1 3), 0, 1, 2, tagged 4 7, tagged 1 3, by
    repeat' apply And.intro
    all_goals first | decide +kernel | exact decOkEq _ _ (by decide +kernel) | exact readyOf _ _ _ (by decide +kernel)⟩,
   ⟨wJ 11914 0 (tagged 4 7) (tagged 1 3), 0, 1, 2, tagged 4 7, tagged 1 3, by
    repeat' apply And.intro
    all_goals first | decide +kernel | exact decOkEq _ _ (by decide +kernel) | exact readyOf _ _ _ (by decide +kernel)⟩,
   ⟨wJ 12106 0 (tagged 4 7) (tagged 1 3), 0, 1, 2, tagged 4 7, tagged 1 3, by
    repeat' apply And.intro
    all_goals first | decide +kernel | exact decOkEq _ _ (by decide +kernel) | exact readyOf _ _ _ (by decide +kernel)⟩⟩

theorem test_meets_AluComputesEveryRowOfItsTable_12 :
    (∃ (s : State) (k : Nat) (d r : BitVec 3) (v w : TWord),
    (s.nextIs k (.or d r) = true) ∧ ((s.scull k).dr d = v) ∧ ((s.scull k).dr r = w) ∧ (((tag4 v).toNat, (tag4 w).toNat) ∉ [(1, 1), (2, 2), (3, 3)])) ∧
    (∃ (s : State) (k : Nat) (d r : BitVec 3) (v w : TWord),
    (s.nextIs k (.xor d r) = true) ∧ ((s.scull k).dr d = v) ∧ ((s.scull k).dr r = w) ∧ (((tag4 v).toNat, (tag4 w).toNat) ∉ [(1, 1), (2, 2), (3, 3)])) ∧
    (∃ (s : State) (k : Nat) (d r : BitVec 3) (v w : TWord),
    (s.nextIs k (.shr d r) = true) ∧ ((s.scull k).dr d = v) ∧ ((s.scull k).dr r = w) ∧ (((tag4 v).toNat, (tag4 w).toNat) ∉ [(1, 1), (2, 1)])) ∧
    (∃ (s : State) (k : Nat) (d r : BitVec 3) (v w : TWord),
    (s.nextIs k (.min d r) = true) ∧ ((s.scull k).dr d = v) ∧ ((s.scull k).dr r = w) ∧ (((tag4 v).toNat, (tag4 w).toNat) ∉ [(1, 1)])) :=
  ⟨⟨wJ 11658 0 (tagged 4 7) (tagged 1 3), 0, 1, 2, tagged 4 7, tagged 1 3, by
    repeat' apply And.intro
    all_goals first | decide +kernel | exact decOkEq _ _ (by decide +kernel) | exact readyOf _ _ _ (by decide +kernel)⟩,
   ⟨wJ 11722 0 (tagged 4 7) (tagged 1 3), 0, 1, 2, tagged 4 7, tagged 1 3, by
    repeat' apply And.intro
    all_goals first | decide +kernel | exact decOkEq _ _ (by decide +kernel) | exact readyOf _ _ _ (by decide +kernel)⟩,
   ⟨wJ 11850 0 (tagged 4 7) (tagged 1 3), 0, 1, 2, tagged 4 7, tagged 1 3, by
    repeat' apply And.intro
    all_goals first | decide +kernel | exact decOkEq _ _ (by decide +kernel) | exact readyOf _ _ _ (by decide +kernel)⟩,
   ⟨wJ 11978 0 (tagged 4 7) (tagged 1 3), 0, 1, 2, tagged 4 7, tagged 1 3, by
    repeat' apply And.intro
    all_goals first | decide +kernel | exact decOkEq _ _ (by decide +kernel) | exact readyOf _ _ _ (by decide +kernel)⟩⟩

theorem test_meets_AluComputesEveryRowOfItsTable_13 :
    (∃ (s : State) (k : Nat) (d r : BitVec 3) (v w : TWord),
    (s.nextIs k (.max d r) = true) ∧ ((s.scull k).dr d = v) ∧ ((s.scull k).dr r = w) ∧ (((tag4 v).toNat, (tag4 w).toNat) ∉ [(1, 1)])) ∧
    (∃ (s : State) (k : Nat) (d r : BitVec 3) (v w : TWord),
    (s.nextIs k (.mkpair d r) = true) ∧ ((s.scull k).dr d = v) ∧ ((s.scull k).dr r = w) ∧ (((tag4 v).toNat, (tag4 w).toNat) ∉ [(1, 1)])) ∧
    (∃ (s : State) (k : Nat) (d r : BitVec 3) (w : TWord),
    (s.nextIs k (.not d r) = true) ∧ ((s.scull k).dr r = w) ∧ ((tag4 w).toNat ∉ [1, 2, 3])) ∧
    (∃ (s : State) (k : Nat) (d : BitVec 3) (imm : BitVec 5) (v : TWord),
    (s.nextIs k (.addi d imm) = true) ∧ ((s.scull k).dr d = v) ∧ ((tag4 v).toNat ∉ [1, 7])) :=
  ⟨⟨wJ 12042 0 (tagged 4 7) (tagged 1 3), 0, 1, 2, tagged 4 7, tagged 1 3, by
    repeat' apply And.intro
    all_goals first | decide +kernel | exact decOkEq _ _ (by decide +kernel) | exact readyOf _ _ _ (by decide +kernel)⟩,
   ⟨wJ 12170 0 (tagged 4 7) (tagged 1 3), 0, 1, 2, tagged 4 7, tagged 1 3, by
    repeat' apply And.intro
    all_goals first | decide +kernel | exact decOkEq _ _ (by decide +kernel) | exact readyOf _ _ _ (by decide +kernel)⟩,
   ⟨wJ 12234 0 0 (tagged 7 5), 0, 1, 2, tagged 7 5, by
    repeat' apply And.intro
    all_goals first | decide +kernel | exact decOkEq _ _ (by decide +kernel) | exact readyOf _ _ _ (by decide +kernel)⟩,
   ⟨wJ 12351 0 (tagged 4 7), 0, 1, 31, tagged 4 7, by
    repeat' apply And.intro
    all_goals first | decide +kernel | exact decOkEq _ _ (by decide +kernel) | exact readyOf _ _ _ (by decide +kernel)⟩⟩

theorem test_meets_AluComputesEveryRowOfItsTable_14 :
    (∃ (s : State) (k : Nat) (d : BitVec 3) (imm : BitVec 5) (v : TWord),
    (s.nextIs k (.shli d imm) = true) ∧ ((s.scull k).dr d = v) ∧ ((tag4 v).toNat ∉ [1, 2])) ∧
    (∃ (s : State) (k : Nat) (d : BitVec 3) (imm : BitVec 5) (v : TWord),
    (s.nextIs k (.shri d imm) = true) ∧ ((s.scull k).dr d = v) ∧ ((tag4 v).toNat ∉ [1, 2])) ∧
    (∃ (s : State) (k : Nat) (d : BitVec 3) (imm : BitVec 5) (v : TWord),
    (s.nextIs k (.sari d imm) = true) ∧ ((s.scull k).dr d = v) ∧ ((tag4 v).toNat ∉ [1])) :=
  ⟨⟨wJ 12607 0 (tagged 4 7), 0, 1, 31, tagged 4 7, by
    repeat' apply And.intro
    all_goals first | decide +kernel | exact decOkEq _ _ (by decide +kernel) | exact readyOf _ _ _ (by decide +kernel)⟩,
   ⟨wJ 12863 0 (tagged 4 7), 0, 1, 31, tagged 4 7, by
    repeat' apply And.intro
    all_goals first | decide +kernel | exact decOkEq _ _ (by decide +kernel) | exact readyOf _ _ _ (by decide +kernel)⟩,
   ⟨wJ 13119 0 (tagged 4 7), 0, 1, 31, tagged 4 7, by
    repeat' apply And.intro
    all_goals first | decide +kernel | exact decOkEq _ _ (by decide +kernel) | exact readyOf _ _ _ (by decide +kernel)⟩⟩

theorem test_meets_MovAndTheAccumulatorsFollowTheirRules_1 :
    (∃ (s : State) (k : Nat) (d r : BitVec 3) (w : TWord),
    (s.nextIs k (.mov (d.setWidth 4) (r.setWidth 4)) = true) ∧ ((s.scull k).dr r = w)) ∧
    (∃ (s : State) (k : Nat) (a : BitVec 2) (r : BitVec 3) (w : TWord),
    (s.nextIs k (.mov (8 + a.setWidth 4) (r.setWidth 4)) = true) ∧ ((s.scull k).dr r = w) ∧ (tag4 w = 4)) ∧
    (∃ (s : State) (k : Nat) (a : BitVec 2) (r : BitVec 3) (w : TWord),
    (s.nextIs k (.mov (8 + a.setWidth 4) (r.setWidth 4)) = true) ∧ ((s.scull k).dr r = w) ∧ (tag4 w ≠ 4)) ∧
    (∃ (s : State) (k : Nat) (d : BitVec 3) (a : BitVec 2) (w : TWord),
    (s.nextIs k (.mov (d.setWidth 4) (8 + a.setWidth 4)) = true) ∧ ((s.scull k).ar a = some w)) :=
  ⟨⟨wJ 15378 0 0 (tagged 6 9), 0, 1, 2, tagged 6 9, by
    repeat' apply And.intro
    all_goals first | decide +kernel | exact decOkEq _ _ (by decide +kernel) | exact readyOf _ _ _ (by decide +kernel)⟩,
   ⟨wJ 15490 0 0 (tagged 4 9), 0, 0, 2, tagged 4 9, by
    repeat' apply And.intro
    all_goals first | decide +kernel | exact decOkEq _ _ (by decide +kernel) | exact readyOf _ _ _ (by decide +kernel)⟩,
   ⟨wJ 15490 0 0 (tagged 6 9), 0, 0, 2, tagged 6 9, by
    repeat' apply And.intro
    all_goals first | decide +kernel | exact decOkEq _ _ (by decide +kernel) | exact readyOf _ _ _ (by decide +kernel)⟩,
   ⟨(wJ 15385 0).updScull 0 (·.setA 1 (tagged 4 9)), 0, 1, 1, tagged 4 9, by
    repeat' apply And.intro
    all_goals first | decide +kernel | exact decOkEq _ _ (by decide +kernel) | exact readyOf _ _ _ (by decide +kernel)⟩⟩

theorem test_meets_MovAndTheAccumulatorsFollowTheirRules_2 :
    (∃ (s : State) (k : Nat) (d : BitVec 3) (a : BitVec 2),
    (s.nextIs k (.mov (d.setWidth 4) (8 + a.setWidth 4)) = true) ∧ ((s.scull k).ar a = none)) ∧
    (∃ (s : State) (k : Nat) (a b : BitVec 2) (w : TWord),
    (s.nextIs k (.mov (8 + a.setWidth 4) (8 + b.setWidth 4)) = true) ∧ ((s.scull k).ar b = some w) ∧ (tag4 w = 4)) ∧
    (∃ (s : State) (k : Nat) (d : BitVec 3) (x : BitVec 1) (v : BitVec 64),
    (s.nextIs k (.mov (d.setWidth 4) (12 + x.setWidth 4)) = true) ∧ ((s.scull k).acc x.toNat = v) ∧ (-2 ^ 31 ≤ v.toInt) ∧ (v.toInt < 2 ^ 31)) ∧
    (∃ (s : State) (k : Nat) (d : BitVec 3) (x : BitVec 1) (v : BitVec 64),
    (s.nextIs k (.mov (d.setWidth 4) (12 + x.setWidth 4)) = true) ∧ ((s.scull k).acc x.toNat = v) ∧ (¬ (-2 ^ 31 ≤ v.toInt ∧ v.toInt < 2 ^ 31))) :=
  ⟨⟨wJ 15385 0, 0, 1, 1, by
    repeat' apply And.intro
    all_goals first | decide +kernel | exact decOkEq _ _ (by decide +kernel) | exact readyOf _ _ _ (by decide +kernel)⟩,
   ⟨(wJ 15497 0).updScull 0 (·.setA 1 (tagged 4 9)), 0, 0, 1, tagged 4 9, by
    repeat' apply And.intro
    all_goals first | decide +kernel | exact decOkEq _ _ (by decide +kernel) | exact readyOf _ _ _ (by decide +kernel)⟩,
   ⟨(wJ 15389 0).updScull 0 (·.setAcc 1 0xFFFFFFFF80000000), 0, 1, 1, 0xFFFFFFFF80000000, by
    repeat' apply And.intro
    all_goals first | decide +kernel | exact decOkEq _ _ (by decide +kernel) | exact readyOf _ _ _ (by decide +kernel)⟩,
   ⟨(wJ 15389 0).updScull 0 (·.setAcc 1 0x80000000), 0, 1, 1, 0x80000000, by
    repeat' apply And.intro
    all_goals first | decide +kernel | exact decOkEq _ _ (by decide +kernel) | exact readyOf _ _ _ (by decide +kernel)⟩⟩

theorem test_meets_MovAndTheAccumulatorsFollowTheirRules_3 :
    (∃ (s : State) (k : Nat) (x : BitVec 1) (r : BitVec 3) (v : BitVec 32),
    (s.nextIs k (.mov (12 + x.setWidth 4) (r.setWidth 4)) = true) ∧ ((s.scull k).dr r = tagged 1 v)) ∧
    (∃ (s : State) (k : Nat) (x : BitVec 1) (r : BitVec 3) (w : TWord),
    (s.nextIs k (.mov (12 + x.setWidth 4) (r.setWidth 4)) = true) ∧ ((s.scull k).dr r = w) ∧ (tag4 w ≠ 1)) ∧
    (∃ (s : State) (k : Nat) (x y : BitVec 1) (v : BitVec 64),
    (s.nextIs k (.mov (12 + x.setWidth 4) (12 + y.setWidth 4)) = true) ∧ ((s.scull k).acc y.toNat = v)) ∧
    (∃ (s : State) (k : Nat) (x : BitVec 1) (a : BitVec 2),
    (s.nextIs k (.mov (12 + x.setWidth 4) (8 + a.setWidth 4)) = true)) :=
  ⟨⟨wJ 15554 0 0 (tagged 1 9), 0, 0, 2, 9, by
    repeat' apply And.intro
    all_goals first | decide +kernel | exact decOkEq _ _ (by decide +kernel) | exact readyOf _ _ _ (by decide +kernel)⟩,
   ⟨wJ 15554 0 0 (tagged 2 9), 0, 0, 2, tagged 2 9, by
    repeat' apply And.intro
    all_goals first | decide +kernel | exact decOkEq _ _ (by decide +kernel) | exact readyOf _ _ _ (by decide +kernel)⟩,
   ⟨(wJ 15565 0).updScull 0 (·.setAcc 1 5), 0, 0, 1, 5, by
    repeat' apply And.intro
    all_goals first | decide +kernel | exact decOkEq _ _ (by decide +kernel) | exact readyOf _ _ _ (by decide +kernel)⟩,
   ⟨wJ 15561 0, 0, 0, 1, by
    repeat' apply And.intro
    all_goals first | decide +kernel | exact decOkEq _ _ (by decide +kernel) | exact readyOf _ _ _ (by decide +kernel)⟩⟩

theorem test_meets_MovAndTheAccumulatorsFollowTheirRules_4 :
    (∃ (s : State) (k : Nat) (x : BitVec 1) (a : BitVec 2),
    (s.nextIs k (.mov (8 + a.setWidth 4) (12 + x.setWidth 4)) = true)) ∧
    (∃ (s : State) (k : Nat) (x : BitVec 1) (r t : BitVec 3) (v w : BitVec 32) (c : BitVec 64),
    (s.nextIs k (.mac x r t) = true) ∧ ((s.scull k).dr r = tagged 1 v) ∧ ((s.scull k).dr t = tagged 1 w) ∧ ((s.scull k).acc x.toNat = c)) ∧
    (∃ (s : State) (k : Nat) (x : BitVec 1) (r t : BitVec 3) (a b e g : BitVec 16) (c : BitVec 64),
    (s.nextIs k (.mac x r t) = true) ∧ ((s.scull k).dr r = tagged 3 (a ++ b)) ∧ ((s.scull k).dr t = tagged 3 (e ++ g)) ∧ ((s.scull k).acc x.toNat = c)) ∧
    (∃ (s : State) (k : Nat) (x : BitVec 1) (r t : BitVec 3) (v w : TWord),
    (s.nextIs k (.mac x r t) = true) ∧ ((s.scull k).dr r = v) ∧ ((s.scull k).dr t = w) ∧ (¬ (tag4 v = 1 ∧ tag4 w = 1)) ∧ (¬ (tag4 v = 3 ∧ tag4 w = 3))) :=
  ⟨⟨wJ 15501 0, 0, 1, 0, by
    repeat' apply And.intro
    all_goals first | decide +kernel | exact decOkEq _ _ (by decide +kernel) | exact readyOf _ _ _ (by decide +kernel)⟩,
   ⟨(wJ 16330 0 (tagged 1 0xFFFFFFFF) (tagged 1 2)).updScull 0 (·.setAcc 1 5), 0, 1, 1, 2, 0xFFFFFFFF, 2, 5, by
    repeat' apply And.intro
    all_goals first | decide +kernel | exact decOkEq _ _ (by decide +kernel) | exact readyOf _ _ _ (by decide +kernel)⟩,
   ⟨(wJ 16330 0 (tagged 3 ((0xFFFF : BitVec 16) ++ (2 : BitVec 16))) (tagged 3 ((5 : BitVec 16) ++ (7 : BitVec 16)))).updScull 0 (·.setAcc 1 5), 0, 1, 1, 2, 0xFFFF, 2, 5, 7, 5, by
    repeat' apply And.intro
    all_goals first | decide +kernel | exact decOkEq _ _ (by decide +kernel) | exact readyOf _ _ _ (by decide +kernel)⟩,
   ⟨wJ 16330 0 (tagged 3 7) (tagged 1 2), 0, 1, 1, 2, tagged 3 7, tagged 1 2, by
    repeat' apply And.intro
    all_goals first | decide +kernel | exact decOkEq _ _ (by decide +kernel) | exact readyOf _ _ _ (by decide +kernel)⟩⟩

theorem test_meets_MovAndTheAccumulatorsFollowTheirRules_5 :
    (∃ (s : State) (k : Nat) (x : BitVec 1) (r : BitVec 3) (v : BitVec 32) (c : BitVec 64),
    (s.nextIs k (.acadd x r) = true) ∧ ((s.scull k).dr r = tagged 1 v) ∧ ((s.scull k).acc x.toNat = c)) ∧
    (∃ (s : State) (k : Nat) (x : BitVec 1) (r : BitVec 3) (w : TWord),
    (s.nextIs k (.acadd x r) = true) ∧ ((s.scull k).dr r = w) ∧ (tag4 w ≠ 1)) :=
  ⟨⟨(wJ 13737 0 (tagged 1 0xFFFFFFFF)).updScull 0 (·.setAcc 1 5), 0, 1, 1, 0xFFFFFFFF, 5, by
    repeat' apply And.intro
    all_goals first | decide +kernel | exact decOkEq _ _ (by decide +kernel) | exact readyOf _ _ _ (by decide +kernel)⟩,
   ⟨wJ 13737 0 (tagged 2 1), 0, 1, 1, tagged 2 1, by
    repeat' apply And.intro
    all_goals first | decide +kernel | exact decOkEq _ _ (by decide +kernel) | exact readyOf _ _ _ (by decide +kernel)⟩⟩

theorem test_meets_ConstantsAreMadeByMoviMovwAndMovt_1 :
    (∃ (s : State) (k : Nat) (d : BitVec 3) (imm : BitVec 8),
    (s.nextIs k (.movi d imm) = true)) ∧
    (∃ (s : State) (k : Nat) (d : BitVec 3) (w : BitVec 14),
    (s.nextIs k (.movw d w) = true)) ∧
    (∃ (s : State) (k : Nat) (d : BitVec 3) (w : BitVec 14) (v : BitVec 32),
    (s.nextIs k (.movt d w) = true) ∧ ((s.scull k).dr d = tagged 1 v)) ∧
    (∃ (s : State) (k : Nat) (d : BitVec 3) (w : BitVec 14) (v : TWord),
    (s.nextIs k (.movt d w) = true) ∧ ((s.scull k).dr d = v) ∧ (tag4 v ≠ 1)) :=
  ⟨⟨wJ 8703 0, 0, 1, 0xFF, by
    repeat' apply And.intro
    all_goals first | decide +kernel | exact decOkEq _ _ (by decide +kernel) | exact readyOf _ _ _ (by decide +kernel)⟩,
   ⟨wJ 15201 0x3FFF, 0, 1, 0x3FFF, by
    repeat' apply And.intro
    all_goals first | decide +kernel | exact decOkEq _ _ (by decide +kernel) | exact readyOf _ _ _ (by decide +kernel)⟩,
   ⟨wJ 15233 5 (tagged 1 7), 0, 1, 5, 7, by
    repeat' apply And.intro
    all_goals first | decide +kernel | exact decOkEq _ _ (by decide +kernel) | exact readyOf _ _ _ (by decide +kernel)⟩,
   ⟨wJ 15233 5 (tagged 2 7), 0, 1, 5, tagged 2 7, by
    repeat' apply And.intro
    all_goals first | decide +kernel | exact decOkEq _ _ (by decide +kernel) | exact readyOf _ _ _ (by decide +kernel)⟩⟩

theorem test_meets_ConstantsAreMadeByMoviMovwAndMovt_2 :
    (∃ (v : BitVec 32) (x : BitVec 14),
    (x = (v.sshiftRight 28).setWidth 14)) ∧
    (∃ (s : State) (k : Nat) (d : BitVec 3) (short : BitVec 8) (v : TWord),
    (s.nextIs k (.ldl d short) = true) ∧ (Mem.get poison (s.scull k).mem ((s.scull k).dpg.toNat * 256 + short.toNat) = v) ∧ ((tag4 v).toNat ∉ [8, 9, 10, 11, 12, 13, 15])) ∧
    (∃ (s : State) (k : Nat),
    ((s.scull k).word (s.scull k).pc.toNat ∈ [15201, 15233])) :=
  ⟨⟨0x80000001, 0x3FF8, by
    repeat' apply And.intro
    all_goals first | decide +kernel | exact decOkEq _ _ (by decide +kernel) | exact readyOf _ _ _ (by decide +kernel)⟩,
   ⟨(wJ 260 0).updScull 0 (·.setLocal 4 (tagged 6 9)), 0, 1, 4, tagged 6 9, by
    repeat' apply And.intro
    all_goals first | decide +kernel | exact decOkEq _ _ (by decide +kernel) | exact readyOf _ _ _ (by decide +kernel)⟩,
   ⟨wJ 15233 0, 0, by
    repeat' apply And.intro
    all_goals first | decide +kernel | exact decOkEq _ _ (by decide +kernel) | exact readyOf _ _ _ (by decide +kernel)⟩⟩

theorem test_meets_TagsAreReadAndReplaced_1 :
    (∃ (s : State) (k : Nat) (d : BitVec 3) (t u : BitVec 4) (v : BitVec 32),
    (s.nextIs k (.retag d t) = true) ∧ ((s.scull k).dr d = u ++ v) ∧ (u.toNat ∈ [0, 1, 2, 3, 7, 14]) ∧ (t.toNat ∈ [0, 1, 2, 3, 7, 14])) ∧
    (∃ (s : State) (k : Nat) (d : BitVec 3) (t u : BitVec 4) (v : BitVec 32),
    (s.nextIs k (.retag d t) = true) ∧ ((s.scull k).dr d = u ++ v) ∧ (¬ (u.toNat ∈ [0, 1, 2, 3, 7, 14] ∧ t.toNat ∈ [0, 1, 2, 3, 7, 14]))) ∧
    (∃ (s : State) (k : Nat) (d r : BitVec 3) (u : BitVec 4) (v : BitVec 32),
    (s.nextIs k (.gettag d r) = true) ∧ ((s.scull k).dr r = u ++ v)) ∧
    (∃ (s : State) (k : Nat) (d : BitVec 3) (a : BitVec 2) (p : TWord),
    (s.nextIs k (.aoff d a) = true) ∧ ((s.scull k).ar a = some p)) :=
  ⟨⟨wJ 15634 0 (tagged 14 7), 0, 1, 2, 14, 7, by
    repeat' apply And.intro
    all_goals first | decide +kernel | exact decOkEq _ _ (by decide +kernel) | exact readyOf _ _ _ (by decide +kernel)⟩,
   ⟨wJ 15634 0 (tagged 4 7), 0, 1, 2, 4, 7, by
    repeat' apply And.intro
    all_goals first | decide +kernel | exact decOkEq _ _ (by decide +kernel) | exact readyOf _ _ _ (by decide +kernel)⟩,
   ⟨wJ 16138 0 0 (tagged 6 7), 0, 1, 2, 6, 7, by
    repeat' apply And.intro
    all_goals first | decide +kernel | exact decOkEq _ _ (by decide +kernel) | exact readyOf _ _ _ (by decide +kernel)⟩,
   ⟨(wJ 16197 0).updScull 0 (·.setA 1 (mkPtr 0 2 5)), 0, 1, 1, mkPtr 0 2 5, by
    repeat' apply And.intro
    all_goals first | decide +kernel | exact decOkEq _ _ (by decide +kernel) | exact readyOf _ _ _ (by decide +kernel)⟩⟩

theorem test_meets_TagsAreReadAndReplaced_2 :
    (∃ (s : State) (k : Nat) (d : BitVec 3) (a : BitVec 2) (p : TWord) (e : Win),
    (s.nextIs k (.arem d a) = true) ∧ ((s.scull k).ar a = some p) ∧ ((s.scull k).entry p = some e)) ∧
    (∃ (s : State) (k : Nat) (d : BitVec 3) (a : BitVec 2),
    (s.nextIs k (.aoff d a) = true) ∧ ((s.scull k).ar a = none)) :=
  ⟨⟨(wJ 16229 0).updScull 0 (fun c => { c.setA 1 (mkPtr 0 2 5) with wins := [(2, { live := true, len := 9 })] }), 0, 1, 1, mkPtr 0 2 5, { live := true, len := 9 }, by
    repeat' apply And.intro
    all_goals first | decide +kernel | exact decOkEq _ _ (by decide +kernel) | exact readyOf _ _ _ (by decide +kernel)⟩,
   ⟨wJ 16197 0, 0, 1, 1, by
    repeat' apply And.intro
    all_goals first | decide +kernel | exact decOkEq _ _ (by decide +kernel) | exact readyOf _ _ _ (by decide +kernel)⟩⟩

theorem test_meets_SpecialRegistersAndAccumulatorControl_1 :
    (∃ (s : State) (k : Nat) (d : BitVec 3),
    (s.nextIs k (.rdspr d 0) = true)) ∧
    (∃ (s : State) (k : Nat) (d : BitVec 3),
    (s.nextIs k (.rdspr d 1) = true)) ∧
    (∃ (s : State) (k : Nat) (d : BitVec 3),
    (s.nextIs k (.rdspr d 2) = true)) ∧
    (∃ (s : State) (k : Nat) (d : BitVec 3),
    (s.nextIs k (.rdspr d 3) = true)) :=
  ⟨⟨wJ 15760 0, 0, 1, by
    repeat' apply And.intro
    all_goals first | decide +kernel | exact decOkEq _ _ (by decide +kernel) | exact readyOf _ _ _ (by decide +kernel)⟩,
   ⟨wJ 15761 0, 0, 1, by
    repeat' apply And.intro
    all_goals first | decide +kernel | exact decOkEq _ _ (by decide +kernel) | exact readyOf _ _ _ (by decide +kernel)⟩,
   ⟨wJ 15762 0, 0, 1, by
    repeat' apply And.intro
    all_goals first | decide +kernel | exact decOkEq _ _ (by decide +kernel) | exact readyOf _ _ _ (by decide +kernel)⟩,
   ⟨wJ 15763 0, 0, 1, by
    repeat' apply And.intro
    all_goals first | decide +kernel | exact decOkEq _ _ (by decide +kernel) | exact readyOf _ _ _ (by decide +kernel)⟩⟩

theorem test_meets_SpecialRegistersAndAccumulatorControl_2 :
    (∃ (s : State) (k : Nat) (d : BitVec 3),
    (s.nextIs k (.rdspr d 4) = true)) ∧
    (∃ (s : State) (k : Nat) (d : BitVec 3),
    (s.nextIs k (.rdspr d 5) = true)) ∧
    (∃ (s : State) (k : Nat) (d : BitVec 3),
    (s.nextIs k (.rdspr d 7) = true)) ∧
    (∃ (s : State) (k : Nat) (d : BitVec 3),
    (s.nextIs k (.rdspr d 8) = true)) :=
  ⟨⟨wJ 15764 0, 0, 1, by
    repeat' apply And.intro
    all_goals first | decide +kernel | exact decOkEq _ _ (by decide +kernel) | exact readyOf _ _ _ (by decide +kernel)⟩,
   ⟨wJ 15765 0, 0, 1, by
    repeat' apply And.intro
    all_goals first | decide +kernel | exact decOkEq _ _ (by decide +kernel) | exact readyOf _ _ _ (by decide +kernel)⟩,
   ⟨wJ 15767 0, 0, 1, by
    repeat' apply And.intro
    all_goals first | decide +kernel | exact decOkEq _ _ (by decide +kernel) | exact readyOf _ _ _ (by decide +kernel)⟩,
   ⟨wJ 15768 0, 0, 1, by
    repeat' apply And.intro
    all_goals first | decide +kernel | exact decOkEq _ _ (by decide +kernel) | exact readyOf _ _ _ (by decide +kernel)⟩⟩

theorem test_meets_SpecialRegistersAndAccumulatorControl_3 :
    (∃ (s : State) (k : Nat) (d : BitVec 3),
    (s.nextIs k (.rdspr d 9) = true)) ∧
    (∃ (s : State) (k : Nat) (d : BitVec 3),
    (s.nextIs k (.rdspr d 6) = true)) ∧
    (∃ (s : State) (k : Nat) (x : BitVec 1) (n : BitVec 5) (v : BitVec 64),
    (s.nextIs k (.acshr x n) = true) ∧ ((s.scull k).acc x.toNat = v)) ∧
    (∃ (s : State) (k : Nat) (x : BitVec 1),
    (s.nextIs k (.acclr x) = true)) :=
  ⟨⟨wJ 15769 0, 0, 1, by
    repeat' apply And.intro
    all_goals first | decide +kernel | exact decOkEq _ _ (by decide +kernel) | exact readyOf _ _ _ (by decide +kernel)⟩,
   ⟨wJ 15766 0, 0, 1, by
    repeat' apply And.intro
    all_goals first | decide +kernel | exact decOkEq _ _ (by decide +kernel) | exact readyOf _ _ _ (by decide +kernel)⟩,
   ⟨(wJ 13695 0).updScull 0 (·.setAcc 1 0xFFFFFFFFFFFFFFFB), 0, 1, 31, 0xFFFFFFFFFFFFFFFB, by
    repeat' apply And.intro
    all_goals first | decide +kernel | exact decOkEq _ _ (by decide +kernel) | exact readyOf _ _ _ (by decide +kernel)⟩,
   ⟨wJ 13798 0, 0, 1, by
    repeat' apply And.intro
    all_goals first | decide +kernel | exact decOkEq _ _ (by decide +kernel) | exact readyOf _ _ _ (by decide +kernel)⟩⟩

theorem test_meets_SpecialRegistersAndAccumulatorControl_4 :
    (∃ (s : State) (k : Nat) (page : BitVec 6),
    (s.nextIs k (.setdpg page) = true)) ∧
    (∃ (s : State) (k : Nat) (r : BitVec 3) (v : BitVec 32),
    (s.nextIs k (.setxpg r) = true) ∧ ((s.scull k).dr r = tagged 1 v) ∧ (v.toNat ≤ 255)) ∧
    (∃ (s : State) (k : Nat) (r : BitVec 3) (v : BitVec 32),
    (s.nextIs k (.setxpg r) = true) ∧ ((s.scull k).dr r = tagged 1 v) ∧ (255 < v.toNat)) ∧
    (∃ (s : State) (k : Nat) (r : BitVec 3) (w : TWord),
    (s.nextIs k (.setxpg r) = true) ∧ ((s.scull k).dr r = w) ∧ (tag4 w ≠ 1)) :=
  ⟨⟨wJ 13631 0, 0, 63, by
    repeat' apply And.intro
    all_goals first | decide +kernel | exact decOkEq _ _ (by decide +kernel) | exact readyOf _ _ _ (by decide +kernel)⟩,
   ⟨wJ 13705 0 (tagged 1 255), 0, 1, 255, by
    repeat' apply And.intro
    all_goals first | decide +kernel | exact decOkEq _ _ (by decide +kernel) | exact readyOf _ _ _ (by decide +kernel)⟩,
   ⟨wJ 13705 0 (tagged 1 256), 0, 1, 256, by
    repeat' apply And.intro
    all_goals first | decide +kernel | exact decOkEq _ _ (by decide +kernel) | exact readyOf _ _ _ (by decide +kernel)⟩,
   ⟨wJ 13705 0 (tagged 7 2), 0, 1, tagged 7 2, by
    repeat' apply And.intro
    all_goals first | decide +kernel | exact decOkEq _ _ (by decide +kernel) | exact readyOf _ _ _ (by decide +kernel)⟩⟩

theorem test_meets_SpecialRegistersAndAccumulatorControl_5 :
    (∃ (s : State) (k : Nat),
    (s.nextIs k (.nop) = true)) ∧
    (∃ (s : State) (k : Nat) (n : BitVec 4),
    (s.nextIs k (.trap n) = true)) :=
  ⟨⟨wJ 13792 0, 0, by
    repeat' apply And.intro
    all_goals first | decide +kernel | exact decOkEq _ _ (by decide +kernel) | exact readyOf _ _ _ (by decide +kernel)⟩,
   ⟨wJ 13781 0, 0, 5, by
    repeat' apply And.intro
    all_goals first | decide +kernel | exact decOkEq _ _ (by decide +kernel) | exact readyOf _ _ _ (by decide +kernel)⟩⟩

theorem test_meets_BranchesTestWhatTheyName_1 :
    (∃ (s : State) (k t : Nat) (d : BitVec 3) (off : BitVec 5) (v : BitVec 32),
    (s.nextIs k (.beqz d off) = true) ∧ (t = 1 ∨ t = 7) ∧ ((s.scull k).dr d = tagged t v)) ∧
    (∃ (s : State) (k : Nat) (d : BitVec 3) (off : BitVec 5) (w : TWord),
    (s.nextIs k (.beqz d off) = true) ∧ ((s.scull k).dr d = w) ∧ (tag4 w ≠ 1) ∧ (tag4 w ≠ 7)) ∧
    (∃ (s : State) (k t : Nat) (d : BitVec 3) (off : BitVec 5) (v : BitVec 32),
    (s.nextIs k (.bnez d off) = true) ∧ (t = 1 ∨ t = 7) ∧ ((s.scull k).dr d = tagged t v)) ∧
    (∃ (s : State) (k : Nat) (d : BitVec 3) (off : BitVec 5) (w : TWord),
    (s.nextIs k (.bnez d off) = true) ∧ ((s.scull k).dr d = w) ∧ (tag4 w ≠ 1) ∧ (tag4 w ≠ 7)) :=
  ⟨⟨wJ 10371 0 (tagged 7 0), 0, 7, 1, 3, 0, by
    repeat' apply And.intro
    all_goals first | decide +kernel | exact decOkEq _ _ (by decide +kernel) | exact readyOf _ _ _ (by decide +kernel)⟩,
   ⟨wJ 10371 0 (tagged 2 0), 0, 1, 3, tagged 2 0, by
    repeat' apply And.intro
    all_goals first | decide +kernel | exact decOkEq _ _ (by decide +kernel) | exact readyOf _ _ _ (by decide +kernel)⟩,
   ⟨wJ 10403 0 (tagged 7 5), 0, 7, 1, 3, 5, by
    repeat' apply And.intro
    all_goals first | decide +kernel | exact decOkEq _ _ (by decide +kernel) | exact readyOf _ _ _ (by decide +kernel)⟩,
   ⟨wJ 10403 0 (tagged 2 0), 0, 1, 3, tagged 2 0, by
    repeat' apply And.intro
    all_goals first | decide +kernel | exact decOkEq _ _ (by decide +kernel) | exact readyOf _ _ _ (by decide +kernel)⟩⟩

theorem test_meets_BranchesTestWhatTheyName_2 :
    (∃ (s : State) (k t : Nat) (d : BitVec 3) (off : BitVec 5) (v : BitVec 32),
    (s.nextIs k (.bltz d off) = true) ∧ (t = 1 ∨ t = 7) ∧ ((s.scull k).dr d = tagged t v)) ∧
    (∃ (s : State) (k : Nat) (d : BitVec 3) (off : BitVec 5) (w : TWord),
    (s.nextIs k (.bltz d off) = true) ∧ ((s.scull k).dr d = w) ∧ (tag4 w ≠ 1) ∧ (tag4 w ≠ 7)) ∧
    (∃ (s : State) (k t : Nat) (d : BitVec 3) (off : BitVec 5) (v : BitVec 32),
    (s.nextIs k (.bgez d off) = true) ∧ (t = 1 ∨ t = 7) ∧ ((s.scull k).dr d = tagged t v)) ∧
    (∃ (s : State) (k : Nat) (d : BitVec 3) (off : BitVec 5) (w : TWord),
    (s.nextIs k (.bgez d off) = true) ∧ ((s.scull k).dr d = w) ∧ (tag4 w ≠ 1) ∧ (tag4 w ≠ 7)) :=
  ⟨⟨wJ 10435 0 (tagged 7 0x80000000), 0, 7, 1, 3, 0x80000000, by
    repeat' apply And.intro
    all_goals first | decide +kernel | exact decOkEq _ _ (by decide +kernel) | exact readyOf _ _ _ (by decide +kernel)⟩,
   ⟨wJ 10435 0 (tagged 2 0), 0, 1, 3, tagged 2 0, by
    repeat' apply And.intro
    all_goals first | decide +kernel | exact decOkEq _ _ (by decide +kernel) | exact readyOf _ _ _ (by decide +kernel)⟩,
   ⟨wJ 10467 0 (tagged 7 0x7FFFFFFF), 0, 7, 1, 3, 0x7FFFFFFF, by
    repeat' apply And.intro
    all_goals first | decide +kernel | exact decOkEq _ _ (by decide +kernel) | exact readyOf _ _ _ (by decide +kernel)⟩,
   ⟨wJ 10467 0 (tagged 2 0), 0, 1, 3, tagged 2 0, by
    repeat' apply And.intro
    all_goals first | decide +kernel | exact decOkEq _ _ (by decide +kernel) | exact readyOf _ _ _ (by decide +kernel)⟩⟩

theorem test_meets_BranchesTestWhatTheyName_3 :
    (∃ (s : State) (k t : Nat) (d r : BitVec 3) (w : BitVec 14) (x y : BitVec 32),
    (s.nextIs k (.beq d r w) = true) ∧ (t ∈ [0, 1, 2, 3, 7, 14]) ∧ ((s.scull k).dr d = tagged t x) ∧ ((s.scull k).dr r = tagged t y)) ∧
    (∃ (s : State) (k t : Nat) (d r : BitVec 3) (w : BitVec 14) (x y : BitVec 32),
    (s.nextIs k (.bne d r w) = true) ∧ (t ∈ [0, 1, 2, 3, 7, 14]) ∧ ((s.scull k).dr d = tagged t x) ∧ ((s.scull k).dr r = tagged t y)) ∧
    (∃ (s : State) (k : Nat) (d r : BitVec 3) (w : BitVec 14) (x y : BitVec 32),
    (s.nextIs k (.blt d r w) = true) ∧ ((s.scull k).dr d = tagged 1 x) ∧ ((s.scull k).dr r = tagged 1 y)) ∧
    (∃ (s : State) (k : Nat) (d r : BitVec 3) (w : BitVec 14) (x y : BitVec 32),
    (s.nextIs k (.bge d r w) = true) ∧ ((s.scull k).dr d = tagged 1 x) ∧ ((s.scull k).dr r = tagged 1 y)) :=
  ⟨⟨wJ 14346 5 (tagged 14 7) (tagged 14 7), 0, 14, 1, 2, 5, 7, 7, by
    repeat' apply And.intro
    all_goals first | decide +kernel | exact decOkEq _ _ (by decide +kernel) | exact readyOf _ _ _ (by decide +kernel)⟩,
   ⟨wJ 14410 5 (tagged 14 7) (tagged 14 7), 0, 14, 1, 2, 5, 7, 7, by
    repeat' apply And.intro
    all_goals first | decide +kernel | exact decOkEq _ _ (by decide +kernel) | exact readyOf _ _ _ (by decide +kernel)⟩,
   ⟨wJ 14474 5 (tagged 1 0x80000000) (tagged 1 0x7FFFFFFF), 0, 1, 2, 5, 0x80000000, 0x7FFFFFFF, by
    repeat' apply And.intro
    all_goals first | decide +kernel | exact decOkEq _ _ (by decide +kernel) | exact readyOf _ _ _ (by decide +kernel)⟩,
   ⟨wJ 14538 5 (tagged 1 0x80000000) (tagged 1 0x7FFFFFFF), 0, 1, 2, 5, 0x80000000, 0x7FFFFFFF, by
    repeat' apply And.intro
    all_goals first | decide +kernel | exact decOkEq _ _ (by decide +kernel) | exact readyOf _ _ _ (by decide +kernel)⟩⟩

theorem test_meets_BranchesTestWhatTheyName_4 :
    (∃ (s : State) (k : Nat) (d r : BitVec 3) (w : BitVec 14) (x y : BitVec 32),
    (s.nextIs k (.bltu d r w) = true) ∧ ((s.scull k).dr d = tagged 1 x) ∧ ((s.scull k).dr r = tagged 1 y)) ∧
    (∃ (s : State) (k : Nat) (d r : BitVec 3) (w : BitVec 14) (x y : BitVec 32),
    (s.nextIs k (.bgeu d r w) = true) ∧ ((s.scull k).dr d = tagged 1 x) ∧ ((s.scull k).dr r = tagged 1 y)) ∧
    (∃ (s : State) (k : Nat) (d r : BitVec 3) (w : BitVec 14) (x y : BitVec 32),
    (s.nextIs k (.blt d r w) = true) ∧ ((s.scull k).dr d = tagged 7 x) ∧ ((s.scull k).dr r = tagged 7 y)) ∧
    (∃ (s : State) (k : Nat) (d r : BitVec 3) (w : BitVec 14) (x y : BitVec 32),
    (s.nextIs k (.bge d r w) = true) ∧ ((s.scull k).dr d = tagged 7 x) ∧ ((s.scull k).dr r = tagged 7 y)) :=
  ⟨⟨wJ 14602 5 (tagged 1 0x80000000) (tagged 1 0x7FFFFFFF), 0, 1, 2, 5, 0x80000000, 0x7FFFFFFF, by
    repeat' apply And.intro
    all_goals first | decide +kernel | exact decOkEq _ _ (by decide +kernel) | exact readyOf _ _ _ (by decide +kernel)⟩,
   ⟨wJ 14666 5 (tagged 1 0x80000000) (tagged 1 0x7FFFFFFF), 0, 1, 2, 5, 0x80000000, 0x7FFFFFFF, by
    repeat' apply And.intro
    all_goals first | decide +kernel | exact decOkEq _ _ (by decide +kernel) | exact readyOf _ _ _ (by decide +kernel)⟩,
   ⟨wJ 14474 5 (tagged 7 5) (tagged 7 0xFFFFFFFF), 0, 1, 2, 5, 5, 0xFFFFFFFF, by
    repeat' apply And.intro
    all_goals first | decide +kernel | exact decOkEq _ _ (by decide +kernel) | exact readyOf _ _ _ (by decide +kernel)⟩,
   ⟨wJ 14538 5 (tagged 7 5) (tagged 7 0xFFFFFFFF), 0, 1, 2, 5, 5, 0xFFFFFFFF, by
    repeat' apply And.intro
    all_goals first | decide +kernel | exact decOkEq _ _ (by decide +kernel) | exact readyOf _ _ _ (by decide +kernel)⟩⟩

theorem test_meets_BranchesTestWhatTheyName_5 :
    (∃ (s : State) (k : Nat) (d r : BitVec 3) (w : BitVec 14) (x y : TWord),
    (s.nextIs k (.beq d r w) = true) ∧ ((s.scull k).dr d = x) ∧ ((s.scull k).dr r = y) ∧ (¬ (tag4 x = tag4 y ∧ (tag4 x).toNat ∈ [0, 1, 2, 3, 7, 14]))) ∧
    (∃ (s : State) (k : Nat) (d r : BitVec 3) (w : BitVec 14) (x y : TWord),
    (s.nextIs k (.bne d r w) = true) ∧ ((s.scull k).dr d = x) ∧ ((s.scull k).dr r = y) ∧ (¬ (tag4 x = tag4 y ∧ (tag4 x).toNat ∈ [0, 1, 2, 3, 7, 14]))) ∧
    (∃ (s : State) (k : Nat) (d r : BitVec 3) (w : BitVec 14) (x y : TWord),
    (s.nextIs k (.blt d r w) = true) ∧ ((s.scull k).dr d = x) ∧ ((s.scull k).dr r = y) ∧ (¬ (tag4 x = 1 ∧ tag4 y = 1 ∨ tag4 x = 7 ∧ tag4 y = 7))) ∧
    (∃ (s : State) (k : Nat) (d r : BitVec 3) (w : BitVec 14) (x y : TWord),
    (s.nextIs k (.bge d r w) = true) ∧ ((s.scull k).dr d = x) ∧ ((s.scull k).dr r = y) ∧ (¬ (tag4 x = 1 ∧ tag4 y = 1 ∨ tag4 x = 7 ∧ tag4 y = 7))) :=
  ⟨⟨wJ 14346 5 (tagged 4 5) (tagged 4 5), 0, 1, 2, 5, tagged 4 5, tagged 4 5, by
    repeat' apply And.intro
    all_goals first | decide +kernel | exact decOkEq _ _ (by decide +kernel) | exact readyOf _ _ _ (by decide +kernel)⟩,
   ⟨wJ 14410 5 (tagged 4 5) (tagged 4 5), 0, 1, 2, 5, tagged 4 5, tagged 4 5, by
    repeat' apply And.intro
    all_goals first | decide +kernel | exact decOkEq _ _ (by decide +kernel) | exact readyOf _ _ _ (by decide +kernel)⟩,
   ⟨wJ 14474 5 (tagged 4 5) (tagged 4 5), 0, 1, 2, 5, tagged 4 5, tagged 4 5, by
    repeat' apply And.intro
    all_goals first | decide +kernel | exact decOkEq _ _ (by decide +kernel) | exact readyOf _ _ _ (by decide +kernel)⟩,
   ⟨wJ 14538 5 (tagged 4 5) (tagged 4 5), 0, 1, 2, 5, tagged 4 5, tagged 4 5, by
    repeat' apply And.intro
    all_goals first | decide +kernel | exact decOkEq _ _ (by decide +kernel) | exact readyOf _ _ _ (by decide +kernel)⟩⟩

theorem test_meets_BranchesTestWhatTheyName_6 :
    (∃ (s : State) (k : Nat) (d r : BitVec 3) (w : BitVec 14) (x y : TWord),
    (s.nextIs k (.bltu d r w) = true) ∧ ((s.scull k).dr d = x) ∧ ((s.scull k).dr r = y) ∧ (¬ (tag4 x = 1 ∧ tag4 y = 1))) ∧
    (∃ (s : State) (k : Nat) (d r : BitVec 3) (w : BitVec 14) (x y : TWord),
    (s.nextIs k (.bgeu d r w) = true) ∧ ((s.scull k).dr d = x) ∧ ((s.scull k).dr r = y) ∧ (¬ (tag4 x = 1 ∧ tag4 y = 1))) ∧
    (∃ (s : State) (k : Nat) (t : BitVec 4) (d : BitVec 3) (w : BitVec 14) (v : TWord),
    (s.nextIs k (.bteq t d w) = true) ∧ ((s.scull k).dr d = v)) ∧
    (∃ (s : State) (k : Nat) (t : BitVec 4) (d : BitVec 3) (w : BitVec 14) (v : TWord),
    (s.nextIs k (.btne t d w) = true) ∧ ((s.scull k).dr d = v)) :=
  ⟨⟨wJ 14602 5 (tagged 4 5) (tagged 4 5), 0, 1, 2, 5, tagged 4 5, tagged 4 5, by
    repeat' apply And.intro
    all_goals first | decide +kernel | exact decOkEq _ _ (by decide +kernel) | exact readyOf _ _ _ (by decide +kernel)⟩,
   ⟨wJ 14666 5 (tagged 4 5) (tagged 4 5), 0, 1, 2, 5, tagged 4 5, tagged 4 5, by
    repeat' apply And.intro
    all_goals first | decide +kernel | exact decOkEq _ _ (by decide +kernel) | exact readyOf _ _ _ (by decide +kernel)⟩,
   ⟨wJ 14857 5 (tagged 6 5), 0, 1, 1, 5, tagged 6 5, by
    repeat' apply And.intro
    all_goals first | decide +kernel | exact decOkEq _ _ (by decide +kernel) | exact readyOf _ _ _ (by decide +kernel)⟩,
   ⟨wJ 14985 5 (tagged 6 5), 0, 1, 1, 5, tagged 6 5, by
    repeat' apply And.intro
    all_goals first | decide +kernel | exact decOkEq _ _ (by decide +kernel) | exact readyOf _ _ _ (by decide +kernel)⟩⟩

theorem test_meets_BranchesTestWhatTheyName_7 :
    (∃ (s : State) (k : Nat) (p : BitVec 4) (w : BitVec 14),
    (s.nextIs k (.brdy 0 p w) = true) ∧ (p.toNat < 10)) ∧
    (∃ (s : State) (k : Nat) (p : BitVec 4) (w : BitVec 14),
    (s.nextIs k (.brdy 1 p w) = true) ∧ (p.toNat < 10)) ∧
    (∃ (s : State) (k : Nat) (g : BitVec 1) (p : BitVec 4) (w : BitVec 14),
    (s.nextIs k (.brdy g p w) = true) ∧ (10 ≤ p.toNat)) :=
  ⟨⟨wJ 15273 5, 0, 9, 5, by
    repeat' apply And.intro
    all_goals first | decide +kernel | exact decOkEq _ _ (by decide +kernel) | exact readyOf _ _ _ (by decide +kernel)⟩,
   ⟨wJ 15289 5, 0, 9, 5, by
    repeat' apply And.intro
    all_goals first | decide +kernel | exact decOkEq _ _ (by decide +kernel) | exact readyOf _ _ _ (by decide +kernel)⟩,
   ⟨wJ 15274 5, 0, 0, 10, 5, by
    repeat' apply And.intro
    all_goals first | decide +kernel | exact decOkEq _ _ (by decide +kernel) | exact readyOf _ _ _ (by decide +kernel)⟩⟩

theorem test_meets_JumpsCallsAndCodeWords_1 :
    (∃ (s : State) (k : Nat) (w : BitVec 14),
    (s.nextIs k (.jmp w) = true) ∧ (w.toNat < (s.scull k).pl)) ∧
    (∃ (s : State) (k : Nat) (d : BitVec 3) (w : BitVec 14),
    (s.nextIs k (.call d w) = true) ∧ (w.toNat < (s.scull k).pl)) ∧
    (∃ (s : State) (k : Nat) (d : BitVec 3) (w : BitVec 14),
    (s.nextIs k (.mkcode d w) = true) ∧ (w.toNat < (s.scull k).pl) ∧ ((s.scull k).pl ≤ 8192)) ∧
    (∃ (s : State) (k : Nat) (w : BitVec 14),
    (s.nextIs k (.jmp w) = true) ∧ ((s.scull k).pl ≤ w.toNat)) :=
  ⟨⟨wJ 15104 5, 0, 5, by
    repeat' apply And.intro
    all_goals first | decide +kernel | exact decOkEq _ _ (by decide +kernel) | exact readyOf _ _ _ (by decide +kernel)⟩,
   ⟨wJ 15137 5, 0, 1, 5, by
    repeat' apply And.intro
    all_goals first | decide +kernel | exact decOkEq _ _ (by decide +kernel) | exact readyOf _ _ _ (by decide +kernel)⟩,
   ⟨wJ 15169 5, 0, 1, 5, by
    repeat' apply And.intro
    all_goals first | decide +kernel | exact decOkEq _ _ (by decide +kernel) | exact readyOf _ _ _ (by decide +kernel)⟩,
   ⟨(wJ 15104 5).updScull 0 (fun c => { c with pl := 5 }), 0, 5, by
    repeat' apply And.intro
    all_goals first | decide +kernel | exact decOkEq _ _ (by decide +kernel) | exact readyOf _ _ _ (by decide +kernel)⟩⟩

theorem test_meets_JumpsCallsAndCodeWords_2 :
    (∃ (s : State) (k : Nat) (d : BitVec 3) (w : BitVec 14),
    (s.nextIs k (.call d w) = true) ∧ ((s.scull k).pl ≤ w.toNat)) ∧
    (∃ (s : State) (k : Nat) (d : BitVec 3) (w : BitVec 14),
    (s.nextIs k (.mkcode d w) = true) ∧ ((s.scull k).pl ≤ w.toNat)) ∧
    (∃ (s : State) (k n : Nat) (r : BitVec 3) (w : TWord),
    (s.nextIs k (.jmpr r) = true) ∧ ((s.scull k).dr r = w) ∧ (tag4 w = 5) ∧ (w.toNat % 2 ^ 13 = n)) ∧
    (∃ (s : State) (k : Nat) (r : BitVec 3) (w : TWord),
    (s.nextIs k (.setiv r) = true) ∧ ((s.scull k).dr r = w) ∧ (tag4 w = 5)) :=
  ⟨⟨(wJ 15137 5).updScull 0 (fun c => { c with pl := 5 }), 0, 1, 5, by
    repeat' apply And.intro
    all_goals first | decide +kernel | exact decOkEq _ _ (by decide +kernel) | exact readyOf _ _ _ (by decide +kernel)⟩,
   ⟨(wJ 15169 5).updScull 0 (fun c => { c with pl := 5 }), 0, 1, 5, by
    repeat' apply And.intro
    all_goals first | decide +kernel | exact decOkEq _ _ (by decide +kernel) | exact readyOf _ _ _ (by decide +kernel)⟩,
   ⟨wJ 13713 0 (mkWord 5 (8192 * 3 + 7)), 0, 7, 1, mkWord 5 (8192 * 3 + 7), by
    repeat' apply And.intro
    all_goals first | decide +kernel | exact decOkEq _ _ (by decide +kernel) | exact readyOf _ _ _ (by decide +kernel)⟩,
   ⟨wJ 13721 0 (mkWord 5 7), 0, 1, mkWord 5 7, by
    repeat' apply And.intro
    all_goals first | decide +kernel | exact decOkEq _ _ (by decide +kernel) | exact readyOf _ _ _ (by decide +kernel)⟩⟩

theorem test_meets_JumpsCallsAndCodeWords_3 :
    (∃ (s : State) (k : Nat) (r : BitVec 3) (w : TWord),
    (s.nextIs k (.jmpr r) = true) ∧ ((s.scull k).dr r = w) ∧ (tag4 w ≠ 5)) ∧
    (∃ (s : State) (k : Nat) (r : BitVec 3) (w : TWord),
    (s.nextIs k (.setiv r) = true) ∧ ((s.scull k).dr r = w) ∧ (tag4 w ≠ 5)) :=
  ⟨⟨wJ 13713 0 (tagged 1 7), 0, 1, tagged 1 7, by
    repeat' apply And.intro
    all_goals first | decide +kernel | exact decOkEq _ _ (by decide +kernel) | exact readyOf _ _ _ (by decide +kernel)⟩,
   ⟨wJ 13721 0 (tagged 1 7), 0, 1, tagged 1 7, by
    repeat' apply And.intro
    all_goals first | decide +kernel | exact decOkEq _ _ (by decide +kernel) | exact readyOf _ _ _ (by decide +kernel)⟩⟩

theorem test_meets_DirectAccessesReachLocalAndSharedWords_1 :
    (∃ (s : State) (k : Nat) (d : BitVec 3) (short : BitVec 8) (v : TWord),
    (s.nextIs k (.ldl d short) = true) ∧ (Mem.get poison (s.scull k).mem ((s.scull k).dpg.toNat * 256 + short.toNat) = v) ∧ ((tag4 v).toNat ∉ [8, 9, 10, 11, 12, 13, 15])) ∧
    (∃ (s : State) (k : Nat) (d : BitVec 3) (short : BitVec 8) (v : TWord),
    (s.nextIs k (.ldl d short) = true) ∧ (Mem.get poison (s.scull k).mem ((s.scull k).dpg.toNat * 256 + short.toNat) = v) ∧ (tag4 v = 15)) ∧
    (∃ (w : Nat) (s : State) (k : Nat) (d : BitVec 3) (short : BitVec 8) (v : TWord),
    (s.nextIs k (.ldx d short) = true) ∧ ((s.scull k).pageOk (s.scull k).xpg.toNat = true) ∧ (Mem.get poison s.sca.shared (eightOf k * 65536 + ((s.scull k).xpg.toNat * 256 + short.toNat)) = v) ∧ (tag4 v = 15)) ∧
    (∃ (s : State) (k : Nat) (d : BitVec 3) (short : BitVec 8) (v : TWord),
    (s.nextIs k (.ldl d short) = true) ∧ (Mem.get poison (s.scull k).mem ((s.scull k).dpg.toNat * 256 + short.toNat) = v) ∧ (8 ≤ (tag4 v).toNat ∧ (tag4 v).toNat ≤ 13)) :=
  ⟨⟨(wJ 260 0).updScull 0 (·.setLocal 4 (tagged 6 9)), 0, 1, 4, tagged 6 9, by
    repeat' apply And.intro
    all_goals first | decide +kernel | exact decOkEq _ _ (by decide +kernel) | exact readyOf _ _ _ (by decide +kernel)⟩,
   ⟨(wJ 260 0).updScull 0 (·.setLocal 4 (tagged 15 0)), 0, 1, 4, tagged 15 0, by
    repeat' apply And.intro
    all_goals first | decide +kernel | exact decOkEq _ _ (by decide +kernel) | exact readyOf _ _ _ (by decide +kernel)⟩,
   ⟨0, { (wJ 4356 0).updScull 0 (fun c => { c with sharedCount := 1 }) with sca := { ((wJ 4356 0).updScull 0 (fun c => { c with sharedCount := 1 })).sca with shared := [(4, tagged 15 0)] } }, 0, 1, 4, tagged 15 0, by
    repeat' apply And.intro
    all_goals first | decide +kernel | exact decOkEq _ _ (by decide +kernel) | exact readyOf _ _ _ (by decide +kernel)⟩,
   ⟨(wJ 260 0).updScull 0 (·.setLocal 4 (tagged 8 1)), 0, 1, 4, tagged 8 1, by
    repeat' apply And.intro
    all_goals first | decide +kernel | exact decOkEq _ _ (by decide +kernel) | exact readyOf _ _ _ (by decide +kernel)⟩⟩

theorem test_meets_DirectAccessesReachLocalAndSharedWords_2 :
    (∃ (w : Nat) (s : State) (k : Nat) (d : BitVec 3) (short : BitVec 8) (v : TWord),
    (s.nextIs k (.ldx d short) = true) ∧ ((s.scull k).pageOk (s.scull k).xpg.toNat = true) ∧ (Mem.get poison s.sca.shared (eightOf k * 65536 + ((s.scull k).xpg.toNat * 256 + short.toNat)) = v) ∧ (8 ≤ (tag4 v).toNat ∧ (tag4 v).toNat ≤ 13)) ∧
    (∃ (s : State) (k : Nat) (d : BitVec 3) (short : BitVec 8),
    (s.nextIs k (.ldl d short) = true)) ∧
    (∃ (s : State) (k : Nat) (r : BitVec 3) (short : BitVec 8) (v : TWord),
    (s.nextIs k (.stl r short) = true) ∧ ((s.scull k).dr r = v)) ∧
    (∃ (w : Nat) (s : State) (k : Nat) (d : BitVec 3) (short : BitVec 8) (v : TWord),
    (s.nextIs k (.ldx d short) = true) ∧ ((s.scull k).pageOk (s.scull k).xpg.toNat = true) ∧ (Mem.get poison s.sca.shared (eightOf k * 65536 + ((s.scull k).xpg.toNat * 256 + short.toNat)) = v) ∧ ((tag4 v).toNat ∉ [8, 9, 10, 11, 12, 13, 15])) :=
  ⟨⟨0, { (wJ 4356 0).updScull 0 (fun c => { c with sharedCount := 1 }) with sca := { ((wJ 4356 0).updScull 0 (fun c => { c with sharedCount := 1 })).sca with shared := [(4, tagged 8 1)] } }, 0, 1, 4, tagged 8 1, by
    repeat' apply And.intro
    all_goals first | decide +kernel | exact decOkEq _ _ (by decide +kernel) | exact readyOf _ _ _ (by decide +kernel)⟩,
   ⟨wJ 260 0, 0, 1, 4, by
    repeat' apply And.intro
    all_goals first | decide +kernel | exact decOkEq _ _ (by decide +kernel) | exact readyOf _ _ _ (by decide +kernel)⟩,
   ⟨wJ 2308 0 (tagged 6 9), 0, 1, 4, tagged 6 9, by
    repeat' apply And.intro
    all_goals first | decide +kernel | exact decOkEq _ _ (by decide +kernel) | exact readyOf _ _ _ (by decide +kernel)⟩,
   ⟨0, { (wJ 4356 0 0).updScull 0 (fun c => { c with sharedCount := 1 }) with sca := { ((wJ 4356 0 0).updScull 0 (fun c => { c with sharedCount := 1 })).sca with shared := [(4, tagged 1 9)] } }, 0, 1, 4, tagged 1 9, by
    repeat' apply And.intro
    all_goals first | decide +kernel | exact decOkEq _ _ (by decide +kernel) | exact readyOf _ _ _ (by decide +kernel)⟩⟩

theorem test_meets_DirectAccessesReachLocalAndSharedWords_3 :
    (∃ (w : Nat) (s : State) (k : Nat) (d : BitVec 3) (short : BitVec 8) (ue : Bool),
    (s.nextIs k (.ldx d short) = true) ∧ ((s.scull k).pageOk (s.scull k).xpg.toNat = false)) ∧
    (∃ (w : Nat) (s : State) (k : Nat) (r : BitVec 3) (short : BitVec 8) (v : TWord),
    (s.nextIs k (.stx r short) = true) ∧ ((s.scull k).dr r = v) ∧ ((tag4 v).toNat ∉ [4, 5, 6]) ∧ ((s.scull k).pageOk (s.scull k).xpg.toNat = true)) ∧
    (∃ (w : Nat) (s : State) (k : Nat) (r : BitVec 3) (short : BitVec 8) (v : TWord),
    (s.nextIs k (.stx r short) = true) ∧ ((s.scull k).dr r = v) ∧ ((tag4 v).toNat ∈ [4, 5, 6])) ∧
    (∃ (w : Nat) (s : State) (k : Nat) (r : BitVec 3) (short : BitVec 8),
    (s.nextIs k (.stx r short) = true) ∧ (isCap ((s.scull k).dr r) = false) ∧ ((s.scull k).pageOk (s.scull k).xpg.toNat = false)) :=
  ⟨⟨0, wJ 4356 0, 0, 1, 4, true, by
    repeat' apply And.intro
    all_goals first | decide +kernel | exact decOkEq _ _ (by decide +kernel) | exact readyOf _ _ _ (by decide +kernel)⟩,
   ⟨0, { (wJ 6404 0 (tagged 1 7)).updScull 0 (fun c => { c with sharedCount := 1 }) with sca := { ((wJ 6404 0 (tagged 1 7)).updScull 0 (fun c => { c with sharedCount := 1 })).sca with shared := [(4, tagged 1 9)] } }, 0, 1, 4, tagged 1 7, by
    repeat' apply And.intro
    all_goals first | decide +kernel | exact decOkEq _ _ (by decide +kernel) | exact readyOf _ _ _ (by decide +kernel)⟩,
   ⟨0, wJ 6404 0 (tagged 5 7), 0, 1, 4, tagged 5 7, by
    repeat' apply And.intro
    all_goals first | decide +kernel | exact decOkEq _ _ (by decide +kernel) | exact readyOf _ _ _ (by decide +kernel)⟩,
   ⟨0, wJ 6404 0 (tagged 1 7), 0, 1, 4, by
    repeat' apply And.intro
    all_goals first | decide +kernel | exact decOkEq _ _ (by decide +kernel) | exact readyOf _ _ _ (by decide +kernel)⟩⟩

theorem test_meets_DirectAccessesReachLocalAndSharedWords_4 :
    (∃ (c : Scull) (a b : Nat) (v : TWord),
    True) ∧
    (∃ (s : State) (k a b : Nat) (v : TWord),
    True) :=
  ⟨⟨{}, 0, 1, 7, by
    repeat' apply And.intro
    all_goals first | decide +kernel | exact decOkEq _ _ (by decide +kernel) | exact readyOf _ _ _ (by decide +kernel)⟩,
   ⟨wHost, 31, 0, 65535, 7, by
    repeat' apply And.intro
    all_goals first | decide +kernel | exact decOkEq _ _ (by decide +kernel) | exact readyOf _ _ _ (by decide +kernel)⟩⟩

theorem test_meets_WindowAccessesRunTheirFourChecks_1 :
    (∃ (c : Scull) (p : TWord) (u : Nat),
    (c.entry p = none)) ∧
    (∃ (c : Scull) (p : TWord) (u : Nat) (e : Win),
    (c.entry p = some e) ∧ (2 ≤ e.kind)) ∧
    (∃ (c : Scull) (p : TWord) (u : Nat) (e : Win),
    (c.entry p = some e) ∧ (e.kind < 2) ∧ (e.r = false)) ∧
    (∃ (c : Scull) (p : TWord) (u : Nat) (e : Win),
    (c.entry p = some e) ∧ (e.kind < 2) ∧ (e.r = true) ∧ (e.len ≤ ptrOff p + u)) :=
  ⟨⟨{}, 0, 0, by
    repeat' apply And.intro
    all_goals first | decide +kernel | exact decOkEq _ _ (by decide +kernel) | exact readyOf _ _ _ (by decide +kernel)⟩,
   ⟨{ wins := [(0, { live := true, kind := 2 })] }, mkPtr 0 0 0, 0, { live := true, kind := 2 }, by
    repeat' apply And.intro
    all_goals first | decide +kernel | exact decOkEq _ _ (by decide +kernel) | exact readyOf _ _ _ (by decide +kernel)⟩,
   ⟨{ wins := [(0, { live := true, kind := 1 })] }, mkPtr 0 0 0, 0, { live := true, kind := 1 }, by
    repeat' apply And.intro
    all_goals first | decide +kernel | exact decOkEq _ _ (by decide +kernel) | exact readyOf _ _ _ (by decide +kernel)⟩,
   ⟨{ wins := [(2, wWin)] }, mkPtr 0 2 8, 1, wWin, by
    repeat' apply And.intro
    all_goals first | decide +kernel | exact decOkEq _ _ (by decide +kernel) | exact readyOf _ _ _ (by decide +kernel)⟩⟩

theorem test_meets_WindowAccessesRunTheirFourChecks_2 :
    (∃ (c : Scull) (p : TWord) (u : Nat) (e : Win),
    (c.entry p = some e) ∧ (e.kind < 2) ∧ (e.r = true) ∧ (ptrOff p + u < e.len)) ∧
    (∃ (c : Scull) (p : TWord) (u : Nat),
    (c.entry p = none)) ∧
    (∃ (c : Scull) (p : TWord) (u : Nat) (e : Win),
    (c.entry p = some e) ∧ (2 ≤ e.kind)) ∧
    (∃ (c : Scull) (p : TWord) (u : Nat) (e : Win),
    (c.entry p = some e) ∧ (e.kind < 2) ∧ (e.w = false)) :=
  ⟨⟨{ wins := [(2, wWin)] }, mkPtr 0 2 8, 0, wWin, by
    repeat' apply And.intro
    all_goals first | decide +kernel | exact decOkEq _ _ (by decide +kernel) | exact readyOf _ _ _ (by decide +kernel)⟩,
   ⟨{}, 0, 0, by
    repeat' apply And.intro
    all_goals first | decide +kernel | exact decOkEq _ _ (by decide +kernel) | exact readyOf _ _ _ (by decide +kernel)⟩,
   ⟨{ wins := [(0, { live := true, kind := 2 })] }, mkPtr 0 0 0, 0, { live := true, kind := 2 }, by
    repeat' apply And.intro
    all_goals first | decide +kernel | exact decOkEq _ _ (by decide +kernel) | exact readyOf _ _ _ (by decide +kernel)⟩,
   ⟨{ wins := [(0, { live := true, kind := 1 })] }, mkPtr 0 0 0, 0, { live := true, kind := 1 }, by
    repeat' apply And.intro
    all_goals first | decide +kernel | exact decOkEq _ _ (by decide +kernel) | exact readyOf _ _ _ (by decide +kernel)⟩⟩

theorem test_meets_WindowAccessesRunTheirFourChecks_3 :
    (∃ (c : Scull) (p : TWord) (u : Nat) (e : Win),
    (c.entry p = some e) ∧ (e.kind < 2) ∧ (e.w = true) ∧ (e.len ≤ ptrOff p + u)) ∧
    (∃ (c : Scull) (p : TWord) (u : Nat) (e : Win),
    (c.entry p = some e) ∧ (e.kind < 2) ∧ (e.w = true) ∧ (ptrOff p + u < e.len)) ∧
    (∃ (w : Nat) (s : State) (k n : Nat) (d : BitVec 3) (a u : BitVec 2) (p v : TWord),
    (s.nextIs k (.ld d a u) = true) ∧ ((s.scull k).ar a = some p) ∧ ((s.scull k).access p u.toNat false = .ok (0, n)) ∧ ((s.scull k).local n = v) ∧ ((tag4 v).toNat ∉ [8, 9, 10, 11, 12, 13, 15])) ∧
    (∃ (w : Nat) (s : State) (k n : Nat) (ka a u : BitVec 2) (p v : TWord),
    (s.nextIs k (.lda ka a u) = true) ∧ ((s.scull k).ar a = some p) ∧ ((s.scull k).access p u.toNat false = .ok (0, n)) ∧ ((s.scull k).local n = v) ∧ (tag4 v = 4)) :=
  ⟨⟨{ wins := [(2, wWin)] }, mkPtr 0 2 8, 1, wWin, by
    repeat' apply And.intro
    all_goals first | decide +kernel | exact decOkEq _ _ (by decide +kernel) | exact readyOf _ _ _ (by decide +kernel)⟩,
   ⟨{ wins := [(2, wWin)] }, mkPtr 0 2 8, 0, wWin, by
    repeat' apply And.intro
    all_goals first | decide +kernel | exact decOkEq _ _ (by decide +kernel) | exact readyOf _ _ _ (by decide +kernel)⟩,
   ⟨0, wMem (wPtr 13332 wWin) (tagged 6 9), 0, 37, 1, 1, 0, mkPtr 0 2 5, tagged 6 9, by
    repeat' apply And.intro
    all_goals first | decide +kernel | exact decOkEq _ _ (by decide +kernel) | exact readyOf _ _ _ (by decide +kernel)⟩,
   ⟨0, wMem (wPtr 15972 wWin) (tagged 4 9), 0, 37, 2, 1, 0, mkPtr 0 2 5, tagged 4 9, by
    repeat' apply And.intro
    all_goals first | decide +kernel | exact decOkEq _ _ (by decide +kernel) | exact readyOf _ _ _ (by decide +kernel)⟩⟩

theorem test_meets_WindowAccessesRunTheirFourChecks_4 :
    (∃ (w : Nat) (s : State) (k n : Nat) (d : BitVec 3) (a : BitVec 2) (p v : TWord) (e : Win),
    (s.nextIs k (.ldp d a) = true) ∧ ((s.scull k).ar a = some p) ∧ ((s.scull k).access p 0 false = .ok (0, n)) ∧ ((s.scull k).local n = v) ∧ ((tag4 v).toNat ∉ [8, 9, 10, 11, 12, 13, 15]) ∧ ((s.scull k).entry p = some e) ∧ (ptrOff p + 1 ≤ 1048575)) ∧
    (∃ (w : Nat) (s : State) (k n : Nat) (r : BitVec 3) (a u : BitVec 2) (p v : TWord),
    (s.nextIs k (.st r a u) = true) ∧ ((s.scull k).ar a = some p) ∧ ((s.scull k).access p u.toNat true = .ok (0, n)) ∧ ((s.scull k).dr r = v) ∧ (tag4 v ≠ 6)) ∧
    (∃ (w : Nat) (s : State) (k n : Nat) (r : BitVec 3) (a : BitVec 2) (p v : TWord) (e : Win),
    (s.nextIs k (.stp r a) = true) ∧ ((s.scull k).ar a = some p) ∧ ((s.scull k).access p 0 true = .ok (0, n)) ∧ ((s.scull k).dr r = v) ∧ (tag4 v ≠ 6) ∧ ((s.scull k).entry p = some e) ∧ (ptrOff p + 1 ≤ 1048575)) ∧
    (∃ (w : Nat) (s : State) (k n : Nat) (d : BitVec 3) (a u : BitVec 2) (p v : TWord),
    (s.nextIs k (.ld d a u) = true) ∧ ((s.scull k).ar a = some p) ∧ ((s.scull k).access p u.toNat false = .ok (1, n)) ∧ (s.sharedWord k n = v) ∧ ((tag4 v).toNat ∉ [8, 9, 10, 11, 12, 13, 15])) :=
  ⟨⟨0, wMem (wPtr 15877 wWin) (tagged 6 9), 0, 37, 1, 1, mkPtr 0 2 5, tagged 6 9, wWin, by
    repeat' apply And.intro
    all_goals first | decide +kernel | exact decOkEq _ _ (by decide +kernel) | exact readyOf _ _ _ (by decide +kernel)⟩,
   ⟨0, wMem (wPtr 13460 wWin (tagged 1 9)) (tagged 4 9), 0, 37, 1, 1, 0, mkPtr 0 2 5, tagged 1 9, by
    repeat' apply And.intro
    all_goals first | decide +kernel | exact decOkEq _ _ (by decide +kernel) | exact readyOf _ _ _ (by decide +kernel)⟩,
   ⟨0, wMem (wPtr 15909 wWin (tagged 1 9)) (tagged 4 9), 0, 37, 1, 1, mkPtr 0 2 5, tagged 1 9, wWin, by
    repeat' apply And.intro
    all_goals first | decide +kernel | exact decOkEq _ _ (by decide +kernel) | exact readyOf _ _ _ (by decide +kernel)⟩,
   ⟨0, wMem (wPtr 13332 ({ wWin with kind := 1 })) (tagged 6 9), 0, 37, 1, 1, 0, mkPtr 0 2 5, tagged 6 9, by
    repeat' apply And.intro
    all_goals first | decide +kernel | exact decOkEq _ _ (by decide +kernel) | exact readyOf _ _ _ (by decide +kernel)⟩⟩

theorem test_meets_WindowAccessesRunTheirFourChecks_5 :
    (∃ (w : Nat) (s : State) (k n : Nat) (ka a u : BitVec 2) (p v : TWord),
    (s.nextIs k (.lda ka a u) = true) ∧ ((s.scull k).ar a = some p) ∧ ((s.scull k).access p u.toNat false = .ok (1, n)) ∧ (s.sharedWord k n = v) ∧ (tag4 v = 4)) ∧
    (∃ (w : Nat) (s : State) (k n : Nat) (d : BitVec 3) (a : BitVec 2) (p v : TWord) (e : Win),
    (s.nextIs k (.ldp d a) = true) ∧ ((s.scull k).ar a = some p) ∧ ((s.scull k).access p 0 false = .ok (1, n)) ∧ (s.sharedWord k n = v) ∧ ((tag4 v).toNat ∉ [8, 9, 10, 11, 12, 13, 15]) ∧ ((s.scull k).entry p = some e) ∧ (ptrOff p + 1 ≤ 1048575)) ∧
    (∃ (w : Nat) (s : State) (k n : Nat) (r : BitVec 3) (a u : BitVec 2) (p v : TWord),
    (s.nextIs k (.st r a u) = true) ∧ ((s.scull k).ar a = some p) ∧ ((s.scull k).access p u.toNat true = .ok (1, n)) ∧ ((s.scull k).dr r = v) ∧ ((tag4 v).toNat ∉ [4, 5, 6])) ∧
    (∃ (w : Nat) (s : State) (k n : Nat) (r : BitVec 3) (a : BitVec 2) (p v : TWord) (e : Win),
    (s.nextIs k (.stp r a) = true) ∧ ((s.scull k).ar a = some p) ∧ ((s.scull k).access p 0 true = .ok (1, n)) ∧ ((s.scull k).dr r = v) ∧ ((tag4 v).toNat ∉ [4, 5, 6]) ∧ ((s.scull k).entry p = some e) ∧ (ptrOff p + 1 ≤ 1048575)) :=
  ⟨⟨0, wMem (wPtr 15972 ({ wWin with kind := 1 })) (tagged 4 9), 0, 37, 2, 1, 0, mkPtr 0 2 5, tagged 4 9, by
    repeat' apply And.intro
    all_goals first | decide +kernel | exact decOkEq _ _ (by decide +kernel) | exact readyOf _ _ _ (by decide +kernel)⟩,
   ⟨0, wMem (wPtr 15877 ({ wWin with kind := 1 })) (tagged 6 9), 0, 37, 1, 1, mkPtr 0 2 5, tagged 6 9, { wWin with kind := 1 }, by
    repeat' apply And.intro
    all_goals first | decide +kernel | exact decOkEq _ _ (by decide +kernel) | exact readyOf _ _ _ (by decide +kernel)⟩,
   ⟨0, wMem (wPtr 13460 ({ wWin with kind := 1 }) (tagged 1 9)) (tagged 4 9), 0, 37, 1, 1, 0, mkPtr 0 2 5, tagged 1 9, by
    repeat' apply And.intro
    all_goals first | decide +kernel | exact decOkEq _ _ (by decide +kernel) | exact readyOf _ _ _ (by decide +kernel)⟩,
   ⟨0, wMem (wPtr 15909 ({ wWin with kind := 1 }) (tagged 1 9)) (tagged 4 9), 0, 37, 1, 1, mkPtr 0 2 5, tagged 1 9, { wWin with kind := 1 }, by
    repeat' apply And.intro
    all_goals first | decide +kernel | exact decOkEq _ _ (by decide +kernel) | exact readyOf _ _ _ (by decide +kernel)⟩⟩

theorem test_meets_WindowAccessesRunTheirFourChecks_6 :
    (∃ (w : Nat) (s : State) (k n : Nat) (ka a u : BitVec 2) (p v : TWord),
    (s.nextIs k (.sta ka a u) = true) ∧ ((s.scull k).ar a = some p) ∧ ((s.scull k).ar ka = some v) ∧ ((s.scull k).access p u.toNat true = .ok (0, n)) ∧ (tag4 v = 4)) ∧
    (∃ (w : Nat) (s : State) (k : Nat) (ka a u : BitVec 2) (p v : TWord) (e : Win),
    (s.nextIs k (.sta ka a u) = true) ∧ ((s.scull k).ar a = some p) ∧ ((s.scull k).ar ka = some v) ∧ ((s.scull k).entry p = some e) ∧ (e.kind = 1) ∧ (tag4 v = 4)) ∧
    (∃ (w : Nat) (s : State) (k : Nat) (d : BitVec 3) (a u : BitVec 2) (p : TWord) (t : Trap),
    (s.nextIs k (.ld d a u) = true) ∧ ((s.scull k).ar a = some p) ∧ ((s.scull k).access p u.toNat false = .error t)) ∧
    (∃ (w : Nat) (s : State) (k : Nat) (ka a u : BitVec 2) (p : TWord) (t : Trap),
    (s.nextIs k (.lda ka a u) = true) ∧ ((s.scull k).ar a = some p) ∧ ((s.scull k).access p u.toNat false = .error t)) :=
  ⟨⟨0, (wPtr 16036 wWin).updScull 0 (·.setA 2 (mkPtr 0 2 7)), 0, 37, 2, 1, 0, mkPtr 0 2 5, mkPtr 0 2 7, by
    repeat' apply And.intro
    all_goals first | decide +kernel | exact decOkEq _ _ (by decide +kernel) | exact readyOf _ _ _ (by decide +kernel)⟩,
   ⟨0, (wPtr 16036 { wWin with kind := 1 }).updScull 0 (·.setA 2 (mkPtr 0 2 7)), 0, 2, 1, 0, mkPtr 0 2 5, mkPtr 0 2 7, { wWin with kind := 1 }, by
    repeat' apply And.intro
    all_goals first | decide +kernel | exact decOkEq _ _ (by decide +kernel) | exact readyOf _ _ _ (by decide +kernel)⟩,
   ⟨0, wPtr 13332 { wWin with len := 5 }, 0, 1, 1, 0, mkPtr 0 2 5, .windowBounds, ⟨by decide +kernel, by decide +kernel, errIs _ _ (by decide +kernel)⟩⟩,
   ⟨0, wPtr 15972 { wWin with len := 5 }, 0, 2, 1, 0, mkPtr 0 2 5, .windowBounds, ⟨by decide +kernel, by decide +kernel, errIs _ _ (by decide +kernel)⟩⟩⟩

theorem test_meets_WindowAccessesRunTheirFourChecks_7 :
    (∃ (w : Nat) (s : State) (k : Nat) (d : BitVec 3) (a u : BitVec 2) (ue : Bool),
    (s.nextIs k (.ld d a u) = true) ∧ ((s.scull k).ar a = none)) :=
  ⟨0, wJ 13332 0, 0, 1, 1, 0, false, by
    repeat' apply And.intro
    all_goals first | decide +kernel | exact decOkEq _ _ (by decide +kernel) | exact readyOf _ _ _ (by decide +kernel)⟩

theorem test_meets_PointersAndDerivedWindows_1 :
    (∃ (s : State) (k : Nat) (a : BitVec 2) (d : BitVec 3) (p : TWord) (e : Win) (v : BitVec 32) (o : Nat),
    (s.nextIs k (.aadd a d) = true) ∧ ((s.scull k).ar a = some p) ∧ ((s.scull k).entry p = some e) ∧ ((s.scull k).dr d = tagged 1 v) ∧ ((ptrOff p : Int) + v.toInt = o) ∧ (o ≤ e.len) ∧ (o ≤ 1048575)) ∧
    (∃ (s : State) (k : Nat) (a : BitVec 2) (d : BitVec 3) (p : TWord) (e : Win) (v : BitVec 32),
    (s.nextIs k (.aadd a d) = true) ∧ ((s.scull k).ar a = some p) ∧ ((s.scull k).entry p = some e) ∧ ((s.scull k).dr d = tagged 1 v) ∧ ((ptrOff p : Int) + v.toInt < 0 ∨ (e.len : Int) < ptrOff p + v.toInt ∨ 1048575 < ptrOff p + v.toInt)) ∧
    (∃ (s : State) (k i n : Nat) (a : BitVec 2) (d : BitVec 3) (p : TWord) (e : Win),
    (s.nextIs k (.narrow a d) = true) ∧ ((s.scull k).ar a = some p) ∧ ((s.scull k).entry p = some e) ∧ ((s.scull k).dr d = mkWord 1 n) ∧ (1 ≤ n) ∧ (n < 2 ^ 31) ∧ (ptrOff p + n ≤ e.len) ∧ (e.kind = 3 → ptrOff p % 4096 = 0) ∧ ((s.scull k).freeWin = some i)) ∧
    (∃ (s : State) (k : Nat) (a : BitVec 2) (d : BitVec 3) (p : TWord) (e : Win) (v : BitVec 32),
    (s.nextIs k (.narrow a d) = true) ∧ ((s.scull k).ar a = some p) ∧ ((s.scull k).entry p = some e) ∧ ((s.scull k).dr d = tagged 1 v) ∧ ((e.len : Int) < ptrOff p + v.toInt)) :=
  ⟨⟨wPtr 16073 wWin (tagged 1 0xFFFFFFFB), 0, 1, 1, mkPtr 0 2 5, wWin, 0xFFFFFFFB, 0, by
    repeat' apply And.intro
    all_goals first | decide +kernel | exact decOkEq _ _ (by decide +kernel) | exact readyOf _ _ _ (by decide +kernel)⟩,
   ⟨wPtr 16073 wWin (tagged 1 5), 0, 1, 1, mkPtr 0 2 5, wWin, 5, by
    repeat' apply And.intro
    all_goals first | decide +kernel | exact decOkEq _ _ (by decide +kernel) | exact readyOf _ _ _ (by decide +kernel)⟩,
   ⟨wPtr 16105 wWin (tagged 1 4), 0, 0, 4, 1, 1, mkPtr 0 2 5, wWin, by
    repeat' apply And.intro
    all_goals first | decide +kernel | exact decOkEq _ _ (by decide +kernel) | exact readyOf _ _ _ (by decide +kernel)⟩,
   ⟨wPtr 16105 wWin (tagged 1 5), 0, 1, 1, mkPtr 0 2 5, wWin, 5, by
    repeat' apply And.intro
    all_goals first | decide +kernel | exact decOkEq _ _ (by decide +kernel) | exact readyOf _ _ _ (by decide +kernel)⟩⟩

theorem test_meets_PointersAndDerivedWindows_2 :
    (∃ (s : State) (k i : Nat) (a : BitVec 2) (d : BitVec 3) (p : TWord) (e : Win) (v : BitVec 32),
    (s.nextIs k (.narrow a d) = true) ∧ ((s.scull k).ar a = some p) ∧ ((s.scull k).entry p = some e) ∧ ((s.scull k).dr d = tagged 1 v) ∧ (v.toInt ≤ 0) ∧ (ptrOff p ≤ e.len) ∧ (e.kind ≠ 3) ∧ ((s.scull k).freeWin = some i)) ∧
    (∃ (s : State) (k i : Nat) (a m : BitVec 2) (p : TWord) (e : Win),
    (s.nextIs k (.restrict a m) = true) ∧ ((s.scull k).ar a = some p) ∧ ((s.scull k).entry p = some e) ∧ (ptrOff p < e.len) ∧ (e.kind = 3 → ptrOff p % 4096 = 0) ∧ ((s.scull k).freeWin = some i)) ∧
    (∃ (s : State) (k : Nat) (a m : BitVec 2) (p : TWord) (e : Win),
    (s.nextIs k (.restrict a m) = true) ∧ ((s.scull k).ar a = some p) ∧ ((s.scull k).entry p = some e) ∧ (ptrOff p < e.len) ∧ (e.kind ≠ 3) ∧ ((s.scull k).freeWin = none)) ∧
    (∃ (s : State) (k : Nat) (a : BitVec 2) (p : TWord) (e : Win),
    (s.nextIs k (.freew a) = true) ∧ ((s.scull k).ar a = some p) ∧ ((s.scull k).entry p = some e) ∧ (e.derived = true)) :=
  ⟨⟨wPtr 16105 wWin (tagged 1 0), 0, 0, 1, 1, mkPtr 0 2 5, wWin, 0, by
    repeat' apply And.intro
    all_goals first | decide +kernel | exact decOkEq _ _ (by decide +kernel) | exact readyOf _ _ _ (by decide +kernel)⟩,
   ⟨wPtr 13765 wWin, 0, 0, 1, 1, mkPtr 0 2 5, wWin, by
    repeat' apply And.intro
    all_goals first | decide +kernel | exact decOkEq _ _ (by decide +kernel) | exact readyOf _ _ _ (by decide +kernel)⟩,
   ⟨(wPtr 13765 wWin).updScull 0 (fun c => { c with wins := (List.range 64).map (fun i => (i, wWin)) }), 0, 1, 1, mkPtr 0 2 5, wWin, by
    repeat' apply And.intro
    all_goals first | decide +kernel | exact decOkEq _ _ (by decide +kernel) | exact readyOf _ _ _ (by decide +kernel)⟩,
   ⟨wPtr 13745 { wWin with derived := true }, 0, 1, mkPtr 0 2 5, { wWin with derived := true }, by
    repeat' apply And.intro
    all_goals first | decide +kernel | exact decOkEq _ _ (by decide +kernel) | exact readyOf _ _ _ (by decide +kernel)⟩⟩

theorem test_meets_PointersAndDerivedWindows_3 :
    (∃ (s : State) (k : Nat) (a : BitVec 2) (p : TWord) (e : Win),
    (s.nextIs k (.freew a) = true) ∧ ((s.scull k).ar a = some p) ∧ ((s.scull k).entry p = some e) ∧ (e.derived = false)) ∧
    (∃ (s : State) (k : Nat) (a : BitVec 2) (d : BitVec 3) (p : TWord),
    (s.nextIs k (.aadd a d) = true) ∧ ((s.scull k).ar a = some p) ∧ ((s.scull k).entry p = none) ∧ (tag4 ((s.scull k).dr d) = 1)) ∧
    (∃ (s : State) (k : Nat) (a : BitVec 2) (d : BitVec 3) (p : TWord),
    (s.nextIs k (.narrow a d) = true) ∧ ((s.scull k).ar a = some p) ∧ ((s.scull k).entry p = none) ∧ (tag4 ((s.scull k).dr d) = 1)) ∧
    (∃ (s : State) (k : Nat) (a m : BitVec 2) (p : TWord),
    (s.nextIs k (.restrict a m) = true) ∧ ((s.scull k).ar a = some p) ∧ ((s.scull k).entry p = none)) :=
  ⟨⟨wPtr 13745 wWin, 0, 1, mkPtr 0 2 5, wWin, by
    repeat' apply And.intro
    all_goals first | decide +kernel | exact decOkEq _ _ (by decide +kernel) | exact readyOf _ _ _ (by decide +kernel)⟩,
   ⟨wPtr 16073 {} (tagged 1 1), 0, 1, 1, mkPtr 0 2 5, by
    repeat' apply And.intro
    all_goals first | decide +kernel | exact decOkEq _ _ (by decide +kernel) | exact readyOf _ _ _ (by decide +kernel)⟩,
   ⟨wPtr 16105 {} (tagged 1 1), 0, 1, 1, mkPtr 0 2 5, by
    repeat' apply And.intro
    all_goals first | decide +kernel | exact decOkEq _ _ (by decide +kernel) | exact readyOf _ _ _ (by decide +kernel)⟩,
   ⟨wPtr 13765 {} (tagged 1 1), 0, 1, 1, mkPtr 0 2 5, by
    repeat' apply And.intro
    all_goals first | decide +kernel | exact decOkEq _ _ (by decide +kernel) | exact readyOf _ _ _ (by decide +kernel)⟩⟩

theorem test_meets_PointersAndDerivedWindows_4 :
    (∃ (s : State) (k : Nat) (a : BitVec 2) (p : TWord),
    (s.nextIs k (.freew a) = true) ∧ ((s.scull k).ar a = some p) ∧ ((s.scull k).entry p = none)) :=
  ⟨wPtr 13745 {} (tagged 1 1), 0, 1, mkPtr 0 2 5, by
    repeat' apply And.intro
    all_goals first | decide +kernel | exact decOkEq _ _ (by decide +kernel) | exact readyOf _ _ _ (by decide +kernel)⟩

theorem test_meets_RepeatsRunTheNextInstruction_1 :
    (∃ (s : State) (k : Nat) (n : BitVec 8) (op : JOp),
    (s.nextIs k (.rep n) = true) ∧ ((s.scull k).pc.toNat + 1 + wordsOf ((s.scull k).word ((s.scull k).pc.toNat + 1)) ≤ (s.scull k).pl) ∧ (jeriecDecode ((s.scull k).word ((s.scull k).pc.toNat + 1)) ((s.scull k).word ((s.scull k).pc.toNat + 2)) = some op) ∧ (repForbids op = false)) ∧
    (∃ (s : State) (k n : Nat) (r : BitVec 3) (op : JOp),
    (s.nextIs k (.repDr r) = true) ∧ ((s.scull k).pc.toNat + 1 + wordsOf ((s.scull k).word ((s.scull k).pc.toNat + 1)) ≤ (s.scull k).pl) ∧ (jeriecDecode ((s.scull k).word ((s.scull k).pc.toNat + 1)) ((s.scull k).word ((s.scull k).pc.toNat + 2)) = some op) ∧ ((s.scull k).dr r = mkWord 1 n) ∧ (1 ≤ n) ∧ (n ≤ 256) ∧ (repForbids op = false)) ∧
    (∃ (s : State) (k : Nat) (r : BitVec 3) (op : JOp),
    (s.nextIs k (.repDr r) = true) ∧ ((s.scull k).pc.toNat + 1 + wordsOf ((s.scull k).word ((s.scull k).pc.toNat + 1)) ≤ (s.scull k).pl) ∧ (jeriecDecode ((s.scull k).word ((s.scull k).pc.toNat + 1)) ((s.scull k).word ((s.scull k).pc.toNat + 2)) = some op) ∧ ((s.scull k).dr r = mkWord 1 0) ∧ (repForbids op = false)) ∧
    (∃ (s : State) (k : Nat) (r : BitVec 3) (op : JOp) (v : BitVec 32),
    (s.nextIs k (.repDr r) = true) ∧ ((s.scull k).pc.toNat + 1 + wordsOf ((s.scull k).word ((s.scull k).pc.toNat + 1)) ≤ (s.scull k).pl) ∧ (jeriecDecode ((s.scull k).word ((s.scull k).pc.toNat + 1)) ((s.scull k).word ((s.scull k).pc.toNat + 2)) = some op) ∧ ((s.scull k).dr r = tagged 1 v) ∧ (v.toInt < 0 ∨ 256 < v.toInt) ∧ (repForbids op = false)) :=
  ⟨⟨wJ 14079 13792, 0, 255, .nop, by
    repeat' apply And.intro
    all_goals first | decide +kernel | exact decOkEq _ _ (by decide +kernel) | exact readyOf _ _ _ (by decide +kernel)⟩,
   ⟨wJ 13697 13792 (mkWord 1 256), 0, 256, 1, .nop, by
    repeat' apply And.intro
    all_goals first | decide +kernel | exact decOkEq _ _ (by decide +kernel) | exact readyOf _ _ _ (by decide +kernel)⟩,
   ⟨wJ 13697 13792 (mkWord 1 0), 0, 1, .nop, by
    repeat' apply And.intro
    all_goals first | decide +kernel | exact decOkEq _ _ (by decide +kernel) | exact readyOf _ _ _ (by decide +kernel)⟩,
   ⟨wJ 13697 13792 (tagged 1 257), 0, 1, .nop, 257, by
    repeat' apply And.intro
    all_goals first | decide +kernel | exact decOkEq _ _ (by decide +kernel) | exact readyOf _ _ _ (by decide +kernel)⟩⟩

theorem test_meets_RepeatsRunTheNextInstruction_2 :
    (∃ (s : State) (k : Nat) (r : BitVec 3) (op : JOp),
    (s.nextIs k (.repDr r) = true) ∧ ((s.scull k).pc.toNat + 1 + wordsOf ((s.scull k).word ((s.scull k).pc.toNat + 1)) ≤ (s.scull k).pl) ∧ (jeriecDecode ((s.scull k).word ((s.scull k).pc.toNat + 1)) ((s.scull k).word ((s.scull k).pc.toNat + 2)) = some op) ∧ (tag4 ((s.scull k).dr r) ≠ 1)) ∧
    (∃ (s : State) (k : Nat) (n : BitVec 8) (op : JOp),
    (s.nextIs k (.rep n) = true) ∧ ((s.scull k).pc.toNat + 1 + wordsOf ((s.scull k).word ((s.scull k).pc.toNat + 1)) ≤ (s.scull k).pl) ∧ (jeriecDecode ((s.scull k).word ((s.scull k).pc.toNat + 1)) ((s.scull k).word ((s.scull k).pc.toNat + 2)) = some op) ∧ (repForbids op = true)) ∧
    (∃ (s : State) (k : Nat) (n : BitVec 8),
    (s.nextIs k (.rep n) = true) ∧ ((s.scull k).pc.toNat + 1 < (s.scull k).pl) ∧ (jeriecDecode ((s.scull k).word ((s.scull k).pc.toNat + 1)) ((s.scull k).word ((s.scull k).pc.toNat + 2)) = none)) ∧
    (∃ (s : State) (k : Nat) (n : BitVec 8),
    (s.nextIs k (.rep n) = true) ∧ ((s.scull k).pl ≤ (s.scull k).pc.toNat + 1)) :=
  ⟨⟨wJ 13697 13792 (tagged 7 1), 0, 1, .nop, by
    repeat' apply And.intro
    all_goals first | decide +kernel | exact decOkEq _ _ (by decide +kernel) | exact readyOf _ _ _ (by decide +kernel)⟩,
   ⟨wJ 14079 10371, 0, 255, .beqz 1 3, by
    repeat' apply And.intro
    all_goals first | decide +kernel | exact decOkEq _ _ (by decide +kernel) | exact readyOf _ _ _ (by decide +kernel)⟩,
   ⟨wJ 14079 0x35F0, 0, 255, by
    repeat' apply And.intro
    all_goals first | decide +kernel | exact decOkEq _ _ (by decide +kernel) | exact readyOf _ _ _ (by decide +kernel)⟩,
   ⟨(wJ 14079 0).updScull 0 (fun c => { c with pl := 1 }), 0, 255, by
    repeat' apply And.intro
    all_goals first | decide +kernel | exact decOkEq _ _ (by decide +kernel) | exact readyOf _ _ _ (by decide +kernel)⟩⟩

theorem test_meets_RepeatsRunTheNextInstruction_3 :
    (∃ (s : State) (k : Nat) (m : BitVec 9),
    (s.nextIs k (.nop) = true) ∧ ((s.scull k).rc = m) ∧ (1 < m.toNat)) ∧
    (∃ (s : State) (k : Nat) (m : BitVec 9),
    (s.nextIs k (.nop) = true) ∧ ((s.scull k).rc = m) ∧ (m.toNat ≤ 1) ∧ ((s.scull k).pc.toNat < 8191)) :=
  ⟨⟨(wJ 13792 0).updScull 0 (fun c => { c with rc := 2 }), 0, 2, by
    repeat' apply And.intro
    all_goals first | decide +kernel | exact decOkEq _ _ (by decide +kernel) | exact readyOf _ _ _ (by decide +kernel)⟩,
   ⟨(wJ 13792 0).updScull 0 (fun c => { c with rc := 1 }), 0, 1, by
    repeat' apply And.intro
    all_goals first | decide +kernel | exact decOkEq _ _ (by decide +kernel) | exact readyOf _ _ _ (by decide +kernel)⟩⟩

theorem test_meets_PortsTakeAndGiveWords_1 :
    (∃ (s : State) (k st : Nat) (p : BitVec 4) (d : BitVec 3) (w : TWord),
    (s.nextIs k (.send p d) = true) ∧ ((s.scull k).dr d = w) ∧ (p.toNat ≤ 4) ∧ ((s.scull k).handlerHeld p.toNat = false) ∧ ((s.scull k).engineFull p.toNat w = false)) ∧
    (∃ (s : State) (k st : Nat) (p : BitVec 4) (d : BitVec 3) (w : TWord),
    (s.nextIs k (.send p d) = true) ∧ ((s.scull k).dr d = w) ∧ (p.toNat ≤ 4) ∧ ((s.scull k).handlerHeld p.toNat = false) ∧ ((s.scull k).engineFull p.toNat w = true)) ∧
    (∃ (c : Scull) (p : Nat) (w : TWord),
    ((c.partial_ p ++ [w]).length < requestWords p ((c.partial_ p ++ [w]).headD w))) ∧
    (∃ (c : Scull) (p : Nat) (w : TWord),
    (requestWords p ((c.partial_ p ++ [w]).headD w) ≤ (c.partial_ p ++ [w]).length)) :=
  ⟨⟨wJ 14081 0 (tagged 1 9), 0, 0, 0, 1, tagged 1 9, by
    repeat' apply And.intro
    all_goals first | decide +kernel | exact decOkEq _ _ (by decide +kernel) | exact readyOf _ _ _ (by decide +kernel)⟩,
   ⟨(wJ 14105 0 (tagged 1 9)).updScull 0 (fun c => { c with outstanding := [(3, 1)] }), 0, 7, 3, 1, tagged 1 9, by
    repeat' apply And.intro
    all_goals first | decide +kernel | exact decOkEq _ _ (by decide +kernel) | exact readyOf _ _ _ (by decide +kernel)⟩,
   ⟨{}, 0, 5, by
    repeat' apply And.intro
    all_goals first | decide +kernel | exact decOkEq _ _ (by decide +kernel) | exact readyOf _ _ _ (by decide +kernel)⟩,
   ⟨{ out := [(0, [1, 2, 3, 4])] }, 0, 5, by
    repeat' apply And.intro
    all_goals first | decide +kernel | exact decOkEq _ _ (by decide +kernel) | exact readyOf _ _ _ (by decide +kernel)⟩⟩

theorem test_meets_PortsTakeAndGiveWords_2 :
    (∃ (s : State) (k st : Nat) (p : BitVec 4) (d : BitVec 3),
    (s.nextIs k (.send p d) = true) ∧ (10 ≤ p.toNat)) ∧
    (∃ (s : State) (k st : Nat) (p : BitVec 4) (d : BitVec 3),
    (s.nextIs k (.recv p d) = true) ∧ (10 ≤ p.toNat)) ∧
    (∃ (s : State) (k st : Nat) (p : BitVec 4) (d : BitVec 3) (w : TWord),
    (s.nextIs k (.send p d) = true) ∧ ((s.scull k).dr d = w) ∧ (p = 5 ∨ (p = 8 ∧ (s.scull k).partial_ 8 ≠ [])) ∧ ((tag4 w).toNat ∈ [4, 5, 6])) ∧
    (∃ (s : State) (k st : Nat) (p : BitVec 4) (d : BitVec 3) (w : TWord),
    (s.nextIs k (.send p d) = true) ∧ ((s.scull k).dr d = w) ∧ (p = 7 ∨ p = 9 ∨ (p = 8 ∧ (s.scull k).partial_ 8 = [])) ∧ ((tag4 w).toNat ∈ [4, 5, 6])) :=
  ⟨⟨wJ 14161 0, 0, 0, 10, 1, by
    repeat' apply And.intro
    all_goals first | decide +kernel | exact decOkEq _ _ (by decide +kernel) | exact readyOf _ _ _ (by decide +kernel)⟩,
   ⟨wJ 14289 0, 0, 0, 10, 1, by
    repeat' apply And.intro
    all_goals first | decide +kernel | exact decOkEq _ _ (by decide +kernel) | exact readyOf _ _ _ (by decide +kernel)⟩,
   ⟨wJ 14121 0 (tagged 6 9), 0, 0, 5, 1, tagged 6 9, by
    repeat' apply And.intro
    all_goals first | decide +kernel | exact decOkEq _ _ (by decide +kernel) | exact readyOf _ _ _ (by decide +kernel)⟩,
   ⟨wJ 14153 0 (tagged 6 9), 0, 0, 9, 1, tagged 6 9, by
    repeat' apply And.intro
    all_goals first | decide +kernel | exact decOkEq _ _ (by decide +kernel) | exact readyOf _ _ _ (by decide +kernel)⟩⟩

theorem test_meets_PortsTakeAndGiveWords_3 :
    (∃ (s : State) (k st : Nat) (p : BitVec 4) (d : BitVec 3) (w : TWord) (v : BitVec 32),
    (s.nextIs k (.send p d) = true) ∧ ((s.scull k).dr d = w) ∧ (p = 9) ∧ (w = tagged 1 v) ∧ (v.msb = false) ∧ (v ≠ 0) ∧ ((s.scull k).handlerHeld p.toNat = false)) ∧
    (∃ (s : State) (k st : Nat) (p : BitVec 4) (d : BitVec 3) (w : TWord),
    (s.nextIs k (.send p d) = true) ∧ ((s.scull k).dr d = w) ∧ (p = 9) ∧ (w = tagged 1 0) ∧ ((s.scull k).handlerHeld p.toNat = false)) ∧
    (∃ (s : State) (k st : Nat) (p : BitVec 4) (d : BitVec 3) (w : TWord) (v : BitVec 32),
    (s.nextIs k (.send p d) = true) ∧ ((s.scull k).dr d = w) ∧ (p = 9) ∧ (w = tagged 1 v) ∧ (v.msb = true)) ∧
    (∃ (s : State) (k st : Nat) (p : BitVec 4) (d : BitVec 3) (w : TWord) (v : BitVec 32),
    (s.nextIs k (.send p d) = true) ∧ ((s.scull k).dr d = w) ∧ (p = 7) ∧ (w = tagged 2 v) ∧ ((s.scull k).stream = true) ∧ ((s.scull k).handlerHeld p.toNat = false) ∧ ((s.scull k).output.length + 4 ≤ (s.scull k).outLen)) :=
  ⟨⟨wJ 14153 0 (tagged 1 9), 0, 0, 9, 1, tagged 1 9, 9, by
    repeat' apply And.intro
    all_goals first | decide +kernel | exact decOkEq _ _ (by decide +kernel) | exact readyOf _ _ _ (by decide +kernel)⟩,
   ⟨wJ 14153 0 (tagged 1 0), 0, 0, 9, 1, tagged 1 0, by
    repeat' apply And.intro
    all_goals first | decide +kernel | exact decOkEq _ _ (by decide +kernel) | exact readyOf _ _ _ (by decide +kernel)⟩,
   ⟨wJ 14153 0 (tagged 1 0x80000000), 0, 0, 9, 1, tagged 1 0x80000000, 0x80000000, by
    repeat' apply And.intro
    all_goals first | decide +kernel | exact decOkEq _ _ (by decide +kernel) | exact readyOf _ _ _ (by decide +kernel)⟩,
   ⟨(wJ 14137 0 (tagged 2 9)).updScull 0 (fun c => { c with stream := true, outLen := 4 }), 0, 0, 7, 1, tagged 2 9, 9, by
    repeat' apply And.intro
    all_goals first | decide +kernel | exact decOkEq _ _ (by decide +kernel) | exact readyOf _ _ _ (by decide +kernel)⟩⟩

theorem test_meets_PortsTakeAndGiveWords_4 :
    (∃ (s : State) (k st : Nat) (p : BitVec 4) (d : BitVec 3) (w : TWord) (v : BitVec 32),
    (s.nextIs k (.send p d) = true) ∧ ((s.scull k).dr d = w) ∧ (p = 7) ∧ (w = tagged 2 v) ∧ ((s.scull k).stream = true) ∧ ((s.scull k).handlerHeld p.toNat = false) ∧ ((s.scull k).outLen < (s.scull k).output.length + 4)) ∧
    (∃ (s : State) (k st : Nat) (p : BitVec 4) (d : BitVec 3) (w : TWord) (v : BitVec 32),
    (s.nextIs k (.send p d) = true) ∧ ((s.scull k).dr d = w) ∧ (p = 7) ∧ (w = tagged 1 v) ∧ ((s.scull k).stream = true) ∧ ((s.scull k).handlerHeld p.toNat = false) ∧ ((s.scull k).lastBytes = true) ∧ (1 ≤ v.toNat) ∧ (v.toNat ≤ 3)) ∧
    (∃ (s : State) (k st : Nat) (p : BitVec 4) (d : BitVec 3) (w : TWord),
    (s.nextIs k (.send p d) = true) ∧ ((s.scull k).dr d = w) ∧ (p = 7) ∧ (w = tagged 1 0 ∨ w = tagged 2 0) ∧ ((s.scull k).stream = false)) ∧
    (∃ (s : State) (k st : Nat) (p : BitVec 4) (d : BitVec 3) (w : TWord),
    (s.nextIs k (.send p d) = true) ∧ ((s.scull k).dr d = w) ∧ (p = 5) ∧ (isCap w = false) ∧ ((s.scull k).isHook = true) ∧ ((s.scull k).hookSent.length < 3) ∧ ((s.scull k).handlerHeld p.toNat = false)) :=
  ⟨⟨(wJ 14137 0 (tagged 2 9)).updScull 0 (fun c => { c with stream := true, outLen := 3 }), 0, 0, 7, 1, tagged 2 9, 9, by
    repeat' apply And.intro
    all_goals first | decide +kernel | exact decOkEq _ _ (by decide +kernel) | exact readyOf _ _ _ (by decide +kernel)⟩,
   ⟨(wJ 14137 0 (tagged 1 3)).updScull 0 (fun c => { c with stream := true, lastBytes := true }), 0, 0, 7, 1, tagged 1 3, 3, by
    repeat' apply And.intro
    all_goals first | decide +kernel | exact decOkEq _ _ (by decide +kernel) | exact readyOf _ _ _ (by decide +kernel)⟩,
   ⟨wJ 14137 0 (tagged 2 0), 0, 0, 7, 1, tagged 2 0, by
    repeat' apply And.intro
    all_goals first | decide +kernel | exact decOkEq _ _ (by decide +kernel) | exact readyOf _ _ _ (by decide +kernel)⟩,
   ⟨(wJ 14121 0 (tagged 1 0)).updScull 0 (fun c => { c with start := some (.hook 5) }), 0, 0, 5, 1, tagged 1 0, by
    repeat' apply And.intro
    all_goals first | decide +kernel | exact decOkEq _ _ (by decide +kernel) | exact readyOf _ _ _ (by decide +kernel)⟩⟩

theorem test_meets_PortsTakeAndGiveWords_5 :
    (∃ (s : State) (k st : Nat) (p : BitVec 4) (d : BitVec 3) (w : TWord) (n : Nat),
    (s.nextIs k (.send p d) = true) ∧ ((s.scull k).dr d = w) ∧ (p = 8) ∧ (w = mkWord 1 n) ∧ (n < 2 ^ 32) ∧ ((s.scull k).partial_ 8 = []) ∧ ((s.scull k).handlerHeld p.toNat = false) ∧ (s.mailOk k w = true)) ∧
    (∃ (s : State) (k st : Nat) (p : BitVec 4) (d : BitVec 3) (w : TWord),
    (s.nextIs k (.send p d) = true) ∧ ((s.scull k).dr d = w) ∧ (p = 8) ∧ (tag4 w = 1) ∧ ((s.scull k).partial_ 8 = []) ∧ (s.mailOk k w = false)) ∧
    (∃ (s : State) (k st : Nat) (p : BitVec 4) (d : BitVec 3) (w : TWord) (n : Nat) (m : List TWord),
    (s.nextIs k (.send p d) = true) ∧ ((s.scull k).dr d = w) ∧ (p = 8) ∧ (isCap w = false) ∧ ((s.scull k).partial_ 8 = mkWord 1 n :: m) ∧ (n < 8) ∧ ((s.scull k).handlerHeld p.toNat = false) ∧ ((s.scull (eightOf k * 8 + n)).mail.length < 16)) ∧
    (∃ (s : State) (k st : Nat) (p : BitVec 4) (d : BitVec 3) (w : TWord),
    (s.nextIs k (.send p d) = true) ∧ ((s.scull k).dr d = w) ∧ (p.toNat ≤ 4) ∧ ((s.scull k).handlerHeld p.toNat = true)) :=
  ⟨⟨wJ 14145 0 (mkWord 1 2), 0, 0, 8, 1, mkWord 1 2, 2, by
    repeat' apply And.intro
    all_goals first | decide +kernel | exact decOkEq _ _ (by decide +kernel) | exact readyOf _ _ _ (by decide +kernel)⟩,
   ⟨wJ 14145 0 (mkWord 1 8), 0, 0, 8, 1, mkWord 1 8, by
    repeat' apply And.intro
    all_goals first | decide +kernel | exact decOkEq _ _ (by decide +kernel) | exact readyOf _ _ _ (by decide +kernel)⟩,
   ⟨(wJ 14145 0 (tagged 1 9)).updScull 0 (fun c => { c with out := [(8, [mkWord 1 2])] }), 0, 0, 8, 1, tagged 1 9, 2, [], by
    repeat' apply And.intro
    all_goals first | decide +kernel | exact decOkEq _ _ (by decide +kernel) | exact readyOf _ _ _ (by decide +kernel)⟩,
   ⟨(wJ 14081 0 (tagged 1 9)).updScull 0 (fun c => { c with inHandler := true, heldOut := [0] }), 0, 0, 0, 1, tagged 1 9, by
    repeat' apply And.intro
    all_goals first | decide +kernel | exact decOkEq _ _ (by decide +kernel) | exact readyOf _ _ _ (by decide +kernel)⟩⟩

theorem test_meets_PortsTakeAndGiveWords_6 :
    (∃ (s : State) (k st : Nat) (p : BitVec 4) (d : BitVec 3) (w : TWord) (rest : List TWord),
    (s.nextIs k (.recv p d) = true) ∧ (p.toNat ≤ 5) ∧ (p = 5 → (s.scull k).isHook = true) ∧ ((s.scull k).queue p.toNat = w :: rest)) ∧
    (∃ (s : State) (k st : Nat) (p : BitVec 4) (d : BitVec 3),
    (s.nextIs k (.recv p d) = true) ∧ (p.toNat ≤ 4) ∧ ((s.scull k).queue p.toNat = []) ∧ ((s.scull k).out_ p.toNat = 0)) ∧
    (∃ (s : State) (k st : Nat) (p : BitVec 4) (d : BitVec 3),
    (s.nextIs k (.recv p d) = true) ∧ (p.toNat ≤ 4) ∧ ((s.scull k).queue p.toNat = []) ∧ ((s.scull k).out_ p.toNat ≠ 0)) ∧
    (∃ (s : State) (k st : Nat) (p : BitVec 4) (d : BitVec 3),
    (s.nextIs k (.recv p d) = true) ∧ (p = 5 ∧ (s.scull k).isHook = false ∨ p = 6 ∧ (s.scull k).stream = false ∨ p = 7)) :=
  ⟨⟨(wJ 14225 0).updScull 0 (fun c => { c with inq := [(2, [7, 8])] }), 0, 0, 2, 1, 7, [8], by
    repeat' apply And.intro
    all_goals first | decide +kernel | exact decOkEq _ _ (by decide +kernel) | exact readyOf _ _ _ (by decide +kernel)⟩,
   ⟨wJ 14225 0, 0, 0, 2, 1, by
    repeat' apply And.intro
    all_goals first | decide +kernel | exact decOkEq _ _ (by decide +kernel) | exact readyOf _ _ _ (by decide +kernel)⟩,
   ⟨(wJ 14225 0).updScull 0 (fun c => { c with outstanding := [(2, 1)] }), 0, 9, 2, 1, by
    repeat' apply And.intro
    all_goals first | decide +kernel | exact decOkEq _ _ (by decide +kernel) | exact readyOf _ _ _ (by decide +kernel)⟩,
   ⟨wJ 14265 0, 0, 0, 7, 1, by
    repeat' apply And.intro
    all_goals first | decide +kernel | exact decOkEq _ _ (by decide +kernel) | exact readyOf _ _ _ (by decide +kernel)⟩⟩

theorem test_meets_PortsTakeAndGiveWords_7 :
    (∃ (s : State) (k st : Nat) (p : BitVec 4) (d : BitVec 3),
    (s.nextIs k (.recv p d) = true) ∧ (p = 6) ∧ ((s.scull k).stream = true) ∧ ((s.scull k).feed ≠ [])) ∧
    (∃ (s : State) (k st : Nat) (p : BitVec 4) (d : BitVec 3),
    (s.nextIs k (.recv p d) = true) ∧ (p = 9) ∧ ((s.scull k).timerExpired = true)) ∧
    (∃ (s : State) (k st : Nat) (p : BitVec 4) (d : BitVec 3),
    (s.nextIs k (.recv p d) = true) ∧ (p = 9) ∧ ((s.scull k).timerExpired = false) ∧ ((s.scull k).timer = none)) ∧
    (∃ (s : State) (k st : Nat) (p : BitVec 4) (d : BitVec 3) (src : Nat) (w : TWord) (rest : List (Nat × TWord)),
    (s.nextIs k (.recv p d) = true) ∧ (p = 8) ∧ ((s.scull k).mail = (src, w) :: rest) ∧ ((s.scull k).mailHalf = false)) :=
  ⟨⟨(wJ 14257 0).updScull 0 (fun c => { c with stream := true, feed := [1, 2, 3, 4] }), 0, 0, 6, 1, by
    repeat' apply And.intro
    all_goals first | decide +kernel | exact decOkEq _ _ (by decide +kernel) | exact readyOf _ _ _ (by decide +kernel)⟩,
   ⟨(wJ 14281 0).updScull 0 (fun c => { c with timerExpired := true }), 0, 0, 9, 1, by
    repeat' apply And.intro
    all_goals first | decide +kernel | exact decOkEq _ _ (by decide +kernel) | exact readyOf _ _ _ (by decide +kernel)⟩,
   ⟨wJ 14281 0, 0, 0, 9, 1, by
    repeat' apply And.intro
    all_goals first | decide +kernel | exact decOkEq _ _ (by decide +kernel) | exact readyOf _ _ _ (by decide +kernel)⟩,
   ⟨(wJ 14273 0).updScull 0 (fun c => { c with mail := [(3, 7)] }), 0, 0, 8, 1, 3, 7, [], by
    repeat' apply And.intro
    all_goals first | decide +kernel | exact decOkEq _ _ (by decide +kernel) | exact readyOf _ _ _ (by decide +kernel)⟩⟩

theorem test_meets_PortsTakeAndGiveWords_8 :
    (∃ (s : State) (k st : Nat) (p : BitVec 4) (d : BitVec 3) (src : Nat) (w : TWord) (rest : List (Nat × TWord)),
    (s.nextIs k (.recv p d) = true) ∧ (p = 8) ∧ ((s.scull k).mail = (src, w) :: rest) ∧ ((s.scull k).mailHalf = true)) :=
  ⟨(wJ 14273 0).updScull 0 (fun c => { c with mail := [(3, 7)], mailHalf := true }), 0, 0, 8, 1, 3, 7, [], by
    repeat' apply And.intro
    all_goals first | decide +kernel | exact decOkEq _ _ (by decide +kernel) | exact readyOf _ _ _ (by decide +kernel)⟩

theorem test_meets_InterruptsTrapsAndTheEndOfAnInvocation_1 :
    (∃ (s : State) (k : Nat),
    (s.nextIs k (.ei) = true) ∧ (tag4 (s.scull k).ivec = 5) ∧ ((s.scull k).inHandler = false)) ∧
    (∃ (s : State) (k : Nat),
    (s.nextIs k (.ei) = true) ∧ (tag4 (s.scull k).ivec ≠ 5)) ∧
    (∃ (s : State) (k : Nat),
    (s.nextIs k (.ei) = true) ∧ (tag4 (s.scull k).ivec = 5) ∧ ((s.scull k).inHandler = true)) ∧
    (∃ (s : State) (k : Nat),
    (s.nextIs k (.di) = true)) :=
  ⟨⟨(wJ 13795 0).updScull 0 (fun c => { c with ivec := mkWord 5 7 }), 0, by
    repeat' apply And.intro
    all_goals first | decide +kernel | exact decOkEq _ _ (by decide +kernel) | exact readyOf _ _ _ (by decide +kernel)⟩,
   ⟨wJ 13795 0, 0, by
    repeat' apply And.intro
    all_goals first | decide +kernel | exact decOkEq _ _ (by decide +kernel) | exact readyOf _ _ _ (by decide +kernel)⟩,
   ⟨(wJ 13795 0).updScull 0 (fun c => { c with ivec := mkWord 5 7, inHandler := true }), 0, by
    repeat' apply And.intro
    all_goals first | decide +kernel | exact decOkEq _ _ (by decide +kernel) | exact readyOf _ _ _ (by decide +kernel)⟩,
   ⟨wJ 13796 0, 0, by
    repeat' apply And.intro
    all_goals first | decide +kernel | exact decOkEq _ _ (by decide +kernel) | exact readyOf _ _ _ (by decide +kernel)⟩⟩

theorem test_meets_InterruptsTrapsAndTheEndOfAnInvocation_2 :
    (∃ (s : State) (k n : Nat) (r : BitVec 9),
    (s.nextIs k (.reti) = true) ∧ ((s.scull k).inHandler = true) ∧ ((s.scull k).iret = mkWord 5 (n + r.toNat * 2 ^ 13)) ∧ (n < 2 ^ 13)) ∧
    (∃ (s : State) (k : Nat),
    (s.nextIs k (.reti) = true) ∧ ((s.scull k).inHandler = false)) ∧
    (∃ (s : State) (k n : Nat),
    (k < 32) ∧ ((s.scull k).alive = true) ∧ (s.psm.mode.runsSculls = true) ∧ ((s.scull k).noPoint = false) ∧ ((s.scull k).budget ≠ 0) ∧ ((s.scull k).ien = true) ∧ ((s.scull k).mail ≠ [] ∨ (s.scull k).timerExpired = true) ∧ ((s.scull k).ivec = mkWord 5 n) ∧ (n < 2 ^ 13)) ∧
    (∃ (s : State) (k t : Nat),
    ((s.scull k).alive = true) ∧ (s.psm.mode.runsSculls = true) ∧ ((s.scull k).timer = some t)) :=
  ⟨⟨(wJ 13794 0).updScull 0 (fun c => { c with inHandler := true, iret := mkWord 5 (5 + 27 * 8192) }), 0, 5, 27, by
    repeat' apply And.intro
    all_goals first | decide +kernel | exact decOkEq _ _ (by decide +kernel) | exact readyOf _ _ _ (by decide +kernel)⟩,
   ⟨wJ 13794 0, 0, by
    repeat' apply And.intro
    all_goals first | decide +kernel | exact decOkEq _ _ (by decide +kernel) | exact readyOf _ _ _ (by decide +kernel)⟩,
   ⟨(wJ 13794 0).updScull 0 (fun c => { c with ien := true, timerExpired := true, ivec := mkWord 5 7 }), 0, 7, by
    repeat' apply And.intro
    all_goals first | decide +kernel | exact decOkEq _ _ (by decide +kernel) | exact readyOf _ _ _ (by decide +kernel)⟩,
   ⟨(wJ 13794 0).updScull 0 (fun c => { c with timer := some 5 }), 0, 5, by
    repeat' apply And.intro
    all_goals first | decide +kernel | exact decOkEq _ _ (by decide +kernel) | exact readyOf _ _ _ (by decide +kernel)⟩⟩

theorem test_meets_InterruptsTrapsAndTheEndOfAnInvocation_3 :
    (∃ (s : State) (k : Nat),
    (k < 32) ∧ ((s.scull k).alive = true) ∧ (s.psm.mode.runsSculls = true) ∧ ((s.scull k).noPoint = false) ∧ ((s.scull k).budget = 0)) ∧
    (∃ (s : State) (k pc : Nat) (t : Trap),
    True) ∧
    (∃ (s : State) (k : Nat),
    (k < 32) ∧ ((s.scull k).alive = true) ∧ (s.psm.mode.runsSculls = true) ∧ ((s.scull k).pointTaken = false) ∧ (s.filterOf k = none) ∧ ((s.scull k).pl ≤ (s.scull k).pc.toNat)) ∧
    (∃ (s : State) (k : Nat),
    (k < 32) ∧ ((s.scull k).alive = true) ∧ (s.psm.mode.runsSculls = true) ∧ ((s.scull k).pointTaken = false) ∧ (s.filterOf k = none) ∧ ((s.scull k).pastEnd = false) ∧ ((s.scull k).pc.toNat + wordsOf ((s.scull k).word (s.scull k).pc.toNat) ≤ (s.scull k).pl) ∧ (jeriecDecode ((s.scull k).word (s.scull k).pc.toNat) ((s.scull k).word ((s.scull k).pc.toNat + 1)) = none)) :=
  ⟨⟨(wJ 13794 0).updScull 0 (fun c => { c with budget := 0 }), 0, by
    repeat' apply And.intro
    all_goals first | decide +kernel | exact decOkEq _ _ (by decide +kernel) | exact readyOf _ _ _ (by decide +kernel)⟩,
   ⟨wHost, 0, 5, .budget, by
    repeat' apply And.intro
    all_goals first | decide +kernel | exact decOkEq _ _ (by decide +kernel) | exact readyOf _ _ _ (by decide +kernel)⟩,
   ⟨(wJ 13794 0).updScull 0 (fun c => { c with pl := 0 }), 0, by
    repeat' apply And.intro
    all_goals first | decide +kernel | exact decOkEq _ _ (by decide +kernel) | exact readyOf _ _ _ (by decide +kernel)⟩,
   ⟨wJ 0x35F0 0, 0, by
    repeat' apply And.intro
    all_goals first | decide +kernel | exact decOkEq _ _ (by decide +kernel) | exact readyOf _ _ _ (by decide +kernel)⟩⟩

theorem test_meets_InterruptsTrapsAndTheEndOfAnInvocation_4 :
    (∃ (s : State) (k : Nat) (op : JOp),
    (k < 32) ∧ ((s.scull k).alive = true) ∧ (s.psm.mode.runsSculls = true) ∧ ((s.scull k).pointTaken = false) ∧ (s.filterOf k = none) ∧ ((s.scull k).pastEnd = false) ∧ ((s.scull k).pc.toNat + wordsOf ((s.scull k).word (s.scull k).pc.toNat) ≤ (s.scull k).pl) ∧ (jeriecDecode ((s.scull k).word (s.scull k).pc.toNat) ((s.scull k).word ((s.scull k).pc.toNat + 1)) = some op)) ∧
    (∃ (s : State) (k n v : Nat) (id : CmdId) (x : Cmd),
    (s.nextIs k (.endInv) = true) ∧ (s.filterOf k = none) ∧ ((s.scull k).start = some (.invoke id)) ∧ (s.cmd id = some x) ∧ (x.result = none) ∧ ((s.scull k).stream = false) ∧ (Mem.get 0 (s.scull k).d 0 = mkWord 1 n) ∧ (n < 2 ^ 32) ∧ (n ≤ (s.scull k).outLen) ∧ (Mem.get 0 (s.scull k).d 1 = mkWord 1 v) ∧ (v < 2 ^ 32)) ∧
    (∃ (s : State) (k : Nat) (id : CmdId),
    (s.nextIs k (.endInv) = true) ∧ (s.filterOf k = none) ∧ ((s.scull k).start = some (.hook id))) :=
  ⟨⟨wJ 13792 0, 0, .nop, by
    repeat' apply And.intro
    all_goals first | decide +kernel | exact decOkEq _ _ (by decide +kernel) | exact readyOf _ _ _ (by decide +kernel)⟩,
   ⟨((wJ 13793 0 (mkWord 1 7)).setCmd 5 (some (wCmd wInvoke))).updScull 0 (fun c => { c with start := some (.invoke 5), d := [(0, mkWord 1 0), (1, mkWord 1 7)] }), 0, 0, 7, 5, wCmd wInvoke, by
    repeat' apply And.intro
    all_goals first | decide +kernel | exact decOkEq _ _ (by decide +kernel) | exact readyOf _ _ _ (by decide +kernel)⟩,
   ⟨(wJ 13793 0).updScull 0 (fun c => { c with start := some (.hook 5) }), 0, 5, by
    repeat' apply And.intro
    all_goals first | decide +kernel | exact decOkEq _ _ (by decide +kernel) | exact readyOf _ _ _ (by decide +kernel)⟩⟩

theorem test_meets_TablesAreUpdatedAndSearched_1 :
    (∃ (s : State) (id : CmdId) (c : Cmd) (d : Bytes) (f : AsuFault),
    (s.live id false 0xA1 = some c) ∧ (c.sqe.nsid ≠ 0xFFFFFFFF)) ∧
    (∃ (s : State) (id : CmdId) (c : Cmd) (d : Bytes) (f : AsuFault),
    (s.live id false 0xA1 = some c) ∧ (c.sqe.nsid = 0xFFFFFFFF) ∧ (field c.sqe.cdw10.toNat 31 16 = 0) ∧ (field c.sqe.cdw11.toNat 31 15 = 0) ∧ (c.sqe.cdw12 = 0) ∧ (c.sqe.cdw13 = 0) ∧ (c.sqe.cdw14 = 0) ∧ (c.sqe.cdw15 = 0) ∧ (field c.sqe.cdw11.toNat 14 0 = 0 ∨ 21845 < field c.sqe.cdw11.toNat 14 0)) ∧
    (∃ (s : State) (id : CmdId) (c : Cmd) (d : Bytes) (f : AsuFault),
    (s.live id false 0xA1 = some c) ∧ (c.sqe.nsid = 0xFFFFFFFF) ∧ (field c.sqe.cdw10.toNat 31 16 = 0) ∧ (field c.sqe.cdw11.toNat 31 15 = 0) ∧ (c.sqe.cdw12 = 0) ∧ (c.sqe.cdw13 = 0) ∧ (c.sqe.cdw14 = 0) ∧ (c.sqe.cdw15 = 0) ∧ (1 ≤ field c.sqe.cdw11.toNat 14 0) ∧ (field c.sqe.cdw11.toNat 14 0 ≤ 21845) ∧ (c.sqe.sgl = false) ∧ (s.tableFor c.func (field c.sqe.cdw10.toNat 15 0) id = none)) ∧
    (∃ (s : State) (id : CmdId) (c : Cmd) (d : Bytes) (f : AsuFault) (t : Table),
    (s.live id false 0xA1 = some c) ∧ (c.sqe.nsid = 0xFFFFFFFF) ∧ (field c.sqe.cdw10.toNat 31 16 = 0) ∧ (field c.sqe.cdw11.toNat 31 15 = 0) ∧ (c.sqe.cdw12 = 0) ∧ (c.sqe.cdw13 = 0) ∧ (c.sqe.cdw14 = 0) ∧ (c.sqe.cdw15 = 0) ∧ (1 ≤ field c.sqe.cdw11.toNat 14 0) ∧ (field c.sqe.cdw11.toNat 14 0 ≤ 21845) ∧ (c.sqe.sgl = false) ∧ (s.tableFor c.func (field c.sqe.cdw10.toNat 15 0) id = some t) ∧ (s.tableDown t = true)) :=
  ⟨⟨wAsu (wAt ({ wSqe false 0xA1 with nsid := 1, cdw10 := 7, cdw11 := 1 })), 5, wCmd ({ wSqe false 0xA1 with nsid := 1, cdw10 := 7, cdw11 := 1 }), [], .none, by
    repeat' apply And.intro
    all_goals first | decide +kernel | exact decOkEq _ _ (by decide +kernel) | exact readyOf _ _ _ (by decide +kernel)⟩,
   ⟨wAsu (wAt ({ wSqe false 0xA1 with nsid := 0xFFFFFFFF, cdw10 := 7, cdw11 := 21846 })), 5, wCmd ({ wSqe false 0xA1 with nsid := 0xFFFFFFFF, cdw10 := 7, cdw11 := 21846 }), [], .none, by
    repeat' apply And.intro
    all_goals first | decide +kernel | exact decOkEq _ _ (by decide +kernel) | exact readyOf _ _ _ (by decide +kernel)⟩,
   ⟨wAt ({ wSqe false 0xA1 with nsid := 0xFFFFFFFF, cdw10 := 7, cdw11 := 21845 }), 5, wCmd ({ wSqe false 0xA1 with nsid := 0xFFFFFFFF, cdw10 := 7, cdw11 := 21845 }), [], .none, by
    repeat' apply And.intro
    all_goals first | decide +kernel | exact decOkEq _ _ (by decide +kernel) | exact readyOf _ _ _ (by decide +kernel)⟩,
   ⟨(let s := wAsu (wAt ({ wSqe false 0xA1 with nsid := 0xFFFFFFFF, cdw10 := 7, cdw11 := 1 })); { s with psm := { s.psm with halt := { s.psm.halt with withdrawn := [.asu 2] } } }), 5, wCmd ({ wSqe false 0xA1 with nsid := 0xFFFFFFFF, cdw10 := 7, cdw11 := 1 }), [], .none, wTable, by
    repeat' apply And.intro
    all_goals first | decide +kernel | exact decOkEq _ _ (by decide +kernel) | exact readyOf _ _ _ (by decide +kernel)⟩⟩

theorem test_meets_TablesAreUpdatedAndSearched_2 :
    (∃ (s : State) (id : CmdId) (c : Cmd) (d : Bytes) (f : AsuFault) (t : Table),
    (s.live id false 0xA1 = some c) ∧ (c.sqe.nsid = 0xFFFFFFFF) ∧ (field c.sqe.cdw10.toNat 31 16 = 0) ∧ (field c.sqe.cdw11.toNat 31 15 = 0) ∧ (c.sqe.cdw12 = 0) ∧ (c.sqe.cdw13 = 0) ∧ (c.sqe.cdw14 = 0) ∧ (c.sqe.cdw15 = 0) ∧ (1 ≤ field c.sqe.cdw11.toNat 14 0) ∧ (field c.sqe.cdw11.toNat 14 0 ≤ 21845) ∧ (c.sqe.sgl = false) ∧ (s.tableFor c.func (field c.sqe.cdw10.toNat 15 0) id = some t) ∧ (s.tableDown t = false)) ∧
    (∃ (s u : State) (t : Table) (f : AsuFault) (bs : Bytes) (bl : List Bytes) (n : Nat) (e : Status),
    (s.applyRecord t bs f = .error (u, e))) ∧
    (∃ (s u : State) (t : Table) (f : AsuFault) (bs : Bytes) (bl : List Bytes) (n : Nat),
    (s.applyRecord t bs f = .ok u)) ∧
    (∃ (s : State) (t : Table) (f : AsuFault) (bl : List Bytes) (n : Nat),
    True) :=
  ⟨⟨wAsu (wAt ({ wSqe false 0xA1 with nsid := 0xFFFFFFFF, cdw10 := 7, cdw11 := 1 })), 5, wCmd ({ wSqe false 0xA1 with nsid := 0xFFFFFFFF, cdw10 := 7, cdw11 := 1 }), [255], .none, wTable, by
    repeat' apply And.intro
    all_goals first | decide +kernel | exact decOkEq _ _ (by decide +kernel) | exact readyOf _ _ _ (by decide +kernel)⟩,
   ⟨wAsu wHost, wAsu wHost, wTable, .none, leBytes 96 512, [], 3, .tenantQuota, errIs _ _ (by decide +kernel)⟩,
   ⟨wAsu wHost, okOf ((wAsu wHost).applyRecord wTable (leBytes 96 511) .none) (by decide +kernel), wTable, .none, leBytes 96 511, [], 3, okOf_eq _ _⟩,
   ⟨wHost, wTable, .none, [], 3, by
    repeat' apply And.intro
    all_goals first | decide +kernel | exact decOkEq _ _ (by decide +kernel) | exact readyOf _ _ _ (by decide +kernel)⟩⟩

theorem test_meets_TablesAreUpdatedAndSearched_3 :
    (∃ (s : State) (t : Table) (bs : Bytes) (f : AsuFault),
    (field (leNat bs) 25 24 = 0) ∧ (field (leNat bs) 31 26 = 0) ∧ (field (leNat bs) 63 52 = 0) ∧ (field (leNat bs) 767 704 = 0) ∧ (keyFits t (BitVec.ofNat 288 (field (leNat bs) 415 128)) (BitVec.ofNat 288 (field (leNat bs) 703 416)) = true) ∧ (field (leNat bs) 23 0 < t.capacity) ∧ (s.rowFault t f [field (leNat bs) 23 0] = none)) ∧
    (∃ (s : State) (t : Table) (bs : Bytes) (f : AsuFault),
    (leNat bs / 2 ^ 26 = 0) ∧ (field (leNat bs) 25 24 = 1) ∧ (field (leNat bs) 23 0 < t.capacity) ∧ (s.rowFault t f [field (leNat bs) 23 0] = none)) ∧
    (∃ (s : State) (t : Table) (bs : Bytes) (f : AsuFault) (u : State),
    (field (leNat bs) 25 24 = 0) ∧ (field (leNat bs) 31 26 = 0) ∧ (field (leNat bs) 63 52 = 0) ∧ (field (leNat bs) 767 704 = 0) ∧ (keyFits t (BitVec.ofNat 288 (field (leNat bs) 415 128)) (BitVec.ofNat 288 (field (leNat bs) 703 416)) = true) ∧ (field (leNat bs) 23 0 < t.capacity) ∧ (s.rowFault t f [field (leNat bs) 23 0] = some u)) ∧
    (∃ (s : State) (t : Table) (bs : Bytes) (f : AsuFault),
    (2 ≤ field (leNat bs) 25 24)) :=
  ⟨⟨wAsu wHost, wTable, leBytes 96 (511 + 255 * 2 ^ 32 + 4095 * 2 ^ 40 + 5 * 2 ^ 128 + 255 * 2 ^ 416), .none, by
    repeat' apply And.intro
    all_goals first | decide +kernel | exact decOkEq _ _ (by decide +kernel) | exact readyOf _ _ _ (by decide +kernel)⟩,
   ⟨wAsu wHost, wTable, leBytes 96 (511 + 2 ^ 24), .none, by
    repeat' apply And.intro
    all_goals first | decide +kernel | exact decOkEq _ _ (by decide +kernel) | exact readyOf _ _ _ (by decide +kernel)⟩,
   ⟨wAsu wHost, wTable, leBytes 96 (511 + 255 * 2 ^ 32 + 4095 * 2 ^ 40 + 5 * 2 ^ 128 + 255 * 2 ^ 416), .rowParity 11 127, ((wAsu wHost).rowFault wTable (.rowParity 11 127) [511]).get (by decide +kernel), by
    repeat' apply And.intro
    all_goals first | decide +kernel | exact decOkEq _ _ (by decide +kernel) | exact readyOf _ _ _ (by decide +kernel)⟩,
   ⟨wAsu wHost, wTable, leBytes 96 (2 ^ 25), .none, by
    repeat' apply And.intro
    all_goals first | decide +kernel | exact decOkEq _ _ (by decide +kernel) | exact readyOf _ _ _ (by decide +kernel)⟩⟩

theorem test_meets_TablesAreUpdatedAndSearched_4 :
    (∃ (s : State) (t : Table) (bs : Bytes) (f : AsuFault),
    (field (leNat bs) 25 24 = 0) ∧ (field (leNat bs) 31 26 = 0) ∧ (field (leNat bs) 63 52 = 0) ∧ (field (leNat bs) 767 704 = 0) ∧ (keyFits t (BitVec.ofNat 288 (field (leNat bs) 415 128)) (BitVec.ofNat 288 (field (leNat bs) 703 416)) = true) ∧ (t.capacity ≤ field (leNat bs) 23 0)) ∧
    (∃ (s : State) (t : Table) (bank row : Nat) (l : List Nat),
    (∃ n ∈ l, (bank, row) ∈ t.rows n)) ∧
    (∃ (s : State) (t : Table) (bank row : Nat) (l : List Nat),
    (∀ n ∈ l, ¬ (bank, row) ∈ t.rows n)) ∧
    (∃ (s : State) (t : Table) (n m : Nat) (r : Option Row),
    (m ≠ n)) :=
  ⟨⟨wAsu wHost, wTable, leBytes 96 (512 + 255 * 2 ^ 32 + 4095 * 2 ^ 40 + 5 * 2 ^ 128 + 255 * 2 ^ 416), .none, by
    repeat' apply And.intro
    all_goals first | decide +kernel | exact decOkEq _ _ (by decide +kernel) | exact readyOf _ _ _ (by decide +kernel)⟩,
   ⟨wAsu wHost, wTable, 11, 127, [3, 511], by
    repeat' apply And.intro
    all_goals first | decide +kernel | exact decOkEq _ _ (by decide +kernel) | exact readyOf _ _ _ (by decide +kernel)⟩,
   ⟨wAsu wHost, wTable, 12, 127, [3, 511], by
    repeat' apply And.intro
    all_goals first | decide +kernel | exact decOkEq _ _ (by decide +kernel) | exact readyOf _ _ _ (by decide +kernel)⟩,
   ⟨wAsu wHost, wTable, 3, 511, none, by
    repeat' apply And.intro
    all_goals first | decide +kernel | exact decOkEq _ _ (by decide +kernel) | exact readyOf _ _ _ (by decide +kernel)⟩⟩

theorem test_meets_TablesAreUpdatedAndSearched_5 :
    (∃ (s : State) (id : CmdId) (c : Cmd) (d : Bytes) (f : AsuFault) (bs : List Bytes),
    (s.live id false 0xA2 = some c) ∧ (chunksOf 48 (padTo (48 * field c.sqe.cdw11.toNat 12 0) d) = bs) ∧ (c.sqe.nsid ≠ 0xFFFFFFFF)) ∧
    (∃ (s : State) (id : CmdId) (c : Cmd) (d : Bytes) (f : AsuFault) (bs : List Bytes),
    (s.live id false 0xA2 = some c) ∧ (chunksOf 48 (padTo (48 * field c.sqe.cdw11.toNat 12 0) d) = bs) ∧ (c.sqe.nsid = 0xFFFFFFFF) ∧ (indexSearchOk c.sqe = false ∨ bs.all searchFieldsOk = false)) ∧
    (∃ (s : State) (id : CmdId) (c : Cmd) (d : Bytes) (f : AsuFault) (bs : List Bytes),
    (s.live id false 0xA2 = some c) ∧ (chunksOf 48 (padTo (48 * field c.sqe.cdw11.toNat 12 0) d) = bs) ∧ (c.sqe.nsid = 0xFFFFFFFF) ∧ (indexSearchOk c.sqe = true) ∧ (bs.all searchFieldsOk = true) ∧ ((bs.map (fun b => 16 * (1 + (searchOf b).max))).foldl (· + ·) 0 ≤ 2097152) ∧ (c.sqe.sgl = false) ∧ (s.tableFor c.func (field c.sqe.cdw10.toNat 15 0) id = none)) ∧
    (∃ (s : State) (id : CmdId) (c : Cmd) (d : Bytes) (f : AsuFault) (bs : List Bytes) (t : Table),
    (s.live id false 0xA2 = some c) ∧ (chunksOf 48 (padTo (48 * field c.sqe.cdw11.toNat 12 0) d) = bs) ∧ (c.sqe.nsid = 0xFFFFFFFF) ∧ (indexSearchOk c.sqe = true) ∧ (bs.all searchFieldsOk = true) ∧ ((bs.map (fun b => 16 * (1 + (searchOf b).max))).foldl (· + ·) 0 ≤ 2097152) ∧ (c.sqe.sgl = false) ∧ (s.tableFor c.func (field c.sqe.cdw10.toNat 15 0) id = some t) ∧ (bs.any (fun b => decide (2 ^ t.bits ≤ (searchOf b).key.toNat)) = true)) :=
  ⟨⟨wAsu (wAt ({ wSqe false 0xA2 with nsid := 1, cdw10 := 7, cdw11 := 1 })), 5, wCmd ({ wSqe false 0xA2 with nsid := 1, cdw10 := 7, cdw11 := 1 }), (List.replicate 8 0 ++ [5] ++ List.replicate 39 0), .none, [(List.replicate 8 0 ++ [5] ++ List.replicate 39 0)], by
    repeat' apply And.intro
    all_goals first | decide +kernel | exact decOkEq _ _ (by decide +kernel) | exact readyOf _ _ _ (by decide +kernel)⟩,
   ⟨wAsu (wAt ({ wSqe false 0xA2 with nsid := 0xFFFFFFFF, cdw10 := 7, cdw11 := 1 })), 5, wCmd ({ wSqe false 0xA2 with nsid := 0xFFFFFFFF, cdw10 := 7, cdw11 := 1 }), ([0, 2] ++ List.replicate 6 0 ++ [5] ++ List.replicate 39 0), .none, [([0, 2] ++ List.replicate 6 0 ++ [5] ++ List.replicate 39 0)], by
    repeat' apply And.intro
    all_goals first | decide +kernel | exact decOkEq _ _ (by decide +kernel) | exact readyOf _ _ _ (by decide +kernel)⟩,
   ⟨wAt ({ wSqe false 0xA2 with nsid := 0xFFFFFFFF, cdw10 := 7, cdw11 := 1 }), 5, wCmd ({ wSqe false 0xA2 with nsid := 0xFFFFFFFF, cdw10 := 7, cdw11 := 1 }), (List.replicate 8 0 ++ [5] ++ List.replicate 39 0), .none, [(List.replicate 8 0 ++ [5] ++ List.replicate 39 0)], by
    repeat' apply And.intro
    all_goals first | decide +kernel | exact decOkEq _ _ (by decide +kernel) | exact readyOf _ _ _ (by decide +kernel)⟩,
   ⟨wAsu (wAt ({ wSqe false 0xA2 with nsid := 0xFFFFFFFF, cdw10 := 7, cdw11 := 2 })), 5, wCmd ({ wSqe false 0xA2 with nsid := 0xFFFFFFFF, cdw10 := 7, cdw11 := 2 }), (List.replicate 8 0 ++ [5] ++ List.replicate 56 0 ++ [1] ++ List.replicate 30 0), .none, [(List.replicate 8 0 ++ [5] ++ List.replicate 39 0), (List.replicate 17 0 ++ [1] ++ List.replicate 30 0)], wTable, by
    repeat' apply And.intro
    all_goals first | decide +kernel | exact decOkEq _ _ (by decide +kernel) | exact readyOf _ _ _ (by decide +kernel)⟩⟩

theorem test_meets_TablesAreUpdatedAndSearched_6 :
    (∃ (s : State) (id : CmdId) (c : Cmd) (d : Bytes) (f : AsuFault) (bs : List Bytes) (t : Table),
    (s.live id false 0xA2 = some c) ∧ (chunksOf 48 (padTo (48 * field c.sqe.cdw11.toNat 12 0) d) = bs) ∧ (c.sqe.nsid = 0xFFFFFFFF) ∧ (indexSearchOk c.sqe = true) ∧ (bs.all searchFieldsOk = true) ∧ ((bs.map (fun b => 16 * (1 + (searchOf b).max))).foldl (· + ·) 0 ≤ 2097152) ∧ (c.sqe.sgl = false) ∧ (s.tableFor c.func (field c.sqe.cdw10.toNat 15 0) id = some t) ∧ (bs.all (fun b => decide ((searchOf b).key.toNat < 2 ^ t.bits)) = true) ∧ (s.tableDown t = true)) ∧
    (∃ (s : State) (id : CmdId) (c : Cmd) (d : Bytes) (f : AsuFault) (bs : List Bytes) (t : Table),
    (s.live id false 0xA2 = some c) ∧ (chunksOf 48 (padTo (48 * field c.sqe.cdw11.toNat 12 0) d) = bs) ∧ (c.sqe.nsid = 0xFFFFFFFF) ∧ (indexSearchOk c.sqe = true) ∧ (bs.all searchFieldsOk = true) ∧ ((bs.map (fun b => 16 * (1 + (searchOf b).max))).foldl (· + ·) 0 ≤ 2097152) ∧ (c.sqe.sgl = false) ∧ (s.tableFor c.func (field c.sqe.cdw10.toNat 15 0) id = some t) ∧ (bs.all (fun b => decide ((searchOf b).key.toNat < 2 ^ t.bits)) = true) ∧ (s.tableDown t = false) ∧ (s.asuFault t f ((bs.map (fun b => ((s.matches t (searchOf b)).take (searchOf b).max).map (·.1))).flatten) = none)) ∧
    (∃ (s : State) (id : CmdId) (c : Cmd) (d : Bytes) (f : AsuFault) (bs : List Bytes) (t : Table) (u : State),
    (s.live id false 0xA2 = some c) ∧ (chunksOf 48 (padTo (48 * field c.sqe.cdw11.toNat 12 0) d) = bs) ∧ (c.sqe.nsid = 0xFFFFFFFF) ∧ (indexSearchOk c.sqe = true) ∧ (bs.all searchFieldsOk = true) ∧ ((bs.map (fun b => 16 * (1 + (searchOf b).max))).foldl (· + ·) 0 ≤ 2097152) ∧ (c.sqe.sgl = false) ∧ (s.tableFor c.func (field c.sqe.cdw10.toNat 15 0) id = some t) ∧ (bs.all (fun b => decide ((searchOf b).key.toNat < 2 ^ t.bits)) = true) ∧ (s.tableDown t = false) ∧ (s.asuFault t f ((bs.map (fun b => ((s.matches t (searchOf b)).take (searchOf b).max).map (·.1))).flatten) = some u)) ∧
    (∃ (s : State) (t : Table) (l : List Nat) (g w : Nat),
    (g ∈ t.groups)) :=
  ⟨⟨(let s := wAsu (wAt ({ wSqe false 0xA2 with nsid := 0xFFFFFFFF, cdw10 := 7, cdw11 := 1 })); { s with psm := { s.psm with halt := { s.psm.halt with withdrawn := [.asu 2] } } }), 5, wCmd ({ wSqe false 0xA2 with nsid := 0xFFFFFFFF, cdw10 := 7, cdw11 := 1 }), (List.replicate 8 0 ++ [5] ++ List.replicate 39 0), .none, [(List.replicate 8 0 ++ [5] ++ List.replicate 39 0)], wTable, by
    repeat' apply And.intro
    all_goals first | decide +kernel | exact decOkEq _ _ (by decide +kernel) | exact readyOf _ _ _ (by decide +kernel)⟩,
   ⟨wAsu (wAt ({ wSqe false 0xA2 with nsid := 0xFFFFFFFF, cdw10 := 7, cdw11 := 2 })), 5, wCmd ({ wSqe false 0xA2 with nsid := 0xFFFFFFFF, cdw10 := 7, cdw11 := 2 }), ([0, 0, 1, 0, 0, 0, 0, 0, 5] ++ List.replicate 47 0 ++ List.replicate 9 255 ++ List.replicate 31 0), .disagree 3 0, [([0, 0, 1, 0, 0, 0, 0, 0, 5] ++ List.replicate 39 0), (List.replicate 8 0 ++ List.replicate 9 255 ++ List.replicate 31 0)], wTable, by
    repeat' apply And.intro
    all_goals first | decide +kernel | exact decOkEq _ _ (by decide +kernel) | exact readyOf _ _ _ (by decide +kernel)⟩,
   ⟨wAsu (wAt ({ wSqe false 0xA2 with nsid := 0xFFFFFFFF, cdw10 := 7, cdw11 := 1 })), 5, wCmd ({ wSqe false 0xA2 with nsid := 0xFFFFFFFF, cdw10 := 7, cdw11 := 1 }), (List.replicate 8 0 ++ [5] ++ List.replicate 39 0), .disagree 2 0, [(List.replicate 8 0 ++ [5] ++ List.replicate 39 0)], wTable, ((wAsu (wAt ({ wSqe false 0xA2 with nsid := 0xFFFFFFFF, cdw10 := 7, cdw11 := 1 }))).asuFault wTable (.disagree 2 0) []).get (by decide +kernel), by
    repeat' apply And.intro
    all_goals first | decide +kernel | exact decOkEq _ _ (by decide +kernel) | exact readyOf _ _ _ (by decide +kernel)⟩,
   ⟨wAsu wHost, wTable, [], 2, 1, by
    repeat' apply And.intro
    all_goals first | decide +kernel | exact decOkEq _ _ (by decide +kernel) | exact readyOf _ _ _ (by decide +kernel)⟩⟩

theorem test_meets_TablesAreUpdatedAndSearched_7 :
    (∃ (s : State) (t : Table) (q : Search) (e : Nat) (r : Row),
    (Mem.wf none s.asu.rows = true) ∧ (e < 2 ^ 24)) ∧
    (∃ (s : State) (t : Table) (q : Search),
    (Mem.wf none s.asu.rows = true)) ∧
    (∃ (s : State) (g p : Nat) (ok : Bool),
    (ok = true ∨ 8 ≤ g ∨ s.psm.mode.engines = false)) ∧
    (∃ (s : State) (g p : Nat),
    (g < 8) ∧ (s.psm.mode.engines = true)) :=
  ⟨⟨wAsu wHost, wTable, { tag := 0, allTags := false, max := 1, key := 5 }, 4, wRow 5 2, by
    repeat' apply And.intro
    all_goals first | decide +kernel | exact decOkEq _ _ (by decide +kernel) | exact readyOf _ _ _ (by decide +kernel)⟩,
   ⟨wAsu wHost, wTable, { tag := 0, allTags := false, max := 1, key := 5 }, by
    repeat' apply And.intro
    all_goals first | decide +kernel | exact decOkEq _ _ (by decide +kernel) | exact readyOf _ _ _ (by decide +kernel)⟩,
   ⟨wHost, 8, 0, false, by
    repeat' apply And.intro
    all_goals first | decide +kernel | exact decOkEq _ _ (by decide +kernel) | exact readyOf _ _ _ (by decide +kernel)⟩,
   ⟨wAsu wHost, 7, 9, by
    repeat' apply And.intro
    all_goals first | decide +kernel | exact decOkEq _ _ (by decide +kernel) | exact readyOf _ _ _ (by decide +kernel)⟩⟩

theorem test_meets_CipherRequestsRunFromQueueToCompletion_1 :
    (∃ (s : State) (p : Nat) (e : BitVec 512),
    (6 < p ∨ s.psm.mode = .off ∨ s.psm.mode = .hold)) ∧
    (∃ (s : State) (p : Nat) (e : BitVec 512),
    (p ≤ 6) ∧ (s.psm.mode ≠ .off) ∧ (s.psm.mode ≠ .hold) ∧ (s.cpeServes p = false)) ∧
    (∃ (s : State) (p : Nat) (e : BitVec 512),
    (p ≤ 6) ∧ (s.psm.mode ≠ .off) ∧ (s.psm.mode ≠ .hold) ∧ (s.cpeServes p = true) ∧ (entryOk p e.toNat = false)) ∧
    (∃ (s : State) (p : Nat) (e : BitVec 512),
    (p ≤ 6) ∧ (s.psm.mode ≠ .off) ∧ (s.psm.mode ≠ .hold) ∧ (s.cpeServes p = true) ∧ (entryOk p e.toNat = true)) :=
  ⟨⟨wHost, 7, 0, by
    repeat' apply And.intro
    all_goals first | decide +kernel | exact decOkEq _ _ (by decide +kernel) | exact readyOf _ _ _ (by decide +kernel)⟩,
   ⟨{ wHost with psm := { mode := .drain } }, 6, wEnt 3 16, by
    repeat' apply And.intro
    all_goals first | decide +kernel | exact decOkEq _ _ (by decide +kernel) | exact readyOf _ _ _ (by decide +kernel)⟩,
   ⟨wHost, 0, wEnt 3 15, by
    repeat' apply And.intro
    all_goals first | decide +kernel | exact decOkEq _ _ (by decide +kernel) | exact readyOf _ _ _ (by decide +kernel)⟩,
   ⟨wHost, 6, wEnt 3 16, by
    repeat' apply And.intro
    all_goals first | decide +kernel | exact decOkEq _ _ (by decide +kernel) | exact readyOf _ _ _ (by decide +kernel)⟩⟩

theorem test_meets_CipherRequestsRunFromQueueToCompletion_2 :
    (∃ (c : Cpe) (e : CpeEntry),
    (16 ≤ e.submitter ∨ (c.queued e.submitter < 128 ∧ c.waiting = []))) ∧
    (∃ (c : Cpe) (e : CpeEntry),
    (e.submitter < 16) ∧ (128 ≤ c.queued e.submitter) ∧ (1152 ≤ c.pool)) ∧
    (∃ (s : State),
    (∀ e ∈ s.cpe.queue, s.dispatchEnd e = none ∧ s.pickPipe e = none)) ∧
    (∃ (s : State) (e : CpeEntry) (a z : List CpeEntry) (r : Nat),
    (s.psm.mode ≠ .rest) ∧ ((s.cpe.queue.filter (fun e => ceUrgent e.entry.toNat) ++ s.cpe.queue.filter (fun e => !ceUrgent e.entry.toNat)) = a ++ e :: z) ∧ (∀ x ∈ a, s.dispatchEnd x = none ∧ s.pickPipe x = none) ∧ (s.dispatchEnd e = some r)) :=
  ⟨⟨wHost.cpe, wEntry 3 16, by
    repeat' apply And.intro
    all_goals first | decide +kernel | exact decOkEq _ _ (by decide +kernel) | exact readyOf _ _ _ (by decide +kernel)⟩,
   ⟨{ queue := List.replicate 1280 (wEntry 3 16) }, wEntry 3 16, by
    repeat' apply And.intro
    all_goals first | decide +kernel | exact decOkEq _ _ (by decide +kernel) | exact readyOf _ _ _ (by decide +kernel)⟩,
   ⟨wHost, by
    repeat' apply And.intro
    all_goals first | decide +kernel | exact decOkEq _ _ (by decide +kernel) | exact readyOf _ _ _ (by decide +kernel)⟩,
   ⟨{ wHost with cpe := { queue := [wEntry 3 16, wEntry 19 32] } }, wEntry 19 32, [], [wEntry 3 16], 1, ⟨by decide, by decide +kernel, by decide, by decide +kernel⟩⟩⟩

theorem test_meets_CipherRequestsRunFromQueueToCompletion_3 :
    (∃ (s : State) (e : CpeEntry) (a z : List CpeEntry) (k : Key) (q : Nat) (t : State) (nonce : Bytes),
    (s.psm.mode ≠ .rest) ∧ ((s.cpe.queue.filter (fun e => ceUrgent e.entry.toNat) ++ s.cpe.queue.filter (fun e => !ceUrgent e.entry.toNat)) = a ++ e :: z) ∧ (∀ x ∈ a, s.dispatchEnd x = none ∧ s.pickPipe x = none) ∧ (s.dispatchEnd e = none) ∧ (s.cpeKey e = .ok k) ∧ (s.pickPipe e = some q) ∧ (({ s with cpe := s.cpe.dequeue e } : State).bindNonce e k = (nonce, t))) ∧
    (∃ (s : State) (e : CpeEntry) (p q : Nat),
    (s.pickPipe e = some p) ∧ (q < 8) ∧ (s.pipeTakes q e = true)) ∧
    (∃ (s : State) (f n : Nat) (k : Key),
    (k.counter < 2 ^ 64 - 1) ∧ ((s.slot n).key = some k) ∧ ((s.slot n).staged = none) ∧ (k.counter ≤ (s.slot n).mark)) ∧
    (∃ (x : Pipe) (e : CpeEntry),
    (ceUrgent e.entry.toNat = true)) :=
  ⟨⟨wCpe [wEntry 3 16, wEntry 17 32] [], wEntry 17 32, [], [wEntry 3 16], wKey, 0, ((({ wCpe [wEntry 3 16, wEntry 17 32] [] with cpe := (wCpe [wEntry 3 16, wEntry 17 32] []).cpe.dequeue (wEntry 17 32) } : State)).bindNonce (wEntry 17 32) wKey).2, (({ wCpe [wEntry 3 16, wEntry 17 32] [] with cpe := (wCpe [wEntry 3 16, wEntry 17 32] []).cpe.dequeue (wEntry 17 32) } : State).bindNonce (wEntry 17 32) wKey).1, ⟨by decide, by decide +kernel, by decide, by decide +kernel, decOkEq _ _ (by decide +kernel), by decide +kernel, rfl⟩⟩,
   ⟨wCpe [] [wEntry 3 16], wEntry 3 16, 1, 7, by
    repeat' apply And.intro
    all_goals first | decide +kernel | exact decOkEq _ _ (by decide +kernel) | exact readyOf _ _ _ (by decide +kernel)⟩,
   ⟨wCpe [] [], 0, 3, wKey, by
    repeat' apply And.intro
    all_goals first | decide +kernel | exact decOkEq _ _ (by decide +kernel) | exact readyOf _ _ _ (by decide +kernel)⟩,
   ⟨{ bound := [wEntry 3 16] }, wEntry 19 16, by
    repeat' apply And.intro
    all_goals first | decide +kernel | exact decOkEq _ _ (by decide +kernel) | exact readyOf _ _ _ (by decide +kernel)⟩⟩

theorem test_meets_CipherRequestsRunFromQueueToCompletion_4 :
    (∃ (s : State) (p : Nat),
    ((s.pipe p).bound.filter (fun b => !ceUrgent b.entry.toNat) = [])) ∧
    (∃ (s : State) (p : Nat) (e : CpeEntry) (z : List CpeEntry),
    ((s.pipe p).bound.filter (fun b => !ceUrgent b.entry.toNat) = e :: z) ∧ (ceLength e.entry.toNat ≤ (e.slices + 1) * 65536)) ∧
    (∃ (s : State) (p : Nat) (e : CpeEntry) (z : List CpeEntry),
    ((s.pipe p).bound.filter (fun b => !ceUrgent b.entry.toNat) = e :: z) ∧ ((e.slices + 1) * 65536 < ceLength e.entry.toNat)) ∧
    (∃ (s : State) (p : Nat) (r : CpeOutcome),
    ((s.pipe p).bound = [])) :=
  ⟨⟨wHost, 7, by
    repeat' apply And.intro
    all_goals first | decide +kernel | exact decOkEq _ _ (by decide +kernel) | exact readyOf _ _ _ (by decide +kernel)⟩,
   ⟨wCpe [] [wEntry 3 65536], 0, wEntry 3 65536, [], by
    repeat' apply And.intro
    all_goals first | decide +kernel | exact decOkEq _ _ (by decide +kernel) | exact readyOf _ _ _ (by decide +kernel)⟩,
   ⟨wCpe [] [wEntry 3 65552, wEntry 19 16], 0, wEntry 3 65552, [], by
    repeat' apply And.intro
    all_goals first | decide +kernel | exact decOkEq _ _ (by decide +kernel) | exact readyOf _ _ _ (by decide +kernel)⟩,
   ⟨wHost, 0, .ran, by
    repeat' apply And.intro
    all_goals first | decide +kernel | exact decOkEq _ _ (by decide +kernel) | exact readyOf _ _ _ (by decide +kernel)⟩⟩

theorem test_meets_CipherRequestsRunFromQueueToCompletion_5 :
    (∃ (s : State) (p : Nat) (r : CpeOutcome) (e : CpeEntry) (z : List CpeEntry) (t : State),
    ((s.pipe p).bound = e :: z) ∧ (s.setPipe p { s.pipe p with bound := z, drbgBlocks := (s.pipe p).drbgBlocks + ceilDiv (ceLength e.entry.toNat - e.slices * 65536) 16 } = t) ∧ (s.retired (ceFunc e.entry.toNat) (ceGen e.entry.toNat) = true) ∧ (e.submitter < 16)) ∧
    (∃ (s : State) (p : Nat) (e : CpeEntry) (z : List CpeEntry) (t : State) (out tag : Bytes),
    ((s.pipe p).bound = e :: z) ∧ (s.setPipe p { s.pipe p with bound := z, drbgBlocks := (s.pipe p).drbgBlocks + ceilDiv (ceLength e.entry.toNat - e.slices * 65536) 16 } = t) ∧ (s.retired (ceFunc e.entry.toNat) (ceGen e.entry.toNat) = false) ∧ (ceHolds e.entry.toNat = false) ∧ (ceMode e.entry.toNat ≠ 1) ∧ ((s.splRead (ceSrc e.entry.toNat) (ceLength e.entry.toNat)).isSome = true) ∧ (e.run (readBytes s.dmf.spl (ceSrc e.entry.toNat) (ceLength e.entry.toNat)) = (out, tag))) ∧
    (∃ (s : State) (p : Nat) (e : CpeEntry) (z : List CpeEntry) (t : State) (out tag : Bytes),
    ((s.pipe p).bound = e :: z) ∧ (s.setPipe p { s.pipe p with bound := z, drbgBlocks := (s.pipe p).drbgBlocks + ceilDiv (ceLength e.entry.toNat - e.slices * 65536) 16 } = t) ∧ (s.retired (ceFunc e.entry.toNat) (ceGen e.entry.toNat) = false) ∧ (ceMode e.entry.toNat = 1) ∧ (ceDecrypt e.entry.toNat = false) ∧ ((s.splRead (ceSrc e.entry.toNat) (ceLength e.entry.toNat)).isSome = true) ∧ (e.run (readBytes s.dmf.spl (ceSrc e.entry.toNat) (ceLength e.entry.toNat)) = (out, tag))) ∧
    (∃ (s : State) (p : Nat) (e : CpeEntry) (z : List CpeEntry) (t : State) (out tag : Bytes),
    ((s.pipe p).bound = e :: z) ∧ (s.setPipe p { s.pipe p with bound := z, drbgBlocks := (s.pipe p).drbgBlocks + ceilDiv (ceLength e.entry.toNat - e.slices * 65536) 16 } = t) ∧ (s.retired (ceFunc e.entry.toNat) (ceGen e.entry.toNat) = false) ∧ (ceHolds e.entry.toNat = true) ∧ (ceReleases e.entry.toNat = false) ∧ (ceVerdict e.entry.toNat = false) ∧ ((s.splRead (ceSrc e.entry.toNat) (ceLength e.entry.toNat)).isSome = true) ∧ (e.run (readBytes s.dmf.spl (ceSrc e.entry.toNat) (ceLength e.entry.toNat)) = (out, tag)) ∧ (tag.take (ceTagLen e.entry.toNat) ≠ leBytes (ceTagLen e.entry.toNat) (ceTag e.entry.toNat))) :=
  ⟨⟨{ wCpe [] [wEntry 3 16] with fns := [(0, { present := true, gen := 1 })] }, 0, .ran, wEntry 3 16, [], ({ wCpe [] [wEntry 3 16] with fns := [(0, { present := true, gen := 1 })] }).setPipe 0 { bound := [], drbgBlocks := 1 }, by
    repeat' apply And.intro
    all_goals first | decide +kernel | exact decOkEq _ _ (by decide +kernel) | exact readyOf _ _ _ (by decide +kernel)⟩,
   ⟨wCpe [] [wEntry 2 4], 0, wEntry 2 4, [], (wCpe [] [wEntry 2 4]).setPipe 0 { bound := [], drbgBlocks := 1 }, ((wEntry 2 4).run [0, 0, 0, 0]).1, ((wEntry 2 4).run [0, 0, 0, 0]).2, ⟨holds, holds, holds, holds, holds, holds, holds⟩⟩,
   ⟨wCpe [] [wGcm 0], 0, wGcm 0, [], (wCpe [] [wGcm 0]).setPipe 0 { bound := [], drbgBlocks := 1 }, ((wGcm 0).run [0, 0, 0, 0]).1, ((wGcm 0).run [0, 0, 0, 0]).2, ⟨holds, holds, holds, holds, holds, holds, holds⟩⟩,
   ⟨wCpe [] [wGcm 8], 0, wGcm 8, [], (wCpe [] [wGcm 8]).setPipe 0 { bound := [], drbgBlocks := 1 }, ((wGcm 8).run [0, 0, 0, 0]).1, ((wGcm 8).run [0, 0, 0, 0]).2, ⟨holds, holds, holds, holds, holds, holds, holds, holds, holds⟩⟩⟩

theorem test_meets_CipherRequestsRunFromQueueToCompletion_6 :
    (∃ (s : State) (p blk : Nat) (e : CpeEntry) (z : List CpeEntry),
    ((s.pipe p).bound = e :: z) ∧ (s.retired (ceFunc e.entry.toNat) (ceGen e.entry.toNat) = false) ∧ (blk ≤ ceLength e.entry.toNat / 16)) ∧
    (∃ (s : State) (p blk : Nat) (e : CpeEntry),
    ((s.pipe p).bound = [e]) ∧ (ceVerdict e.entry.toNat = false) ∧ (e.submitter < 3) ∧ (p ≤ 7) ∧ (s.psm.halt.withdrawn = [])) ∧
    (∃ (s : State) (p : Nat) (e : CpeEntry) (z : List CpeEntry) (t : State) (d : BitVec 32 × State),
    ((s.pipe p).bound = e :: z) ∧ (s.setPipe p { s.pipe p with bound := z, drbgBlocks := (s.pipe p).drbgBlocks + ceilDiv (ceLength e.entry.toNat - e.slices * 65536) 16 } = t) ∧ (s.retired (ceFunc e.entry.toNat) (ceGen e.entry.toNat) = false) ∧ (t.draw 32 = d)) ∧
    (∃ (s : State) (p : Nat) (k : Nat) (e : CpeEntry) (z : List CpeEntry) (t : State),
    ((s.pipe p).bound = e :: z) ∧ (s.setPipe p { s.pipe p with bound := z, drbgBlocks := (s.pipe p).drbgBlocks + ceilDiv (ceLength e.entry.toNat - e.slices * 65536) 16 } = t) ∧ (s.retired (ceFunc e.entry.toNat) (ceGen e.entry.toNat) = false)) :=
  ⟨⟨wCpe [] [wEntry 2 16], 0, 1, wEntry 2 16, [], by
    repeat' apply And.intro
    all_goals first | decide +kernel | exact decOkEq _ _ (by decide +kernel) | exact readyOf _ _ _ (by decide +kernel)⟩,
   ⟨wCpe [] [wEntry 2 16], 0, 1, wEntry 2 16, by
    repeat' apply And.intro
    all_goals first | decide +kernel | exact decOkEq _ _ (by decide +kernel) | exact readyOf _ _ _ (by decide +kernel)⟩,
   ⟨wCpe [] [wEntry 2 16], 0, wEntry 2 16, [], _, _, ⟨by decide +kernel, rfl, by decide +kernel, rfl⟩⟩,
   ⟨wCpe [] [wEntry 2 16], 0, 7, wEntry 2 16, [], _, ⟨by decide +kernel, rfl, by decide +kernel⟩⟩⟩

theorem test_meets_CipherRequestsRunFromQueueToCompletion_7 :
    (∃ (s : State) (e : CpeEntry) (out : Bytes) (i : Nat),
    (i < ceDst e.entry.toNat ∨ ceDst e.entry.toNat + out.length ≤ i)) ∧
    (∃ (s : State) (e : CpeEntry) (res n : Nat) (v : Bool) (tag nonce : Bytes),
    (e.submitter < 3 ∨ 6 < e.submitter) ∧ (res ≠ 0x04 ∨ v = false)) ∧
    (∃ (s : State) (e : CpeEntry) (comp res n : Nat),
    (ceVerdict e.entry.toNat = false) ∧ (res ≠ 0x07)) ∧
    (∃ (s : State) (p : Nat) (h : Bool),
    (8 ≤ p)) :=
  ⟨⟨wHost, wEntry 2 4, [1, 2], 8194, by
    repeat' apply And.intro
    all_goals first | decide +kernel | exact decOkEq _ _ (by decide +kernel) | exact readyOf _ _ _ (by decide +kernel)⟩,
   ⟨wHost, wEntry 2 4, 8, 0, false, [], [], by
    repeat' apply And.intro
    all_goals first | decide +kernel | exact decOkEq _ _ (by decide +kernel) | exact readyOf _ _ _ (by decide +kernel)⟩,
   ⟨wHost, wEntry 2 4, 0xA11, 6, 0, by
    repeat' apply And.intro
    all_goals first | decide +kernel | exact decOkEq _ _ (by decide +kernel) | exact readyOf _ _ _ (by decide +kernel)⟩,
   ⟨wHost, 8, true, by
    repeat' apply And.intro
    all_goals first | decide +kernel | exact decOkEq _ _ (by decide +kernel) | exact readyOf _ _ _ (by decide +kernel)⟩⟩

theorem test_meets_CipherRequestsRunFromQueueToCompletion_8 :
    (∃ (s : State) (p : Nat),
    (p < 8)) ∧
    (∃ (s : State) (p : Nat),
    (p < 8)) ∧
    (∃ (s : State) (t : Nat),
    (s.cpe.rngFailed = false)) ∧
    (∃ (s : State) (t : Nat),
    (s.cpe.rngFailed = true) ∧ (∀ p, p < 8 → (s.pipe p).drbgBlocks < 2 ^ 24)) :=
  ⟨⟨wHost, 7, by
    repeat' apply And.intro
    all_goals first | decide +kernel | exact decOkEq _ _ (by decide +kernel) | exact readyOf _ _ _ (by decide +kernel)⟩,
   ⟨wHost, 7, by
    repeat' apply And.intro
    all_goals first | decide +kernel | exact decOkEq _ _ (by decide +kernel) | exact readyOf _ _ _ (by decide +kernel)⟩,
   ⟨wHost, 1, by
    repeat' apply And.intro
    all_goals first | decide +kernel | exact decOkEq _ _ (by decide +kernel) | exact readyOf _ _ _ (by decide +kernel)⟩,
   ⟨{ wHost with cpe := { rngFailed := true } }, 3, by decide +kernel⟩⟩

theorem test_meets_CipherRequestsRunFromQueueToCompletion_9 :
    (∃ (s : State) (page i : Nat),
    (4 ≤ page ∨ s.psm.mode = .off ∨ s.psm.mode = .hold)) ∧
    (∃ (s : State) (page i : Nat),
    (page < 4) ∧ (s.psm.mode ≠ .off) ∧ (s.psm.mode ≠ .hold) ∧ (i ≠ page)) ∧
    (∃ (s : State) (i : Nat),
    (s.psm.mode ≠ .off) ∧ (s.psm.mode ≠ .hold) ∧ (s.cpe.page0Closed = true)) ∧
    (∃ (s : State) (page : Nat),
    (page < 4) ∧ (s.psm.mode ≠ .off) ∧ (s.psm.mode ≠ .hold) ∧ (page ≠ 0 ∨ s.cpe.page0Closed = false) ∧ ((Mem.get {} s.cpe.pages page).busy = true)) :=
  ⟨⟨wHost, 4, 4, by
    repeat' apply And.intro
    all_goals first | decide +kernel | exact decOkEq _ _ (by decide +kernel) | exact readyOf _ _ _ (by decide +kernel)⟩,
   ⟨wHost, 3, 1, by
    repeat' apply And.intro
    all_goals first | decide +kernel | exact decOkEq _ _ (by decide +kernel) | exact readyOf _ _ _ (by decide +kernel)⟩,
   ⟨{ wHost with cpe := { page0Closed := true } }, 0, by
    repeat' apply And.intro
    all_goals first | decide +kernel | exact decOkEq _ _ (by decide +kernel) | exact readyOf _ _ _ (by decide +kernel)⟩,
   ⟨{ wHost with cpe := { pages := [(3, { busy := true })] } }, 3, by
    repeat' apply And.intro
    all_goals first | decide +kernel | exact decOkEq _ _ (by decide +kernel) | exact readyOf _ _ _ (by decide +kernel)⟩⟩

theorem test_meets_CipherRequestsRunFromQueueToCompletion_10 :
    (∃ (s : State) (page : Nat) (x : Page),
    (page < 4) ∧ (s.psm.mode ≠ .off) ∧ (s.psm.mode ≠ .hold) ∧ (page ≠ 0 ∨ s.cpe.page0Closed = false) ∧ (Mem.get {} s.cpe.pages page = x) ∧ (x.busy = false)) ∧
    (∃ (s : State) (page k i : Nat) (key : Bytes) (attr : BitVec 16),
    (page < 4) ∧ (s.psm.mode ≠ .off) ∧ (s.psm.mode ≠ .hold) ∧ (i ≠ page)) ∧
    (∃ (s : State) (page k : Nat) (key : Bytes) (attr : BitVec 16),
    (page < 4) ∧ (s.psm.mode ≠ .off) ∧ (s.psm.mode ≠ .hold) ∧ (page ≠ 0 ∨ s.cpe.page0Closed = false) ∧ (4 ≤ k)) ∧
    (∃ (s : State) (page k : Nat) (key : Bytes) (attr : BitVec 16),
    (page < 4) ∧ (s.psm.mode ≠ .off) ∧ (s.psm.mode ≠ .hold) ∧ (page ≠ 0 ∨ s.cpe.page0Closed = false) ∧ (k < 4) ∧ ((Mem.get {} s.cpe.pages page).busy = false)) :=
  ⟨⟨wHost, 0, {}, by
    repeat' apply And.intro
    all_goals first | decide +kernel | exact decOkEq _ _ (by decide +kernel) | exact readyOf _ _ _ (by decide +kernel)⟩,
   ⟨wHost, 3, 0, 0, [], 0, by
    repeat' apply And.intro
    all_goals first | decide +kernel | exact decOkEq _ _ (by decide +kernel) | exact readyOf _ _ _ (by decide +kernel)⟩,
   ⟨wHost, 3, 4, [], 0, by
    repeat' apply And.intro
    all_goals first | decide +kernel | exact decOkEq _ _ (by decide +kernel) | exact readyOf _ _ _ (by decide +kernel)⟩,
   ⟨wHost, 3, 3, [1], 0x40, by
    repeat' apply And.intro
    all_goals first | decide +kernel | exact decOkEq _ _ (by decide +kernel) | exact readyOf _ _ _ (by decide +kernel)⟩⟩

theorem test_meets_CipherRequestsRunFromQueueToCompletion_11 :
    (∃ (s : State) (page k : Nat) (key : Bytes) (attr : BitVec 16),
    (page < 4) ∧ (s.psm.mode ≠ .off) ∧ (s.psm.mode ≠ .hold) ∧ (page ≠ 0 ∨ s.cpe.page0Closed = false) ∧ (k < 4) ∧ ((Mem.get {} s.cpe.pages page).busy = true)) ∧
    (∃ (s : State) (page i o : Nat),
    (i = page)) ∧
    (∃ (s : State) (page i o : Nat),
    (page < 4) ∧ (s.psm.mode ≠ .off) ∧ (s.psm.mode ≠ .hold) ∧ (i ≠ page)) ∧
    (∃ (s : State) (k : Ev) (comp : Nat) (items : List (Nat × Nat)) (d : Bool),
    (s.psm.mode = .service)) :=
  ⟨⟨{ wHost with cpe := { pages := [(3, { busy := true })] } }, 3, 3, [1], 0x40, by
    repeat' apply And.intro
    all_goals first | decide +kernel | exact decOkEq _ _ (by decide +kernel) | exact readyOf _ _ _ (by decide +kernel)⟩,
   ⟨wHost, 3, 3, 64, by
    repeat' apply And.intro
    all_goals first | decide +kernel | exact decOkEq _ _ (by decide +kernel) | exact readyOf _ _ _ (by decide +kernel)⟩,
   ⟨wHost, 3, 0, 64, by
    repeat' apply And.intro
    all_goals first | decide +kernel | exact decOkEq _ _ (by decide +kernel) | exact readyOf _ _ _ (by decide +kernel)⟩,
   ⟨wHost, evPageViolation, 0xA23, [], false, by
    repeat' apply And.intro
    all_goals first | decide +kernel | exact decOkEq _ _ (by decide +kernel) | exact readyOf _ _ _ (by decide +kernel)⟩⟩

theorem test_meets_DigestMessagesOpenFeedAndFinish_1 :
    (∃ (s : State) (i : Nat) (src : DgeSource) (cfg : BitVec 64),
    (1024 ≤ i ∨ s.dgeServes = false)) ∧
    (∃ (s : State) (i : Nat) (src : DgeSource) (cfg : BitVec 64),
    (i < 1024) ∧ (s.dgeServes = true) ∧ ((s.ctx i).state ≠ .opened) ∧ (s.dgeLimit ≤ s.dgeOpenCount)) ∧
    (∃ (s : State) (i : Nat) (src : DgeSource) (cfg : BitVec 64),
    (i < 1024) ∧ (s.dgeServes = true) ∧ ((s.ctx i).state = .opened ∨ s.dgeOpenCount < s.dgeLimit) ∧ (bit cfg.toNat 24 = true) ∧ (src ≠ .coxC ∨ bit cfg.toNat 2 = false)) ∧
    (∃ (s : State) (i : Nat) (src : DgeSource) (cfg : BitVec 64),
    (i < 1024) ∧ (s.dgeServes = true) ∧ ((s.ctx i).state = .opened ∨ s.dgeOpenCount < s.dgeLimit) ∧ (bit cfg.toNat 24 = false) ∧ (bit cfg.toNat 2 = true) ∧ (s.dgeKey src cfg.toNat = none)) :=
  ⟨⟨wHost, 1024, .feeder, 0, by
    repeat' apply And.intro
    all_goals first | decide +kernel | exact decOkEq _ _ (by decide +kernel) | exact readyOf _ _ _ (by decide +kernel)⟩,
   ⟨{ wHost with psm := { mode := .maintenance }, dge := { ctxs := (List.range 16).map (fun k => (k, { state := .opened })) } }, 1023, .feeder, 0, by
    repeat' apply And.intro
    all_goals first | decide +kernel | exact decOkEq _ _ (by decide +kernel) | exact readyOf _ _ _ (by decide +kernel)⟩,
   ⟨wHost, 1023, .feeder, 0x1000004, by
    repeat' apply And.intro
    all_goals first | decide +kernel | exact decOkEq _ _ (by decide +kernel) | exact readyOf _ _ _ (by decide +kernel)⟩,
   ⟨wHost, 0, .feeder, 4, by
    repeat' apply And.intro
    all_goals first | decide +kernel | exact decOkEq _ _ (by decide +kernel) | exact readyOf _ _ _ (by decide +kernel)⟩⟩

theorem test_meets_DigestMessagesOpenFeedAndFinish_2 :
    (∃ (s : State) (i : Nat) (src : DgeSource) (cfg : BitVec 64),
    (i < 1024) ∧ (s.dgeServes = true) ∧ ((s.ctx i).state = .opened ∨ s.dgeOpenCount < s.dgeLimit) ∧ (bit cfg.toNat 24 = false) ∧ (bit cfg.toNat 2 = false)) ∧
    (∃ (s : State) (i : Nat) (src : DgeSource) (cfg : BitVec 64) (k : Bytes),
    (i < 1024) ∧ (s.dgeServes = true) ∧ ((s.ctx i).state = .opened ∨ s.dgeOpenCount < s.dgeLimit) ∧ (bit cfg.toNat 24 = false) ∧ (bit cfg.toNat 2 = true) ∧ (s.dgeKey src cfg.toNat = some k)) ∧
    (∃ (s : State) (i : Nat) (w : BitVec 64),
    (s.dgeServes = true) ∧ ((s.ctx i).state = .opened)) ∧
    (∃ (s : State) (i : Nat) (w : BitVec 64),
    (s.dgeServes = true) ∧ ((s.ctx i).state = .opened)) :=
  ⟨⟨wHost, 1023, .feeder, 1, by
    repeat' apply And.intro
    all_goals first | decide +kernel | exact decOkEq _ _ (by decide +kernel) | exact readyOf _ _ _ (by decide +kernel)⟩,
   ⟨{ wHost with cpe := { slots := [(3, { key := some { bytes := [9], attr := 0x20 } })] } }, 3, .feeder, 100, [9], by
    repeat' apply And.intro
    all_goals first | decide +kernel | exact decOkEq _ _ (by decide +kernel) | exact readyOf _ _ _ (by decide +kernel)⟩,
   ⟨wDge {}, 7, 0x0102, by
    repeat' apply And.intro
    all_goals first | decide +kernel | exact decOkEq _ _ (by decide +kernel) | exact readyOf _ _ _ (by decide +kernel)⟩,
   ⟨wDge {}, 7, 0x0102, by
    repeat' apply And.intro
    all_goals first | decide +kernel | exact decOkEq _ _ (by decide +kernel) | exact readyOf _ _ _ (by decide +kernel)⟩⟩

theorem test_meets_DigestMessagesOpenFeedAndFinish_3 :
    (∃ (s : State) (i : Nat) (w : BitVec 64),
    (s.dgeServes = false ∨ (s.ctx i).state = .idle ∨ (s.ctx i).state = .error)) ∧
    (∃ (s : State) (i : Nat) (w : BitVec 64),
    (s.dgeServes = false ∨ (s.ctx i).state = .idle ∨ (s.ctx i).state = .error)) ∧
    (∃ (s : State) (i : Nat) (w : BitVec 64),
    (s.dgeServes = false ∨ (s.ctx i).state = .idle ∨ (s.ctx i).state = .error)) ∧
    (∃ (s : State) (i : Nat) (w : BitVec 64),
    (s.dgeServes = true) ∧ ((s.ctx i).state = .done)) :=
  ⟨⟨wHost, 7, 1, by
    repeat' apply And.intro
    all_goals first | decide +kernel | exact decOkEq _ _ (by decide +kernel) | exact readyOf _ _ _ (by decide +kernel)⟩,
   ⟨wHost, 7, 1, by
    repeat' apply And.intro
    all_goals first | decide +kernel | exact decOkEq _ _ (by decide +kernel) | exact readyOf _ _ _ (by decide +kernel)⟩,
   ⟨wHost, 7, 1, by
    repeat' apply And.intro
    all_goals first | decide +kernel | exact decOkEq _ _ (by decide +kernel) | exact readyOf _ _ _ (by decide +kernel)⟩,
   ⟨{ wHost with dge := { ctxs := [(7, { state := .done, msg := [1] })] } }, 7, 0x0102, by
    repeat' apply And.intro
    all_goals first | decide +kernel | exact decOkEq _ _ (by decide +kernel) | exact readyOf _ _ _ (by decide +kernel)⟩⟩

theorem test_meets_DigestMessagesOpenFeedAndFinish_4 :
    (∃ (s : State) (i : Nat) (w : BitVec 64),
    (s.dgeServes = true) ∧ ((s.ctx i).state = .opened) ∧ (s.dge.opens = []) ∧ (8 < field w.toNat 3 0 ∨ (field w.toNat 3 0 = 0 ∧ (s.ctx i).msg ≠ []))) ∧
    (∃ (s : State) (i : Nat) (w : BitVec 64),
    (s.dgeServes = true) ∧ ((s.ctx i).state = .opened) ∧ (s.dge.opens = []) ∧ (field w.toNat 3 0 ≤ 8) ∧ (field w.toNat 3 0 ≠ 0 ∨ (s.ctx i).msg = []) ∧ (field (s.ctx i).cfg.toNat 1 0 ≠ 3) ∧ (bit (s.ctx i).cfg.toNat 2 = false)) ∧
    (∃ (s : State) (i : Nat) (w : BitVec 64),
    (s.dgeServes = true) ∧ ((s.ctx i).state = .opened) ∧ (s.dge.opens = []) ∧ (field w.toNat 3 0 ≤ 8) ∧ (field w.toNat 3 0 ≠ 0 ∨ (s.ctx i).msg = []) ∧ (field (s.ctx i).cfg.toNat 1 0 ≠ 3) ∧ (bit (s.ctx i).cfg.toNat 2 = true) ∧ (bit (s.ctx i).cfg.toNat 24 = false) ∧ ((s.ctx i).expectSet = false)) ∧
    (∃ (s : State) (i : Nat) (w : BitVec 64),
    (s.dgeServes = true) ∧ ((s.ctx i).state = .opened) ∧ (s.dge.opens = []) ∧ (field w.toNat 3 0 ≤ 8) ∧ (field w.toNat 3 0 ≠ 0 ∨ (s.ctx i).msg = []) ∧ (field (s.ctx i).cfg.toNat 1 0 ≠ 3) ∧ (bit (s.ctx i).cfg.toNat 2 = true) ∧ (bit (s.ctx i).cfg.toNat 24 = false) ∧ ((s.ctx i).expectSet = true) ∧ (16 ≤ field (s.ctx i).cfg.toNat 23 17) ∧ (field (s.ctx i).cfg.toNat 23 17 ≤ 64)) :=
  ⟨⟨wDge {}, 7, 9, by
    repeat' apply And.intro
    all_goals first | decide +kernel | exact decOkEq _ _ (by decide +kernel) | exact readyOf _ _ _ (by decide +kernel)⟩,
   ⟨wDge { last := 7 }, 7, 0, by
    repeat' apply And.intro
    all_goals first | decide +kernel | exact decOkEq _ _ (by decide +kernel) | exact readyOf _ _ _ (by decide +kernel)⟩,
   ⟨wDge { cfg := 4 }, 7, 8, by
    repeat' apply And.intro
    all_goals first | decide +kernel | exact decOkEq _ _ (by decide +kernel) | exact readyOf _ _ _ (by decide +kernel)⟩,
   ⟨wDge { cfg := 0x200004, expectSet := true }, 7, 8, by
    repeat' apply And.intro
    all_goals first | decide +kernel | exact decOkEq _ _ (by decide +kernel) | exact readyOf _ _ _ (by decide +kernel)⟩⟩

theorem test_meets_DigestMessagesOpenFeedAndFinish_5 :
    (∃ (s : State) (i : Nat) (w : BitVec 64),
    (s.dgeServes = true) ∧ ((s.ctx i).state = .opened) ∧ (s.dge.opens = []) ∧ (field w.toNat 3 0 ≤ 8) ∧ (field w.toNat 3 0 ≠ 0 ∨ (s.ctx i).msg = []) ∧ (field (s.ctx i).cfg.toNat 1 0 ≠ 3) ∧ (bit (s.ctx i).cfg.toNat 2 = true) ∧ (bit (s.ctx i).cfg.toNat 24 = true)) ∧
    (∃ (s : State) (p a r : Nat) (ok : Bool),
    (s.dgeRun p ≠ some a ∨ s.dge.images.contains r = false ∨ (s.ctx a).msg.length % 4096 ≠ 0 ∨ s.dgeServes = false)) ∧
    (∃ (s : State) (p a r : Nat) (ok : Bool),
    (s.dgeRun p = some a) ∧ (s.dge.images.contains r = true) ∧ ((s.ctx a).msg.length % 4096 = 0) ∧ (s.dgeServes = true) ∧ (s.psm.halt.withdrawn.contains (.dge p) = false) ∧ (ok = true ∨ bit (s.ctx r).cfg.toNat 2 = false)) ∧
    (∃ (s : State) (p a r : Nat),
    (s.dgeRun p = some a) ∧ (s.dge.images.contains r = true) ∧ ((s.ctx a).msg.length % 4096 = 0) ∧ (s.dgeServes = true) ∧ (s.psm.halt.withdrawn.contains (.dge p) = false) ∧ (bit (s.ctx r).cfg.toNat 2 = true) ∧ (s.dgeLimit = 1024) ∧ (s.psm.halt.detections = [])) :=
  ⟨⟨wDge { cfg := 0x1000004 }, 7, 8, by
    repeat' apply And.intro
    all_goals first | decide +kernel | exact decOkEq _ _ (by decide +kernel) | exact readyOf _ _ _ (by decide +kernel)⟩,
   ⟨wHost, 0, 7, 8, true, by
    repeat' apply And.intro
    all_goals first | decide +kernel | exact decOkEq _ _ (by decide +kernel) | exact readyOf _ _ _ (by decide +kernel)⟩,
   ⟨(let s := wDge {}; { s with dge := { s.dge with images := [8], ctxs := s.dge.ctxs ++ [(8, { state := .opened, cfg := 4 })] } }), 0, 7, 8, true, by
    repeat' apply And.intro
    all_goals first | decide +kernel | exact decOkEq _ _ (by decide +kernel) | exact readyOf _ _ _ (by decide +kernel)⟩,
   ⟨{ ((let s := wDge {}; { s with dge := { s.dge with images := [8], ctxs := s.dge.ctxs ++ [(8, { state := .opened, cfg := 4 })] } }) : State) with nvs := { fwRunning := 2 } }, 0, 7, 8, by
    repeat' apply And.intro
    all_goals first | decide +kernel | exact decOkEq _ _ (by decide +kernel) | exact readyOf _ _ _ (by decide +kernel)⟩⟩

theorem test_meets_TransformsRunAndAnswer_1 :
    (∃ (s : State) (id : CmdId) (d : Bytes) (v : Bool) (c : Cmd) (h : TfHeader),
    (s.live id false 0x9B = some c) ∧ (tfHeader d = h) ∧ (h.op = 0) ∧ (c.sqe.nsid ≠ 0xFFFFFFFF)) ∧
    (∃ (s : State) (id : CmdId) (d : Bytes) (v : Bool) (c : Cmd) (h : TfHeader),
    (s.live id false 0x9B = some c) ∧ (tfHeader d = h) ∧ (h.op = 0) ∧ (c.sqe.nsid = 0xFFFFFFFF) ∧ (tfOk c h = false)) ∧
    (∃ (s : State) (id : CmdId) (d : Bytes) (c : Cmd) (h : TfHeader),
    (s.live id false 0x9B = some c) ∧ (tfHeader d = h) ∧ (h.op = 1) ∧ (c.sqe.nsid ≠ 0xFFFFFFFF)) ∧
    (∃ (s : State) (id : CmdId) (d : Bytes) (c : Cmd) (h : TfHeader),
    (s.live id false 0x9B = some c) ∧ (tfHeader d = h) ∧ (h.op = 1) ∧ (c.sqe.nsid = 0xFFFFFFFF) ∧ (tfOk c h = false)) :=
  ⟨⟨wAt ({ wTfE 64 with nsid := 1 }), 5, wTf (0 + 0) [1, 2, 3], true, wCmd ({ wTfE 64 with nsid := 1 }), tfHeader (wTf (0 + 0) [1, 2, 3]), by
    repeat' apply And.intro
    all_goals first | decide +kernel | exact decOkEq _ _ (by decide +kernel) | exact readyOf _ _ _ (by decide +kernel)⟩,
   ⟨wAt (wTfE 0), 5, wTf (0 + 0) [1, 2, 3], true, wCmd (wTfE 0), tfHeader (wTf (0 + 0) [1, 2, 3]), by
    repeat' apply And.intro
    all_goals first | decide +kernel | exact decOkEq _ _ (by decide +kernel) | exact readyOf _ _ _ (by decide +kernel)⟩,
   ⟨wAt ({ wTfE 64 with nsid := 1 }), 5, wTf (1 + 0) [1, 2, 3], wCmd ({ wTfE 64 with nsid := 1 }), tfHeader (wTf (1 + 0) [1, 2, 3]), by
    repeat' apply And.intro
    all_goals first | decide +kernel | exact decOkEq _ _ (by decide +kernel) | exact readyOf _ _ _ (by decide +kernel)⟩,
   ⟨wAt (wTfE 0), 5, wTf (1 + 0) [1, 2, 3], wCmd (wTfE 0), tfHeader (wTf (1 + 0) [1, 2, 3]), by
    repeat' apply And.intro
    all_goals first | decide +kernel | exact decOkEq _ _ (by decide +kernel) | exact readyOf _ _ _ (by decide +kernel)⟩⟩

theorem test_meets_TransformsRunAndAnswer_2 :
    (∃ (s : State) (id : CmdId) (d : Bytes) (c : Cmd) (h : TfHeader),
    (s.live id false 0x9B = some c) ∧ (tfHeader d = h) ∧ (h.op = 2) ∧ (c.sqe.nsid ≠ 0xFFFFFFFF)) ∧
    (∃ (s : State) (id : CmdId) (d : Bytes) (c : Cmd) (h : TfHeader),
    (s.live id false 0x9B = some c) ∧ (tfHeader d = h) ∧ (h.op = 2) ∧ (c.sqe.nsid = 0xFFFFFFFF) ∧ (tfOk c h = false)) ∧
    (∃ (s : State) (id : CmdId) (d : Bytes) (c : Cmd) (h : TfHeader),
    (s.live id false 0x9B = some c) ∧ (tfHeader d = h) ∧ (h.op = 3) ∧ (c.sqe.nsid ≠ 0xFFFFFFFF)) ∧
    (∃ (s : State) (id : CmdId) (d : Bytes) (c : Cmd) (h : TfHeader),
    (s.live id false 0x9B = some c) ∧ (tfHeader d = h) ∧ (h.op = 3) ∧ (c.sqe.nsid = 0xFFFFFFFF) ∧ (tfOk c h = false)) :=
  ⟨⟨wAt ({ wTfE 64 with nsid := 1 }), 5, wTf (2 + 0) [1, 2, 3], wCmd ({ wTfE 64 with nsid := 1 }), tfHeader (wTf (2 + 0) [1, 2, 3]), by
    repeat' apply And.intro
    all_goals first | decide +kernel | exact decOkEq _ _ (by decide +kernel) | exact readyOf _ _ _ (by decide +kernel)⟩,
   ⟨wAt (wTfE 0), 5, wTf (2 + 0) [1, 2, 3], wCmd (wTfE 0), tfHeader (wTf (2 + 0) [1, 2, 3]), by
    repeat' apply And.intro
    all_goals first | decide +kernel | exact decOkEq _ _ (by decide +kernel) | exact readyOf _ _ _ (by decide +kernel)⟩,
   ⟨wAt ({ wTfE 64 with nsid := 1 }), 5, wTf (3 + 0) [1, 2, 3], wCmd ({ wTfE 64 with nsid := 1 }), tfHeader (wTf (3 + 0) [1, 2, 3]), by
    repeat' apply And.intro
    all_goals first | decide +kernel | exact decOkEq _ _ (by decide +kernel) | exact readyOf _ _ _ (by decide +kernel)⟩,
   ⟨wAt (wTfE 0), 5, wTf (3 + 0) [1, 2, 3], wCmd (wTfE 0), tfHeader (wTf (3 + 0) [1, 2, 3]), by
    repeat' apply And.intro
    all_goals first | decide +kernel | exact decOkEq _ _ (by decide +kernel) | exact readyOf _ _ _ (by decide +kernel)⟩⟩

theorem test_meets_TransformsRunAndAnswer_3 :
    (∃ (s : State) (id : CmdId) (d : Bytes) (c : Cmd) (h : TfHeader),
    (s.live id false 0x9B = some c) ∧ (tfHeader d = h) ∧ (h.op = 4) ∧ (c.sqe.nsid ≠ 0xFFFFFFFF)) ∧
    (∃ (s : State) (id : CmdId) (d : Bytes) (c : Cmd) (h : TfHeader),
    (s.live id false 0x9B = some c) ∧ (tfHeader d = h) ∧ (h.op = 4) ∧ (c.sqe.nsid = 0xFFFFFFFF) ∧ (tfOk c h = false)) ∧
    (∃ (s : State) (id : CmdId) (d : Bytes) (v : Bool) (c : Cmd) (h : TfHeader),
    (s.live id false 0x9B = some c) ∧ (tfHeader d = h) ∧ (5 ≤ h.op) ∧ (c.sqe.nsid = 0xFFFFFFFF)) ∧
    (∃ (s : State) (id : CmdId) (d : Bytes) (v : Bool) (c : Cmd) (h : TfHeader),
    (s.live id false 0x9B = some c) ∧ (tfHeader d = h) ∧ (h.op = 0) ∧ (c.sqe.nsid = 0xFFFFFFFF) ∧ (tfOk c h = true) ∧ (sglShort c.sqe (128 + h.inLen) = false) ∧ (h.cont = true) ∧ (s.heldCtx h.context = none)) :=
  ⟨⟨wAt ({ wTfE 64 with nsid := 1 }), 5, wTf (4 + 0) [1, 2, 3], wCmd ({ wTfE 64 with nsid := 1 }), tfHeader (wTf (4 + 0) [1, 2, 3]), by
    repeat' apply And.intro
    all_goals first | decide +kernel | exact decOkEq _ _ (by decide +kernel) | exact readyOf _ _ _ (by decide +kernel)⟩,
   ⟨wAt (wTfE 0), 5, wTf (4 + 0) [1, 2, 3], wCmd (wTfE 0), tfHeader (wTf (4 + 0) [1, 2, 3]), by
    repeat' apply And.intro
    all_goals first | decide +kernel | exact decOkEq _ _ (by decide +kernel) | exact readyOf _ _ _ (by decide +kernel)⟩,
   ⟨wAt (wTfE 64), 5, wTf (15 + 0) [1, 2, 3], true, wCmd (wTfE 64), tfHeader (wTf (15 + 0) [1, 2, 3]), by
    repeat' apply And.intro
    all_goals first | decide +kernel | exact decOkEq _ _ (by decide +kernel) | exact readyOf _ _ _ (by decide +kernel)⟩,
   ⟨wAt (wTfE 64), 5, wTf (0 + 16256) [1, 2, 3], true, wCmd (wTfE 64), tfHeader (wTf (0 + 16256) [1, 2, 3]), by
    repeat' apply And.intro
    all_goals first | decide +kernel | exact decOkEq _ _ (by decide +kernel) | exact readyOf _ _ _ (by decide +kernel)⟩⟩

theorem test_meets_TransformsRunAndAnswer_4 :
    (∃ (s : State) (id : CmdId) (d : Bytes) (v : Bool) (c : Cmd) (h : TfHeader) (x : CmpCtx),
    (s.live id false 0x9B = some c) ∧ (tfHeader d = h) ∧ (h.op = 0) ∧ (c.sqe.nsid = 0xFFFFFFFF) ∧ (tfOk c h = true) ∧ (sglShort c.sqe (128 + h.inLen) = false) ∧ (h.cont = true) ∧ (s.heldCtx h.context = some x) ∧ (x.func ≠ c.func ∨ x.scull.isSome = true ∨ x.op ≠ h.op)) ∧
    (∃ (s : State) (id : CmdId) (d : Bytes) (v : Bool) (c : Cmd) (h : TfHeader),
    (s.live id false 0x9B = some c) ∧ (tfHeader d = h) ∧ (h.op = 0) ∧ (c.sqe.nsid = 0xFFFFFFFF) ∧ (tfOk c h = true) ∧ (sglShort c.sqe (128 + h.inLen) = false) ∧ (h.cont = false) ∧ (s.freeCtx = none)) ∧
    (∃ (s : State) (id : CmdId) (d : Bytes) (v : Bool) (c : Cmd) (h : TfHeader) (x : CmpCtx) (t : State) (r : CmpStep),
    (s.live id false 0x9B = some c) ∧ (tfHeader d = h) ∧ (h.op = 0) ∧ (c.sqe.nsid = 0xFFFFFFFF) ∧ (tfOk c h = true) ∧ (sglShort c.sqe (128 + h.inLen) = false) ∧ (h.cont = true) ∧ (s.heldCtx h.context = some x) ∧ (x.func = c.func) ∧ (x.scull = none) ∧ (x.op = h.op) ∧ ((s.cmpRun h.context true x (slice d 128 h.inLen) h.more (tfOutLen c.sqe) v).1 = t) ∧ ((s.cmpRun h.context true x (slice d 128 h.inLen) h.more (tfOutLen c.sqe) v).2 = r)) ∧
    (∃ (s : State) (id : CmdId) (d : Bytes) (v : Bool) (c : Cmd) (h : TfHeader) (i : Nat) (t : State) (r : CmpStep),
    (s.live id false 0x9B = some c) ∧ (tfHeader d = h) ∧ (h.op = 0) ∧ (c.sqe.nsid = 0xFFFFFFFF) ∧ (tfOk c h = true) ∧ (sglShort c.sqe (128 + h.inLen) = false) ∧ (h.cont = false) ∧ (s.freeCtx = some i) ∧ ((s.cmpRun i false { func := c.func, gen := c.gen, op := h.op, format := h.format, windowLog := h.windowLog, depth := field h.n 27 20 + 1, lazy := bit h.n 28, declLen := (if h.op = 0 ∧ h.format = 3 ∧ h.declLen = 0 then h.inLen else h.declLen) } (slice d 128 h.inLen) h.more (tfOutLen c.sqe) v).1 = t) ∧ ((s.cmpRun i false { func := c.func, gen := c.gen, op := h.op, format := h.format, windowLog := h.windowLog, depth := field h.n 27 20 + 1, lazy := bit h.n 28, declLen := (if h.op = 0 ∧ h.format = 3 ∧ h.declLen = 0 then h.inLen else h.declLen) } (slice d 128 h.inLen) h.more (tfOutLen c.sqe) v).2 = r)) :=
  ⟨⟨{ wAt (wTfE 64) with cmp := { ctxs := [(0, some { func := 1, gen := 0, op := 0, format := 1, windowLog := 0, depth := 1, lazy := false, declLen := 0 })] } }, 5, wTf (0 + 128) [1, 2, 3], true, wCmd (wTfE 64), tfHeader (wTf (0 + 128) [1, 2, 3]), { func := 1, gen := 0, op := 0, format := 1, windowLog := 0, depth := 1, lazy := false, declLen := 0 }, by
    repeat' apply And.intro
    all_goals first | decide +kernel | exact decOkEq _ _ (by decide +kernel) | exact readyOf _ _ _ (by decide +kernel)⟩,
   ⟨{ wAt (wTfE 64) with cmp := { ctxs := (List.range 64).map (fun i => (i, some { func := 1, gen := 0, op := 0, format := 1, windowLog := 0, depth := 1, lazy := false, declLen := 0 })) } }, 5, wTf (0 + 0) [1, 2, 3], true, wCmd (wTfE 64), tfHeader (wTf (0 + 0) [1, 2, 3]), by
    repeat' apply And.intro
    all_goals first | decide +kernel | exact decOkEq _ _ (by decide +kernel) | exact readyOf _ _ _ (by decide +kernel)⟩,
   ⟨{ wAt (wTfE 64) with cmp := { ctxs := [(0, some { func := 0, gen := 0, op := 0, format := 1, windowLog := 0, depth := 1, lazy := false, declLen := 0 })] } }, 5, wTf (0 + 128) [1, 2, 3], true, wCmd (wTfE 64), tfHeader (wTf (0 + 128) [1, 2, 3]), { func := 0, gen := 0, op := 0, format := 1, windowLog := 0, depth := 1, lazy := false, declLen := 0 }, _, _, ⟨holds, holds, holds, holds, holds, holds, holds, holds, holds, holds, holds, rfl, rfl⟩⟩,
   ⟨wAt (wTfE 64), 5, wTf (0 + 0) [1, 2, 3], true, wCmd (wTfE 64), tfHeader (wTf (0 + 0) [1, 2, 3]), 0, _, _, ⟨holds, holds, holds, holds, holds, holds, holds, holds, rfl, rfl⟩⟩⟩

theorem test_meets_TransformsRunAndAnswer_5 :
    (∃ (s : State) (id : CmdId) (d : Bytes) (c : Cmd) (h : TfHeader),
    (s.live id false 0x9B = some c) ∧ (tfHeader d = h) ∧ (h.op = 1) ∧ (c.sqe.nsid = 0xFFFFFFFF) ∧ (tfOk c h = true) ∧ (sglShort c.sqe (128 + h.inLen) = false) ∧ (h.cont = true) ∧ (s.heldCtx h.context = none)) ∧
    (∃ (s : State) (id : CmdId) (d : Bytes) (c : Cmd) (h : TfHeader) (x : CmpCtx),
    (s.live id false 0x9B = some c) ∧ (tfHeader d = h) ∧ (h.op = 1) ∧ (c.sqe.nsid = 0xFFFFFFFF) ∧ (tfOk c h = true) ∧ (sglShort c.sqe (128 + h.inLen) = false) ∧ (h.cont = true) ∧ (s.heldCtx h.context = some x) ∧ (x.func ≠ c.func ∨ x.scull.isSome = true ∨ x.op ≠ h.op)) ∧
    (∃ (s : State) (id : CmdId) (d : Bytes) (c : Cmd) (h : TfHeader),
    (s.live id false 0x9B = some c) ∧ (tfHeader d = h) ∧ (h.op = 1) ∧ (c.sqe.nsid = 0xFFFFFFFF) ∧ (tfOk c h = true) ∧ (sglShort c.sqe (128 + h.inLen) = false) ∧ (h.cont = false) ∧ (s.freeCtx = none)) ∧
    (∃ (s : State) (id : CmdId) (d : Bytes) (c : Cmd) (h : TfHeader) (x : CmpCtx) (t : State) (r : CmpStep),
    (s.live id false 0x9B = some c) ∧ (tfHeader d = h) ∧ (h.op = 1) ∧ (c.sqe.nsid = 0xFFFFFFFF) ∧ (tfOk c h = true) ∧ (sglShort c.sqe (128 + h.inLen) = false) ∧ (h.cont = true) ∧ (s.heldCtx h.context = some x) ∧ (x.func = c.func) ∧ (x.scull = none) ∧ (x.op = h.op) ∧ ((s.cmpRun h.context true x (slice d 128 h.inLen) h.more (tfOutLen c.sqe) true).1 = t) ∧ ((s.cmpRun h.context true x (slice d 128 h.inLen) h.more (tfOutLen c.sqe) true).2 = r)) :=
  ⟨⟨wAt (wTfE 64), 5, wTf (1 + 16256) [1, 2, 3], wCmd (wTfE 64), tfHeader (wTf (1 + 16256) [1, 2, 3]), by
    repeat' apply And.intro
    all_goals first | decide +kernel | exact decOkEq _ _ (by decide +kernel) | exact readyOf _ _ _ (by decide +kernel)⟩,
   ⟨{ wAt (wTfE 64) with cmp := { ctxs := [(0, some { func := 1, gen := 0, op := 1, format := 1, windowLog := 0, depth := 1, lazy := false, declLen := 0 })] } }, 5, wTf (1 + 128) [1, 2, 3], wCmd (wTfE 64), tfHeader (wTf (1 + 128) [1, 2, 3]), { func := 1, gen := 0, op := 1, format := 1, windowLog := 0, depth := 1, lazy := false, declLen := 0 }, by
    repeat' apply And.intro
    all_goals first | decide +kernel | exact decOkEq _ _ (by decide +kernel) | exact readyOf _ _ _ (by decide +kernel)⟩,
   ⟨{ wAt (wTfE 64) with cmp := { ctxs := (List.range 64).map (fun i => (i, some { func := 1, gen := 0, op := 1, format := 1, windowLog := 0, depth := 1, lazy := false, declLen := 0 })) } }, 5, wTf (1 + 0) [1, 2, 3], wCmd (wTfE 64), tfHeader (wTf (1 + 0) [1, 2, 3]), by
    repeat' apply And.intro
    all_goals first | decide +kernel | exact decOkEq _ _ (by decide +kernel) | exact readyOf _ _ _ (by decide +kernel)⟩,
   ⟨{ wAt (wTfE 64) with cmp := { ctxs := [(0, some { func := 0, gen := 0, op := 1, format := 1, windowLog := 0, depth := 1, lazy := false, declLen := 0 })] } }, 5, wTf (1 + 128) [1, 2, 3], wCmd (wTfE 64), tfHeader (wTf (1 + 128) [1, 2, 3]), { func := 0, gen := 0, op := 1, format := 1, windowLog := 0, depth := 1, lazy := false, declLen := 0 }, _, _, ⟨holds, holds, holds, holds, holds, holds, holds, holds, holds, holds, holds, rfl, rfl⟩⟩⟩

theorem test_meets_TransformsRunAndAnswer_6 :
    (∃ (s : State) (id : CmdId) (d : Bytes) (c : Cmd) (h : TfHeader) (i : Nat) (t : State) (r : CmpStep),
    (s.live id false 0x9B = some c) ∧ (tfHeader d = h) ∧ (h.op = 1) ∧ (c.sqe.nsid = 0xFFFFFFFF) ∧ (tfOk c h = true) ∧ (sglShort c.sqe (128 + h.inLen) = false) ∧ (h.cont = false) ∧ (s.freeCtx = some i) ∧ ((s.cmpRun i false { func := c.func, gen := c.gen, op := h.op, format := h.format, windowLog := h.windowLog, depth := field h.n 27 20 + 1, lazy := bit h.n 28, declLen := (if h.op = 0 ∧ h.format = 3 ∧ h.declLen = 0 then h.inLen else h.declLen) } (slice d 128 h.inLen) h.more (tfOutLen c.sqe) true).1 = t) ∧ ((s.cmpRun i false { func := c.func, gen := c.gen, op := h.op, format := h.format, windowLog := h.windowLog, depth := field h.n 27 20 + 1, lazy := bit h.n 28, declLen := (if h.op = 0 ∧ h.format = 3 ∧ h.declLen = 0 then h.inLen else h.declLen) } (slice d 128 h.inLen) h.more (tfOutLen c.sqe) true).2 = r)) ∧
    (∃ (s : State) (id : CmdId) (c : Cmd) (h : TfHeader) (i : Nat) (r : CmpStep),
    (r.result = .done ∨ r.result = .outputFull ∨ h.retract = false)) ∧
    (∃ (s : State) (id : CmdId) (c : Cmd) (h : TfHeader) (i k : Nat) (r : CmpStep),
    (r.result = .checkFail k) ∧ (h.retract = true)) ∧
    (∃ (c : CmpCtx) (new : Bytes) (more : Bool) (n : Nat) (ws : Words) (bs : List Words),
    (c.ended = false) ∧ (c.stream (c.input ++ new) (!more) = ws) ∧ (c.blocks (c.input ++ new) (!more) = bs) ∧ (more = false) ∧ (fitting (8 * (c.produced + n)) ws = ws) ∧ (c.format ≠ 3 ∨ (c.input ++ new).length = c.declLen)) :=
  ⟨⟨wAt (wTfE 64), 5, wTf (1 + 0) [1, 2, 3], wCmd (wTfE 64), tfHeader (wTf (1 + 0) [1, 2, 3]), 0, _, _, ⟨holds, holds, holds, holds, holds, holds, holds, holds, rfl, rfl⟩⟩,
   ⟨wAt (wTfE 64), 5, wCmd (wTfE 64), ⟨1⟩, 63, { result := .outputFull, out := [1], consumed := 3, hold := none }, by
    repeat' apply And.intro
    all_goals first | decide +kernel | exact decOkEq _ _ (by decide +kernel) | exact readyOf _ _ _ (by decide +kernel)⟩,
   ⟨wAt (wTfE 64), 5, wCmd (wTfE 64), ⟨16385⟩, 63, 6, { result := .checkFail 6, out := [1], consumed := 3, hold := none }, by
    repeat' apply And.intro
    all_goals first | decide +kernel | exact decOkEq _ _ (by decide +kernel) | exact readyOf _ _ _ (by decide +kernel)⟩,
   ⟨{ func := 0, gen := 0, op := 0, format := 1, windowLog := 0, depth := 1, lazy := false, declLen := 0, fallback := some 0 }, [1], false, 64, _, _, ⟨by decide +kernel, rfl, rfl, rfl, by decide +kernel, .inl (by decide)⟩⟩⟩

theorem test_meets_TransformsRunAndAnswer_7 :
    (∃ (c : CmpCtx) (new : Bytes) (more : Bool) (n : Nat) (ws : Words) (bs : List Words),
    (c.ended = false) ∧ (c.stream (c.input ++ new) (!more) = ws) ∧ (c.blocks (c.input ++ new) (!more) = bs) ∧ (more = false) ∧ (fitting (8 * (c.produced + n)) ws = ws) ∧ (c.format = 3) ∧ ((c.input ++ new).length ≠ c.declLen)) ∧
    (∃ (c : CmpCtx) (new : Bytes) (more : Bool) (n : Nat) (ws : Words) (bs : List Words),
    (c.ended = false) ∧ (c.stream (c.input ++ new) (!more) = ws) ∧ (c.blocks (c.input ++ new) (!more) = bs) ∧ (more = true) ∧ (fitting (8 * (c.produced + n)) ws = ws)) ∧
    (∃ (c : CmpCtx) (new : Bytes) (more : Bool) (n : Nat) (ws : Words) (bs : List Words),
    (c.ended = false) ∧ (c.stream (c.input ++ new) (!more) = ws) ∧ (c.blocks (c.input ++ new) (!more) = bs) ∧ ((fitting (8 * (c.produced + n)) ws).length ≠ ws.length)) ∧
    (∃ (n : Nat) (ws : Words),
    True) :=
  ⟨⟨{ func := 0, gen := 0, op := 0, format := 3, windowLog := 15, depth := 1, lazy := false, declLen := 2, fallback := some 0 }, [1], false, 64, _, _, ⟨by decide +kernel, rfl, rfl, rfl, by decide +kernel, rfl, by decide +kernel⟩⟩,
   ⟨{ func := 0, gen := 0, op := 0, format := 1, windowLog := 0, depth := 1, lazy := false, declLen := 0, fallback := some 0 }, [1], true, 2, _, _, ⟨by decide +kernel, rfl, rfl, rfl, by decide +kernel⟩⟩,
   ⟨{ func := 0, gen := 0, op := 0, format := 1, windowLog := 0, depth := 1, lazy := false, declLen := 0, fallback := some 0 }, [1], false, 2, _, _, ⟨by decide +kernel, rfl, rfl, by decide +kernel⟩⟩,
   ⟨3, [[true, false], [true, true]], by
    repeat' apply And.intro
    all_goals first | decide +kernel | exact decOkEq _ _ (by decide +kernel) | exact readyOf _ _ _ (by decide +kernel)⟩⟩

theorem test_meets_TransformsRunAndAnswer_8 :
    (∃ (s : State) (c : CmpCtx) (n : Nat),
    (c.fallback.isSome = true ∨ n ≤ c.coded)) ∧
    (∃ (s : State) (c : CmpCtx) (n : Nat),
    (c.fallback = none) ∧ (c.coded < n)) ∧
    (∃ (c : CmpCtx) (new : Bytes) (more : Bool) (n : Nat),
    ((decodeStream c.format c.declLen (c.produced + n) (c.input ++ new)).stop = .done)) ∧
    (∃ (s : State) (id : CmdId) (d : Bytes) (c : Cmd) (h : TfHeader),
    (s.live id false 0x9B = some c) ∧ (tfHeader d = h) ∧ (h.op = 2) ∧ (c.sqe.nsid = 0xFFFFFFFF) ∧ (tfOk c h = true) ∧ (sglShort c.sqe (128 + h.inLen) = false) ∧ (h.keyed = false) ∧ (tfOutLen c.sqe < digestLen h.alg)) :=
  ⟨⟨wHost, { func := 0, gen := 0, op := 0, format := 1, windowLog := 0, depth := 1, lazy := false, declLen := 0, fallback := some 0 }, 3, by
    repeat' apply And.intro
    all_goals first | decide +kernel | exact decOkEq _ _ (by decide +kernel) | exact readyOf _ _ _ (by decide +kernel)⟩,
   ⟨wHost, { func := 0, gen := 0, op := 0, format := 1, windowLog := 0, depth := 1, lazy := false, declLen := 0, fallback := none }, 3, by
    repeat' apply And.intro
    all_goals first | decide +kernel | exact decOkEq _ _ (by decide +kernel) | exact readyOf _ _ _ (by decide +kernel)⟩,
   ⟨{ func := 0, gen := 0, op := 1, format := 0, windowLog := 0, depth := 1, lazy := false, declLen := 0 }, [0x4B, 0x04, 0x00], false, 64, by
    repeat' apply And.intro
    all_goals first | decide +kernel | exact decOkEq _ _ (by decide +kernel) | exact readyOf _ _ _ (by decide +kernel)⟩,
   ⟨wAt (wTfE 31), 5, wTf (2 + 0 * 2 ^ 144) [1, 2, 3], wCmd (wTfE 31), tfHeader (wTf (2 + 0 * 2 ^ 144) [1, 2, 3]), by
    repeat' apply And.intro
    all_goals first | decide +kernel | exact decOkEq _ _ (by decide +kernel) | exact readyOf _ _ _ (by decide +kernel)⟩⟩

theorem test_meets_TransformsRunAndAnswer_9 :
    (∃ (s : State) (id : CmdId) (d : Bytes) (c : Cmd) (h : TfHeader),
    (s.live id false 0x9B = some c) ∧ (tfHeader d = h) ∧ (h.op = 2) ∧ (c.sqe.nsid = 0xFFFFFFFF) ∧ (tfOk c h = true) ∧ (sglShort c.sqe (128 + h.inLen) = false) ∧ (h.keyed = false) ∧ (digestLen h.alg ≤ tfOutLen c.sqe)) ∧
    (∃ (s : State) (id : CmdId) (d : Bytes) (c : Cmd) (h : TfHeader),
    (s.live id false 0x9B = some c) ∧ (tfHeader d = h) ∧ (h.op = 2) ∧ (c.sqe.nsid = 0xFFFFFFFF) ∧ (tfOk c h = true) ∧ (sglShort c.sqe (128 + h.inLen) = false) ∧ (h.keyed = true) ∧ (s.dgeKey .feeder (4 + h.slot * 32 + c.func * 2 ^ 32 + c.epoch.toNat * 2 ^ 48) = none)) ∧
    (∃ (s : State) (id : CmdId) (d : Bytes) (c : Cmd) (h : TfHeader) (k : Bytes),
    (s.live id false 0x9B = some c) ∧ (tfHeader d = h) ∧ (h.op = 2) ∧ (c.sqe.nsid = 0xFFFFFFFF) ∧ (tfOk c h = true) ∧ (sglShort c.sqe (128 + h.inLen) = false) ∧ (h.keyed = true) ∧ (s.dgeKey .feeder (4 + h.slot * 32 + c.func * 2 ^ 32 + c.epoch.toNat * 2 ^ 48) = some k) ∧ ((padTo 64 (hmacOf h.alg k (slice d 128 h.inLen))).take h.expectLen = (slice d 64 64).take h.expectLen)) ∧
    (∃ (s : State) (id : CmdId) (d : Bytes) (c : Cmd) (h : TfHeader) (k : Bytes),
    (s.live id false 0x9B = some c) ∧ (tfHeader d = h) ∧ (h.op = 2) ∧ (c.sqe.nsid = 0xFFFFFFFF) ∧ (tfOk c h = true) ∧ (sglShort c.sqe (128 + h.inLen) = false) ∧ (h.keyed = true) ∧ (s.dgeKey .feeder (4 + h.slot * 32 + c.func * 2 ^ 32 + c.epoch.toNat * 2 ^ 48) = some k) ∧ ((padTo 64 (hmacOf h.alg k (slice d 128 h.inLen))).take h.expectLen ≠ (slice d 64 64).take h.expectLen)) :=
  ⟨⟨wAt (wTfE 32), 5, wTf (2 + 0 * 2 ^ 144) [1, 2, 3], wCmd (wTfE 32), tfHeader (wTf (2 + 0 * 2 ^ 144) [1, 2, 3]), by
    repeat' apply And.intro
    all_goals first | decide +kernel | exact decOkEq _ _ (by decide +kernel) | exact readyOf _ _ _ (by decide +kernel)⟩,
   ⟨wAt (wTfE 64), 5, wTf (2 + 3 * 2 ^ 128 + 2 ^ 143 + 64 * 2 ^ 146) [1, 2, 3], wCmd (wTfE 64), tfHeader (wTf (2 + 3 * 2 ^ 128 + 2 ^ 143 + 64 * 2 ^ 146) [1, 2, 3]), by
    repeat' apply And.intro
    all_goals first | decide +kernel | exact decOkEq _ _ (by decide +kernel) | exact readyOf _ _ _ (by decide +kernel)⟩,
   ⟨{ wAt (wTfE 64) with cpe := { slots := [(3, { key := some { bytes := [9], attr := 0x20 } })] } }, 5, wTf (2 + 3 * 2 ^ 128 + 2 ^ 143 + 32 * 2 ^ 146 + 111429396147224316625989904394577210569645651792501362275104993211449268421874 * 2 ^ 512) [1, 2, 3], wCmd (wTfE 64), tfHeader (wTf (2 + 3 * 2 ^ 128 + 2 ^ 143 + 32 * 2 ^ 146 + 111429396147224316625989904394577210569645651792501362275104993211449268421874 * 2 ^ 512) [1, 2, 3]), [9], by
    repeat' apply And.intro
    all_goals first | decide +kernel | exact decOkEq _ _ (by decide +kernel) | exact readyOf _ _ _ (by decide +kernel)⟩,
   ⟨{ wAt (wTfE 64) with cpe := { slots := [(3, { key := some { bytes := [9], attr := 0x20 } })] } }, 5, wTf (2 + 3 * 2 ^ 128 + 2 ^ 143 + 64 * 2 ^ 146) [1, 2, 3], wCmd (wTfE 64), tfHeader (wTf (2 + 3 * 2 ^ 128 + 2 ^ 143 + 64 * 2 ^ 146) [1, 2, 3]), [9], by
    repeat' apply And.intro
    all_goals first | decide +kernel | exact decOkEq _ _ (by decide +kernel) | exact readyOf _ _ _ (by decide +kernel)⟩⟩

theorem test_meets_TransformsRunAndAnswer_10 :
    (∃ (s : State) (id : CmdId) (d : Bytes) (c : Cmd) (h : TfHeader),
    (s.live id false 0x9B = some c) ∧ (tfHeader d = h) ∧ (h.op = 3) ∧ (c.sqe.nsid = 0xFFFFFFFF) ∧ (tfOk c h = true) ∧ (sglShort c.sqe (128 + h.inLen) = false) ∧ (tfOutLen c.sqe < tfCipherOut h)) ∧
    (∃ (s : State) (id : CmdId) (d : Bytes) (c : Cmd) (h : TfHeader) (e : CpeEntry),
    (s.live id false 0x9B = some c) ∧ (tfHeader d = h) ∧ (h.op = 3) ∧ (c.sqe.nsid = 0xFFFFFFFF) ∧ (tfOk c h = true) ∧ (sglShort c.sqe (128 + h.inLen) = false) ∧ (tfCipherOut h ≤ tfOutLen c.sqe) ∧ (tfEntry c h = e) ∧ (s.cpeKey e = .error 0x02)) ∧
    (∃ (s : State) (id : CmdId) (d : Bytes) (c : Cmd) (h : TfHeader) (e : CpeEntry),
    (s.live id false 0x9B = some c) ∧ (tfHeader d = h) ∧ (h.op = 3) ∧ (c.sqe.nsid = 0xFFFFFFFF) ∧ (tfOk c h = true) ∧ (sglShort c.sqe (128 + h.inLen) = false) ∧ (tfCipherOut h ≤ tfOutLen c.sqe) ∧ (tfEntry c h = e) ∧ (s.cpeKey e = .error 0x01)) ∧
    (∃ (s : State) (id : CmdId) (d : Bytes) (c : Cmd) (h : TfHeader) (e : CpeEntry) (k : Key) (out tag : Bytes),
    (s.live id false 0x9B = some c) ∧ (tfHeader d = h) ∧ (h.op = 3) ∧ (c.sqe.nsid = 0xFFFFFFFF) ∧ (tfOk c h = true) ∧ (sglShort c.sqe (128 + h.inLen) = false) ∧ (tfCipherOut h ≤ tfOutLen c.sqe) ∧ (tfEntry c h = e) ∧ (s.cpeKey e = .ok k) ∧ (h.mode ≠ 1) ∧ (({ e with key := k.bytes, nonce := leBytes 16 (ceIv e.entry.toNat) } : CpeEntry).run (slice d 128 h.inLen) = (out, tag))) :=
  ⟨⟨wAt (wTfE 2), 5, wTf (3 + 3 * 2 ^ 128 + 2 * 2 ^ 140) [1, 2, 3], wCmd (wTfE 2), tfHeader (wTf (3 + 3 * 2 ^ 128 + 2 * 2 ^ 140) [1, 2, 3]), by
    repeat' apply And.intro
    all_goals first | decide +kernel | exact decOkEq _ _ (by decide +kernel) | exact readyOf _ _ _ (by decide +kernel)⟩,
   ⟨{ wAt (wTfE 3) with cpe := { slots := [(3, { key := some { bytes := padTo 16 [1], attr := 0x3F, locked := true } })] } }, 5, wTf (3 + 3 * 2 ^ 128 + 2 * 2 ^ 140) [1, 2, 3], wCmd (wTfE 3), tfHeader (wTf (3 + 3 * 2 ^ 128 + 2 * 2 ^ 140) [1, 2, 3]), _, ⟨holds, holds, holds, holds, holds, holds, holds, rfl, errIs _ _ (by decide +kernel)⟩⟩,
   ⟨wAt (wTfE 3), 5, wTf (3 + 3 * 2 ^ 128 + 2 * 2 ^ 140) [1, 2, 3], wCmd (wTfE 3), tfHeader (wTf (3 + 3 * 2 ^ 128 + 2 * 2 ^ 140) [1, 2, 3]), _, ⟨holds, holds, holds, holds, holds, holds, holds, rfl, errIs _ _ (by decide +kernel)⟩⟩,
   ⟨{ wAt (wTfE 3) with cpe := { slots := [(3, { key := some wKey })] } }, 5, wTf (3 + 3 * 2 ^ 128 + 2 * 2 ^ 140) [1, 2, 3], wCmd (wTfE 3), tfHeader (wTf (3 + 3 * 2 ^ 128 + 2 * 2 ^ 140) [1, 2, 3]), tfEntry (wCmd (wTfE 3)) (tfHeader (wTf (3 + 3 * 2 ^ 128 + 2 * 2 ^ 140) [1, 2, 3])), wKey, _, _, ⟨holds, holds, holds, holds, holds, holds, holds, holds, decOkEq _ _ (by decide +kernel), holds, rfl⟩⟩⟩

theorem test_meets_TransformsRunAndAnswer_11 :
    (∃ (s : State) (id : CmdId) (d : Bytes) (c : Cmd) (h : TfHeader),
    (s.live id false 0x9B = some c) ∧ (tfHeader d = h) ∧ (h.op = 4) ∧ (c.sqe.nsid = 0xFFFFFFFF) ∧ (tfOk c h = true) ∧ (sglShort c.sqe (128 + h.inLen) = false) ∧ (tfOutLen c.sqe < tfCipherOut h)) ∧
    (∃ (s : State) (id : CmdId) (d : Bytes) (c : Cmd) (h : TfHeader) (e : CpeEntry),
    (s.live id false 0x9B = some c) ∧ (tfHeader d = h) ∧ (h.op = 4) ∧ (c.sqe.nsid = 0xFFFFFFFF) ∧ (tfOk c h = true) ∧ (sglShort c.sqe (128 + h.inLen) = false) ∧ (tfCipherOut h ≤ tfOutLen c.sqe) ∧ (tfEntry c h = e) ∧ (s.cpeKey e = .error 0x02)) ∧
    (∃ (s : State) (id : CmdId) (d : Bytes) (c : Cmd) (h : TfHeader) (e : CpeEntry),
    (s.live id false 0x9B = some c) ∧ (tfHeader d = h) ∧ (h.op = 4) ∧ (c.sqe.nsid = 0xFFFFFFFF) ∧ (tfOk c h = true) ∧ (sglShort c.sqe (128 + h.inLen) = false) ∧ (tfCipherOut h ≤ tfOutLen c.sqe) ∧ (tfEntry c h = e) ∧ (s.cpeKey e = .error 0x01)) ∧
    (∃ (s : State) (id : CmdId) (d : Bytes) (c : Cmd) (h : TfHeader) (e : CpeEntry) (k : Key) (out tag : Bytes),
    (s.live id false 0x9B = some c) ∧ (tfHeader d = h) ∧ (h.op = 4) ∧ (c.sqe.nsid = 0xFFFFFFFF) ∧ (tfOk c h = true) ∧ (sglShort c.sqe (128 + h.inLen) = false) ∧ (tfCipherOut h ≤ tfOutLen c.sqe) ∧ (tfEntry c h = e) ∧ (s.cpeKey e = .ok k) ∧ (h.mode ≠ 1) ∧ (({ e with key := k.bytes, nonce := leBytes 16 (ceIv e.entry.toNat) } : CpeEntry).run (slice d 128 h.inLen) = (out, tag))) :=
  ⟨⟨wAt (wTfE 2), 5, wTf (4 + 3 * 2 ^ 128 + 2 * 2 ^ 140) [1, 2, 3], wCmd (wTfE 2), tfHeader (wTf (4 + 3 * 2 ^ 128 + 2 * 2 ^ 140) [1, 2, 3]), by
    repeat' apply And.intro
    all_goals first | decide +kernel | exact decOkEq _ _ (by decide +kernel) | exact readyOf _ _ _ (by decide +kernel)⟩,
   ⟨{ wAt (wTfE 3) with cpe := { slots := [(3, { key := some { bytes := padTo 16 [1], attr := 0x3F, locked := true } })] } }, 5, wTf (4 + 3 * 2 ^ 128 + 2 * 2 ^ 140) [1, 2, 3], wCmd (wTfE 3), tfHeader (wTf (4 + 3 * 2 ^ 128 + 2 * 2 ^ 140) [1, 2, 3]), _, ⟨holds, holds, holds, holds, holds, holds, holds, rfl, errIs _ _ (by decide +kernel)⟩⟩,
   ⟨wAt (wTfE 3), 5, wTf (4 + 3 * 2 ^ 128 + 2 * 2 ^ 140) [1, 2, 3], wCmd (wTfE 3), tfHeader (wTf (4 + 3 * 2 ^ 128 + 2 * 2 ^ 140) [1, 2, 3]), _, ⟨holds, holds, holds, holds, holds, holds, holds, rfl, errIs _ _ (by decide +kernel)⟩⟩,
   ⟨{ wAt (wTfE 3) with cpe := { slots := [(3, { key := some wKey })] } }, 5, wTf (4 + 3 * 2 ^ 128 + 2 * 2 ^ 140) [1, 2, 3], wCmd (wTfE 3), tfHeader (wTf (4 + 3 * 2 ^ 128 + 2 * 2 ^ 140) [1, 2, 3]), tfEntry (wCmd (wTfE 3)) (tfHeader (wTf (4 + 3 * 2 ^ 128 + 2 * 2 ^ 140) [1, 2, 3])), wKey, _, _, ⟨holds, holds, holds, holds, holds, holds, holds, holds, decOkEq _ _ (by decide +kernel), holds, rfl⟩⟩⟩

theorem test_meets_TransformsRunAndAnswer_12 :
    (∃ (s : State) (id : CmdId) (d : Bytes) (c : Cmd) (h : TfHeader) (e : CpeEntry) (k : Key) (nonce out tag : Bytes) (t : State),
    (s.live id false 0x9B = some c) ∧ (tfHeader d = h) ∧ (h.op = 3) ∧ (c.sqe.nsid = 0xFFFFFFFF) ∧ (tfOk c h = true) ∧ (sglShort c.sqe (128 + h.inLen) = false) ∧ (tfCipherOut h ≤ tfOutLen c.sqe) ∧ (tfEntry c h = e) ∧ (h.mode = 1) ∧ (s.cpeKey e = .ok k) ∧ ((s.bindNonce e k).1 = nonce) ∧ ((s.bindNonce e k).2 = t) ∧ (({ e with key := k.bytes, nonce := nonce } : CpeEntry).run (slice d 128 h.inLen) = (out, tag))) ∧
    (∃ (s : State) (id : CmdId) (d : Bytes) (c : Cmd) (h : TfHeader) (e : CpeEntry) (k : Key) (out tag : Bytes),
    (s.live id false 0x9B = some c) ∧ (tfHeader d = h) ∧ (h.op = 4) ∧ (c.sqe.nsid = 0xFFFFFFFF) ∧ (tfOk c h = true) ∧ (sglShort c.sqe (128 + h.inLen) = false) ∧ (tfCipherOut h ≤ tfOutLen c.sqe) ∧ (tfEntry c h = e) ∧ (h.mode = 1) ∧ (ceReleases e.entry.toNat = false) ∧ (s.cpeKey e = .ok k) ∧ (({ e with key := k.bytes, nonce := leBytes 12 (ceIv e.entry.toNat) } : CpeEntry).run (slice d 128 h.inLen) = (out, tag)) ∧ (tag.take (ceTagLen e.entry.toNat) ≠ leBytes (ceTagLen e.entry.toNat) (ceTag e.entry.toNat))) ∧
    (∃ (s : State) (i : Nat),
    (s.heldCtx i = none)) ∧
    (∃ (s : State) (i : Nat) (x : CmpCtx),
    (s.heldCtx i = some x) ∧ (s.mayResume x = false)) :=
  ⟨⟨{ wAt (wTfE 31) with cpe := { slots := [(3, { key := some wKey })] } }, 5, wTf (3 + 3 * 2 ^ 128 + 1 * 2 ^ 140 + 16 * 2 ^ 177) [1, 2, 3], wCmd (wTfE 31), tfHeader (wTf (3 + 3 * 2 ^ 128 + 1 * 2 ^ 140 + 16 * 2 ^ 177) [1, 2, 3]), tfEntry (wCmd (wTfE 31)) (tfHeader (wTf (3 + 3 * 2 ^ 128 + 1 * 2 ^ 140 + 16 * 2 ^ 177) [1, 2, 3])), wKey, _, _, _, _, ⟨holds, holds, holds, holds, holds, holds, holds, holds, holds, decOkEq _ _ (by decide +kernel), rfl, rfl, rfl⟩⟩,
   ⟨{ wAt (wTfE 31) with cpe := { slots := [(3, { key := some wKey })] } }, 5, wTf (4 + 3 * 2 ^ 128 + 1 * 2 ^ 140 + 16 * 2 ^ 177) [1, 2, 3], wCmd (wTfE 31), tfHeader (wTf (4 + 3 * 2 ^ 128 + 1 * 2 ^ 140 + 16 * 2 ^ 177) [1, 2, 3]), tfEntry (wCmd (wTfE 31)) (tfHeader (wTf (4 + 3 * 2 ^ 128 + 1 * 2 ^ 140 + 16 * 2 ^ 177) [1, 2, 3])), wKey, ((let e := tfEntry (wCmd (wTfE 31)) (tfHeader (wTf (4 + 3 * 2 ^ 128 + 1 * 2 ^ 140 + 16 * 2 ^ 177) [1, 2, 3])); ({ e with key := wKey.bytes, nonce := leBytes 12 (ceIv e.entry.toNat) } : CpeEntry)).run [1, 2, 3]).1, ((let e := tfEntry (wCmd (wTfE 31)) (tfHeader (wTf (4 + 3 * 2 ^ 128 + 1 * 2 ^ 140 + 16 * 2 ^ 177) [1, 2, 3])); ({ e with key := wKey.bytes, nonce := leBytes 12 (ceIv e.entry.toNat) } : CpeEntry)).run [1, 2, 3]).2, ⟨holds, holds, holds, holds, holds, holds, holds, holds, holds, holds, decOkEq _ _ (by decide +kernel), holds, holds⟩⟩,
   ⟨wHost, 63, by
    repeat' apply And.intro
    all_goals first | decide +kernel | exact decOkEq _ _ (by decide +kernel) | exact readyOf _ _ _ (by decide +kernel)⟩,
   ⟨{ wHost with cmp := { ctxs := [(63, some { func := 0, gen := 0, op := 1, format := 1, windowLog := 0, depth := 1, lazy := false, declLen := 0 })] } }, 63, { func := 0, gen := 0, op := 1, format := 1, windowLog := 0, depth := 1, lazy := false, declLen := 0 }, by
    repeat' apply And.intro
    all_goals first | decide +kernel | exact decOkEq _ _ (by decide +kernel) | exact readyOf _ _ _ (by decide +kernel)⟩⟩

theorem test_meets_TransformsRunAndAnswer_13 :
    (∃ (s : State) (i : Nat) (x : CmpCtx),
    (s.heldCtx i = some x) ∧ (s.mayResume x = true)) ∧
    (∃ (s : State) (id : CmdId) (d : Bytes) (b : TagFault) (c : Cmd) (h : TfHeader),
    (s.live id false 0x9B = some c) ∧ (tfHeader d = h) ∧ (h.op = 2) ∧ (c.sqe.nsid = 0xFFFFFFFF) ∧ (tfOk c h = true) ∧ (sglShort c.sqe (128 + h.inLen) = false) ∧ (componentOk b.component = true)) ∧
    (∃ (s : State) (id : CmdId) (d : Bytes) (b : TagFault) (c : Cmd) (h : TfHeader),
    (s.live id false 0x9B = some c) ∧ (tfHeader d = h) ∧ (h.op = 3) ∧ (c.sqe.nsid = 0xFFFFFFFF) ∧ (tfOk c h = true) ∧ (sglShort c.sqe (128 + h.inLen) = false) ∧ (componentOk b.component = true)) ∧
    (∃ (s : State) (id : CmdId) (d : Bytes) (b : TagFault) (c : Cmd) (h : TfHeader),
    (s.live id false 0x9B = some c) ∧ (tfHeader d = h) ∧ (h.op = 4) ∧ (c.sqe.nsid = 0xFFFFFFFF) ∧ (tfOk c h = true) ∧ (sglShort c.sqe (128 + h.inLen) = false) ∧ (componentOk b.component = true)) :=
  ⟨⟨{ wAt (wTfE 64) with cmp := { ctxs := [(63, some { func := 0, gen := 0, op := 1, format := 1, windowLog := 0, depth := 1, lazy := false, declLen := 0 })] } }, 63, { func := 0, gen := 0, op := 1, format := 1, windowLog := 0, depth := 1, lazy := false, declLen := 0 }, by
    repeat' apply And.intro
    all_goals first | decide +kernel | exact decOkEq _ _ (by decide +kernel) | exact readyOf _ _ _ (by decide +kernel)⟩,
   ⟨wAt (wTfE 32), 5, wTf (2 + 0 * 2 ^ 144) [1, 2, 3], { component := 0x0AFF, unitNo := 0 }, wCmd (wTfE 32), tfHeader (wTf (2 + 0 * 2 ^ 144) [1, 2, 3]), by
    repeat' apply And.intro
    all_goals first | decide +kernel | exact decOkEq _ _ (by decide +kernel) | exact readyOf _ _ _ (by decide +kernel)⟩,
   ⟨wAt (wTfE 32), 5, wTf (3 + 3 * 2 ^ 128 + 2 * 2 ^ 140) [1, 2, 3], { component := 0x0AFF, unitNo := 0 }, wCmd (wTfE 32), tfHeader (wTf (3 + 3 * 2 ^ 128 + 2 * 2 ^ 140) [1, 2, 3]), by
    repeat' apply And.intro
    all_goals first | decide +kernel | exact decOkEq _ _ (by decide +kernel) | exact readyOf _ _ _ (by decide +kernel)⟩,
   ⟨wAt (wTfE 32), 5, wTf (4 + 3 * 2 ^ 128 + 2 * 2 ^ 140) [1, 2, 3], { component := 0x0AFF, unitNo := 0 }, wCmd (wTfE 32), tfHeader (wTf (4 + 3 * 2 ^ 128 + 2 * 2 ^ 140) [1, 2, 3]), by
    repeat' apply And.intro
    all_goals first | decide +kernel | exact decOkEq _ _ (by decide +kernel) | exact readyOf _ _ _ (by decide +kernel)⟩⟩

theorem test_meets_TransformsRunAndAnswer_14 :
    (∃ (s : State) (id : CmdId) (d : Bytes) (v : Bool) (b : TagFault) (c : Cmd) (h : TfHeader) (x : CmpCtx),
    (s.live id false 0x9B = some c) ∧ (tfHeader d = h) ∧ (h.op = 0) ∧ (c.sqe.nsid = 0xFFFFFFFF) ∧ (tfOk c h = true) ∧ (sglShort c.sqe (128 + h.inLen) = false) ∧ (h.cont = true) ∧ (s.heldCtx h.context = some x) ∧ (x.func = c.func) ∧ (x.scull = none) ∧ (x.op = h.op) ∧ (componentOk b.component = true)) ∧
    (∃ (s : State) (id : CmdId) (d : Bytes) (b : TagFault) (c : Cmd) (h : TfHeader) (x : CmpCtx) (r : CmpStep),
    (s.live id false 0x9B = some c) ∧ (tfHeader d = h) ∧ (h.op = 1) ∧ (c.sqe.nsid = 0xFFFFFFFF) ∧ (tfOk c h = true) ∧ (sglShort c.sqe (128 + h.inLen) = false) ∧ (h.cont = true) ∧ (s.heldCtx h.context = some x) ∧ (x.func = c.func) ∧ (x.scull = none) ∧ (x.op = h.op) ∧ (componentOk b.component = true) ∧ (badStep x (slice d 128 h.inLen) (tfOutLen c.sqe) (4096 * b.unitNo) = some r)) :=
  ⟨⟨{ wAt (wTfE 64) with cmp := { ctxs := [(0, some { func := 0, gen := 0, op := 0, format := 1, windowLog := 0, depth := 1, lazy := false, declLen := 0 })] } }, 5, wTf (0 + 128) [1, 2, 3], true, { component := 0x0CFF, unitNo := 0 }, wCmd (wTfE 64), tfHeader (wTf (0 + 128) [1, 2, 3]), { func := 0, gen := 0, op := 0, format := 1, windowLog := 0, depth := 1, lazy := false, declLen := 0 }, by
    repeat' apply And.intro
    all_goals first | decide +kernel | exact decOkEq _ _ (by decide +kernel) | exact readyOf _ _ _ (by decide +kernel)⟩,
   ⟨{ wAt (wTfE 64) with cmp := { ctxs := [(0, some { func := 0, gen := 0, op := 1, format := 1, windowLog := 0, depth := 1, lazy := false, declLen := 0 })] } }, 5, wTf (1 + 128) [1, 2, 3], { component := 0x0CFF, unitNo := 0 }, wCmd (wTfE 64), tfHeader (wTf (1 + 128) [1, 2, 3]), { func := 0, gen := 0, op := 1, format := 1, windowLog := 0, depth := 1, lazy := false, declLen := 0 }, (badStep { func := 0, gen := 0, op := 1, format := 1, windowLog := 0, depth := 1, lazy := false, declLen := 0 } (slice (wTf (1 + 128) [1, 2, 3]) 128 3) 64 0).get (by decide +kernel), ⟨holds, rfl, holds, holds, holds, holds, holds, holds, holds, holds, holds, holds, holds⟩⟩⟩

theorem test_meets_SuppliesAndModesMoveTheDevice_1 :
    (∃ (s : State) (v : Nat),
    (1100 ≤ v ∨ s.psm.mode = .off)) ∧
    (∃ (s : State) (v : Nat),
    (v < 1100) ∧ (s.psm.mode = .service ∨ s.psm.mode = .rest ∨ s.psm.mode = .degraded ∨ s.psm.mode = .maintenance ∨ s.psm.mode = .safeHalt)) ∧
    (∃ (s : State) (v : Nat),
    (v < 1100) ∧ (s.psm.mode = .boot) ∧ (s.psm.por = none)) ∧
    (∃ (s : State) (v : Nat),
    (v < 1100) ∧ (s.psm.mode = .drain ∨ s.psm.mode = .hold)) :=
  ⟨⟨wHost, 1100, by
    repeat' apply And.intro
    all_goals first | decide +kernel | exact decOkEq _ _ (by decide +kernel) | exact readyOf _ _ _ (by decide +kernel)⟩,
   ⟨wHost, 1099, by
    repeat' apply And.intro
    all_goals first | decide +kernel | exact decOkEq _ _ (by decide +kernel) | exact readyOf _ _ _ (by decide +kernel)⟩,
   ⟨wBoot, 0, by
    repeat' apply And.intro
    all_goals first | decide +kernel | exact decOkEq _ _ (by decide +kernel) | exact readyOf _ _ _ (by decide +kernel)⟩,
   ⟨{ wHost with psm := { mode := .drain } }, 1099, by
    repeat' apply And.intro
    all_goals first | decide +kernel | exact decOkEq _ _ (by decide +kernel) | exact readyOf _ _ _ (by decide +kernel)⟩⟩

theorem test_meets_SuppliesAndModesMoveTheDevice_2 :
    (∃ (s : State) (v ms : Nat),
    (960 ≤ v ∨ s.psm.mode = .off)) ∧
    (∃ (s : State) (v ms : Nat),
    (v < 960) ∧ (s.psm.mode ≠ .off)) ∧
    (∃ (s : State) (ch : Nat),
    (s.psm.fence = false)) ∧
    (∃ (s : State) (ch : Nat),
    (s.psm.fence = true)) :=
  ⟨⟨wHost, 960, 1, by
    repeat' apply And.intro
    all_goals first | decide +kernel | exact decOkEq _ _ (by decide +kernel) | exact readyOf _ _ _ (by decide +kernel)⟩,
   ⟨wHost, 959, 1, by
    repeat' apply And.intro
    all_goals first | decide +kernel | exact decOkEq _ _ (by decide +kernel) | exact readyOf _ _ _ (by decide +kernel)⟩,
   ⟨wHost, 15, by
    repeat' apply And.intro
    all_goals first | decide +kernel | exact decOkEq _ _ (by decide +kernel) | exact readyOf _ _ _ (by decide +kernel)⟩,
   ⟨{ wHost with psm := { mode := .drain, fence := true } }, 15, by
    repeat' apply And.intro
    all_goals first | decide +kernel | exact decOkEq _ _ (by decide +kernel) | exact readyOf _ _ _ (by decide +kernel)⟩⟩

theorem test_meets_SuppliesAndModesMoveTheDevice_3 :
    (∃ (s : State) (ms v : Nat),
    (s.psm.mode ≠ .drain ∨ (s.psm.fence = false ∧ s.flashQuiet = false))) ∧
    (∃ (s : State) (ms v : Nat),
    (s.psm.mode = .drain) ∧ (s.psm.fence = true ∨ s.flashQuiet = true) ∧ (s.psm.por = none) ∧ (s.inflight = []) ∧ (s.objs.undone = [])) ∧
    (∃ (s : State) (r mv ms : Nat) (up : Bool),
    (4 < r ∨ s.psm.mode = .off ∨ s.psm.mode = .hold ∨ s.psm.rails.contains r = true)) ∧
    (∃ (s : State) (r mv ms : Nat),
    (railNominal r * 94 ≤ mv * 100) ∧ (mv * 100 ≤ railNominal r * 108)) :=
  ⟨⟨wHost, 1, 900, by
    repeat' apply And.intro
    all_goals first | decide +kernel | exact decOkEq _ _ (by decide +kernel) | exact readyOf _ _ _ (by decide +kernel)⟩,
   ⟨{ wHost with psm := { mode := .drain } }, 1, 900, by
    repeat' apply And.intro
    all_goals first | decide +kernel | exact decOkEq _ _ (by decide +kernel) | exact readyOf _ _ _ (by decide +kernel)⟩,
   ⟨wHost, 5, 9999, 1, true, by
    repeat' apply And.intro
    all_goals first | decide +kernel | exact decOkEq _ _ (by decide +kernel) | exact readyOf _ _ _ (by decide +kernel)⟩,
   ⟨wHost, 0, 752, 1, by
    repeat' apply And.intro
    all_goals first | decide +kernel | exact decOkEq _ _ (by decide +kernel) | exact readyOf _ _ _ (by decide +kernel)⟩⟩

theorem test_meets_SuppliesAndModesMoveTheDevice_4 :
    (∃ (s : State) (r mv ms : Nat),
    (r ≤ 4) ∧ (railNominal r * 108 < mv * 100) ∧ (s.psm.rails.contains r = false) ∧ (s.psm.mode = .boot ∨ s.psm.mode.live = true) ∧ (s.psm.mode ≠ .safeHalt)) ∧
    (∃ (s : State) (r mv ms : Nat),
    (r ≤ 4) ∧ (mv * 100 < railNominal r * 94) ∧ (s.psm.rails.contains r = false) ∧ (s.psm.mode = .boot ∨ s.psm.mode.live = true) ∧ (s.psm.mode ≠ .safeHalt)) ∧
    (∃ (s : State) (v : Nat),
    (s.psm.mode ≠ .hold ∨ v < 1140 ∨ s.psm.pins.porLow = true ∨ (s.psm.thermalHold = true ∧ 368 ≤ nth 0 s.therm.sensors 0))) ∧
    (∃ (s : State) (v : Nat),
    (s.psm.mode = .hold) ∧ (1140 ≤ v) ∧ (s.psm.pins.porLow = false) ∧ (s.psm.thermalHold = false ∨ nth 0 s.therm.sensors 0 < 368) ∧ (s.recd.aonLost = false) ∧ (s.recd.powerCycles < 0xFFFFFFFF) ∧ (s.nvs.trial = false) ∧ (s.bootRole = some 0)) :=
  ⟨⟨wHost, 0, 865, 1, by
    repeat' apply And.intro
    all_goals first | decide +kernel | exact decOkEq _ _ (by decide +kernel) | exact readyOf _ _ _ (by decide +kernel)⟩,
   ⟨wHost, 0, 751, 1, by
    repeat' apply And.intro
    all_goals first | decide +kernel | exact decOkEq _ _ (by decide +kernel) | exact readyOf _ _ _ (by decide +kernel)⟩,
   ⟨wHost, 1140, by
    repeat' apply And.intro
    all_goals first | decide +kernel | exact decOkEq _ _ (by decide +kernel) | exact readyOf _ _ _ (by decide +kernel)⟩,
   ⟨wCold, 1140, by
    repeat' apply And.intro
    all_goals first | decide +kernel | exact decOkEq _ _ (by decide +kernel) | exact readyOf _ _ _ (by decide +kernel)⟩⟩

theorem test_meets_SuppliesAndModesMoveTheDevice_5 :
    (∃ (s : State) (v : Nat),
    (s.psm.mode = .hold) ∧ (1140 ≤ v) ∧ (s.psm.pins.porLow = false) ∧ (s.psm.thermalHold = false ∨ nth 0 s.therm.sensors 0 < 368) ∧ (s.recd.aonLost = false) ∧ (s.recd.powerCycles < 0xFFFFFFFF) ∧ (s.nvs.trial = false) ∧ (s.bootRole = none)) ∧
    (∃ (s : State) (l : List Instance),
    (s.psm.mode ≠ .boot ∨ s.psm.pins.testEn = true ∨ s.dram.resetHigh = false ∨ s.flash.journalRead = false ∨ s.psm.holdup.run ≠ none)) ∧
    (∃ (s : State),
    (s.psm.mode = .boot) ∧ (s.psm.pins.testEn = false) ∧ (s.dram.resetHigh = true) ∧ (s.flash.journalRead = true) ∧ (s.psm.holdup.run = none) ∧ (s.nvs.fwRunning ≠ 1) ∧ (s.psm.holdup.passed = true) ∧ (s.psm.causes = 0)) ∧
    (∃ (s : State),
    (s.psm.mode = .boot) ∧ (s.psm.pins.testEn = false) ∧ (s.dram.resetHigh = true) ∧ (s.flash.journalRead = true) ∧ (s.psm.holdup.run = none) ∧ (s.nvs.fwRunning ≠ 1) ∧ (s.psm.holdup.passed = false)) :=
  ⟨⟨{ wCold with nvs := {} }, 1140, by
    repeat' apply And.intro
    all_goals first | decide +kernel | exact decOkEq _ _ (by decide +kernel) | exact readyOf _ _ _ (by decide +kernel)⟩,
   ⟨wBoot, [], by
    repeat' apply And.intro
    all_goals first | decide +kernel | exact decOkEq _ _ (by decide +kernel) | exact readyOf _ _ _ (by decide +kernel)⟩,
   ⟨{ wBoot with psm := { wBoot.psm with holdup := { passed := true } }, dram := { resetHigh := true }, flash := { journalRead := true }, nvs := { fwRunning := 2 } }, by
    repeat' apply And.intro
    all_goals first | decide +kernel | exact decOkEq _ _ (by decide +kernel) | exact readyOf _ _ _ (by decide +kernel)⟩,
   ⟨{ wBoot with psm := { wBoot.psm with holdup := { passed := false } }, dram := { resetHigh := true }, flash := { journalRead := true }, nvs := { fwRunning := 2 } }, by
    repeat' apply And.intro
    all_goals first | decide +kernel | exact decOkEq _ _ (by decide +kernel) | exact readyOf _ _ _ (by decide +kernel)⟩⟩

theorem test_meets_SuppliesAndModesMoveTheDevice_6 :
    (∃ (s : State) (v v0 : Nat),
    (s.psm.mode.tests = false ∨ s.psm.heldFromHalt = true ∨ s.psm.holdup.run ≠ none)) ∧
    (∃ (s : State) (v v0 : Nat),
    (s.psm.mode.tests = true) ∧ (s.psm.heldFromHalt = false) ∧ (s.psm.holdup.run = none) ∧ (v < 1160)) ∧
    (∃ (s : State) (v v0 : Nat),
    (s.psm.mode.tests = true) ∧ (s.psm.heldFromHalt = false) ∧ (s.psm.holdup.run = none) ∧ (1160 ≤ v)) ∧
    (∃ (s : State) (v1 : Nat) (r : HoldupRun),
    (s.psm.holdup.run = some r) ∧ (r.v1 = none)) :=
  ⟨⟨State.reset, 1200, 11900, by
    repeat' apply And.intro
    all_goals first | decide +kernel | exact decOkEq _ _ (by decide +kernel) | exact readyOf _ _ _ (by decide +kernel)⟩,
   ⟨wHost, 1159, 11900, by
    repeat' apply And.intro
    all_goals first | decide +kernel | exact decOkEq _ _ (by decide +kernel) | exact readyOf _ _ _ (by decide +kernel)⟩,
   ⟨wHost, 1160, 11900, by
    repeat' apply And.intro
    all_goals first | decide +kernel | exact decOkEq _ _ (by decide +kernel) | exact readyOf _ _ _ (by decide +kernel)⟩,
   ⟨{ wHost with psm := { wHost.psm with holdup := { run := some { v0 := 11900, boot := false } } } }, 11800, { v0 := 11900, boot := false }, by
    repeat' apply And.intro
    all_goals first | decide +kernel | exact decOkEq _ _ (by decide +kernel) | exact readyOf _ _ _ (by decide +kernel)⟩⟩

theorem test_meets_SuppliesAndModesMoveTheDevice_7 :
    (∃ (s : State) (v1 v2 : Nat) (g : Bool),
    (s.psm.holdup.run = none)) ∧
    (∃ (s : State) (v2 v1 : Nat) (r : HoldupRun) (g : Bool),
    (s.psm.holdup.run = some r) ∧ (r.v1 = some v1)) ∧
    (∃ (s : State) (v2 : Nat) (r : HoldupRun) (g : Bool),
    (s.psm.holdup.run = some r) ∧ (r.v1 = none)) ∧
    (∃ (s : State) (v0 v1 v2 : Nat) (boot g : Bool),
    (boot = true)) :=
  ⟨⟨wHost, 1, 1, true, by
    repeat' apply And.intro
    all_goals first | decide +kernel | exact decOkEq _ _ (by decide +kernel) | exact readyOf _ _ _ (by decide +kernel)⟩,
   ⟨{ wHost with psm := { wHost.psm with holdup := { run := some { v0 := 11900, v1 := some 11800, boot := false } } } }, 11600, 11800, { v0 := 11900, v1 := some 11800, boot := false }, false, by
    repeat' apply And.intro
    all_goals first | decide +kernel | exact decOkEq _ _ (by decide +kernel) | exact readyOf _ _ _ (by decide +kernel)⟩,
   ⟨{ wHost with psm := { wHost.psm with holdup := { run := some { v0 := 11900, boot := false } } } }, 11600, { v0 := 11900, boot := false }, false, by
    repeat' apply And.intro
    all_goals first | decide +kernel | exact decOkEq _ _ (by decide +kernel) | exact readyOf _ _ _ (by decide +kernel)⟩,
   ⟨wBoot, 11900, 11800, 11600, true, false, by
    repeat' apply And.intro
    all_goals first | decide +kernel | exact decOkEq _ _ (by decide +kernel) | exact readyOf _ _ _ (by decide +kernel)⟩⟩

theorem test_meets_SuppliesAndModesMoveTheDevice_8 :
    (∃ (s : State) (v0 v1 v2 : Nat) (boot : Bool),
    (v0 * v0 + v2 * v2 < 2 * v1 * v1)) ∧
    (∃ (s : State),
    (s.idle = false)) ∧
    (∃ (s : State),
    (s.idle = true)) ∧
    (∃ (s : State),
    (s.psm.mode ≠ .rest)) :=
  ⟨⟨wBoot, 11900, 11800, 11600, true, by
    repeat' apply And.intro
    all_goals first | decide +kernel | exact decOkEq _ _ (by decide +kernel) | exact readyOf _ _ _ (by decide +kernel)⟩,
   ⟨wBoot, by
    repeat' apply And.intro
    all_goals first | decide +kernel | exact decOkEq _ _ (by decide +kernel) | exact readyOf _ _ _ (by decide +kernel)⟩,
   ⟨wHost, by
    repeat' apply And.intro
    all_goals first | decide +kernel | exact decOkEq _ _ (by decide +kernel) | exact readyOf _ _ _ (by decide +kernel)⟩,
   ⟨wHost, by
    repeat' apply And.intro
    all_goals first | decide +kernel | exact decOkEq _ _ (by decide +kernel) | exact readyOf _ _ _ (by decide +kernel)⟩⟩

theorem test_meets_SuppliesAndModesMoveTheDevice_9 :
    (∃ (s : State),
    (s.psm.mode = .rest)) ∧
    (∃ (s : State),
    (s.psm.mode ≠ .off) ∧ (s.psm.pins.aonBkup = false)) ∧
    (∃ (s : State),
    (s.psm.mode ≠ .off) ∧ (s.psm.pins.aonBkup = true)) ∧
    (∃ (s : State),
    (s.psm.mode = .off)) :=
  ⟨⟨{ wHost with psm := { mode := .rest } }, by
    repeat' apply And.intro
    all_goals first | decide +kernel | exact decOkEq _ _ (by decide +kernel) | exact readyOf _ _ _ (by decide +kernel)⟩,
   ⟨wHost, by
    repeat' apply And.intro
    all_goals first | decide +kernel | exact decOkEq _ _ (by decide +kernel) | exact readyOf _ _ _ (by decide +kernel)⟩,
   ⟨{ wHost with psm := { mode := .hold, pins := { aonBkup := true } } }, by
    repeat' apply And.intro
    all_goals first | decide +kernel | exact decOkEq _ _ (by decide +kernel) | exact readyOf _ _ _ (by decide +kernel)⟩,
   ⟨State.reset, by
    repeat' apply And.intro
    all_goals first | decide +kernel | exact decOkEq _ _ (by decide +kernel) | exact readyOf _ _ _ (by decide +kernel)⟩⟩

theorem test_meets_SuppliesAndModesMoveTheDevice_10 :
    (∃ (s : State) (t : Bool),
    (s.psm.mode = .off) ∧ (s.psm.pins.porLow = false)) ∧
    (∃ (s : State) (t : Bool),
    (s.psm.pins.porLow = true ∨ s.psm.mode ≠ .off)) ∧
    (∃ (s : State) (t : Bool),
    (s.psm.mode = .off) ∧ (s.psm.pins.aonUp = true)) ∧
    (∃ (s : State) (t : Bool),
    (s.psm.mode ≠ .off ∨ s.psm.pins.aonUp = false)) :=
  ⟨⟨State.reset, true, by
    repeat' apply And.intro
    all_goals first | decide +kernel | exact decOkEq _ _ (by decide +kernel) | exact readyOf _ _ _ (by decide +kernel)⟩,
   ⟨wHost, true, by
    repeat' apply And.intro
    all_goals first | decide +kernel | exact decOkEq _ _ (by decide +kernel) | exact readyOf _ _ _ (by decide +kernel)⟩,
   ⟨{ State.reset with psm := { pins := { aonUp := true, porLow := true } } }, true, by
    repeat' apply And.intro
    all_goals first | decide +kernel | exact decOkEq _ _ (by decide +kernel) | exact readyOf _ _ _ (by decide +kernel)⟩,
   ⟨wHost, true, by
    repeat' apply And.intro
    all_goals first | decide +kernel | exact decOkEq _ _ (by decide +kernel) | exact readyOf _ _ _ (by decide +kernel)⟩⟩

theorem test_meets_SuppliesAndModesMoveTheDevice_11 :
    (∃ (s : State),
    True) ∧
    (∃ (s : State),
    (s.psm.pins.porLow = true)) ∧
    (∃ (s : State),
    (s.psm.pins.porLow = false) ∧ (s.psm.mode = .hold)) ∧
    (∃ (s : State),
    (s.psm.pins.porLow = false) ∧ (s.psm.mode = .service ∨ s.psm.mode = .rest ∨ s.psm.mode = .degraded ∨ s.psm.mode = .maintenance ∨ s.psm.mode = .safeHalt)) :=
  ⟨⟨wHost, by
    repeat' apply And.intro
    all_goals first | decide +kernel | exact decOkEq _ _ (by decide +kernel) | exact readyOf _ _ _ (by decide +kernel)⟩,
   ⟨{ wHost with psm := { mode := .service, pins := { porLow := true } } }, by
    repeat' apply And.intro
    all_goals first | decide +kernel | exact decOkEq _ _ (by decide +kernel) | exact readyOf _ _ _ (by decide +kernel)⟩,
   ⟨{ wHost with psm := { mode := .hold } }, by
    repeat' apply And.intro
    all_goals first | decide +kernel | exact decOkEq _ _ (by decide +kernel) | exact readyOf _ _ _ (by decide +kernel)⟩,
   ⟨wHost, by
    repeat' apply And.intro
    all_goals first | decide +kernel | exact decOkEq _ _ (by decide +kernel) | exact readyOf _ _ _ (by decide +kernel)⟩⟩

theorem test_meets_MonitorsTestPortAndRegisterWrites_1 :
    (∃ (s : State) (c k : Nat) (d : Bool),
    (s.psm.mode = .off ∨ s.psm.mode = .hold ∨ s.psm.mode = .safeHalt)) ∧
    (∃ (s : State) (c k : Nat) (d : Bool),
    (componentOk k = false)) ∧
    (∃ (s : State) (c k : Nat) (d : Bool),
    (s.psm.mode = .boot ∨ s.psm.mode = .service ∨ s.psm.mode = .rest ∨ s.psm.mode = .degraded ∨ s.psm.mode = .maintenance) ∧ (componentOk k = true)) ∧
    (∃ (s : State) (l : List Nat),
    (s.psm.mode ≠ .safeHalt ∨ s.psm.halt.safeDrain = false)) :=
  ⟨⟨State.reset, 9, 9, true, by
    repeat' apply And.intro
    all_goals first | decide +kernel | exact decOkEq _ _ (by decide +kernel) | exact readyOf _ _ _ (by decide +kernel)⟩,
   ⟨wHost, 9, 0x1105, true, by
    repeat' apply And.intro
    all_goals first | decide +kernel | exact decOkEq _ _ (by decide +kernel) | exact readyOf _ _ _ (by decide +kernel)⟩,
   ⟨wHost, 9, 0x305, false, by
    repeat' apply And.intro
    all_goals first | decide +kernel | exact decOkEq _ _ (by decide +kernel) | exact readyOf _ _ _ (by decide +kernel)⟩,
   ⟨wHost, [], by
    repeat' apply And.intro
    all_goals first | decide +kernel | exact decOkEq _ _ (by decide +kernel) | exact readyOf _ _ _ (by decide +kernel)⟩⟩

theorem test_meets_MonitorsTestPortAndRegisterWrites_2 :
    (∃ (s : State) (l : List Nat) (ch : Nat),
    (s.psm.mode = .safeHalt) ∧ (s.psm.halt.safeDrain = true)) ∧
    (∃ (s : State) (p c : Nat),
    (s.psm.mode = .off ∨ s.psm.mode = .hold ∨ 2 < p)) ∧
    (∃ (s : State) (p c : Nat),
    (s.psm.mode = .boot ∨ s.psm.mode = .service ∨ s.psm.mode = .rest ∨ s.psm.mode = .degraded ∨ s.psm.mode = .maintenance) ∧ (p ≤ 2)) ∧
    (∃ (s : State) (d khz : Nat),
    (clockNominal d * 97 ≤ khz * 100) ∧ (khz * 100 ≤ clockNominal d * 103)) :=
  ⟨⟨{ wHost with psm := { mode := .safeHalt, halt := { safeDrain := true } } }, [], 0, by
    repeat' apply And.intro
    all_goals first | decide +kernel | exact decOkEq _ _ (by decide +kernel) | exact readyOf _ _ _ (by decide +kernel)⟩,
   ⟨wHost, 3, 1, by
    repeat' apply And.intro
    all_goals first | decide +kernel | exact decOkEq _ _ (by decide +kernel) | exact readyOf _ _ _ (by decide +kernel)⟩,
   ⟨wHost, 2, 1, by
    repeat' apply And.intro
    all_goals first | decide +kernel | exact decOkEq _ _ (by decide +kernel) | exact readyOf _ _ _ (by decide +kernel)⟩,
   ⟨wHost, 1, 1164000, by
    repeat' apply And.intro
    all_goals first | decide +kernel | exact decOkEq _ _ (by decide +kernel) | exact readyOf _ _ _ (by decide +kernel)⟩⟩

theorem test_meets_MonitorsTestPortAndRegisterWrites_3 :
    (∃ (s : State) (d khz : Nat),
    (s.psm.mode = .boot ∨ s.psm.mode = .service ∨ s.psm.mode = .rest ∨ s.psm.mode = .degraded ∨ s.psm.mode = .maintenance) ∧ (clockNominal d ≠ 0) ∧ (khz * 100 < clockNominal d * 97 ∨ clockNominal d * 103 < khz * 100)) ∧
    (∃ (s : State) (d khz : Nat),
    (s.psm.mode = .drain) ∧ (clockNominal d ≠ 0) ∧ (khz * 100 < clockNominal d * 97 ∨ clockNominal d * 103 < khz * 100)) ∧
    (∃ (s : State) (i : Instance) (p : Nat),
    (realInstance i = false ∨ (s.psm.mode.engines = false ∧ s.psm.mode ≠ .drain))) ∧
    (∃ (s : State) (i : Instance) (p : Nat),
    (realInstance i = true) ∧ (s.psm.mode.engines = true) ∧ (∀ g, i ≠ .asu g)) :=
  ⟨⟨wHost, 7, 24249, by
    repeat' apply And.intro
    all_goals first | decide +kernel | exact decOkEq _ _ (by decide +kernel) | exact readyOf _ _ _ (by decide +kernel)⟩,
   ⟨{ wHost with psm := { mode := .drain } }, 1, 1236001, by
    repeat' apply And.intro
    all_goals first | decide +kernel | exact decOkEq _ _ (by decide +kernel) | exact readyOf _ _ _ (by decide +kernel)⟩,
   ⟨wHost, .cpe 8, 1, by
    repeat' apply And.intro
    all_goals first | decide +kernel | exact decOkEq _ _ (by decide +kernel) | exact readyOf _ _ _ (by decide +kernel)⟩,
   ⟨{ wHost with psm := { wHost.psm with halt := { withdrawn := [.cpe 7] } } }, .cpe 7, 1, ⟨by decide +kernel, by decide +kernel, fun _ => nofun⟩⟩⟩

theorem test_meets_MonitorsTestPortAndRegisterWrites_4 :
    (∃ (s : State) (i : Instance) (p : Nat),
    (realInstance i = true) ∧ (s.psm.mode.engines = true) ∧ (∀ g, i ≠ .asu g)) ∧
    (∃ (s : State) (g p : Nat),
    (g < 8) ∧ (s.psm.mode.engines = true)) ∧
    (∃ (s : State) (i j : Instance) (c n : Nat),
    (j ∈ instanceKin i) ∧ (j ≠ i) ∧ (j ∉ s.psm.halt.withdrawn)) ∧
    (∃ (s : State) (i : Instance) (c n : Nat),
    (∀ j ∈ instanceKin i, j = i ∨ j ∈ s.psm.halt.withdrawn) ∧ (s.psm.mode.engines = true)) :=
  ⟨⟨wHost, .cpe 7, 1, ⟨by decide +kernel, by decide +kernel, fun _ => nofun⟩⟩,
   ⟨wHost, 7, 1, by
    repeat' apply And.intro
    all_goals first | decide +kernel | exact decOkEq _ _ (by decide +kernel) | exact readyOf _ _ _ (by decide +kernel)⟩,
   ⟨wHost, .dge 3, .dge 0, 1, 1, by
    repeat' apply And.intro
    all_goals first | decide +kernel | exact decOkEq _ _ (by decide +kernel) | exact readyOf _ _ _ (by decide +kernel)⟩,
   ⟨{ wHost with psm := { wHost.psm with halt := { withdrawn := [.dge 0, .dge 1, .dge 2] } } }, .dge 3, 1, 1, by decide +kernel⟩⟩

theorem test_meets_MonitorsTestPortAndRegisterWrites_5 :
    (∃ (s : State) (l : List Nat),
    (s.psm.mode = .off ∨ (s.psm.mode ≠ .hold ∧ l.length ≠ 8))) ∧
    (∃ (s : State) (k : Nat) (l : List Nat),
    (s.psm.mode = .hold)) ∧
    (∃ (s : State) (l : List Nat),
    (s.psm.mode.live = true) ∧ (l.length = 8) ∧ (l.foldl max 0 < 370)) ∧
    (∃ (s : State) (l : List Nat),
    (s.psm.mode.live = true) ∧ (l.length = 8) ∧ (377 ≤ l.foldl max 0) ∧ (l.foldl max 0 < 388)) :=
  ⟨⟨wHost, [], by
    repeat' apply And.intro
    all_goals first | decide +kernel | exact decOkEq _ _ (by decide +kernel) | exact readyOf _ _ _ (by decide +kernel)⟩,
   ⟨{ wHost with psm := { mode := .hold } }, 300, [], by
    repeat' apply And.intro
    all_goals first | decide +kernel | exact decOkEq _ _ (by decide +kernel) | exact readyOf _ _ _ (by decide +kernel)⟩,
   ⟨wHost, List.replicate 8 369, by
    repeat' apply And.intro
    all_goals first | decide +kernel | exact decOkEq _ _ (by decide +kernel) | exact readyOf _ _ _ (by decide +kernel)⟩,
   ⟨wHost, List.replicate 8 387, by
    repeat' apply And.intro
    all_goals first | decide +kernel | exact decOkEq _ _ (by decide +kernel) | exact readyOf _ _ _ (by decide +kernel)⟩⟩

theorem test_meets_MonitorsTestPortAndRegisterWrites_6 :
    (∃ (s : State) (l : List Nat),
    (s.psm.mode.live = true) ∧ (l.length = 8) ∧ (388 ≤ l.foldl max 0)) ∧
    (∃ (old k : Nat),
    True) ∧
    (∃ (s : State),
    (s.psm.mode ≠ .off)) ∧
    (∃ (s : State),
    (s.psm.mode ≠ .off)) :=
  ⟨⟨wHost, List.replicate 8 388, by
    repeat' apply And.intro
    all_goals first | decide +kernel | exact decOkEq _ _ (by decide +kernel) | exact readyOf _ _ _ (by decide +kernel)⟩,
   ⟨2, 375, by
    repeat' apply And.intro
    all_goals first | decide +kernel | exact decOkEq _ _ (by decide +kernel) | exact readyOf _ _ _ (by decide +kernel)⟩,
   ⟨wHost, by
    repeat' apply And.intro
    all_goals first | decide +kernel | exact decOkEq _ _ (by decide +kernel) | exact readyOf _ _ _ (by decide +kernel)⟩,
   ⟨wHost, by
    repeat' apply And.intro
    all_goals first | decide +kernel | exact decOkEq _ _ (by decide +kernel) | exact readyOf _ _ _ (by decide +kernel)⟩⟩

theorem test_meets_MonitorsTestPortAndRegisterWrites_7 :
    (∃ (s : State),
    (s.psm.mode ≠ .off)) ∧
    (∃ (s : State) (l : List Bool),
    (s.psm.mode ≠ .off)) ∧
    (∃ (s : State),
    (s.psm.mode ≠ .off) ∧ (s.psm.pins.testEn = true)) ∧
    (∃ (s : State),
    (s.psm.mode ≠ .off) ∧ (s.psm.pins.testEn = true)) :=
  ⟨⟨wHost, by
    repeat' apply And.intro
    all_goals first | decide +kernel | exact decOkEq _ _ (by decide +kernel) | exact readyOf _ _ _ (by decide +kernel)⟩,
   ⟨wHost, [true], by
    repeat' apply And.intro
    all_goals first | decide +kernel | exact decOkEq _ _ (by decide +kernel) | exact readyOf _ _ _ (by decide +kernel)⟩,
   ⟨{ wHost with psm := { mode := .boot, pins := { testEn := true } } }, by
    repeat' apply And.intro
    all_goals first | decide +kernel | exact decOkEq _ _ (by decide +kernel) | exact readyOf _ _ _ (by decide +kernel)⟩,
   ⟨{ wHost with psm := { mode := .boot, pins := { testEn := true } } }, by
    repeat' apply And.intro
    all_goals first | decide +kernel | exact decOkEq _ _ (by decide +kernel) | exact readyOf _ _ _ (by decide +kernel)⟩⟩

theorem test_meets_MonitorsTestPortAndRegisterWrites_8 :
    (∃ (s : State),
    (s.psm.mode ≠ .off) ∧ (s.psm.pins.testEn = true)) ∧
    (∃ (s : State),
    (s.psm.mode ≠ .off) ∧ (s.psm.pins.testEn = false)) ∧
    (∃ (s : State),
    (s.psm.mode ≠ .off) ∧ (s.psm.pins.testEn = false)) ∧
    (∃ (s : State),
    (s.psm.mode ≠ .off) ∧ (s.psm.pins.testEn = false)) :=
  ⟨⟨{ wHost with psm := { mode := .boot, pins := { testEn := true } } }, by
    repeat' apply And.intro
    all_goals first | decide +kernel | exact decOkEq _ _ (by decide +kernel) | exact readyOf _ _ _ (by decide +kernel)⟩,
   ⟨wHost, by
    repeat' apply And.intro
    all_goals first | decide +kernel | exact decOkEq _ _ (by decide +kernel) | exact readyOf _ _ _ (by decide +kernel)⟩,
   ⟨wHost, by
    repeat' apply And.intro
    all_goals first | decide +kernel | exact decOkEq _ _ (by decide +kernel) | exact readyOf _ _ _ (by decide +kernel)⟩,
   ⟨wHost, by
    repeat' apply And.intro
    all_goals first | decide +kernel | exact decOkEq _ _ (by decide +kernel) | exact readyOf _ _ _ (by decide +kernel)⟩⟩

theorem test_meets_MonitorsTestPortAndRegisterWrites_9 :
    (∃ (s : State) (l : List Bool),
    (s.psm.mode = .off)) ∧
    (∃ (s : State) (v : BitVec 64) (f : Nat) (off : Nat),
    (s.barOpen f = true) ∧ (off + 8 ≤ 4096)) ∧
    (∃ (s : State) (v : BitVec 64) (f : Nat) (off : Nat),
    (s.barOpen f = true) ∧ (4096 ≤ off)) ∧
    (∃ (s : State) (v : BitVec 64) (f : Nat),
    (s.barOpen f = true)) :=
  ⟨⟨State.reset, [], by
    repeat' apply And.intro
    all_goals first | decide +kernel | exact decOkEq _ _ (by decide +kernel) | exact readyOf _ _ _ (by decide +kernel)⟩,
   ⟨wHost, 0x0102, 0, 4088, by
    repeat' apply And.intro
    all_goals first | decide +kernel | exact decOkEq _ _ (by decide +kernel) | exact readyOf _ _ _ (by decide +kernel)⟩,
   ⟨wHost, 1, 0, 4096, by
    repeat' apply And.intro
    all_goals first | decide +kernel | exact decOkEq _ _ (by decide +kernel) | exact readyOf _ _ _ (by decide +kernel)⟩,
   ⟨wHost, 0xFFF, 0, by
    repeat' apply And.intro
    all_goals first | decide +kernel | exact decOkEq _ _ (by decide +kernel) | exact readyOf _ _ _ (by decide +kernel)⟩⟩

theorem test_meets_MonitorsTestPortAndRegisterWrites_10 :
    (∃ (s : State) (v : BitVec 64) (f : Nat),
    (s.barOpen f = true) ∧ (v.getLsbD 2 = true)) ∧
    (∃ (s : State) (v : BitVec 64) (f : Nat),
    (s.barOpen f = true) ∧ (v.getLsbD 2 = false)) ∧
    (∃ (s : State) (v : BitVec 64) (f o : Nat),
    True) ∧
    (∃ (s : State) (v : BitVec 64) (f o : Nat),
    True) :=
  ⟨⟨wHost, 4, 0, by
    repeat' apply And.intro
    all_goals first | decide +kernel | exact decOkEq _ _ (by decide +kernel) | exact readyOf _ _ _ (by decide +kernel)⟩,
   ⟨wHost, 0xFFFFFFFFFFFFFFFB, 0, by
    repeat' apply And.intro
    all_goals first | decide +kernel | exact decOkEq _ _ (by decide +kernel) | exact readyOf _ _ _ (by decide +kernel)⟩,
   ⟨wHost, 5, 0, 0, by
    repeat' apply And.intro
    all_goals first | decide +kernel | exact decOkEq _ _ (by decide +kernel) | exact readyOf _ _ _ (by decide +kernel)⟩,
   ⟨wHost, 5, 0, 0, by
    repeat' apply And.intro
    all_goals first | decide +kernel | exact decOkEq _ _ (by decide +kernel) | exact readyOf _ _ _ (by decide +kernel)⟩⟩

theorem test_meets_MonitorsTestPortAndRegisterWrites_11 :
    (∃ (s : State) (v : BitVec 64) (f o : Nat),
    True) ∧
    (∃ (s : State) (v : BitVec 64) (f : Nat),
    True) ∧
    (∃ (s : State) (v : BitVec 64) (f : Nat),
    True) ∧
    (∃ (s : State) (v : BitVec 64) (f : Nat),
    True) :=
  ⟨⟨wHost, 5, 0, 0, by
    repeat' apply And.intro
    all_goals first | decide +kernel | exact decOkEq _ _ (by decide +kernel) | exact readyOf _ _ _ (by decide +kernel)⟩,
   ⟨wHost, 5, 0, by
    repeat' apply And.intro
    all_goals first | decide +kernel | exact decOkEq _ _ (by decide +kernel) | exact readyOf _ _ _ (by decide +kernel)⟩,
   ⟨wHost, 5, 0, by
    repeat' apply And.intro
    all_goals first | decide +kernel | exact decOkEq _ _ (by decide +kernel) | exact readyOf _ _ _ (by decide +kernel)⟩,
   ⟨wHost, 5, 0, by
    repeat' apply And.intro
    all_goals first | decide +kernel | exact decOkEq _ _ (by decide +kernel) | exact readyOf _ _ _ (by decide +kernel)⟩⟩

theorem test_meets_MonitorsTestPortAndRegisterWrites_12 :
    (∃ (s : State) (v : BitVec 64) (f : Nat),
    True) ∧
    (∃ (s : State) (v : BitVec 64) (f : Nat),
    True) ∧
    (∃ (s : State) (v : BitVec 64) (f : Nat),
    True) ∧
    (∃ (s : State) (v : BitVec 64) (f o : Nat),
    True) :=
  ⟨⟨wHost, 5, 255, by
    repeat' apply And.intro
    all_goals first | decide +kernel | exact decOkEq _ _ (by decide +kernel) | exact readyOf _ _ _ (by decide +kernel)⟩,
   ⟨wHost, 5, 90, by
    repeat' apply And.intro
    all_goals first | decide +kernel | exact decOkEq _ _ (by decide +kernel) | exact readyOf _ _ _ (by decide +kernel)⟩,
   ⟨wHost, 5, 1023, by
    repeat' apply And.intro
    all_goals first | decide +kernel | exact decOkEq _ _ (by decide +kernel) | exact readyOf _ _ _ (by decide +kernel)⟩,
   ⟨wHost, 5, 0, 7, by
    repeat' apply And.intro
    all_goals first | decide +kernel | exact decOkEq _ _ (by decide +kernel) | exact readyOf _ _ _ (by decide +kernel)⟩⟩

theorem test_meets_MonitorsTestPortAndRegisterWrites_13 :
    (∃ (s : State) (v : BitVec 64) (f : Nat),
    (s.barOpen f = false)) ∧
    (∃ (s : State) (v : BitVec 64) (f : Nat),
    (s.barOpen f = true)) ∧
    (∃ (s : State) (v : BitVec 64) (f : Nat),
    (s.barOpen f = true)) ∧
    (∃ (s : State) (v : BitVec 64) (f : Nat),
    (s.barOpen f = true)) :=
  ⟨⟨{ wHost with hif := { wHost.hif with link := [] } }, 4, 0, by
    repeat' apply And.intro
    all_goals first | decide +kernel | exact decOkEq _ _ (by decide +kernel) | exact readyOf _ _ _ (by decide +kernel)⟩,
   ⟨wHost, 0xFFFFFFFF, 0, by
    repeat' apply And.intro
    all_goals first | decide +kernel | exact decOkEq _ _ (by decide +kernel) | exact readyOf _ _ _ (by decide +kernel)⟩,
   ⟨wHost, 0xFFF1FFF, 0, by
    repeat' apply And.intro
    all_goals first | decide +kernel | exact decOkEq _ _ (by decide +kernel) | exact readyOf _ _ _ (by decide +kernel)⟩,
   ⟨wHost, 0xFFF1FFF, 0, by
    repeat' apply And.intro
    all_goals first | decide +kernel | exact decOkEq _ _ (by decide +kernel) | exact readyOf _ _ _ (by decide +kernel)⟩⟩

theorem test_meets_MonitorsTestPortAndRegisterWrites_14 :
    (∃ (s : State) (v : BitVec 64) (f : Nat),
    (s.cfgOpen f = true)) ∧
    (∃ (s : State) (v : BitVec 64) (f : Nat),
    (s.cfgOpen f = true) ∧ (v.toNat % 4 = 3)) ∧
    (∃ (s : State) (v : BitVec 64) (f : Nat),
    (s.cfgOpen f = true) ∧ (v.toNat % 4 = 0)) ∧
    (∃ (s : State) (v : BitVec 64) (f : Nat),
    (s.cfgOpen f = true)) :=
  ⟨⟨wHost, 0x5020, 0, by
    repeat' apply And.intro
    all_goals first | decide +kernel | exact decOkEq _ _ (by decide +kernel) | exact readyOf _ _ _ (by decide +kernel)⟩,
   ⟨wHost, 3, 0, by
    repeat' apply And.intro
    all_goals first | decide +kernel | exact decOkEq _ _ (by decide +kernel) | exact readyOf _ _ _ (by decide +kernel)⟩,
   ⟨wHost, 4, 0, by
    repeat' apply And.intro
    all_goals first | decide +kernel | exact decOkEq _ _ (by decide +kernel) | exact readyOf _ _ _ (by decide +kernel)⟩,
   ⟨wHost, 3, 0, by
    repeat' apply And.intro
    all_goals first | decide +kernel | exact decOkEq _ _ (by decide +kernel) | exact readyOf _ _ _ (by decide +kernel)⟩⟩

theorem test_meets_MonitorsTestPortAndRegisterWrites_15 :
    (∃ (s : State) (v : BitVec 64) (f d : Nat),
    True) ∧
    (∃ (s : State) (v : BitVec 64) (ch : Nat),
    (ch < 256) ∧ (s.psm.mode.live = true)) ∧
    (∃ (s : State) (v : BitVec 64) (ch : Nat),
    (256 ≤ ch ∨ s.psm.mode.live = false)) ∧
    (∃ (s : State) (v : BitVec 64) (i r : Nat),
    (s.psm.mode.live = true) ∧ (i ≤ 90) ∧ (r < auCount i) ∧ ((s.au i).reqs.length = auCount i)) :=
  ⟨⟨wHost, 3, 0, 0, by
    repeat' apply And.intro
    all_goals first | decide +kernel | exact decOkEq _ _ (by decide +kernel) | exact readyOf _ _ _ (by decide +kernel)⟩,
   ⟨wHost, 4098, 255, by
    repeat' apply And.intro
    all_goals first | decide +kernel | exact decOkEq _ _ (by decide +kernel) | exact readyOf _ _ _ (by decide +kernel)⟩,
   ⟨wHost, 4098, 256, by
    repeat' apply And.intro
    all_goals first | decide +kernel | exact decOkEq _ _ (by decide +kernel) | exact readyOf _ _ _ (by decide +kernel)⟩,
   ⟨wHost, 0xFFF3, 90, 5, by
    repeat' apply And.intro
    all_goals first | decide +kernel | exact decOkEq _ _ (by decide +kernel) | exact readyOf _ _ _ (by decide +kernel)⟩⟩

theorem test_meets_MonitorsTestPortAndRegisterWrites_16 :
    (∃ (s : State) (v : BitVec 64) (c i : Nat),
    (c < 1024) ∧ (i ≤ 7) ∧ ((s.ctx c).state = .opened) ∧ (s.dgeServes = true)) ∧
    (∃ (s : State) (v : BitVec 64) (c i : Nat),
    ((s.ctx c).state ≠ .opened)) ∧
    (∃ (s : State) (v : BitVec 64) (p i : Nat),
    (p < 4) ∧ (s.psm.mode ≠ .off) ∧ (s.psm.mode ≠ .hold) ∧ (p ≠ 0 ∨ s.cpe.page0Closed = false) ∧ (i ≤ 7)) ∧
    (∃ (s : State) (v : BitVec 64) (p i k : Nat),
    (p < 4) ∧ (s.psm.mode ≠ .off) ∧ (s.psm.mode ≠ .hold) ∧ (k ≠ p)) :=
  ⟨⟨wDge {}, 5, 7, 7, by
    repeat' apply And.intro
    all_goals first | decide +kernel | exact decOkEq _ _ (by decide +kernel) | exact readyOf _ _ _ (by decide +kernel)⟩,
   ⟨wHost, 5, 7, 7, by
    repeat' apply And.intro
    all_goals first | decide +kernel | exact decOkEq _ _ (by decide +kernel) | exact readyOf _ _ _ (by decide +kernel)⟩,
   ⟨wHost, 5, 3, 7, by
    repeat' apply And.intro
    all_goals first | decide +kernel | exact decOkEq _ _ (by decide +kernel) | exact readyOf _ _ _ (by decide +kernel)⟩,
   ⟨wHost, 5, 3, 7, 0, by
    repeat' apply And.intro
    all_goals first | decide +kernel | exact decOkEq _ _ (by decide +kernel) | exact readyOf _ _ _ (by decide +kernel)⟩⟩

theorem test_meets_MonitorsTestPortAndRegisterWrites_17 :
    (∃ (s : State) (v : BitVec 64) (p k : Nat),
    (p < 4) ∧ (s.psm.mode ≠ .off) ∧ (s.psm.mode ≠ .hold) ∧ (k ≠ p)) ∧
    (∃ (s : State) (v : BitVec 64) (p i k : Nat),
    (p < 4) ∧ (s.psm.mode ≠ .off) ∧ (s.psm.mode ≠ .hold) ∧ (k ≠ p)) ∧
    (∃ (s : State) (v : BitVec 64) (f i d : Nat),
    (s.barOpen f = true) ∧ (i < s.msixCount f) ∧ (d ≤ 2)) ∧
    (∃ (s : State) (v : BitVec 64) (f i d : Nat),
    (s.barOpen f = true) ∧ (s.msixCount f ≤ i ∨ 3 < d)) :=
  ⟨⟨wHost, 5, 3, 0, by
    repeat' apply And.intro
    all_goals first | decide +kernel | exact decOkEq _ _ (by decide +kernel) | exact readyOf _ _ _ (by decide +kernel)⟩,
   ⟨wHost, 5, 3, 7, 0, by
    repeat' apply And.intro
    all_goals first | decide +kernel | exact decOkEq _ _ (by decide +kernel) | exact readyOf _ _ _ (by decide +kernel)⟩,
   ⟨wHost, 5, 0, 0, 2, by
    repeat' apply And.intro
    all_goals first | decide +kernel | exact decOkEq _ _ (by decide +kernel) | exact readyOf _ _ _ (by decide +kernel)⟩,
   ⟨wHost, 5, 0, 0, 4, by
    repeat' apply And.intro
    all_goals first | decide +kernel | exact decOkEq _ _ (by decide +kernel) | exact readyOf _ _ _ (by decide +kernel)⟩⟩

theorem test_meets_MonitorsTestPortAndRegisterWrites_18 :
    (∃ (s : State) (f o : Nat),
    True) ∧
    (∃ (s : State) (f o : Nat),
    (o + 8 ≤ 16)) ∧
    (∃ (s : State) (f o : Nat),
    (16 ≤ o) ∧ (o + 8 ≤ 4096)) ∧
    (∃ (s : State) (f o : Nat),
    (o + 8 ≤ 4096)) :=
  ⟨⟨wHost, 0, 0, by
    repeat' apply And.intro
    all_goals first | decide +kernel | exact decOkEq _ _ (by decide +kernel) | exact readyOf _ _ _ (by decide +kernel)⟩,
   ⟨wHost, 0, 8, by
    repeat' apply And.intro
    all_goals first | decide +kernel | exact decOkEq _ _ (by decide +kernel) | exact readyOf _ _ _ (by decide +kernel)⟩,
   ⟨wHost, 0, 4088, by
    repeat' apply And.intro
    all_goals first | decide +kernel | exact decOkEq _ _ (by decide +kernel) | exact readyOf _ _ _ (by decide +kernel)⟩,
   ⟨wHost, 0, 4088, by
    repeat' apply And.intro
    all_goals first | decide +kernel | exact decOkEq _ _ (by decide +kernel) | exact readyOf _ _ _ (by decide +kernel)⟩⟩

theorem test_meets_MonitorsTestPortAndRegisterWrites_19 :
    (∃ (s : State) (f o : Nat),
    (o ≤ 7)) ∧
    (∃ (s : State) (f : Nat),
    True) ∧
    (∃ (s : State) (f : Nat),
    True) ∧
    (∃ (s : State) (v : BitVec 64) (f : Nat),
    (s.barOpen f = true)) :=
  ⟨⟨wHost, 0, 7, by
    repeat' apply And.intro
    all_goals first | decide +kernel | exact decOkEq _ _ (by decide +kernel) | exact readyOf _ _ _ (by decide +kernel)⟩,
   ⟨wHost, 2, by
    repeat' apply And.intro
    all_goals first | decide +kernel | exact decOkEq _ _ (by decide +kernel) | exact readyOf _ _ _ (by decide +kernel)⟩,
   ⟨wHost, 2, by
    repeat' apply And.intro
    all_goals first | decide +kernel | exact decOkEq _ _ (by decide +kernel) | exact readyOf _ _ _ (by decide +kernel)⟩,
   ⟨wHost, 0xFFFF, 0, by
    repeat' apply And.intro
    all_goals first | decide +kernel | exact decOkEq _ _ (by decide +kernel) | exact readyOf _ _ _ (by decide +kernel)⟩⟩

theorem test_meets_MonitorsTestPortAndRegisterWrites_20 :
    (∃ (s : State) (v : BitVec 64) (c : Nat),
    (c < 256) ∧ (s.psm.mode.live = true)) ∧
    (∃ (s : State) (v : BitVec 64) (i r : Nat),
    (s.psm.mode.live = true) ∧ (i ≤ 90) ∧ (r < auCount i) ∧ ((s.au i).reqs.length = auCount i)) ∧
    (∃ (s : State) (p k o : Nat),
    (4 ≤ p ∨ k ≠ p ∨ (p = 0 ∧ s.cpe.page0Closed = true))) ∧
    (∃ (s : State) (p o : Nat),
    (p < 4) ∧ (p ≠ 0 ∨ s.cpe.page0Closed = false) ∧ (o ≤ 7)) :=
  ⟨⟨wHost, 4099, 255, by
    repeat' apply And.intro
    all_goals first | decide +kernel | exact decOkEq _ _ (by decide +kernel) | exact readyOf _ _ _ (by decide +kernel)⟩,
   ⟨wHost, 0xFFFF, 90, 5, by
    repeat' apply And.intro
    all_goals first | decide +kernel | exact decOkEq _ _ (by decide +kernel) | exact readyOf _ _ _ (by decide +kernel)⟩,
   ⟨wHost, 3, 0, 0, by
    repeat' apply And.intro
    all_goals first | decide +kernel | exact decOkEq _ _ (by decide +kernel) | exact readyOf _ _ _ (by decide +kernel)⟩,
   ⟨wHost, 3, 7, by
    repeat' apply And.intro
    all_goals first | decide +kernel | exact decOkEq _ _ (by decide +kernel) | exact readyOf _ _ _ (by decide +kernel)⟩⟩

theorem test_meets_MonitorsTestPortAndRegisterWrites_21 :
    (∃ (i : Nat) (f o : Nat),
    True) ∧
    (∃ (r c : Nat),
    (1 ≤ r) ∧ (r ≤ 34) ∧ (1 ≤ c) ∧ (c ≤ 34)) ∧
    (∃ (x : Signal) (n : Nat),
    ((x, n) ∈ [(Signal.vss, 324), (Signal.vddCore, 64), (Signal.vddSram, 16), (Signal.vddSerdes, 34), (Signal.vddFio, 32), (Signal.vddDio, 24), (Signal.vddAonMain, 2), (Signal.vddAonBkup, 2)])) ∧
    (∃ (x8 : Bool) (i k : Nat),
    (i < 5) ∧ (k < 4)) :=
  ⟨⟨0, 0, 0, by
    repeat' apply And.intro
    all_goals first | decide +kernel | exact decOkEq _ _ (by decide +kernel) | exact readyOf _ _ _ (by decide +kernel)⟩,
   ⟨34, 34, by
    repeat' apply And.intro
    all_goals first | decide +kernel | exact decOkEq _ _ (by decide +kernel) | exact readyOf _ _ _ (by decide +kernel)⟩,
   ⟨.vss, 324, by
    repeat' apply And.intro
    all_goals first | decide +kernel | exact decOkEq _ _ (by decide +kernel) | exact readyOf _ _ _ (by decide +kernel)⟩,
   ⟨true, 4, 3, by
    repeat' apply And.intro
    all_goals first | decide +kernel | exact decOkEq _ _ (by decide +kernel) | exact readyOf _ _ _ (by decide +kernel)⟩⟩

theorem test_meets_MonitorsTestPortAndRegisterWrites_22 :
    (∃ (r c s h g : Nat),
    (8 ≤ r) ∧ (r ≤ 17) ∧ (1 ≤ c) ∧ (c ≤ 3) ∧ (s < 2) ∧ (h < 2) ∧ (g < 4)) ∧
    (∃ (r c : Nat),
    (28 ≤ r) ∧ (r ≤ 34) ∧ (1 ≤ c) ∧ (c ≤ 17)) ∧
    (∃ (s : State) (c : Nat),
    (s.psm.mode = .off ∨ s.psm.mode = .hold)) ∧
    (∃ (s : State) (c : Nat),
    (s.psm.mode ≠ .off) ∧ (s.psm.mode ≠ .hold)) :=
  ⟨⟨17, 3, 1, 1, 3, by
    repeat' apply And.intro
    all_goals first | decide +kernel | exact decOkEq _ _ (by decide +kernel) | exact readyOf _ _ _ (by decide +kernel)⟩,
   ⟨28, 1, by
    repeat' apply And.intro
    all_goals first | decide +kernel | exact decOkEq _ _ (by decide +kernel) | exact readyOf _ _ _ (by decide +kernel)⟩,
   ⟨State.reset, 15, by
    repeat' apply And.intro
    all_goals first | decide +kernel | exact decOkEq _ _ (by decide +kernel) | exact readyOf _ _ _ (by decide +kernel)⟩,
   ⟨wHost, 15, by
    repeat' apply And.intro
    all_goals first | decide +kernel | exact decOkEq _ _ (by decide +kernel) | exact readyOf _ _ _ (by decide +kernel)⟩⟩

theorem test_meets_MonitorsTestPortAndRegisterWrites_23 :
    (∃ (s : State),
    True) :=
  ⟨wHost, by
    repeat' apply And.intro
    all_goals first | decide +kernel | exact decOkEq _ _ (by decide +kernel) | exact readyOf _ _ _ (by decide +kernel)⟩

theorem test_meets_PairKeepsItsCopiesAndSurvivesLoss_1 :
    (∃ (s : State) (fr : Frame),
    (s.pairUpOut = false ∨ fr.crcOk = false)) ∧
    (∃ (s : State) (fr : Frame),
    (s.pairUpOut = true) ∧ (s.swl.state.linked = true ∨ s.swl.state = .isolated) ∧ (fr.crcOk = true) ∧ (fr.tagOk = false)) ∧
    (∃ (s : State) (fr : Frame),
    (s.pairUpOut = true) ∧ (s.swl.state.linked = true ∨ s.swl.state = .isolated) ∧ (fr.crcOk = true) ∧ (fr.tagOk = true) ∧ (fr.seq ≠ s.swl.link.rxSeq)) ∧
    (∃ (s : State) (fr : Frame),
    (s.pairUpOut = true) ∧ (s.swl.state.linked = true ∨ s.swl.state = .isolated) ∧ (fr.crcOk = true) ∧ (fr.tagOk = true) ∧ (fr.seq = s.swl.link.rxSeq)) :=
  ⟨⟨wHost, wFr, by
    repeat' apply And.intro
    all_goals first | decide +kernel | exact decOkEq _ _ (by decide +kernel) | exact readyOf _ _ _ (by decide +kernel)⟩,
   ⟨wPair .paired, { wFr with tagOk := false }, by
    repeat' apply And.intro
    all_goals first | decide +kernel | exact decOkEq _ _ (by decide +kernel) | exact readyOf _ _ _ (by decide +kernel)⟩,
   ⟨wPair .paired, { wFr with seq := 1 }, by
    repeat' apply And.intro
    all_goals first | decide +kernel | exact decOkEq _ _ (by decide +kernel) | exact readyOf _ _ _ (by decide +kernel)⟩,
   ⟨wPair .paired, wFr, by
    repeat' apply And.intro
    all_goals first | decide +kernel | exact decOkEq _ _ (by decide +kernel) | exact readyOf _ _ _ (by decide +kernel)⟩⟩

theorem test_meets_PairKeepsItsCopiesAndSurvivesLoss_2 :
    (∃ (l : SwlLink) (fr : Frame) (x : TxFrame),
    (x.keyNo = fr.keyNo)) ∧
    (∃ (s : State) (fr : Frame) (t : State),
    (s.frameIn fr = (t, false))) ∧
    (∃ (s : State) (fr : Frame) (t : State),
    (s.frameIn fr = (t, true)) ∧ (t.swl.state = .isolated)) ∧
    (∃ (s : State) (fr : Frame) (t : State) (c : Nat) (e : Sqe),
    (s.frameIn fr = (t, false))) :=
  ⟨⟨{ unacked := [{ kind := 2, keyNo := 0, seq := 1 }] }, wFr, { kind := 2, keyNo := 0, seq := 1 }, by
    repeat' apply And.intro
    all_goals first | decide +kernel | exact decOkEq _ _ (by decide +kernel) | exact readyOf _ _ _ (by decide +kernel)⟩,
   ⟨wPair .paired, { wFr with seq := 1 }, wPair .paired, by
    repeat' apply And.intro
    all_goals first | decide +kernel | exact decOkEq _ _ (by decide +kernel) | exact readyOf _ _ _ (by decide +kernel)⟩,
   ⟨wPair .isolated, wFr, ((wPair .isolated).frameIn (wFr)).1, by
    repeat' apply And.intro
    all_goals first | decide +kernel | exact decOkEq _ _ (by decide +kernel) | exact readyOf _ _ _ (by decide +kernel)⟩,
   ⟨wPair .paired, { wFr with seq := 1 }, wPair .paired, 5, { admin := false, opcode := 2, cid := 1, nsid := 1 }, by
    repeat' apply And.intro
    all_goals first | decide +kernel | exact decOkEq _ _ (by decide +kernel) | exact readyOf _ _ _ (by decide +kernel)⟩⟩

theorem test_meets_PairKeepsItsCopiesAndSurvivesLoss_3 :
    (∃ (s : State) (fr : Frame) (t : State) (c : Nat) (e : Sqe),
    (s.frameIn fr = (t, true)) ∧ (t.swl.state = .isolated)) ∧
    (∃ (s : State) (fr : Frame) (t : State) (st : Status) (d0 d1 : BitVec 32) (c : Nat),
    (s.frameIn fr = (t, false))) ∧
    (∃ (s : State) (fr : Frame) (t : State) (st : Status) (d0 d1 : BitVec 32) (c : Nat),
    (s.frameIn fr = (t, true)) ∧ (t.swl.state = .isolated)) ∧
    (∃ (s : State) (fr : Frame) (t : State) (h : HeartbeatBody),
    (s.frameIn fr = (t, false))) :=
  ⟨⟨wPair .isolated, wFr, ((wPair .isolated).frameIn (wFr)).1, 5, { admin := false, opcode := 2, cid := 1, nsid := 1 }, by
    repeat' apply And.intro
    all_goals first | decide +kernel | exact decOkEq _ _ (by decide +kernel) | exact readyOf _ _ _ (by decide +kernel)⟩,
   ⟨wPair .paired, { wFr with seq := 1 }, wPair .paired, .success, 0, 0, 5, by
    repeat' apply And.intro
    all_goals first | decide +kernel | exact decOkEq _ _ (by decide +kernel) | exact readyOf _ _ _ (by decide +kernel)⟩,
   ⟨wPair .isolated, wFr, ((wPair .isolated).frameIn (wFr)).1, .success, 0, 0, 5, by
    repeat' apply And.intro
    all_goals first | decide +kernel | exact decOkEq _ _ (by decide +kernel) | exact readyOf _ _ _ (by decide +kernel)⟩,
   ⟨wPair .paired, { wFr with seq := 1 }, wPair .paired, { mode := 3, holdupVolatile := false, state := 2, fp := none }, by
    repeat' apply And.intro
    all_goals first | decide +kernel | exact decOkEq _ _ (by decide +kernel) | exact readyOf _ _ _ (by decide +kernel)⟩⟩

theorem test_meets_PairKeepsItsCopiesAndSurvivesLoss_4 :
    (∃ (s : State) (fr : Frame) (t : State) (h : HeartbeatBody),
    (s.frameIn fr = (t, true)) ∧ (t.swl.state = .isolated)) ∧
    (∃ (s : State) (fr : Frame) (t : State) (n : Bytes),
    (s.frameIn fr = (t, false))) ∧
    (∃ (s : State) (fr : Frame) (t : State) (n : Bytes),
    (s.frameIn fr = (t, true)) ∧ (t.swl.state = .isolated)) ∧
    (∃ (s : State) (fr : Frame) (t : State),
    (s.frameIn fr = (t, false))) :=
  ⟨⟨wPair .isolated, wFr, ((wPair .isolated).frameIn (wFr)).1, { mode := 3, holdupVolatile := false, state := 2, fp := none }, by
    repeat' apply And.intro
    all_goals first | decide +kernel | exact decOkEq _ _ (by decide +kernel) | exact readyOf _ _ _ (by decide +kernel)⟩,
   ⟨wPair .paired, { wFr with seq := 1 }, wPair .paired, [], by
    repeat' apply And.intro
    all_goals first | decide +kernel | exact decOkEq _ _ (by decide +kernel) | exact readyOf _ _ _ (by decide +kernel)⟩,
   ⟨wPair .isolated, wFr, ((wPair .isolated).frameIn (wFr)).1, [], by
    repeat' apply And.intro
    all_goals first | decide +kernel | exact decOkEq _ _ (by decide +kernel) | exact readyOf _ _ _ (by decide +kernel)⟩,
   ⟨wPair .paired, { wFr with seq := 1 }, wPair .paired, by
    repeat' apply And.intro
    all_goals first | decide +kernel | exact decOkEq _ _ (by decide +kernel) | exact readyOf _ _ _ (by decide +kernel)⟩⟩

theorem test_meets_PairKeepsItsCopiesAndSurvivesLoss_5 :
    (∃ (s : State) (fr : Frame) (u : UnitBody) (t : State),
    (u.cid ≠ none ∨ fr.payload = [] ∨ u.tagGood = false ∨ s.freeSlot ≠ none) ∧ (s.frameIn fr = (t, false))) ∧
    (∃ (s : State) (fr : Frame) (u : UnitBody) (t : State),
    (u.cid ≠ none ∨ fr.payload = [] ∨ u.tagGood = false ∨ s.freeSlot ≠ none) ∧ (s.frameIn fr = (t, true)) ∧ (t.swl.state = .isolated)) ∧
    (∃ (s : State) (fr : Frame) (u : UnitBody) (t : State) (i : Nat) (c : Cmd),
    (s.frameIn fr = (t, true)) ∧ (t.swl.state ≠ .isolated) ∧ (u.tagGood = true) ∧ (u.cid = some i) ∧ (t.cmd i = some c) ∧ (c.forwarded = true) ∧ (c.result = none)) ∧
    (∃ (s : State) (fr : Frame) (u : UnitBody) (t : State),
    (s.frameIn fr = (t, true)) ∧ (t.swl.state ≠ .isolated) ∧ (u.tagGood = false) ∧ (u.cid = none) ∧ (s.psm.halt.detections = [])) :=
  ⟨⟨wPair .paired, { wFr with seq := 1 }, {}, wPair .paired, by
    repeat' apply And.intro
    all_goals first | decide +kernel | exact decOkEq _ _ (by decide +kernel) | exact readyOf _ _ _ (by decide +kernel)⟩,
   ⟨wPair .isolated, wFr, {}, ((wPair .isolated).frameIn (wFr)).1, by
    repeat' apply And.intro
    all_goals first | decide +kernel | exact decOkEq _ _ (by decide +kernel) | exact readyOf _ _ _ (by decide +kernel)⟩,
   ⟨wPair .paired ((wAt (wSqe false 2)).updCmd 5 (fun c => { c with forwarded := true })), wFr, { cid := some 5 }, ((wPair .paired ((wAt (wSqe false 2)).updCmd 5 (fun c => { c with forwarded := true }))).frameIn (wFr)).1, 5, { wCmd (wSqe false 2) with forwarded := true }, by
    repeat' apply And.intro
    all_goals first | decide +kernel | exact decOkEq _ _ (by decide +kernel) | exact readyOf _ _ _ (by decide +kernel)⟩,
   ⟨wPair .paired, wFr, { tagGood := false }, ((wPair .paired).frameIn (wFr)).1, by
    repeat' apply And.intro
    all_goals first | decide +kernel | exact decOkEq _ _ (by decide +kernel) | exact readyOf _ _ _ (by decide +kernel)⟩⟩

theorem test_meets_PairKeepsItsCopiesAndSurvivesLoss_6 :
    (∃ (s : State) (fr : Frame) (u : UnitBody) (t : State),
    (s.frameIn fr = (t, true)) ∧ (t.swl.state ≠ .isolated) ∧ (u.tagGood = true) ∧ (u.cid = none) ∧ (fr.payload ≠ []) ∧ (s.freeSlot ≠ none) ∧ (u.first = fr.unitNo) ∧ (u.last = fr.unitNo) ∧ (t.swl.heldUnits = []) ∧ (t.swl.link.txSeq < 2 ^ 32 - 1) ∧ (Mem.get none t.swl.placed (unitKey fr.nsid fr.unitNo) = none) ∧ (isChunkKey (unitKey fr.nsid fr.unitNo) = false) ∧ ((t.entry (unitKey fr.nsid fr.unitNo)).state = .unmapped) ∧ (t.psm.fence = true)) ∧
    (∃ (s : State) (fr : Frame) (t : State),
    (s.frameIn fr = (t, true)) ∧ (t.swl.state ≠ .isolated) ∧ (t.swl.copying = [])) ∧
    (∃ (s : State) (fr : Frame) (t : State) (g : Nat),
    (s.frameIn fr = (t, true)) ∧ (t.swl.state ≠ .isolated) ∧ (t.swl.copying = [(fr.asn, fr.nsid, g, [fr.unitNo])]) ∧ (∃ x ∈ t.swl.resyncLeft, x ≠ (fr.nsid, g))) ∧
    (∃ (s : State) (fr : Frame) (t : State) (c : Nat) (e : Sqe) (f : Nat),
    (s.frameIn fr = (t, true)) ∧ (t.swl.state ≠ .isolated) ∧ ((t.ns (sqeNsid e)).bind (·.attached) = some f)) :=
  ⟨⟨(let s := wPair .paired; { s with psm := { s.psm with fence := true } }), wFr, { first := 5, last := 5 }, ((let s := wPair .paired; { s with psm := { s.psm with fence := true } }).frameIn (wFr)).1, by
    repeat' apply And.intro
    all_goals first | decide +kernel | exact decOkEq _ _ (by decide +kernel) | exact readyOf _ _ _ (by decide +kernel)⟩,
   ⟨wPair .paired, wFr, ((wPair .paired).frameIn (wFr)).1, by
    repeat' apply And.intro
    all_goals first | decide +kernel | exact decOkEq _ _ (by decide +kernel) | exact readyOf _ _ _ (by decide +kernel)⟩,
   ⟨(let s := wPair .resync; { s with swl := { s.swl with copying := [(3, 1, 0, [5])], resyncLeft := [(1, 0), (1, 1)], dirty := [(1, 0)] } }), wFr, (((let s := wPair .resync; { s with swl := { s.swl with copying := [(3, 1, 0, [5])], resyncLeft := [(1, 0), (1, 1)], dirty := [(1, 0)] } })).frameIn (wFr)).1, 0, ⟨by decide +kernel, by decide +kernel, by decide +kernel, (1, 1), by decide +kernel, by decide +kernel⟩⟩,
   ⟨wPair .paired, wFr, ((wPair .paired).frameIn (wFr)).1, 5, wSqe false 2, 0, by
    repeat' apply And.intro
    all_goals first | decide +kernel | exact decOkEq _ _ (by decide +kernel) | exact readyOf _ _ _ (by decide +kernel)⟩⟩

theorem test_meets_PairKeepsItsCopiesAndSurvivesLoss_7 :
    (∃ (s : State) (fr : Frame) (t : State) (c : Nat) (e : Sqe),
    (s.frameIn fr = (t, true)) ∧ (t.swl.state ≠ .isolated) ∧ ((t.ns (sqeNsid e)).bind (·.attached) = none)) ∧
    (∃ (s : State) (fr : Frame) (t : State) (st : Status) (d0 d1 : BitVec 32) (c : Nat),
    (s.frameIn fr = (t, true)) ∧ (t.swl.state ≠ .isolated) ∧ (t.cmd c = none)) ∧
    (∃ (s : State) (fr : Frame) (t : State) (st : Status) (d0 d1 : BitVec 32) (c : Nat) (x : Cmd),
    (s.frameIn fr = (t, true)) ∧ (t.swl.state ≠ .isolated) ∧ (t.cmd c = some x) ∧ (x.forwarded = true)) ∧
    (∃ (s : State) (fr : Frame) (t : State) (st : Status) (d0 d1 : BitVec 32) (c : Nat) (x : Cmd) (n : Nat),
    (s.frameIn fr = (t, true)) ∧ (t.swl.state ≠ .isolated) ∧ (t.cmd c = some x) ∧ (x.forwarded = false) ∧ (x.partnerFlush = some n)) :=
  ⟨⟨wPair .paired, wFr, ((wPair .paired).frameIn (wFr)).1, 5, { wSqe false 2 with nsid := 9 }, by
    repeat' apply And.intro
    all_goals first | decide +kernel | exact decOkEq _ _ (by decide +kernel) | exact readyOf _ _ _ (by decide +kernel)⟩,
   ⟨wPair .paired, wFr, ((wPair .paired).frameIn (wFr)).1, .success, 0, 0, 5, by
    repeat' apply And.intro
    all_goals first | decide +kernel | exact decOkEq _ _ (by decide +kernel) | exact readyOf _ _ _ (by decide +kernel)⟩,
   ⟨wPair .paired ((wAt (wSqe false 2)).updCmd 5 (fun c => { c with forwarded := true })), wFr, ((wPair .paired ((wAt (wSqe false 2)).updCmd 5 (fun c => { c with forwarded := true }))).frameIn (wFr)).1, .invalidField, 1, 2, 5, { wCmd (wSqe false 2) with forwarded := true }, by
    repeat' apply And.intro
    all_goals first | decide +kernel | exact decOkEq _ _ (by decide +kernel) | exact readyOf _ _ _ (by decide +kernel)⟩,
   ⟨wPair .paired ((wAt (wSqe false 0)).updCmd 5 (fun c => { c with partnerFlush := some 2 })), wFr, ((wPair .paired ((wAt (wSqe false 0)).updCmd 5 (fun c => { c with partnerFlush := some 2 }))).frameIn (wFr)).1, .success, 0, 0, 5, { wCmd (wSqe false 0) with partnerFlush := some 2 }, 2, by
    repeat' apply And.intro
    all_goals first | decide +kernel | exact decOkEq _ _ (by decide +kernel) | exact readyOf _ _ _ (by decide +kernel)⟩⟩

theorem test_meets_PairKeepsItsCopiesAndSurvivesLoss_8 :
    (∃ (s : State) (fr : Frame) (t : State) (h : HeartbeatBody),
    (s.frameIn fr = (t, true)) ∧ (t.swl.state ≠ .isolated) ∧ (h.fp = none) ∧ (t.swl.state = .paired) ∧ ((t.fn 0).present = true)) ∧
    (∃ (s : State) (fr : Frame) (t : State) (h : HeartbeatBody) (x : BitVec 64),
    (s.frameIn fr = (t, true)) ∧ (t.swl.state ≠ .isolated) ∧ (h.fp = some x) ∧ (t.swl.state = .paired) ∧ (x ≠ t.configFp)) ∧
    (∃ (s : State),
    (s.pairUpOut = false ∨ s.swl.state.linked = false)) ∧
    (∃ (s : State) (ms : Nat),
    (s.pairUpOut = false ∨ s.swl.state.linked = false)) :=
  ⟨⟨wPair .paired, wFr, ((wPair .paired).frameIn (wFr)).1, { mode := 3, holdupVolatile := true, state := 2, fp := none }, by
    repeat' apply And.intro
    all_goals first | decide +kernel | exact decOkEq _ _ (by decide +kernel) | exact readyOf _ _ _ (by decide +kernel)⟩,
   ⟨wPair .paired, wFr, ((wPair .paired).frameIn (wFr)).1, { mode := 3, holdupVolatile := false, state := 2, fp := some (wHost.configFp + 1) }, wHost.configFp + 1, by
    repeat' apply And.intro
    all_goals first | decide +kernel | exact decOkEq _ _ (by decide +kernel) | exact readyOf _ _ _ (by decide +kernel)⟩,
   ⟨wHost, by
    repeat' apply And.intro
    all_goals first | decide +kernel | exact decOkEq _ _ (by decide +kernel) | exact readyOf _ _ _ (by decide +kernel)⟩,
   ⟨wHost, 5, by
    repeat' apply And.intro
    all_goals first | decide +kernel | exact decOkEq _ _ (by decide +kernel) | exact readyOf _ _ _ (by decide +kernel)⟩⟩

theorem test_meets_PairKeepsItsCopiesAndSurvivesLoss_9 :
    (∃ (s : State) (fp : Option (BitVec 64)),
    (s.pairUpOut = true) ∧ (s.swl.state.linked = true) ∧ (s.swl.link.txSeq < 2 ^ 32 - 1) ∧ (fp = if (s.swl.link.beats + 1) % 100 = 0 ∨ s.swl.fpChanged = true then some s.configFp else none)) ∧
    (∃ (s : State),
    (s.swl.link.rekeying = true ∨ s.swl.link.txSeq < 2 ^ 32 - 2 ^ 20)) ∧
    (∃ (s : State),
    (s.pairUpOut = true) ∧ (s.swl.state.linked = true) ∧ (s.swl.link.rekeying = false) ∧ (2 ^ 32 - 2 ^ 20 ≤ s.swl.link.txSeq) ∧ (s.swl.link.txSeq < 2 ^ 32 - 1)) ∧
    (∃ (s : State) (fr : Frame) (t : State) (n : Bytes),
    (s.frameIn fr = (t, true)) ∧ (t.swl.state ≠ .isolated) ∧ (t.swl.position = 0)) :=
  ⟨⟨(let s := wPair .paired; { s with swl := { s.swl with link := { s.swl.link with beats := 99 } } }), some wHost.configFp, by
    repeat' apply And.intro
    all_goals first | decide +kernel | exact decOkEq _ _ (by decide +kernel) | exact readyOf _ _ _ (by decide +kernel)⟩,
   ⟨wPair .paired, by
    repeat' apply And.intro
    all_goals first | decide +kernel | exact decOkEq _ _ (by decide +kernel) | exact readyOf _ _ _ (by decide +kernel)⟩,
   ⟨(let s := wPair .paired; { s with swl := { s.swl with link := { s.swl.link with txSeq := 4293918720 } } }), by
    repeat' apply And.intro
    all_goals first | decide +kernel | exact decOkEq _ _ (by decide +kernel) | exact readyOf _ _ _ (by decide +kernel)⟩,
   ⟨wPair .paired, wFr, ((wPair .paired).frameIn (wFr)).1, [5], by
    repeat' apply And.intro
    all_goals first | decide +kernel | exact decOkEq _ _ (by decide +kernel) | exact readyOf _ _ _ (by decide +kernel)⟩⟩

theorem test_meets_PairKeepsItsCopiesAndSurvivesLoss_10 :
    (∃ (s : State),
    (s.swl.link.unacked = [])) ∧
    (∃ (s : State),
    (s.pairUpOut = true) ∧ (s.swl.state.linked = true) ∧ (s.swl.link.unacked ≠ []) ∧ (s.swl.link.unacked.length ≤ 512) ∧ (∀ x ∈ s.swl.link.unacked, x.resends < 15)) ∧
    (∃ (s : State) (ms : Nat),
    (s.pairUpOut = true) ∧ (s.swl.state.linked = true) ∧ (s.swl.link.upIn = true)) ∧
    (∃ (s : State) (ms : Nat) (c : PairCfg),
    (s.pairUpOut = true) ∧ (s.swl.state.linked = true) ∧ (s.swl.link.upIn = false) ∧ (s.swl.cfg = some c)) :=
  ⟨⟨wPair .paired, by
    repeat' apply And.intro
    all_goals first | decide +kernel | exact decOkEq _ _ (by decide +kernel) | exact readyOf _ _ _ (by decide +kernel)⟩,
   ⟨(let s := wPair .paired; { s with swl := { s.swl with link := { s.swl.link with unacked := [{ kind := 2, keyNo := 0, seq := 1, resends := 14 }] } } }), by decide +kernel⟩,
   ⟨wPair .paired, 9, by
    repeat' apply And.intro
    all_goals first | decide +kernel | exact decOkEq _ _ (by decide +kernel) | exact readyOf _ _ _ (by decide +kernel)⟩,
   ⟨(let s := wPair .paired; { s with swl := { s.swl with position := 1, link := {} } }), 9, wPairCfg, by
    repeat' apply And.intro
    all_goals first | decide +kernel | exact decOkEq _ _ (by decide +kernel) | exact readyOf _ _ _ (by decide +kernel)⟩⟩

theorem test_meets_PairKeepsItsCopiesAndSurvivesLoss_11 :
    (∃ (s : State) (fr : Frame) (t : State) (c : PairCfg),
    (s.frameIn fr = (t, true)) ∧ (s.swl.cfg = some c)) ∧
    (∃ (s : State) (c : PairCfg),
    (s.pairUpOut = true) ∧ (s.swl.state = .isolated) ∧ (s.swl.cfg = some c)) ∧
    (∃ (s : State) (b : Bool),
    (b = true ∨ s.pairUpOut = false ∨ s.swl.state ≠ .isolated)) ∧
    (∃ (s : State) (fr : Frame) (h : HelloBody),
    (s.pairUpOut = false ∨ (s.swl.state ≠ .joining ∧ s.swl.state ≠ .isolated ∧ s.swl.state ≠ .sole) ∨ fr.crcOk = false ∨ s.swl.retryMs ≠ 0)) :=
  ⟨⟨(let s := wPair .paired; { s with swl := { s.swl with position := 1 } }), wFr, ((let s := wPair .paired; { s with swl := { s.swl with position := 1 } }).frameIn (wFr)).1, wPairCfg, by
    repeat' apply And.intro
    all_goals first | decide +kernel | exact decOkEq _ _ (by decide +kernel) | exact readyOf _ _ _ (by decide +kernel)⟩,
   ⟨wPair .isolated, wPairCfg, by
    repeat' apply And.intro
    all_goals first | decide +kernel | exact decOkEq _ _ (by decide +kernel) | exact readyOf _ _ _ (by decide +kernel)⟩,
   ⟨wPair .paired, false, by
    repeat' apply And.intro
    all_goals first | decide +kernel | exact decOkEq _ _ (by decide +kernel) | exact readyOf _ _ _ (by decide +kernel)⟩,
   ⟨wPair .paired, wFr, wHello wHost, by
    repeat' apply And.intro
    all_goals first | decide +kernel | exact decOkEq _ _ (by decide +kernel) | exact readyOf _ _ _ (by decide +kernel)⟩⟩

theorem test_meets_PairKeepsItsCopiesAndSurvivesLoss_12 :
    (∃ (s : State) (fr : Frame) (h : HelloBody) (n : Nat) (t : State),
    (s.pairUpOut = true) ∧ (s.swl.state = .joining ∨ s.swl.state = .isolated ∨ s.swl.state = .sole) ∧ (fr.crcOk = true) ∧ (s.swl.retryMs = 0) ∧ (s.answerHello = t) ∧ (t.helloFails h = some n)) ∧
    (∃ (s : State),
    (s.swl.state = .joining)) ∧
    (∃ (s : State),
    (s.swl.state ≠ .joining)) ∧
    (∃ (s : State) (fr : Frame) (h : HelloBody),
    (s.pairUpOut = true) ∧ (s.swl.state = .joining ∨ s.swl.state = .isolated ∨ s.swl.state = .sole) ∧ (fr.crcOk = true) ∧ (s.swl.retryMs = 0) ∧ (s.answerHello.helloFails h = none)) :=
  ⟨⟨wPair .joining, wFr, { wHello wHost with position := 0 }, 2, wPair .joining, by
    repeat' apply And.intro
    all_goals first | decide +kernel | exact decOkEq _ _ (by decide +kernel) | exact readyOf _ _ _ (by decide +kernel)⟩,
   ⟨wPair .joining, by
    repeat' apply And.intro
    all_goals first | decide +kernel | exact decOkEq _ _ (by decide +kernel) | exact readyOf _ _ _ (by decide +kernel)⟩,
   ⟨wPair .isolated, by
    repeat' apply And.intro
    all_goals first | decide +kernel | exact decOkEq _ _ (by decide +kernel) | exact readyOf _ _ _ (by decide +kernel)⟩,
   ⟨wPair .joining, wFr, wHello (wPair .joining), by
    repeat' apply And.intro
    all_goals first | decide +kernel | exact decOkEq _ _ (by decide +kernel) | exact readyOf _ _ _ (by decide +kernel)⟩⟩

theorem test_meets_PairKeepsItsCopiesAndSurvivesLoss_13 :
    (∃ (s : State) (h : HelloBody) (c : PairCfg),
    (s.swl.cfg = some c) ∧ (s.helloFails h = none)) ∧
    (∃ (s : State),
    (s.pairUpOut = false ∨ s.swl.state ≠ .joining)) ∧
    (∃ (s : State),
    (s.pairUpOut = true) ∧ (s.swl.state = .joining) ∧ (s.swl.retryMs = 0) ∧ (s.swl.joining = none)) ∧
    (∃ (s : State) (f n : Nat),
    (s.pairUpOut = true) ∧ (s.swl.state = .joining) ∧ (s.swl.retryMs ≠ 0) ∧ (s.swl.joining = some f) ∧ (s.swl.refusal = some n) ∧ (990 ≤ s.swl.joinMs)) :=
  ⟨⟨wPair .joining, wHello (wPair .joining), wPairCfg, by
    repeat' apply And.intro
    all_goals first | decide +kernel | exact decOkEq _ _ (by decide +kernel) | exact readyOf _ _ _ (by decide +kernel)⟩,
   ⟨wHost, by
    repeat' apply And.intro
    all_goals first | decide +kernel | exact decOkEq _ _ (by decide +kernel) | exact readyOf _ _ _ (by decide +kernel)⟩,
   ⟨wPair .joining, by
    repeat' apply And.intro
    all_goals first | decide +kernel | exact decOkEq _ _ (by decide +kernel) | exact readyOf _ _ _ (by decide +kernel)⟩,
   ⟨(let s := wPair .joining; { s with swl := { s.swl with retryMs := 10, joining := some 0, refusal := some 3, joinMs := 990 } }), 0, 3, by
    repeat' apply And.intro
    all_goals first | decide +kernel | exact decOkEq _ _ (by decide +kernel) | exact readyOf _ _ _ (by decide +kernel)⟩⟩

theorem test_meets_PairKeepsItsCopiesAndSurvivesLoss_14 :
    (∃ (s : State) (n g : Nat),
    (s.pairUpOut = false ∨ s.swl.state ≠ .resync ∨ (n, g) ∉ s.swl.resyncLeft)) ∧
    (∃ (s : State) (n g : Nat) (x : Ns),
    (s.pairUpOut = true) ∧ (s.swl.state = .resync) ∧ ((n, g) ∈ s.swl.resyncLeft) ∧ (s.swl.copying = []) ∧ (s.ns n = some x) ∧ (s.hif.locks = []) ∧ (s.swl.copyReads = [])) ∧
    (∃ (s : State) (n g : Nat) (x : Ns) (a : BitVec 48),
    (s.pairUpOut = true) ∧ (s.swl.state = .resync) ∧ ((n, g) ∈ s.swl.resyncLeft) ∧ (s.swl.copying = []) ∧ (s.ns n = some x) ∧ (s.swl.copyReads = [(n, g, a)])) ∧
    (∃ (s : State) (n g : Nat) (x : Ns) (a : BitVec 48) (t : State),
    (t = ((granuleAll x g).map (unitKey n)).foldl (fun s k => s.fetchEntry (s.copyAsker n g k) [k]) s)) :=
  ⟨⟨wPair .paired, 1, 0, by
    repeat' apply And.intro
    all_goals first | decide +kernel | exact decOkEq _ _ (by decide +kernel) | exact readyOf _ _ _ (by decide +kernel)⟩,
   ⟨(let s := wPair .resync; { s with swl := { s.swl with resyncLeft := [(1, 0)] } }), 1, 0, wNs, by
    repeat' apply And.intro
    all_goals first | decide +kernel | exact decOkEq _ _ (by decide +kernel) | exact readyOf _ _ _ (by decide +kernel)⟩,
   ⟨(let s := wPair .resync; { s with swl := { s.swl with resyncLeft := [(1, 0)], copyReads := [(1, 0, 7)] } }), 1, 0, wNs, 7, by
    repeat' apply And.intro
    all_goals first | decide +kernel | exact decOkEq _ _ (by decide +kernel) | exact readyOf _ _ _ (by decide +kernel)⟩,
   ⟨wPair .resync, 1, 0, wNs, 7, _, rfl⟩⟩

theorem test_meets_PairKeepsItsCopiesAndSurvivesLoss_15 :
    (∃ (s : State) (n g : Nat) (x : Ns),
    True) :=
  ⟨wPair .resync, 1, 0, wNs, by
    repeat' apply And.intro
    all_goals first | decide +kernel | exact decOkEq _ _ (by decide +kernel) | exact readyOf _ _ _ (by decide +kernel)⟩

end Sys2Proof.Tests
end

section
/-! PROOFS. The sculls' data instructions (R470, R472 to R474, R477): what the words of their tables are, and the statements about the
ALU group, the moves and accumulators, the constants, the tags, and the jumps and CODE words. -/

namespace Sys2Proof.Machine

/-! ### Instructions that write a D register -/

section

variable {s : State} {k n : Nat} {op : JOp} {d r : BitVec 3} {v w z : TWord} {t : Trap}

/-- An instruction that computes a word for Dd passes on with that word in Dd. -/
theorem put_passes {g : Scull → Except Trap TWord} (h : s.nextIs k op = true) (hg : g (s.scull k).begun = .ok z) :
    s.runJ k 0 op (fun c => c.put d n (g c)) = s.passed k n ((s.scull k).begun.setD d z) :=
  runJ_ok h (by rw [hg]; rfl)

/-- An instruction that computes no word for Dd traps. -/
theorem put_traps {g : Scull → Except Trap TWord} (h : s.nextIs k op = true) (hg : g (s.scull k).begun = .error t) :
    s.runJ k 0 op (fun c => c.put d n (g c)) = s.trapAt k t (s.scull k).pc.toNat :=
  runJ_trap h (by rw [hg]; rfl)

/-- A row of the ALU table: the word that `f` gives of Dd and Ds is left in Dd. -/
theorem alu_passes {f : TWord → TWord → Except Trap TWord} (h : s.nextIs k op = true) (hd : (s.scull k).dr d = v)
    (hr : (s.scull k).dr r = w) (hf : f v w = .ok z) :
    s.alu k op d r n f = .next (s.passed k n ((s.scull k).begun.setD d z)) :=
  congrArg _ (put_passes h (by rw [begun_dr, begun_dr, hd, hr, hf]))

/-- Operands for which `f` gives a trap: the ALU instruction traps. -/
theorem alu_traps {f : TWord → TWord → Except Trap TWord} (h : s.nextIs k op = true) (hd : (s.scull k).dr d = v)
    (hr : (s.scull k).dr r = w) (hf : f v w = .error t) :
    s.alu k op d r n f = .next (s.trapAt k t (s.scull k).pc.toNat) :=
  congrArg _ (put_traps h (by rw [begun_dr, begun_dr, hd, hr, hf]))

/-- An instruction that changes Dd by itself: the word that `f` gives of Dd is left in Dd. -/
theorem unary_passes (f : TWord → Except Trap TWord) (h : s.nextIs k op = true) (hd : (s.scull k).dr d = v) (hf : f v = .ok z) :
    s.runJ k 0 op (fun c => c.put d n (f (c.dr d))) = s.passed k n ((s.scull k).begun.setD d z) :=
  put_passes h (by rw [begun_dr, hd, hf])

/-- A word of Dd for which `f` gives a trap. -/
theorem unary_traps (f : TWord → Except Trap TWord) (h : s.nextIs k op = true) (hd : (s.scull k).dr d = v) (hf : f v = .error t) :
    s.runJ k 0 op (fun c => c.put d n (f (c.dr d))) = s.trapAt k t (s.scull k).pc.toNat :=
  put_traps h (by rw [begun_dr, hd, hf])

end

/-! ### Lanes -/

/-- A word put above another is the two ORed at their places. -/
theorem setWidth_or_shiftLeft {n m : Nat} (l : Nat) (hi : BitVec n) (lo : BitVec m) :
    lo.setWidth l ||| hi.setWidth l <<< m = (hi ++ lo).setWidth l := by
  ext i hil
  simp only [BitVec.getElem_or, BitVec.getElem_setWidth, BitVec.getElem_shiftLeft, BitVec.getLsbD_append]
  by_cases h : i < m
  · simp [h]
  · simp [h, BitVec.getLsbD_of_ge lo i (by omega)]

/-- The byte above the lowest is the byte of what stands above it. -/
theorem extractByte_append {n : Nat} (hi : BitVec n) (lo : BitVec 8) (i : Nat) :
    BitVec.extractLsb' (8 * (i + 1)) 8 (hi ++ lo) = BitVec.extractLsb' (8 * i) 8 hi := by
  rw [BitVec.extractLsb'_append_eq_of_le (by omega)]
  rfl

/-- The lowest byte. -/
theorem extractByte_zero_append {n : Nat} (hi : BitVec n) (lo : BitVec 8) : BitVec.extractLsb' (8 * 0) 8 (hi ++ lo) = lo :=
  BitVec.extractLsb'_append_eq_right

/-- The sum or the difference in one lane. -/
def lane {n : Nat} (sub : Bool) (a b : BitVec n) : BitVec n := if sub then a - b else a + b

/-- `lanes` of two halves works half by half. -/
theorem lanes_halves (sub : Bool) (a b x y : BitVec 16) :
    lanes 16 sub (a ++ b) (x ++ y) = lane sub a x ++ lane sub b y := by
  have hlo (u v : BitVec 16) : BitVec.extractLsb' (16 * 0) 16 (u ++ v) = v := BitVec.extractLsb'_append_eq_right
  have hhi (u v : BitVec 16) : BitVec.extractLsb' (16 * 1) 16 (u ++ v) = u := BitVec.extractLsb'_append_eq_left
  have hr : List.range (32 / 16) = [0, 1] := rfl
  simp only [lanes, hr, List.foldl_cons, List.foldl_nil, hlo, hhi]
  change 0#32 ||| (lane sub b y).setWidth 32 <<< 0 ||| (lane sub a x).setWidth 32 <<< 16 = _
  rw [BitVec.zero_or, BitVec.shiftLeft_zero, setWidth_or_shiftLeft, BitVec.setWidth_eq]

/-- `lanes` of four bytes works byte by byte. -/
theorem lanes_bytes (sub : Bool) (a b c e w x y z : BitVec 8) :
    lanes 8 sub (a ++ b ++ c ++ e) (w ++ x ++ y ++ z) = lane sub a w ++ lane sub b x ++ lane sub c y ++ lane sub e z := by
  have h0 (p q r u : BitVec 8) : BitVec.extractLsb' (8 * 0) 8 (p ++ q ++ r ++ u) = u := extractByte_zero_append _ _
  have h1 (p q r u : BitVec 8) : BitVec.extractLsb' (8 * 1) 8 (p ++ q ++ r ++ u) = r :=
    (extractByte_append _ _ 0).trans (extractByte_zero_append _ _)
  have h2 (p q r u : BitVec 8) : BitVec.extractLsb' (8 * 2) 8 (p ++ q ++ r ++ u) = q :=
    (extractByte_append _ _ 1).trans ((extractByte_append _ _ 0).trans (extractByte_zero_append _ _))
  have h3 (p q r u : BitVec 8) : BitVec.extractLsb' (8 * 3) 8 (p ++ q ++ r ++ u) = p :=
    (extractByte_append _ _ 2).trans ((extractByte_append _ _ 1).trans BitVec.extractLsb'_append_eq_left)
  have hr : List.range (32 / 8) = [0, 1, 2, 3] := rfl
  simp only [lanes, hr, List.foldl_cons, List.foldl_nil, h0, h1, h2, h3]
  change 0#32 ||| (lane sub e z).setWidth 32 <<< 0 ||| (lane sub c y).setWidth 32 <<< 8 ||| (lane sub b x).setWidth 32 <<< 16 |||
    (lane sub a w).setWidth 32 <<< 24 = _
  rw [BitVec.zero_or, BitVec.shiftLeft_zero, setWidth_or_shiftLeft, setWidth_or_shiftLeft, setWidth_or_shiftLeft,
    BitVec.setWidth_eq, BitVec.append_assoc, BitVec.append_assoc, BitVec.cast_cast, BitVec.cast_eq]

/-! ### ADD and SUB -/

section

variable (sub : Bool) (x y : BitVec 32)

theorem addTags_int_int : addTags sub (tagged 1 x) (tagged 1 y) = .ok (tagged 1 (lane sub x y)) := by
  simp [addTags, intWord, lane]

theorem addTags_ticks_int : addTags sub (tagged 7 x) (tagged 1 y) = .ok (tagged 7 (lane sub x y)) := by
  simp [addTags, lane]

theorem addTags_int_ticks : addTags false (tagged 1 x) (tagged 7 y) = .ok (tagged 7 (x + y)) := by simp [addTags]

theorem addTags_ticks_ticks : addTags true (tagged 7 x) (tagged 7 y) = .ok (tagged 1 (x - y)) := by simp [addTags, intWord]

theorem addTags_pair (a b e g : BitVec 16) :
    addTags sub (tagged 3 (a ++ b)) (tagged 3 (e ++ g)) = .ok (tagged 3 (lane sub a e ++ lane sub b g)) := by
  simp [addTags, lanes_halves]

theorem addTags_bytes (a b c e w x y z : BitVec 8) :
    addTags sub (tagged 2 (a ++ b ++ c ++ e)) (tagged 2 (w ++ x ++ y ++ z)) =
      .ok (tagged 2 (lane sub a w ++ lane sub b x ++ lane sub c y ++ lane sub e z)) := by
  simp [addTags, lanes_bytes]

end

theorem add_mismatch {v w : TWord} (h : ((tag4 v).toNat, (tag4 w).toNat) ∉ [(1, 1), (7, 1), (1, 7), (3, 3), (2, 2)]) :
    addTags false v w = .error .tagMismatch := by
  simp only [addTags, Bool.false_eq_true, if_false]
  split <;> simp_all

theorem sub_mismatch {v w : TWord} (h : ((tag4 v).toNat, (tag4 w).toNat) ∉ [(1, 1), (7, 1), (7, 7), (3, 3), (2, 2)]) :
    addTags true v w = .error .tagMismatch := by
  simp only [addTags, if_true]
  split <;> simp_all

/-- ADDI's second operand is an INT, so the tag of Dd alone decides. -/
theorem addi_mismatch {v : TWord} (x : BitVec 32) (h : (tag4 v).toNat ∉ [1, 7]) :
    addTags false v (intWord x) = .error .tagMismatch :=
  add_mismatch (by simpa [intWord] using h)

/-! ### Operations of two INT words -/

section

variable {f : BitVec 32 → BitVec 32 → Except Trap (BitVec 32)} {x y z : BitVec 32} {t : Trap} {v w : TWord}

theorem intOp_ok (h : f x y = .ok z) : intOp f (tagged 1 x) (tagged 1 y) = .ok (tagged 1 z) := by
  simp [intOp, h, Except.map, intWord]

theorem intOp_error (h : f x y = .error t) : intOp f (tagged 1 x) (tagged 1 y) = .error t := by
  simp [intOp, h, Except.map]

theorem intOp_mismatch (h : ((tag4 v).toNat, (tag4 w).toNat) ∉ [(1, 1)]) : intOp f v w = .error .tagMismatch :=
  if_neg fun ⟨hv, hw⟩ => h (by simp [hv, hw])

end

/-- The quotient truncated toward zero. -/
theorem div_int {x y : BitVec 32} (h : y ≠ 0) :
    divOp false (tagged 1 x) (tagged 1 y) = .ok (tagged 1 (BitVec.ofInt 32 (x.toInt.tdiv y.toInt))) := by
  have e : x.sdiv y = BitVec.ofInt 32 (x.toInt.tdiv y.toInt) :=
    BitVec.eq_of_toInt_eq (by rw [BitVec.toInt_ofInt, BitVec.toInt_sdiv])
  exact intOp_ok (by rw [if_neg h, ← e]; rfl)

/-- The remainder of that quotient, with the sign of the dividend. -/
theorem rem_int {x y : BitVec 32} (h : y ≠ 0) :
    divOp true (tagged 1 x) (tagged 1 y) = .ok (tagged 1 (BitVec.ofInt 32 (x.toInt.tmod y.toInt))) := by
  have e : x.srem y = BitVec.ofInt 32 (x.toInt.tmod y.toInt) := by rw [← BitVec.toInt_srem, BitVec.ofInt_toInt]
  exact intOp_ok (by rw [if_neg h, ← e]; rfl)

theorem div_zero (rem : Bool) (x : BitVec 32) : divOp rem (tagged 1 x) (tagged 1 0) = .error .divZero :=
  intOp_error (if_pos rfl)

/-- SAR divides by a power of two, rounding down. -/
theorem sar_lt {x y : BitVec 32} (h : y.toNat < 32) :
    sarOp (tagged 1 x) (tagged 1 y) = .ok (tagged 1 (BitVec.ofInt 32 (x.toInt / 2 ^ y.toNat))) := by
  have hn : Nat.min y.toNat 31 = y.toNat := Nat.min_eq_left (by omega)
  have e : x.sshiftRight y.toNat = BitVec.ofInt 32 (x.toInt / 2 ^ y.toNat) := by
    rw [BitVec.sshiftRight, Int.shiftRight_eq_div_pow]
    norm_cast
  exact intOp_ok (by rw [hn, e])

/-- A shift by 31 leaves copies of the sign. -/
theorem sshiftRight_31 (x : BitVec 32) : x.sshiftRight 31 = if x.msb then BitVec.allOnes 32 else 0 := by
  have hm : x.msb = x.getLsbD 31 := BitVec.msb_eq_getLsbD_last x
  ext i hi
  rw [BitVec.getElem_sshiftRight]
  have he : (if h : 31 + i < 32 then x[31 + i] else x.msb) = x.msb := by
    split
    · obtain rfl : i = 0 := by omega
      exact hm.symm
    · rfl
  rw [he]
  cases x.msb
  · simp
  · rw [if_pos rfl, BitVec.getElem_allOnes]

theorem sar_ge {x y : BitVec 32} (h : 32 ≤ y.toNat) :
    sarOp (tagged 1 x) (tagged 1 y) = .ok (tagged 1 (if x.msb then BitVec.allOnes 32 else 0)) := by
  have hn : Nat.min y.toNat 31 = 31 := Nat.min_eq_right (by omega)
  exact intOp_ok (by rw [hn, sshiftRight_31])

/-- Of two equal INT words it does not matter which one MIN takes. -/
theorem min_int (x y : BitVec 32) :
    (if x.slt y then x else y) = if x.toInt ≤ y.toInt then x else y := by
  rw [BitVec.slt_eq_decide]
  rcases Int.lt_trichotomy x.toInt y.toInt with h | h | h
  · simp [h, Int.le_of_lt h]
  · simp [BitVec.toInt_inj.mp h]
  · simp [Int.not_le.mpr h, Int.not_lt.mpr (Int.le_of_lt h)]

theorem max_int (x y : BitVec 32) :
    (if x.slt y then y else x) = if x.toInt ≤ y.toInt then y else x := by
  rw [BitVec.slt_eq_decide]
  rcases Int.lt_trichotomy x.toInt y.toInt with h | h | h
  · simp [h, Int.le_of_lt h]
  · simp [BitVec.toInt_inj.mp h]
  · simp [Int.not_le.mpr h, Int.not_lt.mpr (Int.le_of_lt h)]

/-! ### Logic, shifts, EXTB, MKPAIR and NOT -/

section

variable {t : Nat} {x y : BitVec 32} {v w : TWord}

theorem logicOp_ok (f : BitVec 32 → BitVec 32 → BitVec 32) (ht : t = 1 ∨ t = 2 ∨ t = 3) :
    logicOp f (tagged t x) (tagged t y) = .ok (tagged t (f x y)) := by
  rcases ht with rfl | rfl | rfl <;> simp [logicOp]

theorem logicOp_mismatch {f : BitVec 32 → BitVec 32 → BitVec 32}
    (h : ((tag4 v).toNat, (tag4 w).toNat) ∉ [(1, 1), (2, 2), (3, 3)]) : logicOp f v w = .error .tagMismatch := by
  refine if_neg fun ⟨he, ht⟩ => h ?_
  rcases ht with ht | ht | ht <;> simp [← he, ht]

theorem notOp_ok (ht : t = 1 ∨ t = 2 ∨ t = 3) : notOp (tagged t y) = .ok (tagged t (~~~ y)) := by
  rcases ht with rfl | rfl | rfl <;> simp [notOp]

theorem notOp_mismatch (h : (tag4 w).toNat ∉ [1, 2, 3]) : notOp w = .error .tagMismatch := by
  refine if_neg fun ht => h ?_
  rcases ht with ht | ht | ht <;> simp [ht]

theorem shiftOp_lt (left : Bool) (ht : t = 1 ∨ t = 2) (h : y.toNat < 32) :
    shiftOp left (tagged t x) (tagged 1 y) = .ok (tagged t (if left then x <<< y.toNat else x >>> y.toNat)) := by
  rcases ht with rfl | rfl <;> simp [shiftOp, Nat.not_le_of_lt h]

theorem shiftOp_ge (left : Bool) (ht : t = 1 ∨ t = 2) (h : 32 ≤ y.toNat) :
    shiftOp left (tagged t x) (tagged 1 y) = .ok (tagged t 0) := by
  rcases ht with rfl | rfl <;> simp [shiftOp, h]

theorem shiftOp_mismatch {left : Bool} (h : ((tag4 v).toNat, (tag4 w).toNat) ∉ [(1, 1), (2, 1)]) :
    shiftOp left v w = .error .tagMismatch := by
  refine if_neg fun ⟨hv, hw⟩ => h ?_
  rcases hv with hv | hv <;> simp [hv, hw]

/-- The immediate count's operand is an INT, so the tag of Dd alone decides. -/
theorem shiftImm_mismatch {left : Bool} (h : (tag4 v).toNat ∉ [1, 2]) : shiftOp left v (intWord y) = .error .tagMismatch :=
  shiftOp_mismatch (by simpa [intWord] using h)

theorem extb_ok {b : Nat} (hy : y.toNat = b) (hb : b ≤ 3) :
    extbOp (tagged 2 x) (tagged 1 y) = .ok (tagged 1 (BitVec.ofNat 32 (x.toNat / 2 ^ (8 * b) % 256))) := by
  have e : (x >>> (8 * b)) &&& 0xFF = BitVec.ofNat 32 (x.toNat / 2 ^ (8 * b) % 256) := by
    apply BitVec.eq_of_toNat_eq
    rw [BitVec.toNat_and, BitVec.toNat_ushiftRight, Nat.shiftRight_eq_div_pow, BitVec.toNat_ofNat]
    exact (Nat.and_two_pow_sub_one_eq_mod _ 8).trans (Nat.mod_eq_of_lt (by omega)).symm
  simp only [extbOp, tag4_tagged, val32_tagged, hy, e, hb, intWord]
  simp

theorem extb_range (h : 3 < y.toNat) : extbOp (tagged 2 x) (tagged 1 y) = .error .operandRange := by
  simp [extbOp, Nat.not_le_of_lt h]

theorem extb_mismatch (h : ((tag4 v).toNat, (tag4 w).toNat) ∉ [(2, 1)]) : extbOp v w = .error .tagMismatch :=
  if_neg fun ⟨hv, hw⟩ => h (by simp [hv, hw])

theorem pair_mismatch (h : ((tag4 v).toNat, (tag4 w).toNat) ∉ [(1, 1)]) : pairOp v w = .error .tagMismatch :=
  if_neg fun ⟨hv, hw⟩ => h (by simp [hv, hw])

end

/-- A mask of the low half keeps the low half. -/
theorem and_lowHalf (x : BitVec 32) : x &&& 0xFFFF = (x.setWidth 16).setWidth 32 := by
  apply BitVec.eq_of_toNat_eq
  rw [BitVec.toNat_and, BitVec.toNat_setWidth_of_le (by decide), BitVec.toNat_setWidth]
  exact Nat.and_two_pow_sub_one_eq_mod _ 16

/-- A shift by a half drops the high half. -/
theorem shiftLeft_half (x : BitVec 32) : x <<< 16 = (x.setWidth 16).setWidth 32 <<< 16 := by
  ext i hi
  by_cases h : i < 16
  · simp [h]
  · simp [h, show i - 16 < 16 by omega, BitVec.getLsbD_eq_getElem (show i - 16 < 32 by omega)]

/-- MKPAIR joins the low halves. -/
theorem pair_ok (a b x y : BitVec 16) : pairOp (tagged 1 (a ++ b)) (tagged 1 (x ++ y)) = .ok (tagged 3 (b ++ y)) := by
  have e : (a ++ b) <<< 16 ||| ((x ++ y) &&& 0xFFFF) = b ++ y := by
    rw [shiftLeft_half, and_lowHalf, BitVec.setWidth_append_eq_right, BitVec.setWidth_append_eq_right, BitVec.or_comm,
      setWidth_or_shiftLeft, BitVec.setWidth_eq]
  rw [pairOp, tag4_tagged, tag4_tagged, if_pos ⟨rfl, rfl⟩, val32_tagged, val32_tagged, e]

/-- The immediate count of a shift is its five bits, unsigned. -/
theorem toNat_shiftImm (imm : BitVec 5) : (imm.setWidth 32).toNat = imm.toNat :=
  BitVec.toNat_setWidth_of_le (by decide)

theorem shiftImm_ok (left : Bool) {t : Nat} {x : BitVec 32} (ht : t = 1 ∨ t = 2) (imm : BitVec 5) :
    shiftOp left (tagged t x) (intWord (imm.setWidth 32)) = .ok (tagged t (if left then x <<< imm.toNat else x >>> imm.toNat)) := by
  have h := toNat_shiftImm imm
  rw [intWord, shiftOp_lt left ht (by rw [h]; exact imm.isLt), h]

theorem sarImm_ok {x : BitVec 32} (imm : BitVec 5) :
    sarOp (tagged 1 x) (intWord (imm.setWidth 32)) = .ok (tagged 1 (BitVec.ofInt 32 (x.toInt / 2 ^ imm.toNat))) := by
  have h := toNat_shiftImm imm
  rw [intWord, sar_lt (by rw [h]; exact imm.isLt), h]

theorem sarImm_mismatch {v : TWord} {y : BitVec 32} (h : (tag4 v).toNat ∉ [1]) : sarOp v (intWord y) = .error .tagMismatch :=
  intOp_mismatch (by simpa [intWord] using h)

/-! ### The ALU group -/

/-- Settles O41, row by row: a row that the table lists gives its word by the law of its operation, and any other pair of tags traps. -/
theorem aluComputesEveryRowOfItsTable : Obligations.AluComputesEveryRowOfItsTable := by
  refine ⟨
    -- ADD and SUB of numbers
    fun s k d r x y h hd hr => alu_passes h hd hr (addTags_int_int false x y),
    fun s k d r x y h hd hr => alu_passes h hd hr (addTags_ticks_int false x y),
    fun s k d r x y h hd hr => alu_passes h hd hr (addTags_int_ticks x y),
    fun s k d r x y h hd hr => alu_passes h hd hr (addTags_int_int true x y),
    fun s k d r x y h hd hr => alu_passes h hd hr (addTags_ticks_ticks x y),
    fun s k d r x y h hd hr => alu_passes h hd hr (addTags_ticks_int true x y),
    -- ADD and SUB lane by lane
    fun s k d r a b x y h hd hr => alu_passes h hd hr (addTags_pair false a b x y),
    fun s k d r a b c e w x y z h hd hr => alu_passes h hd hr (addTags_bytes false a b c e w x y z),
    fun s k d r a b x y h hd hr => alu_passes h hd hr (addTags_pair true a b x y),
    fun s k d r a b c e w x y z h hd hr => alu_passes h hd hr (addTags_bytes true a b c e w x y z),
    -- MUL, DIV and REM
    fun s k d r x y h hd hr => alu_passes h hd hr (intOp_ok rfl),
    fun s k d r x y h hd hr hy => alu_passes h hd hr (div_int hy),
    fun s k d r x y h hd hr hy => alu_passes h hd hr (rem_int hy),
    fun s k d r x h hd hr => alu_traps h hd hr (div_zero false x),
    fun s k d r x h hd hr => alu_traps h hd hr (div_zero true x),
    -- AND, OR and XOR
    fun s k t d r x y h ht hd hr => alu_passes h hd hr (logicOp_ok _ ht),
    fun s k t d r x y h ht hd hr => alu_passes h hd hr (logicOp_ok _ ht),
    fun s k t d r x y h ht hd hr => alu_passes h hd hr (logicOp_ok _ ht),
    -- shifts
    fun s k t d r x y h ht hd hr hy => alu_passes h hd hr (shiftOp_lt true ht hy),
    fun s k t d r x y h ht hd hr hy => alu_passes h hd hr (shiftOp_ge true ht hy),
    fun s k t d imm x h ht hd => congrArg _ (unary_passes (fun v => shiftOp true v _) h hd (shiftImm_ok true ht imm)),
    fun s k t d r x y h ht hd hr hy => alu_passes h hd hr (shiftOp_lt false ht hy),
    fun s k t d r x y h ht hd hr hy => alu_passes h hd hr (shiftOp_ge false ht hy),
    fun s k t d imm x h ht hd => congrArg _ (unary_passes (fun v => shiftOp false v _) h hd (shiftImm_ok false ht imm)),
    fun s k d r x y h hd hr hy => alu_passes h hd hr (sar_lt hy),
    fun s k d r x y h hd hr hy => alu_passes h hd hr (sar_ge hy),
    fun s k d imm x h hd => congrArg _ (unary_passes (fun v => sarOp v _) h hd (sarImm_ok imm)),
    -- ADDI
    fun s k d imm x h hd => congrArg _ (unary_passes (fun v => addTags false v _) h hd (addTags_int_int false x _)),
    fun s k d imm x h hd => congrArg _ (unary_passes (fun v => addTags false v _) h hd (addTags_ticks_int false x _)),
    -- MIN, MAX, EXTB, MKPAIR and NOT
    fun s k d r x y h hd hr => alu_passes h hd hr (intOp_ok (congrArg _ (min_int x y))),
    fun s k d r x y h hd hr => alu_passes h hd hr (intOp_ok (congrArg _ (max_int x y))),
    fun s k d r b x y h hd hr hy hb => alu_passes h hd hr (extb_ok hy hb),
    fun s k d r x y h hd hr hy => alu_traps h hd hr (extb_range hy),
    fun s k d r a b x y h hd hr => alu_passes h hd hr (pair_ok a b x y),
    fun s k t d r y h ht hr => alu_passes (d := d) (f := fun _ y => notOp y) h rfl hr (notOp_ok ht),
    -- pairs of tags outside the table: ADD, SUB, MUL, DIV, REM, AND, SHL, SAR, EXTB, OR, XOR, SHR, MIN, MAX, MKPAIR
    fun s k d r v w h hd hr ht => alu_traps h hd hr (add_mismatch ht),
    fun s k d r v w h hd hr ht => alu_traps h hd hr (sub_mismatch ht),
    fun s k d r v w h hd hr ht => alu_traps h hd hr (intOp_mismatch ht),
    fun s k d r v w h hd hr ht => alu_traps h hd hr (intOp_mismatch ht),
    fun s k d r v w h hd hr ht => alu_traps h hd hr (intOp_mismatch ht),
    fun s k d r v w h hd hr ht => alu_traps h hd hr (logicOp_mismatch ht),
    fun s k d r v w h hd hr ht => alu_traps h hd hr (shiftOp_mismatch ht),
    fun s k d r v w h hd hr ht => alu_traps h hd hr (intOp_mismatch ht),
    fun s k d r v w h hd hr ht => alu_traps h hd hr (extb_mismatch ht),
    fun s k d r v w h hd hr ht => alu_traps h hd hr (logicOp_mismatch ht),
    fun s k d r v w h hd hr ht => alu_traps h hd hr (logicOp_mismatch ht),
    fun s k d r v w h hd hr ht => alu_traps h hd hr (shiftOp_mismatch ht),
    fun s k d r v w h hd hr ht => alu_traps h hd hr (intOp_mismatch ht),
    fun s k d r v w h hd hr ht => alu_traps h hd hr (intOp_mismatch ht),
    fun s k d r v w h hd hr ht => alu_traps h hd hr (pair_mismatch ht),
    -- tags outside the table: NOT, ADDI, SHLI, SHRI, SARI
    fun s k d r w h hr ht => alu_traps (d := d) (f := fun _ y => notOp y) h rfl hr (notOp_mismatch ht),
    fun s k d imm v h hd ht => congrArg _ (unary_traps (fun v => addTags false v _) h hd (addi_mismatch _ ht)),
    fun s k d imm v h hd ht => congrArg _ (unary_traps (fun v => shiftOp true v _) h hd (shiftImm_mismatch ht)),
    fun s k d imm v h hd ht => congrArg _ (unary_traps (fun v => shiftOp false v _) h hd (shiftImm_mismatch ht)),
    fun s k d imm v h hd ht => congrArg _ (unary_traps (fun v => sarOp v _) h hd (sarImm_mismatch ht))⟩

/-! ### MOV -/

section

variable (c : Scull) {p q : BitVec 4}

/-- A code below 8 names no A register and no accumulator (R457). -/
theorem dCode_bounds (h : p.toNat < 8) : ¬ 8 ≤ p.toNat ∧ ¬ 12 ≤ p.toNat := by omega

/-- A code from 8 to 11 names an A register and no accumulator (R457). -/
theorem aCode_bounds (h : 8 ≤ p.toNat ∧ p.toNat < 12) : 8 ≤ p.toNat ∧ p.toNat < 12 ∧ ¬ 12 ≤ p.toNat := by omega

/-- A code from 12 on names an accumulator and no A register (R457). -/
theorem accCode_bounds (h : 12 ≤ p.toNat) : 12 ≤ p.toNat ∧ ¬ p.toNat < 12 := by omega

theorem mov_d_d (hp : p.toNat < 8) (hq : q.toNat < 8) : c.mov p q = .ok (c.setD (p.setWidth 3) (c.dr (q.setWidth 3))) 1 := by
  simp [Scull.mov, need, dCode_bounds hp, dCode_bounds hq]

theorem mov_a_d (hp : 8 ≤ p.toNat ∧ p.toNat < 12) (hq : q.toNat < 8) : c.mov p q =
    if tag4 (c.dr (q.setWidth 3)) = 4 then .ok (c.setA (p.setWidth 2) (c.dr (q.setWidth 3))) 1 else .trap .aNotPtr := by
  simp [Scull.mov, need, aCode_bounds hp, dCode_bounds hq]

theorem mov_d_a (hp : p.toNat < 8) (hq : 8 ≤ q.toNat ∧ q.toNat < 12) :
    c.mov p q = need (c.ar (q.setWidth 2)) .aNotPtr (fun w => .ok (c.setD (p.setWidth 3) w) 1) := by
  simp [Scull.mov, dCode_bounds hp, aCode_bounds hq]

theorem mov_a_a (hp : 8 ≤ p.toNat ∧ p.toNat < 12) (hq : 8 ≤ q.toNat ∧ q.toNat < 12) : c.mov p q =
    need (c.ar (q.setWidth 2)) .aNotPtr (fun w => if tag4 w = 4 then .ok (c.setA (p.setWidth 2) w) 1 else .trap .aNotPtr) := by
  simp [Scull.mov, aCode_bounds hp, aCode_bounds hq]

theorem mov_d_acc (hp : p.toNat < 8) (hq : 12 ≤ q.toNat) : c.mov p q =
    if ((c.acc (q.toNat - 12)).setWidth 32).signExtend 64 = c.acc (q.toNat - 12)
    then .ok (c.setD (p.setWidth 3) (intWord ((c.acc (q.toNat - 12)).setWidth 32))) 1 else .trap .accRange := by
  simp [Scull.mov, dCode_bounds hp, accCode_bounds hq]

theorem mov_acc_d (hp : 12 ≤ p.toNat) (hq : q.toNat < 8) : c.mov p q =
    if tag4 (c.dr (q.setWidth 3)) = 1
    then .ok (c.setAcc (p.toNat - 12) ((val32 (c.dr (q.setWidth 3))).signExtend 64)) 1 else .trap .tagMismatch := by
  simp [Scull.mov, need, accCode_bounds hp, dCode_bounds hq]

theorem mov_acc_acc (hp : 12 ≤ p.toNat) (hq : 12 ≤ q.toNat) :
    c.mov p q = .ok (c.setAcc (p.toNat - 12) (c.acc (q.toNat - 12))) 1 := by
  simp [Scull.mov, accCode_bounds hp, accCode_bounds hq]

theorem mov_acc_a (hp : 12 ≤ p.toNat) (hq : 8 ≤ q.toNat ∧ q.toNat < 12) : c.mov p q = .trap .tagMismatch := by
  simp [Scull.mov, accCode_bounds hp, aCode_bounds hq]

theorem mov_a_acc (hp : 8 ≤ p.toNat ∧ p.toNat < 12) (hq : 12 ≤ q.toNat) : c.mov p q = .trap .tagMismatch := by
  simp [Scull.mov, aCode_bounds hp, accCode_bounds hq]

end

section

variable (d : BitVec 3) (a : BitVec 2) (x : BitVec 1)

theorem dCode_lt : (d.setWidth 4).toNat < 8 := by revert d; decide

theorem setWidth_dCode : (d.setWidth 4).setWidth 3 = d := by revert d; decide

theorem aCode_mem : 8 ≤ (8 + a.setWidth 4 : BitVec 4).toNat ∧ (8 + a.setWidth 4 : BitVec 4).toNat < 12 := by revert a; decide

theorem setWidth_aCode : (8 + a.setWidth 4 : BitVec 4).setWidth 2 = a := by revert a; decide

theorem accCode_ge : 12 ≤ (12 + x.setWidth 4 : BitVec 4).toNat := by revert x; decide

theorem toNat_accCode_sub : (12 + x.setWidth 4 : BitVec 4).toNat - 12 = x.toNat := by revert x; decide

end

/-! ### Accumulators -/

/-- An accumulator is the sign extension of its low word when its value lies in the range of 32-bit integers. -/
theorem signExtend_setWidth_iff (v : BitVec 64) : (v.setWidth 32).signExtend 64 = v ↔ -2 ^ 31 ≤ v.toInt ∧ v.toInt < 2 ^ 31 := by
  have e : ((v.setWidth 32).signExtend 64).toInt = v.toInt.bmod (2 ^ 32) := by
    rw [BitVec.toInt_signExtend_of_le (by decide), BitVec.toInt_setWidth, BitVec.toInt_eq_toNat_bmod,
      Int.bmod_bmod_of_dvd (by decide)]
  rw [← BitVec.toInt_inj, e]
  constructor
  · intro h
    have hlo := Int.le_bmod (x := v.toInt) (m := 2 ^ 32) (by decide)
    have hhi := Int.bmod_lt (x := v.toInt) (m := 2 ^ 32) (by decide)
    omega
  · rintro ⟨hlo, hhi⟩
    exact Int.bmod_eq_of_le (by omega) (by omega)

/-- The low word of an accumulator, by its value. -/
theorem setWidth_eq_ofInt (v : BitVec 64) : v.setWidth 32 = BitVec.ofInt 32 v.toInt :=
  (BitVec.signExtend_eq_setWidth_of_le v (by decide)).symm

theorem macTerm_int (v w : BitVec 32) : macTerm (tagged 1 v) (tagged 1 w) = some (BitVec.ofInt 64 (v.toInt * w.toInt)) := by
  rw [BitVec.ofInt_mul]
  simp [macTerm, BitVec.signExtend]

theorem macTerm_pair (a b e g : BitVec 16) : macTerm (tagged 3 (a ++ b)) (tagged 3 (e ++ g)) =
    some (BitVec.ofInt 64 (a.toInt * e.toInt + b.toInt * g.toInt)) := by
  have hlo (u v : BitVec 16) : BitVec.extractLsb' 0 16 (u ++ v) = v := BitVec.extractLsb'_append_eq_right
  have hhi (u v : BitVec 16) : BitVec.extractLsb' 16 16 (u ++ v) = u := BitVec.extractLsb'_append_eq_left
  rw [BitVec.ofInt_add, BitVec.ofInt_mul, BitVec.ofInt_mul]
  simp [macTerm, hlo, hhi, BitVec.signExtend]

theorem macTerm_none {v w : TWord} (hi : ¬ (tag4 v = 1 ∧ tag4 w = 1)) (hp : ¬ (tag4 v = 3 ∧ tag4 w = 3)) :
    macTerm v w = none := (if_neg hi).trans (if_neg hp)

/-- Settles O42: MOV by the kinds of its two registers, MAC by the term it adds. -/
theorem movAndTheAccumulatorsFollowTheirRules : Obligations.MovAndTheAccumulatorsFollowTheirRules := by
  refine ⟨
    -- MOV among D and A registers
    fun s k d r w h hr => congrArg _ (runJ_ok h (by
      rw [mov_d_d _ (dCode_lt d) (dCode_lt r), setWidth_dCode, setWidth_dCode, begun_dr, hr])),
    fun s k a r w h hr ht => congrArg _ (runJ_ok h (by
      rw [mov_a_d _ (aCode_mem a) (dCode_lt r), setWidth_aCode, setWidth_dCode, begun_dr, hr, if_pos ht])),
    fun s k a r w h hr ht => congrArg _ (runJ_trap h (by
      rw [mov_a_d _ (aCode_mem a) (dCode_lt r), setWidth_dCode, begun_dr, hr, if_neg ht])),
    fun s k d a w h ha => congrArg _ (runJ_ok h (by
      rw [mov_d_a _ (dCode_lt d) (aCode_mem a), setWidth_dCode, setWidth_aCode, begun_ar, ha]; rfl)),
    fun s k d a h ha => congrArg _ (runJ_trap h (by
      rw [mov_d_a _ (dCode_lt d) (aCode_mem a), setWidth_aCode, begun_ar, ha]; rfl)),
    fun s k a b w h hb ht => congrArg _ (runJ_ok h (by
      rw [mov_a_a _ (aCode_mem a) (aCode_mem b), setWidth_aCode, setWidth_aCode, begun_ar, hb]; exact if_pos ht)),
    -- MOV with an accumulator
    fun s k d x v h hx hlo hhi => congrArg _ (runJ_ok h (by
      rw [mov_d_acc _ (dCode_lt d) (accCode_ge x), toNat_accCode_sub, setWidth_dCode, begun_acc, hx,
        if_pos ((signExtend_setWidth_iff v).mpr ⟨hlo, hhi⟩), setWidth_eq_ofInt]
      rfl)),
    fun s k d x v h hx hv => congrArg _ (runJ_trap h (by
      rw [mov_d_acc _ (dCode_lt d) (accCode_ge x), toNat_accCode_sub, begun_acc, hx, if_neg (mt (signExtend_setWidth_iff v).mp hv)])),
    fun s k x r v h hr => congrArg _ (runJ_ok h (by
      rw [mov_acc_d _ (accCode_ge x) (dCode_lt r), toNat_accCode_sub, setWidth_dCode, begun_dr, hr, val32_tagged]
      exact if_pos (tag4_tagged 1 v))),
    fun s k x r w h hr ht => congrArg _ (runJ_trap h (by
      rw [mov_acc_d _ (accCode_ge x) (dCode_lt r), setWidth_dCode, begun_dr, hr, if_neg ht])),
    fun s k x y v h hy => congrArg _ (runJ_ok h (by
      rw [mov_acc_acc _ (accCode_ge x) (accCode_ge y), toNat_accCode_sub, toNat_accCode_sub, begun_acc, hy])),
    fun s k x a h => congrArg _ (runJ_trap h (mov_acc_a _ (accCode_ge x) (aCode_mem a))),
    fun s k x a h => congrArg _ (runJ_trap h (mov_a_acc _ (aCode_mem a) (accCode_ge x))),
    -- MAC and ACADD
    fun s k x r t v w c h hr ht hc => congrArg _ (runJ_ok h (by
      rw [begun_dr, begun_dr, begun_acc, hr, ht, hc, macTerm_int]; rfl)),
    fun s k x r t a b e g c h hr ht hc => congrArg _ (runJ_ok h (by
      rw [begun_dr, begun_dr, begun_acc, hr, ht, hc, macTerm_pair]; rfl)),
    fun s k x r t v w h hr ht hi hp => congrArg _ (runJ_trap h (by
      rw [begun_dr, begun_dr, hr, ht, macTerm_none hi hp]; rfl)),
    fun s k x r v c h hr hc => congrArg _ (runJ_ok h (by
      rw [begun_dr, begun_acc, hr, hc, val32_tagged]; exact if_pos (tag4_tagged 1 v))),
    fun s k x r w h hr ht => congrArg _ (runJ_trap h (by rw [begun_dr, hr, if_neg ht]))⟩

/-! ### Constants -/

/-- MOVW of the four high bits, sign-extended, and two MOVTs that shift in fourteen bits each put every bit of `v` in its place. -/
theorem movw_movt_movt (v : BitVec 32) :
    ((((v.sshiftRight 28).setWidth 14 : BitVec 14).signExtend 32 <<< 14 ||| ((v >>> 14).setWidth 14 : BitVec 14).setWidth 32) <<< 14 |||
      (v.setWidth 14 : BitVec 14).setWidth 32) = v := by
  ext i hi
  have hv : v.getLsbD i = v[i] := BitVec.getLsbD_eq_getElem hi
  rcases Nat.lt_or_ge i 14 with hlow | hlow
  · simp [hlow, hv]
  rcases Nat.lt_or_ge i 28 with hmid | hmid
  · simp [Nat.not_lt_of_ge hlow, show i - 14 < 14 by omega, show 14 + (i - 14) = i by omega, hv]
  · have hs : (v.sshiftRight 28).getLsbD (i - 14 - 14) = v[i] := by
      rw [BitVec.getLsbD_sshiftRight, show 28 + (i - 14 - 14) = i by omega, hv]
      simp [hi, show i - 14 - 14 < 32 by omega]
    simp [Nat.not_lt_of_ge hlow, show ¬ i - 14 < 14 by omega, BitVec.getElem_signExtend, show i - 14 - 14 < 14 by omega, hs]

/-- A load of a word without an error takes every tag but POISON and the reserved ones (R475). -/
theorem loadWord_plain {w : TWord} (h : (tag4 w).toNat ∉ [8, 9, 10, 11, 12, 13, 15]) : loadWord false w = .ok w := by
  have hp : tag4 w ≠ 0xF := fun e => h (by rw [e]; decide)
  have hr : ¬ (8 ≤ (tag4 w).toNat ∧ (tag4 w).toNat ≤ 0xD) := by
    simp only [List.mem_cons, List.not_mem_nil, or_false, not_or] at h
    omega
  rw [loadWord, if_neg Bool.false_ne_true, if_neg hp, if_neg hr]

/-- LDL of a word without an error is a load into Dd and nothing more. -/
theorem exec_ldl_plain (s : State) (k : Nat) (d : BitVec 3) (short : BitVec 8) :
    exec (.ldl k d short false) s = .next (s.runJ k 0 (.ldl d short) (fun c =>
      c.put d 1 (loadWord false (c.local ((s.scull k).dpg.toNat * 256 + short.toNat))))) :=
  congrArg Host.Outcome.next (if_neg fun hue => Bool.false_ne_true hue.1)

/-- Settles O43: each constant by its own law, and the three instructions together by `movw_movt_movt`. -/
theorem constantsAreMadeByMoviMovwAndMovt : Obligations.ConstantsAreMadeByMoviMovwAndMovt := by
  refine ⟨
    fun s k d imm h => congrArg _ (runJ_ok h rfl),
    fun s k d w h => congrArg _ (runJ_ok h rfl),
    fun s k d w v h hd => congrArg _ (put_passes h (by
      rw [begun_dr, hd, val32_tagged]; exact if_pos (tag4_tagged 1 v))),
    fun s k d w v h hd ht => congrArg _ (put_traps h (by rw [begun_dr, hd, if_neg ht])),
    ?_, ?_, ?_⟩
  · rintro v x rfl
    exact movw_movt_movt v
  · intro s k d short v h hm ht
    have hw : (s.scull k).begun.local ((s.scull k).dpg.toNat * 256 + short.toNat) = v := hm
    rw [exec_ldl_plain, put_passes h (by rw [hw, loadWord_plain ht])]
  · intro s k hw
    simp only [List.mem_cons, List.not_mem_nil, or_false] at hw
    rcases hw with hw | hw <;> rw [hw] <;> decide

/-! ### Tags -/

theorem tagged_toNat (u : BitVec 4) (v : BitVec 32) : tagged u.toNat v = u ++ v := by
  rw [tagged, BitVec.ofNat_toNat, BitVec.setWidth_eq]

theorem tag4_append (u : BitVec 4) (v : BitVec 32) : tag4 (u ++ v) = u := by
  rw [← tagged_toNat, tag4_tagged, BitVec.ofNat_toNat, BitVec.setWidth_eq]

theorem val32_append (u : BitVec 4) (v : BitVec 32) : val32 (u ++ v) = v := by
  rw [← tagged_toNat, val32_tagged]

/-- The plain tags are NIL, INT, BYTES, PAIR, TICKS and ERR. -/
theorem plainTag_iff (t : BitVec 4) : plainTag t = true ↔ t.toNat ∈ [0, 1, 2, 3, 7, 14] := by
  revert t
  decide

/-- Settles O44: RETAG by the two tags being plain, and the words that GETTAG, AOFF and AREM read. -/
theorem tagsAreReadAndReplaced : Obligations.TagsAreReadAndReplaced := by
  refine ⟨?_, ?_, ?_, ?_, ?_, ?_⟩
  · intro s k d t u v h hd hu ht
    refine congrArg _ (put_passes h ?_)
    rw [begun_dr, hd, tag4_append, val32_append, tagged_toNat]
    exact if_pos ⟨(plainTag_iff t).mpr ht, (plainTag_iff u).mpr hu⟩
  · intro s k d t u v h hd htags
    refine congrArg _ (put_traps h ?_)
    rw [begun_dr, hd, tag4_append]
    exact if_neg fun ⟨ht, hu⟩ => htags ⟨(plainTag_iff u).mp hu, (plainTag_iff t).mp ht⟩
  · intro s k d r u v h hr
    exact congrArg _ (runJ_ok h (by rw [begun_dr, hr, tag4_append]; rfl))
  · intro s k d a p h ha
    exact congrArg _ (runJ_ok h (by rw [begun_ar, ha]; rfl))
  · intro s k d a p e h ha he
    exact congrArg _ (runJ_ok h (by rw [begun_ar, ha, need, begun_entry, he]; rfl))
  · intro s k d a h ha
    exact congrArg _ (runJ_trap h (by rw [begun_ar, ha]; rfl))

/-! ### Jumps, calls and CODE words -/

/-- Settles O47: a target below PL is taken or made a CODE, and one of PL or above traps; JMPR and SETIV by the tag of their register. -/
theorem jumpsCallsAndCodeWords : Obligations.JumpsCallsAndCodeWords := by
  refine ⟨?_, ?_, ?_, ?_, ?_, ?_, ?_, ?_, ?_, ?_⟩
  · intro s k w h hw
    exact congrArg _ (runJ_jump h (if_neg (Nat.not_le_of_lt hw)))
  · intro s k d w h hw
    exact congrArg _ (runJ_jump h (if_neg (Nat.not_le_of_lt hw)))
  · intro s k d w h hw hpl
    have hc : codeWord w.toNat = mkWord 5 w.toNat := by rw [codeWord, Nat.mod_eq_of_lt (by omega)]
    exact congrArg _ (runJ_ok h (by rw [hc]; exact if_neg (Nat.not_le_of_lt hw)))
  · intro s k w h hw
    exact congrArg _ (runJ_trap h (if_pos hw))
  · intro s k d w h hw
    exact congrArg _ (runJ_trap h (if_pos hw))
  · intro s k d w h hw
    exact congrArg _ (runJ_trap h (if_pos hw))
  · intro s k n r w h hr ht hn
    have hf : field w.toNat 12 0 = n := by rw [← hn, field, Nat.pow_zero, Nat.div_one]
    exact congrArg _ (runJ_jump h (by rw [begun_dr, hr, hf]; exact if_pos ht))
  · intro s k r w h hr ht
    exact congrArg _ (runJ_ok h (by rw [begun_dr, hr]; exact if_pos ht))
  · intro s k r w h hr ht
    exact congrArg _ (runJ_trap h (by rw [begun_dr, hr, if_neg ht]))
  · intro s k r w h hr ht
    exact congrArg _ (runJ_trap h (by rw [begun_dr, hr, if_neg ht]))

end Sys2Proof.Machine
end

section
/-! PROOFS. The invariants of every step, and how a step takes a command from the queue: each command keeps what the lemma of its own
meaning says it keeps (`exec_kept`), and the statements read this off. -/

open Sys2Proof

namespace Sys2Proof.Machine

/-- Every command keeps the state sound and takes nothing back: by cases over the commands, each by the lemma of its own meaning. -/
theorem exec_kept {o s : State} (h : Kept o s) (c : Instr) : KeptBy o (exec c s) := by
  cases c <;> simp [exec, h]

/-- The queue of waiting commands says nothing of soundness. -/
theorem sound_dequeue {s : State} (h : s.Sound) (cs : List Instr) : State.Sound { s with pending := cs } :=
  ⟨h.dram, h.spl, h.queue, h.retention⟩

/-- With a command at the front of the queue, a step is that command's effect on the rest. -/
theorem step_cons {s : State} {c : Instr} {cs : List Instr} (h : s.pending = c :: cs) : step s = exec c { s with pending := cs } := by
  rw [step, h]

/-- On an empty queue a step changes nothing. -/
theorem step_nil {s : State} (h : s.pending = []) : step s = .next s := by
  rw [step, h]

/-- Settles O2: a step idles, or runs a command, and every command keeps a sound state sound. -/
theorem everyStepKeepsSound : Obligations.EveryStepKeepsSound := by
  intro s t hs ht
  cases hp : s.pending with
  | nil =>
    rw [step_nil hp] at ht
    cases ht
    exact hs
  | cons c cs =>
    rw [step_cons hp] at ht
    exact (exec_kept (Kept.start (sound_dequeue hs cs)) c t ht).2

/-- Settles O3: what `exec_kept` says of the state that a command is run on. -/
theorem everyCommandHoldsItsPromises : Obligations.EveryCommandHoldsItsPromises :=
  fun c _ t hs ht => (exec_kept (Kept.start hs) c t ht).1

/-- Settles O1: after reset the memories and the recorder are empty. -/
theorem resetIsSound : Obligations.ResetIsSound :=
  ⟨rfl, rfl, Nat.zero_le _, Nat.zero_le _⟩

/-- Settles O4. -/
theorem stepRunsTheFrontCommand : Obligations.StepRunsTheFrontCommand := fun _ _ _ h => step_cons h

/-- Settles O5. -/
theorem emptyQueueIdles : Obligations.EmptyQueueIdles := fun _ h => step_nil h

end Sys2Proof.Machine
end

section
/-! PROOFS. The sculls' special registers, accumulator control and branches (R458, R471, R476): what each register reads, and when each
branch is taken. -/

open Sys2Proof

namespace Sys2Proof.Machine

/-! ### Special registers and accumulator control -/

/-- An arithmetic shift right divides by a power of two, rounding down. -/
theorem sshiftRight_eq_ofInt {w : Nat} (v : BitVec w) (n : Nat) : v.sshiftRight n = BitVec.ofInt w (v.toInt / 2 ^ n) := by
  rw [BitVec.sshiftRight, Int.shiftRight_eq_div_pow]
  norm_cast

/-- The low byte of a word is the low byte of its value. -/
theorem setWidth_byte_tagged (t : Nat) (v : BitVec 32) : (tagged t v).setWidth 8 = v.setWidth 8 := by
  rw [tagged, ← BitVec.setWidth_setWidth_of_le (l := 32) (BitVec.ofNat 4 t ++ v) (by decide), BitVec.setWidth_append_eq_right]

/-- Settles O45: each special register by its code, SETXPG by the tag and the range of its operand. -/
theorem specialRegistersAndAccumulatorControl : Obligations.SpecialRegistersAndAccumulatorControl := by
  refine ⟨
    -- RDSPR: NPC, DPG, XPG, RC, IVEC, IRET, SCULL_ID, CYCLES, BUDGET_LEFT and STATUS
    fun s k d h => congrArg _ (runJ_ok h rfl),
    fun s k d h => congrArg _ (runJ_ok h rfl),
    fun s k d h => congrArg _ (runJ_ok h rfl),
    fun s k d h => congrArg _ (runJ_ok h rfl),
    fun s k d h => congrArg _ (runJ_ok h rfl),
    fun s k d h => congrArg _ (runJ_ok h rfl),
    fun s k d h => congrArg _ (runJ_ok h rfl),
    fun s k d h => congrArg _ (runJ_ok h rfl),
    fun s k d h => congrArg _ (runJ_ok h rfl),
    fun s k d h => congrArg _ (runJ_ok h rfl),
    -- ACSHR, ACCLR and SETDPG
    fun s k x n v h hv => congrArg _ (runJ_ok h (by rw [begun_acc, hv, sshiftRight_eq_ofInt])),
    fun s k x h => congrArg _ (runJ_ok h rfl),
    fun s k page h => congrArg _ (runJ_ok h rfl),
    -- SETXPG
    fun s k r v h hr hv => congrArg _ (runJ_ok h (by
      simp [hr, Nat.not_lt_of_le hv, setWidth_byte_tagged])),
    fun s k r v h hr hv => congrArg _ (runJ_trap h (by simp [hr, hv])),
    fun s k r w h hr ht => congrArg _ (runJ_trap h (by rw [begun_dr, hr, if_pos ht])),
    -- NOP and TRAP
    fun s k h => congrArg _ (runJ_ok h rfl),
    fun s k n h => congrArg _ (runJ_trap h rfl)⟩

/-! ### Branches against zero -/

section

variable {s : State} {k t : Nat} {op : JOp} {d r : BitVec 3} {w : BitVec 14} {v x y : BitVec 32} {a b : TWord}

/-- A branch against zero of an INT or TICKS word is taken when its test says so. -/
theorem zeroBranch_tested (off : BitVec 5) (p : BitVec 32 → Bool) {c : Prop} [Decidable c] (h : s.nextIs k op = true) (ht : t = 1 ∨ t = 7)
    (hd : (s.scull k).dr d = tagged t v) (hp : p v = true ↔ c) :
    s.zeroBranch k op d off p = .next (if c then s.jumped k 2 ((s.scull k).pc.toNat + 1 + off.toInt) (s.scull k).begun
      else s.passed k 1 (s.scull k).begun) := by
  have htag : tag4 (tagged t v) = 1 ∨ tag4 (tagged t v) = 7 := by rcases ht with rfl | rfl <;> simp
  by_cases hc : c
  · rw [if_pos hc]
    exact congrArg _ (runJ_jump h (by simp only [begun_dr, hd, htag, val32_tagged, hp.mpr hc, if_true, begun_pc]))
  · rw [if_neg hc]
    exact congrArg _ (runJ_ok h (by
      simp only [begun_dr, hd, htag, val32_tagged, mt hp.mp hc, Bool.false_eq_true, if_true, if_false]))

/-- A branch against zero of any other word traps. -/
theorem zeroBranch_mismatch (off : BitVec 5) (p : BitVec 32 → Bool) (h : s.nextIs k op = true) (hd : (s.scull k).dr d = a) (h1 : tag4 a ≠ 1)
    (h7 : tag4 a ≠ 7) : s.zeroBranch k op d off p = .next (s.trapAt k .tagMismatch (s.scull k).pc.toNat) :=
  congrArg _ (runJ_trap h (by simp only [begun_dr, hd, h1, h7, or_self, if_false]))

theorem beq_zero_iff (v : BitVec 32) : (v == 0) = true ↔ v.toInt = 0 := by
  rw [beq_iff_eq, ← BitVec.toInt_inj]; rfl

theorem bne_zero_iff (v : BitVec 32) : (v != 0) = true ↔ v.toInt ≠ 0 := by
  rw [bne_iff_ne, ne_eq, ← BitVec.toInt_inj]; rfl

theorem msb_iff (v : BitVec 32) : v.msb = true ↔ v.toInt < 0 := by
  rw [BitVec.msb_eq_toInt]; exact decide_eq_true_iff

theorem not_msb_iff (v : BitVec 32) : (!v.msb) = true ↔ 0 ≤ v.toInt := by
  rw [Bool.not_eq_true', ← Bool.not_eq_true, msb_iff, Int.not_lt]

/-! ### Branches of two words -/

/-- A two-word branch goes to its target when it is taken, and past it when it is not. -/
theorem branch_tested {f : Scull → Ran} {taken : Bool} {c : Prop} [Decidable c] (h : s.nextIs k op = true)
    (hf : f (s.scull k).begun = (s.scull k).begun.branch w taken) (hc : taken = true ↔ c) :
    s.runJ k 0 op f = if c then s.jumped k 3 ((s.scull k).pc.toNat + 2 + w.toInt) (s.scull k).begun
      else s.passed k 2 (s.scull k).begun := by
  by_cases h0 : c
  · rw [if_pos h0]
    exact runJ_jump h (by rw [hf, hc.mpr h0]; rfl)
  · rw [if_neg h0]
    exact runJ_ok h (by rw [hf, Bool.eq_false_iff.mpr (mt hc.mp h0)]; rfl)

/-- A compare-and-branch whose comparison answers is taken when it answers what is wanted. -/
theorem cmpBranch_tested {f : TWord → TWord → Option Bool} {want g : Bool} {c : Prop} [Decidable c] (h : s.nextIs k op = true)
    (hd : (s.scull k).dr d = a) (hr : (s.scull k).dr r = b) (hf : f a b = some g) (hc : (g == want) = true ↔ c) :
    s.cmpBranch k op d r w want f = .next (if c then s.jumped k 3 ((s.scull k).pc.toNat + 2 + w.toInt) (s.scull k).begun
      else s.passed k 2 (s.scull k).begun) :=
  congrArg _ (branch_tested h (by rw [begun_dr, begun_dr, hd, hr, hf]; rfl) hc)

/-- A compare-and-branch of words that do not compare traps. -/
theorem cmpBranch_mismatch {f : TWord → TWord → Option Bool} {want : Bool} (h : s.nextIs k op = true) (hd : (s.scull k).dr d = a)
    (hr : (s.scull k).dr r = b) (hf : f a b = none) :
    s.cmpBranch k op d r w want f = .next (s.trapAt k .tagMismatch (s.scull k).pc.toNat) :=
  congrArg _ (runJ_trap h (by rw [begun_dr, begun_dr, hd, hr, hf]; rfl))

theorem eqTags_plain (ht : t ∈ [0, 1, 2, 3, 7, 14]) : eqTags (tagged t x) (tagged t y) = some (x == y) := by
  have hp : plainTag (BitVec.ofNat 4 t) = true := by
    simp only [List.mem_cons, List.not_mem_nil, or_false] at ht
    rcases ht with rfl | rfl | rfl | rfl | rfl | rfl <;> rfl
  simp [eqTags, hp]

theorem eqTags_none (h : ¬ (tag4 a = tag4 b ∧ (tag4 a).toNat ∈ [0, 1, 2, 3, 7, 14])) : eqTags a b = none :=
  if_neg fun ⟨he, hp⟩ => h ⟨he, (plainTag_iff _).mp hp⟩

theorem ltTags_int : ltTags (tagged 1 x) (tagged 1 y) = some (x.slt y) := by simp [ltTags]

theorem ltTags_ticks : ltTags (tagged 7 x) (tagged 7 y) = some (x - y).msb := by simp [ltTags]

theorem ltTags_none (h : ¬ (tag4 a = 1 ∧ tag4 b = 1 ∨ tag4 a = 7 ∧ tag4 b = 7)) : ltTags a b = none := by
  rw [ltTags, if_neg fun hi => h (.inl hi), if_neg fun ht => h (.inr ht)]

theorem ltuTags_int : ltuTags (tagged 1 x) (tagged 1 y) = some (x.ult y) := by simp [ltuTags]

theorem ltuTags_none (h : ¬ (tag4 a = 1 ∧ tag4 b = 1)) : ltuTags a b = none := if_neg h

/-- A difference of ticks is negative from 2^31 on. -/
theorem msb_sub_iff : (x - y).msb = true ↔ 2 ^ 31 ≤ (x - y).toNat := by
  rw [BitVec.msb_eq_decide]; exact decide_eq_true_iff

end

/-- Settles O46: each branch by the test it names and by the tags it takes. -/
theorem branchesTestWhatTheyName : Obligations.BranchesTestWhatTheyName := by
  refine ⟨
    -- BEQZ, BNEZ, BLTZ and BGEZ
    fun s k t d off v h ht hd => zeroBranch_tested off (· == 0) h ht hd (beq_zero_iff v),
    fun s k d off w h hd h1 h7 => zeroBranch_mismatch off (· == 0) h hd h1 h7,
    fun s k t d off v h ht hd => zeroBranch_tested off (· != 0) h ht hd (bne_zero_iff v),
    fun s k d off w h hd h1 h7 => zeroBranch_mismatch off (· != 0) h hd h1 h7,
    fun s k t d off v h ht hd => zeroBranch_tested off (·.msb) h ht hd (msb_iff v),
    fun s k d off w h hd h1 h7 => zeroBranch_mismatch off (·.msb) h hd h1 h7,
    fun s k t d off v h ht hd => zeroBranch_tested off (!·.msb) h ht hd (not_msb_iff v),
    fun s k d off w h hd h1 h7 => zeroBranch_mismatch off (!·.msb) h hd h1 h7,
    -- BEQ and BNE
    fun s k t d r w x y h ht hd hr => cmpBranch_tested h hd hr (eqTags_plain ht) (by simp),
    fun s k t d r w x y h ht hd hr => cmpBranch_tested h hd hr (eqTags_plain ht) (by simp),
    -- BLT, BGE, BLTU and BGEU of INT words
    fun s k d r w x y h hd hr => cmpBranch_tested h hd hr ltTags_int (by simp [BitVec.slt_iff_toInt_lt]),
    fun s k d r w x y h hd hr => cmpBranch_tested h hd hr ltTags_int (by simp [BitVec.slt_eq_decide]),
    fun s k d r w x y h hd hr => cmpBranch_tested h hd hr ltuTags_int (by simp [BitVec.ult_eq_decide]),
    fun s k d r w x y h hd hr => cmpBranch_tested h hd hr ltuTags_int (by simp [BitVec.ult_eq_decide]),
    -- BLT and BGE of TICKS words
    fun s k d r w x y h hd hr => cmpBranch_tested h hd hr ltTags_ticks (by rw [beq_true, msb_sub_iff]),
    fun s k d r w x y h hd hr => cmpBranch_tested h hd hr ltTags_ticks (by
      rw [beq_false, Bool.not_eq_true', ← Bool.not_eq_true, msb_sub_iff, Nat.not_le]),
    -- words that do not compare
    fun s k d r w x y h hd hr ht => cmpBranch_mismatch h hd hr (eqTags_none ht),
    fun s k d r w x y h hd hr ht => cmpBranch_mismatch h hd hr (eqTags_none ht),
    fun s k d r w x y h hd hr ht => cmpBranch_mismatch h hd hr (ltTags_none ht),
    fun s k d r w x y h hd hr ht => cmpBranch_mismatch h hd hr (ltTags_none ht),
    fun s k d r w x y h hd hr ht => cmpBranch_mismatch h hd hr (ltuTags_none ht),
    fun s k d r w x y h hd hr ht => cmpBranch_mismatch h hd hr (ltuTags_none ht),
    -- BTEQ, BTNE and BRDY
    fun s k t d w v h hd => congrArg _ (branch_tested h (by rw [begun_dr, hd]) beq_iff_eq),
    fun s k t d w v h hd => congrArg _ (branch_tested h (by rw [begun_dr, hd]) bne_iff_ne),
    fun s k p w h hp => congrArg _ (branch_tested h (if_neg (Nat.not_le_of_lt hp)) ?_),
    fun s k p w h hp => congrArg _ (branch_tested h (if_neg (Nat.not_le_of_lt hp)) Iff.rfl),
    fun s k g p w h hp => congrArg _ (runJ_trap h (if_pos hp))⟩
  rw [if_neg (by decide), Scull.recvReady]
  split <;> simp_all

end Sys2Proof.Machine
end

section
/-! PROOFS. The sculls' loads and stores (R463 to R467, R475): what a load takes, the four checks of an access through a PTR, and the
statements about direct accesses and accesses through windows. -/

open Sys2Proof

namespace Sys2Proof.Machine

/-! ### Words as a load and a store take them -/

theorem loadWord_poison {v : TWord} (h : tag4 v = 15) : loadWord false v = .error .poisonUse := by
  rw [loadWord, if_neg Bool.false_ne_true, if_pos h]

theorem loadWord_reserved {v : TWord} (h : 8 ≤ (tag4 v).toNat ∧ (tag4 v).toNat ≤ 13) : loadWord false v = .error .reservedTag := by
  have hp : tag4 v ≠ 0xF := fun e => absurd h.2 (by rw [e]; decide)
  rw [loadWord, if_neg Bool.false_ne_true, if_neg hp, if_pos h]

/-- PTR, CODE and KEY are the words that may not leave (R466). -/
theorem isCap_iff (v : TWord) : isCap v = true ↔ (tag4 v).toNat ∈ [4, 5, 6] := by
  rw [isCap]
  generalize tag4 v = t
  revert t
  decide

theorem not_isCap {v : TWord} (h : (tag4 v).toNat ∉ [4, 5, 6]) : isCap v = false :=
  Bool.eq_false_iff.mpr (mt (isCap_iff v).mp h)

/-- A load into Dd without a record of an uncorrectable word. -/
theorem exec_ldx_plain (s : State) (k w : Nat) (d : BitVec 3) (short : BitVec 8) :
    exec (.ldx k w d short false) s = .next (s.runJ k 0 (.ldx d short) (fun c =>
      if !c.pageOk (s.scull k).xpg.toNat then .trap .sharedRights
      else c.put d (3 + w) (loadWord false (s.sharedWord k ((s.scull k).xpg.toNat * 256 + short.toNat))))) :=
  congrArg Host.Outcome.next (if_neg fun hue => Bool.false_ne_true hue.1)

section

variable {s : State} {k w : Nat} {d r : BitVec 3} {short : BitVec 8} {v : TWord} {t : Trap}

/-- LDL of a word that a load does not take traps. -/
theorem ldl_traps (h : s.nextIs k (.ldl d short) = true)
    (hv : Mem.get poison (s.scull k).mem ((s.scull k).dpg.toNat * 256 + short.toNat) = v) (ht : loadWord false v = .error t) :
    exec (.ldl k d short false) s = .next (s.trapAt k t (s.scull k).pc.toNat) := by
  have hw : (s.scull k).begun.local ((s.scull k).dpg.toNat * 256 + short.toNat) = v := hv
  rw [exec_ldl_plain, put_traps h (by rw [hw, ht])]

/-- LDX of a page the scull may use loads the word. -/
theorem ldx_loads (h : s.nextIs k (.ldx d short) = true) (hp : (s.scull k).pageOk (s.scull k).xpg.toNat = true)
    (hv : Mem.get poison s.sca.shared (eightOf k * 65536 + ((s.scull k).xpg.toNat * 256 + short.toNat)) = v) :
    exec (.ldx k w d short false) s = .next (match loadWord false v with
      | .ok z => s.passed k (3 + w) ((s.scull k).begun.setD d z)
      | .error t => s.trapAt k t (s.scull k).pc.toNat) := by
  have hb : (s.scull k).begun.pageOk (s.scull k).xpg.toNat = true := hp
  have hw : s.sharedWord k ((s.scull k).xpg.toNat * 256 + short.toNat) = v := hv
  rw [exec_ldx_plain]
  cases hl : loadWord false v with
  | ok z => exact congrArg _ (runJ_ok h (by rw [hb, hw, hl]; rfl))
  | error t => exact congrArg _ (runJ_trap h (by rw [hb, hw, hl]; rfl))

end

/-- Settles O48: a load by the word it takes, a store by the word and the page, and the two memories by the laws of their tables. -/
theorem directAccessesReachLocalAndSharedWords : Obligations.DirectAccessesReachLocalAndSharedWords := by
  refine ⟨?_, fun s k d short v h hv ht => ldl_traps h hv (loadWord_poison ht), ?_,
    fun s k d short v h hv ht => ldl_traps h hv (loadWord_reserved ht), ?_, ?_, ?_, ?_, ?_, ?_, ?_, ?_, ?_, ?_⟩
  · intro s k d short v h hv ht
    have hw : (s.scull k).begun.local ((s.scull k).dpg.toNat * 256 + short.toNat) = v := hv
    rw [exec_ldl_plain, put_passes h (by rw [hw, loadWord_plain ht])]
  · intro w s k d short v h hp hv ht
    rw [ldx_loads h hp hv, loadWord_poison ht]
  · intro w s k d short v h hp hv ht
    rw [ldx_loads h hp hv, loadWord_reserved ht]
  · intro s k d short h
    refine congrArg Host.Outcome.next ((if_pos ⟨rfl, h⟩).trans ?_)
    rw [put_traps h rfl]
  · intro s k r short v h hr
    exact congrArg _ (runJ_ok h (by rw [begun_dr, hr]; rfl))
  · intro w s k d short v h hp hv ht
    rw [ldx_loads h hp hv, loadWord_plain ht]
  · intro w s k d short ue h hp
    have hb : (s.scull k).begun.pageOk (s.scull k).xpg.toNat = false := hp
    have hn : ¬ (ue = true ∧ s.nextIs k (.ldx d short) = true ∧ (s.scull k).pageOk (s.scull k).xpg.toNat = true) :=
      fun hue => Bool.false_ne_true (hp.symm.trans hue.2.2)
    exact congrArg Host.Outcome.next ((if_neg hn).trans (runJ_trap h (by rw [hb]; rfl)))
  · intro w s k r short v h hr ht hp
    have hb : (s.scull k).begun.pageOk (s.scull k).begun.xpg.toNat = true := hp
    exact congrArg _ (runJ_store h (by rw [begun_dr, hr, not_isCap ht, hb]; rfl))
  · intro w s k r short v h hr ht
    exact congrArg _ (runJ_trap h (if_pos (by rw [begun_dr, hr, isCap_iff]; exact ht)))
  · intro w s k r short h hr hp
    have hb : (s.scull k).begun.pageOk (s.scull k).begun.xpg.toNat = false := hp
    exact congrArg _ (runJ_trap h (by rw [begun_dr, hr, hb]; rfl))
  · intro c a b v
    by_cases hb : b = a
    · rw [if_pos hb, hb]; exact Mem.get_set_self _ _ _ _
    · rw [if_neg hb]; exact Mem.get_set_other _ _ _ hb
  · intro s k a b v
    by_cases hb : b = a
    · rw [if_pos hb, hb]; exact Mem.get_set_self _ _ _ _
    · rw [if_neg hb]; exact Mem.get_set_other _ _ _ (by omega)

/-! ### The four checks of an access through a PTR (R463) -/

section

variable {c : Scull} {p v : TWord} {u kind n : Nat} {wr : Bool} {e : Win}

/-- The right that an access asks of a window. -/
def Win.allows (e : Win) (wr : Bool) : Bool := if wr then e.w else e.r

theorem access_none (h : c.entry p = none) : c.access p u wr = .error .staleWindow := by
  rw [Scull.access, h]

/-- An access through a live entry runs the other three checks in order. -/
theorem access_some (h : c.entry p = some e) : c.access p u wr =
    if 2 ≤ e.kind then .error .windowKind else if e.allows wr = false then .error .windowRights
    else if e.len ≤ ptrOff p + u then .error .windowBounds else .ok (e.kind, e.base + ptrOff p + u) := by
  rw [Scull.access, h]
  cases wr <;> simp [Win.allows]

/-- What an access that passes its checks has found. -/
theorem access_ok (h : c.access p u wr = .ok (kind, n)) : ∃ e, c.entry p = some e ∧ e.kind = kind ∧ ptrOff p + u < e.len := by
  cases he : c.entry p with
  | none => rw [access_none he] at h; cases h
  | some e =>
    rw [access_some he] at h
    split at h
    · cases h
    split at h
    · cases h
    split at h
    · cases h
    · next hlen =>
      injection h with h
      injection h with hk
      exact ⟨e, rfl, hk, Nat.lt_of_not_le hlen⟩

/-- A word other than a KEY goes through a local window. -/
theorem escapes_local (h : c.access p u wr = .ok (0, n)) (hv : tag4 v ≠ 6) : c.escapes p v = false := by
  obtain ⟨e, he, hk, -⟩ := access_ok h
  simpa [Scull.escapes, he, hk] using hv

/-- A word other than a PTR, CODE or KEY goes through a shared window. -/
theorem escapes_shared (h : c.access p u wr = .ok (1, n)) (hv : (tag4 v).toNat ∉ [4, 5, 6]) : c.escapes p v = false := by
  obtain ⟨e, he, hk, -⟩ := access_ok h
  simp [Scull.escapes, he, hk, not_isCap hv]

/-- A PTR within its window moves on by one word. -/
theorem movePtr_one (hl : ptrOff p < e.len) (ho : ptrOff p + 1 ≤ 1048575) :
    movePtr e p 1 = some (mkPtr (ptrInc p) (ptrIndex p) (ptrOff p + 1)) := by
  have hn : ((ptrOff p : Int) + 1).toNat = ptrOff p + 1 := by omega
  have hb : (0 : Int) ≤ ptrOff p + 1 ∧ (ptrOff p : Int) + 1 ≤ Nat.min e.len 1048575 := by
    refine ⟨by omega, ?_⟩
    have : ptrOff p + 1 ≤ Nat.min e.len 1048575 := Nat.le_min.mpr ⟨hl, ho⟩
    omega
  simp only [movePtr, hn, if_pos hb]

end

/-! ### Loads and stores through windows -/

section

variable {s s1 : State} {k w n m : Nat} {d r : BitVec 3} {a u ka : BitVec 2} {p v : TWord} {kind : Nat} {op : JOp}

/-- A shared window reads the memory of the Eight. -/
theorem readAt_shared (s : State) (k : Nat) (c : Scull) (n : Nat) : s.readAt k c (1, n) = s.sharedWord k n := if_neg Nat.one_ne_zero

/-- A local window reads the scull's own memory. -/
theorem readAt_local (s : State) (k : Nat) (c : Scull) (n : Nat) : s.readAt k c (0, n) = c.local n := if_pos rfl

/-- A load of a correctable word makes no record. -/
theorem loadVia_plain : s.loadVia s1 k op a n false = s1 := by
  simp only [State.loadVia, Bool.false_eq_true, false_and, if_false]
  split <;> rfl

/-- LD and LDA through an A register that holds no PTR make no record. -/
theorem loadVia_none {ue : Bool} (ha : (s.scull k).ar a = none) : s.loadVia s1 k op a n ue = s1 := by
  rw [State.loadVia, Scull.loadAddr, ha]

/-- LD of a word that a load takes. -/
theorem ld_loads (h : s.nextIs k (.ld d a u) = true) (ha : (s.scull k).ar a = some p)
    (hx : (s.scull k).access p u.toNat false = .ok (kind, n)) (hv : s.readAt k (s.scull k).begun (kind, n) = v)
    (ht : (tag4 v).toNat ∉ [8, 9, 10, 11, 12, 13, 15])
    (hm : accessCycles kind w = m) :
    exec (.ld k w d a u false) s = .next (s.passed k m ((s.scull k).begun.setD d v)) :=
  congrArg Host.Outcome.next (loadVia_plain.trans (runJ_ok h (by
    simp only [← hm, begun_ar, ha, need, begun_access, hx, hv, loadWord_plain ht, Scull.put])))

/-- LDA of a PTR. -/
theorem lda_loads (h : s.nextIs k (.lda ka a u) = true) (ha : (s.scull k).ar a = some p)
    (hx : (s.scull k).access p u.toNat false = .ok (kind, n)) (hv : s.readAt k (s.scull k).begun (kind, n) = v) (ht : tag4 v = 4)
    (hm : accessCycles kind w = m) :
    exec (.lda k w ka a u false) s = .next (s.passed k m ((s.scull k).begun.setA ka v)) := by
  have hl : loadWord false v = .ok v := loadWord_plain (by rw [ht]; decide)
  exact congrArg Host.Outcome.next (loadVia_plain.trans (runJ_ok h (by
    simp only [← hm, begun_ar, ha, need, begun_access, hx, hv, hl, ht, if_true])))

/-- LDP of a word that a load takes, which moves its PTR on. -/
theorem ldp_loads {e : Win} (h : s.nextIs k (.ldp d a) = true) (ha : (s.scull k).ar a = some p)
    (hx : (s.scull k).access p 0 false = .ok (kind, n)) (hv : s.readAt k (s.scull k).begun (kind, n) = v)
    (ht : (tag4 v).toNat ∉ [8, 9, 10, 11, 12, 13, 15]) (he : (s.scull k).entry p = some e) (ho : ptrOff p + 1 ≤ 1048575)
    (hm : accessCycles kind w = m) :
    exec (.ldp k w d a false) s = .next (s.passed k m
      (((s.scull k).begun.setA a (mkPtr (ptrInc p) (ptrIndex p) (ptrOff p + 1))).setD d v)) := by
  obtain ⟨e', he', -, hl⟩ := access_ok hx
  cases he.symm.trans he'
  exact congrArg Host.Outcome.next (loadVia_plain.trans (runJ_ok h (by
    simp only [← hm, begun_ar, ha, need, begun_access, begun_entry, hx, he, hv, loadWord_plain ht, movePtr_one hl ho])))

/-- An instruction that stores a word through a window of a kind: into local memory, or into the shared memory of the Eight. -/
theorem runJ_storeAt {f : Scull → Ran} {c1 : Scull} (h : s.nextIs k op = true) (hf : f (s.scull k).begun = c1.storeAt (kind, n) w v) :
    s.runJ k 0 op f = if kind = 0 then s.passed k 2 (c1.setLocal n v) else (s.passed k (4 + w) c1).storeShared k n v := by
  by_cases hk : kind = 0
  · rw [if_pos hk, runJ_ok h (hf.trans (if_pos hk))]
  · rw [if_neg hk, runJ_store h (hf.trans (if_neg hk))]
    rfl

/-- ST of a word that may go through the window. -/
theorem st_stores (h : s.nextIs k (.st r a u) = true) (ha : (s.scull k).ar a = some p)
    (hx : (s.scull k).access p u.toNat true = .ok (kind, n)) (hr : (s.scull k).dr r = v) (hc : (s.scull k).escapes p v = false) :
    exec (.st k w r a u) s = .next (if kind = 0 then s.passed k 2 ((s.scull k).begun.setLocal n v)
      else (s.passed k (4 + w) (s.scull k).begun).storeShared k n v) :=
  congrArg Host.Outcome.next (runJ_storeAt h (by
    simp only [begun_ar, begun_dr, begun_access, begun_escapes, ha, need, hr, hc, hx, Bool.false_eq_true, if_false]))

/-- STP of a word that may go through the window, which moves its PTR on. -/
theorem stp_stores {e : Win} (h : s.nextIs k (.stp r a) = true) (ha : (s.scull k).ar a = some p)
    (hx : (s.scull k).access p 0 true = .ok (kind, n)) (hr : (s.scull k).dr r = v) (hc : (s.scull k).escapes p v = false)
    (he : (s.scull k).entry p = some e) (ho : ptrOff p + 1 ≤ 1048575) :
    exec (.stp k w r a) s = .next (
      if kind = 0 then s.passed k 2 (((s.scull k).begun.setA a (mkPtr (ptrInc p) (ptrIndex p) (ptrOff p + 1))).setLocal n v)
      else (s.passed k (4 + w) ((s.scull k).begun.setA a (mkPtr (ptrInc p) (ptrIndex p) (ptrOff p + 1)))).storeShared k n v) := by
  obtain ⟨e', he', -, hl⟩ := access_ok hx
  cases he.symm.trans he'
  exact congrArg Host.Outcome.next (runJ_storeAt h (by
    simp only [begun_ar, begun_dr, begun_access, begun_escapes, begun_entry, ha, need, hr, hc, hx, he, movePtr_one hl ho,
      Bool.false_eq_true, if_false]))

/-- STA of a PTR that may go through the window. -/
theorem sta_stores (h : s.nextIs k (.sta ka a u) = true) (ha : (s.scull k).ar a = some p) (hk : (s.scull k).ar ka = some v)
    (hx : (s.scull k).access p u.toNat true = .ok (kind, n)) (hc : (s.scull k).escapes p v = false) :
    exec (.sta k w ka a u) s = .next (if kind = 0 then s.passed k 2 ((s.scull k).begun.setLocal n v)
      else (s.passed k (4 + w) (s.scull k).begun).storeShared k n v) :=
  congrArg Host.Outcome.next (runJ_storeAt h (by
    simp only [begun_ar, begun_access, begun_escapes, ha, need, hk, hc, hx, Bool.false_eq_true, if_false]))

end

/-- Settles O49: the checks in their order by `access_some`, and each load and store by what it does once they have passed. -/
theorem windowAccessesRunTheirFourChecks : Obligations.WindowAccessesRunTheirFourChecks := by
  refine ⟨
    -- the checks of a load
    fun c p u h => access_none h,
    fun c p u e h hk => by rw [access_some h, if_pos hk],
    fun c p u e h hk hr => by rw [access_some h, if_neg (Nat.not_le_of_lt hk), if_pos (show e.allows false = false from hr)],
    fun c p u e h hk hr hl => by
      rw [access_some h, if_neg (Nat.not_le_of_lt hk), if_neg (by simp [Win.allows, hr]), if_pos hl],
    fun c p u e h hk hr hl => by
      rw [access_some h, if_neg (Nat.not_le_of_lt hk), if_neg (by simp [Win.allows, hr]), if_neg (Nat.not_le_of_lt hl)],
    -- the checks of a store
    fun c p u h => access_none h,
    fun c p u e h hk => by rw [access_some h, if_pos hk],
    fun c p u e h hk hw => by rw [access_some h, if_neg (Nat.not_le_of_lt hk), if_pos (show e.allows true = false from hw)],
    fun c p u e h hk hw hl => by
      rw [access_some h, if_neg (Nat.not_le_of_lt hk), if_neg (by simp [Win.allows, hw]), if_pos hl],
    fun c p u e h hk hw hl => by
      rw [access_some h, if_neg (Nat.not_le_of_lt hk), if_neg (by simp [Win.allows, hw]), if_neg (Nat.not_le_of_lt hl)],
    -- through a local window
    fun w s k n d a u p v h ha hx hv ht => ld_loads h ha hx ((readAt_local _ _ _ _).trans hv) ht rfl,
    fun w s k n ka a u p v h ha hx hv ht => lda_loads h ha hx ((readAt_local _ _ _ _).trans hv) ht rfl,
    fun w s k n d a p v e h ha hx hv ht he ho => ldp_loads h ha hx ((readAt_local _ _ _ _).trans hv) ht he ho rfl,
    fun w s k n r a u p v h ha hx hr ht => st_stores h ha hx hr (escapes_local hx ht),
    fun w s k n r a p v e h ha hx hr ht he ho => stp_stores h ha hx hr (escapes_local hx ht) he ho,
    -- through a shared window
    fun w s k n d a u p v h ha hx hv ht => ld_loads h ha hx ((readAt_shared _ _ _ _).trans hv) ht rfl,
    fun w s k n ka a u p v h ha hx hv ht => lda_loads h ha hx ((readAt_shared _ _ _ _).trans hv) ht rfl,
    fun w s k n d a p v e h ha hx hv ht he ho => ldp_loads h ha hx ((readAt_shared _ _ _ _).trans hv) ht he ho rfl,
    fun w s k n r a u p v h ha hx hr ht => st_stores h ha hx hr (escapes_shared hx ht),
    fun w s k n r a p v e h ha hx hr ht he ho => stp_stores h ha hx hr (escapes_shared hx ht) he ho,
    -- STA, and accesses that trap
    fun w s k n ka a u p v h ha hk hx ht => sta_stores h ha hk hx (escapes_local hx (by rw [ht]; decide)),
    fun w s k ka a u p v e h ha hk he hkind ht => congrArg _ (runJ_trap h ?_),
    fun w s k d a u p t h ha hx => congrArg Host.Outcome.next (loadVia_plain.trans (runJ_trap h (by
      simp only [begun_ar, ha, need, begun_access, hx]))),
    fun w s k ka a u p t h ha hx => congrArg Host.Outcome.next (loadVia_plain.trans (runJ_trap h (by
      simp only [begun_ar, ha, need, begun_access, hx]))),
    fun w s k d a u ue h ha => congrArg Host.Outcome.next ((loadVia_none ha).trans (runJ_trap h (by rw [begun_ar, ha]; rfl)))⟩
  have hesc : (s.scull k).escapes p v = true := by
    have hc : isCap v = true := (isCap_iff v).mpr (by rw [ht]; decide)
    simp [Scull.escapes, he, hkind, hc]
  simp only [begun_ar, ha, hk, need, begun_escapes, hesc, if_true]

end Sys2Proof.Machine
end

section
/-! PROOFS. Pointers, derived windows and the repeated instruction (R464, R465, R478, R479, R495). -/

open Sys2Proof

namespace Sys2Proof.Machine

/-! ### Words made of a tag and a number -/

/-- A word made of a tag and a number is the tag before the number's low 32 bits. -/
theorem mkWord_eq_tagged (t n : Nat) : mkWord t n = tagged t (BitVec.ofNat 32 n) := by
  have hn : n % 2 ^ 32 < 2 ^ 32 := Nat.mod_lt _ (by decide)
  apply BitVec.eq_of_toNat_eq
  rw [mkWord, tagged, BitVec.toNat_append, BitVec.toNat_ofNat, BitVec.toNat_ofNat, BitVec.toNat_ofNat,
    ← Nat.shiftLeft_add_eq_or_of_lt hn, Nat.shiftLeft_eq]
  omega

theorem toInt_ofNat_of_lt {n : Nat} (h : n < 2 ^ 31) : (BitVec.ofNat 32 n).toInt = n := by
  rw [BitVec.toInt_eq_toNat_of_lt (by rw [BitVec.toNat_ofNat]; omega), BitVec.toNat_ofNat]
  omega

/-! ### Moving a PTR, and deriving a window -/

section

variable {e : Win} {p : TWord} {i n : Nat} {c : Scull} {a j : BitVec 2} {r w : Bool}

/-- A PTR moves within its window. -/
theorem movePtr_some {x : Int} (hn : (ptrOff p : Int) + x = n) (hl : n ≤ e.len) (ho : n ≤ 1048575) :
    movePtr e p x = some (mkPtr (ptrInc p) (ptrIndex p) n) := by
  have hm : n ≤ Nat.min e.len 1048575 := Nat.le_min.mpr ⟨hl, ho⟩
  have hb : (0 : Int) ≤ n ∧ (n : Int) ≤ Nat.min e.len 1048575 := by omega
  simp only [movePtr, hn, if_pos hb, Int.toNat_natCast]

/-- A PTR does not leave its window. -/
theorem movePtr_outside {x : Int} (h : (ptrOff p : Int) + x < 0 ∨ (e.len : Int) < ptrOff p + x ∨ 1048575 < ptrOff p + x) :
    movePtr e p x = none := by
  have hl : Nat.min e.len 1048575 ≤ e.len := Nat.min_le_left _ _
  have hr : Nat.min e.len 1048575 ≤ 1048575 := Nat.min_le_right _ _
  have hb : ¬ ((0 : Int) ≤ ptrOff p + x ∧ (ptrOff p : Int) + x ≤ Nat.min e.len 1048575) := by omega
  simp only [movePtr, if_neg hb]

theorem ar_setA_self (c : Scull) (a : BitVec 2) (q : TWord) : (c.setA a q).ar a = some q := Mem.get_set_self none c.a a.toNat (some q)

theorem ar_setA_other (c : Scull) (q : TWord) (h : j ≠ a) : (c.setA a q).ar j = c.ar j :=
  Mem.get_set_other none c.a (some q) fun hn => h (BitVec.eq_of_toNat_eq hn)

/-- The PTR to a derived window is left in its A register. -/
theorem ar_derive_self : (c.derive a p e n i r w).ar a = some (mkPtr (c.win i).inc.toNat i 0) := ar_setA_self _ _ _

/-- The other A registers are as they were. -/
theorem ar_derive_other (h : j ≠ a) : (c.derive a p e n i r w).ar j = c.ar j :=
  ar_setA_other _ _ h

/-- The entry of a derived window. -/
theorem win_derive_self : (c.derive a p e n i r w).win i =
    { e with r := r, w := w, derived := true, live := true, inc := (c.win i).inc, len := n, base := e.base + ptrOff p
             tagUnit := if e.kind = 3 then e.tagUnit + ptrOff p / 4096 else e.tagUnit } := Mem.get_set_self _ _ _ _

/-- The other entries are as they were. -/
theorem win_derive_other {k : Nat} (h : k ≠ i) : (c.derive a p e n i r w).win k = c.win k := Mem.get_set_other _ _ _ h

/-- A window of 1 to LENGTH − OFFSET units is derived in the free entry. -/
theorem deriveOr_ok (h1 : 1 ≤ n) (hl : ptrOff p + n ≤ e.len) (hk : e.kind = 3 → ptrOff p % 4096 = 0) (hi : c.freeWin = some i) :
    c.deriveOr a p e n r w = .ok (c.derive a p e n i r w) 4 := by
  have hb : ¬ ((e.len : Int) - ptrOff p < n ∨ (e.kind = 3 ∧ ptrOff p % 4096 ≠ 0)) := by
    rintro (h | ⟨h3, h⟩)
    · omega
    · exact h (hk h3)
  have hn : ¬ (n : Int) ≤ 0 := by omega
  simp only [Scull.deriveOr, if_neg hb, hi, need, if_neg hn, Int.toNat_natCast]

end

/-- Settles O50: each instruction by the move or the derivation it makes, or by the check that fails. -/
theorem pointersAndDerivedWindows : Obligations.PointersAndDerivedWindows := by
  refine ⟨?_, ?_, ?_, ?_, ?_, ?_, ?_, ?_, ?_, ?_, ?_, ?_, ?_⟩
  · intro s k a d p e v o h ha he hd hn hl ho
    exact congrArg _ (runJ_ok h (by simp [hd, ha, he, need, movePtr_some hn hl ho]))
  · intro s k a d p e v h ha he hd hout
    exact congrArg _ (runJ_trap h (by simp [hd, ha, he, need, movePtr_outside hout]))
  · intro s k i n a d p e h ha he hd h1 hn hl hk hi
    have hv : (val32 (mkWord 1 n)).toInt = n := by rw [mkWord_eq_tagged, val32_tagged, toInt_ofNat_of_lt hn]
    have ht : tag4 (mkWord 1 n) = 1 := by rw [mkWord_eq_tagged, tag4_tagged]; rfl
    refine ⟨(s.scull k).begun.derive a p e n i e.r e.w, congrArg _ (runJ_ok h ?_), ar_derive_self,
      fun j hj => win_derive_other hj, win_derive_self, fun j hj => ar_derive_other hj, rfl⟩
    have hf : (s.scull k).begun.freeWin = some i := hi
    simp only [begun_dr, begun_ar, begun_entry, hd, ha, he, need, ht, hv, ne_eq, not_true_eq_false, if_false, deriveOr_ok h1 hl hk hf]
  · intro s k a d p e v h ha he hd hl
    have hb : (e.len : Int) - ptrOff p < v.toInt := by omega
    exact congrArg _ (runJ_trap h (by simp [hd, ha, he, need, Scull.deriveOr, hb]))
  · intro s k i a d p e v h ha he hd hv hl hk hi
    have hb : ¬ ((e.len : Int) - ptrOff p < v.toInt) := by omega
    have hf : (s.scull k).begun.freeWin = some i := hi
    exact congrArg _ (runJ_trap h (by simp [hd, ha, he, need, Scull.deriveOr, hb, hk, hf, hv]))
  · intro s k i a m p e h ha he hl hk hi
    refine ⟨(s.scull k).begun.derive a p e (e.len - ptrOff p) i (e.r && !m.getLsbD 0) (e.w && !m.getLsbD 1),
      congrArg _ (runJ_ok h ?_), ar_derive_self, fun j hj => win_derive_other hj, win_derive_self, fun j hj => ar_derive_other hj, rfl⟩
    have hf : (s.scull k).begun.freeWin = some i := hi
    simp only [begun_ar, begun_entry, ha, he, need, if_neg (Nat.not_le_of_lt hl),
      deriveOr_ok (Nat.sub_pos_of_lt hl) (Nat.le_of_eq (Nat.add_sub_of_le (Nat.le_of_lt hl))) hk hf]
  · intro s k a m p e h ha he hl hk hi
    have hb : ¬ ((e.len : Int) - ptrOff p < ((e.len - ptrOff p : Nat) : Int)) := by omega
    have hf : (s.scull k).begun.freeWin = none := hi
    exact congrArg _ (runJ_trap h (by simp [ha, he, need, Nat.not_le_of_lt hl, Scull.deriveOr, hb, hk, hf]))
  · intro s k a p e h ha he hd
    exact congrArg _ (runJ_ok h (by simp only [begun_ar, begun_entry, ha, he, need, hd, Bool.not_true, Bool.false_eq_true, if_false]; rfl))
  · intro s k a p e h ha he hd
    exact congrArg _ (runJ_trap h (by simp [ha, he, need, hd]))
  · intro s k a d p h ha he ht
    exact congrArg _ (runJ_trap h (by simp [ha, he, need, ht]))
  · intro s k a d p h ha he ht
    exact congrArg _ (runJ_trap h (by simp [ha, he, need, ht]))
  · intro s k a m p h ha he
    exact congrArg _ (runJ_trap h (by simp [ha, he, need]))
  · intro s k a p h ha he
    exact congrArg _ (runJ_trap h (by simp [ha, he, need]))

/-! ### The count of repetitions -/

section

variable {c : Scull} {op : JOp} {n : Int} {x : Option Int}

/-- REP before an instruction that lies below PL asks for its count. -/
theorem rep_decoded (hpl : c.pc.toNat + 1 + wordsOf (c.word (c.pc.toNat + 1)) ≤ c.pl)
    (hop : jeriecDecode (c.word (c.pc.toNat + 1)) (c.word (c.pc.toNat + 2)) = some op) :
    c.rep x = need x .tagMismatch (fun n =>
      if repForbids op then .trap .repHazard
      else if n < 0 ∨ 256 < n then .trap .operandRange
      else if n = 0 then .ok { c with noPoint := true } 1 (some (c.pc.toNat + 1 + wordsOf (c.word (c.pc.toNat + 1)) : Nat))
      else .ok { c with rc := BitVec.ofInt 9 n } 1 (some (c.pc.toNat + 1 : Nat))) := by
  have hw : 0 < wordsOf (c.word (c.pc.toNat + 1)) := by unfold wordsOf; split <;> omega
  have hlt : ¬ c.pl ≤ c.pc.toNat + 1 := by omega
  simp only [Scull.rep, if_neg hlt, hop, if_neg (Nat.not_lt_of_le hpl)]

/-- A count from 1 to 256 goes into RC. -/
theorem rep_counts (hpl : c.pc.toNat + 1 + wordsOf (c.word (c.pc.toNat + 1)) ≤ c.pl)
    (hop : jeriecDecode (c.word (c.pc.toNat + 1)) (c.word (c.pc.toNat + 2)) = some op) (hf : repForbids op = false) {n : Nat}
    (h1 : 1 ≤ n) (h256 : n ≤ 256) :
    c.rep (some n) = .ok { c with rc := BitVec.ofNat 9 n } 1 (some (c.pc.toNat + 1 : Nat)) := by
  have hr : ¬ ((n : Int) < 0 ∨ 256 < (n : Int)) := by omega
  have h0 : ¬ (n : Int) = 0 := by omega
  simp only [rep_decoded hpl hop, need, hf, Bool.false_eq_true, if_false, if_neg hr, if_neg h0, BitVec.ofInt_natCast]

end

/-- A count word of REP Dr. -/
theorem repCount_int {v : BitVec 32} : (if tag4 (tagged 1 v) = 1 then some (val32 (tagged 1 v)).toInt else none) = some v.toInt := by
  simp

/-- No two-word form is NOP (R469, R471). -/
theorem wideOf_ne_nop (w w1 : BitVec 14) : wideOf w w1 ≠ some .nop := by
  unfold wideOf
  generalize wf w 7 5 = n
  generalize wf w 4 3 = a
  generalize wf w 4 0 = b
  split
  case h_6 => simp
  case h_7 => simp
  all_goals split <;> simp

/-- A first word of a two-word form lies in the groups of two-word branches or in the wide group (R469). -/
theorem decode_ne_nop {w : BitVec 14} (w1 : BitVec 14) (h : wf w 13 10 = 14) : jeriecDecode w w1 ≠ some .nop := by
  have h7 : wf w 13 11 = 7 := by simp only [wf, field] at h ⊢; omega
  have h0 : wf w 10 10 = 0 := by simp only [wf, field] at h ⊢; omega
  simp only [jeriecDecode, h7, h0, if_true]
  generalize wf w 8 6 = n
  split
  · split <;> simp
  split
  · split <;> simp
  exact wideOf_ne_nop w w1

/-- NOP takes one word. -/
theorem wordsOf_nop {w w1 : BitVec 14} (h : jeriecDecode w w1 = some .nop) : wordsOf w = 1 := by
  have ht : twoWords w = false := by
    rw [twoWords, beq_eq_false_iff_ne]
    exact fun h14 => decode_ne_nop w1 h14 h
  rw [wordsOf, ht]
  rfl

/-- An instruction that runs next is the one that the word at PC encodes. -/
theorem nextIs_decodes {s : State} {k : Nat} {op : JOp} (h : s.nextIs k op = true) :
    jeriecDecode ((s.scull k).word (s.scull k).pc.toNat) ((s.scull k).word ((s.scull k).pc.toNat + 1)) = some op := by
  have hf : (s.scull k).fetch = some op := by simp_all [State.nextIs]
  rw [Scull.fetch] at hf
  split at hf
  · cases hf
  · exact hf

/-- NOP only takes its cycle. -/
theorem exec_nop {s : State} {k : Nat} (h : s.nextIs k .nop = true) : exec (.nop k) s = .next (s.passed k 1 (s.scull k).begun) :=
  congrArg _ (runJ_ok h rfl)

/-- The scull that has run an instruction in one word. -/
theorem scull_passed (s : State) (k n : Nat) (c1 : Scull) : (s.passed k n c1).scull k =
    if (s.scull k).rc ≠ 0 ∧ c1.rc ≠ 0 then (s.scull k).after c1 n
    else ((s.scull k).after c1 n).goto ((s.scull k).pc.toNat + wordsOf ((s.scull k).word (s.scull k).pc.toNat)) := by
  rw [State.passed, State.scull_setScull_self]

/-- RC as an iteration starts. -/
theorem begun_rc_toNat (c : Scull) : c.begun.rc.toNat = c.rc.toNat - 1 := by
  unfold Scull.begun
  split
  · next h => simp [h]
  · next h =>
    have : c.rc.toNat ≠ 0 := fun e => h (BitVec.eq_of_toNat_eq e)
    have h1 : BitVec.toNat (1 : BitVec 9) = 1 := rfl
    rw [BitVec.toNat_sub, h1]
    omega

/-- Settles O51: REP by what `rep_decoded` finds, and a repeated instruction by where it leaves PC and RC. -/
theorem repeatsRunTheNextInstruction : Obligations.RepeatsRunTheNextInstruction := by
  refine ⟨?_, ?_, ?_, ?_, ?_, ?_, ?_, ?_, ?_, ?_⟩
  · intro s k n op h hpl hop hf
    exact congrArg _ (runJ_jump h (rep_counts (c := (s.scull k).begun) (n := n.toNat + 1) hpl hop hf (by omega) (by omega)))
  · intro s k n r op h hpl hop hr h1 h256 hf
    have hn : (BitVec.ofNat 32 n).toInt = n := toInt_ofNat_of_lt (by omega)
    refine congrArg _ (runJ_jump h ?_)
    rw [begun_dr, hr, mkWord_eq_tagged, repCount_int, hn]
    exact rep_counts (c := (s.scull k).begun) hpl hop hf h1 h256
  · intro s k r op h hpl hop hr hf
    refine congrArg _ (runJ_jump h ?_)
    rw [begun_dr, hr, mkWord_eq_tagged, repCount_int, rep_decoded (c := (s.scull k).begun) hpl hop]
    simp [need, hf]
    rfl
  · intro s k r op v h hpl hop hr hv hf
    refine congrArg _ (runJ_trap h ?_)
    rw [begun_dr, hr, repCount_int, rep_decoded (c := (s.scull k).begun) hpl hop]
    simp [need, hf, hv]
  · intro s k r op h hpl hop ht
    refine congrArg _ (runJ_trap h ?_)
    rw [begun_dr, if_neg ht, rep_decoded (c := (s.scull k).begun) hpl hop]
    rfl
  · intro s k n op h hpl hop hf
    refine congrArg _ (runJ_trap h ?_)
    rw [rep_decoded (c := (s.scull k).begun) hpl hop]
    simp [need, hf]
  · intro s k n h hlt hop
    refine congrArg _ (runJ_trap h ?_)
    have hop : jeriecDecode ((s.scull k).begun.word ((s.scull k).pc.toNat + 1)) ((s.scull k).begun.word ((s.scull k).pc.toNat + 2)) = none := hop
    simp only [Scull.rep, begun_pc, begun_pl, if_neg (Nat.not_le_of_lt hlt), hop]
  · intro s k n h hpl
    exact congrArg _ (runJ_trap h (if_pos hpl))
  · intro s k m h hm hlt
    have hb := begun_rc_toNat (s.scull k)
    have hc : (s.scull k).rc ≠ 0 ∧ (s.scull k).begun.rc ≠ 0 := by
      rw [hm] at hb ⊢
      constructor
      · intro e
        rw [e] at hlt
        exact absurd hlt (by decide)
      · intro e
        rw [e] at hb
        have hb : 0 = m.toNat - 1 := hb
        omega
    refine ⟨_, exec_nop h, ?_, ?_⟩ <;> rw [scull_passed, if_pos hc]
    · rfl
    · have hr : ((s.scull k).after (s.scull k).begun 1).rc = (s.scull k).begun.rc := rfl
      rw [hr, hb, hm]
      omega
  · intro s k m h hm hle hpc
    have hb := begun_rc_toNat (s.scull k)
    have h0 : (s.scull k).begun.rc = 0 := BitVec.eq_of_toNat_eq (by rw [hb, hm]; simp; omega)
    have hin : (0 : Int) ≤ (s.scull k).pc.toNat + 1 ∧ ((s.scull k).pc.toNat : Int) + 1 < 8192 := by omega
    refine ⟨_, exec_nop h, ?_, ?_⟩ <;>
      rw [scull_passed, if_neg (fun hc => hc.2 h0), wordsOf_nop (nextIs_decodes h), Scull.goto, Int.natCast_one, if_pos hin]
    · apply BitVec.eq_of_toNat_eq
      have h1 : BitVec.toNat (1 : BitVec 13) = 1 := rfl
      rw [BitVec.toNat_ofInt, BitVec.toNat_add, h1]
      omega
    · exact h0

end Sys2Proof.Machine
end

section
/-! PROOFS. SEND and RECV (R480 to R483, R514, R515): what a word sent to each port does once the port takes its tag and is open, and what a
port that is open gives. -/

open Sys2Proof

namespace Sys2Proof.Machine

/-! ### Runs that deliver a message, end the invocation, or overrun the output -/

section

variable {s : State} {k w n : Nat} {op : JOp} {f : Scull → Ran}

/-- A scull instruction that delivers a mailbox message to a scull of its Eight. -/
theorem runJ_mail {c1 : Scull} {dest : Nat} {v : TWord} (h : s.nextIs k op = true)
    (hf : f (s.scull k).begun = .ok c1 n none none (some (dest, v))) :
    s.runJ k w op f = (s.passed k n c1).updScull (eightOf k * 8 + dest) (fun x => { x with mail := x.mail ++ [(k % 8, v)] }) := by
  have e : { s.scull k with rc := if (s.scull k).rc = 0 then 0 else (s.scull k).rc - 1, noPoint := false } = (s.scull k).begun := rfl
  simp only [State.runJ, h, Bool.not_true, Bool.false_eq_true, if_false, e, hf, State.passed, Scull.after]

/-- END (R505). -/
theorem runJ_finished (h : s.nextIs k op = true) (hf : f (s.scull k).begun = .finished) :
    s.runJ k w op f = (s.setScull k ((s.scull k).spend 1)).endInvocation k (s.scull k).pc.toNat := by
  have e : { s.scull k with rc := if (s.scull k).rc = 0 then 0 else (s.scull k).rc - 1, noPoint := false } = (s.scull k).begun := rfl
  simp only [State.runJ, h, Bool.not_true, Bool.false_eq_true, if_false, e, hf]

/-- A SEND that overruns the output (R514). -/
theorem runJ_overrun (h : s.nextIs k op = true) (hf : f (s.scull k).begun = .overrun) :
    s.runJ k w op f = (s.setScull k ((s.scull k).spend 1)).endOverrun k (s.scull k).pc.toNat := by
  have e : { s.scull k with rc := if (s.scull k).rc = 0 then 0 else (s.scull k).rc - 1, noPoint := false } = (s.scull k).begun := rfl
  simp only [State.runJ, h, Bool.not_true, Bool.false_eq_true, if_false, e, hf]

end

/-! ### What a starting instruction leaves of the scull -/

section

variable (c : Scull) (p : Nat)

@[simp] theorem begun_handlerHeld : c.begun.handlerHeld p = c.handlerHeld p := rfl
@[simp] theorem begun_engineFull (w : TWord) : c.begun.engineFull p w = c.engineFull p w := rfl
@[simp] theorem begun_portTag (w : TWord) : c.begun.portTag p w = c.portTag p w := rfl
@[simp] theorem begun_portClosed (b : Bool) : c.begun.portClosed p b = c.portClosed p b := rfl
@[simp] theorem begun_partial : c.begun.partial_ p = c.partial_ p := rfl
@[simp] theorem begun_queue : c.begun.queue p = c.queue p := rfl
@[simp] theorem begun_outstanding : c.begun.out_ p = c.out_ p := rfl
@[simp] theorem begun_timer : c.begun.timer = c.timer := rfl
@[simp] theorem begun_timerExpired : c.begun.timerExpired = c.timerExpired := rfl
@[simp] theorem begun_feed : c.begun.feed = c.feed := rfl
@[simp] theorem begun_mail : c.begun.mail = c.mail := rfl
@[simp] theorem begun_mailHalf : c.begun.mailHalf = c.mailHalf := rfl
@[simp] theorem begun_output : c.begun.output = c.output := rfl
@[simp] theorem begun_outLen : c.begun.outLen = c.outLen := rfl
@[simp] theorem begun_lastBytes : c.begun.lastBytes = c.lastBytes := rfl

end

/-! ### SEND, port by port -/

section

variable {s : State} {k p : Nat} {c : Scull} {w : TWord} {v : BitVec 32}

/-- Ports 0 to 4 take any word while they have room and hold no message of the interrupted code. -/
theorem sendWord_engine (hp : p ≤ 4) : s.sendWord k c p w = if c.handlerHeld p then .trap .handlerState
    else if c.engineFull p w then .stall else .ok (c.sendEngine p w) 1 := by
  have hports : p = 0 ∨ p = 1 ∨ p = 2 ∨ p = 3 ∨ p = 4 := by omega
  rcases hports with rfl | rfl | rfl | rfl | rfl <;> simp [State.sendWord, Scull.portTag, Scull.portClosed]

theorem sendWord_reserved (hp : 10 ≤ p) : s.sendWord k c p w = .trap .portReserved := if_pos hp

/-- A word that the port's tags refuse traps. -/
theorem sendWord_tag {t : Trap} (hp : p < 10) (ht : c.portTag p w = some t) : s.sendWord k c p w = .trap t := by
  unfold State.sendWord
  rw [if_neg (Nat.not_le_of_lt hp), ht]

/-- The timer takes an INT of 0 or more. -/
theorem sendWord_timer (hv : v.msb = false) (hh : c.handlerHeld 9 = false) : s.sendWord k c 9 (tagged 1 v) =
    if v = 0 then .ok { c with timer := none } 1 else .ok { c with timer := some v.toNat, timerExpired := false } 1 := by
  simp [State.sendWord, Scull.portTag, Scull.portClosed, isCap, hv, hh, Scull.sendTimer]

theorem sendWord_timer_negative (hv : v.msb = true) : s.sendWord k c 9 (tagged 1 v) = .trap .operandRange := by
  simp [State.sendWord, Scull.portTag, isCap, hv]

/-- The stream out takes INT and BYTES words. -/
theorem sendWord_stream (ht : tag4 w = 1 ∨ tag4 w = 2) (hs : c.stream = true) (hh : c.handlerHeld 7 = false) :
    s.sendWord k c 7 w = c.sendStream w := by
  rcases ht with ht | ht <;> simp [State.sendWord, Scull.portTag, Scull.portClosed, isCap, ht, hs, hh]

theorem sendWord_stream_closed (ht : tag4 w = 1 ∨ tag4 w = 2) (hs : c.stream = false) : s.sendWord k c 7 w = .trap .portDenied := by
  rcases ht with ht | ht <;> simp [State.sendWord, Scull.portTag, Scull.portClosed, isCap, ht, hs]

/-- A hook's reply has three words. -/
theorem sendWord_hook (hw : isCap w = false) (hk : c.isHook = true) (hl : c.hookSent.length < 3) (hh : c.handlerHeld 5 = false) :
    s.sendWord k c 5 w = .ok { c with hookSent := c.hookSent ++ [w] } 1 := by
  simp [State.sendWord, Scull.portTag, Scull.portClosed, hw, hk, hh, Nat.not_le_of_lt hl]

/-- The first word of a message to the mailbox names a position of the Eight. -/
theorem sendWord_mailDest (ht : tag4 w = 1) (hn : c.partial_ 8 = []) (hm : s.mailOk k w = true) (hh : c.handlerHeld 8 = false) :
    s.sendWord k c 8 w = .ok { c with out := Mem.set [] c.out 8 [w] } 1 := by
  simp [State.sendWord, Scull.portTag, Scull.portClosed, isCap, ht, hn, hm, hh, State.sendMail]

theorem sendWord_mailDest_denied (ht : tag4 w = 1) (hn : c.partial_ 8 = []) (hm : s.mailOk k w = false) :
    s.sendWord k c 8 w = .trap .portDenied := by
  simp [State.sendWord, Scull.portTag, Scull.portClosed, isCap, ht, hn, hm]

/-- The second word is delivered while the destination has room. -/
theorem sendWord_mailWord {dest : TWord} {m : List TWord} (hw : isCap w = false) (hn : c.partial_ 8 = dest :: m)
    (hh : c.handlerHeld 8 = false) (hf : s.mailFull k c = false) :
    s.sendWord k c 8 w = .ok { c with out := Mem.set [] c.out 8 [] } 1 none none (some ((val32 dest).toNat, w)) := by
  simp [State.sendWord, Scull.portTag, Scull.portClosed, hw, hn, hh, hf, State.sendMail]

end

/-- The value of a word made of a tag and a number. -/
theorem val32_mkWord {t n : Nat} (h : n < 2 ^ 32) : (val32 (mkWord t n)).toNat = n := by
  rw [mkWord_eq_tagged, val32_tagged, BitVec.toNat_ofNat, Nat.mod_eq_of_lt h]

/-- The tag of a word made of a tag and a number. -/
theorem tag4_mkWord (t n : Nat) : tag4 (mkWord t n) = BitVec.ofNat 4 t := by
  rw [mkWord_eq_tagged, tag4_tagged]

/-! ### RECV, port by port -/

section

variable {c : Scull} {p : Nat} {d : BitVec 3}

/-- Ports 0 to 4, and port 5 of a hook, give their reply words in order. -/
theorem recvWord_reply (hp : p ≤ 5) (hk : p = 5 → c.isHook = true) : c.recvWord p d = match c.queue p with
    | w :: rest => .ok ({ c with inq := Mem.set [] c.inq p rest }.setD d w) 1
    | [] => if p ≤ 4 ∧ c.out_ p = 0 then .trap .portIdle else .stall := by
  have hports : p = 0 ∨ p = 1 ∨ p = 2 ∨ p = 3 ∨ p = 4 ∨ p = 5 := by omega
  have hc : c.portClosed p false = false := by
    rcases hports with rfl | rfl | rfl | rfl | rfl | rfl <;> simp [Scull.portClosed, hk]
  rcases hports with rfl | rfl | rfl | rfl | rfl | rfl <;> simp [Scull.recvWord, hc] <;> rfl

theorem recvWord_closed (hp : p < 10) (hc : c.portClosed p false = true) : c.recvWord p d = .trap .portDenied := by
  unfold Scull.recvWord
  rw [if_neg (Nat.not_le_of_lt hp), if_pos hc]

end

/-- Settles O52: each SEND and RECV by the lemma of its port. -/
theorem portsTakeAndGiveWords : Obligations.PortsTakeAndGiveWords := by
  refine ⟨?_, ?_, ?_, ?_, ?_, ?_, ?_, ?_, ?_, ?_, ?_, ?_, ?_, ?_, ?_, ?_, ?_, ?_, ?_, ?_, ?_, ?_, ?_, ?_, ?_, ?_, ?_, ?_, ?_⟩
  -- SEND to the engines
  · intro s k st p d w h hd hp hh hf
    exact congrArg _ (runJ_ok h (by
      rw [begun_dr, hd, sendWord_engine hp, begun_handlerHeld, begun_engineFull, if_neg (Bool.eq_false_iff.mp hh),
        if_neg (Bool.eq_false_iff.mp hf)]))
  · intro s k st p d w h hd hp hh hf
    exact congrArg _ (runJ_stall h (by rw [begun_dr, hd, sendWord_engine hp, begun_handlerHeld, begun_engineFull, if_neg (Bool.eq_false_iff.mp hh),
        if_pos hf]))
  · intro c p w hl
    rw [Scull.sendEngine, if_pos hl]
    exact ⟨Mem.get_set_self [] c.out p _, rfl, rfl⟩
  · intro c p w hl
    rw [Scull.sendEngine, if_neg (Nat.not_lt_of_le hl)]
    exact ⟨by simp [Scull.partial_], by simp, by simp [Scull.out_]⟩
  -- ports 10 to 15
  · intro s k st p d h hp
    exact congrArg _ (runJ_trap h (sendWord_reserved hp))
  · intro s k st p d h hp
    exact congrArg _ (runJ_trap h (if_pos hp))
  -- words that a port does not take
  · intro s k st p d w h hd hp ht
    have hc : isCap w = true := (isCap_iff w).mpr ht
    refine congrArg _ (runJ_trap h ?_)
    rw [begun_dr, hd]
    rcases hp with rfl | ⟨rfl, hn⟩
    · exact sendWord_tag (by decide) (by simp [Scull.portTag, hc])
    · exact sendWord_tag (by decide) (by simp [Scull.portTag, hc, hn])
  · intro s k st p d w h hd hp ht
    have h1 : tag4 w ≠ 1 := fun e => absurd ht (by rw [e]; decide)
    have h2 : tag4 w ≠ 2 := fun e => absurd ht (by rw [e]; decide)
    refine congrArg _ (runJ_trap h ?_)
    rw [begun_dr, hd]
    rcases hp with rfl | rfl | ⟨rfl, hn⟩
    · exact sendWord_tag (by decide) (by simpa [Scull.portTag] using ⟨h1, h2⟩)
    · exact sendWord_tag (by decide) (by simpa [Scull.portTag] using h1)
    · exact sendWord_tag (by decide) (by simpa [Scull.portTag, hn] using h1)
  -- SEND to the timer
  · rintro s k st _ d w v h hd rfl rfl hv h0 hh
    exact congrArg _ (runJ_ok h (by rw [begun_dr, hd]; exact (sendWord_timer (c := (s.scull k).begun) hv hh).trans (if_neg h0)))
  · rintro s k st _ d w h hd rfl rfl hh
    exact congrArg _ (runJ_ok h (by rw [begun_dr, hd]; exact (sendWord_timer (c := (s.scull k).begun) (by decide) hh).trans (if_pos rfl)))
  · rintro s k st _ d w v h hd rfl rfl hv
    exact congrArg _ (runJ_trap h (by rw [begun_dr, hd]; exact sendWord_timer_negative hv))
  -- SEND to the stream
  · rintro s k st _ d w v h hd rfl rfl hs hh hl
    refine congrArg _ (runJ_ok h ?_)
    rw [begun_dr, hd]
    refine (sendWord_stream (c := (s.scull k).begun) (by simp) hs hh).trans ?_
    simp [Scull.sendStream, Nat.not_lt_of_le hl]
  · rintro s k st _ d w v h hd rfl rfl hs hh hl
    refine congrArg _ (runJ_overrun h ?_)
    rw [begun_dr, hd]
    refine (sendWord_stream (c := (s.scull k).begun) (by simp) hs hh).trans ?_
    simp [Scull.sendStream, hl]
  · rintro s k st _ d w v h hd rfl rfl hs hh hlast h1 h3
    refine congrArg _ (runJ_ok h ?_)
    rw [begun_dr, hd]
    refine (sendWord_stream (c := (s.scull k).begun) (by simp) hs hh).trans ?_
    simp [Scull.sendStream, hlast, h1, h3]
  · rintro s k st _ d w h hd rfl hw hs
    refine congrArg _ (runJ_trap h ?_)
    rw [begun_dr, hd]
    exact sendWord_stream_closed (by rcases hw with rfl | rfl <;> simp) hs
  -- SEND to the hook and the mailbox
  · rintro s k st _ d w h hd rfl hw hk hl hh
    exact congrArg _ (runJ_ok h (by rw [begun_dr, hd]; exact sendWord_hook hw hk hl hh))
  · rintro s k st _ d w n h hd rfl rfl hn hp hh hm
    refine congrArg _ (runJ_ok h ?_)
    rw [begun_dr, hd]
    exact sendWord_mailDest (tag4_mkWord 1 n) hp hm hh
  · rintro s k st _ d w h hd rfl ht hp hm
    exact congrArg _ (runJ_trap h (by rw [begun_dr, hd]; exact sendWord_mailDest_denied ht hp hm))
  · rintro s k st _ d w n m h hd rfl hw hp hn hh hl
    have hv : (val32 (mkWord 1 n)).toNat = n := val32_mkWord (by omega)
    have hb : (s.scull k).begun.partial_ 8 = mkWord 1 n :: m := hp
    have hf : s.mailFull k (s.scull k).begun = false := by
      simp only [State.mailFull, hb, hv]
      exact decide_eq_false (Nat.not_le_of_lt hl)
    exact congrArg _ (runJ_mail h (by
      rw [begun_dr, hd]
      exact (sendWord_mailWord hw hb hh hf).trans (by rw [hv]; rfl)))
  · intro s k st p d w h hd hp hh
    exact congrArg _ (runJ_trap h (by rw [begun_dr, hd, sendWord_engine hp]; exact if_pos hh))
  -- RECV of replies
  · intro s k st p d w rest h hp hk hq
    have hb : (s.scull k).begun.queue p.toNat = w :: rest := hq
    exact congrArg _ (runJ_ok h (by
      rw [recvWord_reply (c := (s.scull k).begun) hp (fun e => hk (BitVec.eq_of_toNat_eq e)), hb]; rfl))
  · intro s k st p d h hp hq ho
    have hb : (s.scull k).begun.queue p.toNat = [] := hq
    exact congrArg _ (runJ_trap h (by
      rw [recvWord_reply (by omega) (by omega), hb]; exact if_pos ⟨hp, ho⟩))
  · intro s k st p d h hp hq ho
    have hb : (s.scull k).begun.queue p.toNat = [] := hq
    exact congrArg _ (runJ_stall h (by
      rw [recvWord_reply (by omega) (by omega), hb]; exact if_neg (fun x => ho x.2)))
  · intro s k st p d h hp
    refine congrArg _ (runJ_trap h ?_)
    rcases hp with ⟨rfl, hk⟩ | ⟨rfl, hs⟩ | rfl
    · have hk : (s.scull k).begun.isHook = false := hk
      exact recvWord_closed (by decide) (by simp [Scull.portClosed, hk])
    · have hs : (s.scull k).begun.stream = false := hs
      exact recvWord_closed (by decide) (by simp [Scull.portClosed, hs])
    · exact recvWord_closed (by decide) (by simp [Scull.portClosed])
  -- RECV of the stream, the timer and the mailbox
  · rintro s k st _ d h rfl hs hf
    have hs : (s.scull k).begun.stream = true := hs
    have hf : (s.scull k).feed.isEmpty = false := by simpa using hf
    refine congrArg _ (runJ_ok h ?_)
    simp [Scull.recvWord, Scull.portClosed, hs, hf]
  · rintro s k st _ d h rfl ht
    exact congrArg _ (runJ_ok h (by simp [Scull.recvWord, Scull.portClosed, ht]))
  · rintro s k st _ d h rfl ht hn
    exact congrArg _ (runJ_trap h (by simp [Scull.recvWord, Scull.portClosed, ht, hn]))
  · rintro s k st _ d src w rest h rfl hm hh
    exact congrArg _ (runJ_ok h (by simp [Scull.recvWord, Scull.portClosed, hm, hh]))
  · rintro s k st _ d src w rest h rfl hm hh
    exact congrArg _ (runJ_ok h (by simp [Scull.recvWord, Scull.portClosed, hm, hh]))

end Sys2Proof.Machine
end

section
/-! PROOFS. The end of an invocation (R505) against uncorrectable words of its output buffer (R14). -/

open Sys2Proof

namespace Sys2Proof.Machine

/-- Scull 0 at the END of the PROGRAM INVOKE command 5, whose one byte of output stands in a word of the SPL that cannot be corrected. -/
def endOfUnreadOutput : State :=
  { psm := { mode := .service }
    hif := { cmds := [(5, some { func := 0, sq := 1, sqe := { admin := false, opcode := 0x90, cid := 9, nsid := 1 } })] }
    dmf := { splBad := [0] }
    sca := { sculls := [(0, { running := true, start := some (.invoke 5), prog := [(0, 0x35E1)], pl := 1
                              d := [(0, mkWord 1 1), (1, mkWord 1 0)], outLen := 1, budget := 1 })] } }

/-- The state after that END. -/
def afterUnreadOutput : State := endOfUnreadOutput.runJ 0 0 .endInv (fun _ => .finished)

/-- Refutes O53: its clause on END asks for Success whatever the output buffer holds, but END of an invocation whose output buffer holds an
uncorrectable word fails the command (R14, R544). -/
theorem not_interruptsTrapsAndTheEndOfAnInvocation : ¬ Obligations.InterruptsTrapsAndTheEndOfAnInvocation := by
  intro h
  obtain ⟨-, -, -, -, -, -, -, -, -, -, -, -, -, hend, -⟩ := h
  obtain ⟨u, hu, ⟨c, hc, hr⟩, -⟩ := hend endOfUnreadOutput 0 1 0 5 _ (by decide) (by decide) rfl rfl rfl rfl rfl (by decide) (by decide)
    rfl (by decide)
  cases (show Host.Outcome.next afterUnreadOutput = .next u from hu)
  have hst : (afterUnreadOutput.cmd 5).bind (fun x => x.result.map (·.status)) = some .internalContained := by decide +kernel
  rw [hc, Option.bind_some, hr] at hst
  exact absurd hst (by decide)

end Sys2Proof.Machine
end

section
/-! PROOFS. The associative search unit (R433 to R435): the statement about its tables, as it is written. -/

open Sys2Proof

namespace Sys2Proof.Machine

/-- Refutes O54: in its clause on the matches of a search the two premises bind to the left side of the equivalence, `(wf → e < 2 ^ 24 →
(e, r) is a match) ↔ (e holds r and r hits)`. For an entry number of 2^24 the left side holds of every row, and after reset no entry holds
one. -/
theorem not_tablesAreUpdatedAndSearched : ¬ Obligations.TablesAreUpdatedAndSearched := by
  intro h
  obtain ⟨-, -, -, -, -, -, -, -, -, -, -, -, -, -, -, -, -, -, -, -, -, -, -, -, hmatch, -⟩ := h
  have hrow := (hmatch {} { func := 0, id := 1, width := 0, longest := false, slabs := [128] } { tag := 0, allTags := true, max := 1, key := 0 }
    (2 ^ 24) { key := 0, mask := 0, prefilter := 0, priority := 0, assoc := 0 }).mp (fun _ hlt => absurd hlt (Nat.lt_irrefl _))
  cases hrow.1

end Sys2Proof.Machine
end

section
/-! PROOFS. The cipher engine (R368, R377): the statement about its requests, as it is written. -/

open Sys2Proof

namespace Sys2Proof.Machine

/-- A normal request of 128 KiB, of which no slice has run. -/
def longRequest : CpeEntry := { submitter := 0, entry := BitVec.ofNat 512 (131072 * 2 ^ 64) }

/-- Pipeline 0 is bound to one long request and has delivered its last 2^24 blocks of masks. -/
def maskSpentPipe : State := { cpe := { pipes := Mem.set {} [] 0 { drbgBlocks := 2 ^ 24, bound := [longRequest] } } }

/-- The slices that the requests of pipeline 0 have run, after a step. -/
def slicesAfter : Host.Outcome State Fault Refusal → List Nat
  | .next t => (t.pipe 0).bound.map (·.slices)
  | _ => []

/-- Refutes O55: a slice end of a request that has slices left passes the turn on only while the masks of its pipeline last (R377); a
pipeline with 2^24 blocks behind it stops, and the slice does not count. -/
theorem not_cipherRequestsRunFromQueueToCompletion : ¬ Obligations.CipherRequestsRunFromQueueToCompletion := by
  intro h
  obtain ⟨-, -, -, -, -, -, -, -, -, -, -, -, -, -, hslice, -⟩ := h
  have hnormal : (maskSpentPipe.pipe 0).bound.filter (fun b => !ceUrgent b.entry.toNat) = [longRequest] := by decide +kernel
  have hend := congrArg slicesAfter (hslice maskSpentPipe 0 longRequest [] hnormal (by decide +kernel))
  have hstop : slicesAfter (exec (.cpeSliceEnd 0) maskSpentPipe) = [0] := by decide +kernel
  have hclaim : slicesAfter (.next (maskSpentPipe.setPipe 0 { maskSpentPipe.pipe 0 with
      bound := (maskSpentPipe.pipe 0).bound.filter (fun b => ceUrgent b.entry.toNat) ++ [] ++ [{ longRequest with slices := longRequest.slices + 1 }]
      drbgBlocks := (maskSpentPipe.pipe 0).drbgBlocks + 4096 })) = [1] := by decide +kernel
  rw [hstop, hclaim] at hend
  exact absurd hend (by decide)

end Sys2Proof.Machine
end

section
/-! PROOFS. Firmware activation (R152, R226): the statement about it, as it is written. -/

open Sys2Proof

namespace Sys2Proof.Machine

/-- Only the commit 5, which activates slot 2, is left, and the mailbox of function 0 runs a request that was taken and looked at. -/
def activationBehindMailbox : State :=
  { hif := { activating := some (5, 2), fetchStopped := true }
    fns := Mem.set {} [] 0 { mbox := { state := .busy } } }

/-- Refutes O14: once only the commit is left, FW_ACTIVATION still waits while a mailbox request runs (R226). -/
theorem not_firmwareImagesAreWrittenAndActivated : ¬ Obligations.FirmwareImagesAreWrittenAndActivated := by
  intro h
  obtain ⟨-, -, -, -, hrun, -⟩ := h
  obtain ⟨t, ht, -, -, -, hdone, -⟩ := hrun activationBehindMailbox 5 2 0 rfl (by decide) (by decide)
  have hwait : exec (.fwActivation none 0) activationBehindMailbox = .next activationBehindMailbox := rfl
  cases hwait.symm.trans ht
  exact absurd hdone (by decide)

end Sys2Proof.Machine
end

section
/-! PROOFS. What a record leaves as it is (R552 to R554), and the requests of the DRAM controller (R287 to R304, R306 to R310). -/

open Sys2Proof

namespace Sys2Proof.Machine

variable {s : State} {k : Ev} {tenant : Nat} {items : List (Nat × Nat)}

/-! ### A record changes the recorder and the count of dangerous records -/

@[simp] theorem State.raise_dram : (s.raise k tenant items).dram = s.dram := rfl
@[simp] theorem State.raise_hif : (s.raise k tenant items).hif = s.hif := rfl
@[simp] theorem State.raise_fns : (s.raise k tenant items).fns = s.fns := rfl
@[simp] theorem State.raise_nvs : (s.raise k tenant items).nvs = s.nvs := rfl
@[simp] theorem State.raise_nss : (s.raise k tenant items).nss = s.nss := rfl
@[simp] theorem State.raise_objs : (s.raise k tenant items).objs = s.objs := rfl
@[simp] theorem State.raise_flash : (s.raise k tenant items).flash = s.flash := rfl
@[simp] theorem State.raise_dmf : (s.raise k tenant items).dmf = s.dmf := rfl
@[simp] theorem State.raise_cpe : (s.raise k tenant items).cpe = s.cpe := rfl
@[simp] theorem State.raise_asu : (s.raise k tenant items).asu = s.asu := rfl
@[simp] theorem State.raise_sca : (s.raise k tenant items).sca = s.sca := rfl
@[simp] theorem State.raise_swl : (s.raise k tenant items).swl = s.swl := rfl
@[simp] theorem State.raise_mode : (s.raise k tenant items).psm.mode = s.psm.mode := rfl
@[simp] theorem State.raise_fn (f : Nat) : (s.raise k tenant items).fn f = s.fn f := rfl
@[simp] theorem State.raise_cmd (id : CmdId) : (s.raise k tenant items).cmd id = s.cmd id := rfl

/-! ### Activations change neither bytes nor ranks -/

variable {r : DramReq} {ch cs m port : Nat}

@[simp] theorem State.activate_cells : (s.activate ch cs m port).dram.cells = s.dram.cells := by
  unfold State.activate
  dsimp only
  split
  · rfl
  · split <;> rfl

@[simp] theorem State.activate_ranks : (s.activate ch cs m port).dram.ranks = s.dram.ranks := by
  unfold State.activate
  dsimp only
  split
  · rfl
  · split <;> rfl

/-! ### Requests -/

@[simp] theorem length_padTo (n : Nat) (bs : Bytes) : (padTo n bs).length = n := by
  simp only [padTo, slice, List.drop_zero, List.length_append, List.length_take, List.length_replicate]
  exact Nat.add_sub_of_le (Nat.min_le_left _ _)

/-- A request that lies within one line of a mapped rank, while the devices are up (R287, R289). -/
structure State.Reaches (s : State) (r : DramReq) (cs : Nat) : Prop where
  port : r.port ≤ 7
  len : 1 ≤ r.len
  line : r.addr % 64 + r.len ≤ 64
  up : s.dram.resetHigh = true
  fitted : s.dram.board.isEmpty = false
  logical : (s.dramPlace r.addr).2.1 < 4
  mapped : s.csOf (s.dramPlace r.addr).1 (s.dramPlace r.addr).2.1 = some cs

theorem exec_dramRequest_of_reaches (h : s.Reaches r cs) : exec (.dramRequest r) s = .next (
    if s.dmcServes (s.dramPlace r.addr).1 then s.serve r (s.dramPlace r.addr).1 cs (s.dramPlace r.addr).2.2
    else if s.psm.mode = .safeHalt ∨ s.psm.mode = .maintenance then s.dramReply r.port none
    else s) := by
  obtain ⟨hport, hlen, hline, hup, hfitted, hlogical, hmapped⟩ := h
  have hfits : ¬ (7 < r.port ∨ r.len = 0 ∨ 64 < r.addr % 64 + r.len ∨ !s.dram.resetHigh ∨ s.dram.board.isEmpty) := by
    simp only [hup, hfitted, Bool.not_true, Bool.false_eq_true, or_false]
    omega
  simp only [exec, execDramRequest, if_neg hfits, if_pos hlogical, hmapped]

theorem exec_dramRequest_serves (h : s.Reaches r cs) (hs : s.dmcServes (s.dramPlace r.addr).1 = true) :
    exec (.dramRequest r) s = .next (s.serve r (s.dramPlace r.addr).1 cs (s.dramPlace r.addr).2.2) := by
  rw [exec_dramRequest_of_reaches h, if_pos hs]

theorem serve_reply : (s.serve r ch cs m).dram.reply = some (r.port,
    if ((!r.isWrite || decide (r.len < 64)) && eccOf r.wrong == .uncorrectable) || (r.isWrite && decide (4 ≤ r.alerts)) then none
    else some (if r.isWrite then [] else readBytes s.dram.cells r.addr r.len)) := rfl

theorem serve_clean_read (hw : r.isWrite = false) (hc : eccOf r.wrong = .clean) : s.serve r ch cs m =
    ((s.wakeChannel ch).activate ch cs m r.port).dramReply r.port (some (readBytes s.dram.cells r.addr r.len)) := by
  simp [State.serve, hw, hc]

theorem serve_clean_write (hw : r.isWrite = true) (hc : eccOf r.wrong = .clean) (ha : r.alerts < 4) : s.serve r ch cs m =
    State.dramReply { (s.wakeChannel ch).activate ch cs m r.port with
      dram := { ((s.wakeChannel ch).activate ch cs m r.port).dram with cells := writeBytes s.dram.cells r.addr (padTo r.len r.data) } }
      r.port (some []) := by
  have hlow : ¬ 4 ≤ r.alerts := by omega
  simp [State.serve, hw, hc, hlow, State.wakeChannel]

/-! ### Ranks that leave service -/

@[simp] theorem State.rank_setRank_self (x : RankState) : (s.setRank ch cs x).rank ch cs = x := Mem.get_set_self _ _ _ _

theorem State.rank_setRank_other (x : RankState) {c : Nat} (h : c ≠ cs) : (s.setRank ch cs x).rank ch c = s.rank ch c :=
  Mem.get_set_other _ _ _ (by omega)

theorem spareOf_spare (h : s.spareOf ch = some m) : s.rank ch m = .spare := by
  have hfound := List.find?_some h
  exact eq_of_beq hfound

/-! ### The code of the lines -/

/-- Of symbols that are all among the 40, each is counted once (R302). -/
theorem countP_contains_range {n : Nat} {l : List Nat} (hnodup : l.Nodup) (hlt : ∀ j ∈ l, j < n) :
    (List.range n).countP (fun j => l.contains j) = l.length := by
  rw [List.countP_eq_length_filter]
  refine List.Perm.length_eq ((List.perm_ext_iff_of_nodup (List.nodup_range.filter _) hnodup).mpr fun j => ?_)
  simp only [List.mem_filter, List.mem_range, List.contains_iff_mem]
  exact ⟨fun h => h.2, fun h => ⟨hlt j h, h⟩⟩

/-- Settles O37, request by request through `serve_reply`, `serve_clean_read` and `serve_clean_write`. -/
theorem dramServesReadsAndWrites : Obligations.DramServesReadsAndWrites := by
  refine ⟨?_, ?_, ?_, ?_, ?_, ?_, ?_, ?_, ?_, ?_⟩
  · intro s r cs h1 h2 h3 h4 h5 h6 h7 hs hw hc
    refine ⟨_, exec_dramRequest_serves ⟨h1, h2, h3, h4, h5, h6, h7⟩ hs, ?_⟩
    rw [serve_clean_read hw hc]
    exact ⟨rfl, State.activate_cells, State.activate_ranks⟩
  · intro s r cs h1 h2 h3 h4 h5 h6 h7 hs hw hc
    refine ⟨_, exec_dramRequest_serves ⟨h1, h2, h3, h4, h5, h6, h7⟩ hs, ?_⟩
    rw [serve_reply, hw, hc]
    rfl
  · intro s r cs h1 h2 h3 h4 h5 h6 h7 hs hw hc ha
    refine ⟨_, exec_dramRequest_serves ⟨h1, h2, h3, h4, h5, h6, h7⟩ hs, ?_⟩
    rw [serve_clean_write hw hc ha]
    refine ⟨rfl, ?_, State.activate_ranks⟩
    have hstored := readBytes_writeBytes s.dram.cells (padTo r.len r.data) r.addr
    rw [length_padTo] at hstored
    exact hstored
  · intro s r cs a h1 h2 h3 h4 h5 h6 h7 hs hw hc ha hout
    refine ⟨_, exec_dramRequest_serves ⟨h1, h2, h3, h4, h5, h6, h7⟩ hs, ?_⟩
    rw [serve_clean_write hw hc ha]
    exact writeBytes_other _ _ _ _ (by simpa using hout)
  · intro s r cs h1 h2 h3 h4 h5 h6 h7 hs hw ha
    refine ⟨_, exec_dramRequest_serves ⟨h1, h2, h3, h4, h5, h6, h7⟩ hs, ?_⟩
    rw [serve_reply, hw, decide_eq_true ha, Bool.true_and, Bool.or_true]
    rfl
  · intro s r cs h1 h2 h3 h4 h5 h6 h7 hs hmode
    rw [exec_dramRequest_of_reaches ⟨h1, h2, h3, h4, h5, h6, h7⟩, hs, if_neg Bool.false_ne_true, if_pos (.inl hmode)]
  · intro s r hnone
    simp [exec, execDramRequest, hnone]
  · intro s ch cs m port hin hnormal hspare hidle
    have hother : cs ≠ m := fun h => by
      rw [h, spareOf_spare hspare] at hin
      cases hin
    have hstart : s.retireRank ch cs true =
        { (s.setRank ch cs .migratingOut).setRank ch m .migratingIn with
          dram := { ((s.setRank ch cs .migratingOut).setRank ch m .migratingIn).dram with
            migration := Mem.set none s.dram.migration ch (some { fromCs := cs, toCs := m }) } } := by
      simp [State.retireRank, hnormal, hin, hidle, hspare, State.setRank]
    rw [hstart]
    refine ⟨?_, fun _ => State.rank_setRank_self (s := s.setRank ch cs .migratingOut) .migratingIn, Mem.get_set_self none s.dram.migration ch (some { fromCs := cs, toCs := m })⟩
    exact (State.rank_setRank_other (s := s.setRank ch cs .migratingOut) .migratingIn hother).trans (State.rank_setRank_self .migratingOut)
  · intro s ch cs m hin hnormal hrun
    by_cases hwait : 4 * ch + cs ∈ s.dram.deferredFail <;> simp [State.retireRank, hnormal, hin, hrun, hwait]
  · intro l hnodup hlt
    have hcount := countP_contains_range hnodup hlt
    refine ⟨fun h => ?_, fun hone hfour => ?_, fun hmore => ?_⟩
    · simp [eccOf, h]
    · simp only [eccOf, hcount, if_neg (by omega : l.length ≠ 0), if_pos hfour]
    · simp only [eccOf, hcount, if_neg (by omega : l.length ≠ 0), if_neg (by omega : ¬ l.length ≤ 4)]

end Sys2Proof.Machine
end

section
/-! PROOFS. The trial of a configuration (R218, R229): the statement about its confirmation, as it is written. -/

open Sys2Proof

namespace Sys2Proof.Machine

/-- A trial of which no time is left, in SERVICE, and MB_CONFIG_CONFIRM taken by the mailbox of function 0. -/
def confirmAfterTrial : State :=
  { psm := { mode := .service }
    nvs := { trial := true }
    fns := Mem.set {} [] 0 { mbox := { state := .busy, taken := [0x05, 0x02] } } }

theorem confirmAfterTrial_ready : confirmAfterTrial.MbReady 0 0x0205 where
  mode := rfl
  awake := by decide
  halt := .inl (by decide)
  cox := rfl
  room := by decide
  orphans := rfl
  busy := rfl
  open_ := rfl
  fresh := rfl
  checked := rfl
  command := by decide

/-- Refutes O22: a confirmation that comes when no time of the trial is left waits for the revert (R229), and the trial goes on. -/
theorem not_configurationIsStagedCommittedAndReverted : ¬ Obligations.ConfigurationIsStagedCommittedAndReverted := by
  intro h
  obtain ⟨-, -, -, -, -, -, -, -, -, -, hconfirm, -⟩ := h
  obtain ⟨u, hu, htrial, -⟩ := hconfirm confirmAfterTrial 0 confirmAfterTrial_ready rfl rfl (by decide)
  have hwait : exec (.mbConfigConfirm 0) confirmAfterTrial = .next confirmAfterTrial := rfl
  have hend : confirmAfterTrial = u.mbAnswer 0 (mbOk []) := Host.Outcome.next.inj (hwait.symm.trans hu)
  have hkept : confirmAfterTrial.nvs = u.nvs := by rw [hend, State.mbAnswer_nvs]
  rw [← hkept] at htrial
  exact absurd htrial (by decide)

end Sys2Proof.Machine
end

section
/-! PROOFS. The end of an erase (R264, R267): the statement about it, as it is written. -/

open Sys2Proof

namespace Sys2Proof.Machine

/-- An erase, operation 0, whose superblock number 2^17 lies beyond the 2^17 that a quad has in the model's table. -/
def eraseBeyondQuad : State :=
  { flash := { ops := Mem.set none [] 0 (some { kind := .erase, die := 0, quad := 0, sb := 2 ^ 17, units := [] }) } }

/-- The retired blocks of die 0 after a step. -/
def retiredAfter : Host.Outcome State Fault Refusal → Nat
  | .next t => (t.die 0).retired
  | _ => 0

/-- Refutes O34: its clause on a failed erase retires a block of the quad that the operation names; the superblock key of number 2^17 is
that of the next quad, whose die takes the retirement. -/
theorem not_programsErasesAndDiesEnd : ¬ Obligations.ProgramsErasesAndDiesEnd := by
  intro h
  obtain ⟨-, -, -, -, -, -, -, -, -, -, hfail, -⟩ := h
  obtain ⟨u, hu, -, hretired, -⟩ := hfail eraseBeyondQuad 0 0 _ rfl rfl (by decide) (by decide) rfl rfl (fun _ => Nat.two_pos)
  have hnone : retiredAfter (exec (.flashEraseComplete 0 [0]) eraseBeyondQuad) = 0 := by decide +kernel
  have hone : retiredAfter (exec (.flashEraseComplete 0 [0]) eraseBeyondQuad) = 1 := by
    rw [hu]
    exact hretired
  exact absurd (hnone.symm.trans hone) (by decide)

end Sys2Proof.Machine
end

section
/-! PROOFS. What the paging of the map changes (R250, R251), and the read ladder (R242 to R244, R249, R260). -/

open Sys2Proof

namespace Sys2Proof.Machine

/-! ### Programming map and journal pages leaves the map entries as they are -/

/-- `t` is `s` after work on map and journal pages: flash, the page directory, the map cache and the journal may differ. -/
def State.Paged (s t : State) : Prop :=
  ∃ fl sq dir ca jo jp ch, t = { s with
    flash := fl
    nss := { s.nss with pageSeq := sq, directory := dir, cache := ca, journal := jo, journalPages := jp, changed := ch } }

theorem State.Paged.refl (s : State) : s.Paged s := ⟨_, _, _, _, _, _, _, rfl⟩

theorem State.Paged.trans {s t u : State} (h : s.Paged t) (h' : t.Paged u) : s.Paged u := by
  obtain ⟨_, _, _, _, _, _, _, rfl⟩ := h
  obtain ⟨_, _, _, _, _, _, _, rfl⟩ := h'
  exact ⟨_, _, _, _, _, _, _, rfl⟩

theorem State.Paged.foldl {α : Type} {f : State → α → State} (hf : ∀ (s : State) a, s.Paged (f s a)) (l : List α) (s : State) :
    s.Paged (l.foldl f s) := by
  induction l generalizing s with
  | nil => exact .refl s
  | cons a l ih => exact (hf s a).trans (ih _)

variable {s t u : State}

theorem State.Paged.units (h : s.Paged t) : t.nss.units = s.nss.units := by
  obtain ⟨_, _, _, _, _, _, _, rfl⟩ := h
  rfl

theorem State.Paged.mediaErrors (h : s.Paged t) : t.nss.mediaErrors = s.nss.mediaErrors := by
  obtain ⟨_, _, _, _, _, _, _, rfl⟩ := h
  rfl

theorem paged_updSb (k : Nat) (g : Sb → Sb) : s.Paged (s.updSb k g) := ⟨_, _, _, _, _, _, _, rfl⟩

theorem paged_updDie (d : Nat) (g : Die → Die) : s.Paged (s.updDie d g) := ⟨_, _, _, _, _, _, _, rfl⟩

theorem paged_closeSb (k : Nat) : s.Paged (s.closeSb k) := ⟨_, _, _, _, _, _, _, rfl⟩

theorem paged_openSb (k : Nat) (x : SbUse) : s.Paged (s.openSb k x) :=
  (paged_updSb _ _).trans (.foldl (fun _ _ => paged_updDie _ _) _ _)

theorem paged_fillSb (k n : Nat) : s.Paged (s.fillSb k n) := by
  unfold State.fillSb
  dsimp only
  split
  · exact (paged_updSb _ _).trans (paged_closeSb _)
  · exact paged_updSb _ _

theorem paged_setCells (ws : List (Option Codeword)) (p : Nat) (s : State) : s.Paged (s.setCells p ws) := by
  induction ws generalizing s p with
  | nil => exact .refl s
  | cons w ws ih =>
    cases w with
    | none => exact ih _ _
    | some w => exact State.Paged.trans ⟨_, _, _, _, _, _, _, rfl⟩ (ih _ _)

theorem paged_countPages (ps : List Nat) : s.Paged (s.countPages ps) := .foldl (fun _ _ => paged_updSb _ _) _ _

/-- Room in a quad is in the open superblock, or in a free one that is opened for it (R254, R257, R264). -/
theorem paged_placeIn {q n a k start : Nat} {x : SbUse} (h : s.placeIn q x n a = some (t, k, start)) : s.Paged t := by
  have hfresh : ∀ r : State, (if r.mayOpen q x && decide (n ≤ s.sbCap q (x != .native)) then
      (r.freeSb q).map (fun i => (r.openSb (sbKey q i) x, sbKey q i, 0)) else none) = some (t, k, start) → r.Paged t := by
    intro r hr
    split at hr
    · obtain ⟨i, -, hi⟩ := Option.map_eq_some_iff.mp hr
      cases hi
      exact paged_openSb _ _
    · cases hr
  unfold State.placeIn at h
  dsimp only at h
  split at h
  · split at h
    · cases h
      exact .refl s
    · exact (paged_closeSb _).trans (hfresh _ h)
  · exact hfresh _ h

theorem paged_place {n a k start : Nat} {x : SbUse} {allow : Nat → Bool} (h : s.place x n a allow = some (t, k, start)) : s.Paged t := by
  obtain ⟨_, _, _, -, hq, -⟩ := List.findSome?_eq_some_iff.mp h
  exact paged_placeIn hq

theorem paged_programPages (kind : Nat) (pages : List Bytes) : s.Paged (s.programPages kind pages).1 := by
  unfold State.programPages
  split
  next hplace =>
    split
    · exact .refl s
    · exact (((paged_place hplace).trans (paged_setCells _ _ _)).trans (paged_fillSb _ _)).trans ⟨_, _, _, _, _, _, _, rfl⟩
  · exact .refl s

theorem paged_programJournal (n : Nat) : s.Paged (s.programJournal n) := by
  unfold State.programJournal
  dsimp only
  split
  · exact .refl s
  · split
    · exact .refl s
    · exact (paged_programPages _ _).trans ⟨_, _, _, _, _, _, _, rfl⟩

theorem paged_writePage (p : Nat) : s.Paged (s.writePage p) := by
  have hpages := paged_programPages (s := s) 2 [s.mapPage p]
  unfold State.writePage
  split
  next hprog =>
    rw [hprog] at hpages
    exact hpages.trans ⟨_, _, _, _, _, _, _, rfl⟩
  · exact .refl s

theorem paged_evictPage : s.Paged s.evictPage := by
  unfold State.evictPage
  split
  · exact .refl s
  · dsimp only
    split
    · exact (paged_writePage _).trans ⟨_, _, _, _, _, _, _, rfl⟩
    · exact ⟨_, _, _, _, _, _, _, rfl⟩

theorem paged_touchPage (p : Nat) (dirty : Bool) : s.Paged (s.touchPage p dirty) := by
  unfold State.touchPage
  split
  · exact ⟨_, _, _, _, _, _, _, rfl⟩
  · dsimp only
    have hroom : s.Paged (if s.nss.cache.length < s.cachePages then s else s.evictPage) := by
      split
      · exact .refl s
      · exact paged_evictPage
    generalize (if s.nss.cache.length < s.cachePages then s else s.evictPage) = s1 at hroom
    refine hroom.trans ?_
    have hread : s1.Paged (match Mem.get none s1.nss.directory p with
        | some a => s1.countPages [a]
        | none => s1) := by
      split
      · exact paged_countPages _
      · exact .refl s1
    exact hread.trans ⟨_, _, _, _, _, _, _, rfl⟩

theorem paged_journalRecord (key word : Nat) : s.Paged (s.journalRecord key word) := by
  refine State.Paged.trans (t := if s.nss.journal.length < 65536 then s else s.programJournal 16384) ?_ ?_
  · split
    · exact .refl s
    · exact paged_programJournal _
  · exact State.Paged.trans ⟨_, _, _, _, _, _, _, rfl⟩ (paged_touchPage _ _)

/-! ### A namespace unit's entry -/

variable {k : Nat}

theorem entry_setEntry (hk : isChunkKey k = false) (e : MapEntry) : (s.setEntry k e).entry k = e.seal k := by
  have hunits := (paged_journalRecord (s := s.putEntry k e) (entryKey k) (e.seal (entryKey k)).word).units
  have hput : (s.putEntry k e).nss.units = Mem.set {} s.nss.units k (e.seal k) := by simp [State.putEntry, hk]
  simp only [State.entry, hk, Bool.false_eq_true, if_false, State.setEntry, hunits, hput]
  exact Mem.get_set_self _ _ _ _

theorem entry_loseUnit (hk : isChunkKey k = false) : (s.loseUnit k).entry k = MapEntry.seal { state := .lost } k := by
  unfold State.loseUnit
  exact entry_setEntry hk _

theorem mediaErrors_loseUnit (hk : isChunkKey k = false) : (s.loseUnit k).nss.mediaErrors = s.nss.mediaErrors + 1 := by
  unfold State.loseUnit State.setEntry
  refine (paged_journalRecord _ _).mediaErrors.trans ?_
  simp [State.putEntry, State.entryUnits, hk]

theorem unrecovered_nss (p : Nat) : (s.unrecovered k p).nss = (s.loseUnit k).nss := by
  unfold State.unrecovered
  rfl

theorem entry_unrecovered (hk : isChunkKey k = false) (p : Nat) : (s.unrecovered k p).entry k = (s.loseUnit k).entry k := by
  simp only [State.entry, hk, Bool.false_eq_true, if_false, unrecovered_nss]

theorem sb_updSb_self (g : Sb → Sb) : (s.updSb k g).sb k = g (s.sb k) := Mem.get_upd_self _ _ _ _

/-! ### The rungs -/

variable {i p n : Nat} {op : FlashOp} {r : ReadOutcome}

theorem readStep_reader {w : Reader} (hop : s.op i = some op) (hkind : op.kind = .read (some w) p n) {first : Bool}
    (hrung : (n == 0) = first) : s.readStep i first r = s.readRung i op w n r := by
  simp [State.readStep, hop, hkind, hrung]

theorem readStep_copy (hop : s.op i = some op) (hkind : op.kind = .read none p n) {first : Bool} (hrung : (n == 0) = first) :
    s.readStep i first r = s.copyRung i op p n r := by
  simp [State.readStep, hop, hkind, hrung]

theorem readStep_otherRung {x : Option Reader} (hop : s.op i = some op) (hkind : op.kind = .read x p n) {first : Bool}
    (hrung : (n == 0) ≠ first) : s.readStep i first r = s := by
  simp [State.readStep, hop, hkind, hrung]

theorem readStep_program {slc first : Bool} (hop : s.op i = some op) (hkind : op.kind = .program slc p) : s.readStep i first r = s := by
  simp [State.readStep, hop, hkind]

/-- The chunk of a unit that is read is there, or the unit is a namespace's. -/
theorem deliver_decoded {a : Asker} {x : Nat × Nat × Codeword} (h : isChunkKey x.1 = false ∨ s.chunk (chunkOf x.1) ≠ none) :
    s.deliver a x = match s.decodeUnit x.1 x.2.2 (s.readerTrailer a x.1) with
      | .data d => s.stage a.who x.1 (some d)
      | .badKey => s.readMismatch a x.1 (0x0900 + dieChannel (paddrDie x.2.1))
      | .badTag => s.readMismatch a x.1 0x0AFF := by
  have hthere : (isChunkKey x.1 && (s.chunk (chunkOf x.1)).isNone) = false := by
    rcases h with h | h
    · rw [h, Bool.false_and]
    · rw [Option.isNone_eq_false_iff.mpr (Option.isSome_iff_ne_none.mpr h), Bool.and_false]
  unfold State.deliver
  rw [hthere]
  rfl

/-- Settles O33, rung by rung through `readStep`; what the paging of a LOST entry leaves as it is stands in `paged_journalRecord`. -/
theorem flashReadsClimbTheLadder : Obligations.FlashReadsClimbTheLadder := by
  refine ⟨?_, ?_, ?_, ?_, ?_, ?_, ?_, ?_, ?_, ?_, ?_, ?_, ?_, ?_, ?_⟩
  · exact fun s i op w r p n hop hkind => congrArg _ (readStep_reader hop hkind rfl)
  · exact fun s i op w r p n hop hkind => congrArg _ (readStep_reader hop hkind rfl)
  · exact fun s i op w r p n hop hkind => congrArg _ (readStep_copy hop hkind rfl)
  · exact fun s i op w r p n hop hkind => congrArg _ (readStep_copy hop hkind rfl)
  · exact fun s i n p op x r hop hkind => congrArg _ (readStep_otherRung hop hkind Bool.false_ne_true)
  · exact fun s i p op x r hop hkind => congrArg _ (readStep_otherRung hop hkind (by decide))
  · exact fun s i op slc u r hop hkind => ⟨congrArg _ (readStep_program hop hkind), congrArg _ (readStep_program hop hkind)⟩
  · intro s i op w r n hall
    simp [State.readRung, hall]
  · intro s i op w r n hsome hlow
    simp [State.readRung, hsome, hlow]
  · intro s i op w r n hsome hhigh hcold
    simp [State.readRung, hsome, Nat.not_lt.mpr hhigh, hcold]
  · intro s a x key d hthere hkey hmedia hplain htag
    simp [deliver_decoded hthere, State.decodeUnit, hkey, hmedia, hplain, htag]
  · intro s a x hthere hkey
    simp [deliver_decoded hthere, State.decodeUnit, hkey]
  · intro s a x hthere hkey hmedia
    simp [deliver_decoded hthere, State.decodeUnit, hkey, hmedia]
  · intro s k p hk
    refine ⟨?_, ?_, ?_⟩
    · rw [entry_unrecovered hk, entry_loseUnit hk]
      rfl
    · rw [unrecovered_nss, mediaErrors_loseUnit hk]
    · exact congrArg Sb.relocate (sb_updSb_self (s := s.loseUnit k) (fun b => { b with relocate := true }))
  · intro s k p us helse
    have hkeeps : ¬ ((s.entry k).state = .flash ∧ (s.entry k).paddr + (k - entryOf k) = p) := fun h => helse.elim (· h.1) (· h.2)
    simp only [State.loseFailed, List.foldl_cons, if_neg hkeeps]

end Sys2Proof.Machine
end

section
/-! PROOFS. The digest engine's contexts (R386, R393): the statement about their opening, as it is written. -/

open Sys2Proof

namespace Sys2Proof.Machine

/-- In SERVICE, an open of context 0 under a CFG with SEAL from a submitter that may not seal still waits. -/
def waitingSealedOpen : State := { psm := { mode := .service }, dge := { opens := [(0, .feeder, 2 ^ 24)] } }

/-- The state of context 0 after a step. -/
def contextAfter : Host.Outcome State Fault Refusal → DgeState
  | .next t => (t.ctx 0).state
  | _ => .idle

/-- Refutes O56: its clause on an unkeyed CFG assumes nothing of the opens that wait; one of them, of the same context under a CFG that
fails, takes its turn in the same step and leaves the context in ERROR (R391, R393). -/
theorem not_digestMessagesOpenFeedAndFinish : ¬ Obligations.DigestMessagesOpenFeedAndFinish := by
  intro h
  obtain ⟨-, -, -, -, hopen, -⟩ := h
  obtain ⟨u, hu, hopened, -⟩ := hopen waitingSealedOpen 0 .feeder 0 (by decide) (by decide) (.inr (by decide)) (by decide) (by decide)
  have herror : contextAfter (exec (.dgeCtxCfg 0 .feeder 0) waitingSealedOpen) = .error := by decide +kernel
  rw [hu] at herror
  exact absurd (hopened.symm.trans herror) (by decide)

end Sys2Proof.Machine
end

section
/-! PROOFS. What the sequence of SAFE-HALT leaves as it is (R336, R546). -/

open Sys2Proof

namespace Sys2Proof.Machine

/-! ### Records leave the count of power cycles -/

theorem Rec.enqueue_powerCycles (r : Rec) (e : Event) : (r.enqueue e).powerCycles = r.powerCycles := by
  unfold Rec.enqueue
  (repeat' split) <;> rfl

theorem raiseFrom_powerCycles (s : State) (comp : Nat) (k : Ev) (tenant : Nat) (items : List (Nat × Nat)) :
    (s.raiseFrom comp k tenant items).recd.powerCycles = s.recd.powerCycles := by
  unfold State.raiseFrom
  dsimp only
  split
  · rfl
  · exact Rec.enqueue_powerCycles _ _

theorem toMode_powerCycles (s : State) (m : Mode) (cause : Nat) : (s.toMode m cause).recd.powerCycles = s.recd.powerCycles := by
  unfold State.toMode
  dsimp only
  split
  · rfl
  · exact raiseFrom_powerCycles _ _ _ _ _

/-- `t` is `s` after work that leaves the mode, the latched failure, the ranks, the power cycles and the domains that are off as they are:
of the power state only the count of dangerous records may differ, and of DRAM only its contents and the request for self-refresh. -/
def State.Aside (s t : State) : Prop :=
  (∃ d, t.psm = { s.psm with halt := { s.psm.halt with dangerous := d } }) ∧
    (∃ cl sr, t.dram = { s.dram with cells := cl, srRequested := sr }) ∧ t.recd.powerCycles = s.recd.powerCycles ∧
    t.dmf.forced = s.dmf.forced

theorem State.Aside.refl (s : State) : s.Aside s := ⟨⟨_, rfl⟩, ⟨_, _, rfl⟩, rfl, rfl⟩

theorem State.Aside.trans {s t u : State} (h : s.Aside t) (h' : t.Aside u) : s.Aside u := by
  obtain ⟨⟨d, hpsm⟩, ⟨cl, sr, hdram⟩, hcycles, hforced⟩ := h
  obtain ⟨⟨d', hpsm'⟩, ⟨cl', sr', hdram'⟩, hcycles', hforced'⟩ := h'
  refine ⟨⟨d', ?_⟩, ⟨cl', sr', ?_⟩, hcycles'.trans hcycles, hforced'.trans hforced⟩
  · rw [hpsm', hpsm]
  · rw [hdram', hdram]

theorem State.Aside.foldl {α : Type} {f : State → α → State} (hf : ∀ (s : State) a, s.Aside (f s a)) (l : List α) (s : State) :
    s.Aside (l.foldl f s) := by
  induction l generalizing s with
  | nil => exact .refl s
  | cons a l ih => exact (hf s a).trans (ih _)

theorem State.Aside.of_eq {s t : State} (hpsm : t.psm = s.psm) (hdram : t.dram = s.dram) (hrecd : t.recd = s.recd)
    (hforced : t.dmf.forced = s.dmf.forced) : s.Aside t := by
  refine ⟨⟨s.psm.halt.dangerous, ?_⟩, ⟨s.dram.cells, s.dram.srRequested, ?_⟩, ?_, hforced⟩
  · rw [hpsm]
  · rw [hdram]
  · rw [hrecd]

variable {s : State}

theorem aside_raiseFrom (comp : Nat) (k : Ev) (tenant : Nat) (items : List (Nat × Nat)) : s.Aside (s.raiseFrom comp k tenant items) :=
  ⟨⟨_, rfl⟩, ⟨_, _, rfl⟩, raiseFrom_powerCycles _ _ _ _ _, rfl⟩

theorem aside_setCh (ch : Nat) (c : DmaCh) : s.Aside (s.setCh ch c) := .of_eq rfl rfl rfl rfl

theorem aside_markDirty (f a n : Nat) : s.Aside (s.markDirty f a n) := by
  unfold State.markDirty
  split
  · exact .refl s
  · exact .of_eq rfl rfl rfl rfl

theorem aside_emit (ms : List HostMsg) : s.Aside (s.emit ms) := .of_eq rfl rfl rfl rfl

theorem aside_hostWrite (f a : Nat) (bs : Bytes) : s.Aside (s.hostWrite f a bs) := by
  unfold State.hostWrite
  split
  · exact .refl s
  · exact (aside_emit _).trans (aside_markDirty _ _ _)

theorem aside_hostFill (f a n : Nat) (b : Byte) : s.Aside (s.hostFill f a n b) := by
  unfold State.hostFill
  split
  · exact .refl s
  · exact (aside_emit _).trans (aside_markDirty _ _ _)

theorem aside_spaceWrite (f space a : Nat) (bs : Bytes) : s.Aside (s.spaceWrite f space a bs) := by
  unfold State.spaceWrite
  split
  · exact aside_hostWrite _ _ _
  · exact aside_hostWrite _ _ _
  · exact .of_eq rfl rfl rfl rfl
  · exact ⟨⟨_, rfl⟩, ⟨_, _, rfl⟩, rfl, rfl⟩
  · exact .of_eq rfl rfl rfl rfl
  · exact .refl s

theorem aside_spaceFill (f space a n : Nat) (b : Byte) : s.Aside (s.spaceFill f space a n b) := by
  unfold State.spaceFill
  split
  · exact aside_hostFill _ _ _ _
  · exact aside_hostFill _ _ _ _
  · exact aside_spaceWrite _ _ _ _

theorem aside_closeDesc (spl : Bool) (a st : Nat) : s.Aside (s.closeDesc spl a st) :=
  (aside_spaceWrite _ _ _ _).trans (aside_spaceWrite _ _ _ _)

theorem aside_retractJob (failing result : Nat) (l : List (Bool × Nat × Nat)) (n : Nat) (s : State) :
    s.Aside (s.retractJob failing result l n).1 := by
  induction l generalizing s n with
  | nil => exact .refl s
  | cons x l ih =>
    refine State.Aside.trans ?_ (ih _ _)
    refine State.Aside.trans ?_ (aside_closeDesc _ _ _)
    split
    · exact .refl s
    · exact aside_spaceFill _ _ _ _ _

theorem aside_stopMove (ch : Nat) (d : Desc) : s.Aside (s.stopMove ch d) := by
  unfold State.stopMove State.moveDesc
  refine State.Aside.trans (t := (if d.srcSpace ≤ 1 then (s.draw 32).2.drawBytes
    (if s.retired d.func d.gen then 0 else d.stopAt (s.draw 32).1.toNat) else ([], (s.draw 32).2)).2) ?_ ?_
  · split <;> exact .of_eq rfl rfl rfl rfl
  · exact (aside_spaceWrite _ _ _ _).trans (aside_setCh _ _)

theorem aside_haltChannel (ch : Nat) : s.Aside (s.haltChannel ch) := by
  unfold State.haltChannel
  dsimp only
  split
  · have hstop : s.Aside (if (s.ch ch).state = .active ∧ !(s.ch ch).held then s.stopMove ch (s.curDesc ch) else s) := by
      split
      · exact aside_stopMove _ _
      · exact .refl s
    generalize (if (s.ch ch).state = .active ∧ !(s.ch ch).held then s.stopMove ch (s.curDesc ch) else s) = s1 at hstop
    refine (hstop.trans (aside_retractJob (s.ch ch).cur 0x06 (s1.ch ch).job 0 s1)).trans ?_
    generalize s1.retractJob (s.ch ch).cur 0x06 (s1.ch ch).job 0 = r
    refine State.Aside.trans ?_ (aside_setCh _ _)
    split
    · exact .refl _
    · exact aside_raiseFrom _ _ _ _
  · split
    · exact aside_setCh _ _
    · exact .refl s

theorem aside_updCmd (id : CmdId) (g : Cmd → Cmd) : s.Aside (s.updCmd id g) := by
  unfold State.updCmd
  split
  · exact .refl s
  · exact .of_eq rfl rfl rfl rfl

theorem aside_noteFinished (id : CmdId) : s.Aside (s.noteFinished id) := by
  unfold State.noteFinished
  split
  · exact .of_eq rfl rfl rfl rfl
  · exact .refl s

theorem aside_finish (id : CmdId) (st : Status) (d e : BitVec 32) : s.Aside (s.finish id st d e) :=
  (aside_noteFinished id).trans (aside_updCmd _ _)

/-- Every command in flight fails at SAFE-HALT. -/
def State.failInflight (s : State) : State := s.inflight.foldl (fun s e => s.finish e.1 .internalSafeHalt) s

theorem aside_failInflight : s.Aside s.failInflight := .foldl (fun _ _ => aside_finish _ _ _ _) _ _

/-- Every channel stops at SAFE-HALT. -/
def State.haltChannels (s : State) : State := (Mem.keys s.dmf.chans).foldl State.haltChannel s

theorem aside_haltChannels : s.Aside s.haltChannels := .foldl (fun _ _ => aside_haltChannel _) _ _

/-- The record of SAFE-HALT, and its outputs where no safe drain comes first. -/
def State.announceHalt (s : State) (code comp : Nat) (drain : Bool) : State :=
  let s := s.raise evSafeHaltEntered 255 [(2, code), (2, comp), (4, flag drain)]
  if drain then s else s.haltOutputs

theorem aside_announceHalt (code comp : Nat) (drain : Bool) : s.Aside (s.announceHalt code comp drain) := by
  unfold State.announceHalt
  dsimp only
  split
  · exact aside_raiseFrom _ _ _ _
  · exact (aside_raiseFrom _ _ _ _).trans ⟨⟨_, rfl⟩, ⟨_, _, rfl⟩, rfl, rfl⟩

/-- What SAFE-HALT does once its mode and its cause are latched (R546). -/
def State.haltSequence (s : State) (code comp : Nat) (drain : Bool) : State :=
  s.noteUndone.failInflight.haltChannels.stopEngines.announceHalt code comp drain

theorem aside_haltSequence (code comp : Nat) (drain : Bool) : s.Aside (s.haltSequence code comp drain) := by
  have hnote : s.Aside s.noteUndone := .of_eq rfl rfl rfl rfl
  have hchans := (hnote.trans aside_failInflight).trans aside_haltChannels
  have hstop : s.Aside s.noteUndone.failInflight.haltChannels.stopEngines := hchans.trans (.of_eq rfl rfl rfl rfl)
  exact hstop.trans (aside_announceHalt _ _ _)

/-- The state in which SAFE-HALT has latched its mode and its cause. -/
def State.latched (s : State) (code comp seq : Nat) (drain : Bool) : State :=
  let s := (s.toMode .safeHalt code).abandonWork
  { s with psm := { s.psm with halt := { s.psm.halt with code := code, component := comp, seq := seq, safeDrain := drain } } }

theorem latched_dram (code comp seq : Nat) (drain : Bool) : (s.latched code comp seq drain).dram = s.dram := by
  unfold State.latched State.toMode
  dsimp only
  split <;> rfl

/-- The modes in which a dangerous failure enters SAFE-HALT (R544). -/
def Mode.entersHalt : Mode → Bool
  | .off | .hold | .drain | .safeHalt => false
  | _ => true

theorem enterSafeHalt_of_entersHalt (h : s.psm.mode.entersHalt = true) (code comp seq : Nat) (drain : Bool) :
    s.enterSafeHalt code comp seq drain = (s.latched code comp seq (drain && s.psm.mode != .boot && !s.psm.heldFromHalt)).haltSequence
      code comp (drain && s.psm.mode != .boot && !s.psm.heldFromHalt) := by
  unfold State.enterSafeHalt
  split
  next hm => rw [hm] at h; cases h
  next hm => rw [hm] at h; cases h
  next hm => rw [hm] at h; cases h
  next hm => rw [hm] at h; cases h
  next => rfl

theorem enterSafeHalt_of_not_entersHalt (h : s.psm.mode.entersHalt = false) (code comp seq : Nat) (drain : Bool) :
    s.enterSafeHalt code comp seq drain = s := by
  unfold State.enterSafeHalt
  split
  next => rfl
  next => rfl
  next => rfl
  next => rfl
  next => cases hm : s.psm.mode <;> simp_all [Mode.entersHalt]

theorem latched_powerCycles (code comp seq : Nat) (drain : Bool) : (s.latched code comp seq drain).recd.powerCycles = s.recd.powerCycles :=
  toMode_powerCycles s .safeHalt code

/-- A failure in a running mode ends in SAFE-HALT with its cause latched and FAULT_N low; the fence and the tripped rails stay as they were
(R544, R546). -/
theorem enterSafeHalt_psm (h : s.psm.mode.entersHalt = true) (code comp seq : Nat) (drain : Bool) :
    (s.enterSafeHalt code comp seq drain).psm.mode = .safeHalt ∧ (s.enterSafeHalt code comp seq drain).psm.halt.code = code ∧
      (s.enterSafeHalt code comp seq drain).psm.halt.component = comp ∧
      (s.enterSafeHalt code comp seq drain).psm.halt.safeDrain = (drain && s.psm.mode != .boot && !s.psm.heldFromHalt) ∧
      (s.enterSafeHalt code comp seq drain).psm.fence = s.psm.fence ∧ (s.enterSafeHalt code comp seq drain).psm.rails = s.psm.rails ∧
      (s.enterSafeHalt code comp seq drain).recd.powerCycles = s.recd.powerCycles ∧
      (s.enterSafeHalt code comp seq drain).dmf.forced = s.dmf.forced ∧ (s.enterSafeHalt code comp seq drain).psm.pins.faultLow = true := by
  rw [enterSafeHalt_of_entersHalt h]
  generalize (drain && s.psm.mode != .boot && !s.psm.heldFromHalt) = dr
  obtain ⟨⟨d, hpsm⟩, -, hcycles, hforced⟩ := aside_haltSequence (s := s.latched code comp seq dr) code comp dr
  have hlatched : (s.latched code comp seq dr).psm.fence = s.psm.fence ∧ (s.latched code comp seq dr).psm.rails = s.psm.rails ∧
      (s.latched code comp seq dr).dmf = s.dmf := by
    unfold State.latched State.toMode
    dsimp only
    split <;> exact ⟨rfl, rfl, rfl⟩
  rw [hpsm, hcycles, hforced, hlatched.2.2]
  exact ⟨rfl, rfl, rfl, rfl, hlatched.1, hlatched.2.1, latched_powerCycles _ _ _ _, rfl, rfl⟩

/-- Without a safe drain the ranks go to self-refresh at once (R546). -/
theorem enterSafeHalt_outputs (h : s.psm.mode.entersHalt = true) (code comp seq : Nat) :
    (s.enterSafeHalt code comp seq false).dram.srRequested = true := by
  rw [enterSafeHalt_of_entersHalt h]
  rfl

/-- The ranks stay as they are at SAFE-HALT (R546). -/
theorem enterSafeHalt_latches (h : s.psm.mode.entersHalt = true) (code comp seq : Nat) (drain : Bool) :
    (s.enterSafeHalt code comp seq drain).psm.mode = .safeHalt ∧ (s.enterSafeHalt code comp seq drain).psm.halt.code = code ∧
      (s.enterSafeHalt code comp seq drain).psm.halt.component = comp ∧
      ∃ cl sr, (s.enterSafeHalt code comp seq drain).dram = { s.dram with cells := cl, srRequested := sr } := by
  obtain ⟨hmode, hcode, hcomp, -⟩ := enterSafeHalt_psm h code comp seq drain
  refine ⟨hmode, hcode, hcomp, ?_⟩
  rw [enterSafeHalt_of_entersHalt h]
  generalize (drain && s.psm.mode != .boot && !s.psm.heldFromHalt) = dr
  obtain ⟨-, ⟨cl, sr, hdram⟩, -⟩ := aside_haltSequence (s := s.latched code comp seq dr) code comp dr
  rw [hdram, latched_dram]
  exact ⟨cl, sr, rfl⟩

theorem dangerHalt_psm (h : s.psm.mode.entersHalt = true) (k : Ev) (comp : Nat) (items : List (Nat × Nat)) (drain : Bool) :
    (s.dangerHalt k comp items drain).psm.mode = .safeHalt ∧ (s.dangerHalt k comp items drain).psm.halt.code = k.code ∧
      (s.dangerHalt k comp items drain).psm.halt.component = comp ∧
      (s.dangerHalt k comp items drain).psm.halt.safeDrain = (drain && s.psm.mode != .boot && !s.psm.heldFromHalt) ∧
      (s.dangerHalt k comp items drain).psm.fence = s.psm.fence ∧ (s.dangerHalt k comp items drain).psm.rails = s.psm.rails ∧
      (s.dangerHalt k comp items drain).recd.powerCycles = s.recd.powerCycles ∧
      (s.dangerHalt k comp items drain).psm.pins.faultLow = true := by
  obtain ⟨hmode, hcode, hcomp, hdrain, hfence, hrails, hcycles, -, hfault⟩ :=
    enterSafeHalt_psm (s := s.raise k 255 items) h k.code comp s.recd.next drain
  exact ⟨hmode, hcode, hcomp, hdrain, hfence, hrails, hcycles.trans (raiseFrom_powerCycles _ _ _ _ _), hfault⟩

theorem dangerHalt_latches (h : s.psm.mode.entersHalt = true) (k : Ev) (comp : Nat) (items : List (Nat × Nat)) (drain : Bool) :
    (s.dangerHalt k comp items drain).psm.mode = .safeHalt ∧ (s.dangerHalt k comp items drain).psm.halt.code = k.code ∧
      (s.dangerHalt k comp items drain).psm.halt.component = comp ∧
      ∃ cl sr, (s.dangerHalt k comp items drain).dram = { s.dram with cells := cl, srRequested := sr } :=
  enterSafeHalt_latches (s := s.raise k 255 items) h k.code comp s.recd.next drain

/-- A failure in a mode that is no running one stands in its record alone (R544). -/
theorem dangerHalt_of_not_entersHalt (h : s.psm.mode.entersHalt = false) (k : Ev) (comp : Nat) (items : List (Nat × Nat)) (drain : Bool) :
    s.dangerHalt k comp items drain = s.raise k 255 items :=
  enterSafeHalt_of_not_entersHalt (s := s.raise k 255 items) h k.code comp s.recd.next drain

end Sys2Proof.Machine
end

section
/-! PROOFS. Refresh, self-refresh, the scrubber, migrations, spares and the bring-up of DRAM (R292 to R300, R303 to R307). -/

open Sys2Proof

namespace Sys2Proof.Machine

variable {s : State} {ch cs rk bank line l : Nat}

/-! ### Row-disturb windows and refresh -/

/-- A bank's entry after a window; one that reads as never used is not listed. -/
def restarted (e : Nat × RowTrack) : Option (Nat × RowTrack) := if e.2.restart = {} then none else some (e.1, e.2.restart)

/-- After a window every bank, tracked or not, has no count and no throttle (R300). -/
theorem window_restarts (m : Mem RowTrack) (k : Nat) :
    (Mem.get {} (m.filterMap restarted) k).rows = [] ∧ (Mem.get {} (m.filterMap restarted) k).throttled = none := by
  induction m with
  | nil => exact ⟨rfl, rfl⟩
  | cons e m ih =>
    by_cases hrest : e.2.restart = {}
    · rwa [List.filterMap_cons_none (by simp [restarted, hrest])]
    · rw [List.filterMap_cons_some (b := (e.1, e.2.restart)) (by simp [restarted, hrest])]
      unfold Mem.get
      split
      · exact ⟨rfl, rfl⟩
      · exact ih

/-- What a refresh does to a bank (R296). -/
def RowTrack.refreshed (b : RowTrack) : RefreshAct → RowTrack
  | .issue => { b with refreshes := b.refreshes + 1, openRow := none }
  | .postpone => if b.debt < 4 then { b with debt := b.debt + 1 } else { b with refreshes := b.refreshes + 1, openRow := none }
  | .early => if b.debt > -4 then { b with refreshes := b.refreshes + 1, debt := b.debt - 1, openRow := none } else b

theorem refresh_track (act : RefreshAct) (hch : ch ≤ 1) (hrk : rk ≤ 3) (hbank : bank ≤ 31) (hawake : s.dmcAwake ch = true)
    (hfitted : s.rank ch rk ≠ .absent) : ∃ u : State, exec (.refresh ch rk bank act) s = .next u ∧
      Mem.get {} u.dram.track ((4 * ch + rk) * 32 + bank) =
        (Mem.get {} s.dram.track ((4 * ch + rk) * 32 + bank)).refreshed act := by
  have hruns : ¬ (1 < ch ∨ 3 < rk ∨ 31 < bank ∨ !s.dmcAwake ch ∨ s.rank ch rk = .absent) := by
    simp only [hawake, hfitted, Bool.not_true, Bool.false_eq_true, or_false]
    omega
  refine ⟨_, congrArg Host.Outcome.next (if_neg hruns), ?_⟩
  exact Mem.get_upd_self {} s.dram.track _ (fun b => b.refreshed act)

/-! ### The scrubber -/

/-- A patrol read of an in-service rank (R303). -/
theorem exec_scrubRead {t : State} {wrong : List Nat} (hch : ch ≤ 1) (hrk : rk ≤ 3) (hline : line < rankLines s.dram.board)
    (hnormal : s.dmcNormal = true) (hl : s.logicalOf ch rk = some l) (ht : (s.wakeChannel ch).activate ch rk line 7 = t) :
    exec (.scrubRead ch rk line wrong) s = .next (match eccOf wrong with
      | .clean => { t with dram := { t.dram with scrubbed := t.dram.scrubbed + 1 } }
      | .corrected => ({ t with dram := { t.dram with scrubbed := t.dram.scrubbed + 1 } } : State).correctedError ch rk
      | .uncorrectable =>
        ({ t with dram := { t.dram with scrubbed := t.dram.scrubbed + 1 } } : State).uncorrectable ch rk (s.dramAddr ch l line) 7 1) := by
  have hruns : ¬ (1 < ch ∨ 3 < rk ∨ rankLines s.dram.board ≤ line ∨ !s.dmcNormal) := by
    simp only [hnormal, Bool.not_true, Bool.false_eq_true, or_false]
    omega
  subst ht
  simp only [exec, execScrubRead, if_neg hruns, hl] <;> cases eccOf wrong <;> rfl

/-! ### Migrations and spares -/

theorem recd_next_raise (k : Ev) (tenant : Nat) (items : List (Nat × Nat)) : (s.raise k tenant items).recd.next = s.recd.next + 1 := by
  unfold State.raise State.raiseFrom
  dsimp only
  split
  · rfl
  · unfold Rec.enqueue
    split
    · rfl
    · split
      · rfl
      · split <;> rfl

/-- The ranks and their map once a migration is done: the logical rank, where there is one, lies on the target (R306, R307). -/
def State.swapRanks (s : State) (ch : Nat) (m : Migration) : State :=
  ((match s.logicalOf ch m.fromCs with | some l => s.mapRank ch l (some m.toCs) | none => s).setRank ch m.fromCs .retired).setRank
    ch m.toCs .inService

/-- The state after a migration during which no other rank failed. -/
def State.migrated (s : State) (ch : Nat) (m : Migration) : State :=
  { s.swapRanks ch m with dram := { (s.swapRanks ch m).dram with
      migration := Mem.set none s.dram.migration ch none, deferredFail := [] } }

theorem exec_rankMigrated {rebuilt ms : Nat} {m : Migration} (hnormal : s.dmcNormal = true)
    (hm : Mem.get none s.dram.migration ch = some m) (hnone : s.dram.deferredFail = []) :
    exec (.rankMigrated ch rebuilt ms) s =
      .next ((s.migrated ch m).raise evRankMigrated 255 [(1, ch), (1, m.fromCs), (1, m.toCs), (4, rebuilt), (4, ms)]) := by
  cases hl : s.logicalOf ch m.fromCs <;>
    simp [exec, execRankMigrated, hnormal, hm, hnone, hl, State.migrated, State.swapRanks, State.setRank, State.mapRank]

theorem rank_swapRanks_from {m : Migration} (h : m.fromCs ≠ m.toCs) : (s.swapRanks ch m).rank ch m.fromCs = .retired :=
  (State.rank_setRank_other _ h).trans (State.rank_setRank_self _)

theorem rank_swapRanks_to (m : Migration) : (s.swapRanks ch m).rank ch m.toCs = .inService := State.rank_setRank_self _

theorem csOf_swapRanks {m : Migration} (h : s.logicalOf ch m.fromCs = some l) : (s.swapRanks ch m).csOf ch l = some m.toCs := by
  unfold State.swapRanks
  rw [h]
  exact Mem.get_set_self none s.dram.rankMap (4 * ch + l) (some m.toCs)

theorem cells_swapRanks (m : Migration) : (s.swapRanks ch m).dram.cells = s.dram.cells := by
  unfold State.swapRanks
  cases s.logicalOf ch m.fromCs <;> rfl

theorem recd_swapRanks (m : Migration) : (s.swapRanks ch m).recd = s.recd := by
  unfold State.swapRanks
  cases s.logicalOf ch m.fromCs <;> rfl

/-! ### Bring-up -/

/-- The ranks of a board with one rank on each channel and no spare (R306). -/
theorem bootRanks_one (hn : boardRanks s.dram.board = 1) (hsp : bit (byteAt s.dram.board 0) 6 = false) (hr : s.dram.ranks = [])
    (hm : s.dram.rankMap = []) : s.bootRanks = { s with dram := { s.dram with
      ranks := [(0, .inService), (4, .inService)], rankMap := [(0, some 0), (4, some 0)] } } := by
  simp only [State.bootRanks, hn, hsp, hr]
  simp [State.setRank, State.mapRank, hr, hm, Mem.set, Mem.erase, Mem.insert]

/-- Two reports, one for the one rank of each channel. -/
structure TwoReports (a b : RankReport) : Prop where
  chA : a.ch = 0
  chB : b.ch = 1
  rankA : a.rank = 0
  rankB : b.rank = 0

/-- BOOT of a fresh board with one rank on each channel and no spare. -/
structure State.BootsTwo (s : State) : Prop where
  mode : s.psm.mode = .boot
  test : s.psm.pins.testEn = false
  down : s.dram.resetHigh = false
  board : s.dram.board ≠ []
  one : boardRanks s.dram.board = 1
  noSpare : bit (byteAt s.dram.board 0) 6 = false
  fresh : s.dram.ranks = []
  unmapped : s.dram.rankMap = []

/-- The state of such a BOOT before the reports are judged. -/
def State.bootedTwo (s : State) : State :=
  let s1 := { s with dram := { s.dram with
    resetHigh := true, cells := [], ranks := [(0, .inService), (4, .inService)], rankMap := [(0, some 0), (4, some 0)] } }
  { s1 with dram := { s1.dram with mapCacheNow := s1.mapCacheFor s1.dramGib } }

/-- A report's margins are stored, and its verdict taken. -/
def State.takeReport (s : State) (r : RankReport) : State := (s.storeMargins r).judgeRank (byteAt s.dram.board 14) r

theorem exec_dramBringup_two {a b : RankReport} (h : s.BootsTwo) (hr : TwoReports a b)
    (hmap : ((s.bootedTwo.takeReport a).takeReport b).dram.rankMap = s.bootedTwo.dram.rankMap) :
    exec (.dramBringup [a, b]) s = .next ((s.bootedTwo.takeReport a).takeReport b) := by
  obtain ⟨hmode, htest, hdown, hboard, hone, hspare, hfresh, hunmapped⟩ := h
  obtain ⟨hchA, hchB, hrankA, hrankB⟩ := hr
  have hranks := bootRanks_one (s := { s with dram := { s.dram with resetHigh := true, cells := [] } }) hone hspare hfresh hunmapped
  have hfull : ¬ (List.range 8).countP (fun k => (Mem.get none ((s.bootedTwo.takeReport a).takeReport b).dram.rankMap k).isSome) < 2 := by
    rw [hmap]
    change ¬ (List.range 8).countP (fun k => (Mem.get none [(0, some 0), (4, some 0)] k).isSome) < 2
    decide
  simp only [exec, execDramBringup, hone, hranks]
  simp [hmode, htest, hdown, hboard, hchA, hchB, hrankA, hrankB, hspare]
  exact if_neg hfull

theorem judgeRank_good {need : Nat} {r : RankReport} (hlow : lowMargin r need = none) (hgood : r.badLine = none)
    (hin : s.rank r.ch r.rank = .inService) : s.judgeRank need r = s := by
  simp [State.judgeRank, hlow, hgood, hin]

/-- A rank in service with a low margin is a dangerous failure (R294). -/
theorem judgeRank_low {need m : Nat} {r : RankReport} (hlow : lowMargin r need = some m) (hin : s.rank r.ch r.rank = .inService) :
    s.judgeRank need r = (((s.draw 8).2.draw 32).2.draw 32).2.dangerHalt evDramProfileFail evDramProfileFail.comp
      [(1, r.ch), (1, r.rank), (1, (s.draw 8).1.toNat), (4, ((s.draw 8).2.draw 32).1.toNat), (4, m)] true := by
  simp [State.judgeRank, hlow, hin]

/-- In SAFE-HALT the verdict on a rank in service changes neither the mode nor the ranks. -/
theorem judgeRank_halted {need : Nat} {r : RankReport} (hmode : s.psm.mode = .safeHalt) (hin : s.rank r.ch r.rank = .inService) :
    s.Aside (s.judgeRank need r) := by
  unfold State.judgeRank
  rw [hin]
  dsimp only
  split
  · exact .refl s
  · rw [dangerHalt_of_not_entersHalt (by rw [show (((s.draw 8).2.draw 32).2.draw 32).2.psm.mode = .safeHalt from hmode]; rfl)]
    exact aside_raiseFrom _ _ _ _

/-- Settles O38, command by command. -/
theorem ranksRefreshScrubMigrateAndComeUp : Obligations.RanksRefreshScrubMigrateAndComeUp := by
  refine ⟨?_, ?_, ?_, ?_, ?_, ?_, ?_, ?_, ?_, ?_, ?_, ?_, ?_, ?_, ?_, ?_, ?_, ?_, ?_, ?_, ?_⟩
  · exact fun s k => ⟨_, rfl, (window_restarts s.dram.track k).1, (window_restarts s.dram.track k).2, rfl, rfl⟩
  · intro s ch rk bank b hch hrk hbank hawake hfitted hb
    exact hb ▸ refresh_track .issue hch hrk hbank hawake hfitted
  · intro s ch rk bank b hch hrk hbank hawake hfitted hb hdebt
    have hpostponed := refresh_track .postpone hch hrk hbank hawake hfitted
    rwa [hb, RowTrack.refreshed, if_pos hdebt] at hpostponed
  · intro s ch rk bank b hch hrk hbank hawake hfitted hb hdebt
    have hissued := refresh_track .postpone hch hrk hbank hawake hfitted
    rwa [hb, RowTrack.refreshed, if_neg (Int.not_lt.mpr hdebt)] at hissued
  · intro s ch rk bank b hch hrk hbank hawake hfitted hb hdebt
    have hearly := refresh_track .early hch hrk hbank hawake hfitted
    rwa [hb, RowTrack.refreshed, if_pos hdebt] at hearly
  · intro s ch rk bank b hch hrk hbank hawake hfitted hb hdebt
    have hkept := refresh_track .early hch hrk hbank hawake hfitted
    rwa [hb, RowTrack.refreshed, if_neg (Int.not_lt.mpr hdebt)] at hkept
  · exact fun s hawake => congrArg Host.Outcome.next (if_pos hawake)
  · exact fun s d hawake => congrArg Host.Outcome.next (if_pos hawake)
  · intro s ch after hch hreq hup hrest hfree
    have hidle : ¬ 1 < ch := by omega
    simp [exec, execSelfRefreshEntry, hidle, hreq, hup, hrest, hfree]
  · intro s ch after hch hreq hup hhalt
    have hidle : ¬ 1 < ch := by omega
    simp [exec, execSelfRefreshEntry, hidle, hreq, hup, hhalt]
  · intro s ch after
    simp [exec, execSelfRefreshEntry]
  · intro s t ch rk line l wl hch hrk hline hnormal hl ht hwl
    rw [exec_scrubRead hch hrk hline hnormal hl ht, hwl]
  · intro s t ch rk line l wl hch hrk hline hnormal hl ht hwl
    rw [exec_scrubRead hch hrk hline hnormal hl ht, hwl]
  · intro s t ch rk line l wl hch hrk hline hnormal hl ht hwl
    rw [exec_scrubRead hch hrk hline hnormal hl ht, hwl]
  · intro s ch cs n hn hfew
    simp [State.correctedError, hn, hfew]
  · intro s ch rebuilt ms m hnormal hm hne hfrom hto hch hnone
    refine ⟨_, exec_rankMigrated hnormal hm hnone, rank_swapRanks_from hne, rank_swapRanks_to m, Mem.get_set_self none s.dram.migration ch none,
      fun l hl => csOf_swapRanks hl, ?_, cells_swapRanks m⟩
    rw [recd_next_raise]
    exact congrArg (fun r => r.next + 1) (recd_swapRanks m)
  · intro s ch rk hnormal hch hrk hspare hfresh
    have hch' : ¬ 1 < ch := by omega
    have hrk' : ¬ 3 < rk := by omega
    simp [exec, execSpareInit, hnormal, hch', hrk', hspare, hfresh]
  · intro s ch rk a hnormal hch hrk hspare hfresh
    have hch' : ¬ 1 < ch := by omega
    have hrk' : ¬ 3 < rk := by omega
    simp [exec, execSpareInit, hnormal, hch', hrk', hspare, hfresh]
  · intro s reports hno
    rcases hno with h | h | h | h <;> simp [exec, execDramBringup, h]
  · intro s a b m hmode htest hdown hboard hone hspare hfresh hunmapped hchA hchB hrankA hrankB hgoodA hgoodB hlowA hlowB hm
    subst hm
    have hA : s.bootedTwo.takeReport a = s.bootedTwo.storeMargins a :=
      judgeRank_good hlowA hgoodA (by rw [hchA, hrankA]; rfl)
    have hB : (s.bootedTwo.storeMargins a).takeReport b = (s.bootedTwo.storeMargins a).storeMargins b :=
      judgeRank_good hlowB hgoodB (by rw [hchB, hrankB]; rfl)
    refine ⟨_, exec_dramBringup_two ⟨hmode, htest, hdown, hboard, hone, hspare, hfresh, hunmapped⟩ ⟨hchA, hchB, hrankA, hrankB⟩ ?_, ?_⟩
    · rw [hA, hB]
      rfl
    · rw [hA, hB]
      exact ⟨rfl, rfl, rfl, rfl, rfl, rfl, rfl, rfl⟩
  · intro s a b m hmode htest hdown hboard hone hspare hfresh hunmapped hchA hchB hrankA hrankB hlow
    have hA : s.bootedTwo.takeReport a = _ := judgeRank_low (s := s.bootedTwo.storeMargins a) hlow (by rw [hchA, hrankA]; rfl)
    obtain ⟨hhalt, hcode, -, cl, sr, hdram⟩ := dangerHalt_latches
      (s := ((((s.bootedTwo.storeMargins a).draw 8).2.draw 32).2.draw 32).2) (congrArg Mode.entersHalt hmode) evDramProfileFail
      evDramProfileFail.comp [(1, a.ch), (1, a.rank), (1, ((s.bootedTwo.storeMargins a).draw 8).1.toNat),
        (4, (((s.bootedTwo.storeMargins a).draw 8).2.draw 32).1.toNat), (4, m)] true
    rw [← hA] at hhalt hcode hdram
    obtain ⟨⟨d, hpsm⟩, ⟨cl', sr', hdram'⟩, -⟩ := judgeRank_halted (s := (s.bootedTwo.takeReport a).storeMargins b)
      (need := byteAt (s.bootedTwo.takeReport a).dram.board 14) (r := b) hhalt (by
        rw [hchB, hrankB]
        change Mem.get .absent (s.bootedTwo.takeReport a).dram.ranks 4 = .inService
        rw [hdram]
        rfl)
    refine ⟨_, exec_dramBringup_two ⟨hmode, htest, hdown, hboard, hone, hspare, hfresh, hunmapped⟩ ⟨hchA, hchB, hrankA, hrankB⟩ ?_,
      ?_, ?_, ?_⟩
    · have hmap : (s.bootedTwo.takeReport a).dram.rankMap = s.bootedTwo.dram.rankMap := by rw [hdram]; rfl
      exact (congrArg Dram.rankMap hdram').trans hmap
    · exact (congrArg Psm.mode hpsm).trans hhalt
    · have hhigh : (s.bootedTwo.takeReport a).dram.resetHigh = true := by rw [hdram]; rfl
      exact (congrArg Dram.resetHigh hdram').trans hhigh
    · exact (congrArg (fun p => p.halt.code) hpsm).trans hcode

end Sys2Proof.Machine
end

section
/-! PROOFS. The Sweep link (R572 to R574): the statement about acknowledgements, as it is written. -/

open Sys2Proof

namespace Sys2Proof.Machine

/-- Refutes O60: in its clause on acknowledgements the premise binds to the left side of the equivalence, `(x.keyNo = fr.keyNo → x stays
unacknowledged) ↔ (x was unacknowledged and is above ACK_SEQ)`. For a sent frame under another key number than the received one the left
side holds with nothing unacknowledged, and the right side does not. -/
theorem not_pairKeepsItsCopiesAndSurvivesLoss : ¬ Obligations.PairKeepsItsCopiesAndSurvivesLoss := by
  intro h
  obtain ⟨-, -, -, -, hack, -⟩ := h
  have hsent := (hack {} { seq := 0, keyNo := 1 } { kind := 0, keyNo := 0, seq := 1 }).mp (fun hkey => absurd hkey Nat.zero_ne_one)
  cases hsent.1

end Sys2Proof.Machine
end

section
/-! PROOFS. Admin and I/O commands with one step: I/O queues, reservations, hooks, tenants, and invocations of programs. -/

open Sys2Proof

namespace Sys2Proof.Machine

/-- Two changes of a command in flight are the same when they agree on it. -/
theorem updCmd_congr {s : State} {id : CmdId} {c : Cmd} (hcmd : s.cmd id = some c) {g g' : Cmd → Cmd} (hg : g c = g' c) :
    s.updCmd id g = s.updCmd id g' := by
  simp only [State.updCmd, hcmd, hg]

/-- Settles O8: each command passes its two checks, of the queue and of its fields. -/
theorem ioQueuesComeAndGo : Obligations.IoQueuesComeAndGo := by
  refine ⟨?_, ?_, ?_, ?_⟩
  · rintro s id c q hlive rfl hq hallot hnone hsize hpc hvec
    simp [exec, execCreateIoCq, hlive, hq, hnone, Nat.not_lt.mpr hallot, hsize, hpc, Nat.not_le.mpr hvec]
  · rintro s id c q x hlive rfl hq hallot hnone hcq hsome hsize hpc
    simp [exec, execCreateIoSq, hlive, hq, Nat.not_lt.mpr hallot, hnone, hcq, hsome, hsize, hpc]
  · rintro s id c q x hlive rfl hq hsome hflight hfetched
    simp [exec, execDeleteIoSq, hlive, hq, hsome, hflight, hfetched]
  · rintro s id c q x hlive rfl hq hsome hused
    simp only [exec, execDeleteIoCq, hlive, hsome, Option.isNone_some, Bool.false_eq_true, false_or]
    refine congrArg Host.Outcome.next (if_neg ?_)
    rintro (hzero | hany)
    · exact hq hzero
    · exact absurd (hany.symm.trans hused) (by decide)

/-! ### Reservations (R130) -/

/-- A reservation command on a block namespace of its function runs its body (R130). -/
theorem reserve_runs {s : State} {id : CmdId} {op bytes : Nat} {body : Cmd → Resv → Option Resv} {c : Cmd} {n : Ns} {r : Resv}
    (hlive : s.live id false op = some c) (hhere : c.away = false) (htarget : s.resvTarget c = .ok n) (hsgl : c.sqe.sgl = false)
    (hbody : body c n.resv = some r) :
    s.reserve id op bytes body = (s.setNs (sqeNsid c.sqe) (some { n with resv := r })).finish id .success := by
  simp [State.reserve, hlive, hhere, htarget, sglShort, hsgl, hbody]

/-- Settles O13: the new reservation state of each command, through the one lemma about reservation commands. -/
theorem reservationsRunAsNvmExpressSays : Obligations.ReservationsRunAsNvmExpressSays := by
  refine ⟨?_, ?_, ?_, ?_⟩
  · intro s id crkey nrkey c n hlive hhere htarget hsgl hact hnew
    exact congrArg Host.Outcome.next (reserve_runs hlive hhere htarget hsgl (by simp [hact, hnew]))
  · intro s id crkey prkey c n hlive hhere htarget hsgl hact hkey hfree hmin hmax
    exact congrArg Host.Outcome.next (reserve_runs hlive hhere htarget hsgl
      (by simp [hact, hkey, hfree, Nat.not_lt.mpr hmin, Nat.not_lt.mpr hmax]))
  · intro s id crkey c n k hlive hhere htarget hsgl hact hkey hheld hkind
    exact congrArg Host.Outcome.next (reserve_runs hlive hhere htarget hsgl (by simp [hact, hkey, hheld, hkind]))
  · intro s id c n hlive hhere htarget
    simp [exec, execReservationReport, hlive, hhere, htarget]

/-! ### Hooks (R107, R108) -/

/-- A view that calls a hook is a command in flight. -/
theorem hookedView_cmd {s : State} {id : CmdId} {c : Cmd} {p : ViewPlan} {h : Nat} (hview : s.hookedView id = some (c, p, h)) :
    s.cmd id = some c := by
  unfold State.hookedView at hview
  split at hview
  · cases hview
  next c' hlive =>
    have hc : c' = c := by
      repeat' split at hview
      all_goals cases hview
      rfl
    exact hc ▸ (live_cmd hlive).1

/-- A command that has asked its hook for the next fragment (R107, R109). -/
def Cmd.askHook (t : BitVec 32) (c : Cmd) : Cmd :=
  { c with hook := { c.hook with next := c.hook.next + 1, waiting := true, reply := [], token := t } }

/-- Command `id` of function `f` has asked the hook program `h`, with the token `t` (R107, R109). -/
def State.askHook (s : State) (id : CmdId) (f h : Nat) (t : BitVec 32) : State :=
  let s1 := (s.draw 32).2.updCmd id (·.askHook t)
  { s1 with sca := { s1.sca with progs := s1.sca.progs.map (fun (q : Prog) =>
      if q.func = f ∧ q.handle = h then { q with queue := q.queue ++ [.hook id] } else q) } }

/-- The token of the next hook request (R107). -/
def State.nextToken (s : State) : BitVec 32 :=
  freshToken ((s.inflight.filter (fun e => decide (e.2.hook.chosen.length < e.2.hook.next))).map (fun e => e.2.hook.token)) (s.draw 32).1

/-- A view whose hook program has room asks it. -/
theorem exec_hookRequest {s : State} {id : CmdId} {c : Cmd} {p : ViewPlan} {h : Nat} {g : Prog}
    (hview : s.hookedView id = some (c, p, h)) (hidle : c.hook.waiting = false) (hnext : c.hook.next = c.hook.chosen.length)
    (hprog : s.hookProgram id c.func h = some g) (hroom : g.queue.length < 256) :
    exec (.hookRequest id) s = .next (s.askHook id c.func h s.nextToken) := by
  simp only [exec, execHookRequest, hview, hidle, hnext, hprog, Bool.false_eq_true, ne_eq, not_true_eq_false, or_self, if_false,
    if_neg (Nat.not_le.mpr hroom)]
  rfl

/-- Asking a hook changes the command that asks and no other. -/
theorem cmd_askHook (s : State) (id : CmdId) (f h : Nat) (t : BitVec 32) (j : CmdId) :
    (s.askHook id f h t).cmd j = if j = id then (s.cmd id).map (·.askHook t) else s.cmd j := cmd_updCmd _ _ _ _

/-- Settles O21: a request enters the program's queue, and a reply becomes the choice it names or ends the hook. -/
theorem hooksChooseVariants : Obligations.HooksChooseVariants := by
  refine ⟨?_, ?_, ?_⟩
  · intro s id c p h g hview hidle hnext hprog hroom
    have hcmd : (s.draw 32).2.cmd id = some c := hookedView_cmd hview
    have hupd : (s.draw 32).2.updCmd id (·.askHook s.nextToken) = (s.draw 32).2.setCmd id (some (c.askHook s.nextToken)) := by
      simp only [State.updCmd, hcmd]
    refine ⟨_, c.askHook s.nextToken, exec_hookRequest hview hidle hnext hprog hroom, ?_, rfl, rfl, rfl, rfl, fun j hj => ?_, ?_⟩
    · rw [cmd_askHook, if_pos rfl, hookedView_cmd hview]
      rfl
    · rw [cmd_askHook, if_neg hj]
    · simp only [State.askHook, hupd]
      exact ⟨rfl, rfl, rfl, rfl⟩
  · intro s id c p h o hview hidle hnext hchoice
    simp [exec, execHookReply, hview, hidle, hnext, hchoice]
  · intro s id c p h hview hidle hnext hchoice
    simp [exec, execHookReply, hview, hidle, hnext, hchoice]

/-! ### Tenants (R172, R190) -/

/-- Settles O23: both requests pass their checks, and are answered. -/
theorem tenantsAreReportedAndRated : Obligations.TenantsAreReportedAndRated := by
  refine ⟨?_, ?_⟩
  · intro s f hready hmax hown
    have hok : ¬ (127 < byteAt (s.mbRequest f) 0 ∨ (2 ≤ f ∧ byteAt (s.mbRequest f) 0 ≠ f)) := by omega
    simp only [exec, execMbTenantStatus]
    rw [mbRun_ready hready _ _ rfl, if_neg hok]
  · intro s f hready hmax hzero hrate
    have hok : ¬ (127 < byteAt (s.mbRequest f) 0 ∨ !allZero (slice (s.mbRequest f) 1 7) ∨ !rateOk (slice (s.mbRequest f) 8 8)) := by
      simp [hzero, hrate, Nat.not_lt.mpr hmax]
    simp only [exec, execMbTenantRate]
    rw [mbRun_ready hready _ _ rfl, if_neg hok]

/-! ### Invocations (R502 to R512) -/

/-- What an invocation brings draws free values at most. -/
theorem setupFor_sca (s : State) (p : Prog) (st : Start) (x : Cmd) : (s.setupFor p st x).2.sca = s.sca := by
  cases st <;> rfl

/-- The first entry of a queue starts on the lowest idle scull, with its feed padded to whole words (R502 to R504). -/
theorem exec_invocationStart {s : State} {f h k at_ : Nat} {p : Prog} {st : Start} {l : List Start} {x : Cmd}
    (hprog : s.prog f h = some p) (hqueue : p.queue = st :: l) (hmode : s.psm.mode.runsSculls = true)
    (hcmd : s.cmd st.cmd = some x) (hopen : x.result = none) (hscull : p.sculls.find? (fun k => (s.scull k).free) = some k)
    (hgap : lowestGap s.splUsed (if (s.setupFor p st x).1.code = 0 ∧ !(s.setupFor p st x).1.stream then
      splRound (s.setupFor p st x).1.inLen + splRound (s.setupFor p st x).1.outLen else 0) 41943040 = some at_) :
    ∃ t feed, exec (.invocationStart f h) s = .next t ∧ t.scull k = startScull (s.scull k) p k st x (s.setupFor p st x).1 at_ feed ∧
      feed.take (s.setupFor p st x).1.feed.length = (s.setupFor p st x).1.feed ∧ (∀ j, j ≠ k → t.scull j = s.scull j) ∧
      t.sca.progs = (s.popStart f h).sca.progs := by
  simp only [exec, execInvocationStart, hprog, hqueue, hcmd, hopen, hscull, hgap, hmode, Bool.not_true, Bool.false_eq_true, if_false,
    Option.isSome_none]
  refine ⟨_, _, rfl, State.scull_setScull_self _ _ _, List.take_left, fun j hj => ?_, ?_⟩
  · rw [State.scull_setScull_other _ _ hj]
    exact congrArg (fun m => Mem.get {} m.sculls j) (setupFor_sca s p st x)
  · change List.map _ (s.setupFor p st x).2.sca.progs = _
    rw [setupFor_sca]
    rfl

/-- Settles O28: the checks of PROGRAM INVOKE and FILTERED READ in their order, then the start and the faulting end. -/
theorem invocationsAreQueuedStartedAndEnded : Obligations.InvocationsAreQueuedStartedAndEnded := by
  refine ⟨?_, ?_, ?_, ?_, ?_⟩
  · intro s id data c p hlive hmoved hhere hns hprog huse hfields hsgl hzero hbudget hslots hroom
    simp only [exec, execProgramInvoke, hlive, hprog]
    simp [hmoved, hhere, hns, huse, hfields, sglShort, hsgl, hzero, Nat.not_lt.mpr hbudget, hslots, Nat.not_le.mpr hroom]
    exact congrArg (State.updProg · _ _ _) (updCmd_congr (live_cmd hlive).1 rfl)
  · intro s id data c p hlive hmoved hhere hns hprog huse hfields hsgl hzero hbudget hslots hfull
    simp only [exec, execProgramInvoke, hlive, hprog]
    simp [hmoved, hhere, hns, huse, hfields, sglShort, hsgl, hzero, Nat.not_lt.mpr hbudget, hslots, hfull]
  · rintro s s1 id c n bs feed p hlive hmoved hhere hchecks rfl hread hfeed hprog hroom
    simp only [exec, execFilteredRead, hlive, hchecks, hread, hfeed, hprog]
    simp [hmoved, hhere, Nat.not_le.mpr hroom]
  · rintro s f h k at_ p st l x u hprog hqueue hmode hcmd hopen hscull rfl hgap
    obtain ⟨t, feed, hexec, hself, hfeed, hother, hprogs⟩ := exec_invocationStart hprog hqueue hmode hcmd hopen hscull hgap
    exact ⟨t, feed, hexec, hself, hfeed, by rw [hself]; rfl, by rw [hself]; rfl, by rw [hself]; rfl, by rw [hself]; rfl, hother, hprogs⟩
  · rintro s k c hk rfl hrun htrap hout
    simp only [exec, execInvocationFaultEnd]
    simp [hk, hrun, htrap, hout]

end Sys2Proof.Machine
end

section
/-! PROOFS. Identify, log pages, features, events, self-test and the management interface (R127 to R130, R604). -/

open Sys2Proof

namespace Sys2Proof.Machine

/-- A Get Features of a supported feature, of the write cache only where there is a volatile one, passes its checks (R144). -/
theorem getFeatures_allowed {s : State} {c : Cmd} {sel : Nat} (hid : featureIds.contains (field c.sqe.cdw10.toNat 7 0) = true)
    (hsel : sel ≤ 3) (hvwc : field c.sqe.cdw10.toNat 7 0 ≠ 0x06 ∨ s.volatileNow = true) :
    ¬ (!featureIds.contains (field c.sqe.cdw10.toNat 7 0) ∨ 3 < sel ∨ (field c.sqe.cdw10.toNat 7 0 = 0x06 ∧ !s.volatileNow)) := by
  rintro (h | h | ⟨hfid, h⟩)
  · rw [hid] at h
    cases h
  · exact Nat.not_lt.mpr hsel h
  · rcases hvwc with hv | hv
    · exact hv hfid
    · rw [hv] at h
      cases h

/-- A log page whose offset lies within it is answered from there on. -/
theorem getLogPage_runs {s : State} {id : CmdId} {c : Cmd} {p : Bytes × State} (hlive : s.live id true 0x02 = some c)
    (hpage : s.logPage c = .ok p) (hend : logPastEnd c.sqe p.1.length = false) :
    execGetLogPage id s = .next (p.2.answer id (logWindow c.sqe p.1)) := by
  unfold execGetLogPage
  rw [hlive]
  refine congrArg Host.Outcome.next ?_
  dsimp only
  rw [hpage]
  unfold State.onOk
  dsimp only
  rw [hend]
  rfl

/-- Settles O9: each command composes its page or value and answers with it. -/
theorem identifyLogsAndFeatures : Obligations.IdentifyLogsAndFeatures := by
  refine ⟨?_, ?_, ?_, ?_⟩
  · intro s id c p hlive hpage
    simp only [exec, execIdentify, hlive, hpage, State.onOk]
  · intro s id c p hlive hpage hend
    exact getLogPage_runs hlive hpage hend
  · intro s id c v hlive hid hsel hvwc hstamp hvalue
    simp only [exec, execGetFeatures, hlive, hsel]
    rw [if_neg (getFeatures_allowed hid (by decide) hvwc), if_neg (by decide), if_neg hstamp, if_neg (by decide), if_neg (by decide),
      hvalue]
  · intro s id c hlive hid hsel hvwc
    simp only [exec, execGetFeatures, hlive, hsel]
    rw [if_neg (getFeatures_allowed hid (by decide) hvwc), if_pos trivial]

/-! ### Set Features -/

/-- A Set Features of a supported feature with a step of its own, without Save, runs that step. -/
theorem setFeature_runs {s : State} {id : CmdId} {fid : Nat} {c : Cmd} (hlive : s.live id true 0x09 = some c)
    (hfid : field c.sqe.cdw10.toNat 7 0 = fid) (hsave : bit c.sqe.cdw10.toNat 31 = false) (hknown : featureIds.contains fid = true)
    (hstep : fid ≠ 0x0B) (body : Cmd → State) : s.setFeature id fid body = body c := by
  simp only [State.setFeature, hlive, hfid, hsave, hknown]
  simp [hstep]

/-- Settles O10: each feature changes its own value. -/
theorem setFeaturesTakeEffect : Obligations.SetFeaturesTakeEffect := by
  refine ⟨?_, ?_, ?_, ?_, ?_, ?_, ?_⟩
  · intro s id c hlive hfid hsave hvwc
    refine congrArg Host.Outcome.next ((setFeature_runs hlive hfid hsave rfl (by decide) _).trans ?_)
    simp [hvwc]
  · intro s id c hlive hfid hsave hvwc
    refine congrArg Host.Outcome.next ((setFeature_runs hlive hfid hsave rfl (by decide) _).trans ?_)
    simp [hvwc]
  · intro s id c n hlive hfid hsave hsq hcq hallot
    refine congrArg Host.Outcome.next ((setFeature_runs hlive hfid hsave rfl (by decide) _).trans ?_)
    simp [hsq, hcq, State.featureValue, hallot]
  · intro s id wallMs tick c hlive hfid hsave hsgl
    refine congrArg Host.Outcome.next ((setFeature_runs hlive hfid hsave rfl (by decide) _).trans ?_)
    simp [sglShort, hsgl]
  · intro s id c hlive hfid hsave hsensor hover
    refine congrArg Host.Outcome.next ((setFeature_runs hlive hfid hsave rfl (by decide) _).trans ?_)
    simp [hsensor, hover, hsave]
  · intro s id c hlive hfid hsave hsensor hunder
    refine congrArg Host.Outcome.next ((setFeature_runs hlive hfid hsave rfl (by decide) _).trans ?_)
    simp [hsensor, hunder, hsave]
  · rintro s id c v hlive hfid hsave rfl
    refine ⟨_, congrArg Host.Outcome.next (setFeature_runs hlive hfid hsave rfl (by decide) _), ?_⟩
    simp [hsave]

/-! ### Events, self-test and management -/

/-- A data pointer of no bytes takes none (R149). -/
theorem reply_nil {s : State} {id : CmdId} {c : Cmd} (hcmd : s.cmd id = some c) (hhere : c.fromPartner = false) : s.reply id [] = s := by
  have hspan : s.scatter c.func (sqeSpan c.sqe 0 0) [] = s := by
    unfold sqeSpan
    split
    · rfl
    · cases c.sqe.pieces <;> rfl
  simp [State.reply, State.dataWrite, hcmd, hhere, hspan]

/-- Settles O11. -/
theorem eventsSelfTestAndManagementInterface : Obligations.EventsSelfTestAndManagementInterface := by
  refine ⟨?_, ?_, ?_, ?_, ?_, ?_, ?_⟩
  · intro s id c e es hlive hnew hevents
    simp only [exec, execAsynchronousEventRequest, hlive, hevents]
    simp [hnew]
  · intro s id c hlive hnew hevents hroom
    simp only [exec, execAsynchronousEventRequest, hlive, hevents]
    simp [hnew, hroom]
  · intro s id c hlive hcode
    simp only [exec, execDeviceSelfTest, hlive]
    rcases hcode with h | h | h <;> rw [h] <;> rfl
  · intro s id msg c hlive
    simp only [exec, execNvmeMiSend, hlive]
    rfl
  · intro s id c hlive hlen hhere
    simp only [exec, execNvmeMiReceive, hlive, hlen]
    refine congrArg (fun t : State => Host.Outcome.next (t.finish id .success (Config.freeValue 32 (s.freeCtr + 1)))) ?_
    exact reply_nil (s := { s with freeCtr := s.freeCtr + 2 }) (live_cmd hlive).1 hhere
  · intro s id c hlive
    simp only [exec, execNvmeMiReceive, hlive]
  · intro s msg hmode
    refine ⟨_, rfl, ?_⟩
    simp only [hmode]
    rfl

end Sys2Proof.Machine
end

section
/-! PROOFS. Tables (R441): the statement about their status, as it is written. -/

open Sys2Proof

namespace Sys2Proof.Machine

/-- Table 1 of function 0 whose delete waits, and MB_TABLE_STATUS of it taken by the mailbox of function 0, in SERVICE. -/
def statusOfLeavingTable : State :=
  { psm := { mode := .service }
    nvs := { tenants := [{ func := 0 }] }
    asu := { tables := [{ func := 0, id := 1, width := 0, longest := false, slabs := [], deleting := some 0 }] }
    fns := Mem.set {} [] 0 { mbox := { state := .busy, taken := [0x03, 0x07, 0, 0, 2, 0, 0, 0, 0, 0, 0, 0, 0, 0, 0, 0, 1, 0] } } }

theorem statusOfLeavingTable_ready : statusOfLeavingTable.MbReady 0 0x0703 where
  mode := rfl
  awake := by decide
  halt := .inl (by decide)
  cox := rfl
  room := by decide
  orphans := rfl
  busy := rfl
  open_ := rfl
  fresh := rfl
  checked := rfl
  command := by decide

/-- The result of the response that function 0 has prepared after a step. -/
def resultAfter : Host.Outcome State Fault Refusal → Option Nat
  | .next t => (t.mb 0).prepared.map (·.result)
  | _ => none

/-- Refutes O29: the status of a table whose delete waits is answered as of a table that is not there (R441). -/
theorem not_tablesAreCreatedDeletedAndReported : ¬ Obligations.TablesAreCreatedDeletedAndReported := by
  intro h
  obtain ⟨-, -, -, -, hstatus, -⟩ := h
  have hclaim := congrArg resultAfter (hstatus statusOfLeavingTable 0 1 _ _ statusOfLeavingTable_ready (by decide +kernel) rfl rfl)
  have hmodel : resultAfter (exec (.mbTableStatus 0) statusOfLeavingTable) = some 0x000B := by decide +kernel
  exact absurd (hmodel.symm.trans hclaim) (by decide +kernel)

end Sys2Proof.Machine
end

section
/-! PROOFS. Namespaces, the mailbox, resets and links (R17, R124 to R129, R151 to R179, R198 to R209, R614 to R616). -/

open Sys2Proof

namespace Sys2Proof.Machine

/-! ### Namespaces -/

/-- A physical function names any namespace that exists. -/
theorem nsNamed_physical {s : State} {c : Cmd} {n : Ns} (hns : s.ns (sqeNsid c.sqe) = some n) (hpf : c.func ≤ 1) :
    s.nsNamed c = some n := by
  simp [State.nsNamed, hns, hpf]

/-- Settles O12: each command passes its checks in their order. -/
theorem namespacesAreManaged : Obligations.NamespacesAreManaged := by
  refine ⟨?_, ?_, ?_, ?_, ?_, ?_, ?_⟩
  · rintro s id d c i n hlive hsel rfl hbytes hformat hdps hsize hcap hcsi hsgl hroom hfree
    simp only [exec, execNamespaceCreate, hlive, hsel, hbytes, hformat, hdps, hfree]
    simp [hsize, Nat.not_lt.mpr hcap, hcsi, sglShort, hsgl]
    exact fun hfull => absurd hfull (Nat.not_lt.mpr hroom)
  · intro s id c n hlive hsel hone hns hown hbusy
    have hmine : (decide (c.func ≤ 1) || n.attached == some c.func) = true := by simpa using hown
    simp only [exec, execNamespaceDelete, hlive, hsel, hns, hmine, if_neg hone]
    simp [hbusy, State.deleteNs, hns]
  · intro s id ctrls c n f hlive hsel hns hsgl hctrl hpf hfree hcharge
    simp only [exec, execNamespaceAttach, hlive, hsel, nsNamed_physical hns hpf, hctrl]
    have hquota : ¬ (n.keyOwner ≠ some f ∧ s.capacityLimit f < (s.fn f).capacityUsed + nsCharge n ∧ !n.object) := by
      rintro ⟨howner, hover, -⟩
      rcases hcharge with h | h
      · exact howner h
      · exact Nat.not_lt.mpr h hover
    simp [sglShort, hsgl, Nat.not_lt.mpr hpf, hfree]
    intro h1 h2 h3
    exact absurd ⟨h1, h2, by simpa using h3⟩ hquota
  · intro s id ctrls c n f hlive hsel hns hsgl hctrl hpf hmine hbusy
    simp only [exec, execNamespaceDetach, hlive, hsel, nsNamed_physical hns hpf, hctrl]
    simp [sglShort, hsgl, Nat.not_lt.mpr hpf, hmine, hbusy]
  · rintro s id c named mine e hlive rfl hnamed hsome rfl he hpi hset hformat hopen
    refine ⟨_, ?_, rfl⟩
    simp only [exec, execFormatNvm, hlive, ← hnamed, hopen]
    refine congrArg Host.Outcome.next ((if_neg ?_).trans ((if_neg ?_).trans ?_))
    · exact fun h => hsome (List.isEmpty_iff.mp h.1)
    · rintro (h | h | h | h)
      · exact Nat.not_lt.mpr he h
      · exact absurd (h.symm.trans hpi) (by decide)
      · exact h hset
      · exact absurd (h.symm.trans hformat) (by decide)
    · by_cases htwo : field c.sqe.cdw10.toNat 11 9 = 2
      · simp only [htwo, if_true, if_false, Bool.false_eq_true, if_neg (show ¬(2 : Nat) = 0 by decide)]
      · simp only [htwo, if_false, Bool.false_eq_true]
  · rintro s id c act hlive rfl hact hidle
    simp only [exec, execSanitize, hlive, hidle]
    rcases hact with h | h <;> simp [h]
  · intro s id act hsan hmode hopen
    refine ⟨_, ?_, rfl⟩
    simp only [exec, execSanitize, hsan, hmode, hopen]
    simp

/-! ### The mailbox -/

/-- A mailbox whose request has been looked at is not looked at again. -/
theorem checkTaken_checked {s : State} {f : Nat} (h : (s.mb f).unchecked = false) : s.checkTaken f = s := by
  simp [State.checkTaken, h]

/-- Settles O15: a ring, a response, the two admin commands, and the identity commands through the shared runner. -/
theorem mailboxCarriesRequestsAndResponses : Obligations.MailboxCarriesRequestsAndResponses := by
  refine ⟨?_, ?_, ?_, ?_, ?_, ?_, ?_, ?_, ?_, ?_⟩
  · intro s f hmode hpresent hcox hhost hlink hbusy
    simp only [exec, execMailboxRing, State.ring]
    simp [hmode, hpresent, hcox, hhost, hlink, hbusy]
  · intro s f hmode hpresent hcox hhost hlink hidle
    simp only [exec, execMailboxRing, State.ring]
    simp [hmode, hpresent, hcox, hhost, hlink, hidle]
  · intro s f p hchecked hready hmode hawake hcox hbusy hirq
    simp only [exec, execMailboxResponse, checkTaken_checked hchecked, hready]
    simp [hmode, hawake, hcox, hbusy, hirq]
  · intro s id data c n hlive hnumb hsgl hcox hidle
    simp only [exec, execMailboxSend, hlive, hnumb]
    simp [sglShort, hsgl, hcox, hidle]
  · intro s id c n hlive hnumb hdone hseq
    simp only [exec, execMailboxReceive, hlive, hnumb]
    simp [hdone, hseq]
  · intro s f
    rfl
  · intro s f hready
    exact congrArg Host.Outcome.next (mbRun_ready hready _ _ rfl)
  · intro s f hready
    exact congrArg Host.Outcome.next (mbRun_ready hready _ _ rfl)
  · intro s f hready
    exact congrArg Host.Outcome.next (mbRun_ready hready _ _ rfl)
  · intro s f hready
    exact congrArg Host.Outcome.next (mbRun_ready hready _ _ rfl)

/-! ### Resets -/

/-- A function that is not enabled does not become ready. -/
theorem becomeReady_disabled {s : State} {f : Nat} (h : (s.fn f).en = false) : s.becomeReady f = s := by
  simp [State.becomeReady, h]

/-- The record of a wait leaves the function and the key slots (R175). -/
theorem raise_waited (s : State) (f : Nat) (b : Bool) (items : List (Nat × Nat)) (j : Nat) :
    (if b then s.raise evGenerationWait f items else s).fn j = s.fn j := by
  split <;> rfl

/-- Function `f` has advanced its generation, after the record of the wait (R175, R177). -/
def State.advanced (s : State) (f waitedUs : Nat) : State :=
  let x := s.fn f
  (if x.waited then s.raise evGenerationWait f [(1, f), (1, x.gen.toNat), (4, waitedUs)] else s).updFn f
    (fun x => { x with gen := x.gen + 1, resetting := false, waited := false })

theorem fn_advanced (s : State) (f waitedUs : Nat) :
    (s.advanced f waitedUs).fn f = { s.fn f with gen := (s.fn f).gen + 1, resetting := false, waited := false } := by
  unfold State.advanced
  rw [State.fn_updFn_self, raise_waited]

/-- No key slot of a function is left after its slots are zeroised (R170). -/
theorem zeroiseSlots_func (s : State) (f : Nat) : ∀ e ∈ (s.zeroiseSlots f).1.cpe.slots, e.2.func ≠ f := by
  intro e he
  simpa using (List.mem_filter.mp he).2

/-- Function `f` is gone, its slots zeroised (R170). -/
def State.removed (s : State) (f waitedUs : Nat) : State :=
  (((s.advanced f waitedUs).zeroiseSlots f).1.updFn f (fun x => { x with removing := false, present := false, en := false })).raise
    evFunctionRemoved f [(1, f), (1, (s.fn f).gen.toNat), (4, ((s.advanced f waitedUs).zeroiseSlots f).2)]

theorem fn_removed (s : State) (f waitedUs : Nat) : (s.removed f waitedUs).fn f =
    { s.fn f with
      gen := (s.fn f).gen + 1, resetting := false, waited := false, removing := false, present := false, en := false } := by
  have hzeroised : ((s.advanced f waitedUs).zeroiseSlots f).1.fn f = (s.advanced f waitedUs).fn f := rfl
  unfold State.removed
  rw [State.raise_fn, State.fn_updFn_self, hzeroised, fn_advanced]

/-- Settles O16: the resets are those of the model, and the advance changes the function alone. -/
theorem resetsRetireAndAdvanceGenerations : Obligations.ResetsRetireAndAdvanceGenerations := by
  refine ⟨?_, ?_, ?_, ?_, ?_, ?_, ?_, ?_, ?_, ?_⟩
  · intro s f hmode hen hhost
    simp [exec, execCcEnClear, hmode, hen, hhost]
  · intro s f ams hmode hpresent hen hhost
    simp [exec, execCcEnSet, hmode, hpresent, hen, hhost]
  · intro s f hmode hpf hpresent hhost
    simp [exec, execNvmSubsystemReset, hmode, hpresent, hhost, Nat.not_lt.mpr hpf]
  · intro s f hmode hpresent hclock
    simp [exec, execFunctionLevelReset, hmode, hpresent, hclock, State.flr]
  · intro s f waitedUs hreset hstays hdone hen
    have hexec : exec (.generationAdvance f waitedUs) s = .next ((s.advanced f waitedUs).becomeReady f) := by
      simp only [exec, execGenerationAdvance, hreset, hdone, hstays]
      rfl
    rw [becomeReady_disabled (by rw [fn_advanced]; exact hen)] at hexec
    refine ⟨_, hexec, ?_, ?_, ?_⟩ <;> rw [fn_advanced]
  · intro s f waitedUs hreset hremoving hdone hold
    refine ⟨s.removed f waitedUs, ?_, ?_, ?_, zeroiseSlots_func (s.advanced f waitedUs) f⟩
    · simp only [exec, execGenerationAdvance, hreset, hdone, hremoving, hold]
      rfl
    · rw [fn_removed]
    · rw [fn_removed]
  · intro s pf hmode hpf hclock
    simp [exec, execVfDisable, hmode, hclock, Nat.not_lt.mpr hpf]
  · rintro s pf num t hmode hpf hpresent hnone htotal rfl hremoving hclock
    simp only [exec, execVfEnable, hremoving]
    simp [hmode, hpresent, hnone, hclock, Nat.not_lt.mpr hpf, Nat.not_lt.mpr htotal]
  · rintro s id c v hlive rfl hvf hmine hact
    simp only [exec, execVirtualizationManagement, hlive, hmine, hact]
    simp [Nat.not_lt.mpr hvf]
  · rintro s id c v hlive rfl hvf hmine hact hreset
    simp only [exec, execVirtualizationManagement, hlive, hmine, hact, hreset]
    simp [Nat.not_lt.mpr hvf]

/-! ### Links -/

/-- A port's reset line is low (R616): its physical function is reset, its link down and its Device Control at the default. -/
def State.perstLow (s : State) (port : Nat) : State :=
  let s1 := ((s.flr port).linkDown port).updFn port (fun x => { x with devControl := 0x2010 })
  { s1 with hif := { s1.hif with perst := Mem.set false s1.hif.perst port true } }

/-- The reference clock of a port is gone (R17). -/
def State.refclkGone (s : State) (port : Nat) : State :=
  let s1 := s.linkDown port
  { s1 with hif := { s1.hif with refclkLost := Mem.set false s1.hif.refclkLost port true } }.raise evHostRefclkLost 255 [(1, port)]

/-- Settles O17: what each event of a port in use writes. -/
theorem linksTrainFailAndReturn : Obligations.LinksTrainFailAndReturn := by
  refine ⟨?_, ?_, ?_, ?_, ?_, ?_⟩
  · intro s port hmode hused
    refine ⟨s.perstLow port, ?_, ?_, ?_, ?_⟩
    · simp only [exec, execPciePerstAssert, hmode, hused]
      rfl
    · exact Mem.get_set_self false _ port true
    · exact Mem.get_set_self false _ port false
    · change ((((s.flr port).linkDown port).updFn port (fun x => { x with devControl := 0x2010 })).fn port).devControl = _
      rw [State.fn_updFn_self]
  · rintro s port width speed hmode hused hclock rfl rfl
    simp only [exec, execLinkTraining, hclock, hmode, hused]
    cases hd : s.hif.dualPort <;> simp [State.portWidth, hd]
  · rintro s port width speed t hmode hused hclock hwidth hmin hmax rfl
    have hnarrow : width < s.portWidth := by
      unfold State.portWidth
      split <;> omega
    have hwidths : [1, 2, 4, 8].contains width = true := by rcases hwidth with rfl | rfl <;> rfl
    simp only [exec, execLinkTraining, hclock, hmode, hused, hwidths]
    simp [hnarrow, Nat.not_lt.mpr (Nat.le_of_lt hnarrow), Nat.not_lt.mpr hmax, Nat.one_le_iff_ne_zero.mp hmin]
  · intro s port status header hmode hused
    simp [exec, execPcieUncorrectable, hmode, hused]
  · intro s port hmode hused hclock
    refine ⟨s.refclkGone port, ?_, ?_, ?_, ?_⟩
    · simp only [exec, execHostRefclkLost, hmode, hused, hclock]
      rfl
    · exact Mem.get_set_self false _ port true
    · exact Mem.get_set_self false _ port false
    · exact recd_next_raise _ _ _
  · intro s port
    rfl

end Sys2Proof.Machine
end

section
/-! PROOFS. The title store (R34 to R56): the object commands, and what has been read for a reader. -/

open Sys2Proof

namespace Sys2Proof.Machine

/-! ### What has been read needs no further read (R58, R244) -/

/-- A unit that a reader has gathered is staged for it. -/
theorem stagedFor_of_gather {s : State} {who : Reader} {ks : List Nat} {ds : List (Option Bytes)} (h : s.gather who ks = some ds) :
    ∀ k ∈ ks, (s.stagedFor who k).isNone = false := by
  induction ks generalizing ds with
  | nil => simp
  | cons k ks ih =>
    unfold State.gather at h
    split at h
    next d ds' hk hks =>
      intro j hj
      rcases List.mem_cons.mp hj with rfl | hj
      · rw [hk]; rfl
      · exact ih hks j hj
    next => cases h

/-- A lookup of units that are all staged does nothing. -/
theorem fetchEntry_staged {s : State} {a : Asker} {ks : List Nat} (h : ∀ k ∈ ks, (s.stagedFor a.who k).isNone = false) :
    s.fetchEntry a ks = s := by
  have hnone : ks.filter (fun u => (s.stagedFor a.who u).isNone && !s.reading a.who u) = [] :=
    List.filter_eq_nil_iff.mpr fun k hk => by simp [h k hk]
  simp only [State.fetchEntry, hnone]

/-- A fold of steps that each do nothing does nothing. -/
theorem foldl_fixed {α β : Type} {f : α → β → α} {a : α} : ∀ (l : List β), (∀ b ∈ l, f a b = a) → l.foldl f a = a
  | [], _ => rfl
  | b :: l, h => by
    rw [List.foldl_cons, h b (List.mem_cons_self ..)]
    exact foldl_fixed l fun c hc => h c (List.mem_cons_of_mem _ hc)

/-- A chunk whose bytes a reader has is not looked up again. -/
theorem fetchChunk_read {s : State} {who : Reader} {c : Nat} {x : Option Bytes} (h : s.chunkBytes who c = some x) :
    s.fetchChunk who c = s := by
  obtain ⟨ds, hds, -⟩ := Option.map_eq_some_iff.mp h
  unfold State.fetchChunk
  split
  · rfl
  · exact foldl_fixed _ fun e _ => fetchEntry_staged fun k hk => stagedFor_of_gather hds k (List.mem_filter.mp hk).1

/-! ### Appends and the other object commands -/

/-- An append that does not wait for flash stores its data and completes (R39, R144): of an object that it creates, and of one that is
there. -/
theorem appendStore_new {s : State} {id : CmdId} {c : Cmd} {n : Ns} {data : Bytes} (hnew : s.obj (sqeNsid c.sqe) (sqeOid c.sqe) = none)
    (hdurable : s.volatileNow = false) :
    s.appendStore id c n data [] = ((((fun u : State => (u.noteCommitted id (u.extKeys (sqeNsid c.sqe) (sqeOid c.sqe) (sqeOffset c.sqe)
      data.length)).programBuffer false) ((((s.createObject c n).storeData (sqeNsid c.sqe) (sqeOid c.sqe) data c.gen.toNat []).unstage
      (.cmd id)).updCmd id (fun c => { c with charge := 0, moved := true, needFlash := false, undo := none }))).finish id .success).writeDone
      id) := by
  simp only [State.appendStore, hnew, hdurable, Bool.false_and, Bool.false_eq_true, if_false]

theorem appendStore_grown {s : State} {id : CmdId} {c : Cmd} {n : Ns} {o : Obj} {data : Bytes}
    (hold : s.obj (sqeNsid c.sqe) (sqeOid c.sqe) = some o) (hopen : o.lastHashed = false) (hdurable : s.volatileNow = false) :
    s.appendStore id c n data [] = ((((fun u : State => (u.noteCommitted id (u.extKeys (sqeNsid c.sqe) (sqeOid c.sqe) (sqeOffset c.sqe)
      data.length)).programBuffer false) (((s.storeData (sqeNsid c.sqe) (sqeOid c.sqe) data c.gen.toNat []).unstage (.cmd id)).updCmd id
      (fun c => { c with charge := 0, moved := true, needFlash := false, undo := none }))).finish id .success).writeDone id) := by
  simp only [State.appendStore, hold, hopen, hdurable, Bool.false_and, Bool.false_eq_true, if_false,
    show chunksOf 4096 ([] : Bytes) = [] from rfl]

/-- An append after the last byte that is in the buffer reads nothing back (log 86). -/
theorem appendRead_tail {s : State} {id : CmdId} {c : Cmd} {n : Ns} {o : Obj} {data : Bytes}
    (hold : s.obj (sqeNsid c.sqe) (sqeOid c.sqe) = some o) (htail : s.appendFrom o = o.length) :
    s.appendRead id c n data = s.appendStore id c n data [] := by
  have hunits : o.unitsAt o.length o.length = [] := if_pos (Nat.le_refl _)
  have hbytes : s.objBytes (.cmd id) o o.length o.length = some (some []) := by
    simp [State.objBytes, hunits, State.gather]
  have hfetch : s.fetchObject (.cmd id) o c.gen.toNat [] = s := rfl
  simp only [State.appendRead, hold, htail, hunits, hfetch, hbytes]

/-- A chunk that has been fingerprinted is not lost for its fingerprint. -/
theorem chunkLost_hashed {s : State} {o : Obj} (h : o.chunks.all (fun r => r.hashed && r.verifyWith.isNone) = true) :
    s.chunkLost o = false := by
  rw [State.chunkLost, List.any_eq_false]
  intro r hr
  have := List.all_eq_true.mp h r hr
  simp_all

/-- Settles O18: each command passes its checks in their order. -/
theorem objectCommandsDoTheirWork : Obligations.ObjectCommandsDoTheirWork := by
  refine ⟨?_, ?_, ?_, ?_, ?_, ?_, ?_, ?_, ?_, ?_⟩
  · intro s id data bad c n hlive hnew hturn htarget hallowed hroom hgood hnone hdurable
    have hread : s.appendRead id c n (padTo (field c.sqe.cdw14.toNat 21 0) data) =
        s.appendStore id c n (padTo (field c.sqe.cdw14.toNat 21 0) data) [] := by
      simp only [State.appendRead, hnone]
    simp only [exec, execEssenceAppend, hlive, hnew, hturn, htarget, hallowed, hroom, hgood, hread, appendStore_new hnone hdurable,
      length_padTo, Bool.not_true, Bool.false_eq_true, or_self, if_false]
  · intro s id data bad c n o hlive hnew hturn htarget hallowed hroom hgood hold hopen htail hdurable
    simp only [exec, execEssenceAppend, hlive, hnew, hturn, htarget, hallowed, hroom, hgood, appendRead_tail hold htail,
      appendStore_grown hold hopen hdurable, length_padTo, Bool.not_true, Bool.false_eq_true, or_self, if_false]
  · intro s id data bad c n b hlive hnew hturn htarget hallowed hroom hbad
    simp only [exec, execEssenceAppend, hlive, hnew, hturn, htarget, hallowed, hroom, hbad, Bool.not_true, Bool.false_eq_true, or_self,
      if_false]
  · intro s id data bad c n hlive hnew hturn htarget hallowed hfull
    simp only [exec, execEssenceAppend, hlive, hnew, hturn, htarget, hallowed, hfull, Bool.not_true, Bool.not_false, Bool.false_eq_true,
      or_self, if_false, if_true]
  · intro s id data bad c n e hlive hnew hturn htarget hrefused
    simp only [exec, execEssenceAppend, hlive, hnew, hturn, htarget, hrefused, Bool.not_true, Bool.false_eq_true, or_self, if_false]
  · intro s id data c n o hlive hturn htarget hfields hsgl hobj hopen hplain hsize hat
    have hplace : ¬ (field c.sqe.cdw12.toNat 25 0 ≠ 0 ∧ field c.sqe.cdw12.toNat 25 0 ≠ o.index.length) := by
      rintro ⟨h0, hend⟩
      exact hat.elim h0 hend
    simp only [exec, execSampleIndexLoad, hlive, hturn, htarget, hfields, hobj, hopen, hplain, sglShort, hsgl]
    rw [if_neg hplace]
    simp [Nat.not_lt.mpr hsize]
  · intro s id c n o hlive hturn htarget hfields hobj hopen hready hhashed
    simp only [exec, execObjectSeal, hlive, hturn, htarget, hfields, hobj, hopen, State.sealChunks, chunkLost_hashed hhashed, hhashed]
    simp [hready]
  · intro s id c n o hlive hturn htarget hfields hobj hsealed
    simp only [exec, execObjectSeal, hlive, hturn, htarget, hfields, hobj, hsealed]
    rfl
  · intro s id c n o hlive hturn htarget hmin h13 h14 h15 hsgl hobj
    have hlen : Nat.min c.sqe.cdw12.toNat 128 ≠ 0 := by
      have : 1 ≤ Nat.min c.sqe.cdw12.toNat 128 := Nat.le_min.mpr ⟨hmin, by decide⟩
      omega
    simp only [exec, execObjectQuery, hlive, hturn, htarget, hobj, h13, h14, h15, sglShort, hsgl]
    simp [hlen]
  · intro s id c n o hlive hturn htarget h12 h13 h14 h15 hobj
    simp only [exec, execObjectDelete, hlive, hturn, htarget, hobj, h12, h13, h14, h15]
    simp

end Sys2Proof.Machine
end

section
/-! PROOFS. Chunk fingerprints and comparisons (R58 to R74), and the views (R76 to R110). -/

open Sys2Proof

namespace Sys2Proof.Machine

/-! ### Fingerprints -/

/-- A chunk that a decision is made on: kept, or without a match, it is entered (R62). -/
theorem decideChunk_enter {s : State} {o : Obj} {n : Nat} {r : ChunkRef}
    (h : r.kept = true ∨ s.chiveLookup o.func r.digest r.chunk = none) :
    s.decideChunk o n r = s.enterChunk o.func r.chunk r.digest := by
  have hnone : (if r.kept then none else s.chiveLookup o.func r.digest r.chunk) = none := by
    rcases h with h | h <;> simp [h]
  simp only [State.decideChunk, hnone]

/-- The lookup's answer is an entry of the function with the digest, of another chunk; with no answer there is none (R60, R61). -/
theorem chiveLookup_spec (s : State) (f own : Nat) (d : Bytes) :
    (∀ e, s.chiveLookup f d own = some e → e ∈ s.objs.chive ∧ e.func = f ∧ e.digest = d ∧ e.chunk ≠ own) ∧
    (s.chiveLookup f d own = none → ∀ e ∈ s.objs.chive, ¬ (e.func = f ∧ e.digest = d ∧ e.chunk ≠ own)) := by
  have hscan : ∀ e, s.objs.chive.find? (fun e => e.func == f && e.digest == d && e.chunk != own) = some e →
      e ∈ s.objs.chive ∧ e.func = f ∧ e.digest = d ∧ e.chunk ≠ own := by
    intro e he
    have hsame := List.find?_some he
    simp only [Bool.and_eq_true, beq_iff_eq, bne_iff_ne] at hsame
    exact ⟨List.mem_of_find?_eq_some he, hsame.1.1, hsame.1.2, hsame.2⟩
  have hmiss : s.objs.chive.find? (fun e => e.func == f && e.digest == d && e.chunk != own) = none →
      ∀ e ∈ s.objs.chive, ¬ (e.func = f ∧ e.digest = d ∧ e.chunk ≠ own) := by
    rintro hnone e he ⟨rfl, rfl, hown⟩
    have := List.find?_eq_none.mp hnone e he
    simp [hown] at this
  unfold State.chiveLookup
  dsimp only
  split
  next e he =>
    split
    next hsame =>
      obtain ⟨r, -, hr⟩ := Option.bind_eq_some_iff.mp he
      simp only [Bool.and_eq_true, beq_iff_eq, bne_iff_ne] at hsame
      refine ⟨fun x hx => ?_, fun h => by cases h⟩
      cases hx
      exact ⟨List.mem_of_find?_eq_some hr, hsame.1.1, hsame.1.2, hsame.2⟩
    next => exact ⟨hscan, hmiss⟩
  next => exact ⟨hscan, hmiss⟩

/-- A comparison whose two chunks have been read gives its verdict (R65). -/
theorem exec_verifyCompare {s : State} {nsid oid n t : Nat} {o : Obj} {r : ChunkRef} {y : Chunk} {x z : Option Bytes} (k : Bool)
    (hobj : s.obj nsid oid = some o) (hchunk : o.chunks[n]? = some r) (hwith : r.verifyWith = some t) (hthere : s.chunk t = some y)
    (hx : s.chunkBytes (.chunk r.chunk) r.chunk = some x) (hz : s.chunkBytes (.chunk r.chunk) t = some z) :
    exec (.verifyCompare nsid oid n k) s = .next ((((s.unstage (.chunk r.chunk)).updObj nsid oid (fun o => { o with
      chunks := o.chunks.set n { r with verifyWith := none } })).verdict o n { r with verifyWith := none } t x
        (if k then z else none)).programBuffer false) := by
  simp only [exec, execVerifyCompare, hobj, hchunk, hwith, hthere, fetchChunk_read hx, fetchChunk_read hz, hx, hz, Option.isNone_some,
    Bool.false_eq_true, if_false]

/-- Settles O19: releases, fingerprints, decisions and comparisons. -/
theorem chunksAreFingerprintedAndReleased : Obligations.ChunksAreFingerprintedAndReleased := by
  refine ⟨?_, ?_, ?_, ?_, ?_, ?_, ?_, ?_, ?_, ?_, ?_, ?_, ?_⟩
  · intro s nsid oid d hdue hdeleted hobjects
    simp only [exec, execChunkRefsRelease, hdue, State.releaseMap, hdeleted, hobjects, Bool.false_eq_true, or_self, if_false]
  · intro s nsid oid d hdue hshared
    simp only [exec, execChunkRefsRelease, hdue, State.releaseMap]
    exact congrArg Host.Outcome.next (if_pos hshared)
  · intro s nsid oid n o r x d hobj hchunk hthere hfresh hmode hdone hwhole hbytes
    have hhash : s.toHash o n = some r := by
      simp only [State.toHash, hchunk, hfresh, hdone, hthere]
      refine if_neg ?_
      rintro (h | h | ⟨hlen, hopen⟩)
      · cases h
      · cases h
      · rcases hwhole with h | h
        · simp [h] at hlen
        · simp [h] at hopen
    simp only [exec, execChunkFingerprint, hobj, hhash, hmode, fetchChunk_read hbytes, hbytes, Bool.not_true, Bool.false_eq_true, if_false]
  · intro s nsid oid n o r hobj hchunk hwait
    have hhash : s.toHash o n = none := by
      simp only [State.toHash, hchunk]
      exact if_pos (hwait.elim .inl fun h => .inr (.inl h))
    simp only [exec, execChunkFingerprint, hobj, hhash]
  · intro s o n r h
    exact decideChunk_enter h
  · intro s o n r e hkept hmatch hverify
    simp only [State.decideChunk, hkept, hmatch, hverify, Bool.false_eq_true, if_false]
  · intro s o n r e hkept hmatch hverify
    simp only [State.decideChunk, hkept, hmatch, hverify, Bool.false_eq_true, if_false, if_true]
  · intro s f own d
    obtain ⟨hsome, hnone⟩ := chiveLookup_spec s f own d
    refine ⟨⟨hnone, fun hno => ?_⟩, hsome⟩
    cases hl : s.chiveLookup f d own with
    | none => rfl
    | some e => exact absurd (hsome e hl).2 (hno e (hsome e hl).1)
  · intro s nsid oid n t o r y a hobj hchunk hwith hthere hx hz
    rw [exec_verifyCompare true hobj hchunk hwith hthere hx hz]
    simp only [State.verdict, if_true]
  · intro s nsid oid n t o r y a b hobj hchunk hwith hthere hx hz hdiff
    rw [exec_verifyCompare true hobj hchunk hwith hthere hx hz]
    simp only [State.verdict, if_true, if_neg hdiff]
  · intro s nsid oid n t o r y x z k hobj hchunk hwith hthere hx hz hbad
    rw [exec_verifyCompare k hobj hchunk hwith hthere hx hz]
    have hlost : x = none ∨ (if k then z else none) = none := by
      rcases hbad with h | h | h
      · exact .inl h
      · exact .inr (by simp [h])
      · exact .inr (by simp [h])
    cases hk : (if k then z else none) with
    | none => cases x <;> rfl
    | some b =>
      rcases hlost with rfl | h
      · rfl
      · rw [hk] at h
        cases h
  · intro s nsid oid n t o r k hobj hchunk hwith hgone
    simp only [exec, execVerifyCompare, hobj, hchunk, hwith, hgone, Option.isNone_none, if_true]
  · intro s f kind num ver
    refine ⟨_, rfl, rfl, fun p hp hcurrent => List.mem_filter.mpr ⟨hp, by simp [hcurrent]⟩, ?_⟩
    rintro hidle p hp ⟨rfl, rfl, rfl, rfl, hold⟩
    have hkept := (List.mem_filter.mp hp).2
    simp [hidle, hold] at hkept

/-! ### Views -/

/-- A view without a hook places all its fragments. -/
theorem ready_of_no_hook {p : ViewPlan} (h : p.hook = none) (c : Cmd) : p.ready c = p.frags.length := by
  simp [ViewPlan.ready, h]

/-- A view whose samples are all read, and whose fragments are all decided, writes its bytes and succeeds (R81, R82). -/
theorem runView_done {s t : State} {id : CmdId} {c : Cmd} {p : ViewPlan} {l : List Source}
    (hfetch : t = s.fetchView id c (s.viewRanges id c p 0 (p.ready c))) (hopen : (t.cmd id).any (fun x => x.result.isSome) = false)
    (hread : t.viewSources id (s.viewRanges id c p 0 (p.ready c)) = some (some l)) (hall : p.ready c = p.frags.length) :
    s.runView id c p .none = ((((t.countRanges (t.viewRanges id c p c.hook.placed (p.ready c))).writeView id c
      (viewWindowed c.sqe (viewBytes p (p.ready c) l))).updCmd id (fun x => { x with hook := { x.hook with placed := p.ready c } })).finish
      id .success (BitVec.ofNat 32 (viewWindowed c.sqe (viewBytes p (p.ready c) l)).length) p.dw1).unstage (.cmd id) := by
  have hlast : ¬ p.ready c < p.frags.length := by omega
  simp only [State.runView, ← hfetch, hopen, hread, State.placeView, if_neg hlast, Bool.false_eq_true, if_false]

/-- VIEW READ of a form that it serves, on its turn and with its plan made, runs unless its hook failed. -/
theorem viewRead_runs {s : State} {id : CmdId} {c : Cmd} {p : ViewPlan} {forms : List Nat} (hlive : s.live id false 0x82 = some c)
    (hform : forms.contains (viewForm c.sqe) = true) (hturn : s.objectTurn id c = true) (hplan : s.viewPlan id c = .ok p)
    (hhook : p.hook = none ∨ c.hook.outcome = none) (fault : ViewFault) : s.viewRead id forms fault = s.runView id c p fault := by
  simp only [State.viewRead, hlive, hform, hturn, hplan, Bool.not_true, Bool.false_eq_true, or_self, if_false]
  rcases hhook with h | h
  · rw [h]
  · rw [h]
    cases p.hook <;> rfl

/-- VIEW SIZE of a form that it serves, on its turn and with its plan made, answers the report (R83). -/
theorem viewSize_reports {s : State} {id : CmdId} {c : Cmd} {p : ViewPlan} {forms : List Nat} (hlive : s.live id false 0x86 = some c)
    (hform : forms.contains (viewForm c.sqe) = true) (hturn : s.objectTurn id c = true) (hplan : s.viewPlan id c = .ok p) :
    s.viewSize id forms = (s.reply id (p.report.take c.sqe.cdw2.toNat)).finish id .success (BitVec.ofNat 32 p.len) p.dw1 := by
  simp only [State.viewSize, hlive, hform, hturn, hplan, Bool.not_true, Bool.false_eq_true, or_self, if_false]

/-- Settles O20. -/
theorem viewsAreBuiltAndSized : Obligations.ViewsAreBuiltAndSized := by
  refine ⟨?_, ?_, ?_, ?_, ?_, ?_, ?_, ?_, ?_⟩
  · rintro s id c p rs t l out hlive hform hturn hplan hhook rfl ht hopen hread rfl
    exact congrArg Host.Outcome.next ((viewRead_runs hlive (by rw [hform]; rfl) hturn hplan (.inl hhook) .none).trans
      (runView_done ht hopen hread (ready_of_no_hook hhook c)))
  · rintro s id c p rs t l out hlive hform hturn hplan hhook rfl ht hopen hread rfl
    exact congrArg Host.Outcome.next ((viewRead_runs hlive (by rw [hform]; rfl) hturn hplan (.inl hhook) .none).trans
      (runView_done ht hopen hread (ready_of_no_hook hhook c)))
  · rintro s id c p rs t l out hlive hform hturn hplan hhook rfl ht hopen hread rfl
    exact congrArg Host.Outcome.next ((viewRead_runs hlive (by rw [hform]; rfl) hturn hplan (.inl hhook) .none).trans
      (runView_done ht hopen hread (ready_of_no_hook hhook c)))
  · rintro s id c p rs t l out h hlive hform hturn hplan hhook hgood hchosen rfl ht hopen hread rfl
    exact congrArg Host.Outcome.next ((viewRead_runs hlive (by rw [hform]; rfl) hturn hplan (.inr hgood) .none).trans
      (runView_done ht hopen hread (by simp [ViewPlan.ready, hhook, hchosen])))
  · rintro s id c p rs t hlive hform hturn hplan hhook rfl ht hopen hmissing
    refine congrArg Host.Outcome.next ((viewRead_runs hlive (by rw [hform]; rfl) hturn hplan (.inl hhook) .none).trans ?_)
    simp only [State.runView, ← ht, hopen, hmissing, Bool.false_eq_true, if_false]
  · intro s id c p hlive hform hturn hplan
    exact congrArg Host.Outcome.next (viewSize_reports hlive (by rw [hform]; rfl) hturn hplan)
  · intro s id c p hlive hform hturn hplan
    exact congrArg Host.Outcome.next (viewSize_reports hlive (by rw [hform]; rfl) hturn hplan)
  · intro s id c p hlive hform hturn hplan
    exact congrArg Host.Outcome.next (viewSize_reports hlive (by rw [hform]; rfl) hturn hplan)
  · intro s id c e hlive hform hturn hplan
    have hserved : [0, 3].contains (viewForm c.sqe) = true := by rw [hform]; rfl
    simp only [exec, execViewReadFragment, State.viewRead, hlive, hserved, hturn, hplan, Bool.not_true, Bool.false_eq_true, or_self,
      if_false]

end Sys2Proof.Machine
end

section
/-! PROOFS. Mailbox commands that answer at once: migration (R180 to R185) and keys (R354 to R361). -/

open Sys2Proof

namespace Sys2Proof.Machine

/-- A mailbox request that is ready, and whose body answers, has that response prepared (R203). -/
theorem mbRun_answers {s t : State} {f cmd : Nat} {sub : Bytes → Bool} {body : State → Bytes → State × Option MbResp} {p : MbResp}
    (h : s.MbReady f cmd) (hsub : sub (s.mbRequest f) = true) (hbody : body s (s.mbRequest f) = (t, some p)) :
    s.mbRun f cmd sub body = t.mbAnswer f p := by
  rw [mbRun_ready h sub body hsub, hbody]

/-! ### Migration -/

/-- A function that no quiesce waits for is not looked at (R183). -/
theorem quiesceDone_idle {s : State} {g : Nat} (h : (s.fn g).quiesceBy = none) : s.quiesceDone g = s := by
  simp only [State.quiesceDone, h]

/-- A quiesce waits while accepted work is left (R183). -/
theorem quiesceDone_busy {s : State} {g : Nat} (h : s.workEnded g = false) : s.quiesceDone g = s := by
  unfold State.quiesceDone
  split
  · rfl
  · rw [h]
    rfl

/-- What holds of a default and of every entry holds of every read. -/
theorem get_of_forall {α : Type} {d : α} {P : α → Prop} (hd : P d) : ∀ {m : Mem α}, (∀ e ∈ m, P e.2) → ∀ k, P (Mem.get d m k)
  | [], _, _ => hd
  | e :: m, h, k => by
    unfold Mem.get
    split
    · exact h e (List.mem_cons_self ..)
    · exact get_of_forall hd (fun x hx => h x (List.mem_cons_of_mem _ hx)) k

/-- The quiesce of `g` that function `f` has asked for. -/
def State.quiescing (s : State) (f g : Nat) : State := (s.updFn g (fun x => { x with quiesced := true, quiesceBy := some f })).mbHold f

/-- While the work of `g` has not ended, and no other quiesce waits, a quiesce step ends nothing. -/
theorem quiesceDone_quiescing {s : State} {f g : Nat} (hfree : ∀ e ∈ s.fns, e.2.quiesceBy = none) (hwork : s.workEnded g = false)
    (j : Nat) : (s.quiescing f g).quiesceDone j = s.quiescing f g := by
  by_cases hj : j = g
  · subst hj
    exact quiesceDone_busy hwork
  · refine quiesceDone_idle ?_
    have hnone : (s.fn j).quiesceBy = none := get_of_forall (P := fun x : Fn => x.quiesceBy = none) rfl hfree j
    have hother := State.fn_updFn_other s (fun x : Fn => { x with quiesced := true, quiesceBy := some f }) hj
    by_cases hf : j = f
    · subst hf
      exact (congrArg Fn.quiesceBy (State.fn_updFn_self _ j _)).trans ((congrArg Fn.quiesceBy hother).trans hnone)
    · exact (congrArg Fn.quiesceBy (State.fn_updFn_other _ _ hf)).trans ((congrArg Fn.quiesceBy hother).trans hnone)

/-- A mailbox whose request waits, with none left over from before a reset, starts nothing (R203). -/
theorem mbRunAs_waiting {s : State} {f cmd : Nat} {sub : Bytes → Bool} {body : State → Nat → Bytes → State × Option MbResp}
    (hwait : (s.mb f).waiting = true) (hchecked : (s.mb f).unchecked = false) (hnone : (s.mb f).orphans = []) :
    s.mbRunAs f cmd sub body = s := by
  have hdue : s.mbDue f (fun r => mbCmd r == cmd && sub (mbPayload r)) = false := by simp [State.mbDue, hwait]
  simp only [State.mbRunAs, checkTaken_checked hchecked, hnone, List.find?_nil, hdue]
  simp

/-- Settles O24: the body of each command on its own request, and the two steps of a quiesce. -/
theorem migrationCommandsDoTheirWork : Obligations.MigrationCommandsDoTheirWork := by
  refine ⟨?_, ?_, ?_, ?_, ?_, ?_, ?_, ?_, ?_⟩
  · rintro s f g d hready rfl hvf hzero hmin hmax hbase hA hB rfl
    refine congrArg Host.Outcome.next (mbRun_answers hready rfl (if_neg ?_))
    simp [hvf, hzero, hbase, hA, hB, Nat.not_lt.mpr hmax, Nat.one_le_iff_ne_zero.mp hmin]
  · rintro s f g d hready rfl hlog
    refine congrArg Host.Outcome.next (mbRun_answers hready rfl ((if_neg (by simp [hlog])).trans ?_))
    simp only [State.freezeDirty, hlog]
  · rintro s f g d hready rfl hlog
    refine congrArg Host.Outcome.next (mbRun_answers hready rfl ((if_neg (by simp [hlog])).trans ?_))
    simp only [State.freezeDirty, hlog]
  · rintro s f g hready rfl hvf hfree hwork
    simp only [exec, execMbMigQuiesce]
    rw [mbRunAs_ready hready _ _ rfl, if_neg (by simp [hvf])]
    exact congrArg Host.Outcome.next (foldl_fixed _ fun e _ => quiesceDone_quiescing hfree hwork e.1)
  · intro s f g hwait hchecked hnone hby hsole hwork
    simp only [exec, execMbMigQuiesce, mbRunAs_waiting hwait hchecked hnone, hsole, List.foldl_cons, List.foldl_nil, State.quiesceDone,
      hby, hwork, if_true]
  · rintro s f g l hready rfl hvf rfl
    exact congrArg Host.Outcome.next (mbRun_answers hready rfl (if_neg (by simp [hvf])))
  · rintro s f g slot k img x hready rfl rfl hreserved hvf hfirst hkey hquiet hdone rfl rfl
    refine congrArg Host.Outcome.next (mbRun_answers hready rfl ((if_neg (by simp [hreserved, hvf])).trans
      ((if_neg (by simp [hfirst])).trans ?_)))
    simp only [hkey, hquiet, hdone]
    simp
  · rintro s t f g img hready rfl hvf hpiece hquiet hmagic
    refine congrArg Host.Outcome.next (mbRun_answers hready rfl ((if_neg (by simp [hvf])).trans ?_))
    simp only [hpiece, hquiet]
    simp [hmagic]
  · rintro s t f g img ns hready rfl hvf hpiece hquiet
    by_cases hgood : (∃ k, t.macKey f (leAt img 20 2) = .ok k ∧ hmacOf 0 k (img.take 32 ++ img.drop 64) = slice img 32 32) ∧
        leAt img 0 4 = 0x494D584C ∧ leAt img 8 4 = img.length ∧ leAt img 4 2 = 1 ∧
        Config.migrationContents (img.drop 64) = some ns ∧ t.allotmentCovers (leAt (s.mbRequest f) 0 8) ns = true
    · obtain ⟨⟨k, hkey, hmac⟩, hmagic, hlen, hversion, hcontents, hcovers⟩ := hgood
      refine ⟨_, congrArg Host.Outcome.next (mbRun_answers hready rfl ((if_neg (by simp [hvf])).trans ?_)), fun _ => rfl⟩
      simp only [hpiece, hquiet, hkey, hmac, hmagic, hlen, hversion, hcontents, hcovers]
      simp
    · refine ⟨_, rfl, fun ⟨k, hkey, hmac, hrest⟩ => absurd ⟨⟨k, hkey, hmac⟩, hrest⟩ hgood⟩

/-! ### Keys -/

/-- Settles O25: the body of each command on its own request, and the settling of a slot. -/
theorem keysAreImportedErasedAndSettled : Obligations.KeysAreImportedErasedAndSettled := by
  refine ⟨?_, ?_, ?_, ?_, ?_, ?_, ?_, ?_, ?_⟩
  · intro s f hready hcause hunwrap
    refine congrArg Host.Outcome.next (mbRun_answers hready rfl ?_)
    simp only [hcause, hunwrap]
    rfl
  · rintro s t f n k key hready hcause hunwrap rfl rfl rfl
    refine congrArg Host.Outcome.next (mbRun_answers hready rfl ?_)
    simp only [hcause, hunwrap]
  · rintro s t f n hready rfl hown hcode rfl
    refine congrArg Host.Outcome.next (mbRun_answers hready rfl ((if_neg (by simp [hown])).trans ?_))
    rcases hcode with h | h <;> simp only [h]
  · rintro s f n hready rfl hown hcode
    refine congrArg Host.Outcome.next (mbRun_answers hready rfl ((if_neg (by simp [hown])).trans ?_))
    simp only [hcode]
  · intro s f hready hown
    exact congrArg Host.Outcome.next (mbRun_answers hready rfl (if_pos hown))
  · rintro s f g tk k hready rfl hfunc hzero hkey hunwrap
    refine congrArg Host.Outcome.next (mbRun_answers hready rfl ((if_neg (by simp [hzero, Nat.not_lt.mpr hfunc])).trans ?_))
    have hne : byteAt (s.mbRequest f) 0 ≠ 255 := by omega
    simp only [hkey, Option.bind_some, hunwrap, if_neg hne]
  · intro s f tk k hready hall hzero hkey hunwrap
    refine congrArg Host.Outcome.next (mbRun_answers hready rfl ((if_neg (by simp [hzero, hall])).trans ?_))
    simp only [hkey, Option.bind_some, hunwrap, hall, if_true]
  · intro s n big old hstaged hended
    simp only [exec, execKeySlotSettle, hstaged, hended, Bool.false_eq_true, if_false]
  · intro s n big old hstaged hleft
    simp only [exec, execKeySlotSettle, hstaged, hleft, if_true]

end Sys2Proof.Machine
end

section
/-! PROOFS. Profiles (R89, R104 to R106) and programs (R497 to R501). -/

open Sys2Proof

namespace Sys2Proof.Machine

/-! ### Profiles -/

/-- A record whose checks pass, of a number with fewer than three versions retiring, is committed (R89, R104). -/
theorem loadProfile_commits {s : State} {f num kind : Nat} {record : Bytes}
    (hcheck : (if kind = 0 then pkgCheck record else encCheck record) = 0)
    (hroom : (s.versions f kind num).countP (fun p => !p.current) < 3) :
    s.loadProfile f kind num record =
      ((s.commitProfile f kind num record).1, mbOk (leBytes 2 (s.commitProfile f kind num record).2.toNat)) := by
  simp only [State.loadProfile, hcheck, ne_eq, not_true_eq_false, if_false, if_neg (Nat.not_le.mpr hroom)]

/-- The profile epoch rises by one (R105). -/
theorem raiseEpoch_epoch (s : State) (f : Nat) : ((s.raiseEpoch f).fn f).epoch = (s.fn f).epoch + 1 :=
  congrArg Fn.epoch (State.fn_updFn_self _ f _)

/-- What a piece of a profile of one kind does once it is stored: the complete record is loaded (R89, R206). -/
def State.profilePiece (t : State) (f kind num : Nat) : Option Bytes → State × MbResp
  | none => (t, mbOk [])
  | some b => t.loadProfile f kind num b

/-- A load of one kind that holds the request runs its piece (R206). -/
theorem mbProfileLoad_piece {s : State} {f kind : Nat} (hready : s.MbReady f 0x0501)
    (hkind : bit (leAt (s.mbRequest f) 0 8) 8 = (kind == 1)) (hsel : leAt (s.mbRequest f) 0 8 < 512) {t : State} {image : Option Bytes}
    (hpiece : s.loadPiece f 0x0501 (s.mbRequest f) = (t, .ok image)) :
    s.mbProfileLoad f kind = (t.profilePiece f kind (leAt (s.mbRequest f) 0 1) image).1.mbAnswer f
      (t.profilePiece f kind (leAt (s.mbRequest f) 0 1) image).2 := by
  refine mbRun_answers hready (by simp [hkind]) ((if_neg (Nat.not_le.mpr hsel)).trans ?_)
  cases image <;> simp only [hpiece, State.profilePiece]

/-- Settles O26: the pieces, the commit, the unload and the status. -/
theorem profilesAreLoadedAndUnloaded : Obligations.ProfilesAreLoadedAndUnloaded := by
  refine ⟨?_, ?_, ?_, ?_, ?_, ?_, ?_⟩
  · intro s t f img hready hkind hsel hpiece
    exact congrArg Host.Outcome.next (mbProfileLoad_piece (kind := 0) hready hkind hsel hpiece)
  · intro s t f hready hkind hsel hpiece
    exact congrArg Host.Outcome.next (mbProfileLoad_piece (kind := 0) hready hkind hsel hpiece)
  · intro s t f img hready hkind hsel hpiece
    exact congrArg Host.Outcome.next (mbProfileLoad_piece (kind := 1) hready hkind hsel hpiece)
  · intro s t f hready hkind hsel hpiece
    exact congrArg Host.Outcome.next (mbProfileLoad_piece (kind := 1) hready hkind hsel hpiece)
  · intro s f num kind record hcheck hroom
    exact ⟨loadProfile_commits hcheck hroom, _, List.mem_append_right _ (List.mem_singleton_self _), rfl, rfl, rfl, rfl, rfl, rfl,
      raiseEpoch_epoch s f⟩
  · rintro s f num kind hready rfl rfl hkind hcurrent
    exact congrArg Host.Outcome.next (mbRun_answers hready rfl ((if_neg (Nat.not_lt.mpr hkind)).trans (if_neg (by simp [hcurrent]))))
  · rintro s f vs hready hkind rfl hsome
    refine congrArg Host.Outcome.next (mbRun_answers hready rfl ?_)
    exact congrArg (fun r => (s, some r)) ((if_neg (Nat.not_lt.mpr hkind)).trans (if_neg fun he => hsome (List.isEmpty_iff.mp he)))

/-! ### Programs -/

/-- What a piece of a program of one format does once it is stored: the complete image is loaded (R206, R499). -/
def State.programPiece (t : State) (f : Nat) (lx : Bool) : Option Bytes → State × MbResp
  | none => (t, mbOk [])
  | some b => if lx then t.loadProgram f 1 (lxCheck b) 1 (lxProg f b) else t.loadProgram f 0 (jlCheck b) (jlSculls b) (jlProg f b)

/-- A load of one format that holds the request runs its piece (R206). -/
theorem mbProgramLoad_piece {s : State} {f : Nat} {lx : Bool} (hready : s.MbReady f 0x0601)
    (hformat : leAt (s.mbRequest f) 0 8 = if lx then 1 else 0) {t : State} {image : Option Bytes}
    (hpiece : s.loadPiece f 0x0601 (s.mbRequest f) = (t, .ok image)) :
    s.mbProgramLoad f lx = (t.programPiece f lx image).1.mbAnswer f (t.programPiece f lx image).2 := by
  have hknown : ¬ 2 ≤ leAt (s.mbRequest f) 0 8 := by
    rw [hformat]
    split <;> decide
  refine mbRun_answers hready (by rw [hformat]; cases lx <;> rfl) ((if_neg hknown).trans ?_)
  cases image <;> simp only [hpiece, State.programPiece]

/-- A program that finds its places is on the lowest free sculls, and is otherwise what its image describes (R498, R499). -/
theorem placeFor_spec {s : State} {p q : Prog} {n : Nat} (h : s.placeFor p n = some q) :
    q.sculls = (s.freeSculls p.func).take n ∧ q.sculls.length = n ∧ q.func = p.func ∧ q.words = p.words ∧ q.entry = p.entry := by
  simp only [State.placeFor] at h
  split at h
  · cases h
  next hlen =>
    split at h
    · cases h
    · split at h
      · cases h
      · cases h
        refine ⟨rfl, ?_, rfl, rfl, rfl⟩
        have := List.length_take_le n (s.freeSculls p.func)
        dsimp only
        omega

/-- Sculls changed one after the other leave the programs, the recorder and the memory. -/
theorem foldl_updScull_rest (g : Scull → Scull) : ∀ (ks : List Nat) (s : State),
    (ks.foldl (fun s k => s.updScull k g) s).sca.progs = s.sca.progs ∧ (ks.foldl (fun s k => s.updScull k g) s).recd = s.recd
  | [], _ => ⟨rfl, rfl⟩
  | k :: ks, s => foldl_updScull_rest g ks (s.updScull k g)

/-- A scull among those that are changed one after the other has what the change gives every scull. -/
theorem foldl_updScull_has {g : Scull → Scull} {P : Scull → Prop} (hg : ∀ c, P (g c)) (k : Nat) : ∀ (ks : List Nat) (s : State),
    (k ∈ ks ∨ P (s.scull k)) → P ((ks.foldl (fun s k => s.updScull k g) s).scull k)
  | [], _, h => h.resolve_left List.not_mem_nil
  | j :: ks, s, h => by
    refine foldl_updScull_has hg k ks (s.updScull j g) ?_
    by_cases hj : k = j
    · subst hj
      have hself : (s.updScull k g).scull k = g (s.scull k) := State.scull_setScull_self s k _
      exact .inr (hself ▸ hg _)
    · have hother : (s.updScull j g).scull k = s.scull k := State.scull_setScull_other s _ hj
      rcases h with h | h
      · exact .inl ((List.mem_cons.mp h).resolve_left hj)
      · exact .inr (hother ▸ h)

/-- A placed program is loaded under the next handle (R499). -/
theorem install_spec {s : State} {q : Prog} (fmt : Nat) (hhandle : (s.fn q.func).nextHandle ≤ 65535) :
    (s.install q fmt).2 = mbOk (leBytes 2 (s.fn q.func).nextHandle) ∧
    (s.install q fmt).1.sca.progs = s.sca.progs ++ [{ q with handle := (s.fn q.func).nextHandle, loadedAt := s.hif.nextCmd }] := by
  have hissue : s.issueHandle q.func = ((s.fn q.func).nextHandle, s.updFn q.func (fun x => { x with
      nextHandle := (s.fn q.func).nextHandle + 1 })) := if_pos hhandle
  simp only [State.install, hissue, State.raise_sca, true_and]
  rw [(foldl_updScull_rest _ _ _).1]
  split <;> rfl

/-- Settles O27: the pieces, the load, the status, the unload and the end of a program. -/
theorem programsAreLoadedAndUnloaded : Obligations.ProgramsAreLoadedAndUnloaded := by
  refine ⟨?_, ?_, ?_, ?_, ?_, ?_, ?_, ?_, ?_⟩
  · intro s t f b hready hformat hpiece
    exact congrArg Host.Outcome.next (mbProgramLoad_piece (lx := false) hready hformat hpiece)
  · intro s t f hready hformat hpiece
    exact congrArg Host.Outcome.next (mbProgramLoad_piece (lx := false) hready hformat hpiece)
  · intro s t f b hready hformat hpiece
    exact congrArg Host.Outcome.next (mbProgramLoad_piece (lx := true) hready hformat hpiece)
  · intro s t f hready hformat hpiece
    exact congrArg Host.Outcome.next (mbProgramLoad_piece (lx := true) hready hformat hpiece)
  · rintro s f fmt n p q hplace rfl hhandle
    obtain ⟨hsculls, hlen, hfunc, hwords, hentry⟩ := placeFor_spec hplace
    rw [← hfunc] at hhandle ⊢
    obtain ⟨hanswer, hprogs⟩ := install_spec fmt hhandle
    refine ⟨(s.install q fmt).1, ?_, hfunc ▸ hsculls, hlen, _, hprogs, rfl, rfl, rfl, hwords, hentry⟩
    simp only [State.loadProgram, hplace, ne_eq, not_true_eq_false, if_false]
    exact Prod.ext rfl hanswer
  · intro s f fmt n check p hbad
    exact if_pos hbad
  · intro s f q hready hprog
    refine congrArg Host.Outcome.next (mbRun_answers hready rfl ?_)
    simp only [hprog]
  · rintro s f h q hready rfl hprog hloaded
    refine congrArg Host.Outcome.next (mbRun_answers hready rfl ?_)
    simp only [hprog, hloaded, Bool.false_eq_true, if_false]
  · intro s f h p hprog hunloading hqueue hkeep hidle
    have hname : p.func = f ∧ p.handle = h := by simpa using List.find?_some hprog
    have hexec : exec (.programFree f h) s = .next ((s.freeProgram p).raise evProgramUnloaded f [(1, f), (2, h), (1, 1)]) := by
      simp only [exec, execProgramFree, hprog]
      refine congrArg Host.Outcome.next (if_neg ?_)
      rintro (hloaded | hbusy | hwaiting)
      · simp [hunloading] at hloaded
      · rcases Bool.or_eq_true_iff.mp hbusy with hopen | hrun
        · obtain ⟨id, hid, hopen⟩ := List.any_eq_true.mp hopen
          split at hopen
          next c hc => exact hkeep id hid c hc (Option.isNone_iff_eq_none.mp hopen)
          next => cases hopen
        · obtain ⟨k, hk, hrun⟩ := List.any_eq_true.mp hrun
          rw [hidle k hk] at hrun
          cases hrun
      · simp [hqueue] at hwaiting
    refine ⟨_, hexec, ?_, fun k hk => ?_, fun a ha x hlo hhi => ?_, ?_⟩
    · change List.filter _ _ = _
      rw [(foldl_updScull_rest _ _ _).1, hname.1, hname.2]
    · exact foldl_updScull_has (P := fun c => c.prog = [] ∧ c.mem = [] ∧ c.pl = 0) (fun c => ⟨rfl, rfl, rfl⟩) k p.sculls s (.inl hk)
    · have howned : p.ownsScratch x = true := List.any_eq_true.mpr ⟨a, ha, by simp [hlo, hhi]⟩
      change Mem.get (0 : Byte) (Mem.keep (fun x => !p.ownsScratch x) _) x = 0
      rw [Mem.get_keep]
      simp [howned]
    · rw [recd_next_raise]
      exact congrArg (fun r => r.next + 1) (foldl_updScull_rest _ p.sculls s).2

end Sys2Proof.Machine
end

section
/-! PROOFS. The event log (R549 to R559), MAINTENANCE with its diagnostics (R537 to R548), and the reports of memory and pair (R239, R309,
R584 to R592). -/

open Sys2Proof

namespace Sys2Proof.Machine

/-! ### The event log -/

/-- The counters run in every mode but HOLD and OFF (R554). -/
theorem counts_of_ne {m : Mode} (h : m ≠ .hold ∧ m ≠ .off) : m.counts = true := by
  cases m <;> simp_all [Mode.counts]

/-- A record is written outside HOLD and OFF, before the fence (R549). -/
theorem exec_eventRecordWrite {s : State} (hfence : s.psm.fence = false) (hhold : s.psm.mode ≠ .hold) (hoff : s.psm.mode ≠ .off) :
    exec .eventRecordWrite s = .next s.writeRecord :=
  congrArg Host.Outcome.next (if_neg (by simp [hfence, hhold, hoff]))

/-- Settles O30: the body of each command, the recorder's three cases, and the counter's three. -/
theorem eventLogIsReadClearedAndMarked : Obligations.EventLogIsReadClearedAndMarked := by
  refine ⟨?_, ?_, ?_, ?_, ?_, ?_, ?_, ?_, ?_, ?_, ?_, ?_, ?_⟩
  · rintro s f n hready hzero rfl hmin hmax
    refine congrArg Host.Outcome.next (mbRun_answers hready rfl ?_)
    rw [if_neg (by simp [hzero, Nat.not_lt.mpr hmax, Nat.one_le_iff_ne_zero.mp hmin])]
  · rintro s f n hready rfl hbad
    refine congrArg Host.Outcome.next (mbRun_answers hready rfl ?_)
    rw [if_pos (.inr hbad)]
  · rintro s f q hready rfl
    exact ⟨s.evtClear f, _, congrArg Host.Outcome.next (mbRun_answers hready rfl rfl), rfl, rfl, rfl, rfl, rfl, rfl, rfl, rfl, rfl⟩
  · rintro s f tick w hready rfl
    exact congrArg Host.Outcome.next (mbRun_answers hready rfl rfl)
  · intro s e q hfence hhold hoff hqueue hblocked hdropped
    rw [exec_eventRecordWrite hfence hhold hoff]
    simp only [State.writeRecord, hqueue, hblocked, hdropped]
    rfl
  · intro s e b q bs hfence hhold hoff hqueue hblocked hdropped
    rw [exec_eventRecordWrite hfence hhold hoff]
    simp only [State.writeRecord, hqueue, hblocked, hdropped]
    rfl
  · intro s e q hfence hhold hoff hqueue hblocked hdropped hroom
    rw [exec_eventRecordWrite hfence hhold hoff]
    simp only [State.writeRecord, hqueue, hblocked]
    exact congrArg Host.Outcome.next (if_pos ⟨hdropped, hroom⟩)
  · intro s hmode hsec
    simp only [exec, execHourCounterTick, counts_of_ne hmode, if_true, Rec.tick, if_pos hsec]
  · intro s hmode hsec hhours
    have hfull : ¬ s.recd.seconds < 3599 := by omega
    simp only [exec, execHourCounterTick, counts_of_ne hmode, if_true, Rec.tick, if_neg hfull, if_pos hhours]
  · intro s hmode hsec hhours
    have hfull : ¬ s.recd.seconds < 3599 := by omega
    have hlast : ¬ s.recd.hours < 16777215 := by omega
    have htick : s.recd.tick = { s.recd with hours := 16777215, seconds := 3599 } := by
      rw [← hsec, ← hhours]
      exact (if_neg hfull).trans (if_neg hlast)
    simp only [exec, execHourCounterTick, counts_of_ne hmode, if_true, htick]
  · intro s h
    refine if_pos ?_
    rcases h with h | h | h
    · exact .inl (by simp [h])
    · exact .inr (.inl h)
    · exact .inr (.inr (.inl (Option.isSome_iff_ne_none.mpr h)))
  · intro s htrial hleft hnone hmode
    have hdue : ¬ (!s.nvs.trial ∨ s.nvs.trialLeft ≠ 0 ∨ s.nvs.reverting.isSome ∨ !s.psm.mode.engines) := by
      simp [htrial, hleft, hnone, hmode]
    have hstep : s.expireTrial = _ := if_neg hdue
    rw [hstep]
    exact ⟨rfl, rfl⟩
  · intro s hmode hfence
    exact congrArg Host.Outcome.next (if_pos ⟨counts_of_ne hmode, by simp [State.mayWriteNvs, hfence]⟩)

/-! ### MAINTENANCE -/

/-- MAINTENANCE entered for the host is the mode, held for the host or from SAFE-HALT (R540). -/
theorem maintEnter_spec (s : State) (f : Nat) (held : Bool) : (s.maintEnter f held).psm.mode = .maintenance ∧
    (s.maintEnter f held).psm.maintByHost = !held ∧ (s.maintEnter f held).psm.heldFromHalt = held := by
  refine ⟨?_, rfl, rfl⟩
  unfold State.maintEnter
  dsimp only
  split
  next h => exact h
  next => rfl

/-- MB_MAINT_ENTER with no request waiting and no safe drain under way makes its request (R540). -/
theorem exec_mbMaintEnter {s : State} {f : Nat} (hfree : s.psm.maintWaiting = none)
    (hdrained : ¬ (s.psm.mode = .safeHalt ∧ s.psm.halt.safeDrain)) :
    exec (.mbMaintEnter f) s = .next (s.mbRunAs f 0x0903 anyPayload (fun s w _ => s.maintRequest f w)) := by
  simp only [exec, execMbMaintEnter, hfree, if_neg hdrained]

/-- A request that MAINTENANCE answers at once. -/
theorem maintRequest_answers {s t : State} {f : Nat} {p : MbResp} (hready : s.MbReady f 0x0903)
    (hbody : s.maintRequest f f = (t, some p)) :
    s.mbRunAs f 0x0903 anyPayload (fun s w _ => s.maintRequest f w) = t.mbAnswer f p := by
  rw [mbRunAs_ready hready _ _ rfl, hbody]

/-- A request that waits for accepted I/O. -/
theorem maintRequest_waits {s t : State} {f : Nat} (hready : s.MbReady f 0x0903) (hbody : s.maintRequest f f = (t, none)) :
    s.mbRunAs f 0x0903 anyPayload (fun s w _ => s.maintRequest f w) = t.mbHold f := by
  rw [mbRunAs_ready hready _ _ rfl, hbody]

/-- A request from SERVICE or DEGRADED, with nothing held yet, enters MAINTENANCE and answers, or waits for I/O (R540). -/
theorem maintRequest_running {s : State} {f : Nat} (hmode : s.psm.mode = .service ∨ s.psm.mode = .degraded)
    (hheld : s.psm.heldFromHalt = false) (hhost : s.psm.maintByHost = false) :
    s.maintRequest f f = if (s.maintEnter f false).ioDone then (s.maintEnter f false, some (mbOk []))
      else ({ s.maintEnter f false with psm := { (s.maintEnter f false).psm with maintWaiting := some f } }, none) := by
  have hnew : ¬ (s.psm.heldFromHalt = true ∨ s.psm.maintByHost = true) := by simp [hheld, hhost]
  rcases hmode with h | h <;> simp only [State.maintRequest, h, if_neg hnew]

/-- A diagnostic of its own number runs in MAINTENANCE and is refused outside (R541). -/
theorem diag_runs {s : State} {f n : Nat} {body : State → State × Nat} (hready : s.MbReady f 0x0905)
    (htest : leAt (s.mbRequest f) 0 2 = n) : s.diag f n body =
      if s.psm.mode = .maintenance then (body s).1.mbAnswer f (mbOk (leBytes 8 (body s).2)) else s.mbAnswer f (mbErr 0x0005) := by
  refine (mbRun_ready hready _ _ (by simp [diagTest, htest])).trans ?_
  by_cases hmode : s.psm.mode = .maintenance
  · rw [if_pos hmode]
    simp only [hmode, htest, ne_eq, not_true_eq_false, if_false]
  · rw [if_neg hmode]
    simp only [hmode, ne_eq, not_false_eq_true, if_true]

/-- With no failing unit the bits of a kind are 0. -/
theorem instanceBits_none (l : List Instance) : instanceBits (fun j => ([] : List Instance).contains j) l = 0 := by
  refine foldl_fixed _ fun x _ => ?_
  simp [flag]

/-- Settles O31. -/
theorem maintenanceAndItsDiagnostics : Obligations.MaintenanceAndItsDiagnostics := by
  refine ⟨?_, ?_, ?_, ?_, ?_, ?_, ?_, ?_, ?_, ?_, ?_, ?_, ?_, ?_, ?_, ?_, ?_, ?_, ?_⟩
  · intro s f hready
    exact congrArg Host.Outcome.next (mbRun_answers hready rfl rfl)
  · rintro s t f hready hfree hmode hheld hhost rfl hdone
    have hbody := (maintRequest_running hmode hheld hhost).trans (if_pos hdone)
    exact ⟨(exec_mbMaintEnter hfree (by rcases hmode with h | h <;> simp [h])).trans
      (congrArg Host.Outcome.next (maintRequest_answers hready hbody)), (maintEnter_spec s f false).1, rfl⟩
  · rintro s t f hready hfree hmode hheld hhost rfl hopen
    have hbody := (maintRequest_running (f := f) hmode hheld hhost).trans (if_neg (by simp [hopen]))
    exact ⟨(exec_mbMaintEnter hfree (by rcases hmode with h | h <;> simp [h])).trans
      (congrArg Host.Outcome.next (maintRequest_waits hready hbody)), (maintEnter_spec s f false).1⟩
  · intro s f hready hfree hmode hdrained
    have hbody : s.maintRequest f f = (s.maintEnter f true, some (mbOk [])) := by simp only [State.maintRequest, hmode]
    exact ⟨(exec_mbMaintEnter hfree (by simp [hdrained])).trans
      (congrArg Host.Outcome.next (maintRequest_answers hready hbody)), (maintEnter_spec s f true).1, rfl⟩
  · intro s f hready hstay hmode
    refine congrArg Host.Outcome.next ((if_neg (by simp [hstay])).trans (mbRun_answers hready rfl (if_pos hmode)))
  · rintro s t f hready hstay hmode hheld rfl
    refine congrArg Host.Outcome.next ((if_neg (by simp [hstay])).trans (mbRun_answers hready rfl ((if_neg (by simp [hmode])).trans ?_)))
    exact if_neg (by simp [hheld])
  · intro s f hready hstay hmode hheld
    refine congrArg Host.Outcome.next ((if_neg (by simp [hstay])).trans (mbRun_answers hready rfl ((if_neg (by simp [hmode])).trans ?_)))
    exact if_pos hheld
  · intro s f v0 v1 v2 hready htest hmode
    exact congrArg Host.Outcome.next ((diag_runs hready htest).trans (if_neg hmode))
  · intro s t f v0 v1 v2 ok hready htest hmode hvolts hidle hresult
    refine congrArg Host.Outcome.next ((diag_runs hready htest).trans ((if_pos hmode).trans ?_))
    rw [if_neg (by simp [hidle, Nat.not_lt.mpr hvolts]), hresult]
  · intro s f v0 v1 v2 hready htest hmode hvolts
    refine congrArg Host.Outcome.next ((diag_runs hready htest).trans ((if_pos hmode).trans ?_))
    rw [if_pos (.inl hvolts)]
  · intro s f failed hready htest hmode
    exact congrArg Host.Outcome.next ((diag_runs hready htest).trans (if_neg hmode))
  · intro s f hready htest hmode
    refine congrArg Host.Outcome.next ((diag_runs hready htest).trans ((if_pos hmode).trans ?_))
    simp only [instanceBits_none]
    simp [flag]
  · intro s f i hready htest hmode hi
    refine ⟨_, _, congrArg Host.Outcome.next ((diag_runs hready htest).trans (if_pos hmode)),
      congrArg Mbox.prepared (State.mb_updMb_self _ f _), ?_⟩
    · have hfails : allInstances.any (fun j => [i].contains j) = true := List.any_eq_true.mpr ⟨i, hi, by simp⟩
      simp only [hfails, flag, if_true]
      omega
  · intro s f failed hready htest hmode
    exact congrArg Host.Outcome.next ((diag_runs hready htest).trans (if_neg hmode))
  · intro s f failed hready htest hmode
    exact congrArg Host.Outcome.next ((diag_runs hready htest).trans (if_pos hmode))
  · intro s f corrected uncorrectable hready htest hmode
    exact congrArg Host.Outcome.next ((diag_runs hready htest).trans (if_neg hmode))
  · intro s f corrected uncorrectable hready htest hmode
    exact congrArg Host.Outcome.next ((diag_runs hready htest).trans (if_pos hmode))
  · intro s f lines hready htest hmode
    exact congrArg Host.Outcome.next ((diag_runs hready htest).trans (if_neg hmode))
  · intro s f lines hready htest hmode
    exact congrArg Host.Outcome.next ((diag_runs hready htest).trans (if_pos hmode))

/-! ### Reports of memory and pair -/

/-- The end of a command leaves the functions and the pair. -/
theorem finish_rest (s : State) (id : CmdId) (st : Status) (x y : BitVec 32) :
    (s.finish id st x y).fns = s.fns ∧ (s.finish id st x y).swl = s.swl := by
  unfold State.finish State.noteFinished State.updCmd
  (repeat' split) <;> exact ⟨rfl, rfl⟩

/-- A change of a function that leaves its mailbox leaves every mailbox. -/
theorem mb_updFn {g : Fn → Fn} (hg : ∀ x, (g x).mbox = x.mbox) (s : State) (f j : Nat) : (s.updFn f g).mb j = s.mb j := by
  by_cases hj : j = f
  · subst hj
    exact (congrArg Fn.mbox (State.fn_updFn_self s j g)).trans (hg _)
  · exact congrArg Fn.mbox (State.fn_updFn_other s g hj)

/-- An asynchronous event leaves the pair and the mailboxes (R127). -/
theorem asyncEvent_rest (s : State) (f : Nat) (dw0 : BitVec 32) :
    (s.asyncEvent f dw0).swl = s.swl ∧ ∀ j, (s.asyncEvent f dw0).mb j = s.mb j := by
  unfold State.asyncEvent
  split
  next id rest _ =>
    obtain ⟨hfns, hswl⟩ := finish_rest (s.updFn f (fun x => { x with aers := rest })) id .success dw0 0
    refine ⟨hswl, fun j => ?_⟩
    exact (congrArg (fun m => (Mem.get ({} : Fn) m j).mbox) hfns).trans (mb_updFn (g := fun x => { x with aers := rest }) (fun _ => rfl) s f j)
  next =>
    split
    · exact ⟨rfl, fun _ => rfl⟩
    · exact ⟨rfl, fun j => mb_updFn (g := fun x => { x with events := x.events ++ [dw0] }) (fun _ => rfl) s f j⟩

/-- The event of a changed access state leaves the pair and the mailboxes (R583). -/
theorem anaEvent_rest (s : State) : s.anaEvent.swl = s.swl ∧ ∀ j, s.anaEvent.mb j = s.mb j := by
  unfold State.anaEvent
  induction s.present generalizing s with
  | nil => exact ⟨rfl, fun _ => rfl⟩
  | cons f fs ih =>
    obtain ⟨hswl, hmb⟩ := asyncEvent_rest s f (BitVec.ofNat 32 (2 + 3 * 2 ^ 8 + 0x0C * 2 ^ 16))
    obtain ⟨hswl', hmb'⟩ := ih (s.asyncEvent f (BitVec.ofNat 32 (2 + 3 * 2 ^ 8 + 0x0C * 2 ^ 16)))
    exact ⟨hswl'.trans hswl, fun j => (hmb' j).trans (hmb j)⟩

/-- The end of a cause leaves the pair (R537). -/
theorem clearCause_swl (s : State) (i cause : Nat) : (s.clearCause i cause).swl = s.swl := by
  unfold State.clearCause State.toMode
  dsimp only
  (repeat' split) <;> rfl

/-- The unpaired device that begins to join (R584). -/
def State.joins (s : State) (f p : Nat) : State :=
  let t := (s.draw 64).2
  { t with swl := { t.swl with
      position := p, memberId := (s.draw 64).1, state := .joining, joining := some f, joinMs := 0, retryMs := 0, refusal := none
      link := { t.swl.link with nonce0 := [], nonce1 := [] } } }

/-- A mailbox whose request waits has no response prepared by that. -/
theorem mb_mbHold (s : State) (f : Nat) : (s.mbHold f).mb f = { s.mb f with waiting := true } := State.mb_updMb_self s f _

/-- Settles O32. -/
theorem profilesOfMemoryAndThePairAreReported : Obligations.ProfilesOfMemoryAndThePairAreReported := by
  refine ⟨?_, ?_, ?_, ?_, ?_, ?_, ?_, ?_⟩
  · intro s f hready
    exact congrArg Host.Outcome.next (mbRun_answers hready rfl rfl)
  · rintro s f c hready rfl hchannel
    refine congrArg Host.Outcome.next (mbRun_answers hready rfl ?_)
    rw [if_neg (Nat.not_lt.mpr hchannel)]
  · rintro s f c hready rfl hchannel
    refine congrArg Host.Outcome.next (mbRun_answers hready rfl ?_)
    rw [if_pos hchannel]
  · intro s f hready
    exact congrArg Host.Outcome.next (mbRun_answers hready rfl rfl)
  · intro s f hready hposition hcfg
    simp only [exec, execMbPairJoin]
    rw [mbRunAs_ready hready _ _ rfl, if_neg (Nat.not_lt.mpr hposition), if_pos (by simp [hcfg])]
  · rintro s f p g hready rfl hposition hcfg hstate
    obtain ⟨hswl, hmb⟩ := anaEvent_rest (s.joins f (byteAt (s.mbRequest f) 0))
    refine ⟨(s.joins f (byteAt (s.mbRequest f) 0)).anaEvent.mbHold f, ?_, ?_⟩
    · simp only [exec, execMbPairJoin]
      rw [mbRunAs_ready hready _ _ rfl, if_neg (Nat.not_lt.mpr hposition), if_neg (by simp [hcfg]), if_neg (by simp [hstate])]
      rfl
    · rw [State.mbHold_swl, hswl, mb_mbHold, hmb]
      exact ⟨rfl, rfl, rfl, rfl, rfl, hready.open_⟩
  · intro s f hready hstate
    exact congrArg Host.Outcome.next (mbRun_answers hready rfl (if_pos hstate))
  · intro s f hready hstate
    refine ⟨_, congrArg Host.Outcome.next (mbRun_answers hready rfl (if_neg hstate)), ?_⟩
    rw [State.mbAnswer_swl, (anaEvent_rest _).1, clearCause_swl, clearCause_swl, State.raise_swl]
    exact ⟨rfl, rfl, congrArg Mbox.prepared (State.mb_updMb_self _ f _), rfl, rfl⟩

end Sys2Proof.Machine
end

section
/-! PROOFS. Background media work, read-only, and what discovery and replay find at BOOT (R234 to R238, R251, R255 to R272). -/

open Sys2Proof

namespace Sys2Proof.Machine

/-! ### Patrol and the sketch -/

section
variable (s : State) (k : Nat)

theorem sb_updSb_other {j : Nat} (g : Sb → Sb) (h : k ≠ j) : (s.updSb j g).sb k = s.sb k := Mem.get_upd_other _ _ _ h

/-- Counting page reads draws nothing, and leaves the cells and the patrol marks of every superblock (R265). -/
theorem countPages_rest (ps : List Nat) : (s.countPages ps).nss = s.nss ∧ (s.countPages ps).objs = s.objs ∧
    (s.countPages ps).flash.cells = s.flash.cells ∧ (s.countPages ps).freeCtr = s.freeCtr ∧
    ((s.countPages ps).sb k).relocate = (s.sb k).relocate := by
  unfold State.countPages
  induction nubNat (ps.map (· / 16)) generalizing s with
  | nil => exact ⟨rfl, rfl, rfl, rfl, rfl⟩
  | cons r rs ih =>
    obtain ⟨hnss, hobjs, hcells, hctr, hrel⟩ := ih (s.updSb (paddrSb (16 * r)) (fun b => { b with
      reads := b.reads.modify (paddrMember (16 * r)) (fun n => Nat.min (n + 1) 0xFFFFFFFF) }))
    refine ⟨hnss, hobjs, hcells, hctr, hrel.trans ?_⟩
    by_cases hk : k = paddrSb (16 * r)
    · rw [hk, sb_updSb_self]
    · rw [sb_updSb_other _ _ _ hk]

/-- Retuning draws a threshold for each of the four member blocks, and changes nothing else (R242, R266). -/
theorem retune_rest (j : Nat) : (s.retune j).nss = s.nss ∧ (s.retune j).objs = s.objs ∧ (s.retune j).flash.cells = s.flash.cells ∧
    (s.retune j).freeCtr = s.freeCtr + 4 ∧ (s.retune j).sb k = s.sb k := ⟨rfl, rfl, rfl, rfl, rfl⟩

end

theorem get_halved (k n : Nat) :
    Mem.get 0 ((([(k, n)] : List (Nat × Nat)).map (fun e => (e.1, e.2 / 2))).filter (fun e => e.2 != 0)) k = n / 2 := by
  by_cases h : n / 2 = 0
  · simp [h, Mem.get]
  · simp [h, Mem.get]

/-- Settles O35, a clause for each branch of the eight steps. -/
theorem backgroundMediaWorkMovesData : Obligations.BackgroundMediaWorkMovesData := by
  refine ⟨?_, ?_, ?_, ?_, ?_, ?_, ?_, ?_, ?_, ?_, ?_, ?_, ?_, ?_, ?_, ?_, ?_⟩
  · intro s q e hwork hyield hfirst
    simp only [exec, execFold]
    rw [if_neg (by rcases hyield with h | h <;> simp [hwork, h])]
    simp only [hfirst]
  · intro s q hidle
    refine congrArg Host.Outcome.next (if_pos ?_)
    rcases hidle with h | ⟨h, h'⟩
    · exact .inl (by simp [h])
    · exact .inr (by simp [h, h'])
  · intro s q e hwork hfirst
    simp [exec, execGcStart, hwork, hfirst]
  · intro s q e hwork hnone hlow hused hfewest
    simp only [exec, execGcStart, hwork, hnone]
    rw [if_neg (by simp), if_pos ⟨hlow, hused⟩]
    simp only [hfewest]
  · intro s q hwork hnone henough
    simp [exec, execGcStart, hwork, hnone, Nat.not_lt.mpr henough]
  · intro s q hi e hwork hmost hfree hspread hleast
    simp only [exec, execWearLevelRelocate, hmost, if_pos hfree, Nat.sub_zero]
    rw [if_neg (by simp [hwork, Nat.not_le.mpr hspread])]
    simp only [hleast]
  · intro s q sb n hwork hclosed hidle hreads hlimit hcold
    simp only [exec, execReadDisturbRelocate, hreads]
    rw [if_neg (by simp [hwork, hclosed, hidle, Nat.not_lt.mpr hlimit])]
    simp [hclosed, hcold]
  · intro s q sb n hwork hclosed hidle hreads hlimit hhot
    simp only [exec, execReadDisturbRelocate, hreads]
    rw [if_neg (by simp [hwork, hclosed, hidle, Nat.not_lt.mpr hlimit])]
    simp [hclosed, hhot]
  · intro s q sb hfew
    exact congrArg Host.Outcome.next (if_pos (.inl hfew))
  · intro s hmay
    exact ⟨_, congrArg Host.Outcome.next (if_neg (by simp [hmay])), rfl, rfl, rfl⟩
  · intro s q sb rung corrected hmode hclosed hidle hdue
    obtain ⟨hnss, hobjs, hcells, hctr, hrel⟩ := countPages_rest s (sbKey q sb) (patrolRuns (sbKey q sb) (s.sb (sbKey q sb)).fill)
    obtain ⟨hnss', hobjs', hcells', hctr', hsb'⟩ :=
      retune_rest (s.countPages (patrolRuns (sbKey q sb) (s.sb (sbKey q sb)).fill)) (sbKey q sb) (sbKey q sb)
    refine ⟨_, congrArg Host.Outcome.next (if_neg ?_), ?_, ?_, hnss'.trans hnss, hobjs'.trans hobjs, hcells'.trans hcells, ?_⟩
    · rintro (⟨h, h'⟩ | h | h | h)
      · exact hmode.elim h h'
      · exact h hclosed
      · simp [hidle] at h
      · exact hdue h
    · rw [sb_updSb_self]
    · rw [sb_updSb_self, hsb']
      simp only [hrel]
    · exact hctr'.trans (congrArg (· + 4) hctr)
  · intro s q sb rung corrected hclosed hidle hdone
    exact congrArg Host.Outcome.next (if_pos (.inr (.inr (.inr hdone))))
  · intro s ext c hwork hchunk hflash hcold hops htier hread hwords hroom
    simp only [exec, execHotPromote]
    rw [if_neg, if_pos hroom]
    have hall : (((s.entryUnits (chunkKey (ext / 4) (64 * (ext % 4)))).map (fun u =>
        s.cell ((s.entry (chunkKey (ext / 4) (64 * (ext % 4)))).paddr + (u - chunkKey (ext / 4) (64 * (ext % 4)))))).any (·.isNone)) = false := by
      rw [List.any_eq_false]
      intro w hw
      simpa using hwords w hw
    simp [hchunk, hflash, hcold, hops, htier, hwork, Nat.not_lt.mpr hread, hall]
  · intro s ext hnot
    refine congrArg Host.Outcome.next (if_pos ?_)
    rcases hnot with h | h | h
    · exact .inl (by simp [h])
    · exact .inr (.inl h)
    · exact .inr (.inr (.inl h))
  · intro s _ hmany hempty
    refine ⟨_, congrArg Host.Outcome.next (if_neg (Nat.not_lt.mpr hmany)), Nat.sub_add_cancel hmany, ?_⟩
    simp [hempty]
  · intro s k n hmany hone
    refine ⟨_, congrArg Host.Outcome.next (if_neg (Nat.not_lt.mpr hmany)), ?_⟩
    simp only [hone]
    exact get_halved k n
  · intro s hfew
    exact congrArg Host.Outcome.next (if_pos hfew)

end Sys2Proof.Machine
end

section
/-! PROOFS. The journal and its checkpoint, read-only, and what discovery and replay find at BOOT (R234 to R238, R251, R271, R272). -/

open Sys2Proof

namespace Sys2Proof.Machine

/-! ### An event leaves the media and the power state -/

theorem asyncEvent_psm_flash (s : State) (f : Nat) (dw0 : BitVec 32) :
    (s.asyncEvent f dw0).psm = s.psm ∧ (s.asyncEvent f dw0).flash = s.flash := by
  unfold State.asyncEvent State.finish State.noteFinished State.updCmd
  (repeat' split) <;> exact ⟨rfl, rfl⟩

theorem smartEvent_psm_flash (s : State) (info : Nat) : (s.smartEvent info).psm = s.psm ∧ (s.smartEvent info).flash = s.flash := by
  unfold State.smartEvent
  induction s.present generalizing s with
  | nil => exact ⟨rfl, rfl⟩
  | cons f fs ih =>
    obtain ⟨hpsm, hflash⟩ := asyncEvent_psm_flash s f (BitVec.ofNat 32 (1 + info * 2 ^ 8 + 0x02 * 2 ^ 16))
    obtain ⟨hpsm', hflash'⟩ := ih (s.asyncEvent f (BitVec.ofNat 32 (1 + info * 2 ^ 8 + 0x02 * 2 ^ 16)))
    exact ⟨hpsm'.trans hpsm, hflash'.trans hflash⟩

/-! ### Training and exclusion -/

/-- Training leaves all but the channels, the recorder and the count of dangerous records (R238). -/
theorem trained_rest (s : State) (r : ChanReport) : (s.trained r).flash = { s.flash with chans := (s.trained r).flash.chans } ∧
    (s.trained r).nss = s.nss ∧ (s.trained r).psm.mode = s.psm.mode ∧ (s.trained r).psm.halt.withdrawn = s.psm.halt.withdrawn := by
  unfold State.trained
  dsimp only
  (repeat' split) <;> exact ⟨rfl, rfl, rfl, rfl⟩

theorem foldl_trained_rest (l : List ChanReport) (s : State) :
    (l.foldl State.trained s).flash = { s.flash with chans := (l.foldl State.trained s).flash.chans } ∧
    (l.foldl State.trained s).nss = s.nss ∧ (l.foldl State.trained s).psm.mode = s.psm.mode ∧
    (l.foldl State.trained s).psm.halt.withdrawn = s.psm.halt.withdrawn := by
  induction l generalizing s with
  | nil => exact ⟨rfl, rfl, rfl, rfl⟩
  | cons r l ih =>
    obtain ⟨hflash, hnss, hmode, hwith⟩ := ih (s.trained r)
    obtain ⟨hflash', hnss', hmode', hwith'⟩ := trained_rest s r
    refine ⟨?_, hnss.trans hnss', hmode.trans hmode', hwith.trans hwith'⟩
    rw [List.foldl_cons, hflash, hflash']

/-- What an NV-DDR3 channel with open eyes at each of its rates reports. -/
def openEyes (ch : Nat) : ChanReport := { ch := ch, lpddr4 := false, eyes := [(1600, 300, 300), (1200, 300, 300), (800, 300, 300)] }

theorem trainChannel_openEyes {cfg : Nat} (h : 800 ≤ cfg) (ch : Nat) : (trainChannel cfg (openEyes ch)).isSome = true := by
  by_cases h16 : 1600 ≤ cfg
  · simp [trainChannel, openEyes, ifaceRates, h16]
  · by_cases h12 : 1200 ≤ cfg
    · simp [trainChannel, openEyes, ifaceRates, h16, h12]
    · simp [trainChannel, openEyes, ifaceRates, h16, h12, h]

/-- A channel in use whose eyes are open trains at some rate; the other channels are as they were (R238). -/
theorem trained_openEyes {s : State} {ch : Nat} (hch : ch < 16) (hen : s.flash.cfg.chanEn = BitVec.allOnes 16)
    (hrate : 800 ≤ s.flash.cfg.rate) (j : Nat) :
    (Mem.get {} (s.trained (openEyes ch)).flash.chans j).trained = (j == ch || (Mem.get {} s.flash.chans j).trained) := by
  have hon : s.flash.cfg.chanEn.getLsbD ch = true := by
    rw [hen, BitVec.getLsbD_allOnes]
    exact decide_eq_true hch
  obtain ⟨e, he⟩ := Option.isSome_iff_exists.mp
    (trainChannel_openEyes (cfg := Nat.min s.flash.cfg.rate 1600) (by simp only [Nat.min_def]; split <;> omega) ch)
  have hchans : (s.trained (openEyes ch)).flash.chans = Mem.set {} s.flash.chans ch
      { iface := 1, rate := e.1, readEye := e.2.1, writeEye := e.2.2, trained := true, wpHigh := true } := by
    unfold State.trained
    rw [show (openEyes ch).ch = ch from rfl, show (openEyes ch).lpddr4 = false from rfl]
    simp only [hon, he, Bool.not_true, Bool.false_eq_true, if_false]
    split <;> rfl
  rw [hchans]
  by_cases hj : j = ch
  · subst hj
    rw [Mem.get_set_self]
    simp
  · rw [Mem.get_set_other _ _ _ hj]
    simp [hj]

theorem foldl_trained_openEyes {l : List Nat} : ∀ {s : State}, (∀ ch ∈ l, ch < 16) → s.flash.cfg.chanEn = BitVec.allOnes 16 →
    800 ≤ s.flash.cfg.rate → ∀ j, j ∈ l ∨ (Mem.get {} s.flash.chans j).trained = true →
    (Mem.get {} ((l.map openEyes).foldl State.trained s).flash.chans j).trained = true := by
  induction l with
  | nil => exact fun _ _ _ j hj => hj.elim (fun h => absurd h (List.not_mem_nil)) id
  | cons ch l ih =>
    intro s hl hen hrate j hj
    have hcfg : (s.trained (openEyes ch)).flash.cfg = s.flash.cfg := by
      rw [(trained_rest s (openEyes ch)).1]
    refine ih (fun c hc => hl c (List.mem_cons_of_mem _ hc)) (by rw [hcfg]; exact hen) (by rw [hcfg]; exact hrate) j ?_
    rw [trained_openEyes (hl ch (List.mem_cons_self ..)) hen hrate]
    rcases hj with hj | hj
    · rcases List.mem_cons.mp hj with rfl | hj
      · exact .inr (by simp)
      · exact .inl hj
    · exact .inr (by simp [hj])

/-- A combination that every die reports is the reference (R235). -/
theorem reference_of_forall {c : (Nat × Nat × Nat × Nat × Nat) × Nat × Nat} {ds : List DieReport} (hne : ds ≠ [])
    (hall : ∀ d ∈ ds, dieCombo d = c) : reference ds = some c := by
  have hstay : ∀ (l : List DieReport) (x : DieReport × Nat), (∀ d ∈ l, dieCombo d = c) → dieCombo x.1 = c →
      (l.foldl (fun (b : Option (DieReport × Nat)) d =>
        let n := ds.countP (fun x => dieCombo x == dieCombo d)
        match b with
        | none => some (d, n)
        | some x => if x.2 < n ∨ (x.2 = n ∧ d.die < x.1.die) then some (d, n) else b) (some x)).map (fun x => dieCombo x.1) = some c := by
    intro l
    induction l with
    | nil => exact fun x _ hx => congrArg some hx
    | cons d l ih =>
      intro x hl hx
      rw [List.foldl_cons]
      dsimp only
      split
      · exact ih _ (fun e he => hl e (List.mem_cons_of_mem _ he)) (hl d (List.mem_cons_self ..))
      · exact ih _ (fun e he => hl e (List.mem_cons_of_mem _ he)) hx
  obtain ⟨d, l, rfl⟩ := List.exists_cons_of_ne_nil hne
  exact hstay l _ (fun e he => hall e (List.mem_cons_of_mem _ he)) (hall d (List.mem_cons_self ..))

/-! ### A quad that comes into service -/

/-- A die that takes its place for the first time, with `m` superblocks of its quad (R635). -/
def takenDie (d : DieReport) (m : Nat) : Die :=
  let y : Die := { state := 1, cell := d.cell, good := dieGood d, bad := d.bad, free := m, spareFirst := dieGood d - m }
  { y with spares := (List.range (dieGood d - m)).map (fun i => y.goodBlock (m + i)) }

theorem die_updDie_self (s : State) (d : Nat) (g : Die → Die) : (s.updDie d g).die d = g (s.die d) := Mem.get_upd_self _ _ _ _

theorem die_updDie_other (s : State) {d j : Nat} (g : Die → Die) (h : j ≠ d) : (s.updDie d g).die j = s.die j :=
  Mem.get_upd_other _ _ _ h

theorem takeDie_new {s : State} {d : DieReport} (h : s.die d.die = {}) (m : Nat) : (s.takeDie d m).die d.die = takenDie d m := by
  unfold State.takeDie
  rw [die_updDie_self, h]
  rfl

theorem takeDie_other {s : State} {d : DieReport} {j : Nat} (h : j ≠ d.die) (m : Nat) : (s.takeDie d m).die j = s.die j :=
  die_updDie_other _ _ h

theorem foldl_takeDie_rest (g : DieReport → Nat) (l : List DieReport) (s : State) :
    (l.foldl (fun s d => s.takeDie d (g d)) s).flash = { s.flash with dies := (l.foldl (fun s d => s.takeDie d (g d)) s).flash.dies } ∧
    (l.foldl (fun s d => s.takeDie d (g d)) s).psm = s.psm ∧ (l.foldl (fun s d => s.takeDie d (g d)) s).nss = s.nss := by
  induction l generalizing s with
  | nil => exact ⟨rfl, rfl, rfl⟩
  | cons d l ih =>
    obtain ⟨hflash, hpsm, hnss⟩ := ih (s.takeDie d (g d))
    exact ⟨hflash, hpsm, hnss⟩

theorem foldl_takeDie_new (g : DieReport → Nat) {l : List DieReport} : ∀ {s : State}, (l.map (·.die)).Nodup →
    (∀ d ∈ l, s.die d.die = {}) → ∀ d ∈ l, (l.foldl (fun s d => s.takeDie d (g d)) s).die d.die = takenDie d (g d) := by
  have hother : ∀ (l : List DieReport) (s : State) (j : Nat), (∀ d ∈ l, j ≠ d.die) →
      (l.foldl (fun s d => s.takeDie d (g d)) s).die j = s.die j := by
    intro l
    induction l with
    | nil => exact fun _ _ _ => rfl
    | cons e l ih =>
      intro s j hj
      exact (ih _ j (fun d hd => hj d (List.mem_cons_of_mem _ hd))).trans (takeDie_other (hj e (List.mem_cons_self ..)) _)
  induction l with
  | nil => exact fun _ _ d hd => absurd hd (List.not_mem_nil)
  | cons e l ih =>
    intro s hnd hnew d hd
    obtain ⟨hnot, hnd'⟩ := List.nodup_cons.mp hnd
    have hdiff : ∀ x ∈ l, e.die ≠ x.die := fun x hx h => hnot (List.mem_map.mpr ⟨x, hx, h.symm⟩)
    rcases List.mem_cons.mp hd with rfl | hd
    · exact (hother l _ _ hdiff).trans (takeDie_new (hnew d (List.mem_cons_self ..)) _)
    · refine ih hnd' (fun x hx => ?_) d hd
      exact (takeDie_other (hdiff x hx).symm _).trans (hnew x (List.mem_cons_of_mem _ hx))

theorem mem_quadDies {q d : Nat} : d ∈ quadDies q ↔ ∃ m < 4, d = 16 * (q / 4) + q % 4 + 4 * m := by
  simp [quadDies, eq_comm]

theorem dieQuad_of_mem {q d : Nat} (h : d ∈ quadDies q) : dieQuad d = q := by
  obtain ⟨m, hm, rfl⟩ := mem_quadDies.mp h
  unfold dieQuad
  omega

theorem quadDies_nodup (q : Nat) : (quadDies q).Nodup := by
  unfold quadDies
  refine List.pairwise_map.mpr (List.nodup_range.imp ?_)
  intro a b h
  omega

end Sys2Proof.Machine
end

section
/-! PROOFS. The replay of the maps at BOOT, and what settles O36 (R235, R251, R265, R531). -/

open Sys2Proof

namespace Sys2Proof.Machine

/-! ### Map entries put back -/

theorem mem_nubNat {x : Nat} {l : List Nat} (h : x ∈ l) : x ∈ nubNat l := by
  have hfold : ∀ (l acc : List Nat), x ∈ acc ∨ x ∈ l → x ∈ l.foldl (fun acc y => if acc.contains y then acc else acc ++ [y]) acc := by
    intro l
    induction l with
    | nil => exact fun acc h => h.elim id (fun h => absurd h (List.not_mem_nil))
    | cons y l ih =>
      intro acc h
      rw [List.foldl_cons]
      refine ih _ ?_
      by_cases hy : acc.contains y = true
      · rw [if_pos hy]
        rcases h with h | h
        · exact .inl h
        · rcases List.mem_cons.mp h with rfl | h
          · exact .inl (by simpa using hy)
          · exact .inr h
      · rw [if_neg hy]
        rcases h with h | h
        · exact .inl (List.mem_append_left _ h)
        · rcases List.mem_cons.mp h with rfl | h
          · exact .inl (by simp)
          · exact .inr h
  exact hfold l [] (.inr h)

theorem mem_of_get {α : Type} {m : Mem (Option α)} {k : Nat} {v : α} (h : Mem.get none m k = some v) : (k, some v) ∈ m := by
  induction m with
  | nil => cases h
  | cons e m ih =>
    obtain ⟨j, w⟩ := e
    unfold Mem.get at h
    split at h
    · next hj =>
      subst hj h
      exact List.mem_cons_self ..
    · exact List.mem_cons_of_mem _ (ih h)

section
variable (s : State)

theorem putEntry_rest (k : Nat) (e : MapEntry) : (s.putEntry k e).psm = s.psm ∧ (s.putEntry k e).flash = s.flash ∧
    (s.putEntry k e).nss.slots = s.nss.slots ∧ (s.putEntry k e).nss.ledger = s.nss.ledger := by
  unfold State.putEntry
  (repeat' split) <;> exact ⟨rfl, rfl, rfl, rfl⟩

theorem applyWord_rest (r : Nat × Nat) : (s.applyWord r).psm = s.psm ∧ (s.applyWord r).flash = s.flash := by
  unfold State.applyWord
  by_cases hzero : r.1 = 0
  · rw [if_pos hzero]
    exact ⟨rfl, rfl⟩
  rw [if_neg hzero]
  by_cases hchunk : 2 ^ 63 ≤ r.1
  · rw [if_pos hchunk]
    exact ⟨(putEntry_rest s _ _).1, (putEntry_rest s _ _).2.1⟩
  rw [if_neg hchunk]
  by_cases hobj : 2 ^ 62 ≤ r.1
  · rw [if_pos hobj]
    exact ⟨rfl, rfl⟩
  · rw [if_neg hobj]
    exact ⟨(putEntry_rest s _ _).1, (putEntry_rest s _ _).2.1⟩

theorem replayMaps_rest : s.replayMaps.psm = s.psm ∧ s.replayMaps.flash = s.flash := by
  have hfold : ∀ (l : List (Nat × Nat)) (t : State), (l.foldl State.applyWord t).psm = t.psm ∧ (l.foldl State.applyWord t).flash = t.flash := by
    intro l
    induction l with
    | nil => exact fun _ => ⟨rfl, rfl⟩
    | cons r l ih =>
      intro t
      obtain ⟨hpsm, hflash⟩ := ih (t.applyWord r)
      obtain ⟨hpsm', hflash'⟩ := applyWord_rest t r
      exact ⟨hpsm.trans hpsm', hflash.trans hflash'⟩
  exact hfold s.mapRecords { s with nss := { s.nss with directory := s.nss.checkpointed } }

/-- A LOST entry leaves the power state, the buffer and its ledger (R243). -/
theorem loseUnit_rest (k : Nat) : (s.loseUnit k).psm = s.psm ∧ (s.loseUnit k).nss.slots = s.nss.slots ∧
    (s.loseUnit k).nss.ledger = s.nss.ledger := by
  unfold State.loseUnit State.setEntry
  dsimp only
  obtain ⟨hpsm, -, hslots, hledger⟩ := putEntry_rest ({ s with nss := { s.nss with
    mediaErrors := s.nss.mediaErrors + (s.entryUnits k).length } } : State) k { state := .lost }
  obtain ⟨_, _, _, _, _, _, _, hpaged⟩ := paged_journalRecord (s := ({ s with nss := { s.nss with
    mediaErrors := s.nss.mediaErrors + (s.entryUnits k).length } } : State).putEntry k { state := .lost })
    (entryKey k) (MapEntry.seal { state := .lost } (entryKey k)).word
  rw [hpaged]
  exact ⟨hpsm, hslots, hledger⟩

/-- A unit that is LOST stays so while others become LOST. -/
theorem lost_loseUnit {k : Nat} (hk : isChunkKey k = false) (hlost : (s.entry k).state = .lost) (j : Nat) :
    ((s.loseUnit j).entry k).state = .lost := by
  by_cases hj : k = j
  · subst hj
    rw [entry_loseUnit hk]
    rfl
  · have hunits : Mem.get {} (s.loseUnit j).nss.units k = Mem.get {} s.nss.units k := by
      unfold State.loseUnit State.setEntry
      dsimp only
      rw [(paged_journalRecord _ _).units]
      unfold State.putEntry
      split
      · split <;> rfl
      · exact Mem.get_set_other ({} : MapEntry) s.nss.units (MapEntry.seal { state := .lost } j) hj
    have hentry : (s.loseUnit j).entry k = s.entry k := by
      simp only [State.entry, hk, Bool.false_eq_true, if_false, hunits]
    rw [hentry]
    exact hlost

theorem foldl_loseUnit_rest (l : List Nat) : (l.foldl State.loseUnit s).psm = s.psm ∧
    (l.foldl State.loseUnit s).nss.slots = s.nss.slots ∧ (l.foldl State.loseUnit s).nss.ledger = s.nss.ledger := by
  induction l generalizing s with
  | nil => exact ⟨rfl, rfl, rfl⟩
  | cons k l ih =>
    obtain ⟨hpsm, hslots, hledger⟩ := ih (s.loseUnit k)
    obtain ⟨hpsm', hslots', hledger'⟩ := loseUnit_rest s k
    exact ⟨hpsm.trans hpsm', hslots.trans hslots', hledger.trans hledger'⟩

theorem lost_foldl_loseUnit {k : Nat} (hk : isChunkKey k = false) (l : List Nat) (h : k ∈ l ∨ (s.entry k).state = .lost) :
    ((l.foldl State.loseUnit s).entry k).state = .lost := by
  induction l generalizing s with
  | nil => exact h.resolve_left (List.not_mem_nil)
  | cons j l ih =>
    rw [List.foldl_cons]
    refine ih _ ?_
    rcases h with h | h
    · rcases List.mem_cons.mp h with rfl | h
      · exact .inr (by rw [entry_loseUnit hk]; rfl)
      · exact .inl h
    · exact .inr (lost_loseUnit s hk h j)

end

/-! ### The replay -/

/-- The units that the ledger's words name (R531). -/
def ledgerUnits (m : Mem (Option Nat)) : List Nat :=
  m.filterMap (fun e => match e.2 with
    | some w => if bit w 62 then some (entryOf (ledgerKey w)) else none
    | none => none)

/-- The state once the maps are loaded, buffer and ledger are empty, and the ledger's units are LOST. -/
def State.mapsBack (s : State) : State :=
  (nubNat (ledgerUnits s.nss.ledger)).foldl State.loseUnit
    { s.replayMaps with nss := { s.replayMaps.nss with slots := [], ledger := [], staged := [] } }

/-- A read count, raised when the last power-down did not complete its DRAIN (R265). -/
def State.raisedCount (s : State) (b : Sb) (n : Nat) : Nat :=
  if s.flash.drained then n else n + (if b.slc then s.flash.cfg.rdSlc else s.flash.cfg.rdNative) / 4

/-- The state after the replay: the read counts come back from their checkpoint. -/
def State.replayed (s : State) : State :=
  let t := s.mapsBack
  { t with
    swl := { t.swl with replayed := t.nss.changed }
    flash := { t.flash with
      drained := false, journalRead := true, ops := [], recopy := []
      sbs := t.flash.sbs.map (fun e => if e.2.state = .free then e else
        (e.1, { e.2 with readers := 0, reads := (Mem.get [0, 0, 0, 0] t.flash.checkpoint e.1).map (s.raisedCount e.2) })) } }

section
variable {s : State}

theorem exec_journalReplay (hmode : s.psm.mode = .boot) (hpin : s.psm.pins.testEn = false) (hfirst : s.flash.journalRead = false) :
    exec .journalReplay s = .next s.replayed :=
  congrArg Host.Outcome.next (if_neg (by simp [hmode, hpin, hfirst]))

/-- With no lost word in the ledger the maps alone come back. -/
theorem mapsBack_of_empty (h : s.nss.ledger = []) :
    s.mapsBack = { s.replayMaps with nss := { s.replayMaps.nss with slots := [], ledger := [], staged := [] } } := by
  unfold State.mapsBack
  rw [h]
  rfl

theorem ledgerKey_ledgerWord {k : Nat} (hchunk : isChunkKey k = false) (hns : k / 2 ^ 40 < 2 ^ 11) (hunit : k % 2 ^ 40 < 2 ^ 37) :
    ledgerKey (ledgerWord k 4096) = k ∧ bit (ledgerWord k 4096) 62 = true := by
  have hw : ledgerWord k 4096 = k / 2 ^ 40 * 2 ^ 37 + k % 2 ^ 37 + 4095 * 2 ^ 48 + 2 ^ 62 := by simp [ledgerWord, codeKey, hchunk]
  have hkind : field (ledgerWord k 4096) 61 60 ≠ 1 := by
    rw [hw]
    simp only [field]
    omega
  rw [ledgerKey, if_neg hkind, hw]
  simp only [field, unitKey, bit]
  refine ⟨by omega, ?_⟩
  simp only [Nat.testBit, Nat.shiftRight_eq_div_pow, bne_iff_ne, Nat.one_and_eq_mod_two]
  omega

theorem seal_ofWord (w k : Nat) : (MapEntry.ofWord w k).seal k = MapEntry.ofWord w k := by
  unfold MapEntry.ofWord
  by_cases h : UState.ofCode (field w 41 40) = .unmapped
  · simp [MapEntry.seal, h]
  · simp [MapEntry.seal, MapEntry.body, h]

/-- One record names one entry, and the map gives it back as the record has it (R251). -/
theorem entry_replayMaps {k w : Nat} (hone : s.mapRecords = [(k, w)]) (hpos : 0 < k) (hns : k < 2 ^ 62) :
    s.replayMaps.entry k = MapEntry.ofWord w k := by
  have hchunk : isChunkKey k = false := decide_eq_false (Nat.not_le.mpr hns)
  have happly : s.replayMaps = ({ s with nss := { s.nss with directory := s.nss.checkpointed } } : State).putEntry k (MapEntry.ofWord w k) := by
    unfold State.replayMaps
    rw [hone]
    simp only [List.foldl_cons, List.foldl_nil]
    unfold State.applyWord
    rw [if_neg (by simp; omega), if_neg (by simp; omega), if_neg (by simpa using hns)]
  rw [happly]
  simp only [State.entry, State.putEntry, hchunk, Bool.false_eq_true, if_false, seal_ofWord]
  exact Mem.get_set_self ({} : MapEntry) s.nss.units k (MapEntry.ofWord w k)

end

/-! ### Discovery -/

/-- What a good die reports of its 1,000 blocks when `1000 - m` of them are bad. -/
def reportOf (m d : Nat) : DieReport :=
  { die := d, cell := 3, timing := 1, blocks := 1000, bad := List.range (1000 - m), blockBytes := 1048576 }

theorem dieReportOk_reportOf (m d : Nat) : DieReportOk (reportOf m d) = true := by simp [DieReportOk, reportOf]

theorem dieCombo_reportOf (m d : Nat) : dieCombo (reportOf m d) = dieCombo (reportOf m 0) := by simp [dieCombo, dieGeometry, reportOf]

theorem rawBytes_quad (q m : Nat) :
    ((quadDies q).map (reportOf m)).foldl (fun n d => n + d.blocks * d.blockBytes) 0 = 4 * 1000 * 1048576 := by
  have hsum : ∀ b : Nat, (quadDies q).foldl (fun n _ => n + 1000 * b) 0 = 4 * 1000 * b := by
    intro b
    simp only [quadDies, List.range_succ, List.range_zero, List.nil_append, List.cons_append, List.map_cons, List.map_nil,
      List.foldl_cons, List.foldl_nil]
    omega
  rw [List.foldl_map]
  exact hsum 1048576

/-- M of a die's quad, of `b` blocks on a die: the good blocks that all its dies have, less the spares (R635). -/
def placesOf (dies : List DieReport) (b : Nat) (d : DieReport) : Nat :=
  ((dies.filter (fun x => dieQuad x.die == dieQuad d.die)).map dieGood).foldl Nat.min 1000000 - b * 25 / 1000

/-- Discovery when every die that reports is good, of one kind, and in a whole quad: all of them come into service (R235, R236). -/
theorem exec_flashDiscovery_whole {s : State} {dies ds : List DieReport} {d₀ : DieReport} {chans : List ChanReport} (hdies : dies = d₀ :: ds) (hmode : s.psm.mode = .boot)
    (hpin : s.psm.pins.testEn = false)
    (htrained : ∀ d ∈ dies, (Mem.get {} (chans.foldl State.trained s).flash.chans (dieChannel d.die)).trained = true)
    (hok : ∀ d ∈ dies, DieReportOk d = true) (hone : ∃ c, ∀ d ∈ dies, dieCombo d = c)
    (hwhole : ∀ d ∈ dies, ∀ x ∈ quadDies (dieQuad d.die), ∃ y ∈ dies, y.die = x) :
    exec (.flashDiscovery dies chans) s =
      .next ((dies.foldl (fun s d => s.takeDie d (placesOf dies d₀.blocks d)) (chans.foldl State.trained s)).firstBoot dies) := by
  obtain ⟨c, hc⟩ := hone
  have hne : dies ≠ [] := by simp [hdies]
  have hfound : dies.filter (fun d => (Mem.get {} (chans.foldl State.trained s).flash.chans (dieChannel d.die)).trained) = dies :=
    List.filter_eq_self.mpr htrained
  have hgood : dies.filter DieReportOk = dies := List.filter_eq_self.mpr hok
  have hbad : dies.filter (fun d => !DieReportOk d) = [] := List.filter_eq_nil_iff.mpr (fun d hd => by simp [hok d hd])
  have hfits : dies.filter (fun d => some (dieCombo d) == reference dies) = dies :=
    List.filter_eq_self.mpr (fun d hd => by simp [reference_of_forall hne hc, hc d hd])
  have hquads : dies.filter (fun d => (quadDies (dieQuad d.die)).all (fun x => dies.any (fun y => y.die == x))) = dies :=
    List.filter_eq_self.mpr (fun d hd => by
      simp only [List.all_eq_true, List.any_eq_true, beq_iff_eq]
      exact hwhole d hd)
  have hrest : dies.filter (fun d => !dies.contains d) = [] := List.filter_eq_nil_iff.mpr (fun d hd => by simp [hd])
  simp only [exec, execFlashDiscovery]
  rw [if_neg (by simp [hmode, hpin])]
  simp only [hfound, hgood, hbad, hfits, hquads, hrest, List.foldl_nil]
  rw [if_neg (by simp [hne]), hdies]
  rfl

theorem placesOf_quad {q m d : Nat} (hhigh : m ≤ 1000) (hd : d ∈ quadDies q) :
    placesOf ((quadDies q).map (reportOf m)) 1000 (reportOf m d) = m - 25 := by
  have hall : ((quadDies q).map (reportOf m)).filter (fun x => dieQuad x.die == dieQuad (reportOf m d).die) =
      (quadDies q).map (reportOf m) := by
    refine List.filter_eq_self.mpr (fun x hx => ?_)
    obtain ⟨e, he, rfl⟩ := List.mem_map.mp hx
    exact beq_iff_eq.mpr ((dieQuad_of_mem he).trans (dieQuad_of_mem hd).symm)
  have hgood : ((quadDies q).map (reportOf m)).map dieGood = List.replicate 4 (1000 - (1000 - m)) := by
    simp [quadDies, dieGood, reportOf, List.range_succ, List.replicate]
  rw [placesOf, hall, hgood]
  simp only [List.replicate, List.foldl_cons, List.foldl_nil, Nat.min_def]
  (repeat' split) <;> omega

theorem setCause_service {s : State} (h : s.psm.mode = .service) (i cause : Nat) : (s.setCause i cause).psm.mode = .degraded ∧
    (s.setCause i cause).psm.causes = s.psm.causes ||| (1 <<< i) ∧ (s.setCause i cause).flash = s.flash := by
  unfold State.setCause
  dsimp only
  rw [if_pos (.inl h)]
  unfold State.toMode
  dsimp only
  split <;> exact ⟨rfl, rfl, rfl⟩

/-- A die of a quad that comes into service for the first time, of which `m` blocks are good. -/
theorem takenDie_reportOf {m d : Nat} (hlow : 25 ≤ m) (hhigh : m ≤ 1000) : (takenDie (reportOf m d) (m - 25)).state = 1 ∧
    (takenDie (reportOf m d) (m - 25)).good = m ∧ (takenDie (reportOf m d) (m - 25)).free = m - 25 ∧
    (takenDie (reportOf m d) (m - 25)).spares.length = 25 := by
  have hgood : dieGood (reportOf m d) = m := by
    simp only [dieGood, reportOf, List.length_range]
    omega
  refine ⟨rfl, hgood, rfl, ?_⟩
  simp only [takenDie, hgood, List.length_map, List.length_range]
  omega

/-- What the first BOOT fixes when it has not been fixed before (R254, R269). -/
theorem firstBoot_cons {s : State} (h : s.flash.blocks = 0) {d : DieReport} {l ds : List DieReport} (hl : l = d :: ds) :
    (s.firstBoot l).flash = { s.flash with
      blocks := d.blocks, sbUnits := Nat.min 65536 (4 * d.blockBytes / 4096)
      rawBytes := l.foldl (fun n d => n + d.blocks * d.blockBytes) 0 } ∧
    (s.firstBoot l).psm = s.psm ∧ (s.firstBoot l).nss.metaKey.isSome = true := by
  subst hl
  unfold State.firstBoot
  dsimp only
  rw [if_neg (by simp [h])]
  exact ⟨rfl, rfl, rfl⟩

theorem any_of_get_trained {chans : Mem Chan} {k : Nat} (h : (Mem.get {} chans k).trained = true) :
    chans.any (fun c => c.1 == k && c.2.trained) = true := by
  induction chans with
  | nil => cases h
  | cons e chans ih =>
    obtain ⟨j, c⟩ := e
    unfold Mem.get at h
    split at h
    · next hj => simp [hj, h]
    · rw [List.any_cons, ih h, Bool.or_true]

/-- The first discovery of one quad of good dies on open channels (R235, R236, R238, R635). -/
theorem discovery_of_quad {s : State} {q m : Nat} (hmode : s.psm.mode = .boot) (hpin : s.psm.pins.testEn = false)
    (hwith : s.psm.halt.withdrawn = []) (hen : s.flash.cfg.chanEn = BitVec.allOnes 16) (hrate : 800 ≤ s.flash.cfg.rate)
    (hempty : s.flash.dies = []) (hfirst : s.flash.blocks = 0) (hlow : 25 ≤ m) (hhigh : m ≤ 1000) :
    ∃ u : State, exec (.flashDiscovery ((quadDies q).map (reportOf m)) ((quadDies q).map (fun d => openEyes (dieChannel d)))) s = .next u ∧
      u.quadUsed q = true ∧ u.psm.mode = .boot ∧ (∀ d ∈ quadDies q, (u.die d).good = m ∧ (u.die d).free = m - 25 ∧
        (u.die d).spares.length = 25 ∧ (u.flash.chans.any (fun c => c.1 == dieChannel d && c.2.trained)) = true) ∧
      u.flash.blocks = 1000 ∧ u.flash.sbUnits = 1024 ∧ u.flash.rawBytes = 4 * 1000 * 1048576 ∧ u.nss.metaKey.isSome = true := by
  obtain ⟨hflash, -, hmode', hwith'⟩ := foldl_trained_rest ((quadDies q).map (fun d => openEyes (dieChannel d))) s
  have htrained : ∀ d ∈ quadDies q,
      (Mem.get {} (((quadDies q).map (fun d => openEyes (dieChannel d))).foldl State.trained s).flash.chans (dieChannel d)).trained = true := by
    intro d hd
    have hall := foldl_trained_openEyes (l := (quadDies q).map dieChannel) (s := s) (fun ch hch => ?_) hen hrate _
      (.inl (List.mem_map_of_mem hd))
    · rw [List.map_map] at hall
      exact hall
    obtain ⟨e, -, rfl⟩ := List.mem_map.mp hch
    exact Nat.mod_lt _ (by decide)
  have hexec := exec_flashDiscovery_whole (s := s) (dies := (quadDies q).map (reportOf m))
    (chans := (quadDies q).map (fun d => openEyes (dieChannel d))) rfl hmode hpin
    (by
      intro d hd
      obtain ⟨e, he, rfl⟩ := List.mem_map.mp hd
      exact htrained e he)
    (by
      intro d hd
      obtain ⟨e, -, rfl⟩ := List.mem_map.mp hd
      exact dieReportOk_reportOf m e)
    ⟨dieCombo (reportOf m 0), by
      intro d hd
      obtain ⟨e, -, rfl⟩ := List.mem_map.mp hd
      exact dieCombo_reportOf m e⟩
    (by
      intro d hd x hx
      obtain ⟨e, he, rfl⟩ := List.mem_map.mp hd
      exact ⟨_, List.mem_map_of_mem (dieQuad_of_mem he ▸ hx), rfl⟩)
  generalize ((quadDies q).map (fun d => openEyes (dieChannel d))).foldl State.trained s = t at hflash hmode' hwith' htrained hexec
  have hdies := foldl_takeDie_new (placesOf ((quadDies q).map (reportOf m)) 1000) (l := (quadDies q).map (reportOf m)) (s := t)
    (by
      rw [List.map_map]
      exact (List.map_id' (quadDies q)).symm ▸ quadDies_nodup q)
    (by
      intro d _
      unfold State.die
      rw [hflash]
      simp only [hempty]
      rfl)
  obtain ⟨hflash', hpsm', -⟩ := foldl_takeDie_rest (placesOf ((quadDies q).map (reportOf m)) 1000) ((quadDies q).map (reportOf m)) t
  have htaken : ∀ d ∈ quadDies q, (((quadDies q).map (reportOf m)).foldl
      (fun s d => s.takeDie d (placesOf ((quadDies q).map (reportOf m)) 1000 d)) t).die d = takenDie (reportOf m d) (m - 25) := by
    intro d hd
    exact (hdies (reportOf m d) (List.mem_map_of_mem hd)).trans (congrArg (takenDie (reportOf m d)) (placesOf_quad hhigh hd))
  change exec _ s = .next (State.firstBoot (((quadDies q).map (reportOf m)).foldl
      (fun s d => s.takeDie d (placesOf ((quadDies q).map (reportOf m)) 1000 d)) t) ((quadDies q).map (reportOf m))) at hexec
  generalize ((quadDies q).map (reportOf m)).foldl (fun s d => s.takeDie d (placesOf ((quadDies q).map (reportOf m)) 1000 d)) t = t'
    at htaken hflash' hpsm' hexec
  have hblocks : t'.flash.blocks = 0 := by rw [hflash', hflash]; exact hfirst
  have hcons : (quadDies q).map (reportOf m) =
      reportOf m (16 * (q / 4) + q % 4 + 4 * 0) :: ((quadDies q).map (reportOf m)).tail := rfl
  have hfixed := firstBoot_cons hblocks hcons
  obtain ⟨hboot, hpsm'', hkey⟩ := hfixed
  have hdie : ∀ d, (t'.firstBoot ((quadDies q).map (reportOf m))).die d = t'.die d := fun d => by
    unfold State.die
    rw [hboot]
  refine ⟨_, hexec, ?_, ?_, ?_, ?_, ?_, ?_, hkey⟩
  · unfold State.quadUsed
    rw [List.all_eq_true]
    intro d hd
    rw [hdie, htaken d hd, (takenDie_reportOf hlow hhigh).1]
    unfold State.channelOn
    rw [hpsm'', hpsm', hwith', hwith, hboot, hflash', hflash]
    rw [hen, BitVec.getLsbD_allOnes, decide_eq_true (show dieChannel d < 16 from Nat.mod_lt _ (by decide))]
    rfl
  · rw [hpsm'', hpsm', hmode', hmode]
  · intro d hd
    obtain ⟨-, hgood, hfree, hspares⟩ := takenDie_reportOf (d := d) hlow hhigh
    rw [hdie, htaken d hd]
    refine ⟨hgood, hfree, hspares, any_of_get_trained ?_⟩
    rw [hboot, hflash']
    exact htrained d hd
  · rw [hboot]
    rfl
  · rw [hboot]
    simp only [reportOf]
    decide
  · rw [hboot]
    exact rawBytes_quad q m

/-- Settles O36: the replay goes through `State.mapsBack`, discovery through `exec_flashDiscovery_whole`. -/
theorem journalReadOnlyAndDiscovery : Obligations.JournalReadOnlyAndDiscovery := by
  refine ⟨?_, ?_, ?_, ?_, ?_, ?_, ?_, ?_, ?_, ?_, ?_, ?_, ?_, ?_, ?_, ?_, ?_⟩
  · exact fun s h => congrArg Host.Outcome.next (if_neg (Nat.not_lt.mpr h))
  · exact fun s h => congrArg Host.Outcome.next (if_pos h)
  · intro s n t ps hsome hprog hps
    simp only [State.programJournal]
    rw [if_neg (by simpa using hsome), hprog, if_neg (by simpa using hps)]
  · intro s n hnot
    simp only [State.programJournal]
    by_cases hsome : s.nss.journal.take n = []
    · rw [if_pos (by simp [hsome])]
    · have hprog : ∀ pages, s.programPages 3 pages = (s, []) := by
        intro pages
        unfold State.programPages
        rcases hnot.resolve_left hsome with h | h
        · split
          · rw [if_pos (by simp [h])]
          · rfl
        · rw [h]
      rw [if_neg (by simpa using hsome), hprog]
      exact if_pos rfl
  · exact fun s hmany hmay => congrArg Host.Outcome.next (if_neg (by simp [hmay, Nat.not_lt.mpr hmany]))
  · intro s hclean
    have hnone : s.nss.cache.filter (·.dirty) = [] := List.filter_eq_nil_iff.mpr (fun c hc => by simp [hclean c hc])
    unfold State.checkpointMaps
    rw [hnone]
    exact ⟨rfl, rfl, rfl, rfl, rfl⟩
  · intro s d hused hlow hfirst hmode
    refine ⟨_, congrArg Host.Outcome.next (if_neg (by simp [hused, Nat.not_lt.mpr hlow, hfirst, hmode, Mode.live])), ?_⟩
    rw [(smartEvent_psm_flash _ _).1, (smartEvent_psm_flash _ _).2]
    obtain ⟨hdegraded, hcauses, hflash⟩ := setCause_service (s := ({ s with flash := { s.flash with
      readOnly := true, readOnlySince := s.recd.hours } } : State).raise evWriteStopReadOnly 255
      [(2, d), (4, s.usedDies.foldl (fun n e => Nat.min n e.2.free) 1000000), (4, s.usedDies.foldl (fun n e => Nat.max n e.2.free) 0)])
      hmode 0 evWriteStopReadOnly.code
    rw [hdegraded, hcauses, hflash]
    refine ⟨rfl, rfl, ?_, rfl, rfl⟩
    rw [BitVec.getLsbD_or, Bool.or_eq_true]
    exact .inr (by decide)
  · exact fun s d hfree => congrArg Host.Outcome.next (if_pos (.inr (.inl hfree)))
  · intro s hro hall
    refine congrArg Host.Outcome.next (if_neg ?_)
    have hnone : s.usedDies.any (fun e => decide (e.2.free < 24)) = false :=
      List.any_eq_false.mpr (fun e he => by simpa using hall e he)
    simp [hro, hnone]
  · intro s hro hlow
    obtain ⟨e, he, hfree⟩ := hlow
    exact congrArg Host.Outcome.next (if_pos (.inr (List.any_eq_true.mpr ⟨e, he, decide_eq_true hfree⟩)))
  · exact fun s dies chans hnot => congrArg Host.Outcome.next (if_pos hnot)
  · intro s chans hmode hpin
    obtain ⟨-, -, hmode', -⟩ := foldl_trained_rest chans s
    have hboot : ((chans.foldl State.trained s).draw 16).2.psm.mode.entersHalt = true := by
      rw [show ((chans.foldl State.trained s).draw 16).2.psm.mode = (chans.foldl State.trained s).psm.mode from rfl, hmode', hmode]
      rfl
    obtain ⟨hhalt, hcode, -⟩ := dangerHalt_latches hboot evBootSelftestFail 0x09FF
      [(2, 0x09FF), (2, ((chans.foldl State.trained s).draw 16).1.toNat)] false
    exact ⟨_, congrArg Host.Outcome.next (if_neg (by simp [hmode, hpin])), hhalt, hcode⟩
  · intro s dies chans q m hmode hpin hwith hq hdies hchans hen hrate hempty hfirst hlow hhigh
    subst hdies hchans
    exact discovery_of_quad hmode hpin hwith hen hrate hempty hfirst hlow hhigh
  · intro s hmode hpin hfirst
    obtain ⟨hpsm, hslots, hledger⟩ := foldl_loseUnit_rest
      ({ s.replayMaps with nss := { s.replayMaps.nss with slots := [], ledger := [], staged := [] } } : State)
      (nubNat (ledgerUnits s.nss.ledger))
    exact ⟨_, exec_journalReplay hmode hpin hfirst, hslots, hledger, rfl, rfl, rfl, hpsm.trans (replayMaps_rest s).1⟩
  · intro s i k hmode hpin hfirst hchunk hns hunit hword
    obtain ⟨hkey, hbit⟩ := ledgerKey_ledgerWord hchunk hns hunit
    have hmem : k ∈ ledgerUnits s.nss.ledger := by
      refine List.mem_filterMap.mpr ⟨_, mem_of_get hword, ?_⟩
      simp only [hkey, hbit, if_true, entryOf, hchunk, Bool.false_eq_true, if_false]
    exact ⟨_, exec_journalReplay hmode hpin hfirst, lost_foldl_loseUnit _ hchunk _ (.inl (mem_nubNat hmem))⟩
  · intro s k w hmode hpin hfirst hledger hone hpos hns
    refine ⟨_, exec_journalReplay hmode hpin hfirst, ?_⟩
    unfold State.replayed
    rw [mapsBack_of_empty hledger]
    exact entry_replayMaps hone hpos hns
  · intro s k b r hmode hpin hfirst hdrained hledger hsbs hused hreads
    refine ⟨_, exec_journalReplay hmode hpin hfirst, ?_⟩
    have hflash : s.mapsBack.flash = s.flash := by
      rw [mapsBack_of_empty hledger]
      exact (replayMaps_rest s).2
    have hsb : s.replayed.sb k = { b with readers := 0, reads := r } := by
      have hcount : s.raisedCount b = id := funext fun n => if_pos hdrained
      unfold State.replayed State.sb
      dsimp only
      rw [hflash, hsbs]
      simp [hused, hreads, hcount, Mem.get]
    rw [hsb]
    exact ⟨rfl, rfl⟩

end Sys2Proof.Machine
end

section
/-! PROOFS. Doorbells, fetch, acceptance and completion (R131 to R137, R173), and the block commands (R139 to R161). -/

open Sys2Proof

namespace Sys2Proof.Machine

/-! ### A message to the host leaves the commands -/

/-- `t` is `s` after messages to the host: the commands are as they were, and nothing that was sent is taken back. -/
def State.Sends (s t : State) : Prop := t.hif.cmds = s.hif.cmds ∧ ∀ m ∈ s.hif.toHost, m ∈ t.hif.toHost

theorem State.Sends.trans {s t u : State} (h : s.Sends t) (h' : t.Sends u) : s.Sends u :=
  ⟨h'.1.trans h.1, fun m hm => h'.2 m (h.2 m hm)⟩

theorem State.Sends.of_eq {s t : State} (h : t.hif = s.hif) : s.Sends t := by
  unfold State.Sends
  rw [h]
  exact ⟨rfl, fun _ => id⟩

section
variable (s : State)

theorem sends_emit (ms : List HostMsg) : s.Sends (s.emit ms) := ⟨rfl, fun _ hm => List.mem_append_left _ hm⟩

theorem sends_updFn (f : Nat) (g : Fn → Fn) : s.Sends (s.updFn f g) := .of_eq rfl

theorem sends_setCq (f q : Nat) (x : Option Cq) : s.Sends (s.setCq f q x) := ⟨rfl, fun _ => id⟩

theorem sends_markDirty (f a n : Nat) : s.Sends (s.markDirty f a n) := by
  unfold State.markDirty
  split
  · exact .of_eq rfl
  · exact sends_updFn _ _ _

theorem sends_flushDirty (f : Nat) : s.Sends (s.flushDirty f) := by
  unfold State.flushDirty
  split
  · exact .of_eq rfl
  · exact (sends_emit _ _).trans (sends_updFn _ _ _)

theorem sends_msix (f v : Nat) : s.Sends (s.msix f v) := by
  unfold State.msix
  split
  · exact sends_updFn _ _ _
  · exact sends_emit _ _

theorem cmd_of_sends {s t : State} (h : s.Sends t) (j : CmdId) : t.cmd j = s.cmd j := congrArg (Mem.get none · j) h.1

/-- A command that leaves the machine leaves the others, and what has been sent. -/
theorem endCmd_spec (id : CmdId) : (s.endCmd id).cmd id = none ∧ (∀ j, j ≠ id → (s.endCmd id).cmd j = s.cmd j) ∧
    (s.endCmd id).hif.toHost = s.hif.toHost :=
  ⟨State.cmd_setCmd_self s id none, fun _ hj => State.cmd_setCmd_other s none hj, rfl⟩

end

/-- The head of its submission queue that a completion entry reports. -/
def State.sqHeadOf (s : State) (c : Cmd) : Nat := match s.sq c.func c.sq with | some y => y.head | none => 0

/-- A view's charge is settled by what it wrote (R174). -/
def State.chargeSettled (s : State) (c : Cmd) : State :=
  if !c.sqe.admin ∧ c.sqe.opcode = 0x82 then s.updFn c.func (fun y => y.charge ((c.wrote : Int) - c.sqe.cdw2.toNat) 0) else s

/-- The tail of a completion queue moves on, with its message where it is enabled (R126, R133). -/
def State.tailMoved (s : State) (f q : Nat) (x : Cq) : State :=
  let t := s.setCq f q (some { x with posted := x.posted + 1, tail := (x.tail + 1) % x.size })
  if x.ien then t.msix f x.vector else t

theorem sends_chargeSettled (s : State) (c : Cmd) : s.Sends (s.chargeSettled c) := by
  unfold State.chargeSettled
  split
  · exact sends_updFn _ _ _
  · exact .of_eq rfl

theorem sends_tailMoved (s : State) (f q : Nat) (x : Cq) : s.Sends (s.tailMoved f q x) := by
  unfold State.tailMoved
  dsimp only
  split
  · exact (sends_setCq _ _ _ _).trans (sends_msix _ _ _)
  · exact sends_setCq _ _ _ _

section
variable {s : State} {id : CmdId} {c : Cmd} {r : Result} {x : Cq}

theorem postEntry_eq (hcmd : s.cmd id = some c) (hres : c.result = some r) (hown : c.fromPartner = false)
    (hcq : s.cq c.func (s.cqOf c) = some x) :
    s.postEntry id = (((((s.chargeSettled c).markDirty c.func (x.base + 16 * x.tail) 16).flushDirty c.func).emit
      [.cqe c.func (s.cqOf c) c.sq c.sqe.cid (s.sqHeadOf c) r (Status.dnr r.status) false 0]).tailMoved c.func (s.cqOf c) x).endCmd id := by
  unfold State.postEntry
  simp only [hcmd, hown, hres, hcq, Bool.false_eq_true, if_false]
  rfl

/-- A finished command of the host's own posts its entry: it leaves, the other commands stay, and the entry is sent (R132, R133). -/
theorem postEntry_spec (hcmd : s.cmd id = some c) (hres : c.result = some r) (hown : c.fromPartner = false)
    (hcq : s.cq c.func (s.cqOf c) = some x) :
    (s.postEntry id).cmd id = none ∧ (∀ j, j ≠ id → (s.postEntry id).cmd j = s.cmd j) ∧
      HostMsg.cqe c.func (s.cqOf c) c.sq c.sqe.cid (s.sqHeadOf c) r (Status.dnr r.status) false 0 ∈ (s.postEntry id).hif.toHost := by
  rw [postEntry_eq hcmd hres hown hcq]
  generalize HostMsg.cqe c.func (s.cqOf c) c.sq c.sqe.cid (s.sqHeadOf c) r (Status.dnr r.status) false 0 = m
  have hfront := ((sends_chargeSettled s c).trans (sends_markDirty _ c.func (x.base + 16 * x.tail) 16)).trans (sends_flushDirty _ c.func)
  generalize ((s.chargeSettled c).markDirty c.func (x.base + 16 * x.tail) 16).flushDirty c.func = t at hfront
  have hback := sends_tailMoved (t.emit [m]) c.func (s.cqOf c) x
  obtain ⟨hgone, hothers, hsent⟩ := endCmd_spec ((t.emit [m]).tailMoved c.func (s.cqOf c) x) id
  refine ⟨hgone, fun j hj => (hothers j hj).trans (cmd_of_sends ((hfront.trans (sends_emit t [m])).trans hback) j), ?_⟩
  rw [hsent]
  exact hback.2 m (List.mem_append_right _ (List.mem_cons_self ..))

end

/-! ### Acceptance of an admin command -/

/-- `t` has function `f`'s entry in flight as command `id`, with the generation and the epoch that the function has in `s`. -/
def State.Carries (s t : State) (id f q : Nat) (e : Sqe) : Prop :=
  ∃ c, t.cmd id = some c ∧ c.func = f ∧ c.sq = q ∧ c.sqe = e ∧ c.gen = (s.fn f).gen ∧ c.epoch = (s.fn f).epoch

theorem carries_finish {s t : State} {id f q : Nat} {e : Sqe} (h : s.Carries t id f q e) (st : Status) (x y : BitVec 32) :
    s.Carries (t.finish id st x y) id f q e := by
  obtain ⟨c, hcmd, hc⟩ := h
  cases hres : c.result with
  | some r => exact ⟨c, by simp [State.finish, cmd_updCmd, hcmd, hres], hc⟩
  | none => exact ⟨{ c with result := some ⟨st, x, y⟩ }, by simp [State.finish, cmd_updCmd, hcmd, hres], hc⟩

theorem finish_queues (s : State) (id : CmdId) (st : Status) (x y : BitVec 32) :
    (s.finish id st x y).hif.fetched = s.hif.fetched ∧ (s.finish id st x y).hif.nextCmd = s.hif.nextCmd := by
  unfold State.finish State.noteFinished State.updCmd
  (repeat' split) <;> exact ⟨rfl, rfl⟩

/-- `t` has taken function `f`'s entry in as its next command. -/
def State.Accepted (s t : State) (f q : Nat) (e : Sqe) : Prop :=
  t.hif.fetched = s.hif.fetched ∧ t.hif.nextCmd = s.hif.nextCmd + 1 ∧ s.Carries t s.hif.nextCmd f q e

theorem accepted_finish {s t : State} {f q : Nat} {e : Sqe} (h : s.Accepted t f q e) (id : CmdId) (hid : id = s.hif.nextCmd) (st : Status) :
    s.Accepted (t.finish id st) f q e := by
  obtain ⟨hfetched, hnext, hcarries⟩ := h
  obtain ⟨hfetched', hnext'⟩ := finish_queues t id st 0 0
  subst hid
  exact ⟨hfetched'.trans hfetched, hnext'.trans hnext, carries_finish hcarries st 0 0⟩

theorem accepted_setCmd {s s1 : State} {c : Cmd} {f q : Nat} {e : Sqe} (hhif : s1.hif = s.hif) (hfunc : c.func = f) (hsq : c.sq = q)
    (hsqe : c.sqe = e) (hgen : c.gen = (s.fn f).gen) (hepoch : c.epoch = (s.fn f).epoch) :
    s.Accepted (State.setCmd { s1 with hif := { s1.hif with nextCmd := s.hif.nextCmd + 1 } } s.hif.nextCmd (some c)) f q e := by
  have hfetched : s1.hif.fetched = s.hif.fetched := congrArg Hif.fetched hhif
  exact ⟨hfetched, rfl, c, State.cmd_setCmd_self _ _ _, hfunc, hsq, hsqe, hgen, hepoch⟩

/-- An admin command takes no charge and no lock: it is entered, or finished at once with the status that the device gives it
(R137, R154). -/
theorem accept_admin (s : State) (f q : Nat) {e : Sqe} (hadmin : e.admin = true) : s.Accepted (s.accept f q e none) f q e := by
  have hlock : lockKind e = none := by simp [lockKind, hadmin]
  have hfree : appendCharge e = 0 := by simp [appendCharge, hadmin]
  have hasn : (match (s.ns (sqeNsid e)).bind (fun n => if n.attached = some f then some n else none) with
      | some n => s.setNs (sqeNsid e) (some { n with asn := n.asn + 1 })
      | none => s.updFn f (fun x => { x with asn := x.asn + 1 })).hif = s.hif := by
    split <;> rfl
  unfold State.accept
  simp only [hadmin, hlock, hfree, Bool.not_true, Bool.false_and, Bool.and_false, Bool.false_eq_true, if_false, true_or, if_true,
    ne_eq, not_true_eq_false, and_false, Option.isSome_none, or_false]
  generalize hentered : State.setCmd _ _ _ = t
  have ht : s.Accepted t f q e := by
    rw [← hentered]
    exact accepted_setCmd hasn rfl rfl rfl rfl rfl
  repeat' split
  · exact accepted_finish ht _ rfl _
  · exact accepted_finish ht _ rfl _
  · exact accepted_finish ht _ rfl _
  · exact accepted_finish ht _ rfl _
  · exact ht

/-- Settles O6. -/
theorem queuesFetchAndAcceptance : Obligations.QueuesFetchAndAcceptance := by
  refine ⟨?_, ?_, ?_, ?_, ?_, ?_, ?_, ?_, ?_, ?_⟩
  · intro s f q tail x hlive hreset hen hquiet hhere hsq htail
    simp only [exec, execSqTailDoorbell]
    rw [if_neg (by simp [hlive, hreset, hen, hhere]), if_neg (by simp [hquiet])]
    simp [State.ringSq, hsq, htail]
  · intro s f q head x hlive hreset hen hquiet hhere hcq hhead hheld
    simp only [exec, execCqHeadDoorbell]
    rw [if_neg (by simp [hlive, hreset, hen, hhere]), if_neg (by simp [hquiet])]
    simp [State.ringCq, hcq, hhead, hheld, State.postHeld]
  · intro s f q v hlive hreset hen hquiet hhere
    constructor
    · simp only [exec, execSqTailDoorbell]
      rw [if_neg (by simp [hlive, hreset, hen, hhere]), if_pos hquiet]
    · simp only [exec, execCqHeadDoorbell]
      rw [if_neg (by simp [hlive, hreset, hen, hhere]), if_pos hquiet]
  · intro s reads f hturn hroom
    simp only [exec, execFetchDecision, hturn, if_pos hroom]
  · intro s reads f q c most cr tn hnone hturn hpick htenant
    simp only [exec, execFetchDecision, hnone, hturn, hpick, htenant]
    exact ⟨_, rfl, rfl, rfl⟩
  · intro s f q e rest hfetched hhere hreset hlive
    simp [exec, execAcceptance, hfetched, hhere, hreset, hlive]
  · intro s f q e rest hfetched hhere hreset hlive hadmin
    obtain ⟨hrest, hnext, c, hcmd, hc⟩ := accept_admin { s with hif := { s.hif with fetched := rest } } f q hadmin
    exact ⟨_, c, by simp [exec, execAcceptance, hfetched, hhere, hreset, hlive], hrest, hnext, hcmd, hc⟩
  · intro s id c r x hcmd hres hlive hback hown hreset hhere hturn hcq hroom hheld
    obtain ⟨hgone, hothers, hsent⟩ := postEntry_spec hcmd hres hown hcq
    refine ⟨s.postEntry id, ?_, hgone, hothers, s.sqHeadOf c, hsent⟩
    simp [exec, execCompletionPost, hcmd, hres, hlive, hback, hown, hreset, hhere, hturn, hcq, hroom, hheld]
  · intro s id c r x hcmd hres hlive hback hown hreset hhere hturn hcq hfull hnot
    simp [exec, execCompletionPost, hcmd, hres, hlive, hback, hown, hreset, hhere, hturn, hcq, hfull, hnot]
  · exact fun s hlive => congrArg Host.Outcome.next (if_pos hlive)

/-! ### The block commands -/

/-- A command in flight that its step acts on has no result yet. -/
theorem unstagedParts {s : State} {id : CmdId} {c : Cmd} {n : Ns} {g : Nat} (h : mergeKeys c n g = []) :
    s.fetchUnits id (mergeKeys c n g) = s ∧ s.merged id c n g = true := by
  unfold State.merged
  rw [h]
  exact ⟨rfl, rfl⟩

theorem exec_granuleCommit {s : State} {id : CmdId} {g : Nat} {c : Cmd} {n : Ns} (hcmd : s.cmd id = some c) (hres : c.result = none)
    (hio : c.sqe.admin = false) (hop : c.sqe.opcode = 0x01 ∨ c.sqe.opcode = 0x08) (hmoved : c.moved = true)
    (hopen : c.uncommitted.contains g = true) (hgranted : s.grantedFor id g = true) (hmode : s.psm.mode.engines = true)
    (hns : s.ns (sqeNsid c.sqe) = some n) : exec (.granuleCommit id g) s = .next (s.tryCommit id g c n) := by
  have hcode : ¬ (c.sqe.opcode.toNat ≠ 0x01 ∧ c.sqe.opcode.toNat ≠ 0x08) := by
    rcases hop with h | h <;> simp [h]
  simp only [exec, execGranuleCommit, hcmd]
  rw [if_neg (by simp only [hres, hio, hmoved, hgranted, hmode, hopen, hcode]; decide)]
  simp only [hns]

theorem elim_of_eq_none {α β : Type} {o : Option α} (h : o = none) (b : β) (f : α → β) : o.elim b f = b := by
  subst h
  rfl

/-- A granule of which a unit cannot be read fails its write (R243, R253). -/
theorem tryCommit_unreadable {s : State} {id : CmdId} {g : Nat} {c : Cmd} {n : Ns}
    (hmerged : (s.fetchUnits id (mergeKeys c n g)).merged id c n g = true)
    (hparts : (s.fetchUnits id (mergeKeys c n g)).granuleParts id c n g = none) :
    s.tryCommit id g c n = (s.fetchUnits id (mergeKeys c n g)).failWrite id := by
  have hread : (!(s.fetchUnits id (mergeKeys c n g)).merged id c n g) = false := by rw [hmerged]; rfl
  have helse : ¬ (!(s.fetchUnits id (mergeKeys c n g)).merged id c n g) = true := by rw [hread]; exact Bool.false_ne_true
  exact (if_neg helse).trans (elim_of_eq_none hparts _ _)

/-- Settles O7, a clause for each branch of the nine steps. -/
theorem blockCommandsDoTheirWork : Obligations.BlockCommandsDoTheirWork := by
  refine ⟨?_, ?_, ?_, ?_, ?_, ?_, ?_, ?_, ?_, ?_, ?_, ?_, ?_, ?_⟩
  · intro s id data c n hlive hmoved haway htarget hroom
    have hfault : faultOf none = none := rfl
    simp only [exec, execWrite, hlive, hmoved, haway, htarget, hroom, hfault, or_false, Bool.not_true, Bool.false_eq_true, if_false]
  · intro s id data bad c n hlive hmoved haway htarget hroom hcomp
    have hfault : faultOf (some bad) = some bad := by simp [faultOf, Option.filter, hcomp]
    simp only [exec, execWrite, hlive, hmoved, haway, htarget, hroom, hfault, or_false, Bool.not_true, Bool.false_eq_true, if_false]
  · intro s id g c n us m hcmd hres hio hop hmoved hopen hgranted hmode hns hkeys hparts hheld hslots
    obtain ⟨hfetch, hmerged⟩ := unstagedParts (s := s) (id := id) hkeys
    rw [exec_granuleCommit hcmd hres hio hop hmoved hopen hgranted hmode hns]
    simp only [State.tryCommit, hfetch, hmerged, hparts, Option.elim_some, hheld, hslots, Bool.not_true, Bool.false_eq_true, if_false]
  · intro s id g c n hcmd hres hio hop hmoved hopen hgranted hmode hns hmerged hparts
    exact (exec_granuleCommit hcmd hres hio hop hmoved hopen hgranted hmode hns).trans
      (congrArg Host.Outcome.next (tryCommit_unreadable hmerged hparts))
  · intro s id c n bs hlive haway htarget hread
    simp only [exec, execRead, hlive, haway, htarget, hread, Bool.false_eq_true, if_false]
  · intro s id c n hlive hmoved haway htarget
    simp only [exec, execWriteZeroes, hlive, hmoved, haway, htarget, or_false, Bool.false_eq_true, if_false]
  · intro s id data c n bs hlive haway htarget hread hstrips
    simp only [exec, execCompare, hlive, haway, htarget, hread, hstrips, Bool.false_eq_true, if_false, beq_iff_eq]
  · intro s id c n bs hlive haway htarget hread
    simp only [exec, execVerify, hlive, haway, htarget, hread, Bool.false_eq_true, if_false]
  · intro s id c l hlive hscope hwait hflash hmirror
    have hnone : (if c.fromPartner then [] else l.filter s.linkedNs).isEmpty = true := by
      rw [hmirror]
      split <;> rfl
    refine ⟨(s.updCmd id (fun c => { c with waitFor := [], flashWait := [] })).finish id .success, ?_, ?_, ?_⟩
    · simp only [exec, execFlush, hlive, hscope, hwait, hflash, List.filter_nil, List.isEmpty_nil, hnone, true_or, if_true, or_false,
        Bool.not_true, Bool.false_eq_true, if_false]
    · have hcmd := live_cmd hlive
      unfold State.ResultIs State.finish
      simp [cmd_updCmd, hcmd]
    · unfold State.finish State.noteFinished State.updCmd
      (repeat' split) <;> exact ⟨rfl, rfl⟩
  · intro s id ranges c l hlive haway hdone hscope hok hhint
    simp only [exec, execDatasetManagement, hlive, haway, hdone, hscope, hok, hhint, or_false, Bool.not_false, Bool.false_eq_true,
      if_false, if_true]
  · intro s id ranges c l hlive haway hdone hscope hok hdealloc hmoved hgranted hlegs hheld
    have hsent : ¬ (c.legs.isEmpty = true ∧ (s.dsmScope c l).any (fun e => s.mirrorLegs e.1) = true) := by
      rcases hlegs with h | h <;> simp [h]
    simp only [exec, execDatasetManagement, hlive, haway, hdone, hscope, hok, hdealloc, hmoved, hgranted, hheld, or_false,
      Bool.not_true, Bool.false_eq_true, if_false, if_true, if_neg hsent]
  · intro s id ranges c l st hlive haway hdone hscope hbad
    simp only [exec, execDatasetManagement, hlive, haway, hdone, hscope, hbad, or_false, Bool.false_eq_true, if_false]
  · intro s id c e hlive hfind hgranted
    simp only [exec, execAbort, hlive, hfind, hgranted, if_true]
  · intro s id c e hlive hfind hwaits
    simp only [exec, execAbort, hlive, hfind, hwaits, Bool.false_eq_true, if_false]

end Sys2Proof.Machine
end

section
/-! PROOFS. A round of an arbitration unit: who wins it (R340, R343). -/

open Sys2Proof

namespace Sys2Proof.Machine

/-! ### A pick in turn -/

theorem rrPick_some {n ptr w : Nat} {p : Nat → Bool} (h : rrPick n ptr p = some w) : p w = true ∧ w < n := by
  have hmem := List.mem_of_find?_eq_some h
  obtain ⟨i, hi, rfl⟩ := List.mem_map.mp hmem
  exact ⟨List.find?_some h, Nat.mod_lt _ (Nat.lt_of_le_of_lt (Nat.zero_le i) (List.mem_range.mp hi))⟩

/-- A pick goes all the way round: with no winner nobody satisfies the test. -/
theorem rrPick_none {n ptr i : Nat} {p : Nat → Bool} (h : rrPick n ptr p = none) (hi : i < n) : p i = false := by
  have hall := List.find?_eq_none.mp h
  have hturn : (ptr + (i + n - ptr % n) % n) % n = i := by
    have hptr : ptr % n < n := Nat.mod_lt _ (by omega)
    rw [Nat.add_mod, Nat.mod_mod]
    by_cases hle : ptr % n ≤ i
    · rw [show i + n - ptr % n = (i - ptr % n) + n by omega, Nat.add_mod_right, Nat.mod_eq_of_lt (a := i - ptr % n) (by omega)]
      rw [show ptr % n + (i - ptr % n) = i by omega, Nat.mod_eq_of_lt hi]
    · rw [Nat.mod_eq_of_lt (a := i + n - ptr % n) (by omega), show ptr % n + (i + n - ptr % n) = i + n by omega, Nat.add_mod_right,
        Nat.mod_eq_of_lt hi]
  have hmem : i ∈ (List.range n).map (fun j => (ptr + j) % n) :=
    List.mem_map.mpr ⟨(i + n - ptr % n) % n, List.mem_range.mpr (Nat.mod_lt _ (by omega)), hturn⟩
  exact Bool.eq_false_iff.mpr (hall i hmem)

/-! ### The winner -/

/-- Requester `i` asks and is of class `c`. -/
def Au.asksIn (a : Au) (asking : List Nat) (c i : Nat) : Bool := asking.contains i && (nth {} a.reqs i).cls == c

/-- A class gets its turn, when no higher one has a winner. -/
def Au.tryClass (a : Au) (asking : List Nat) (acc : Option Nat × Au) (c : Nat) : Option Nat × Au :=
  match acc.1 with
  | some w => (some w, acc.2)
  | none =>
    match rrPick a.reqs.length (nth 0 acc.2.clsPtr c) (a.asksIn asking c) with
    | some w => (some w, { acc.2 with clsPtr := acc.2.clsPtr.set c ((w + 1) % a.reqs.length) })
    | none => (none, acc.2)

/-- The winner of a round, with the pointer it moves. -/
def Au.pick (a : Au) (asking : List Nat) : Option Nat × Au :=
  match rrPick a.reqs.length a.expPtr (fun i => asking.contains i && (nth {} a.reqs i).expired) with
  | some w => (some w, { a with expPtr := (w + 1) % a.reqs.length })
  | none => [3, 2, 1, 0].foldl (a.tryClass asking) (none, a)

/-- The unit after a round that `w` wins. -/
def Au.grant (a : Au) (asking : List Nat) (w : Nat) : Au :=
  { a with
    reqs := a.reqs.zipIdx.map (fun e => if e.2 = w then { e.1 with wait := 0 }
      else if asking.contains e.2 then { e.1 with wait := Nat.min (e.1.wait + 1) 4095 } else e.1)
    owner := w, held := true, parked := asking.length == 1 }

variable {a b : Au} {asking : List Nat} {w i : Nat}

theorem round_of_pick (h : (a.pick asking).1 = some w) : a.round asking = ((a.pick asking).2.grant asking w, some w) := by
  have hround : a.round asking = (match (a.pick asking).1 with
    | none => ((a.pick asking).2, none)
    | some w => ((a.pick asking).2.grant asking w, some w)) := rfl
  rw [hround, h]

theorem pick_of_round (h : a.round asking = (b, some w)) : (a.pick asking).1 = some w ∧ b = (a.pick asking).2.grant asking w := by
  have hround : a.round asking = (match (a.pick asking).1 with
    | none => ((a.pick asking).2, none)
    | some w => ((a.pick asking).2.grant asking w, some w)) := rfl
  cases hpick : (a.pick asking).1 with
  | none =>
    rw [hround, hpick] at h
    cases h
  | some v =>
    rw [hround, hpick] at h
    obtain ⟨hb, hw⟩ := Prod.mk.inj h
    cases hw
    exact ⟨rfl, hb.symm⟩

theorem tryClass_won (acc : Au) (cs : List Nat) : cs.foldl (a.tryClass asking) (some w, acc) = (some w, acc) := by
  induction cs with
  | nil => rfl
  | cons c cs ih => exact ih

/-- What the turn of some classes decides: the winner is of the first class that has one. -/
def Au.WonAmong (a : Au) (asking cs : List Nat) : Option Nat → Prop
  | some w => ∃ l c r, cs = l ++ c :: r ∧ a.asksIn asking c w = true ∧ w < a.reqs.length ∧
      ∀ c' ∈ l, ∀ i < a.reqs.length, a.asksIn asking c' i = false
  | none => ∀ c ∈ cs, ∀ i < a.reqs.length, a.asksIn asking c i = false

/-- The classes in turn: the winner is the first class's that has one; no unit of an earlier class asks. -/
theorem tryClass_foldl : ∀ (cs : List Nat) (acc : Au), acc.reqs = a.reqs →
    (cs.foldl (a.tryClass asking) (none, acc)).2.reqs = a.reqs ∧
    a.WonAmong asking cs (cs.foldl (a.tryClass asking) (none, acc)).1
  | [], acc, hacc => ⟨hacc, fun c hc => absurd hc (List.not_mem_nil)⟩
  | c :: cs, acc, hacc => by
    rw [List.foldl_cons]
    cases hpick : rrPick a.reqs.length (nth 0 acc.clsPtr c) (a.asksIn asking c) with
    | some w =>
      have hstep : a.tryClass asking (none, acc) c = (some w, { acc with clsPtr := acc.clsPtr.set c ((w + 1) % a.reqs.length) }) := by
        simp only [Au.tryClass, hpick]
      obtain ⟨hasks, hlt⟩ := rrPick_some hpick
      rw [hstep, tryClass_won]
      exact ⟨hacc, [], c, cs, rfl, hasks, hlt, fun c' hc' => absurd hc' (List.not_mem_nil)⟩
    | none =>
      have hstep : a.tryClass asking (none, acc) c = (none, acc) := by simp only [Au.tryClass, hpick]
      have hnobody := fun i hi => rrPick_none (i := i) hpick hi
      obtain ⟨hreqs, hwin⟩ := tryClass_foldl cs acc hacc
      rw [hstep]
      refine ⟨hreqs, ?_⟩
      generalize (cs.foldl (a.tryClass asking) (none, acc)).1 = won at hwin ⊢
      cases won with
      | some w =>
        obtain ⟨l, c', r, hcs, hasks, hlt, hl⟩ := hwin
        refine ⟨c :: l, c', r, by rw [hcs]; rfl, hasks, hlt, fun x hx => ?_⟩
        rcases List.mem_cons.mp hx with rfl | hx
        · exact hnobody
        · exact hl x hx
      | none =>
        intro x hx
        rcases List.mem_cons.mp hx with rfl | hx
        · exact hnobody
        · exact hwin x hx

/-- What a pick decides: an expired requester that asks, or, where none does, one of the highest class that asks (R340). -/
theorem pick_spec : (a.pick asking).2.reqs = a.reqs ∧ ∀ w, (a.pick asking).1 = some w → w ∈ asking ∧ w < a.reqs.length ∧
    ((nth {} a.reqs w).expired = true ∨ (∀ i ∈ asking, i < a.reqs.length → (nth {} a.reqs i).expired = false) ∧
      ∀ i ∈ asking, i < a.reqs.length → (nth {} a.reqs i).cls ≤ 3 → (nth {} a.reqs i).cls ≤ (nth {} a.reqs w).cls) := by
  cases hexp : rrPick a.reqs.length a.expPtr (fun i => asking.contains i && (nth {} a.reqs i).expired) with
  | some v =>
    have hpick : a.pick asking = (some v, { a with expPtr := (v + 1) % a.reqs.length }) := by simp only [Au.pick, hexp]
    obtain ⟨hv, hlt⟩ := rrPick_some hexp
    obtain ⟨hasks, hexpired⟩ := Bool.and_eq_true_iff.mp hv
    rw [hpick]
    refine ⟨rfl, fun w hw => ?_⟩
    cases hw
    exact ⟨by simpa using hasks, hlt, .inl hexpired⟩
  | none =>
    have hpick : a.pick asking = [3, 2, 1, 0].foldl (a.tryClass asking) (none, a) := by simp only [Au.pick, hexp]
    obtain ⟨hreqs, hwin⟩ := tryClass_foldl (asking := asking) [3, 2, 1, 0] a rfl
    rw [hpick]
    refine ⟨hreqs, fun w hw => ?_⟩
    rw [hw] at hwin
    obtain ⟨l, c, r, hcs, hasks, hlt, hl⟩ := hwin
    obtain ⟨hin, hcls⟩ := Bool.and_eq_true_iff.mp hasks
    refine ⟨by simpa using hin, hlt, .inr ⟨fun i hi hilt => ?_, fun i hi hilt hthree => ?_⟩⟩
    · have hno := rrPick_none hexp hilt
      simpa [hi] using hno
    · rw [beq_iff_eq.mp hcls]
      refine Nat.le_of_not_lt fun hless => ?_
      have hmem : (nth {} a.reqs i).cls ∈ l := by
        have hall : ∀ l c r, [3, 2, 1, 0] = l ++ c :: r → ∀ n ≤ 3, c < n → n ∈ l := by
          intro l c r h
          rcases l with _ | ⟨x, _ | ⟨y, _ | ⟨z, _ | ⟨u, l⟩⟩⟩⟩
          all_goals
            intro n hn hc
            simp at h ⊢ <;> omega
        exact hall l c r hcs _ hthree hless
      have hno := hl _ hmem i hilt
      simp [Au.asksIn, hi] at hno

/-- One requester of a class that exists, alone, wins. -/
theorem pick_alone (hi : i < a.reqs.length) (hcls : (nth {} a.reqs i).cls ≤ 3) : (a.pick [i]).1 = some i := by
  have hsome : (a.pick [i]).1 ≠ none := by
    cases hexp : rrPick a.reqs.length a.expPtr (fun j => [i].contains j && (nth {} a.reqs j).expired) with
    | some v =>
      have hpick : a.pick [i] = (some v, { a with expPtr := (v + 1) % a.reqs.length }) := by simp only [Au.pick, hexp]
      rw [hpick]
      exact Option.some_ne_none v
    | none =>
      have hpick : a.pick [i] = [3, 2, 1, 0].foldl (a.tryClass [i]) (none, a) := by simp only [Au.pick, hexp]
      obtain ⟨-, hwin⟩ := tryClass_foldl (asking := [i]) [3, 2, 1, 0] a rfl
      rw [hpick]
      intro hnone
      rw [hnone] at hwin
      have hmem : (nth {} a.reqs i).cls ∈ [3, 2, 1, 0] := by
        simp
        omega
      have hno := hwin _ hmem i hi
      simp [Au.asksIn] at hno
  obtain ⟨w, hw⟩ := Option.ne_none_iff_exists'.mp hsome
  obtain ⟨hmem, -⟩ := pick_spec.2 w hw
  rw [hw, List.mem_singleton.mp hmem]

/-! ### The unit after a round -/

theorem grant_reqs (a : Au) (asking : List Nat) (w : Nat) (hi : i < a.reqs.length) : nth {} (a.grant asking w).reqs i =
    if i = w then { nth {} a.reqs i with wait := 0 }
    else if asking.contains i then { nth {} a.reqs i with wait := Nat.min ((nth {} a.reqs i).wait + 1) 4095 } else nth {} a.reqs i := by
  simp [nth, Au.grant, List.getD_eq_getElem?_getD, hi]

theorem takeCommit_reqs (hcommit : a.commit = true) (hi : i < a.reqs.length) : nth {} a.takeCommit.reqs i =
    { nth {} a.reqs i with cls := (nth {} a.reqs i).shadowCls, limit := (nth {} a.reqs i).shadowLimit } := by
  simp [nth, Au.takeCommit, hcommit, List.getD_eq_getElem?_getD, hi]

end Sys2Proof.Machine
end

section
/-! PROOFS. Descriptors in memory, and the end of a descriptor's move (R321 to R325, R331, R332). -/

open Sys2Proof

namespace Sys2Proof.Machine

/-! ### Numbers as bytes -/

@[simp] theorem length_leBytes (k n : Nat) : (leBytes k n).length = k := by
  induction k generalizing n with
  | zero => rfl
  | succ k ih => simp [leBytes, ih]

theorem leNat_leBytes (k n : Nat) : leNat (leBytes k n) = n % 256 ^ k := by
  induction k generalizing n with
  | zero => simp [leBytes, leNat, Nat.mod_one]
  | succ k ih =>
    rw [leBytes, leNat, ih, Nat.pow_succ', Nat.mod_mul]
    simp [byteOf]

theorem leNat_lt (bs : Bytes) : leNat bs < 256 ^ bs.length := by
  induction bs with
  | nil => simp [leNat]
  | cons b bs ih =>
    have hb : b.toNat < 256 := b.isLt
    rw [leNat, List.length_cons, Nat.pow_succ']
    omega

theorem length_readBytes (m : List Host.Cell) (a n : Nat) : (readBytes m a n).length = n := by simp [readBytes]

theorem readBytes_writeBytes_leBytes (m : List Host.Cell) (a k n : Nat) : readBytes (writeBytes m a (leBytes k n)) a k = leBytes k n := by
  have h := readBytes_writeBytes m (leBytes k n) a
  rwa [length_leBytes] at h

theorem readBytes_writeBytes_other (m : List Host.Cell) (bs : Bytes) {a i n : Nat} (h : i + n ≤ a ∨ a + bs.length ≤ i) :
    readBytes (writeBytes m a bs) i n = readBytes m i n := by
  refine List.map_congr_left (fun j hj => writeBytes_other m bs a (i + j) ?_)
  have hj' := List.mem_range.mp hj
  omega

/-! ### A descriptor in the staging pool -/

section
variable (s : State)

theorem closeDesc_spl (a st : Nat) : (s.closeDesc true a st).dmf.spl =
    writeBytes (writeBytes s.dmf.spl (a + 4) (leBytes 4 st)) a (leBytes 4 (leNat (readBytes s.dmf.spl a 4) % 2 ^ 31)) := rfl

/-- The end of a descriptor writes STATUS and clears OWN, and nothing else of memory (R325). -/
theorem closeDesc_spec (a st i : Nat) : leNat (readBytes (s.closeDesc true a st).dmf.spl a 4) = leNat (readBytes s.dmf.spl a 4) % 2 ^ 31 ∧
    leNat (readBytes (s.closeDesc true a st).dmf.spl (a + 4) 4) = st % 2 ^ 32 ∧
    (i < a ∨ a + 8 ≤ i → Mem.get 0 (s.closeDesc true a st).dmf.spl i = Mem.get 0 s.dmf.spl i) := by
  rw [closeDesc_spl]
  refine ⟨?_, ?_, fun hi => ?_⟩
  · rw [readBytes_writeBytes_leBytes, leNat_leBytes]
    omega
  · rw [readBytes_writeBytes_other _ _ (by simp), readBytes_writeBytes_leBytes]
    exact leNat_leBytes 4 st
  · rw [writeBytes_other _ _ _ _ (by simp only [length_leBytes]; omega), writeBytes_other _ _ _ _ (by simp only [length_leBytes]; omega)]

theorem moveDesc_spl {d : Desc} (h : d.dstSpace = 2) (ch : Nat) (bs : Bytes) :
    (s.moveDesc ch d bs).dmf.spl = writeBytes s.dmf.spl d.dst bs ∧ ((s.moveDesc ch d bs).ch ch).job =
      (s.ch ch).job ++ [((s.ch ch).curSpl, (s.ch ch).cur, bs.length)] ∧ (s.moveDesc ch d bs).dram = s.dram := by
  unfold State.moveDesc State.spaceWrite
  rw [h]
  exact ⟨rfl, congrArg DmaCh.job (State.ch_setCh_self _ ch _), rfl⟩

end

/-! ### The end of a move -/

/-- What the end of a running descriptor's move brings, by its outcome (R321, R325, R332). -/
def State.moveEnds (s : State) (ch : Nat) (d : Desc) : MoveOutcome → State
  | .srcError n => s.failSource ch d ((s.sourceBytes d []).1.take n)
  | .dstError n => s.failMove ch d ((s.sourceBytes d []).1.take n) 0x02
  | .tagMismatch n => s.failTag ch d ((s.sourceBytes d []).1.take n) ((d.src % 4096 + n) / 4096)
  | .moved h =>
    if (s.sourceBytes d h).2 = 1 then s.failSource ch d (readBytes s.dmf.spl d.src (s.splBadAt d.src d.length))
    else if (s.sourceBytes d h).2 ≠ 0 then s.failMove ch d (s.sourceBytes d h).1 0x04
    else match s.badTag d (s.tagWork ch d (s.sourceBytes d h).1) with
      | some n => s.failTag ch d ((s.sourceBytes d h).1.take (bytesBefore d.src n)) n
      | none => s.endMove ch d (s.sourceBytes d h).1

section
variable {s : State} {ch : Nat} {d : Desc} {bs h : Bytes} (hactive : (s.ch ch).state = .active) (hfree : (s.ch ch).held = false)
  (hdesc : s.curDesc ch = d) (hgen : s.retired d.func d.gen = false) (hready : s.awaitsCpe d = false)
include hactive hfree hdesc hgen hready

theorem exec_descriptorComplete (r : MoveOutcome) (hpass : (s.ch ch).verdictFor d ≠ some false) :
    exec (.descriptorComplete ch r) s = .next (s.moveEnds ch d r) := by
  simp only [exec, execDescriptorComplete, hdesc]
  rw [if_neg (by simp [hactive, hfree]), if_neg (by simp [hgen]), if_neg (by simp [hready]), if_neg hpass]
  cases r <;> rfl

theorem exec_descriptorComplete_failed (r : MoveOutcome) (hfail : (s.ch ch).verdictFor d = some false) :
    exec (.descriptorComplete ch r) s = .next (((s.takeVerdict ch d).stopMove ch d).failJob ch d 0x05) := by
  simp only [exec, execDescriptorComplete, hdesc]
  rw [if_neg (by simp [hactive, hfree]), if_neg (by simp [hgen]), if_neg (by simp [hready]), if_pos hfail]

end

section
variable {s : State} {ch : Nat} {d : Desc} {bs h : Bytes}

theorem moveEnds_moved (hsrc : s.sourceBytes d h = (bs, 0)) (htag : s.badTag d (s.tagWork ch d bs) = none) :
    s.moveEnds ch d (.moved h) = s.endMove ch d bs := by
  simp [State.moveEnds, hsrc, htag]

theorem fetchDesc_runs (hown : (s.readDesc (s.ch ch).curSpl (s.ch ch).cur).own = true)
    (hok : s.descOk (s.ch ch) (s.readDesc (s.ch ch).curSpl (s.ch ch).cur) = true) (hgoes : (s.ch ch).aborting = false) :
    s.fetchDesc ch = s.setCh ch { s.ch ch with
      state := .active, fetched := (s.readDesc (s.ch ch).curSpl (s.ch ch).cur).raw
      jobOpen := (s.ch ch).jobOpen || ((s.readDesc (s.ch ch).curSpl (s.ch ch).cur).jobStart &&
        !(s.readDesc (s.ch ch).curSpl (s.ch ch).cur).jobEnd) } := by
  simp only [State.fetchDesc]
  rw [if_neg (by simp [hown]), if_neg (by simp [hok]), if_neg (by simp [hgoes])]

/-- A descriptor appended to the empty ring of a channel that is IDLE starts it (R328, R329). -/
theorem appendDesc_idle {n : Nat} (hidle : (s.ch ch).state = .idle) (hch : ch ≤ 255) (hfirst : (s.ch ch).appended = 0) :
    (s.appendDesc ch n).ch ch = { s.ch ch with
      state := .ready, curSpl := true, cur := ringSlot ch 0, pend := false, head := BitVec.ofNat 64 (ringSlot ch 0 + 2), appended := 1 } ∧
    readBytes (s.appendDesc ch n).dmf.spl (ringSlot ch 0) 64 = leBytes 64 n := by
  have hslot : ringSlot ch 0 = 64 * (655360 + 512 * ch) := by
    unfold ringSlot
    omega
  have hhead : (BitVec.ofNat 64 (ringSlot ch 0 + 2)).toNat = ringSlot ch 0 + 2 := by
    rw [BitVec.toNat_ofNat, Nat.mod_eq_of_lt]
    omega
  have hspl : bit (ringSlot ch 0 + 2) 1 = true := by
    simp only [bit, Nat.testBit_succ, Nat.testBit_zero, decide_eq_true_eq]
    omega
  have hline : (ringSlot ch 0 + 2) / 64 * 64 = ringSlot ch 0 := by omega
  have hidle' : ((s.spaceWrite 0 2 (ringSlot ch 0) (leBytes 64 n)).ch ch).state = .idle := hidle
  unfold State.appendDesc
  simp only [hfirst]
  have hrunning : ¬ ((s.spaceWrite 0 2 (ringSlot ch 0) (leBytes 64 n)).ch ch).state = .halted := by rw [hidle']; decide
  rw [if_neg hrunning, if_pos hidle']
  simp only [State.dmaRing, State.ch_setCh_self]
  rw [show ((s.spaceWrite 0 2 (ringSlot ch 0) (leBytes 64 n)).ch ch).state = .idle from hidle]
  simp only [hhead, hspl, hline]
  refine ⟨State.ch_setCh_self _ ch _, readBytes_writeBytes_leBytes s.dmf.spl (ringSlot ch 0) 64 n⟩

end

/-! ### Rounds on an engine's arbiter -/

section
variable {s : State} {inst : Nat}

/-- The requesters of an engine's arbiter that may be granted. -/
def State.mayAsk (s : State) (inst : Nat) (asking : List Nat) : List Nat :=
  asking.filter (fun k => decide (k < 32) && (s.ch (32 * inst + k)).state == .ready &&
    s.dmf.domainsOff.all (fun d => !s.touches (32 * inst + k) d))

theorem exec_auRound_nobody {asking : List Nat} (hinst : inst ≤ 7) (hnone : s.mayAsk inst asking = []) :
    exec (.auRound inst asking) s = .next s := by
  simp only [exec, execAuRound]
  rw [if_pos]
  rw [if_pos hinst]
  exact .inr (by rw [show asking.filter _ = [] from hnone]; rfl)

theorem exec_auRound_busy {asking : List Nat} (hinst : inst ≤ 7) (hbusy : s.psm.halt.withdrawn.contains (.dma inst) = true ∨
    (List.range 32).any (fun k => (s.ch (32 * inst + k)).state == .active) = true) : exec (.auRound inst asking) s = .next s := by
  simp only [exec, execAuRound]
  exact congrArg Host.Outcome.next (if_pos (.inl ⟨hinst, Bool.or_eq_true_iff.mpr hbusy⟩))

/-- A channel that asks alone is granted, by a round or by the grant parked on it, and its descriptor is fetched (R317, R341). -/
theorem exec_auRound_alone {k : Nat} (hinst : inst ≤ 7) (hwith : s.psm.halt.withdrawn = []) (hk : k < 32)
    (hready : (s.ch (32 * inst + k)).state = .ready) (hidle : ∀ j, j < 32 → (s.ch (32 * inst + j)).state ≠ .active)
    (hdomains : s.dmf.domainsOff = []) (hreqs : (s.au inst).reqs.length = 32) (hcommit : (s.au inst).commit = false)
    (hcls : (nth {} (s.au inst).reqs k).cls ≤ 3) :
    ∃ a : Au, exec (.auRound inst [k]) s = .next ((s.setAu inst a).fetchDesc (32 * inst + k)) ∧ a.owner = k ∧ a.held = true ∧ a.parked = true := by
  have hask : ([k].filter (fun k => decide (k < 32) && (s.ch (32 * inst + k)).state == .ready &&
      s.dmf.domainsOff.all (fun d => !s.touches (32 * inst + k) d))) = [k] := by
    simp [hk, hready, hdomains]
  have hnobusy : (List.range 32).any (fun k => (s.ch (32 * inst + k)).state == .active) = false :=
    List.any_eq_false.mpr (fun j hj => by simpa using hidle j (List.mem_range.mp hj))
  simp only [exec, execAuRound]
  rw [if_pos hinst, hask, if_neg (by simp [hwith, hnobusy])]
  by_cases hparked : ((s.au inst).parked && ([k] : List Nat) == [(s.au inst).owner]) = true
  · obtain ⟨hp, ho⟩ := Bool.and_eq_true_iff.mp hparked
    have howner : k = (s.au inst).owner := by simpa using ho
    rw [if_pos hparked]
    refine ⟨{ s.au inst with held := true }, ?_, howner.symm, rfl, hp⟩
    simp only [if_pos hinst, ← howner]
  · have htake : (s.au inst).takeCommit = s.au inst := if_neg (by simp [hcommit])
    rw [if_neg hparked, htake, round_of_pick (pick_alone (by rw [hreqs]; exact hk) hcls)]
    exact ⟨_, congrArg Host.Outcome.next (if_pos hinst), rfl, rfl, rfl⟩

end

end Sys2Proof.Machine
end

section
/-! PROOFS. Channels, jobs, domains and arbitration rounds (O39). -/

open Sys2Proof

namespace Sys2Proof.Machine

theorem dmaClear_rest {s : State} {ch : Nat} (h : (s.ch ch).state = .idle ∨ (s.ch ch).state = .parked ∨ (s.ch ch).state = .halted) :
    exec (.channelClear ch) s = .next (({ s with cpe := s.cpe.settle (fun e => e.1 == ch) } : State).setCh ch { s.ch ch with
      state := .idle, pend := false, jobOpen := false, job := [], aborting := false, partialTag := none, verdicts := (s.ch ch).dropPass }) := by
  simp only [exec, execChannelClear, State.dmaClear]
  rcases h with h | h | h <;> rw [h]

theorem dmaClear_moving {s : State} {ch : Nat} (h : (s.ch ch).state = .ready ∨ (s.ch ch).state = .active) :
    exec (.channelClear ch) s = .next s := by
  simp only [exec, execChannelClear, State.dmaClear]
  rcases h with h | h <;> rw [h]

/-- What retracting a job of one descriptor in the staging pool fills (R332 to R334). -/
theorem retractJob_one {s : State} {c : DmaCh} {d : Desc} {res n : Nat} (hdst : d.dstSpace = 2) (hdesc : s.readDesc true c.cur = d)
    (hgen : s.retired d.func d.gen = false) (hon : s.dmf.forced.contains 1 = false) (hn : n ≠ 0) :
    s.retractJob c.cur res [(true, c.cur, n)] 0 = ((s.splWrite d.dst (List.replicate n d.fill)).closeDesc true c.cur (statusWord res true n), n) := by
  simp only [State.retractJob, hdesc, hdst, hgen, spaceDomain, hon]
  simp [hn, State.spaceFill, State.spaceWrite]

/-- Settles O39: the rounds go through `pick_spec`, the ends of a move through `State.moveEnds`. -/
theorem dmaChannelsJobsAndArbitration : Obligations.DmaChannelsJobsAndArbitration := by
  refine ⟨?_, ?_, ?_, ?_, ?_, ?_, ?_, ?_, ?_, ?_, ?_, ?_, ?_, ?_, ?_, ?_, ?_, ?_, ?_, ?_, ?_, ?_, ?_, ?_, ?_, ?_, ?_, ?_, ?_, ?_, ?_, ?_,
    ?_, ?_, ?_, ?_, ?_, ?_, ?_, ?_, ?_, ?_, ?_, ?_, ?_, ?_, ?_, ?_, ?_, ?_, ?_, ?_, ?_, ?_, ?_, ?_, ?_, ?_, ?_, ?_, ?_, ?_⟩
  -- RING and CLEAR
  · intro s ch h
    simp only [exec, execChannelRing, State.dmaRing, h]
    rfl
  · intro s ch h
    simp only [exec, execChannelRing, State.dmaRing, h]
    rfl
  · intro s ch h
    simp only [exec, execChannelRing, State.dmaRing, h]
  · exact fun s ch h => dmaClear_moving (.inl h)
  · intro s ch h
    simp only [exec, execChannelRing, State.dmaRing, h]
  · exact fun s ch h => dmaClear_moving (.inr h)
  · intro s ch l h hlink hend
    have hbit : bit l 0 = true := by simp [bit, Nat.testBit_zero, hend]
    simp only [exec, execChannelRing, State.dmaRing, h, hlink, hbit, if_true]
  · intro s ch l h hlink hend
    have hbit : bit l 0 = false := by simp [bit, Nat.testBit_zero, hend]
    simp only [exec, execChannelRing, State.dmaRing, h, hlink, hbit, Bool.false_eq_true, if_false]
    rfl
  · exact fun s ch h => dmaClear_rest (.inl h)
  · exact fun s ch h => dmaClear_rest (.inr (.inl h))
  · exact fun s ch h => dmaClear_rest (.inr (.inr h))
  -- rounds
  · intro a b asking w h
    obtain ⟨hpick, rfl⟩ := pick_of_round h
    obtain ⟨hreqs, hwin⟩ := pick_spec (a := a) (asking := asking)
    obtain ⟨hin, hlt, -⟩ := hwin w hpick
    have hlt' : w < (a.pick asking).2.reqs.length := by rw [hreqs]; exact hlt
    refine ⟨hin, hlt, ?_, rfl, rfl, rfl, ?_⟩
    · rw [grant_reqs _ _ _ hlt', if_pos rfl]
    · simp [Au.grant, hreqs]
  · intro a b asking w i h hi hlt hexp
    obtain ⟨hpick, -⟩ := pick_of_round h
    obtain ⟨-, -, hexpired | ⟨hnone, -⟩⟩ := pick_spec.2 w hpick
    · exact hexpired
    · rw [hnone i hi hlt] at hexp
      cases hexp
  · intro a b asking w i h hi hlt hnone hcls
    obtain ⟨hpick, -⟩ := pick_of_round h
    obtain ⟨hin, -, hexpired | ⟨-, hhighest⟩⟩ := pick_spec.2 w hpick
    · rw [hnone w hin] at hexpired
      cases hexpired
    · exact hhighest i hi hlt (hcls i hi)
  · intro a b asking w i h hne hlt
    obtain ⟨hpick, rfl⟩ := pick_of_round h
    have hreqs := (pick_spec (a := a) (asking := asking)).1
    rw [grant_reqs _ _ _ (by rw [hreqs]; exact hlt), if_neg hne, hreqs]
    simp only [List.contains_iff_mem, Nat.min_def]
  · intro s inst asking hinst hasks hparked
    have hnot : ¬ inst ≤ 7 := Nat.not_le.mpr hinst
    simp only [exec, execAuRound, hparked, hnot, false_and, false_or, Bool.false_and, Bool.false_eq_true, if_false]
    rw [if_neg (by simpa using hasks)]
    cases (((s.au inst).takeCommit).round asking).2 <;> rfl
  · intro s inst asking ch hinst hlow hhigh hactive
    refine exec_auRound_busy hinst (.inr (List.any_eq_true.mpr ⟨ch - 32 * inst, List.mem_range.mpr (by omega), ?_⟩))
    rw [show 32 * inst + (ch - 32 * inst) = ch by omega, hactive]
    rfl
  · intro s inst asking hinst hnone
    refine exec_auRound_nobody hinst (List.filter_eq_nil_iff.mpr (fun k hk => ?_))
    simp [hnone k hk]
  · exact fun s inst k hinst hwith hk hready hidle hdomains hreqs hcommit hcls =>
      exec_auRound_alone hinst hwith hk hready hidle hdomains hreqs hcommit hcls
  · exact fun s inst asking hinst hwith => exec_auRound_busy hinst (.inl (by simpa using hwith))
  · exact fun s inst => rfl
  · intro a i hcommit hi
    rw [takeCommit_reqs hcommit hi]
    exact ⟨rfl, rfl, rfl, by simp [Au.takeCommit, hcommit]⟩
  -- a descriptor is fetched
  · intro s ch hown
    simp only [State.fetchDesc]
    rw [if_pos (by simp [hown])]
  · intro s ch hown hbad
    simp only [State.fetchDesc]
    rw [if_neg (by simp [hown]), if_pos (by simp [hbad])]
  · intro s ch hown hok hgoes
    rw [fetchDesc_runs hown hok hgoes]
    refine ⟨?_, ?_, ?_, rfl, rfl⟩
    · rw [State.ch_setCh_self]
    · rw [State.ch_setCh_self]
    · simp only [State.curDesc, State.ch_setCh_self, if_true]
  -- its move ends
  · intro s ch r hnot
    exact congrArg Host.Outcome.next (if_pos hnot)
  · intro s ch r d hactive hfree hdesc hgen
    simp only [exec, execDescriptorComplete, hdesc]
    rw [if_neg (by simp [hactive, hfree]), if_pos hgen]
  · intro s ch r d hactive hfree hdesc hgen hwait
    simp only [exec, execDescriptorComplete, hdesc]
    rw [if_neg (by simp [hactive, hfree]), if_neg (by simp [hgen]), if_pos hwait]
  · exact fun s ch r d hactive hfree hdesc hgen hready hfail => exec_descriptorComplete_failed hactive hfree hdesc hgen hready r hfail
  · intro s ch n d hactive hfree hdesc hgen hready hpass hsrc
    exact (exec_descriptorComplete hactive hfree hdesc hgen hready _ hpass).trans (congrArg Host.Outcome.next (if_neg hsrc))
  · intro s ch n d hactive hfree hdesc hgen hready hpass hsrc
    exact (exec_descriptorComplete hactive hfree hdesc hgen hready _ hpass).trans (congrArg Host.Outcome.next (if_pos hsrc))
  · intro s ch n d hactive hfree hdesc hgen hready hpass
    exact exec_descriptorComplete hactive hfree hdesc hgen hready _ hpass
  · intro s ch n d hactive hfree hdesc hgen hready hpass
    exact exec_descriptorComplete hactive hfree hdesc hgen hready _ hpass
  · intro s ch h bs d hactive hfree hdesc hgen hready hpass hsrc
    rw [exec_descriptorComplete hactive hfree hdesc hgen hready _ hpass]
    simp only [State.moveEnds, hsrc]
    rfl
  · intro s ch h bs d hactive hfree hdesc hgen hready hpass hsrc
    rw [exec_descriptorComplete hactive hfree hdesc hgen hready _ hpass]
    simp only [State.moveEnds, hsrc, if_true]
  · intro s ch h bs d hactive hfree hdesc hgen hready hpass hsrc htag hfailing
    rw [exec_descriptorComplete hactive hfree hdesc hgen hready _ hpass, moveEnds_moved hsrc htag]
    exact congrArg Host.Outcome.next (if_pos hfailing)
  · intro s ch h bs d hactive hfree hdesc hgen hready hpass hsrc htag hwell hend
    rw [exec_descriptorComplete hactive hfree hdesc hgen hready _ hpass, moveEnds_moved hsrc htag]
    simp only [State.endMove]
    rw [if_neg (by simp [hwell]), if_neg (by rcases hend with h | h <;> simp [h]), if_neg (by rcases hend with h | h <;> simp [h])]
  · intro s ch h bs d hactive hfree hdesc hgen hready hpass hsrc htag hwell hend hverdict hnone
    rw [exec_descriptorComplete hactive hfree hdesc hgen hready _ hpass, moveEnds_moved hsrc htag]
    simp only [State.endMove]
    rw [if_neg (by simp [hwell]), if_neg (by simp [hnone]), if_pos ⟨hend, hverdict⟩]
  · intro s ch h bs d hactive hfree hdesc hgen hready hpass hsrc htag hwell hend hverdict hcame
    rw [exec_descriptorComplete hactive hfree hdesc hgen hready _ hpass, moveEnds_moved hsrc htag]
    simp only [State.endMove]
    rw [if_neg (by simp [hwell]), if_pos ⟨hend, hverdict, hcame⟩]
  · intro s ch h bs d n hactive hfree hdesc hgen hready hpass hsrc htag
    rw [exec_descriptorComplete hactive hfree hdesc hgen hready _ hpass]
    simp only [State.moveEnds, hsrc, htag]
    rfl
  -- tags and memory
  · intro s ch d r u n v hmode hdone
    have htags : (s.writeTags ch d r).dmf.tags = Mem.set none s.dmf.tags u (some v) := by
      simp only [State.writeTags, hmode, hdone]
      rfl
    rw [htags]
    exact ⟨Mem.get_set_self none s.dmf.tags u (some v), fun j hj => Mem.get_set_other none s.dmf.tags (some v) hj,
      congrArg DmaCh.partialTag (State.ch_setCh_self _ ch _)⟩
  · intro s ch d r hmode
    rcases hmode with h | h <;> simp only [State.writeTags, h] <;> rfl
  · intro s ch h bs d i hdst
    obtain ⟨hspl, hjob, hdram⟩ := moveDesc_spl s hdst ch bs
    rw [hspl]
    exact ⟨readBytes_writeBytes _ _ _, fun hi => writeBytes_other _ _ _ _ hi, hjob, hdram⟩
  · exact fun s a st i => closeDesc_spec s a st i
  · intro s ch d res n i hdst hspl hdesc hgen hon hn haside hi
    rw [hspl] at hdesc
    rw [retractJob_one hdst hdesc hgen hon hn]
    refine ⟨rfl, ?_⟩
    rw [(closeDesc_spec _ (s.ch ch).cur _ (d.dst + i)).2.2 (by omega)]
    refine (writeBytes_get s.dmf.spl (List.replicate n d.fill) d.dst i (by simpa using hi)).trans ?_
    simp [hi]
  -- verdicts
  · intro s ch pass hnot hnojob
    simp only [exec, execJobVerdict, State.jobVerdict]
    rw [if_neg (by rcases hnot with h | h <;> simp [h]), if_pos (by simp [hnojob])]
  · intro s ch hnot hjob
    simp only [exec, execJobVerdict, State.jobVerdict]
    rw [if_neg (by rcases hnot with h | h <;> simp [h]), if_neg (by simp [hjob]), if_pos trivial]
  · intro s ch hnot hjob hactive
    have hfree : (s.ch ch).held = false := hnot.resolve_left (fun h => h hactive)
    simp only [exec, execJobVerdict, State.jobVerdict, State.upstreamFail]
    rw [if_neg (by simp [hfree]), if_neg (by simp [hjob]), if_neg (by simp), if_pos hactive, if_neg (by simp [hfree])]
  · intro s ch hactive hheld
    simp only [exec, execJobVerdict, State.jobVerdict]
    rw [if_pos ⟨hactive, hheld⟩, if_pos trivial]
  · intro s ch hactive hheld
    simp only [exec, execJobVerdict, State.jobVerdict]
    rw [if_pos ⟨hactive, hheld⟩, if_neg (by simp)]
  · intro s ch producer hactive hheld hok
    simp only [exec, execUpstreamFail, State.upstreamFail]
    rw [if_pos hok, if_pos hactive, if_pos hheld]
  · intro s ch producer hactive hheld hok
    simp only [exec, execUpstreamFail, State.upstreamFail]
    rw [if_pos hok, if_pos hactive, if_neg (by simp [hheld])]
  · intro s ch producer hbad
    exact congrArg Host.Outcome.next (if_neg (by simp [hbad]))
  · intro s ch producer hactive hnojob hok
    have hdesc : s.curDesc ch = s.readDesc (s.ch ch).curSpl (s.ch ch).cur := if_neg hactive
    simp only [exec, execUpstreamFail, State.upstreamFail, hdesc]
    rw [if_pos hok, if_neg hactive, if_neg (by simp [hnojob])]
  -- domains
  · intro s domain hlive hchans hdomain
    simp only [exec, execForceOff, if_pos hlive, State.forceOff, hchans]
    rw [if_neg (Nat.not_le.mpr hdomain)]
    rfl
  · exact fun s domain hdead => congrArg Host.Outcome.next (if_neg (by simp [hdead]))
  · intro s domain
    exact ⟨_, rfl, mem_nubNat (List.mem_append_right _ (List.mem_cons_self ..)), rfl, rfl, rfl⟩
  · intro s inst k domain hinst hoff htouches
    refine exec_auRound_nobody hinst (List.filter_eq_nil_iff.mpr (fun j hj => ?_))
    have hall : s.dmf.domainsOff.all (fun d => !s.touches (32 * inst + k) d) = false := by
      rw [List.all_eq_false]
      exact ⟨domain, hoff, by simp [htouches]⟩
    rw [List.mem_singleton.mp hj, hall]
    simp
  -- port 0
  · intro s k hnone
    simp only [exec, execPort0DmaRequest, hnone]
  · intro s k m e hfront hbad
    simp only [exec, execPort0DmaRequest, hfront, hbad]
  · intro s k m ch n hfront hok hroom
    simp only [exec, execPort0DmaRequest, hfront, hok, hroom, Bool.not_true, Bool.false_eq_true, if_false]
  · exact fun s ch n hidle hch hfirst => appendDesc_idle hidle hch hfirst

end Sys2Proof.Machine
end

section
/-! PROOFS. The engine ports of the sculls (R337, R338, R382, R383, R394, R422, R447). -/

open Sys2Proof

namespace Sys2Proof.Machine

/-! ### Port 1 -/

/-- A cipher request that passes its checks gives out no more than it takes in. -/
theorem cipherPlaces_lengths {s : State} {k : Nat} {m : List TWord} {x : Place × Place} (h : s.cipherPlaces k m = .ok x) :
    valAt m 6 ≤ valAt m 5 := by
  refine Nat.le_of_not_lt fun hlong => ?_
  have hbad : valAt m 5 = 0 ∨ 67108864 < valAt m 5 ∨ valAt m 5 < valAt m 6 ∨ 65536 ≤ valAt m 6 := .inr (.inr (.inl hlong))
  simp only [State.cipherPlaces, if_pos hbad] at h
  split at h
  · cases h
  · split at h <;> cases h

theorem route_spl {s : State} {ch n : Nat} {d : Place} (h : d.space = 2) : s.route ch d n = some (.spl d.addr) := if_pos h

theorem route_full {s : State} {ch n : Nat} {d : Place} (h : d.space ≠ 2) (hfull : s.ringRoom ch (ceilDiv n 262144) = false) :
    s.route ch d n = none := by
  unfold State.route
  rw [if_neg h, if_pos (by simp [hfull])]

theorem route_job {s : State} {ch n a : Nat} {d : Place} (h : d.space ≠ 2) (hroom : s.ringRoom ch (ceilDiv n 262144) = true)
    (hstage : s.stageFor n = some a) : s.route ch d n = some (.job a d) := by
  unfold State.route
  rw [if_neg h, if_neg (by simp [hroom]), hstage]
  rfl

section
variable {s : State} {k a : Nat} {m : List TWord} {p d : Place} (hfront : s.portFront k 1 = some m) (hok : s.cipherPlaces k m = .ok (p, d))
include hfront hok

theorem exec_port1_spl (h : d.space = 2) : exec (.port1CipherRequest k) s = .next (((s.trimStages k).portPop k 1).cpeSubmit
    (3 + eightOf k) (cipherEntry (s.scull k) m p.addr d.addr (valAt m 15 + (k + 1) * 2 ^ 32))) := by
  simp only [exec, execPort1CipherRequest, hfront, hok, route_spl h, ite_self, if_pos h]

theorem exec_port1_job (hn : valAt m 5 ≠ valAt m 6)
    (hroute : (s.trimStages k).route (field (valAt m 1) 21 14) d (valAt m 5 - valAt m 6) = some (.job a d)) :
    exec (.port1CipherRequest k) s = .next ((((s.trimStages k).portPop k 1).startJob k (field (valAt m 1) 21 14) (jobUser k (valAt m 15)) a d
      (valAt m 5 - valAt m 6) (flag (bit (valAt m 1) 13))).cpeSubmit (3 + eightOf k)
        (cipherEntry (s.scull k) m p.addr a (jobUser k (valAt m 15)))) := by
  have hle := cipherPlaces_lengths hok
  have hpos : valAt m 5 - valAt m 6 ≠ 0 := by omega
  simp only [exec, execPort1CipherRequest, hfront, hok, if_neg hpos, hroute]

theorem exec_port1_waits (hn : valAt m 5 ≠ valAt m 6)
    (hroute : (s.trimStages k).route (field (valAt m 1) 21 14) d (valAt m 5 - valAt m 6) = none) :
    exec (.port1CipherRequest k) s = .next s := by
  have hle := cipherPlaces_lengths hok
  have hpos : valAt m 5 - valAt m 6 ≠ 0 := by omega
  simp only [exec, execPort1CipherRequest, hfront, hok, if_neg hpos, hroute]

end

/-! ### Port 2 -/

/-- What a digest request does once its message and its bytes are there (R394). -/
def State.digestEnds (s : State) (k : Nat) (m : List TWord) (x : Port2Msg) (bs : Bytes) : State :=
  if x.alg = 3 then (s.portPop k 2).portRefuse k 2 (valAt m 5) Config.reservedAlgCode.toNat
  else if d2Final m then
    ((s.portPop k 2).setPort2 k none).scullReply k 2 ([mkWord 1 (valAt m 5), mkWord 1 0] ++ digestWords m { x with msg := x.msg ++ bs })
  else ((s.portPop k 2).setPort2 k (some { x with msg := x.msg ++ bs })).scullReply k 2 [mkWord 1 (valAt m 5), mkWord 1 0]

section
variable {s : State} {k : Nat} {m : List TWord} {p : Place} {bs : Bytes} {x : Port2Msg} (hfront : s.portFront k 2 = some m)
  (htags : digestTagsOk m = true) (hlens : digestLensOk m = true)
include hfront htags hlens

theorem exec_port2 (hopen : d2Open m = true ∨ Mem.get none s.dge.port2 k ≠ none)
    (hplace : (s.scull k).place k (wordAt m 3) (valAt m 4) false = .ok p) (hread : p.space ≠ 2 ∨ s.splRead p.addr (valAt m 4) ≠ none)
    (hbytes : s.placeBytes p (valAt m 4) = some bs) (hmsg : s.digestMsg k m (Mem.get none s.dge.port2 k) = some x) :
    exec (.port2DigestRequest k) s = .next (s.digestEnds k m x bs) := by
  have hthere : ¬ (p.space = 2 ∧ (s.splRead p.addr (valAt m 4)).isNone = true) := by
    rintro ⟨h, h'⟩
    exact hread.elim (fun hne => hne h) (fun hne => hne (Option.isNone_iff_eq_none.mp h'))
  have hcur : ¬ ((!d2Open m) = true ∧ (Mem.get none s.dge.port2 k).isNone = true) := by
    rintro ⟨h, h'⟩
    refine hopen.elim (fun ho => ?_) (fun hne => hne (Option.isNone_iff_eq_none.mp h'))
    rw [ho] at h
    cases h
  simp only [exec, execPort2DigestRequest, hfront, htags, hlens, Bool.not_true, Bool.false_eq_true, if_false, if_neg hcur, hplace,
    if_neg hthere, hbytes, hmsg]
  rfl

end

theorem digestMsg_open {s : State} {k : Nat} {m : List TWord} (hopen : d2Open m = true) (hkey : d2Keyed m = false) (cur : Option Port2Msg) :
    s.digestMsg k m cur = some { alg := d2Alg m, msg := [] } := by
  simp [State.digestMsg, hopen, hkey]

theorem digestMsg_goesOn {s : State} {k : Nat} {m : List TWord} (hopen : d2Open m = false) (cur : Option Port2Msg) :
    s.digestMsg k m cur = cur := by
  simp [State.digestMsg, hopen]

/-- A keyed message that ends is compared in at least 16 bytes. -/
theorem digestWords_keyed {m : List TWord} {x : Port2Msg} {key : Bytes} (hkey : x.key = some key) (hlens : digestLensOk m = true)
    (hkeyed : d2Keyed m = true) (hfinal : d2Final m = true) : digestWords m x = [mkWord 1 (if (padTo 64 (hmacOf x.alg key x.msg)).take
      (4 * d2Expect m) = (wordBytes m 6 (d2Expect m)).take (4 * d2Expect m) then 1 else 0)] := by
  have hlong : 16 ≤ 4 * d2Expect m := by
    simp [digestLensOk, hkeyed, hfinal] at hlens
    omega
  simp [digestWords, hkey, hlong, flag]

/-! ### Port 3 -/

theorem c3Bad_readable {s : State} {a n : Nat} (h : ∀ w ∈ s.dmf.splBad, 8 * w + 8 ≤ a ∨ a + n ≤ 8 * w) : s.c3Bad a n none = none := by
  have hnone : s.dmf.splBad.filter (fun w => decide (a < 8 * w + 8 ∧ 8 * w < a + n)) = [] := by
    refine List.filter_eq_nil_iff.mpr (fun w hw => ?_)
    have := h w hw
    simp only [decide_eq_true_eq]
    omega
  have hat : s.splBadAt a n = n := by
    unfold State.splBadAt
    rw [hnone]
    rfl
  simp [State.c3Bad, hat]

/-! ### Port 4 -/

/-- The search that a request asks for. -/
def portSearch (m : List TWord) : Search :=
  { tag := BitVec.ofNat 8 (field (valAt m 1) 25 18), allTags := bit (valAt m 1) 17, max := field (valAt m 1) 31 26 + 1, key := bits288 m 2 }

section
variable {s : State} {k : Nat} {m : List TWord} {f : AsuFault} {t : Table} (hfront : s.portFront k 4 = some m)
include hfront

section
variable (hlen : m.length ≠ 24) (hword : tagIs m 1 1 = true) (hcookie : tagIs m 11 1 = true)
  (hkey : (List.range 9).all (fun i => tagIs m (2 + i) 2) = true)
include hlen hword hcookie hkey

theorem exec_port4Search_unknown (hnone : s.table (s.scull k).func (field (valAt m 1) 15 0) = none) :
    exec (.port4Search k f) s = .next ((s.portPop k 4).portRefuse k 4 (valAt m 11) 0x08) := by
  have hsearch : p4Update m = false := by simpa [p4Update] using hlen
  simp only [exec, execPort4Search, hfront, hsearch, hword, hcookie, hkey, hnone, Bool.not_true, Bool.false_eq_true, if_false, or_self]

theorem exec_port4Search (htable : s.table (s.scull k).func (field (valAt m 1) 15 0) = some t) :
    exec (.port4Search k f) s = .next ((s.portPop k 4).port4Find k (valAt m 11) t (portSearch m) f) := by
  have hsearch : p4Update m = false := by simpa [p4Update] using hlen
  simp only [exec, execPort4Search, hfront, hsearch, hword, hcookie, hkey, htable, Bool.not_true, Bool.false_eq_true, if_false, or_self]
  rfl

end

section
variable (hlen : m.length = 24) (hword : tagIs m 1 1 = true) (hzero : field (valAt m 1) 31 26 = 0) (hentry : tagIs m 2 1 = true)
  (hprio : tagIs m 3 1 = true) (hlow : valAt m 3 < 4096) (hcookie : tagIs m 24 1 = true)
  (hbytes : (List.range 20).all (fun i => tagIs m (4 + i) 2) = true)
include hlen hword hzero hentry hprio hlow hcookie hbytes

/-- The row that an update writes, none where it invalidates its entry (R443). -/
def updateRow (m : List TWord) : Option Row :=
  if bit (valAt m 1) 17 then none
  else some { key := bits288 m 4, mask := bits288 m 13, prefilter := BitVec.ofNat 8 (field (valAt m 1) 25 18), priority := valAt m 3
              assoc := BitVec.ofNat 64 (leNat (wordBytes m 22 2)) }

theorem exec_port4Update_unknown (hnone : s.table (s.scull k).func (field (valAt m 1) 15 0) = none) :
    exec (.port4Update k f) s = .next ((s.portPop k 4).portRefuse k 4 (valAt m 24) 0x08) := by
  have hupdate : p4Update m = true := by simpa [p4Update] using hlen
  simp only [exec, execPort4Update, hfront, hupdate, hword, hzero, hentry, hprio, Nat.not_le.mpr hlow, hcookie, hbytes, hnone, ne_eq,
    not_true_eq_false, Bool.not_true, Bool.false_eq_true, if_false, or_self]

theorem exec_port4Update_beyond (htable : s.table (s.scull k).func (field (valAt m 1) 15 0) = some t) (hstays : t.deleting = none)
    (hbeyond : t.capacity ≤ valAt m 2) :
    exec (.port4Update k f) s = .next ((s.portPop k 4).portRefuse k 4 (valAt m 24) 0x09) := by
  have hupdate : p4Update m = true := by simpa [p4Update] using hlen
  simp only [exec, execPort4Update, hfront, hupdate, hword, hzero, hentry, hprio, Nat.not_le.mpr hlow, hcookie, hbytes, htable, hstays,
    hbeyond, ne_eq, not_true_eq_false, Bool.not_true, Bool.false_eq_true, if_false, if_true, or_self, Option.isSome_none]

theorem exec_port4Update_misfit (htable : s.table (s.scull k).func (field (valAt m 1) 15 0) = some t) (hstays : t.deleting = none)
    (hin : valAt m 2 < t.capacity) (hwrites : bit (valAt m 1) 17 = false) (hmisfit : keyFits t (bits288 m 4) (bits288 m 13) = false) :
    exec (.port4Update k f) s = .next ((s.portPop k 4).portRefuse k 4 (valAt m 24) 0x0A) := by
  have hupdate : p4Update m = true := by simpa [p4Update] using hlen
  simp only [exec, execPort4Update, hfront, hupdate, hword, hzero, hentry, hprio, Nat.not_le.mpr hlow, hcookie, hbytes, htable, hstays,
    Nat.not_le.mpr hin, hwrites, hmisfit, ne_eq, not_true_eq_false, Bool.not_true, Bool.not_false, Bool.false_eq_true, if_false, if_true,
    or_self, and_self, Option.isSome_none]

section
variable (htable : s.table (s.scull k).func (field (valAt m 1) 15 0) = some t) (hstays : t.deleting = none)
  (hin : valAt m 2 < t.capacity) (hfits : bit (valAt m 1) 17 = true ∨ keyFits t (bits288 m 4) (bits288 m 13) = true)
  (hup : s.tableDown t = false)
include htable hstays hin hfits hup

theorem exec_port4Update_fails {u : State} (hfault : (s.portPop k 4).rowFault t f [valAt m 2] = some u) :
    exec (.port4Update k f) s = .next (u.portRefuseFree k 4 (valAt m 24)) := by
  have hupdate : p4Update m = true := by simpa [p4Update] using hlen
  have hok : ¬ ((!bit (valAt m 1) 17) = true ∧ (!keyFits t (bits288 m 4) (bits288 m 13)) = true) := by
    rcases hfits with h | h <;> simp [h]
  simp only [exec, execPort4Update, hfront, hupdate, hword, hzero, hentry, hprio, Nat.not_le.mpr hlow, hcookie, hbytes, htable, hstays,
    Nat.not_le.mpr hin, if_neg hok, hup, hfault, ne_eq, not_true_eq_false, Bool.not_true, Bool.false_eq_true, if_false, or_self,
    Option.isSome_none]

theorem exec_port4Update_writes (hsound : (s.portPop k 4).rowFault t f [valAt m 2] = none) :
    exec (.port4Update k f) s =
      .next (((s.portPop k 4).setRow t (valAt m 2) (updateRow m)).scullReply k 4 [mkWord 1 (valAt m 24), mkWord 1 0]) := by
  have hupdate : p4Update m = true := by simpa [p4Update] using hlen
  have hok : ¬ ((!bit (valAt m 1) 17) = true ∧ (!keyFits t (bits288 m 4) (bits288 m 13)) = true) := by
    rcases hfits with h | h <;> simp [h]
  simp only [exec, execPort4Update, hfront, hupdate, hword, hzero, hentry, hprio, Nat.not_le.mpr hlow, hcookie, hbytes, htable, hstays,
    Nat.not_le.mpr hin, if_neg hok, hup, hsound, ne_eq, not_true_eq_false, Bool.not_true, Bool.false_eq_true, if_false, or_self,
    Option.isSome_none]
  rfl

end

end

end

/-- A reply for a scull that runs joins the words of its port (R480). -/
theorem scullReply_inq {s : State} {k port : Nat} (ws : List TWord) (hasked : Mem.get 0 (s.scull k).outstanding port ≠ 0)
    (hrun : (s.scull k).running = true) (htrap : (s.scull k).trapped = false) :
    Mem.get [] ((s.scullReply k port ws).scull k).inq port = Mem.get [] (s.scull k).inq port ++ ws ∧
      Mem.get 0 ((s.scullReply k port ws).scull k).outstanding port = Mem.get 0 (s.scull k).outstanding port - 1 := by
  simp only [State.scullReply, State.updScull, State.scull_setScull_self]
  rw [if_neg hasked]
  simp only [hrun, htrap, Bool.not_false, Bool.and_self, if_true, Mem.get_upd_self, and_self]

/-- Settles O40, port by port. -/
theorem enginePortsTakeTheirRequests : Obligations.EnginePortsTakeTheirRequests := by
  refine ⟨?_, ?_, ?_, ?_, ?_, ?_, ?_, ?_, ?_, ?_, ?_, ?_, ?_, ?_, ?_, ?_, ?_, ?_, ?_, ?_, ?_, ?_, ?_, ?_, ?_, ?_, ?_, ?_, ?_, ?_, ?_, ?_,
    ?_, ?_, ?_, ?_, ?_, ?_, ?_, ?_, ?_⟩
  · intro s k h
    simp only [exec, execPort1CipherRequest, h]
  · intro s k h
    simp only [exec, execPort2DigestRequest, h]
  · intro s k v tf h
    simp only [exec, execPort3CompressionRequest, h]
  · intro s k f h
    simp only [exec, execPort4Search, h]
  · intro s k f h
    simp only [exec, execPort4Update, h]
  -- port 1
  · intro s k m e hfront hbad
    simp only [exec, execPort1CipherRequest, hfront, hbad]
  · exact fun s k m p d hfront hok h => exec_port1_spl hfront hok h
  · exact fun s k m p d a hfront hok h hn hroom hstage => exec_port1_job hfront hok hn (route_job h hroom hstage)
  · exact fun s k m p d hfront hok h hn hfull => exec_port1_waits hfront hok hn (route_full h hfull)
  -- port 2
  · intro s k m hfront htags
    simp only [exec, execPort2DigestRequest, hfront, htags, Bool.not_false, if_true]
  · intro s k m hfront htags hlens
    simp only [exec, execPort2DigestRequest, hfront, htags, hlens, Bool.not_true, Bool.not_false, Bool.false_eq_true, if_false, if_true]
  · intro s k m hfront htags hlens hopen hnone
    simp only [exec, execPort2DigestRequest, hfront, htags, hlens, hopen, hnone, Bool.not_true, Bool.not_false, Bool.false_eq_true, if_false,
      if_true, Option.isNone_none, and_self]
  · intro s k m e hfront htags hlens hopen hplace
    have hcur : ¬ ((!d2Open m) = true ∧ (Mem.get none s.dge.port2 k).isNone = true) := by
      rcases hopen with h | h <;> simp [h]
    simp only [exec, execPort2DigestRequest, hfront, htags, hlens, if_neg hcur, hplace, Bool.not_true, Bool.false_eq_true, if_false]
  · intro s k m p hfront htags hlens hopen hplace hspace hread
    have hcur : ¬ ((!d2Open m) = true ∧ (Mem.get none s.dge.port2 k).isNone = true) := by
      rcases hopen with h | h <;> simp [h]
    simp only [exec, execPort2DigestRequest, hfront, htags, hlens, if_neg hcur, hplace, hspace, hread, Bool.not_true, Bool.false_eq_true,
      if_false, if_true, Option.isNone_none, and_self]
  · intro s k m p bs hfront htags hlens hopen hkey hfinal halg hplace hread hbytes
    rw [exec_port2 hfront htags hlens (.inl hopen) hplace hread hbytes (digestMsg_open hopen hkey _)]
    exact congrArg Host.Outcome.next (if_pos halg)
  · intro s k m p bs hfront htags hlens hopen hkey hfinal halg hplace hread hbytes
    rw [exec_port2 hfront htags hlens (.inl hopen) hplace hread hbytes (digestMsg_open hopen hkey _)]
    exact congrArg Host.Outcome.next ((if_neg halg).trans (if_pos hfinal))
  · intro s k m p bs hfront htags hlens hopen hkey hfinal halg hplace hread hbytes
    rw [exec_port2 hfront htags hlens (.inl hopen) hplace hread hbytes (digestMsg_open hopen hkey _)]
    exact congrArg Host.Outcome.next ((if_neg halg).trans (if_neg (by simp [hfinal])))
  · intro s k m p bs x hfront htags hlens hopen hcur hkey halg hfinal hplace hread hbytes
    rw [exec_port2 hfront htags hlens (.inr (by simp [hcur])) hplace hread hbytes ((digestMsg_goesOn hopen _).trans hcur)]
    refine congrArg Host.Outcome.next (((if_neg halg).trans (if_pos hfinal)).trans ?_)
    simp only [digestWords, hkey]
  · intro s k m p bs x key w hfront htags hlens hopen hcur hkey halg hkeyed hfinal hw hplace hread hbytes
    rw [exec_port2 hfront htags hlens (.inr (by simp [hcur])) hplace hread hbytes ((digestMsg_goesOn hopen _).trans hcur)]
    refine congrArg Host.Outcome.next (((if_neg halg).trans (if_pos hfinal)).trans ?_)
    rw [digestWords_keyed (x := { x with msg := x.msg ++ bs }) hkey hlens hkeyed hfinal, ← hw]
    rfl
  -- port 3
  · intro s k m v tf e hfront hbad
    simp only [exec, execPort3CompressionRequest, hfront, hbad]
  · intro s k m v tf p d hfront hok hnew hrange
    simp only [exec, execPort3CompressionRequest, hfront, hok, hnew, hrange, Bool.not_false, and_self, if_true]
    rfl
  · intro s k m v tf p d i x st hfront hok hrange hjob hstep
    have hin : ¬ ((!c3Resume m) = true ∧ (!tfStartOk (c3Header m)) = true) := by
      rcases hrange with h | h <;> simp [h]
    simp only [exec, execPort3CompressionRequest, hfront, hok, if_neg hin, hjob, hstep]
  · intro s m i rs v x a bad hgood
    simp only [State.c3Step, hgood, Option.bind_none] <;> rfl
  · intro w off o2 d hkind
    simp [tagFields, Option.filter, hkind]
  · exact fun s a n h => c3Bad_readable h
  · intro s k a m p bs kp ws hspace haddr hsome
    have hempty : ¬ bs.isEmpty = true := by simpa using hsome
    simp only [State.c3Send, if_neg hempty, route_spl hspace, haddr]
  -- port 4
  · intro s k m f hfront hlen
    simp only [exec, execPort4Search, hfront, p4Update, hlen, beq_self_eq_true, if_true]
  · intro s k m f hfront hlen hcookie
    have hsearch : p4Update m = false := by simpa [p4Update] using hlen
    simp only [exec, execPort4Search, hfront, hsearch, hcookie, Bool.not_false, Bool.false_eq_true, if_false, true_or, or_true, if_true]
  · exact fun s k m f hfront hlen hword hcookie hkey hnone => exec_port4Search_unknown hfront hlen hword hcookie hkey hnone
  · intro s k m f t hfront hlen hword hcookie hkey htable hgoes
    rw [exec_port4Search hfront hlen hword hcookie hkey htable]
    exact congrArg Host.Outcome.next (if_pos (Option.isSome_iff_ne_none.mpr hgoes))
  · intro s k m f t hfront hlen hword hcookie hkey htable hstays hlong
    rw [exec_port4Search hfront hlen hword hcookie hkey htable]
    exact congrArg Host.Outcome.next ((if_neg (by simp [hstays])).trans (if_pos hlong))
  · intro s k m _ t q hfront hlen hword hcookie hkey htable hstays hq hfits hup
    rw [exec_port4Search hfront hlen hword hcookie hkey htable, show portSearch m = q from hq]
    exact congrArg Host.Outcome.next ((if_neg (by simp [hstays])).trans ((if_neg (Nat.not_le.mpr hfits)).trans
      ((if_neg (fun h => Bool.false_ne_true (hup.symm.trans h))).trans rfl)))
  · intro s k m f hfront hlen
    have hsearch : p4Update m = false := by simpa [p4Update] using hlen
    simp only [exec, execPort4Update, hfront, hsearch, Bool.not_false, if_true]
  · intro s k m f hfront hlen hhigh
    have hupdate : p4Update m = true := by simpa [p4Update] using hlen
    simp only [exec, execPort4Update, hfront, hupdate, hhigh, Bool.not_true, Bool.false_eq_true, if_false, true_or, or_true, if_true]
  · exact fun s k m f hfront hlen hword hzero hentry hprio hlow hcookie hbytes hnone =>
      exec_port4Update_unknown hfront hlen hword hzero hentry hprio hlow hcookie hbytes hnone
  · exact fun s k m f t hfront hlen hword hzero hentry hprio hlow hcookie hbytes htable hstays hbeyond =>
      exec_port4Update_beyond hfront hlen hword hzero hentry hprio hlow hcookie hbytes htable hstays hbeyond
  · exact fun s k m f t hfront hlen hword hzero hentry hprio hlow hcookie hbytes htable hstays hin hwrites hmisfit =>
      exec_port4Update_misfit hfront hlen hword hzero hentry hprio hlow hcookie hbytes htable hstays hin hwrites hmisfit
  · intro s k m f t hfront hlen hword hzero hentry hprio hlow hcookie hbytes htable hstays hin hwrites hfits hup hsound
    rw [exec_port4Update_writes hfront hlen hword hzero hentry hprio hlow hcookie hbytes htable hstays hin (.inr hfits) hup hsound]
    simp only [updateRow, hwrites, Bool.false_eq_true, if_false]
  · intro s k m f t hfront hlen hword hzero hentry hprio hlow hcookie hbytes htable hstays hin hgone hup hsound
    rw [exec_port4Update_writes hfront hlen hword hzero hentry hprio hlow hcookie hbytes htable hstays hin (.inl hgone) hup hsound]
    simp only [updateRow, hgone, if_true]
  · exact fun s k m f t u hfront hlen hword hzero hentry hprio hlow hcookie hbytes htable hstays hin hgone hup hfault =>
      exec_port4Update_fails hfront hlen hword hzero hentry hprio hlow hcookie hbytes htable hstays hin (.inl hgone) hup hfault
  · exact fun s k port ws hasked hrun htrap => scullReply_inq ws hasked hrun htrap

end Sys2Proof.Machine
end

section
/-! PROOFS. TRANSFORM: the checks, the engine jobs and the contexts it may hold (R405 to R427). -/

open Sys2Proof

namespace Sys2Proof.Machine

/-! ### The checks before a job -/

section
variable {s : State} {id : CmdId} {d : Bytes} {c : Cmd} {h : TfHeader} {ops : List Nat} {body : Cmd → TfHeader → Bytes → State}
  (hlive : s.live id false 0x9B = some c) (hh : tfHeader d = h) (hop : ops.contains h.op = true)
include hlive hh hop

theorem transform_wrongNsid (hns : c.sqe.nsid ≠ 0xFFFFFFFF) : s.transform id d ops body = s.finish id .invalidNamespaceOrFormat := by
  simp only [State.transform, hlive, hh, hop, Bool.not_true, Bool.false_eq_true, if_false, if_pos hns]

theorem transform_badField (hns : c.sqe.nsid = 0xFFFFFFFF) (hok : tfOk c h = false) : s.transform id d ops body = s.finish id .invalidField := by
  simp only [State.transform, hlive, hh, hop, hns, hok, ne_eq, not_true_eq_false, Bool.not_true, Bool.not_false, Bool.false_eq_true, if_false, if_true]

theorem transform_body (hns : c.sqe.nsid = 0xFFFFFFFF) (hok : tfOk c h = true) (hlen : sglShort c.sqe (128 + h.inLen) = false) :
    s.transform id d ops body = body c h (slice d 128 h.inLen) := by
  simp only [State.transform, hlive, hh, hop, hns, hok, hlen, ne_eq, not_true_eq_false, Bool.not_true, Bool.false_eq_true, if_false]

end

/-- The one OP of a TRANSFORM command is the header's. -/
theorem contains_op {h : TfHeader} {n : Nat} (hop : h.op = n) (l : List Nat) (hl : l.contains n = true) : l.contains h.op = true := hop ▸ hl

theorem TfHeader.op_lt (h : TfHeader) : h.op < 16 := Nat.mod_lt _ (by decide)

/-- A reserved OP is a field outside its rules (R419). -/
theorem tfOk_reserved {c : Cmd} {h : TfHeader} (hop : 5 ≤ h.op) : tfOk c h = false := by
  have hfalse : decide (h.op ≤ 4 ∧ h.inLen ≤ 2097024) = false := decide_eq_false (by omega)
  simp [tfOk, tfCommonOk, hfalse]

theorem contains_reserved {h : TfHeader} (hop : 5 ≤ h.op) : [0, 5, 6, 7, 8, 9, 10, 11, 12, 13, 14, 15].contains h.op = true := by
  have := h.op_lt
  simp only [List.contains_eq_mem, List.mem_cons, List.not_mem_nil, decide_eq_true_eq]
  omega

/-! ### Compression and decompression -/

section
variable {s : State} {id : CmdId} {c : Cmd} {h : TfHeader} {input : Bytes} {v : Bool} {bad : Option TagFault} {x : CmpCtx}

theorem transformCmp_noHeld (hcont : h.cont = true) (hnone : s.heldCtx h.context = none) :
    s.transformCmp id c h input v bad = s.finish id .invalidField := by
  simp only [State.transformCmp, hcont, hnone, if_true]

theorem transformCmp_foreign (hcont : h.cont = true) (hheld : s.heldCtx h.context = some x)
    (hforeign : x.func ≠ c.func ∨ x.scull.isSome = true ∨ x.op ≠ h.op) : s.transformCmp id c h input v bad = s.finish id .invalidField := by
  simp only [State.transformCmp, hcont, hheld, if_true, if_pos hforeign]

theorem transformCmp_resumes (hcont : h.cont = true) (hheld : s.heldCtx h.context = some x) (hfunc : x.func = c.func)
    (hscull : x.scull = none) (hop : x.op = h.op) : s.transformCmp id c h input v bad = s.cmpJob id c h h.context x input v bad := by
  simp only [State.transformCmp, hcont, hheld, if_true]
  exact if_neg (by simp [hfunc, hscull, hop])

theorem transformCmp_waits (hcont : h.cont = false) (hfree : s.freeCtx = none) : s.transformCmp id c h input v bad = s := by
  simp only [State.transformCmp, hcont, hfree, Bool.false_eq_true, if_false]

theorem transformCmp_starts {i : Nat} (hcont : h.cont = false) (hfree : s.freeCtx = some i) :
    s.transformCmp id c h input v bad = s.cmpJob id c h i { func := c.func, gen := c.gen, op := h.op, format := h.format, windowLog := h.windowLog, depth := field h.n 27 20 + 1, lazy := bit h.n 28, declLen := (if h.op = 0 ∧ h.format = 3 ∧ h.declLen = 0 then h.inLen else h.declLen) } input v bad := by
  simp only [State.transformCmp, hcont, hfree, Bool.false_eq_true, if_false]

theorem cmpJob_whole {i : Nat} {t : State} {r : CmpStep} (ht : (s.cmpRun i h.cont x input h.more (tfOutLen c.sqe) v).1 = t)
    (hr : (s.cmpRun i h.cont x input h.more (tfOutLen c.sqe) v).2 = r) : s.cmpJob id c h i x input v none = t.cmpFinish id c h i r := by
  subst ht hr
  rfl

theorem cmpJob_cut {i : Nat} {b : TagFault} {r : CmpStep} (hbad : badStep x input (tfOutLen c.sqe) (4096 * b.unitNo) = some r) :
    s.cmpJob id c h i x input v (some b) = (((s.setHeld i none).cmpOut c h false r.out).tfReport c b).finish id .internalContained
      (BitVec.ofNat 32 r.consumed) (tfDw1 r.out.length none false 0) := by
  simp only [State.cmpJob, Option.bind_some, hbad, Option.map_some]

end

theorem faultOf_some {b : TagFault} (hok : componentOk b.component = true) : faultOf (some b) = some b := by
  simp [faultOf, Option.filter, hok]

theorem cmpFinish_kept {s : State} {id : CmdId} {c : Cmd} {h : TfHeader} {i : Nat} {r : CmpStep}
    (hkeep : r.result = .done ∨ r.result = .outputFull ∨ h.retract = false) :
    s.cmpFinish id c h i r = (s.hostWrite c.func (tfOut c.sqe) r.out).finish id r.result.status (BitVec.ofNat 32 r.consumed)
      (tfDw1 r.out.length (r.hold.map (fun _ => i)) r.fallback 0) := by
  rcases hkeep with hdone | hfull | hkeep
  · simp [State.cmpFinish, State.cmpOut, hdone]
  · simp [State.cmpFinish, State.cmpOut, hfull]
  · simp [State.cmpFinish, State.cmpOut, hkeep]

theorem cmpFinish_retracted {s : State} {id : CmdId} {c : Cmd} {h : TfHeader} {i k : Nat} {r : CmpStep} (hfail : r.result = .checkFail k)
    (hretract : h.retract = true) :
    s.cmpFinish id c h i r = (s.outRetracted c r.out h.fill).finish id .checkFail (BitVec.ofNat 32 r.consumed)
      (tfDw1 r.out.length (r.hold.map (fun _ => i)) r.fallback 0) := by
  simp [State.cmpFinish, State.cmpOut, hfail, hretract, CmpResult.status]

/-! ### The steps of a job -/

theorem length_append_sub (a b : Bytes) : (a ++ b).length - a.length = b.length := by simp

section
variable {c : CmpCtx} {new : Bytes} {more : Bool} {n : Nat} {ws : Words} {bs : List Words} (hopen : c.ended = false)
  (hws : c.stream (c.input ++ new) (!more) = ws) (hbs : c.blocks (c.input ++ new) (!more) = bs)
include hopen hws hbs

/-- A step whose words all fit has written all its input gives (R413, R417). -/
theorem compressStep_wroteAll (hfit : (fitting (8 * (c.produced + n)) ws).length = ws.length) :
    compressStep c new more n = c.wroteAll (c.input ++ new) ((packBits (fitting (8 * (c.produced + n)) ws).flatten).drop c.produced) (!more)
      bs.length := by
  simp only [compressStep, hopen, Bool.false_or, Bool.false_eq_true, if_false, hws, hbs, if_pos hfit]

theorem compressStep_filled (hfit : (fitting (8 * (c.produced + n)) ws).length ≠ ws.length) :
    (compressStep c new more n).result = .outputFull ∧
      (compressStep c new more n).out = (packBits (fitting (8 * (c.produced + n)) ws).flatten).drop c.produced ∧
      (compressStep c new more n).hold.isSome = true := by
  simp only [compressStep, hopen, Bool.false_or, Bool.false_eq_true, if_false, hws, hbs, if_neg hfit]
  exact ⟨rfl, rfl, rfl⟩

end

theorem wroteAll_final {c : CmpCtx} {new out : Bytes} {blocks : Nat} (hlen : c.format ≠ 3 ∨ (c.input ++ new).length = c.declLen) :
    c.wroteAll (c.input ++ new) out true blocks = { result := .done, out := out, consumed := new.length, hold := none, coded := blocks, fallback := c.fallback.isSome } := by
  have hmatch : (true && c.format == 3 && (c.input ++ new).length != c.declLen) = false := by
    rcases hlen with h | h <;> simp [h]
  simp only [CmpCtx.wroteAll, hmatch, length_append_sub, Bool.false_eq_true, if_false, if_true]

theorem wroteAll_mismatch {c : CmpCtx} {new out : Bytes} {blocks : Nat} (hfmt : c.format = 3) (hlen : (c.input ++ new).length ≠ c.declLen) :
    c.wroteAll (c.input ++ new) out true blocks = { result := .lengthMismatch, out := out, consumed := new.length, hold := none, coded := blocks, fallback := c.fallback.isSome } := by
  have hmatch : (true && c.format == 3 && (c.input ++ new).length != c.declLen) = true := by
    rw [hfmt, bne_iff_ne.mpr hlen]; rfl
  simp only [CmpCtx.wroteAll, hmatch, length_append_sub, if_true]

theorem wroteAll_held {c : CmpCtx} {new out : Bytes} {blocks : Nat} :
    c.wroteAll (c.input ++ new) out false blocks = { result := .done, out := out, consumed := new.length, hold := some { c with input := c.input ++ new, produced := c.produced + out.length, consumed := new.length, coded := blocks }, coded := blocks, fallback := c.fallback.isSome } := by
  simp only [CmpCtx.wroteAll, length_append_sub, Bool.false_and, Bool.false_eq_true, if_false]

/-- The words that fit are the longest lead of the stream within the room (R416). -/
theorem fitting_spec (n : Nat) (ws : Words) : fitting n ws <+: ws ∧ (fitting n ws).flatten.length ≤ n ∧
    ((ws.drop (fitting n ws).length).head?.all (fun w => decide (n < (fitting n ws).flatten.length + w.length)) = true) := by
  induction ws generalizing n with
  | nil => simp [fitting]
  | cons w ws ih =>
    by_cases hfit : w.length ≤ n
    · obtain ⟨hprefix, hroom, hnext⟩ := ih (n - w.length)
      have heq : fitting n (w :: ws) = w :: fitting (n - w.length) ws := if_pos hfit
      rw [heq]
      refine ⟨(List.cons_prefix_cons).mpr ⟨rfl, hprefix⟩, ?_, ?_⟩
      · simp only [List.flatten_cons, List.length_append]; omega
      · simp only [List.length_cons, List.drop_succ_cons, List.flatten_cons, List.length_append]
        simp only [Option.all_eq_true, decide_eq_true_eq] at hnext ⊢
        intro y hy
        have := hnext y hy
        omega
    · have heq : fitting n (w :: ws) = [] := if_neg hfit
      rw [heq]
      simp
      omega

theorem verifyMismatch_stays {s : State} {c : CmpCtx} {n : Nat} (h : c.fallback.isSome = true ∨ n ≤ c.coded) : s.verifyMismatch c n = (s, c) :=
  if_pos h

/-- The block that fails is among those the step codes (R412). -/
theorem verifyMismatch_block {s : State} {c : CmpCtx} {n : Nat} (hnone : c.fallback = none) (hcoded : c.coded < n) :
    ∃ b, (s.verifyMismatch c n).2.fallback = some b ∧ c.coded ≤ b ∧ b < n := by
  have hfails : ¬(c.fallback.isSome = true ∨ n ≤ c.coded) := by simp [hnone, hcoded]
  have hmod : (s.draw 32).1.toNat % (n - c.coded) < n - c.coded := Nat.mod_lt _ (by omega)
  refine ⟨c.coded + (s.draw 32).1.toNat % (n - c.coded), ?_, by omega, by omega⟩
  simp only [State.verifyMismatch, if_neg hfails]

theorem decompressStep_done {c : CmpCtx} {new : Bytes} {more : Bool} {n : Nat}
    (hdone : (decodeStream c.format c.declLen (c.produced + n) (c.input ++ new)).stop = .done) :
    decompressStep c new more n = { result := .done, out := (decodeStream c.format c.declLen (c.produced + n) (c.input ++ new)).out.drop c.produced, consumed := (decodeStream c.format c.declLen (c.produced + n) (c.input ++ new)).used - c.input.length, hold := none } := by
  simp only [decompressStep, hdone]

/-! ### Digest and cipher jobs -/

section
variable {s : State} {id : CmdId} {c : Cmd} {h : TfHeader} {expect input : Bytes}

theorem transformDigest_short (hkey : h.keyed = false) (hlen : tfOutLen c.sqe < digestLen h.alg) :
    s.transformDigest id c h expect input = s.finish id .outputFull := by
  simp only [State.transformDigest, hkey, Bool.false_eq_true, if_false, if_pos hlen]

theorem transformDigest_plain (hkey : h.keyed = false) (hlen : digestLen h.alg ≤ tfOutLen c.sqe) :
    s.transformDigest id c h expect input = (s.hostWrite c.func (tfOut c.sqe) (digestOf h.alg input)).finish id .success
      (BitVec.ofNat 32 input.length) (tfDw1 (digestLen h.alg) none false 0) := by
  simp only [State.transformDigest, hkey, Bool.false_eq_true, if_false, if_neg (Nat.not_lt.mpr hlen)]

theorem transformDigest_keyed (hkey : h.keyed = true) {k : Option Bytes}
    (hk : s.dgeKey .feeder (4 + h.slot * 32 + c.func * 2 ^ 32 + c.epoch.toNat * 2 ^ 48) = k) :
    s.transformDigest id c h expect input = s.tfCompare id h expect input k := by
  rw [State.transformDigest, if_pos hkey, hk]

theorem tfCompare_equal {k : Bytes} (heq : (padTo 64 (hmacOf h.alg k input)).take h.expectLen = expect.take h.expectLen) :
    s.tfCompare id h expect input (some k) = s.finish id .success (BitVec.ofNat 32 input.length) (tfDw1 0 none false 1) := by
  simp only [State.tfCompare, heq, beq_self_eq_true, if_true]

theorem tfCompare_different {k : Bytes} (hne : (padTo 64 (hmacOf h.alg k input)).take h.expectLen ≠ expect.take h.expectLen) :
    s.tfCompare id h expect input (some k) = s.finish id .success (BitVec.ofNat 32 input.length) (tfDw1 0 none false 2) := by
  simp only [State.tfCompare, beq_eq_false_iff_ne.mpr hne, Bool.false_eq_true, if_false]

theorem transformCipher_short (hlen : tfOutLen c.sqe < tfCipherOut h) : s.transformCipher id c h input = s.finish id .outputFull := if_pos hlen

theorem transformCipher_keyed {e : CpeEntry} {k : Except Nat Key} (hlen : tfCipherOut h ≤ tfOutLen c.sqe) (he : tfEntry c h = e)
    (hk : s.cpeKey e = k) : s.transformCipher id c h input = s.cipherWith id c h input e k := by
  subst he hk
  exact if_neg (Nat.not_lt.mpr hlen)

end

/-- The lowest bits of an entry are MODE and DECRYPT, whatever stands above them (R362). -/
theorem entry_low {n m y : Nat} {b : Bool} (hm : m < 8) (hn : n = m + flag b * 8 + 32 * y) :
    ceMode (BitVec.ofNat 512 n).toNat = m ∧ ceDecrypt (BitVec.ofNat 512 n).toNat = b := by
  rw [BitVec.toNat_ofNat]
  constructor
  · rw [ceMode, field, Nat.pow_zero, Nat.div_one, Nat.mod_mod_of_dvd n (Nat.pow_dvd_pow 2 (by decide : 2 + 1 - 0 ≤ 512))]
    omega
  · rw [ceDecrypt, bit, Nat.testBit_mod_two_pow, decide_eq_true (by decide : 3 < 512), Bool.true_and, Nat.testBit_eq_decide_div_mod_eq]
    cases b <;> simp only [flag, Bool.false_eq_true, if_false, if_true] at hn <;> simp only [decide_eq_true_eq, decide_eq_false_iff_not] <;> omega

/-- The entry of a job has the job's mode and direction (R362, R420). -/
theorem tfEntry_mode (c : Cmd) (h : TfHeader) :
    ceMode (tfEntry c h).entry.toNat = h.mode ∧ ceDecrypt (tfEntry c h).entry.toNat = (h.op == 4) := by
  refine entry_low (y := flag ((h.op == 4) && h.mode == 1 && decide (262144 < h.inLen - h.aad)) * 3 + h.slot * 2 ^ 7 + c.func * 2 ^ 19 + c.gen.toNat * 2 ^ 27 +
    field h.n 156 153 * 2 ^ 35 + field h.n 160 157 * 2 ^ 39 + c.epoch.toNat * 2 ^ 43 + h.inLen * 2 ^ 59 + h.aad * 2 ^ 91 + h.tagLen * 2 ^ 107 +
    field h.n 319 192 * 2 ^ 187 + field h.n 447 320 * 2 ^ 315) (Nat.mod_lt _ (by decide)) ?_
  rw [show 2 ^ 320 = 2 ^ 315 * 32 from Nat.pow_add 2 315 5]
  generalize 2 ^ 315 = p
  simp only [← Nat.mul_assoc]
  omega

/-! ### The end of a cipher job -/

section
variable {s : State} {id : CmdId} {c : Cmd} {h : TfHeader} {input out tag : Bytes} {e : CpeEntry} {k : Key}

theorem cipherWith_exhausted : s.cipherWith id c h input e (.error 0x02) = s.finish id .nonceExhausted := rfl

theorem cipherWith_noKey : s.cipherWith id c h input e (.error 0x01) = s.finish id .keySlotInvalid := rfl

/-- A job that does not hold its output writes it (R420). -/
theorem cipherWith_writes {nonce : Bytes} {t : State} (hholds : ceHolds e.entry.toNat = false) (hn : (s.bindNonce e k).1 = nonce)
    (ht : (s.bindNonce e k).2 = t) (hrun : ({ e with key := k.bytes, nonce := nonce } : CpeEntry).run input = (out, tag)) :
    s.cipherWith id c h input e (.ok k) = t.cipherEnd id c h input.length nonce (out, tag) false (ceReleases e.entry.toNat) := by
  subst hn ht
  simp only [State.cipherWith, hrun, hholds, Bool.false_and]

theorem cipherEnd_plain {s : State} {inLen : Nat} {nonce : Bytes} {early : Bool} (hmode : ¬(h.mode = 1 ∧ h.op = 3)) :
    s.cipherEnd id c h inLen nonce (out, tag) false early = (s.hostWrite c.func (tfOut c.sqe) out).finish id .success (BitVec.ofNat 32 inLen)
      (tfDw1 out.length none false 0) := by
  simp only [State.cipherEnd, Bool.false_eq_true, if_false, if_neg hmode]

theorem cipherEnd_sealed {s : State} {inLen : Nat} {nonce : Bytes} {early : Bool} (hmode : h.mode = 1 ∧ h.op = 3) :
    s.cipherEnd id c h inLen nonce (out, tag) false early = (s.hostWrite c.func (tfOut c.sqe) (out ++ nonce ++ tag.take h.tagLen)).finish id .success
      (BitVec.ofNat 32 inLen) (tfDw1 (out ++ nonce ++ tag.take h.tagLen).length none false 0) := by
  simp only [State.cipherEnd, Bool.false_eq_true, if_false, if_pos hmode]

/-- Only GCM binds a nonce of its own (R373). -/
theorem bindNonce_entryIv (hmode : ceMode e.entry.toNat ≠ 1) : s.bindNonce e k = (leBytes 16 (ceIv e.entry.toNat), s) := by
  simp only [State.bindNonce, hmode, false_and, if_false]

theorem bindNonce_decrypt (hmode : ceMode e.entry.toNat = 1) (hdec : ceDecrypt e.entry.toNat = true) :
    s.bindNonce e k = (leBytes 12 (ceIv e.entry.toNat), s) := by
  simp only [State.bindNonce, hmode, hdec, Bool.not_true, Bool.false_eq_true, and_false, if_false, if_true]

theorem cipherWith_unauthenticated (hholds : ceHolds e.entry.toNat = true) (hdec : s.bindNonce e k = (leBytes 12 (ceIv e.entry.toNat), s))
    (hrun : ({ e with key := k.bytes, nonce := leBytes 12 (ceIv e.entry.toNat) } : CpeEntry).run input = (out, tag))
    (htag : tag.take (ceTagLen e.entry.toNat) ≠ leBytes (ceTagLen e.entry.toNat) (ceTag e.entry.toNat)) :
    s.cipherWith id c h input e (.ok k) = s.cipherEnd id c h input.length (leBytes 12 (ceIv e.entry.toNat)) (out, tag) true
      (ceReleases e.entry.toNat) := by
  simp only [State.cipherWith, hdec, hrun, hholds, bne_iff_ne.mpr htag, Bool.and_self]

end

/-- Only a GCM decryption holds its output (R370). -/
theorem tfEntry_writes {c : Cmd} {h : TfHeader} {e : CpeEntry} (he : tfEntry c h = e) (hkind : h.mode ≠ 1 ∨ (h.op == 4) = false) :
    ceHolds e.entry.toNat = false := by
  obtain ⟨hmode, hdec⟩ := he ▸ tfEntry_mode c h
  rw [ceHolds, hmode, hdec]
  rcases hkind with hm | hd
  · rw [beq_eq_false_iff_ne.mpr hm, Bool.false_and]
  · rw [hd, Bool.and_false]

theorem cipherWith_unsealed {s : State} {id : CmdId} {c : Cmd} {h : TfHeader} {input out tag : Bytes} {e : CpeEntry} {k : Key}
    (he : tfEntry c h = e) (hmode : h.mode ≠ 1)
    (hrun : ({ e with key := k.bytes, nonce := leBytes 16 (ceIv e.entry.toNat) } : CpeEntry).run input = (out, tag)) :
    s.cipherWith id c h input e (.ok k) = (s.hostWrite c.func (tfOut c.sqe) out).finish id .success (BitVec.ofNat 32 input.length)
      (tfDw1 out.length none false 0) := by
  have hm : ceMode e.entry.toNat = h.mode := he ▸ (tfEntry_mode c h).1
  have hbind : s.bindNonce e k = _ := bindNonce_entryIv (hm ▸ hmode)
  exact (cipherWith_writes (tfEntry_writes he (.inl hmode)) (congrArg Prod.fst hbind) (congrArg Prod.snd hbind) hrun).trans
    (cipherEnd_plain fun hsealed => hmode hsealed.1)

/-- A limited record leaves the host interface. -/
theorem raiseLimited_hif (s : State) (k : Ev) (f comp : Nat) (items : List (Nat × Nat)) : (s.raiseLimited k f comp items).hif = s.hif := by
  unfold State.raiseLimited
  dsimp only
  split <;> rfl

/-- The end of a command leaves the messages to the host. -/
theorem finish_toHost (s : State) (id : CmdId) (st : Status) (x y : BitVec 32) : (s.finish id st x y).hif.toHost = s.hif.toHost := by
  unfold State.finish State.noteFinished State.updCmd
  (repeat' split) <;> rfl

/-- A command in flight without a result has the one that it is finished with. -/
theorem finish_result_of_cmd {s : State} {id : CmdId} {c : Cmd} (hcmd : s.cmd id = some c) (hres : c.result = none) (st : Status)
    (x y : BitVec 32) : (s.finish id st x y).ResultIs id ⟨st, x, y⟩ := by
  unfold State.ResultIs State.finish
  simp [cmd_updCmd, hcmd, hres]

/-- A held decryption whose tag differs ends without output (R370, R371). -/
theorem cipherEnd_retracted {s : State} {id : CmdId} {c c' : Cmd} {h : TfHeader} {inLen : Nat} {nonce : Bytes} {r : Bytes × Bytes}
    (hcmd : s.cmd id = some c') (hres : c'.result = none) :
    (s.cipherEnd id c h inLen nonce r true false).ResultIs id { status := .authFailRetracted, dw0 := BitVec.ofNat 32 inLen } ∧
      (s.cipherEnd id c h inLen nonce r true false).hif.toHost = s.hif.toHost := by
  have hif : ((s.draw 3).2.raiseLimited evAuthTagFail c.func (0x0A00 + (s.draw 3).1.toNat) [(1, c.func), (2, h.slot), (1, 1)]).hif = s.hif :=
    raiseLimited_hif _ _ _ _ _
  simp only [State.cipherEnd, Bool.false_eq_true, if_false, if_true]
  constructor
  · exact finish_result_of_cmd ((congrArg (fun x : Hif => Mem.get none x.cmds id) hif).trans hcmd) hres _ _ _
  · rw [finish_toHost, hif]

/-- Settles O57. -/
theorem transformsRunAndAnswer : Obligations.TransformsRunAndAnswer := by
  unfold Obligations.TransformsRunAndAnswer
  refine ⟨?_, ?_, ?_, ?_, ?_, ?_, ?_, ?_, ?_, ?_, ?_, ?_, ?_, ?_, ?_, ?_, ?_, ?_, ?_, ?_, ?_, ?_, ?_, ?_, ?_, ?_, ?_, ?_, ?_, ?_, ?_, ?_, ?_, ?_, ?_, ?_, ?_, ?_, ?_, ?_, ?_, ?_, ?_, ?_, ?_, ?_, ?_, ?_, ?_, ?_, ?_, ?_, ?_, ?_⟩
  · intro s id d v c h hlive hh hop hns
    exact congrArg Host.Outcome.next (transform_wrongNsid hlive hh (contains_op hop _ rfl) hns)
  · intro s id d v c h hlive hh hop hns hok
    exact congrArg Host.Outcome.next (transform_badField hlive hh (contains_op hop _ rfl) hns hok)
  · intro s id d c h hlive hh hop hns
    exact congrArg Host.Outcome.next (transform_wrongNsid hlive hh (contains_op hop _ rfl) hns)
  · intro s id d c h hlive hh hop hns hok
    exact congrArg Host.Outcome.next (transform_badField hlive hh (contains_op hop _ rfl) hns hok)
  · intro s id d c h hlive hh hop hns
    exact congrArg Host.Outcome.next (transform_wrongNsid hlive hh (contains_op hop _ rfl) hns)
  · intro s id d c h hlive hh hop hns hok
    exact congrArg Host.Outcome.next (transform_badField hlive hh (contains_op hop _ rfl) hns hok)
  · intro s id d c h hlive hh hop hns
    exact congrArg Host.Outcome.next (transform_wrongNsid hlive hh (contains_op hop _ rfl) hns)
  · intro s id d c h hlive hh hop hns hok
    exact congrArg Host.Outcome.next (transform_badField hlive hh (contains_op hop _ rfl) hns hok)
  · intro s id d c h hlive hh hop hns
    exact congrArg Host.Outcome.next (transform_wrongNsid hlive hh (contains_op hop _ rfl) hns)
  · intro s id d c h hlive hh hop hns hok
    exact congrArg Host.Outcome.next (transform_badField hlive hh (contains_op hop _ rfl) hns hok)
  · intro s id d v c h hlive hh hop hns
    exact congrArg Host.Outcome.next (transform_badField hlive hh (contains_reserved hop) hns (tfOk_reserved hop))
  · intro s id d v c h hlive hh hop hns hok hlen hcont hnone
    exact congrArg Host.Outcome.next ((transform_body hlive hh (contains_op hop _ rfl) hns hok hlen).trans (transformCmp_noHeld hcont hnone))
  · intro s id d v c h x hlive hh hop hns hok hlen hcont hheld hforeign
    exact congrArg Host.Outcome.next ((transform_body hlive hh (contains_op hop _ rfl) hns hok hlen).trans (transformCmp_foreign hcont hheld hforeign))
  · intro s id d v c h hlive hh hop hns hok hlen hcont hfree
    exact congrArg Host.Outcome.next ((transform_body hlive hh (contains_op hop _ rfl) hns hok hlen).trans (transformCmp_waits hcont hfree))
  · intro s id d v c h x t r hlive hh hop hns hok hlen hcont hheld hfunc hscull hxop ht hr
    refine congrArg Host.Outcome.next ((transform_body hlive hh (contains_op hop _ rfl) hns hok hlen).trans ?_)
    exact (transformCmp_resumes hcont hheld hfunc hscull hxop).trans (cmpJob_whole (hcont ▸ ht) (hcont ▸ hr))
  · intro s id d v c h i t r hlive hh hop hns hok hlen hcont hfree ht hr
    refine congrArg Host.Outcome.next ((transform_body hlive hh (contains_op hop _ rfl) hns hok hlen).trans ?_)
    exact (transformCmp_starts hcont hfree).trans (cmpJob_whole (hcont ▸ ht) (hcont ▸ hr))
  · intro s id d c h hlive hh hop hns hok hlen hcont hnone
    exact congrArg Host.Outcome.next ((transform_body hlive hh (contains_op hop _ rfl) hns hok hlen).trans (transformCmp_noHeld hcont hnone))
  · intro s id d c h x hlive hh hop hns hok hlen hcont hheld hforeign
    exact congrArg Host.Outcome.next ((transform_body hlive hh (contains_op hop _ rfl) hns hok hlen).trans (transformCmp_foreign hcont hheld hforeign))
  · intro s id d c h hlive hh hop hns hok hlen hcont hfree
    exact congrArg Host.Outcome.next ((transform_body hlive hh (contains_op hop _ rfl) hns hok hlen).trans (transformCmp_waits hcont hfree))
  · intro s id d c h x t r hlive hh hop hns hok hlen hcont hheld hfunc hscull hxop ht hr
    refine congrArg Host.Outcome.next ((transform_body hlive hh (contains_op hop _ rfl) hns hok hlen).trans ?_)
    exact (transformCmp_resumes hcont hheld hfunc hscull hxop).trans (cmpJob_whole (hcont ▸ ht) (hcont ▸ hr))
  · intro s id d c h i t r hlive hh hop hns hok hlen hcont hfree ht hr
    refine congrArg Host.Outcome.next ((transform_body hlive hh (contains_op hop _ rfl) hns hok hlen).trans ?_)
    exact (transformCmp_starts hcont hfree).trans (cmpJob_whole (hcont ▸ ht) (hcont ▸ hr))
  · intro s id c h i r hkeep
    exact cmpFinish_kept hkeep
  · intro s id c h i k r hfail hretract
    exact cmpFinish_retracted hfail hretract
  · intro c new more n ws bs hopen hws hbs hfinal hfit hlen
    rw [compressStep_wroteAll hopen hws hbs (congrArg List.length hfit), hfinal]
    exact wroteAll_final hlen
  · intro c new more n ws bs hopen hws hbs hfinal hfit hfmt hlen
    rw [compressStep_wroteAll hopen hws hbs (congrArg List.length hfit), hfinal]
    exact wroteAll_mismatch hfmt hlen
  · intro c new more n ws bs hopen hws hbs hmore hfit
    rw [compressStep_wroteAll hopen hws hbs (congrArg List.length hfit), hmore]
    exact wroteAll_held
  · intro c new more n ws bs hopen hws hbs hfit
    exact compressStep_filled hopen hws hbs hfit
  · exact fitting_spec
  · intro s c n h
    exact verifyMismatch_stays h
  · intro s c n hnone hcoded
    exact verifyMismatch_block hnone hcoded
  · intro c new more n hdone
    exact decompressStep_done hdone
  · intro s id d c h hlive hh hop hns hok hlen hkey hout
    exact congrArg Host.Outcome.next ((transform_body hlive hh (contains_op hop _ rfl) hns hok hlen).trans (transformDigest_short hkey hout))
  · intro s id d c h hlive hh hop hns hok hlen hkey hout
    exact congrArg Host.Outcome.next ((transform_body hlive hh (contains_op hop _ rfl) hns hok hlen).trans (transformDigest_plain hkey hout))
  · intro s id d c h hlive hh hop hns hok hlen hkey hnone
    exact congrArg Host.Outcome.next ((transform_body hlive hh (contains_op hop _ rfl) hns hok hlen).trans (transformDigest_keyed hkey hnone))
  · intro s id d c h k hlive hh hop hns hok hlen hkey hk hequal
    refine congrArg Host.Outcome.next ((transform_body hlive hh (contains_op hop _ rfl) hns hok hlen).trans ?_)
    exact (transformDigest_keyed hkey hk).trans (tfCompare_equal hequal)
  · intro s id d c h k hlive hh hop hns hok hlen hkey hk hdiff
    refine congrArg Host.Outcome.next ((transform_body hlive hh (contains_op hop _ rfl) hns hok hlen).trans ?_)
    exact (transformDigest_keyed hkey hk).trans (tfCompare_different hdiff)
  · intro s id d c h hlive hh hop hns hok hlen hout
    exact congrArg Host.Outcome.next ((transform_body hlive hh (contains_op hop _ rfl) hns hok hlen).trans (transformCipher_short hout))
  · intro s id d c h e hlive hh hop hns hok hlen hout he hk
    refine congrArg Host.Outcome.next ((transform_body hlive hh (contains_op hop _ rfl) hns hok hlen).trans ?_)
    exact (transformCipher_keyed hout he hk).trans cipherWith_exhausted
  · intro s id d c h e hlive hh hop hns hok hlen hout he hk
    refine congrArg Host.Outcome.next ((transform_body hlive hh (contains_op hop _ rfl) hns hok hlen).trans ?_)
    exact (transformCipher_keyed hout he hk).trans cipherWith_noKey
  · intro s id d c h e k out tag hlive hh hop hns hok hlen hout he hk hmode hrun
    refine congrArg Host.Outcome.next ((transform_body hlive hh (contains_op hop _ rfl) hns hok hlen).trans ?_)
    exact (transformCipher_keyed hout he hk).trans (cipherWith_unsealed he hmode hrun)
  · intro s id d c h hlive hh hop hns hok hlen hout
    exact congrArg Host.Outcome.next ((transform_body hlive hh (contains_op hop _ rfl) hns hok hlen).trans (transformCipher_short hout))
  · intro s id d c h e hlive hh hop hns hok hlen hout he hk
    refine congrArg Host.Outcome.next ((transform_body hlive hh (contains_op hop _ rfl) hns hok hlen).trans ?_)
    exact (transformCipher_keyed hout he hk).trans cipherWith_exhausted
  · intro s id d c h e hlive hh hop hns hok hlen hout he hk
    refine congrArg Host.Outcome.next ((transform_body hlive hh (contains_op hop _ rfl) hns hok hlen).trans ?_)
    exact (transformCipher_keyed hout he hk).trans cipherWith_noKey
  · intro s id d c h e k out tag hlive hh hop hns hok hlen hout he hk hmode hrun
    refine congrArg Host.Outcome.next ((transform_body hlive hh (contains_op hop _ rfl) hns hok hlen).trans ?_)
    exact (transformCipher_keyed hout he hk).trans (cipherWith_unsealed he hmode hrun)
  · intro s id d c h e k nonce out tag t hlive hh hop hns hok hlen hout he hmode hk hn ht hrun
    refine congrArg Host.Outcome.next ((transform_body hlive hh (contains_op hop _ rfl) hns hok hlen).trans ?_)
    have hdec : (h.op == 4) = false := by rw [hop]; rfl
    exact (transformCipher_keyed hout he hk).trans ((cipherWith_writes (tfEntry_writes he (.inr hdec)) hn ht hrun).trans (cipherEnd_sealed ⟨hmode, hop⟩))
  · intro s id d c h e k out tag hlive hh hop hns hok hlen hout he hmode hearly hk hrun htag
    obtain ⟨hcmd, hres⟩ := live_cmd hlive
    obtain ⟨hm, hd⟩ := he ▸ tfEntry_mode c h
    have hdec : ceDecrypt e.entry.toNat = true := by rw [hd, hop]; rfl
    have hholds : ceHolds e.entry.toNat = true := by rw [ceHolds, hm, hmode, hdec]; rfl
    refine ⟨_, congrArg Host.Outcome.next ((transform_body hlive hh (contains_op hop _ rfl) hns hok hlen).trans ((transformCipher_keyed hout he hk).trans
      (cipherWith_unauthenticated hholds (bindNonce_decrypt (hm.trans hmode) hdec) hrun htag))), ?_⟩
    rw [hearly]
    exact cipherEnd_retracted hcmd hres
  · intro s i hnone
    simp only [exec, execCmpContextExpired, hnone]
  · intro s i x hheld hmay
    simp only [exec, execCmpContextExpired, hheld, hmay, Bool.false_eq_true, if_false]
  · intro s i x hheld hmay
    simp only [exec, execCmpContextExpired, hheld, hmay, if_true]
  · intro s id d b c h hlive hh hop hns hok hlen hb
    refine congrArg Host.Outcome.next ((transform_body hlive hh (contains_op hop _ rfl) hns hok hlen).trans ?_)
    rw [faultOf_some hb]; rfl
  · intro s id d b c h hlive hh hop hns hok hlen hb
    refine congrArg Host.Outcome.next ((transform_body hlive hh (contains_op hop _ rfl) hns hok hlen).trans ?_)
    rw [faultOf_some hb]; rfl
  · intro s id d b c h hlive hh hop hns hok hlen hb
    refine congrArg Host.Outcome.next ((transform_body hlive hh (contains_op hop _ rfl) hns hok hlen).trans ?_)
    rw [faultOf_some hb]; rfl
  · intro s id d v b c h x hlive hh hop hns hok hlen hcont hheld hfunc hscull hxop hb
    refine congrArg Host.Outcome.next ((transform_body hlive hh (contains_op hop _ rfl) hns hok hlen).trans ?_)
    rw [faultOf_some hb]
    exact transformCmp_resumes hcont hheld hfunc hscull hxop
  · intro s id d b c h x r hlive hh hop hns hok hlen hcont hheld hfunc hscull hxop hb hbad
    refine congrArg Host.Outcome.next ((transform_body hlive hh (contains_op hop _ rfl) hns hok hlen).trans ?_)
    rw [faultOf_some hb]
    exact (transformCmp_resumes hcont hheld hfunc hscull hxop).trans (cmpJob_cut hbad)

end Sys2Proof.Machine
end

section
/-! PROOFS. What the work on maps and flash, the end of every command, and the programs of a drain leave as they are (R530). -/

open Sys2Proof

namespace Sys2Proof.Machine

/-- `t` is `s` after work on the maps, the objects and the flash: the power state, the recorder, DRAM and the host interface stay. -/
def State.Stored (s t : State) : Prop :=
  ∃ n fl ob fn as, t = { s with nss := n, flash := fl, objs := ob, fns := fn, asu := as }

theorem State.Stored.refl (s : State) : s.Stored s := ⟨_, _, _, _, _, rfl⟩

theorem State.Stored.trans {s t u : State} (h : s.Stored t) (h' : t.Stored u) : s.Stored u := by
  obtain ⟨_, _, _, _, _, rfl⟩ := h
  obtain ⟨_, _, _, _, _, rfl⟩ := h'
  exact ⟨_, _, _, _, _, rfl⟩

theorem State.Stored.foldl {α : Type} {f : State → α → State} (hf : ∀ (s : State) a, s.Stored (f s a)) (l : List α) (s : State) :
    s.Stored (l.foldl f s) := by
  induction l generalizing s with
  | nil => exact .refl s
  | cons a l ih => exact (hf s a).trans (ih _)

theorem State.Paged.stored {s t : State} (h : s.Paged t) : s.Stored t := by
  obtain ⟨_, _, _, _, _, _, _, rfl⟩ := h
  exact ⟨_, _, _, _, _, rfl⟩

variable {s t : State}

theorem stored_updFn (f : Nat) (g : Fn → Fn) : s.Stored (s.updFn f g) := ⟨_, _, _, _, _, rfl⟩

theorem stored_setChunk (c : Nat) (x : Option Chunk) : s.Stored (s.setChunk c x) := ⟨_, _, _, _, _, rfl⟩

theorem stored_putEntry (k : Nat) (e : MapEntry) : s.Stored (s.putEntry k e) := by
  unfold State.putEntry
  split
  · split
    · exact stored_setChunk _ _
    · exact .refl s
  · exact ⟨_, _, _, _, _, rfl⟩

theorem stored_setEntry (k : Nat) (e : MapEntry) : s.Stored (s.setEntry k e) :=
  (stored_putEntry k e).trans (paged_journalRecord _ _).stored

theorem stored_freeSlotAt (slot : Nat) : s.Stored (s.freeSlotAt slot) := ⟨_, _, _, _, _, rfl⟩

theorem stored_dropBuffer (k : Nat) : s.Stored (s.dropBuffer k) := by
  unfold State.dropBuffer
  dsimp only
  split
  · exact .foldl (fun _ _ => stored_freeSlotAt _) _ _
  · exact .refl s

theorem stored_unmap (k : Nat) : s.Stored (s.unmap k) := by
  unfold State.unmap
  split
  · exact .refl s
  · exact (stored_dropBuffer k).trans (stored_setEntry _ _)

theorem stored_loseUnit (k : Nat) : s.Stored (s.loseUnit k) :=
  State.Stored.trans ⟨_, _, _, _, _, rfl⟩ (stored_setEntry _ _)

theorem stored_dropCopy (e : Nat) : s.Stored (s.dropCopy e) := by
  refine State.Stored.trans (t := { s with flash := { s.flash with hot := Mem.set none s.flash.hot e none } }) ⟨_, _, _, _, _, rfl⟩ ?_
  unfold State.dropCopy
  dsimp only
  split
  · exact stored_putEntry _ _
  · exact .refl _

theorem stored_dropChive (p : Chive → Bool) : s.Stored (s.dropChive p) := ⟨_, _, _, _, _, rfl⟩

theorem stored_freeChunk (c : Nat) : s.Stored (s.freeChunk c) := by
  unfold State.freeChunk
  split
  · exact .refl s
  · have hcopies : s.Stored ((List.range 4).foldl (fun s e => (s.unmap (chunkKey c (64 * e))).dropCopy (4 * c + e)) s) :=
      .foldl (fun _ _ => (stored_unmap _).trans (stored_dropCopy _)) _ _
    exact ((hcopies.trans (stored_dropChive _)).trans (stored_setChunk _ _)).trans (stored_updFn _ _)

theorem stored_dropRef (c : Nat) : s.Stored (s.dropRef c) := by
  unfold State.dropRef
  split
  · exact .refl s
  · split
    · exact .refl s
    · split
      · exact stored_freeChunk c
      · exact stored_setChunk _ _

theorem stored_cutChunk (c n : Nat) : s.Stored (s.cutChunk c n) := by
  unfold State.cutChunk
  split
  · exact .refl s
  · dsimp only
    have hcut : s.Stored (((List.range 4).filter (fun e => decide (n ≤ 262144 * e))).foldl (fun s e => s.unmap (chunkKey c (64 * e))) s) :=
      .foldl (fun _ _ => stored_unmap _) _ _
    split
    · exact hcut
    · exact (hcut.trans (stored_setChunk _ _)).trans (stored_updFn _ _)

theorem stored_updObj (nsid oid : Nat) (g : Obj → Obj) : s.Stored (s.updObj nsid oid g) := ⟨_, _, _, _, _, rfl⟩

theorem stored_journalMap (i : Nat) (old new : List (Nat × BitVec 16)) : s.Stored (s.journalMap i old new) :=
  .foldl (fun _ _ => (paged_journalRecord _ _).stored) _ _

theorem stored_mapObject (nsid oid : Nat) : s.Stored (s.mapObject nsid oid) := by
  unfold State.mapObject
  split
  · exact .refl s
  · exact (stored_updObj _ _ _).trans (stored_journalMap _ _ _)

/-- An append that has not completed is taken back from its object's chunks (R41). -/
theorem stored_undoAppend (c : Cmd) : s.Stored (s.undoAppend c) := by
  unfold State.undoAppend
  dsimp only
  split
  next len o _ _ =>
    have hrefs : s.Stored ((o.chunks.drop (ceilDiv len 1048576)).foldl (fun s r => s.dropRef r.chunk) s) :=
      .foldl (fun _ _ => stored_dropRef _) _ _
    generalize ((o.chunks.drop (ceilDiv len 1048576)).foldl (fun s r => s.dropRef r.chunk) s) = s1 at hrefs
    have hcut : s.Stored (if len % 1048576 = 0 then s1
        else match o.chunks[ceilDiv len 1048576 - 1]? with | some r => s1.cutChunk r.chunk (len % 1048576) | none => s1) := by
      split
      · exact hrefs
      · split
        · exact hrefs.trans (stored_cutChunk _ _)
        · exact hrefs
    generalize (if len % 1048576 = 0 then s1
        else match o.chunks[ceilDiv len 1048576 - 1]? with | some r => s1.cutChunk r.chunk (len % 1048576) | none => s1) = s2 at hcut
    have hobject := (hcut.trans (stored_updObj (sqeNsid c.sqe) (sqeOid c.sqe) (fun o => { o with length := len, tailClosed := false, chunks := o.chunks.take (ceilDiv len 1048576) }))).trans
      (stored_mapObject (sqeNsid c.sqe) (sqeOid c.sqe))
    split
    · exact hobject
    · exact hobject.trans ⟨_, _, _, _, _, rfl⟩
  · exact .refl s

theorem stored_startProgram (u : SbUse) (p : Nat) (es : List ProgEntry) (allow : Nat → Bool) : s.Stored (s.startProgram u p es allow) := by
  unfold State.startProgram
  dsimp only
  split
  · exact .refl s
  · split
    · exact .refl s
    next hplace => exact (paged_place hplace).stored.trans ((paged_fillSb _ _).stored.trans ⟨_, _, _, _, _, rfl⟩)

theorem stored_sendEntries (ps : List ProgEntry) : s.Stored (s.sendEntries ps) :=
  State.Stored.trans (.foldl (fun _ _ => stored_startProgram _ _ _ _) _ _) (.foldl (fun _ _ => stored_startProgram _ _ _ _) _ _)

theorem stored_keepUnhashed : s.Stored s.keepUnhashed := ⟨_, _, _, _, _, rfl⟩

/-! ### The end of every command -/

/-- `t` has the power state, the recorder and the DRAM of `s`. -/
def State.Undone (s t : State) : Prop := t.psm = s.psm ∧ t.recd = s.recd ∧ t.dram = s.dram

theorem State.Undone.trans {s t u : State} (h : s.Undone t) (h' : t.Undone u) : s.Undone u := by
  obtain ⟨hpsm, hrecd, hdram⟩ := h
  obtain ⟨hpsm', hrecd', hdram'⟩ := h'
  exact ⟨hpsm'.trans hpsm, hrecd'.trans hrecd, hdram'.trans hdram⟩

theorem State.Undone.foldl {α : Type} {f : State → α → State} (hf : ∀ (s : State) a, s.Undone (f s a)) (l : List α) (s : State) :
    s.Undone (l.foldl f s) := by
  induction l generalizing s with
  | nil => exact ⟨rfl, rfl, rfl⟩
  | cons a l ih => exact (hf s a).trans (ih _)

theorem State.Stored.undone (h : s.Stored t) : s.Undone t := by
  obtain ⟨_, _, _, _, _, rfl⟩ := h
  exact ⟨rfl, rfl, rfl⟩

theorem undone_dropCommand (id : CmdId) (c : Cmd) : s.Undone (s.dropCommand id c) :=
  (stored_undoAppend c).undone.trans ⟨rfl, rfl, rfl⟩

theorem undone_abandonAll : s.Undone s.abandonAll := by
  have hcmds : s.Undone (s.inflight.foldl (fun s e => s.dropCommand e.1 e.2) s) := .foldl (fun _ _ => undone_dropCommand _ _) _ _
  have happends := hcmds.trans (.foldl (fun _ c => (stored_undoAppend c).undone) (s.inflight.foldl (fun s e => s.dropCommand e.1 e.2) s).objs.undone _)
  exact happends.trans ⟨rfl, rfl, rfl⟩

theorem undone_dropHeld (p : HeldUnit → Bool) : s.Undone (s.dropHeld p) := by
  refine State.Undone.trans (t := (s.swl.heldUnits.filter p).foldl State.freeHeld s) (.foldl (fun _ h => ?_) _ _) ⟨rfl, rfl, rfl⟩
  unfold State.freeHeld
  split
  · exact (stored_freeSlotAt _).undone
  · exact ⟨rfl, rfl, rfl⟩

/-! ### The programs of a drain -/

/-- `t` keeps the mode, the warning, the pins, the POR_N and the thermal shutdown of `s`, and its commands and DRAM; records may be
added. -/
def State.Draining (s t : State) : Prop :=
  t.psm.mode = s.psm.mode ∧ t.psm.warning = s.psm.warning ∧ t.psm.pins = s.psm.pins ∧ t.psm.por = s.psm.por ∧
    t.psm.thermalHold = s.psm.thermalHold ∧ t.hif.cmds = s.hif.cmds ∧ t.dram = s.dram

theorem State.Draining.trans {s t u : State} (h : s.Draining t) (h' : t.Draining u) : s.Draining u := by
  obtain ⟨hmode, hwarn, hpins, hpor, hhold, hcmds, hdram⟩ := h
  obtain ⟨hmode', hwarn', hpins', hpor', hhold', hcmds', hdram'⟩ := h'
  exact ⟨hmode'.trans hmode, hwarn'.trans hwarn, hpins'.trans hpins, hpor'.trans hpor, hhold'.trans hhold, hcmds'.trans hcmds, hdram'.trans hdram⟩

theorem State.Draining.refl (s : State) : s.Draining s := ⟨rfl, rfl, rfl, rfl, rfl, rfl, rfl⟩

theorem State.Stored.draining (h : s.Stored t) : s.Draining t := by
  obtain ⟨_, _, _, _, _, rfl⟩ := h
  exact .refl s

theorem draining_raise (k : Ev) (f : Nat) (items : List (Nat × Nat)) : s.Draining (s.raise k f items) := ⟨rfl, rfl, rfl, rfl, rfl, rfl, rfl⟩

theorem draining_enterSafeHalt (hmode : s.psm.mode = .drain) (code comp seq : Nat) (drain : Bool) :
    s.Draining (s.enterSafeHalt code comp seq drain) := by
  rw [enterSafeHalt_of_not_entersHalt (by rw [hmode]; rfl)]
  exact .refl s

theorem draining_withdraw (hmode : s.psm.mode = .drain) (i : Instance) (code seq : Nat) : s.Draining (s.withdraw i code seq) := by
  unfold State.withdraw
  extract_lets h p r
  have hlisted : s.Draining r := ⟨rfl, rfl, rfl, rfl, rfl, rfl, rfl⟩
  split
  · exact hlisted.trans (draining_enterSafeHalt (s := r) hmode _ _ _ _)
  · exact hlisted

theorem draining_detect (hmode : s.psm.mode = .drain) (comp code seq : Nat) : s.Draining (s.detect comp code seq) := by
  unfold State.detect
  extract_lets h recent p r
  have hlisted : s.Draining r := ⟨rfl, rfl, rfl, rfl, rfl, rfl, rfl⟩
  split
  · exact hlisted
  · split
    · exact hlisted.trans (draining_withdraw (s := r) hmode _ _ _)
    · exact hlisted.trans (draining_enterSafeHalt (s := r) hmode _ _ _ _)

/-- A unit of the buffer that cannot be programmed is recorded and lost (R14, R27). -/
theorem draining_spoiled (hmode : s.psm.mode = .drain) (k : Nat) (b : Buffered) : s.Draining (s.spoiled k b) := by
  unfold State.spoiled
  dsimp only
  refine State.Draining.trans ?_ ((stored_dropBuffer k).trans (stored_loseUnit k)).draining
  split
  · exact State.Draining.trans (draining_raise _ _ _) (draining_detect (s := s.raise _ _ _) hmode _ _ _)
  · exact State.Draining.trans (draining_raise _ _ _) (draining_detect (s := s.raise _ _ _) hmode _ _ _)

theorem draining_programBuffer (hmode : s.psm.mode = .drain) (force : Bool) : s.Draining (s.programBuffer force) := by
  have hspoiled : ∀ (l : List (Nat × Nat)) (s : State), s.psm.mode = .drain →
      s.Draining (l.foldl (fun s e => match s.badUnit e.1 with | some b => s.spoiled b.1 b.2 | none => s) s) := by
    intro l
    induction l with
    | nil => exact fun s _ => .refl s
    | cons e l ih =>
      intro s hmode
      have hone : s.Draining (match s.badUnit e.1 with | some b => s.spoiled b.1 b.2 | none => s) := by
        split
        · exact draining_spoiled hmode _ _
        · exact .refl s
      exact hone.trans (ih _ (hone.1.trans hmode))
  exact (hspoiled (s.waitingEntries force) s hmode).trans (stored_sendEntries _).draining

theorem draining_drainPrograms (hmode : s.psm.mode = .drain) : s.Draining s.drainPrograms := by
  unfold State.drainPrograms
  split
  · exact .refl s
  · have hjournal : s.Draining (s.keepUnhashed.programJournal s.nss.journal.length) :=
      (stored_keepUnhashed.trans (paged_programJournal _).stored).draining
    exact hjournal.trans (draining_programBuffer (hjournal.1.trans hmode) _)

end Sys2Proof.Machine
end

section
/-! PROOFS. Supplies and modes: DRAIN, HOLD, BOOT, the hold-up test, REST and the always-on domain (R526 to R539, R613 to R617). -/

open Sys2Proof

namespace Sys2Proof.Machine

variable {s t : State}

/-! ### Entering DRAIN -/

theorem toMode_keeps (s : State) (m : Mode) (cause : Nat) : (s.toMode m cause).psm.mode = m ∧ (s.toMode m cause).dram = s.dram ∧
    (s.toMode m cause).psm.warning = s.psm.warning ∧ (s.toMode m cause).psm.pins = s.psm.pins ∧ (s.toMode m cause).psm.por = s.psm.por ∧
    (s.toMode m cause).psm.thermalHold = s.psm.thermalHold ∧ (s.toMode m cause).psm.holdup = s.psm.holdup ∧
    (s.toMode m cause).psm.causes = s.psm.causes ∧ (s.toMode m cause).cpe = s.cpe ∧ (s.toMode m cause).flash = s.flash ∧
    (s.toMode m cause).nss = s.nss := by
  unfold State.toMode
  dsimp only
  split <;> exact ⟨rfl, rfl, rfl, rfl, rfl, rfl, rfl, rfl, rfl, rfl, rfl⟩

/-- Every command is dropped and the engines stop, in a device that is in DRAIN. -/
def State.drainHalted (s : State) : State :=
  let s1 := s.abandonAll.dropHeld (fun _ => true)
  (if s1.swl.state.linked then s1.linkLost else s1).stopEngines

theorem drainHalted_keeps (s : State) : s.drainHalted.psm = s.psm ∧ s.drainHalted.dram = s.dram := by
  obtain ⟨hpsm, -, hdram⟩ := (undone_abandonAll (s := s)).trans (undone_dropHeld (fun _ => true))
  unfold State.drainHalted
  dsimp only
  generalize s.abandonAll.dropHeld (fun _ => true) = u at hpsm hdram
  split <;> exact ⟨hpsm, hdram⟩

/-- What a drain shows of the device that it has stopped. -/
theorem drainStops_shows (s : State) (cause : Nat) : (s.drainStops cause).psm.mode = (s.toMode .drain cause).drainHalted.psm.mode ∧
    (s.drainStops cause).psm.warning = (s.toMode .drain cause).drainHalted.psm.warning ∧
    (s.drainStops cause).psm.pins = { (s.toMode .drain cause).drainHalted.psm.pins with ppInEn := true, bleed := false } ∧
    (s.drainStops cause).psm.por = (s.toMode .drain cause).drainHalted.psm.por ∧
    (s.drainStops cause).psm.thermalHold = (s.toMode .drain cause).drainHalted.psm.thermalHold ∧ (s.drainStops cause).hif.cmds = [] ∧
    (s.drainStops cause).dram.cells = (s.toMode .drain cause).drainHalted.dram.cells := by
  unfold State.drainStops State.drainHalted
  dsimp only
  generalize State.stopEngines _ = u
  exact ⟨rfl, rfl, rfl, rfl, rfl, rfl, rfl⟩

/-- The first steps of a drain end in DRAIN with nothing in flight, the hold-up path closed, and DRAM's contents as they were (R530). -/
theorem drainStops_spec (s : State) (cause : Nat) : (s.drainStops cause).psm.mode = .drain ∧
    (s.drainStops cause).psm.warning = s.psm.warning ∧ (s.drainStops cause).psm.pins = { s.psm.pins with ppInEn := true, bleed := false } ∧
    (s.drainStops cause).psm.por = s.psm.por ∧ (s.drainStops cause).psm.thermalHold = s.psm.thermalHold ∧ (s.drainStops cause).hif.cmds = [] ∧
    (s.drainStops cause).dram.cells = s.dram.cells := by
  obtain ⟨hmode, hdram, hwarn, hpins, hpor, hhold, -⟩ := toMode_keeps s .drain cause
  obtain ⟨hpsm', hdram'⟩ := drainHalted_keeps (s.toMode .drain cause)
  have hshows := drainStops_shows s cause
  rwa [hpsm', hdram', hmode, hdram, hwarn, hpins, hpor, hhold] at hshows

/-- The modes that a supply warning takes to DRAIN (R537). -/
def Mode.drains : Mode → Bool
  | .off | .hold | .drain | .boot => false
  | _ => true

theorem supplyWarning_of_drains (h : s.psm.mode.drains = true) (cause : Nat) :
    s.supplyWarning cause = (({ s with psm := { s.psm with warning := true } } : State).drainStops cause).drainPrograms := by
  unfold State.supplyWarning
  split <;> simp_all [Mode.drains]

/-- The supply warning in a running mode ends in DRAIN, with its cause kept (R527, R530). -/
theorem supplyWarning_drains (h : s.psm.mode.drains = true) (cause : Nat) : (s.supplyWarning cause).psm.mode = .drain ∧
    (s.supplyWarning cause).psm.warning = true ∧ (s.supplyWarning cause).psm.pins = { s.psm.pins with ppInEn := true, bleed := false } ∧
    (s.supplyWarning cause).psm.por = s.psm.por ∧ (s.supplyWarning cause).psm.thermalHold = s.psm.thermalHold ∧
    (s.supplyWarning cause).hif.cmds = [] ∧ (s.supplyWarning cause).dram.cells = s.dram.cells := by
  rw [supplyWarning_of_drains h]
  obtain ⟨hmode, hwarn, hpins, hpor, hhold, hcmds, hcells⟩ := drainStops_spec ({ s with psm := { s.psm with warning := true } } : State) cause
  obtain ⟨hmode', hwarn', hpins', hpor', hhold', hcmds', hdram'⟩ := draining_drainPrograms hmode
  exact ⟨hmode'.trans hmode, hwarn'.trans hwarn, hpins'.trans hpins, hpor'.trans hpor, hhold'.trans hhold, hcmds'.trans hcmds,
    (congrArg Dram.cells hdram').trans hcells⟩

theorem drains_of_running (h : s.psm.mode = .service ∨ s.psm.mode = .rest ∨ s.psm.mode = .degraded ∨ s.psm.mode = .maintenance ∨
    s.psm.mode = .safeHalt) : s.psm.mode.drains = true := by
  rcases h with h | h | h | h | h <;> rw [h] <;> rfl

/-! ### Switching off -/

/-- `t` is `s` with records written or raised. -/
def State.Recorded (s t : State) : Prop :=
  (∃ r d, t = { s with recd := r, psm := { s.psm with halt := { s.psm.halt with dangerous := d } } }) ∧ s.recd.next ≤ t.recd.next

theorem State.Recorded.refl (s : State) : s.Recorded s := ⟨⟨_, _, rfl⟩, Nat.le_refl _⟩

theorem State.Recorded.trans {s t u : State} (h : s.Recorded t) (h' : t.Recorded u) : s.Recorded u := by
  obtain ⟨⟨_, _, rfl⟩, hnext⟩ := h
  obtain ⟨⟨_, _, rfl⟩, hnext'⟩ := h'
  exact ⟨⟨_, _, rfl⟩, Nat.le_trans hnext hnext'⟩

theorem State.Recorded.foldl {α : Type} {f : State → α → State} (hf : ∀ (s : State) a, s.Recorded (f s a)) (l : List α) (s : State) :
    s.Recorded (l.foldl f s) := by
  induction l generalizing s with
  | nil => exact .refl s
  | cons a l ih => exact (hf s a).trans (ih _)

theorem raise_next (s : State) (k : Ev) (f : Nat) (items : List (Nat × Nat)) : (s.raise k f items).recd.next = s.recd.next + 1 := by
  unfold State.raise State.raiseFrom
  dsimp only
  split
  · rfl
  · unfold Rec.enqueue
    (repeat' split) <;> rfl

theorem recorded_raise (k : Ev) (f : Nat) (items : List (Nat × Nat)) : s.Recorded (s.raise k f items) :=
  ⟨⟨_, _, rfl⟩, (raise_next s k f items).symm ▸ Nat.le_succ _⟩

theorem recorded_writeRecord : s.Recorded s.writeRecord := by
  unfold State.writeRecord
  split
  · exact .refl s
  · dsimp only
    split
    · refine State.Recorded.trans ⟨⟨_, _, rfl⟩, ?_⟩ (recorded_raise _ _ _)
      dsimp only
      split <;> exact Nat.le_refl _
    · refine ⟨⟨_, _, rfl⟩, ?_⟩
      dsimp only
      split <;> exact Nat.le_refl _

theorem recorded_writeAll : s.Recorded s.writeAll := by
  unfold State.writeAll
  split
  · exact .refl s
  · generalize List.range _ = l
    exact State.Recorded.foldl (fun _ _ => recorded_writeRecord) l s

theorem mainOff_keeps (s : State) : s.mainOff.psm.por = s.psm.por ∧ s.mainOff.psm.mode = s.psm.mode ∧ s.mainOff.recd = s.recd ∧
    s.mainOff.psm.pins = { s.psm.pins with ppInEn := true, bleed := false } := by
  obtain ⟨hpsm, hrecd, -⟩ := undone_abandonAll (s := s)
  have hpor := congrArg Psm.por hpsm
  have hmode := congrArg Psm.mode hpsm
  have hpins := congrArg (fun p : Psm => { p.pins with ppInEn := true, bleed := false }) hpsm
  exact ⟨hpor, hmode, hrecd, hpins⟩

/-- With nothing in flight, switching off takes no append back. -/
theorem abandonAll_idle (hcmds : s.inflight = []) (hundone : s.objs.undone = []) : s.abandonAll = s := by
  unfold State.abandonAll
  rw [hcmds]
  dsimp only [List.foldl_nil]
  rw [hundone]
  dsimp only [List.foldl_nil]
  rw [← hundone]

/-- With no POR_N taken, the main domains switch off into HOLD (R530, R537). -/
theorem switchOff_holds (hpor : s.psm.por = none) (cause : Nat) : (s.switchOff cause).psm.mode = .hold ∧ (s.switchOff cause).hif.cmds = [] ∧
    (s.switchOff cause).dram.cells = [] ∧ s.recd.next + 1 ≤ (s.switchOff cause).recd.next ∧
    (s.inflight = [] → s.objs.undone = [] → (s.switchOff cause).nss.ledger = s.nss.ledger) := by
  obtain ⟨hwrite, hnext⟩ := recorded_writeAll (s := s)
  obtain ⟨-, -, hmainRecd, -⟩ := mainOff_keeps s.writeAll
  have hheld : s.switchOff cause = (s.writeAll.mainOff).enterHold cause := if_neg (by rw [hpor]; exact Bool.false_ne_true)
  rw [hheld]
  refine ⟨rfl, rfl, rfl, ?_, ?_⟩
  · have hraised : ((s.writeAll.mainOff).enterHold cause).recd.next = s.writeAll.mainOff.recd.next + 1 := raise_next _ _ _ _
    rw [hraised, hmainRecd]
    exact Nat.succ_le_succ hnext
  · intro hcmds hundone
    obtain ⟨r, d, hw⟩ := hwrite
    have hidle : s.writeAll.abandonAll = s.writeAll := abandonAll_idle (by rw [hw]; exact hcmds) (by rw [hw]; exact hundone)
    have hledger : s.writeAll.mainOff.nss.ledger = s.writeAll.abandonAll.nss.ledger := rfl
    exact hledger.trans (by rw [hidle, hw])

end Sys2Proof.Machine
end

section
/-! PROOFS. What BOOT keeps as it takes up the firmware and the configuration (R221, R225, R537, R553 to R555). -/

open Sys2Proof

namespace Sys2Proof.Machine

variable {s t : State}

/-- `t` keeps the mode, the fence, the warning, the hold-up state and the power cycles of `s`. -/
def State.Booting (s t : State) : Prop :=
  t.psm.mode = s.psm.mode ∧ t.psm.fence = s.psm.fence ∧ t.psm.warning = s.psm.warning ∧ t.psm.holdup = s.psm.holdup ∧
    t.recd.powerCycles = s.recd.powerCycles

theorem State.Booting.refl (s : State) : s.Booting s := ⟨rfl, rfl, rfl, rfl, rfl⟩

theorem State.Booting.trans {s t u : State} (h : s.Booting t) (h' : t.Booting u) : s.Booting u := by
  obtain ⟨hmode, hfence, hwarn, hholdup, hcycles⟩ := h
  obtain ⟨hmode', hfence', hwarn', hholdup', hcycles'⟩ := h'
  exact ⟨hmode'.trans hmode, hfence'.trans hfence, hwarn'.trans hwarn, hholdup'.trans hholdup, hcycles'.trans hcycles⟩

theorem State.Booting.foldl {α : Type} {f : State → α → State} (hf : ∀ (s : State) a, s.Booting (f s a)) (l : List α) (s : State) :
    s.Booting (l.foldl f s) := by
  induction l generalizing s with
  | nil => exact .refl s
  | cons a l ih => exact (hf s a).trans (ih _)

theorem booting_raise (k : Ev) (f : Nat) (items : List (Nat × Nat)) : s.Booting (s.raise k f items) :=
  ⟨rfl, rfl, rfl, rfl, raiseFrom_powerCycles _ _ _ _ _⟩

/-! ### The sections of a configuration -/

theorem booting_fns (f : Mem Fn) : s.Booting { s with fns := f } := ⟨rfl, rfl, rfl, rfl, rfl⟩

theorem booting_nvs (n : Nvs) : s.Booting { s with nvs := n } := ⟨rfl, rfl, rfl, rfl, rfl⟩

theorem booting_swl (w : Swl) : s.Booting { s with swl := w } := ⟨rfl, rfl, rfl, rfl, rfl⟩

theorem booting_applyBoot (img : Bytes) : s.Booting (s.applyBoot img) := ⟨rfl, rfl, rfl, rfl, rfl⟩

theorem booting_updScull (k : Nat) (g : Scull → Scull) : s.Booting (s.updScull k g) := ⟨rfl, rfl, rfl, rfl, rfl⟩

theorem booting_freeProgram (p : Prog) : s.Booting (s.freeProgram p) :=
  State.Booting.trans (.foldl (fun _ k => booting_updScull k _) p.sculls s) ⟨rfl, rfl, rfl, rfl, rfl⟩

theorem booting_applyTenants (ts : List Tenant) : s.Booting (s.applyTenants ts) := by
  unfold State.applyTenants
  dsimp only
  refine State.Booting.trans (t := (nubNat (s.fns.map (·.1) ++ ts.map (·.func))).foldl (fun s f => s.updFn f (fun x =>
    x.setRate (((ts.find? (fun t => t.func == f)).map (·.rate)).getD {}))) { s with nvs := { s.nvs with tenants := ts } }) ?_ ?_
  · exact (booting_nvs _).trans (.foldl (fun _ _ => booting_fns _) _ _)
  · refine .foldl (fun r p => ?_) _ _
    exact (State.Booting.trans (.foldl (fun _ k => booting_updScull k _) p.sculls r) (booting_freeProgram p)).trans (booting_raise _ _ _)

theorem booting_applyFlash (c : FlashCfg) : s.Booting (s.applyFlash c []) := ⟨rfl, rfl, rfl, rfl, rfl⟩

theorem booting_applyArbiters (b : Bytes) : s.Booting (s.applyArbiters b) := by
  unfold State.applyArbiters
  refine .foldl (fun r i => ?_) _ _
  dsimp only
  split
  · exact .refl r
  · exact ⟨rfl, rfl, rfl, rfl, rfl⟩

theorem booting_applyPair (b : Option Bytes) : s.Booting (s.applyPair b) := ⟨rfl, rfl, rfl, rfl, rfl⟩

theorem booting_asyncEvent (f : Nat) (dw0 : BitVec 32) : s.Booting (s.asyncEvent f dw0) := by
  unfold State.asyncEvent State.finish State.noteFinished State.updCmd
  (repeat' split) <;> exact ⟨rfl, rfl, rfl, rfl, rfl⟩

theorem booting_anaEvent : s.Booting s.anaEvent := .foldl (fun _ _ => booting_asyncEvent _ _) _ _

/-- A cause that is set or cleared at BOOT moves no mode (R537). -/
theorem booting_setCause (hmode : s.psm.mode = .boot) (i cause : Nat) : s.Booting (s.setCause i cause) := by
  unfold State.setCause
  dsimp only
  rw [if_neg (by rw [hmode]; decide)]
  exact ⟨rfl, rfl, rfl, rfl, rfl⟩

theorem booting_clearCause (hmode : s.psm.mode = .boot) (i cause : Nat) : s.Booting (s.clearCause i cause) := by
  unfold State.clearCause
  dsimp only
  rw [if_neg (fun h => by rw [hmode] at h; exact absurd h.1 (by decide))]
  exact ⟨rfl, rfl, rfl, rfl, rfl⟩

theorem booting_compareFp (hmode : s.psm.mode = .boot) : s.Booting s.compareFp := by
  unfold State.compareFp
  dsimp only
  split
  · refine State.Booting.trans (State.Booting.trans ((booting_swl _).trans (booting_raise _ _ _)) (booting_setCause ?_ _ _)) booting_anaEvent
    exact hmode
  · refine State.Booting.trans (State.Booting.trans ((booting_swl _).trans (booting_raise _ _ _)) (booting_clearCause ?_ _ _)) booting_anaEvent
    exact hmode
  · exact .refl s

theorem booting_applyCommit (hmode : s.psm.mode = .boot) (img : Bytes) : s.Booting (s.applyCommit img []) := by
  have hparts : s.Booting ((((s.applyTenants (tenantsOf ((imgSection img 2).getD []))).applyFlash (flashOf ((imgSection img 4).getD [])) []).applyArbiters
      ((imgSection img 5).getD [])).applyPair (imgSection img 6)) :=
    (((booting_applyTenants _).trans (booting_applyFlash _)).trans (booting_applyArbiters _)).trans (booting_applyPair _)
  exact hparts.trans (booting_compareFp (hparts.1.trans hmode))

/-! ### Firmware and configuration at BOOT -/

/-- The firmware that BOOT runs leaves the images of the configuration (R225). -/
theorem bootFirmware_keeps (s : State) : s.Booting s.bootFirmware ∧ s.bootFirmware.nvs = { s.nvs with fwRunning := s.bootSlot } := by
  unfold State.bootFirmware
  dsimp only
  split
  · exact ⟨⟨rfl, rfl, rfl, rfl, rfl⟩, rfl⟩
  · exact ⟨⟨rfl, rfl, rfl, rfl, raiseFrom_powerCycles _ _ _ _ _⟩, rfl⟩

theorem bootConfig_active (hmode : s.psm.mode = .boot) (htrial : s.nvs.trial = false) (hrole : s.bootRole = some 0) :
    s.Booting s.bootConfig := by
  unfold State.bootConfig
  simp only [htrial, Bool.false_eq_true, if_false, hrole, if_true]
  refine State.Booting.trans (State.Booting.trans ((booting_nvs _).trans (booting_applyBoot _)) (booting_applyCommit ?_ _)) (booting_fns _)
  exact hmode

/-- Without any image BOOT ends in SAFE-HALT (R221). -/
theorem bootConfig_none (htrial : s.nvs.trial = false) (hrole : s.bootRole = none) :
    s.bootConfig = s.dangerHalt evConfigBootFallback 0x0201 [(1, 0x0B), (1, 0xFF)] false := by
  unfold State.bootConfig
  simp only [htrial, Bool.false_eq_true, if_false, hrole]

/-! ### BOOT's first records -/

/-- The counters at BOOT without a loss of the always-on domain (R554, R555). -/
theorem atBoot_powerCycles {r : Rec} (h : r.aonLost = false) : r.atBoot.powerCycles = r.powerCycles := by
  have hrestored : r.restored = r := by simp [Rec.restored, h]
  have hcount := congrArg Rec.powerCycles hrestored
  exact hcount

/-- The state with which BOOT begins: the latches are gone and the counters taken up. -/
def State.bootBegun (s : State) (restart : Bool) : State :=
  { s with psm := s.bootPsm, recd := { s.recd.atBoot with powerCycles := (if restart then s.recd.atBoot.powerCycles else Nat.min (s.recd.atBoot.powerCycles + 1) 0xFFFFFFFF), dropped := 0 }.mirrorNow }

/-- BOOT's records, and the draw of the sketch's key. -/
def State.bootRecorded (s : State) (restart : Bool) : State :=
  let old := s.psm.mode
  let r := s.recd.atBoot
  let s2 := (s.bootBegun restart).raise evModeChanged 255 [(1, old.code), (1, 2), (2, evBootRecord.code)]
  let s3 := s2.raise evBootRecord 255 [(4, if restart then r.powerCycles else Nat.min (r.powerCycles + 1) 0xFFFFFFFF), (1, old.code), (1, if restart then 2 else 1)]
  let s4 := match s.psm.por with
    | some m => s3.raise evPorPinReset 255 [(1, m.code)]
    | none => s3
  let s5 := if r.dropped = 0 then s4 else s4.raise evEvtOverflow 255 [(4, r.dropped)]
  let d := s5.draw 64
  { d.2 with flash := { d.2.flash with sketchKey := d.1 } }

theorem bootStart_eq (s : State) (restart : Bool) :
    s.bootStart restart = (s.bootRecorded restart).bootFirmware.bootConfig.bootFunctions := rfl

theorem bootRecorded_keeps (s : State) (restart : Bool) :
    (s.bootBegun restart).Booting (s.bootRecorded restart) ∧ (s.bootRecorded restart).nvs = s.nvs := by
  have hraise : ∀ (u v : State) (k : Ev) (f : Nat) (items : List (Nat × Nat)), u.Booting v ∧ v.nvs = u.nvs →
      u.Booting (v.raise k f items) ∧ (v.raise k f items).nvs = u.nvs := fun _ _ k f items h => ⟨h.1.trans (booting_raise k f items), h.2⟩
  have h3 := hraise _ _ evBootRecord 255 [(4, if restart then s.recd.atBoot.powerCycles else Nat.min (s.recd.atBoot.powerCycles + 1) 0xFFFFFFFF), (1, s.psm.mode.code), (1, if restart then 2 else 1)]
    (hraise _ _ evModeChanged 255 [(1, s.psm.mode.code), (1, 2), (2, evBootRecord.code)] ⟨.refl (s.bootBegun restart), rfl⟩)
  unfold State.bootRecorded
  dsimp only
  generalize State.raise _ evBootRecord _ _ = s3 at h3 ⊢
  generalize hs4 : (match s.psm.por with | some m => s3.raise evPorPinReset 255 [(1, m.code)] | none => s3) = s4
  have h4 : (s.bootBegun restart).Booting s4 ∧ s4.nvs = (s.bootBegun restart).nvs := by
    subst hs4
    split
    · exact hraise _ _ _ _ _ h3
    · exact h3
  split
  · exact h4
  · exact hraise _ _ evEvtOverflow 255 [(4, s.recd.atBoot.dropped)] h4

theorem bootFunctions_keeps (s : State) : s.Booting s.bootFunctions := by
  unfold State.bootFunctions
  dsimp only
  split <;> exact ⟨rfl, rfl, rfl, rfl, rfl⟩

section
variable (hlost : s.recd.aonLost = false) (hcycles : s.recd.powerCycles < 0xFFFFFFFF) (htrial : s.nvs.trial = false)
include hlost hcycles

theorem bootBegun_powerCycles : (s.bootBegun false).recd.powerCycles = s.recd.powerCycles + 1 := by
  have hsum : (s.bootBegun false).recd.powerCycles = Nat.min (s.recd.atBoot.powerCycles + 1) 0xFFFFFFFF := rfl
  rw [hsum, atBoot_powerCycles hlost]
  exact Nat.min_eq_left hcycles

include htrial

/-- A power-up with a valid ACTIVE image boots (R537, R554). -/
theorem bootStart_boots (hrole : s.bootRole = some 0) : (s.bootStart false).psm.mode = .boot ∧
    (s.bootStart false).recd.powerCycles = s.recd.powerCycles + 1 ∧ (s.bootStart false).psm.fence = false ∧
    (s.bootStart false).psm.warning = false ∧ (s.bootStart false).psm.holdup.volat = true ∧ (s.bootStart false).psm.holdup.passed = false := by
  obtain ⟨hlogged, hnvs⟩ := bootRecorded_keeps s false
  obtain ⟨hfirm, hnvs'⟩ := bootFirmware_keeps (s.bootRecorded false)
  have hup := hlogged.trans hfirm
  have htrial' : (s.bootRecorded false).bootFirmware.nvs.trial = false := by rw [hnvs', hnvs]; exact htrial
  have hrole' : (s.bootRecorded false).bootFirmware.bootRole = some 0 := by
    unfold State.bootRole State.cfgSlot at hrole ⊢
    rw [hnvs', hnvs]
    exact hrole
  have hall := (hup.trans (bootConfig_active hup.1 htrial' hrole')).trans (bootFunctions_keeps _)
  obtain ⟨hmode, hfence, hwarn, hholdup, hcount⟩ := hall
  rw [bootStart_eq]
  exact ⟨hmode, hcount.trans (bootBegun_powerCycles hlost hcycles), hfence, hwarn, congrArg Holdup.volat hholdup, congrArg Holdup.passed hholdup⟩

/-- A power-up without any image halts (R221, R544). -/
theorem bootStart_halts (hrole : s.bootRole = none) : (s.bootStart false).psm.mode = .safeHalt ∧
    (s.bootStart false).psm.halt.code = evConfigBootFallback.code ∧ (s.bootStart false).recd.powerCycles = s.recd.powerCycles + 1 := by
  obtain ⟨hlogged, hnvs⟩ := bootRecorded_keeps s false
  obtain ⟨hfirm, hnvs'⟩ := bootFirmware_keeps (s.bootRecorded false)
  have hup := hlogged.trans hfirm
  have htrial' : (s.bootRecorded false).bootFirmware.nvs.trial = false := by rw [hnvs', hnvs]; exact htrial
  have hrole' : (s.bootRecorded false).bootFirmware.bootRole = none := by
    unfold State.bootRole State.cfgSlot at hrole ⊢
    rw [hnvs', hnvs]
    exact hrole
  have hboot : (s.bootRecorded false).bootFirmware.psm.mode.entersHalt = true := by rw [hup.1]; rfl
  obtain ⟨hmode, hcode, -, -, -, -, hcount, -⟩ := dangerHalt_psm hboot evConfigBootFallback 0x0201 [(1, 0x0B), (1, 0xFF)] false
  rw [← bootConfig_none htrial' hrole'] at hmode hcode hcount
  have hfns : ∀ u : State, u.bootFunctions.psm = u.psm ∧ u.bootFunctions.recd = u.recd := by
    intro u
    unfold State.bootFunctions
    dsimp only
    split <;> exact ⟨rfl, rfl⟩
  obtain ⟨hpsm, hrecd⟩ := hfns (s.bootRecorded false).bootFirmware.bootConfig
  rw [bootStart_eq, hpsm, hrecd]
  exact ⟨hmode, hcode, (hcount.trans hup.2.2.2.2).trans (bootBegun_powerCycles hlost hcycles)⟩

end

end Sys2Proof.Machine
end

section
/-! PROOFS. The supplies and the modes, command by command (R526 to R539, R613 to R617, R623, R625, R628). -/

open Sys2Proof

namespace Sys2Proof.Machine

variable {s : State}

/-! ### The fence and the rails -/

/-- The fence rises and moves nothing but records (R529, R553). -/
theorem raiseFence_spec (s : State) (ms : Nat) : (s.raiseFence ms).psm.fence = true ∧ (s.raiseFence ms).psm.pins = s.psm.pins ∧
    (s.raiseFence ms).psm.mode = s.psm.mode ∧ (s.raiseFence ms).psm.rails = s.psm.rails ∧ (s.raiseFence ms).nss = s.nss ∧
    (s.raiseFence ms).flash = s.flash := by
  unfold State.raiseFence
  split
  next hfence => exact ⟨hfence, rfl, rfl, rfl, rfl, rfl⟩
  · dsimp only
    split <;> exact ⟨rfl, rfl, rfl, rfl, rfl, rfl⟩

theorem mayProgram_fenced (h : s.psm.fence = true) : s.mayProgram = false := by simp [State.mayProgram, h]

/-- A rail trips: the fence first, then SAFE-HALT without a safe drain (R527, R544). -/
def State.railTripped (s : State) (r mv ms : Nat) (above : Bool) : State :=
  (({ s with psm := { s.psm with rails := s.psm.rails ++ [r] } } : State).raiseFence ms).dangerHalt evSupplyFault evSupplyFault.comp
    [(1, r), (2, mv), (1, if above then 2 else 1)] false

theorem railTripped_halts {r mv ms : Nat} {above : Bool} (h : s.psm.mode.entersHalt = true) :
    (s.railTripped r mv ms above).psm.fence = true ∧ (s.railTripped r mv ms above).psm.mode = .safeHalt ∧
      (s.railTripped r mv ms above).psm.halt.code = evSupplyFault.code ∧ (s.railTripped r mv ms above).psm.halt.safeDrain = false ∧
      r ∈ (s.railTripped r mv ms above).psm.rails := by
  obtain ⟨hfence, -, hmode, hrails, -⟩ := raiseFence_spec ({ s with psm := { s.psm with rails := s.psm.rails ++ [r] } } : State) ms
  obtain ⟨hhalt, hcode, -, hdrain, hfence', hrails', -⟩ := dangerHalt_psm
    (s := ({ s with psm := { s.psm with rails := s.psm.rails ++ [r] } } : State).raiseFence ms) ((congrArg Mode.entersHalt hmode).trans h)
    evSupplyFault evSupplyFault.comp [(1, r), (2, mv), (1, if above then 2 else 1)] false
  have hlisted : (s.railTripped r mv ms above).psm.rails = s.psm.rails ++ [r] := hrails'.trans hrails
  exact ⟨hfence'.trans hfence, hhalt, hcode, hdrain, hlisted ▸ List.mem_append_right _ (List.mem_singleton_self r)⟩

/-- The modes in which SAFE-HALT may be entered are BOOT and the live ones but SAFE-HALT itself. -/
theorem entersHalt_of_live (h : s.psm.mode = .boot ∨ s.psm.mode.live = true) (hne : s.psm.mode ≠ .safeHalt) : s.psm.mode.entersHalt = true := by
  cases hm : s.psm.mode <;> simp_all [Mode.live, Mode.entersHalt]

theorem railLimitTrip_trips {r mv ms : Nat} {above : Bool} (hr : r ≤ 4) (hin : s.psm.rails.contains r = false)
    (hrun : s.psm.mode = .boot ∨ s.psm.mode.live = true)
    (hout : (if above then decide (railNominal r * 108 < mv * 100) else decide (mv * 100 < railNominal r * 94)) = true) :
    exec (.railLimitTrip r mv ms above) s = .next (s.railTripped r mv ms above) := by
  have hoff : (s.psm.mode == Mode.off) = false := by rcases hrun with h | h <;> cases hm : s.psm.mode <;> simp_all [Mode.live]
  have hhold : (s.psm.mode == Mode.hold) = false := by rcases hrun with h | h <;> cases hm : s.psm.mode <;> simp_all [Mode.live]
  refine congrArg Host.Outcome.next (if_neg ?_)
  rw [hoff, hhold, hin, hout, decide_eq_false (by omega : ¬4 < r)]
  exact Bool.false_ne_true

theorem railLimitTrip_within {r mv ms : Nat} {above : Bool}
    (hin : (if above then decide (railNominal r * 108 < mv * 100) else decide (mv * 100 < railNominal r * 94)) = false) :
    exec (.railLimitTrip r mv ms above) s = .next s :=
  congrArg Host.Outcome.next (if_pos (by rw [hin]; simp))

/-! ### The end of a drain -/

/-- What DRAIN_COMPLETE records and stores before the main domains switch off (R530 steps 5 to 7). -/
def State.drainLogged (s : State) (ms v : Nat) : State :=
  let s0 := if s.mayProgram then s.programJournal s.nss.journal.length else s
  let s1 := { s0 with psm := { s0.psm with pins := { s0.psm.pins with vsenseMv := v } } }.raise evDrainComplete 255
    [(4, s0.psm.drainUnits - s0.nss.ledger.length), (4, ms), (2, v)]
  let s2 := if s1.mayWriteNvs then { s1 with recd := s1.recd.mirrorNow } else s1
  let counts := fun (m : Mem (List Nat)) (e : Nat × Sb) => Mem.set [0, 0, 0, 0] m e.1 e.2.reads
  if s2.nss.ledger.isEmpty then { s2 with flash := { s2.flash with drained := true, checkpoint := s2.flash.sbs.foldl counts [] } } else s2

/-- `t` has the commands, the undone appends, the ledger and the POR_N of `s`. -/
def State.SameWork (s t : State) : Prop :=
  t.hif.cmds = s.hif.cmds ∧ t.objs.undone = s.objs.undone ∧ t.nss.ledger = s.nss.ledger ∧ t.psm.por = s.psm.por

theorem State.SameWork.trans {s t u : State} (h : s.SameWork t) (h' : t.SameWork u) : s.SameWork u := by
  obtain ⟨hcmds, hundone, hledger, hpor⟩ := h
  obtain ⟨hcmds', hundone', hledger', hpor'⟩ := h'
  exact ⟨hcmds'.trans hcmds, hundone'.trans hundone, hledger'.trans hledger, hpor'.trans hpor⟩

theorem drainLogged_spec (s : State) (ms v : Nat) : s.SameWork (s.drainLogged ms v) ∧ s.recd.next + 1 ≤ (s.drainLogged ms v).recd.next := by
  have hjournal : ∀ n, s.SameWork (s.programJournal n) ∧ (s.programJournal n).recd = s.recd := by
    intro n
    obtain ⟨_, _, _, _, _, _, _, h⟩ := paged_programJournal (s := s) n
    rw [h]
    exact ⟨⟨rfl, rfl, rfl, rfl⟩, rfl⟩
  have h0 : s.SameWork (if s.mayProgram then s.programJournal s.nss.journal.length else s) ∧
      (if s.mayProgram then s.programJournal s.nss.journal.length else s).recd = s.recd := by
    split
    · exact hjournal _
    · exact ⟨⟨rfl, rfl, rfl, rfl⟩, rfl⟩
  unfold State.drainLogged
  dsimp only
  generalize (if s.mayProgram then s.programJournal s.nss.journal.length else s) = s0 at h0
  obtain ⟨hwork, hrecd⟩ := h0
  have hnext := raise_next ({ s0 with psm := { s0.psm with pins := { s0.psm.pins with vsenseMv := v } } } : State) evDrainComplete 255
    [(4, s0.psm.drainUnits - s0.nss.ledger.length), (4, ms), (2, v)]
  have h1 : s.SameWork (({ s0 with psm := { s0.psm with pins := { s0.psm.pins with vsenseMv := v } } } : State).raise evDrainComplete 255
    [(4, s0.psm.drainUnits - s0.nss.ledger.length), (4, ms), (2, v)]) := hwork.trans ⟨rfl, rfl, rfl, rfl⟩
  generalize State.raise _ evDrainComplete _ _ = s1 at hnext h1
  have hle : s.recd.next + 1 ≤ s1.recd.next := by
    rw [← hrecd]
    exact Nat.le_of_eq hnext.symm
  have h2 : s.SameWork (if s1.mayWriteNvs then { s1 with recd := s1.recd.mirrorNow } else s1) ∧
      s.recd.next + 1 ≤ (if s1.mayWriteNvs then { s1 with recd := s1.recd.mirrorNow } else s1).recd.next := by
    split
    · exact ⟨h1.trans ⟨rfl, rfl, rfl, rfl⟩, hle⟩
    · exact ⟨h1, hle⟩
  generalize (if s1.mayWriteNvs then { s1 with recd := s1.recd.mirrorNow } else s1) = s2 at h2
  split
  · exact ⟨h2.1.trans ⟨rfl, rfl, rfl, rfl⟩, h2.2⟩
  · exact h2

theorem exec_drainComplete {ms v : Nat} (hmode : s.psm.mode = .drain) (hend : s.psm.fence = true ∨ s.flashQuiet = true) :
    exec (.drainComplete ms v) s = .next ((s.drainLogged ms v).switchOff evDrainComplete.code) := by
  refine congrArg Host.Outcome.next (if_neg ?_)
  rcases hend with h | h <;> simp [hmode, h]

/-! ### The end of BOOT and of the hold-up test -/

/-- The state that BOOT leaves without a failed unit, before it chooses its mode (R381, R536, R614). -/
def State.booted (s : State) : State :=
  let h := s.psm.holdup
  State.bootSvn { s with psm := { s.psm with causes := if h.passed then s.psm.causes else s.psm.causes ||| 8, holdup := { h with volat := !h.passed, volatileSince := if h.passed then h.volatileSince else s.recd.hours }, pins := { s.psm.pins with faultLow := false } }, cpe := { s.cpe with page0Closed := true } }

theorem exec_bootComplete (hmode : s.psm.mode = .boot) (htest : s.psm.pins.testEn = false) (hdram : s.dram.resetHigh = true)
    (hjournal : s.flash.journalRead = true) (hrun : s.psm.holdup.run = none) (hfirm : s.nvs.fwRunning ≠ 1) :
    exec (.bootComplete []) s = .next (s.booted.toMode (if s.booted.psm.causes = 0 then .service else .degraded) 0) := by
  have hready : ¬(s.psm.mode ≠ .boot ∨ s.psm.pins.testEn = true ∨ (!s.dram.resetHigh) = true ∨ (!s.flash.journalRead) = true ∨
      s.psm.holdup.run.isSome = true) := by
    simp [hmode, htest, hdram, hjournal, hrun]
  refine congrArg Host.Outcome.next ((if_neg hready).trans ?_)
  dsimp only [List.filter_nil, List.foldl_nil]
  refine (if_neg (not_not_intro hmode)).trans ?_
  exact if_neg hfirm

theorem holdupFigures_state (s : State) (v0 v1 v2 : Nat) (boot g : Bool) :
    (s.holdupFigures v0 v1 v2 boot g).1 = (((s.draw 16).2.draw 16).2.draw 32).2 := by
  unfold State.holdupFigures
  dsimp only
  split
  · rfl
  · split
    · rfl
    · (repeat' split) <;> rfl

/-- C of a test whose rails rise as R535 expects, to the nearest unit (log 67). -/
theorem holdupFigures_c {v0 v1 v2 : Nat} {boot : Bool} (hrise : v0 * v0 + v2 * v2 < 2 * v1 * v1) :
    (s.holdupFigures v0 v1 v2 boot false).2.c = nearest (20000 * (v1 + v2)) (2 * v1 * v1 - (v0 * v0 + v2 * v2)) := by
  unfold State.holdupFigures
  dsimp only
  rw [if_neg Bool.false_ne_true, if_neg (by omega)]
  (repeat' split) <;> rfl

/-- The result of a test at BOOT stands in one record (R535). -/
theorem holdupResult_boot (s : State) (v0 v1 v2 : Nat) (g : Bool) : (s.holdupResult v0 v1 v2 true g).1.psm.holdup.run = none ∧
    (s.holdupResult v0 v1 v2 true g).1.psm.pins.ppInEn = true ∧ (s.holdupResult v0 v1 v2 true g).1.psm.pins.bleed = false ∧
    (s.holdupResult v0 v1 v2 true g).1.recd.next = s.recd.next + 1 ∧
    (s.holdupResult v0 v1 v2 true g).1.psm.holdup.testedAt = s.recd.hours := by
  have hstate := holdupFigures_state s v0 v1 v2 true (g || decide (v1 < 11200 ∨ v2 < 11200))
  unfold State.holdupResult
  dsimp only
  rw [if_pos rfl]
  generalize s.holdupFigures v0 v1 v2 true (g || decide (v1 < 11200 ∨ v2 < 11200)) = r at hstate
  refine ⟨rfl, rfl, rfl, ?_, rfl⟩
  rw [raise_next, hstate]
  rfl

/-! ### The always-on domain -/

theorem leaveReset_holds {t : Bool} (hmode : s.psm.mode = .off) (hup : s.psm.pins.aonUp = true) (hpor : s.psm.pins.porLow = false) :
    s.leaveReset t = ({ s with psm := { s.psm with pins := { s.psm.pins with testEn := t } } } : State).enterHold 0 :=
  if_pos ⟨hmode, hup, by rw [hpor]; rfl⟩

theorem leaveReset_waits {t : Bool} (h : s.psm.mode ≠ .off ∨ s.psm.pins.aonUp = false ∨ s.psm.pins.porLow = true) : s.leaveReset t = s := by
  refine if_neg fun hready => ?_
  obtain ⟨hmode, hup, hpor⟩ := hready
  rcases h with h | h | h
  · exact h hmode
  · exact absurd (h.symm.trans hup) Bool.false_ne_true
  · exact absurd hpor (by rw [h]; decide)

/-- POR_N is low, taken in the mode it came in (R615). -/
def State.porTaken (s : State) : State :=
  { s with psm := { s.psm with pins := { s.psm.pins with porLow := true }, por := (if s.psm.por.isSome then s.psm.por else some s.psm.mode) } }

theorem porTaken_por (s : State) : s.porTaken.psm.por ≠ none := by
  unfold State.porTaken
  dsimp only
  split
  next hsome => exact Option.isSome_iff_ne_none.mp hsome
  next => exact Option.some_ne_none _

theorem exec_porN_hold (hpor : s.psm.pins.porLow = false) (hmode : s.psm.mode = .hold) : exec .porN s = .next s.porTaken.aonReset := by
  refine congrArg Host.Outcome.next ((if_neg (by rw [hpor]; exact Bool.false_ne_true)).trans ?_)
  dsimp only
  split
  next h => cases hmode.symm.trans h
  next => rfl
  next h => exact absurd hmode h

theorem exec_porN_drains (hpor : s.psm.pins.porLow = false) (hmode : s.psm.mode.drains = true) :
    exec .porN s = .next (s.porTaken.supplyWarning evPorPinReset.code) := by
  refine congrArg Host.Outcome.next ((if_neg (by rw [hpor]; exact Bool.false_ne_true)).trans ?_)
  dsimp only
  split
  next h => rw [h] at hmode; cases hmode
  next h => rw [h] at hmode; cases hmode
  next => rfl

/-- Settles O58. -/
theorem suppliesAndModesMoveTheDevice : Obligations.SuppliesAndModesMoveTheDevice := by
  unfold Obligations.SuppliesAndModesMoveTheDevice
  refine ⟨?_, ?_, ?_, ?_, ?_, ?_, ?_, ?_, ?_, ?_, ?_, ?_, ?_, ?_, ?_, ?_, ?_, ?_, ?_, ?_, ?_, ?_, ?_, ?_, ?_, ?_, ?_, ?_, ?_, ?_, ?_, ?_, ?_, ?_, ?_, ?_, ?_, ?_, ?_, ?_, ?_, ?_, ?_, ?_⟩
  · intro s v h
    exact congrArg Host.Outcome.next (if_pos h)
  · intro s v hv hmode
    have hrun : ¬(1100 ≤ v ∨ s.psm.mode = .off) := by rcases hmode with h | h | h | h | h <;> simp [h, hv]
    obtain ⟨hdrain, hwarn, hpins, -, -, hcmds, hcells⟩ := supplyWarning_drains
      (s := ({ s with psm := { s.psm with pins := { s.psm.pins with vsenseMv := v } } } : State)) (drains_of_running hmode) 0
    exact ⟨_, congrArg Host.Outcome.next (if_neg hrun), hdrain, hwarn, by rw [hpins], hcmds, by rw [hpins], by rw [hpins], hcells⟩
  · intro s v hv hmode hpor
    have hrun : ¬(1100 ≤ v ∨ s.psm.mode = .off) := by simp [hmode, hv]
    have hboot : (({ s with psm := { s.psm with pins := { s.psm.pins with vsenseMv := v } } } : State)).supplyWarning 0 =
        ({ s with psm := { s.psm with pins := { s.psm.pins with vsenseMv := v }, warning := true } } : State).switchOff 0 := by
      simp only [State.supplyWarning, hmode]
    obtain ⟨hhold, hcmds, hcells, -⟩ := switchOff_holds
      (s := ({ s with psm := { s.psm with pins := { s.psm.pins with vsenseMv := v }, warning := true } } : State)) hpor 0
    rw [← hboot] at hhold hcmds hcells
    exact ⟨_, congrArg Host.Outcome.next (if_neg hrun), hhold, hcmds, hcells⟩
  · intro s v hv hmode
    have hrun : ¬(1100 ≤ v ∨ s.psm.mode = .off) := by rcases hmode with h | h <;> simp [h, hv]
    refine congrArg Host.Outcome.next ((if_neg hrun).trans ?_)
    rcases hmode with h | h <;> simp only [State.supplyWarning, h]
  · intro s v ms h
    exact congrArg Host.Outcome.next (if_pos h)
  · intro s v ms hv hmode
    have hrun : ¬(960 ≤ v ∨ s.psm.mode = .off) := by simp [hmode, hv]
    obtain ⟨hfence, hpins, hmode', -, hnss, hflash⟩ := raiseFence_spec
      ({ s with psm := { s.psm with pins := { s.psm.pins with vsenseMv := v } } } : State) ms
    exact ⟨_, congrArg Host.Outcome.next (if_neg hrun), hfence, by rw [hpins], hmode', mayProgram_fenced hfence, hnss, hflash⟩
  · intro s ch h
    exact congrArg Host.Outcome.next (if_pos (by rw [h]; rfl))
  · intro s ch h
    have hfenced : ¬(!s.psm.fence) = true := by simp [h]
    exact ⟨_, congrArg Host.Outcome.next (if_neg hfenced), Mem.get_upd_self ({} : Chan) s.flash.chans ch (fun c => { c with wpHigh := false }), fun k hk =>
      Mem.get_upd_other ({} : Chan) s.flash.chans (fun c => { c with wpHigh := false }) hk⟩
  · intro s ms v h
    refine congrArg Host.Outcome.next (if_pos ?_)
    rcases h with h | ⟨h, h'⟩
    · exact .inl h
    · exact .inr (by simp [h, h'])
  · intro s ms v hmode hend hpor hcmds hundone
    obtain ⟨⟨hcmds', hundone', hledger, hpor'⟩, hnext⟩ := drainLogged_spec s ms v
    obtain ⟨hhold, -, hcells, hnext', hkept⟩ := switchOff_holds (hpor'.trans hpor) evDrainComplete.code
    refine ⟨_, exec_drainComplete hmode hend, hhold, hcells, Nat.le_trans (Nat.succ_le_succ hnext) hnext', ?_⟩
    refine (hkept ?_ (hundone'.trans hundone)).trans hledger
    unfold State.inflight at hcmds ⊢
    rw [hcmds']
    exact hcmds
  · intro s r mv ms up h
    refine congrArg Host.Outcome.next (if_pos ?_)
    rcases h with h | h | h | h
    · simp [h]
    · simp [h]
    · simp [h]
    · rw [h, Bool.or_true]
  · intro s r mv ms hlow hhigh
    exact ⟨railLimitTrip_within (by simpa using hhigh), railLimitTrip_within (by simpa using hlow)⟩
  · intro s r mv ms hr hout hin hrun hne
    exact ⟨_, railLimitTrip_trips hr hin hrun (by simpa using hout), railTripped_halts (entersHalt_of_live hrun hne)⟩
  · intro s r mv ms hr hout hin hrun hne
    exact ⟨_, railLimitTrip_trips hr hin hrun (by simpa using hout), railTripped_halts (entersHalt_of_live hrun hne)⟩
  · intro s v h
    refine congrArg Host.Outcome.next (if_pos ?_)
    exact h
  · intro s v hmode hv hpor hcool hlost hcycles htrial hrole
    have hrun : ¬(s.psm.mode ≠ .hold ∨ v < 1140 ∨ s.psm.pins.porLow = true ∨ (s.psm.thermalHold = true ∧ 368 ≤ nth 0 s.therm.sensors 0)) := by
      rcases hcool with h | h <;> simp [hmode, hpor, h, Nat.not_lt.mpr hv]
    exact ⟨_, congrArg Host.Outcome.next (if_neg hrun), bootStart_boots
      (s := ({ s with psm := { s.psm with pins := { s.psm.pins with vsenseMv := v } } } : State)) hlost hcycles htrial hrole⟩
  · intro s v hmode hv hpor hcool hlost hcycles htrial hrole
    have hrun : ¬(s.psm.mode ≠ .hold ∨ v < 1140 ∨ s.psm.pins.porLow = true ∨ (s.psm.thermalHold = true ∧ 368 ≤ nth 0 s.therm.sensors 0)) := by
      rcases hcool with h | h <;> simp [hmode, hpor, h, Nat.not_lt.mpr hv]
    exact ⟨_, congrArg Host.Outcome.next (if_neg hrun), bootStart_halts
      (s := ({ s with psm := { s.psm with pins := { s.psm.pins with vsenseMv := v } } } : State)) hlost hcycles htrial hrole⟩
  · intro s l h
    refine congrArg Host.Outcome.next (if_pos ?_)
    rcases h with h | h | h | h | h
    · exact .inl h
    · exact .inr (.inl h)
    · exact .inr (.inr (.inl (by rw [h]; rfl)))
    · exact .inr (.inr (.inr (.inl (by rw [h]; rfl))))
    · exact .inr (.inr (.inr (.inr (Option.isSome_iff_ne_none.mpr h))))
  · intro s hmode htest hdram hjournal hrun hfirm hpassed hcauses
    have hcauses' : s.booted.psm.causes = 0 := (if_pos hpassed).trans hcauses
    have hexec := exec_bootComplete hmode htest hdram hjournal hrun hfirm
    rw [if_pos hcauses'] at hexec
    obtain ⟨hmode', -, -, hpins, -, -, hholdup, -, hcpe, -⟩ := toMode_keeps s.booted .service 0
    refine ⟨_, hexec, hmode', ?_, ?_, ?_⟩
    · rw [hholdup]
      exact congrArg (!·) hpassed
    · rw [hcpe]
      rfl
    · rw [hpins]
      rfl
  · intro s hmode htest hdram hjournal hrun hfirm hpassed
    have hcauses : s.booted.psm.causes = s.psm.causes ||| 8 := if_neg (by rw [hpassed]; exact Bool.false_ne_true)
    have hbit : (s.psm.causes ||| 8).getLsbD 3 = true := by rw [BitVec.getLsbD_or, Bool.or_eq_true]; exact .inr (by decide)
    have hsome : s.booted.psm.causes ≠ 0 := by
      rw [hcauses]
      intro h
      rw [h] at hbit
      exact absurd hbit (by decide)
    have hexec := exec_bootComplete hmode htest hdram hjournal hrun hfirm
    rw [if_neg hsome] at hexec
    obtain ⟨hmode', -, -, -, -, -, hholdup, hcauses', hcpe, -⟩ := toMode_keeps s.booted .degraded 0
    refine ⟨_, hexec, hmode', ?_, ?_, ?_⟩
    · rw [hholdup]
      exact congrArg (!·) hpassed
    · rw [hcauses', hcauses]
      exact hbit
    · rw [hcpe]
      rfl
  · intro s v v0 h
    refine congrArg Host.Outcome.next (if_pos ?_)
    rcases h with h | h | h
    · exact .inl (by rw [h]; rfl)
    · exact .inr (.inl h)
    · exact .inr (.inr (Option.isSome_iff_ne_none.mpr h))
  · intro s v v0 htests hheld hrun hv
    have hready : ¬((!s.psm.mode.tests) = true ∨ s.psm.heldFromHalt = true ∨ s.psm.holdup.run.isSome = true) := by simp [htests, hheld, hrun]
    exact congrArg Host.Outcome.next ((if_neg hready).trans (if_pos hv))
  · intro s v v0 htests hheld hrun hv
    have hready : ¬((!s.psm.mode.tests) = true ∨ s.psm.heldFromHalt = true ∨ s.psm.holdup.run.isSome = true) := by simp [htests, hheld, hrun]
    exact congrArg Host.Outcome.next ((if_neg hready).trans (if_neg (Nat.not_lt.mpr hv)))
  · intro s v1 r hrun hv1
    simp only [exec, execHoldupPhaseB, hrun, hv1, Option.isSome_none, Bool.false_eq_true, if_false]
  · intro s v1 v2 g hrun
    simp only [exec, execHoldupPhaseB, execHoldupTestEnd, hrun, and_self]
  · intro s v2 v1 r g hrun hv1
    simp only [exec, execHoldupTestEnd, hrun, hv1]
  · intro s v2 r g hrun hv1
    simp only [exec, execHoldupTestEnd, hrun, hv1]
  · intro s v0 v1 v2 boot g hboot
    subst hboot
    exact holdupResult_boot s v0 v1 v2 g
  · intro s v0 v1 v2 boot hrise
    exact holdupFigures_c hrise
  · intro s h
    exact congrArg Host.Outcome.next (if_pos (by rw [h]; rfl))
  · intro s h
    have hidle : ¬(!s.idle) = true := by simp [h]
    obtain ⟨hmode, hdram, -, -, -, -, -, -, -, hflash, hnss⟩ := toMode_keeps s .rest 0
    exact ⟨_, congrArg Host.Outcome.next (if_neg hidle), hmode, congrArg (fun d : Dram => { d with srRequested := true }) hdram, hflash, hnss⟩
  · intro s h
    exact congrArg Host.Outcome.next (if_pos h)
  · intro s h
    obtain ⟨hmode, hdram, -, -, -, -, -, -, -, hflash, hnss⟩ := toMode_keeps s .service 0
    exact ⟨_, congrArg Host.Outcome.next (if_neg (not_not_intro h)), hmode,
      congrArg (fun d : Dram => { d with srRequested := false, selfRefresh := [] }) hdram, hflash, hnss⟩
  · intro s hmode hbkup
    exact congrArg Host.Outcome.next (if_neg (by simp [hmode, hbkup]))
  · intro s hmode hbkup
    exact congrArg Host.Outcome.next (if_neg (by simp [hmode, hbkup]))
  · intro s hmode
    exact ⟨congrArg Host.Outcome.next (if_pos (.inl hmode)), congrArg Host.Outcome.next (if_pos (.inl hmode))⟩
  · intro s t hmode hpor
    refine ⟨_, congrArg Host.Outcome.next (leaveReset_holds
      (s := ({ s with psm := { s.psm with pins := { s.psm.pins with aonUp := true } } } : State)) hmode rfl hpor), rfl, rfl, rfl⟩
  · intro s t h
    exact congrArg Host.Outcome.next (leaveReset_waits (s := ({ s with psm := { s.psm with pins := { s.psm.pins with aonUp := true } } } : State))
      (h.elim (fun h => .inr (.inr h)) .inl))
  · intro s t hmode hup
    refine ⟨_, congrArg Host.Outcome.next (leaveReset_holds
      (s := ({ s with psm := { s.psm with pins := { s.psm.pins with porLow := false } } } : State)) hmode hup rfl), rfl, rfl, rfl⟩
  · intro s t h
    exact congrArg Host.Outcome.next (leaveReset_waits (s := ({ s with psm := { s.psm with pins := { s.psm.pins with porLow := false } } } : State))
      (h.elim .inl (fun h => .inr (.inl h))))
  · intro s
    obtain ⟨-, -, hrecd, hpins⟩ := mainOff_keeps ({ s with psm := { s.psm with por := none, pins := { s.psm.pins with aonUp := false } } } : State)
    have hring := congrArg Rec.ring hrecd
    have hdown := congrArg Pins.aonUp hpins
    exact ⟨_, rfl, rfl, hdown, rfl, rfl, hring, rfl, rfl⟩
  · intro s h
    exact congrArg Host.Outcome.next (if_pos h)
  · intro s hpor hmode
    exact ⟨_, exec_porN_hold hpor hmode, rfl, rfl, rfl⟩
  · intro s hpor hmode
    have hdrains := drains_of_running hmode
    obtain ⟨hdrain, -, hpins, hkept, -⟩ := supplyWarning_drains (s := s.porTaken) hdrains evPorPinReset.code
    refine ⟨_, exec_porN_drains hpor hdrains, hdrain, by rw [hpins]; rfl, ?_⟩
    rw [hkept]
    exact porTaken_por s

end Sys2Proof.Machine
end

section
/-! PROOFS. SAFE-HALT and its drain, the monitors, the self-tests and the thermal unit (R336, R448, R543 to R547, R563, R621 to R623). -/

open Sys2Proof

namespace Sys2Proof.Machine

variable {s t : State}

/-! ### A domain that is forced off -/

theorem aside_scullReply (k port : Nat) (ws : List TWord) : s.Aside (s.scullReply k port ws) := .of_eq rfl rfl rfl rfl

theorem aside_releaseHeld (k user : Nat) : s.Aside (s.releaseHeld k user) := by
  unfold State.releaseHeld
  split
  · exact State.Aside.trans (.of_eq rfl rfl rfl rfl) (aside_scullReply _ _ _)
  · exact .of_eq rfl rfl rfl rfl

theorem aside_dmaEvent (d : Desc) (status : Nat) : s.Aside (s.dmaEvent d status) := by
  unfold State.dmaEvent
  dsimp only
  split
  · exact .refl s
  · split
    · exact aside_scullReply _ _ _
    · exact (aside_scullReply _ _ _).trans (aside_releaseHeld _ _)

theorem aside_advance (ch link : Nat) : s.Aside (s.advance ch link) := by
  unfold State.advance
  dsimp only
  split
  · exact aside_setCh _ _
  · split
    · exact aside_setCh _ _
    · exact aside_setCh _ _

theorem aside_forceChannel (domain ch : Nat) : s.Aside (s.forceChannel domain ch).1 := by
  unfold State.forceChannel
  dsimp only
  split
  · have hstop : s.Aside (if (s.ch ch).held then s else s.stopMove ch (s.curDesc ch)) := by
      split
      · exact .refl s
      · exact aside_stopMove _ _
    generalize (if (s.ch ch).held then s else s.stopMove ch (s.curDesc ch)) = s1 at hstop
    have hretract := hstop.trans (aside_retractJob (s.ch ch).cur 0x06 (s1.ch ch).job 0 s1)
    generalize s1.retractJob (s.ch ch).cur 0x06 (s1.ch ch).job 0 = r at hretract
    have hraise : s.Aside (if r.2 = 0 then r.1 else r.1.raiseFrom (engineOf ch) evDmaRetracted (s.curDesc ch).func
        [(1, ch), (1, (s.curDesc ch).func), (4, r.2), (1, 0x06)]) := by
      split
      · exact hretract
      · exact hretract.trans (aside_raiseFrom _ _ _ _)
    generalize (if r.2 = 0 then r.1 else r.1.raiseFrom (engineOf ch) evDmaRetracted (s.curDesc ch).func
        [(1, ch), (1, (s.curDesc ch).func), (4, r.2), (1, 0x06)]) = s2 at hraise
    have hevent : ∀ c, s.Aside ((s2.setCh ch c).dmaEvent (s.curDesc ch) (statusWord 0x06 true 0)) :=
      fun c => hraise.trans ((aside_setCh ch c).trans (aside_dmaEvent _ _))
    by_cases hin : (spaceDomain (if (s.ch ch).curSpl then 2 else 3) == domain) = true
    · rw [if_pos hin]
      exact (hevent _).trans (aside_setCh _ _)
    · rw [if_neg hin]
      exact (hevent _).trans (aside_advance _ _)
  · by_cases hin : (spaceDomain (if (s.ch ch).curSpl then 2 else 3) == domain) = true ∧ ((s.ch ch).state = .ready ∨ (s.ch ch).state = .active)
    · rw [if_pos hin]
      exact aside_setCh _ _
    · rw [if_neg hin]
      exact .refl s

theorem aside_forceChannels (domain : Nat) (l : List Nat) (acc : State × Nat × Nat) : acc.1.Aside (l.foldl (fun (acc : State × Nat × Nat) ch =>
    let r := acc.1.forceChannel domain ch; (r.1, acc.2.1 + r.2.1, acc.2.2 + r.2.2)) acc).1 := by
  induction l generalizing acc with
  | nil => exact .refl _
  | cons ch l ih => exact (aside_forceChannel domain ch).trans (ih _)

/-- A domain that is forced off is off, and the mode stays (R336). -/
theorem forceOff_spec (s : State) (domain : Nat) : domain ∈ (s.forceOff domain).dmf.forced ∧ (s.forceOff domain).psm.mode = s.psm.mode := by
  have hchans := aside_forceChannels domain (Mem.keys s.dmf.chans)
    (({ s with dmf := { s.dmf with forced := nubNat (s.dmf.forced ++ [domain]) } } : State), 0, 0)
  unfold State.forceOff
  dsimp only
  generalize (List.foldl _ (_ : State × Nat × Nat) _) = r at hchans
  have hjobs : r.1.Aside (if domain ≤ 1 then (r.1.inflight.filter (fun e => writesHost e.2.sqe)).foldl (fun s e => s.finish e.1 .domainOffRetracted) r.1
      else r.1) := by
    split
    · exact .foldl (fun _ _ => aside_finish _ _ _ _) _ _
    · exact .refl _
  generalize (if domain ≤ 1 then (r.1.inflight.filter (fun e => writesHost e.2.sqe)).foldl (fun s e => s.finish e.1 .domainOffRetracted) r.1
      else r.1) = s1 at hjobs
  obtain ⟨⟨d, hpsm⟩, -, -, hforced⟩ := hchans.trans hjobs
  constructor
  · have hlist : s1.dmf.forced = nubNat (s.dmf.forced ++ [domain]) := hforced
    change domain ∈ s1.dmf.forced
    rw [hlist]
    exact mem_nubNat (List.mem_append_right _ (List.mem_singleton_self domain))
  · have hmode := congrArg Psm.mode hpsm
    exact hmode

/-! ### SAFE-HALT and the monitors -/

/-- The running modes enter SAFE-HALT (R544). -/
theorem entersHalt_of_running (h : s.psm.mode = .boot ∨ s.psm.mode = .service ∨ s.psm.mode = .rest ∨ s.psm.mode = .degraded ∨
    s.psm.mode = .maintenance) : s.psm.mode.entersHalt = true := by
  rcases h with h | h | h | h | h <;> rw [h] <;> rfl

theorem monitored_of_entersHalt (h : s.psm.mode.entersHalt = true) : s.psm.mode.monitored = true := by
  cases hm : s.psm.mode <;> simp_all [Mode.entersHalt, Mode.monitored]

/-- The record that SAFE_HALT_ENTERED raises. -/
def haltEvent (c k : Nat) : Ev := ⟨c, if c = evMramUe.code then 2 else 3, k⟩

theorem exec_safeHaltEntered {c k : Nat} {d : Bool} (h : s.psm.mode.entersHalt = true ∨ s.psm.mode = .drain) (hk : componentOk k = true) :
    exec (.safeHaltEntered c k d) s = .next ((s.draw 256).2.dangerHalt (haltEvent c k) k [(32, (s.draw 256).1.toNat)] d) := by
  refine congrArg Host.Outcome.next ?_
  split
  next hm => rw [hm] at h; rcases h with h | h <;> cases h
  next hm => rw [hm] at h; rcases h with h | h <;> cases h
  next hm => rw [hm] at h; rcases h with h | h <;> cases h
  next => exact if_neg (by rw [hk]; decide)

theorem exec_coxLockstep {p c : Nat} (h : s.psm.mode.monitored = true) (hp : p ≤ 2) :
    exec (.coxLockstep p c) s = .next (s.dangerHalt evCoxLockstep evCoxLockstep.comp [(1, p), (8, c)] true) := by
  refine congrArg Host.Outcome.next (if_neg ?_)
  rw [h]
  simp only [Bool.not_true, Bool.false_eq_true, false_or]
  omega

/-- A clock outside 3 % of its nominal frequency is a failure (R547). -/
theorem clockFault_detected {d khz : Nat} (h : s.psm.mode.monitored = true) (hn : clockNominal d ≠ 0)
    (hout : khz * 100 < clockNominal d * 97 ∨ clockNominal d * 103 < khz * 100) :
    ¬(clockNominal d = 0 ∨ (!s.psm.mode.monitored) = true ∨ (clockNominal d * 97 ≤ khz * 100 ∧ khz * 100 ≤ clockNominal d * 103)) := by
  rw [h]
  simp only [Bool.not_true, Bool.false_eq_true, false_or]
  omega

/-! ### The safe drain -/

theorem stored_copyDone (slc hot : Bool) (k src dest : Nat) : s.Stored (s.copyDone slc hot k src dest) := by
  unfold State.copyDone
  dsimp only
  split
  · exact .refl s
  · split
    · exact (stored_putEntry _ _).trans ⟨_, _, _, _, _, rfl⟩
    · exact stored_setEntry _ _

theorem stored_bufferDone (slc : Bool) (k src dest n : Nat) : s.Stored (s.bufferDone slc k src dest n) := by
  unfold State.bufferDone
  dsimp only
  split
  · split
    · exact .refl s
    · exact State.Stored.trans (.foldl (fun _ _ => stored_freeSlotAt _) _ _) (stored_setEntry _ _)
  · split
    · refine .foldl (fun r i => ?_) _ _
      split
      · exact stored_freeSlotAt _
      · exact .refl r
    · split
      · exact stored_freeSlotAt _
      · exact .refl s

theorem stored_partDone (slc : Bool) (purpose : Nat) (u : Nat × Nat × Nat × List (Option Codeword)) : s.Stored (s.partDone slc purpose u) := by
  refine State.Stored.trans (paged_setCells u.2.2.2 u.2.2.1 s).stored ?_
  unfold State.partDone
  dsimp only
  split
  · exact stored_bufferDone _ _ _ _ _
  · exact stored_copyDone _ _ _ _ _

theorem stored_safeProgram (i : Nat) (op : FlashOp) (skipped : List Nat) : s.Stored (s.safeProgram i op skipped) := by
  unfold State.safeProgram
  split
  · exact State.Stored.trans (t := s.setOp i none) ⟨_, _, _, _, _, rfl⟩ (.foldl (fun _ _ => stored_partDone _ _ _) _ _)
  · exact .refl s

/-- The safe drain works on the maps and the flash only (R546). -/
theorem stored_safeDrain (skipped : List Nat) : s.Stored (s.safeDrain skipped) := by
  unfold State.safeDrain
  split
  · exact .refl s
  · dsimp only
    have hjournal := stored_keepUnhashed.trans (paged_programJournal (s := s.keepUnhashed) s.nss.journal.length).stored
    refine State.Stored.trans ?_ (paged_programJournal _).stored
    refine State.Stored.trans (hjournal.trans (stored_sendEntries _)) (.foldl (fun r o => ?_) _ _)
    split
    · exact stored_safeProgram _ _ _
    · exact .refl r

/-- What a map holds after every value was changed is the default or a changed value. -/
theorem Mem.get_mapAll {α : Type} [DecidableEq α] (d : α) (g : α → α) (m : Mem α) (k : Nat) :
    Mem.get d (Mem.mapAll d g m) k = d ∨ ∃ x, Mem.get d (Mem.mapAll d g m) k = g x := by
  unfold Mem.mapAll
  induction m with
  | nil => exact .inl rfl
  | cons e m ih =>
    rw [List.filterMap_cons]
    by_cases hd : g e.2 = d
    · rw [if_pos hd]
      exact ih
    · rw [if_neg hd]
      by_cases hk : e.1 = k
      · exact .inr ⟨e.2, if_pos hk⟩
      · have hget : Mem.get d ((e.1, g e.2) :: m.filterMap (fun e => if g e.2 = d then none else some (e.1, g e.2))) k =
            Mem.get d (m.filterMap (fun e => if g e.2 = d then none else some (e.1, g e.2))) k := if_neg hk
        rw [hget]
        exact ih

theorem haltOutputs_wp (s : State) (ch : Nat) : (Mem.get {} s.haltOutputs.flash.chans ch).wpHigh = false := by
  rcases Mem.get_mapAll ({} : Chan) (fun c => { c with wpHigh := false }) s.flash.chans ch with h | ⟨x, h⟩
  · exact congrArg Chan.wpHigh h
  · exact congrArg Chan.wpHigh h

/-! ### Self-tests -/

theorem exec_engineSelftest {i : Instance} {pass : Bool} {p : Nat} (hreal : realInstance i = true)
    (hmode : s.psm.mode.engines = true) : exec (.engineSelftest i pass p) s = .next (s.selfTest i pass p) := by
  refine congrArg Host.Outcome.next (if_neg ?_)
  rw [hreal, hmode]
  simp

theorem selfTest_pass {i : Instance} (hi : ∀ g, i ≠ .asu g) (p : Nat) : s.selfTest i true p =
    { s with psm := { s.psm with halt := { s.psm.halt with withdrawn := s.psm.halt.withdrawn.filter (fun j => j != i) } } } := by
  cases i with
  | asu g => exact absurd rfl (hi g)
  | _ => rfl

theorem selfTest_fail {i : Instance} (hi : ∀ g, i ≠ .asu g) (p : Nat) : s.selfTest i false p =
    (s.raise evSelftestFail 255 [(2, instanceComp i), (4, p)]).withdraw i evSelftestFail.code s.recd.next := by
  cases i with
  | asu g => exact absurd rfl (hi g)
  | _ => rfl

/-- The state with a unit among the withdrawn ones. -/
def State.listed (s : State) (i : Instance) : State :=
  { s with psm := { s.psm with halt := { s.psm.halt with withdrawn := if s.psm.halt.withdrawn.contains i then s.psm.halt.withdrawn else s.psm.halt.withdrawn ++ [i] } } }

theorem mem_listed {i j : Instance} : j ∈ (s.listed i).psm.halt.withdrawn ↔ j = i ∨ j ∈ s.psm.halt.withdrawn := by
  by_cases h : s.psm.halt.withdrawn.contains i = true
  · have hin : i ∈ s.psm.halt.withdrawn := by simpa using h
    have heq : (s.listed i).psm.halt.withdrawn = s.psm.halt.withdrawn := if_pos h
    rw [heq]
    exact ⟨.inr, fun hj => hj.elim (fun hj => hj ▸ hin) id⟩
  · have heq : (s.listed i).psm.halt.withdrawn = s.psm.halt.withdrawn ++ [i] := if_neg h
    rw [heq, List.mem_append, List.mem_singleton, or_comm]

theorem withdraw_eq (s : State) (i : Instance) (code seq : Nat) : s.withdraw i code seq =
    if (instanceKin i).all (fun j => (s.listed i).psm.halt.withdrawn.contains j) then (s.listed i).enterSafeHalt code (instanceComp i) seq true
    else s.listed i := rfl

theorem withdraw_kept {i j : Instance} {c n : Nat} (hkin : j ∈ instanceKin i) (hne : j ≠ i) (hout : j ∉ s.psm.halt.withdrawn) :
    s.withdraw i c n = s.listed i := by
  rw [withdraw_eq, if_neg]
  intro hall
  have hj := List.all_eq_true.mp hall j hkin
  rw [List.contains_eq_mem, decide_eq_true_eq, mem_listed] at hj
  exact hj.elim hne hout

/-- With the last of its kind the device goes to SAFE-HALT (R545). -/
theorem withdraw_last {i : Instance} {c n : Nat} (hall : ∀ j ∈ instanceKin i, j = i ∨ j ∈ s.psm.halt.withdrawn) :
    s.withdraw i c n = (s.listed i).enterSafeHalt c (instanceComp i) n true := by
  rw [withdraw_eq, if_pos]
  refine List.all_eq_true.mpr fun j hj => ?_
  rw [List.contains_eq_mem, decide_eq_true_eq, mem_listed]
  exact hall j hj

theorem entersHalt_of_engines (h : s.psm.mode.engines = true) : s.psm.mode.entersHalt = true := by
  cases hm : s.psm.mode <;> simp_all [Mode.entersHalt, Mode.engines]

/-! ### Thermal samples -/

theorem asyncEvent_psm_therm (s : State) (f : Nat) (dw0 : BitVec 32) : (s.asyncEvent f dw0).psm = s.psm ∧ (s.asyncEvent f dw0).therm = s.therm := by
  unfold State.asyncEvent State.finish State.noteFinished State.updCmd
  (repeat' split) <;> exact ⟨rfl, rfl⟩

theorem warnTemp_keeps (s : State) (f : Nat) : (s.warnTemp f).psm = s.psm ∧ (s.warnTemp f).therm = s.therm := by
  unfold State.warnTemp
  dsimp only
  split
  · exact asyncEvent_psm_therm _ _ _
  · exact ⟨rfl, rfl⟩

theorem warnTemps_keep (l : List Nat) (s : State) : (l.foldl State.warnTemp s).psm = s.psm ∧ (l.foldl State.warnTemp s).therm = s.therm := by
  induction l generalizing s with
  | nil => exact ⟨rfl, rfl⟩
  | cons f l ih =>
    obtain ⟨hpsm, htherm⟩ := warnTemp_keeps s f
    obtain ⟨hpsm', htherm'⟩ := ih (s.warnTemp f)
    exact ⟨hpsm'.trans hpsm, htherm'.trans htherm⟩

theorem throttle_spec (s : State) : s.throttle.therm.sensors = s.therm.sensors ∧
    s.throttle.therm.level = throttleLevel s.therm.level s.composite ∧ s.throttle.psm.mode = s.psm.mode ∧
    s.throttle.psm.thermalHold = s.psm.thermalHold := by
  unfold State.throttle
  dsimp only
  split
  next h => exact ⟨rfl, h.symm, rfl, rfl⟩
  next => exact ⟨rfl, rfl, rfl, rfl⟩

theorem thermalCritical_spec (s : State) : s.thermalCritical.therm.sensors = s.therm.sensors ∧
    s.thermalCritical.therm.level = s.therm.level ∧ s.thermalCritical.psm.mode = s.psm.mode ∧
    s.thermalCritical.psm.thermalHold = s.psm.thermalHold ∧ (s.composite < 378 → s.thermalCritical.therm.critical = 0) := by
  unfold State.thermalCritical
  dsimp only
  split
  · exact ⟨rfl, rfl, rfl, rfl, fun _ => rfl⟩
  next h => split <;> exact ⟨rfl, rfl, rfl, rfl, fun h' => absurd h' h⟩

/-- The state after a sample, before a thermal shutdown (R621, R622). -/
def State.sampled (s : State) (l : List Nat) : State :=
  let s1 := ({ s with therm := { s.therm with sensors := l } } : State).throttle.thermalCritical
  s1.present.foldl State.warnTemp s1

theorem sampled_spec (s : State) (l : List Nat) : (s.sampled l).therm.sensors = l ∧
    (s.sampled l).therm.level = throttleLevel s.therm.level (l.foldl max 0) ∧ (s.sampled l).psm.mode = s.psm.mode ∧
    (s.sampled l).psm.thermalHold = s.psm.thermalHold ∧ (l.foldl max 0 < 378 → (s.sampled l).therm.critical = 0) := by
  obtain ⟨hsensors, hlevel, hmode, hhold⟩ := throttle_spec ({ s with therm := { s.therm with sensors := l } } : State)
  obtain ⟨hsensors', hlevel', hmode', hhold', hcritical⟩ := thermalCritical_spec ({ s with therm := { s.therm with sensors := l } } : State).throttle
  have hcomposite : ({ s with therm := { s.therm with sensors := l } } : State).throttle.composite = l.foldl max 0 :=
    congrArg (List.foldl Nat.max 0) hsensors
  obtain ⟨hpsm, htherm⟩ := warnTemps_keep ({ s with therm := { s.therm with sensors := l } } : State).throttle.thermalCritical.present
    ({ s with therm := { s.therm with sensors := l } } : State).throttle.thermalCritical
  refine ⟨?_, ?_, ?_, ?_, fun h => ?_⟩
  · exact (congrArg Thermal.sensors htherm).trans (hsensors'.trans hsensors)
  · exact (congrArg Thermal.level htherm).trans (hlevel'.trans hlevel)
  · exact (congrArg Psm.mode hpsm).trans (hmode'.trans hmode)
  · exact (congrArg Psm.thermalHold hpsm).trans (hhold'.trans hhold)
  · exact (congrArg Thermal.critical htherm).trans (hcritical (hcomposite ▸ h))

theorem exec_thermalSample {l : List Nat} (hmode : s.psm.mode ≠ .off) (hmode' : s.psm.mode ≠ .hold) (hl : l.length = 8) :
    exec (.thermalSample l) s = .next (s.sampled l).thermalShutdown := by
  refine congrArg Host.Outcome.next ?_
  split
  next h => exact absurd h hmode
  next h => exact absurd h hmode'
  next => exact if_neg (not_not_intro hl)

theorem thermalShutdown_below (h : s.composite < 388) : s.thermalShutdown = s := if_pos (.inl h)

/-- At 115 °C the device drains (R537, R623). -/
theorem thermalShutdown_drains (h : 388 ≤ s.composite) (hlive : s.psm.mode.live = true) :
    s.thermalShutdown.psm.mode = .drain ∧ s.thermalShutdown.psm.thermalHold = true := by
  have hhot : ¬(s.composite < 388 ∨ (!s.psm.mode.live) = true) := by rw [hlive]; simp only [Bool.not_true, Bool.false_eq_true, or_false]; omega
  have hdrains : s.psm.mode.drains = true := by cases hm : s.psm.mode <;> simp_all [Mode.live, Mode.drains]
  rw [show s.thermalShutdown = _ from if_neg hhot]
  obtain ⟨hmode, -, -, -, hhold, -⟩ := supplyWarning_drains
    (s := ({ s.raise evThermalCritical 255 [(2, s.composite), (4, (s.therm.critical - 1) / 10), (1, 2)] with
      psm := { (s.raise evThermalCritical 255 [(2, s.composite), (4, (s.therm.critical - 1) / 10), (1, 2)]).psm with thermalHold := true } } : State))
    hdrains evThermalCritical.code
  exact ⟨hmode, hhold⟩

end Sys2Proof.Machine
end

section
/-! PROOFS. The registers: what a write changes, and what a read returns (R8, R9, R126, R127, R197, R198, R327, R344, R380 to R388). -/

open Sys2Proof

namespace Sys2Proof.Machine

variable {s : State} {v : BitVec 64} {f : Nat}

/-! ### Which writes are taken -/

theorem barWrite_open {r : Reg} {n : Nat} (h : s.barOpen f = true) : s.barWrite f r n = (s.writeBar r n).wake := if_pos h

theorem cfgWrite_open {r : Reg} {n : Nat} (h : s.cfgOpen f = true) : s.cfgWrite f r n = (s.writeCfg r n).wake := if_pos h

/-- A wake event leaves the functions (R539). -/
theorem wake_fns (s : State) : s.wake.fns = s.fns := by
  unfold State.wake
  split <;> rfl

theorem wake_mb (s : State) (f : Nat) : s.wake.mb f = s.mb f := congrArg (fun m => (Mem.get ({} : Fn) m f).mbox) (wake_fns s)

theorem mb_updMb_self (s : State) (f : Nat) (g : Mbox → Mbox) : (s.updMb f g).mb f = g (s.mb f) :=
  congrArg Fn.mbox (State.fn_updFn_self s f (fun x => { x with mbox := g x.mbox }))

theorem pageAccess_owner {p o : Nat} {body : State → State} (hp : p < 4) (hoff : s.psm.mode ≠ .off) (hhold : s.psm.mode ≠ .hold)
    (hopen : p ≠ 0 ∨ s.cpe.page0Closed = false) : s.pageAccess p p o body = body s := by
  have hpage : ¬(4 ≤ p ∨ s.psm.mode = .off ∨ s.psm.mode = .hold) := by simp [hoff, hhold, Nat.not_le.mpr hp]
  have hclosed : ¬(p = 0 ∧ s.cpe.page0Closed = true) := by
    rintro ⟨hzero, hclosed⟩
    rcases hopen with h | h
    · exact h hzero
    · exact absurd (h.symm.trans hclosed) Bool.false_ne_true
  rw [State.pageAccess, if_neg hpage, if_neg (not_not_intro rfl), if_neg hclosed]

theorem pageAccess_foreign {p k o : Nat} {body : State → State} (hp : p < 4) (hoff : s.psm.mode ≠ .off) (hhold : s.psm.mode ≠ .hold)
    (hk : k ≠ p) : s.pageAccess p k o body = s.pageBreach p k o := by
  have hpage : ¬(4 ≤ p ∨ s.psm.mode = .off ∨ s.psm.mode = .hold) := by simp [hoff, hhold, Nat.not_le.mpr hp]
  rw [State.pageAccess, if_neg hpage, if_pos hk]

/-! ### The request buffer -/

/-- Eight bytes written within the request buffer read back, and no other byte changes (R197). -/
theorem writeMbRequest_spec {off : Nat} (s : State) (f : Nat) (v : BitVec 64) (hoff : off + 8 ≤ 4096) :
    leNat (readBytes ((s.writeMbRequest f off v.toNat).mb f).req off 8) = v.toNat ∧
      (∀ i, (i < off ∨ off + 8 ≤ i) → Mem.get 0 ((s.writeMbRequest f off v.toNat).mb f).req i = Mem.get 0 (s.mb f).req i) ∧
      ((s.writeMbRequest f off v.toNat).mb f).state = (s.mb f).state := by
  have htake : (leBytes 8 v.toNat).take (4096 - off) = leBytes 8 v.toNat := List.take_of_length_le (by rw [length_leBytes]; omega)
  have hmb : (s.writeMbRequest f off v.toNat).mb f = { s.mb f with req := writeBytes (s.mb f).req off (leBytes 8 v.toNat) } := by
    rw [State.writeMbRequest, mb_updMb_self, htake]
  rw [hmb]
  refine ⟨?_, fun i hi => ?_, rfl⟩
  · dsimp only
    rw [readBytes_writeBytes_leBytes, leNat_leBytes]
    exact Nat.mod_eq_of_lt v.isLt
  · exact writeBytes_other _ _ _ _ (by rw [length_leBytes]; exact hi)

/-! ### What the windows read -/

theorem leNat_zeros {l : List Nat} {g : Nat → Byte} (h : ∀ i ∈ l, g i = 0) : leNat (l.map g) = 0 := by
  induction l with
  | nil => rfl
  | cons i l ih =>
    rw [List.map_cons, leNat, h i List.mem_cons_self, ih fun j hj => h j (List.mem_cons_of_mem _ hj)]
    rfl

theorem window_reserved (m : Mbox) (o : Nat) : m.window (0x200C + o) 4 = 0 := by
  refine leNat_zeros fun i _ => ?_
  unfold Mbox.windowByte
  rw [if_neg (by omega), if_neg (by omega), if_neg (by omega), if_neg (by omega), if_neg (by omega), if_neg (by omega)]

theorem window_header (m : Mbox) {o : Nat} (h : o + 8 ≤ 16) : m.window o 8 = 0 := by
  refine leNat_zeros fun i hi => ?_
  have hi' := List.mem_range.mp hi
  exact if_pos (by omega)

theorem window_payload (m : Mbox) {o : Nat} (h : 16 ≤ o) (h' : o + 8 ≤ 4096) : m.window o 8 = leNat (readBytes m.req o 8) := by
  refine congrArg leNat (List.map_congr_left fun i hi => ?_)
  have hi' := List.mem_range.mp hi
  unfold Mbox.windowByte
  rw [if_neg (by omega), if_pos (by omega)]

theorem window_response (m : Mbox) {o : Nat} (h : o + 8 ≤ 4096) :
    m.window (0x1000 + o) 8 = leNat ((List.range 8).map (fun i => nth 0 m.resp (o + i))) := by
  refine congrArg leNat (List.map_congr_left fun i hi => ?_)
  have hi' := List.mem_range.mp hi
  unfold Mbox.windowByte
  rw [if_neg (by omega), if_neg (by omega), if_pos (by omega), show 0x1000 + o + i - 0x1000 = o + i by omega]

theorem pageRead_closed {p k off : Nat} (h : 4 ≤ p ∨ k ≠ p ∨ (p = 0 ∧ s.cpe.page0Closed = true)) : s.pageRead p k off = 0 := if_pos h

theorem pageRead_open {p off : Nat} (hp : p < 4) (hopen : p ≠ 0 ∨ s.cpe.page0Closed = false) :
    s.pageRead p p off = (Mem.get {} s.cpe.pages p).window off := by
  refine if_neg fun h => ?_
  rcases h with h | h | ⟨hzero, hclosed⟩
  · omega
  · exact h rfl
  · rcases hopen with h | h
    · exact h hzero
    · exact absurd (h.symm.trans hclosed) Bool.false_ne_true

theorem pageWindow_entry (x : Page) {o : Nat} (h : o ≤ 7) : x.window (8 * o) = 0 := by
  unfold Page.window
  rw [if_neg (by omega), if_neg (by omega)]

theorem pageWindow_completion (x : Page) {o : Nat} (h : o ≤ 7) : x.window (0x080 + 8 * o) = (nth 0 x.completion o).toNat := by
  unfold Page.window
  rw [if_neg (by omega), if_pos (by omega), show (0x080 + 8 * o - 0x080) / 8 = o by omega]

theorem pageRead_entry (s : State) (p : Nat) {o : Nat} (h : o ≤ 7) : s.pageRead p p (8 * o) = 0 := by
  unfold State.pageRead
  split
  · rfl
  · exact pageWindow_entry _ h

theorem capReg_eq (f : Nat) : capReg f = if f ≤ 1 then 0x004000300403FFFF else 0x004000200403FFFF := by
  unfold capReg
  by_cases h : f ≤ 1
  · rw [if_pos h, decide_eq_true h]
    rfl
  · rw [if_neg h, decide_eq_false h]
    rfl

theorem irqReg_written (m : Mbox) (n : Nat) : ({ m with irqEn := bit n 0, irqVector := field n 11 1 } : Mbox).irqReg = n % 4096 := by
  have hbit : flag (n.testBit 0) = n % 2 := by
    rw [Nat.testBit_zero]
    by_cases h : n % 2 = 1
    · rw [h]; rfl
    · rw [decide_eq_false h, show n % 2 = 0 by omega]; rfl
  simp only [Mbox.irqReg, bit, field, hbit]
  omega

/-! ### Arbitration settings -/

theorem au_setAu_self (s : State) (i : Nat) (a : Au) : (s.setAu i a).au i = a := by
  unfold State.au State.setAu
  dsimp only
  rw [Mem.get_set_self]
  rfl

/-- The shadow settings of one requester as a write gives them (R343). -/
def AuReq.shadowed (r : AuReq) (n : Nat) : AuReq := { r with shadowCls := field n 1 0, shadowLimit := field n 15 4 }

theorem writeAuCfg_reqs {i r n : Nat} (hi : i ≤ 90) (hr : r < auCount i) :
    ((s.writeAuCfg i r n).au i).reqs = (s.au i).reqs.modify r (fun x => x.shadowed n) := by
  have hin : ¬(90 < i ∨ auCount i ≤ r) := by omega
  unfold State.writeAuCfg
  rw [if_neg hin, au_setAu_self]
  rfl

theorem nth_modify_self {α : Type} {d : α} {l : List α} {r : Nat} {g : α → α} (h : r < l.length) : nth d (l.modify r g) r = g (nth d l r) := by
  simp [nth, h]

theorem nth_modify_other {α : Type} {d : α} {l : List α} {r k : Nat} {g : α → α} (h : k ≠ r) : nth d (l.modify r g) k = nth d l k := by
  simp [nth, h.symm]

end Sys2Proof.Machine
end

section
/-! PROOFS. The package: the groups of balls, and what the outputs drive (R600 to R609, R613). -/

open Sys2Proof

namespace Sys2Proof.Machine

/-! ### Balls -/

theorem mem_allBalls {r c : Nat} (hr : 1 ≤ r) (hr' : r ≤ 34) (hc : 1 ≤ c) (hc' : c ≤ 34) : ({ row := r, col := c } : Ball) ∈ allBalls := by
  refine List.mem_flatten.mpr ⟨_, List.mem_map.mpr ⟨r - 1, List.mem_range.mpr (by omega), rfl⟩, ?_⟩
  refine List.mem_map.mpr ⟨c - 1, List.mem_range.mpr (by omega), ?_⟩
  rw [Nat.sub_add_cancel hr, Nat.sub_add_cancel hc]

theorem balls_vss : allBalls.countP (fun b => decide (b.signal = .vss)) = 324 := by decide +kernel

theorem balls_vddCore : allBalls.countP (fun b => decide (b.signal = .vddCore)) = 64 := by decide +kernel

theorem balls_vddSram : allBalls.countP (fun b => decide (b.signal = .vddSram)) = 16 := by decide +kernel

theorem balls_vddSerdes : allBalls.countP (fun b => decide (b.signal = .vddSerdes)) = 34 := by decide +kernel

theorem balls_vddFio : allBalls.countP (fun b => decide (b.signal = .vddFio)) = 32 := by decide +kernel

theorem balls_vddDio : allBalls.countP (fun b => decide (b.signal = .vddDio)) = 24 := by decide +kernel

theorem balls_vddAonMain : allBalls.countP (fun b => decide (b.signal = .vddAonMain)) = 2 := by decide +kernel

theorem balls_vddAonBkup : allBalls.countP (fun b => decide (b.signal = .vddAonBkup)) = 2 := by decide +kernel

/-- The channel of a flash ball: a name of the pattern stands for that channel's signal, ground and supply for themselves. -/
def flashName (name : String) (channel : Nat) : Signal := patternSignal .vddFio (.flash channel) name

/-- The name at a place of the flash pattern. -/
def flashPlace (r c : Nat) : String := (flashPattern.getD (r - 8) []).getD (c - 1) "VSS"

/-- The flash channels repeat the first one's pattern (R607). -/
theorem flash_signal {r c s h g : Nat} (hr : 8 ≤ r) (hr' : r ≤ 17) (hc : 1 ≤ c) (hc' : c ≤ 3) (hs : s < 2) (hh : h < 2) (hg : g < 4) :
    ({ row := r + 10 * h, col := if s = 0 then c + 3 * g else 35 - (c + 3 * g) } : Ball).signal =
      flashName (flashPlace r c) (8 * s + 4 * h + g) := by
  have hrow : ¬r + 10 * h ≤ 7 := by omega
  have hrow' : ¬28 ≤ r + 10 * h := by omega
  have hplace : (r + 10 * h - 8) % 10 = r - 8 := by omega
  have hhalf : (r + 10 * h - 8) / 10 = h := by omega
  have hcol : (c + 3 * g - 1) % 3 = c - 1 := by omega
  have hgroup : (c + 3 * g - 1) / 3 = g := by omega
  unfold Ball.signal
  by_cases hleft : s = 0
  · subst hleft
    have hcentre : ¬(13 ≤ c + 3 * g ∧ c + 3 * g ≤ 22) := by omega
    have hedge : decide (13 ≤ c + 3 * g) = false := decide_eq_false (by omega)
    simp only [if_true, hrow, hrow', hcentre, if_false, flashBall, hedge, Bool.false_eq_true, flag, hplace, hhalf, hcol, hgroup]
    rfl
  · have hright : s = 1 := by omega
    subst hright
    have hcentre : ¬(13 ≤ 35 - (c + 3 * g) ∧ 35 - (c + 3 * g) ≤ 22) := by omega
    have hedge : decide (13 ≤ 35 - (c + 3 * g)) = true := decide_eq_true (by omega)
    have hback : 35 - (35 - (c + 3 * g)) = c + 3 * g := by omega
    simp only [Nat.one_ne_zero, hrow, hrow', hcentre, if_false, flashBall, hedge, if_true, flag, hback, hplace, hhalf, hcol, hgroup]
    rfl

/-- The channel of a DRAM ball, likewise. -/
def dramName (name : String) (channel : Nat) : Signal := patternSignal .vddDio (.dram channel) name

/-- The name at a place of the DRAM pattern. -/
def dramPlaceName (r c : Nat) : String := (dramPattern.getD (r - 28) []).getD (c - 1) "VSS"

/-- DRAM channel 1 lies 17 columns to the right of channel 0 (R608). -/
theorem dram_signal {r c k : Nat} (hr : 28 ≤ r) (hc : 1 ≤ c) (hc' : c ≤ 17) :
    ({ row := r, col := c + 17 * k } : Ball).signal = dramName (dramPlaceName r c) k := by
  have hrow : ¬r ≤ 7 := by omega
  have hchannel : (c + 17 * k - 1) / 17 = k := by omega
  have hcol : (c + 17 * k - 1) % 17 = c - 1 := by omega
  unfold Ball.signal
  simp only [hrow, hr, if_false, if_true, dramBall, hchannel, hcol]
  rfl

/-! ### Outputs -/

variable {s : State}

theorem unpowered_iff (m : Mode) : m.unpowered = true ↔ m = .off ∨ m = .hold := by cases m <;> simp [Mode.unpowered]

theorem powered {m : Mode} (hoff : m ≠ .off) (hhold : m ≠ .hold) : m.unpowered = false := by
  cases m <;> simp_all [Mode.unpowered]

theorem flashWp_powered (h : s.psm.mode.unpowered = false) (c : Nat) :
    s.flashWp c = if (Mem.get {} s.flash.chans c).wpHigh then .high else .low := by
  simp [State.flashWp, h, State.wpLow, Drive.ofLevel]

/-- The pair's output is low where the device is not running (R575). -/
theorem pairUpOut_idle (h : s.psm.mode = .hold ∨ s.psm.mode = .boot ∨ s.psm.mode = .drain ∨ s.psm.mode = .safeHalt) : s.pairUpOut = false := by
  rcases h with h | h | h | h <;> simp [State.pairUpOut, h]

theorem sweepTx_idle (h : s.psm.mode ≠ .off) (hout : s.pairUpOut = false) : s.sweepTx = .idle ∧ s.pairUpPin = .low := by
  simp [State.sweepTx, State.pairUpPin, h, hout, Drive.ofLevel]

end Sys2Proof.Machine
end

section
/-! PROOFS. The monitors, the test port, the register writes and the package, command by command (R543 to R547, R600 to R623). -/

open Sys2Proof

namespace Sys2Proof.Machine

theorem off_of_live {s : State} (h : s.psm.mode.live = true) : s.psm.mode ≠ .off := fun hm => by rw [hm] at h; cases h

theorem hold_of_live {s : State} (h : s.psm.mode.live = true) : s.psm.mode ≠ .hold := fun hm => by rw [hm] at h; cases h

theorem writeMsix_low {s : State} {v : BitVec 64} {f i d : Nat} (hi : i < s.msixCount f) (hd : d ≤ 2) :
    s.writeMsix f i d v.toNat = s.updFn f (fun x => { x with msix := Mem.set 0 x.msix (4 * i + d) (v.setWidth 32) }) := by
  have hin : ¬(s.msixCount f ≤ i ∨ 3 < d) := by omega
  have hd' : d ≠ 3 := by omega
  simp only [State.writeMsix, hin, hd', if_false, false_and, BitVec.ofNat_toNat]

theorem shadowed_eq (r : AuReq) (n : Nat) : r.shadowed n = { r with shadowCls := n % 4, shadowLimit := n / 16 % 4096 } := by
  simp only [AuReq.shadowed, field, Nat.pow_zero, Nat.div_one] <;> rfl

theorem cfgReg_shadowed (r : AuReq) (n : Nat) : (r.shadowed n).cfgReg = n % 4 + n / 16 % 4096 * 16 := by
  rw [shadowed_eq]
  simp only [AuReq.cfgReg]
  omega

/-- Devices 8 wide take one strobe for a byte, devices 4 wide one for each half (R609). -/
theorem strobes {i k : Nat} (hk : k < 4) : strobeOf true (8 * i + k) = i ∧ strobeOf true (8 * i + 4 + k) = i ∧
    strobeOf false (8 * i + k) = i ∧ strobeOf false (8 * i + 4 + k) = i + 5 := by
  have hlow : (8 * i + k) % 8 < 4 := by omega
  have hhigh : ¬(8 * i + 4 + k) % 8 < 4 := by omega
  simp only [strobeOf, hlow, hhigh, or_true, Bool.false_eq_true, or_false, if_true, if_false]
  omega

theorem faultPin_level (s : State) : s.faultPin = if s.psm.pins.faultLow then .low else .highZ := by
  cases h : s.psm.pins.faultLow <;> simp [State.faultPin, State.faultN, h]

/-- A name of a pattern is ground, supply or a signal, of whatever channel it is read (R602). -/
theorem patternSignal_cases (n : String) : (∀ supply signal, patternSignal supply signal n = .vss) ∨
    (∀ supply signal, patternSignal supply signal n = supply) ∨ ∀ supply signal, patternSignal supply signal n = signal n := by
  by_cases hground : n = "VSS"
  · exact .inl fun _ _ => if_pos hground
  · by_cases hsupply : n = "VDD"
    · exact .inr (.inl fun _ _ => (if_neg hground).trans (if_pos hsupply))
    · exact .inr (.inr fun _ _ => (if_neg hground).trans (if_neg hsupply))

/-- Settles O59. -/
theorem monitorsTestPortAndRegisterWrites : Obligations.MonitorsTestPortAndRegisterWrites := by
  unfold Obligations.MonitorsTestPortAndRegisterWrites
  refine ⟨?_, ?_, ?_, ?_, ?_, ?_, ?_, ?_, ?_, ?_, ?_, ?_, ?_, ?_, ?_, ?_, ?_, ?_, ?_, ?_, ?_, ?_, ?_, ?_, ?_, ?_, ?_, ?_, ?_, ?_, ?_, ?_, ?_, ?_, ?_, ?_, ?_, ?_, ?_, ?_, ?_, ?_, ?_, ?_, ?_, ?_, ?_, ?_, ?_, ?_, ?_, ?_, ?_, ?_, ?_, ?_, ?_, ?_, ?_, ?_, ?_, ?_, ?_, ?_, ?_, ?_, ?_, ?_, ?_, ?_, ?_, ?_, ?_, ?_, ?_, ?_, ?_, ?_, ?_, ?_, ?_, ?_, ?_, ?_, ?_, ?_, ?_, ?_, ?_⟩
  · intro s c k d h
    refine congrArg Host.Outcome.next ?_
    rcases h with h | h | h <;> rw [h]
  · intro s c k d hk
    refine congrArg Host.Outcome.next ?_
    split
    · rfl
    · rfl
    · rfl
    · exact if_pos (by rw [hk]; rfl)
  · intro s c k d hmode hk
    have hrun : s.psm.mode.entersHalt = true := entersHalt_of_running hmode
    obtain ⟨hhalt, hcode, hcomp, hdrain, -, -, -, hfault⟩ := dangerHalt_psm (s := (s.draw 256).2) hrun (haltEvent c k) k [(32, (s.draw 256).1.toNat)] d
    refine ⟨_, exec_safeHaltEntered (.inl hrun) hk, hhalt, hcode, hcomp, hfault, fun hd => ⟨?_, ?_⟩⟩
    · rw [hdrain, hd]
      rfl
    · rw [hd]
      exact enterSafeHalt_outputs (s := (s.draw 256).2.raise (haltEvent c k) 255 [(32, (s.draw 256).1.toNat)]) hrun c k (s.draw 256).2.recd.next
  · intro s l h
    refine congrArg Host.Outcome.next (if_pos ?_)
    rcases h with h | h
    · exact .inl h
    · exact .inr (by rw [h]; rfl)
  · intro s l ch hmode hdrain
    have hgo : ¬(s.psm.mode ≠ .safeHalt ∨ (!s.psm.halt.safeDrain) = true) := by simp [hmode, hdrain]
    obtain ⟨_, _, _, _, _, hstored⟩ := stored_safeDrain (s := s) l
    have hmode' : (s.safeDrain l).psm.mode = .safeHalt := by rw [hstored]; exact hmode
    exact ⟨_, congrArg Host.Outcome.next (if_neg hgo), rfl, hmode', rfl, haltOutputs_wp _ ch⟩
  · intro s p c h
    refine congrArg Host.Outcome.next (if_pos ?_)
    rcases h with h | h | h
    · exact .inl (by rw [h]; rfl)
    · exact .inl (by rw [h]; rfl)
    · exact .inr h
  · intro s p c hmode hp
    have hrun := entersHalt_of_running hmode
    exact ⟨exec_coxLockstep (monitored_of_entersHalt hrun) hp, (dangerHalt_latches hrun _ _ _ _).1⟩
  · intro s d khz hlow hhigh
    exact congrArg Host.Outcome.next (if_pos (.inr (.inr ⟨hlow, hhigh⟩)))
  · intro s d khz hmode hn hout
    have hrun := entersHalt_of_running hmode
    have hdrain : s.psm.mode ≠ .drain := fun h => by rw [h] at hrun; cases hrun
    obtain ⟨hoff, hmode'⟩ := forceOff_spec (s.raise evClockFault 255 [(1, d), (4, khz)]) d
    obtain ⟨hhalt, hcode, hcomp, -, -, -, -, hforced, -⟩ := enterSafeHalt_psm (s := (s.raise evClockFault 255 [(1, d), (4, khz)]).forceOff d)
      ((congrArg Mode.entersHalt hmode').trans hrun) evClockFault.code evClockFault.comp s.recd.next true
    exact ⟨_, congrArg Host.Outcome.next ((if_neg (clockFault_detected (monitored_of_entersHalt hrun) hn hout)).trans (if_neg hdrain)),
      hhalt, hcode, hcomp, hforced ▸ hoff⟩
  · intro s d khz hmode hn hout
    have hmon : s.psm.mode.monitored = true := by rw [hmode]; rfl
    exact congrArg Host.Outcome.next ((if_neg (clockFault_detected hmon hn hout)).trans (if_pos hmode))
  · intro s i p h
    have hnot : (!realInstance i) = true ∨ (!(s.psm.mode.engines || s.psm.mode == .drain)) = true := by
      rcases h with h | ⟨h, h'⟩
      · exact .inl (by rw [h]; rfl)
      · exact .inr (by simp [h, h'])
    exact ⟨congrArg Host.Outcome.next (if_pos hnot), congrArg Host.Outcome.next (if_pos hnot)⟩
  · intro s i p hreal hmode hi
    refine ⟨_, (exec_engineSelftest hreal hmode).trans (congrArg Host.Outcome.next (selfTest_pass hi p)), ?_, fun j hj => ?_, rfl⟩
    · simp
    · simp [hj]
  · intro s i p hreal hmode hi
    exact (exec_engineSelftest hreal hmode).trans (congrArg Host.Outcome.next (selfTest_fail hi p))
  · intro s g p hg hmode
    have hreal : realInstance (.asu g) = true := by
      rw [realInstance, List.contains_eq_mem, decide_eq_true_eq]
      exact List.mem_map.mpr ⟨g, List.mem_range.mpr hg, rfl⟩
    exact ⟨exec_engineSelftest hreal hmode, exec_engineSelftest hreal hmode⟩
  · intro s i j c n hkin hne hout
    rw [withdraw_kept hkin hne hout]
    refine ⟨?_, rfl, rfl⟩
    rw [List.contains_eq_mem, decide_eq_true_eq]
    exact mem_listed.mpr (.inl rfl)
  · intro s i c n hall hmode
    rw [withdraw_last hall]
    obtain ⟨hhalt, hcode, -⟩ := enterSafeHalt_psm (s := s.listed i) (entersHalt_of_engines hmode) c (instanceComp i) n true
    exact ⟨hhalt, hcode⟩
  · intro s l h
    refine congrArg Host.Outcome.next ?_
    split
    next => rfl
    next hm =>
      rcases h with h | ⟨h, -⟩
      · cases hm.symm.trans h
      · exact absurd hm h
    next hm _ =>
      rcases h with h | ⟨-, h⟩
      · exact absurd h hm
      · exact if_pos h
  · intro s k l hmode
    simp only [exec, execThermalSample, hmode]
    rfl
  · intro s l hlive hl hcool
    obtain ⟨hsensors, hlevel, hmode, -, hcritical⟩ := sampled_spec s l
    have hcomposite : (s.sampled l).composite = l.foldl max 0 := congrArg (List.foldl Nat.max 0) hsensors
    have hstays : (s.sampled l).thermalShutdown = s.sampled l := thermalShutdown_below (by rw [hcomposite]; omega)
    refine ⟨_, (exec_thermalSample (off_of_live hlive) (hold_of_live hlive) hl).trans (congrArg Host.Outcome.next hstays), hsensors, ?_,
      hcritical (by omega), hmode⟩
    rw [hlevel, throttleLevel, if_neg (by omega), if_neg (by omega), if_neg (by omega), if_neg (by omega)]
  · intro s l hlive hl hhot hcool
    obtain ⟨hsensors, hlevel, hmode, hhold, -⟩ := sampled_spec s l
    have hcomposite : (s.sampled l).composite = l.foldl max 0 := congrArg (List.foldl Nat.max 0) hsensors
    have hstays : (s.sampled l).thermalShutdown = s.sampled l := thermalShutdown_below (by rw [hcomposite]; omega)
    refine ⟨_, (exec_thermalSample (off_of_live hlive) (hold_of_live hlive) hl).trans (congrArg Host.Outcome.next hstays), hsensors, ?_,
      hmode, hhold⟩
    rw [hlevel, throttleLevel, if_pos hhot]
  · intro s l hlive hl hhot
    obtain ⟨hsensors, -, hmode, -⟩ := sampled_spec s l
    have hcomposite : (s.sampled l).composite = l.foldl max 0 := congrArg (List.foldl Nat.max 0) hsensors
    exact ⟨_, exec_thermalSample (off_of_live hlive) (hold_of_live hlive) hl,
      thermalShutdown_drains (by rw [hcomposite]; exact hhot) (by rw [hmode]; exact hlive)⟩
  · intro old k
    unfold throttleLevel
    (repeat' split) <;> omega
  · exact fun s h => congrArg Host.Outcome.next (if_neg h)
  · exact fun s h => congrArg Host.Outcome.next (if_neg h)
  · exact fun s h => congrArg Host.Outcome.next (if_neg h)
  · exact fun s l h => congrArg Host.Outcome.next (if_neg h)
  · exact fun s h htest => congrArg Host.Outcome.next ((if_pos htest).trans (if_neg h))
  · exact fun s h htest => congrArg Host.Outcome.next ((if_pos htest).trans (if_neg h))
  · exact fun s h htest => congrArg Host.Outcome.next ((if_pos htest).trans (if_neg h))
  · exact fun s h htest => congrArg Host.Outcome.next ((if_neg (by rw [htest]; exact Bool.false_ne_true)).trans (if_neg h))
  · exact fun s h htest => congrArg Host.Outcome.next ((if_neg (by rw [htest]; exact Bool.false_ne_true)).trans (if_neg h))
  · exact fun s h htest => congrArg Host.Outcome.next ((if_neg (by rw [htest]; exact Bool.false_ne_true)).trans (if_neg h))
  · intro s l h
    have hload : ∀ (ir : BitVec 8) (dr boundary : List Bool), s.tapLoad ir dr boundary = s := fun _ _ _ => if_pos h
    simp only [exec, execExtest, execIdcode, execSamplePreload, execHighz, execClamp, execBypass, execTrstN, State.tapBypass, hload, ite_self, and_self]
  · intro s v f off hopen hoff
    obtain ⟨hread, hother, hstate⟩ := writeMbRequest_spec s f v hoff
    have hwrite : s.writeBar (.mbRequest f off) v.toNat = s.writeMbRequest f off v.toNat := if_pos (by omega)
    refine ⟨_, congrArg Host.Outcome.next ((barWrite_open hopen).trans (congrArg State.wake hwrite)), ?_⟩
    rw [wake_mb]
    exact ⟨hread, hother, hstate⟩
  · intro s v f off hopen hoff
    exact congrArg Host.Outcome.next ((barWrite_open hopen).trans (congrArg State.wake (if_neg (Nat.not_lt.mpr hoff))))
  · exact fun s v f hopen => congrArg Host.Outcome.next (barWrite_open hopen)
  · exact fun s v f hopen hbit => congrArg Host.Outcome.next ((barWrite_open hopen).trans (congrArg State.wake (if_pos hbit)))
  · exact fun s v f hopen hbit => congrArg Host.Outcome.next ((barWrite_open hopen).trans (congrArg State.wake
      (if_neg (fun h => Bool.false_ne_true (hbit.symm.trans h)))))
  · exact fun s v f o => rfl
  · exact fun s v f o => rfl
  · exact fun s v f o => rfl
  · exact fun s v f => rfl
  · exact fun s v f => rfl
  · exact fun s v f => rfl
  · exact fun s v f => rfl
  · exact fun s v f => rfl
  · exact fun s v f => rfl
  · exact fun s v f o => rfl
  · exact fun s v f hclosed => congrArg Host.Outcome.next (if_neg (by rw [hclosed]; exact Bool.false_ne_true))
  · intro s v f hopen
    have hwidth : BitVec.ofNat 32 v.toNat = v.setWidth 32 := BitVec.ofNat_toNat 32 v
    exact congrArg Host.Outcome.next ((barWrite_open hopen).trans (congrArg (fun w => (s.updFn f (fun x => { x with aqa := w &&& 0x0FFF0FFF })).wake) hwidth))
  · exact fun s v f hopen => congrArg Host.Outcome.next (barWrite_open hopen)
  · exact fun s v f hopen => congrArg Host.Outcome.next (barWrite_open hopen)
  · exact fun s v f hopen => congrArg Host.Outcome.next (cfgWrite_open hopen)
  · intro s v f hopen hv
    refine congrArg Host.Outcome.next ((cfgWrite_open hopen).trans (congrArg State.wake ?_))
    simp only [State.writeCfg, State.writePower, hv]
  · intro s v f hopen hv
    refine congrArg Host.Outcome.next ((cfgWrite_open hopen).trans (congrArg State.wake ?_))
    simp only [State.writeCfg, State.writePower, hv]
  · exact fun s v f hopen => congrArg Host.Outcome.next (cfgWrite_open hopen)
  · exact fun s v f d => rfl
  · exact fun s v ch hch hlive => congrArg Host.Outcome.next (if_pos ⟨hch, hlive⟩)
  · intro s v ch h
    refine congrArg Host.Outcome.next (if_neg fun hgo => ?_)
    rcases h with h | h
    · omega
    · exact Bool.false_ne_true (h.symm.trans hgo.2)
  · intro s v i r hlive hi hr hlen
    have hreqs := writeAuCfg_reqs (s := s) (n := v.toNat) hi hr
    refine ⟨_, congrArg Host.Outcome.next (if_pos hlive), fun k _ hne => ?_, ?_⟩
    · rw [hreqs]
      exact nth_modify_other hne
    · rw [hreqs]
      exact (nth_modify_self (g := fun x : AuReq => x.shadowed v.toNat) (by rw [hlen]; exact hr)).trans (shadowed_eq _ _)
  · intro s v c i hc hi hopen hserves
    refine congrArg Host.Outcome.next (if_neg ?_)
    rintro (h | h | h | h)
    · omega
    · omega
    · exact h hopen
    · rw [hserves] at h
      exact Bool.false_ne_true h
  · exact fun s v c i h => congrArg Host.Outcome.next (if_pos (.inr (.inr (.inl h))))
  · intro s v p i hp hoff hhold hopen hi
    exact congrArg Host.Outcome.next ((pageAccess_owner hp hoff hhold hopen).trans (if_neg (by omega)))
  · exact fun s v p i k hp hoff hhold hk => congrArg Host.Outcome.next (pageAccess_foreign hp hoff hhold hk)
  · exact fun s v p k hp hoff hhold hk => congrArg Host.Outcome.next (pageAccess_foreign hp hoff hhold hk)
  · exact fun s v p i k hp hoff hhold hk => congrArg Host.Outcome.next (pageAccess_foreign hp hoff hhold hk)
  · intro s v f i d hopen hi hd
    exact congrArg Host.Outcome.next ((barWrite_open hopen).trans (congrArg State.wake (writeMsix_low hi hd)))
  · intro s v f i d hopen h
    exact congrArg Host.Outcome.next ((barWrite_open hopen).trans (congrArg State.wake (if_pos h)))
  · exact fun s f o => window_reserved (s.mb f) o
  · exact fun s f o h => window_header (s.mb f) h
  · exact fun s f o h h' => window_payload (s.mb f) h h'
  · exact fun s f o h => window_response (s.mb f) h
  · exact fun s f o h => ⟨rfl, pageRead_entry s f h⟩
  · exact fun s f => ⟨capReg_eq f, rfl, rfl, rfl, rfl⟩
  · intro s f
    cases h : (s.mb f).state <;> simp only [State.regRead, Mbox.statusReg, h, MbState.code]
  · intro s v f hopen
    refine ⟨_, congrArg Host.Outcome.next (barWrite_open hopen), ?_⟩
    have hmb : ((s.writeMbIrq f v.toNat).wake).mb f = { s.mb f with irqEn := bit v.toNat 0, irqVector := field v.toNat 11 1 } :=
      (wake_mb _ f).trans (mb_updMb_self s f _)
    exact (congrArg Mbox.irqReg hmb).trans (irqReg_written (s.mb f) v.toNat)
  · intro s v c hc hlive
    refine ⟨_, congrArg Host.Outcome.next (if_pos ⟨hc, hlive⟩), ?_⟩
    exact congrArg (fun x : DmaCh => x.head.toNat) (State.ch_setCh_self s c { s.ch c with head := v &&& headMask })
  · intro s v i r hlive hi hr hlen
    have hreqs := writeAuCfg_reqs (s := s) (n := v.toNat) hi hr
    refine ⟨_, congrArg Host.Outcome.next (if_pos hlive), ?_⟩
    have hreg : nth {} ((s.writeAuCfg i r v.toNat).au i).reqs r = (nth {} (s.au i).reqs r).shadowed v.toNat := by
      rw [hreqs]
      exact nth_modify_self (by rw [hlen]; exact hr)
    exact (congrArg AuReq.cfgReg hreg).trans (cfgReg_shadowed _ _)
  · exact fun s p k o h => ⟨pageRead_closed h, pageRead_closed h⟩
  · intro s p o hp hopen ho
    exact ⟨pageRead_open hp hopen, (pageRead_open hp hopen).trans (pageWindow_completion _ ho)⟩
  · exact fun i f o => ⟨rfl, rfl, rfl, rfl, rfl, rfl, rfl, rfl, rfl, rfl⟩
  · exact fun r c hr hr' hc hc' => mem_allBalls hr hr' hc hc'
  · intro x n h
    simp only [List.mem_cons, Prod.mk.injEq, List.not_mem_nil, or_false] at h
    rcases h with ⟨rfl, rfl⟩ | ⟨rfl, rfl⟩ | ⟨rfl, rfl⟩ | ⟨rfl, rfl⟩ | ⟨rfl, rfl⟩ | ⟨rfl, rfl⟩ | ⟨rfl, rfl⟩ | ⟨rfl, rfl⟩
    · exact balls_vss
    · exact balls_vddCore
    · exact balls_vddSram
    · exact balls_vddSerdes
    · exact balls_vddFio
    · exact balls_vddDio
    · exact balls_vddAonMain
    · exact balls_vddAonBkup
  · intro _ i k _ hk
    exact strobes hk
  · intro r c s h g hr hr' hc hc' hs hh hg
    have hfirst : ({ row := r, col := c } : Ball).signal = flashName (flashPlace r c) 0 := flash_signal (s := 0) (h := 0) (g := 0) hr hr' hc hc' (by omega) (by omega) (by omega)
    rw [flash_signal hr hr' hc hc' hs hh hg, hfirst]
    rcases patternSignal_cases (flashPlace r c) with h | h | h <;> simp only [flashName, h]
  · intro r c hr _ hc hc'
    have hfirst : ({ row := r, col := c } : Ball).signal = dramName (dramPlaceName r c) 0 := dram_signal (k := 0) hr hc hc'
    have hsecond : ({ row := r, col := c + 17 } : Ball).signal = dramName (dramPlaceName r c) 1 := dram_signal (k := 1) hr hc hc'
    rw [hfirst, hsecond]
    rcases patternSignal_cases (dramPlaceName r c) with h | h | h <;> simp only [dramName, h]
  · intro s c hmode
    have hdown : s.psm.mode.unpowered = true := (unpowered_iff _).mpr hmode
    refine ⟨if_pos hdown, if_pos hdown, if_pos hdown, fun h => ⟨if_pos h, if_pos h, if_pos h, if_pos h⟩, fun h => ?_⟩
    exact sweepTx_idle (by rw [h]; decide) (pairUpOut_idle (.inl h))
  · intro s c hoff hhold
    have hup := powered hoff hhold
    have hnot : ¬s.psm.mode.unpowered = true := by rw [hup]; exact Bool.false_ne_true
    exact ⟨flashWp_powered hup c, if_neg hnot, if_neg hnot, if_neg hoff, if_neg hoff⟩
  · intro s
    refine ⟨faultPin_level s, fun h => ?_⟩
    have hoff : s.psm.mode ≠ .off := by rcases h with h | h | h <;> rw [h] <;> decide
    exact sweepTx_idle hoff (pairUpOut_idle (.inr h))

end Sys2Proof.Machine
end
